-- ==== Sys2Proof/Word.lean ====
section
/-! DEFINITION. The word types of the XZ-2500 model, and the plainest arithmetic on them. -/
namespace Sys2Proof

/-- One byte. Multi-byte quantities are little-endian everywhere (R5). -/
abbrev Byte := BitVec 8

/-- A 32-bit register (R6). -/
abbrev Word32 := BitVec 32

/-- A 64-bit quantity: fabric time, a base address, a counter pair. -/
abbrev Word64 := BitVec 64

end Sys2Proof
end

