-- ==== Sys2Proof/Syntax.lean ====
section
/-! DEFINITION. The commands the block takes, one constructor per row of the opcode table, with the data each carries.
The table gives its rows no bits: a command is a term, not a word. Numbers of instances (engines, cores, ports, tenants …)
are as the manual numbers them. -/
namespace Sys2Proof

/-- The fields of a remote request (R229): ESEQ, the flag byte, ADDR, LEN, AOP, SEQ and ring of the record, OPND0, OPND1
and the data, with the 64-byte units of it that carry the poison marker (R472; log entry 49). -/
structure RemMsg where
  eseq : Nat
  flags : Byte
  addr : Word64
  len : Nat
  aop : Nat
  seq : Word32
  ring : Nat
  op0 : Word64
  op1 : Word64
  data : List Byte
  poison : List Nat
deriving DecidableEq, Repr


/-! ### Operands of chapters 01 to 05 -/

/-- The three reference clocks the monitor compares (R17, R18). -/
inductive ClkRef where
  | sys | serdes | ocxo
deriving DecidableEq, Repr

/-- A 64-byte stream descriptor, word by word (R75). -/
structure StreamDesc where
  base : Word64
  dim0 : Word64
  dim1 : Word64
  dim2 : Word64
  dim3 : Word64
  dim4 : Word64
  slot : Word32
  aux : Word32
  ctl : Word32
  sync : Word32
deriving DecidableEq, Repr

/-- A 128-byte command record, field by field (R108). -/
structure CmdRec where
  opcode : BitVec 16
  ver : Byte
  flags : Byte
  seq : Word32
  ctl : Word32
  place : Word32
  req : Word32
  depctl : Word32
  wait0 : Word64
  wait1 : Word64
  sigAmt : Word32
  user : Word32
  startFt : Word64
  deadline : Word64
  w0 : Word64
  w1 : Word64
  w2 : Word64
  w3 : Word64
  w4 : Word64
  w5 : Word64
  w6 : Word64
  w7 : Word64
deriving DecidableEq, Repr

/-- One group of 32 k of one output block, as the operator library cuts it (R48, R55, R59, R88): the operator, the bank,
the output rows (64 on an Ox engine, P on a Colt engine), the slots and steps of the two panels, their formats (R76), the
byte offsets in the tile of the scale slices, the k of the group (32, or fewer in a plain operand's last group), and, on
the block's first group, where the bank starts from (R56): 0 zero, 1 the block at `startAt`, 2 the row vector at
`startAt`, 3 the bank as it stands. `blocks` is the number of blocks of the operator's part still to start. With B slot 0xF_FFFF the B
operand comes from the direct DRAM port's stream `port` (R61, R89). `last`: the group is the last of its block. -/
structure GroupPlan where
  op : Nat
  bank : Nat
  rows : Nat
  aSlot : Nat
  aStep : Nat
  aFmt : Nat
  aScale : Nat
  bSlot : Nat
  bStep : Nat
  bFmt : Nat
  bScale : Nat
  kn : Nat
  start : Option Nat
  startAt : Nat
  blocks : Nat
  port : Nat
  last : Bool
deriving DecidableEq, Repr

/-- The drain of a finished bank (R54, R56, R58): the operator, the output rows and columns it holds, the drain multiplier (FP32), the destination slot, its
layout (R73), format (R76) and first position, the cast control (R108), the scale slice's byte offset, whether blocks run
along the rows, and whether the bank is kept. -/
structure DrainPlan where
  op : Nat
  rows : Nat
  cols : Nat
  mul : Word32
  slot : Nat
  layout : Nat
  fmt : Nat
  pos : Nat
  cast : Nat
  scale : Nat
  alongRows : Bool
  keep : Bool
deriving DecidableEq, Repr

/-- What is held on an engine slot (R87): a stream, by number, or the drain of a bank. -/
inductive HeldReq where
  | strm (n : Nat)
  | drain (e bank : Nat)
deriving DecidableEq, Repr

/-- What an access to the unified range does (R153, R229). -/
inductive AccKindM where
  | read
  | write
  | atomic
deriving DecidableEq, Repr

/-- An access that reaches an MPD (R153): who asks (a tenant 0–63; 0x40 the device itself for the model key domain; 0x7F
the administrator with DIAG), for which operator if any, what, where, the bytes written, the bytes read. For an atomic,
`data` is the operand and `len` its code (R230). `fresh` is a token the requester knows the access by; `rem` is the
remote request it serves: source package, class, request. `poison`: the 64-byte units a write marks, counted from the unit of
`addr` (R472). -/
structure Access where
  who : Nat
  op : Option Nat
  kind : AccKindM
  addr : Nat
  data : List Byte
  len : Nat
  fresh : Nat
  rem : Option (Nat × Nat × RemMsg)
  poison : List Nat
deriving DecidableEq, Repr

/-- How a flash tile read ends (R165, R167, R169). -/
inductive FlashRead where
  | ok
  | retried
  | rebuilt
  | failed
deriving DecidableEq, Repr

/-- What the patrol scrub, or any read, finds in a unit (R161, R162): nothing, one symbol corrected, the symbols of one
die found by trial, or an uncorrectable error. -/
inductive EccResult where
  | clean
  | symbol
  | dieTrial (die : Nat)
  | poisoned
deriving DecidableEq, Repr

/-- How the end of a move goes (R154): every unit copied and verified, a DRAM destination's write fails, or copy A of the table cannot
be written. -/
inductive MoveEnd where
  | done
  | dstFail
  | noCopyA
deriving DecidableEq, Repr

/-- The vector-unit functions of R64, as W3 of ELEMENTWISE selects them. The manual gives W3 no codes (log entry 18). -/
inductive VFun where
  | add | sub | mul | fma | div | sqrt | recip | rsqrt | exp2 | log2 | exp | ln | tanh | sigmoid | gelu | silu
  | cmpLt | cmpLe | cmpEq | select | abs | neg | copySign | min | max
  | iadd | isub | imul | iand | ior | ixor | inot | ishl | ishr | isar | icmpLt | icmpEq
  | cast
deriving DecidableEq, Repr

/-- What REDUCE computes of each row (R121). -/
inductive RedOp where
  | sum | max | min
deriving DecidableEq, Repr

/-- One group of GROUPED_MATMUL: the tensor descriptors of A, B and the output, and the block or row its start sources 1 and 2 read
(R56, R121; log entry 19). -/
structure MmGroup where
  a : Word64
  b : Word64
  out : Word64
  start : List Word32
deriving DecidableEq, Repr

/-- Cosine and sine of one rotation of ROPE, as FP32 words (R121; log entry 20). -/
structure Rot where
  cosW : Word32
  sinW : Word32
deriving DecidableEq, Repr

/-! ### Operands of chapters 06 and 07 -/

/-- A message (R191): DEST and SRC as the header holds them (package in bits 11:0, domain in bits 14:12), HOPS, CLASS, its
virtual channel and owner, its bytes from offset 0x08 on, whether it was cut short (ABT), and the
64-byte units of its data that carry the poison marker (R472; log entry 49). -/
structure Msg where
  dest : Nat
  src : Nat
  hops : Nat
  cls : Nat
  vc : Nat
  own : Nat
  body : List Byte
  abt : Bool
  marks : List Nat
deriving DecidableEq, Repr

/-- A flit (R188): the header fields, the 240 payload bytes as they stand on the link, and its CRC. -/
structure Flit where
  type : Byte
  flg : Byte
  len : Byte
  own : Byte
  lseq : BitVec 24
  ack : BitVec 24
  cred : BitVec 16
  crc : Word32
  payload : List Byte
deriving DecidableEq, Repr

/-- What a HELLO tells of the neighbour (R189, R221): package, domain, port number, whether that port is a reach port, ENC,
half width, and the session nonce (R445). -/
structure Hello where
  pkg : Nat
  domain : Nat
  port : Nat
  reach : Bool
  enc : Bool
  half : Bool
  nonce : Word32
deriving DecidableEq, Repr

/-- The fields of a response (R229): ESEQ, CODE, DETAIL, OLD, the data and the 64-byte units of it that are poisoned. -/
structure RspMsg where
  eseq : Nat
  code : Nat
  detail : Nat
  old : Word64
  data : List Byte
  poison : List Nat
deriving DecidableEq, Repr

/-- A block as a lane's receiver gives it, corrected and descrambled (R179 to R181): of the first or the second of the two slots that a
flit may take (0, 1), its physical lane, its type bit, its 32 bytes. -/
structure LaneBlock where
  slot : Nat
  lane : Nat
  ctl : Bool
  bytes : List Byte
deriving DecidableEq, Repr

/-! ### Operands of chapter 08 -/

/-- A CHUNK (R259): its fields, its data, and whether it carries the poison marker (R472; log entry 49). -/
structure Chunk where
  slot : Nat
  gen : Nat
  dup : Bool
  ag : Bool
  step : Nat
  cseq : Nat
  sig : Word32
  idx : Nat
  nelem : Nat
  fmt : Nat
  pos : Nat
  sidx : Nat
  data : List Byte
  bad : Bool
deriving DecidableEq, Repr

/-- A control message of a collective (R259): `a`, `b` and `c` are its words at 0x10, 0x14 and 0x18. -/
structure FlkMsg where
  slot : Nat
  gen : Nat
  cseq : Nat
  a : Nat
  b : Nat
  c : Nat
deriving DecidableEq, Repr


/-! ### Operands of chapters 12 and 13 -/

/-- A SHARD_DATA (R356), and whether it carries the poison marker (R472; log entry 49). -/
structure ShardMsg where
  version : Word32
  part : Nat
  coded : Bool
  dup : Bool
  q : Nat
  rows : Nat
  srcFmt : Nat
  cols : Nat
  refVer : Word32
  data : List Byte
  bad : Bool
deriving DecidableEq, Repr

/-- A TIME_SYNC (R382). -/
structure SyncMsg where
  seq : Word32
  grade : Nat
  prio : Nat
  master : Nat
  txFt : Word64
  hops : Nat
  errNs : Word32
deriving DecidableEq, Repr

/-- The commands (the rows of the opcode table, in its order). -/
inductive Instr where
  /-- R18. A reference clock deviating by more than ±500 ppm for 10 µs is declared lost: fatal for the system or SerDes reference, fallback to the system reference for the OCXO. -/
  | clockRefLost (r : ClkRef)
  /-- R22. A write of REQ in CORE_SRAM_SPLIT requests a new generation/learning granule split for a core, held until an operator boundary. -/
  | coreSramSplitWrite (c : Nat) (v : Word32)
  /-- R22. A write of REQ in CLU_SRAM_SPLIT requests a new granule split for a cluster, held until an operator boundary. -/
  | cluSramSplitWrite (u : Nat) (v : Word32)
  /-- R22. Once every operator using either region has reached an operator boundary, the requested split takes effect and GEN reports it. -/
  | sramSplitApply (cluster : Bool) (n : Nat)
  /-- R174. A write of DRP_SHARE is accepted when its bytes sum to 100, and ignored with SHARE_ERR set otherwise. -/
  | drpShareWrite (k : Nat) (v : Word32)
  /-- R24. At each 1 µs arbitration window a DRAM port applies any changed class shares. -/
  | arbitrationWindow (k : Nat)
  /-- R29. A failed data bundle of a mesh or attach link is replaced by a repair bundle, or after a fifth failure the link is set to half width. -/
  | meshBundleFail (die edge : Nat)
  /-- R29. Once the link is drained and idle, the router re-maps it and resumes traffic within 2 µs. -/
  | meshLinkRemap (die edge : Nat)
  /-- R88. An engine starts a group of 32 k once every operand byte and scale of that group is in FULL or USE slots. -/
  | engineGroupStart (e : Nat) (g : GroupPlan) (ce : Nat) (ue : Option Nat)
  /-- R54. A finished accumulator bank is multiplied, cast and drained into its slot, or kept, while the other bank computes. -/
  | bankDrain (e bank : Nat) (d : DrainPlan)
  /-- R82. A stream descriptor is issued to the core's stream unit, checked, and either refused with a code or takes a context and reserves its slots. -/
  | streamIssue (e h : Nat) (d : StreamDesc)
  /-- R83. When a stream context frees, the oldest descriptor held by the control processor takes it. -/
  | streamContextFree (c : Nat)
  /-- R92. The head waiter of a stage counter proceeds once the counter reaches WAIT_AMT, which is subtracted in the same step. -/
  | stageWaitPass (ctr : Nat)
  /-- R87. A fill or drain held on a slot in USE or FILL starts once the slot leaves that state. -/
  | fillStart (q : HeldReq)
  /-- R91. A stream's last element is written, its slots become FULL and, with SIG_EN, its signal is sent once every write is visible. -/
  | streamComplete (n : Nat) (slots : Option Nat)
  /-- R91. A stream's signal reaches its stage counter, adding 1 or saturating with the overflow recorded in CLU_CTR_ERR. -/
  | stageSignal (ctr : Nat)
  /-- R93. A register write to CLU_STAGE_CTR sets the counter and is compared at once against the head waiter. -/
  | stageCtrWrite (ctr : Nat) (v : Word32)
  /-- R87. An operator releases an engine slot in USE, which becomes FREE, or ends without releasing, which leaves it FULL. -/
  | slotRelease (e slot : Nat) (release : Bool)
  /-- R94. When the running operator has PF_BLOCKS or fewer blocks left, the control processor issues the first fills of the next operator queued for the engine. -/
  | nextOpPrefetch (e h : Nat) (ds : List StreamDesc)
  /-- R95. A stall reaching SW_THRESH with a ready candidate saves the stalled task's bank to the save slot and dispatches the new task. -/
  | taskSwitch (e cycles : Nat) (plans : List GroupPlan)
  /-- R98. At a block boundary or stall of the running task, a suspended task whose data has arrived is restored and resumed. -/
  | taskResume (e cycles : Nat) (plans : List GroupPlan)
  /-- R104. A write of CRG_RING_PROD is accepted as a doorbell, resets PROD and FETCH on a disabled unstopped ring, or is discarded with CRG_DB_ERR set. -/
  | ringDoorbell (t r : Nat) (v : Word32)
  /-- R135. A write of EN = 1 to CRG_RING_CTL enables fetch and clears STOPPED. -/
  | ringEnable (t r : Nat) (v : Word32)
  /-- R135. A write of EN = 0 stops fetch, and records fetched but not dispatched complete with ABORTED, DETAIL 0x01. -/
  | ringDisable (t r : Nat) (v : Word32)
  /-- R106. The home core copies a record whole from its ring and checks its SEQ against the expected value. -/
  | recordFetch (t r : Nat) (bytes : List Byte) (ok : Bool)
  /-- R112. The head record of a ring that meets its dispatch conditions is refused, faulted, fenced or sent to its execution units. -/
  | recordDispatch (t r : Nat)
  /-- R134. A write of CRG_DEP_CTR_LO holds the low half until the matching high-half write. -/
  | depCtrLoWrite (t n : Nat) (v : Word32)
  /-- R134. A write of CRG_DEP_CTR_HI commits both halves of a dependency counter in one step, and head records are re-tested. -/
  | depCtrHiWrite (t n : Nat) (v : Word32)
  /-- R115. A RELEASE trigger fires and its home core re-tests the head record of every ring it serves. -/
  | triggerRelease (n : Nat)
  /-- R115. Without a free trigger, the home core's own copy of fabric time reaching START_FT releases the record and advances CRG_TRIG_FALLBACK. -/
  | fallbackRelease (t r : Nat)
  /-- R116. Fabric time reaching a record's effective deadline completes it with DEADLINE, stopping a running operator at its next group boundary. -/
  | deadlineExpiry (h : Nat)
  /-- R516. An operator part finishes with its writes visible and reports to the home core over the mesh. -/
  | partComplete (h u : Nat) (busy : Nat)
  /-- R113. The home core records the completion of all parts, signals SIG_CTR (faulting it on a non-OK CODE) and stores the event item. -/
  | operatorComplete (h colt : Nat)
  /-- R129. When the delivery buffer has room for it, the oldest item of the highest priority is copied whole, unit 0 last with PHASE. -/
  | eventDeliver (t q : Nat)
  /-- R137. A write of EVQ_CONS frees delivery units, or is discarded if it moves backwards or past EVQ_PROD. -/
  | evqConsWrite (t q : Nat) (v : Word32)
  /-- R131. A write of FLUSH in EVQ_CMD requests a flush of the queue's store and sets FLUSH_BUSY. -/
  | flush (t q : Nat) (v : Word32)
  /-- R131. At the next item boundary the flush discards every item begun before the request and clears FLUSH_BUSY. -/
  | flushApply (t q : Nat)
  /-- R127. A write of EN = 1 to EVQ_CTL allocates the store from the pool, or fails with EVQ_ALLOC_ERR set. -/
  | evqEnable (t q : Nat) (v : Word32)
  /-- R127. A write of EN = 0 to EVQ_CTL returns the store to the pool and discards its contents. -/
  | evqDisable (t q : Nat) (v : Word32)
  /-- R138. The HOLDOFF interval of a queue ends, allowing its next interrupt. -/
  | evqHoldoffExpiry (t q : Nat)
  /-- R121. COPY moves W0 to W1 with a cast. -/
  | copy (h : Nat)
  /-- R121. FILL sets W0 to the immediate in W1. -/
  | fill (h : Nat)
  /-- R121. GATHER writes the rows of W0 selected by the indices of W1 to W2. -/
  | gather (h : Nat)
  /-- R159. TILE_MOVE moves, pins, unpins or discards the homes of a span of tiles. -/
  | tileMove (h : Nat)
  /-- R159. PREFETCH brings every flash-homed tile of a span to DRAM, optionally pinning it. -/
  | prefetch (h : Nat)
  /-- R121. MATMUL computes cast(m × (start + W0 × W1)) into W2 on Ox or Colt engines. -/
  | matmul (h : Nat) (start : List Word32)
  /-- R303. MATMUL_SPLITK splits K over unit groups and combines the FP32 partials in ascending range order. -/
  | matmulSplitk (h : Nat) (start : List Word32)
  /-- R121. GROUPED_MATMUL runs one MATMUL per group listed in W4. -/
  | groupedMatmul (h : Nat) (groups : List MmGroup)
  /-- R305. ATTN_FWD computes attention forward with log-sum-exp per row, whole or in a split mode. -/
  | attnFwd (h : Nat)
  /-- R306. ATTN_BWD computes dQ, dK and dV of attention from the forward tensors. -/
  | attnBwd (h : Nat)
  /-- R284. ATTN_DECODE computes paged attention over KV pages on the Colt engines. -/
  | attnDecode (h : Nat)
  /-- R289. VERIFY_STEP checks a request, commits accepted positions, runs the candidate positions through every layer and delivers the candidate set and TOKEN item. -/
  | verifyStep (h : Nat)
  /-- R292. CANDIDATES computes top-K tokens, logprobs and log-sum-exp per row into position records. -/
  | candidates (h : Nat)
  /-- R64. ELEMENTWISE applies the vector-unit function selected by W3. -/
  | elementwise (h : Nat) (f : VFun)
  /-- R121. RMSNORM normalises each row by its root mean square. -/
  | rmsnorm (h : Nat) (eps : Word32)
  /-- R121. LAYERNORM normalises each row by mean and variance. -/
  | layernorm (h : Nat) (eps : Word32)
  /-- R517. LOGSOFTMAX computes log-softmax and log-sum-exp per row. -/
  | logsoftmax (h : Nat)
  /-- R66. REDUCE computes a sum, maximum or minimum per row in the fixed reduction order. -/
  | reduce (h : Nat) (op : RedOp)
  /-- R121. ROPE applies rotary position encoding. -/
  | rope (h : Nat) (half : Bool) (rots : List Rot)
  /-- R410. RAND_MASK writes uniform words, uniform floats or yes-or-no masks from the lane generators. -/
  | randMask (h : Nat)
  /-- R122. TOKEN_LOGPROB computes the log-probability of each row's token and its log-sum-exp. -/
  | tokenLogprob (h : Nat)
  /-- R518. ENTROPY computes the entropy of the softmax of each row. -/
  | entropy (h : Nat)
  /-- R518. GROUP_ADV computes group-normalised advantages from rewards. -/
  | groupAdv (h : Nat)
  /-- R122. GAE computes generalised advantage estimates per sequence in descending t. -/
  | gae (h : Nat)
  /-- R518. POLICY_LOSS computes the clipped policy loss and gradient per token and the totals. -/
  | policyLoss (h : Nat)
  /-- R518. KL_PENALTY computes the KL term, its gradient and its weighted total. -/
  | klPenalty (h : Nat)
  /-- R335. UPDATE_SWEEP mode SUMSQ writes each shard's sum of squared gradients. -/
  | sumsq (h : Nat)
  /-- R332. UPDATE_SWEEP mode SWEEP computes each shard's new master, moment, rule state and published form into transient areas and sets STATE SWEPT. -/
  | sweep (h : Nat)
  /-- R343. UPDATE_SWEEP mode FOLD emits the epoch's delta records, waits for durability and copies the transient state to the at-rest areas. -/
  | fold (h : Nat)
  /-- R343. When every delta record of the fold is durable, DURABLE is set and the copy to the at-rest areas runs. -/
  | foldDurable (h : Nat)
  /-- R347. UPDATE_SWEEP mode APPLY XORs logged epochs into the state at rest, forward, in reverse or from a base. -/
  | apply (h : Nat)
  /-- R346. UPDATE_SWEEP mode RECEIVE binds a partner delta stream to a local log. -/
  | receive (h : Nat)
  /-- R346. A RECEIVE whose idle limit passes with nothing received completes with OK. -/
  | receiveIdleTimeout (h : Nat)
  /-- R329. NS_ORTHO runs Newton–Schulz orthogonalisation on the MFUs. -/
  | nsOrtho (h : Nat)
  /-- R330. KRON_PRECOND computes an inverse p-th root by the coupled Newton iteration. -/
  | kronPrecond (h : Nat)
  /-- R338. COMMIT mode COMMIT runs the vote and acknowledgement rounds of a step epoch and commits, rolls back or is left in doubt. -/
  | commit (h : Nat)
  /-- R339. COMMIT mode RESOLVE takes the maximum commit state over the job and goes forward or rolls back. -/
  | resolve (h : Nat)
  /-- R257. REDUCE_SCATTER reduces a tensor round the flock, leaving each member its segment. -/
  | reduceScatter (h : Nat)
  /-- R257. ALL_GATHER passes every member's segment round the flock. -/
  | allGather (h : Nat)
  /-- R257. ALL_REDUCE runs a reduce-scatter then an all-gather round the flock. -/
  | allReduce (h : Nat)
  /-- R257. BROADCAST passes the root's chunks round the flock. -/
  | broadcast (h : Nat)
  /-- R257. SEND sends every chunk to the other member of a two-member flock. -/
  | send (h : Nat)
  /-- R257. RECV receives every chunk from the other member of a two-member flock. -/
  | recv (h : Nat)
  /-- R226. REMOTE_READ reads a global range into a local destination through requests. -/
  | remoteRead (h : Nat)
  /-- R226. REMOTE_WRITE writes a local source to a global range through requests. -/
  | remoteWrite (h : Nat)
  /-- R226. REMOTE_ATOMIC performs one atomic at a global address and returns the old value. -/
  | remoteAtomic (h : Nat)
  /-- R227. REMOTE_MOVE sends one MV request per tile to the tiles' origin package. -/
  | remoteMove (h : Nat)
  /-- R362. TURNOVER checks its descriptor, claims a trigger for TURN_FT and enters STAGING. -/
  | turnover (h : Nat)
  /-- R358. RLE_CONVERT in MODE LOCAL converts a rectangle of a local matrix into a local destination. -/
  | rleConvertLocal (h : Nat)
  /-- R357. RLE_CONVERT in MODE SEND sends a rectangle piece by piece to a turnover part on another package. -/
  | rleConvertSend (h : Nat)
  /-- R354. A fenced RLE_CONVERT starts reading once earlier reductions in its slots have ended and the fence epoch is committed. -/
  | rleFencePass (h : Nat)
  /-- R121. NOP does nothing and serves waits, barriers and signals. -/
  | nop (h : Nat)
  /-- R123. EVENT produces a USER item of 1 to 4 units. -/
  | event (h : Nat)
  /-- R121. TIMESTAMP writes the fabric time at dispatch to the address in W0. -/
  | timestamp (h : Nat)
  /-- R144. A write of MPD_RGN_DATA sets the selected region entry, or is ignored with RGN_ERR set. -/
  | rgnDataWrite (v : Word32)
  /-- R147. A write of an owner's DRAM or flash quota takes effect, or is ignored with QUOTA_ERR set. -/
  | quotaWrite (flash : Bool) (v : Word32)
  /-- R153. A read, write or atomic reaches the MPD serving a tile's home and is served, held for a move, allocated or refused. -/
  | mpdAccess (x : Access) (e : EccResult)
  /-- R152. A tile move obtains a place among its mover's moves in flight, takes a destination and marks the tile MOVING. -/
  | moveStart (n : Nat)
  /-- R152. With every unit copied and verified, the move commits the new home to table copy A then B and frees the source. -/
  | moveCommit (n : Nat) (es : List (Nat × EccResult)) (r : MoveEnd)
  /-- R148. A write waiting for a DRAM frame in an automatic region proceeds as soon as a demotion commits. -/
  | waitingWriteProceed (k : Nat)
  /-- R156. Every 1 ms the MPD samples each frame's access bit into its reference mark and clears it. -/
  | accessBitSample
  /-- R156. While an owner's free DRAM quota is below 256 frames, the clock sweep picks a victim and moves it to flash. -/
  | demotion (o : Nat)
  /-- R165. A flash tile read delivers its last byte, or fails beyond retry and parity. -/
  | flashReadDone (n : Nat) (r : FlashRead)
  /-- R165. A flash tile program returns its status, retiring the block on failure. -/
  | flashProgramDone (n : Nat) (ok : Bool) (spare : Nat)
  /-- R169. A flash read not complete within MPD_TIER_TMO ends its waiting stream and completes its operator with TIER, DETAIL 0x01. -/
  | tierTimeout (n : Nat)
  /-- R163. Patrol scrub reads and corrects the next units of a stack on its period. -/
  | patrolScrub (k : Nat) (es : List (Nat × EccResult))
  /-- R164. A write of EVACUATE to DRP_FENCE_CMD starts evacuation of the stack. -/
  | evacuate (k : Nat)
  /-- R164. A write of IMMEDIATE to DRP_FENCE_CMD fences the stack at once, making every tile homed there LOST. -/
  | immediate (k : Nat)
  /-- R164. An evacuated tile sent to flash is promoted back to DRAM when a frame of its owner's quota frees. -/
  | evacTilePromote (n : Nat)
  /-- R167. The FTL rewrites tiles for wear levelling, read-disturb or retention refresh in the background. -/
  | ftlRefresh (lt : Nat) (erased : Bool) (spare : Nat)
  /-- R167. A failed NAND die is rebuilt from die parity with no loss of data. -/
  | nandDieFail (c : Nat)
  /-- R168. A channel whose NAND package fails makes every tile on it LOST and cuts FTL_CAP and the flash quotas. -/
  | flashChannelFail (c : Nat)
  /-- R182. Every 20,480 codewords a transmitter sends an alignment marker on every lane of the port. -/
  | amTransmit (p : Nat)
  /-- R183. A marker, or its absence, at the compared position advances the lane's HUNT, CONFIRM or LOCKED state. -/
  | amReceived (p l skew raw : Nat)
  /-- R185. At the end of each window of 1,024 codewords a lane is failed at 4 or more uncorrectable codewords, or made healthy again. -/
  | laneErrorWindow (p l : Nat) (bad : List Nat)
  /-- R203. A received LSW slot applies the new transmit map and width from the following slot. -/
  | lsw (p : Nat) (x : List LaneBlock)
  /-- R209. A port in ACTIVE with the package in Doze and empty transmit queues sends LPI blocks and enters LPI. -/
  | lpi (p : Nat)
  /-- R209. A port in LPI with traffic to send sends a WAKE slot and returns to ACTIVE. -/
  | wake (p : Nat)
  /-- R196. In a flit slot the transmitter chooses a LINK or NAK, CTRL, owner-weighted, BULK or IDLE flit under its credits and sends it. -/
  | flitTransmit (p : Nat)
  /-- R192. A received DATA flit is checked for CRC, tag and LSEQ, accepted or discarded with a NAK, and its ACK and credits applied. -/
  | data (p : Nat) (x : List LaneBlock)
  /-- R189. A received IDLE flit delivers its ACK and credit return. -/
  | idle (p : Nat) (x : List LaneBlock)
  /-- R193. A received NAK makes the transmitter resend every held flit from the named LSEQ. -/
  | nak (p : Nat) (x : List LaneBlock)
  /-- R221. A received HELLO reports the neighbour, is checked against the neighbour table and ENC, and lets a released port leave HELD. -/
  | hello (p : Nat) (x : List LaneBlock)
  /-- R198. A received CREDIT_INIT gives the dedicated and pool credits of the far receive buffer. -/
  | creditInit (p : Nat) (x : List LaneBlock)
  /-- R203. A received RECAL_REQ makes the transmitter move the named lane's stripe onto the spare by LSW. -/
  | recalReq (p : Nat) (x : List LaneBlock)
  /-- R446. A received KEY_READY reports a new key installed, enabling ACTIVE entry or a KPH switch, or sets KF_MISMATCH. -/
  | keyReady (p : Nat) (x : List LaneBlock)
  /-- R189. A received RTT_PING is answered with RTT_ECHO. -/
  | rttPing (p : Nat) (x : List LaneBlock)
  /-- R200. A received RTT_ECHO completes a round-trip measurement into HPT_RTT. -/
  | rttEcho (p : Nat) (x : List LaneBlock)
  /-- R193. ACK not advancing for REPLAY_TMO with flits held makes the transmitter resend from the oldest held flit. -/
  | replayTimeout (p : Nat)
  /-- R192. Half the far replay timeout passes without the expected flit, allowing another NAK. -/
  | nakHoldoffExpiry (p : Nat)
  /-- R209. A write of EN = 1 to HPT_CTL powers the optics and starts FILL and markers, taking replay frames on a reach port. -/
  | portEnable (p : Nat) (v : Word32)
  /-- R209. A write of EN = 0 takes the port to OFF. -/
  | portDisable (p : Nat) (v : Word32)
  /-- R209. Signal on every lane needed takes the port from DETECT to TRAIN. -/
  | signalDetect (p : Nat)
  /-- R209. Equaliser convergence takes the port to ALIGN. -/
  | trainConverged (p : Nat)
  /-- R209. Training not converged in 100 ms returns to DETECT, or after a third cold failure goes DOWN. -/
  | trainTimeout (p : Nat)
  /-- R209. The needed lanes locked and deskewed take the port to HELD with zero credits. -/
  | alignDone (p : Nat)
  /-- R209. Alignment not achieved within 10 ms returns the port to TRAIN. -/
  | alignTimeout (p : Nat)
  /-- R213. A write of RETRAIN to HPT_CMD retrains the port from stored settings. -/
  | retrain (p : Nat)
  /-- R213. A write of FULL_TRAIN to HPT_CMD runs a cold training. -/
  | fullTrain (p : Nat)
  /-- R204. A write of RECAL to HPT_CMD recalibrates the selected lane through the spare, or sets CMD_ERR. -/
  | recal (p : Nat)
  /-- R204. With AUTO = 1, every PERIOD seconds the next lane in turn is recalibrated. -/
  | recalAuto (p : Nat)
  /-- R204. The lane's equaliser adaptation ends and its 1,024-codeword check begins. -/
  | recalAdaptDone (p l : Nat)
  /-- R207. 1 ms after the first flit under a new key, the receiver drops the old key and derives the next epoch. -/
  | oldKeyDrop (p : Nat)
  /-- R446. ROT_PERIOD elapsing, CTR reaching 2^47 or a new active KF makes the transmitter rotate its key. -/
  | keyRotationDue (p : Nat) (newKf : Bool)
  /-- R218. A write of FBD_PKG_ID sets package and domain and, with VALID = 1, commits them with FBD_SHAPE. -/
  | pkgIdWrite (v : Word32)
  /-- R220. A write of FBD_SHAPE sets the domain shape, or is ignored with SHAPE_ERR set. -/
  | shapeWrite (v : Word32)
  /-- R222. A message arriving at a router takes the dimension-ordered live port, a detour, a reach port, or waits. -/
  | messageForward (n : Nat)
  /-- R224. A message that has waited FBD_ROUTE_WAIT is discarded whole and counted. -/
  | routeWaitTimeout (n : Nat)
  /-- R223. A received ROUTE_NOTICE updates the live-port map used for detours. -/
  | routeNotice (d c : Nat) (lost : List Nat)
  /-- R233. An RD request is executed in ESEQ order at the target and answered with data. -/
  | rd (p own : Nat) (m : RemMsg)
  /-- R233. A WR request is executed once in ESEQ order and answered when its data is visible. -/
  | wr (p own : Nat) (m : RemMsg)
  /-- R230. An AT request with OP ADD adds with wrap and returns the old value. -/
  | atomicAdd (p own : Nat) (m : RemMsg)
  /-- R230. An AT request with OP FADD adds in FP32 and returns the old value. -/
  | atomicFadd (p own : Nat) (m : RemMsg)
  /-- R230. An AT request with OP SMIN stores the signed minimum and returns the old value. -/
  | atomicSmin (p own : Nat) (m : RemMsg)
  /-- R230. An AT request with OP SMAX stores the signed maximum and returns the old value. -/
  | atomicSmax (p own : Nat) (m : RemMsg)
  /-- R230. An AT request with OP UMIN stores the unsigned minimum and returns the old value. -/
  | atomicUmin (p own : Nat) (m : RemMsg)
  /-- R230. An AT request with OP UMAX stores the unsigned maximum and returns the old value. -/
  | atomicUmax (p own : Nat) (m : RemMsg)
  /-- R230. An AT request with OP AND stores the bitwise AND and returns the old value. -/
  | atomicAnd (p own : Nat) (m : RemMsg)
  /-- R230. An AT request with OP OR stores the bitwise OR and returns the old value. -/
  | atomicOr (p own : Nat) (m : RemMsg)
  /-- R230. An AT request with OP XOR stores the bitwise XOR and returns the old value. -/
  | atomicXor (p own : Nat) (m : RemMsg)
  /-- R230. An AT request with OP SWAP writes OPND0 and returns the old value. -/
  | atomicSwap (p own : Nat) (m : RemMsg)
  /-- R230. An AT request with OP CAS writes OPND0 if the old value equals OPND1 and returns the old value. -/
  | atomicCas (p own : Nat) (m : RemMsg)
  /-- R240. An MV request at the origin starts the move of one tile to a destination package. -/
  | mv (p own : Nat) (m : RemMsg)
  /-- R240. MV_OFFER at the destination takes a frame and a PENDING guest, or is refused. -/
  | mvOffer (p own : Nat) (m : RemMsg)
  /-- R240. MV_SEND at the holder sends MV_DATA after executing earlier forwarded requests. -/
  | mvSend (p own : Nat) (m : RemMsg)
  /-- R240. MV_DATA at the destination is written and verified, and the RSP to MV_OFFER is sent. -/
  | mvData (m : RemMsg) (good : Bool)
  /-- R240. MV_COMMIT at the destination makes its guest live. -/
  | mvCommit (p own : Nat) (m : RemMsg)
  /-- R240. MV_RELEASE at the former holder frees its guest. -/
  | mvRelease (p own : Nat) (m : RemMsg)
  /-- R243. MV_QUERY at the origin is answered from its table, making a PENDING guest live or discarding it. -/
  | mvQuery (p own : Nat) (m : RemMsg)
  /-- R243. A PENDING guest or a sent MV_DATA waiting 10 ms sends MV_QUERY to the origin every 10 ms. -/
  | mvQueryTimer (g : Nat)
  /-- R235. A response is applied once per ESEQ at the requester, and duplicates are discarded and reported. -/
  | rsp (p : Nat) (r : RspMsg)
  /-- R236. A NACK makes the requester go back and resend every unanswered request of the flow. -/
  | nack (p : Nat)
  /-- R236. The oldest unanswered request waiting FBD_E2E_TMO draws a go-back, or after FBD_E2E_TRIES completes with REMOTE, DETAIL 0x03. -/
  | e2eTimeout (p : Nat)
  /-- R243. A write of DECLARE_LOST to FBD_CMD marks the selected package lost, ending its requests, moves, AWAY tiles and guests. -/
  | declareLost
  /-- R243. A write of CLEAR_LOST to FBD_CMD allows requests to the selected package again. -/
  | clearLost
  /-- R251. A write of EN = 1 to RED_FLK_CTL checks the flock, advances GEN, resets CSEQ and grants the window. -/
  | flockEnable (v : Word32)
  /-- R251. A write of EN = 0 ends the slot's collectives with FLOCK, DETAIL 0x05, and releases the window. -/
  | flockDisable (v : Word32)
  /-- R265. A queued collective starts on its slot when the earlier one has completed. -/
  | collectiveStart (f : Nat)
  /-- R260. A chunk whose space is covered by the successor's grant is combined and sent. -/
  | chunkSend (f : Nat)
  /-- R266. A received chunk is tested for owner, GEN, sender, CSEQ, SIG and SIDX, then consumed, held or discarded. -/
  | chunk (src own : Nat) (c : Chunk)
  /-- R261. A received CHUNK_CTL acknowledges chunks and returns window grant. -/
  | chunkCtl (src own : Nat) (m : FlkMsg)
  /-- R268. A received CHUNK_NACK makes the sender go back to the expected SIDX. -/
  | chunkNack (src own : Nat) (m : FlkMsg)
  /-- R269. A received COLL_ABORT ends or records the collective and is forwarded. -/
  | collAbort (src own : Nat) (m : FlkMsg)
  /-- R268. The oldest unacknowledged chunk waiting FBD_E2E_TMO makes the sender go back and resend. -/
  | chunkAckTimeout (f : Nat)
  /-- R269. No chunk or acknowledgement for RED_PROG_TMO ends the collective with FLOCK, DETAIL 0x03. -/
  | progTimeout (f : Nat)
  /-- R264. With outputs written, every chunk acknowledged and every chunk consumed, the member's collective completes. -/
  | collectiveComplete (f : Nat)
  /-- R270. A write of DROP to RED_FLK_CMD re-forms the flock without the member at RED_FLK_DROP_POS. -/
  | drop
  /-- R269. A write of ABORT to RED_FLK_CMD ends the slot's running collective and sends COLL_ABORT. -/
  | abort
  /-- R290. When a member's LAYER_CTR has advanced by G, it sums the partials and writes the slice to every gather buffer. -/
  | exchangeSum (h : Nat)
  /-- R291. A STEP announcement reaching a follower's mailbox starts its part of the step, old or held at a turnover. -/
  | followerStep (h : Nat)
  /-- R291. No new STEP within the follower's idle limit completes it with GEN, DETAIL 0x04. -/
  | followerIdleTimeout (h : Nat)
  /-- R298. A request in REPLY whose reply is not fetched within 1 s of LAST_FT moves to ENDED. -/
  | replyTimeout (r : Nat)
  /-- R282. A tenant's free DRAM quota below its spill watermark spills parked requests' blocks to flash. -/
  | kvSpill (t : Nat)
  /-- R346. A received DELTA_DATA is appended, rewinds or is discarded, and is answered with the durable position. -/
  | deltaData (src own stream : Nat) (rewind : Bool) (pos : Nat) (data : List Byte)
  /-- R346. A received DELTA_ACK advances the sender's ACK_POS. -/
  | deltaAck (src own stream pos : Nat)
  /-- R346. No progress for FBD_E2E_TMO resends from ACK_POS, or after FBD_E2E_TRIES ends the FOLD with REMOTE. -/
  | deltaResendTimeout (h : Nat)
  /-- R363. A received piece is converted into staging frames and acknowledged, or answered with SHARD_NACK. -/
  | shardData (src own : Nat) (m : ShardMsg)
  /-- R357. A received SHARD_ACK acknowledges a piece, completing the SEND when all are acknowledged. -/
  | shardAck (src own : Nat) (version : Word32) (part q : Nat)
  /-- R356. A received SHARD_NACK delays the piece or ends the SEND according to its reason. -/
  | shardNack (src own : Nat) (version : Word32) (part q reason : Nat)
  /-- R357. A piece unanswered for FBD_E2E_TMO, or 100 µs after NONE or WAIT, is resent with DUP. -/
  | shardResendTimeout (h q : Nat)
  /-- R364. At TURN_FT the barrier is raised with every part staged or STREAM set, or the turnover ends unstaged. -/
  | triggerTurnover
  /-- R365. A staged part whose predecessors have swapped, past SWAP_DELAY and with no old reader left, swaps its tiles' homes. -/
  | partSwap
  /-- R368. With every part swapped and the refill counter reached, GEN_VERSION and VALID are set and the barrier lifts. -/
  | turnoverRelease
  /-- R364. DEADLINE_FT in REPLACING or REFILL stops old readers, invalidates the copy or releases with refill incomplete. -/
  | turnoverDeadline
  /-- R364. A write of ABORT to RLE_TURN_CMD ends a staging turnover, or is ignored with CMD_ERR later. -/
  | turnAbort
  /-- R379. An active 1PPS edge is time-stamped and checked against the window, advancing or confirming lock. -/
  | ppsPulse (rising : Bool)
  /-- R379. An expected pulse missing its window counts a miss, and three in a row lose lock. -/
  | ppsWindowExpiry
  /-- R378. A ZDA sentence labels a pulse, or is ignored on a bad checksum or sets TOD_MISMATCH. -/
  | zdaSentence (b : List Byte)
  /-- R381. Every millisecond a package sends TIME_SYNC on every live port. -/
  | timeSyncTimer
  /-- R382. A received TIME_SYNC updates the election and the offset to the parent. -/
  | timeSync (p : Nat) (m : SyncMsg)
  /-- R380. Four sync intervals without a good TIME_SYNC from the parent enter HOLDOVER and rerun the election. -/
  | syncLossTimeout
  /-- R380. 72 hours in HOLDOVER move the TIM to FREERUN. -/
  | holdoverExpiry
  /-- R376. A write of STEP to TIM_CMD adds TIM_STEP to FT and fires skipped triggers, or is ignored with CMD_ERR. -/
  | step
  /-- R395. A write of REELECT to TIM_CMD reruns the master election. -/
  | reelect
  /-- R396. A write of TIM_TRIG_CTL reserves, arms, disarms or releases the selected trigger, or is ignored with CMD_ERR. -/
  | trigCtlWrite (v : Word32)
  /-- R384. A write of TIM_TRIG_FT_LO holds the low half of the trigger FT. -/
  | trigFtLoWrite (v : Word32)
  /-- R384. A write of TIM_TRIG_FT_HI commits both halves, or is ignored with CMD_ERR while VALID = 1. -/
  | trigFtHiWrite (v : Word32)
  /-- R456. A RUNG trigger fires and requests its target rung, or sets RUNG_ERR. -/
  | triggerRung (n : Nat)
  /-- R511. A GPIO trigger fires and inverts its pin for 1 µs, or sets TRIG_IN. -/
  | triggerGpio (n : Nat)
  /-- R384. An IRQ trigger fires and sets TRIG in the TIM INT_STAT. -/
  | triggerIrq (n : Nat)
  /-- R387. A write of ADM_RING_PROD rings the admission ring, or is discarded with ADM_DB_ERR set. -/
  | admDoorbell (t : Nat) (v : Word32)
  /-- R389. An admission record of KIND NEW is accepted with a request entry and KV frames, or refused with a reason and RETRY_US. -/
  | new (t : Nat) (bytes : List Byte) (ok : Bool)
  /-- R389. An admission record of KIND RESUME is tested with its flash term and, on acceptance, prefetches its blocks. -/
  | resume (t : Nat) (bytes : List Byte) (ok : Bool)
  /-- R389. An admission record of KIND RELEASE frees an ENDED or FAILED entry and its KV frames. -/
  | release (t : Nat) (bytes : List Byte) (ok : Bool)
  /-- R398. A write of ADM_REQ_SEL latches the whole selected request entry into ADM_REQ_DATA. -/
  | admReqSelWrite (t : Nat) (v : Word32)
  /-- R406. A write of SEED to RNG_CMD computes new starts from the DRBG or software seed and switches every generator. -/
  | seed
  /-- R408. A write of REWIND_ALL to RNG_CMD sets every generator's STATE to its START. -/
  | rewindAll
  /-- R402. Once per second, or after 2^20 requests, the DRBG reseeds from the noise source. -/
  | drbgReseed
  /-- R401. A failed health test marks the noise source failed and stops DRBG input. -/
  | noiseFail
  /-- R424. SEM service STATUS returns SEM_STAT, module name and firmware versions. -/
  | status (b : List Byte)
  /-- R426. SEM service SELFTEST repeats every boot self-test. -/
  | selftest (b : List Byte)
  /-- R433. SEM service GET_CERT returns the AK and KAK records. -/
  | getCert (b : List Byte)
  /-- R432. SEM service ATTEST returns a signed attestation report. -/
  | attest (b : List Byte)
  /-- R424. SEM service CLAIM installs administrator slot 0 and generates the KAK while unowned. -/
  | claim (b : List Byte)
  /-- R424. SEM service ADMIN_SET sets or clears an administrator slot. -/
  | adminSet (b : List Byte)
  /-- R436. SEM service TENANT_CREATE installs a tenant identity and domain key and makes the context ACTIVE. -/
  | tenantCreate (b : List Byte)
  /-- R438. SEM service TENANT_DESTROY erases the domain key, disables flock slots and discards the tenant's tiles. -/
  | tenantDestroy (b : List Byte)
  /-- R438. When every tile of the destroyed tenant is discarded, the context becomes FREE. -/
  | tenantDestroyDone (t : Nat)
  /-- R439. SEM service MODEL_GRANT replaces the read and turnover bitmaps in one step. -/
  | modelGrant (b : List Byte)
  /-- R439. SEM service MODEL_REKEY draws a new model domain key when the domain holds no tile. -/
  | modelRekey (b : List Byte)
  /-- R443. SEM service FABRIC_KEY opens a blob against the KAK and installs a fabric key in a slot. -/
  | fabricKey (b : List Byte)
  /-- R443. SEM service FABRIC_ACTIVATE makes a fabric key slot the active one. -/
  | fabricActivate (b : List Byte)
  /-- R480. SEM service FW_UPDATE writes and checks an image in the inactive slot and optionally activates it. -/
  | fwUpdate (b : List Byte) (body : List Byte)
  /-- R421. SEM service ADMIN_OPEN opens an administrator session, optionally with DIAG. -/
  | adminOpen (b : List Byte)
  /-- R421. SEM service ADMIN_CLOSE closes the administrator session. -/
  | adminClose (b : List Byte)
  /-- R421. The administrator session closes when its time runs out. -/
  | adminSessionExpiry
  /-- R429. SEM service EXTEND extends a software measurement register. -/
  | extend (b : List Byte)
  /-- R447. SEM service CLEAR_TAMPER clears the tamper record. -/
  | clearTamper (b : List Byte)
  /-- R448. SEM service ZEROISE starts zeroisation. -/
  | zeroise (b : List Byte)
  /-- R418. SEM service JTAG_UNLOCK zeroises and then opens the debug path. -/
  | jtagUnlock (b : List Byte)
  /-- R420. The 1 s lockout after 8 failed authentications ends. -/
  | authLockoutExpiry
  /-- R447. A tamper sensor trips, recording the trip and starting zeroisation. -/
  | tamperTrip (sensor : Nat)
  /-- R448. The sealed store is overwritten and read back erased, and the SEM enters ZEROISED with OWNED 0. -/
  | sealedStoreErased
  /-- R427. A self-test failure puts the SEM into ERROR, stopping the inline engines and encrypted ports. -/
  | selftestFail (test : Nat)
  /-- R210. After firmware verification the SEM releases the fabric, sets RELEASED and READY, and the package is in Idle. -/
  | fabricRelease
  /-- R466. The main input is applied and the package runs the power-up sequence to READY. -/
  | powerOn (aux : Bool)
  /-- R468. MOD_RST_N low for at least 10 µs resets the package. -/
  | modRstN
  /-- R468. A write of PKG_RESET to PWR_CMD resets the package. -/
  | pkgReset
  /-- R494. PERST_N low resets the host port only. -/
  | perstN
  /-- R494. A Function Level Reset resets the host port, disables windows and masks MSI-X. -/
  | functionLevelReset
  /-- R482. A TRY image failing verification or READY within 2 s of PG resets the package on the other slot and sets FALLBACK. -/
  | bootFallback (stage : Nat)
  /-- R456. A write of PWR_RUNG_REQ requests a rung, cancelling any pending lower entry. -/
  | rungRequest (v : Word32)
  /-- R457. When the entry conditions hold at a 1 µs re-test, the package enters the requested rung. -/
  | rungEntry
  /-- R458. With AUTO_WAKE = 1, dispatchable work, a doorbell, arriving traffic or a trigger returns the package to Run. -/
  | autoWake
  /-- R454. The main input below 38 V for 100 µs enters Sleep or powers off and sets UV. -/
  | mainUndervoltage
  /-- R454. The main input above 62 V for 10 µs switches off the main rails and sets OV. -/
  | mainOvervoltage
  /-- R454. A generated rail outside ±5 % for 20 µs is a fatal error with cause RAIL. -/
  | railFault (die : Nat)
  /-- R461. Every 100 µs the PWR takes one step of the power ladder on Ox issue or engine clocks. -/
  | powerLadderStep (p high vin aux : Nat)
  /-- R462. Samples above 3,600 W for 50 µs set every engine clock to 0.8 GHz and set OVERLOAD. -/
  | powerOverload
  /-- R464. A sensor crossing its throttle threshold throttles its die, its traffic or every die. -/
  | thermalThrottle (sensor : Nat) (temp : Byte)
  /-- R464. A sensor at its alert threshold asserts THERM_ALERT_N. -/
  | thermalAlert (sensor : Nat) (temp : Byte)
  /-- R464. A sensor at its shut-down threshold is a fatal error with cause THERMAL. -/
  | thermalShutdown (sensor : Nat) (temp : Byte)
  /-- R474. A fatal package error stops the compute dies and ports, latches PWR_FATAL and completes outstanding records with HW_FAULT. -/
  | fatalError (cause die : Nat)
  /-- R475. Every PERIOD ms a TELEMETRY item is produced and optionally forwarded. -/
  | telemetryPeriod
  /-- R477. A core fault stops the core, ends its parts with HW_FAULT, holds dispatch and starts substitution by its spare or fences it. -/
  | coreFault (c : Nat)
  /-- R477. The spare is powered, cleared and loaded, CLU_CORE_MAP changes in one step and dispatch resumes. -/
  | coreSubstDone (c : Nat)
  /-- R476. A cluster or compute-die fault fences the unit and ends the work that depends on it. -/
  | unitFault (die : Bool) (n : Nat)
  /-- R478. A write of FENCE_CORE to CDIE_FENCE_CMD fences the selected core for service. -/
  | fenceCore (d : Nat)
  /-- R478. A write of FENCE_CLUSTER to CDIE_FENCE_CMD fences the selected cluster for service. -/
  | fenceCluster (d : Nat)
  /-- R478. A write of FENCE_DIE to CDIE_FENCE_CMD fences the die for service. -/
  | fenceDie (d : Nat)
  /-- R478. A write of UNFENCE returns a unit fenced by command, or sets CMD_ERR. -/
  | unfence (d : Nat)
  /-- R478. A write of SPARE_SWAP runs the substitution sequence on a live core while a spare remains. -/
  | spareSwap (d : Nat)
  /-- R478. Operators not complete within FENCE_TMO end with HW_FAULT and the unit is fenced. -/
  | fenceTimeout (c : Nat)
  /-- R481. A core whose control processor has no operator running switches to the new stage-3 image. -/
  | fwCoreSwitch (c : Nat)
  /-- R481. A core not idle within FW_SWITCH_TMO keeps the old image and is counted in CDIE_FW_MIX. -/
  | fwSwitchTimeout (c : Nat)
  /-- R483. A BULK READ is served from the active image of a stage in the package's SEM flash area. -/
  | bulkRead (src stage tag off len : Nat)
  /-- R483. A received BULK DATA delivers part of an image being fetched. -/
  | bulkData (src stage tag off : Nat) (data : List Byte)
  /-- R483. A received BULK NACK ends the FW_UPDATE with IMAGE. -/
  | bulkNack (src stage tag : Nat)
  /-- R483. A received BULK TELEM is delivered as a TELEMETRY item. -/
  | bulkTelem (src : Nat) (data : List Byte)
  /-- R483. A lost BULK DATA is read again after FBD_E2E_TMO. -/
  | bulkReadTimeout
  /-- R491. A host read through a BAR2 window acts as the window's owner on the tile's home, or is refused. -/
  | windowRead (off len fresh : Nat)
  /-- R491. A host write through a BAR2 window acts as the window's owner on the tile's home, or is refused. -/
  | windowWrite (off : Nat) (data : List Byte) (poisoned : Bool)
  /-- R492. A window read not complete within HST_WIN_TMO returns 0xFF bytes and sets WIN_TMO. -/
  | windowReadTimeout (fresh : Nat)
  /-- R493. A device read of host memory with no completion within HST_CPL_TMO fails and sets DMA_ERR. -/
  | hostCplTimeout (ring : Option Nat)
  /-- R512. A write of RETRAIN to HST_CMD retrains the PCIe link. -/
  | hostRetrain
  /-- R493. The PCIe link goes down, failing host fetches and holding deliveries to host memory. -/
  | hostLinkDown
  /-- R495. Unmasking an MSI-X vector sends a message whose PBA bit is set. -/
  | msixUnmask (v : Nat)
  /-- R498. A write of INT_SET sets INT_STAT bits for test. -/
  | intSet (p : Nat) (v : Word32)
  /-- R498. A write of CLR to BLK_CTL sets the page's restartable counters to 0 and clears ERR_INFO and ERR_ADDR. -/
  | clr (p : Nat)
  /-- R470. A write of 1 to VALID of ERR_INFO, CORE_STRM_ERR or RED_TAG_ERR clears the latched record. -/
  | errLatchClear (a : Nat) (v : Word32)
  /-- R499. A read of a _LO counter register latches its _HI half for that requester. -/
  | counterLoRead (req a : Nat)
  /-- R499. A write to a register with no row of its own takes effect or is ignored under the access rules and counted in GEN_IGN_CNT. -/
  | registerWrite (req a size : Nat) (v : Word32)
  /-- R501. SMBus command STATUS returns rung, READY, FATAL, alert and SEM state. -/
  | smbStatus
  /-- R501. SMBus command POWER returns the average input power. -/
  | smbPower
  /-- R501. SMBus command VIN returns the main input voltage. -/
  | smbVin
  /-- R501. SMBus command TEMP_MAX returns the hottest sensor. -/
  | smbTempMax
  /-- R501. SMBus command FATAL returns PWR_FATAL bits 15:0. -/
  | smbFatal
  /-- R501. SMBus command RESET_CAUSE returns PWR_RESET_CAUSE. -/
  | smbResetCause
  /-- R501. SMBus command IDENT returns the device ID and firmware versions. -/
  | smbIdent
  /-- R501. SMBus command PROTO returns 0x01. -/
  | smbProto
  /-- R501. SMBus command SENSORS returns every temperature from READY. -/
  | smbSensors
  /-- R501. SMBus command TELEM returns unit 1 of the telemetry of the last 100 ms. -/
  | smbTelem
  /-- R502. SMBus command REG_READ reads a register and returns a status and the data. -/
  | regRead (page off : Nat)
  /-- R502. SMBus command REG_WRITE writes one of the permitted registers, setting LAST_STATUS. -/
  | regWrite (page off : Nat) (v : Word32) (pec : Option Byte)
  /-- R502. SMBus command LAST_STATUS returns the status of the last register command or rejected write. -/
  | lastStatus
  /-- R500. SCL low for 30 ms releases the bus and resets the SMBus interface. -/
  | smbBusTimeout
  /-- R504. A received console character is stored in the receive FIFO with FE or BRK, or dropped with OE. -/
  | uartRxChar (b : Byte) (fe brk : Bool)
  /-- R505. A write of UAR_TXD queues a byte, or is discarded with TX_OVF. -/
  | uartTxWrite (b : Byte)
  /-- R503. The console transmitter sends the next queued byte. -/
  | uartTxChar
  /-- R514. A read of UAR_RXD takes the oldest received byte. -/
  | uartRxdRead
  /-- R506. Console command help prints the command list. -/
  | conHelp
  /-- R506. Console command ver prints the firmware slots, versions and measurements. -/
  | conVer
  /-- R506. Console command stat prints decoded power, SEM and time status. -/
  | conStat
  /-- R506. Console command temp prints every temperature sensor. -/
  | conTemp
  /-- R506. Console command err prints fatal and reset causes and recent errors. -/
  | conErr
  /-- R506. Console command log prints the last 64 KiB of console output. -/
  | conLog
  /-- R507. JTAG instruction EXTEST drives the boundary-scan outputs. -/
  | extest (pins cells : List Bool)
  /-- R507. JTAG instruction IDCODE selects the identification register. -/
  | idcode
  /-- R507. JTAG instruction SAMPLE/PRELOAD samples or preloads the boundary-scan register. -/
  | samplePreload (pins cells : List Bool)
  /-- R507. JTAG instruction CLAMP holds the outputs and selects bypass. -/
  | clamp
  /-- R507. JTAG instruction HIGHZ places the outputs at high impedance. -/
  | highz
  /-- R507. JTAG debug instructions act only when the path was opened, and otherwise behave as BYPASS. -/
  | jtagDebug (op : Nat)
  /-- R507. JTAG instruction BYPASS selects the bypass register. -/
  | bypass (op : Nat)
  /-- R511. An enabled edge on a GPIO pin is recorded in SMB_GPIO_EDGE. -/
  | gpioEdge (pin : Nat) (rising : Bool)
  /-- R493. The PCIe link trains to L0, LINK_UP is raised and deliveries to host memory that were waiting resume. -/
  | hostLinkUp (speed width : Nat) (flit : Bool)
  /-- R493. A host configuration write changes Bus Master Enable, failing host fetches while 0 and releasing waiting deliveries when set. -/
  | busMasterEnable (on : Bool)
  /-- R453. The 12 V auxiliary input is applied or removed, changing PWR_STAT AUX and, in Sleep without main input, taking the module to Off. -/
  | auxiliaryInputChange (on : Bool)
  /-- R210. A reach-cage optic reports ready, starting the 200 ms bound within which its reach port reaches ACTIVE. -/
  | opticReady (p : Nat)
  /-- R215. A reach-cage optic reports a fault, setting FAULT in XPT_OPTIC_STAT and the OPTIC_FAULT interrupt. -/
  | opticFault (p : Nat)
  /-- R463. Every sensor of a kind falls 5 °C below its threshold, ending its throttle or alert condition and deasserting THERM_ALERT_N. -/
  | thermalConditionEnd (kind : Nat) (alert : Bool)
  /-- R476. A DRP or crossbar fault of an MPD fences both its stacks immediately and moves the RLE's work to the others. -/
  | mpdFault (m : Nat)
deriving DecidableEq, Repr

end Sys2Proof
end

