-- ==== Sys2Proof/Decode.lean ====
section
/-! DEFINITION. Words and commands: the opcode table gives its rows no bits, so no word spells a command. -/
namespace Sys2Proof

/-- The command a word of the table spells: none, since no row of the table gives bits. -/
def decodeTableWord (_nbits _w : Nat) : Option Instr := none

end Sys2Proof
end

