-- ==== Sys2Proof/Config.lean ====
section
/-! DEFINITION. What one implementation fixes and the manual does not: free values, with no body, so that no proof can
see them. Each is named in the assumption log. -/
namespace Sys2Proof.Config

/-- A value the manual leaves open, one per use: it is applied to the state's own count of such uses
(`State.freeCtr`). Log entry 3. -/
opaque freeValue : Nat → BitVec 64

/-- The private key of the attestation key, drawn at manufacture (R434). Log entry 4. -/
opaque akKey : Nat

/-- The 97-byte public keys of the four Onrothal roots, whose digests are fused (R428). Log entry 4. -/
opaque rootKey : Nat → List Byte

/-- The root that signed the AK record at manufacture, and its signature (R433). Log entry 4. -/
opaque akRoot : Fin 4
opaque akRecordSig : List Byte

/-- What GET_CERT returns in place of the KAK record while no KAK exists: the manual does not say (R433). Log entry 42. -/
opaque noKakRecord : List Byte

/-- What a raw read shows of DRAM that holds no tile: plaintext of the carve-out, whose layout the manual does not give, and what frames
in no use keep; by fabric time and raw address (R142, R150). Log entry 68. -/
opaque rawByte : Nat → Nat → Byte

/-- A byte that the FTL itself keeps in a flash page that holds no logical tile: parity, journal, copies not yet erased; none where
the page is erased. By fabric time and raw address (R142, R165). Log entry 64. -/
opaque ftlByte : Nat → Nat → Option Byte

/-- The fuse-given map of one cluster: does the cluster leave the factory with its spare still available (R15)?
Log entry 5. -/
opaque spareAtFactory : Nat → Bool

/-- Where its spare is used: the physical slot of its defective core (R15). Log entry 5. -/
opaque fusedOff : Nat → Nat

/-- The challenge word drawn at power-on (R420): SEM_CHAL before any service. Log entry 4. -/
opaque firstChal : Nat → BitVec 32

/-- The code a compare of the vector unit writes for yes and for no: the manual names compare and does not say how its
answer is encoded (R64). Log entry 18. -/
opaque compareCode : Bool → BitVec 32

/-- The number that W3 bits 7:0 of an ELEMENTWISE record give a function: the manual says that they select it and gives no numbers
(R121). Log entry 18. -/
opaque elementCode : VFun → BitVec 8

/-- A byte of a tile whose home is on another package, as a fill of this package reads it at a fabric time: what that
package holds is outside this machine (R239). Log entry 24. -/
opaque remoteByte : Nat → Nat → Byte

/-- The score scale of VERIFY_STEP's attention for a HEAD_DIM, an FP32 code: the manual gives a score scale to the attention
operators only (R287, R289). Log entry 30. -/
opaque attnScale : Nat → BitVec 32

/-- Rotary encoding of one head's FP32 elements at a position, with ROPE_BASE: the manual names it and gives no formula
(R277, R289). Log entry 30. -/
opaque ropeHead : BitVec 32 → Nat → List (BitVec 32) → List (BitVec 32)

/-- One element of the MLP's hidden vector from its gate and its up element, FP32: the manual names no function (R277,
R289). Log entry 30. -/
opaque mlpGate : BitVec 32 → BitVec 32 → BitVec 32

/-- The experts a position takes and their FP32 weights, from EXPERTS_K and the router's FP32 outputs (R277). Log entry
30. -/
opaque moeMix : Nat → List (BitVec 32) → List (Nat × BitVec 32)

/-- Where a follower whose record names no request finds its page table, by tenant and exchange area: the manual does not say
(R280, R291). Log entry 30. -/
opaque followerPt : Nat → Nat → BitVec 64

/-- Rows K of a turnover part at another package, by member and part: how a sender whose rectangle ends on the piece grid knows
them is not stated (R353). Log entry 34. -/
opaque partRows : Nat → Nat → Nat

/-- Columns N of such a part, which its piece indices need (R353, R356). Log entry 34. -/
opaque partCols : Nat → Nat → Nat

/-- The firmware image in a slot of a stage (stage × 2 + slot) as delivered (R428, R479, R482). Log entry 37. -/
opaque factoryImage : Nat → List Byte

/-- The revocation fuse of a signing root (R428). Log entry 37. -/
opaque rootRevoked : Nat → Bool

/-- The fused minimum SVN of a stage as delivered (R428). Log entry 37. -/
opaque svnFuse : Nat → Nat

/-- Does the self-check of a block fail after a live switch of its image (R481)? By the count of free values. Log entry 37. -/
opaque switchFails : Nat → Bool

/-- DEVICE_ID (16 bytes) and the module name, by number 0 and 2 (R424, R432, R433). Log entry 37. -/
opaque identity : Nat → List Byte

/-- What a sensor that has not been read yet would show (R463). Log entry 41. -/
opaque firstTemp : Nat → Byte

/-- The SMBus address straps GA0 and GA1 (R500, R508), set by the baseboard. Log entry 47. -/
opaque strap : Nat → Bool

/-- Ticks of 250 ps between two steps of an idle block are one (log entry 2); nothing else about time is fixed here. -/
def idleTick : Nat := 1

end Sys2Proof.Config
end

