-- ==== Sys2Proof/Machine/Flags.lean ====
section
/-! DEFINITION. The sticky numeric flags of R67, and the exact numbers the arithmetic rounds from. -/
namespace Sys2Proof.Machine

/-- The five sticky numeric flags, laid out as OXE_NUM_FLAG lays them out (R67, R70): NV 0, NI 1, OF 2, SAT 3, BNF 4. -/
abbrev NumFlags := BitVec 5

/-- No flag. -/
def fNone : NumFlags := 0
/-- A NaN was produced from operands that were not NaN (R67). -/
def fNV : NumFlags := 1
/-- A NaN was read from an input (R67). -/
def fNI : NumFlags := 2
/-- A finite result overflowed (R67). -/
def fOF : NumFlags := 4
/-- A cast or an INT32 accumulator saturated (R67). -/
def fSAT : NumFlags := 8
/-- A block cast met a non-finite value (R67). -/
def fBNF : NumFlags := 16

/-- An exact number: NaN, an infinity, or ±`man`·2^`exp`. A zero keeps its sign (R36, R52). -/
inductive XNum where
  | nan
  | inf (neg : Bool)
  | fin (neg : Bool) (man : Nat) (exp : Int)
deriving DecidableEq, Repr

namespace XNum

/-- Positive zero. -/
def zero : XNum := .fin false 0 0
/-- One. -/
def one : XNum := .fin false 1 0
/-- The integer `i`. -/
def ofInt (i : Int) : XNum := .fin (decide (i < 0)) i.natAbs 0

/-- Is it NaN? -/
def isNan : XNum → Bool
  | .nan => true
  | _ => false
/-- Is it infinite? -/
def isInf : XNum → Bool
  | .inf _ => true
  | _ => false
/-- Is it a zero of either sign? -/
def isZero : XNum → Bool
  | .fin _ m _ => m == 0
  | _ => false
/-- The sign bit; NaN counts as positive (R36). -/
def sign : XNum → Bool
  | .nan => false
  | .inf n => n
  | .fin n _ _ => n
/-- Negation. -/
def neg : XNum → XNum
  | .nan => .nan
  | .inf n => .inf (!n)
  | .fin n m e => .fin (!n) m e
/-- Absolute value. -/
def abs : XNum → XNum
  | .nan => .nan
  | .inf _ => .inf false
  | .fin _ m e => .fin false m e
/-- Multiplication by a power of two, exact. -/
def scale (x : XNum) (k : Int) : XNum :=
  match x with
  | .fin n m e => .fin n m (e + k)
  | y => y

/-- The signed mantissa of a finite number brought to exponent `e`, where `e` is not above its own. -/
def toIntAt (x : XNum) (e : Int) : Int :=
  match x with
  | .fin n m k => let v : Int := (m : Int) * 2 ^ (k - e).toNat; if n then -v else v
  | _ => 0

/-- The exponent of a finite number. -/
def exponent : XNum → Int
  | .fin _ _ e => e
  | _ => 0

/-- ⌊log₂ |x|⌋ of a finite non-zero number (R39: read exactly). -/
def log2Floor : XNum → Int
  | .fin _ m e => (m.log2 : Int) + e
  | _ => 0

/-- The exact product, and whether a NaN was made from operands that were not NaN (R51). -/
def mulX (a b : XNum) : XNum × Bool :=
  match a, b with
  | .nan, _ => (.nan, false)
  | _, .nan => (.nan, false)
  | .inf n, y => if y.isZero then (.nan, true) else (.inf (n != y.sign), false)
  | x, .inf n => if x.isZero then (.nan, true) else (.inf (n != x.sign), false)
  | .fin n m e, .fin n' m' e' => (.fin (n != n') (m * m') (e + e'), false)

/-- The exact sum of finite numbers; an exact zero is +0 unless every addend is −0 (R52). -/
def addFin (a b : XNum) : XNum :=
  let e := min a.exponent b.exponent
  let v := a.toIntAt e + b.toIntAt e
  if v = 0 then .fin (a.isZero && a.sign && b.isZero && b.sign) 0 e else .fin (decide (v < 0)) v.natAbs e

/-- The exact sum, and whether a NaN was made from operands that were not NaN (R51, R52). -/
def addX (a b : XNum) : XNum × Bool :=
  match a, b with
  | .nan, _ => (.nan, false)
  | _, .nan => (.nan, false)
  | .inf n, .inf n' => if n = n' then (.inf n, false) else (.nan, true)
  | .inf n, .fin _ _ _ => (.inf n, false)
  | .fin _ _ _, .inf n => (.inf n, false)
  | .fin n m e, .fin n' m' e' => (addFin (.fin n m e) (.fin n' m' e'), false)

/-- Order of numbers that are not NaN; −0 is below +0 (R65). -/
def lt (a b : XNum) : Bool :=
  match a, b with
  | .nan, _ => false
  | _, .nan => false
  | .inf n, .inf n' => n && !n'
  | .inf n, .fin _ _ _ => n
  | .fin _ _ _, .inf n => !n
  | .fin n m e, .fin n' m' e' =>
    let k := min e e'
    let x := (XNum.fin n m e).toIntAt k
    let y := (XNum.fin n' m' e').toIntAt k
    decide (x < y) || (decide (x = y) && decide (x = 0) && n && !n')

/-- IEEE 754-2019 minimum (R65). -/
def minimum (a b : XNum) : XNum := if a.isNan || b.isNan then .nan else if b.lt a then b else a
/-- IEEE 754-2019 maximum (R65). -/
def maximum (a b : XNum) : XNum := if a.isNan || b.isNan then .nan else if a.lt b then b else a
/-- Numerical equality of numbers that are not NaN, zeros equal. -/
def eqv (a b : XNum) : Bool :=
  match a, b with
  | .nan, _ => false
  | _, .nan => false
  | .inf n, .inf n' => n == n'
  | .fin n m e, .fin n' m' e' =>
    let k := min e e'
    decide ((XNum.fin n m e).toIntAt k = (XNum.fin n' m' e').toIntAt k)
  | _, _ => false
/-- Numerical less-than, zeros equal. -/
def ltN (a b : XNum) : Bool := a.lt b && !(a.eqv b)

end XNum

end Sys2Proof.Machine
end

