-- ==== Sys2Proof/Machine/Maps.lean ====
section
/-! DEFINITION. Finite maps and sparse byte memory, each a list in one canonical form: keys strictly rising, and in memory
no byte equal to what an unlisted address reads as. -/
namespace Sys2Proof.Machine

/-- A finite map with Nat keys, as a list of pairs with strictly rising keys. -/
abbrev Map (α : Type) := List (Nat × α)

namespace Map
variable {α : Type}

/-- The value at a key. -/
def get? (m : Map α) (k : Nat) : Option α := (m.find? (fun p => p.1 == k)).map (·.2)
/-- The value at a key, `d` where the map has none. -/
def get (m : Map α) (d : α) (k : Nat) : α := (get? m k).getD d
/-- Remove a key. -/
def erase (m : Map α) (k : Nat) : Map α := m.filter (fun p => p.1 != k)
/-- Set a key. -/
def set (m : Map α) (k : Nat) (v : α) : Map α :=
  m.filter (fun p => p.1 < k) ++ (k, v) :: m.filter (fun p => k < p.1)
/-- Set a key, listing nothing where the value is the default `d`. -/
def put [DecidableEq α] (m : Map α) (d : α) (k : Nat) (v : α) : Map α := if v = d then erase m k else set m k v
/-- Change the value at a key that is present. -/
def modify (m : Map α) (k : Nat) (f : α → α) : Map α := m.map (fun p => if p.1 = k then (p.1, f p.2) else p)
/-- Change every value. -/
def mapVals (m : Map α) (f : Nat → α → α) : Map α := m.map (fun p => (p.1, f p.1 p.2))
/-- The least key not below every key present: one above the greatest. -/
def nextKey (m : Map α) : Nat := m.foldl (fun a p => max a (p.1 + 1)) 0
/-- Canonical form: keys strictly rise. -/
def wf (m : Map α) : Bool := decide (m.Pairwise (fun a b => a.1 < b.1))

end Map

/-- Sparse memory: address and byte, addresses strictly rising, no zero byte listed. An unlisted address reads 0
(R146 for the unified range; SRAM: log entry 8). -/
abbrev Mem := List Host.Cell

namespace Mem

/-- What an unlisted address reads as. -/
def blank : BitVec 8 := 0
/-- The byte at an address. -/
def get (m : Mem) (a : Nat) : BitVec 8 := ((m.find? (fun c => c.1 == a)).map (·.2)).getD blank
/-- `n` bytes from an address. -/
def read (m : Mem) (a n : Nat) : List (BitVec 8) := (List.range n).map (fun i => get m (a + i))
/-- The cells a run of bytes lists: those that are not blank. -/
def cells (a : Nat) : List (BitVec 8) → Mem
  | [] => []
  | b :: bs => if b = blank then cells (a + 1) bs else (a, b) :: cells (a + 1) bs
/-- Write a run of bytes. -/
def write (m : Mem) (a : Nat) (bs : List (BitVec 8)) : Mem :=
  m.filter (fun c => c.1 < a) ++ (cells a bs ++ m.filter (fun c => a + bs.length ≤ c.1))
/-- Blank a range. -/
def clear (m : Mem) (a n : Nat) : Mem := m.filter (fun c => c.1 < a) ++ m.filter (fun c => a + n ≤ c.1)
/-- Move the `n` bytes at `src` to `dst`, leaving `src` blank. -/
def move (m : Mem) (src dst n : Nat) : Mem := write (clear m src n) dst (read m src n)
/-- Canonical form. -/
def wf (m : Mem) : Bool := decide (m.Pairwise (fun a b => a.1 < b.1)) && m.all (fun c => c.2 != blank)

end Mem

/-- The little-endian value of bytes (R5). -/
def leNat : List (BitVec 8) → Nat
  | [] => 0
  | b :: bs => b.toNat + 256 * leNat bs
/-- `n` little-endian bytes of a value (R5). -/
def leBytes (n v : Nat) : List (BitVec 8) :=
  match n with
  | 0 => []
  | k + 1 => BitVec.ofNat 8 v :: leBytes k (v / 256)
/-- Bits hi:lo of a natural. -/
def bitsN (v hi lo : Nat) : Nat := v / 2 ^ lo % 2 ^ (hi + 1 - lo)
/-- Bits hi:lo of a word, as a natural. -/
def fld {w : Nat} (v : BitVec w) (hi lo : Nat) : Nat := bitsN v.toNat hi lo
/-- Bit `i` of a word. -/
def bit {w : Nat} (v : BitVec w) (i : Nat) : Bool := v.getLsbD i
/-- A word with bits hi:lo replaced. -/
def setFld (v : BitVec 32) (hi lo x : Nat) : BitVec 32 :=
  let m : BitVec 32 := BitVec.ofNat 32 ((2 ^ (hi + 1 - lo) - 1) * 2 ^ lo)
  (v &&& ~~~m) ||| (BitVec.ofNat 32 (x * 2 ^ lo) &&& m)
/-- A 32-bit saturating add. -/
def satAdd32 (v : BitVec 32) (n : Nat) : BitVec 32 := BitVec.ofNat 32 (min (v.toNat + n) 0xFFFFFFFF)
/-- A 64-bit saturating add. -/
def satAdd64 (v : BitVec 64) (n : Nat) : BitVec 64 := BitVec.ofNat 64 (min (v.toNat + n) (2 ^ 64 - 1))

end Sys2Proof.Machine
end

