-- ==== Sys2Proof/Machine/Regs.lean ====
section
/-! DEFINITION. The register map: every register page (R496, R497), every register of every page with its fields, their
access types (R6) and its reset value, from the register tables of chapters 02 to 17; and the address of each register by
its manual name. A register is named by its MMIO byte address, page × 4,096 + offset (R490). -/
namespace Sys2Proof.Machine

/-- Access types of R6. -/
inductive Acc where
  | ro | rw | w1c | w1s
deriving DecidableEq, Repr

/-- One field: its bits hi:lo, and for a RW field the values it accepts; another value leaves it unchanged. -/
structure Fld where
  acc : Acc
  hi : Nat
  lo : Nat
  min : Nat
  max : Nat
deriving DecidableEq, Repr

/-- A row of a register table: `count` registers `stride` bytes apart. -/
structure RegRow where
  off : Nat
  stride : Nat
  count : Nat
  name : String
  fields : List Fld
  reset : BitVec 32
  restart : Bool
deriving DecidableEq, Repr

/-- A field of type `a` that accepts every value. -/
def Fld.any (a : Acc) (hi lo : Nat) : Fld := ⟨a, hi, lo, 0, 2 ^ (hi - lo + 1) - 1⟩
/-- Read-only field. -/
def ro (hi lo : Nat) : Fld := Fld.any .ro hi lo
/-- Read-write field. -/
def rw (hi lo : Nat) : Fld := Fld.any .rw hi lo
/-- Write-one-to-clear field. -/
def w1c (hi lo : Nat) : Fld := Fld.any .w1c hi lo
/-- Write-one-to-set field. -/
def w1s (hi lo : Nat) : Fld := Fld.any .w1s hi lo

/-- Block types (R496). CLT pages have the OXE layout (R68, R100). -/
inductive Blk where
  | sem | pwr | tim | rng | hst | smb | uar | ftl | crg | evq | adm | mpd | drp | rle | fbd | red | hpt | xpt | cdie | clu | mfu | core | oxe | clt
deriving DecidableEq, Repr

/-- The common layout of every block page (R498). -/
def rowsCommon : List RegRow := [
  ⟨0x0, 0, 1, "BLK_ID", [ro 31 0], 0, false⟩,
  ⟨0x4, 0, 1, "BLK_VER", [ro 31 0], 0x00010000, false⟩,
  ⟨0x8, 0, 1, "BLK_CAP", [ro 31 0], 0, false⟩,
  ⟨0x10, 0, 1, "BLK_CTL", [rw 0 0], 0x00000000, false⟩,
  ⟨0x14, 0, 1, "BLK_STAT", [ro 31 0], 0, false⟩,
  ⟨0x18, 0, 1, "INT_RAW", [ro 31 0], 0x00000000, false⟩,
  ⟨0x1c, 0, 1, "INT_EN", [rw 31 0], 0x00000000, false⟩,
  ⟨0x20, 0, 1, "INT_STAT", [w1c 31 0], 0x00000000, false⟩,
  ⟨0x24, 0, 1, "INT_SET", [w1s 31 0], 0x00000000, false⟩,
  ⟨0x28, 0, 1, "ERR_INFO", [w1c 31 31, w1c 30 30, ro 29 28, ro 23 16, ro 15 0], 0x00000000, false⟩,
  ⟨0x30, 0, 1, "ERR_ADDR_LO", [ro 31 0], 0x00000000, false⟩,
  ⟨0x34, 0, 1, "ERR_ADDR_HI", [ro 31 0], 0x00000000, false⟩,
  ⟨0x40, 0, 1, "GEN_RD_CNT", [rw 31 0], 0x00000000, true⟩,
  ⟨0x44, 0, 1, "GEN_WR_CNT", [rw 31 0], 0x00000000, true⟩,
  ⟨0x48, 0, 1, "GEN_IGN_CNT", [rw 31 0], 0x00000000, true⟩]

/-- Registers of the SEM page (R450). -/
def rowsSem : List RegRow := [
  ⟨0x100, 0, 1, "SEM_STAT", [ro 31 28, ro 27 27, ro 26 26, ro 25 25, ro 24 24, ro 23 23, ro 22 22, ro 15 8], 0x00000000, false⟩,
  ⟨0x104, 0, 1, "SEM_CTL", [rw 15 0], 0x00000E10, false⟩,
  ⟨0x108, 0, 1, "SEM_MBX_ADDR_LO", [rw 31 12], 0x00000000, false⟩,
  ⟨0x10c, 0, 1, "SEM_MBX_ADDR_HI", [rw 31 0], 0x00000000, false⟩,
  ⟨0x110, 0, 1, "SEM_MBX_CMD", [w1s 0 0], 0x00000000, false⟩,
  ⟨0x114, 0, 1, "SEM_MBX_STAT", [ro 31 0], 0x00000000, false⟩,
  ⟨0x118, 4, 12, "SEM_CHAL", [ro 31 0], 0, false⟩,
  ⟨0x148, 0, 1, "SEM_ADMIN_OPEN", [ro 31 0], 0x00000000, false⟩,
  ⟨0x14c, 0, 1, "SEM_TENANT_SEL", [rw 5 0], 0x00000000, false⟩,
  ⟨0x150, 0, 1, "SEM_TENANT_STAT", [ro 31 0], 0x00000000, false⟩,
  ⟨0x154, 0, 1, "SEM_MODEL_GRANT0", [ro 31 0], 0x00000000, false⟩,
  ⟨0x158, 0, 1, "SEM_MODEL_GRANT1", [ro 31 0], 0x00000000, false⟩,
  ⟨0x15c, 0, 1, "SEM_TURN_RIGHT0", [ro 31 0], 0x00000000, false⟩,
  ⟨0x160, 0, 1, "SEM_TURN_RIGHT1", [ro 31 0], 0x00000000, false⟩,
  ⟨0x164, 0, 1, "SEM_KF_STAT", [ro 31 0], 0x00000000, false⟩,
  ⟨0x168, 0, 1, "SEM_KF_ID", [ro 31 0], 0x00000000, false⟩,
  ⟨0x16c, 0, 1, "SEM_TAMPER", [ro 31 0], 0, false⟩,
  ⟨0x170, 0, 1, "SEM_SELFTEST", [ro 31 0], 0x00000000, false⟩,
  ⟨0x174, 0, 1, "SEM_AUTH_FAIL_CNT", [rw 31 0], 0x00000000, true⟩,
  ⟨0x178, 0, 1, "SEM_TAG_PORTS0", [w1c 31 0], 0x00000000, false⟩,
  ⟨0x17c, 0, 1, "SEM_TAG_PORTS1", [w1c 3 0], 0x00000000, false⟩,
  ⟨0x180, 0, 1, "SEM_ERR", [w1c 3 0], 0x00000000, false⟩,
  ⟨0x200, 4, 96, "SEM_MEAS", [ro 31 0], 0x00000000, false⟩]

/-- Registers of the PWR page (R484). -/
def rowsPwr : List RegRow := [
  ⟨0x100, 0, 1, "PWR_STAT", [ro 31 29, ro 28 28, ro 27 27, ro 26 26, ro 25 25, ro 24 24, ro 23 23, ro 22 22], 0x20000000, false⟩,
  ⟨0x104, 0, 1, "PWR_RUNG_REQ", [rw 2 0], 0x00000001, false⟩,
  ⟨0x108, 0, 1, "PWR_RUNG_CTL", [rw 1 1, rw 0 0], 0x00000001, false⟩,
  ⟨0x10c, 0, 1, "PWR_LIMIT", [.mk .rw 11 0 400 3600], 0x00000D48, false⟩,
  ⟨0x110, 0, 1, "PWR_OX_FLOOR", [.mk .rw 4 0 1 16], 0x00000004, false⟩,
  ⟨0x114, 0, 1, "PWR_POWER", [ro 31 0], 0x00000000, false⟩,
  ⟨0x118, 0, 1, "PWR_VIN", [ro 31 0], 0x00000000, false⟩,
  ⟨0x11c, 0, 1, "PWR_TEMP_SEL", [.mk .rw 5 0 0 40], 0x00000000, false⟩,
  ⟨0x120, 0, 1, "PWR_TEMP", [ro 31 0], 0x00000000, false⟩,
  ⟨0x124, 0, 1, "PWR_THERM_THR", [rw 15 8, rw 7 0], 0x00006964, false⟩,
  ⟨0x128, 0, 1, "PWR_THROTTLE_CNT", [rw 31 0], 0x00000000, true⟩,
  ⟨0x12c, 0, 1, "PWR_TELEM_CTL", [rw 31 31, rw 30 30, rw 21 16, rw 15 12, rw 11 10, .mk .rw 9 0 1 1000], 0x00000000, false⟩,
  ⟨0x130, 0, 1, "PWR_TELEM_DEST", [rw 31 31, rw 14 0], 0x00000000, false⟩,
  ⟨0x134, 0, 1, "PWR_CMD", [w1s 0 0], 0x00000000, false⟩,
  ⟨0x138, 0, 1, "PWR_RESET_CAUSE", [ro 31 0], 1, false⟩,
  ⟨0x13c, 0, 1, "PWR_FATAL", [ro 31 0], 0, false⟩,
  ⟨0x140, 0, 1, "PWR_FW_STAT", [ro 31 0], 0x00000000, false⟩,
  ⟨0x144, 0, 1, "PWR_FW_SWITCH_TMO", [.mk .rw 15 0 1 65535], 0x000003E8, false⟩,
  ⟨0x148, 0, 1, "PWR_FIG_FP8", [ro 31 0], 0x00004FE2, false⟩,
  ⟨0x14c, 0, 1, "PWR_FIG_DRAM", [ro 31 0], 0x00009000, false⟩,
  ⟨0x150, 0, 1, "PWR_FIG_SRAM", [ro 31 0], 0x00001000, false⟩,
  ⟨0x154, 0, 1, "PWR_FIG_HALL", [ro 31 0], 0x00001900, false⟩,
  ⟨0x158, 0, 1, "PWR_RUNG_CNT", [rw 31 0], 0x00000000, true⟩,
  ⟨0x15c, 4, 6, "PWR_RUNG_TIME", [rw 31 0], 0x00000000, true⟩,
  ⟨0x174, 0, 1, "PWR_ERR", [w1c 5 0], 0x00000000, false⟩]

/-- Registers of the TIM page (R395). -/
def rowsTim : List RegRow := [
  ⟨0x100, 0, 1, "TIM_CTL", [rw 16 16, rw 15 8, rw 1 1, rw 0 0], 0x00008000, false⟩,
  ⟨0x104, 0, 1, "TIM_STAT", [ro 31 28, ro 27 27, ro 26 26, ro 25 25, ro 1 0], 0x00000003, false⟩,
  ⟨0x108, 0, 1, "TIM_FT_LO", [ro 31 0], 0x00000000, false⟩,
  ⟨0x10c, 0, 1, "TIM_FT_HI", [ro 31 0], 0x00000000, false⟩,
  ⟨0x110, 0, 1, "TIM_MASTER", [ro 31 0], 0x00000000, false⟩,
  ⟨0x114, 0, 1, "TIM_OFFSET", [ro 31 0], 0x00000000, false⟩,
  ⟨0x118, 0, 1, "TIM_ERR_NS", [ro 31 0], 0xFFFFFFFF, false⟩,
  ⟨0x11c, 0, 1, "TIM_HOLD_S", [ro 31 0], 0x00000000, false⟩,
  ⟨0x120, 0, 1, "TIM_LEAP", [rw 7 0], 0x00000005, false⟩,
  ⟨0x124, 0, 1, "TIM_TOD_CTL", [.mk .rw 2 0 0 4], 0x00000001, false⟩,
  ⟨0x128, 0, 1, "TIM_PPS_WIN", [.mk .rw 15 0 100 65535], 0x000003E8, false⟩,
  ⟨0x12c, 0, 1, "TIM_CMD", [w1s 1 0], 0x00000000, false⟩,
  ⟨0x130, 0, 1, "TIM_STEP_LO", [rw 31 0], 0x00000000, false⟩,
  ⟨0x134, 0, 1, "TIM_STEP_HI", [rw 31 0], 0x00000000, false⟩,
  ⟨0x138, 4, 4, "TIM_XPT_ASYM", [rw 31 0], 0x00000000, false⟩,
  ⟨0x148, 0, 1, "TIM_PPS_CNT", [rw 31 0], 0x00000000, true⟩,
  ⟨0x14c, 0, 1, "TIM_PPS_MISS_CNT", [rw 31 0], 0x00000000, true⟩,
  ⟨0x150, 0, 1, "TIM_ZDA_ERR_CNT", [rw 31 0], 0x00000000, true⟩,
  ⟨0x154, 0, 1, "TIM_TRIG_FREE", [ro 31 0], 0x00000100, false⟩,
  ⟨0x158, 0, 1, "TIM_TRIG_SEL", [rw 7 0], 0x00000000, false⟩,
  ⟨0x15c, 0, 1, "TIM_TRIG_CTL", [rw 31 31, rw 30 30, rw 27 24, rw 23 0], 0x00000000, false⟩,
  ⟨0x160, 0, 1, "TIM_TRIG_FT_LO", [rw 31 0], 0x00000000, false⟩,
  ⟨0x164, 0, 1, "TIM_TRIG_FT_HI", [rw 31 0], 0x00000000, false⟩,
  ⟨0x168, 0, 1, "TIM_TRIG_FIRED_CNT", [rw 31 0], 0x00000000, true⟩,
  ⟨0x16c, 0, 1, "TIM_ERR", [w1c 2 0], 0x00000000, false⟩]

/-- Registers of the RNG page (R412). -/
def rowsRng : List RegRow := [
  ⟨0x100, 0, 1, "RNG_CTL", [rw 0 0], 0x00000000, false⟩,
  ⟨0x104, 0, 1, "RNG_STAT", [ro 31 30, ro 29 29, ro 28 28, ro 27 27, ro 17 0], 0x00000000, false⟩,
  ⟨0x108, 0, 1, "RNG_CMD", [w1s 1 0], 0x00000000, false⟩,
  ⟨0x10c, 4, 4, "RNG_SEED", [rw 31 0], 0x00000000, false⟩,
  ⟨0x11c, 0, 1, "RNG_SEED_GEN", [ro 31 0], 0x00000000, false⟩,
  ⟨0x120, 0, 1, "RNG_GEN_SEL", [rw 17 0], 0x00000000, false⟩,
  ⟨0x124, 0, 1, "RNG_DRAW_LO", [ro 31 0], 0x00000000, false⟩,
  ⟨0x128, 0, 1, "RNG_DRAW_HI", [ro 31 0], 0x00000000, false⟩,
  ⟨0x12c, 0, 1, "RNG_NOISE_FAIL_CNT", [rw 31 0], 0x00000000, true⟩,
  ⟨0x130, 0, 1, "RNG_DRBG_RESEED_CNT", [rw 31 0], 0x00000000, true⟩,
  ⟨0x134, 0, 1, "RNG_ERR", [w1c 1 0], 0x00000000, false⟩]

/-- Registers of the HST page (R512). -/
def rowsHst : List RegRow := [
  ⟨0x100, 0, 1, "HST_LINK_STAT", [ro 31 31, ro 27 24, ro 20 16, ro 15 15, ro 14 14], 0x00000000, false⟩,
  ⟨0x104, 0, 1, "HST_LINK_CTL", [.mk .rw 3 0 1 6], 0x00000006, false⟩,
  ⟨0x108, 0, 1, "HST_CMD", [w1s 0 0], 0x00000000, false⟩,
  ⟨0x10c, 0, 1, "HST_ERR", [w1c 4 0], 0x00000000, false⟩,
  ⟨0x110, 0, 1, "HST_REFUSED_CNT", [rw 31 0], 0x00000000, true⟩,
  ⟨0x114, 0, 1, "HST_LINKDOWN_CNT", [rw 31 0], 0x00000000, true⟩,
  ⟨0x118, 0, 1, "HST_CPL_TMO", [.mk .rw 15 0 1 1000], 0x0000000A, false⟩,
  ⟨0x11c, 0, 1, "HST_WIN_TMO", [.mk .rw 15 0 10 65535], 0x000003E8, false⟩,
  ⟨0x120, 0, 1, "HST_RX_BYTES_LO", [ro 31 0], 0x00000000, false⟩,
  ⟨0x124, 0, 1, "HST_RX_BYTES_HI", [ro 31 0], 0x00000000, false⟩,
  ⟨0x128, 0, 1, "HST_TX_BYTES_LO", [ro 31 0], 0x00000000, false⟩,
  ⟨0x12c, 0, 1, "HST_TX_BYTES_HI", [ro 31 0], 0x00000000, false⟩,
  ⟨0x200, 16, 16, "HST_WIN_BASE_LO", [rw 31 28], 0x00000000, false⟩,
  ⟨0x204, 16, 16, "HST_WIN_BASE_HI", [rw 19 0], 0x00000000, false⟩,
  ⟨0x208, 16, 16, "HST_WIN_CTL", [rw 31 31, rw 6 0], 0x00000000, false⟩,
  ⟨0x304, 4, 24, "HST_TYPE_VEC", [rw 31 31, rw 10 0], 0x00000000, false⟩,
  ⟨0x800, 4, 128, "HST_PAGE_PEND", [ro 31 0], 0x00000000, false⟩]

/-- Registers of the SMB page (R513). -/
def rowsSmb : List RegRow := [
  ⟨0x100, 0, 1, "SMB_ADDR", [ro 31 0], 0, false⟩,
  ⟨0x104, 0, 1, "SMB_CTL", [rw 0 0], 0x00000000, false⟩,
  ⟨0x108, 0, 1, "SMB_CMD_CNT", [rw 31 0], 0x00000000, true⟩,
  ⟨0x10c, 0, 1, "SMB_NACK_CNT", [rw 31 0], 0x00000000, true⟩,
  ⟨0x110, 0, 1, "SMB_PEC_ERR_CNT", [rw 31 0], 0x00000000, true⟩,
  ⟨0x114, 0, 1, "SMB_TMO_CNT", [rw 31 0], 0x00000000, true⟩,
  ⟨0x118, 0, 1, "SMB_GPIO_DIR", [rw 15 0], 0x00000000, false⟩,
  ⟨0x11c, 0, 1, "SMB_GPIO_OUT", [rw 15 0], 0x00000000, false⟩,
  ⟨0x120, 0, 1, "SMB_GPIO_IN", [ro 31 0], 0x00000000, false⟩,
  ⟨0x124, 0, 1, "SMB_GPIO_EDGE_EN", [rw 31 0], 0x00000000, false⟩,
  ⟨0x128, 0, 1, "SMB_GPIO_EDGE", [w1c 31 0], 0x00000000, false⟩,
  ⟨0x12c, 0, 1, "SMB_ERR", [w1c 2 0], 0x00000000, false⟩]

/-- Registers of the UAR page (R514). -/
def rowsUar : List RegRow := [
  ⟨0x100, 0, 1, "UAR_CTL", [rw 31 31, rw 0 0], 0x00000000, false⟩,
  ⟨0x104, 0, 1, "UAR_BAUD", [.mk .rw 15 0 33 65535], 0x00000364, false⟩,
  ⟨0x108, 0, 1, "UAR_STAT", [ro 31 0], 0x00000000, false⟩,
  ⟨0x10c, 0, 1, "UAR_TXD", [rw 7 0], 0x00000000, false⟩,
  ⟨0x110, 0, 1, "UAR_RXD", [ro 31 0], 0x00000000, false⟩,
  ⟨0x114, 0, 1, "UAR_ERR", [w1c 3 0], 0x00000000, false⟩,
  ⟨0x118, 0, 1, "UAR_FE_CNT", [rw 31 0], 0x00000000, true⟩,
  ⟨0x11c, 0, 1, "UAR_OE_CNT", [rw 31 0], 0x00000000, true⟩]

/-- Registers of the FTL page (R175). -/
def rowsFtl : List RegRow := [
  ⟨0x100, 0, 1, "FTL_CAP", [ro 31 0], 0x10000000, false⟩,
  ⟨0x104, 0, 1, "FTL_FREE", [ro 31 0], 0x10000000, false⟩,
  ⟨0x108, 0, 1, "FTL_STAT", [ro 31 16, ro 1 1, ro 0 0], 0x00000000, false⟩,
  ⟨0x10c, 0, 1, "FTL_LIFE", [ro 31 0], 0x00000000, false⟩,
  ⟨0x110, 0, 1, "FTL_SPARE", [ro 31 0], 0x00000064, false⟩,
  ⟨0x114, 0, 1, "FTL_SPARE_WARN", [.mk .rw 7 0 1 50], 0x0000000A, false⟩,
  ⟨0x118, 0, 1, "FTL_RETIRED", [ro 31 0], 0x00000000, false⟩,
  ⟨0x11c, 0, 1, "FTL_REFRESH_CNT", [rw 31 0], 0x00000000, true⟩,
  ⟨0x120, 0, 1, "FTL_RETRY_CNT", [rw 31 0], 0x00000000, true⟩,
  ⟨0x124, 0, 1, "FTL_REBUILD_CNT", [rw 31 0], 0x00000000, true⟩,
  ⟨0x128, 0, 1, "FTL_HOST_WR_LO", [ro 31 0], 0x00000000, false⟩,
  ⟨0x12c, 0, 1, "FTL_HOST_WR_HI", [ro 31 0], 0x00000000, false⟩,
  ⟨0x130, 0, 1, "FTL_NAND_WR_LO", [ro 31 0], 0x00000000, false⟩,
  ⟨0x134, 0, 1, "FTL_NAND_WR_HI", [ro 31 0], 0x00000000, false⟩]

/-- Registers of the CRG page (R134). -/
def rowsCrg : List RegRow := [
  ⟨0x100, 0, 1, "CRG_TENANT", [ro 31 0], 0, false⟩,
  ⟨0x104, 0, 1, "CRG_DB_ERR", [w1c 15 0], 0x00000000, false⟩,
  ⟨0x108, 0, 1, "CRG_STOPPED", [ro 31 0], 0x00000000, false⟩,
  ⟨0x10c, 0, 1, "CRG_TRIG_FALLBACK", [rw 31 0], 0x00000000, true⟩,
  ⟨0x140, 4, 8, "CRG_CTR_FAULT", [w1c 31 0], 0x00000000, false⟩,
  ⟨0x200, 32, 16, "CRG_RING_BASE_LO", [rw 31 12], 0x00000000, false⟩,
  ⟨0x204, 32, 16, "CRG_RING_BASE_HI", [rw 31 0], 0x00000000, false⟩,
  ⟨0x208, 32, 16, "CRG_RING_CTL", [rw 31 31, rw 30 30, .mk .rw 19 16 6 16, .mk .rw 8 0 0 383], 0x00060000, false⟩,
  ⟨0x20c, 32, 16, "CRG_RING_PROD", [rw 31 0], 0x00000000, false⟩,
  ⟨0x210, 32, 16, "CRG_RING_FETCH", [ro 31 0], 0x00000000, false⟩,
  ⟨0x214, 32, 16, "CRG_RING_SEQ", [rw 31 0], 0x00000000, false⟩,
  ⟨0x218, 32, 16, "CRG_RING_STAT", [ro 31 31, ro 30 30, ro 29 27, ro 23 8, ro 4 4, ro 3 3, ro 2 2, ro 1 1, ro 0 0], 0x80000000, false⟩,
  ⟨0x21c, 32, 16, "CRG_RING_DONE", [ro 31 0], 0x00000000, false⟩,
  ⟨0x800, 8, 256, "CRG_DEP_CTR_LO", [rw 31 0], 0x00000000, false⟩,
  ⟨0x804, 8, 256, "CRG_DEP_CTR_HI", [rw 31 0], 0x00000000, false⟩]

/-- Registers of the EVQ page (R137). -/
def rowsEvq : List RegRow := [
  ⟨0x100, 0, 1, "EVQ_TENANT", [ro 31 0], 0, false⟩,
  ⟨0x104, 0, 1, "EVQ_POOL_FREE", [ro 31 0], 0x00080000, false⟩,
  ⟨0x108, 0, 1, "EVQ_ALLOC_ERR", [w1c 15 0], 0x00000000, false⟩,
  ⟨0x200, 64, 16, "EVQ_BASE_LO", [rw 31 6], 0x00000000, false⟩,
  ⟨0x204, 64, 16, "EVQ_BASE_HI", [rw 31 0], 0x00000000, false⟩,
  ⟨0x208, 64, 16, "EVQ_CTL", [rw 31 31, rw 30 30, .mk .rw 27 24 6 16, .mk .rw 23 20 2 12, rw 19 19, rw 18 11, rw 10 0], 0x06200000, false⟩,
  ⟨0x20c, 64, 16, "EVQ_CONS", [rw 31 0], 0x00000000, false⟩,
  ⟨0x210, 64, 16, "EVQ_PROD", [ro 31 0], 0x00000000, false⟩,
  ⟨0x214, 64, 16, "EVQ_FILL", [ro 31 0], 0x00000000, false⟩,
  ⟨0x218, 64, 16, "EVQ_GAP_CNT", [rw 31 0], 0x00000000, true⟩,
  ⟨0x21c, 64, 16, "EVQ_CMD", [w1s 0 0], 0x00000000, false⟩,
  ⟨0x220, 64, 16, "EVQ_FLUSH_CNT", [rw 31 0], 0x00000000, true⟩,
  ⟨0x224, 64, 16, "EVQ_DISC_CNT", [rw 31 0], 0x00000000, true⟩]

/-- Registers of the ADM page (R398). -/
def rowsAdm : List RegRow := [
  ⟨0x100, 0, 1, "ADM_RING_BASE_LO", [rw 31 12], 0x00000000, false⟩,
  ⟨0x104, 0, 1, "ADM_RING_BASE_HI", [rw 31 0], 0x00000000, false⟩,
  ⟨0x108, 0, 1, "ADM_RING_CTL", [rw 31 31, rw 30 30, .mk .rw 19 16 4 12], 0x00000000, false⟩,
  ⟨0x10c, 0, 1, "ADM_RING_PROD", [rw 31 0], 0x00000000, false⟩,
  ⟨0x110, 0, 1, "ADM_RING_DONE", [ro 31 0], 0x00000000, false⟩,
  ⟨0x114, 0, 1, "ADM_CAP", [.mk .rw 7 0 1 100], 0x00000064, false⟩,
  ⟨0x118, 0, 1, "ADM_KV_BUDGET", [rw 24 0], 0x00000000, false⟩,
  ⟨0x11c, 0, 1, "ADM_KV_USED", [ro 31 0], 0x00000000, false⟩,
  ⟨0x120, 0, 1, "ADM_KV_SPILL_LOW", [rw 24 0], 0x00000400, false⟩,
  ⟨0x124, 0, 1, "ADM_ACCEPT_CNT", [rw 31 0], 0x00000000, true⟩,
  ⟨0x128, 0, 1, "ADM_REFUSE_CNT", [rw 31 0], 0x00000000, true⟩,
  ⟨0x12c, 0, 1, "ADM_MISS_CNT", [rw 31 0], 0x00000000, true⟩,
  ⟨0x130, 0, 1, "ADM_DB_ERR", [w1c 0 0], 0x00000000, false⟩,
  ⟨0x134, 0, 1, "ADM_ACTIVE", [ro 31 0], 0x00000000, false⟩,
  ⟨0x138, 0, 1, "ADM_REQ_SEL", [rw 15 0], 0x00000000, false⟩,
  ⟨0x180, 0, 1, "ADM_MDL_SEL", [rw 3 0], 0x00000000, false⟩,
  ⟨0x184, 0, 1, "ADM_MDL_ADDR_LO", [rw 31 6], 0x00000000, false⟩,
  ⟨0x188, 0, 1, "ADM_MDL_ADDR_HI", [rw 31 0], 0x00000000, false⟩,
  ⟨0x18c, 0, 1, "ADM_MDL_BASE", [rw 31 0], 0x00000000, false⟩,
  ⟨0x190, 0, 1, "ADM_MDL_ROW", [rw 31 0], 0x00000000, false⟩,
  ⟨0x194, 0, 1, "ADM_MDL_CTX", [rw 31 0], 0x00000000, false⟩,
  ⟨0x198, 0, 1, "ADM_MDL_PREFILL", [rw 31 0], 0x00000000, false⟩,
  ⟨0x19c, 0, 1, "ADM_MDL_CTL", [rw 31 31, rw 5 0], 0x00000000, false⟩,
  ⟨0x1a0, 0, 1, "ADM_MDL_RHO", [.mk .rw 31 0 1065353216 1065353216], 0x3F800000, false⟩,
  ⟨0x1a4, 0, 1, "ADM_HOLD_RESERVE", [rw 23 0], 0x00000000, false⟩,
  ⟨0x1a8, 0, 1, "ADM_MARGIN", [.mk .rw 15 0 4 65535], 0x0000000A, false⟩,
  ⟨0x1ac, 0, 1, "ADM_RETRY_LIM", [rw 31 16, rw 15 0], 0x27100001, false⟩,
  ⟨0x1b0, 0, 1, "ADM_W_NOW", [ro 31 0], 0x00000000, false⟩,
  ⟨0x200, 4, 32, "ADM_REQ_DATA", [ro 31 0], 0x00000000, false⟩]

/-- Registers of the MPD page (R173). -/
def rowsMpd : List RegRow := [
  ⟨0x100, 0, 1, "MPD_STACK_STAT", [ro 31 0], 0x00000000, false⟩,
  ⟨0x104, 0, 1, "MPD_MOVER_CTL", [.mk .rw 5 0 1 32], 0x00000010, false⟩,
  ⟨0x108, 0, 1, "MPD_MOVE_CNT", [rw 31 0], 0x00000000, true⟩,
  ⟨0x10c, 0, 1, "MPD_MOVE_FAIL", [rw 31 0], 0x00000000, true⟩,
  ⟨0x140, 0, 1, "MPD_RGN_SEL", [rw 12 0], 0x00000000, false⟩,
  ⟨0x144, 0, 1, "MPD_RGN_DATA", [rw 31 31, rw 30 29, rw 28 28, rw 27 24, rw 23 23, rw 6 0], 0x00000000, false⟩,
  ⟨0x148, 0, 1, "MPD_QRY_ADDR_LO", [rw 31 16], 0x00000000, false⟩,
  ⟨0x14c, 0, 1, "MPD_QRY_ADDR_HI", [rw 12 0], 0x00000000, false⟩,
  ⟨0x150, 0, 1, "MPD_QRY_ENTRY", [ro 31 0], 0x00000000, false⟩,
  ⟨0x154, 0, 1, "MPD_OWN_SEL", [.mk .rw 6 0 0 64], 0x00000000, false⟩,
  ⟨0x158, 0, 1, "MPD_OWN_DRAM_QUOTA", [rw 24 0], 0x00000000, false⟩,
  ⟨0x15c, 0, 1, "MPD_OWN_FLASH_QUOTA", [rw 28 0], 0x00000000, false⟩,
  ⟨0x160, 0, 1, "MPD_OWN_DRAM_USED", [ro 31 0], 0x00000000, false⟩,
  ⟨0x164, 0, 1, "MPD_OWN_FLASH_USED", [ro 31 0], 0x00000000, false⟩,
  ⟨0x168, 0, 1, "MPD_OWN_PINNED", [ro 31 0], 0x00000000, false⟩,
  ⟨0x16c, 0, 1, "MPD_OWN_FLASH_RD", [rw 31 0], 0x00000000, true⟩,
  ⟨0x170, 0, 1, "MPD_FRAMES_UNRES", [ro 31 0], 0x011F4000, false⟩,
  ⟨0x174, 0, 1, "MPD_FLASH_UNRES", [ro 31 0], 0x10000000, false⟩,
  ⟨0x178, 0, 1, "MPD_DEMOTE_CNT", [rw 31 0], 0x00000000, true⟩,
  ⟨0x17c, 0, 1, "MPD_PROMOTE_CNT", [rw 31 0], 0x00000000, true⟩,
  ⟨0x180, 0, 1, "MPD_TIER_TMO", [.mk .rw 15 0 100 65535], 0x00001388, false⟩,
  ⟨0x184, 0, 1, "MPD_LOST_CNT", [rw 31 0], 0x00000000, true⟩,
  ⟨0x188, 0, 1, "MPD_TBL_STAT", [ro 31 0], 0x00000000, false⟩,
  ⟨0x18c, 0, 1, "MPD_ERR", [w1c 2 0], 0x00000000, false⟩]

/-- Registers of the DRP page (R174). -/
def rowsDrp : List RegRow := [
  ⟨0x100, 0, 1, "DRP_SHARE", [rw 31 0], 0x0A0A2828, false⟩,
  ⟨0x104, 0, 1, "DRP_FRAMES", [ro 31 0], 0x0017F000, false⟩,
  ⟨0x108, 0, 1, "DRP_FRAMES_FREE", [ro 31 0], 0x0017F000, false⟩,
  ⟨0x10c, 0, 1, "DRP_CE_CNT", [rw 31 0], 0x00000000, true⟩,
  ⟨0x110, 0, 1, "DRP_DIE_CNT", [rw 31 0], 0x00000000, true⟩,
  ⟨0x114, 0, 1, "DRP_UE_CNT", [rw 31 0], 0x00000000, true⟩,
  ⟨0x118, 0, 1, "DRP_DIE_STAT", [ro 31 0], 0x00000000, false⟩,
  ⟨0x11c, 0, 1, "DRP_DIE_SEL", [rw 3 0], 0x00000000, false⟩,
  ⟨0x120, 0, 1, "DRP_DIE_ERR", [rw 31 0], 0x00000000, true⟩,
  ⟨0x124, 0, 1, "DRP_DIE_THRESH", [.mk .rw 7 0 1 255], 0x00000008, false⟩,
  ⟨0x128, 0, 1, "DRP_SCRUB_CTL", [rw 31 31, .mk .rw 7 0 1 168], 0x80000018, false⟩,
  ⟨0x12c, 0, 1, "DRP_SCRUB_POS", [ro 31 0], 0x00000000, false⟩,
  ⟨0x130, 0, 1, "DRP_FENCE_CMD", [w1s 1 0], 0x00000000, false⟩,
  ⟨0x134, 0, 1, "DRP_FENCE_STAT", [ro 31 0], 0x00000000, false⟩,
  ⟨0x138, 0, 1, "DRP_RD_BYTES_LO", [ro 31 0], 0x00000000, false⟩,
  ⟨0x13c, 0, 1, "DRP_RD_BYTES_HI", [ro 31 0], 0x00000000, false⟩,
  ⟨0x140, 0, 1, "DRP_WR_BYTES_LO", [ro 31 0], 0x00000000, false⟩,
  ⟨0x144, 0, 1, "DRP_WR_BYTES_HI", [ro 31 0], 0x00000000, false⟩]

/-- Registers of the RLE page (R372). -/
def rowsRle : List RegRow := [
  ⟨0x100, 0, 1, "RLE_CTL", [rw 0 0], 0x00000000, false⟩,
  ⟨0x104, 0, 1, "RLE_STAT", [ro 31 0], 0x00000000, false⟩,
  ⟨0x108, 0, 1, "RLE_IN_BYTES_LO", [ro 31 0], 0x00000000, false⟩,
  ⟨0x10c, 0, 1, "RLE_IN_BYTES_HI", [ro 31 0], 0x00000000, false⟩,
  ⟨0x110, 0, 1, "RLE_OUT_BYTES_LO", [ro 31 0], 0x00000000, false⟩,
  ⟨0x114, 0, 1, "RLE_OUT_BYTES_HI", [ro 31 0], 0x00000000, false⟩,
  ⟨0x118, 0, 1, "RLE_PIECE_CNT", [rw 31 0], 0x00000000, true⟩,
  ⟨0x11c, 0, 1, "RLE_SAT_CNT", [rw 31 0], 0x00000000, true⟩,
  ⟨0x120, 0, 1, "RLE_NACK_CNT", [rw 31 0], 0x00000000, true⟩,
  ⟨0x124, 0, 1, "RLE_DUP_CNT", [rw 31 0], 0x00000000, true⟩,
  ⟨0x140, 0, 1, "RLE_TURN_STAT", [ro 31 28, ro 27 27, ro 26 26, ro 23 12, ro 11 0], 0x00000000, false⟩,
  ⟨0x144, 0, 1, "RLE_GEN_VERSION", [ro 31 0], 0xFFFFFFFF, false⟩,
  ⟨0x148, 0, 1, "RLE_GEN_NEXT", [ro 31 0], 0x00000000, false⟩,
  ⟨0x14c, 0, 1, "RLE_TURN_FT_LO", [ro 31 0], 0x00000000, false⟩,
  ⟨0x150, 0, 1, "RLE_TURN_FT_HI", [ro 31 0], 0x00000000, false⟩,
  ⟨0x154, 0, 1, "RLE_HOLD_LAST", [ro 31 0], 0x00000000, false⟩,
  ⟨0x158, 0, 1, "RLE_HOLD_MAX", [rw 31 0], 0x00000000, true⟩,
  ⟨0x15c, 0, 1, "RLE_STAGE_FRAMES", [ro 31 0], 0x00000000, false⟩,
  ⟨0x160, 0, 1, "RLE_OLD_READERS", [ro 31 0], 0x00000000, false⟩,
  ⟨0x164, 0, 1, "RLE_TURN_CMD", [w1s 0 0], 0x00000000, false⟩,
  ⟨0x168, 0, 1, "RLE_PEND_RED", [ro 31 0], 0x00000000, false⟩,
  ⟨0x16c, 0, 1, "RLE_ERR", [w1c 3 0], 0x00000000, false⟩,
  ⟨0x170, 0, 1, "RLE_TURN_CNT", [rw 31 0], 0x00000000, true⟩,
  ⟨0x174, 0, 1, "RLE_ABORT_CNT", [rw 31 0], 0x00000000, true⟩]

/-- Registers of the FBD page (R246). -/
def rowsFbd : List RegRow := [
  ⟨0x100, 0, 1, "FBD_PKG_ID", [rw 31 31, rw 14 12, rw 11 0], 0x00000000, false⟩,
  ⟨0x104, 0, 1, "FBD_SHAPE", [rw 31 27, rw 26 22, rw 21 17, rw 16 12, rw 11 9, rw 8 6, rw 5 3, rw 2 0], 0x00000000, false⟩,
  ⟨0x108, 0, 1, "FBD_NBR_SEL", [rw 9 8, rw 4 0], 0x00000000, false⟩,
  ⟨0x10c, 0, 1, "FBD_NBR_PORTS", [rw 31 0], 0x00000000, false⟩,
  ⟨0x110, 0, 1, "FBD_PORT_LIVE", [ro 31 0], 0x00000000, false⟩,
  ⟨0x114, 0, 1, "FBD_XDOM_SEL", [rw 2 0], 0x00000000, false⟩,
  ⟨0x118, 0, 1, "FBD_XDOM_ROUTE", [rw 31 31, rw 17 16, rw 11 0], 0x00000000, false⟩,
  ⟨0x11c, 0, 1, "FBD_E2E_TMO", [.mk .rw 15 0 100 65535], 0x00000FA0, false⟩,
  ⟨0x120, 0, 1, "FBD_E2E_TRIES", [.mk .rw 3 0 1 15], 0x00000004, false⟩,
  ⟨0x124, 0, 1, "FBD_ROUTE_WAIT", [.mk .rw 9 0 1 1000], 0x00000014, false⟩,
  ⟨0x128, 0, 1, "FBD_FLOW_SEL", [rw 11 0], 0x00000000, false⟩,
  ⟨0x12c, 0, 1, "FBD_FLOW_STAT", [ro 31 31, ro 30 30, ro 29 29, ro 28 24, ro 23 23, ro 12 0], 0x00000000, false⟩,
  ⟨0x130, 0, 1, "FBD_CMD", [w1s 1 0], 0x00000000, false⟩,
  ⟨0x134, 0, 1, "FBD_OUTSTANDING", [ro 31 0], 0x00000000, false⟩,
  ⟨0x138, 0, 1, "FBD_GUEST_USED", [ro 31 0], 0x00000000, false⟩,
  ⟨0x13c, 0, 1, "FBD_RESEND_CNT", [rw 31 0], 0x00000000, true⟩,
  ⟨0x140, 0, 1, "FBD_DUP_RSP_CNT", [rw 31 0], 0x00000000, true⟩,
  ⟨0x144, 0, 1, "FBD_DETOUR_CNT", [rw 31 0], 0x00000000, true⟩,
  ⟨0x148, 0, 1, "FBD_ROUTE_DROP_CNT", [rw 31 0], 0x00000000, true⟩,
  ⟨0x14c, 0, 1, "FBD_NOROUTE_CNT", [rw 31 0], 0x00000000, true⟩,
  ⟨0x150, 0, 1, "FBD_XDOM_DROP_CNT", [rw 31 0], 0x00000000, true⟩,
  ⟨0x154, 0, 1, "FBD_ERR", [w1c 2 0], 0x00000000, false⟩,
  ⟨0x158, 0, 1, "FBD_WIRING_PORT", [ro 31 0], 0x00000000, false⟩,
  ⟨0x200, 0, 1, "FBD_FWD_FLITS_LO", [ro 31 0], 0x00000000, false⟩,
  ⟨0x204, 0, 1, "FBD_FWD_FLITS_HI", [ro 31 0], 0x00000000, false⟩]

/-- Registers of the RED page (R273). -/
def rowsRed : List RegRow := [
  ⟨0x100, 0, 1, "RED_POOL_FREE", [ro 31 0], 0x00000020, false⟩,
  ⟨0x104, 0, 1, "RED_RX_CHUNK_CNT", [rw 31 0], 0x00000000, true⟩,
  ⟨0x108, 0, 1, "RED_TX_CHUNK_CNT", [rw 31 0], 0x00000000, true⟩,
  ⟨0x10c, 0, 1, "RED_RESEND_CNT", [rw 31 0], 0x00000000, true⟩,
  ⟨0x110, 0, 1, "RED_ELEM_LO", [ro 31 0], 0x00000000, false⟩,
  ⟨0x114, 0, 1, "RED_ELEM_HI", [ro 31 0], 0x00000000, false⟩,
  ⟨0x140, 0, 1, "RED_FLK_SEL", [rw 5 0], 0x00000000, false⟩,
  ⟨0x144, 0, 1, "RED_FLK_CTL", [rw 31 31, rw 30 30, rw 22 16, rw 15 12, rw 11 10, ro 7 0], 0x00000000, false⟩,
  ⟨0x148, 0, 1, "RED_FLK_BASE", [rw 30 16, rw 14 0], 0x00000000, false⟩,
  ⟨0x14c, 0, 1, "RED_FLK_CNT", [rw 27 16, rw 12 0], 0x00010002, false⟩,
  ⟨0x150, 0, 1, "RED_FLK_WIN", [rw 31 31, rw 12 0], 0x00000001, false⟩,
  ⟨0x154, 0, 1, "RED_FLK_WADDR_LO", [rw 31 18], 0x00000000, false⟩,
  ⟨0x158, 0, 1, "RED_FLK_WADDR_HI", [rw 12 0], 0x00000000, false⟩,
  ⟨0x15c, 0, 1, "RED_FLK_STAT", [ro 31 31, ro 30 30, ro 27 16, ro 12 0], 0x00000000, false⟩,
  ⟨0x160, 0, 1, "RED_FLK_CSEQ", [ro 31 0], 0x00000000, false⟩,
  ⟨0x164, 0, 1, "RED_FLK_DROPS", [ro 31 0], 0x00000000, false⟩,
  ⟨0x168, 0, 1, "RED_FLK_DROP_SEL", [rw 3 0], 0x00000000, false⟩,
  ⟨0x16c, 0, 1, "RED_FLK_DROP", [ro 31 0], 0x00000000, false⟩,
  ⟨0x170, 0, 1, "RED_FLK_DROP_POS", [rw 11 0], 0x00000000, false⟩,
  ⟨0x174, 0, 1, "RED_FLK_CMD", [w1s 1 0], 0x00000000, false⟩,
  ⟨0x178, 0, 1, "RED_TBL_SEL", [rw 11 0], 0x00000000, false⟩,
  ⟨0x17c, 0, 1, "RED_TBL_DATA", [rw 31 31, rw 14 12, rw 11 0], 0x00000000, false⟩,
  ⟨0x180, 0, 1, "RED_PROG_TMO", [.mk .rw 19 0 100 1000000], 0x00004E20, false⟩,
  ⟨0x184, 0, 1, "RED_TAG_ERR", [w1c 31 31, w1c 30 30, ro 29 24, ro 23 16, ro 15 0], 0x00000000, false⟩,
  ⟨0x188, 0, 1, "RED_STALE_CNT", [rw 31 0], 0x00000000, true⟩,
  ⟨0x18c, 0, 1, "RED_NACK_CNT", [rw 31 0], 0x00000000, true⟩,
  ⟨0x190, 0, 1, "RED_ABORT_CNT", [rw 31 0], 0x00000000, true⟩,
  ⟨0x194, 0, 1, "RED_ACTIVE0", [ro 31 0], 0x00000000, false⟩,
  ⟨0x198, 0, 1, "RED_ACTIVE1", [ro 31 0], 0x00000000, false⟩,
  ⟨0x19c, 0, 1, "RED_ERR", [w1c 3 0], 0x00000000, false⟩]

/-- Registers of the HPT page (R213). -/
def rowsHpt : List RegRow := [
  ⟨0x100, 0, 1, "HPT_CTL", [rw 31 31, rw 30 30, rw 29 29, rw 28 28], 0x00000000, false⟩,
  ⟨0x104, 0, 1, "HPT_STAT", [ro 31 28, ro 27 27, ro 26 26, ro 25 25, ro 24 24], 0x00000000, false⟩,
  ⟨0x108, 0, 1, "HPT_CMD", [w1s 2 0], 0x00000000, false⟩,
  ⟨0x10c, 0, 1, "HPT_LANE_MAP_TX", [ro 31 0], 0x76543210, false⟩,
  ⟨0x110, 0, 1, "HPT_LANE_MAP_RX", [ro 31 0], 0x76543210, false⟩,
  ⟨0x114, 0, 1, "HPT_LANE_STAT", [ro 31 0], 0x00000000, false⟩,
  ⟨0x118, 0, 1, "HPT_RECAL_CTL", [rw 31 31, .mk .rw 30 16 1 32767, rw 3 0], 0x02580000, false⟩,
  ⟨0x11c, 0, 1, "HPT_NEIGHBOUR", [ro 31 0], 0x00000000, false⟩,
  ⟨0x120, 0, 1, "HPT_VC_DED0", [rw 31 24, rw 23 16, rw 15 8, rw 7 0], 0x20202020, false⟩,
  ⟨0x124, 0, 1, "HPT_VC_DED1", [rw 31 24, rw 23 16, rw 15 8, rw 7 0], 0x20202020, false⟩,
  ⟨0x128, 0, 1, "HPT_RTT", [ro 31 0], 0x00000000, false⟩,
  ⟨0x12c, 0, 1, "HPT_REPLAY_TMO", [.mk .rw 23 0 1000 16777215], 0x00002710, false⟩,
  ⟨0x130, 0, 1, "HPT_REPLAY_CNT", [rw 31 0], 0x00000000, true⟩,
  ⟨0x134, 0, 1, "HPT_RETRAIN_CNT", [rw 31 0], 0x00000000, true⟩,
  ⟨0x138, 0, 1, "HPT_CRC_ERR_CNT", [rw 31 0], 0x00000000, true⟩,
  ⟨0x13c, 0, 1, "HPT_FEC_UNCORR_CNT", [rw 31 0], 0x00000000, true⟩,
  ⟨0x140, 0, 1, "HPT_FEC_CORR_CNT", [rw 31 0], 0x00000000, true⟩,
  ⟨0x144, 0, 1, "HPT_TAG_FAIL_CNT", [rw 31 0], 0x00000000, true⟩,
  ⟨0x148, 0, 1, "HPT_UNACK_CNT", [rw 31 0], 0x00000000, true⟩,
  ⟨0x14c, 0, 1, "HPT_LANE_SEL", [.mk .rw 3 0 0 8], 0x00000000, false⟩,
  ⟨0x150, 0, 1, "HPT_LANE_CORR", [rw 31 0], 0x00000000, true⟩,
  ⟨0x154, 0, 1, "HPT_LANE_UNCORR", [rw 31 0], 0x00000000, true⟩,
  ⟨0x158, 0, 1, "HPT_TX_FLITS_LO", [ro 31 0], 0x00000000, false⟩,
  ⟨0x15c, 0, 1, "HPT_TX_FLITS_HI", [ro 31 0], 0x00000000, false⟩,
  ⟨0x160, 0, 1, "HPT_RX_FLITS_LO", [ro 31 0], 0x00000000, false⟩,
  ⟨0x164, 0, 1, "HPT_RX_FLITS_HI", [ro 31 0], 0x00000000, false⟩,
  ⟨0x168, 0, 1, "HPT_DROP_CNT", [rw 31 0], 0x00000000, true⟩,
  ⟨0x16c, 0, 1, "HPT_ERR", [w1c 4 0], 0x00000000, false⟩,
  ⟨0x170, 0, 1, "HPT_KEY_CTR_LO", [ro 31 0], 0x00000000, false⟩,
  ⟨0x174, 0, 1, "HPT_KEY_CTR_HI", [ro 31 0], 0x00000000, false⟩,
  ⟨0x180, 4, 16, "HPT_OWN_WEIGHT", [.mk .rw 31 24 1 255, .mk .rw 23 16 1 255, .mk .rw 15 8 1 255, .mk .rw 7 0 1 255], 0x01010101, false⟩,
  ⟨0x1c0, 0, 1, "HPT_OWN_WEIGHT16", [.mk .rw 15 8 1 255, .mk .rw 7 0 1 255], 0x00001008, false⟩]

/-- Registers of the XPT page (R213, R215). -/
def rowsXpt : List RegRow := [
  ⟨0x100, 0, 1, "XPT_CTL", [rw 31 31, ro 30 30, rw 29 29, rw 28 28], 0x40000000, false⟩,
  ⟨0x104, 0, 1, "XPT_STAT", [ro 31 28, ro 27 27, ro 26 26, ro 25 25, ro 24 24], 0x00000000, false⟩,
  ⟨0x108, 0, 1, "XPT_CMD", [w1s 2 0], 0x00000000, false⟩,
  ⟨0x10c, 0, 1, "XPT_LANE_MAP_TX", [ro 31 0], 0x00003210, false⟩,
  ⟨0x110, 0, 1, "XPT_LANE_MAP_RX", [ro 31 0], 0x00003210, false⟩,
  ⟨0x114, 0, 1, "XPT_LANE_STAT", [ro 31 0], 0x00000000, false⟩,
  ⟨0x118, 0, 1, "XPT_RECAL_CTL", [rw 31 31, .mk .rw 30 16 1 32767, rw 3 0], 0x02580000, false⟩,
  ⟨0x11c, 0, 1, "XPT_NEIGHBOUR", [ro 31 0], 0x00000000, false⟩,
  ⟨0x120, 0, 1, "XPT_VC_DED0", [rw 31 24, rw 23 16, rw 15 8, rw 7 0], 0x20202020, false⟩,
  ⟨0x124, 0, 1, "XPT_VC_DED1", [rw 31 24, rw 23 16, rw 15 8, rw 7 0], 0x20202020, false⟩,
  ⟨0x128, 0, 1, "XPT_RTT", [ro 31 0], 0x00000000, false⟩,
  ⟨0x12c, 0, 1, "XPT_REPLAY_TMO", [.mk .rw 23 0 1000 16777215], 0x001E8480, false⟩,
  ⟨0x130, 0, 1, "XPT_REPLAY_CNT", [rw 31 0], 0x00000000, true⟩,
  ⟨0x134, 0, 1, "XPT_RETRAIN_CNT", [rw 31 0], 0x00000000, true⟩,
  ⟨0x138, 0, 1, "XPT_CRC_ERR_CNT", [rw 31 0], 0x00000000, true⟩,
  ⟨0x13c, 0, 1, "XPT_FEC_UNCORR_CNT", [rw 31 0], 0x00000000, true⟩,
  ⟨0x140, 0, 1, "XPT_FEC_CORR_CNT", [rw 31 0], 0x00000000, true⟩,
  ⟨0x144, 0, 1, "XPT_TAG_FAIL_CNT", [rw 31 0], 0x00000000, true⟩,
  ⟨0x148, 0, 1, "XPT_UNACK_CNT", [rw 31 0], 0x00000000, true⟩,
  ⟨0x14c, 0, 1, "XPT_LANE_SEL", [.mk .rw 3 0 0 8], 0x00000000, false⟩,
  ⟨0x150, 0, 1, "XPT_LANE_CORR", [rw 31 0], 0x00000000, true⟩,
  ⟨0x154, 0, 1, "XPT_LANE_UNCORR", [rw 31 0], 0x00000000, true⟩,
  ⟨0x158, 0, 1, "XPT_TX_FLITS_LO", [ro 31 0], 0x00000000, false⟩,
  ⟨0x15c, 0, 1, "XPT_TX_FLITS_HI", [ro 31 0], 0x00000000, false⟩,
  ⟨0x160, 0, 1, "XPT_RX_FLITS_LO", [ro 31 0], 0x00000000, false⟩,
  ⟨0x164, 0, 1, "XPT_RX_FLITS_HI", [ro 31 0], 0x00000000, false⟩,
  ⟨0x168, 0, 1, "XPT_DROP_CNT", [rw 31 0], 0x00000000, true⟩,
  ⟨0x16c, 0, 1, "XPT_ERR", [w1c 4 0], 0x00000000, false⟩,
  ⟨0x170, 0, 1, "XPT_KEY_CTR_LO", [ro 31 0], 0x00000000, false⟩,
  ⟨0x174, 0, 1, "XPT_KEY_CTR_HI", [ro 31 0], 0x00000000, false⟩,
  ⟨0x180, 4, 16, "XPT_OWN_WEIGHT", [.mk .rw 31 24 1 255, .mk .rw 23 16 1 255, .mk .rw 15 8 1 255, .mk .rw 7 0 1 255], 0x01010101, false⟩,
  ⟨0x1c0, 0, 1, "XPT_OWN_WEIGHT16", [.mk .rw 15 8 1 255, .mk .rw 7 0 1 255], 0x00001008, false⟩,
  ⟨0x200, 0, 1, "XPT_OPTIC_STAT", [ro 31 0], 0x00000000, false⟩,
  ⟨0x204, 0, 1, "XPT_BUF_STAT", [ro 31 0], 0x00000003, false⟩,
  ⟨0x208, 0, 1, "XPT_BUF_OCC", [ro 31 0], 0x00000000, false⟩,
  ⟨0x20c, 0, 1, "XPT_REPLAY_FRAMES", [ro 31 0], 0x00000000, false⟩,
  ⟨0x210, 0, 1, "XPT_DIST", [ro 31 0], 0x00000000, false⟩]

/-- Registers of the CDIE page (R486). -/
def rowsCdie : List RegRow := [
  ⟨0x100, 0, 1, "CDIE_STAT", [ro 31 31, ro 30 27, ro 26 26, ro 25 25, ro 7 0], 0x00000000, false⟩,
  ⟨0x104, 0, 1, "CDIE_CLK", [ro 31 0], 0x000007D0, false⟩,
  ⟨0x108, 0, 1, "CDIE_OX_ISSUE", [ro 31 0], 0x00000010, false⟩,
  ⟨0x10c, 0, 1, "CDIE_FENCE_CMD", [w1s 4 0], 0x00000000, false⟩,
  ⟨0x110, 0, 1, "CDIE_CORE_SEL", [rw 8 0], 0x00000000, false⟩,
  ⟨0x114, 0, 1, "CDIE_CORE_STAT", [ro 31 0], 0x00000000, false⟩,
  ⟨0x118, 0, 1, "CDIE_FENCE_TMO", [.mk .rw 19 0 1 1000000], 0x00002710, false⟩,
  ⟨0x11c, 0, 1, "CDIE_LIVE", [ro 31 0], 0, false⟩,
  ⟨0x120, 0, 1, "CDIE_SUBST_CNT", [rw 31 0], 0x00000000, true⟩,
  ⟨0x124, 0, 1, "CDIE_SRAM_CE_CNT", [rw 31 0], 0x00000000, true⟩,
  ⟨0x128, 0, 1, "CDIE_SRAM_UE_CNT", [rw 31 0], 0x00000000, true⟩,
  ⟨0x12c, 0, 1, "CDIE_MESH_STAT", [ro 31 0], 0x00000000, false⟩,
  ⟨0x130, 0, 1, "CDIE_FW_MIX", [ro 31 0], 0x00000000, false⟩,
  ⟨0x134, 0, 1, "CDIE_ERR", [w1c 0 0], 0x00000000, false⟩]

/-- Registers of the CLU page (R102). -/
def rowsClu : List RegRow := [
  ⟨0x100, 0, 1, "CLU_CORE_MAP", [ro 27 22, ro 21 21, ro 20 18, ro 17 0], 0, false⟩,
  ⟨0x104, 0, 1, "CLU_SRAM_SPLIT", [.mk .rw 23 16 1 207, ro 7 0], 0x00680068, false⟩,
  ⟨0x108, 0, 1, "CLU_WAITERS", [ro 31 0], 0x00000000, false⟩,
  ⟨0x10c, 0, 1, "CLU_CTR_ERR", [w1c 31 31, w1c 30 30, ro 7 0], 0x00000000, false⟩,
  ⟨0x110, 0, 1, "CLU_SIG_CNT", [rw 31 0], 0x00000000, true⟩,
  ⟨0x400, 4, 256, "CLU_STAGE_CTR", [rw 31 0], 0x00000000, false⟩]

/-- Registers of the MFU page (R348). -/
def rowsMfu : List RegRow := [
  ⟨0x100, 0, 1, "MFU_CTL", [rw 1 1, rw 0 0], 0x00000000, false⟩,
  ⟨0x104, 0, 1, "MFU_STAT", [ro 31 31, ro 15 14, ro 13 0], 0x00000000, false⟩,
  ⟨0x108, 0, 1, "MFU_NUM_FLAG", [w1c 4 0], 0x00000000, false⟩,
  ⟨0x10c, 0, 1, "MFU_OP_CNT", [rw 31 0], 0x00000000, true⟩,
  ⟨0x110, 0, 1, "MFU_MAC_LO", [ro 31 0], 0x00000000, false⟩,
  ⟨0x114, 0, 1, "MFU_MAC_HI", [ro 31 0], 0x00000000, false⟩,
  ⟨0x118, 0, 1, "MFU_ITER_CNT", [rw 31 0], 0x00000000, true⟩,
  ⟨0x11c, 0, 1, "MFU_TOL_STOP_CNT", [rw 31 0], 0x00000000, true⟩,
  ⟨0x120, 0, 1, "MFU_SHARD_CNT", [rw 31 0], 0x00000000, true⟩,
  ⟨0x124, 0, 1, "MFU_FOLD_WORDS_LO", [ro 31 0], 0x00000000, false⟩,
  ⟨0x128, 0, 1, "MFU_FOLD_WORDS_HI", [ro 31 0], 0x00000000, false⟩,
  ⟨0x12c, 0, 1, "MFU_FOLD_BYTES_LO", [ro 31 0], 0x00000000, false⟩,
  ⟨0x130, 0, 1, "MFU_FOLD_BYTES_HI", [ro 31 0], 0x00000000, false⟩,
  ⟨0x134, 0, 1, "MFU_COMMIT_CNT", [rw 31 0], 0x00000000, true⟩,
  ⟨0x138, 0, 1, "MFU_ROLLBACK_CNT", [rw 31 0], 0x00000000, true⟩,
  ⟨0x13c, 0, 1, "MFU_DOUBT_CNT", [rw 31 0], 0x00000000, true⟩]

/-- Registers of the CORE page (R101). -/
def rowsCore : List RegRow := [
  ⟨0x100, 0, 1, "CORE_STRM_CTL", [rw 3 0], 0x00000002, false⟩,
  ⟨0x104, 0, 1, "CORE_STRM_STAT", [ro 31 0], 0x00000000, false⟩,
  ⟨0x108, 0, 1, "CORE_STRM_ERR", [w1c 31 31, w1c 30 30, ro 21 8, ro 7 0], 0x00000000, false⟩,
  ⟨0x10c, 0, 1, "CORE_SRAM_SPLIT", [.mk .rw 20 16 1 15, ro 4 0], 0x00080008, false⟩,
  ⟨0x110, 0, 1, "CORE_FILL_BYTES_LO", [ro 31 0], 0x00000000, false⟩,
  ⟨0x114, 0, 1, "CORE_FILL_BYTES_HI", [ro 31 0], 0x00000000, false⟩,
  ⟨0x118, 0, 1, "CORE_SPILL_BYTES_LO", [ro 31 0], 0x00000000, false⟩,
  ⟨0x11c, 0, 1, "CORE_SPILL_BYTES_HI", [ro 31 0], 0x00000000, false⟩]

/-- Registers of the OXE page (R100, R68). -/
def rowsOxe : List RegRow := [
  ⟨0x100, 0, 1, "OXE_NUM_CTL", [rw 8 8, rw 5 5, rw 4 4, .mk .rw 1 0 0 1], 0x00000010, false⟩,
  ⟨0x104, 0, 1, "OXE_NUM_FLAG", [w1c 4 4, w1c 3 3, w1c 2 2, w1c 1 1, w1c 0 0], 0x00000000, false⟩,
  ⟨0x108, 0, 1, "OXE_NV_CNT", [rw 31 0], 0x00000000, true⟩,
  ⟨0x10c, 0, 1, "OXE_SAT_CNT", [rw 31 0], 0x00000000, true⟩,
  ⟨0x110, 0, 1, "OXE_FMT_CAP", [ro 12 12, ro 11 11, ro 10 10, ro 9 9, ro 8 8, ro 7 7, ro 6 6, ro 5 5, ro 4 4, ro 3 3, ro 2 2, ro 1 1, ro 0 0], 0x00001FFF, false⟩,
  ⟨0x120, 0, 1, "OXE_SW_CTL", [rw 31 31, .mk .rw 15 0 1 65535], 0x00000080, false⟩,
  ⟨0x124, 0, 1, "OXE_SW_CNT", [rw 31 0], 0x00000000, true⟩,
  ⟨0x128, 0, 1, "OXE_STALL_CYC", [rw 31 0], 0x00000000, true⟩,
  ⟨0x12c, 0, 1, "OXE_TASK_STAT", [ro 18 16, ro 15 15, ro 14 14, ro 13 0], 0x00000000, false⟩,
  ⟨0x130, 0, 1, "OXE_SLOT_STATE0", [ro 31 0], 0x00000000, false⟩,
  ⟨0x134, 0, 1, "OXE_SLOT_STATE1", [ro 31 0], 0x00000000, false⟩,
  ⟨0x138, 0, 1, "OXE_SLOT_STATE2", [ro 31 0], 0x00000000, false⟩]

/-- The rows of one block type. -/
def blkRows : Blk → List RegRow
  | .sem => rowsSem
  | .pwr => rowsPwr
  | .tim => rowsTim
  | .rng => rowsRng
  | .hst => rowsHst
  | .smb => rowsSmb
  | .uar => rowsUar
  | .ftl => rowsFtl
  | .crg => rowsCrg
  | .evq => rowsEvq
  | .adm => rowsAdm
  | .mpd => rowsMpd
  | .drp => rowsDrp
  | .rle => rowsRle
  | .fbd => rowsFbd
  | .red => rowsRed
  | .hpt => rowsHpt
  | .xpt => rowsXpt
  | .cdie => rowsCdie
  | .clu => rowsClu
  | .mfu => rowsMfu
  | .core => rowsCore
  | .oxe => rowsOxe
  | .clt => rowsOxe

/-- A page range of R496: first page, pages, type, BLK_ID type code. -/
structure PageRange where
  first : Nat
  count : Nat
  blk : Blk
  code : Nat
deriving DecidableEq, Repr

/-- The MMIO page map of R496, engines apart. -/
def pageMap : List PageRange := [
  ⟨0x4, 1, .sem, 0x12⟩,
  ⟨0x5, 1, .pwr, 0x13⟩,
  ⟨0x6, 1, .tim, 0x11⟩,
  ⟨0x7, 1, .rng, 0x18⟩,
  ⟨0x8, 1, .hst, 0x15⟩,
  ⟨0x9, 1, .smb, 0x17⟩,
  ⟨0xa, 1, .uar, 0x16⟩,
  ⟨0xb, 1, .ftl, 0x14⟩,
  ⟨0x10, 64, .crg, 0xf⟩,
  ⟨0x50, 64, .evq, 0xe⟩,
  ⟨0x90, 64, .adm, 0x10⟩,
  ⟨0xd0, 6, .mpd, 0x7⟩,
  ⟨0xd8, 12, .drp, 0x8⟩,
  ⟨0xe8, 6, .rle, 0x9⟩,
  ⟨0xf0, 2, .fbd, 0xa⟩,
  ⟨0xf2, 2, .red, 0xd⟩,
  ⟨0x100, 32, .hpt, 0xb⟩,
  ⟨0x120, 4, .xpt, 0xc⟩,
  ⟨0x130, 16, .cdie, 0x6⟩,
  ⟨0x140, 64, .clu, 0x4⟩,
  ⟨0x180, 64, .mfu, 0x5⟩,
  ⟨0x200, 384, .core, 0x3⟩]

/-- The block type, type code and instance of a page; none for an empty page, the directory and the MSI-X pages (R496). -/
def pageOf (p : Nat) : Option (Blk × Nat × Nat) :=
  if 0x400 ≤ p ∧ p ≤ 0x9FF then
    (if (p - 0x400) % 4 = 3 then some (.clt, 2, p - 0x400) else some (.oxe, 1, p - 0x400))
  else (pageMap.find? (fun r => r.first ≤ p ∧ p < r.first + r.count)).map (fun r => (r.blk, r.code, p - r.first))

/-- The row an offset falls in. -/
def findRow (rows : List RegRow) (off : Nat) : Option RegRow :=
  rows.find? (fun r => r.off ≤ off ∧ (if r.stride = 0 then off = r.off
    else (off - r.off) % r.stride = 0 ∧ (off - r.off) / r.stride < r.count))

/-- The register table row of an address; the common layout comes first (R498). -/
def rowAt (a : Nat) : Option RegRow :=
  match pageOf (a / 4096) with
  | none => none
  | some (b, _, _) => findRow (if a % 4096 < 0x100 then rowsCommon else blkRows b) (a % 4096)

/-- Mirrored registers: the first page of the type stands for all (R173, R246, R273, R372, R398). -/
def canon (a : Nat) : Nat :=
  let p := a / 4096
  let o := a % 4096
  if 0xD0 ≤ p ∧ p ≤ 0xD5 ∧ 0x140 ≤ o ∧ o < 0x190 then 0xD0 * 4096 + o
  else if p = 0xF1 ∧ 0x100 ≤ o ∧ o < 0x160 then 0xF0 * 4096 + o
  else if p = 0xF3 ∧ 0x140 ≤ o ∧ o < 0x1A0 then 0xF2 * 4096 + o
  else if 0xE8 ≤ p ∧ p ≤ 0xED ∧ 0x140 ≤ o ∧ o < 0x178 then 0xE8 * 4096 + o
  else if 0x90 ≤ p ∧ p ≤ 0xCF ∧ 0x180 ≤ o ∧ o < 0x1B4 then 0x90 * 4096 + o
  else if 0x50 ≤ p ∧ p ≤ 0x8F ∧ o = 0x104 then 0x50 * 4096 + o
  else a

/-- CLU_CORE_MAP as the fuses give it (R13, R15, R102): logical cores 0 to 5 on slots 0 to 5, slot 6 the spare; where a core is fused
off, slot 6 in its place and no spare left (log entry 5). -/
def coreMapFuse (u : Nat) : BitVec 32 :=
  if Config.spareAtFactory u then 0x003AC688#32
  else BitVec.ofNat 32 (7 * 2 ^ 18 +
    ((List.range 6).map (fun l => 8 ^ l * (if l = Config.fusedOff u % 7 then 6 else l))).sum)

/-- The reset value of a register: its table's, but the few that depend on the page, the fuses or the DRBG (R102, R134, R137, R212,
R420, R497, R498). -/
def regReset (a : Nat) : BitVec 32 :=
  let o := a % 4096
  match pageOf (a / 4096) with
  | none => 0
  | some (b, code, inst) =>
    if o = 0 then BitVec.ofNat 32 (code * 65536 + inst)
    else if o = 0x100 ∧ (b = .crg ∨ b = .evq) then BitVec.ofNat 32 inst
    else if o = 0x100 ∧ b = .clu then coreMapFuse inst
    else if 0x118 ≤ o ∧ o < 0x148 ∧ b = .sem then Config.firstChal ((o - 0x118) / 4)
    else match rowAt a with
      | none => 0
      | some r => r.reset

namespace R

/-- BLK_ID of page `p` (R498). -/
def BLK_ID (p : Nat) : Nat := 4096 * p + 0x0
/-- BLK_VER of page `p` (R498). -/
def BLK_VER (p : Nat) : Nat := 4096 * p + 0x4
/-- BLK_CAP of page `p` (R498). -/
def BLK_CAP (p : Nat) : Nat := 4096 * p + 0x8
/-- BLK_CTL of page `p` (R498). -/
def BLK_CTL (p : Nat) : Nat := 4096 * p + 0x10
/-- BLK_STAT of page `p` (R498). -/
def BLK_STAT (p : Nat) : Nat := 4096 * p + 0x14
/-- INT_RAW of page `p` (R498). -/
def INT_RAW (p : Nat) : Nat := 4096 * p + 0x18
/-- INT_EN of page `p` (R498). -/
def INT_EN (p : Nat) : Nat := 4096 * p + 0x1c
/-- INT_STAT of page `p` (R498). -/
def INT_STAT (p : Nat) : Nat := 4096 * p + 0x20
/-- INT_SET of page `p` (R498). -/
def INT_SET (p : Nat) : Nat := 4096 * p + 0x24
/-- ERR_INFO of page `p` (R498). -/
def ERR_INFO (p : Nat) : Nat := 4096 * p + 0x28
/-- ERR_ADDR_LO of page `p` (R498). -/
def ERR_ADDR_LO (p : Nat) : Nat := 4096 * p + 0x30
/-- ERR_ADDR_HI of page `p` (R498). -/
def ERR_ADDR_HI (p : Nat) : Nat := 4096 * p + 0x34
/-- GEN_RD_CNT of page `p` (R498). -/
def GEN_RD_CNT (p : Nat) : Nat := 4096 * p + 0x40
/-- GEN_WR_CNT of page `p` (R498). -/
def GEN_WR_CNT (p : Nat) : Nat := 4096 * p + 0x44
/-- GEN_IGN_CNT of page `p` (R498). -/
def GEN_IGN_CNT (p : Nat) : Nat := 4096 * p + 0x48
def SEM_STAT : Nat := 0x4000 + 0x100
def SEM_CTL : Nat := 0x4000 + 0x104
def SEM_MBX_ADDR_LO : Nat := 0x4000 + 0x108
def SEM_MBX_ADDR_HI : Nat := 0x4000 + 0x10c
def SEM_MBX_CMD : Nat := 0x4000 + 0x110
def SEM_MBX_STAT : Nat := 0x4000 + 0x114
def SEM_CHAL (j : Nat) : Nat := 0x4000 + (0x118 + 4 * j)
def SEM_ADMIN_OPEN : Nat := 0x4000 + 0x148
def SEM_TENANT_SEL : Nat := 0x4000 + 0x14c
def SEM_TENANT_STAT : Nat := 0x4000 + 0x150
def SEM_MODEL_GRANT0 : Nat := 0x4000 + 0x154
def SEM_MODEL_GRANT1 : Nat := 0x4000 + 0x158
def SEM_TURN_RIGHT0 : Nat := 0x4000 + 0x15c
def SEM_TURN_RIGHT1 : Nat := 0x4000 + 0x160
def SEM_KF_STAT : Nat := 0x4000 + 0x164
def SEM_KF_ID : Nat := 0x4000 + 0x168
def SEM_TAMPER : Nat := 0x4000 + 0x16c
def SEM_SELFTEST : Nat := 0x4000 + 0x170
def SEM_AUTH_FAIL_CNT : Nat := 0x4000 + 0x174
def SEM_TAG_PORTS0 : Nat := 0x4000 + 0x178
def SEM_TAG_PORTS1 : Nat := 0x4000 + 0x17c
def SEM_ERR : Nat := 0x4000 + 0x180
def SEM_MEAS (j : Nat) : Nat := 0x4000 + (0x200 + 4 * j)
def PWR_STAT : Nat := 0x5000 + 0x100
def PWR_RUNG_REQ : Nat := 0x5000 + 0x104
def PWR_RUNG_CTL : Nat := 0x5000 + 0x108
def PWR_LIMIT : Nat := 0x5000 + 0x10c
def PWR_OX_FLOOR : Nat := 0x5000 + 0x110
def PWR_POWER : Nat := 0x5000 + 0x114
def PWR_VIN : Nat := 0x5000 + 0x118
def PWR_TEMP_SEL : Nat := 0x5000 + 0x11c
def PWR_TEMP : Nat := 0x5000 + 0x120
def PWR_THERM_THR : Nat := 0x5000 + 0x124
def PWR_THROTTLE_CNT : Nat := 0x5000 + 0x128
def PWR_TELEM_CTL : Nat := 0x5000 + 0x12c
def PWR_TELEM_DEST : Nat := 0x5000 + 0x130
def PWR_CMD : Nat := 0x5000 + 0x134
def PWR_RESET_CAUSE : Nat := 0x5000 + 0x138
def PWR_FATAL : Nat := 0x5000 + 0x13c
def PWR_FW_STAT : Nat := 0x5000 + 0x140
def PWR_FW_SWITCH_TMO : Nat := 0x5000 + 0x144
def PWR_FIG_FP8 : Nat := 0x5000 + 0x148
def PWR_FIG_DRAM : Nat := 0x5000 + 0x14c
def PWR_FIG_SRAM : Nat := 0x5000 + 0x150
def PWR_FIG_HALL : Nat := 0x5000 + 0x154
def PWR_RUNG_CNT : Nat := 0x5000 + 0x158
def PWR_RUNG_TIME (j : Nat) : Nat := 0x5000 + (0x15c + 4 * j)
def PWR_ERR : Nat := 0x5000 + 0x174
def TIM_CTL : Nat := 0x6000 + 0x100
def TIM_STAT : Nat := 0x6000 + 0x104
def TIM_FT_LO : Nat := 0x6000 + 0x108
def TIM_FT_HI : Nat := 0x6000 + 0x10c
def TIM_MASTER : Nat := 0x6000 + 0x110
def TIM_OFFSET : Nat := 0x6000 + 0x114
def TIM_ERR_NS : Nat := 0x6000 + 0x118
def TIM_HOLD_S : Nat := 0x6000 + 0x11c
def TIM_LEAP : Nat := 0x6000 + 0x120
def TIM_TOD_CTL : Nat := 0x6000 + 0x124
def TIM_PPS_WIN : Nat := 0x6000 + 0x128
def TIM_CMD : Nat := 0x6000 + 0x12c
def TIM_STEP_LO : Nat := 0x6000 + 0x130
def TIM_STEP_HI : Nat := 0x6000 + 0x134
def TIM_XPT_ASYM (j : Nat) : Nat := 0x6000 + (0x138 + 4 * j)
def TIM_PPS_CNT : Nat := 0x6000 + 0x148
def TIM_PPS_MISS_CNT : Nat := 0x6000 + 0x14c
def TIM_ZDA_ERR_CNT : Nat := 0x6000 + 0x150
def TIM_TRIG_FREE : Nat := 0x6000 + 0x154
def TIM_TRIG_SEL : Nat := 0x6000 + 0x158
def TIM_TRIG_CTL : Nat := 0x6000 + 0x15c
def TIM_TRIG_FT_LO : Nat := 0x6000 + 0x160
def TIM_TRIG_FT_HI : Nat := 0x6000 + 0x164
def TIM_TRIG_FIRED_CNT : Nat := 0x6000 + 0x168
def TIM_ERR : Nat := 0x6000 + 0x16c
def RNG_CTL : Nat := 0x7000 + 0x100
def RNG_STAT : Nat := 0x7000 + 0x104
def RNG_CMD : Nat := 0x7000 + 0x108
def RNG_SEED (j : Nat) : Nat := 0x7000 + (0x10c + 4 * j)
def RNG_SEED_GEN : Nat := 0x7000 + 0x11c
def RNG_GEN_SEL : Nat := 0x7000 + 0x120
def RNG_DRAW_LO : Nat := 0x7000 + 0x124
def RNG_DRAW_HI : Nat := 0x7000 + 0x128
def RNG_NOISE_FAIL_CNT : Nat := 0x7000 + 0x12c
def RNG_DRBG_RESEED_CNT : Nat := 0x7000 + 0x130
def RNG_ERR : Nat := 0x7000 + 0x134
def HST_LINK_STAT : Nat := 0x8000 + 0x100
def HST_LINK_CTL : Nat := 0x8000 + 0x104
def HST_CMD : Nat := 0x8000 + 0x108
def HST_ERR : Nat := 0x8000 + 0x10c
def HST_REFUSED_CNT : Nat := 0x8000 + 0x110
def HST_LINKDOWN_CNT : Nat := 0x8000 + 0x114
def HST_CPL_TMO : Nat := 0x8000 + 0x118
def HST_WIN_TMO : Nat := 0x8000 + 0x11c
def HST_RX_BYTES_LO : Nat := 0x8000 + 0x120
def HST_RX_BYTES_HI : Nat := 0x8000 + 0x124
def HST_TX_BYTES_LO : Nat := 0x8000 + 0x128
def HST_TX_BYTES_HI : Nat := 0x8000 + 0x12c
def HST_WIN_BASE_LO (j : Nat) : Nat := 0x8000 + (0x200 + 16 * j)
def HST_WIN_BASE_HI (j : Nat) : Nat := 0x8000 + (0x204 + 16 * j)
def HST_WIN_CTL (j : Nat) : Nat := 0x8000 + (0x208 + 16 * j)
def HST_TYPE_VEC (j : Nat) : Nat := 0x8000 + (0x300 + 4 * j)
def HST_PAGE_PEND (j : Nat) : Nat := 0x8000 + (0x800 + 4 * j)
def SMB_ADDR : Nat := 0x9000 + 0x100
def SMB_CTL : Nat := 0x9000 + 0x104
def SMB_CMD_CNT : Nat := 0x9000 + 0x108
def SMB_NACK_CNT : Nat := 0x9000 + 0x10c
def SMB_PEC_ERR_CNT : Nat := 0x9000 + 0x110
def SMB_TMO_CNT : Nat := 0x9000 + 0x114
def SMB_GPIO_DIR : Nat := 0x9000 + 0x118
def SMB_GPIO_OUT : Nat := 0x9000 + 0x11c
def SMB_GPIO_IN : Nat := 0x9000 + 0x120
def SMB_GPIO_EDGE_EN : Nat := 0x9000 + 0x124
def SMB_GPIO_EDGE : Nat := 0x9000 + 0x128
def SMB_ERR : Nat := 0x9000 + 0x12c
def UAR_CTL : Nat := 0xa000 + 0x100
def UAR_BAUD : Nat := 0xa000 + 0x104
def UAR_STAT : Nat := 0xa000 + 0x108
def UAR_TXD : Nat := 0xa000 + 0x10c
def UAR_RXD : Nat := 0xa000 + 0x110
def UAR_ERR : Nat := 0xa000 + 0x114
def UAR_FE_CNT : Nat := 0xa000 + 0x118
def UAR_OE_CNT : Nat := 0xa000 + 0x11c
def FTL_CAP : Nat := 0xb000 + 0x100
def FTL_FREE : Nat := 0xb000 + 0x104
def FTL_STAT : Nat := 0xb000 + 0x108
def FTL_LIFE : Nat := 0xb000 + 0x10c
def FTL_SPARE : Nat := 0xb000 + 0x110
def FTL_SPARE_WARN : Nat := 0xb000 + 0x114
def FTL_RETIRED : Nat := 0xb000 + 0x118
def FTL_REFRESH_CNT : Nat := 0xb000 + 0x11c
def FTL_RETRY_CNT : Nat := 0xb000 + 0x120
def FTL_REBUILD_CNT : Nat := 0xb000 + 0x124
def FTL_HOST_WR_LO : Nat := 0xb000 + 0x128
def FTL_HOST_WR_HI : Nat := 0xb000 + 0x12c
def FTL_NAND_WR_LO : Nat := 0xb000 + 0x130
def FTL_NAND_WR_HI : Nat := 0xb000 + 0x134
def CRG_TENANT (i : Nat) : Nat := 4096 * (0x10 + i) + 0x100
def CRG_DB_ERR (i : Nat) : Nat := 4096 * (0x10 + i) + 0x104
def CRG_STOPPED (i : Nat) : Nat := 4096 * (0x10 + i) + 0x108
def CRG_TRIG_FALLBACK (i : Nat) : Nat := 4096 * (0x10 + i) + 0x10c
def CRG_CTR_FAULT (i j : Nat) : Nat := 4096 * (0x10 + i) + (0x140 + 4 * j)
def CRG_RING_BASE_LO (i j : Nat) : Nat := 4096 * (0x10 + i) + (0x200 + 32 * j)
def CRG_RING_BASE_HI (i j : Nat) : Nat := 4096 * (0x10 + i) + (0x204 + 32 * j)
def CRG_RING_CTL (i j : Nat) : Nat := 4096 * (0x10 + i) + (0x208 + 32 * j)
def CRG_RING_PROD (i j : Nat) : Nat := 4096 * (0x10 + i) + (0x20c + 32 * j)
def CRG_RING_FETCH (i j : Nat) : Nat := 4096 * (0x10 + i) + (0x210 + 32 * j)
def CRG_RING_SEQ (i j : Nat) : Nat := 4096 * (0x10 + i) + (0x214 + 32 * j)
def CRG_RING_STAT (i j : Nat) : Nat := 4096 * (0x10 + i) + (0x218 + 32 * j)
def CRG_RING_DONE (i j : Nat) : Nat := 4096 * (0x10 + i) + (0x21c + 32 * j)
def CRG_DEP_CTR_LO (i j : Nat) : Nat := 4096 * (0x10 + i) + (0x800 + 8 * j)
def CRG_DEP_CTR_HI (i j : Nat) : Nat := 4096 * (0x10 + i) + (0x804 + 8 * j)
def EVQ_TENANT (i : Nat) : Nat := 4096 * (0x50 + i) + 0x100
def EVQ_POOL_FREE : Nat := 0x50000 + 0x104
def EVQ_ALLOC_ERR (i : Nat) : Nat := 4096 * (0x50 + i) + 0x108
def EVQ_BASE_LO (i j : Nat) : Nat := 4096 * (0x50 + i) + (0x200 + 64 * j)
def EVQ_BASE_HI (i j : Nat) : Nat := 4096 * (0x50 + i) + (0x204 + 64 * j)
def EVQ_CTL (i j : Nat) : Nat := 4096 * (0x50 + i) + (0x208 + 64 * j)
def EVQ_CONS (i j : Nat) : Nat := 4096 * (0x50 + i) + (0x20c + 64 * j)
def EVQ_PROD (i j : Nat) : Nat := 4096 * (0x50 + i) + (0x210 + 64 * j)
def EVQ_FILL (i j : Nat) : Nat := 4096 * (0x50 + i) + (0x214 + 64 * j)
def EVQ_GAP_CNT (i j : Nat) : Nat := 4096 * (0x50 + i) + (0x218 + 64 * j)
def EVQ_CMD (i j : Nat) : Nat := 4096 * (0x50 + i) + (0x21c + 64 * j)
def EVQ_FLUSH_CNT (i j : Nat) : Nat := 4096 * (0x50 + i) + (0x220 + 64 * j)
def EVQ_DISC_CNT (i j : Nat) : Nat := 4096 * (0x50 + i) + (0x224 + 64 * j)
def ADM_RING_BASE_LO (i : Nat) : Nat := 4096 * (0x90 + i) + 0x100
def ADM_RING_BASE_HI (i : Nat) : Nat := 4096 * (0x90 + i) + 0x104
def ADM_RING_CTL (i : Nat) : Nat := 4096 * (0x90 + i) + 0x108
def ADM_RING_PROD (i : Nat) : Nat := 4096 * (0x90 + i) + 0x10c
def ADM_RING_DONE (i : Nat) : Nat := 4096 * (0x90 + i) + 0x110
def ADM_CAP (i : Nat) : Nat := 4096 * (0x90 + i) + 0x114
def ADM_KV_BUDGET (i : Nat) : Nat := 4096 * (0x90 + i) + 0x118
def ADM_KV_USED (i : Nat) : Nat := 4096 * (0x90 + i) + 0x11c
def ADM_KV_SPILL_LOW (i : Nat) : Nat := 4096 * (0x90 + i) + 0x120
def ADM_ACCEPT_CNT (i : Nat) : Nat := 4096 * (0x90 + i) + 0x124
def ADM_REFUSE_CNT (i : Nat) : Nat := 4096 * (0x90 + i) + 0x128
def ADM_MISS_CNT (i : Nat) : Nat := 4096 * (0x90 + i) + 0x12c
def ADM_DB_ERR (i : Nat) : Nat := 4096 * (0x90 + i) + 0x130
def ADM_ACTIVE (i : Nat) : Nat := 4096 * (0x90 + i) + 0x134
def ADM_REQ_SEL (i : Nat) : Nat := 4096 * (0x90 + i) + 0x138
def ADM_MDL_SEL : Nat := 0x90000 + 0x180
def ADM_MDL_ADDR_LO : Nat := 0x90000 + 0x184
def ADM_MDL_ADDR_HI : Nat := 0x90000 + 0x188
def ADM_MDL_BASE : Nat := 0x90000 + 0x18c
def ADM_MDL_ROW : Nat := 0x90000 + 0x190
def ADM_MDL_CTX : Nat := 0x90000 + 0x194
def ADM_MDL_PREFILL : Nat := 0x90000 + 0x198
def ADM_MDL_CTL : Nat := 0x90000 + 0x19c
def ADM_MDL_RHO : Nat := 0x90000 + 0x1a0
def ADM_HOLD_RESERVE : Nat := 0x90000 + 0x1a4
def ADM_MARGIN : Nat := 0x90000 + 0x1a8
def ADM_RETRY_LIM : Nat := 0x90000 + 0x1ac
def ADM_W_NOW : Nat := 0x90000 + 0x1b0
def ADM_REQ_DATA (i j : Nat) : Nat := 4096 * (0x90 + i) + (0x200 + 4 * j)
def MPD_STACK_STAT (i : Nat) : Nat := 4096 * (0xd0 + i) + 0x100
def MPD_MOVER_CTL (i : Nat) : Nat := 4096 * (0xd0 + i) + 0x104
def MPD_MOVE_CNT (i : Nat) : Nat := 4096 * (0xd0 + i) + 0x108
def MPD_MOVE_FAIL (i : Nat) : Nat := 4096 * (0xd0 + i) + 0x10c
def MPD_RGN_SEL : Nat := 0xd0000 + 0x140
def MPD_RGN_DATA : Nat := 0xd0000 + 0x144
def MPD_QRY_ADDR_LO : Nat := 0xd0000 + 0x148
def MPD_QRY_ADDR_HI : Nat := 0xd0000 + 0x14c
def MPD_QRY_ENTRY : Nat := 0xd0000 + 0x150
def MPD_OWN_SEL : Nat := 0xd0000 + 0x154
def MPD_OWN_DRAM_QUOTA : Nat := 0xd0000 + 0x158
def MPD_OWN_FLASH_QUOTA : Nat := 0xd0000 + 0x15c
def MPD_OWN_DRAM_USED : Nat := 0xd0000 + 0x160
def MPD_OWN_FLASH_USED : Nat := 0xd0000 + 0x164
def MPD_OWN_PINNED : Nat := 0xd0000 + 0x168
def MPD_OWN_FLASH_RD : Nat := 0xd0000 + 0x16c
def MPD_FRAMES_UNRES : Nat := 0xd0000 + 0x170
def MPD_FLASH_UNRES : Nat := 0xd0000 + 0x174
def MPD_DEMOTE_CNT : Nat := 0xd0000 + 0x178
def MPD_PROMOTE_CNT : Nat := 0xd0000 + 0x17c
def MPD_TIER_TMO : Nat := 0xd0000 + 0x180
def MPD_LOST_CNT : Nat := 0xd0000 + 0x184
def MPD_TBL_STAT : Nat := 0xd0000 + 0x188
def MPD_ERR : Nat := 0xd0000 + 0x18c
def DRP_SHARE (i : Nat) : Nat := 4096 * (0xd8 + i) + 0x100
def DRP_FRAMES (i : Nat) : Nat := 4096 * (0xd8 + i) + 0x104
def DRP_FRAMES_FREE (i : Nat) : Nat := 4096 * (0xd8 + i) + 0x108
def DRP_CE_CNT (i : Nat) : Nat := 4096 * (0xd8 + i) + 0x10c
def DRP_DIE_CNT (i : Nat) : Nat := 4096 * (0xd8 + i) + 0x110
def DRP_UE_CNT (i : Nat) : Nat := 4096 * (0xd8 + i) + 0x114
def DRP_DIE_STAT (i : Nat) : Nat := 4096 * (0xd8 + i) + 0x118
def DRP_DIE_SEL (i : Nat) : Nat := 4096 * (0xd8 + i) + 0x11c
def DRP_DIE_ERR (i : Nat) : Nat := 4096 * (0xd8 + i) + 0x120
def DRP_DIE_THRESH (i : Nat) : Nat := 4096 * (0xd8 + i) + 0x124
def DRP_SCRUB_CTL (i : Nat) : Nat := 4096 * (0xd8 + i) + 0x128
def DRP_SCRUB_POS (i : Nat) : Nat := 4096 * (0xd8 + i) + 0x12c
def DRP_FENCE_CMD (i : Nat) : Nat := 4096 * (0xd8 + i) + 0x130
def DRP_FENCE_STAT (i : Nat) : Nat := 4096 * (0xd8 + i) + 0x134
def DRP_RD_BYTES_LO (i : Nat) : Nat := 4096 * (0xd8 + i) + 0x138
def DRP_RD_BYTES_HI (i : Nat) : Nat := 4096 * (0xd8 + i) + 0x13c
def DRP_WR_BYTES_LO (i : Nat) : Nat := 4096 * (0xd8 + i) + 0x140
def DRP_WR_BYTES_HI (i : Nat) : Nat := 4096 * (0xd8 + i) + 0x144
def RLE_CTL (i : Nat) : Nat := 4096 * (0xe8 + i) + 0x100
def RLE_STAT (i : Nat) : Nat := 4096 * (0xe8 + i) + 0x104
def RLE_IN_BYTES_LO (i : Nat) : Nat := 4096 * (0xe8 + i) + 0x108
def RLE_IN_BYTES_HI (i : Nat) : Nat := 4096 * (0xe8 + i) + 0x10c
def RLE_OUT_BYTES_LO (i : Nat) : Nat := 4096 * (0xe8 + i) + 0x110
def RLE_OUT_BYTES_HI (i : Nat) : Nat := 4096 * (0xe8 + i) + 0x114
def RLE_PIECE_CNT (i : Nat) : Nat := 4096 * (0xe8 + i) + 0x118
def RLE_SAT_CNT (i : Nat) : Nat := 4096 * (0xe8 + i) + 0x11c
def RLE_NACK_CNT (i : Nat) : Nat := 4096 * (0xe8 + i) + 0x120
def RLE_DUP_CNT (i : Nat) : Nat := 4096 * (0xe8 + i) + 0x124
def RLE_TURN_STAT : Nat := 0xe8000 + 0x140
def RLE_GEN_VERSION : Nat := 0xe8000 + 0x144
def RLE_GEN_NEXT : Nat := 0xe8000 + 0x148
def RLE_TURN_FT_LO : Nat := 0xe8000 + 0x14c
def RLE_TURN_FT_HI : Nat := 0xe8000 + 0x150
def RLE_HOLD_LAST : Nat := 0xe8000 + 0x154
def RLE_HOLD_MAX : Nat := 0xe8000 + 0x158
def RLE_STAGE_FRAMES : Nat := 0xe8000 + 0x15c
def RLE_OLD_READERS : Nat := 0xe8000 + 0x160
def RLE_TURN_CMD : Nat := 0xe8000 + 0x164
def RLE_PEND_RED : Nat := 0xe8000 + 0x168
def RLE_ERR : Nat := 0xe8000 + 0x16c
def RLE_TURN_CNT : Nat := 0xe8000 + 0x170
def RLE_ABORT_CNT : Nat := 0xe8000 + 0x174
def FBD_PKG_ID : Nat := 0xf0000 + 0x100
def FBD_SHAPE : Nat := 0xf0000 + 0x104
def FBD_NBR_SEL : Nat := 0xf0000 + 0x108
def FBD_NBR_PORTS : Nat := 0xf0000 + 0x10c
def FBD_PORT_LIVE : Nat := 0xf0000 + 0x110
def FBD_XDOM_SEL : Nat := 0xf0000 + 0x114
def FBD_XDOM_ROUTE : Nat := 0xf0000 + 0x118
def FBD_E2E_TMO : Nat := 0xf0000 + 0x11c
def FBD_E2E_TRIES : Nat := 0xf0000 + 0x120
def FBD_ROUTE_WAIT : Nat := 0xf0000 + 0x124
def FBD_FLOW_SEL : Nat := 0xf0000 + 0x128
def FBD_FLOW_STAT : Nat := 0xf0000 + 0x12c
def FBD_CMD : Nat := 0xf0000 + 0x130
def FBD_OUTSTANDING : Nat := 0xf0000 + 0x134
def FBD_GUEST_USED : Nat := 0xf0000 + 0x138
def FBD_RESEND_CNT : Nat := 0xf0000 + 0x13c
def FBD_DUP_RSP_CNT : Nat := 0xf0000 + 0x140
def FBD_DETOUR_CNT : Nat := 0xf0000 + 0x144
def FBD_ROUTE_DROP_CNT : Nat := 0xf0000 + 0x148
def FBD_NOROUTE_CNT : Nat := 0xf0000 + 0x14c
def FBD_XDOM_DROP_CNT : Nat := 0xf0000 + 0x150
def FBD_ERR : Nat := 0xf0000 + 0x154
def FBD_WIRING_PORT : Nat := 0xf0000 + 0x158
def FBD_FWD_FLITS_LO (i : Nat) : Nat := 4096 * (0xf0 + i) + 0x200
def FBD_FWD_FLITS_HI (i : Nat) : Nat := 4096 * (0xf0 + i) + 0x204
def RED_POOL_FREE (i : Nat) : Nat := 4096 * (0xf2 + i) + 0x100
def RED_RX_CHUNK_CNT (i : Nat) : Nat := 4096 * (0xf2 + i) + 0x104
def RED_TX_CHUNK_CNT (i : Nat) : Nat := 4096 * (0xf2 + i) + 0x108
def RED_RESEND_CNT (i : Nat) : Nat := 4096 * (0xf2 + i) + 0x10c
def RED_ELEM_LO (i : Nat) : Nat := 4096 * (0xf2 + i) + 0x110
def RED_ELEM_HI (i : Nat) : Nat := 4096 * (0xf2 + i) + 0x114
def RED_FLK_SEL : Nat := 0xf2000 + 0x140
def RED_FLK_CTL : Nat := 0xf2000 + 0x144
def RED_FLK_BASE : Nat := 0xf2000 + 0x148
def RED_FLK_CNT : Nat := 0xf2000 + 0x14c
def RED_FLK_WIN : Nat := 0xf2000 + 0x150
def RED_FLK_WADDR_LO : Nat := 0xf2000 + 0x154
def RED_FLK_WADDR_HI : Nat := 0xf2000 + 0x158
def RED_FLK_STAT : Nat := 0xf2000 + 0x15c
def RED_FLK_CSEQ : Nat := 0xf2000 + 0x160
def RED_FLK_DROPS : Nat := 0xf2000 + 0x164
def RED_FLK_DROP_SEL : Nat := 0xf2000 + 0x168
def RED_FLK_DROP : Nat := 0xf2000 + 0x16c
def RED_FLK_DROP_POS : Nat := 0xf2000 + 0x170
def RED_FLK_CMD : Nat := 0xf2000 + 0x174
def RED_TBL_SEL : Nat := 0xf2000 + 0x178
def RED_TBL_DATA : Nat := 0xf2000 + 0x17c
def RED_PROG_TMO : Nat := 0xf2000 + 0x180
def RED_TAG_ERR : Nat := 0xf2000 + 0x184
def RED_STALE_CNT : Nat := 0xf2000 + 0x188
def RED_NACK_CNT : Nat := 0xf2000 + 0x18c
def RED_ABORT_CNT : Nat := 0xf2000 + 0x190
def RED_ACTIVE0 : Nat := 0xf2000 + 0x194
def RED_ACTIVE1 : Nat := 0xf2000 + 0x198
def RED_ERR : Nat := 0xf2000 + 0x19c
def HPT_CTL (i : Nat) : Nat := 4096 * (0x100 + i) + 0x100
def HPT_STAT (i : Nat) : Nat := 4096 * (0x100 + i) + 0x104
def HPT_CMD (i : Nat) : Nat := 4096 * (0x100 + i) + 0x108
def HPT_LANE_MAP_TX (i : Nat) : Nat := 4096 * (0x100 + i) + 0x10c
def HPT_LANE_MAP_RX (i : Nat) : Nat := 4096 * (0x100 + i) + 0x110
def HPT_LANE_STAT (i : Nat) : Nat := 4096 * (0x100 + i) + 0x114
def HPT_RECAL_CTL (i : Nat) : Nat := 4096 * (0x100 + i) + 0x118
def HPT_NEIGHBOUR (i : Nat) : Nat := 4096 * (0x100 + i) + 0x11c
def HPT_VC_DED0 (i : Nat) : Nat := 4096 * (0x100 + i) + 0x120
def HPT_VC_DED1 (i : Nat) : Nat := 4096 * (0x100 + i) + 0x124
def HPT_RTT (i : Nat) : Nat := 4096 * (0x100 + i) + 0x128
def HPT_REPLAY_TMO (i : Nat) : Nat := 4096 * (0x100 + i) + 0x12c
def HPT_REPLAY_CNT (i : Nat) : Nat := 4096 * (0x100 + i) + 0x130
def HPT_RETRAIN_CNT (i : Nat) : Nat := 4096 * (0x100 + i) + 0x134
def HPT_CRC_ERR_CNT (i : Nat) : Nat := 4096 * (0x100 + i) + 0x138
def HPT_FEC_UNCORR_CNT (i : Nat) : Nat := 4096 * (0x100 + i) + 0x13c
def HPT_FEC_CORR_CNT (i : Nat) : Nat := 4096 * (0x100 + i) + 0x140
def HPT_TAG_FAIL_CNT (i : Nat) : Nat := 4096 * (0x100 + i) + 0x144
def HPT_UNACK_CNT (i : Nat) : Nat := 4096 * (0x100 + i) + 0x148
def HPT_LANE_SEL (i : Nat) : Nat := 4096 * (0x100 + i) + 0x14c
def HPT_LANE_CORR (i : Nat) : Nat := 4096 * (0x100 + i) + 0x150
def HPT_LANE_UNCORR (i : Nat) : Nat := 4096 * (0x100 + i) + 0x154
def HPT_TX_FLITS_LO (i : Nat) : Nat := 4096 * (0x100 + i) + 0x158
def HPT_TX_FLITS_HI (i : Nat) : Nat := 4096 * (0x100 + i) + 0x15c
def HPT_RX_FLITS_LO (i : Nat) : Nat := 4096 * (0x100 + i) + 0x160
def HPT_RX_FLITS_HI (i : Nat) : Nat := 4096 * (0x100 + i) + 0x164
def HPT_DROP_CNT (i : Nat) : Nat := 4096 * (0x100 + i) + 0x168
def HPT_ERR (i : Nat) : Nat := 4096 * (0x100 + i) + 0x16c
def HPT_KEY_CTR_LO (i : Nat) : Nat := 4096 * (0x100 + i) + 0x170
def HPT_KEY_CTR_HI (i : Nat) : Nat := 4096 * (0x100 + i) + 0x174
def HPT_OWN_WEIGHT (i j : Nat) : Nat := 4096 * (0x100 + i) + (0x180 + 4 * j)
def HPT_OWN_WEIGHT16 (i : Nat) : Nat := 4096 * (0x100 + i) + 0x1c0
def XPT_CTL (i : Nat) : Nat := 4096 * (0x120 + i) + 0x100
def XPT_STAT (i : Nat) : Nat := 4096 * (0x120 + i) + 0x104
def XPT_CMD (i : Nat) : Nat := 4096 * (0x120 + i) + 0x108
def XPT_LANE_MAP_TX (i : Nat) : Nat := 4096 * (0x120 + i) + 0x10c
def XPT_LANE_MAP_RX (i : Nat) : Nat := 4096 * (0x120 + i) + 0x110
def XPT_LANE_STAT (i : Nat) : Nat := 4096 * (0x120 + i) + 0x114
def XPT_RECAL_CTL (i : Nat) : Nat := 4096 * (0x120 + i) + 0x118
def XPT_NEIGHBOUR (i : Nat) : Nat := 4096 * (0x120 + i) + 0x11c
def XPT_VC_DED0 (i : Nat) : Nat := 4096 * (0x120 + i) + 0x120
def XPT_VC_DED1 (i : Nat) : Nat := 4096 * (0x120 + i) + 0x124
def XPT_RTT (i : Nat) : Nat := 4096 * (0x120 + i) + 0x128
def XPT_REPLAY_TMO (i : Nat) : Nat := 4096 * (0x120 + i) + 0x12c
def XPT_REPLAY_CNT (i : Nat) : Nat := 4096 * (0x120 + i) + 0x130
def XPT_RETRAIN_CNT (i : Nat) : Nat := 4096 * (0x120 + i) + 0x134
def XPT_CRC_ERR_CNT (i : Nat) : Nat := 4096 * (0x120 + i) + 0x138
def XPT_FEC_UNCORR_CNT (i : Nat) : Nat := 4096 * (0x120 + i) + 0x13c
def XPT_FEC_CORR_CNT (i : Nat) : Nat := 4096 * (0x120 + i) + 0x140
def XPT_TAG_FAIL_CNT (i : Nat) : Nat := 4096 * (0x120 + i) + 0x144
def XPT_UNACK_CNT (i : Nat) : Nat := 4096 * (0x120 + i) + 0x148
def XPT_LANE_SEL (i : Nat) : Nat := 4096 * (0x120 + i) + 0x14c
def XPT_LANE_CORR (i : Nat) : Nat := 4096 * (0x120 + i) + 0x150
def XPT_LANE_UNCORR (i : Nat) : Nat := 4096 * (0x120 + i) + 0x154
def XPT_TX_FLITS_LO (i : Nat) : Nat := 4096 * (0x120 + i) + 0x158
def XPT_TX_FLITS_HI (i : Nat) : Nat := 4096 * (0x120 + i) + 0x15c
def XPT_RX_FLITS_LO (i : Nat) : Nat := 4096 * (0x120 + i) + 0x160
def XPT_RX_FLITS_HI (i : Nat) : Nat := 4096 * (0x120 + i) + 0x164
def XPT_DROP_CNT (i : Nat) : Nat := 4096 * (0x120 + i) + 0x168
def XPT_ERR (i : Nat) : Nat := 4096 * (0x120 + i) + 0x16c
def XPT_KEY_CTR_LO (i : Nat) : Nat := 4096 * (0x120 + i) + 0x170
def XPT_KEY_CTR_HI (i : Nat) : Nat := 4096 * (0x120 + i) + 0x174
def XPT_OWN_WEIGHT (i j : Nat) : Nat := 4096 * (0x120 + i) + (0x180 + 4 * j)
def XPT_OWN_WEIGHT16 (i : Nat) : Nat := 4096 * (0x120 + i) + 0x1c0
def XPT_OPTIC_STAT (i : Nat) : Nat := 4096 * (0x120 + i) + 0x200
def XPT_BUF_STAT (i : Nat) : Nat := 4096 * (0x120 + i) + 0x204
def XPT_BUF_OCC (i : Nat) : Nat := 4096 * (0x120 + i) + 0x208
def XPT_REPLAY_FRAMES (i : Nat) : Nat := 4096 * (0x120 + i) + 0x20c
def XPT_DIST (i : Nat) : Nat := 4096 * (0x120 + i) + 0x210
def CDIE_STAT (i : Nat) : Nat := 4096 * (0x130 + i) + 0x100
def CDIE_CLK (i : Nat) : Nat := 4096 * (0x130 + i) + 0x104
def CDIE_OX_ISSUE (i : Nat) : Nat := 4096 * (0x130 + i) + 0x108
def CDIE_FENCE_CMD (i : Nat) : Nat := 4096 * (0x130 + i) + 0x10c
def CDIE_CORE_SEL (i : Nat) : Nat := 4096 * (0x130 + i) + 0x110
def CDIE_CORE_STAT (i : Nat) : Nat := 4096 * (0x130 + i) + 0x114
def CDIE_FENCE_TMO (i : Nat) : Nat := 4096 * (0x130 + i) + 0x118
def CDIE_LIVE (i : Nat) : Nat := 4096 * (0x130 + i) + 0x11c
def CDIE_SUBST_CNT (i : Nat) : Nat := 4096 * (0x130 + i) + 0x120
def CDIE_SRAM_CE_CNT (i : Nat) : Nat := 4096 * (0x130 + i) + 0x124
def CDIE_SRAM_UE_CNT (i : Nat) : Nat := 4096 * (0x130 + i) + 0x128
def CDIE_MESH_STAT (i : Nat) : Nat := 4096 * (0x130 + i) + 0x12c
def CDIE_FW_MIX (i : Nat) : Nat := 4096 * (0x130 + i) + 0x130
def CDIE_ERR (i : Nat) : Nat := 4096 * (0x130 + i) + 0x134
def CLU_CORE_MAP (i : Nat) : Nat := 4096 * (0x140 + i) + 0x100
def CLU_SRAM_SPLIT (i : Nat) : Nat := 4096 * (0x140 + i) + 0x104
def CLU_WAITERS (i : Nat) : Nat := 4096 * (0x140 + i) + 0x108
def CLU_CTR_ERR (i : Nat) : Nat := 4096 * (0x140 + i) + 0x10c
def CLU_SIG_CNT (i : Nat) : Nat := 4096 * (0x140 + i) + 0x110
def CLU_STAGE_CTR (i j : Nat) : Nat := 4096 * (0x140 + i) + (0x400 + 4 * j)
def MFU_CTL (i : Nat) : Nat := 4096 * (0x180 + i) + 0x100
def MFU_STAT (i : Nat) : Nat := 4096 * (0x180 + i) + 0x104
def MFU_NUM_FLAG (i : Nat) : Nat := 4096 * (0x180 + i) + 0x108
def MFU_OP_CNT (i : Nat) : Nat := 4096 * (0x180 + i) + 0x10c
def MFU_MAC_LO (i : Nat) : Nat := 4096 * (0x180 + i) + 0x110
def MFU_MAC_HI (i : Nat) : Nat := 4096 * (0x180 + i) + 0x114
def MFU_ITER_CNT (i : Nat) : Nat := 4096 * (0x180 + i) + 0x118
def MFU_TOL_STOP_CNT (i : Nat) : Nat := 4096 * (0x180 + i) + 0x11c
def MFU_SHARD_CNT (i : Nat) : Nat := 4096 * (0x180 + i) + 0x120
def MFU_FOLD_WORDS_LO (i : Nat) : Nat := 4096 * (0x180 + i) + 0x124
def MFU_FOLD_WORDS_HI (i : Nat) : Nat := 4096 * (0x180 + i) + 0x128
def MFU_FOLD_BYTES_LO (i : Nat) : Nat := 4096 * (0x180 + i) + 0x12c
def MFU_FOLD_BYTES_HI (i : Nat) : Nat := 4096 * (0x180 + i) + 0x130
def MFU_COMMIT_CNT (i : Nat) : Nat := 4096 * (0x180 + i) + 0x134
def MFU_ROLLBACK_CNT (i : Nat) : Nat := 4096 * (0x180 + i) + 0x138
def MFU_DOUBT_CNT (i : Nat) : Nat := 4096 * (0x180 + i) + 0x13c
def CORE_STRM_CTL (i : Nat) : Nat := 4096 * (0x200 + i) + 0x100
def CORE_STRM_STAT (i : Nat) : Nat := 4096 * (0x200 + i) + 0x104
def CORE_STRM_ERR (i : Nat) : Nat := 4096 * (0x200 + i) + 0x108
def CORE_SRAM_SPLIT (i : Nat) : Nat := 4096 * (0x200 + i) + 0x10c
def CORE_FILL_BYTES_LO (i : Nat) : Nat := 4096 * (0x200 + i) + 0x110
def CORE_FILL_BYTES_HI (i : Nat) : Nat := 4096 * (0x200 + i) + 0x114
def CORE_SPILL_BYTES_LO (i : Nat) : Nat := 4096 * (0x200 + i) + 0x118
def CORE_SPILL_BYTES_HI (i : Nat) : Nat := 4096 * (0x200 + i) + 0x11c
def OXE_NUM_CTL (i : Nat) : Nat := 4096 * (0x400 + i) + 0x100
def OXE_NUM_FLAG (i : Nat) : Nat := 4096 * (0x400 + i) + 0x104
def OXE_NV_CNT (i : Nat) : Nat := 4096 * (0x400 + i) + 0x108
def OXE_SAT_CNT (i : Nat) : Nat := 4096 * (0x400 + i) + 0x10c
def OXE_FMT_CAP (i : Nat) : Nat := 4096 * (0x400 + i) + 0x110
def OXE_SW_CTL (i : Nat) : Nat := 4096 * (0x400 + i) + 0x120
def OXE_SW_CNT (i : Nat) : Nat := 4096 * (0x400 + i) + 0x124
def OXE_STALL_CYC (i : Nat) : Nat := 4096 * (0x400 + i) + 0x128
def OXE_TASK_STAT (i : Nat) : Nat := 4096 * (0x400 + i) + 0x12c
def OXE_SLOT_STATE0 (i : Nat) : Nat := 4096 * (0x400 + i) + 0x130
def OXE_SLOT_STATE1 (i : Nat) : Nat := 4096 * (0x400 + i) + 0x134
def OXE_SLOT_STATE2 (i : Nat) : Nat := 4096 * (0x400 + i) + 0x138
end R

end Sys2Proof.Machine
end

