-- ==== Sys2Proof/Machine/State.lean ====
section
/-! DEFINITION. The state of the block: plain data. Every stored register of the register map stands in `regs` under its
MMIO address (its reset value is `regReset`); what the manual gives beside registers stands in the structures below. -/
namespace Sys2Proof.Machine
open Sys2Proof

/-- Why the machine stops with a fault. -/
inductive Fault where
  /-- Raised by no meaning: the manual gives every command an effect or leaves the block as it was. Safe. -/
  | unreachable
deriving DecidableEq, Repr

/-- Why a command is refused. -/
inductive Refusal where
  /-- Raised by the arm of a command whose meaning is not written. Safe: nothing is claimed of it. -/
  | notModelled (mnemonic : String)
  /-- Raised by a command that carries data no sender can send: a list of the wrong length (Sys2Proof.Instr.wf). Safe. -/
  | illFormed (mnemonic : String)
deriving DecidableEq, Repr

/-! ### Requests between packages -/

/-- Who a request was made for (R226, R239, R240): an operator, a request relayed for a requester's flow, or a step of the
move of a tile. -/
inductive ReqFor where
  | op (h : Nat) (local_ : Nat)
  | relay (pkg own : Nat) (m : RemMsg)
  | held (acc : Access)
  | offer (tile : Nat)
  | send (tile : Nat)
  | commit (tile : Nat)
  | release (tile : Nat)
  | query (guest : Nat)
deriving DecidableEq, Repr


/-! ### Chapters 01 to 03: clocks, mesh, engines, streams -/

/-- Reference clocks declared lost (R18). -/
structure Clk where
  sysLost : Bool
  serdesLost : Bool
  ocxoLost : Bool
deriving DecidableEq, Repr

/-- A mesh or attach link (R29): bundles failed so far, half width, and drained for re-mapping. -/
structure MeshLink where
  failed : Nat
  half : Bool
  draining : Bool
deriving DecidableEq, Repr

/-- The four message classes of the data mesh, each with buffers of its own (R28). -/
inductive MeshClass where
  | request | response | tileData | fabric
deriving DecidableEq, Repr

/-- What a mesh message carries, where the model keeps it while a drained link holds it (R29): a part's report to its home core
(R113), or an access to a tile on its way to the tile's MPD (R153), with
what the DRP is to find there. -/
inductive MeshBody where
  | report (h u busy : Nat)
  | access (a : Access) (e : EccResult)
deriving DecidableEq, Repr

/-- A message held on the mesh (R28): its class, the die it was sent from and the die it goes to. -/
structure MeshMsg where
  cls : MeshClass
  src : Nat
  dst : Nat
  body : MeshBody
deriving DecidableEq, Repr

/-- The four states of an engine slot (R87), encoded as OXE_SLOT_STATE reads them. -/
inductive SlotSt where
  | free | fill | full | use
deriving DecidableEq, Repr

/-- An engine slot: its state and the streams and drains held on it, in issue order (R87). -/
structure Slot where
  st : SlotSt
  held : List HeldReq
deriving DecidableEq, Repr

/-- What an accumulator bank is doing (R56). -/
inductive BankSt where
  | idle | computing | finished | kept
deriving DecidableEq, Repr

/-- An accumulator bank (R56, R60): its contents row by row, as FP32 or INT32 words, with the kind of accumulation, and whether
its results are marked poisoned (R86). -/
structure Bank where
  st : BankSt
  op : Nat
  isInt : Bool
  vals : List Word32
  bad : Bool
deriving DecidableEq, Repr

/-- A task of an engine (R95 to R98): the operator, the bank it computes in, the group it has reached, the blocks left to
start, and whether it is stalled on late data. -/
structure Task where
  op : Nat
  bank : Nat
  pos : Nat
  left : Nat
  stalled : Bool
deriving DecidableEq, Repr

/-- A suspended task: the task, its bank as saved, and the place of the save slot that holds it, 0–3 (R97). -/
structure Susp where
  task : Task
  saved : Bank
  place : Nat
deriving DecidableEq, Repr

/-- An engine (R55, R59, R87, R97): its slots and banks, its tasks, the drains held for a slot, by bank, and OXE_SW_CTL as its last
operator dispatched took it. -/
structure Eng where
  slots : Map Slot
  bank0 : Bank
  bank1 : Bank
  run : Option Task
  susp : List Susp
  drains : Map DrainPlan
  swCtl : Word32
deriving DecidableEq, Repr

/-- An idle bank. -/
def Bank.none : Bank := ⟨.idle, 0, false, [], false⟩
/-- A slot as after reset. -/
def Slot.none : Slot := ⟨.free, []⟩
/-- An engine as after reset. -/
def Eng.none : Eng := ⟨[], Bank.none, Bank.none, Option.none, [], [], 0x80⟩

/-- Where a stream stands (R83, R87, R91, R92): waiting for a context, for its stage counter, for a slot; moving data; or with its
data moved, waiting for its writes to be visible. -/
inductive StrmSt where
  | noContext | waitCtr | waitSlot | run | flush
deriving DecidableEq, Repr

/-- A stream issued and not complete (R83). `done`: how many of its slots have all their elements (R85, R88). `bad`: a write of it
was refused, so it never signals (R91). -/
structure Strm where
  core : Nat
  eng : Nat
  op : Nat
  desc : StreamDesc
  st : StrmSt
  done : Nat
  bad : Bool
deriving DecidableEq, Repr

/-! ### Chapter 04: rings, operators, event queues -/

/-- A record fetched from a ring and not complete, with what is known of its run (R105, R112 to R126, R516). -/
structure RunOp where
  tenant : Nat
  ring : Nat
  cmd : CmdRec
  dispatched : Bool
  ftStart : Word64           -- FT_START; 0 if it never ran
  parts : List Nat           -- execution units still to report
  ran : Bool                 -- the operator's effect has been performed
  code : Byte
  detail : Byte
  flags : NumFlags
  busy : Word64              -- engine-busy cycles of all parts
  version : Word32
  epoch : Word64
  faultAddr : Word64         -- unit 1 of a FAULT item (R126)
  faultInfo : Word32
  faultEng : Nat
  faultSlot : Nat
  faultCnt : Word32
  trig : Option Nat          -- the trigger claimed for START_FT (R115)
  local_ : Bool              -- held by local-time comparison (R115)
  numCtl : Map Word32        -- NUM_CTL of its engines, MFU_CTL of its MFUs, as it was when it started (R69, R349)
  kind : Nat                 -- item type in place of COMPLETE, 0 for COMPLETE (R123, R341, R370)
  tdata : Word64             -- its TYPE_DATA
  extra : List Byte          -- its further units
  fetchFt : Word64           -- when it was fetched (R299)
  touched : Bool             -- the reads of its input tensors have begun (R156, R165)
  failUnit : Nat             -- the unit whose CODE stands, where the CODE is not OK (R120)
  outs : List Word64         -- output tensors of the groups of a GROUPED_MATMUL that has run (R116)
deriving DecidableEq, Repr

/-- An item in an event store (R124, R128): its number in the queue, priority and bytes, 64 per unit, and when its last unit is
written. -/
structure EvItem where
  no : Nat
  prio : Nat
  bytes : List Byte
  due : Word64
deriving DecidableEq, Repr

/-- An event queue beyond its registers (R127 to R131, R138). `flushAt` is the item number of the flush boundary. -/
structure EvQueue where
  items : List EvItem
  nextNo : Nat
  gap : Nat                  -- pending gap count
  gapSince : Nat             -- drops since the flush request
  flushAt : Option Nat
  holdoff : Bool             -- the HOLDOFF interval runs
  irqWait : Bool             -- an interrupt waits for the interval's end
deriving DecidableEq, Repr

/-- An event queue as after reset. -/
def EvQueue.none : EvQueue := ⟨[], 0, 0, 0, Option.none, false, false⟩

/-! ### Chapter 05: tiles, frames, flash -/

/-- Home states of a tile (R149). -/
inductive Home where
  | unalloc | dram | flash | movingD | movingF | lost | away
deriving DecidableEq, Repr

/-- A tile home entry (R149). `evac` marks a tile that evacuation sent to flash (R164). For AWAY, `loc` is the package. -/
structure Tile where
  st : Home
  pin : Bool
  loc : Nat
  evac : Bool
deriving DecidableEq, Repr

/-- A tile never written (R146). -/
def Tile.none : Tile := ⟨.unalloc, false, 0, false⟩

/-- What holds a DRAM frame: a tile's home, a move's destination, a turnover's staging frame, a guest, a reach port's
replay store (R152, R202, R239, R360); with the access bit and the reference mark (R156). -/
inductive FrameUse where
  | tile (n : Nat)
  | dest (n : Nat)
  | stage (n : Nat)
  | guest (n : Nat)
  | replay (port : Nat)
deriving DecidableEq, Repr

/-- A DRAM frame in use. -/
structure Frame where
  use : FrameUse
  owner : Nat
  acc : Bool
  ref : Bool
deriving DecidableEq, Repr

/-- An owner's quotas and counts (R147, R173). -/
structure Owner where
  dQuota : Nat
  fQuota : Nat
  flashRd : Word32
  clock : Nat                -- where the clock sweep stands (R156)
deriving DecidableEq, Repr

/-- An owner as after reset. -/
def Owner.none : Owner := ⟨0, 0, 0, 0⟩

/-- Why a tile moves. -/
inductive MoveWhy where
  | op (h : Nat)             -- TILE_MOVE or PREFETCH
  | demote
  | promote
  | evacuate
  | write                    -- a write to a flash-homed tile (R157)
  | between (r : ReqFor)     -- a move between packages asked for (R227, R240)
deriving DecidableEq, Repr

/-- Where a tile is to go (R159): DRAM under its region's PLACE, a named stack, flash, nowhere (a discard), or another
package (R240). -/
inductive MoveDest where
  | place
  | stack (k : Nat)
  | flash
  | discard
  | pkg (d : Nat)
deriving DecidableEq, Repr

/-- A move or discard asked for and not started (R152, R153). `pin`: set PIN where the tile ends DRAM-homed (R159). -/
structure MoveAsk where
  tile : Nat
  why : MoveWhy
  dest : MoveDest
  pin : Bool
deriving DecidableEq, Repr

/-- A tile move in flight (R152): mover, source, destination, whether the source has been read, and whether a flash
destination has been verified. -/
structure Move where
  mover : Nat
  why : MoveWhy
  srcFlash : Bool
  src : Nat
  dstFlash : Bool
  dst : Nat
  pin : Bool
  isRead : Bool
  verified : Bool
deriving DecidableEq, Repr

/-- A write or an atomic that waits: held for a move (R153), or for a DRAM frame (R148). -/
structure WaitWr where
  acc : Access
  held : Bool
deriving DecidableEq, Repr

/-- What a flash tile read is made for (R165, R169): a move, an access, a stream, or an operator's inputs. -/
inductive RdFor where
  | move
  | acc (a : Access)
  | strm (n : Nat)
  | op (h : Nat)
deriving DecidableEq, Repr

/-- The operator an access or an operator's own read belongs to. -/
def RdFor.isOp (b : RdFor) (h : Nat) : Bool :=
  match b with
  | .acc a => a.op == some h
  | .op k => k == h
  | _ => false

/-- A flash tile read outstanding (R165, R169): the tile, the issue time, what it is made for, whether that has been given up
as late, and, where its tile's move has committed meanwhile, the bytes its access reads from the source and the units of them that
are poisoned (R153). -/
structure FlashRd where
  tile : Nat
  at_ : Word64
  by_ : RdFor
  late : Bool
  snap : Option (List Byte × List Nat)
deriving DecidableEq, Repr

/-- A flash program outstanding (R165): the logical tile, the tile, and whether a move waits for it. -/
structure FlashWr where
  ltile : Nat
  tile : Nat
  isMove : Bool
deriving DecidableEq, Repr

/-- The memory system (chapter 05). -/
structure MemSys where
  tiles : Map Tile                 -- tile number to home
  frames : Map Frame               -- stack × 2^24 + frame
  ftiles : Map Nat                 -- FTL logical tile to the tile number it homes
  rgn : Map Word32                 -- region entries (R143)
  own : Map Owner
  asks : List MoveAsk              -- oldest first
  moves : Map Move                 -- by tile
  waits : List WaitWr
  reads : Map FlashRd
  progs : Map FlashWr
  shareNow : Map Word32            -- DRP shares in force (R24)
  fenced : List Nat                -- stacks fenced
  evacuating : List Nat
  tblA : Bool                      -- table copy A held
  tblB : Bool
  poison : List Nat                -- poisoned 64-byte units: local address ÷ 64, rising
  dieErr : Map Word32              -- die-trial corrections, stack × 16 + die (R174)
  chanFail : List Nat
  turnChan : Map Nat               -- the channel an owner's next flash tile is sought on first (R166)
  nand : Map Nat                   -- pages of the flash packages that hold a logical tile, by channel × 20,971,520 + page (R142)
  spent : List Nat                 -- pages retired (R167)
  rawWr : Map Byte                 -- bytes written into fenced stacks, by offset in the raw DRAM window (R142)
deriving DecidableEq, Repr

/-- The memory system as after reset: nothing allocated, no quota set. -/
def MemSys.reset : MemSys :=
  ⟨[], [], [], [], [], [], [], [], [], [], [], [], [], true, true, [], [], [], [], [], [], []⟩

/-- The state of a tenant context (R436): 0 FREE, 1 ACTIVE, 2 DESTROYING, as SEM_TENANT_STAT encodes it; its DOMAIN_GEN,
identity digest and domain key, two AES-256 keys (R434). -/
structure Tenant where
  st : Nat
  gen : Nat
  identity : List Byte
  key : List Byte
deriving DecidableEq, Repr

/-- A context never created. -/
def Tenant.none : Tenant := ⟨0, 0, [], []⟩

/-- An MSI-X table entry and its PBA bit (R495). -/
structure Msix where
  addr : Word64
  data : Word32
  mask : Bool
  pend : Bool
deriving DecidableEq, Repr

/-- A cleared, masked vector (R494). -/
def Msix.none : Msix := ⟨0, 0, true, false⟩

/-! ### Chapters 06 and 07: ports, router, flows, guests -/

/-- A message at the router (R191, R222, R224): the port it came by (0–31 hall, 32–35 reach; 99 this package), since when, whether its
last flit is still to come, the flits its header gives it, and those of them it holds in the receive buffer. -/
structure RMsg where
  m : Msg
  inPort : Nat
  since : Word64
  more : Bool
  nflit : Nat
  flits : Nat
deriving DecidableEq, Repr

/-- A message in a port's transmit queue (R196): its bytes still to send, whether its first flit has gone, its first bytes (what a report
names it by, R194), and the port and VC its last flit is still to come by (R191). -/
structure TxMsg where
  dest : Nat
  cls : Nat
  vc : Nat
  own : Nat
  left : List Byte
  begun : Bool
  abt : Bool
  hdr : List Byte
  from_ : Option (Nat × Nat)
deriving DecidableEq, Repr

/-- A flit held in the replay store (R193), before encryption: what a resend keeps. `wait` marks one to be sent again. -/
structure HeldFlit where
  dest : Nat
  cls : Nat
  lseq : Nat
  type : Nat
  flg : Nat
  len : Nat
  own : Nat
  bytes : List Byte
  wait : Bool
  hdr : List Byte            -- that of its message
deriving DecidableEq, Repr

/-- Marker lock of a lane (R183), with the MCOUNT expected next. -/
inductive LaneLock where
  | hunt
  | confirm (count mcount : Nat)
  | locked (misses mcount : Nat)
deriving DecidableEq, Repr

/-- A physical lane of a port (R181 to R185, R204). Receiving: lock, failed, whether a lock was lost, recalibration (1 asked, 2 adapting,
3 checked), its counters, and the stripe lane and far physical lane its markers name. Sending: the scrambler and the blocks of the codeword
being filled. -/
structure Lane where
  lock : LaneLock
  failed : Bool
  lost : Bool
  recal : Nat
  corr : Word32
  uncorr : Word32
  stripe : Nat
  far : Nat
  scr : Nat
  cw : List Nat
deriving DecidableEq, Repr

/-- A lane as after reset: no marker seen (stripe lane and far lane 15). -/
def Lane.none : Lane := ⟨.hunt, false, false, 0, 0, 0, 15, 15, 0, []⟩

/-- The keys of one direction (R206, R207, R445, R446): whether a session key is installed, its key phase and epoch, CTR used
(or verified) last, whether the next epoch's key is installed at the receiver, whether a rotation is due, whether the old
key is kept with its last CTR, and when the key in use began. -/
structure PortKey where
  on : Bool
  kph : Bool
  epoch : Nat
  ctr : Nat
  nextReady : Bool
  due : Bool
  oldKept : Bool
  oldCtr : Nat
  since : Word64
deriving DecidableEq, Repr

/-- No session. -/
def PortKey.none : PortKey := ⟨false, false, 0, 0, false, false, false, 0, 0⟩

/-- A hall port (0–31) or reach port (32–35): chapter 06. STATE and the lane maps stand in its registers. -/
structure Port where
  lanes : Map Lane
  named : List Nat           -- lanes out of the transmit stripe that the far end has named (R203)
  txHalf : Bool              -- sending at half width (R205)
  rxHalf : Bool              -- receiving at half width
  autoLane : Nat             -- lane whose automatic recalibration comes next (R204)
  autoAt : Word64            -- when the last automatic one was due
  cold : Nat                 -- cold trainings failed in a row
  stored : Bool              -- equaliser settings stored
  encOn : Bool               -- ENC as of the last training
  mcount : Nat               -- markers sent
  slot : Nat                 -- block slots passed since enable: 20 to a codeword (R178)
  half : List Byte           -- second half of a flit that takes two slots (R186)
  lsw : Nat                  -- LSW slots sent
  txLseq : Nat
  held : List HeldFlit       -- the replay store, oldest first
  ackAt : Word64             -- when ACK last advanced
  replayFrom : Nat           -- LSEQ the last replay began at
  replays : Nat              -- consecutive replays from there
  linkQ : List (List Byte)   -- LINK payloads waiting to be sent
  nakDue : Bool
  outV : Map Nat             -- flits sent and not credited back, per VC
  farDed : List Nat          -- the far buffer's dedicated parts
  farPool : Nat
  ded : List Nat             -- this end's, as of the last training (R198)
  pool : Nat                 -- this end's, as last advertised
  leaving : Nat              -- credits still to be withheld from a buffer half that leaves (R201)
  kept : Map Nat             -- those withheld, per VC
  txQ : List TxMsg
  deficit : Nat              -- flits the owner in turn may still send (R196)
  lastOwn : Nat              -- the owner in turn
  slots : Nat                -- flit slots passed
  ctrlAt : List Nat          -- those of the last 4,096 that CTRL used
  rxExp : Nat                -- LSEQ expected
  nakSent : Bool
  rxPart : Map Nat           -- per VC, flits accepted of the message under way (R191)
  owed : Map Nat             -- credits to return, per VC
  tx : PortKey
  rx : PortKey
  nonce : Word32             -- this end's session nonce
  tagFails : List Word64     -- fabric times of the bad tags of the last second
  pingAt : Option Word64
  helloSent : Bool
  hello : Option Hello
  farReady : Bool            -- KEY_READY for epoch 0 has come (R445)
deriving DecidableEq, Repr

/-- A port as after reset. -/
def Port.none : Port :=
  ⟨[], [], false, false, 0, 0, 0, false, false, 0, 0, [], 0, 0, [], 0, 0, 0, [], false, [], [], 0, [], 0, 0, [], [], 0, 64, 0, [], 0, false, [],
   [], PortKey.none, PortKey.none, 0, [], Option.none, false, Option.none, false⟩

/-- A request sent on a flow and not answered (R233, R236). For a write, `src` is the local source, read again at a
resend; `record` is the one it was made for, which a duplicate completion reports (R235). -/
structure OutReq where
  eseq : Nat
  cls : Nat
  own : Nat
  m : RemMsg
  src : Nat
  why : ReqFor
  record : Option RunOp
  tries : Nat
  since : Word64
deriving DecidableEq, Repr

/-- The sending side of a flow (R233, R236). `done` remembers ESEQs answered, with what a duplicate completion needs. -/
structure FlowOut where
  next : Nat
  reqs : List OutReq
  done : List OutReq
deriving DecidableEq, Repr

/-- A request that waits until the limits of R227 let it go. -/
structure WaitReq where
  pkg : Nat
  cls : Nat
  own : Nat
  m : RemMsg
  src : Nat
  why : ReqFor
deriving DecidableEq, Repr

/-- A flow never used. -/
def FlowOut.none : FlowOut := ⟨0, [], []⟩

/-- A response kept (R234). -/
structure CachedRsp where
  eseq : Nat
  m : Msg
deriving DecidableEq, Repr

/-- The receiving side of a flow (R233, R234): the ESEQ expected, whether a NACK stands, and the last 4,096 responses. -/
structure FlowIn where
  exp : Nat
  nacked : Bool
  cache : List CachedRsp
deriving DecidableEq, Repr

/-- A flow never used. -/
def FlowIn.none : FlowIn := ⟨0, false, []⟩

/-- A guest tile (R238, R240, R243): its frame and owner, PENDING with the ESEQ of its MV_OFFER, sent away with MV_DATA, and
since when. -/
structure Guest where
  frame : Nat
  owner : Nat
  pending : Bool
  offer : Nat
  sentTo : Option Nat
  since : Word64
deriving DecidableEq, Repr

/-- A move of a tile between packages, at its origin (R240): destination, from which holder (none: the origin), its step and
what asked for it. `step`: 1 offered, 2 sent, 3 committed, 4 release sent. -/
structure AwayMove where
  dest : Nat
  from_ : Option Nat
  step : Nat
  by_ : Option ReqFor
  frame : Nat                -- destination frame, where this package is the destination
deriving DecidableEq, Repr

/-- A request of an operator not yet issued (R227): target package, class, request, local source, local destination. -/
structure RemTodo where
  pkg : Nat
  cls : Nat
  m : RemMsg
  src : Nat
  dst : Nat
deriving DecidableEq, Repr

/-! ### Chapter 08: flocks -/

/-- A chunk in the window (R261): `fwd` is the entry of this member's send list that forwards it; none: its path ends here
and its result is not visible yet. -/
structure RxChunk where
  c : Chunk
  fwd : Option Nat
deriving DecidableEq, Repr

/-- A collective of a slot (R254 to R261, R265, R266): its operator, tag, parameters, and where its sending and its
receiving stand. -/
structure Coll where
  op : Nat
  cseq : Nat
  sig : Word32
  opcode : Nat
  red : Nat                  -- OP
  wire : Nat                 -- WIRE_FMT
  sat : Bool
  root : Nat
  nelem : Nat
  chunkElem : Nat
  scaleIn : Word32
  scaleOut : Word32
  input : Option StreamDesc
  output : Option StreamDesc
  carryIn : Nat
  carryOut : Nat
  n : Nat
  pos : Nat
  bad : Bool                 -- its input was poisoned
  sent : Nat                 -- SIDX to send next
  maxSent : Nat              -- the furthest that has been
  acked : Nat
  sentAt : List Word64       -- when the unacknowledged chunks were sent
  exp : Nat                  -- SIDX expected
  rx : List RxChunk
  lastRx : Word64            -- last chunk or acknowledgement, or the start
deriving DecidableEq, Repr

/-- A flock slot (R249 to R253, R260, R266 to R271). `held` and `ctlHeld`: chunks, and CHUNK_CTL messages, of a later CSEQ or
GEN, with sender and owner. `last`: the collective completed last, with its record. -/
structure Flock where
  ctl : Word32               -- RED_FLK_CTL
  base : Word32
  cnt : Word32
  win : Word32
  waddr : Word64
  cseq : Nat                 -- next CSEQ
  drops : List Nat           -- original positions, in order
  run : Option Coll
  queue : List Coll
  held : List (Nat × Nat × Chunk)
  ctlHeld : List (Nat × Nat × FlkMsg)
  aborts : List (Nat × Nat)  -- CSEQs ended before their dispatch, with the origin position
  grant : Nat                -- bytes the successor has granted
  succWin : Nat              -- its WIN, 0 before it is known
  nackAt : Option Word64
  lastOk : Word32
  last : Option (Nat × RunOp)
deriving DecidableEq, Repr

/-- A slot as after reset (R273). -/
def Flock.none : Flock := ⟨0, 0, 0x00010002, 1, 0, 0, [], Option.none, [], [], [], [], 0, 0, Option.none, 0xFFFFFFFF, Option.none⟩

/-! ### Chapter 09: requests -/

/-- A request-table entry (R297, R298) with what its admission record gave the ADM (R387, R388). `st` is STATE. -/
structure Req where
  st : Nat
  tenant : Nat
  evq : Nat
  evtPrio : Nat
  len : Nat
  step : Nat
  pend : Nat
  model : Word64
  pt : Word64
  cs : Word64
  csCtl : Word32
  beta : Word32
  ttftUs : Word32
  tbtUs : Word32
  admitFt : Word64
  lastFt : Word64
  deadline : Word64
  ttftAct : Word32
  tbtMax : Word32
  hostLate : Word32
  version : Word32
  tokens : Word64
  parkFt : Word64
  faults : Word32
  mdl : Nat
  nposMax : Nat
  maxLen : Nat
  prompt : Nat
  kvFrames : Nat
  resumed : Bool             -- the PREFETCH of R283 has still to complete
deriving DecidableEq, Repr

/-- An entry of a step (R289, R301): request, NPOS, ACCEPT, FIRST, the tokens and the prompt. -/
structure GenEnt where
  req : Nat
  npos : Nat
  accept : Nat
  first : Bool
  toks : List Word32
  prompt : List Word32
deriving DecidableEq, Repr

/-- A VERIFY_STEP under way (R288 to R291): the entries still to run, the pass in hand (its tokens, the position of its first
row, whether it is part of a prompt), the hidden rows as FP32 words, the queries, and where the pass stands. `phase`: 0 starts
a layer, 1 attends, 2 waits for the partials, 3 for the sums, 4 starts the MLP, 5 the head, 6 waits for the logits, 7 for the
candidate set to be visible, 8 is a follower between steps, 9 is done. `base`: what LAYER_CTR[2], GATHER_CTR[2] and LOGIT_CTR
have been waited up to. -/
structure GStep where
  follow : Bool
  who : Nat
  model : Nat
  idleMs : Nat
  pt : Nat
  queue : List GenEnt
  toks : List Word32
  prompt : List Word32       -- tokens of the prompt not yet in a pass
  prefill : Bool
  pos : Nat
  x : List (List Word32)
  q : List (List Word32)
  empty : List Bool
  layer : Nat
  second : Bool              -- the MLP half of a layer that is not PARALLEL
  phase : Nat
  read : Bool                -- what the next part of the step reads has begun to be read
  base : List Nat
  seen : Nat                 -- the STEP of its mailbox it has run, or announced
  at_ : Word64               -- when it last ran or announced one
  tops : List (List Word32)  -- top-1 token, its logprob and LSE of each row
deriving DecidableEq, Repr

/-! ### Chapter 11: epochs, folds and partner streams -/

/-- A COMMIT under way (R337 to R339): its commit block, epoch, scratch and levels; the level and round reached; the DETAIL
of EPOCH it ends with in place of ROLLED_BACK (0 none); whether it moves the block's STATE, and whether a level waits to be
started. -/
structure CommitRun where
  resolve : Bool
  cb : Nat
  t : Nat
  scratch : Nat
  levels : List Nat
  lv : Nat
  round : Nat
  err : Nat
  moves : Bool
  waiting : Bool
deriving DecidableEq, Repr

/-- A FOLD under way (R343, R346): its log, where its records start and end, the position acknowledged, the records of a
partner stream with their positions, and when it last progressed. `copying`: step 4 has begun. -/
structure FoldRun where
  cb : Nat
  t : Nat
  log : Nat
  partner : Option Nat
  stream : Nat
  start : Nat
  finish : Nat
  ack : Nat
  recs : List (Nat × List Byte)
  rewind : Bool
  copying : Bool
  tries : Nat
  since : Word64
deriving DecidableEq, Repr

/-- A RECEIVE under way (R346): the sender, its stream, the local log, the idle limit in ms, when something was last
received, the end of the last EPOCH_END record, and the bytes of the last tile not yet whole. -/
structure RecvRun where
  src : Nat
  stream : Nat
  log : Nat
  idle : Nat
  at_ : Word64
  endAt : Nat
  buf : List Byte
deriving DecidableEq, Repr

/-! ### Chapter 12: turnover -/

/-- A part of the active turnover (R361): its entry's fields, the pieces received, whether it has swapped. -/
structure TurnPart where
  base : Nat
  tiles : Nat
  srcFmt : Nat
  dstFmt : Nat
  layout : Nat
  k : Nat
  n : Nat
  ref : Nat
  refVer : Word32
  entry : Nat                -- address of its part entry
  got : List Nat             -- pieces received
  swapped : Bool
deriving DecidableEq, Repr

/-- The active turnover (R361 to R368). `st`: 1 STAGING, 2 REPLACING, 3 REFILL, as RLE_TURN_STAT. -/
structure Turn where
  op : Nat
  tenant : Nat
  st : Nat
  version : Word32
  epoch : Word64
  turnFt : Word64
  deadline : Word64
  swapDelay : Nat
  stream : Bool
  refillEn : Bool
  rdyEn : Bool
  refillCtr : Nat
  rdyCtr : Nat
  holdUs : Nat
  refillVal : Word64
  stageMax : Nat
  parts : List TurnPart
  readers : List Nat         -- old readers still running (R365), by operator
  trig : Option Nat
  flags : NumFlags
deriving DecidableEq, Repr

/-- An RLE descriptor (R352). -/
structure RleDesc where
  send : Bool
  coded : Bool
  srcFmt : Nat
  dstFmt : Nat
  layout : Nat
  rle : Nat
  src : Nat
  srcCols : Nat
  row0 : Nat
  rows : Nat
  col0 : Nat
  ncol : Nat
  mbr : Nat
  part : Nat
  dest : Nat
  ref : Nat
  commit : Nat
deriving DecidableEq, Repr

/-- A piece sent and not acknowledged (R357): its message, resends counted, when it was last sent or refused, and whether a
NONE or WAIT delays it. -/
structure OutPiece where
  m : ShardMsg
  tries : Nat
  since : Word64
  wait : Bool
deriving DecidableEq, Repr

/-- An RLE_CONVERT under way (R352 to R357): the fence epoch and the reductions it waits for (slot, CSEQ), whether its fence has
passed, the pieces of its rectangle still to send (row, column), and those out. -/
structure ConvRun where
  d : RleDesc
  fence : Nat
  waitFor : List (Nat × Nat)
  passed : Bool
  version : Word32
  refVer : Word32
  todo : List (Nat × Nat)
  out : List OutPiece
deriving DecidableEq, Repr

/-! ### Chapter 13: triggers -/

/-- A time trigger (R384, R396). -/
structure Trig where
  ft : Word64
  valid : Bool
  sw : Bool
  action : Nat
  target : Nat
deriving DecidableEq, Repr

/-- A trigger neither armed nor reserved. -/
def Trig.none : Trig := ⟨0, false, false, 0, 0⟩

/-- The master a neighbour last named, through which port (R381, R382): grade, priority, member, hops, error bound and when. -/
structure Heard where
  grade : Nat
  prio : Nat
  master : Nat
  hops : Nat
  errNs : Word32
  at_ : Word64
deriving DecidableEq, Repr

/-- The time unit beyond its registers (R376 to R383): whether it has ever been LOCKED or FOLLOW; when the last pulse came or was
due, whether it is labelled, and whether a miss of its second has been counted; good labelled pulses in a row; misses in a row;
the second of the last pulse labelled, and a label that waits for the next pulse; the offset still to be slewed away and the
ticks since its last unit; what each port hears; the SYNC_SEQ of each port; since when it holds; whether it has been grade 0
or 1. -/
structure Tim where
  ever : Bool
  pulse : Option Word64
  labelled : Bool
  counted : Bool
  run : Nat
  misses : Nat
  second : Option Nat
  next : Option Nat
  slew : Int
  tick : Nat
  heard : Map Heard
  seqs : Map Nat
  holdAt : Word64
  graded : Bool
deriving DecidableEq, Repr

/-- The time unit as after reset. -/
def Tim.reset : Tim := ⟨false, Option.none, false, false, 0, 0, Option.none, Option.none, 0, 0, [], [], 0, false⟩

/-- A model entry of the admission unit (R388, R398): its registers. -/
structure Mdl where
  addr : Word64
  base : Word32
  row : Word32
  ctx : Word32
  prefill : Word32
  ctl : Word32
  rho : Word32
  hold : Word32
  margin : Word32
  retry : Word32
deriving DecidableEq, Repr

/-- A model entry as after reset. -/
def Mdl.none : Mdl := ⟨0, 0, 0, 0, 0, 0, 0x3F800000, 0, 10, 0x27100001⟩

/-- A resource freed on a model of a tenant (R393): when, and cycle work in ns, frames and entries. -/
structure Freed where
  at_ : Word64
  mdl : Nat
  tenant : Nat
  work : Nat
  frames : Nat
  entries : Nat
deriving DecidableEq, Repr

/-! ### Chapter 14: lane generators -/

/-- A lane generator that stands away from its START: STATE and draws since START (R404, R408). -/
structure Gen where
  s0 : Word64
  s1 : Word64
  draws : Word64
deriving DecidableEq, Repr

/-- The RNG beyond its registers (R403 to R408). `gens` lists the generators away from the START of the seed in force; `pend` those
that still have to switch to it, `rewinds` those still to be rewound; `copies` the STATE an operator took at dispatch, by
operator × 2,048 + engine (R407). -/
structure Rng where
  seedLo : Word64
  seedHi : Word64
  gens : Map Gen
  pend : List Nat
  rewinds : List Nat
  copies : Map Gen
deriving DecidableEq, Repr

/-- The RNG as after reset: unseeded (R413). -/
def Rng.reset : Rng := ⟨0, 0, [], [], [], []⟩


/-! ### Chapter 15: the security module -/

/-- An FW_UPDATE whose image comes from another member (R480, R483): the stage, the member, the TAG of the READ outstanding, the
image header, the bytes received, ACTIVATE, RAISE_SVN, and when the READ went out. -/
structure FwFetch where
  stage : Nat
  member : Nat
  tag : Nat
  hdr : List Byte
  got : List Byte
  activate : Bool
  raiseSvn : Bool
  since : Word64
deriving DecidableEq, Repr

/-- What starts a zeroisation under way (R448): the sensors that tripped (0 none), and whether it is JTAG_UNLOCK's. -/
structure Zero where
  sensors : Nat
  jtag : Bool
deriving DecidableEq, Repr

/-- The working state of the DRBG (R402): Key and V. -/
structure DrbgKV where
  key : List Byte
  v : List Byte
deriving DecidableEq, Repr

/-- The SEM beyond its registers (R417 to R449). Sealed: `admins` the digests of the administrator slots, `kak` the KAK's private
number (none: no KAK), `kakSig` the signature of its record, `journal` whether a journal key exists, `modelKey`, `journalKey` and `carveKey`
the key pairs of the model domain, the journal and the carve-out (R434). `modelGen`: keyings of the model key domain. `fails`,
`lockAt`: failed authentications in a row, and when a lockout began. `endAt`: when the session closes. `svn`: fused minimum SVN
by stage, where raised. `images`: firmware images in the SEM's flash area, by stage × 2 + slot, where written since manufacture.
`running`: the images running, by stage, where not the active slot's (R429). `kfId`: KF_ID of
the slots (R443). `raises`: stages whose minimum SVN rises once the image marked TRY runs (R480). -/
structure Sem where
  admins : Map (List Byte)
  kak : Option Nat
  kakSig : List Byte
  journal : Bool
  modelGen : Nat
  fails : Nat
  lockAt : Option Word64
  endAt : Option Word64
  svn : Map Nat
  images : Map (List Byte)
  running : Map (List Byte)
  fetch : Option FwFetch
  zero : Option Zero
  bootError : Bool           -- the ERROR of R431
  kfId : Map Nat
  raises : List Nat
  modelKey : List Byte
  journalKey : List Byte
  carveKey : List Byte
  drbg : Option DrbgKV       -- none before it is instantiated (R413)
  drbgReqs : Nat             -- requests since it was seeded last
deriving DecidableEq, Repr

/-- The SEM as delivered: unowned (R417). -/
def Sem.reset : Sem :=
  ⟨[], Option.none, [], false, 0, 0, Option.none, Option.none, [], [], [], Option.none, Option.none, false, [], [], [], [], [], Option.none, 0⟩

/-! ### Chapter 16: cores in service -/

/-- A logical core in service (R477, R478, R485): `st` as CDIE_CORE_STAT (0 LIVE, 1 SUBST, 2 FENCED by fault, 3 FENCED by
command); `stop` is a fence command waiting for running operators, since `at_`; `unit` what is fenced: 0 the core, 1 its cluster,
2 its die. -/
structure CoreRun where
  st : Nat
  stop : Bool
  at_ : Word64
  unit : Nat
deriving DecidableEq, Repr

/-- A live core. -/
def CoreRun.live : CoreRun := ⟨0, false, 0, 0⟩

/-- What an interval of telemetry has gathered (R475): the sum and number of the averages, the highest sample, and the four
totals when it began. -/
structure TelAcc where
  sum : Nat
  n : Nat
  high : Nat
  base : List Nat
deriving DecidableEq, Repr

/-- The PWR beyond its registers (R453 to R464, R475, R481). `want`: a rung whose entry waits. `since`, `acc`: when the rung was
entered, and ticks of each rung below a second. `main`: the main input is applied. `locked`: rails off until MOD_RST_N (R454).
`alertHeld`: THERM_ALERT_N held until MOD_RST_N (R464). `temps`: sensor readings. `hot`, `alerts`: sensors over their throttle
and at their alert threshold. `napArea`: the save area
is taken (R459). `tel`, `tel100`: telemetry gathered for the items and for SMBus; `unit100`: unit 1 of the last 100 ms;
`telNo`: intervals. `fwOld`: cores still on the previous stage-3 image; `fwSwitch`: cores still to be tried, since when. -/
structure Pwr where
  want : Option Nat
  since : Word64
  acc : Map Nat
  main : Bool
  locked : Bool
  alertHeld : Bool
  temps : Map Byte
  hot : List Nat
  alerts : List Nat
  napArea : Bool
  tel : TelAcc
  tel100 : TelAcc
  unit100 : List Byte
  last100 : Nat
  telNo : Nat
  fwOld : List Nat
  fwSwitch : List Nat
  fwSince : Word64
  errs : List Word32         -- the last 16 fatal or unit-class errors (R506): page × 4 + class
deriving DecidableEq, Repr

/-- The PWR as after reset. -/
def Pwr.reset : Pwr :=
  ⟨Option.none, 0, [], true, false, false, [], [], [], false, ⟨0, 0, 0, [0, 0, 0, 0]⟩, ⟨0, 0, 0, [0, 0, 0, 0]⟩, List.replicate 64 0, 0,
   0, [], [], 0, []⟩

/-! ### Chapter 17: host interface and management -/

/-- The host port (R493, R494): link up, Bus Master Enable. -/
structure HostIf where
  up : Bool
  bme : Bool
deriving DecidableEq, Repr

/-- A window read outstanding (R492): its local address, length and when it began. -/
structure WinRead where
  addr : Nat
  len : Nat
  at_ : Word64
deriving DecidableEq, Repr

/-- A character in the receive FIFO (R504, R514). -/
structure RxChar where
  data : Byte
  fe : Bool
  brk : Bool
deriving DecidableEq, Repr

/-- Console output (R506). The manual gives its contents, not its text: a command's report is its number (0 help, 1 ver, 2 stat,
3 temp, 4 err, 5 log, 6 the "?" of an unknown one) with the values it prints (log entry 45). -/
inductive ConOut where
  | char (b : Byte)
  | report (cmd : Nat) (vals : List Nat)
deriving DecidableEq, Repr

/-- The console (R503 to R506). `lowLine`: a break holds the line low. `line`: the input line being typed. `log`: output since power-up, newest last. -/
structure Uart where
  tx : List Byte
  rx : List RxChar
  lowLine : Bool
  last : Byte
  line : List Byte
  log : List ConOut
deriving DecidableEq, Repr

/-- The console as after reset. -/
def Uart.reset : Uart := ⟨[], [], false, 0, [], []⟩

/-- The TAP (R507): the instruction register, the 67 boundary cells, the data register last captured. `drive`: 0 the pins belong
to the core, 1 to EXTEST, 2 held by CLAMP, 3 at high impedance. -/
structure Jtag where
  ir : Byte
  cells : List Bool
  drive : Nat
  dr : Nat
deriving DecidableEq, Repr

/-- The TAP after reset: IDCODE selected. -/
def Jtag.reset : Jtag := ⟨1, List.replicate 67 false, 0, 0x1250034F⟩

/-- SMBus and GPIO (R500 to R502, R511): LAST_STATUS, the pin levels seen, and the trigger pulses running, by pin, until when. -/
structure SmbIf where
  last : Byte
  pins : BitVec 16
  pulses : Map Word64
deriving DecidableEq, Repr

/-- As after reset. -/
def SmbIf.reset : SmbIf := ⟨0, 0, []⟩

/-- What the block sends outwards, in the order it is sent. -/
inductive Emit where
  | hostWrite (addr : Nat) (data : List Byte) (poisoned : Bool)   -- a posted write to host memory (R129, R493)
  | msix (vec : Nat)                                              -- an MSI-X message (R495)
  | reply (fresh : Nat) (code detail : Nat) (data : List Byte)    -- the answer to an access (R153)
  | flit (port : Nat) (f : Flit)                                  -- a flit slot (R196)
  | block (port lane : Nat) (bytes : List Byte)                   -- a control block given to a lane's coder; 99: to every active lane's (R180)
  | codeword (port lane bits : Nat)                               -- a codeword of 5,440 bits leaves a lane, as PAM4 (R178, R179)
  | winData (fresh : Nat) (data : List Byte) (poisoned : Bool)    -- the completion of a window read (R491, R492)
  | regData (req addr : Nat) (v : Word32)                         -- the value a register read returns (R499)
  | smb (data : List Byte) (pec : Byte)                           -- what an SMBus command returns, and its PEC byte, sent when the host clocks one more (R500, R501)
  | smbNack                                                       -- an SMBus command NACKed (R500)
  | con (o : ConOut)                                              -- console output (R503, R506)
  | gpio (pin : Nat) (level : Bool)                               -- a GPIO output changes (R511)
deriving DecidableEq, Repr

/-- The block. -/
structure State where
  pending : List Instr          -- commands waiting, first in first out
  ft : Word64                   -- fabric time in units of 250 ps (R375)
  freeCtr : Nat                 -- the model's own: free values used so far
  outbox : List Emit            -- what the block has sent, oldest first
  regs : Map Word32             -- registers written since reset, by MMIO address
  mem : Mem                     -- bytes by local offset (R141)
  clk : Clk
  mesh : Map MeshLink           -- die × 4 + edge (N 0, E 1, S 2, W 3); CTD links 96, 97
  meshQ : List MeshMsg          -- messages a drained link holds, in the order sent (R28, R29)
  eng : Map Eng                 -- engines 0–1535 (R13)
  strm : Map Strm               -- streams by number of issue
  waiters : Map (List Nat)      -- waiter queue of each stage counter, oldest first (R92)
  sigs : Map Nat                -- signals on their way to each stage counter (R91)
  readyQ : Map (List Nat)       -- core × 2 (Ox) or core × 2 + 1 (Colt): operators queued, oldest first (R21, R117)
  ops : Map RunOp               -- records fetched and not complete, by order of fetch
  depCtr : Map Word64           -- tenant × 256 + n (R111)
  evq : Map EvQueue             -- tenant × 16 + queue
  ms : MemSys
  tenants : Map Tenant
  msix : Map Msix
  rng : Rng
  held : Map Word32             -- low halves of 64-bit writes held until the high half, by register address (R6, R134, R395)
  latched : Map Word32          -- high halves latched by a read of the low half, by register address (R499)
  reqs : Map Req                -- request table (R297)
  trigs : Map Trig              -- triggers 0–255
  turn : Option Turn            -- the active turnover
  rrHome : Map Nat              -- ring each home core dispatched last, as tenant × 16 + ring (R117)
  coreRun : Map CoreRun         -- logical cores not plainly live
  host : HostIf
  nbr : Map Word32              -- FBD_NBR_PORTS, dimension × 32 + digit (R221)
  xdom : Map Word32             -- FBD_XDOM_ROUTE, by domain (R244)
  notices : Map (List Nat)      -- digits a neighbour (dimension × 32 + digit) has no live port to (R223)
  router : Map RMsg             -- messages at the router, by number of arrival
  ports : Map Port              -- hall ports 0–31, reach ports 32–35
  flowOut : Map FlowOut         -- by destination package
  flowIn : Map FlowIn           -- by source package
  remTodo : Map (List RemTodo)  -- requests of each operator not yet issued (R227)
  reqWait : List WaitReq        -- other requests that wait for the limits of R227, oldest first
  guests : Map Guest            -- origin package × 2^29 + tile (R238)
  away : Map AwayMove           -- moves between packages under way, by tile
  lostPkgs : List Nat           -- packages declared lost (R243)
  kf : Map (List Byte)          -- fabric keys by slot (R443)
  slots : Map Flock             -- flock slots 0–63 (R249)
  ftable : Map Word32           -- flock table (R252)
  collTurn : Map Nat            -- by port and owner (128 × port + owner), the slot that sent a chunk last (R263)
  gsteps : Map GStep            -- VERIFY_STEP records under way, by operator (R289)
  attnPass : Map Nat            -- the pass a split-attention row state is in, by tenant × 2^64 + its address (R305)
  commits : Map CommitRun       -- COMMIT records under way, by operator (R337)
  folds : Map FoldRun           -- FOLD records under way, by operator (R343)
  recvs : Map RecvRun           -- RECEIVE records under way, by operator (R346)
  busyCb : Map (Nat × Nat)      -- operators that hold BUSY: commit block, and the epoch APPLY leaves (R336, R347)
  foldLog : Map Nat             -- commit block (tenant × 2^64 + address) to the log its EPOCH_POS stands for (R343)
  convs : Map ConvRun           -- RLE_CONVERT records under way, by operator (R352)
  rleQ : List (Nat × Nat × ShardMsg)  -- pieces waiting for an RLE with HOLD set: source, owner, message (R372)
  turnLast : Option Word32      -- VERSION of the turnover that ended last (R356)
  tim : Tim
  mdls : Map Mdl                -- model entries 0–15 (R388)
  freed : List Freed            -- what releases and parkings of the last second freed (R393)
  reqLatch : Map (List Byte)    -- request-table entries latched, by tenant (R398)
  sem : Sem
  pwr : Pwr
  winReads : Map WinRead        -- window reads outstanding, by the token the host knows them by (R492)
  uart : Uart
  jtag : Jtag
  smb : SmbIf
deriving DecidableEq, Repr

/-- The block right after reset (R6 and the register tables; chapters 01 to 17 for the rest). -/
def State.reset : State where
  pending := []
  ft := 0
  freeCtr := 0
  outbox := []
  regs := []
  mem := []
  clk := ⟨false, false, false⟩
  mesh := []
  meshQ := []
  eng := []
  strm := []
  waiters := []
  sigs := []
  readyQ := []
  ops := []
  depCtr := []
  evq := []
  ms := MemSys.reset
  tenants := []
  msix := []
  rng := Rng.reset
  held := []
  latched := []
  reqs := []
  trigs := []
  turn := none
  rrHome := []
  coreRun := []
  host := ⟨false, false⟩
  nbr := []
  xdom := []
  notices := []
  router := []
  ports := []
  flowOut := []
  flowIn := []
  remTodo := []
  reqWait := []
  guests := []
  away := []
  lostPkgs := []
  kf := []
  slots := []
  ftable := []
  collTurn := []
  gsteps := []
  attnPass := []
  commits := []
  folds := []
  recvs := []
  busyCb := []
  foldLog := []
  convs := []
  rleQ := []
  turnLast := none
  tim := Tim.reset
  mdls := []
  freed := []
  reqLatch := []
  sem := Sem.reset
  pwr := Pwr.reset
  winReads := []
  uart := Uart.reset
  jtag := Jtag.reset
  smb := SmbIf.reset

/-- What a meaning answers. -/
abbrev Out := Host.Outcome State Fault Refusal

end Sys2Proof.Machine
end

