-- ==== Sys2Proof/Machine/Ops.lean ====
section
/-! DEFINITION. The shared operations: registers and their counts, interrupts, the error latch, event items and the
completion of an operator. -/
namespace Sys2Proof.Machine
open Sys2Proof

/-- A command has its effect on everything but the queue of commands that wait: what it answers has the queue it began with. -/
def keepQueue (s : State) (o : Out) : Out :=
  match o with
  | .next t => .next { t with pending := s.pending }
  | .fault f => .fault f
  | .refused r => .refused r

namespace State

/-! ### Registers (R6, R7, R498, R499) -/

/-- The stored value of a register. -/
def rd (s : State) (a : Nat) : Word32 := (Map.get? s.regs (canon a)).getD (regReset (canon a))
/-- Set a stored register. -/
def wr (s : State) (a : Nat) (v : Word32) : State := { s with regs := Map.set s.regs (canon a) v }
/-- Add to a counter that saturates at 0xFFFF_FFFF. -/
def bump (s : State) (a : Nat) (n : Nat := 1) : State := s.wr a (satAdd32 (s.rd a) n)
/-- Set bits of a register (R7: a set wins over a clear, so it is applied last). -/
def setBits (s : State) (a : Nat) (m : Word32) : State := s.wr a (s.rd a ||| m)
/-- Clear bits of a register. -/
def clrBits (s : State) (a : Nat) (m : Word32) : State := s.wr a (s.rd a &&& ~~~m)
/-- Bits hi:lo of a register. -/
def rdF (s : State) (a hi lo : Nat) : Nat := fld (s.rd a) hi lo
/-- Set bits hi:lo of a register. -/
def wrF (s : State) (a hi lo x : Nat) : State := s.wr a (setFld (s.rd a) hi lo x)
/-- Bit `i` of a register. -/
def rdB (s : State) (a i : Nat) : Bool := bit (s.rd a) i
/-- The 64-bit value of a _LO/_HI pair. -/
def rd64 (s : State) (lo : Nat) : Nat := (s.rd lo).toNat + 2 ^ 32 * (s.rd (lo + 4)).toNat
/-- Set a _LO/_HI pair. -/
def wr64 (s : State) (lo v : Nat) : State :=
  (s.wr lo (BitVec.ofNat 32 v)).wr (lo + 4) (BitVec.ofNat 32 (v / 2 ^ 32))
/-- Add to a 64-bit total; it wraps modulo 2^64. -/
def add64 (s : State) (lo n : Nat) : State := s.wr64 lo ((s.rd64 lo + n) % 2 ^ 64)

/-- The next free value, and the state that has used it (log entry 3). -/
def free (s : State) : Word64 := Config.freeValue s.freeCtr
/-- Advance past one free value. -/
def used (s : State) : State := { s with freeCtr := s.freeCtr + 1 }

/-- Put something in the outbox. -/
def emit1 (s : State) (e : Emit) : State := { s with outbox := s.outbox ++ [e] }
/-- Send something outwards; payload bytes to the host are counted (R512). -/
def emit (s : State) (e : Emit) : State :=
  match e with
  | .hostWrite _ d _ => (s.emit1 e).add64 R.HST_TX_BYTES_LO d.length
  | .winData _ d _ => (s.emit1 e).add64 R.HST_TX_BYTES_LO d.length
  | e => s.emit1 e
/-- The SEM stops every access to the unified range: ERROR, ZEROISED, or a zeroisation under way (R427, R448). -/
def semStops (s : State) : Bool := decide (2 ≤ s.rdF R.SEM_STAT 31 28) || s.sem.zero.isSome

/-- Send an MSI-X message, or set the PBA bit of a masked vector (R495). -/
def msixSend (s : State) (v : Nat) : State :=
  let e := Map.get s.msix Msix.none v
  if e.mask then { s with msix := Map.set s.msix v { e with pend := true } } else s.emit (.msix v)

/-- A page is pending when INT_STAT AND INT_EN is non-zero (R495). -/
def pagePend (s : State) (p : Nat) : Bool := s.rd (R.INT_STAT p) &&& s.rd (R.INT_EN p) != 0

/-- After a change of INT_STAT or INT_EN: a page that turned pending sends the vector of its block type (R495). -/
def pendEdge (before s : State) (p : Nat) : State :=
  if !before.pagePend p && s.pagePend p then
    match pageOf p with
    | some (_, code, _) =>
      let tv := s.rd (R.HST_TYPE_VEC code)
      if bit tv 31 then s.msixSend (fld tv 10 0) else s
    | none => s
  else s

/-- An interrupt event: bit `b` of INT_STAT of page `p` is set (R498). -/
def raise (s : State) (p b : Nat) : State := pendEdge s (s.setBits (R.INT_STAT p) (BitVec.ofNat 32 (2 ^ b))) p

/-- Raise a bit on each of a list of pages. -/
def raiseAll (s : State) (ps : List Nat) (b : Nat) : State := ps.foldl (fun t p => t.raise p b) s

/-- The six MPD pages (R176). -/
def mpdPages : List Nat := [0xD0, 0xD1, 0xD2, 0xD3, 0xD4, 0xD5]

/-- Remember a fatal or unit-class error for the console: the last 16 (R506). -/
def logError (s : State) (p cls : Nat) : State :=
  let l := s.pwr.errs ++ [BitVec.ofNat 32 (4 * p + cls)]
  { s with pwr := { s.pwr with errs := l.drop (l.length - 16) } }

/-- Latch an error in ERR_INFO of page `p` (R470): class, global address of its data. The block-specific CAUSE has no
coding in the manual and is a free value (log entry 3). -/
def errLatch (s : State) (p cls addr : Nat) : State :=
  let s := if 2 ≤ cls then s.logError p cls else s
  let v := s.rd (R.ERR_INFO p)
  if bit v 31 then
    (s.wr (R.ERR_INFO p) (setFld (v ||| 0x40000000#32) 15 0 (min (fld v 15 0 + 1) 0xFFFF)))
  else
    let w := setFld (setFld (setFld 0x80000001#32 29 28 cls) 23 16 s.free.toNat) 15 0 1
    ((s.used.wr (R.ERR_INFO p) w).wr (R.ERR_ADDR_LO p) (BitVec.ofNat 32 addr)).wr (R.ERR_ADDR_HI p)
      (BitVec.ofNat 32 (addr / 2 ^ 32))

/-- Clear the error latch of a page (R470). -/
def errClear (s : State) (p : Nat) : State :=
  ((s.wr (R.ERR_INFO p) 0).wr (R.ERR_ADDR_LO p) 0).wr (R.ERR_ADDR_HI p) 0

end State

/-- One field's part of a write: the new word, and whether the write is wholly or partly without effect (R499). -/
def fieldWrite (f : Fld) (old v : Word32) (acc : Word32 × Bool) : Word32 × Bool :=
  let x := fld v f.hi f.lo
  match f.acc with
  | .rw => if f.min ≤ x ∧ x ≤ f.max then (setFld acc.1 f.hi f.lo x, acc.2) else (acc.1, true)
  | .w1c => (acc.1 &&& ~~~(BitVec.ofNat 32 (x * 2 ^ f.lo)), acc.2)
  | .w1s => acc
  | .ro => (acc.1, acc.2 || x != fld old f.hi f.lo)

/-- The bits of a word that its fields do not cover. -/
def reservedMask (fs : List Fld) : Word32 :=
  ~~~(fs.foldl (fun m f => m ||| BitVec.ofNat 32 ((2 ^ (f.hi + 1 - f.lo) - 1) * 2 ^ f.lo)) 0#32)

/-- A write to a register by its fields (R6, R499): the new word and whether GEN_IGN_CNT advances. -/
def writeFields (fs : List Fld) (old v : Word32) : Word32 × Bool :=
  fs.foldl (fun acc f => fieldWrite f old v acc) (old, v &&& reservedMask fs != 0)

/-- The fields of the register at an address; none for an empty or reserved offset. -/
def fieldsAt (a : Nat) : List Fld := match rowAt a with
  | some r => r.fields
  | none => []

namespace State

/-- Count a write of page `p`, and whether it was wholly or partly without effect (R498, R499). -/
def countWrite (s : State) (p : Nat) (ign : Bool) : State :=
  let t := s.bump (R.GEN_WR_CNT p)
  if ign then t.bump (R.GEN_IGN_CNT p) else t

/-- A register write with no effect beyond its fields. -/
def plainWrite (s : State) (a : Nat) (v : Word32) : State :=
  let w := writeFields (fieldsAt a) (s.rd a) v
  (s.wr a w.1).countWrite (a / 4096) w.2

/-- A write that a chapter ignores under a condition (R499). -/
def ignoredWrite (s : State) (a : Nat) : State := s.countWrite (a / 4096) true

/-- Is an administrator session open (R421)? -/
def adminOpen (s : State) : Bool := s.rdB R.SEM_ADMIN_OPEN 31
/-- A write to an administrator-only register outside a session: ignored, setting ADMIN_DENY (R421). -/
def adminDeny (s : State) (a : Nat) : State := (s.ignoredWrite a).setBits R.SEM_ERR 2

/-! ### Event queues (R127 to R131) -/

/-- Units of an item. -/
def itemUnits (i : EvItem) : Nat := i.bytes.length / 64
/-- Units held in a queue's store. -/
def storeUnits (q : EvQueue) : Nat := (q.items.map itemUnits).sum
/-- The store of queue `q` of tenant `t`. -/
def evqGet (s : State) (t q : Nat) : EvQueue := Map.get s.evq EvQueue.none (16 * t + q)
/-- Set the store. -/
def evqSet (s : State) (t q : Nat) (e : EvQueue) : State := { s with evq := Map.set s.evq (16 * t + q) e }
/-- Store capacity, 2^CAP units (R138). -/
def evqCap (s : State) (t q : Nat) : Nat := 2 ^ s.rdF (R.EVQ_CTL t q) 27 24

/-- When an item begun now is complete (R128): a unit a nanosecond, and between units what the producer leaves, within 1 µs. -/
def itemDue (s : State) (units : Nat) : Word64 :=
  if units ≤ 1 then s.ft else s.ft + BitVec.ofNat 64 (max (4 * (units - 1)) (s.free.toNat % 4001))
/-- An item reaches its queue: discarded where the queue is disabled, dropped where the store lacks room for all its units as its
first is written (R127, R128, R130), else admitted, its room reserved and its units written one after another. -/
def storeItem (s : State) (t q prio : Nat) (bytes : List Byte) : State :=
  if s.rdB (R.EVQ_CTL t q) 31 then
    let e := s.evqGet t q
    if storeUnits e + bytes.length / 64 ≤ s.evqCap t q then
      (if bytes.length / 64 ≤ 1 then s else s.used).evqSet t q
        { e with items := e.items ++ [⟨e.nextNo, prio, bytes, s.itemDue (bytes.length / 64)⟩], nextNo := e.nextNo + 1 }
    else
      ((s.evqSet t q { e with gap := e.gap + 1, gapSince := e.gapSince + 1 }).bump (R.EVQ_GAP_CNT t q)).raise (0x50 + t) 0
  else s.bump (R.EVQ_DISC_CNT t q)

end State

/-- Unit 0 of an item (R124); GAP and PHASE are put in at delivery (R129, R130). -/
structure Unit0 where
  type : Nat
  lenM1 : Nat
  prio : Nat
  seq : Word32
  src : Nat
  opcode : Nat
  user : Word32
  ftStart : Word64
  ftDone : Word64
  status : Nat
  req : Word32
  version : Word32
  epoch : Word64
  data : Word64
deriving DecidableEq, Repr

/-- The 64 bytes of unit 0. -/
def Unit0.bytes (u : Unit0) : List Byte :=
  leBytes 4 (u.prio * 1024 + u.lenM1 * 256 + u.type) ++ leBytes 4 u.seq.toNat ++ leBytes 2 u.src ++ leBytes 2 u.opcode ++
  leBytes 4 u.user.toNat ++ leBytes 8 u.ftStart.toNat ++ leBytes 8 u.ftDone.toNat ++ leBytes 4 u.status ++
  leBytes 4 u.req.toNat ++ leBytes 4 u.version.toNat ++ leBytes 4 0 ++ leBytes 8 u.epoch.toNat ++ leBytes 8 u.data.toNat

/-- SRC of an item of a record (R124). -/
def srcOf (tenant ring : Nat) : Nat := ring + 256 * tenant
/-- SRC of an item the device itself produces (R124: bit 14 DEV). -/
def srcDev (tenant ring : Nat) : Nat := ring + 256 * tenant + 0x4000
/-- STATUS of an item (R124). -/
def statusOf (code detail : Byte) (flags : NumFlags) : Nat := code.toNat + 256 * detail.toNat + 65536 * flags.toNat

/-- An item of the device itself: DEV 1, SEQ 0 (R124). -/
def devUnit0 (type lenM1 prio tenant ring : Nat) (ft : Word64) (status : Nat) (req version : Word32) (data : Word64) : Unit0 :=
  ⟨type, lenM1, prio, 0, srcDev tenant ring, 0, 0, 0, ft, status, req, version, 0, data⟩

/-! ### Records and their fields (R108) -/

namespace CmdRecF
/-- EVT (R108). -/
def evt (c : CmdRec) : Nat := fld c.flags 1 0
/-- W0_EN. -/
def w0En (c : CmdRec) : Bool := bit c.flags 2
/-- W1_EN. -/
def w1En (c : CmdRec) : Bool := bit c.flags 3
/-- SIG_EN. -/
def sigEn (c : CmdRec) : Bool := bit c.flags 4
/-- HOLD. -/
def hold (c : CmdRec) : Bool := bit c.flags 5
/-- SWITCH. -/
def switch (c : CmdRec) : Bool := bit c.flags 6
/-- BARRIER. -/
def barrier (c : CmdRec) : Bool := bit c.flags 7
/-- PRIO. -/
def prio (c : CmdRec) : Nat := fld c.ctl 31 30
/-- EVT_PRIO. -/
def evtPrio (c : CmdRec) : Nat := fld c.ctl 29 28
/-- EVQ. -/
def evq (c : CmdRec) : Nat := fld c.ctl 27 24
/-- CAST0. -/
def cast0 (c : CmdRec) : Nat := fld c.ctl 15 12
/-- CAST1. -/
def cast1 (c : CmdRec) : Nat := fld c.ctl 19 16
/-- UNIT. -/
def unit (c : CmdRec) : Nat := fld c.place 31 29
/-- OX_MASK. -/
def oxMask (c : CmdRec) : Nat := fld c.place 28 26
/-- Selected cores less one. -/
def ncoreM1 (c : CmdRec) : Nat := fld c.place 17 9
/-- First core. -/
def firstCore (c : CmdRec) : Nat := fld c.place 8 0
/-- REQ_V. -/
def reqV (c : CmdRec) : Bool := bit c.req 31
/-- REQ_ID. -/
def reqId (c : CmdRec) : Nat := fld c.req 15 0
/-- SIG_CTR. -/
def sigCtr (c : CmdRec) : Nat := fld c.depctl 23 16
/-- W1_CTR. -/
def w1Ctr (c : CmdRec) : Nat := fld c.depctl 15 8
/-- W0_CTR. -/
def w0Ctr (c : CmdRec) : Nat := fld c.depctl 7 0
/-- The logical cores PLACE selects. -/
def cores (c : CmdRec) : List Nat := (List.range (ncoreM1 c + 1)).map (fun i => firstCore c + i)
/-- The execution units of the record, in ascending number: engines, cores or clusters (R118). -/
def units (c : CmdRec) : List Nat :=
  match unit c with
  | 0 => (cores c).flatMap (fun k => ([0, 1, 2].filter (fun j => (oxMask c).testBit j)).map (fun j => 4 * k + j))
  | 1 => (cores c).map (fun k => 4 * k + 3)
  | 3 => ((cores c).map (fun k => k / 6)).dedup
  | _ => cores c
end CmdRecF

namespace State

/-! ### Dependency counters and completion (R111 to R114, R516) -/

/-- Counter `n` of tenant `t`. -/
def dep (s : State) (t n : Nat) : Word64 := Map.get s.depCtr 0 (256 * t + n)
/-- Set a counter. -/
def depSet (s : State) (t n : Nat) (v : Word64) : State := { s with depCtr := Map.put s.depCtr 0 (256 * t + n) v }
/-- FAULT of a counter (R114). -/
def depFault (s : State) (t n : Nat) : Bool := s.rdB (R.CRG_CTR_FAULT t (n / 32)) (n % 32)
/-- A completion's signal: the counter advances by SIG_AMT, and a CODE other than OK sets its FAULT bit (R113, R114). -/
def signalDep (s : State) (t : Nat) (c : CmdRec) (code : Byte) : State :=
  if CmdRecF.sigEn c then
    let n := CmdRecF.sigCtr c
    let u := s.depSet t n (satAdd64 (s.dep t n) c.sigAmt.toNat)
    if code = 0 then u
    else (u.setBits (R.CRG_CTR_FAULT t (n / 32)) (BitVec.ofNat 32 (2 ^ (n % 32)))).raise (0x10 + t) 2
  else s

end State

/-- Is the record a VERIFY_STEP with BATCH = 1 (R288)? -/
def isBatch (c : CmdRec) : Bool := c.opcode == 0x0203 && bit c.w1 20

/-- Does a completion make a FAULT item (R126)? -/
def isFaultItem (c : CmdRec) (code detail : Byte) : Bool :=
  code == 0x04 || code == 0x05 || code == 0x09 || code == 0x0A || code == 0x0D ||
  ((CmdRecF.reqV c || isBatch c) && (code == 0x07 || (code == 0x15 && detail == 0x07))) ||
  ((c.opcode == 0x0010 || c.opcode == 0x0011) && code != 0)

/-- Unit 1 of a FAULT item (R126). -/
def faultUnit1 (o : RunOp) : List Byte :=
  leBytes 8 o.faultAddr.toNat ++ leBytes 4 o.faultInfo.toNat ++ leBytes 4 o.faultEng ++ leBytes 4 o.faultSlot ++
  leBytes 4 o.faultCnt.toNat ++ leBytes 40 0

/-- The type of the item a completion makes: FAULT, the type that stands in place of COMPLETE (USER only with CODE OK), or
COMPLETE (R123, R126, R341, R370). -/
def itemType (o : RunOp) : Nat :=
  if isFaultItem o.cmd o.code o.detail then 2
  else if o.kind = 4 then (if o.code = 0 then 4 else 1)
  else if o.kind = 0 then 1 else o.kind

/-- The further units of a completion's item. -/
def itemExtra (o : RunOp) : List Byte :=
  if itemType o = 2 then faultUnit1 o else if itemType o = 4 then o.extra else []

/-- The item of a completion (R123, R124, R126). TYPE_DATA of a FAULT item is not stated: `open_`. -/
def completionItem (o : RunOp) (ftDone open_ : Word64) : List Byte :=
  let ty := itemType o
  let u : Unit0 :=
    ⟨ty, (itemExtra o).length / 64, CmdRecF.evtPrio o.cmd, o.cmd.seq, srcOf o.tenant o.ring, o.cmd.opcode.toNat,
     o.cmd.user, o.ftStart, ftDone, statusOf o.code o.detail o.flags, o.cmd.req, o.version, o.epoch,
     if ty = 2 then open_ else if ty = 1 then o.busy else o.tdata⟩
  u.bytes ++ itemExtra o

/-- Is an event item due under EVT (R108)? -/
def evtDue (o : RunOp) : Bool :=
  match CmdRecF.evt o.cmd with
  | 1 => true
  | 2 => o.code != 0 || o.flags != 0
  | _ => false

namespace State

/-- Set the numeric flags and counts of an engine that ran part of an operator (R67, R68). -/
def engFlags (s : State) (e : Nat) (f : NumFlags) : State :=
  let t := s.setBits (R.OXE_NUM_FLAG e) (f.setWidth 32)
  let t := if f &&& fNV != 0 then t.bump (R.OXE_NV_CNT e) else t
  if f &&& (fSAT ||| fOF) != 0 then t.bump (R.OXE_SAT_CNT e) else t

/-- The record's completion as the home core records it: DONE, the counter's signal, then the event item (R113, R114,
R516). -/
def complete (s : State) (h : Nat) (o : RunOp) : State :=
  let any := bit s.free 63        -- EVT 0b11 is reserved: whether it makes an item is not stated
  let s : State := { s.used with ops := Map.erase s.ops h }
  let s := s.wr (R.CRG_RING_DONE o.tenant o.ring) (s.rd (R.CRG_RING_DONE o.tenant o.ring) + 1)
  let s := s.signalDep o.tenant o.cmd o.code
  if evtDue o || (CmdRecF.evt o.cmd == 3 && any) then
    s.used.storeItem o.tenant (CmdRecF.evq o.cmd) (CmdRecF.evtPrio o.cmd) (completionItem o s.ft s.free)
  else s

/-- An operator by its handle. -/
def op? (s : State) (h : Nat) : Option RunOp := Map.get? s.ops h
/-- Set an operator. -/
def opSet (s : State) (h : Nat) (o : RunOp) : State := { s with ops := Map.set s.ops h o }

/-- Unit `u` of an operator reports a CODE other than OK: it stands unless a unit of a lower or the same number reported one (R120). -/
def opFailOn (s : State) (h u : Nat) (code detail : Byte) : State :=
  match s.op? h with
  | some o => if o.code = 0 ∨ u < o.failUnit then s.opSet h { o with code := code, detail := detail, failUnit := u } else s
  | none => s
/-- Give an operator as a whole a CODE other than OK, unless one stands. -/
def opFail (s : State) (h : Nat) (code detail : Byte) : State :=
  match s.op? h with
  | some o => if o.code = 0 then s.opSet h { o with code := code, detail := detail, failUnit := 0 } else s
  | none => s

/-- The global address of a local address: this package's number in bits 63:52 (R141, R218). -/
def globalAddr (s : State) (a : Nat) : Nat := s.rdF R.FBD_PKG_ID 11 0 * 2 ^ 52 + a % 2 ^ 52

/-- The page that reports a faulting access, whose ERR_INFO goes into the FAULT item (R126): the FTL for the lower tier; for an
address of the unified range the MPD of its tile's stack, or its DRAM port for poison, or MPD 16 where it has none; for SRAM the compute die (log entry 58). -/
def reportPage (s : State) (code : Byte) (addr : Nat) : Nat :=
  if code = 0x0A then 0x0B
  else if addr < 0x2000_0000_0000 then
    let t := Map.get s.ms.tiles Tile.none (addr / 65536)
    if t.st = .dram || t.st = .movingD then (if code = 9 then 0xD8 + t.loc / 2 ^ 24 else 0xD0 + t.loc / 2 ^ 24 / 2) else 0xD0
  else
    let w := addr - 0x4_0000_0000_0000
    0x130 + (if w < 0x2_0000_0000 then w / 0x40_0000 / 96 else if w < 0x3_0000_0000 then (w - 0x2_0000_0000) / 0x10_0000 / 24
             else (w - 0x3_0000_0000) / 0x100_0000 / 4) % 16
/-- Record a faulting access of unit `u` of an operator, at a local address, by an engine at a slot address (R120, R126): the first of
the unit whose CODE stands is named, and each is counted. -/
def opFaultIn (s : State) (h u : Nat) (code detail : Byte) (addr eng slot : Nat) : State :=
  match s.op? h with
  | some o =>
    let o := if o.code = 0 ∨ u < o.failUnit then
      { o with code := code, detail := detail, failUnit := u, faultAddr := BitVec.ofNat 64 (s.globalAddr addr)
               faultInfo := s.rd (R.ERR_INFO (s.reportPage code addr)), faultEng := eng, faultSlot := slot } else o
    s.opSet h { o with faultCnt := satAdd32 o.faultCnt 1 }
  | none => s
/-- Record a faulting access of an operator as a whole, with no engine involved. -/
def opFaultAt (s : State) (h : Nat) (code detail : Byte) (addr : Nat) : State := s.opFaultIn h 0 code detail addr 0x7FF 0

/-! ### Power rungs (R455, R485) -/

/-- The rung: 0 Run, 1 Idle, 2 Doze, 3 Nap, 4 Sleep (R455). -/
def rung (s : State) : Nat := s.rdF R.PWR_STAT 31 29
/-- The package in the fatal state of R474. -/
def inFatal (s : State) : Bool := s.rdB R.PWR_STAT 26
/-- Account the time spent on the rung in force: whole seconds go to PWR_RUNG_TIME (R484). -/
def rungSettle (s : State) : State :=
  let r := s.rung
  let n := Map.get s.pwr.acc 0 r + (s.ft.toNat - s.pwr.since.toNat)
  { s.bump (R.PWR_RUNG_TIME r) (n / 4000000000) with pwr := { s.pwr with since := s.ft, acc := Map.put s.pwr.acc 0 r (n % 4000000000) } }
/-- The rung changes: counted and reported (R456, R484, R488); GATED of each compute die follows it (R487). -/
def rungSet (s : State) (r : Nat) : State :=
  let s := ((s.rungSettle.wrF R.PWR_STAT 31 29 r).bump R.PWR_RUNG_CNT).raise 0x05 0
  (List.range 16).foldl (fun u d => u.wrF (R.CDIE_STAT d) 26 26 (if r = 0 then 0 else 1)) s

end State

end Sys2Proof.Machine
end

