-- ==== Sys2Proof/Machine/Crypto.lean ====
section
/-! DEFINITION. The transforms the manual names by their standards (R9, R10, R415): AES-256 (FIPS 197), GCM (SP 800-38D), XTS
(SP 800-38E), SHA-384 (FIPS 180-4), ECDSA over P-384 (FIPS 186-5, SP 800-186) and CTR_DRBG (SP 800-90A). The standards govern them;
log entry 4. -/
namespace Sys2Proof.Machine
open Sys2Proof

/-- The big-endian value of bytes. -/
def beNat (l : List Byte) : Nat := l.foldl (fun a b => a * 256 + b.toNat) 0
/-- `n` big-endian bytes of a value. -/
def beBytes (n v : Nat) : List Byte := (leBytes n v).reverse
/-- Bytes exclusive-ored, as far as the shorter run goes. -/
def xorBytes (a b : List Byte) : List Byte := List.zipWith (· ^^^ ·) a b
/-- The first `n` bytes, zeros added where there are fewer. -/
def padTo (n : Nat) (l : List Byte) : List Byte := (l ++ List.replicate n 0).take n
/-- Cut into runs of `n`, at most `fuel` of them. -/
def cutInto (n : Nat) : Nat → List Byte → List (List Byte)
  | 0, _ => []
  | fuel + 1, l => if l.isEmpty then [] else l.take n :: cutInto n fuel (l.drop n)
/-- Blocks of 16 bytes, the last as long as what is left. -/
def blocks16 (l : List Byte) : List (List Byte) := cutInto 16 (l.length / 16 + 1) l

/-! ### AES-256 (FIPS 197) -/

/-- Multiplication by x in GF(2^8); the bytes of a block are numbers here, which the kernel computes with directly. -/
def gfX (b : Nat) : Nat := if b < 128 then 2 * b else (2 * b) ^^^ 0x11B
/-- Multiplication in GF(2^8), over `n` bits of the second factor from the top, onto `r`. -/
def gfMulOn (a b : Nat) : Nat → Nat → Nat
  | 0, r => r
  | n + 1, r => if b.testBit n then gfMulOn a b n (gfX r ^^^ a) else gfMulOn a b n (gfX r)
/-- The S-box, sixteen rows of sixteen, a row's first entry its lowest byte. -/
def sBoxTable : Nat :=
  0x76abd7fe2b670130c56f6bf27b777c63 +
  0xc072a49cafa2d4adf04759fa7dc982ca * 2 ^ 128 +
  0x1531d871f1e5a534ccf73f362693fdb7 * 2 ^ 256 +
  0x75b227ebe28012079a059618c323c704 * 2 ^ 384 +
  0x842fe329b3d63b52a05a6e1b1a2c8309 * 2 ^ 512 +
  0xcf584c4a39becb6a5bb1fc20ed00d153 * 2 ^ 640 +
  0xa89f3c507f02f94585334d43fbaaefd0 * 2 ^ 768 +
  0xd2f3ff1021dab6bcf5389d928f40a351 * 2 ^ 896 +
  0x73195d643d7ea7c41744975fec130ccd * 2 ^ 1024 +
  0xdb0b5ede14b8ee4688902a22dc4f8160 * 2 ^ 1152 +
  0x79e4959162acd3c25c2406490a3a32e0 * 2 ^ 1280 +
  0x08ae7a65eaf4566ca94ed58d6d37c8e7 * 2 ^ 1408 +
  0x8a8bbd4b1f74dde8c6b4a61c2e2578ba * 2 ^ 1536 +
  0x9e1dc186b95735610ef6034866b53e70 * 2 ^ 1664 +
  0xdf2855cee9871e9b948ed9691198f8e1 * 2 ^ 1792 +
  0x16bb54b00f2d99416842e6bf0d89a18c * 2 ^ 1920
/-- The inverse S-box, in the same form. -/
def sBoxInvTable : Nat :=
  0xfbd7f3819ea340bf38a53630d56a0952 +
  0xcbe9dec444438e3487ff2f9b8239e37c * 2 ^ 128 +
  0x4ec3fa420b954cee3d23c2a632947b54 * 2 ^ 256 +
  0x25d18b6d49a25b76b224d92866a12e08 * 2 ^ 384 +
  0x92b6655dcc5ca4d41698688664f6f872 * 2 ^ 512 +
  0x849d8da75746155edab9edfd5048706c * 2 ^ 640 +
  0x0645b3b80558e4f70ad3bc8c00abd890 * 2 ^ 768 +
  0x6b8a130103bdafc1020f3fca8f1e2cd0 * 2 ^ 896 +
  0x73e6b4f0cecff297eadc674f4111913a * 2 ^ 1024 +
  0x6edf751ce837f9e28535ade72274ac96 * 2 ^ 1152 +
  0x1bbe18aa0e62b76f89c5291d711af147 * 2 ^ 1280 +
  0xf45acd78fec0db9a2079d2c64b3e56fc * 2 ^ 1408 +
  0x5fec8027591012b131c7078833a8dd1f * 2 ^ 1536 +
  0xef9cc9939f7ae52d0d4ab519a97f5160 * 2 ^ 1664 +
  0x619953833cbbebc8b0f52aae4d3be0a0 * 2 ^ 1792 +
  0x7d0c2155631469e126d677ba7e042b17 * 2 ^ 1920
/-- The S-box. -/
def sBox (a : Nat) : Nat := sBoxTable >>> (8 * a) % 256
/-- The inverse S-box. -/
def sBoxInv (a : Nat) : Nat := sBoxInvTable >>> (8 * a) % 256
/-- Bytes added. -/
def xorNats (a b : List Nat) : List Nat := List.zipWith Nat.xor a b

/-- One round key after another: eight words at a time, from the eight before (the words as bytes). -/
def keyStep (rc : Nat) (w : List (List Nat)) : List (List Nat) :=
  let last := w.getD 7 []
  let t := (last.drop 1 ++ last.take 1).map sBox
  let t := match t with | b :: bs => (b ^^^ rc) :: bs | [] => []
  let a0 := xorNats (w.getD 0 []) t
  let a1 := xorNats (w.getD 1 []) a0
  let a2 := xorNats (w.getD 2 []) a1
  let a3 := xorNats (w.getD 3 []) a2
  let a4 := xorNats (w.getD 4 []) (a3.map sBox)
  let a5 := xorNats (w.getD 5 []) a4
  let a6 := xorNats (w.getD 6 []) a5
  let a7 := xorNats (w.getD 7 []) a6
  [a0, a1, a2, a3, a4, a5, a6, a7]
/-- The words of the key schedule from `n` steps on. -/
def keyWords : Nat → Nat → List (List Nat) → List (List Nat)
  | 0, _, w => w
  | n + 1, rc, w => w ++ keyWords n (gfX rc) (keyStep rc w)
/-- The fifteen round keys of a 32-byte key. -/
def roundKeys (k : List Byte) : List (List Nat) :=
  let w := keyWords 7 1 ((cutInto 4 8 (padTo 32 k)).map (fun x => x.map BitVec.toNat))
  (List.range 15).map (fun r => ((w.drop (4 * r)).take 4).flatten)

/-- ShiftRows, by `d` columns a row (1 to encrypt, 3 to decrypt): the state is 4 columns of 4 bytes. -/
def shiftRows (d : Nat) (b : List Nat) : List Nat :=
  (List.range 16).map (fun i => b.getD ((i / 4 + d * (i % 4)) % 4 * 4 + i % 4) 0)
/-- MixColumns with a column's coefficients, of four bits. -/
def mixCols (m : List Nat) (b : List Nat) : List Nat :=
  (List.range 16).map (fun i =>
    (List.range 4).foldl (fun r j => r ^^^ gfMulOn (b.getD (i / 4 * 4 + j) 0) (m.getD ((j + 4 - i % 4) % 4) 0) 4 0) 0)

/-- One block encrypted. -/
def aesBlock (rk : List (List Nat)) (b : List Byte) : List Byte :=
  let mid := (rk.drop 1).take 13
  let s := mid.foldl (fun s k => xorNats (mixCols [2, 3, 1, 1] (shiftRows 1 (s.map sBox))) k)
    (xorNats ((padTo 16 b).map BitVec.toNat) (rk.getD 0 []))
  (xorNats (shiftRows 1 (s.map sBox)) (rk.getD 14 [])).map (BitVec.ofNat 8)
/-- One block decrypted. -/
def aesUnblock (rk : List (List Nat)) (b : List Byte) : List Byte :=
  let mid := ((rk.drop 1).take 13).reverse
  let s := mid.foldl (fun s k => mixCols [14, 11, 13, 9] (xorNats ((shiftRows 3 s).map sBoxInv) k))
    (xorNats ((padTo 16 b).map BitVec.toNat) (rk.getD 14 []))
  (xorNats ((shiftRows 3 s).map sBoxInv) (rk.getD 0 [])).map (BitVec.ofNat 8)
/-- AES-256 of one block. -/
def aes256 (k b : List Byte) : List Byte := aesBlock (roundKeys k) b

/-! ### AES-256-GCM (SP 800-38D), 96-bit IV, 128-bit tag -/

/-- Multiplication in GF(2^128), bit 0 the leftmost. -/
def ghMul (x y : Nat) : Nat :=
  ((List.range 128).foldl (fun (p : Nat × Nat) i =>
    (if x.testBit (127 - i) then p.1 ^^^ p.2 else p.1,
     if p.2 % 2 = 1 then (p.2 / 2) ^^^ (0xE1 * 2 ^ 120) else p.2 / 2)) (0, y)).1
/-- GHASH of additional data and ciphertext. -/
def ghash (h : Nat) (aad ct : List Byte) : Nat :=
  let bl := (blocks16 aad ++ blocks16 ct).map (padTo 16) ++ [beBytes 8 (8 * aad.length) ++ beBytes 8 (8 * ct.length)]
  bl.foldl (fun y b => ghMul (y ^^^ beNat b) h) 0
/-- The key stream over a text, the first counter being 2. -/
def gcmCtr (rk : List (List Nat)) (iv text : List Byte) : List Byte :=
  ((blocks16 text).zipIdx.map (fun p => xorBytes p.1 (aesBlock rk (padTo 12 iv ++ beBytes 4 (p.2 + 2))))).flatten
/-- The tag. -/
def gcmTag (rk : List (List Nat)) (iv aad ct : List Byte) : List Byte :=
  let h := beNat (aesBlock rk (List.replicate 16 0))
  xorBytes (beBytes 16 (ghash h aad ct)) (aesBlock rk (padTo 12 iv ++ [0, 0, 0, 1]))
/-- Authenticated encryption: ciphertext and tag. -/
def gcmSeal (k iv aad text : List Byte) : List Byte × List Byte :=
  let rk := roundKeys k
  let ct := gcmCtr rk iv text
  (ct, gcmTag rk iv aad ct)
/-- Authenticated decryption: none where the tag does not match. -/
def gcmOpen (k iv aad ct tag : List Byte) : Option (List Byte) :=
  let rk := roundKeys k
  if gcmTag rk iv aad ct = tag then some (gcmCtr rk iv ct) else none

/-! ### AES-256-XTS (SP 800-38E) -/

/-- The tweak times x. -/
def xtsX (t : Nat) : Nat := if t.testBit 127 then (2 * t % 2 ^ 128) ^^^ 0x87 else 2 * t
/-- The tweaks of successive blocks. -/
def xtsTweaks : Nat → Nat → List Nat
  | 0, _ => []
  | n + 1, t => t :: xtsTweaks n (xtsX t)
/-- One data unit of whole blocks, through the block transform `f` under the first half of the key; the second half makes the tweak. -/
def xtsUnit (f : List (List Nat) → List Byte → List Byte) (key : List Byte) (tweak : Nat) (unit : List Byte) : List Byte :=
  let t0 := leNat (aes256 (key.drop 32) (leBytes 16 tweak))
  let rk := roundKeys (key.take 32)
  let bl := blocks16 unit
  (List.zipWith (fun b t => xorBytes (f rk (xorBytes b (leBytes 16 t))) (leBytes 16 t)) bl (xtsTweaks bl.length t0)).flatten
/-- One data unit encrypted. -/
def xtsEnc (key : List Byte) (tweak : Nat) (unit : List Byte) : List Byte := xtsUnit aesBlock key tweak unit
/-- One data unit decrypted. -/
def xtsDec (key : List Byte) (tweak : Nat) (unit : List Byte) : List Byte := xtsUnit aesUnblock key tweak unit

/-! ### SHA-384 (FIPS 180-4) -/

/-- Round constants, twenty words of eighty. -/
def shaK0 : List Word64 := [
   0x428a2f98d728ae22, 0x7137449123ef65cd, 0xb5c0fbcfec4d3b2f, 0xe9b5dba58189dbbc,
   0x3956c25bf348b538, 0x59f111f1b605d019, 0x923f82a4af194f9b, 0xab1c5ed5da6d8118,
   0xd807aa98a3030242, 0x12835b0145706fbe, 0x243185be4ee4b28c, 0x550c7dc3d5ffb4e2,
   0x72be5d74f27b896f, 0x80deb1fe3b1696b1, 0x9bdc06a725c71235, 0xc19bf174cf692694,
   0xe49b69c19ef14ad2, 0xefbe4786384f25e3, 0x0fc19dc68b8cd5b5, 0x240ca1cc77ac9c65]
/-- Round constants, twenty words of eighty. -/
def shaK1 : List Word64 := [
   0x2de92c6f592b0275, 0x4a7484aa6ea6e483, 0x5cb0a9dcbd41fbd4, 0x76f988da831153b5,
   0x983e5152ee66dfab, 0xa831c66d2db43210, 0xb00327c898fb213f, 0xbf597fc7beef0ee4,
   0xc6e00bf33da88fc2, 0xd5a79147930aa725, 0x06ca6351e003826f, 0x142929670a0e6e70,
   0x27b70a8546d22ffc, 0x2e1b21385c26c926, 0x4d2c6dfc5ac42aed, 0x53380d139d95b3df,
   0x650a73548baf63de, 0x766a0abb3c77b2a8, 0x81c2c92e47edaee6, 0x92722c851482353b]
/-- Round constants, twenty words of eighty. -/
def shaK2 : List Word64 := [
   0xa2bfe8a14cf10364, 0xa81a664bbc423001, 0xc24b8b70d0f89791, 0xc76c51a30654be30,
   0xd192e819d6ef5218, 0xd69906245565a910, 0xf40e35855771202a, 0x106aa07032bbd1b8,
   0x19a4c116b8d2d0c8, 0x1e376c085141ab53, 0x2748774cdf8eeb99, 0x34b0bcb5e19b48a8,
   0x391c0cb3c5c95a63, 0x4ed8aa4ae3418acb, 0x5b9cca4f7763e373, 0x682e6ff3d6b2b8a3,
   0x748f82ee5defb2fc, 0x78a5636f43172f60, 0x84c87814a1f0ab72, 0x8cc702081a6439ec]
/-- Round constants, twenty words of eighty. -/
def shaK3 : List Word64 := [
   0x90befffa23631e28, 0xa4506cebde82bde9, 0xbef9a3f7b2c67915, 0xc67178f2e372532b,
   0xca273eceea26619c, 0xd186b8c721c0c207, 0xeada7dd6cde0eb1e, 0xf57d4f7fee6ed178,
   0x06f067aa72176fba, 0x0a637dc5a2c898a6, 0x113f9804bef90dae, 0x1b710b35131c471b,
   0x28db77f523047d84, 0x32caab7b40c72493, 0x3c9ebe0a15c9bebc, 0x431d67c49c100d4c,
   0x4cc5d4becb3e42b6, 0x597f299cfc657e2a, 0x5fcb6fab3ad6faec, 0x6c44198c4a475817]
/-- The initial hash value. -/
def sha384Init : List Word64 := [
   0xcbbb9d5dc1059ed8, 0x629a292a367cd507, 0x9159015a3070dd17, 0x152fecd8f70e5939,
   0x67332667ffc00b31, 0x8eb44a8768581511, 0xdb0c2e0d64f98fa7, 0x47b5481dbefa4fa4]
/-- The round constants. -/
def shaK : List Word64 := shaK0 ++ shaK1 ++ shaK2 ++ shaK3

/-- The message schedule, newest word first, `n` words more. -/
def shaSched : Nat → List Word64 → List Word64
  | 0, w => w
  | n + 1, w =>
    let a := w.getD 1 0
    let b := w.getD 14 0
    let s1 := a.rotateRight 19 ^^^ a.rotateRight 61 ^^^ (a >>> 6)
    let s0 := b.rotateRight 1 ^^^ b.rotateRight 8 ^^^ (b >>> 7)
    shaSched n ((s1 + w.getD 6 0 + s0 + w.getD 15 0) :: w)
/-- One round. -/
def shaRound (v : List Word64) (kw : Word64) : List Word64 :=
  match v with
  | [a, b, c, d, e, f, g, h] =>
    let t1 := h + (e.rotateRight 14 ^^^ e.rotateRight 18 ^^^ e.rotateRight 41) + ((e &&& f) ^^^ (~~~e &&& g)) + kw
    let t2 := (a.rotateRight 28 ^^^ a.rotateRight 34 ^^^ a.rotateRight 39) + ((a &&& b) ^^^ (a &&& c) ^^^ (b &&& c))
    [t1 + t2, a, b, c, d + t1, e, f, g]
  | v => v
/-- One block of 128 bytes. -/
def shaBlock (h : List Word64) (b : List Byte) : List Word64 :=
  let w := (cutInto 8 16 b).map (fun x => BitVec.ofNat 64 (beNat x))
  let sch := (shaSched 64 w.reverse).reverse
  List.zipWith (· + ·) h ((List.zipWith (· + ·) sch shaK).foldl shaRound h)
/-- A message padded to whole blocks. -/
def shaPad (m : List Byte) : List Byte := m ++ 0x80 :: List.replicate ((239 - m.length % 128) % 128) 0 ++ beBytes 16 (8 * m.length)
/-- SHA-384: 48 bytes. -/
def sha384 (m : List Byte) : List Byte :=
  let p := shaPad m
  let h := (cutInto 128 (p.length / 128) p).foldl shaBlock sha384Init
  ((h.take 6).map (fun w => beBytes 8 w.toNat)).flatten

/-! ### P-384 (SP 800-186) and ECDSA (FIPS 186-5) -/

/-- The field prime. -/
def ecP : Nat := 2 ^ 384 - 2 ^ 128 - 2 ^ 96 + 2 ^ 32 - 1
/-- The order of the base point. -/
def ecN : Nat := 0xffffffffffffffffffffffffffffffffffffffffffffffffc7634d81f4372ddf581a0db248b0a77aecec196accc52973
/-- The curve's b; a is −3. -/
def ecB : Nat := 0xb3312fa7e23ee7e4988e056be3f82d19181d9c6efe8141120314088f5013875ac656398d8a2ed19d2a85c8edd3ec2aef
/-- The base point. -/
def ecG : Nat × Nat :=
  (0xaa87ca22be8b05378eb1c71ef320ad746e1d3b628ba79b9859f741e082542a385502f25dbf55296c3a545e3872760ab7,
   0x3617de4a96262c6f5d9e98bf9292dc29f8f41dbd289a147ce9da3113b5f0b8c00a60b1ce1d7e819d7a431d7c90ea0e5f)
/-- A power modulo `m`, over `n` bits of the exponent. -/
def powMod (m b : Nat) : Nat → Nat → Nat
  | 0, _ => 1 % m
  | n + 1, e => if e % 2 = 1 then b * powMod m (b * b % m) n (e / 2) % m else powMod m (b * b % m) n (e / 2)
/-- The inverse modulo a prime. -/
def invMod (m a : Nat) : Nat := powMod m a 384 (m - 2)
/-- The sum of two points; none is the point at infinity. -/
def ecAdd (a b : Option (Nat × Nat)) : Option (Nat × Nat) :=
  match a, b with
  | none, b => b
  | a, none => a
  | some (x1, y1), some (x2, y2) =>
    if x1 = x2 ∧ (y1 + y2) % ecP = 0 then none
    else
      let l := if x1 = x2 then (3 * x1 * x1 + ecP - 3) * invMod ecP (2 * y1) % ecP
               else (y2 + ecP - y1) * invMod ecP (x2 + ecP - x1) % ecP
      let x := (l * l + 2 * ecP - x1 - x2) % ecP
      some (x, (l * (x1 + ecP - x) + ecP - y1) % ecP)
/-- The difference of two field elements. -/
def ecSub (a b : Nat) : Nat := (a + ecP - b) % ecP
/-- The double of a point in Jacobian coordinates: x is X/Z² and y is Y/Z³; Z is 0 at infinity. -/
def ecDouble : Nat × Nat × Nat → Nat × Nat × Nat
  | (x, y, z) =>
    let d := z * z % ecP
    let g := y * y % ecP
    let b := x * g % ecP
    let a := 3 * (ecSub x d) * (x + d) % ecP
    let x3 := ecSub (a * a % ecP) (8 * b % ecP)
    (x3, ecSub (a * ecSub (4 * b % ecP) x3 % ecP) (8 * g * g % ecP), 2 * y * z % ecP)
/-- The sum of two points in Jacobian coordinates. -/
def ecAddJ : Nat × Nat × Nat → Nat × Nat × Nat → Nat × Nat × Nat
  | (x1, y1, z1), (x2, y2, z2) =>
    if z1 = 0 then (x2, y2, z2)
    else if z2 = 0 then (x1, y1, z1)
    else
      let u1 := x1 * z2 * z2 % ecP
      let u2 := x2 * z1 * z1 % ecP
      let s1 := y1 * z2 * z2 * z2 % ecP
      let s2 := y2 * z1 * z1 * z1 % ecP
      if u1 = u2 then if s1 = s2 then ecDouble (x1, y1, z1) else (1, 1, 0)
      else
        let h := ecSub u2 u1
        let r := ecSub s2 s1
        let h2 := h * h % ecP
        let h3 := h2 * h % ecP
        let v := u1 * h2 % ecP
        let x3 := ecSub (ecSub (r * r % ecP) h3) (2 * v % ecP)
        (x3, ecSub (r * ecSub v x3 % ecP) (s1 * h3 % ecP), h * z1 * z2 % ecP)
/-- A multiple of a point, over `n` bits of the factor. -/
def ecMulAux (p : Nat × Nat × Nat) : Nat → Nat → Nat × Nat × Nat
  | 0, _ => (1, 1, 0)
  | n + 1, k =>
    let d := ecDouble (ecMulAux p n (k / 2))
    if k % 2 = 1 then ecAddJ d p else d
/-- A multiple of a point. -/
def ecMul (k : Nat) (p : Nat × Nat) : Option (Nat × Nat) :=
  match ecMulAux (p.1, p.2, 1) 384 k with
  | (x, y, z) =>
    if z = 0 then none
    else
      let i := invMod ecP z
      some (x * i * i % ecP, y * i * i * i % ecP)
/-- The point of a 97-byte uncompressed public key; none where it is not one on the curve. -/
def ecPoint (key : List Byte) : Option (Nat × Nat) :=
  let x := beNat ((key.drop 1).take 48)
  let y := beNat ((key.drop 49).take 48)
  if key.length = 97 ∧ key.head? = some 4 ∧ x < ecP ∧ y < ecP ∧ y * y % ecP = (x * x * x + (ecP - 3) * x + ecB) % ecP then some (x, y) else none
/-- The uncompressed form of the public key of a private one. -/
def ecPublic (d : Nat) : List Byte :=
  match ecMul d ecG with
  | some (x, y) => 4 :: (beBytes 48 x ++ beBytes 48 y)
  | none => padTo 97 [4]
/-- Does a signature, r then s, of a message verify under a public key? -/
def ecdsaOk (key msg sig : List Byte) : Bool :=
  match ecPoint key with
  | none => false
  | some q =>
    let r := beNat (sig.take 48)
    let s := beNat ((sig.drop 48).take 48)
    if sig.length = 96 ∧ 0 < r ∧ r < ecN ∧ 0 < s ∧ s < ecN then
      let w := invMod ecN s
      let z := beNat (sha384 msg)
      match ecAdd (ecMul (z * w % ecN) ecG) (ecMul (r * w % ecN) q) with
      | some (x, _) => x % ecN == r
      | none => false
    else false
/-- The signature of a message by a private key, with the secret number `k` of this signature. -/
def ecdsaSign (d k : Nat) (msg : List Byte) : List Byte :=
  match ecMul k ecG with
  | some (x, _) =>
    let r := x % ecN
    beBytes 48 r ++ beBytes 48 (invMod ecN k * (beNat (sha384 msg) + r * d) % ecN)
  | none => List.replicate 96 0
/-- The x-coordinate of a multiple of a public key's point, 48 bytes; none where the key is no point. -/
def ecdhX (d : Nat) (key : List Byte) : Option (List Byte) :=
  ((ecPoint key).bind (ecMul d)).map (fun p => beBytes 48 p.1)

/-! ### CTR_DRBG with AES-256 and the derivation function (SP 800-90A) -/

/-- `n` blocks of output, and V after them. -/
def drbgBlocks (rk : List (List Nat)) : Nat → Nat → List Byte × Nat
  | 0, v => ([], v)
  | n + 1, v =>
    let v := (v + 1) % 2 ^ 128
    let r := drbgBlocks rk n v
    (aesBlock rk (beBytes 16 v) ++ r.1, r.2)
/-- The update function, with 48 bytes provided. -/
def drbgUpdate (d : DrbgKV) (provided : List Byte) : DrbgKV :=
  let t := xorBytes (drbgBlocks (roundKeys d.key) 3 (beNat d.v)).1 (padTo 48 provided)
  ⟨t.take 32, t.drop 32⟩
/-- BCC: chained encryption of whole blocks. -/
def drbgBcc (rk : List (List Nat)) (data : List Byte) : List Byte :=
  (blocks16 data).foldl (fun c b => aesBlock rk (xorBytes c (padTo 16 b))) (List.replicate 16 0)
/-- The derivation function: 48 bytes. -/
def drbgDf (input : List Byte) : List Byte :=
  let s := beBytes 4 input.length ++ beBytes 4 48 ++ input ++ [0x80]
  let s := padTo ((s.length + 15) / 16 * 16) s
  let rk := roundKeys ((List.range 32).map (BitVec.ofNat 8))
  let t := ((List.range 3).map (fun i => drbgBcc rk (padTo 16 (beBytes 4 i) ++ s))).flatten
  let rk := roundKeys (t.take 32)
  let x1 := aesBlock rk (t.drop 32)
  let x2 := aesBlock rk x1
  x1 ++ x2 ++ aesBlock rk x2
/-- Instantiation from seed material. -/
def drbgNew (seed : List Byte) : DrbgKV := drbgUpdate ⟨List.replicate 32 0, List.replicate 16 0⟩ (drbgDf seed)
/-- A reseed. -/
def drbgReseed (d : DrbgKV) (entropy : List Byte) : DrbgKV := drbgUpdate d (drbgDf entropy)
/-- `n` bytes of output, with no additional input. -/
def drbgGenerate (d : DrbgKV) (n : Nat) : List Byte × DrbgKV :=
  let r := drbgBlocks (roundKeys d.key) ((n + 15) / 16) (beNat d.v)
  (r.1.take n, drbgUpdate ⟨d.key, beBytes 16 r.2⟩ [])

namespace State

/-- Entropy input from the noise source: 48 bytes that nothing fixes (R401; log entry 4). -/
def entropy (s : State) : List Byte × State :=
  ((List.range 6).flatMap (fun i => leBytes 8 (Config.freeValue (s.freeCtr + i)).toNat), { s with freeCtr := s.freeCtr + 6 })
/-- The DRBG as it stands; one not yet instantiated is, from the noise source (R402, R413). -/
def drbgNow (s : State) : DrbgKV × State :=
  match s.sem.drbg with
  | some d => (d, s)
  | none => let e := s.entropy; (drbgNew e.1, { e.2 with sem := { e.2.sem with drbgReqs := 0 } })
/-- The DRBG is reseeded from the noise source (R402). -/
def drbgFresh (s : State) : State :=
  let d := s.drbgNow
  let e := d.2.entropy
  ({ e.2 with sem := { e.2.sem with drbg := some (drbgReseed d.1 e.1), drbgReqs := 0 } } : State).bump R.RNG_DRBG_RESEED_CNT
/-- `n` bytes from the DRBG (R402): after 2^20 requests it is reseeded first, while the source is not failed. -/
def drbgTake (s : State) (n : Nat) : List Byte × State :=
  let s := if 2 ^ 20 ≤ s.sem.drbgReqs && s.rdB R.RNG_STAT 29 then s.drbgFresh else s
  let d := s.drbgNow
  let r := drbgGenerate d.1 n
  (r.1, { d.2 with sem := { d.2.sem with drbg := some r.2, drbgReqs := d.2.sem.drbgReqs + 1 } })
/-- Two AES-256 keys for XTS: drawn again while the halves are equal (R435), at most `fuel` times. -/
def drbgPair : Nat → State → List Byte × State
  | 0, s => s.drbgTake 64
  | fuel + 1, s => let r := s.drbgTake 64; if r.1.take 32 = r.1.drop 32 then drbgPair fuel r.2 else r
/-- A secret number from 1 to the order less 1, from 56 bytes drawn (FIPS 186-5, extra random bits). -/
def drbgScalar (s : State) : Nat × State :=
  let r := s.drbgTake 56
  (beNat r.1 % (ecN - 1) + 1, r.2)

end State
end Sys2Proof.Machine
end

