-- ==== Sys2Proof/Machine/Coding.lean ====
section
/-! DEFINITION. Chapter 06: what goes on a lane: blocks, the scrambler, RS(544,514), PAM4, alignment markers, and flits on the stripe
(R178 to R190). -/
namespace Sys2Proof.Machine
open Sys2Proof

/-! ### Flits and their CRC (R188, R190) -/

/-- `n` bits of CRC-32C (R190): the register shifts right, and the reflected polynomial is added where a 1 leaves it. -/
def crcBits (n c : Nat) : Nat :=
  match n with
  | 0 => c
  | k + 1 => crcBits k (if c % 2 = 1 then (c >>> 1) ^^^ 0x82F63B78 else c >>> 1)
/-- The register after some bytes. The case split on it has the kernel evaluate byte by byte. -/
def crcRun : List Byte → Nat → Nat
  | [], c => c
  | b :: l, 0 => crcRun l (crcBits 8 b.toNat)
  | b :: l, c + 1 => crcRun l (crcBits 8 ((c + 1) ^^^ b.toNat))
/-- CRC-32C, Castagnoli, reflected (R190). -/
def crc32c (bs : List Byte) : Word32 := ~~~(BitVec.ofNat 32 (crcRun bs 0xFFFFFFFF))

/-- Bytes 0x00–0x0B of a flit (R188). -/
def flitHead (f : Flit) : List Byte :=
  [f.type, f.flg, f.len, f.own] ++ leBytes 3 f.lseq.toNat ++ leBytes 3 f.ack.toNat ++ leBytes 2 f.cred.toNat
/-- The CRC a flit should carry (R190). -/
def flitCrc (f : Flit) : Word32 := crc32c (flitHead f ++ f.payload)
/-- The 256 bytes of a flit (R188). -/
def flitBytes (f : Flit) : List Byte := flitHead f ++ leBytes 4 f.crc.toNat ++ padTo 240 f.payload
/-- The flit that 256 bytes are. -/
def flitOf (b : List Byte) : Flit :=
  ⟨b.getD 0 0, b.getD 1 0, b.getD 2 0, b.getD 3 0, BitVec.ofNat 24 (leNat ((b.drop 4).take 3)), BitVec.ofNat 24 (leNat ((b.drop 7).take 3)),
    BitVec.ofNat 16 (leNat ((b.drop 10).take 2)), BitVec.ofNat 32 (leNat ((b.drop 12).take 4)), padTo 240 (b.drop 16)⟩
/-- Is `a` after `b`, by less than 2^23, modulo 2^24? -/
def seqAfter (a b : Nat) : Bool := let d := (a + 2 ^ 24 - b) % 2 ^ 24; d != 0 && d < 2 ^ 23

/-! ### Blocks and the scrambler (R179 to R181) -/

/-- A block: 257 bits, bit 0 the type, then 32 bytes, bit 0 of each first (R179). -/
def blockBits (ctl : Bool) (bytes : List Byte) : Nat := ctl.toNat + 2 * leNat (padTo 32 bytes)
/-- One step of the scrambler x^58 + x^39 + 1 over `n` bits, 39 at most, first bit lowest: the state holds the last 58 bits put out, the
latest highest. Answers the bits out and the state after (R181). -/
def scramStep (n bits st : Nat) : Nat × Nat :=
  let out := (bits ^^^ (st >>> 19) ^^^ st) % 2 ^ n
  (out, (st + out * 2 ^ 58) >>> n)
/-- One step of the descrambler, whose state holds the last 58 bits received. -/
def descramStep (n bits st : Nat) : Nat × Nat :=
  ((bits ^^^ (st >>> 19) ^^^ st) % 2 ^ n, (st + bits * 2 ^ 58) >>> n)
/-- Steps of 32 bits, `k` of them. -/
def scramRun (step : Nat → Nat → Nat → Nat × Nat) : Nat → Nat → Nat → Nat × Nat
  | 0, _, st => (0, st)
  | k + 1, bits, st =>
    let r := step 32 (bits % 2 ^ 32) st
    let t := scramRun step k (bits >>> 32) r.2
    (r.1 + t.1 * 2 ^ 32, t.2)
/-- A block scrambled: its type bit stays, and an AM block (code 0xA5) passes without moving the state (R180, R181). -/
def scramble (b st : Nat) : Nat × Nat :=
  if b % 512 = 1 + 2 * 0xA5 then (b, st)
  else let r := scramRun scramStep 8 (b / 2) st; (b % 2 + 2 * r.1, r.2)
/-- A block descrambled; one at a marker's place (`am`) is skipped in the same way. -/
def descramble (am : Bool) (b st : Nat) : Nat × Nat :=
  if am then (b, st)
  else let r := scramRun descramStep 8 (b / 2) st; (b % 2 + 2 * r.1, r.2)

/-! ### RS(544,514) over GF(2^10) (R179; IEEE 802.3 Clause 91) -/

/-- Multiplication by α, the root of x^10 + x^3 + 1. -/
def gf10X (a : Nat) : Nat := if a.testBit 9 then (2 * a) ^^^ 0x409 else 2 * a
/-- Multiplication in GF(2^10), over the bits of the second factor from the top. -/
def gf10Mul (a b : Nat) : Nat :=
  ([9, 8, 7, 6, 5, 4, 3, 2, 1, 0] : List Nat).foldl (fun r i => if b.testBit i then gf10X r ^^^ a else gf10X r) 0
/-- The inverse, 0 of 0: the 1,022nd power. -/
def gf10Inv (a : Nat) : Nat :=
  let r := ([8, 7, 6, 5, 4, 3, 2, 1] : List Nat).foldl (fun r _ => gf10Mul (gf10Mul r r) a) a
  gf10Mul r r
/-- The powers of `x`, from the 0th on. -/
def gf10Pows (x : Nat) : Nat → Nat → List Nat
  | 0, _ => []
  | n + 1, a => a :: gf10Pows x n (gf10Mul a x)
/-- The generator ∏ (x − α^i), i = 0 to 29, without its leading 1: the coefficient of x^k in bits 10k+9:10k. -/
def rsGen : Nat :=
  0x8fe282ece68a0011b235468f99448417ad07bd81eb9f7dcd69c5262305881fcb927880d0a0b
/-- Thirty symbols, each multiplied by α. -/
def vecX (v : Nat) : Nat :=
  let m : Nat := (2 ^ 300 - 1) / 1023
  let h := (v >>> 9) &&& m
  (((v ^^^ (h <<< 9)) <<< 1) ^^^ h) ^^^ (h <<< 3)
/-- The generator times a symbol. -/
def genMul (f : Nat) : Nat :=
  ([9, 8, 7, 6, 5, 4, 3, 2, 1, 0] : List Nat).foldl (fun r i => if f.testBit i then vecX r ^^^ rsGen else vecX r) 0
/-- The remainder of `n` message symbols, the first transmitted being the highest coefficient, by division by the generator. -/
def rsRem : Nat → Nat → Nat → Nat
  | 0, _, r => r
  | n + 1, msg, r => rsRem n (msg >>> 10) (((r % 2 ^ 290) <<< 10) ^^^ genMul ((r >>> 290) ^^^ (msg % 1024)))
/-- Thirty symbols in the other order. -/
def rev30 (v : Nat) : Nat := (List.range 30).foldl (fun a k => a * 1024 + (v >>> (10 * k)) % 1024) 0
/-- A codeword of 5,440 bits: 20 blocks, block 0 first, then the check symbols, the highest coefficient first (R179). -/
def codeword (blocks : List Nat) : Nat :=
  let msg := blocks.foldr (fun b a => b + a * 2 ^ 257) 0
  msg + rev30 (rsRem 514 msg 0) * 2 ^ 5140
/-- A received codeword modulo the generator: 0 exactly where all 30 syndrome symbols are 0 (R183). -/
def rsLeft (c : Nat) : Nat := rsRem 514 (c % 2 ^ 5140) 0 ^^^ rev30 (c >>> 5140)
/-- The value of a polynomial, low coefficient first. -/
def gf10Eval (p : List Nat) (x : Nat) : Nat := p.foldr (fun a r => gf10Mul r x ^^^ a) 0
/-- The sum of two polynomials. -/
def polyAdd : List Nat → List Nat → List Nat
  | [], q => q
  | p, [] => p
  | a :: p, b :: q => (a ^^^ b) :: polyAdd p q
/-- The search for the shortest feedback polynomial (Berlekamp and Massey): what is left of the syndromes, those seen (latest first), the
polynomial, the one before its last change, shifted, the discrepancy then, and the length. -/
def rsLocate : List Nat → List Nat → List Nat → List Nat → Nat → Nat → List Nat × Nat
  | [], _, lam, _, _, len => (lam, len)
  | s :: ss, seen, lam, old, b, len =>
    let seen := s :: seen
    let d := (List.zipWith gf10Mul lam seen).foldl (· ^^^ ·) 0
    let old := 0 :: old
    if d = 0 then rsLocate ss seen lam old b len
    else
      let f := gf10Mul d (gf10Inv b)
      let next := polyAdd lam (old.map (gf10Mul f))
      if 2 * len < seen.length then rsLocate ss seen next lam d (seen.length - len)
      else rsLocate ss seen next old b len
/-- A received codeword corrected, with the number of symbols changed; none where it is uncorrectable: more than 15 symbols (R183, R185). -/
def rsDecode (c : Nat) : Option (Nat × Nat) :=
  let rem := rsLeft c
  if rem = 0 then some (c, 0)
  else
    let rs := (List.range 30).map (fun k => (rem >>> (10 * k)) % 1024)
    let syn := (gf10Pows 2 30 1).map (gf10Eval rs)
    let r := rsLocate syn [] [1] [1] 1 0
    if 15 < r.2 then none
    else
      let lam := r.1
      let inv := gf10Inv 2
      let om := (List.range 30).map (fun k => ((List.range (k + 1)).map (fun i => gf10Mul (lam.getD i 0) (syn.getD (k - i) 0))).foldl (· ^^^ ·) 0)
      let dl := (List.range lam.length).map (fun i => if i % 2 = 0 then lam.getD (i + 1) 0 else 0)
      let roots := ((gf10Pows inv 544 1).zipIdx).filter (fun p => gf10Eval lam p.1 == 0)
      if roots.length ≠ r.2 then none
      else some (roots.foldl (fun a p =>
        a ^^^ (gf10Mul (gf10Mul (gf10Inv p.1) (gf10Eval om p.1)) (gf10Inv (gf10Eval dl p.1)) <<< (10 * (543 - p.2)))) c, r.2)
/-- The level, 0 to 3, of PAM4 symbol `i` of a codeword: two bits in Gray code, the first the higher (R179; IEEE 802.3 Clause 120). -/
def pam4 (c i : Nat) : Nat :=
  let a := c.testBit (2 * i); let b := c.testBit (2 * i + 1)
  2 * a.toNat + (xor a b).toNat

/-! ### Alignment markers (R182) -/

/-- Pattern bits of a marker (R182). -/
def amBits : Nat → Nat → List Bool
  | 0, _ => []
  | n + 1, s =>
    let b := xor (s.testBit 8) (s.testBit 4)
    b :: amBits n ((2 * s + b.toNat) % 512)
/-- The marker's fixed pattern, bits 0–191 in 24 bytes. -/
def amPattern : List Byte :=
  let l := amBits 192 0x1FF
  (List.range 24).map (fun i => BitVec.ofNat 8 (((l.drop (8 * i)).take 8).foldr (fun b a => 2 * a + b.toNat) 0))
/-- An AM block (R182). -/
def amBlock (stripe lane mcount : Nat) : List Byte :=
  padTo 32 ([0xA5] ++ amPattern ++ leBytes 1 stripe ++ leBytes 1 lane ++ leBytes 2 mcount)
/-- The 201 fixed bits of a marker: the type bit, the code and the pattern. -/
def amFixed : Nat := 1 + 2 * leNat ([0xA5] ++ amPattern)
/-- Byte `i` of the first block of a codeword. -/
def cwByte (c i : Nat) : Nat := (c >>> (1 + 8 * i)) % 256
/-- Do the fixed bits match? -/
def amMatch (c : Nat) : Bool := c % 2 ^ 201 == amFixed
/-- MCOUNT of a marker. -/
def amCount (c : Nat) : Nat := cwByte c 27 + 256 * cwByte c 28

/-! ### Flits on the stripe (R178, R186, R187) -/

/-- Is a port a hall port? -/
def isHall (p : Nat) : Bool := p < 32
/-- Physical lanes of a port (R177). -/
def laneCount (p : Nat) : Nat := if isHall p then 9 else 4
/-- The physical lane of stripe lane `k` in a lane map (R213). -/
def mapLane (m : Word32) (k : Nat) : Nat := fld m (4 * k + 3) (4 * k)
/-- The stripe lane that physical lane `l` carries in a map of `n` stripe lanes. -/
def laneStripe (m : Word32) (n l : Nat) : Option Nat := (List.range n).find? (fun k => mapLane m k == l)
/-- Bytes 32k to 32k + 31 of a flit. -/
def flitPart (b : List Byte) (k : Nat) : List Byte := (b.drop (32 * k)).take 32
/-- The blocks a flit takes on the lanes of a map: all 8 in one slot, or 4 in an even slot and 4 in the odd one (R186). -/
def stripeFlit (m : Word32) (n : Nat) (f : Flit) : List LaneBlock :=
  (List.range 8).map (fun k => ⟨k / n, mapLane m (k % n), false, flitPart (flitBytes f) k⟩)
/-- What a slot, or at half width and on a reach port two, shows on the lanes of the stripe (R180, R186): a flit, a control block of one
code, or a slot that loses the flit it would have carried. -/
inductive SlotKind where
  | flit (f : Flit)
  | control (bytes : List Byte)
  | lost
deriving DecidableEq, Repr
/-- Codes of control blocks that exist (R180). -/
def ctlCodes : List Byte := [0xA5, 0x5A, 0x3C, 0xC3, 0x99]
/-- Read a slot through the lane map of the receive side. -/
def slotKind (m : Word32) (n : Nat) (x : List LaneBlock) : SlotKind :=
  let get (k : Nat) : Option LaneBlock := x.find? (fun b => b.slot == k / n && b.lane == mapLane m (k % n))
  let ctl := (List.range n).map get
  let all := (List.range 8).map get
  if all.all (fun b => match b with | some b => !b.ctl | none => false) then
    .flit (flitOf ((all.map (fun b => match b with | some b => padTo 32 b.bytes | none => [])).flatten))
  else if ctl.all (fun b => match b with | some b => b.ctl && ctlCodes.contains (b.bytes.getD 0 0) && b.bytes.getD 0 0 == (match get 0 with | some c => c.bytes.getD 0 0 | none => 0) | none => false) then
    .control (match get 0 with | some b => padTo 32 b.bytes | none => [])
  else .lost

end Sys2Proof.Machine
end

