-- ==== Sys2Proof/Machine/Operands.lean ====
section
/-! DEFINITION. Element and block formats, rounding, saturation and casts: R34 to R47. -/
namespace Sys2Proof.Machine

/-- The element formats of R34 that hold a binary floating-point number. -/
inductive FpFmt where
  | fp32 | bf16 | fp16 | e4m3 | e5m2 | e2m1
deriving DecidableEq, Repr

namespace FpFmt
/-- Mantissa bits (R34). -/
def mbits : FpFmt → Nat
  | fp32 => 23 | bf16 => 7 | fp16 => 10 | e4m3 => 3 | e5m2 => 2 | e2m1 => 1
/-- Exponent bits (R34). -/
def ebits : FpFmt → Nat
  | fp32 => 8 | bf16 => 8 | fp16 => 5 | e4m3 => 4 | e5m2 => 5 | e2m1 => 2
/-- Exponent bias (R34). -/
def bias : FpFmt → Int
  | fp32 => 127 | bf16 => 127 | fp16 => 15 | e4m3 => 7 | e5m2 => 15 | e2m1 => 1
/-- Total bits (R34). -/
def bits (f : FpFmt) : Nat := 1 + f.ebits + f.mbits
/-- The encoding of the largest finite value, sign clear (R34, R35). -/
def maxCode : FpFmt → Nat
  | fp32 => 0x7F7F_FFFF | bf16 => 0x7F7F | fp16 => 0x7BFF | e4m3 => 0x7E | e5m2 => 0x7B | e2m1 => 0x7
/-- The canonical NaN (R36); E2M1 has none and gives 0 (R46). -/
def nanCode : FpFmt → Nat
  | fp32 => 0x7FC0_0000 | bf16 => 0x7FC0 | fp16 => 0x7E00 | e4m3 => 0x7F | e5m2 => 0x7E | e2m1 => 0
/-- The encoding of +infinity where the format has one (R34). -/
def infCode : FpFmt → Nat
  | fp32 => 0x7F80_0000 | bf16 => 0x7F80 | fp16 => 0x7C00 | e4m3 => 0x7F | e5m2 => 0x7C | e2m1 => 0x7
/-- Does the format encode infinity (R34)? -/
def hasInf : FpFmt → Bool
  | e4m3 => false | e2m1 => false | _ => true
/-- The exponent of the smallest spacing, the subnormal one. -/
def qmin (f : FpFmt) : Int := 1 - f.bias - f.mbits

/-- The number an encoding holds (R34, R35, R37). -/
def decode (f : FpFmt) (c : Nat) : XNum :=
  let neg := c.testBit (f.ebits + f.mbits)
  let mag := c % 2 ^ (f.ebits + f.mbits)
  if f.maxCode < mag then
    (if f.hasInf && mag == f.infCode then .inf neg else .nan)
  else
    let e := mag / 2 ^ f.mbits
    let m := mag % 2 ^ f.mbits
    if e = 0 then .fin neg m f.qmin else .fin neg (m + 2 ^ f.mbits) (f.qmin + (e - 1 : Nat))

end FpFmt

/-- The two rounding modes (R41); stochastic rounding carries its 16-bit draw. -/
inductive Rnd where
  | rne
  | sr (u : Nat)
deriving DecidableEq, Repr

/-- A magnitude `man`·2^`exp` as an integer multiple of 2^`q`, rounded (R41, R43). -/
def roundAt (r : Rnd) (man : Nat) (exp q : Int) : Nat :=
  if q ≤ exp then man * 2 ^ (exp - q).toNat
  else
    let k := (q - exp).toNat
    let n := man / 2 ^ k
    let f := man % 2 ^ k
    match r with
    | .rne =>
      if 2 * f < 2 ^ k then n
      else if 2 ^ k < 2 * f then n + 1
      else n + n % 2
    | .sr u =>
      let f16 := f * 2 ^ 16 / 2 ^ k
      if 2 ^ 16 ≤ f16 + u then n + 1 else n

/-- The spacing exponent of format `f` at a magnitude. -/
def spacing (f : FpFmt) (man : Nat) (exp : Int) : Int :=
  max f.qmin ((man.log2 : Int) + exp - f.mbits)

/-- Stage 1 of R41: the encoding's magnitude as if the exponent range had no upper bound. -/
def roundCode (f : FpFmt) (r : Rnd) (man : Nat) (exp : Int) : Nat :=
  if man = 0 then 0
  else
    let q := spacing f man exp
    (q - f.qmin).toNat * 2 ^ f.mbits + roundAt r man exp q

/-- Put the sign on a magnitude code. -/
def withSign (f : FpFmt) (neg : Bool) (code : Nat) : Nat :=
  if neg then code + 2 ^ (f.ebits + f.mbits) else code

/-- The cast of one number to a floating-point element (R41, R42, R46). E2M1 always saturates. -/
def castFp (f : FpFmt) (r : Rnd) (sat : Bool) (x : XNum) : Nat × NumFlags :=
  let sat := sat || f == .e2m1
  match x with
  | .nan => (f.nanCode, if f = .e2m1 then fNV else fNone)
  | .inf n =>
    if sat then (withSign f n f.maxCode, if f = .e2m1 then fNV ||| fSAT else fSAT)
    else if f.hasInf then (withSign f n f.infCode, fNone)
    else (f.nanCode, fNV)
  | .fin n m e =>
    let c := roundCode f r m e
    if f.maxCode < c then
      (if sat then (withSign f n f.maxCode, fSAT)
       else if f.hasInf then (withSign f n f.infCode, fOF)
       else (f.nanCode, fOF))
    else (withSign f n c, fNone)

/-- One RNE rounding to FP32, overflow to infinity (R48, R64): the number, and OF where it overflowed. -/
def rneFp32 (x : XNum) : XNum × NumFlags :=
  let c := castFp .fp32 .rne false x
  (FpFmt.decode .fp32 c.1, c.2)

/-- The cast of one number to INT8: rounded to an integer, saturated to ±127 (R45, R46). Two's complement byte. -/
def castInt8 (r : Rnd) (x : XNum) : Nat × NumFlags :=
  let enc (n : Bool) (m : Nat) : Nat := if n then (256 - m) % 256 else m
  match x with
  | .nan => (0, fNV)
  | .inf n => (enc n 127, fNV ||| fSAT)
  | .fin n m e =>
    let k := roundAt r m e 0
    if 127 < k then (enc n 127, fSAT) else (enc n k, fNone)

/-- A two's complement integer of `w` bits as a number. -/
def intDecode (w c : Nat) : XNum := .ofInt (BitVec.ofNat w c).toInt

/-- Every storage format a tensor may have: elements (R34) and blocks (R38). -/
inductive Fmt where
  | fp (f : FpFmt)
  | int8
  | int32
  | mx (f : FpFmt)     -- MXFP8 (E4M3, E5M2) and MXFP4 (E2M1)
  | mxint8
  | ogb8
  | ogb16
deriving DecidableEq, Repr

namespace Fmt
/-- Is it block-scaled (R38)? -/
def isBlock : Fmt → Bool
  | mx _ => true | mxint8 => true | ogb8 => true | ogb16 => true | _ => false
/-- Is it one of the three MX formats? -/
def isMx : Fmt → Bool
  | mx _ => true | mxint8 => true | _ => false
/-- Bits of one element, scales apart. -/
def ebits : Fmt → Nat
  | fp f => f.bits | int8 => 8 | int32 => 32 | mx f => f.bits | mxint8 => 8 | ogb8 => 8 | ogb16 => 16
/-- Bytes of `n` elements stored one after another: blocks in groups of 32 with 32 scale bytes first (R38). -/
def bytes (f : Fmt) (n : Nat) : Nat :=
  if f.isBlock then (n + 1023) / 1024 * (32 + 128 * f.ebits) else (n * f.ebits + 7) / 8
/-- The number an element encoding holds before any block scale (R34, R38). -/
def elem (f : Fmt) (c : Nat) : XNum :=
  match f with
  | fp g => g.decode c
  | mx g => g.decode c
  | int8 => intDecode 8 c
  | mxint8 => (intDecode 8 c).scale (-6)
  | int32 => intDecode 32 c
  | ogb8 => intDecode 8 c
  | ogb16 => FpFmt.decode .bf16 c
/-- The number of an element under its block's scale byte; a marked block reads as NaN (R38). -/
def scaled (f : Fmt) (sc c : Nat) : XNum :=
  if f.isMx then
    (if sc = 0xFF then .nan else (f.elem c).scale ((sc : Int) - 127))
  else if f.isBlock then
    (if sc = 0x80 then .nan else (f.elem c).scale (BitVec.ofNat 8 sc).toInt)
  else f.elem c
end Fmt

/-- Default saturation of a plain destination is by SAT8 or SAT16 of NUM_CTL (R69): is the format one of the 8-bit ones? -/
def FpFmt.is8 : FpFmt → Bool
  | .e4m3 => true | .e5m2 => true | _ => false

/-- The cast of one number to a plain (not block-scaled) element (R45, R46). INT32 is no cast destination; the vector
unit's integer results reach memory as INT32 words, so the integer is wrapped. -/
def castElem (f : Fmt) (r : Rnd) (sat : Bool) (x : XNum) : Nat × NumFlags :=
  match f with
  | .fp g => castFp g r sat x
  | .int8 => castInt8 r x
  | .int32 =>
    match x with
    | .fin n m e => let k := roundAt r m e 0; (((if n then -(k : Int) else (k : Int)) % 2 ^ 32).toNat, fNone)
    | _ => (0, fNV)
  | .mx g => castFp g r true x
  | .mxint8 => castInt8 r x
  | .ogb8 => castInt8 r x
  | .ogb16 => castFp .bf16 r true x

/-- The largest magnitude of a list of finite numbers (R39). -/
def amax (xs : List XNum) : XNum := xs.foldl (fun a x => if a.lt x.abs then x.abs else a) XNum.zero

/-- `emax` of R39. -/
def mxEmax : Fmt → Int
  | .mx .e4m3 => 8 | .mx .e5m2 => 15 | .mx .e2m1 => 2 | _ => 0

/-- Clamp a block exponent to −127 … +127 (R39, R40). -/
def clamp127 (e : Int) : Int := max (-127) (min 127 e)

/-- The exponent a block takes for a finite non-zero `amax` (R39, R40). -/
def blockExp (f : Fmt) (a : XNum) : Int :=
  match f with
  | .ogb8 =>
    let e := a.log2Floor - 6
    clamp127 (if (XNum.fin false 127 e).lt a then e + 1 else e)
  | .ogb16 => clamp127 a.log2Floor
  | _ => clamp127 (a.log2Floor - mxEmax f)

/-- The scale byte of a block exponent: E8M0 for MX, two's complement for OGB (R38). -/
def scaleByte (f : Fmt) (e : Int) : Nat :=
  if f.isMx then (e + 127).toNat else (e % 256).toNat

/-- The cast of the values of one block: scale byte, element codes, flags (R39, R40, R46). One rounding per element,
in order. -/
def castBlock (f : Fmt) (rs : List Rnd) (xs : List XNum) : Nat × List Nat × NumFlags :=
  if xs.any (fun x => x.isNan || x.isInf) then
    ((if f.isMx then 0xFF else 0x80), xs.map (fun _ => 0), fBNF)
  else
    let a := amax xs
    if a.isZero then (scaleByte f (-127), xs.map (fun _ => 0), fNone)
    else
      let e := blockExp f a
      let k := if f = .mxint8 then 6 - e else -e
      let cs := List.zipWith (fun x r => castElem f r true (x.scale k)) xs rs
      (scaleByte f e, cs.map (·.1), cs.foldl (fun fl c => fl ||| c.2) fNone)

/-- The table of R45: is the cast provided in one step? A cast that is not goes through FP32 with RNE first. INT32 is no
destination of the table. -/
def castDirect (src dst : Fmt) : Bool :=
  match src, dst with
  | .int32, .int32 => true
  | _, .int32 => false
  | .fp .fp32, _ => true
  | .fp .bf16, _ => true
  | .fp .fp16, _ => true
  | .fp _, d => !d.isBlock
  | .int8, d => !d.isBlock
  | .int32, .fp .fp32 => true
  | .int32, .fp .bf16 => true
  | .int32, .fp .fp16 => true
  | .int32, .int8 => true
  | .int32, _ => false
  | s, .fp .fp32 => s.isBlock
  | s, .fp .bf16 => s.isBlock
  | s, d => s == d

/-- The casts the table of R45 marks E: exact, so saturation has no effect on them (R79). -/
def castExact (src dst : Fmt) : Bool :=
  match src, dst with
  | .fp .bf16, .fp .fp32 => true
  | .fp .fp16, .fp .fp32 => true
  | .fp .e4m3, .fp g => g == .fp32 || g == .bf16 || g == .fp16
  | .fp .e5m2, .fp g => g == .fp32 || g == .bf16 || g == .fp16
  | .fp .e2m1, .fp g => g != .e2m1
  | .int8, .fp g => g == .fp32 || g == .bf16 || g == .fp16
  | _, _ => false

/-- The first step of a cast the table marks "—", through FP32 (R45): exact where the step is marked E, else RNE and SAT as
asked. -/
def castVia (src dst : Fmt) (sat : Bool) (x : XNum) : XNum × NumFlags :=
  if castDirect src dst || castExact src (.fp .fp32) then (x, fNone)
  else let c := castFp .fp32 .rne sat x; (FpFmt.decode .fp32 c.1, c.2)
/-- The step that ends a cast from `src` (R45, R46, R79). -/
def castEnd (src dst : Fmt) (r : Rnd) (sat : Bool) (x : XNum) : Nat × NumFlags := castElem dst r (sat && !castExact src dst) x

end Sys2Proof.Machine
end

