-- ==== Sys2Proof/Machine/VectorUnit.lean ====
section
/-! DEFINITION. The vector unit: correctly rounded functions (R64, R65) and the fixed-order reductions (R66). A function
is evaluated in integer fixed point with `fixP` fraction bits and rounded once with RNE. Log entry 6. -/
namespace Sys2Proof.Machine

/-- Fraction bits of the fixed-point evaluation. -/
def fixP : Nat := 640

/-- ⌊√n⌋ by bits, from bit `fuel` down. -/
def isqrtAux (n : Nat) : Nat → Nat → Nat
  | 0, r => r
  | k + 1, r => let t := r + 2 ^ k; isqrtAux n k (if t * t ≤ n then t else r)
/-- ⌊√n⌋. -/
def isqrt (n : Nat) : Nat := isqrtAux n (n.log2 / 2 + 1) 0

/-- A quotient of naturals as a number with a sticky bit, exact enough for one FP32 rounding. -/
def quotSticky (neg : Bool) (a : Nat) (ea : Int) (b : Nat) (eb : Int) : XNum :=
  let k := b.log2 + 64
  let q := a * 2 ^ k / b
  let st := if a * 2 ^ k % b = 0 then 0 else 1
  .fin neg (2 * q + st) (ea - eb - k - 1)

/-- FP32 addition (R64). -/
def vAdd (a b : XNum) : XNum × NumFlags :=
  let s := a.addX b; let r := rneFp32 s.1; (r.1, r.2 ||| (if s.2 then fNV else fNone))
/-- FP32 subtraction (R64). -/
def vSub (a b : XNum) : XNum × NumFlags := vAdd a b.neg
/-- FP32 multiplication (R64). -/
def vMul (a b : XNum) : XNum × NumFlags :=
  let s := a.mulX b; let r := rneFp32 s.1; (r.1, r.2 ||| (if s.2 then fNV else fNone))
/-- FP32 fused multiply-add: exact product and sum, one rounding (R64). -/
def vFma (a b c : XNum) : XNum × NumFlags :=
  let p := a.mulX b; let s := p.1.addX c; let r := rneFp32 s.1
  (r.1, r.2 ||| (if p.2 || s.2 then fNV else fNone))
/-- FP32 division (R64); special values as IEEE 754-2019. -/
def vDiv (a b : XNum) : XNum × NumFlags :=
  match a, b with
  | .nan, _ => (.nan, fNone)
  | _, .nan => (.nan, fNone)
  | .inf _, .inf _ => (.nan, fNV)
  | .inf n, y => (.inf (n != y.sign), fNone)
  | x, .inf n => (.fin (x.sign != n) 0 0, fNone)
  | .fin n m e, .fin n' m' e' =>
    if m' = 0 then (if m = 0 then (.nan, fNV) else (.inf (n != n'), fNone))
    else if m = 0 then (.fin (n != n') 0 0, fNone)
    else rneFp32 (quotSticky (n != n') m e m' e')
/-- FP32 square root (R64, R65). -/
def vSqrt (a : XNum) : XNum × NumFlags :=
  match a with
  | .nan => (.nan, fNone)
  | .inf n => if n then (.nan, fNV) else (.inf false, fNone)
  | .fin n m e =>
    if m = 0 then (.fin n 0 0, fNone)
    else if n then (.nan, fNV)
    else
      let m' := if e % 2 = 0 then m else 2 * m
      let e' := if e % 2 = 0 then e else e - 1
      let r := isqrt (m' * 2 ^ 128)
      let st := if r * r = m' * 2 ^ 128 then 0 else 1
      rneFp32 (.fin false (2 * r + st) (e' / 2 - 64 - 1))
/-- FP32 reciprocal (R64, R65). -/
def vRecip (a : XNum) : XNum × NumFlags :=
  match a with
  | .nan => (.nan, fNone)
  | .inf n => (.fin n 0 0, fNone)
  | .fin n m _ => if m = 0 then (.inf n, fNone) else vDiv XNum.one a
/-- FP32 reciprocal square root (R64, R65). -/
def vRsqrt (a : XNum) : XNum × NumFlags :=
  match a with
  | .nan => (.nan, fNone)
  | .inf n => if n then (.nan, fNV) else (XNum.zero, fNone)
  | .fin n m e =>
    if m = 0 then (.inf n, fNone)
    else if n then (.nan, fNV)
    else
      let m' := if e % 2 = 0 then m else 2 * m
      let e' := if e % 2 = 0 then e else e - 1
      let k := m'.log2 + 128
      let k := k + k % 2
      let r := isqrt (2 ^ k / m')
      let st := if r * r * m' = 2 ^ k then 0 else 1
      rneFp32 (.fin false (2 * r + st) (-(e' / 2) - (k / 2 : Nat) - 1))

/-! ### Fixed point: an `Int` stands for itself times 2^−fixP. -/

/-- One in fixed point. -/
def fxOne : Int := 2 ^ fixP
/-- Product in fixed point. -/
def fxMul (a b : Int) : Int := a * b / fxOne
/-- Quotient in fixed point. -/
def fxDiv (a b : Int) : Int := a * fxOne / b
/-- A finite number in fixed point. -/
def fxOf (x : XNum) : Int :=
  match x with
  | .fin n m e =>
    let k := e + fixP
    let v : Int := if 0 ≤ k then (m : Int) * 2 ^ k.toNat else ((m / 2 ^ (-k).toNat : Nat) : Int)
    if n then -v else v
  | _ => 0
/-- A fixed-point value as a number. -/
def fxNum (v : Int) : XNum := .fin (decide (v < 0)) v.natAbs (-(fixP : Int))

/-- Σ z^(2k+1)/(2k+1): the area tangent of `z`, |z| ≤ 1/3. `p` is the running power, `k` the odd index. -/
def atanhAux (z2 : Int) : Nat → Nat → Int → Int → Int
  | 0, _, _, acc => acc
  | f + 1, k, p, acc => atanhAux z2 f (k + 2) (fxMul p z2) (acc + p / (k : Int))
/-- The area tangent in fixed point. -/
def fxAtanh (z : Int) : Int := atanhAux (fxMul z z) 210 1 z 0
/-- ln 2 in fixed point. -/
def fxLn2 : Int := 2 * fxAtanh (fxOne / 3)
/-- ln of a mantissa in [1, 2), in fixed point. -/
def fxLnMant (m : Int) : Int := 2 * fxAtanh (fxDiv (m - fxOne) (m + fxOne))
/-- ln of a positive finite number, in fixed point. -/
def fxLn (m : Nat) (e : Int) : Int :=
  let l := m.log2
  let mant : Int := (m : Int) * 2 ^ (fixP - l)
  fxLnMant mant + (e + l) * fxLn2
/-- Σ r^k/k! in fixed point. -/
def expAux (r : Int) : Nat → Nat → Int → Int → Int
  | 0, _, _, acc => acc
  | f + 1, k, t, acc => expAux r f (k + 1) (fxMul t r / (k : Int)) (acc + t)
/-- e^y of a fixed-point argument as an exact-looking number: fixed-point mantissa and a power of two. -/
def fxExp (y : Int) : XNum :=
  let k := y / fxLn2
  let r := y - k * fxLn2
  .fin false (expAux r 140 1 fxOne 0).toNat (k - fixP)
/-- 2^y of a fixed-point argument; exact where `y` is an integer. -/
def fxExp2 (y : Int) : XNum :=
  let k := y / fxOne
  let r := fxMul (y - k * fxOne) fxLn2
  .fin false (expAux r 140 1 fxOne 0).toNat (k - fixP)

/-- A magnitude past which exp of an FP32 number overflows or rounds to zero, whatever its bits. -/
def expBig : XNum := .fin false 1 9

/-- The value that overflows every FP32 cast. -/
def hugeNum : XNum := .fin false 1 600
/-- A positive value that rounds to +0 in FP32. -/
def tinyNum : XNum := .fin false 1 (-600)

/-- exp (R64, R65). -/
def vExp (a : XNum) : XNum × NumFlags :=
  match a with
  | .nan => (.nan, fNone)
  | .inf n => (if n then XNum.zero else .inf false, fNone)
  | .fin n m e =>
    if m = 0 then (XNum.one, fNone)
    else if expBig.ltN (XNum.fin n m e).abs then rneFp32 (if n then tinyNum else hugeNum)
    else rneFp32 (fxExp (fxOf (.fin n m e)))
/-- exp2 (R64, R65). -/
def vExp2 (a : XNum) : XNum × NumFlags :=
  match a with
  | .nan => (.nan, fNone)
  | .inf n => (if n then XNum.zero else .inf false, fNone)
  | .fin n m e =>
    if m = 0 then (XNum.one, fNone)
    else if expBig.ltN (XNum.fin n m e).abs then rneFp32 (if n then tinyNum else hugeNum)
    else rneFp32 (fxExp2 (fxOf (.fin n m e)))
/-- Natural log (R64, R65). -/
def vLn (a : XNum) : XNum × NumFlags :=
  match a with
  | .nan => (.nan, fNone)
  | .inf n => if n then (.nan, fNV) else (.inf false, fNone)
  | .fin n m e =>
    if m = 0 then (.inf true, fNone)
    else if n then (.nan, fNV)
    else rneFp32 (fxNum (fxLn m e))
/-- log2 (R64, R65); exact at powers of two. -/
def vLog2 (a : XNum) : XNum × NumFlags :=
  match a with
  | .nan => (.nan, fNone)
  | .inf n => if n then (.nan, fNV) else (.inf false, fNone)
  | .fin n m e =>
    if m = 0 then (.inf true, fNone)
    else if n then (.nan, fNV)
    else
      let l := m.log2
      let mant : Int := (m : Int) * 2 ^ (fixP - l)
      rneFp32 (fxNum (fxDiv (fxLnMant mant) fxLn2 + (e + l) * fxOne))

/-- 1/(1 + e^−y) of a fixed-point `y` of any sign, as a number with ample relative precision. -/
def sigmoidNum (x : XNum) : XNum :=
  let ex := fxExp (fxOf x.abs.neg)          -- e^−|x|, in (0, 1]
  let one1 := XNum.addFin XNum.one ex          -- 1 + e^−|x|
  match (if x.sign then ex else XNum.one), one1 with
  | .fin _ m e, .fin _ m' e' => .fin false (m * 2 ^ (fixP + m'.log2) / m') (e - e' - (fixP + m'.log2 : Nat))
  | _, _ => XNum.zero
/-- sigmoid (R64, R65). -/
def vSigmoid (a : XNum) : XNum × NumFlags :=
  match a with
  | .nan => (.nan, fNone)
  | .inf n => (if n then XNum.zero else XNum.one, fNone)
  | .fin n m e =>
    if expBig.ltN (XNum.fin n m e).abs then rneFp32 (if n then tinyNum else XNum.one)
    else rneFp32 (sigmoidNum (.fin n m e))
/-- SiLU(x) = x·sigmoid(x) (R64, R65). -/
def vSilu (a : XNum) : XNum × NumFlags :=
  match a with
  | .nan => (.nan, fNone)
  | .inf n => (if n then .fin true 0 0 else .inf false, fNone)
  | .fin n m e =>
    if m = 0 then (.fin n 0 0, fNone)
    else if expBig.ltN (XNum.fin n m e).abs then rneFp32 (if n then tinyNum.neg else .fin n m e)
    else rneFp32 ((XNum.fin n m e).mulX (sigmoidNum (.fin n m e))).1
/-- tanh (R64, R65): odd, (1 − t)/(1 + t) with t = e^−2|x|. A magnitude below 2^−60 is its own tanh after rounding. -/
def vTanh (a : XNum) : XNum × NumFlags :=
  match a with
  | .nan => (.nan, fNone)
  | .inf n => (.fin n 1 0, fNone)
  | .fin n m e =>
    let x := XNum.fin false m e
    if m = 0 then (.fin n 0 0, fNone)
    else if x.ltN (.fin false 1 (-60)) then rneFp32 (.fin n m e)
    else if (XNum.fin false 1 6).ltN x then (.fin n 1 0, fNone)
    else
      match fxExp (fxOf (x.scale 1).neg) with
      | .fin _ mt et =>
        let t := fxOf (.fin false mt et)
        rneFp32 (.fin n (fxDiv (fxOne - t) (fxOne + t)).toNat (-(fixP : Int)))
      | _ => (XNum.zero, fNone)

/-- Σ x^(2k+1)/(1·3·…·(2k+1)), the series of the normal distribution function. -/
def phiAux (x2 : Int) : Nat → Nat → Int → Int → Int
  | 0, _, _, acc => acc
  | f + 1, k, t, acc => phiAux x2 f (k + 2) (fxMul t x2 / ((k + 2 : Nat) : Int)) (acc + t)
/-- π in fixed point, by Machin: 16·atan(1/5) − 4·atan(1/239). -/
def atanInvAux (n2 : Nat) : Nat → Nat → Int → Int → Int
  | 0, _, _, acc => acc
  | f + 1, k, p, acc => atanInvAux n2 f (k + 2) (-(p / (n2 : Int))) (acc + p / (k : Int))
/-- π in fixed point. -/
def fxPi : Int := 16 * atanInvAux 25 300 1 (fxOne / 5) 0 - 4 * atanInvAux (239 * 239) 300 1 (fxOne / 239) 0
/-- √(2π) in fixed point. -/
def fxSqrt2Pi : Int := (isqrt ((2 * fxPi).toNat * 2 ^ fixP) : Nat)
/-- Φ(x), the standard normal distribution function, of a number of magnitude at most 16, in fixed point. -/
def fxPhi (x : XNum) : Int :=
  let v := fxOf x.abs
  let v2 := fxMul v v
  let s := phiAux v2 1200 1 v 0
  match fxExp (-(v2 / 2)) with
  | .fin _ m e =>
    let d := fxDiv (fxMul (fxOf (.fin false m e)) s) fxSqrt2Pi
    if x.sign then fxOne / 2 - d else fxOne / 2 + d
  | _ => 0
/-- GELU(x) = x·Φ(x) (R64, R65). -/
def vGelu (a : XNum) : XNum × NumFlags :=
  match a with
  | .nan => (.nan, fNone)
  | .inf n => (if n then .fin true 0 0 else .inf false, fNone)
  | .fin n m e =>
    if m = 0 then (.fin n 0 0, fNone)
    else if (XNum.fin false 1 4).ltN (XNum.fin n m e).abs then rneFp32 (if n then tinyNum.neg else .fin n m e)
    else rneFp32 ((XNum.fin n m e).mulX (fxNum (fxPhi (.fin n m e)))).1

/-! ### Reductions in the fixed order of R66. -/

/-- The elements of lane `i` of 512: every 512th element from `i`. -/
def laneElems (xs : List XNum) (i : Nat) : List XNum :=
  (List.range ((xs.length + 511 - i) / 512)).filterMap (fun k => xs[i + 512 * k]?)
/-- One lane's result, absent where the lane receives no element. -/
def laneFold (f : XNum → XNum → XNum × NumFlags) : List XNum → Option (XNum × NumFlags)
  | [] => none
  | x :: xs => some (xs.foldl (fun a y => let r := f a.1 y; (r.1, a.2 ||| r.2)) (x, fNone))
/-- One level of the pairwise tree: a lone operand passes up unchanged. -/
def treeLevel (f : XNum → XNum → XNum × NumFlags) :
    List (Option (XNum × NumFlags)) → List (Option (XNum × NumFlags))
  | a :: b :: rest =>
    (match a, b with
     | some x, some y => let r := f x.1 y.1; some (r.1, x.2 ||| y.2 ||| r.2)
     | some x, none => some x
     | none, y => y) :: treeLevel f rest
  | l => l
/-- Nine levels of the tree. -/
def treeLevels (f : XNum → XNum → XNum × NumFlags) :
    Nat → List (Option (XNum × NumFlags)) → List (Option (XNum × NumFlags))
  | 0, l => l
  | k + 1, l => treeLevels f k (treeLevel f l)
/-- A reduction over elements in their order, with its identity for none (R66). -/
def vReduce (f : XNum → XNum → XNum × NumFlags) (idn : XNum) (xs : List XNum) : XNum × NumFlags :=
  match (treeLevels f 9 ((List.range 512).map (fun i => laneFold f (laneElems xs i)))).head? with
  | some (some r) => r
  | _ => (idn, fNone)
/-- Sum of a list in the fixed order (R66). -/
def vSum (xs : List XNum) : XNum × NumFlags := vReduce vAdd XNum.zero xs
/-- Maximum of a list (R66). -/
def vMax (xs : List XNum) : XNum × NumFlags := vReduce (fun a b => (a.maximum b, fNone)) (.inf true) xs
/-- Minimum of a list (R66). -/
def vMin (xs : List XNum) : XNum × NumFlags := vReduce (fun a b => (a.minimum b, fNone)) (.inf false) xs

/-- Fold flags over results. -/
def orFlags (l : List NumFlags) : NumFlags := l.foldl (fun a b => a ||| b) fNone

end Sys2Proof.Machine
end

