-- ==== Sys2Proof/Machine/Engines.lean ====
section
/-! DEFINITION. Products and accumulation of the Ox and Colt engines: R48 to R54 and R63. -/
namespace Sys2Proof.Machine

/-- The operand of an engine: its format, the k-th element's code and its block's scale byte. -/
structure EngElem where
  num : XNum        -- the element's own value, before any block scale
  scale : Int      -- the unbiased block exponent, −6 included for MXINT8; 0 for a plain operand
deriving DecidableEq, Repr

/-- An engine's operand element from its codes (R48): NaN where the block is marked. -/
def engElem (f : Fmt) (sc c : Nat) : EngElem :=
  if f.isMx then
    (if sc = 0xFF then ⟨.nan, 0⟩
     else ⟨(match f with | .mxint8 => intDecode 8 c | g => g.elem c), (sc : Int) - 127 + (if f = .mxint8 then -6 else 0)⟩)
  else ⟨f.elem c, 0⟩

/-- The kind of accumulation an operand pair takes, none where R63 does not list it. -/
inductive AccKind where
  | group     -- R48: exact groups of 32 into FP32
  | fused     -- R49: one product at a time into FP32
  | int       -- R50: groups of 32 into INT32
deriving DecidableEq, Repr

/-- Class of an operand format for R63. -/
def opClass : Fmt → Nat
  | .fp .e4m3 => 1 | .fp .e5m2 => 1 | .mx .e4m3 => 1 | .mx .e5m2 => 1
  | .fp .e2m1 => 2 | .mx .e2m1 => 2
  | .int8 => 3 | .mxint8 => 4
  | .fp .bf16 => 5 | .fp .fp16 => 6
  | _ => 0

/-- The table of R63. -/
def accKind (a b : Fmt) : Option AccKind :=
  match opClass a, opClass b with
  | 1, 1 => some .group | 1, 2 => some .group | 2, 1 => some .group | 2, 2 => some .group
  | 3, 3 => some .int | 3, 4 => some .group | 4, 3 => some .group | 4, 4 => some .group
  | 5, 5 => some .fused | 6, 6 => some .fused
  | _, _ => none

/-- The exact sum of products of one group (R48, R51), and whether a NaN was made of operands that were not NaN: an infinity times
zero, or infinities of both signs where no product is NaN (log entry 56). -/
def groupSum (l : List (XNum × XNum)) : XNum × Bool :=
  match l.map (fun p => p.1.mulX p.2) with
  | [] => (XNum.zero, false)
  | x :: xs =>
    let ps := x :: xs
    (xs.foldl (fun a y => (a.addX y.1).1) x.1,
     ps.any (·.2) || (ps.all (fun p => !p.1.isNan) && ps.any (fun p => p.1 == .inf true) && ps.any (fun p => p.1 == .inf false)))

/-- `acc + s` rounded once to FP32 (R48, R51). -/
def accAdd (acc s : XNum) : XNum × NumFlags :=
  let t := acc.addX s
  let r := rneFp32 t.1
  (r.1, r.2 ||| (if t.2 then fNV else fNone))

/-- One group of R48. -/
def groupStep (acc : XNum) (l : List (EngElem × EngElem)) : XNum × NumFlags :=
  match l with
  | [] => (acc, fNone)
  | (a, b) :: _ =>
    let s := groupSum (l.map (fun p => (p.1.num, p.2.num)))
    let r := accAdd acc (s.1.scale (a.scale + b.scale))
    (r.1, r.2 ||| (if s.2 then fNV else fNone))

/-- A list in pieces of 32 consecutive elements. -/
def groups32 {α : Type} (l : List α) : List (List α) :=
  (List.range ((l.length + 31) / 32)).map (fun g => (l.drop (32 * g)).take 32)

/-- `sat32` of R50, and whether it saturated. -/
def sat32 (v : Int) : Int × Bool :=
  if 2 ^ 31 - 1 < v then (2 ^ 31 - 1, true) else if v < -(2 ^ 31) then (-(2 ^ 31), true) else (v, false)

/-- One output element: the accumulator's start value and the products along k (R48, R49, R50). The INT32 accumulator is
an integer number. -/
def accumulate (k : AccKind) (start : XNum) (l : List (EngElem × EngElem)) : XNum × NumFlags :=
  match k with
  | .group => (groups32 l).foldl (fun a g => let r := groupStep a.1 g; (r.1, a.2 ||| r.2)) (start, fNone)
  | .fused =>
    l.foldl (fun a p => let m := p.1.num.mulX p.2.num; let r := accAdd a.1 m.1
                        (r.1, a.2 ||| r.2 ||| (if m.2 then fNV else fNone))) (start, fNone)
  | .int =>
    (groups32 l).foldl (fun a g =>
      let s := (g.map (fun p => p.1.num.toIntAt 0 * p.2.num.toIntAt 0)).sum
      let t := sat32 (a.1.toIntAt 0 + s)
      (XNum.ofInt t.1, a.2 ||| (if t.2 then fSAT else fNone))) (start, fNone)

/-- The drain's multiply (R54): an INT32 accumulator is first converted to FP32 with RNE. -/
def drainMul (k : AccKind) (m acc : XNum) : XNum × NumFlags :=
  let a := if k = .int then (rneFp32 acc).1 else acc
  let p := a.mulX m
  let r := rneFp32 p.1
  (r.1, r.2 ||| (if p.2 then fNV else fNone))

/-- FP32 number of a 32-bit code. -/
def f32 (w : Word32) : XNum := FpFmt.decode .fp32 w.toNat
/-- FP32 code of a number already rounded to FP32. -/
def f32Code (x : XNum) : Nat := (castFp .fp32 .rne false x).1

end Sys2Proof.Machine
end

