-- ==== Sys2Proof/Machine/Router.lean ====
section
/-! DEFINITION. Chapter 07: package number, domain shape, and the routing of messages (R217 to R225, R244). -/
namespace Sys2Proof.Machine
open Sys2Proof

/-- Page of a port: hall 0–31, reach 32–35 (R213, R215). -/
def portPage (p : Nat) : Nat := if p < 32 then 0x100 + p else 0x120 + (p - 32)
/-- A register of a port's page; both kinds have one layout (R215). -/
def preg (p off : Nat) : Nat := 4096 * portPage p + off
/-- The two FBD pages. -/
def fbdPages : List Nat := [0xF0, 0xF1]

/-- Width of a digit (R220). -/
def shapeW (v : Word32) (d : Nat) : Nat := fld v (3 * d + 2) (3 * d)
/-- Radix of a digit. -/
def shapeR (v : Word32) (d : Nat) : Nat := fld v (16 + 5 * d) (12 + 5 * d) + 1
/-- Lowest bit of a digit. -/
def shapeLo (v : Word32) (d : Nat) : Nat := ((List.range d).map (shapeW v)).sum
/-- Digit `d` of a package number. -/
def digit (v : Word32) (d pkg : Nat) : Nat := pkg / 2 ^ shapeLo v d % 2 ^ shapeW v d
/-- Is a shape accepted (R220)? -/
def shapeOk (v : Word32) : Bool :=
  (List.range 4).all (fun d => shapeW v d ≤ 5 && shapeR v d ≤ 2 ^ shapeW v d) &&
  shapeLo v 4 ≤ 12 && ((List.range 4).map (fun d => shapeR v d - 1)).sum ≤ 32
/-- Is a package number in the domain (R220)? -/
def inDomain (v : Word32) (pkg : Nat) : Bool :=
  pkg < 2 ^ shapeLo v 4 && (List.range 4).all (fun d => digit v d pkg < shapeR v d)

namespace State

/-- This package's number. -/
def pkg (s : State) : Nat := s.rdF R.FBD_PKG_ID 11 0
/-- This package's domain. -/
def domain (s : State) : Nat := s.rdF R.FBD_PKG_ID 14 12
/-- VALID of FBD_PKG_ID. -/
def pkgValid (s : State) : Bool := s.rdB R.FBD_PKG_ID 31
/-- SRC of a message of this package (R191). -/
def srcField (s : State) : Nat := s.pkg + 4096 * s.domain
/-- Has the SEM released the fabric (R210)? -/
def released (s : State) : Bool := s.rdB R.SEM_STAT 25

/-- A port. -/
def port (s : State) (p : Nat) : Port := Map.get s.ports Port.none p
/-- Set a port. -/
def portSet (s : State) (p : Nat) (v : Port) : State := { s with ports := Map.set s.ports p v }
/-- STATE of a port (R214). -/
def portState (s : State) (p : Nat) : Nat := s.rdF (preg p 0x104) 31 28
/-- Is a port live: ACTIVE or LPI (R222)? -/
def portLive (s : State) (p : Nat) : Bool := s.portState p == 5 || s.portState p == 7
/-- Hall ports listed for a digit of a dimension (R221). -/
def nbrPorts (s : State) (d c : Nat) : Word32 := Map.get s.nbr 0 (32 * d + c)
/-- Live ports listed for a digit, ascending. -/
def livePorts (s : State) (d c : Nat) : List Nat :=
  (List.range 32).filter (fun p => bit (s.nbrPorts d c) p && s.portLive p)

/-- Send a message of this package: it stands at the router (R222). -/
def send (s : State) (m : Msg) : State :=
  { s with router := Map.set s.router (Map.nextKey s.router) ⟨m, 99, s.ft, false, 0, 0⟩ }
/-- A message of this package to a package of its domain, with the units of its data that carry the poison marker (R472). -/
def sendMarked (s : State) (pkg cls vc own : Nat) (body : List Byte) (marks : List Nat) : State :=
  s.send ⟨pkg + 4096 * s.domain, s.srcField, 0, cls, vc, own, body, false, marks⟩
/-- A message with nothing poisoned. -/
def sendTo (s : State) (pkg cls vc own : Nat) (body : List Byte) : State := s.sendMarked pkg cls vc own body []

/-- Tell every peer of a dimension which digits this package has live ports to (R223). The layout of the notice is not
given: its body here is dimension, then the live ports (log entry 22). -/
def sendNotices (s : State) (d : Nat) : State :=
  let v := s.rd R.FBD_SHAPE
  let own := digit v d s.pkg
  let live := ((List.range 32).filter s.portLive).foldl (fun a p => a + 2 ^ p) 0
  ((List.range (shapeR v d)).filter (fun c => c != own && s.nbrPorts d c != 0)).foldl (fun u c =>
    u.sendTo (s.pkg - own * 2 ^ shapeLo v d + c * 2 ^ shapeLo v d) 0x1C 0 0x7F (leBytes 8 d ++ leBytes 4 live)) s

/-- A port changes STATE (R209, R216, R223, R248): LINK_DOWN on leaving ACTIVE, LINK_UP on reaching it (log entry 74), and notices where the
set of live ports changes. -/
def portTo (s : State) (p st : Nat) : State :=
  let was := s.portLive p
  let on := s.portState p
  let t := s.wrF (preg p 0x104) 31 28 st
  let now := t.portLive p
  let t := if on = 5 ∧ st ≠ 5 then t.raise (portPage p) 0 else if on ≠ 5 ∧ st = 5 then t.raise (portPage p) 1 else t
  if was != now && p < 32 then
    (List.range 4).foldl (fun u d =>
      let cs := (List.range 32).filter (fun c => bit (u.nbrPorts d c) p)
      let u := if cs.any (fun c => (u.livePorts d c).isEmpty) then u.raiseAll fbdPages 1 else u
      if cs.isEmpty then u else u.sendNotices d) t
  else t

end State

/-- Where a message goes next (R222 to R224, R244). -/
inductive Route where
  | here
  | port (p vc : Nat)
  | detour (p vc : Nat)
  | wait
  | noRoute
  | transit
deriving DecidableEq, Repr

namespace State

/-- Is a message marked for its second route phase, as it is when it takes a detour (R223, R229)? -/
def ph2 (m : Msg) : Bool := 0x10 ≤ m.cls && m.cls ≤ 0x1B && bit (m.body.getD 3 0) 0
/-- The VC a message travels on from here: RSP2 or REQ2 in the second route phase (R195, R223). -/
def phaseVc (m : Msg) : Nat := if (m.vc = 2 ∨ m.vc = 3) ∧ ph2 m then m.vc + 3 else m.vc
/-- Mark a message for its second route phase. -/
def setPh2 (m : Msg) : Msg := { m with body := m.body.set 3 (m.body.getD 3 0 ||| 1) }
/-- The `k`-th live port for a message (R222). -/
def pickPort (ps : List Nat) (m : Msg) : Nat := ps.getD ((m.src * 4099 + m.dest) % ps.length) 0

/-- The next hop towards package `to_` of this domain (R222 to R224). -/
def hop (s : State) (to_ : Nat) (m : Msg) : Route :=
  let v := s.rd R.FBD_SHAPE
  match (List.range 4).find? (fun d => digit v d s.pkg != digit v d to_) with
  | none => .here
  | some d =>
    let want := digit v d to_
    let ps := s.livePorts d want
    let vc := phaseVc m
    if !ps.isEmpty then .port (pickPort ps m) vc
    else if vc = 2 ∨ vc = 3 then
      match (List.range (shapeR v d)).find? (fun c =>
          c != digit v d s.pkg && c != want && !(s.livePorts d c).isEmpty &&
          !(Map.get s.notices [] (32 * d + c)).contains want) with
      | some c => .detour (pickPort (s.livePorts d c) m) vc
      | none => .wait
    else .wait

/-- The route of a message that came by port `inp` (R222, R244). -/
def route (s : State) (inp : Nat) (m : Msg) : Route :=
  let dom := m.dest / 4096 % 8
  let to_ := m.dest % 4096
  if dom = s.domain then (if to_ = s.pkg then .here else s.hop to_ m)
  else if 32 ≤ inp ∧ inp < 36 then .transit
  else
    match ([32, 33, 34, 35] : List Nat).find? (fun p => s.portState p == 5 &&
        s.rdB (preg p 0x11C) 31 && s.rdF (preg p 0x11C) 22 20 == dom) with
    | some p => .port p m.vc
    | none =>
      let r := Map.get s.xdom 0 dom
      if !bit r 31 then .noRoute
      else if fld r 11 0 = s.pkg then
        (let p := 32 + fld r 17 16; if s.portState p == 5 then .port p m.vc else .wait)
      else s.hop (fld r 11 0) m

/-- Payload bytes of a message in a flit (R188). -/
def flitRoom (s : State) (p : Nat) : Nat := if (s.port p).encOn then 216 else 240
/-- Flits of a message on a port. -/
def msgFlits (s : State) (p : Nat) (m : Msg) : Nat := (8 + m.body.length + s.flitRoom p - 1) / s.flitRoom p
/-- The bytes of a message of `n` flits (R191). -/
def headed (m : Msg) (n : Nat) : List Byte :=
  leBytes 2 m.dest ++ leBytes 2 m.src ++ leBytes 2 (n - 1) ++ leBytes 1 m.hops ++ leBytes 1 m.cls ++ m.body
/-- The bytes of a message on a port (R191). -/
def msgBytes (s : State) (p : Nat) (m : Msg) : List Byte := headed m (s.msgFlits p m)
/-- The FBD a port sits on (R177). -/
def fbdOf (p : Nat) : Nat := if p < 16 ∨ p = 32 ∨ p = 33 then 0 else 1
/-- Flits of a VC that stand in a port's receive buffer, with their credits on the way back and those withheld (R198, R201). -/
def bufHeld (s : State) (p v : Nat) : Nat :=
  ((s.router.filter (fun r => r.2.inPort == p && r.2.m.vc == v)).map (fun r => r.2.flits)).sum +
    Map.get (s.port p).owed 0 v + Map.get (s.port p).kept 0 v
/-- `n` flits of a VC leave a port's buffer: their credits go back (R198), but for those of a half that leaves, as far as the VC holds more
than its dedicated part (R201; log entry 71). -/
def unbuffer (s : State) (p v n : Nat) : State :=
  if p < 36 then
    let o := s.port p
    let k := if s.bufHeld p v + n ≤ o.ded.getD v 0 then 0 else min n o.leaving
    s.portSet p { o with leaving := o.leaving - k, kept := Map.put o.kept 0 v (Map.get o.kept 0 v + k), owed := Map.put o.owed 0 v (Map.get o.owed 0 v + (n - k)) }
  else s
/-- A message leaves the router, and its flits the buffer. -/
def dropRouted (s : State) (n : Nat) : State :=
  match Map.get? s.router n with
  | some r => ({ s with router := Map.erase s.router n } : State).unbuffer r.inPort r.m.vc r.flits
  | none => s
/-- Flits of a message on a port where they are not yet all here: as its header says, in flits of this port (R191; log entry 70). -/
def flitsAhead (s : State) (p : Nat) (r : RMsg) : Nat :=
  if r.more then (r.nflit * s.flitRoom r.inPort + s.flitRoom p - 1) / s.flitRoom p else s.msgFlits p r.m
/-- A message joins a port's transmit queue (R196), the flits still to come following it there (R191). -/
def queueOn (s : State) (n p vc : Nat) (r : RMsg) (m : Msg) : State :=
  let m := { m with vc := vc, hops := m.hops + 1 }
  let bs := headed m (s.flitsAhead p r)
  (s.dropRouted n).portSet p { (s.dropRouted n).port p with
    txQ := ((s.dropRouted n).port p).txQ ++ [⟨m.dest, m.cls, vc, m.own, bs, false, m.abt, bs.take 0x18, if r.more then some (r.inPort, r.m.vc) else none⟩] }
/-- Is a CLASS listed (R228)? -/
def listedClass (c : Nat) : Bool := (0x10 ≤ c && c ≤ 0x1C) || (0x20 ≤ c && c ≤ 0x48)

end State

/-- SHAPE_WRITE (R218, R220): a shape that keeps the rules, while VALID = 0; otherwise ignored, setting SHAPE_ERR. -/
def execShapeWrite (v : Word32) (s : State) : Out := keepQueue s <|
  if s.pkgValid || !shapeOk v then .next ((s.ignoredWrite R.FBD_SHAPE).setBits R.FBD_ERR 2)
  else .next (s.plainWrite R.FBD_SHAPE v)

/-- MESSAGE_FORWARD (R191, R222 to R224, R228, R244): message `n` at the router takes its route, is delivered here, is discarded,
or waits. It does not wait for its last flit (R191). -/
def execMessageForward (n : Nat) (s : State) : Out := keepQueue s <|
  match Map.get? s.router n with
  | none => .next s
  | some r =>
    if r.inPort < 36 ∧ (15 ≤ r.m.hops ∨ State.listedClass r.m.cls = false) then .next ((s.dropRouted n).bump (preg r.inPort 0x168))
    else match s.route r.inPort r.m with
      | .here => .next (s.dropRouted n)
      | .port p vc => .next (s.queueOn n p vc r r.m)
      | .detour p vc => .next ((s.queueOn n p vc r (State.setPh2 r.m)).bump R.FBD_DETOUR_CNT)
      | .wait => .next s
      | .noRoute => .next (((s.dropRouted n).bump R.FBD_NOROUTE_CNT).raiseAll fbdPages 2)
      | .transit => .next ((s.dropRouted n).bump R.FBD_XDOM_DROP_CNT)

/-- ROUTE_WAIT_TIMEOUT (R224): a message that has waited FBD_ROUTE_WAIT is discarded whole and counted. -/
def execRouteWaitTimeout (n : Nat) (s : State) : Out := keepQueue s <|
  match Map.get? s.router n with
  | none => .next s
  | some r =>
    if s.route r.inPort r.m = .wait ∧ r.since.toNat + s.rdF R.FBD_ROUTE_WAIT 9 0 * 4000000 ≤ s.ft.toNat then
      .next ((s.dropRouted n).bump R.FBD_ROUTE_DROP_CNT)
    else .next s

/-- ROUTE_NOTICE (R223): the neighbour with digit `c` in dimension `d` reports the digits it has lost every port to. -/
def execRouteNotice (d c : Nat) (lost : List Nat) (s : State) : Out := keepQueue s <|
  if d < 4 ∧ c < 32 then .next { s with notices := Map.put s.notices [] (32 * d + c) lost } else .next s

end Sys2Proof.Machine
end

