-- ==== Sys2Proof/Machine/Flows.lean ====
section
/-! DEFINITION. Chapter 07: the sending side of the end-to-end transport, and accesses forwarded to the holder of an AWAY
tile (R226 to R229, R233, R236, R239). -/
namespace Sys2Proof.Machine
open Sys2Proof

/-- Bytes 0x08 and up of a remote request (R229). -/
def remBody (m : RemMsg) : List Byte :=
  leBytes 3 m.eseq ++ [m.flags] ++ leBytes 4 0 ++ leBytes 8 m.addr.toNat ++ leBytes 4 m.len ++ leBytes 1 m.aop ++ leBytes 3 0 ++
  leBytes 4 m.seq.toNat ++ leBytes 1 m.ring ++ leBytes 3 0 ++ leBytes 8 m.op0.toNat ++ leBytes 8 m.op1.toNat ++ leBytes 8 0 ++
  m.data

/-- Bytes 0x08 and up of a response to a request (R229): FWD and DUP as the request's, PH2 its own, clear until it takes a detour
(log entry 22). -/
def rspBody (q : RemMsg) (code detail : Nat) (old : Word64) (data : List Byte) : List Byte :=
  leBytes 3 q.eseq ++ [q.flags &&& 0xFE] ++ leBytes 4 0 ++ leBytes 8 (code + 256 * detail) ++ leBytes 4 data.length ++ leBytes 4 0 ++
  leBytes 4 q.seq.toNat ++ leBytes 1 q.ring ++ leBytes 3 0 ++ leBytes 8 old.toNat ++ leBytes 16 0 ++ data

/-- Is a request made for operator `h`? -/
def ReqFor.isOp (w : ReqFor) (h : Nat) : Bool :=
  match w with
  | .op k _ => k == h
  | .held x => x.op == some h
  | _ => false

namespace State

/-- The flow to a package (R233). -/
def flow (s : State) (p : Nat) : FlowOut := Map.get s.flowOut FlowOut.none p
/-- Set a flow. -/
def flowSet (s : State) (p : Nat) (f : FlowOut) : State := { s with flowOut := Map.put s.flowOut FlowOut.none p f }
/-- Requests outstanding in all (R227). -/
def reqsOut (s : State) : Nat := (s.flowOut.map (fun p => p.2.reqs.length)).sum
/-- Requests outstanding for an operator (R227). -/
def reqsOfOp (s : State) (h : Nat) : Nat :=
  (s.flowOut.map (fun p => (p.2.reqs.filter (fun r => r.why.isOp h)).length)).sum
/-- Does an operator wait for answers, or have requests still to issue? -/
def remOf (s : State) (h : Nat) : Bool :=
  (Map.get? s.remTodo h).isSome || s.reqWait.any (fun r => r.why.isOp h) || s.flowOut.any (fun p => p.2.reqs.any (fun r => r.why.isOp h))

/-- Is a write of operator `h`, known by a token, on its way to the holder of its tile (R91, R239)? -/
def remWrites (s : State) (h fresh : Nat) : Bool :=
  let mine (w : ReqFor) : Bool := match w with | .held x => x.op == some h && x.fresh == fresh | _ => false
  s.reqWait.any (fun r => mine r.why) || s.flowOut.any (fun p => p.2.reqs.any (fun r => mine r.why))

/-- May another request go to a package: 65,536 outstanding in all, 4,096 on a flow (R227)? -/
def reqRoom (s : State) (p : Nat) : Bool := decide (s.reqsOut < 65536) && decide ((s.flow p).reqs.length < 4096)
/-- A request takes the next send ESEQ of its flow and is sent (R233). -/
def reqNow (s : State) (p cls own : Nat) (m : RemMsg) (src : Nat) (why : ReqFor) : State :=
  let f := s.flow p
  let m := { m with eseq := f.next }
  let s := s.flowSet p { f with next := (f.next + 1) % 2 ^ 24, reqs := f.reqs ++ [⟨f.next, cls, own, m, src, why, (match why with | .op h _ => s.op? h | _ => none), 0, s.ft⟩] }
  s.sendMarked p cls 3 own (remBody m) m.poison

/-- A request is sent, or waits while the limits of R227 hold it or one to its package before it. -/
def reqSend (s : State) (p cls own : Nat) (m : RemMsg) (src : Nat) (why : ReqFor) : State :=
  if s.reqRoom p && !s.reqWait.any (fun r => r.pkg == p) then s.reqNow p cls own m src why
  else { s with reqWait := s.reqWait ++ [⟨p, cls, own, m, src, why⟩] }
/-- Requests that wait go where the limits let them, in order. -/
def reqDrain (s : State) : State :=
  s.reqWait.foldl (fun u r => u.reqSend r.pkg r.cls r.own r.m r.src r.why) { s with reqWait := [] }

/-- A remote request with nothing set. -/
def remNone (addr : Nat) : RemMsg := ⟨0, 0, BitVec.ofNat 64 addr, 0, 0, 0, 0, 0, 0, [], []⟩

/-- The request an access to an AWAY tile becomes: FWD = 1, its own package's address (R229, R239). -/
def fwdMsg (s : State) (x : Access) : Nat × RemMsg :=
  let m := { remNone (s.globalAddr x.addr) with flags := 2 }
  match x.kind with
  | .read => (0x10, { m with len := x.len })
  | .write => (0x11, { m with len := x.data.length, data := x.data, poison := x.poison })
  | .atomic => (0x12, { m with aop := x.len, op0 := BitVec.ofNat 64 (leNat (x.data.take 8)), op1 := BitVec.ofNat 64 (leNat (x.data.drop 8)) })

/-- Forward an access to the holder of its tile (R239). -/
def forward (s : State) (x : Access) (holder : Nat) : State :=
  let r := s.fwdMsg x
  s.reqSend holder r.1 x.who r.2 x.addr (.held x)

/-- The receiving side of a flow (R233). -/
def inFlow (s : State) (p : Nat) : FlowIn := Map.get s.flowIn FlowIn.none p
/-- Set it. -/
def inFlowSet (s : State) (p : Nat) (f : FlowIn) : State := { s with flowIn := Map.put s.flowIn FlowIn.none p f }
/-- Answer a request of a flow, keeping the response for duplicates (R231, R234); `marks`: the 64-byte blocks of its data that
are poisoned. -/
def rspMarked (s : State) (p own : Nat) (q : RemMsg) (code detail : Nat) (old : Word64) (data : List Byte) (marks : List Nat) :
    State :=
  let m : Msg := ⟨p + 4096 * s.domain, s.srcField, 0, 0x1A, 2, own, rspBody q code detail old data, false, marks⟩
  let f := s.inFlow p
  (s.inFlowSet p { f with cache := (f.cache ++ [(⟨q.eseq, m⟩ : CachedRsp)]).drop (f.cache.length + 1 - 4096) }).send m
/-- A response with nothing poisoned. -/
def rspSend (s : State) (p own : Nat) (q : RemMsg) (code detail : Nat) (old : Word64) (data : List Byte) : State :=
  s.rspMarked p own q code detail old data []

/-- Issue an operator's requests, in ascending address order, while the limits of R227 allow. -/
def remIssueAux (h : Nat) : List RemTodo → State → State
  | [], s => { s with remTodo := Map.erase s.remTodo h }
  | r :: rs, s =>
    if s.reqsOfOp h < 64 ∧ s.reqRoom r.pkg = true ∧ s.reqWait.any (fun w => w.pkg == r.pkg) = false then
      remIssueAux h rs (s.reqSend r.pkg r.cls ((s.op? h).map (·.tenant) |>.getD 0) r.m r.src (.op h r.dst))
    else { s with remTodo := Map.set s.remTodo h (r :: rs) }
/-- Issue what an operator has left. -/
def remIssue (s : State) (h : Nat) : State :=
  match Map.get? s.remTodo h with
  | some l => remIssueAux h l s
  | none => s
/-- Issue for every operator that has requests left. -/
def remIssueAll (s : State) : State := (s.remTodo.map (·.1)).foldl remIssue s

end State
end Sys2Proof.Machine
end

