-- ==== Sys2Proof/Machine/Memory.lean ====
section
/-! DEFINITION. The unified range and the SRAM window: who may reach what, where a tile's home is, and what a read and a
write of it do (R141 to R171). -/
namespace Sys2Proof.Machine
open Sys2Proof

/-- One past the unified range (R141). -/
def uniEnd : Nat := 0x2000_0000_0000
/-- Start of the SRAM window (R72). -/
def sramBase : Nat := 0x4_0000_0000_0000
/-- Bytes of a tile (R71). -/
def tileBytes : Nat := 65536
/-- The owner number of the model key domain (R143). -/
def modelOwner : Nat := 0x40
/-- Who acts as the administrator with DIAG (R491). -/
def adminWho : Nat := 0x7F

/-- Is an offset of the SRAM window inside the used part of an aperture (R72)? -/
def sramValid (a : Nat) : Bool :=
  let w := a - sramBase
  sramBase ≤ a &&
  (if w < 0x2_0000_0000 then
     let e := w / 0x40_0000
     let o := w % 0x40_0000
     e < 1536 && o < (if e % 4 = 3 then 0x30_0000 else 0x18_0000)
   else if w < 0x3_0000_0000 then (w - 0x2_0000_0000) / 0x10_0000 < 384
   else let u := (w - 0x3_0000_0000) / 0x100_0000
        u < 64 && (w - 0x3_0000_0000) % 0x100_0000 < 0xD0_0000)

/-- The aperture of R72 an SRAM offset lies in. -/
def apertureOf (a : Nat) : Nat :=
  let w := a - sramBase
  if w < 0x2_0000_0000 then w / 0x40_0000
  else if w < 0x3_0000_0000 then 2048 + (w - 0x2_0000_0000) / 0x10_0000
  else 4096 + (w - 0x3_0000_0000) / 0x100_0000

/-- The new value an atomic writes, none where its OP is refused (R230). -/
def atomicNew (op size old a b : Nat) : Option Nat :=
  let w := 8 * size
  let m := 2 ^ w
  let x := old % m
  let y := a % m
  let sx := (BitVec.ofNat w x).toInt
  let sy := (BitVec.ofNat w y).toInt
  match op with
  | 0 => some ((x + y) % m)
  | 1 => if size = 4 then some (f32Code (accAdd (f32 (BitVec.ofNat 32 x)) (f32 (BitVec.ofNat 32 y))).1) else none
  | 2 => some (if sy < sx then y else x)
  | 3 => some (if sx < sy then y else x)
  | 4 => some (min x y)
  | 5 => some (max x y)
  | 6 => some (x &&& y)
  | 7 => some (x ||| y)
  | 8 => some (x ^^^ y)
  | 9 => some y
  | 10 => some (if x = b % m then y else x)
  | _ => none

/-- Operand size of an atomic access: `len` holds OP in bits 3:0 and SIZE8 in bit 4 (R226). -/
def atomicSize (x : Access) : Nat := if x.len / 16 % 2 = 1 then 8 else 4
/-- The bytes an access writes, where memory holds `old`: its data, or an atomic's result (R230). -/
def accBytes (x : Access) (old : List Byte) : List Byte :=
  match x.kind with
  | .atomic =>
    match atomicNew (x.len % 16) (atomicSize x) (leNat old) (leNat (x.data.take 8)) (leNat (x.data.drop 8)) with
    | some v => leBytes (atomicSize x) v
    | none => old
  | _ => x.data

/-- The local address of a slot address (R72). -/
def slotAddr (sl : Nat) : Nat := sramBase + sl * 65536

namespace State

/-- The tile home entry of a tile number (R149). -/
def tile (s : State) (n : Nat) : Tile := Map.get s.ms.tiles Tile.none n
/-- Set a tile home entry. -/
def tileSet (s : State) (n : Nat) (t : Tile) : State :=
  { s with ms := { s.ms with tiles := Map.put s.ms.tiles Tile.none n t } }
/-- The entry of region `r` (R143). -/
def rgn (s : State) (r : Nat) : Word32 := Map.get s.ms.rgn 0 r
/-- The region entry of a local address. -/
def rgnAt (s : State) (a : Nat) : Word32 := s.rgn (a / 2 ^ 32)
/-- Owner of a region entry. -/
def rgnOwner (v : Word32) : Nat := fld v 6 0
/-- TIER of a region entry: 0 automatic, 1 DRAM only, 2 flash only. -/
def rgnTier (v : Word32) : Nat := fld v 30 29
/-- Owner of a tile, by its region. -/
def tileOwner (s : State) (n : Nat) : Nat := rgnOwner (s.rgn (n / 65536))
/-- An owner's quotas (R147). -/
def owner (s : State) (o : Nat) : Owner := Map.get s.ms.own Owner.none o
/-- Set an owner's quotas. -/
def ownerSet (s : State) (o : Nat) (v : Owner) : State :=
  { s with ms := { s.ms with own := Map.put s.ms.own Owner.none o v } }
/-- Frames an owner holds (R173). -/
def dUsed (s : State) (o : Nat) : Nat := (s.ms.frames.filter (fun p => p.2.owner == o)).length
/-- Flash tiles an owner holds (R173). -/
def fUsed (s : State) (o : Nat) : Nat := (s.ms.ftiles.filter (fun p => s.tileOwner p.2 == o)).length
/-- Frames of the owner's DRAM quota still free (R156). -/
def dFree (s : State) (o : Nat) : Nat := (s.owner o).dQuota - s.dUsed o
/-- Flash tiles of the owner's quota still free. -/
def fFree (s : State) (o : Nat) : Nat := (s.owner o).fQuota - s.fUsed o

/-- Is the tenant's context ACTIVE (R436, R437)? -/
def tenantActive (s : State) (t : Nat) : Bool := (Map.get s.tenants Tenant.none t).st == 1
/-- The read grant of a tenant (R439). -/
def readGrant (s : State) (t : Nat) : Bool :=
  s.rdB (if t < 32 then R.SEM_MODEL_GRANT0 else R.SEM_MODEL_GRANT1) (t % 32)
/-- The turnover right of a tenant (R439). -/
def turnRight (s : State) (t : Nat) : Bool :=
  s.rdB (if t < 32 then R.SEM_TURN_RIGHT0 else R.SEM_TURN_RIGHT1) (t % 32)

/-- May `who` touch the unified range at `a`? None where it may; the CODE and DETAIL otherwise (R25, R143, R145, R437).
`who`: a tenant, 0x40 the device's own work in the model key domain, 0x7F the administrator with DIAG. -/
def deny (s : State) (who a : Nat) (wr : Bool) : Option (Nat × Nat) :=
  if uniEnd ≤ a then some (4, 1)
  else if s.semStops then some (0x0D, 0x12)
  else
    let v := s.rgnAt a
    if !bit v 31 then (if who = adminWho && !wr then none else some (4, 1))
    else
      let o := rgnOwner v
      if o = modelOwner then
        if who = modelOwner then none
        else if who = adminWho then (if wr && !bit v 23 then some (5, 0) else none)
        else if !s.tenantActive who then some (4, 1)
        else if bit v 23 then
          (if s.turnRight who then none else if !wr && s.readGrant who then none else some (4, 1))
        else if wr then (if s.readGrant who || s.turnRight who then some (5, 0) else some (4, 1))
        else (if s.readGrant who then none else some (4, 1))
      else if who = adminWho then none
      else if o = who && s.tenantActive who then none else some (4, 1)

/-! ### Frames and flash tiles -/

/-- Stack of a frame location. -/
def stackOf (loc : Nat) : Nat := loc / 2 ^ 24
/-- Is a stack live for new frames: not fenced, not evacuating (R160, R164)? -/
def stackLive (s : State) (k : Nat) : Bool := k < 12 && !s.ms.fenced.contains k && !s.ms.evacuating.contains k
/-- The lowest free unified frame of a stack, from `n` on. -/
def freeFrameAux (fr : Map Frame) (base : Nat) : Nat → Nat → Nat
  | 0, n => n
  | fuel + 1, n => if (Map.get? fr (base + n)).isSome then freeFrameAux fr base fuel (n + 1) else n
/-- The lowest free unified frame of stack `k` (R142, R150: frames 4,096–1,572,863). -/
def freeFrame (s : State) (k : Nat) : Option Nat :=
  let base := k * 2 ^ 24
  let n := freeFrameAux s.ms.frames base s.ms.frames.length 4096
  if n < 1572864 then some (base + n) else none
/-- Stacks in the order placement tries them (R160). -/
def placeOrder (place n : Nat) : List Nat :=
  let all := (List.range 12).map (fun i => (n + i) % 12)
  if 1 ≤ place ∧ place ≤ 6 then
    let even := 2 * (place - 1)
    (if n % 2 = 0 then [even, even + 1] else [even + 1, even]) ++ all
  else all
/-- The frame placement gives tile `n` in its region (R160). -/
def placeFrame (s : State) (n : Nat) : Option Nat :=
  ((placeOrder (fld (s.rgn (n / 65536)) 27 24) n).filter s.stackLive).findSome? s.freeFrame
/-- Channel of a flash tile (R166). -/
def chanOf (lt : Nat) : Nat := lt % 16
/-- The lowest free logical tile of channel `c`, counted within the channel from the `k`-th on (R166). -/
def freeOnChan (ft : Map Nat) (c : Nat) : Nat → Nat → Nat
  | 0, k => k
  | fuel + 1, k => if (Map.get? ft (16 * k + c)).isSome then freeOnChan ft c fuel (k + 1) else k
/-- A free logical flash tile for an owner: ascending within a channel, round-robin across the live channels (R166). -/
def freeFlash (s : State) (o : Nat) : Option Nat :=
  let c0 := Map.get s.ms.turnChan 0 o
  ((List.range 16).map (fun i => (c0 + i) % 16)).findSome? (fun c =>
    let k := freeOnChan s.ms.ftiles c s.ms.ftiles.length 0
    if s.ms.chanFail.contains c || 2 ^ 24 ≤ k then none else some (16 * k + c))

/-- Frames held by anything. -/
def framesSet (s : State) (f : Map Frame) : State := { s with ms := { s.ms with frames := f } }
/-- Take a frame. -/
def takeFrame (s : State) (loc : Nat) (u : FrameUse) (o : Nat) : State :=
  s.framesSet (Map.set s.ms.frames loc ⟨u, o, true, false⟩)
/-- Free a frame. -/
def freeFrameAt (s : State) (loc : Nat) : State := s.framesSet (Map.erase s.ms.frames loc)
/-- Take a flash tile: its owner's next is sought on the channel after it (R166). -/
def takeFlash (s : State) (lt n : Nat) : State :=
  { s with ms := { s.ms with ftiles := Map.set s.ms.ftiles lt n
                             turnChan := Map.put s.ms.turnChan 0 (s.tileOwner n) ((chanOf lt + 1) % 16) } }
/-- Free a flash tile: no page holds it any more. -/
def freeFlashAt (s : State) (lt : Nat) : State :=
  { s with ms := { s.ms with ftiles := Map.erase s.ms.ftiles lt, nand := s.ms.nand.filter (fun p => p.2 != lt) } }
/-- Pages of 64 KiB of a channel's flash package: 1,280 GiB (R142). -/
def nandPages : Nat := 20971520
/-- The first page of a channel, from `p` on, that holds no logical tile and is not retired. -/
def freePage (used : List Nat) (c : Nat) : Nat → Nat → Nat
  | 0, p => p
  | fuel + 1, p => if used.contains (c * nandPages + p) then freePage used c fuel ((p + 1) % nandPages) else p
/-- A logical tile's new contents go to a page of its channel that the FTL picks (log entry 64). -/
def placePage (s : State) (lt : Nat) : State :=
  let nand := s.ms.nand.filter (fun p => p.2 != lt)
  let used := nand.map (·.1) ++ s.ms.spent
  let p := freePage used (chanOf lt) used.length (s.free.toNat % nandPages)
  { s.used with ms := { s.ms with nand := Map.set nand (chanOf lt * nandPages + p) lt } }
/-- The page of a logical tile is retired with its block (R167). -/
def retirePage (s : State) (lt : Nat) : State :=
  let bad := (s.ms.nand.filter (fun p => p.2 == lt)).map (·.1)
  { s with ms := { s.ms with nand := s.ms.nand.filter (fun p => p.2 != lt), spent := s.ms.spent ++ bad } }

/-- Regions with a level-2 block (R149): those with an allocated tile. -/
def level2 (s : State) : List Nat := (s.ms.tiles.map (fun p => p.1 / 65536)).dedup
/-- Would allocating in this region pass the table limit (R149)? -/
def tableFull (s : State) (r : Nat) : Bool := !(s.level2.contains r) && 4608 ≤ s.level2.length

/-! ### Poison (R86, R171) -/

/-- Is the 64-byte unit of an address poisoned? -/
def poisoned (s : State) (a : Nat) : Bool := s.ms.poison.contains (a / 64)
/-- Is any unit of a range poisoned? -/
def anyPoison (s : State) (a n : Nat) : Bool := s.ms.poison.any (fun u => a / 64 ≤ u && u * 64 < a + n)
/-- Mark a unit poisoned. -/
def poisonAt (s : State) (u : Nat) : State :=
  let l := s.ms.poison.filter (fun x => x < u) ++ u :: s.ms.poison.filter (fun x => u < x)
  { s with ms := { s.ms with poison := l } }
/-- A write clears the poison of each unit it covers whole (R171). -/
def clearPoison (s : State) (a n : Nat) : State :=
  { s with ms := { s.ms with poison := s.ms.poison.filter (fun u => !(a ≤ u * 64 && u * 64 + 64 ≤ a + n)) } }
/-- Store bytes at a local address, clearing poison of whole units. -/
def store (s : State) (a : Nat) (bs : List Byte) : State :=
  let t := s.clearPoison a bs.length
  { t with mem := Mem.write s.mem a bs }

/-- Units of a range at `dst`, counted from its first, that data read from `src` marks poisoned (R472). -/
def poisonRel (s : State) (src n dst : Nat) : List Nat :=
  ((s.ms.poison.filter (fun u => src / 64 ≤ u && u * 64 < src + n)).flatMap (fun u =>
    let lo := dst + (max (u * 64) src - src)
    let hi := dst + (min (u * 64 + 64) (src + n) - src)
    (List.range ((hi - 1) / 64 - lo / 64 + 1)).map (fun i => lo / 64 + i - dst / 64))).eraseDups
/-- The first poisoned unit of a range, as the address of a fault. -/
def firstPoison (s : State) (a n : Nat) : Nat :=
  match s.ms.poison.find? (fun u => a / 64 ≤ u && u * 64 < a + n) with
  | some u => max a (u * 64)
  | none => a
/-- Units of a range at `a` that the 64-byte blocks of its data cover, counted from its first (R472). -/
def blockUnits (a n : Nat) (l : List Nat) : List Nat :=
  ((l.filter (fun i => 64 * i < n)).flatMap (fun i =>
    (List.range ((a + min (64 * i + 64) n - 1) / 64 - (a + 64 * i) / 64 + 1)).map (fun k => (a + 64 * i) / 64 + k - a / 64))).eraseDups
/-- Mark units of a range poisoned, counted from its first. -/
def markUnits (s : State) (a : Nat) (l : List Nat) : State := l.foldl (fun u i => u.poisonAt (a / 64 + i)) s
/-- Poison goes with data that is moved from one range to another (R171). -/
def movePoison (s : State) (src dst n : Nat) : State :=
  let l := s.poisonRel src n dst
  ((s.clearPoison src n).clearPoison dst n).markUnits dst l
/-- Every unit of a range, counted from its first. -/
def rangeUnits (a n : Nat) : List Nat := if n = 0 then [] else List.range ((a + n - 1) / 64 - a / 64 + 1)
/-- Store the bytes of an access, with the units it marks (R171, R472). -/
def storeAcc (s : State) (x : Access) (bs : List Byte) : State := (s.store x.addr bs).markUnits x.addr x.poison

/-- An access sets the access bit of the tile's frame (R156). -/
def touch (s : State) (n : Nat) : State :=
  let t := s.tile n
  if t.st = .dram || t.st = .movingD then
    s.framesSet (Map.modify s.ms.frames t.loc (fun f => { f with acc := true }))
  else s

/-- Ask for a move, once for a tile and a reason (R152). -/
def askMove (s : State) (a : MoveAsk) : State :=
  if s.ms.asks.any (fun b => b.tile == a.tile && b.why == a.why) || (Map.get? s.ms.moves a.tile).any (fun m => m.why == a.why) then s
  else { s with ms := { s.ms with asks := s.ms.asks ++ [a] } }

/-- A fill reads a tile: its access bit, and for a flash home the owner's count and the promotion the read starts (R156,
R157, R173). -/
def fillTouch (s : State) (n : Nat) : State :=
  if (s.tile n).st = .flash then
    let o := s.tileOwner n
    let w := s.owner o
    let s := s.ownerSet o { w with flashRd := satAdd32 w.flashRd 1 }
    let v := s.rgn (n / 65536)
    if rgnTier v = 0 && bit v 28 && decide (256 < s.dFree o) then s.askMove ⟨n, .promote, .place, false⟩ else s
  else s.touch n

/-- Start a read of a tile whose home is flash, or moves from flash, for whatever asks (R153, R165). -/
def flashRead (s : State) (n : Nat) (b : RdFor) : State :=
  if (s.tile n).st = .flash || (s.tile n).st = .movingF then
    { s with ms := { s.ms with reads := Map.set s.ms.reads (Map.nextKey s.ms.reads) ⟨n, s.ft, b, false, none⟩ } }
  else s
/-- Is a flash read for this reader outstanding? -/
def reading (s : State) (b : RdFor) : Bool := s.ms.reads.any (fun p => p.2.by_ == b)

/-- Start a flash program (R165, R175). -/
def program (s : State) (lt n : Nat) (isMove : Bool) : State :=
  let s := ((s.add64 R.FTL_HOST_WR_LO 1).add64 R.FTL_NAND_WR_LO 1).placePage lt
  { s with ms := { s.ms with progs := Map.set s.ms.progs (Map.nextKey s.ms.progs) ⟨lt, n, isMove⟩ } }

/-! ### Reading and writing the range -/

/-- The tiles a range covers. -/
def tilesOf (a n : Nat) : List Nat :=
  if n = 0 then [] else (List.range ((a + n - 1) / tileBytes - a / tileBytes + 1)).map (fun i => a / tileBytes + i)

/-- Does a range lie in control regions of the model key domain (R145, R277, R361)? -/
def ctlSpan (s : State) (a n : Nat) : Bool :=
  decide (a + n ≤ uniEnd) && (tilesOf a n).all (fun k =>
    let v := s.rgn (k / 65536)
    bit v 31 && rgnOwner v == modelOwner && bit v 23)

/-- Bytes read or written of tiles homed in DRAM count on their stacks (R174). -/
def countDram (s : State) (wr : Bool) (a n : Nat) : State :=
  (tilesOf a n).foldl (fun u t =>
    let h := u.tile t
    if h.st = .dram || h.st = .movingD then
      u.add64 (if wr then R.DRP_WR_BYTES_LO (stackOf h.loc) else R.DRP_RD_BYTES_LO (stackOf h.loc))
        (min (a + n) ((t + 1) * tileBytes) - max a (t * tileBytes))
    else u) s
/-- Touch every tile of a range (R156). -/
def touchRange (s : State) (a n : Nat) : State := (tilesOf a n).foldl (fun t i => t.touch i) s
/-- A read of a range by anything but a fill: the access bits of its frames, and the bytes counted (R156, R174). -/
def readAt (s : State) (a n : Nat) : State := (s.touchRange a n).countDram false a n
/-- A stream or an operator begins to read ranges: a flash read of each of their tiles in flash, the access bits, the owners' counts,
and the bytes read (R156, R157, R165, R173, R174). -/
def readTiles (s : State) (rs : List (Nat × Nat)) (b : RdFor) : State :=
  let ts := (rs.flatMap (fun r => tilesOf r.1 r.2)).eraseDups
  rs.foldl (fun u r => u.countDram false r.1 r.2) (ts.foldl (fun u n => (u.flashRead n b).fillTouch n) s)

/-- Why an operator's read of a range fails, if it does: rights, then LOST tiles (R143, R149, R169). -/
def readDeny (s : State) (who a n : Nat) : Option (Nat × Nat) :=
  ((tilesOf a n).map (fun t =>
    match s.deny who (max a (t * tileBytes)) false with
    | some e => some e
    | none => if (s.tile t).st = .lost then some (0x0A, 2) else none)).findSome? id

/-- A byte range of the unified range or the SRAM window; the bytes of an AWAY tile are another package's (log entry 24). -/
def bytesAt (s : State) (a n : Nat) : List Byte :=
  if (tilesOf a n).any (fun t => (s.tile t).st == .away) then
    (List.range n).map (fun i => if (s.tile ((a + i) / tileBytes)).st = .away then Config.remoteByte s.ft.toNat (a + i)
                                 else Mem.get s.mem (a + i))
  else Mem.read s.mem a n

/-- A piece of a write, or an atomic, within one tile (R146, R148, R153, R157, R164): the state after it and its CODE and
DETAIL, 0 where it is done or waits. -/
def writeTile (s : State) (x : Access) : State × Nat × Nat :=
  let n := x.addr / tileBytes
  let old := s.bytesAt x.addr (atomicSize x)
  let bs := accBytes x old
  let whole := decide (x.addr % tileBytes = 0 ∧ bs.length = tileBytes)
  let v := s.rgnAt x.addr
  let o := rgnOwner v
  let t := s.tile n
  let ro := s.rdB R.FTL_STAT 1
  let dramOnly := rgnTier v = 1 || ro
  let wait (held : Bool) (u : State) : State := { u with ms := { u.ms with waits := u.ms.waits ++ [⟨x, held⟩] } }
  let alloc : State × Nat × Nat :=
    if s.tableFull (n / 65536) then (s, 0x13, 3)
    else if rgnTier v = 2 then
      if !whole then (s, 3, 3)
      else if ro then (s, 0x0A, 2)
      else if s.fFree o = 0 then (s, 0x13, 2)
      else match s.freeFlash o with
        | none => (s, 0x13, 2)
        | some lt => ((((s.takeFlash lt n).tileSet n ⟨.flash, false, lt, false⟩).program lt n false).storeAcc x bs, 0, 0)
    else if s.dFree o = 0 then (if dramOnly then (s, 0x13, 1) else (wait false s, 0, 0))
    else match s.placeFrame n with
      | none => (if dramOnly then (s, 0x13, 1) else (wait false s, 0, 0))
      | some loc => ((((s.takeFrame loc (.tile n) o).tileSet n ⟨.dram, false, loc, false⟩).storeAcc x bs).countDram true x.addr bs.length, 0, 0)
  match t.st with
  | .dram => (((s.storeAcc x bs).touch n).countDram true x.addr bs.length, 0, 0)
  | .unalloc => alloc
  | .lost => if whole then alloc else (s, 0x0A, 2)
  | .movingD => (wait true s, 0, 0)
  | .movingF => (wait true s, 0, 0)
  | .flash =>
    if rgnTier v = 2 then
      if !whole then (s, 3, 3)
      else if ro then (s, 0x0A, 2)
      else ((s.program t.loc n false).storeAcc x bs, 0, 0)
    else if dramOnly && (s.dFree o = 0 || (s.placeFrame n).isNone) then (s, 0x13, 1)
    else (wait false (s.askMove ⟨n, .write, .place, false⟩), 0, 0)
  | .away => if (Map.get? s.away n).isSome then (wait true s, 0, 0) else (s.forward x t.loc, 0, 0)

/-- Cut bytes at tile boundaries. -/
def cutTiles (a : Nat) (bs : List Byte) : List (Nat × List Byte) :=
  (tilesOf a bs.length).map (fun t =>
    let lo := max a (t * tileBytes)
    let hi := min (a + bs.length) ((t + 1) * tileBytes)
    (lo, (bs.drop (lo - a)).take (hi - lo)))

/-- Is an address in a weight region of the model key domain (R145)? -/
def inWeights (s : State) (a : Nat) : Bool :=
  let v := s.rgnAt a
  decide (a < uniEnd) && bit v 31 && rgnOwner v == modelOwner && !bit v 23
/-- Why `who` may not touch a range, tile by tile: the address and CODE, DETAIL of the first piece refused. -/
def denyRange (s : State) (who a n : Nat) (wr : Bool) : Option (Nat × Nat × Nat) :=
  (tilesOf a n).findSome? (fun t => let x := max a (t * tileBytes); (s.deny who x wr).map (fun e => (x, e)))

/-- Units of a piece of a range, counted from the piece's first. -/
def marksOf (a : Nat) (marks : List Nat) (p : Nat × List Byte) : List Nat :=
  (marks.filter (fun i => p.1 / 64 ≤ a / 64 + i && (a / 64 + i) * 64 < p.1 + p.2.length)).map (fun i => a / 64 + i - p.1 / 64)
/-- A write of a range for `who`, tile by tile in ascending order, with the units it marks; it ends at the first refusal, and
earlier tiles stand (R148). -/
def writeMarked (s : State) (who : Nat) (op : Option Nat) (a : Nat) (bs : List Byte) (marks : List Nat) : State × Nat × Nat :=
  (cutTiles a bs).foldl (fun acc p =>
    if acc.2.1 ≠ 0 then acc
    else match acc.1.deny who p.1 true with
      | some e => (acc.1, e.1, e.2)
      | none => acc.1.writeTile ⟨who, op, .write, p.1, p.2, p.2.length, 0, none, marksOf a marks p⟩) (s, 0, 0)
/-- A write that marks nothing. -/
def writeRange (s : State) (who : Nat) (op : Option Nat) (a : Nat) (bs : List Byte) : State × Nat × Nat :=
  s.writeMarked who op a bs []

/-- A read of a range for `who`: bytes, or CODE and DETAIL. -/
def readRange (s : State) (who a n : Nat) : Except (Nat × Nat) (List Byte) :=
  match s.readDeny who a n with
  | some e => .error e
  | none => .ok (s.bytesAt a n)

/-- Cut the pieces of an output by tile: for each tile, in the order first touched, one write of it whole where the pieces cover
it whole (R155, R157), else the pieces joined into runs. -/
def tileWrites (ps : List (Nat × List Byte)) : List (Nat × List Byte) :=
  let cuts := ps.flatMap (fun p => cutTiles p.1 p.2)
  let ts := (cuts.map (fun p => p.1 / tileBytes)).eraseDups
  ts.flatMap (fun t =>
    let mine := cuts.filter (fun p => p.1 / tileBytes == t)
    let runs := mine.foldl (fun (acc : List (Nat × Nat × List (List Byte))) p =>
      match acc with
      | (a, n, bs) :: rest => if a + n = p.1 then (a, n + p.2.length, p.2 :: bs) :: rest else (p.1, p.2.length, [p.2]) :: acc
      | [] => [(p.1, p.2.length, [p.2])]) []
    let runs := runs.reverse.map (fun r => (r.1, r.2.2.reverse.flatten))
    if (runs.map (fun r => r.2.length)).sum < tileBytes then runs
    else
      let reach := (runs.mergeSort (fun x y => x.1 ≤ y.1)).foldl (fun e r => if r.1 ≤ e then max e (r.1 + r.2.length) else e) (t * tileBytes)
      if (t + 1) * tileBytes ≤ reach then [(t * tileBytes, Mem.read (runs.foldl (fun m r => Mem.write m r.1 r.2) []) (t * tileBytes) tileBytes)]
      else runs)

/-- A tile becomes LOST: its frame or flash tile is freed, its contents are gone, it is counted and TILE_LOST is set
(R155, R164, R176). -/
def loseTile (s : State) (n : Nat) : State :=
  let t := s.tile n
  let u := if t.st = .dram || t.st = .movingD then s.freeFrameAt t.loc
           else if t.st = .flash || t.st = .movingF then s.freeFlashAt t.loc else s
  let u := u.tileSet n ⟨.lost, false, 0, false⟩
  let u := { u.clearPoison (n * tileBytes) tileBytes with mem := Mem.clear u.mem (n * tileBytes) tileBytes }
  (u.bump R.MPD_LOST_CNT).raiseAll mpdPages 3

/-- Discard a tile: UNALLOC, its home freed, its contents zero (R146, R153, R159). -/
def discardTile (s : State) (n : Nat) : State :=
  let t := s.tile n
  let u := if t.st = .dram || t.st = .movingD then s.freeFrameAt t.loc
           else if t.st = .flash || t.st = .movingF then s.freeFlashAt t.loc else s
  let u := u.tileSet n Tile.none
  let u := u.clearPoison (n * tileBytes) tileBytes
  { u with mem := Mem.clear u.mem (n * tileBytes) tileBytes }

/-- Is a move made for an operator, within the package or to another (R159, R227)? -/
def whyOp (w : MoveWhy) (h : Nat) : Bool :=
  match w with
  | .op k => k == h
  | .between (.op k _) => k == h
  | _ => false
/-- Does anything of operator `h` still wait for memory (R113, R148, R153, R227)? -/
def opWaits (s : State) (h : Nat) : Bool :=
  s.ms.waits.any (fun w => w.acc.op == some h) || s.ms.asks.any (fun a => whyOp a.why h) ||
  s.ms.moves.any (fun p => whyOp p.2.why h) || s.ms.reads.any (fun p => !p.2.late && p.2.by_.isOp h) ||
  s.away.any (fun p => match p.2.by_ with | some (.op k _) => k == h | _ => false) || s.remOf h

/-- Quotas of one tier cut in proportion after a loss, rounding down, with QUOTA_CUT (R147). -/
def cutQuotas (s : State) (flash : Bool) (before after : Nat) : State :=
  let own := Map.mapVals s.ms.own (fun _ o =>
    if flash then { o with fQuota := o.fQuota * after / before } else { o with dQuota := o.dQuota * after / before })
  (({ s with ms := { s.ms with own := own.filter (fun p => p.2 != Owner.none) } } : State).setBits R.MPD_ERR 4).raiseAll mpdPages 2

/-- Live unified frames: 1,568,768 for each stack not fenced (R160). -/
def liveFrames (s : State) : Nat := (12 - s.ms.fenced.length) * 1568768
/-- Usable flash tiles (R168). -/
def liveFlash (s : State) : Nat := (16 - s.ms.chanFail.length) * 16777216

end State
end Sys2Proof.Machine
end

