-- ==== Sys2Proof/Machine/Package.lean ====
section
/-! DEFINITION. Chapter 01: SRAM splits, DRAM port shares, the data mesh and its links (R11 to R29). -/
namespace Sys2Proof.Machine
open Sys2Proof

/-- CORE_SRAM_SPLIT_WRITE (R22, R101): REQ is held; the split in force does not change here. -/
def execCoreSramSplitWrite (c : Nat) (v : Word32) (s : State) : Out := keepQueue s <|
  if c < 384 then .next (s.plainWrite (R.CORE_SRAM_SPLIT c) v) else .next s

/-- CLU_SRAM_SPLIT_WRITE (R22, R102). -/
def execCluSramSplitWrite (u : Nat) (v : Word32) (s : State) : Out := keepQueue s <|
  if u < 64 then .next (s.plainWrite (R.CLU_SRAM_SPLIT u) v) else .next s

namespace State

/-- Does a dispatched operator run on logical core `c`? -/
def coreBusy (s : State) (c : Nat) : Bool :=
  s.ops.any (fun p => p.2.dispatched && (CmdRecF.cores p.2.cmd).contains c && !p.2.parts.isEmpty)
/-- Does a dispatched operator run on a core of cluster `u`? -/
def clusterBusy (s : State) (u : Nat) : Bool := (List.range 6).any (fun l => s.coreBusy (6 * u + l))

/-- Interleaved shares asked for and shares in force of stack `k` (R24, R174). -/
def shareNow (s : State) (k : Nat) : Word32 := Map.get s.ms.shareNow 0x0A0A2828 k

/-- The two compute dies a memory port die or fabric die attaches to, and the edge of the grid its links lie on (R12); the control
die is linked to dies 21 and 23. Edges: north 0, east 1, south 2, west 3. -/
def attached (die : Nat) : List Nat × Nat :=
  match die with
  | 16 => ([0, 4], 3) | 17 => ([8, 12], 3) | 18 => ([3, 7], 1) | 19 => ([11, 15], 1) | 20 => ([0, 1], 0) | 21 => ([12, 13], 2)
  | 22 => ([2, 3], 0) | 23 => ([14, 15], 2) | 24 => ([21, 23], 2)
  | _ => ([], 0)
/-- The key of the link between compute die `die` and its neighbour, or its attach link, on an edge: a link between two compute
dies is keyed from its northern or western end. -/
def meshKey (die edge : Nat) : Nat :=
  if edge = 0 ∧ 4 ≤ die then (die - 4) * 4 + 2
  else if edge = 3 ∧ die % 4 ≠ 0 then (die - 1) * 4 + 1
  else die * 4 + edge
/-- The links of R12 by die and edge. For dies 16–24, which have no grid edges, `edge` 0 and 1 name the first and second die of
`attached`. Keys 96 and 97: the control die's links to dies 21 and 23. -/
def linkKey (die edge : Nat) : Option Nat :=
  if die = 24 ∧ edge < 2 then some (96 + edge)
  else if die < 16 ∧ edge < 4 then some (meshKey die edge)
  else if 16 ≤ die ∧ die < 24 ∧ edge < 2 then some (meshKey ((attached die).1.getD edge 0) (attached die).2)
  else none
/-- The compute dies at the ends of a link. -/
def linkEnds (k : Nat) : List Nat :=
  if 96 ≤ k then []
  else if k % 4 = 1 ∧ k / 4 % 4 ≠ 3 then [k / 4, k / 4 + 1]
  else if k % 4 = 2 ∧ k / 4 < 12 then [k / 4, k / 4 + 4]
  else [k / 4]

/-- Where a die enters the grid: itself, or the first compute die it attaches to (log entry 57), with the links on the way there. -/
def gate (die : Nat) : Nat × List Nat :=
  let g (d : Nat) : Nat × List Nat := let c := (attached d).1.headD 0; (c, [meshKey c (attached d).2])
  if die < 16 then (die, [])
  else if die = 24 then let m := g 21; (m.1, 96 :: m.2)
  else g die
/-- The links from compute die `a` to compute die `b`: along the row first, then along the column (R28). -/
def gridRoute (a b : Nat) : List Nat :=
  let row := a / 4 * 4
  let lo := min (a % 4) (b % 4); let hi := max (a % 4) (b % 4)
  let xs := (List.range (hi - lo)).map (fun i => meshKey (row + lo + i) 1)
  let top := min (a / 4) (b / 4); let bot := max (a / 4) (b / 4)
  xs ++ (List.range (bot - top)).map (fun i => meshKey ((top + i) * 4 + b % 4) 2)
/-- The links a message from die `a` to die `b` crosses (R12, R28). -/
def meshRoute (a b : Nat) : List Nat :=
  if a = b then []
  else if (a = 24 ∧ b = 21) ∨ (a = 21 ∧ b = 24) then [96]
  else if (a = 24 ∧ b = 23) ∨ (a = 23 ∧ b = 24) then [97]
  else (gate a).2 ++ gridRoute (gate a).1 (gate b).1 ++ (gate b).2

/-- A link with no failure. -/
def linkNone : MeshLink := ⟨0, false, false⟩
/-- A link by its key. -/
def link (s : State) (k : Nat) : MeshLink := Map.get s.mesh linkNone k
/-- Does a link drained for re-mapping hold the traffic from die `a` to die `b` (R29)? -/
def meshHeld (s : State) (a b : Nat) : Bool := (meshRoute a b).any (fun k => (s.link k).draining)
/-- Must a message wait: its route is held, or one of its class between the same dies waits before it (R28)? -/
def meshWaits (s : State) (c : MeshClass) (a b : Nat) : Bool :=
  s.meshHeld a b || s.meshQ.any (fun m => m.cls == c && m.src == a && m.dst == b)
/-- Hold a message. -/
def meshPut (s : State) (m : MeshMsg) : State := { s with meshQ := s.meshQ ++ [m] }
/-- The die of logical core `c` (R13). -/
def coreDie (c : Nat) : Nat := c / 24
/-- The die that serves a local address: its stack's or channel's for the unified range, its own for SRAM (R11, R12, R72). -/
def addrDie (s : State) (a : Nat) : Nat :=
  if a < uniEnd then
    let t := s.tile (a / tileBytes)
    if t.st = .dram ∨ t.st = .movingD then 16 + stackOf t.loc / 2 else 24
  else
    let w := a - sramBase
    if w < 0x2_0000_0000 then w / 0x40_0000 / 96
    else if w < 0x3_0000_0000 then (w - 0x2_0000_0000) / 0x10_0000 / 24
    else (w - 0x3_0000_0000) / 0x100_0000 / 4

end State

/-- SRAM_SPLIT_APPLY (R22): the requested split takes effect once no operator uses either region; GEN reports it. -/
def execSramSplitApply (cluster : Bool) (n : Nat) (s : State) : Out := keepQueue s <|
  if cluster then
    (if n < 64 ∧ s.clusterBusy n = false then
       .next (s.wrF (R.CLU_SRAM_SPLIT n) 7 0 (s.rdF (R.CLU_SRAM_SPLIT n) 23 16)) else .next s)
  else
    (if n < 384 ∧ s.coreBusy n = false then
       .next (s.wrF (R.CORE_SRAM_SPLIT n) 4 0 (s.rdF (R.CORE_SRAM_SPLIT n) 20 16)) else .next s)

/-- DRP_SHARE_WRITE (R174): accepted when the four bytes sum to 100, clearing SHARE_ERR; ignored with SHARE_ERR set
otherwise. -/
def execDrpShareWrite (k : Nat) (v : Word32) (s : State) : Out := keepQueue s <|
  if k < 12 then
    (if fld v 7 0 + fld v 15 8 + fld v 23 16 + fld v 31 24 = 100 then
       .next ((s.plainWrite (R.DRP_SHARE k) v).wrF (R.DRP_FENCE_STAT k) 29 29 0)
     else .next ((s.ignoredWrite (R.DRP_SHARE k)).wrF (R.DRP_FENCE_STAT k) 29 29 1))
  else .next s

/-- ARBITRATION_WINDOW (R24): the port takes the shares written, at a 1 µs window. -/
def execArbitrationWindow (k : Nat) (s : State) : Out := keepQueue s <|
  if k < 12 then
    .next { s with ms := { s.ms with shareNow := Map.put s.ms.shareNow 0x0A0A2828 k (s.rd (R.DRP_SHARE k)) } }
  else .next s

/-- MESH_BUNDLE_FAIL (R29): the link drains to be re-mapped onto a repair bundle; from the fifth failure at half width.
Each compute die at its ends raises MESH_REPAIR (R488; log entry 57). -/
def execMeshBundleFail (die edge : Nat) (s : State) : Out := keepQueue s <|
  match State.linkKey die edge with
  | none => .next s
  | some k =>
    let l := s.link k
    let s := { s with mesh := Map.set s.mesh k ⟨l.failed + 1, l.half || decide (4 ≤ l.failed), true⟩ }
    .next (s.raiseAll ((State.linkEnds k).map (0x130 + ·)) 4)

end Sys2Proof.Machine
end

