-- ==== Sys2Proof/Machine/Lanes.lean ====
section
/-! DEFINITION. The lane generators and their draws (R403 to R409). -/
namespace Sys2Proof.Machine
open Sys2Proof

/-- One step of a generator (R404): new s0, new s1, output. -/
def genStep (s0 s1 : Word64) : Word64 × Word64 × Word64 :=
  let x := s0 ^^^ (s0 <<< 23)
  let n := x ^^^ s1 ^^^ (x >>> 17) ^^^ (s1 >>> 26)
  (s1, n, n + s1)

/-- The jump's inner loop over the bits of one word (R405). -/
def jumpBits (w : Nat) : Nat → Nat → (Word64 × Word64) → (Word64 × Word64) → (Word64 × Word64) × (Word64 × Word64)
  | 0, _, s, t => (s, t)
  | k + 1, b, s, t =>
    let t' := if w.testBit b then (t.1 ^^^ s.1, t.2 ^^^ s.2) else t
    let g := genStep s.1 s.2
    jumpBits w k (b + 1) (g.1, g.2.1) t'
/-- 2^64 steps at once (R405). -/
def genJump (s : Word64 × Word64) : Word64 × Word64 :=
  let a := jumpBits 0x8A5CD789635D2DFF 64 0 s (0, 0)
  let b := jumpBits 0x121FD2155C472F96 64 0 a.1 a.2
  b.2
/-- START of index `i` from a seed (R405). -/
def startOf (seed : Word64 × Word64) : Nat → Word64 × Word64
  | 0 => seed
  | i + 1 => genJump (startOf seed i)

/-- Is an index one of the 198,144 generators (R403)? -/
def genValid (i : Nat) : Bool := i < 1536 || (2048 ≤ i && i < 2048 + 512 * 384)
/-- Index of lane `l` of core `c` (R403). -/
def laneIdx (c l : Nat) : Nat := 2048 + 512 * c + l

/-- `n` outputs of a generator, and where it then stands. -/
def drawList : Nat → Gen → List Word64 × Gen
  | 0, g => ([], g)
  | n + 1, g =>
    let t := genStep g.s0 g.s1
    let r := drawList n ⟨t.1, t.2.1, g.draws + 1⟩
    (t.2.2 :: r.1, r.2)

/-- The 16-bit draw of SR (R409). -/
def srDraw (out : Word64) : Nat := fld out 63 48
/-- The uniform word (R409). -/
def uniWord (out : Word64) : Nat := fld out 63 32
/-- The uniform FP32's bits, times 2^−24 (R409). -/
def uniF32 (out : Word64) : Nat := fld out 63 40
/-- T = ⌊p × 2^32⌋ of a mask probability (R409). -/
def maskT (p : XNum) : Nat :=
  match p with
  | .fin _ m e => if 0 ≤ e + 32 then m * 2 ^ (e + 32).toNat else m / 2 ^ (-(e + 32)).toNat
  | _ => 0

namespace State

/-- A generator as it stands: its own entry, or START of the seed in force. -/
def gen (s : State) (i : Nat) : Gen :=
  match Map.get? s.rng.gens i with
  | some g => g
  | none => let t := startOf (s.rng.seedLo, s.rng.seedHi) i; ⟨t.1, t.2, 0⟩
/-- Set a generator. -/
def genSet (s : State) (i : Nat) (g : Gen) : State := { s with rng := { s.rng with gens := Map.set s.rng.gens i g } }
/-- A generator takes STATE := START (R406 step 3, R408). -/
def genStart (s : State) (i : Nat) : State := { s with rng := { s.rng with gens := Map.erase s.rng.gens i } }
/-- `n` draws of a generator. -/
def draw (s : State) (i n : Nat) : List Word64 × State :=
  let r := drawList n (s.gen i)
  (r.1, s.genSet i r.2)

/-- The copy of an engine's generator an operator took (R407). -/
def genCopy (s : State) (h e : Nat) : Gen := Map.get s.rng.copies (s.gen e) (h * 2048 + e)
/-- Reserve an operator's draws on an engine: the copy is taken, the engine generator advances by `d` (R407). -/
def reserve (s : State) (h e d : Nat) : State :=
  let g := s.gen e
  let s := { s with rng := { s.rng with copies := Map.set s.rng.copies (h * 2048 + e) g } }
  s.genSet e (drawList d g).2
/-- Draws of an operator on an engine, from its copy. -/
def drawCopy (s : State) (h e n : Nat) : List Word64 × State :=
  let r := drawList n (s.genCopy h e)
  (r.1, { s with rng := { s.rng with copies := Map.set s.rng.copies (h * 2048 + e) r.2 } })
/-- An operator that ends leaves no copies. -/
def dropCopies (s : State) (h : Nat) : State :=
  { s with rng := { s.rng with copies := s.rng.copies.filter (fun p => p.1 / 2048 != h) } }

end State
end Sys2Proof.Machine
end

