-- ==== Sys2Proof/Machine/Streams.lean ====
section
/-! DEFINITION. Chapter 03: layouts, stream descriptors and their checks, the stream unit, slot states, stage counters,
engine groups and drains, task switching (R71 to R102, with R48 to R62). -/
namespace Sys2Proof.Machine
open Sys2Proof

/-- Format codes (R76); none for RAW and the reserved code. -/
def fmtOf (c : Nat) : Option Fmt :=
  match c with
  | 0 => some (.fp .fp32) | 1 => some (.fp .bf16) | 2 => some (.fp .fp16) | 3 => some (.fp .e4m3)
  | 4 => some (.fp .e5m2) | 5 => some (.fp .e2m1) | 6 => some .int8 | 7 => some .int32
  | 8 => some (.mx .e4m3) | 9 => some (.mx .e5m2) | 10 => some (.mx .e2m1) | 11 => some .mxint8
  | 12 => some .ogb8 | 13 => some .ogb16 | _ => none

/-- Bytes of one stream element of a format (R77): E2M1 a byte of two, a block format one group, RAW a byte. -/
def strmElemBytes (c : Nat) : Nat :=
  match c with
  | 0 => 4 | 1 => 2 | 2 => 2 | 3 => 1 | 4 => 1 | 5 => 1 | 6 => 1 | 7 => 4
  | 8 => 1056 | 9 => 1056 | 10 => 544 | 11 => 1056 | 12 => 1056 | 13 => 2080 | _ => 1
/-- Steps k one stream element covers (R77). -/
def strmElemK (c : Nat) : Nat := if c = 5 then 2 else if 8 ≤ c ∧ c ≤ 13 then 1024 else 1

namespace SD
/-- COUNT of dimension word `w` (R75). -/
def count (w : Word64) : Nat := fld w 63 48 + 1
/-- STRIDE of dimension word `w`, signed (R75). -/
def stride (w : Word64) : Int := (BitVec.ofNat 48 (fld w 47 0)).toInt
/-- Destination format code. -/
def dst (d : StreamDesc) : Nat := fld d.ctl 15 12
/-- Source format code. -/
def src (d : StreamDesc) : Nat := fld d.ctl 11 8
/-- LAYOUT. -/
def layout (d : StreamDesc) : Nat := fld d.ctl 19 16
/-- DIR: a spill? -/
def spill (d : StreamDesc) : Bool := bit d.ctl 23
/-- IDX. -/
def idx (d : StreamDesc) : Bool := bit d.ctl 27
/-- ORDER. -/
def order (d : StreamDesc) : Bool := bit d.ctl 28
/-- PAD. -/
def pad (d : StreamDesc) : Bool := bit d.ctl 29
/-- SAT. -/
def sat (d : StreamDesc) : Bool := bit d.ctl 26
/-- SLOT. -/
def slot (d : StreamDesc) : Nat := fld d.slot 19 0
/-- Does the stream feed the direct DRAM port (R61, R75)? -/
def direct (d : StreamDesc) : Bool := slot d == 0xFFFFF
/-- Slot-side format (R78). -/
def slotFmt (d : StreamDesc) : Nat := if spill d then src d else dst d
/-- Memory-side format. -/
def memFmt (d : StreamDesc) : Nat := if spill d then dst d else src d
/-- Stream elements in all (R77). -/
def elems (d : StreamDesc) : Nat := count d.dim0 * count d.dim1 * count d.dim2 * count d.dim3 * count d.dim4
/-- The counter a stream signals. -/
def sigCtr (d : StreamDesc) : Nat := fld d.sync 29 16
/-- Does it signal? -/
def sigEn (d : StreamDesc) : Bool := bit d.sync 31
/-- The counter it waits on. -/
def waitCtr (d : StreamDesc) : Nat := fld d.sync 13 0
/-- Does it wait? -/
def waitEn (d : StreamDesc) : Bool := bit d.sync 15
/-- The amount it takes. -/
def waitAmt (d : StreamDesc) : Nat := fld d.aux 23 16
/-- Byte offset in the engine tile of its first scale slice (R74, R75). -/
def sclOff (d : StreamDesc) : Nat := fld d.aux 5 0 * 65536 + fld d.aux 10 6 * 2048
end SD

/-- Lanes of a PAN or NAR layout (R73). -/
def layLanes (l : Nat) : Nat := if l = 1 ∨ l = 2 ∨ l = 3 then 64 else 16
/-- Steps per lane of a slot (R73). -/
def layKp (l : Nat) : Nat :=
  match l with
  | 1 => 1024 | 2 => 2048 | 3 => 512 | 4 => 4096 | 5 => 8192 | 6 => 2048 | _ => 1
/-- Is it a PAN or NAR layout? -/
def layPanel (l : Nat) : Bool := 1 ≤ l && l ≤ 6
/-- Byte offset in a slot of (lane, step) (R73). -/
def layOff (l lane k : Nat) : Nat :=
  match l with
  | 1 => k * 64 + lane
  | 2 => k / 2 * 64 + lane
  | 3 => k * 128 + 2 * lane
  | 4 => k * 16 + lane
  | 5 => k / 2 * 16 + lane
  | 6 => k * 32 + 2 * lane
  | _ => 0
/-- Does a layout hold an element format (R73)? -/
def layHolds (l c : Nat) : Bool :=
  match l with
  | 0 => true
  | 1 => c == 3 || c == 4 || c == 6 || c == 8 || c == 9 || c == 11
  | 4 => c == 3 || c == 4 || c == 6 || c == 8 || c == 9 || c == 11
  | 2 => c == 5 || c == 10
  | 5 => c == 5 || c == 10
  | 3 => c == 1 || c == 2
  | 6 => c == 1 || c == 2
  | 7 => c == 0 || c == 7
  | _ => false

/-- Strides of a descriptor: an indexed one's DIM4 holds none (R75). -/
def strides (d : StreamDesc) : List Int := ([d.dim0, d.dim1, d.dim2, d.dim3] ++ (if SD.idx d then [] else [d.dim4])).map SD.stride

/-- Byte offset of value `v` in a run of a format's values stored one after another, block groups under R38; RAW is bytes. -/
def linOff (c v : Nat) : Nat :=
  match fmtOf c with
  | none => v
  | some f => if f.isBlock then v / 1024 * strmElemBytes c + 32 + v % 1024 * f.ebits / 8 else v * f.ebits / 8
/-- Byte offset of the scale of the block that holds value `v` (R38). -/
def linScale (c v : Nat) : Nat := v / 1024 * strmElemBytes c + v % 1024 / 32
/-- Bytes up to the end of the first `n` values of such a run. -/
def linBytes (c n : Nat) : Nat :=
  match fmtOf c with
  | none => n
  | some f =>
    if f.isBlock then
      n / 1024 * strmElemBytes c + (if n % 1024 = 0 then 0 else 32 + (n % 1024 * f.ebits + 7) / 8)
    else (n * f.ebits + 7) / 8
/-- Bytes that `n` values take, with the scales of their blocks. -/
def valBytes (c n : Nat) : Nat :=
  match fmtOf c with
  | none => n
  | some f => (n * f.ebits + 7) / 8 + (if f.isBlock then (n + 31) / 32 else 0)

/-- Values a stream element covers: those of an element of SRC_FMT (R77). -/
def perElem (d : StreamDesc) : Nat := strmElemK (SD.src d)
/-- Values a stream moves. -/
def valCount (d : StreamDesc) : Nat := SD.elems d * perElem d
/-- Positions of one slot of a PAN or NAR layout. -/
def slotPos (l : Nat) : Nat := layLanes l * layKp l
/-- Slots a stream covers, counted from SLOT (R78). -/
def slotCount (d : StreamDesc) : Nat :=
  if layPanel (SD.layout d) then (valCount d - 1) / slotPos (SD.layout d) + 1
  else (linBytes (SD.slotFmt d) (valCount d) - 1) / 65536 + 1
/-- Does a stream collect plain values into blocks of 32 (R39, R40, R45)? -/
def collects (d : StreamDesc) : Bool := !(8 ≤ SD.src d && SD.src d ≤ 13) && (8 ≤ SD.dst d && SD.dst d ≤ 13)
/-- The elements of a fill that must be written for its first `k` slots to hold all theirs (R85): in LIN those that begin below the
end of slot `k`, and whole blocks where values are collected. -/
def elemsFor (d : StreamDesc) (k : Nat) : Nat :=
  let n := if layPanel (SD.layout d) then k * slotPos (SD.layout d) / perElem d
           else ((List.range (SD.elems d)).filter (fun n => linOff (SD.slotFmt d) (n * perElem d) < k * 65536)).length
  min (SD.elems d) (if collects d then (n + 31) / 32 * 32 else n)

/-- The slots a stream touches, by slot address. -/
def slotsOf (d : StreamDesc) : List Nat := (List.range (slotCount d)).map (fun i => SD.slot d + i)
/-- Bytes of a scale slice of a layout (R74). -/
def sliceBytes (l : Nat) : Nat := if l = 2 ∨ l = 5 then 4096 else 2048
/-- Does a stream keep its scales in a scale slice: an MX format in a panel (R74)? -/
def hasSlices (d : StreamDesc) : Bool :=
  !SD.direct d && layPanel (SD.layout d) && (match fmtOf (SD.slotFmt d) with | some f => f.isMx | none => false)
/-- The scale slot of a stream, by slot address, where it has one. -/
def scaleSlots (d : StreamDesc) : List Nat := if hasSlices d then [SD.slot d / 64 * 64 + fld d.aux 5 0] else []
/-- Every slot whose state a stream takes part in (R74, R87). -/
def slotsAll (d : StreamDesc) : List Nat := (slotsOf d ++ scaleSlots d).eraseDups

namespace State

/-- A signed 64-bit word of memory. -/
def memInt64 (s : State) (a : Nat) : Int := (BitVec.ofNat 64 (leNat (s.bytesAt a 8))).toInt

/-- Offset of the i4-th outermost block (R77). -/
def off4 (s : State) (d : StreamDesc) (i : Nat) : Int :=
  if SD.idx d then s.memInt64 (fld d.dim4 47 0 + 8 * i) else i * SD.stride d.dim4

/-- Address of stream element `n` in visiting order (R77). -/
def elemAddr (s : State) (d : StreamDesc) (n : Nat) : Int :=
  let c0 := SD.count d.dim0; let c1 := SD.count d.dim1; let c2 := SD.count d.dim2; let c3 := SD.count d.dim3
  let i0 := n % c0; let i1 := n / c0 % c1; let i2 := n / (c0 * c1) % c2
  let i3 := n / (c0 * c1 * c2) % c3; let i4 := n / (c0 * c1 * c2 * c3)
  (d.base.toNat : Int) + s.off4 d i4 + i3 * SD.stride d.dim3 + i2 * SD.stride d.dim2 + i1 * SD.stride d.dim1 +
    i0 * SD.stride d.dim0

/-- Every element address of a stream. -/
def elemAddrs (s : State) (d : StreamDesc) : List Int := (List.range (SD.elems d)).map (s.elemAddr d)

/-- Does slot address `sl` lie where an operator's streams may fill and spill (R81)? A tile of an engine it runs on, or
core or cluster SRAM on its side of the split (R22): generation granules come first (log entry 9). -/
def slotOk (s : State) (o : RunOp) (sl : Nat) : Bool :=
  let a := slotAddr sl
  let unit := CmdRecF.unit o.cmd
  if !sramValid a then false
  else if sl < 0x20000 then (unit == 0 || unit == 1) && (CmdRecF.units o.cmd).contains (sl / 64)
  else
    let core := sl < 0x30000
    let inst := if core then (sl - 0x20000) / 16 else (sl - 0x30000) / 256
    let g := if core then (sl - 0x20000) % 16 else (sl - 0x30000) % 256
    let gen := if core then s.rdF (R.CORE_SRAM_SPLIT inst) 4 0 else s.rdF (R.CLU_SRAM_SPLIT inst) 7 0
    let mine := if core then (CmdRecF.cores o.cmd).contains inst
                else (CmdRecF.cores o.cmd).any (fun c => c / 6 == inst)
    mine && (if unit = 0 then gen ≤ g else if unit = 1 then g < gen else true)

/-- Is a memory address of a stream inside the unified range or the used SRAM (R80)? -/
def strmAddrOk (a : Int) (n : Nat) : Bool :=
  decide (0 ≤ a) && (decide (a.toNat + n ≤ uniEnd) ||
    (sramValid a.toNat && sramValid (a.toNat + n - 1) && apertureOf a.toNat == apertureOf (a.toNat + n - 1)))
/-- Does a range lie in the raw windows or the MMIO page range of the local map, which no tenant reaches (R141)? -/
def rawRange (a : Int) (n : Nat) : Bool :=
  decide (0 ≤ a) && (let x := a.toNat
    (0x8_0000_0000_0000 ≤ x && x + n ≤ 0x8_0120_0000_0000) || (0xC_0000_0000_0000 ≤ x && x + n ≤ 0xC_1400_0000_0000) ||
    (0xF_0000_0000_0000 ≤ x && x + n ≤ 0xF_0000_0100_0000))
/-- May the tenant not touch an element (R82)? A write into a weight region is refused with its own CODE (R25; log entry 59), and so
is an access that the SEM stops. -/
def strmBarred (s : State) (who : Nat) (a : Int) (n : Nat) (wr : Bool) : Bool :=
  rawRange a n || (decide (a.toNat < uniEnd) && (match s.denyRange who a.toNat n wr with
    | some (x, c, _) => c == 4 && !(wr && s.inWeights x)
    | none => false))
/-- Does an address lie in an engine-tile aperture (R81)? -/
def inTile (a : Int) : Bool := decide ((sramBase : Int) ≤ a) && decide (a < (sramBase : Int) + 0x2_0000_0000)
/-- Alignment of an SRC_FMT element (R80). -/
def srcAlign (c : Nat) : Nat := if 8 ≤ c ∧ c ≤ 13 then 32 else if strmElemBytes c = 4 then 4 else if strmElemBytes c = 2 then 2 else 1

/-- The check of a descriptor (R82), but for index entries, which are checked when they are read: the refusal code, 0 where it
passes. Where several rules are broken the lowest code is reported (log entry 10); what the codes leave open is log entry 60. -/
def streamCheck (s : State) (o : RunOp) (e : Nat) (d : StreamDesc) : Nat :=
  let src := SD.src d; let dst := SD.dst d; let lay := SD.layout d; let mb := strmElemBytes (SD.memFmt d)
  let dir := SD.direct d
  let as_ := if (SD.elems d ≤ 2 ^ 21 || dir) && !SD.idx d then s.elemAddrs d else []
  if fld d.ctl 3 0 ≠ 1 || fld d.slot 31 20 ≠ 0 || fld d.aux 31 24 ≠ 0 || fld d.aux 15 11 ≠ 0 || bit d.sync 30 ||
     bit d.sync 14 || fld d.ctl 31 30 ≠ 0 || fld d.ctl 25 24 ≠ 0 || fld d.ctl 22 20 ≠ 0 || fld d.ctl 7 4 ≠ 0 then 1
  else if fld d.base 63 52 ≠ 0 || as_.any (fun a => !strmAddrOk a mb && !rawRange a mb) ||
     (SD.idx d && uniEnd < fld d.dim4 47 0 + 8 * SD.count d.dim4) || (!dir && !sramValid (slotAddr (SD.slot d))) then 2
  else if as_.any (fun a => s.strmBarred o.tenant a mb (SD.spill d)) ||
      (SD.idx d && (s.readDeny o.tenant (fld d.dim4 47 0) (8 * SD.count d.dim4)).any (fun e => e.1 == 4)) then 3
  else if 8 ≤ lay || src = 15 || dst = 15 || ((src = 14 || dst = 14) && (src ≠ dst || lay ≠ 0)) ||
     (src ≠ 14 && dst ≠ 14 && src ≠ dst && !(match fmtOf src, fmtOf dst with | some a, some b => castDirect a b | _, _ => false)) then 4
  else if !layHolds lay (SD.slotFmt d) ||
     (!dir && SD.order d && [src, dst].any (fun c => c == 5 || (8 ≤ c && c ≤ 11))) then 5
  else if !dir && ((slotsOf d).take 17).any (fun sl => !s.slotOk o sl) ||
     (hasSlices d && (0x20000 ≤ SD.slot d || 65536 < fld d.aux 10 6 * 2048 + slotCount d * sliceBytes lay ||
       !sramValid (slotAddr (SD.slot d / 64 * 64 + fld d.aux 5 0)))) then 6
  else if !dir && (16 < slotCount d || (slotsOf d).any (fun sl => apertureOf (slotAddr sl) != apertureOf (slotAddr (SD.slot d)))) ||
     (SD.spill d && as_.any inTile) then 7
  else if d.base.toNat % srcAlign src != 0 || (strides d).any (fun a => a % srcAlign src != 0) || (SD.idx d && fld d.dim4 2 0 ≠ 0) ||
     (hasSlices d && sliceBytes lay == 4096 && fld d.aux 6 6 ≠ 0) then 8
  else if !dir && (slotsAll d).any (fun sl => sl < 0x20000 && bit (Map.get s.eng Eng.none (sl / 64)).swCtl 31 &&
      sl % 64 == (if sl / 64 % 4 = 3 then 47 else 23)) then 9
  else if dir && (src ≠ dst || !(lay = 1 || lay = 2 || lay = 3) || !SD.order d || SD.spill d || e % 4 ≠ 3) then 10
  else 0

/-! ### Slots (R87) -/

/-- An engine. -/
def engine (s : State) (e : Nat) : Eng := Map.get s.eng Eng.none e
/-- Set an engine. -/
def engineSet (s : State) (e : Nat) (g : Eng) : State := { s with eng := Map.set s.eng e g }
/-- An engine slot. -/
def slot (s : State) (e k : Nat) : Slot := Map.get (s.engine e).slots Slot.none k
/-- Set an engine slot. -/
def slotSet (s : State) (e k : Nat) (v : Slot) : State :=
  let g := s.engine e
  s.engineSet e { g with slots := Map.put g.slots Slot.none k v }
/-- Set an engine slot's state, keeping what is held on it. -/
def slotState (s : State) (e k : Nat) (st : SlotSt) : State := s.slotSet e k { s.slot e k with st := st }

/-- Issue stream `n` to one slot: a fill reserves a FREE or FULL slot on which nothing is held, and is held on another; a spill is
held on a slot in FILL (R87). Core and cluster SRAM slots carry no state. -/
def issueSlot (n : Nat) (spill : Bool) (s : State) (sl : Nat) : State :=
  if 0x20000 ≤ sl then s
  else
    let e := sl / 64; let k := sl % 64; let v := s.slot e k
    let hold := s.slotSet e k { v with held := v.held ++ [.strm n] }
    if spill then (if v.st = .fill then hold else s)
    else if (v.st = .free ∨ v.st = .full) ∧ v.held = [] then s.slotState e k .fill else hold

/-- Is stream `n` held on any slot? -/
def strmHeld (s : State) (n : Nat) : Bool :=
  match Map.get? s.strm n with
  | none => false
  | some x => !SD.direct x.desc &&
      (slotsAll x.desc).any (fun sl => decide (sl < 0x20000) && (s.slot (sl / 64) (sl % 64)).held.contains (.strm n))

/-- Set a stream. -/
def strmSet (s : State) (n : Nat) (x : Strm) : State := { s with strm := Map.set s.strm n x }

/-- Contexts in use on a core (R83). -/
def ctxUsed (s : State) (c : Nat) : Nat :=
  (s.strm.filter (fun p => p.2.core == c && p.2.st != StrmSt.noContext)).length
/-- The oldest descriptor held for a context on a core. -/
def heldDesc (s : State) (c : Nat) : Option (Nat × Strm) :=
  s.strm.find? (fun p => p.2.core == c && p.2.st == StrmSt.noContext)

/-- What a fill reads of the unified range: its elements and its index table (R77). -/
def fillReads (s : State) (d : StreamDesc) : List (Nat × Nat) :=
  ((s.elemAddrs d).filter (fun a => decide (0 ≤ a) && decide (a.toNat < uniEnd))).map (fun a => (a.toNat, strmElemBytes (SD.src d))) ++
    (if SD.idx d then [(fld d.dim4 47 0, 8 * SD.count d.dim4)] else [])
/-- A stream past its waits moves on: held on a slot, or running; a fill that runs begins to read its tiles (R87, R156, R165). -/
def strmGo (s : State) (n : Nat) (x : Strm) : State :=
  if s.strmHeld n then s.strmSet n { x with st := .waitSlot }
  else
    let s := s.strmSet n { x with st := .run }
    if SD.spill x.desc then s else s.readTiles (s.fillReads x.desc) (.strm n)

/-- A stream takes a context: its slots are reserved, even while it waits on a counter, and it joins its waiter queue
(R87, R92). -/
def takeContext (s : State) (n : Nat) (x : Strm) : State :=
  let s := s.strmSet n { x with st := .run }
  let s := if SD.direct x.desc then s else (slotsAll x.desc).foldl (issueSlot n (SD.spill x.desc)) s
  if SD.waitEn x.desc then
    let c := SD.waitCtr x.desc
    { s.strmSet n { x with st := .waitCtr } with waiters := Map.set s.waiters c (Map.get s.waiters [] c ++ [n]) }
  else s.strmGo n x

/-- Latch a stream refusal in CORE_STRM_ERR (R82, R101, R470). -/
def strmRefused (s : State) (c : Nat) (o : RunOp) (code : Nat) : State :=
  let a := R.CORE_STRM_ERR c
  if s.rdB a 31 then s.setBits a 0x40000000#32
  else s.wr a (BitVec.ofNat 32 (0x80000000 + fld o.cmd.seq 13 0 * 256 + code))

/-- The first address a spill may not write for a reason with a CODE of its own (R25, R448), with that CODE and DETAIL. -/
def spillDeny (s : State) (o : RunOp) (d : StreamDesc) : Option (Nat × Nat × Nat) :=
  if SD.spill d && !SD.idx d then
    (s.elemAddrs d).findSome? (fun a => if a.toNat < uniEnd then s.denyRange o.tenant a.toNat (strmElemBytes (SD.dst d)) true else none)
  else none

/-- Issue a descriptor for operator `h` on engine `e`'s core: refused with a code, or a context and its slots, or held behind those
issued before it until a context frees (R82, R83). -/
def issueStream (s : State) (e h : Nat) (d : StreamDesc) : State :=
  match s.op? h with
  | none => s
  | some o =>
    let code := s.streamCheck o e d
    if code ≠ 0 then (s.opFailOn h e 2 (BitVec.ofNat 8 code)).strmRefused (e / 4) o code
    else match s.spillDeny o d with
      | some (a, c, dt) => s.opFaultIn h e (BitVec.ofNat 8 c) (BitVec.ofNat 8 dt) a e (SD.slot d)
      | none =>
        let n := Map.nextKey s.strm
        let x : Strm := ⟨e / 4, e, h, d, .noContext, 0, false⟩
        if s.ctxUsed (e / 4) < 16 && (s.heldDesc (e / 4)).isNone then s.takeContext n x else s.strmSet n x

end State

/-- STREAM_ISSUE (R75 to R83, R87, R89, R92). -/
def execStreamIssue (e h : Nat) (d : StreamDesc) (s : State) : Out := keepQueue s <|
  if e < 1536 then .next (s.issueStream e h d) else .next s

/-- STREAM_CONTEXT_FREE (R83): the oldest held descriptor takes the context. -/
def execStreamContextFree (c : Nat) (s : State) : Out := keepQueue s <|
  if s.ctxUsed c < 16 then
    match s.heldDesc c with
    | some p => .next (s.takeContext p.1 p.2)
    | none => .next s
  else .next s

namespace State
/-- Serve a counter's waiters (R92): the head proceeds once the counter is at least its WAIT_AMT, which is taken in the same step,
and the next is tested; at most `fuel` of them. A WAIT_AMT of 0 takes nothing (log entry 60). -/
def passWaiters (ctr : Nat) : Nat → State → State
  | 0, s => s
  | fuel + 1, s =>
    match Map.get s.waiters [] ctr with
    | [] => s
    | n :: rest =>
      let t : State := { s with waiters := Map.put s.waiters [] ctr rest }
      match Map.get? s.strm n with
      | none => passWaiters ctr fuel t
      | some x =>
        let a := R.CLU_STAGE_CTR (ctr / 256) (ctr % 256)
        let amt := SD.waitAmt x.desc
        if amt ≤ (s.rd a).toNat then passWaiters ctr fuel ((t.wr a (s.rd a - BitVec.ofNat 32 amt)).strmGo n x) else s
/-- Serve every waiter of a counter that can pass. -/
def passAll (s : State) (ctr : Nat) : State := passWaiters ctr (Map.get s.waiters [] ctr).length s
end State

/-- STAGE_WAIT_PASS (R92): the waiters at the head of the queue proceed as the counter allows. -/
def execStageWaitPass (ctr : Nat) (s : State) : Out := keepQueue s <| .next (s.passAll ctr)

namespace State
/-- May what is held at a slot's head start: the slot out of USE and FILL for a fill or drain, out of FILL for a spill (R87)? -/
def headReady (s : State) (q : HeldReq) (spill : Bool) (sl : Nat) : Bool :=
  0x20000 ≤ sl ||
  (let v := s.slot (sl / 64) (sl % 64)
   if v.held.contains q then
     v.held.head? == some q && (if spill then v.st == .full || v.st == .use else v.st == .free || v.st == .full)
   else true)
/-- Take what starts off a slot's queue, reserving the slot for a fill. -/
def unhold (q : HeldReq) (spill : Bool) (s : State) (sl : Nat) : State :=
  if 0x20000 ≤ sl then s
  else
    let v := s.slot (sl / 64) (sl % 64)
    if v.held.contains q then s.slotSet (sl / 64) (sl % 64) ⟨if spill then v.st else .fill, v.held.erase q⟩ else s
end State

/-! ### Moving a stream's data (R73, R74, R77, R79) -/

/-- The codes of one block group in memory: scales then elements, as numbers (R38). -/
def groupNums (f : Fmt) (bs : List Byte) : List (Nat × Nat) :=
  (List.range 1024).map (fun i =>
    let sc := (bs.getD (i / 32) 0).toNat
    let c := match f with
      | .mx .e2m1 => ((bs.getD (32 + i / 2) 0).toNat / (if i % 2 = 0 then 1 else 16)) % 16
      | .ogb16 => leNat ((bs.drop (32 + 2 * i)).take 2)
      | _ => (bs.getD (32 + i) 0).toNat
    (sc, c))
/-- The scale bytes and codes of one stream element (R38, R77). -/
def elemPairs (f : Fmt) (bs : List Byte) : List (Nat × Nat) :=
  if f.isBlock then groupNums f bs
  else if f = .fp .e2m1 then let b := (bs.getD 0 0).toNat; [(0, b % 16), (0, b / 16)]
  else [(0, leNat bs)]

/-- Cast one value of a stream (R79: RNE, SAT as asked): code, flags, NI for a NaN read. Streams take only the casts R45 provides in
one step. -/
def strmCast (src dst : Fmt) (sat : Bool) (p : Nat × Nat) : Nat × NumFlags :=
  let x := src.scaled p.1 p.2
  let r := castEnd src dst .rne sat x
  (r.1, r.2 ||| (if x.isNan then fNI else fNone))

/-- The code of value `v` of a run of bytes that begins with value 0 of a plain format: a nibble of a byte for E2M1. -/
def plainBytes (f : Fmt) (cs : List Nat) : List Byte :=
  if f.ebits = 4 then (List.range ((cs.length + 1) / 2)).map (fun i => BitVec.ofNat 8 (cs.getD (2 * i) 0 + 16 * cs.getD (2 * i + 1) 0))
  else cs.flatMap (fun c => leBytes (f.ebits / 8) c)

namespace State

/-- Write bytes into SRAM. -/
def sramWrite (s : State) (a : Nat) (bs : List Byte) : State := s.store a bs

/-- The local address of the panel position `p` of a stream (R73, R77). -/
def panelAddr (d : StreamDesc) (p : Nat) : Nat :=
  let l := SD.layout d
  let m := p % slotPos l
  let lane := if SD.order d then m % layLanes l else m / layKp l
  let k := if SD.order d then m / layLanes l else m % layKp l
  slotAddr (SD.slot d + p / slotPos l) + layOff l lane k
/-- The local address of the slot-side value `v` of a stream, in a panel, or in the order of LIN and ACC32 (R73; log entry 60). -/
def valAddr (d : StreamDesc) (v : Nat) : Nat :=
  if layPanel (SD.layout d) then panelAddr d v else slotAddr (SD.slot d) + linOff (SD.slotFmt d) v
/-- The address of the scale byte of the block that holds value `v`: in the scale slice of its panel (R74), or in its group. -/
def scaleAddr (d : StreamDesc) (v : Nat) : Nat :=
  let l := SD.layout d
  if layPanel l then
    let m := v % slotPos l
    slotAddr (SD.slot d / 64 * 64) + SD.sclOff d + v / slotPos l * sliceBytes l + m % layKp l / 32 * layLanes l + m / layKp l
  else slotAddr (SD.slot d) + linScale (SD.slotFmt d) v
/-- Is a slot-side value a nibble, and which half: the odd step or value is the high one (R35, R73)? -/
def nibble (d : StreamDesc) (v : Nat) : Option Bool :=
  match fmtOf (SD.slotFmt d) with
  | some f =>
    if f.ebits = 4 then
      (let l := SD.layout d
       let k := if layPanel l then (let m := v % slotPos l; if SD.order d then m / layLanes l else m % layKp l) else v
       some (k % 2 == 1))
    else none
  | none => none
/-- Put a code at a slot-side value of a stream. -/
def valPut (d : StreamDesc) (s : State) (v c : Nat) : State :=
  let a := valAddr d v
  match nibble d v with
  | some hi =>
    let old := (Mem.get s.mem a).toNat
    s.sramWrite a [BitVec.ofNat 8 (if hi then old % 16 + 16 * c else old / 16 * 16 + c)]
  | none => s.sramWrite a (leBytes (match fmtOf (SD.slotFmt d) with | some f => f.ebits / 8 | none => 1) c)
/-- The code at a slot-side value of a stream. -/
def valGet (d : StreamDesc) (s : State) (v : Nat) : Nat :=
  let a := valAddr d v
  match nibble d v with
  | some hi => if hi then (Mem.get s.mem a).toNat / 16 else (Mem.get s.mem a).toNat % 16
  | none => leNat (s.bytesAt a (match fmtOf (SD.slotFmt d) with | some f => f.ebits / 8 | none => 1))
/-- Put the codes of values `v`, `v + 1`, … in their places, with poison where `bad`. -/
def valsPut (d : StreamDesc) (s : State) (v : Nat) (cs : List Nat) (bad : Bool) : State :=
  ((List.range cs.length).zip cs).foldl (fun t p =>
    let u := valPut d t (v + p.1) p.2
    if bad then u.poisonAt (valAddr d (v + p.1) / 64) else u) s

/-- One element of a fill that is neither split into blocks nor collected: read, converted, placed (R77, R79). An element whose
format is kept in LIN is copied whole. -/
def fillElem (d : StreamDesc) (acc : State × NumFlags) (n : Nat) : State × NumFlags :=
  let s := acc.1
  let a := (s.elemAddr d n).toNat
  let mb := strmElemBytes (SD.src d)
  let raw := s.bytesAt a mb
  let bad := s.anyPoison a mb
  if SD.src d = SD.dst d && !layPanel (SD.layout d) then
    let x := slotAddr (SD.slot d) + n * mb
    let t := s.sramWrite x raw
    (if bad then t.markUnits x (rangeUnits x mb) else t, acc.2)
  else match fmtOf (SD.src d), fmtOf (SD.dst d) with
    | some f, some g =>
      let v := n * perElem d
      let ps := elemPairs f raw
      if SD.src d = SD.dst d then
        let t := valsPut d s v (ps.map (·.2)) bad
        (if f.isBlock then (List.range 32).foldl (fun t b => t.sramWrite (scaleAddr d (v + 32 * b)) [raw.getD b 0]) t else t, acc.2)
      else
        let rs := ps.map (strmCast f g (SD.sat d))
        (valsPut d s v (rs.map (·.1)) bad, acc.2 ||| orFlags (rs.map (·.2)))
    | _, _ => acc

/-- The cast of up to 32 values to a block: those missing count as 0 (R39, R40; log entry 60). -/
def strmBlock (f g : Fmt) (ps : List (Nat × Nat)) : Nat × List Nat × NumFlags :=
  let xs := ps.map (fun p => f.scaled p.1 p.2)
  let b := castBlock g (List.replicate 32 .rne) (xs ++ List.replicate (32 - xs.length) XNum.zero)
  (b.1, b.2.1.take ps.length, b.2.2 ||| (if xs.any XNum.isNan then fNI else fNone))

/-- Block `j` of a fill that collects plain values into blocks: its elements below `hi`. -/
def fillBlock (d : StreamDesc) (hi : Nat) (acc : State × NumFlags) (j : Nat) : State × NumFlags :=
  let s := acc.1
  let mb := strmElemBytes (SD.src d)
  let as_ := ((List.range 32).filter (fun i => 32 * j + i < hi)).map (fun i => (s.elemAddr d (32 * j + i)).toNat)
  match fmtOf (SD.src d), fmtOf (SD.dst d) with
  | some f, some g =>
    let b := strmBlock f g (as_.map (fun a => (0, leNat (s.bytesAt a mb))))
    let t := valsPut d s (32 * j) b.2.1 (as_.any (fun a => s.anyPoison a mb))
    (t.sramWrite (scaleAddr d (32 * j)) [BitVec.ofNat 8 b.1], acc.2 ||| b.2.2)
  | _, _ => acc

/-- Elements `lo` to `hi` − 1 of a fill. -/
def fillRun (s : State) (d : StreamDesc) (lo hi : Nat) : State × NumFlags :=
  if collects d then (List.range ((hi + 31) / 32 - lo / 32)).foldl (fun a i => fillBlock d hi a (lo / 32 + i)) (s, fNone)
  else (List.range (hi - lo)).foldl (fun a i => fillElem d a (lo + i)) (s, fNone)

/-- The scale byte and code of a slot-side value. -/
def valPair (d : StreamDesc) (s : State) (v : Nat) : Nat × Nat :=
  ((match fmtOf (SD.slotFmt d) with | some f => if f.isBlock then (Mem.get s.mem (scaleAddr d v)).toNat else 0 | none => 0), valGet d s v)
/-- Is any slot-side value of a range in a poisoned unit? -/
def valsBad (d : StreamDesc) (s : State) (v n : Nat) : Bool :=
  !s.ms.poison.isEmpty && (List.range n).any (fun i => s.poisoned (valAddr d (v + i)))

/-- One piece of a spill that starts at element `n` of `hi`: its address, bytes, flags and poison. A piece is one element; two where
plain values become an E2M1 byte; 1,024 where they become a block group, at the address of its first (log entry 60). -/
def spillPiece (s : State) (d : StreamDesc) (hi n : Nat) : Nat × List Byte × NumFlags × Bool :=
  let a := (s.elemAddr d n).toNat
  let v := n * perElem d
  match fmtOf (SD.src d), fmtOf (SD.dst d) with
  | some f, some g =>
    if SD.src d = SD.dst d then
      let ps := (List.range (perElem d)).map (fun i => valPair d s (v + i))
      let sc := if f.isBlock then (List.range 32).map (fun b => BitVec.ofNat 8 ((ps.getD (32 * b) (0, 0)).1)) else []
      (a, sc ++ plainBytes f (ps.map (·.2)), fNone, valsBad d s v (perElem d))
    else if g.isBlock && !f.isBlock then
      let m := min 1024 (hi - n)
      let ps := (List.range m).map (fun i => valPair d s (v + i))
      let bs := (List.range 32).map (fun b => strmBlock f g ((ps.drop (32 * b)).take 32))
      let cs := bs.flatMap (fun b => b.2.1)
      (a, bs.map (fun b => BitVec.ofNat 8 b.1) ++ plainBytes g (cs ++ List.replicate (1024 - cs.length) 0), orFlags (bs.map (fun b => b.2.2)),
       valsBad d s v m)
    else
      let m := if SD.dst d = 5 then min 2 (hi - n) else perElem d
      let rs := (List.range m).map (fun i => strmCast f g (SD.sat d) (valPair d s (v + i)))
      (a, plainBytes g (rs.map (·.1)), orFlags (rs.map (·.2)), valsBad d s v m)
  | _, _ => (a, [BitVec.ofNat 8 (valGet d s v)], fNone, valsBad d s v 1)
/-- Elements a piece of a spill takes. -/
def pieceStep (d : StreamDesc) : Nat :=
  if collects d then 1024 else if SD.dst d = 5 && SD.src d ≠ 5 && perElem d = 1 then 2 else 1

/-- A spill's writes: tiles it covers whole are written whole (R157); a refused write is a fault of the operator, the others stand,
and the stream does not signal (R91, R148). Poison goes along (R472). A write that waits knows the stream as `n` + 1. -/
def spillWrite (n h who : Nat) (s : State) (p : Nat × List Byte) : State :=
  if p.1 < uniEnd then
    let w := (cutTiles p.1 p.2).foldl (fun acc q =>
      if acc.2.1 ≠ 0 then acc
      else match acc.1.deny who q.1 true with
        | some e => (acc.1, e.1, e.2)
        | none => acc.1.writeTile ⟨who, some h, .write, q.1, q.2, q.2.length, n + 1, none, []⟩) (s, 0, 0)
    if w.2.1 = 0 then w.1
    else { w.1.opFaultAt h (BitVec.ofNat 8 w.2.1) (BitVec.ofNat 8 w.2.2) p.1 with
             strm := Map.modify w.1.strm n (fun x => { x with bad := true }) }
  else s.sramWrite p.1 p.2
/-- The first `hi` elements of a spill. -/
def spillRun (s : State) (d : StreamDesc) (n h who hi : Nat) : State × NumFlags :=
  let es := (List.range ((hi + pieceStep d - 1) / pieceStep d)).map (fun i => s.spillPiece d hi (i * pieceStep d))
  let t := (tileWrites (es.map (fun e => (e.1, e.2.1)))).foldl (spillWrite n h who) s
  let t := (es.filter (fun e => e.2.2.2)).foldl (fun u e => u.markUnits e.1 (rangeUnits e.1 e.2.1.length)) t
  (t, orFlags (es.map (fun e => e.2.2.1)))

/-- OR flags into an operator. -/
def opFlags (s : State) (h : Nat) (f : NumFlags) : State :=
  match s.op? h with
  | some o => s.opSet h { o with flags := o.flags ||| f }
  | none => s

/-- Slots of a fill whose elements are all written become FULL (R85, R87). -/
def slotsFull (s : State) (sls : List Nat) : State :=
  sls.foldl (fun t sl => if 0x20000 ≤ sl then t else t.slotState (sl / 64) (sl % 64) .full) s

/-- Cancel a stream: the slots it reserved and has not finished return to FREE, and it leaves every queue (R82, R116). -/
def cancelStream (s : State) (n : Nat) : State :=
  match Map.get? s.strm n with
  | none => s
  | some x =>
    let s := if SD.direct x.desc || x.st == .noContext || x.st == .flush then s else
      ((slotsAll x.desc).filter (fun sl => !((slotsOf x.desc).take x.done).contains sl)).foldl (fun t sl =>
        if 0x20000 ≤ sl then t
        else let v := t.slot (sl / 64) (sl % 64)
             if v.held.contains (.strm n) then t.slotSet (sl / 64) (sl % 64) { v with held := v.held.erase (.strm n) }
             else if v.st = .fill && !SD.spill x.desc then t.slotState (sl / 64) (sl % 64) .free else t) s
    { s with strm := Map.erase s.strm n, waiters := (Map.mapVals s.waiters (fun _ l => l.erase n)).filter (fun p => p.2 != [])
             ms := { s.ms with reads := s.ms.reads.filter (fun p => p.2.by_ != .strm n) } }

/-- Cancel every stream of an operator. -/
def cancelOpStreams (s : State) (h : Nat) : State :=
  ((s.strm.filter (fun p => p.2.op == h)).map (·.1)).foldl (fun t n => t.cancelStream n) s

/-- The element at which a running stream must stop, with its CODE, DETAIL and address (R82, R25, R169): an index entry misaligned or
leading where no stream may go is a bad one, in a spill into an engine tile with that code; a write into a weight region has its own
CODE; a fill also stops at a LOST tile. -/
def strmStop (s : State) (x : Strm) : Option (Nat × Nat × Nat × Nat) :=
  match s.op? x.op with
  | none => none
  | some o =>
    let d := x.desc
    let mb := strmElemBytes (SD.memFmt d)
    (List.range (SD.elems d)).findSome? (fun n =>
      let a := s.elemAddr d n
      if SD.idx d && (a % srcAlign (SD.src d) != 0 || !strmAddrOk a mb || s.strmBarred o.tenant a mb (SD.spill d)) then
        some (n, 2, 8, a.toNat)
      else if SD.idx d && SD.spill d && inTile a then some (n, 2, 7, a.toNat)
      else if uniEnd ≤ a.toNat then none
      else if SD.spill d then
        (if SD.idx d then (s.denyRange o.tenant a.toNat mb true).map (fun e => (n, e.2.1, e.2.2, e.1)) else none)
      else (s.readDeny o.tenant a.toNat mb).map (fun e => (n, e.1, e.2, a.toNat)))

/-- Does a link drained for re-mapping hold the data of a stream, between its memory's die and its core's (R28, R29)? -/
def strmMeshHeld (s : State) (x : Strm) : Bool :=
  !s.mesh.isEmpty && (s.elemAddrs x.desc).any (fun a => s.meshHeld (s.addrDie a.toNat) (coreDie x.core))

/-- Are writes of a stream still to become visible: waiting for a move or a frame, or on their way to another package (R91)? -/
def strmWrites (s : State) (n : Nat) (x : Strm) : Bool :=
  s.ms.waits.any (fun w => w.acc.op == some x.op && w.acc.fresh == n + 1) || s.remWrites x.op (n + 1)

/-- A stream ends: with SIG_EN, and none of its writes refused, its signal sets out once all are visible (R91). -/
def strmEnd (s : State) (n : Nat) (x : Strm) : State :=
  if s.strmWrites n x then s.strmSet n { x with st := .flush }
  else
    let s : State := { s with strm := Map.erase s.strm n }
    if SD.sigEn x.desc && !x.bad then { s with sigs := Map.set s.sigs (SD.sigCtr x.desc) (Map.get s.sigs 0 (SD.sigCtr x.desc) + 1) }
    else s

/-- Move elements `lo` to `hi` − 1 of a stream: the data, its flags, and the byte counts of the slot side (R79, R101). A direct-port
stream writes nothing. PAD clears the last slot first. -/
def strmMove (s : State) (n : Nat) (x : Strm) (lo hi : Nat) : State :=
  let d := x.desc
  let who := match s.op? x.op with | some o => o.tenant | none => 0
  if SD.direct d then s
  else if SD.spill d then
    let r := s.spillRun d n x.op who hi
    (r.1.opFlags x.op r.2).add64 (R.CORE_SPILL_BYTES_LO x.core) (valBytes (SD.src d) (hi * perElem d))
  else
    let s := if SD.pad d && x.done == 0 then s.sramWrite (slotAddr (SD.slot d + slotCount d - 1)) (List.replicate 65536 0) else s
    let r := s.fillRun d lo hi
    (r.1.opFlags x.op r.2).add64 (R.CORE_FILL_BYTES_LO x.core)
      (valBytes (SD.dst d) (hi * perElem d) - valBytes (SD.dst d) (lo * perElem d))

/-- A stream meets an element at which it stops: those before it are moved, the slots it had reserved return to FREE, and its
operator ends (R82, R169). -/
def strmBreak (s : State) (n : Nat) (x : Strm) (k code detail a : Nat) : State :=
  let t := (s.strmMove n x (elemsFor x.desc x.done) k).cancelStream n
  if code = 2 then
    (match t.op? x.op with
     | some o => (t.opFailOn x.op x.eng 2 (BitVec.ofNat 8 detail)).strmRefused x.core o detail
     | none => t)
  else t.opFaultIn x.op x.eng (BitVec.ofNat 8 code) (BitVec.ofNat 8 detail) a x.eng ((valAddr x.desc (k * perElem x.desc) - sramBase) / 65536)

end State

/-- STREAM_COMPLETE (R79, R82, R85, R87, R88, R91). With a number of slots, a fill has written every element of that many of its
first slots, which become FULL while later ones arrive (log entry 60); without, the stream's last element is moved: its slots become
FULL, and it ends once its writes are visible, with SIG_EN sending its signal. A stream that meets a bad index entry or a LOST tile
stops there. A stream moves nothing while a flash read it began is outstanding, or a drained mesh link holds its data. -/
def execStreamComplete (n : Nat) (slots : Option Nat) (s : State) : Out := keepQueue s <|
  match Map.get? s.strm n with
  | none => .next s
  | some x =>
    let d := x.desc
    if x.st = .flush then .next (s.strmEnd n x)
    else if x.st ≠ .run || s.reading (.strm n) || s.strmMeshHeld x then .next s
    else
      let k := slots.getD (slotCount d)
      let part := slots.isSome && decide (k < slotCount d)
      if slots.isSome && (SD.spill d || SD.direct d || decide (k ≤ x.done)) then .next s
      else
        let lo := elemsFor d x.done
        let hi := if part then elemsFor d k else SD.elems d
        match s.strmStop x with
        | some (j, code, detail, a) =>
          if j < hi then .next (s.strmBreak n x j code detail a)
          else .next (((s.strmMove n x lo hi).strmSet n { x with done := k }).slotsFull (((slotsOf d).take k).drop x.done))
        | none =>
          let t := s.strmMove n x lo hi
          if part then .next ((t.strmSet n { x with done := k }).slotsFull (((slotsOf d).take k).drop x.done))
          else
            let t := if SD.spill d || SD.direct d then t
                     else t.slotsFull ((slotsAll d).filter (fun sl => !((slotsOf d).take x.done).contains sl))
            .next (t.strmEnd n ((Map.get? t.strm n).getD x))

/-- STAGE_SIGNAL (R90 to R93): a signal on its way reaches its counter: it adds 1, or a counter at 0xFFFF_FFFF stays and the
overflow is recorded; a head waiter whose amount it reaches is released at once. -/
def execStageSignal (ctr : Nat) (s : State) : Out := keepQueue s <|
  let k := Map.get s.sigs 0 ctr
  if ctr < 16384 ∧ 0 < k then
    let s := { s with sigs := Map.put s.sigs 0 ctr (k - 1) }
    let u := ctr / 256
    let a := R.CLU_STAGE_CTR u (ctr % 256)
    let s := s.bump (R.CLU_SIG_CNT u)
    if s.rd a = 0xFFFFFFFF then
      (if s.rdB (R.CLU_CTR_ERR u) 31 then .next ((s.setBits (R.CLU_CTR_ERR u) 0x40000000#32).passAll ctr)
       else .next ((s.wr (R.CLU_CTR_ERR u) (BitVec.ofNat 32 (0x80000000 + ctr % 256))).passAll ctr))
    else .next ((s.wr a (s.rd a + 1)).passAll ctr)
  else .next s

/-- STAGE_CTR_WRITE (R93): the counter is set; the head waiter is compared at once, and passes where it is reached. -/
def execStageCtrWrite (ctr : Nat) (v : Word32) (s : State) : Out := keepQueue s <|
  if ctr < 16384 then .next ((s.plainWrite (R.CLU_STAGE_CTR (ctr / 256) (ctr % 256)) v).passAll ctr) else .next s

/-- SLOT_RELEASE (R87): from USE to FREE when the operator releases it, to FULL when the operator ends without. -/
def execSlotRelease (e slot : Nat) (release : Bool) (s : State) : Out := keepQueue s <|
  if (s.slot e slot).st = .use then .next (s.slotState e slot (if release then .free else .full)) else .next s

/-! ### Engines at work (R48 to R63, R88) -/

/-- Layout of the A operand of an engine by format class (R73): NAR on a Colt engine, PAN on an Ox engine. -/
def aLayout (colt : Bool) (f : Fmt) : Nat :=
  (match f.ebits with | 4 => 2 | 16 => 3 | _ => 1) + (if colt then 3 else 0)

namespace State

/-- The address of the operand at (lane, step) of a slot of engine `e`, and of its block's scale. -/
def operandAddrs (e sl lay scl lane k : Nat) : Nat × Nat :=
  let base := slotAddr (e * 64)
  (base + sl * 65536 + layOff lay lane k, base + scl + k / 32 * layLanes lay + lane)
/-- The operand at (lane, step) of a slot of engine `e`. -/
def operandAt (s : State) (e sl lay scl : Nat) (f : Fmt) (lane k : Nat) : EngElem :=
  let a := operandAddrs e sl lay scl lane k
  let b := (Mem.get s.mem a.1).toNat
  let c := if f.ebits = 4 then (if k % 2 = 0 then b % 16 else b / 16)
           else if f.ebits = 16 then leNat (s.bytesAt a.1 2) else b
  engElem f (Mem.get s.mem a.2).toNat c

/-- The stream element of a direct port that holds (lane, step): elements come in step order (R77, R89). -/
def portElem (d : StreamDesc) (lane k : Nat) : Nat := k / perElem d * layLanes (SD.layout d) + lane
/-- B from the direct port (R89). -/
def portAt (s : State) (d : StreamDesc) (f : Fmt) (lane k : Nat) : EngElem :=
  let n := strmElemBytes (SD.src d)
  let p := (elemPairs f (s.bytesAt (s.elemAddr d (portElem d lane k)).toNat n)).getD (k % perElem d) (0, 0)
  engElem f p.1 p.2
/-- The stream that feeds a group from the direct port (R61, R89): of this Colt engine, running, its data arrived, and reaching the
group's last step. None: a late delivery. -/
def portStream (s : State) (e : Nat) (g : GroupPlan) : Option StreamDesc :=
  match Map.get? s.strm g.port with
  | some x => if e % 4 = 3 && SD.direct x.desc && x.eng == e && x.st == .run && SD.src x.desc == g.bFmt && !s.reading (.strm g.port) &&
      decide (portElem x.desc 63 (g.bStep + g.kn - 1) < SD.elems x.desc) then some x.desc else none
  | none => none
/-- Does a group take B from the direct port? -/
def usesPort (g : GroupPlan) : Bool := g.bSlot == 0xFFFFF

/-- The bank `b` of an engine. -/
def bank (s : State) (e b : Nat) : Bank := if b = 0 then (s.engine e).bank0 else (s.engine e).bank1
/-- Set a bank. -/
def bankSet (s : State) (e b : Nat) (v : Bank) : State :=
  let g := s.engine e
  s.engineSet e (if b = 0 then { g with bank0 := v } else { g with bank1 := v })

/-- The slots a group reads (R88): its panels, their scale slots, and the slot of a start block or row (R56). -/
def groupSlots (g : GroupPlan) (fa fb : Fmt) : List Nat :=
  ([g.aSlot] ++ (if usesPort g then [] else [g.bSlot]) ++ (if fa.isMx then [g.aScale / 65536] else []) ++
    (if fb.isMx && !usesPort g then [g.bScale / 65536] else []) ++
    (if g.start = some 1 ∨ g.start = some 2 then [g.startAt / 65536] else [])).eraseDups

/-- A bank's word as the accumulator holds it. -/
def accNum (isInt : Bool) (w : Word32) : XNum := if isInt then intDecode 32 w.toNat else FpFmt.decode .fp32 w.toNat
/-- An accumulator value as a bank's word. -/
def accWord (isInt : Bool) (x : XNum) : Word32 :=
  if isInt then BitVec.ofInt 32 (x.toIntAt 0) else BitVec.ofNat 32 (castFp .fp32 .rne false x).1

/-- The start values of a bank (R56): zero, a block of the tile, a broadcast row, or the bank as it stands. -/
def bankStart (s : State) (e : Nat) (g : GroupPlan) : List Word32 :=
  let base := slotAddr (e * 64) + g.startAt
  match g.start with
  | some 0 => List.replicate (g.rows * 64) 0
  | some 1 => (List.range (g.rows * 64)).map (fun i => BitVec.ofNat 32 (leNat (s.bytesAt (base + 4 * i) 4)))
  | some 2 => (List.range (g.rows * 64)).map (fun i => BitVec.ofNat 32 (leNat (s.bytesAt (base + 4 * (i % 64)) 4)))
  | _ => (s.bank e g.bank).vals
/-- May the group use its bank (R56): a block's first group a free bank, or with source 3 a kept one; a later group the one its
operator computes in? A kept bank that another source starts from is given up (log entry 61). -/
def bankReady (s : State) (e : Nat) (g : GroupPlan) : Bool :=
  let b := s.bank e g.bank
  match g.start with
  | some 3 => b.st == .kept
  | some _ => b.st == .idle || b.st == .kept
  | none => b.st == .computing && b.op == g.op

/-- One group on one engine: every output element takes its exact group sum (R48 to R52). -/
def groupCompute (s : State) (e : Nat) (g : GroupPlan) (fa fb : Fmt) (k : AccKind) : List Word32 × NumFlags :=
  let colt := e % 4 = 3
  let la := aLayout colt fa
  let lb := aLayout false fb
  let isInt := k = .int
  let start := s.bankStart e g
  let as_ := (List.range g.rows).map (fun r => (List.range g.kn).map (fun i => s.operandAt e g.aSlot la g.aScale fa r (g.aStep + i)))
  let bs := (List.range 64).map (fun c => (List.range g.kn).map (fun i =>
    match s.portStream e g with
    | some d => if usesPort g then s.portAt d fb c (g.bStep + i) else s.operandAt e g.bSlot lb g.bScale fb c (g.bStep + i)
    | none => s.operandAt e g.bSlot lb g.bScale fb c (g.bStep + i)))
  let ni := if (as_.flatten ++ bs.flatten).any (fun x => x.num.isNan) || (g.start.isSome && !isInt &&
      start.any (fun w => (accNum false w).isNan)) then fNI else fNone
  let rs := (List.range (g.rows * 64)).map (fun i =>
    let r := accumulate k (accNum isInt (start.getD i 0)) ((as_.getD (i / 64) []).zip (bs.getD (i % 64) []))
    (accWord isInt r.1, r.2))
  (rs.map (·.1), orFlags (ni :: rs.map (·.2)))

/-- The bytes a group reads, as slot addresses (0xF_FFFF for the direct port) and local addresses (R86). -/
def groupReads (s : State) (e : Nat) (g : GroupPlan) (fa fb : Fmt) : List (Nat × Nat) :=
  let la := aLayout (e % 4 = 3) fa
  let lb := aLayout false fb
  let panel (sl lay scl lanes step : Nat) (f : Fmt) : List (Nat × Nat) :=
    (List.range lanes).flatMap (fun l => (List.range g.kn).flatMap (fun i =>
      let a := operandAddrs e sl lay scl l (step + i)
      (e * 64 + sl, a.1) :: (if f.isMx then [(e * 64 + scl / 65536, a.2)] else [])))
  let start := match g.start with
    | some 1 => (List.range (g.rows * 64)).map (4 * ·)
    | some 2 => (List.range 64).map (4 * ·)
    | _ => []
  panel g.aSlot la g.aScale g.rows g.aStep fa ++
  (match s.portStream e g with
   | some d => if usesPort g then
       ((List.range 64).flatMap (fun l => (List.range g.kn).map (fun i => portElem d l (g.bStep + i)))).eraseDups.flatMap (fun n =>
         (List.range (strmElemBytes (SD.src d))).map (fun j => (0xFFFFF, (s.elemAddr d n).toNat + j)))
     else panel g.bSlot lb g.bScale 64 g.bStep fb
   | none => panel g.bSlot lb g.bScale 64 g.bStep fb) ++
  start.map (fun o => (e * 64 + g.startAt / 65536, slotAddr (e * 64) + g.startAt + o))
/-- The first poisoned byte a group reads (R86). -/
def groupPoison (s : State) (e : Nat) (g : GroupPlan) (fa fb : Fmt) : Option (Nat × Nat) :=
  if s.ms.poison.isEmpty then none else (s.groupReads e g fa fb).find? (fun p => s.poisoned p.2)

/-- The ready queue an operator's part waits in: one for the Colt engine and one for the Ox engines of a core (R21). -/
def queueKey (e : Nat) : Nat := 2 * (e / 4) + (if e % 4 = 3 then 1 else 0)
/-- PRIO of an operator. -/
def opPrio (s : State) (h : Nat) : Nat := match s.op? h with | some o => CmdRecF.prio o.cmd | none => 0
/-- The first of a list of the highest PRIO. -/
def firstPrio {α : Type} (pr : α → Nat) (l : List α) : Option α :=
  let m := l.foldl (fun a x => max a (pr x)) 0
  l.find? (fun x => pr x == m)
/-- Operators queued for engine `e`: with a part still to run on it, and not suspended there. -/
def queuedOn (s : State) (e : Nat) : List Nat :=
  (Map.get s.readyQ [] (queueKey e)).filter (fun h =>
    !(s.engine e).susp.any (fun x => x.task.op == h) &&
    (match s.op? h with | some o => o.parts.contains e | none => false))
/-- The operator a ready queue gives engine `e` next: the highest PRIO, then the oldest (R117). -/
def queueHead (s : State) (e : Nat) : Option Nat := firstPrio s.opPrio (s.queuedOn e)

/-- May operator `h` run on engine `e` now: it runs already, or the engine is free and the queue gives it. -/
def mayRun (s : State) (e h : Nat) : Bool :=
  match (s.engine e).run with
  | some t => t.op == h
  | none => s.queueHead e == some h

/-- Is every operand of a group in FULL or USE slots, or delivered by the port (R88, R89)? -/
def groupReady (s : State) (e : Nat) (g : GroupPlan) (fa fb : Fmt) : Bool :=
  (groupSlots g fa fb).all (fun sl => (s.slot e sl).st == .full || (s.slot e sl).st == .use) &&
  (!usesPort g || (s.portStream e g).isSome)

end State

/-- ENGINE_GROUP_START (R48 to R52, R55, R56, R59 to R61, R63, R86 to R89): with every operand byte and scale in FULL or USE slots,
or delivered by the direct port, the group runs; a slot in FILL or a late delivery stalls the engine; a FREE slot ends the operator.
SECDED corrects `ce` words that are read, and finds a double error in the unit `ue`, which is poisoned (R469, R471). A group that reads
a poisoned unit marks its results. A plan no operator can have (a port on an Ox engine, a bank another block holds) changes nothing. -/
def execEngineGroupStart (e : Nat) (g : GroupPlan) (ce : Nat) (ue : Option Nat) (s : State) : Out := keepQueue s <|
  match s.op? g.op, fmtOf g.aFmt, fmtOf g.bFmt with
  | some o, some fa, some fb =>
    if e < 1536 ∧ o.dispatched = true ∧ o.parts.contains e = true ∧ s.mayRun e g.op = true ∧ 1 ≤ g.kn ∧ g.kn ≤ 32 ∧
       (State.usesPort g = false ∨ e % 4 = 3) then
      match accKind fa fb with
      | none => .next (s.opFailOn g.op e 3 1)
      | some k =>
        if (fa.isMx || fb.isMx) && g.kn ≠ 32 then .next (s.opFailOn g.op e 3 2)
        else
        let slots := State.groupSlots g fa fb
        match slots.find? (fun sl => decide ((s.slot e sl).st = .free)) with
        | some sl => .next (s.opFailOn g.op e 6 (BitVec.ofNat 8 sl))
        | none =>
          let task : Task := match (s.engine e).run with | some t => t | none => ⟨g.op, g.bank, 0, g.blocks, false⟩
          if !s.groupReady e g fa fb then
            .next (s.engineSet e { s.engine e with run := some { task with stalled := true } })
          else if !s.bankReady e g then .next s
          else
            let s := match ue with
              | some u => (((s.poisonAt u).bump (R.CDIE_SRAM_UE_CNT (e / 96))).raise (0x130 + e / 96) 3).errLatch (0x400 + e) 1 u
              | none => s
            let s := s.bump (R.CDIE_SRAM_CE_CNT (e / 96)) ce
            let bad := s.groupPoison e g fa fb
            let r := s.groupCompute e g fa fb k
            let was := (g.start.isNone || g.start == some 3) && (s.bank e g.bank).bad
            let s := slots.foldl (fun t sl => t.slotState e sl .use) s
            let s := s.bankSet e g.bank ⟨if g.last then .finished else .computing, g.op, decide (k = .int), r.1, was || bad.isSome⟩
            let s := s.engineSet e { s.engine e with
              run := some { task with bank := g.bank, pos := task.pos + 1, stalled := false, left := g.blocks } }
            let s := s.opFlags g.op r.2
            .next (match bad with
              | some (sl, a) => s.opFaultIn g.op e 9 0 a e sl
              | none => s)
    else .next s
  | _, _, _ => .next s

/-- Rounding of a cast: RND of NUM_CTL where the record gives none (R69, R108); FORCE_RNE takes precedence. True: SR. -/
def castSr (numCtl : Word32) (cast : Nat) : Bool :=
  !bit numCtl 8 && (cast % 4 == 2 || (cast % 4 == 0 && fld numCtl 1 0 == 1))
/-- Saturation of a cast (R69, R108): SAT8 for E4M3 and E5M2, SAT16 for FP32, BF16 and FP16. -/
def castSat (numCtl : Word32) (cast : Nat) (f : Fmt) : Bool :=
  match cast / 4 % 4 with
  | 1 => true
  | 2 => false
  | _ => match f with
    | .fp .e4m3 => bit numCtl 4
    | .fp .e5m2 => bit numCtl 4
    | .fp _ => bit numCtl 5
    | _ => true

/-- Transpose a row-major list of rows × cols into column-major order. -/
def colMajor {α : Type} (d : α) (rows cols : Nat) (l : List α) : List α :=
  (List.range (rows * cols)).map (fun i => l.getD (i % rows * cols + i / rows) d)
/-- The inverse of `colMajor`. -/
def rowMajor {α : Type} (d : α) (rows cols : Nat) (l : List α) : List α :=
  (List.range (rows * cols)).map (fun i => l.getD (i % cols * rows + i / cols) d)
/-- The values of a bank's `rows` × `cols` output elements, row by row; padded outputs are left out (R58). -/
def bankVals (rows cols : Nat) (vals : List Word32) : List Word32 :=
  (List.range (rows * cols)).map (fun i => vals.getD (i / cols * 64 + i % cols) 0)

namespace State

/-- Draws for `n` casts of operator `h` on engine `e` (R44, R407): none consumed under RNE. -/
def engDraws (s : State) (h e n : Nat) (sr : Bool) : List Rnd × State :=
  if sr then let r := s.drawCopy h e n; (r.1.map (fun o => .sr (srDraw o)), r.2) else (List.replicate n .rne, s)

/-- Cast a list of values block by block of 32 (R39, R40, R54): codes and scale bytes. -/
def castBlocks (f : Fmt) (rs : List Rnd) (xs : List XNum) : List Nat × List Nat × NumFlags :=
  let bs := ((groups32 xs).zip (groups32 rs)).map (fun p => castBlock f p.2 p.1)
  (bs.flatMap (fun b => b.2.1), bs.map (·.1), orFlags (bs.map (fun b => b.2.2)))

/-- May a drain write its slot so (R54, R73): a layout that holds the format and the rows; blocks whole, and in a panel along the
columns, which are its steps (log entry 61)? The code of the OPERAND error, 0 where it may. -/
def drainCheck (d : DrainPlan) (f : Fmt) : Nat :=
  if 8 ≤ d.layout || !layHolds d.layout d.fmt || (layPanel d.layout && f.isBlock && d.alongRows) then 1
  else if f.isBlock && (d.pos % 32 ≠ 0 || (if d.alongRows then d.rows else d.cols) % 32 ≠ 0) then 2
  else if layPanel d.layout && (layLanes d.layout < d.rows || layKp d.layout < d.pos + d.cols) then 3
  else 0
/-- Where drained value `i`, in row-major order, stands in the order of a LIN slot: the element order of its blocks (R38). -/
def drainPos (d : DrainPlan) (i : Nat) : Nat := d.pos + (if d.alongRows then i % d.cols * d.rows + i / d.cols else i)
/-- The address of drained value `i` in its slot (R73): PAN and NAR with output column j as step k = j, ACC32, or LIN. -/
def drainAddr (e : Nat) (d : DrainPlan) (i : Nat) : Nat :=
  let base := slotAddr (e * 64 + d.slot)
  if layPanel d.layout then base + layOff d.layout (i / d.cols) (d.pos + i % d.cols)
  else if d.layout = 7 then base + (d.pos * 4096 + i / d.cols * 64 + i % d.cols) * 4
  else base + linOff d.fmt (drainPos d i)
/-- Write one drained code. -/
def drainPut (e : Nat) (d : DrainPlan) (f : Fmt) (s : State) (p : Nat × Nat) : State :=
  let a := drainAddr e d p.1
  if f.ebits = 4 then
    let k := if layPanel d.layout then d.pos + p.1 % d.cols else drainPos d p.1
    let old := (Mem.get s.mem a).toNat
    s.sramWrite a [BitVec.ofNat 8 (if k % 2 = 0 then old / 16 * 16 + p.2 else old % 16 + 16 * p.2)]
  else s.sramWrite a (leBytes (f.ebits / 8) p.2)
/-- The address of the scale of block `b` of a drain, its blocks in the order they run (R38, R74): in the panel's slice, block g of
lane l at g × L + l; in LIN, with its group. -/
def drainScale (e : Nat) (d : DrainPlan) (b : Nat) : Nat :=
  if layPanel d.layout then
    let per := d.cols / 32
    slotAddr (e * 64) + d.scale + (d.pos / 32 + b % per) * layLanes d.layout + b / per
  else slotAddr (e * 64 + d.slot) + linScale d.fmt (d.pos + 32 * b)
/-- The slots a drain writes: its own, and the scale slot of an MX panel. -/
def drainSlots (d : DrainPlan) (f : Fmt) : List Nat := ([d.slot] ++ (if layPanel d.layout && f.isMx then [d.scale / 65536] else [])).eraseDups

/-- The drain itself (R54, R56, R60): each accumulator is multiplied, cast with its draws in drain order, and written; marked where
the bank is (R86). Its slots end FULL and the bank is free. -/
def drainNow (s : State) (e bank : Nat) (d : DrainPlan) (o : RunOp) (f : Fmt) : State :=
  let b := s.bank e bank
  let k : AccKind := if b.isInt then .int else .group
  let nc := Map.get o.numCtl (s.rd (R.OXE_NUM_CTL e)) e
  let sr := castSr nc d.cast
  let sat := castSat nc d.cast f
  let m := FpFmt.decode .fp32 d.mul.toNat
  let vs := bankVals d.rows d.cols b.vals
  let ys := vs.map (fun w => drainMul k m (accNum b.isInt w))
  let dr := s.engDraws d.op e vs.length sr
  let xs := ys.map (·.1)
  let r : List Nat × List Nat × NumFlags :=
    if f.isBlock then
      (if d.alongRows then
         let q := castBlocks f (colMajor .rne d.rows d.cols dr.1) (colMajor .nan d.rows d.cols xs)
         (rowMajor 0 d.rows d.cols q.1, q.2.1, q.2.2)
       else castBlocks f dr.1 xs)
    else
      let cs := List.zipWith (fun x r => castElem f r sat x) xs dr.1
      (cs.map (·.1), [], orFlags (cs.map (·.2)))
  let t := dr.2
  let t := ((List.range r.1.length).zip r.1).foldl (drainPut e d f) t
  let t := ((List.range r.2.1.length).zip r.2.1).foldl (fun u p => u.sramWrite (drainScale e d p.1) [BitVec.ofNat 8 p.2]) t
  let t := if b.bad then
      ((List.range r.1.length).map (drainAddr e d) ++ (List.range r.2.1.length).map (drainScale e d)).foldl (fun u a => u.poisonAt (a / 64)) t
    else t
  let t := (drainSlots d f).foldl (fun u k => u.slotState e k .full) t
  let t := t.bankSet e bank Bank.none
  let t := t.engineSet e { t.engine e with drains := Map.erase (t.engine e).drains bank }
  t.opFlags d.op (r.2.2 ||| orFlags (ys.map (·.2)) ||| (if m.isNan then fNI else fNone))

end State

/-- BANK_DRAIN (R54, R56, R60, R87): a finished bank is kept, or drained into its slot. A slot in USE or FILL, or on which others are
held, holds the drain in issue order. -/
def execBankDrain (e bank : Nat) (d : DrainPlan) (s : State) : Out := keepQueue s <|
  match s.op? d.op, fmtOf d.fmt with
  | some o, some f =>
    let b := s.bank e bank
    if e < 1536 ∧ b.st = .finished ∧ b.op = d.op ∧ (Map.get? (s.engine e).drains bank).isNone = true then
      if d.keep then .next (s.bankSet e bank { b with st := .kept })
      else if State.drainCheck d f ≠ 0 then .next (s.opFailOn d.op e 3 (BitVec.ofNat 8 (State.drainCheck d f)))
      else if (State.drainSlots d f).all (fun k => ((s.slot e k).st == .free || (s.slot e k).st == .full) && (s.slot e k).held.isEmpty) then
        .next (s.drainNow e bank d o f)
      else
        let t := (State.drainSlots d f).foldl (fun u k =>
          let v := u.slot e k
          if (v.st == .free || v.st == .full) && v.held.isEmpty then u.slotState e k .fill
          else u.slotSet e k { v with held := v.held ++ [.drain e bank] }) s
        .next (t.engineSet e { t.engine e with drains := Map.set (t.engine e).drains bank d })
    else .next s
  | _, _ => .next s

/-- FILL_START (R87): a fill, spill or drain held on a slot starts once the slot leaves the state that held it, in issue order. -/
def execFillStart (q : HeldReq) (s : State) : Out := keepQueue s <|
  match q with
  | .strm n =>
    match Map.get? s.strm n with
    | some x =>
      if x.st = .waitSlot ∧ (slotsAll x.desc).all (s.headReady q (SD.spill x.desc)) then
        .next (((slotsAll x.desc).foldl (State.unhold q (SD.spill x.desc)) s).strmGo n x)
      else .next s
    | none => .next s
  | .drain e bank =>
    match Map.get? (s.engine e).drains bank with
    | some d =>
      match s.op? d.op, fmtOf d.fmt with
      | some o, some f =>
        let sls := (State.drainSlots d f).map (fun k => e * 64 + k)
        if sls.all (s.headReady q false) then .next ((sls.foldl (State.unhold q false) s).drainNow e bank d o f) else .next s
      | _, _ => .next s
    | none => .next s

/-- NEXT_OP_PREFETCH (R94): with PF_BLOCKS or fewer blocks of the running task left to start, the first fills of the operator queued
next for the engine are issued, and only into slots that are FREE or FULL. -/
def execNextOpPrefetch (e h : Nat) (ds : List StreamDesc) (s : State) : Out := keepQueue s <|
  match (s.engine e).run with
  | some t =>
    let pf := s.rdF (R.CORE_STRM_CTL (e / 4)) 3 0
    if e < 1536 ∧ pf ≠ 0 ∧ t.pos ≠ 0 ∧ t.left ≤ pf ∧ State.firstPrio s.opPrio ((s.queuedOn e).filter (· != t.op)) = some h then
      .next ((ds.filter (fun d => !SD.spill d && !SD.direct d && (slotsAll d).all (fun sl => decide (0x20000 ≤ sl) ||
        (s.slot (sl / 64) (sl % 64)).st == .free || (s.slot (sl / 64) (sl % 64)).st == .full))).foldl
        (fun t d => t.issueStream e h d) s)
    else .next s
  | none => .next s

/-! ### Task switching (R95 to R98) -/

namespace State
/-- The save slot of an engine (R97). -/
def saveSlot (e : Nat) : Nat := if e % 4 = 3 then 47 else 23
/-- Save a bank's words in the save slot at place `i` of 4 (R97). -/
def saveBank (s : State) (e i : Nat) (vals : List Word32) : State :=
  s.sramWrite (slotAddr (e * 64 + saveSlot e) + i * 16384) (vals.flatMap (fun w => leBytes 4 w.toNat))
/-- The lowest place of the save slot that no suspended task uses. -/
def freePlace (l : List Susp) : Nat := ((List.range 4).find? (fun i => !l.any (fun x => x.place == i))).getD 0

/-- Is the first group of a task's next block, as its plan gives it, ready (R95)? -/
def planReady (s : State) (e : Nat) (p : GroupPlan) : Bool :=
  match fmtOf p.aFmt, fmtOf p.bFmt with
  | some fa, some fb => s.groupReady e p fa fb
  | _, _ => false
/-- Is operator `h`'s task ready, by the plans of the candidates' next groups? -/
def taskReady (s : State) (e : Nat) (plans : List GroupPlan) (h : Nat) : Bool := plans.any (fun p => p.op == h && s.planReady e p)
/-- The suspended tasks of an engine whose late data has arrived, oldest first. -/
def suspReady (s : State) (e : Nat) (plans : List GroupPlan) : List Susp :=
  (s.engine e).susp.filter (fun x => s.taskReady e plans x.task.op)
/-- Operators queued for the engine, marked switchable, not the one that runs, and ready (R95). -/
def newReady (s : State) (e : Nat) (plans : List GroupPlan) : List Nat :=
  (s.queuedOn e).filter (fun h => !((s.engine e).run.any (fun t => t.op == h)) && s.taskReady e plans h &&
    (match s.op? h with | some o => CmdRecF.switch o.cmd | none => false))
/-- PRIO of a suspended task. -/
def suspPrio (s : State) (x : Susp) : Nat := s.opPrio x.task.op
/-- The candidate a stalled engine picks (R95): the highest PRIO; among equals a suspended task before a new operator, and the older
suspension first. -/
def nextTask (s : State) (e : Nat) (plans : List GroupPlan) : Option (Susp ⊕ Nat) :=
  match firstPrio s.suspPrio (s.suspReady e plans), firstPrio s.opPrio (s.newReady e plans) with
  | some x, some h => if s.opPrio h ≤ s.suspPrio x then some (.inl x) else some (.inr h)
  | some x, none => some (.inl x)
  | none, some h => some (.inr h)
  | none, none => none

/-- Suspend the running task at a stall (R96, R97): its bank, where it computes in it, is saved and freed; a switch is counted. -/
def suspendRun (s : State) (e : Nat) (t : Task) : State :=
  let g := s.engine e
  let b := s.bank e t.bank
  let mine := b.st == .computing && b.op == t.op
  let pl := freePlace g.susp
  let s := if mine then s.saveBank e pl b.vals else s
  let s := s.engineSet e { s.engine e with susp := g.susp ++ [⟨t, if mine then b else Bank.none, pl⟩], run := none }
  (if mine then s.bankSet e t.bank Bank.none else s).bump (R.OXE_SW_CNT e)
/-- Restore a suspended task in bank `b` (R96, R98): a task suspended in the midst of a block takes up its saved bank there. -/
def restore (s : State) (e : Nat) (x : Susp) (b : Nat) : State :=
  let g := s.engine e
  let mid := x.saved.st == .computing
  let s := s.engineSet e { g with susp := g.susp.erase x, run := some { x.task with bank := if mid then b else x.task.bank, stalled := false } }
  if mid then s.bankSet e b x.saved else s
/-- A stall of the running task has lasted `cycles` (R95 to R97): with switching enabled, the threshold reached, fewer than four tasks
suspended and a candidate ready, the engine switches to it; else the cycles are counted. -/
def stallSwitch (s : State) (e cycles : Nat) (plans : List GroupPlan) (t : Task) : State :=
  let g := s.engine e
  match (if bit g.swCtl 31 && decide (fld g.swCtl 15 0 ≤ cycles) && decide (g.susp.length < 4) then s.nextTask e plans else none) with
  | none => s.bump (R.OXE_STALL_CYC e) cycles
  | some (.inl x) => (s.suspendRun e t).restore e x t.bank
  | some (.inr h) =>
    let u := s.suspendRun e t
    let n := ((plans.find? (fun p => p.op == h)).map (·.blocks)).getD 0
    u.engineSet e { u.engine e with run := some ⟨h, t.bank, 0, n, false⟩ }
/-- The idle bank a task may be restored into beside a task that uses bank `b`. -/
def idleBank (s : State) (e b : Nat) : Option Nat :=
  if (s.bank e (1 - b)).st = .idle then some (1 - b) else if (s.bank e b).st = .idle then some b else none
end State

/-- TASK_SWITCH (R95 to R97): the running task has been stalled on late data for `cycles`; `plans` gives, for each candidate, the
first group of its next block. -/
def execTaskSwitch (e cycles : Nat) (plans : List GroupPlan) (s : State) : Out := keepQueue s <|
  match (s.engine e).run with
  | some t => if e < 1536 ∧ t.stalled = true then .next (s.stallSwitch e cycles plans t) else .next s
  | none => .next s

/-- TASK_RESUME (R96, R98): at a stall as TASK_SWITCH; at a block boundary, where no bank of the running task computes, the ready
suspended task of highest PRIO, not below the running one's, is restored into an idle bank, and the running task goes back to its
queue (log entry 61). -/
def execTaskResume (e cycles : Nat) (plans : List GroupPlan) (s : State) : Out := keepQueue s <|
  if e < 1536 then
    match (s.engine e).run, State.firstPrio s.suspPrio (s.suspReady e plans) with
    | some t, c =>
      if t.stalled then .next (s.stallSwitch e cycles plans t)
      else if (s.bank e t.bank).st = .computing then .next s
      else match c with
        | some x =>
          if s.opPrio t.op ≤ s.suspPrio x then
            match s.idleBank e t.bank with
            | some b => .next (s.restore e x b)
            | none => .next s
          else .next s
        | none => .next s
    | none, some x =>
      match s.idleBank e x.task.bank with
      | some b => .next (s.restore e x b)
      | none => .next s
    | none, none => .next s
  else .next s

end Sys2Proof.Machine
end

