-- ==== Sys2Proof/Machine/Tensor.lean ====
section
/-! DEFINITION. Tensors of operands (R109), how an operator's effect is run once, and the draws of vector-unit casts. -/
namespace Sys2Proof.Machine
open Sys2Proof

/-- What the catalogue says of an opcode (R121): the units it may run on, the operand words that are input tensors and
those that are output tensors, and how many outputs a CAST nibble can apply to (log entry 15). -/
structure OpInfo where
  units : List Nat
  ins : List Nat
  outs : List Nat
  casts : Nat
deriving DecidableEq, Repr

/-- The operator catalogue (R121). -/
def opInfo (opc : Nat) : Option OpInfo :=
  match opc with
  | 0x0001 => some ⟨[4, 2], [0], [1], 1⟩
  | 0x0002 => some ⟨[4], [], [0], 1⟩
  | 0x0003 => some ⟨[4], [0, 1], [2], 1⟩
  | 0x0010 => some ⟨[5], [], [], 0⟩
  | 0x0011 => some ⟨[5], [], [], 0⟩
  | 0x0100 => some ⟨[0, 1], [0, 1], [2], 1⟩
  | 0x0101 => some ⟨[0], [0, 1], [2], 1⟩
  | 0x0102 => some ⟨[0, 1], [0, 1], [2], 1⟩
  | 0x0200 => some ⟨[0], [0, 1, 2], [3, 4, 5], 2⟩
  | 0x0201 => some ⟨[0], [0, 1, 2, 3, 4, 5], [6], 2⟩
  | 0x0202 => some ⟨[1], [0], [2, 3, 4], 2⟩
  | 0x0203 => some ⟨[1], [], [], 2⟩
  | 0x0204 => some ⟨[2], [0], [1], 1⟩
  | 0x0300 => some ⟨[2], [0, 1, 2], [], 1⟩
  | 0x0301 => some ⟨[2], [0, 1], [2], 1⟩
  | 0x0302 => some ⟨[2], [0, 1, 2], [3], 1⟩
  | 0x0303 => some ⟨[2], [0], [1, 2], 2⟩
  | 0x0304 => some ⟨[2], [0], [1], 1⟩
  | 0x0305 => some ⟨[2], [0], [1], 1⟩
  | 0x0306 => some ⟨[2], [], [0], 1⟩
  | 0x0400 => some ⟨[2], [0, 1], [2, 3], 2⟩
  | 0x0401 => some ⟨[2], [0], [1], 1⟩
  | 0x0402 => some ⟨[2], [0], [1], 1⟩
  | 0x0403 => some ⟨[2], [0, 1, 2], [3], 1⟩
  | 0x0404 => some ⟨[2], [0, 1, 2, 3, 4], [5, 6], 2⟩
  | 0x0405 => some ⟨[2], [0, 1, 2], [3, 4], 2⟩
  | 0x0500 => some ⟨[3, 2], [], [], 2⟩
  | 0x0501 => some ⟨[3], [0], [1], 1⟩
  | 0x0502 => some ⟨[3], [0], [1], 1⟩
  | 0x0503 => some ⟨[5], [], [], 0⟩
  | 0x0600 => some ⟨[5], [1], [2], 1⟩
  | 0x0601 => some ⟨[5], [1], [2], 1⟩
  | 0x0602 => some ⟨[5], [1], [2], 1⟩
  | 0x0603 => some ⟨[5], [1], [2], 1⟩
  | 0x0604 => some ⟨[5], [1], [], 0⟩
  | 0x0605 => some ⟨[5], [], [2], 1⟩
  | 0x0700 => some ⟨[5], [], [], 0⟩
  | 0x0701 => some ⟨[5], [], [], 0⟩
  | 0x0702 => some ⟨[5], [], [], 0⟩
  | 0x0703 => some ⟨[5], [], [], 0⟩
  | 0x0800 => some ⟨[5], [], [], 0⟩
  | 0x0801 => some ⟨[5], [], [], 0⟩
  | 0x0F00 => some ⟨[0, 1, 2, 3, 4, 5], [], [], 0⟩
  | 0x0F01 => some ⟨[5], [], [], 0⟩
  | 0x0F02 => some ⟨[5], [], [], 0⟩
  | _ => none

/-- Operand word `i` of a record (R108). -/
def wordOf (c : CmdRec) (i : Nat) : Word64 :=
  match i with
  | 0 => c.w0 | 1 => c.w1 | 2 => c.w2 | 3 => c.w3 | 4 => c.w4 | 5 => c.w5 | 6 => c.w6 | _ => c.w7

/-- Why an operator ends other than OK: CODE and DETAIL (R125), the local address of the access that failed where one did
(R126), and the state with the operator's earlier writes, which stand (R148). -/
structure Err where
  code : Nat
  detail : Nat
  place : Option Nat
  left : Option State

/-- CODE and DETAIL alone. -/
def Err.of (code detail : Nat) : Err := ⟨code, detail, none, none⟩
/-- CODE and DETAIL of an access at a local address. -/
def Err.access (e : Nat × Nat) (a : Nat) : Err := ⟨e.1, e.2, some a, none⟩

/-- A tensor in memory: its descriptor, format, rows and columns. DIM0 holds the columns; the other dimensions the rows
(log entry 12). -/
structure Tensor where
  d : StreamDesc
  fmt : Fmt
  raw : Bool
  rows : Nat
  cols : Nat
deriving DecidableEq, Repr

/-- A stream descriptor from its 64 bytes (R75). -/
def descOf (bs : List Byte) : StreamDesc :=
  let q (i : Nat) : Word64 := BitVec.ofNat 64 (leNat ((bs.drop i).take 8))
  let d (i : Nat) : Word32 := BitVec.ofNat 32 (leNat ((bs.drop i).take 4))
  ⟨q 0, q 8, q 0x10, q 0x18, q 0x20, q 0x28, d 0x30, d 0x34, d 0x38, d 0x3C⟩

/-- Does a tensor descriptor set a field it must leave zero, or another version (R109)? -/
def tdescReserved (d : StreamDesc) : Bool :=
  fld d.ctl 3 0 ≠ 1 || d.slot ≠ 0 || d.aux ≠ 0 || d.sync ≠ 0 || fld d.ctl 31 28 ≠ 0 || fld d.ctl 25 16 ≠ 0 ||
    fld d.ctl 7 4 ≠ 0

namespace State

/-- The first access of a read that fails, with its address (R126, R143, R149, R169). -/
def readErr (s : State) (who a n : Nat) : Option Err :=
  (tilesOf a n).findSome? (fun t =>
    let x := max a (t * tileBytes)
    (s.readDeny who x 1).map (fun e => Err.access e x))

/-- The bytes of a range an operator reads. -/
def readOp (s : State) (who a n : Nat) : Except Err (List Byte) :=
  match s.readErr who a n with
  | some e => .error e
  | none => .ok (s.bytesAt a n)

/-- An operator fails (R120, R126, R148): its CODE and DETAIL, unless it has one; the failed access is counted and, if first,
named; a refused descriptor is latched for its first core (R82). -/
def opErrOn (s : State) (h : Nat) (e : Err) : State :=
  let s := e.left.getD s
  match s.op? h with
  | none => s
  | some o =>
    let s := match e.place with
      | some a => s.opFaultAt h (BitVec.ofNat 8 e.code) (BitVec.ofNat 8 e.detail) a
      | none => s.opFail h (BitVec.ofNat 8 e.code) (BitVec.ofNat 8 e.detail)
    if e.code = 2 then s.strmRefused (CmdRecF.firstCore o.cmd) o e.detail else s
/-- An operator fails, and its effect has ended. -/
def opErr (s : State) (h : Nat) (e : Err) : State :=
  let s := s.opErrOn h e
  match s.op? h with
  | some o => s.opSet h { o with ran := true }
  | none => s

/-- The 64 bytes of a descriptor or parameter block at a local address (R109): aligned to 64 bytes, in the tenant's
unified range. -/
def block64 (s : State) (who : Nat) (w : Word64) : Except Err (List Byte) :=
  if w.toNat % 64 ≠ 0 then .error (.of 3 3)
  else if uniEnd ≤ w.toNat then .error (.access (4, 1) w.toNat)
  else match s.deny who w.toNat false with
    | some _ => .error (.access (4, 1) w.toNat)
    | none => if (s.tile (w.toNat / tileBytes)).st = .lost then .error (.access (0x0A, 2) w.toNat) else .ok (s.bytesAt w.toNat 64)

/-- The refusal code of a tensor descriptor, 0 where it stands (R80, R82, R109): the lowest where several apply (log entry 10);
a bad index entry gives 8. -/
def tensorCode (s : State) (who : Nat) (d : StreamDesc) (wr : Bool) : Nat :=
  let n := strmElemBytes (SD.src d)
  let al := srcAlign (SD.src d)
  let it := fld d.dim4 47 0
  let ix := SD.idx d
  let as_ := s.elemAddrs d
  let out := as_.any (fun a => !strmAddrOk a n && !rawRange a n)
  let barred := as_.any (fun a => decide (uniEnd ≤ a.toNat) || s.strmBarred who a n wr)
  if tdescReserved d then 1
  else if fld d.base 63 52 ≠ 0 || (!ix && out) || (ix && uniEnd < it + 8 * SD.count d.dim4) then 2
  else if (!ix && barred) || (ix && (s.readDeny who it (8 * SD.count d.dim4)).isSome) then 3
  else if SD.src d ≠ SD.dst d || SD.src d = 15 then 4
  else if d.base.toNat % al != 0 || (strides d).any (fun a => a % al != 0) || (ix && it % 8 != 0) || as_.any (fun a => a % al != 0) ||
    (ix && (out || barred)) then 8
  else 0

/-- The tensor an operand word names, for reading or for writing (R109, R143, R25). -/
def tensor (s : State) (who : Nat) (w : Word64) (wr : Bool) : Except Err Tensor :=
  match s.block64 who w with
  | .error e => .error e
  | .ok bs =>
    let d := descOf bs
    let c := s.tensorCode who d wr
    if c ≠ 0 then .error (.of 2 c)
    else
      let as_ := s.elemAddrs d
      let n := strmElemBytes (SD.src d)
      match (if wr then as_.findSome? (fun a => (s.denyRange who a.toNat n wr).map (fun e => Err.access e.2 e.1))
             else as_.findSome? (fun a => s.readErr who a.toNat n)) with
      | some e => .error e
      | none =>
        .ok ⟨d, (fmtOf (SD.src d)).getD .int8, SD.src d == 14, SD.elems d / SD.count d.dim0, SD.count d.dim0 * strmElemK (SD.src d)⟩

/-- Scale bytes and codes of a whole tensor, row-major. -/
def tensorCodes (s : State) (t : Tensor) : List (Nat × Nat) :=
  (s.elemAddrs t.d).flatMap (fun a => elemPairs t.fmt (s.bytesAt a.toNat (strmElemBytes (SD.src t.d))))

/-- A tensor's numbers, row-major (R34, R38). -/
def tensorNums (s : State) (t : Tensor) : List XNum := (s.tensorCodes t).map (fun p => t.fmt.scaled p.1 p.2)

/-- The first poisoned access of a tensor, as the address of a fault. -/
def poisonOf (s : State) (t : Tensor) : Nat :=
  let n := strmElemBytes (SD.src t.d)
  match (s.elemAddrs t.d).find? (fun a => s.anyPoison a.toNat n) with
  | some a => s.firstPoison a.toNat n
  | none => t.d.base.toNat
/-- Is any byte of a tensor in a poisoned unit? -/
def tensorPoison (s : State) (t : Tensor) : Bool :=
  (s.elemAddrs t.d).any (fun a => s.anyPoison a.toNat (strmElemBytes (SD.src t.d))) ||
    (SD.idx t.d && s.anyPoison (fld t.d.dim4 47 0) (8 * SD.count t.d.dim4))

/-- The bytes of one stream element from its codes. -/
def elemBytes (f : Fmt) (sc cs : List Nat) : List Byte :=
  if f.isBlock then
    sc.map (BitVec.ofNat 8) ++
    (if f.ebits = 4 then (List.range (cs.length / 2)).map (fun i => BitVec.ofNat 8 (cs.getD (2 * i) 0 + 16 * cs.getD (2 * i + 1) 0))
     else cs.flatMap (fun c => leBytes (f.ebits / 8) c))
  else if f = .fp .e2m1 then [BitVec.ofNat 8 (cs.getD 0 0 + 16 * cs.getD 1 0)]
  else leBytes ((f.ebits + 7) / 8) (cs.getD 0 0)

/-- Write one piece of an operator's output, tile by tile, poisoned where `bad`; a refused write is the operator's error, and its
earlier writes stand (R148, R472). -/
def putElem (h who : Nat) (bad : Bool) (acc : Except Err State) (p : Int × List Byte) : Except Err State :=
  (cutTiles p.1.toNat p.2).foldl (fun acc q =>
    match acc with
    | .error e => .error e
    | .ok s =>
      match s.deny who q.1 true with
      | some e => .error ⟨e.1, e.2, some q.1, some s⟩
      | none =>
        let w := s.writeTile ⟨who, some h, .write, q.1, q.2, q.2.length, 0, none, if bad then rangeUnits q.1 q.2.length else []⟩
        if w.2.1 ≠ 0 then .error ⟨w.2.1, w.2.2, some q.1, some w.1⟩ else .ok w.1) acc
/-- Write the pieces of an operator's output; a tile they cover whole is written whole (R155, R157). -/
def putAll (h who : Nat) (bad : Bool) (acc : Except Err State) (ps : List (Int × List Byte)) : Except Err State :=
  (tileWrites (ps.map (fun p => (p.1.toNat, p.2)))).foldl (fun a p => putElem h who bad a ((p.1 : Nat), p.2)) acc

/-- Write codes (and scale bytes of blocks) into a tensor, row-major. -/
def tensorPut (s : State) (h who : Nat) (bad : Bool) (t : Tensor) (codes scales : List Nat) : Except Err State :=
  let k := strmElemK (SD.src t.d)
  let es := (List.range (SD.elems t.d)).map (fun n =>
    elemBytes t.fmt ((scales.drop (32 * n)).take 32) ((codes.drop (k * n)).take k))
  putAll h who bad (.ok s) ((s.elemAddrs t.d).zip es)

/-- Vector-unit casts draw from the generator of the lane that performs them: rows go to units in turn, and within a core
element i of what it processes goes to lane i mod 512 (R44, R118; log entry 13). One draw per element, in order. -/
def laneRnds (s : State) (cores : List Nat) (rows cols : Nat) (sr : Bool) : List Rnd × State :=
  if sr then
    (List.range (rows * cols)).foldl (fun acc i =>
      let r := i / cols
      let c := cores.getD (r % cores.length) 0
      let g := laneIdx c ((r / cores.length * cols + i % cols) % 512)
      let d := acc.2.draw g 1
      (acc.1 ++ [.sr (srDraw (d.1.headD 0))], d.2)) ([], s)
  else (List.replicate (rows * cols) .rne, s)

/-- Cast numbers to a tensor's format and write them; `src` is the format they come from (R45). -/
def tensorCast (s : State) (h who : Nat) (bad : Bool) (t : Tensor) (src : Fmt) (sat : Bool) (rs : List Rnd) (xs : List XNum) :
    Except Err (State × NumFlags) :=
  let vs := xs.map (castVia src t.fmt sat)
  let fl := orFlags (vs.map (·.2))
  if t.fmt.isBlock then
    let q := castBlocks t.fmt rs (vs.map (·.1))
    (s.tensorPut h who bad t q.1 q.2.1).map (fun u => (u, fl ||| q.2.2))
  else
    let cs := List.zipWith (fun v r => castEnd src t.fmt r sat v.1) vs rs
    (s.tensorPut h who bad t (cs.map (·.1)) []).map (fun u => (u, fl ||| orFlags (cs.map (·.2))))

/-- Vector-unit output: the record's cast control, with the reset NUM_CTL as default (log entry 14). -/
def vecOut (s : State) (h : Nat) (o : RunOp) (bad : Bool) (cast : Nat) (t : Tensor) (src : Fmt) (xs : List XNum) :
    Except Err State :=
  let sr := castSr 0x10 cast
  let sat := castSat 0x10 cast t.fmt
  let r := s.laneRnds (CmdRecF.cores o.cmd) t.rows t.cols sr
  match r.2.tensorCast h o.tenant bad t src sat r.1 xs with
  | .error e => .error e
  | .ok q => .ok (q.1.opFlags h q.2)

/-- NI where an input holds NaN (R67). -/
def niOf (xs : List XNum) : NumFlags := if xs.any XNum.isNan then fNI else fNone

/-- May a dispatched operator start on its units (R21, R117)? On engines, each gives it its turn; a vector unit, MFU or stream unit
takes first the operator of higher PRIO, or dispatched earlier, that waits for it on the same core (log entry 62). -/
def mayStart (s : State) (h : Nat) (o : RunOp) : Bool :=
  let u := CmdRecF.unit o.cmd
  if u ≤ 1 then o.parts.all (fun e => s.mayRun e h)
  else if u ≤ 4 then
    !s.ops.any (fun p => p.1 != h && p.2.dispatched && !p.2.ran && p.2.code == 0 && CmdRecF.unit p.2.cmd == u &&
      (CmdRecF.units p.2.cmd).any (fun c => (CmdRecF.units o.cmd).contains c) &&
      (decide (CmdRecF.prio o.cmd < CmdRecF.prio p.2.cmd) || (CmdRecF.prio o.cmd == CmdRecF.prio p.2.cmd &&
        (decide (p.2.ftStart < o.ftStart) || (p.2.ftStart == o.ftStart && decide (p.1 < h))))))
  else true

/-- A range an operator names is read where it stands in the unified range: its descriptors and its parameter block (R156, R174). -/
def readWord (s : State) (w : Word64) : State := if w = 0 ∨ uniEnd ≤ w.toNat + 64 then s else s.readAt w.toNat 64
/-- An operator's descriptors and parameter block are read, and the tiles of its input tensors and of the further ranges its effect
reads begin to be read (R156, R157, R165, R173). -/
def touchInputs (s : State) (h : Nat) (o : RunOp) (more : List (Nat × Nat)) : State :=
  let s := match opInfo o.cmd.opcode.toNat with
    | none => s
    | some i =>
      let s := ((i.ins ++ i.outs).map (wordOf o.cmd)).foldl readWord (s.readWord o.cmd.w7)
      i.ins.foldl (fun u k =>
        if wordOf o.cmd k = 0 then u
        else match u.tensor o.tenant (wordOf o.cmd k) false with
          | .ok t => u.readTiles (u.fillReads t.d) (.op h)
          | .error _ => u) s
  if more.isEmpty then s else s.readTiles more (.op h)

/-- Run a dispatched operator's effect once: `reads` gives the ranges it reads beside its input tensors. They begin to be read; while one comes from flash the operator waits, and the
effect follows when it is run again (R165, R169). An error becomes the operator's CODE and DETAIL (R120, R125). -/
def runOpR (s : State) (h : Nat) (opc : Nat) (reads : State → RunOp → List (Nat × Nat)) (f : RunOp → State → Except Err State) : State :=
  match s.op? h with
  | none => s
  | some o =>
    if o.dispatched = true ∧ o.ran = false ∧ o.code = 0 ∧ o.cmd.opcode.toNat = opc ∧ s.mayStart h o = true then
      let o' := { o with touched := true }
      let s := if o.touched then s else (s.opSet h o').touchInputs h o (reads s o)
      if s.reading (.op h) then s
      else match f o' s with
        | .error e => s.opErr h e
        | .ok t => match t.op? h with
          | some p => t.opSet h { p with ran := true }
          | none => t
    else s
/-- The same, of an operator that reads its input tensors alone. -/
def runOp (s : State) (h : Nat) (opc : Nat) (f : RunOp → State → Except Err State) : State := s.runOpR h opc (fun _ _ => []) f

end State
end Sys2Proof.Machine
end

