-- ==== Sys2Proof/Machine/Rings.lean ====
section
/-! DEFINITION. Chapter 04: command rings, records, their refusal, dispatch and parts (R103 to R120, R134 to R136, R140). -/
namespace Sys2Proof.Machine
open Sys2Proof

/-- A command record from its 128 bytes (R108). -/
def recOf (b : List Byte) : CmdRec :=
  let q (i : Nat) : Word64 := BitVec.ofNat 64 (leNat ((b.drop i).take 8))
  let d (i : Nat) : Word32 := BitVec.ofNat 32 (leNat ((b.drop i).take 4))
  ⟨BitVec.ofNat 16 (leNat (b.take 2)), b.getD 2 0, b.getD 3 0, d 4, d 8, d 0xC, d 0x10, d 0x14, q 0x18, q 0x20, d 0x28, d 0x2C,
   q 0x30, q 0x38, q 0x40, q 0x48, q 0x50, q 0x58, q 0x60, q 0x68, q 0x70, q 0x78⟩

/-- Is a reserved bit, a refused code or a field that is not enabled non-zero (R108, R110)? -/
def recBad (c : CmdRec) : Bool :=
  fld c.ctl 23 20 != 0 || fld c.ctl 11 0 != 0 || fld c.place 25 18 != 0 || fld c.req 30 16 != 0 || fld c.depctl 31 24 != 0 ||
  CmdRecF.evt c == 3 || 6 ≤ CmdRecF.unit c ||
  CmdRecF.cast0 c % 4 == 3 || CmdRecF.cast0 c / 4 == 3 || CmdRecF.cast1 c % 4 == 3 || CmdRecF.cast1 c / 4 == 3 ||
  (!CmdRecF.w0En c && (CmdRecF.w0Ctr c != 0 || c.wait0 != 0)) || (!CmdRecF.w1En c && (CmdRecF.w1Ctr c != 0 || c.wait1 != 0)) ||
  (!CmdRecF.sigEn c && (CmdRecF.sigCtr c != 0 || c.sigAmt != 0)) || (!CmdRecF.hold c && c.startFt != 0) ||
  (!CmdRecF.reqV c && CmdRecF.reqId c != 0) ||
  (match opInfo c.opcode.toNat with
   | some i => (i.casts < 2 && CmdRecF.cast1 c != 0) || (i.casts < 1 && CmdRecF.cast0 c != 0)
   | none => false)

/-- Why a record is refused: DETAIL of REFUSED, 0 where it is not (R110, R125). -/
def refusal (c : CmdRec) : Nat :=
  if c.ver ≠ 1 then 1
  else if recBad c then 2
  else match opInfo c.opcode.toNat with
    | none => 3
    | some i =>
      if !i.units.contains (CmdRecF.unit c) || 383 < CmdRecF.firstCore c + CmdRecF.ncoreM1 c ||
         (CmdRecF.oxMask c != 0) != (CmdRecF.unit c == 0) then 4
      else if CmdRecF.sigEn c && c.sigAmt == 0 then 5 else 0

namespace State

/-! ### Rings (R103 to R106, R140) -/

/-- EN of a ring. -/
def ringEn (s : State) (t r : Nat) : Bool := s.rdB (R.CRG_RING_CTL t r) 31
/-- Is a ring stopped? -/
def ringStopped (s : State) (t r : Nat) : Bool := s.rdB (R.CRG_STOPPED t) r
/-- Home core of a ring. -/
def ringHome (s : State) (t r : Nat) : Nat := s.rdF (R.CRG_RING_CTL t r) 8 0
/-- A logical core in service. -/
def core (s : State) (c : Nat) : CoreRun := Map.get s.coreRun CoreRun.live c
/-- Is a logical core fenced (R119, R477, R478)? -/
def coreFenced (s : State) (c : Nat) : Bool := 2 ≤ (s.core c).st
/-- Is dispatch to a logical core held (R477 step 3, R478)? -/
def corePaused (s : State) (c : Nat) : Bool := (s.core c).st == 1 || (s.core c).stop
/-- Records of a ring fetched and not complete, in ring order. -/
def ringOps (s : State) (t r : Nat) : List (Nat × RunOp) := s.ops.filter (fun p => p.2.tenant == t && p.2.ring == r)
/-- Those not yet dispatched. -/
def ringWaiting (s : State) (t r : Nat) : List (Nat × RunOp) := (s.ringOps t r).filter (fun p => !p.2.dispatched)
/-- The head record of a ring. -/
def ringHead (s : State) (t r : Nat) : Option (Nat × RunOp) := (s.ringWaiting t r).head?

/-- MODE of UPDATE_SWEEP (R331). -/
def sweepMode (c : CmdRec) : Nat := fld c.w1 2 0
/-- Does a record's completion make a COMMIT item (R341)? -/
def isCommitItem (c : CmdRec) : Bool := c.opcode == 0x0503 || (c.opcode == 0x0500 && (sweepMode c == 2 || sweepMode c == 3))

/-- The fields of the item of a COMMIT, FOLD or APPLY (R341), or of a TURNOVER (R370): STEP_EPOCH, VERSION and TYPE_DATA. `tdata` holds the outcome and
the RESOLVE maximum where the run set them. The shards of a COMMIT record, which names no map, are a free value, and so is
what a block that cannot be read would give (log entries 3, 31). -/
def recFields (s : State) (o : RunOp) : RunOp :=
  let c := o.cmd
  if isCommitItem c then
    let cb := if c.opcode = 0x0503 then c.w0.toNat else c.w3.toNat
    let ok (a : Nat) : Bool := a % 64 == 0 && decide (a < uniEnd) && (s.deny o.tenant a false).isNone
    let b := if ok cb then s.bytesAt cb 64 else List.replicate 64 (s.free.setWidth 8)
    let outcome := if c.opcode = 0x0503 then fld o.tdata 15 8
                   else if sweepMode c = 2 then (if o.code = 0 then 4 else 5) else (if o.code = 0 then 6 else 0)
    let shards := if c.opcode ≠ 0x0503 ∧ ok c.w0.toNat = true then leNat ((s.bytesAt (c.w0.toNat + 4) 4)) else fld s.free 63 32
    { o with
      kind := 0x12
      epoch := if c.opcode = 0x0503 then c.w1 else c.w2
      version := BitVec.ofNat 32 (leNat ((b.drop 0x10).take 4))
      tdata := BitVec.ofNat 64 ((b.getD 0x14 0).toNat + 2 ^ 8 * outcome + 2 ^ 16 * fld o.tdata 23 16 + 2 ^ 32 * shards) }
  else if c.opcode = 0x0800 then { o with kind := 0x13, version := s.rd R.RLE_GEN_VERSION }
  else if c.opcode = 0x0500 then { o with epoch := c.w2 }
  else if c.opcode = 0x0101 ∨ c.opcode = 0x0201 ∨ c.opcode = 0x0501 ∨ c.opcode = 0x0502 then { o with epoch := s.free }
  else o

/-- Complete a record that never ran (R516: FT_START 0). -/
def completeUnrun (s : State) (h : Nat) (o : RunOp) (code detail : Byte) : State :=
  s.used.complete h (s.recFields { o with ftStart := 0, code := code, detail := detail })

/-- Every fetched and undispatched record of a ring completes with ABORTED, in ring order (R135, R140). -/
def abortWaiting (s : State) (t r : Nat) (detail : Byte) : State :=
  (s.ringWaiting t r).foldl (fun u p => u.completeUnrun p.1 p.2 0x0C detail) s

/-- A ring stops (R106, R119, R140): EN cleared with STOPPED set, a RING_STOP item, undispatched records aborted. The item
goes to the queue and priority of the record that stopped the ring, else of the head record; with neither, which queue it
goes to and the record's fields in it are not stated: free values (log entry 16). -/
def ringStop (s : State) (t r cause : Nat) (by_ : Option RunOp) : State :=
  let c : Option CmdRec := match by_ with
    | some o => some o.cmd
    | none => (s.ringHead t r).map (fun p => p.2.cmd)
  let s := s.clrBits (R.CRG_RING_CTL t r) 0x80000000#32
  let s := s.wrF (R.CRG_RING_STAT t r) 30 27 (8 + cause)
  let s := s.setBits (R.CRG_STOPPED t) (BitVec.ofNat 32 (2 ^ r))
  let open_ : Word64 := s.used.free
  let q := match c with | some x => CmdRecF.evq x | none => fld s.free 3 0
  let pr := match c with | some x => CmdRecF.evtPrio x | none => fld s.free 5 4
  let td : Word64 := BitVec.ofNat 64 ((s.rd (R.CRG_RING_SEQ t r)).toNat + cause * 2 ^ 32)
  let u : Unit0 :=
    ⟨3, 0, pr, (match c with | some x => x.seq | none => open_.setWidth 32), srcDev t r,
     (match c with | some x => x.opcode.toNat | none => fld s.free 31 16),
     (match c with | some x => x.user | none => (open_ >>> 32).setWidth 32), 0, s.ft, 0,
     (match c with | some x => x.req | none => (s.free >>> 32).setWidth 32), 0xFFFFFFFF, 0, td⟩
  let s := s.used.used.storeItem t q pr u.bytes
  (s.abortWaiting t r 2).raise (0x10 + t) 1

/-- May fetches reach host memory (R493)? -/
def hostReach (s : State) : Bool := s.host.up && s.host.bme
/-- A read of host memory failed: DMA_ERR (R493). -/
def dmaErr (s : State) : State := (s.setBits R.HST_ERR 8).raise 0x08 3

/-! ### Triggers (R115, R384) -/

/-- A trigger. -/
def trigger (s : State) (n : Nat) : Trig := Map.get s.trigs Trig.none n
/-- Set a trigger. -/
def triggerSet (s : State) (n : Nat) (t : Trig) : State := { s with trigs := Map.put s.trigs Trig.none n t }
/-- The lowest trigger neither armed nor reserved (R384). -/
def freeTrigger (s : State) : Option Nat :=
  (List.range 256).find? (fun n => let t := s.trigger n; !t.valid && !t.sw)
/-- A trigger of the device armed for this action, target and time. -/
def sharedTrigger (s : State) (action target : Nat) (ft : Word64) : Option Nat :=
  (List.range 256).find? (fun n => s.trigger n == ⟨ft, true, false, action, target⟩)
/-- Claim a trigger for a RELEASE of home core `home` (R115): a shared one, else the lowest free one. -/
def claimTrigger (s : State) (home : Nat) (ft : Word64) : Option Nat × State :=
  match s.sharedTrigger 0 home ft with
  | some n => (some n, s)
  | none => match s.freeTrigger with
    | some n => (some n, s.triggerSet n ⟨ft, true, false, 0, home⟩)
    | none => (none, s)
/-- A trigger fires: VALID clears, it is counted (R384). -/
def fireTrigger (s : State) (n : Nat) : State :=
  (s.triggerSet n { s.trigger n with valid := false }).bump R.TIM_TRIG_FIRED_CNT

/-! ### Turnover and the generation copy, as dispatch sees them (R366) -/

/-- VALID of the generation copy (R373). -/
def genValidBit (s : State) : Bool := s.rdB R.RLE_TURN_STAT 27
/-- GEN_VERSION. -/
def genVersion (s : State) : Word32 := s.rd R.RLE_GEN_VERSION
/-- Does a tensor operand lie in a weight region? -/
def tensorInWeights (s : State) (w : Word64) : Bool :=
  w.toNat % 64 == 0 && decide (w.toNat < uniEnd) &&
    (let d := descOf (s.bytesAt w.toNat 64); !tdescReserved d && SD.src d == SD.dst d && SD.src d != 15 && fld d.base 63 52 == 0 && (s.elemAddrs d).any (fun a => s.inWeights a.toNat))
/-- Does a record's operator read the generation copy: VERIFY_STEP, or a tensor of its operands lies in its regions (R366)? -/
def readsGen (s : State) (c : CmdRec) : Bool :=
  c.opcode == 0x0203 ||
  (match opInfo c.opcode.toNat with
   | some i => (i.ins ++ i.outs).any (fun k => wordOf c k != 0 && s.tensorInWeights (wordOf c k))
   | none => false)
/-- Is the barrier up: from TURN_FT until release (R364, R366)? -/
def barrierUp (s : State) : Bool :=
  match s.turn with
  | some t => t.st == 2 || t.st == 3 || decide (t.turnFt ≤ s.ft)
  | none => false

/-! ### Deadlines (R116, R301) -/

/-- The least of a list of naturals. -/
def leastOf : List Nat → Option Nat
  | [] => none
  | a :: as => some (as.foldl min a)

/-- Request IDs of a batch list (R301). -/
def batchIds (s : State) (c : CmdRec) : List Nat :=
  ((List.range 64).map (fun i => s.bytesAt (c.w2.toNat + 128 * i) 128)).takeWhile (fun b => (b.getD 2 0) != 0)
    |>.map (fun b => leNat (b.take 2))
/-- The requests a record serves. -/
def requestsOf (s : State) (c : CmdRec) : List Nat :=
  if CmdRecF.reqV c then [CmdRecF.reqId c] else if isBatch c then s.batchIds c else []
/-- The deadline the request table sets for a request's current step: in force while it is in STEP (log entry 17). -/
def reqDeadline (s : State) (id : Nat) : Option Nat :=
  match Map.get? s.reqs id with
  | some q => if q.st = 2 ∧ q.deadline ≠ 0 then some q.deadline.toNat else none
  | none => none
/-- The effective deadline of a record (R116). -/
def deadlineOf (s : State) (c : CmdRec) : Option Nat :=
  leastOf ((if c.deadline ≠ 0 then [c.deadline.toNat] else []) ++ (s.requestsOf c).filterMap s.reqDeadline)
/-- Has a record's effective deadline been reached? -/
def expired (s : State) (c : CmdRec) : Bool :=
  match s.deadlineOf c with
  | some d => decide (d ≤ s.ft.toNat)
  | none => false

/-! ### Dispatch (R112, R114, R117 to R119) -/

/-- The dispatch conditions of R112 for the head record of its ring. -/
def ready (s : State) (h : Nat) (o : RunOp) : Bool :=
  let c := o.cmd
  (!CmdRecF.barrier c || (s.ringOps o.tenant o.ring).head?.map (·.1) == some h) &&
  (!CmdRecF.w0En c || decide (c.wait0 ≤ s.dep o.tenant (CmdRecF.w0Ctr c))) &&
  (!CmdRecF.w1En c || decide (c.wait1 ≤ s.dep o.tenant (CmdRecF.w1Ctr c))) &&
  (!CmdRecF.hold c || decide (c.startFt ≤ s.ft))
/-- Heads a home core could dispatch now: ring index tenant × 16 + ring, and PRIO. One held by comparison with local time waits for
its release (R115). -/
def readyHeads (s : State) (home : Nat) : List (Nat × Nat) :=
  ((s.ops.map (fun p => 16 * p.2.tenant + p.2.ring)).dedup.filter (fun k => s.ringHome (k / 16) (k % 16) == home)).filterMap
    (fun k => match s.ringHead (k / 16) (k % 16) with
      | some p => if s.ready p.1 p.2 && !p.2.local_ && !(s.readsGen p.2.cmd && s.genValidBit && s.barrierUp) &&
                     !(CmdRecF.cores p.2.cmd).any s.corePaused
                  then some (k, CmdRecF.prio p.2.cmd) else none
      | none => none)
/-- The ring a home core serves next: highest PRIO, then round-robin after the ring it served last (R117). -/
def nextRing (s : State) (home : Nat) : Option Nat :=
  let l := s.readyHeads home
  let m := l.foldl (fun a p => max a p.2) 0
  let ks := (l.filter (fun p => p.2 == m)).map (·.1)
  let last := Map.get s.rrHome 1023 home
  match leastOf (ks.filter (fun k => last < k)) with
  | some k => some k
  | none => leastOf ks

/-- Valid elements of output block `b`, blocks of `bh` rows by 64 columns in row-major order (R58, R118). -/
def blockElems (rows cols bh b : Nat) : Nat :=
  let bc := (cols + 63) / 64
  min bh (rows - b / bc * bh) * min 64 (cols - b % bc * 64)
/-- Rows of an output block: 64 on Ox engines, the smallest P on Colt engines (R55, R59). -/
def blockRows (unit rows : Nat) : Nat :=
  if unit = 1 then (if rows ≤ 1 then 1 else if rows ≤ 2 then 2 else if rows ≤ 4 then 4 else if rows ≤ 8 then 8 else 16) else 64
/-- Output blocks of unit `j` of `n` (R118). -/
def unitBlocks (rows cols bh n j : Nat) : List Nat :=
  (List.range ((rows + bh - 1) / bh * ((cols + 63) / 64))).filter (fun b => b % n == j)

/-- The blocks of unit `j` that a record drains: with KEEP all but its last (R56). -/
def drainedBlocks (c : CmdRec) (rows cols bh n j : Nat) : List Nat :=
  let l := unitBlocks rows cols bh n j
  if bit c.w3 34 then l.dropLast else l
/-- The draws a MATMUL takes on its engines at dispatch (R407). -/
def reserveDraws (s : State) (h : Nat) (o : RunOp) : State :=
  if o.cmd.opcode = 0x0100 then
    match s.tensor o.tenant o.cmd.w2 true with
    | .error _ => s
    | .ok t =>
      let us := CmdRecF.units o.cmd
      let bh := blockRows (CmdRecF.unit o.cmd) t.rows
      (us.zip (List.range us.length)).foldl (fun u p =>
        if castSr (u.rd (R.OXE_NUM_CTL p.1)) (CmdRecF.cast0 o.cmd) then
          u.reserve h p.1 (((drainedBlocks o.cmd t.rows t.cols bh us.length p.2).map (blockElems t.rows t.cols bh)).sum)
        else u) s
  else s

/-- Send a record to its execution units (R118); each engine takes its NUM_CTL and SW_CTL as they stand (R69, R97). -/
def sendParts (s : State) (h : Nat) (o : RunOp) : State :=
  let us := CmdRecF.units o.cmd
  let ver := if s.readsGen o.cmd then s.genVersion else 0xFFFFFFFF
  let extra := if o.cmd.opcode = 0x0F01 then s.bytesAt o.cmd.w1.toNat (64 * fld o.cmd.w2 1 0) else []
  let s := s.opSet h { o with dispatched := true, ftStart := s.ft, parts := us, version := ver, extra := extra,
                                numCtl := if CmdRecF.unit o.cmd ≤ 1 then us.map (fun e => (e, s.rd (R.OXE_NUM_CTL e)))
                                  else if CmdRecF.unit o.cmd = 3 then us.map (fun u => (u, s.rd (R.MFU_CTL u))) else [] }
  let qs := if CmdRecF.unit o.cmd ≤ 1 then (us.map queueKey).dedup else []
  let s : State := { s with readyQ := qs.foldl (fun m k => Map.set m k (Map.get m [] k ++ [h])) s.readyQ }
  let s := if CmdRecF.unit o.cmd ≤ 1 then us.foldl (fun u e => u.engineSet e { u.engine e with swCtl := u.rd (R.OXE_SW_CTL e) }) s else s
  s.reserveDraws h o

/-- The head record of a ring, ready and chosen: faulted, fenced, ended for an invalid generation copy, or sent. -/
def dispatchHead (s : State) (h : Nat) (o : RunOp) : State :=
  let c := o.cmd
  let f0 := CmdRecF.w0En c && s.depFault o.tenant (CmdRecF.w0Ctr c)
  let f1 := CmdRecF.w1En c && s.depFault o.tenant (CmdRecF.w1Ctr c)
  if s.expired c then s.completeUnrun h o 7 1
  else if f0 || f1 then s.completeUnrun h o 8 (BitVec.ofNat 8 ((if f0 then 1 else 0) + (if f1 then 2 else 0)))
  else if CmdRecF.reqV c && (match Map.get? s.reqs (CmdRecF.reqId c) with | some q => q.tenant != o.tenant | none => true) then
    s.completeUnrun h o 4 2
  else if (CmdRecF.cores c).any s.coreFenced then s.completeUnrun h o 0x0B 0
  else if s.readsGen c && !s.genValidBit then s.completeUnrun h o 0x17 5
  else s.sendParts h o

/-- A write of CRG_RING_CTL (R135): while EN = 1 only EN takes effect. -/
def ringCtlWrite (s : State) (t r : Nat) (v : Word32) : State :=
  let a := R.CRG_RING_CTL t r
  if s.ringEn t r then
    (s.wrF a 31 31 (fld v 31 31)).countWrite (0x10 + t) (v &&& 0x7FFFFFFF#32 != s.rd a &&& 0x7FFFFFFF#32)
  else s.plainWrite a v

end State

/-- RING_DOORBELL (R104): a write of CRG_RING_PROD. -/
def execRingDoorbell (t r : Nat) (v : Word32) (s : State) : Out := keepQueue s <|
  if t < 64 ∧ r < 16 then
    let prod := s.rd (R.CRG_RING_PROD t r)
    let fetch := s.rd (R.CRG_RING_FETCH t r)
    if s.ringEn t r || s.ringStopped t r then
      if (v - fetch).toNat ≤ 2 ^ s.rdF (R.CRG_RING_CTL t r) 19 16 ∧ (prod - fetch).toNat ≤ (v - fetch).toNat then
        .next (s.plainWrite (R.CRG_RING_PROD t r) v)
      else .next (((s.ignoredWrite (R.CRG_RING_PROD t r)).setBits (R.CRG_DB_ERR t) (BitVec.ofNat 32 (2 ^ r))).raise (0x10 + t) 0)
    else .next ((s.plainWrite (R.CRG_RING_PROD t r) v).wr (R.CRG_RING_FETCH t r) v)
  else .next s

/-- RING_ENABLE (R119, R135): a write of CRG_RING_CTL with EN = 1 enables fetch and clears STOPPED; a ring whose home core is
fenced stops with HOME_FENCED. -/
def execRingEnable (t r : Nat) (v : Word32) (s : State) : Out := keepQueue s <|
  if t < 64 ∧ r < 16 ∧ bit v 31 = true then
    let u := ((s.ringCtlWrite t r v).wrF (R.CRG_RING_STAT t r) 30 27 0).clrBits (R.CRG_STOPPED t) (BitVec.ofNat 32 (2 ^ r))
    .next (if u.coreFenced (u.ringHome t r) then u.ringStop t r 2 none else u)
  else .next s

/-- RING_DISABLE (R135): a write of CRG_RING_CTL with EN = 0 stops fetch; records fetched and not dispatched complete with
ABORTED, DETAIL 0x01. -/
def execRingDisable (t r : Nat) (v : Word32) (s : State) : Out := keepQueue s <|
  if t < 64 ∧ r < 16 ∧ bit v 31 = false then
    let en := s.ringEn t r
    let u := s.ringCtlWrite t r v
    .next (if en then u.abortWaiting t r 1 else u)
  else .next s

namespace State

/-- A record as it stands after its fetch. -/
def fetched (t r : Nat) (c : CmdRec) (ft : Word64) : RunOp :=
  { tenant := t, ring := r, cmd := c, dispatched := false, ftStart := 0, parts := [], ran := false, code := 0, detail := 0,
    flags := fNone, busy := 0, version := 0xFFFFFFFF, epoch := 0, faultAddr := 0, faultInfo := 0, faultEng := 0x7FF,
    faultSlot := 0, faultCnt := 0, trig := none, local_ := false, numCtl := [], kind := 0, tdata := 0, extra := [], fetchFt := ft,
    touched := false, failUnit := 0, outs := [] }

/-- The record at FETCH: the host's bytes, or the tenant's memory; none where the fetch fails (R103, R140, R493). -/
def ringBytes (s : State) (t r : Nat) (bytes : List Byte) (ok : Bool) : Option (List Byte) :=
  let ctl := s.rd (R.CRG_RING_CTL t r)
  if bit ctl 30 then (if ok && s.hostReach then some bytes else none)
  else
    let a := s.rd64 (R.CRG_RING_BASE_LO t r) / 4096 * 4096 + (s.rd (R.CRG_RING_FETCH t r)).toNat % 2 ^ fld ctl 19 16 * 128
    if uniEnd ≤ a || s.anyPoison a 128 then none
    else match s.readRange t a 128 with
      | .ok b => some b
      | .error _ => none

end State

/-- RECORD_FETCH (R105, R106, R115, R140): the record at FETCH is copied; a SEQ mismatch or a failed fetch stops the ring;
with HOLD a trigger is claimed. `bytes` and `ok` are what host memory answers, for a ring there. -/
def execRecordFetch (t r : Nat) (bytes : List Byte) (ok : Bool) (s : State) : Out := keepQueue s <|
  if bytes.length ≠ 128 then .refused (.illFormed "RECORD_FETCH")
  else if t < 64 ∧ r < 16 ∧ s.inFatal = false ∧ s.ringEn t r = true ∧ s.rd (R.CRG_RING_FETCH t r) ≠ s.rd (R.CRG_RING_PROD t r) ∧
     (s.ringWaiting t r).length < 8 ∧ s.corePaused (s.ringHome t r) = false then
    match s.ringBytes t r bytes ok with
    | none =>
      let u := if s.rdB (R.CRG_RING_CTL t r) 30 then s.dmaErr else s
      .next (u.ringStop t r 3 none)
    | some b =>
      let c := recOf b
      let h := Map.nextKey s.ops
      let o := State.fetched t r c s.ft
      let s := s.wr (R.CRG_RING_FETCH t r) (s.rd (R.CRG_RING_FETCH t r) + 1)
      if c.seq ≠ s.rd (R.CRG_RING_SEQ t r) then .next ((s.opSet h o).ringStop t r 1 (some o))
      else
        let s := s.wr (R.CRG_RING_SEQ t r) (s.rd (R.CRG_RING_SEQ t r) + 1)
        if CmdRecF.hold c && decide (s.ft < c.startFt) then
          let k := s.claimTrigger (s.ringHome t r) c.startFt
          .next (k.2.opSet h { o with trig := k.1, local_ := k.1.isNone })
        else .next (s.opSet h o)
  else .next s

/-- Does the rung let a record be dispatched (R456 to R458)? In Run; in Idle with AUTO_WAKE, which a dispatchable record leaves
for Run. In Doze and Nap AUTO_WAKE must have come first. Never in the fatal state (R474). -/
def State.rungRuns (s : State) : Bool := !s.inFatal && (s.rung == 0 || (s.rung == 1 && s.rdB R.PWR_RUNG_CTL 0))
/-- Back to Run, where the package is in Idle. -/
def State.rungUp (s : State) : State :=
  if s.rung = 0 then s
  else { (s.rungSet 0).clrBits R.PWR_STAT 0x10000000#32 with pwr := { s.rungSettle.pwr with want := none } }

/-- RECORD_DISPATCH (R110, R112, R114, R116 to R119, R366, R458): the head record of the ring. A refused one completes as soon as
it is the head; another once it is ready, its cores take work, the barrier does not hold it, its ring is the one its home core
serves next, and the rung lets it. -/
def execRecordDispatch (t r : Nat) (s : State) : Out := keepQueue s <|
  match s.ringHead t r with
  | none => .next s
  | some (h, o) =>
    if refusal o.cmd ≠ 0 then .next (s.completeUnrun h o 1 (BitVec.ofNat 8 (refusal o.cmd)))
    else
      let home := s.ringHome t r
      if s.corePaused home = false ∧ s.nextRing home = some (16 * t + r) ∧ s.rungRuns = true then
        .next ({ s.rungUp.dispatchHead h o with rrHome := Map.set s.rrHome home (16 * t + r) })
      else .next s

/-- DEP_CTR_LO_WRITE (R134): the low half is held. -/
def execDepCtrLoWrite (t n : Nat) (v : Word32) (s : State) : Out := keepQueue s <|
  if t < 64 ∧ n < 256 then
    .next { s.countWrite (0x10 + t) false with held := Map.set s.held (R.CRG_DEP_CTR_LO t n) v }
  else .next s

/-- DEP_CTR_HI_WRITE (R111, R134): both halves are committed in one step; with no low half held the stored one stays. -/
def execDepCtrHiWrite (t n : Nat) (v : Word32) (s : State) : Out := keepQueue s <|
  if t < 64 ∧ n < 256 then
    let a := R.CRG_DEP_CTR_LO t n
    let lo := Map.get s.held ((s.dep t n).setWidth 32) a
    let u := s.countWrite (0x10 + t) false
    .next ({ u with held := Map.erase u.held a }.depSet t n (BitVec.ofNat 64 (lo.toNat + v.toNat * 2 ^ 32)))
  else .next s

/-- TRIGGER_RELEASE (R115, R384): a RELEASE trigger whose time has come fires; head records are tested when they are
dispatched. -/
def execTriggerRelease (n : Nat) (s : State) : Out := keepQueue s <|
  let t := s.trigger n
  if t.valid = true ∧ t.action = 0 ∧ t.sw = false ∧ t.ft ≤ s.ft then .next (s.fireTrigger n) else .next s

/-- FALLBACK_RELEASE (R115): the head record held by local-time comparison is released and counted. -/
def execFallbackRelease (t r : Nat) (s : State) : Out := keepQueue s <|
  match s.ringHead t r with
  | some (h, o) =>
    if o.local_ = true ∧ o.cmd.startFt ≤ s.ft then
      .next ((s.opSet h { o with local_ := false }).bump (R.CRG_TRIG_FALLBACK t))
    else .next s
  | none => .next s

/-- The die of a part's unit (R11, R13, R118). -/
def unitDie (c : CmdRec) (u : Nat) : Nat :=
  if CmdRecF.unit c ≤ 1 then State.coreDie (u / 4) else if CmdRecF.unit c = 3 then u / 4 else State.coreDie u
/-- A part's report reaches the home core. -/
def State.partReported (s : State) (h u busy : Nat) : State :=
  match s.op? h with
  | some o => s.opSet h { o with parts := o.parts.erase u, busy := satAdd64 o.busy busy }
  | none => s
/-- A part's report is sent, in the response class, and waits where a link on its way is drained or one before it waits (R28, R29). -/
def State.partReport (s : State) (o : RunOp) (h u busy : Nat) : State :=
  let a := unitDie o.cmd u
  let b := State.coreDie (s.ringHome o.tenant o.ring)
  if s.meshWaits .response a b then s.meshPut ⟨.response, a, b, .report h u busy⟩ else s.partReported h u busy
/-- Is a part's report held on the mesh? -/
def State.reportHeld (s : State) (h u : Nat) : Bool :=
  s.meshQ.any (fun m => match m.body with | .report k v _ => k == h && v == u | _ => false)

/-- PART_COMPLETE (R28, R113, R118, R516): a part whose unit has done its work, its writes visible, reports with its busy cycles;
its engine is free for the next operator. -/
def execPartComplete (h u busy : Nat) (s : State) : Out := keepQueue s <|
  match s.op? h with
  | some o =>
    if o.dispatched = true ∧ o.parts.contains u = true ∧ (o.ran = true ∨ o.code ≠ 0) ∧ s.opWaits h = false ∧ s.reportHeld h u = false ∧
       (o.code ≠ 0 ∨ s.strm.any (fun p => p.2.op == h) = false) then
      let s := s.partReport o h u busy
      if CmdRecF.unit o.cmd ≤ 1 then
        let g := s.engine u
        .next (s.engineSet u { g with run := (match g.run with | some t => if t.op = h then none else some t | none => none),
                                      susp := g.susp.filter (fun x => x.task.op != h) })
      else .next s
    else .next s
  | none => .next s

end Sys2Proof.Machine
end

