-- ==== Sys2Proof/Machine/EventQueues.lean ====
section
/-! DEFINITION. Chapter 04: event queues, delivery and flushes (R127 to R133, R137 to R139). -/
namespace Sys2Proof.Machine
open Sys2Proof

namespace State

/-- EN of an event queue. -/
def evqEn (s : State) (t q : Nat) : Bool := s.rdB (R.EVQ_CTL t q) 31
/-- Units of the package pool in use: 2^CAP of every enabled queue (R127). -/
def poolUsed (s : State) : Nat :=
  ((s.evq.filter (fun p => s.evqEn (p.1 / 16) (p.1 % 16))).map (fun p => s.evqCap (p.1 / 16) (p.1 % 16))).sum
/-- Free units of the pool of 524,288. -/
def poolFree (s : State) : Nat := 524288 - s.poolUsed
/-- Units of a delivery buffer, 2^DLV. -/
def dlvUnits (s : State) (t q : Nat) : Nat := 2 ^ s.rdF (R.EVQ_CTL t q) 23 20
/-- Free units of a delivery buffer. -/
def dlvFree (s : State) (t q : Nat) : Nat :=
  s.dlvUnits t q - (s.rd (R.EVQ_PROD t q) - s.rd (R.EVQ_CONS t q)).toNat

/-- One 64-byte write of a delivery, into unit position `pos` (R129). -/
def writeUnit (t q pos : Nat) (s : State) (b : List Byte) : State :=
  let a := s.rd64 (R.EVQ_BASE_LO t q) / 64 * 64 + pos % s.dlvUnits t q * 64
  if s.rdB (R.EVQ_CTL t q) 30 then s.emit (.hostWrite a b false) else (s.writeRange t none a b).1

/-- Signal a queue's vector after a delivery, or note that one waits for the HOLDOFF interval (R138). -/
def evqIrq (s : State) (t q : Nat) : State :=
  let ctl := s.rd (R.EVQ_CTL t q)
  let e := s.evqGet t q
  if !bit ctl 19 then s
  else if e.holdoff then s.evqSet t q { e with irqWait := true }
  else (s.evqSet t q { e with holdoff := fld ctl 18 11 != 0, irqWait := false }).msixSend (fld ctl 10 0)

/-- The item delivered next at fabric time `ft`: of the oldest of each priority, those whose units are all written, that of the
highest priority (R128, R129). An incomplete item holds back those behind it at its own priority. -/
def nextItem (ft : Word64) (e : EvQueue) : Option EvItem :=
  [3, 2, 1, 0].findSome? (fun p => (e.items.find? (fun i => i.prio == p)).filter (fun i => decide (i.due ≤ ft)))

/-- HDR of an item as delivered: GAP and PHASE put in (R124, R129, R130). -/
def stampHdr (b : List Byte) (gap : Nat) (phase : Bool) : List Byte :=
  leBytes 4 (leNat (b.take 4) + (if phase then 0x8000 else 0) + min gap 0xFFFF * 65536) ++ b.drop 4

/-- The units of an item, in ascending order. -/
def unitsOf (b : List Byte) : List (List Byte) := (List.range (b.length / 64)).map (fun i => (b.drop (64 * i)).take 64)

/-- Deliver an item: units 1 and up, then unit 0; PROD advances and the pending gap returns to 0 (R129, R130). -/
def deliver (s : State) (t q : Nat) (i : EvItem) : State :=
  let e := s.evqGet t q
  let prod := (s.rd (R.EVQ_PROD t q)).toNat
  let us := unitsOf (stampHdr i.bytes e.gap (prod / s.dlvUnits t q % 2 == 0))
  let s := s.evqSet t q { e with items := e.items.erase i, gap := 0, gapSince := 0 }
  let s := ((List.range us.length).drop 1).foldl (fun u k => writeUnit t q (prod + k) u (us.getD k [])) s
  let s := writeUnit t q prod s (us.getD 0 [])
  (s.wr (R.EVQ_PROD t q) (BitVec.ofNat 32 (prod + us.length))).evqIrq t q

/-- A write of EVQ_CTL (R138): while EN = 1, LOC, CAP and DLV do not change. -/
def evqCtlWrite (s : State) (t q : Nat) (v : Word32) : State :=
  let a := R.EVQ_CTL t q
  let keep : Word32 := 0x4FF00000#32
  if s.evqEn t q then
    let u := s.plainWrite a ((v &&& ~~~keep) ||| (s.rd a &&& keep))
    if v &&& keep != s.rd a &&& keep then u.bump (R.GEN_IGN_CNT (0x50 + t)) else u
  else s.plainWrite a v

end State

/-- EVENT_DELIVER (R129, R130, R138, R493): with room for it, the next item is delivered whole. Host memory must be
reachable. -/
def execEventDeliver (t q : Nat) (s : State) : Out := keepQueue s <|
  match State.nextItem s.ft (s.evqGet t q) with
  | some i =>
    if s.evqEn t q = true ∧ i.bytes.length / 64 ≤ s.dlvFree t q ∧ (s.rdB (R.EVQ_CTL t q) 30 = false ∨ s.hostReach = true) then
      .next (s.deliver t q i)
    else .next s
  | none => .next s

/-- EVQ_CONS_WRITE (R137): frees delivery units; a write backwards or past EVQ_PROD is discarded. -/
def execEvqConsWrite (t q : Nat) (v : Word32) (s : State) : Out := keepQueue s <|
  if t < 64 ∧ q < 16 then
    let prod := s.rd (R.EVQ_PROD t q)
    if (prod - v).toNat ≤ (prod - s.rd (R.EVQ_CONS t q)).toNat then .next (s.plainWrite (R.EVQ_CONS t q) v)
    else .next (s.ignoredWrite (R.EVQ_CONS t q))
  else .next s

/-- FLUSH (R131): a request marks the flush at this moment; a second one moves it here. -/
def execFlush (t q : Nat) (v : Word32) (s : State) : Out := keepQueue s <|
  if t < 64 ∧ q < 16 then
    let u := s.countWrite (0x50 + t) (v &&& 0xFFFFFFFE#32 != 0)
    let e := u.evqGet t q
    .next (if bit v 0 then u.evqSet t q { e with flushAt := some e.nextNo, gapSince := 0 } else u)
  else .next s

/-- FLUSH_APPLY (R131): every item begun before the request, once they are all complete, is discarded and counted; drops since the
request stay pending. -/
def execFlushApply (t q : Nat) (s : State) : Out := keepQueue s <|
  let e := s.evqGet t q
  match e.flushAt with
  | some k =>
    if e.items.any (fun i => decide (i.no < k) && decide (s.ft < i.due)) then .next s
    else
    let gone := e.items.filter (fun i => i.no < k)
    let u := s.evqSet t q { e with items := e.items.filter (fun i => k ≤ i.no), gap := e.gapSince, flushAt := none }
    .next ((u.bump (R.EVQ_FLUSH_CNT t q) gone.length).raise (0x50 + t) 2)
  | none => .next s

/-- EVQ_ENABLE (R127, R138): the store is allocated from the pool, or ALLOC_ERR is set and the queue stays disabled. -/
def execEvqEnable (t q : Nat) (v : Word32) (s : State) : Out := keepQueue s <|
  if t < 64 ∧ q < 16 ∧ bit v 31 = true then
    if s.evqEn t q then .next (s.evqCtlWrite t q v)
    else
      let u := (s.evqCtlWrite t q (v &&& 0x7FFFFFFF#32))
      if u.evqCap t q ≤ u.poolFree then
        .next ((((u.wrF (R.EVQ_CTL t q) 31 31 1).wr (R.EVQ_PROD t q) 0).wr (R.EVQ_CONS t q) 0).evqSet t q EvQueue.none)
      else .next ((u.setBits (R.EVQ_ALLOC_ERR t) (BitVec.ofNat 32 (2 ^ q))).raise (0x50 + t) 1)
  else .next s

/-- EVQ_DISABLE (R127): the store goes back to the pool with its contents. -/
def execEvqDisable (t q : Nat) (v : Word32) (s : State) : Out := keepQueue s <|
  if t < 64 ∧ q < 16 ∧ bit v 31 = false then
    let u := s.evqCtlWrite t q v
    .next { u with evq := Map.erase u.evq (16 * t + q) }
  else .next s

/-- EVQ_HOLDOFF_EXPIRY (R138): the interval ends; an interrupt that waited is sent and begins the next interval. -/
def execEvqHoldoffExpiry (t q : Nat) (s : State) : Out := keepQueue s <|
  let e := s.evqGet t q
  if e.holdoff then
    let u := s.evqSet t q { e with holdoff := false, irqWait := false }
    .next (if e.irqWait then u.evqIrq t q else u)
  else .next s

end Sys2Proof.Machine
end

