-- ==== Sys2Proof/Machine/Operators.lean ====
section
/-! DEFINITION. The operators of chapter 04 on tensors (R64, R66, R109, R121, R123, R303, R410, R517). Each runs its whole
effect in one step, on a dispatched record; a breach of its operand rules becomes its CODE and DETAIL. -/
namespace Sys2Proof.Machine
open Sys2Proof

/-- FP32 number at a byte offset of a block of bytes. -/
def f32At (b : List Byte) (off : Nat) : XNum := FpFmt.decode .fp32 (leNat ((b.drop off).take 4))
/-- INT32 at a byte offset. -/
def i32At (b : List Byte) (off : Nat) : Int := (BitVec.ofNat 32 (leNat ((b.drop off).take 4))).toInt
/-- Rows of a row-major list. -/
def rowsOf {α : Type} (cols : Nat) (l : List α) : List (List α) :=
  (List.range (l.length / cols)).map (fun r => (l.drop (r * cols)).take cols)
/-- A step of a computation that collects flags. -/
abbrev VStep (α : Type) := α × NumFlags

/-- A matrix product ready to run: kind, operand lanes, M, N, K, whether an operand holds a NaN or is poisoned. -/
structure MatProd where
  kind : AccKind
  as_ : List (List EngElem)
  bs : List (List EngElem)
  m : Nat
  n : Nat
  k : Nat
  ni : NumFlags
  bad : Bool

namespace State

/-- Input tensor of operand word `i`. -/
def tin (s : State) (o : RunOp) (i : Nat) : Except Err Tensor := s.tensor o.tenant (wordOf o.cmd i) false
/-- Output tensor of operand word `i`. -/
def tout (s : State) (o : RunOp) (i : Nat) : Except Err Tensor := s.tensor o.tenant (wordOf o.cmd i) true
/-- A condition, or OPERAND with a DETAIL. -/
def need (c : Bool) (detail : Nat) : Except Err Unit := if c then .ok () else .error (.of 3 detail)
/-- Mark an operator POISONED where its inputs were (R86, R120). -/
def markPoison (s : State) (h : Nat) (bad : Bool) (a : Nat) : State := if bad then s.opFaultAt h 9 0 a else s
/-- Base address of a tensor, as the address of a fault. -/
def baseOf (t : Tensor) : Nat := t.d.base.toNat

/-! ### COPY, FILL, GATHER -/

/-- A copy with a cast (R45, R64, R121): codes as they stand where the formats are one, a NaN's with its payload, and no draw taken
(log entry 62); else cast in one step where R45 provides it. -/
def castCopy (a b : Tensor) (h : Nat) (o : RunOp) (s : State) : Except Err State := do
  need (a.rows * a.cols == b.rows * b.cols) 3
  let cast := CmdRecF.cast0 o.cmd
  let bad := s.tensorPoison a
  if a.raw || b.raw then do
    need (a.raw && b.raw) 1
    let c := s.tensorCodes a
    let u ← s.tensorPut h o.tenant bad b (c.map (·.2)) []
    pure (u.markPoison h bad (s.poisonOf a))
  else if a.fmt = b.fmt then do
    let c := s.tensorCodes a
    let sc := if a.fmt.isBlock then (List.range (c.length / 32)).map (fun i => (c.getD (32 * i) (0, 0)).1) else []
    let u ← s.tensorPut h o.tenant bad b (c.map (·.2)) sc
    pure ((u.opFlags h (niOf (s.tensorNums a))).markPoison h bad (s.poisonOf a))
  else do
    need (b.fmt != .int32) 1
    let xs := s.tensorNums a
    let u ← s.vecOut h o bad cast b a.fmt xs
    pure ((u.opFlags h (niOf xs)).markPoison h bad (s.poisonOf a))

/-- COPY: W0 to W1 with cast (R121). With SR it uses the vector unit. -/
def copyFx (h : Nat) (o : RunOp) (s : State) : Except Err State := do
  let a ← s.tin o 0
  let b ← s.tout o 1
  need (!(CmdRecF.unit o.cmd == 4 && castSr 0x10 (CmdRecF.cast0 o.cmd))) 1
  castCopy a b h o s

/-- FILL: every element of W0 takes the immediate in W1 (R121): an element's code, or for a block format the FP32 value of
bits 31:0 (log entry 18). -/
def fillFx (h : Nat) (o : RunOp) (s : State) : Except Err State := do
  let t ← s.tout o 0
  let n := t.rows * t.cols
  if t.fmt.isBlock && !t.raw then
    let b := castBlock t.fmt (List.replicate 32 .rne) (List.replicate 32 (f32 (o.cmd.w1.setWidth 32)))
    let u ← s.tensorPut h o.tenant false t ((List.range (n / 32)).flatMap (fun _ => b.2.1)) (List.replicate (n / 32) b.1)
    pure (u.opFlags h b.2.2)
  else
    s.tensorPut h o.tenant false t (List.replicate n (o.cmd.w1.toNat % 2 ^ (if t.raw then 8 else t.fmt.ebits))) []

/-- GATHER: rows of W0 selected by the INT32 indices of W1, to W2 in W0's format (R121). -/
def gatherFx (h : Nat) (o : RunOp) (s : State) : Except Err State := do
  let a ← s.tin o 0
  let ix ← s.tin o 1
  let b ← s.tout o 2
  need (ix.fmt == .int32 && !ix.raw && a.fmt == b.fmt && a.raw == b.raw) 1
  let is_ := (s.tensorCodes ix).map (fun p => (BitVec.ofNat 32 p.2).toInt)
  need (is_.all (fun i => decide (0 ≤ i) && decide (i < a.rows)) && b.rows * b.cols == is_.length * a.cols) 3
  let bad := s.tensorPoison a || s.tensorPoison ix
  let rs := rowsOf a.cols (s.tensorCodes a)
  let c := is_.flatMap (fun i => rs.getD i.toNat [])
  let sc := if a.fmt.isBlock && !a.raw then (List.range (c.length / 32)).map (fun i => (c.getD (32 * i) (0, 0)).1) else []
  let u ← s.tensorPut h o.tenant bad b (c.map (·.2)) sc
  let ni := if a.raw then fNone else niOf (c.map (fun p => a.fmt.scaled p.1 p.2))
  pure ((u.opFlags h ni).markPoison h bad (s.poisonOf a))

/-! ### Matrix products (R48 to R63, R118, R121, R303) -/

/-- Operand rows of A (M × K), or columns of B: B is K × N for a plain format and N × K for a block format (log entry 12). -/
def operandLanes (s : State) (t : Tensor) (isB : Bool) : List (List EngElem) :=
  let es := (s.tensorCodes t).map (fun p => engElem t.fmt p.1 p.2)
  if isB && !t.fmt.isBlock then
    (List.range t.cols).map (fun j => (List.range t.rows).map (fun k => es.getD (k * t.cols + j) ⟨XNum.zero, 0⟩))
  else rowsOf t.cols es

/-- Check a product's tensors and read its operands (R48, R63). -/
def product (s : State) (a b c : Tensor) : Except Err MatProd := do
  let kind ← (match (if a.raw || b.raw || c.raw || c.fmt == .int32 then none else accKind a.fmt b.fmt) with
    | some k => (.ok k : Except Err AccKind)
    | none => .error (.of 3 1))
  let n := if b.fmt.isBlock then b.rows else b.cols
  let kb := if b.fmt.isBlock then b.cols else b.rows
  need (!((a.fmt.isMx || b.fmt.isMx) && a.cols % 32 != 0)) 2
  need (a.cols == kb && c.rows == a.rows && c.cols == n) 3
  let as_ := s.operandLanes a false
  let bs := s.operandLanes b true
  let ni := if (as_.flatten ++ bs.flatten).any (fun x => x.num.isNan) then fNI else fNone
  pure ⟨kind, as_, bs, a.rows, n, a.cols, ni, s.tensorPoison a || s.tensorPoison b⟩

/-- The accumulators of a product over steps `lo` to `hi`, row by row. -/
def prodAcc (p : MatProd) (lo hi : Nat) (start : Nat → XNum) : List (VStep XNum) :=
  (List.range (p.m * p.n)).map (fun i =>
    let x := ((p.as_.getD (i / p.n) []).take hi).drop lo
    let y := ((p.bs.getD (i % p.n) []).take hi).drop lo
    accumulate p.kind (start i) (x.zip y))

/-- Where output element `i` of an M × N product stands: its block's number and its place in drain order within the block
(R44, R118). -/
def drainPlace (n bh i : Nat) : Nat × Nat :=
  let r := i / n; let c := i % n
  let bc := (n + 63) / 64
  let b := r / bh * bc + c / 64
  (b, r % bh * min 64 (n - c / 64 * 64) + c % 64)

/-- The place of an element among all that unit `b mod e` drains. -/
def unitPlace (m n bh e i : Nat) : Nat :=
  let p := drainPlace n bh i
  (((unitBlocks m n bh e (p.1 % e)).filter (fun b => b < p.1)).map (blockElems m n bh)).sum + p.2

/-- Cast an engine's drained values element by element, each with its unit's rounding and saturation: codes, scales, flags (R54,
R69). A block format's blocks run along the output columns: a record has no field to select the rows (log entry 61). -/
def engCodes (f : Fmt) (rs : List (Rnd × Bool)) (xs : List XNum) : List Nat × List Nat × NumFlags :=
  if f.isBlock then castBlocks f (rs.map (·.1)) xs
  else
    let cs := List.zipWith (fun x r => castElem f r.1 r.2 x) xs rs
    (cs.map (·.1), [], orFlags (cs.map (·.2)))
/-- Write them into a tensor. -/
def engOut (s : State) (h who : Nat) (bad : Bool) (t : Tensor) (rs : List (Rnd × Bool)) (xs : List XNum) :
    Except Err (State × NumFlags) :=
  let q := engCodes t.fmt rs xs
  (s.tensorPut h who bad t q.1 q.2.1).map (fun u => (u, q.2.2))

/-- The bank unit `u` keeps from the operator before (R56). -/
def keptBank (s : State) (u : Nat) : Option Bank :=
  let g := s.engine u
  if g.bank0.st = .kept then some g.bank0 else if g.bank1.st = .kept then some g.bank1 else none

/-- An engine's kept bank, started from, is given up (R56; log entry 61). -/
def dropKept (s : State) (u : Nat) : State :=
  let g := s.engine u
  s.engineSet u (if g.bank0.st = .kept then { g with bank0 := Bank.none }
                 else if g.bank1.st = .kept then { g with bank1 := Bank.none } else g)
/-- Keep a bank in an engine: in its first bank if that is free or kept, else in its second. -/
def keepBank (s : State) (u : Nat) (b : Bank) : State :=
  let g := s.engine u
  s.engineSet u (if g.bank0.st = .idle ∨ g.bank0.st = .kept then { g with bank0 := b } else { g with bank1 := b })

/-- Put new codes and scales into a tensor, but for the elements `keep` names, which stay as they are. -/
def tensorPutBut (s : State) (h who : Nat) (bad : Bool) (t : Tensor) (keep : Nat → Bool) (codes scales : List Nat) :
    Except Err State :=
  let k := strmElemK (SD.src t.d)
  let old := s.tensorCodes t
  let cs := (List.range codes.length).map (fun i => if keep i then (old.getD i (0, 0)).2 else codes.getD i 0)
  let ss := (List.range scales.length).map (fun j => if keep (32 * j) then (old.getD (32 * j) (0, 0)).1 else scales.getD j 0)
  let es := (List.range (SD.elems t.d)).map (fun n =>
    (n, elemBytes t.fmt ((ss.drop (32 * n)).take 32) ((cs.drop (k * n)).take k)))
  putAll h who bad (.ok s) (((s.elemAddrs t.d).zip es).filterMap (fun p =>
    if (List.range k).all (fun i => keep (k * p.2.1 + i)) then none else some (p.1, p.2.2)))

/-- MATMUL on tensors (R48 to R60, R118, R121). W3: m, the start source in the order of R56 (3: the bank kept before), and
whether the bank is kept: then each unit's last block stays in a bank and its others are drained. `start` is the block or row that
sources 1 and 2 read (log entry 19). -/
def matmulFx (a b c : Tensor) (w3 : Word64) (start : List Word32) (h : Nat) (o : RunOp) (s : State) : Except Err State := do
  let p ← s.product a b c
  let us := CmdRecF.units o.cmd
  let e := us.length
  let bh := blockRows (CmdRecF.unit o.cmd) p.m
  let isInt := decide (p.kind = .int)
  let src := fld w3 33 32
  let keep := bit w3 34
  let blocks := (p.m + bh - 1) / bh * ((p.n + 63) / 64)
  let lastOf (i : Nat) : Bool := decide (blocks ≤ (drainPlace p.n bh i).1 + e)
  let kept (i : Nat) : Bool := keep && lastOf i
  let startAt (i : Nat) : XNum :=
    let given (j : Nat) : XNum := accNum isInt (start.getD j 0)
    if src = 0 then XNum.zero
    else if src = 1 then given i
    else if src = 2 then given (i % p.n)
    else
      match s.keptBank (us.getD ((drainPlace p.n bh i).1 % e) 0) with
      | some k => if lastOf i then accNum isInt (k.vals.getD (i / p.n % bh * 64 + i % p.n % 64) 0) else given i
      | none => given i
  let acc := prodAcc p 0 p.k startAt
  let ni0 := if src ≠ 0 && !isInt && (List.range (p.m * p.n)).any (fun i => (startAt i).isNan) then fNI else fNone
  let f0 := p.ni ||| ni0 ||| orFlags (acc.map (·.2))
  let bad := p.bad || (src == 3 && us.any (fun u => (s.keptBank u).any (·.bad)))
  let s := if src = 3 then us.foldl dropKept s else s
  let s := if keep then
      (List.range e).foldl (fun t j =>
        match (unitBlocks p.m p.n bh e j).getLast? with
        | some bl =>
          let bc := (p.n + 63) / 64
          let vals := (List.range (bh * 64)).map (fun i =>
            let r := bl / bc * bh + i / 64; let cc := bl % bc * 64 + i % 64
            if r < p.m ∧ cc < p.n then accWord isInt ((acc.getD (r * p.n + cc) (XNum.zero, fNone)).1) else 0)
          t.keepBank (us.getD j 0) ⟨.kept, h, isInt, vals, bad⟩
        | none => t) s
    else s
  let m := f32 (w3.setWidth 32)
  let ys := acc.map (fun v => drainMul p.kind m v.1)
  let out := (List.range (p.m * p.n)).filter (fun i => !kept i)
  let cast := CmdRecF.cast0 o.cmd
  let nc (j : Nat) : Word32 := Map.get o.numCtl 0x10 (us.getD j 0)
  let dr : List (List Word64) × State := (List.range e).foldl (fun acc j =>
    if castSr (nc j) cast then
      let n := ((drainedBlocks o.cmd p.m p.n bh e j).map (blockElems p.m p.n bh)).sum
      let r := acc.2.drawCopy h (us.getD j 0) n
      (acc.1 ++ [r.1], r.2)
    else (acc.1 ++ [[]], acc.2)) ([], s)
  let rs := (List.range (p.m * p.n)).map (fun i =>
    let j := (drainPlace p.n bh i).1 % e
    let r : Rnd := if castSr (nc j) cast && !kept i then .sr (srDraw ((dr.1.getD j []).getD (unitPlace p.m p.n bh e i) 0)) else .rne
    (r, castSat (nc j) cast c.fmt))
  let xs := ys.map (·.1)
  let q := engCodes c.fmt rs xs
  let u ← (if keep then dr.2.tensorPutBut h o.tenant bad c kept q.1 q.2.1 else dr.2.tensorPut h o.tenant bad c q.1 q.2.1)
  let fq := if keep then (engCodes c.fmt (out.map (fun i => rs.getD i (.rne, true))) (out.map (fun i => xs.getD i .nan))).2.2 else q.2.2
  let fy := orFlags (out.map (fun i => (ys.getD i (.nan, fNone)).2))
  let fl := f0 ||| fy ||| fq ||| (if m.isNan && !out.isEmpty then fNI else fNone)
  pure ((u.opFlags h fl).markPoison h bad (s.poisonOf a))

/-- MATMUL of one record. -/
def matmulOp (start : List Word32) (h : Nat) (o : RunOp) (s : State) : Except Err State := do
  let a ← s.tin o 0
  let b ← s.tin o 1
  let c ← s.tout o 2
  matmulFx a b c o.cmd.w3 start h o s

/-- MATMUL_SPLITK (R303): ranges of runs of 32 k on the units of each group, partials combined in ascending range order by
the vector unit of the group's first core, whose lanes give the draws of its cast. -/
def splitkFx (start : List Word32) (h : Nat) (o : RunOp) (s : State) : Except Err State := do
  let a ← s.tin o 0
  let b ← s.tin o 1
  let c ← s.tout o 2
  let us := CmdRecF.units o.cmd
  let e := us.length
  let split := fld o.cmd.w4 5 0
  need (!bit o.cmd.w3 34 && decide (2 ≤ split) && decide (split ≤ 32) && e % split == 0) 3
  let p ← s.product a b c
  let runs := (p.k + 31) / 32
  let isInt := decide (p.kind = .int)
  let src := fld o.cmd.w3 33 32
  let startAt (i : Nat) : XNum :=
    if src = 0 then XNum.zero else accNum isInt (start.getD (if src = 2 then i % p.n else i) 0)
  let ni0 := if src ≠ 0 && !isInt && (List.range (p.m * p.n)).any (fun i => (startAt i).isNan) then fNI else fNone
  let part (r : Nat) : List (VStep XNum) :=
    (prodAcc p (32 * (r * runs / split)) (32 * ((r + 1) * runs / split)) (if r = 0 then startAt else fun _ => XNum.zero)).map
      (fun v => let y := drainMul p.kind XNum.one v.1; (y.1, v.2 ||| y.2))
  let sums := (List.range (split - 1)).foldl (fun acc r =>
    List.zipWith (fun x y => let z := vAdd x.1 y.1; (z.1, x.2 ||| y.2 ||| z.2)) acc (part (r + 1))) (part 0)
  let m := f32 (o.cmd.w3.setWidth 32)
  let ys := sums.map (fun v => let y := vMul v.1 m; (y.1, v.2 ||| y.2))
  let cast := CmdRecF.cast0 o.cmd
  let gs := e / split
  let order := (List.range gs).flatMap (fun g =>
    (((List.range (p.m * p.n)).filter (fun i => (drainPlace p.n 64 i).1 % gs == g)).map
      (fun i => (unitPlace p.m p.n 64 gs i, g, i))))
  let dr : Map Rnd × State :=
    if castSr 0x10 cast then
      order.foldl (fun acc q =>
        let d := acc.2.draw (laneIdx (us.getD (q.2.1 * split) 0 / 4) (q.1 % 512)) 1
        (Map.set acc.1 q.2.2 (.sr (srDraw (d.1.headD 0))), d.2)) ([], s)
    else ([], s)
  let sat := castSat 0x10 cast c.fmt
  let q ← dr.2.engOut h o.tenant p.bad c ((List.range (p.m * p.n)).map (fun i => (Map.get dr.1 .rne i, sat))) (ys.map (·.1))
  let fl := p.ni ||| ni0 ||| orFlags (ys.map (·.2)) ||| q.2 ||| (if m.isNan then fNI else fNone)
  pure ((q.1.opFlags h fl).markPoison h p.bad (s.poisonOf a))

/-- What the groups of a GROUPED_MATMUL read. -/
def listReads (groups : List MmGroup) (s : State) (o : RunOp) : List (Nat × Nat) :=
  groups.flatMap (fun g => [g.a, g.b].flatMap (fun w =>
    match s.tensor o.tenant w false with
    | .ok t => (w.toNat, 64) :: s.fillReads t.d
    | .error _ => []))
/-- GROUPED_MATMUL (R121): one MATMUL per group of the list at W4, in list order; a group that reads the generation copy gives the record
its version (R124). The draws of each group are taken when it
runs (log entry 19). -/
def groupedFx (groups : List MmGroup) (h : Nat) (o : RunOp) (s : State) : Except Err State :=
  groups.foldl (fun acc g => do
    let s ← acc
    let a ← s.tensor o.tenant g.a false
    let b ← s.tensor o.tenant g.b false
    let c ← s.tensor o.tenant g.out true
    let s := if o.version == 0xFFFFFFFF && [a, b].any (fun t => (s.fillReads t.d).any (fun r => s.inWeights r.1)) then
        (match s.op? h with | some p => s.opSet h { p with version := s.rd R.RLE_GEN_VERSION } | none => s) else s
    let s := match s.op? h with | some p => s.opSet h { p with outs := p.outs ++ [g.out] } | none => s
    let us := CmdRecF.units o.cmd
    let bh := blockRows (CmdRecF.unit o.cmd) c.rows
    let s := (us.zip (List.range us.length)).foldl (fun u p =>
      if castSr (Map.get o.numCtl 0x10 p.1) (CmdRecF.cast0 o.cmd) then
        u.reserve h p.1 (((drainedBlocks o.cmd c.rows c.cols bh us.length p.2).map (blockElems c.rows c.cols bh)).sum)
      else u) s
    matmulFx a b c o.cmd.w3 g.start h o s) (.ok s)

/-! ### Element-wise functions (R64, R65) -/

/-- Operands a function takes. -/
def vArity : VFun → Nat
  | .add => 2 | .sub => 2 | .mul => 2 | .fma => 3 | .div => 2 | .cmpLt => 2 | .cmpLe => 2 | .cmpEq => 2 | .select => 3
  | .copySign => 2 | .min => 2 | .max => 2 | .iadd => 2 | .isub => 2 | .imul => 2 | .iand => 2 | .ior => 2 | .ixor => 2
  | .ishl => 2 | .ishr => 2 | .isar => 2 | .icmpLt => 2 | .icmpEq => 2
  | _ => 1
/-- Is it a function of INT32 words? -/
def vIsInt : VFun → Bool
  | .iadd => true | .isub => true | .imul => true | .iand => true | .ior => true | .ixor => true | .inot => true
  | .ishl => true | .ishr => true | .isar => true | .icmpLt => true | .icmpEq => true
  | _ => false

/-- A function on FP32 numbers. A compare answers with a code of Config, select takes its second operand where the first is
not the code of no. -/
def vApply (f : VFun) (a b c : XNum) : VStep XNum :=
  let yes (q : Bool) : VStep XNum := (f32 (Config.compareCode q), fNone)
  match f with
  | .add => vAdd a b | .sub => vSub a b | .mul => vMul a b | .fma => vFma a b c | .div => vDiv a b
  | .sqrt => vSqrt a | .recip => vRecip a | .rsqrt => vRsqrt a | .exp2 => vExp2 a | .log2 => vLog2 a | .exp => vExp a
  | .ln => vLn a | .tanh => vTanh a | .sigmoid => vSigmoid a | .gelu => vGelu a | .silu => vSilu a
  | .cmpLt => yes (a.ltN b) | .cmpLe => yes (a.ltN b || a.eqv b) | .cmpEq => yes (a.eqv b)
  | .select => (if f32Code a = f32Code (f32 (Config.compareCode false)) then c else b, fNone)
  | .abs => (a.abs, fNone) | .neg => (a.neg, fNone)
  | .copySign => (if b.sign then a.abs.neg else a.abs, fNone)
  | .min => (a.minimum b, fNone) | .max => (a.maximum b, fNone)
  | _ => (a, fNone)

/-- A function on INT32 words: exact, wrapping modulo 2^32 (R64). A shift's count is the whole unsigned word: at 32 or more no bit of
`a`, or only its sign, is left (log entry 63). -/
def iApply (f : VFun) (a b : Word32) : Word32 :=
  match f with
  | .iadd => a + b | .isub => a - b | .imul => a * b | .iand => a &&& b | .ior => a ||| b | .ixor => a ^^^ b | .inot => ~~~a
  | .ishl => a <<< b.toNat | .ishr => a >>> b.toNat | .isar => a.sshiftRight b.toNat
  | .icmpLt => Config.compareCode (a.slt b) | .icmpEq => Config.compareCode (a == b)
  | _ => a

/-- Formats the vector operators read as numbers: every scalar format but INT32, and blocks. -/
def isReal (t : Tensor) : Bool := !t.raw && t.fmt != .int32
/-- Number of a scalar or block element widened to FP32 (R45); a narrowing step rounds with RNE. -/
def widen (xs : List XNum) : List XNum := xs.map (fun x => (rneFp32 x).1)
/-- The flags of that widening: OF where an element of a block overflows FP32 (R45, R67). -/
def widenFl (xs : List XNum) : NumFlags := orFlags (xs.map (fun x => (rneFp32 x).2))

/-- ELEMENTWISE (R64): inputs W0 …, output in the next operand word, W4 for three inputs (W3 selects the function). -/
def elementwiseFx (f : VFun) (h : Nat) (o : RunOp) (s : State) : Except Err State := do
  let n := vArity f
  let a ← s.tin o 0
  let b ← if 2 ≤ n then s.tin o 1 else pure a
  let c ← if 3 ≤ n then s.tin o 2 else pure a
  let t ← s.tout o (if n = 3 then 4 else n)
  let sz := a.rows * a.cols
  need (b.rows * b.cols == sz && c.rows * c.cols == sz && t.rows * t.cols == sz) 3
  let bad := s.tensorPoison a || s.tensorPoison b || s.tensorPoison c
  if f = .cast then castCopy a t h o s
  else if vIsInt f then do
    need ([a, b, t].all (fun x => !x.raw && x.fmt == .int32)) 1
    let cs := List.zipWith (fun x y => (iApply f (BitVec.ofNat 32 x.2) (BitVec.ofNat 32 y.2)).toNat) (s.tensorCodes a) (s.tensorCodes b)
    let u ← s.tensorPut h o.tenant bad t cs []
    pure (u.markPoison h bad (s.poisonOf a))
  else do
    need (isReal a && isReal b && isReal c && isReal t) 1
    let xs := s.tensorNums a; let ys := s.tensorNums b; let zs := s.tensorNums c
    let rs := List.zipWith (fun x p => vApply f x p.1 p.2) (widen xs) ((widen ys).zip (widen zs))
    let u ← s.vecOut h o bad (CmdRecF.cast0 o.cmd) t (.fp .fp32) (rs.map (·.1))
    pure ((u.opFlags h (orFlags (rs.map (·.2)) ||| niOf (xs ++ ys ++ zs) ||| widenFl (xs ++ ys ++ zs))).markPoison h bad (s.poisonOf a))

/-! ### Row operators -/

/-- Sum of squares over a count, plus eps, inverse root: the factor of a normalisation. -/
def normFactor (xs : List XNum) (eps : XNum) : VStep XNum :=
  let sq := xs.map (fun x => vMul x x)
  let sm := vSum (sq.map (·.1))
  let ms := vDiv sm.1 (.ofInt xs.length)
  let ve := vAdd ms.1 eps
  let r := vRsqrt ve.1
  (r.1, orFlags (sq.map (·.2)) ||| sm.2 ||| ms.2 ||| ve.2 ||| r.2)

/-- RMSNORM of one row, with an optional weight row (log entry 20). -/
def rmsRow (xs ws : List XNum) (eps : XNum) : List (VStep XNum) :=
  let r := normFactor xs eps
  (List.range xs.length).map (fun i =>
    let y := vMul (xs.getD i .nan) r.1
    let z := vMul y.1 (ws.getD i XNum.one)
    (z.1, r.2 ||| y.2 ||| z.2))

/-- LAYERNORM of one row, with optional weight and bias rows (log entry 20). -/
def layerRow (xs ws bs : List XNum) (eps : XNum) : List (VStep XNum) :=
  let sm := vSum xs
  let mu := vDiv sm.1 (.ofInt xs.length)
  let ds := xs.map (fun x => vSub x mu.1)
  let r := normFactor (ds.map (·.1)) eps
  (List.range xs.length).map (fun i =>
    let d := ds.getD i (.nan, fNone)
    let y := vMul d.1 r.1
    let z := vMul y.1 (ws.getD i XNum.one)
    let q := vAdd z.1 (bs.getD i (.fin true 0 0))
    (q.1, sm.2 ||| mu.2 ||| d.2 ||| r.2 ||| y.2 ||| z.2 ||| q.2))

/-- An optional weight row in an operand word: none where the word is 0. -/
def weightRow (s : State) (o : RunOp) (i cols : Nat) : Except Err (List XNum × Bool) := do
  if wordOf o.cmd i = 0 then pure ([], false)
  else
    let t ← s.tin o i
    need (isReal t) 1
    need (t.rows * t.cols == cols) 3
    pure (s.tensorNums t, s.tensorPoison t)

/-- RMSNORM: W0 rows, W1 weight, W2 output. -/
def rmsFx (eps : Word32) (h : Nat) (o : RunOp) (s : State) : Except Err State := do
  let a ← s.tin o 0
  let t ← s.tout o 2
  need (isReal a && isReal t) 1
  let w ← s.weightRow o 1 a.cols
  need (t.rows == a.rows && t.cols == a.cols) 3
  let xs := s.tensorNums a
  let rs := (rowsOf a.cols (widen xs)).flatMap (fun r => rmsRow r (widen w.1) (f32 eps))
  let bad := s.tensorPoison a || w.2
  let u ← s.vecOut h o bad (CmdRecF.cast0 o.cmd) t (.fp .fp32) (rs.map (·.1))
  pure ((u.opFlags h (orFlags (rs.map (·.2)) ||| niOf (xs ++ w.1) ||| widenFl (xs ++ w.1))).markPoison h bad (s.poisonOf a))

/-- LAYERNORM: W0 rows, W1 weight, W2 bias, W3 output. -/
def layerFx (eps : Word32) (h : Nat) (o : RunOp) (s : State) : Except Err State := do
  let a ← s.tin o 0
  let t ← s.tout o 3
  need (isReal a && isReal t) 1
  let w ← s.weightRow o 1 a.cols
  let b ← s.weightRow o 2 a.cols
  need (t.rows == a.rows && t.cols == a.cols) 3
  let xs := s.tensorNums a
  let rs := (rowsOf a.cols (widen xs)).flatMap (fun r => layerRow r (widen w.1) (widen b.1) (f32 eps))
  let bad := s.tensorPoison a || w.2 || b.2
  let u ← s.vecOut h o bad (CmdRecF.cast0 o.cmd) t (.fp .fp32) (rs.map (·.1))
  pure ((u.opFlags h (orFlags (rs.map (·.2)) ||| niOf (xs ++ w.1 ++ b.1) ||| widenFl (xs ++ w.1 ++ b.1))).markPoison h bad (s.poisonOf a))

/-- The log-sum-exp of one row (R517). -/
def lseOf (xs : List XNum) : VStep XNum :=
  let mx := (vMax xs).1
  if mx.isNan then (.nan, fNone)
  else if mx.isInf then (mx, fNone)
  else
    let es := xs.map (fun x => let d := vSub x mx; let e := vExp d.1; (e.1, d.2 ||| e.2))
    let sm := vSum (es.map (·.1))
    let lg := vLn sm.1
    let r := vAdd mx lg.1
    (r.1, orFlags (es.map (·.2)) ||| sm.2 ||| lg.2 ||| r.2)

/-- The log-probability of an element under a row's log-sum-exp (R517). -/
def logProb (lse x : XNum) : VStep XNum :=
  match lse with
  | .inf true => (.inf true, fNone)
  | .inf false => (match x with
    | .inf false => (.nan, fNV)
    | .nan => (.nan, fNone)
    | _ => (.inf true, fNone))
  | _ => vSub x lse

/-- LOGSOFTMAX (R517): W1 log-softmax, W2 log-sum-exp per row. -/
def logsoftmaxFx (h : Nat) (o : RunOp) (s : State) : Except Err State := do
  let a ← s.tin o 0
  let t ← s.tout o 1
  let l ← s.tout o 2
  need (isReal a && isReal t && isReal l) 1
  need (t.rows == a.rows && t.cols == a.cols && l.rows * l.cols == a.rows) 3
  let xs := s.tensorNums a
  let rows := rowsOf a.cols (widen xs)
  let ls := rows.map lseOf
  let ps := (rows.zip ls).flatMap (fun p => p.1.map (logProb p.2.1))
  let bad := s.tensorPoison a
  let u ← s.vecOut h o bad (CmdRecF.cast0 o.cmd) t (.fp .fp32) (ps.map (·.1))
  let v ← u.vecOut h o bad (CmdRecF.cast1 o.cmd) l (.fp .fp32) (ls.map (·.1))
  pure ((v.opFlags h (orFlags (ps.map (·.2) ++ ls.map (·.2)) ||| niOf xs ||| widenFl xs)).markPoison h bad (s.poisonOf a))

/-- REDUCE (R66, R121): one value per row, to W1. -/
def reduceFx (op : RedOp) (h : Nat) (o : RunOp) (s : State) : Except Err State := do
  let a ← s.tin o 0
  let t ← s.tout o 1
  need (isReal a && isReal t) 1
  need (t.rows * t.cols == a.rows) 3
  let xs := s.tensorNums a
  let rs := (rowsOf a.cols (widen xs)).map (fun r => match op with | .sum => vSum r | .max => vMax r | .min => vMin r)
  let bad := s.tensorPoison a
  let u ← s.vecOut h o bad (CmdRecF.cast0 o.cmd) t (.fp .fp32) (rs.map (·.1))
  pure ((u.opFlags h (orFlags (rs.map (·.2)) ||| niOf xs ||| widenFl xs)).markPoison h bad (s.poisonOf a))

/-- ROPE (R121; log entry 20): pair `i` of a row is elements 2i and 2i + 1, or i and i + half the row; rotation by the cosine
and sine of its row and pair. -/
def ropeFx (half : Bool) (rots : List Rot) (h : Nat) (o : RunOp) (s : State) : Except Err State := do
  let a ← s.tin o 0
  let t ← s.tout o 1
  need (isReal a && isReal t) 1
  let n := a.cols / 2
  need (t.rows == a.rows && t.cols == a.cols && a.cols % 2 == 0 && rots.length == a.rows * n) 3
  let xs := s.tensorNums a
  let ws := widen xs
  let rs := (List.range (a.rows * a.cols)).map (fun i =>
    let r := i / a.cols; let c := i % a.cols
    let k := if half then c % n else c / 2
    let first := if half then decide (c < n) else c % 2 == 0
    let at_ (j : Nat) : XNum := ws.getD (r * a.cols + j) .nan
    let x0 := at_ (if half then k else 2 * k)
    let x1 := at_ (if half then k + n else 2 * k + 1)
    let g := rots.getD (r * n + k) ⟨0, 0⟩
    let p := if first then vMul x0 (f32 g.cosW) else vMul x0 (f32 g.sinW)
    let q := if first then vMul x1 (f32 g.sinW) else vMul x1 (f32 g.cosW)
    let y := if first then vSub p.1 q.1 else vAdd p.1 q.1
    (y.1, p.2 ||| q.2 ||| y.2))
  let bad := s.tensorPoison a
  let u ← s.vecOut h o bad (CmdRecF.cast0 o.cmd) t (.fp .fp32) (rs.map (·.1))
  pure ((u.opFlags h (orFlags (rs.map (·.2)) ||| niOf xs ||| widenFl xs)).markPoison h bad (s.poisonOf a))

/-! ### RAND_MASK (R409, R410) -/

/-- The lane that makes element `e` of `n` on `cores`. -/
def maskLane (cores : List Nat) (n e : Nat) : Nat :=
  let per := (n + cores.length - 1) / cores.length
  laneIdx (cores.getD (e / per) 0) (e % per % 512)

/-- RAND_MASK. -/
def randMaskFx (h : Nat) (o : RunOp) (s : State) : Except Err State := do
  let c := o.cmd
  let mode := fld c.w1 1 0
  let p := f32 (c.w2.setWidth 32)
  need (fld c.w1 63 9 == 0 && fld c.w1 7 2 == 0 && c.w3 == 0 && c.w4 == 0 && c.w5 == 0 && c.w6 == 0 && c.w7 == 0) 3
  need (if mode < 2 then c.w2 == 0
        else fld c.w2 63 32 == 0 && !p.isNan && !p.isInf && (p.isZero || (!p.sign && !(XNum.one.ltN p)))) 3
  let t ← s.tout o 0
  need (match mode with
    | 0 => !t.raw && t.fmt == .int32
    | 1 => !t.raw && t.fmt == .fp .fp32
    | 2 => !t.raw && t.fmt == .int8
    | _ => t.raw) 3
  let n := t.rows * t.cols * (if mode = 3 then 8 else 1)
  let cores := CmdRecF.cores c
  let s := if bit c.w1 8 then ((List.range n).map (maskLane cores n)).dedup.foldl (fun u i => u.genStart i) s else s
  let d : List Word64 × State := (List.range n).foldl (fun acc e =>
    let r := acc.2.draw (maskLane cores n e) 1
    (acc.1 ++ [r.1.headD 0], r.2)) ([], s)
  let tt := maskT p
  let one (w : Word64) : Nat := if uniWord w < tt then 1 else 0
  let cs : List Nat := match mode with
    | 0 => d.1.map uniWord
    | 1 => d.1.map (fun w => f32Code (.fin false (uniF32 w) (-24)))
    | 2 => d.1.map one
    | _ => (List.range (n / 8)).map (fun i => ((List.range 8).map (fun k => one (d.1.getD (8 * i + k) 0) * 2 ^ k)).sum)
  d.2.tensorPut h o.tenant false t cs []

/-! ### NOP, EVENT, TIMESTAMP -/

/-- EVENT (R123): its USER item stands in place of COMPLETE. The further units were read at dispatch. -/
def eventFx (h : Nat) (o : RunOp) (s : State) : Except Err State := do
  let c := o.cmd
  let n := 64 * fld c.w2 1 0
  need (fld c.w2 63 2 == 0 && c.w3 == 0 && c.w4 == 0 && c.w5 == 0 && c.w6 == 0 && c.w7 == 0) 3
  need (!(n == 0 && c.w1 != 0) && c.w1.toNat % 64 == 0) 3
  if n ≠ 0 then
    match (if uniEnd < c.w1.toNat + n then some (Err.access (4, 1) c.w1.toNat) else s.readErr o.tenant c.w1.toNat n) with
    | some e => .error e
    | none => pure ()
  let s := s.opSet h { o with kind := 4, tdata := c.w0 }
  pure (s.markPoison h (n != 0 && s.anyPoison c.w1.toNat n) (s.firstPoison c.w1.toNat n))

/-- TIMESTAMP (R121): fabric time at dispatch, 8 bytes at W0. -/
def timestampFx (h : Nat) (o : RunOp) (s : State) : Except Err State :=
  if uniEnd < o.cmd.w0.toNat + 8 then .error (.access (4, 1) o.cmd.w0.toNat)
  else putElem h o.tenant false (.ok s) ((o.cmd.w0.toNat : Nat), leBytes 8 o.ftStart.toNat)

end State

/-- COPY (R45, R121). -/
def execCopy (h : Nat) (s : State) : Out := keepQueue s <| .next (s.runOp h 0x0001 (State.copyFx h))
/-- FILL (R121). -/
def execFill (h : Nat) (s : State) : Out := keepQueue s <| .next (s.runOp h 0x0002 (State.fillFx h))
/-- GATHER (R121). -/
def execGather (h : Nat) (s : State) : Out := keepQueue s <| .next (s.runOp h 0x0003 (State.gatherFx h))
/-- MATMUL (R48 to R60, R121). -/
def execMatmul (h : Nat) (start : List Word32) (s : State) : Out := keepQueue s <| .next (s.runOp h 0x0100 (State.matmulOp start h))
/-- MATMUL_SPLITK (R303). -/
def execMatmulSplitk (h : Nat) (start : List Word32) (s : State) : Out := keepQueue s <| .next (s.runOp h 0x0101 (State.splitkFx start h))
/-- GROUPED_MATMUL (R121). -/
def execGroupedMatmul (h : Nat) (groups : List MmGroup) (s : State) : Out := keepQueue s <|
  .next (s.runOpR h 0x0102 (State.listReads groups) (State.groupedFx groups h))
/-- ELEMENTWISE (R64, R65): of the function that W3 bits 7:0 of its record select, in the coding of Config. -/
def execElementwise (h : Nat) (f : VFun) (s : State) : Out := keepQueue s <|
  if (s.op? h).any (fun o => fld o.cmd.w3 7 0 == (Config.elementCode f).toNat) then
    .next (s.runOp h 0x0300 (State.elementwiseFx f h))
  else .next s
/-- RMSNORM (R121). -/
def execRmsnorm (h : Nat) (eps : Word32) (s : State) : Out := keepQueue s <| .next (s.runOp h 0x0301 (State.rmsFx eps h))
/-- LAYERNORM (R121). -/
def execLayernorm (h : Nat) (eps : Word32) (s : State) : Out := keepQueue s <| .next (s.runOp h 0x0302 (State.layerFx eps h))
/-- LOGSOFTMAX (R517). -/
def execLogsoftmax (h : Nat) (s : State) : Out := keepQueue s <| .next (s.runOp h 0x0303 (State.logsoftmaxFx h))
/-- REDUCE (R66, R121). -/
def execReduce (h : Nat) (op : RedOp) (s : State) : Out := keepQueue s <| .next (s.runOp h 0x0304 (State.reduceFx op h))
/-- ROPE (R121). -/
def execRope (h : Nat) (half : Bool) (rots : List Rot) (s : State) : Out := keepQueue s <|
  .next (s.runOp h 0x0305 (State.ropeFx half rots h))
/-- RAND_MASK (R409, R410). -/
def execRandMask (h : Nat) (s : State) : Out := keepQueue s <| .next (s.runOp h 0x0306 (State.randMaskFx h))
/-- NOP (R121): nothing. -/
def execNop (h : Nat) (s : State) : Out := keepQueue s <| .next (s.runOp h 0x0F00 (fun _ t => .ok t))
/-- EVENT (R123). -/
def execEvent (h : Nat) (s : State) : Out := keepQueue s <| .next (s.runOpR h 0x0F01 (fun _ o => if fld o.cmd.w2 1 0 = 0 then [] else [(o.cmd.w1.toNat, 64 * fld o.cmd.w2 1 0)]) (State.eventFx h))
/-- TIMESTAMP (R121). -/
def execTimestamp (h : Nat) (s : State) : Out := keepQueue s <| .next (s.runOp h 0x0F02 (State.timestampFx h))

end Sys2Proof.Machine
end

