-- ==== Sys2Proof/Machine/RlOperators.lean ====
section
/-! DEFINITION. The RL operators (R122, R518): per row or token, one FP32 operation at a time, left to right. -/
namespace Sys2Proof.Machine
open Sys2Proof

/-- Formats an RL operator reads (R122): FP32, BF16, FP16. -/
def isRlIn (t : Tensor) : Bool := !t.raw && (t.fmt == .fp .fp32 || t.fmt == .fp .bf16 || t.fmt == .fp .fp16)

/-- Left-to-right product. -/
def vMul3 (a b c : XNum) : VStep XNum :=
  let p := vMul a b
  let q := vMul p.1 c
  (q.1, p.2 ||| q.2)

namespace State

/-- An RL input: its numbers, widened exactly (R45, R122). -/
def rlIn (s : State) (o : RunOp) (i : Nat) : Except Err Tensor := do
  let t ← s.tin o i
  need (isRlIn t) 1
  pure t
/-- An RL output tensor of a given number of elements. -/
def rlOut (s : State) (o : RunOp) (i n : Nat) : Except Err Tensor := do
  let t ← s.tout o i
  need (isReal t) 1
  need (t.rows * t.cols == n) 3
  pure t
/-- The parameter block in W7. -/
def params (s : State) (o : RunOp) : Except Err (List Byte) := s.block64 o.tenant o.cmd.w7
/-- Write FP32 totals into the parameter block from offset 0x20 (R122, R518). -/
def putTotals (s : State) (h : Nat) (o : RunOp) (bad : Bool) (ts : List XNum) : Except Err State :=
  putElem h o.tenant bad (.ok s) ((o.cmd.w7.toNat + 0x20 : Nat), ts.flatMap (fun x => leBytes 4 (f32Code x)))

/-- βz of a row, element by element (R517). -/
def betaRow (beta : XNum) (zs : List XNum) : List (VStep XNum) := zs.map (fun z => vMul beta z)

/-- TOKEN_LOGPROB (R122, R517). -/
def tokenLogprobFx (h : Nat) (o : RunOp) (s : State) : Except Err State := do
  let a ← s.rlIn o 0
  let tk ← s.tin o 1
  need (!tk.raw && tk.fmt == .int32) 1
  let b ← s.params o
  let lp ← s.rlOut o 2 a.rows
  let ls ← s.rlOut o 3 a.rows
  need (tk.rows * tk.cols == a.rows) 3
  let zs := s.tensorNums a
  let toks := (s.tensorCodes tk).map (fun p => (BitVec.ofNat 32 p.2).toInt)
  let beta := f32At b 0
  let rs : List (VStep XNum × VStep XNum) := ((rowsOf a.cols zs).zip toks).map (fun p =>
    let xs := betaRow beta p.1
    let l := lseOf (xs.map (·.1))
    let fl := orFlags (xs.map (·.2)) ||| l.2
    let v : VStep XNum := if 0 ≤ p.2 ∧ p.2.toNat < a.cols then logProb l.1 ((xs.map (·.1)).getD p.2.toNat .nan) else (.nan, fNV)
    ((v.1, v.2), (l.1, fl)))
  let bad := s.tensorPoison a || s.tensorPoison tk || s.anyPoison o.cmd.w7.toNat 32
  let u ← s.vecOut h o bad (CmdRecF.cast0 o.cmd) lp (.fp .fp32) (rs.map (·.1.1))
  let v ← u.vecOut h o bad (CmdRecF.cast1 o.cmd) ls (.fp .fp32) (rs.map (·.2.1))
  pure ((v.opFlags h (orFlags (rs.map (fun r => r.1.2 ||| r.2.2)) ||| niOf (beta :: zs))).markPoison h bad (s.poisonOf a))

/-- The entropy of one row (R518). -/
def entropyRow (beta : XNum) (zs : List XNum) : VStep XNum :=
  let xs := betaRow beta zs
  let l := lseOf (xs.map (·.1))
  let f0 := orFlags (xs.map (·.2)) ||| l.2
  if l.1.isNan || l.1.isInf then (.nan, f0 ||| fNV)
  else
    let ts := xs.map (fun x =>
      let d := vSub x.1 l.1
      let p := vExp d.1
      if p.1.isZero && !p.1.sign then (XNum.zero, d.2 ||| p.2)
      else let m := vMul p.1 x.1; (m.1, d.2 ||| p.2 ||| m.2))
    let sm := vSum (ts.map (·.1))
    let r := vSub l.1 sm.1
    (r.1, f0 ||| orFlags (ts.map (·.2)) ||| sm.2 ||| r.2)

/-- ENTROPY (R122, R518). -/
def entropyFx (h : Nat) (o : RunOp) (s : State) : Except Err State := do
  let a ← s.rlIn o 0
  let b ← s.params o
  let t ← s.rlOut o 1 a.rows
  let zs := s.tensorNums a
  let beta := f32At b 0
  let rs := (rowsOf a.cols zs).map (entropyRow beta)
  let bad := s.tensorPoison a || s.anyPoison o.cmd.w7.toNat 32
  let u ← s.vecOut h o bad (CmdRecF.cast0 o.cmd) t (.fp .fp32) (rs.map (·.1))
  pure ((u.opFlags h (orFlags (rs.map (·.2)) ||| niOf (beta :: zs))).markPoison h bad (s.poisonOf a))

/-- The advantages of one group (R518). -/
def groupAdv (delta : XNum) (rs : List XNum) : List (VStep XNum) :=
  if rs.length = 1 then [(XNum.zero, fNone)]
  else
    let g := XNum.ofInt rs.length
    let sm := vSum rs
    let mean := vDiv sm.1 g
    let ds := rs.map (fun r => vSub r mean.1)
    let sq := ds.map (fun d => vMul d.1 d.1)
    let ss := vSum (sq.map (·.1))
    let var := vDiv ss.1 g
    let sd := vSqrt var.1
    let den := vAdd sd.1 delta
    let f := sm.2 ||| mean.2 ||| orFlags (ds.map (·.2)) ||| orFlags (sq.map (·.2)) ||| ss.2 ||| var.2 ||| sd.2 ||| den.2
    if den.1.isZero then rs.map (fun _ => (XNum.zero, f))
    else ds.map (fun d => let q := vDiv d.1 den.1; (q.1, f ||| q.2))

/-- GROUP_ADV (R122, R518). -/
def groupAdvFx (h : Nat) (o : RunOp) (s : State) : Except Err State := do
  let a ← s.rlIn o 0
  let b ← s.params o
  let n := a.rows * a.cols
  let t ← s.rlOut o 1 n
  let g := i32At b 4
  need (decide (1 ≤ g) && decide (g ≤ 1024) && n % g.toNat == 0) 3
  let xs := s.tensorNums a
  let delta := f32At b 0
  let rs := (rowsOf g.toNat xs).flatMap (groupAdv delta)
  let bad := s.tensorPoison a || s.anyPoison o.cmd.w7.toNat 32
  let u ← s.vecOut h o bad (CmdRecF.cast0 o.cmd) t (.fp .fp32) (rs.map (·.1))
  pure ((u.opFlags h (orFlags (rs.map (·.2)) ||| niOf (delta :: xs))).markPoison h bad (s.poisonOf a))

/-- One step of GAE, in descending t: the advantages so far, and the value of the position above (R122, R518). The list holds
(r, V, d) of positions t … 0. -/
def gaeSteps (gamma gl : XNum) : List (XNum × XNum × XNum) → XNum → Option XNum → List (VStep XNum)
  | [], _, _ => []
  | (r, v, d) :: rest, vNext, aNext =>
    let nd := vSub XNum.one d
    let p := vMul gamma vNext
    let q := vMul p.1 nd.1
    let e := if nd.1.isZero && aNext.isNone then (r, fNone) else vAdd r q.1
    let dt := vSub e.1 v
    let f := nd.2 ||| (if nd.1.isZero && aNext.isNone then fNone else p.2 ||| q.2) ||| e.2 ||| dt.2
    let a : VStep XNum := match aNext with
      | none => (dt.1, f)
      | some x => let c := vMul gl nd.1; let m := vFma c.1 x dt.1; (m.1, f ||| c.2 ||| m.2)
    a :: gaeSteps gamma gl rest v (some a.1)

/-- GAE (R122, R518): each row is a sequence. The value past a sequence's last position is not stated: it is a free value
where the last position is not done (log entry 21). -/
def gaeFx (h : Nat) (o : RunOp) (s : State) : Except Err State := do
  let r ← s.rlIn o 0
  let v ← s.rlIn o 1
  let d ← s.rlIn o 2
  let b ← s.params o
  let n := r.rows * r.cols
  let t ← s.rlOut o 3 n
  need (v.rows == r.rows && v.cols == r.cols && d.rows == r.rows && d.cols == r.cols) 3
  let gamma := f32At b 0
  let lam := f32At b 4
  let gl := vMul gamma lam
  let rs := s.tensorNums r; let vs := s.tensorNums v; let ds := s.tensorNums d
  let past : XNum := f32 (s.free.setWidth 32)
  let out := (rowsOf r.cols (rs.zip (vs.zip ds))).flatMap (fun row => (gaeSteps gamma gl.1 row.reverse past none).reverse)
  let bad := s.tensorPoison r || s.tensorPoison v || s.tensorPoison d || s.anyPoison o.cmd.w7.toNat 32
  let u ← s.used.vecOut h o bad (CmdRecF.cast0 o.cmd) t (.fp .fp32) (out.map (·.1))
  pure ((u.opFlags h (gl.2 ||| orFlags (out.map (·.2)) ||| niOf (gamma :: lam :: rs ++ vs ++ ds))).markPoison h bad (s.poisonOf r))

/-- One token of POLICY_LOSS: ℓ, g, whether it took the clipped branch, flags (R122, R518). -/
def policyToken (eLo eHi c inv lp lpp lpb a m : XNum) : XNum × XNum × Bool × NumFlags :=
  let u := vSub lp lpp
  let r := vExp u.1
  let x := vSub lpp lpb
  let y := vExp x.1
  let w := y.1.minimum c
  let lo := vSub XNum.one eLo
  let hi := vAdd XNum.one eHi
  let rc := (r.1.maximum lo.1).minimum hi.1
  let ra := vMul r.1 a
  let rca := vMul rc a
  let f := u.2 ||| r.2 ||| x.2 ||| y.2 ||| lo.2 ||| hi.2 ||| ra.2 ||| rca.2
  let un := ra.1.ltN rca.1 || ra.1.eqv rca.1
  let p := vMul3 w.neg (if un then r.1 else rc) a
  let l := vMul p.1 m
  let g : VStep XNum := if un then vMul l.1 inv else (XNum.zero, fNone)
  (l.1, g.1, !un, f ||| p.2 ||| l.2 ||| g.2)

/-- POLICY_LOSS (R122, R518): W5 ℓ, W6 g, totals Σℓ, Σm and the clipped count. -/
def policyLossFx (h : Nat) (o : RunOp) (s : State) : Except Err State := do
  let t0 ← s.rlIn o 0
  let t1 ← s.rlIn o 1
  let t2 ← s.rlIn o 2
  let t3 ← s.rlIn o 3
  let t4 ← s.rlIn o 4
  let b ← s.params o
  let n := t0.rows * t0.cols
  need ([t1, t2, t3, t4].all (fun t => t.rows * t.cols == n)) 3
  let ol ← s.rlOut o 5 n
  let og ← s.rlOut o 6 n
  let k := fun i => f32At b (4 * i)
  let i0 := s.tensorNums t0; let i1 := s.tensorNums t1; let i2 := s.tensorNums t2
  let i3 := s.tensorNums t3; let i4 := s.tensorNums t4
  let rs := (i0.zip (i1.zip (i2.zip (i3.zip i4)))).map
    (fun p => policyToken (k 0) (k 1) (k 2) (k 3) p.1 p.2.1 p.2.2.1 p.2.2.2.1 p.2.2.2.2)
  let sl := vSum (rs.map (·.1))
  let sm := vSum i4
  let cc := rneFp32 (.ofInt ((rs.filter (fun r => r.2.2.1)).length : Nat))
  let bad := [t0, t1, t2, t3, t4].any s.tensorPoison || s.anyPoison o.cmd.w7.toNat 32
  let u ← s.vecOut h o bad (CmdRecF.cast0 o.cmd) ol (.fp .fp32) (rs.map (·.1))
  let v ← u.vecOut h o bad (CmdRecF.cast1 o.cmd) og (.fp .fp32) (rs.map (·.2.1))
  let w ← v.putTotals h o bad [sl.1, sm.1, cc.1]
  let fl := orFlags (rs.map (·.2.2.2)) ||| sl.2 ||| sm.2 ||| niOf ([k 0, k 1, k 2, k 3] ++ i0 ++ i1 ++ i2 ++ i3 ++ i4)
  pure ((w.opFlags h fl).markPoison h bad (s.poisonOf t0))

/-- One token of KL_PENALTY: κ, gradient, κm, flags (R518). -/
def klToken (lp lpr m : XNum) : XNum × XNum × XNum × NumFlags :=
  let u := vSub lpr lp
  let e := vExp u.1
  let x := vSub e.1 u.1
  let k := vSub x.1 XNum.one
  let y := vSub XNum.one e.1
  let g := vMul y.1 m
  let km := vMul k.1 m
  (k.1, g.1, km.1, u.2 ||| e.2 ||| x.2 ||| k.2 ||| y.2 ||| g.2 ||| km.2)

/-- KL_PENALTY (R122, R518): W3 κ, W4 gradient, total Σκm. -/
def klFx (h : Nat) (o : RunOp) (s : State) : Except Err State := do
  let t0 ← s.rlIn o 0
  let t1 ← s.rlIn o 1
  let t2 ← s.rlIn o 2
  let _ ← s.params o
  let n := t0.rows * t0.cols
  need (t1.rows * t1.cols == n && t2.rows * t2.cols == n) 3
  let ok ← s.rlOut o 3 n
  let og ← s.rlOut o 4 n
  let i0 := s.tensorNums t0; let i1 := s.tensorNums t1; let i2 := s.tensorNums t2
  let rs := (i0.zip (i1.zip i2)).map (fun p => klToken p.1 p.2.1 p.2.2)
  let sm := vSum (rs.map (·.2.2.1))
  let bad := [t0, t1, t2].any s.tensorPoison
  let u ← s.vecOut h o bad (CmdRecF.cast0 o.cmd) ok (.fp .fp32) (rs.map (·.1))
  let v ← u.vecOut h o bad (CmdRecF.cast1 o.cmd) og (.fp .fp32) (rs.map (·.2.1))
  let w ← v.putTotals h o bad [sm.1]
  pure ((w.opFlags h (orFlags (rs.map (·.2.2.2)) ||| sm.2 ||| niOf (i0 ++ i1 ++ i2))).markPoison h bad (s.poisonOf t0))

end State

/-- TOKEN_LOGPROB (R122). -/
def execTokenLogprob (h : Nat) (s : State) : Out := keepQueue s <| .next (s.runOp h 0x0400 (State.tokenLogprobFx h))
/-- ENTROPY (R518). -/
def execEntropy (h : Nat) (s : State) : Out := keepQueue s <| .next (s.runOp h 0x0401 (State.entropyFx h))
/-- GROUP_ADV (R518). -/
def execGroupAdv (h : Nat) (s : State) : Out := keepQueue s <| .next (s.runOp h 0x0402 (State.groupAdvFx h))
/-- GAE (R122). -/
def execGae (h : Nat) (s : State) : Out := keepQueue s <| .next (s.runOp h 0x0403 (State.gaeFx h))
/-- POLICY_LOSS (R518). -/
def execPolicyLoss (h : Nat) (s : State) : Out := keepQueue s <| .next (s.runOp h 0x0404 (State.policyLossFx h))
/-- KL_PENALTY (R518). -/
def execKlPenalty (h : Nat) (s : State) : Out := keepQueue s <| .next (s.runOp h 0x0405 (State.klFx h))

end Sys2Proof.Machine
end

