-- ==== Sys2Proof/Machine/TurnState.lean ====
section
/-! DEFINITION. Chapter 12: the active turnover, its staging frames, and how it ends (R363, R364, R369, R370). -/
namespace Sys2Proof.Machine
open Sys2Proof

/-- Columns of a piece (R353). -/
def pieceCols (srcFmt : Nat) : Nat := if srcFmt = 0 then 512 else if srcFmt = 1 then 1024 else 2048
/-- The six RLE pages. -/
def rlePages : List Nat := [0xE8, 0xE9, 0xEA, 0xEB, 0xEC, 0xED]
/-- Address of a staging byte: staged tiles stand in memory above 2^65, by the tile they replace. -/
def stageAt (a : Nat) : Nat := 2 ^ 65 + a

/-- Bytes of one group of 1,024 elements of an MX format. -/
def groupBytes (fmt : Nat) : Nat := strmElemBytes fmt
/-- Steps of a tile of the PANEL layout (R73, R359). -/
def panelKp (fmt : Nat) : Nat := if fmt = 1 then 512 else 1024
/-- Bytes of a K × N destination in a layout (R359). -/
def rleBytes (fmt layout k n : Nat) : Nat :=
  if layout = 2 then n / 64 * ((k + panelKp fmt - 1) / panelKp fmt) * 65536
  else if 8 ≤ fmt then (if layout = 1 then n * (k / 1024) else (k * n + 1023) / 1024) * groupBytes fmt
  else k * n * strmElemBytes fmt
/-- Are a destination's format and layout allowed for K × N (R358, R359)? -/
def rleLayoutOk (fmt layout k n : Nat) : Bool :=
  if fmt = 0 then layout == 0
  else if fmt = 1 ∨ fmt = 3 ∨ fmt = 4 then layout < 2 || (layout == 2 && n % 64 == 0)
  else if fmt = 8 ∨ fmt = 9 ∨ fmt = 10 then (layout == 0 && n % 32 == 0) || (layout == 1 && k % 1024 == 0)
  else false

namespace TurnPart
/-- Pieces in a row of its grid (R353). -/
def pcols (p : TurnPart) : Nat := (p.n + pieceCols p.srcFmt - 1) / pieceCols p.srcFmt
/-- Pieces of its grid. -/
def pieces (p : TurnPart) : Nat := (p.k + 31) / 32 * p.pcols
/-- Is every piece received (R363)? -/
def staged (p : TurnPart) : Bool := p.got.length == p.pieces
/-- Its tiles. -/
def tilesL (p : TurnPart) : List Nat := (List.range p.tiles).map (fun i => p.base / 65536 + i)
end TurnPart

namespace State

/-- An operator's effect has ended, with a CODE unless it has one already. -/
def opDone (s : State) (h : Nat) (code detail : Nat) : State :=
  match s.op? h with
  | some o => (s.opSet h { o with ran := true }).opFail h (BitVec.ofNat 8 code) (BitVec.ofNat 8 detail)
  | none => s

/-- Frames held for staging, with the tile each is for. -/
def stageFrames (s : State) : List (Nat × Nat) :=
  s.ms.frames.filterMap (fun p => match p.2.use with | .stage n => some (p.1, n) | _ => none)

/-- Free every staging frame. -/
def stageFree (s : State) : State :=
  s.stageFrames.foldl (fun u p => { (u.freeFrameAt p.1).clearPoison (stageAt (p.2 * tileBytes)) tileBytes with mem := Mem.clear u.mem (stageAt (p.2 * tileBytes)) tileBytes }) s

/-- Who the device acts as when it writes a turnover's areas: in the model key domain as itself (R143), else as the tenant. -/
def turnWho (s : State) (t a : Nat) : Nat := if rgnOwner (s.rgnAt a) = modelOwner then modelOwner else t
/-- Write a field of a turnover's descriptor or reference area. -/
def turnPut (s : State) (t a : Nat) (bs : List Byte) : State := (s.writeRange (s.turnWho t a) none a bs).1

/-- Microseconds since TURN_FT. -/
def turnHold (s : State) (t : Turn) : Nat := (s.ft.toNat - t.turnFt.toNat) / 4000
/-- Parts swapped. -/
def turnSwapped (t : Turn) : Nat := (t.parts.filter (·.swapped)).length

/-- TYPE_DATA of a TURNOVER item (R370). -/
def turnData (s : State) (t : Turn) (outcome : Nat) : Nat :=
  outcome + 2 ^ 8 * (if t.st = 1 then 0 else min (s.turnHold t) (2 ^ 24 - 1)) + 2 ^ 32 * turnSwapped t

/-- The turnover's record ends with its outcome (R364, R370). -/
def turnDone (s : State) (t : Turn) (outcome code detail : Nat) : State :=
  match s.op? t.op with
  | some o => (s.opSet t.op { o with tdata := BitVec.ofNat 64 (s.turnData t outcome), epoch := t.epoch }).opDone t.op code detail
  | none => s

/-- The turnover ends without release (R360, R364, R369, R370, R374). -/
def turnAbort (s : State) (t : Turn) (outcome code detail : Nat) : State :=
  let s := t.parts.foldl (fun u p =>
    if p.ref ≠ 0 ∧ p.got ≠ [] then u.turnPut t.tenant (p.entry + 0x20) (leBytes 4 0) else u) s.stageFree
  let s := s.turnDone t outcome code detail
  let s : State := { s with turn := none, turnLast := some t.version, rleQ := [] }
  (s.bump R.RLE_ABORT_CNT).raiseAll rlePages 3

/-- The turnover ends with the copy invalid (R364, R366). -/
def turnInvalid (s : State) (t : Turn) : State :=
  let s := ((s.wrF R.RLE_TURN_STAT 27 27 0).wr R.RLE_GEN_VERSION 0xFFFFFFFF).setBits R.RLE_ERR 8
  (s.turnAbort t 4 0x17 0x0D).raiseAll rlePages 4

/-- A DRAM stack is fenced (R364, R369): STAGING ends; in REPLACING the copy is invalid where a part not swapped, or its
staging, stands in the stack. -/
def turnFence (s : State) (k : Nat) : State :=
  match s.turn with
  | none => s
  | some t =>
    if t.st = 1 then s.turnAbort t 3 0x17 0x0B
    else if t.st = 2 then
      let ns := (t.parts.filter (fun p => !p.swapped)).flatMap (·.tilesL)
      let hit := s.ms.frames.any (fun f => stackOf f.1 == k && (match f.2.use with | .tile n => ns.contains n | .stage _ => true | _ => false))
      if hit then s.turnInvalid t else s
    else s

end State
end Sys2Proof.Machine
end

