-- ==== Sys2Proof/Machine/Tiers.lean ====
section
/-! DEFINITION. Chapter 05: regions, quotas, accesses, moves, demotion, flash, fences (R141 to R176), and the fatal package
error (R474). -/
namespace Sys2Proof.Machine
open Sys2Proof

namespace State

/-! ### Errors -/

/-- The fatal package error (R474): PWR_FATAL latches the cause, every port goes OFF, FATAL is raised, and unless the CTD
has failed or the host link is down every record completes with HW_FAULT, those of requests first. Items for buffers in
the unified range are discarded. -/
def fatal (s : State) (cause die blk : Nat) : State :=
  if s.rdB R.PWR_STAT 26 then s
  else
    let s := (s.wr R.PWR_FATAL (BitVec.ofNat 32 (2 ^ 31 + die % 256 * 256 + cause))).setBits R.PWR_STAT 0x04000000#32
    let s := (List.range 36).foldl (fun u p => if u.portState p = 0 then u else u.portTo p 0) s
    let s := (s.raise 0x05 3).logError 0x05 3
    let stop (u : State) : State :=
      { u with ops := [], strm := [], waiters := [], sigs := [], readyQ := [], gsteps := [], commits := [], folds := [], recvs := [], convs := [], remTodo := []
               eng := Map.mapVals u.eng (fun _ g => { g with run := none, susp := [] })
               slots := Map.mapVals u.slots (fun _ f => { f with run := none, queue := [] }) }
    if cause = 5 ∨ cause = 6 ∨ s.host.up = false then stop s
    else
      let done (u : State) (l : List (Nat × RunOp)) : State :=
        l.foldl (fun w p => w.complete p.1 { p.2 with code := 0x0D, detail := BitVec.ofNat 8 blk }) u
      let s := done s (s.ops.filter (fun p => !(s.requestsOf p.2.cmd).isEmpty))
      let s := stop (done s s.ops)
      { s with evq := Map.mapVals s.evq (fun k q => if s.rdB (R.EVQ_CTL (k / 16) (k % 16)) 30 then q else { q with items := [] }) }

/-! ### Ends of moves and accesses -/

/-- A tile of an operator's span fails: its CODE is that of the failed tile of lowest address (R159). -/
def moveFail (s : State) (h n code detail : Nat) : State :=
  match s.op? h with
  | some o =>
    let a : Word64 := BitVec.ofNat 64 (s.globalAddr (n * tileBytes))
    let o := { o with faultCnt := satAdd32 o.faultCnt 1 }
    s.opSet h (if o.code = 0 ∨ a < o.faultAddr then
      { o with code := BitVec.ofNat 8 code, detail := BitVec.ofNat 8 detail, faultAddr := a } else o)
  | none => s

/-- A move of tile `n` ends for whoever asked for it. -/
def endWhy (s : State) (w : MoveWhy) (n code detail : Nat) : State :=
  match w with
  | .op h => if code = 0 then s else s.moveFail h n code detail
  | .between (.op h _) => if code = 0 then s else s.moveFail h n code detail
  | .between (.relay p w m) => s.rspSend p w m code detail 0 []
  | _ => s

/-- The host is refused an access at a local address (R492). The CLASS of the record is not given (log entry 3). -/
def hostRefuse (s : State) (addr : Nat) : State :=
  (((s.used.setBits R.HST_ERR 1).bump R.HST_REFUSED_CNT).raise 0x08 2).errLatch 0x08 (s.free.toNat % 4) addr
/-- A window access is answered (R491, R492): a read completes, with 0xFF bytes where it is refused; a refused write is
discarded. -/
def winAnswer (s : State) (x : Access) (code : Nat) (data : List Byte) : State :=
  if x.kind = .read then
    match Map.get? s.winReads (x.fresh - 2 ^ 64) with
    | none => s
    | some r =>
      let s : State := { s with winReads := Map.erase s.winReads (x.fresh - 2 ^ 64) }
      if code = 0 ∨ code = 9 then s.emit (.winData (x.fresh - 2 ^ 64) data (code == 9))
      else (s.hostRefuse x.addr).emit (.winData (x.fresh - 2 ^ 64) (List.replicate r.len 0xFF) false)
  else if code ≠ 0 then s.hostRefuse x.addr else s

/-- An access of an operator ends with a CODE: a write of a stream, `fresh` its number plus 1, leaves the stream's signal unsent and is
a fault of its engine (R91, R120, R126); the fault of a lower tier names the tile (R170). -/
def accFault (s : State) (h : Nat) (x : Access) (code detail : Nat) : State :=
  let a := if code = 0x0A then x.addr / tileBytes * tileBytes else x.addr
  match (if x.kind = .write then Map.get? s.strm (x.fresh - 1) else none) with
  | some v =>
    if v.op = h then (s.strmSet (x.fresh - 1) { v with bad := true }).opFaultIn h v.eng (BitVec.ofNat 8 code) (BitVec.ofNat 8 detail) a v.eng (SD.slot v.desc)
    else s.opFaultAt h (BitVec.ofNat 8 code) (BitVec.ofNat 8 detail) a
  | none => s.opFaultAt h (BitVec.ofNat 8 code) (BitVec.ofNat 8 detail) a

/-- Answer an access: an operator's ends with its CODE, its data going where a REMOTE_READ (`fresh`) or REMOTE_ATOMIC puts it
(R226, R231); a remote request's with its response; another's with a reply. `bad` lists the poisoned units its data was read with. -/
def answerWith (s : State) (x : Access) (code detail : Nat) (data : List Byte) (bad : List Nat) : State :=
  let marks (n dst : Nat) : List Nat := ({ s with ms := { s.ms with poison := bad } } : State).poisonRel x.addr n dst
  match x.op with
  | some h =>
    let s := if code = 0 then s else s.accFault h x code detail
    if code = 0 ∨ code = 9 then
      (match s.op? h with
       | some o =>
         if o.cmd.opcode = 0x0700 ∧ x.kind = .read then
           (let w := s.writeMarked o.tenant (some h) x.fresh data (marks data.length x.fresh)
            if w.2.1 ≠ 0 then s.opFaultAt h (BitVec.ofNat 8 w.2.1) (BitVec.ofNat 8 w.2.2) x.fresh else w.1)
         else if o.cmd.opcode = 0x0702 ∧ x.kind = .atomic ∧ o.cmd.w4 ≠ 0 then
           (let d := (data ++ List.replicate 8 (0 : Byte)).take 8
            let w := s.writeRange o.tenant (some h) o.cmd.w4.toNat d
            if w.2.1 ≠ 0 then s.opFaultAt h (BitVec.ofNat 8 w.2.1) (BitVec.ofNat 8 w.2.2) o.cmd.w4.toNat else w.1)
         else s
       | none => s)
    else s
  | none =>
    match x.rem with
    | some (p, cls, m) =>
      let bs := if cls = 0x10 then data else []
      s.rspMarked p x.who m code detail (if cls = 0x12 then BitVec.ofNat 64 (leNat data) else 0) bs (marks bs.length 0)
    | none => if 2 ^ 64 ≤ x.fresh then s.winAnswer x code data else s.emit (.reply x.fresh code detail data)
/-- Answer an access served now. -/
def answer (s : State) (x : Access) (code detail : Nat) (data : List Byte) : State := s.answerWith x code detail data s.ms.poison

/-- Serve an access at the home of this moment (R146, R148, R153, R157, R230): answered, or waiting. -/
def serve (s : State) (x : Access) : State :=
  let n := x.addr / tileBytes
  match x.kind with
  | .read =>
    match s.readDeny x.who x.addr x.len with
    | some e => s.answer x e.1 e.2 []
    | none =>
      match (s.tile n).st with
      | .away => s.forward x (s.tile n).loc
      | .flash => (s.fillTouch n).flashRead n (.acc x)
      | .movingF => s.flashRead n (.acc x)
      | _ =>
        let s := s.readAt x.addr x.len
        s.answer x (if s.anyPoison x.addr x.len then 9 else 0) 0 (s.bytesAt x.addr x.len)
  | k =>
    match s.deny x.who x.addr true with
    | some e => s.answer x e.1 e.2 []
    | none =>
      let at_ := k == .atomic
      let sz := atomicSize x
      let old := s.bytesAt x.addr sz
      if at_ && (x.addr % sz != 0 || (atomicNew (x.len % 16) sz 0 0 0).isNone) then s.answer x 3 3 []
      else if at_ && s.anyPoison x.addr sz && (s.tile n).st == .dram then s.answer x 9 0 old
      else
        let r := s.writeTile x
        if r.2.1 ≠ 0 then r.1.answer x r.2.1 r.2.2 []
        else if r.1.ms.waits.length = s.ms.waits.length ∧ (s.tile n).st ≠ .away then r.1.answer x 0 0 (if at_ then old else [])
        else r.1

/-- Accesses held for a tile are applied at its home of this moment, in the order they came (R153). -/
def applyHeld (s : State) (n : Nat) : State :=
  let l := s.ms.waits.filter (fun w => w.held && w.acc.addr / tileBytes == n)
  let s : State := { s with ms := { s.ms with waits := s.ms.waits.filter (fun w => !(w.held && w.acc.addr / tileBytes == n)) } }
  l.foldl (fun u w => u.serve w.acc) s

/-- End a move without commit: the destination is freed, the home is the source, held accesses are applied there (R154). -/
def abortMove (s : State) (n : Nat) (m : Move) (code detail : Nat) : State :=
  let s := if m.dstFlash then s.freeFlashAt m.dst else s.freeFrameAt m.dst
  let s : State := { s with ms := { s.ms with moves := Map.erase s.ms.moves n, progs := s.ms.progs.filter (fun p => !(p.2.isMove && p.2.tile == n)),
                                              reads := s.ms.reads.filter (fun p => !(p.2.by_ == .move && p.2.tile == n)) } }
  let t := s.tile n
  let s := s.tileSet n { t with st := if m.srcFlash then .flash else .dram }
  ((s.bump (R.MPD_MOVE_FAIL m.mover)).endWhy m.why n code detail).applyHeld n

/-- A tile is lost while it moves: the move ends, and the accesses held for it are answered (R154, R169). -/
def loseAny (s : State) (n : Nat) : State :=
  match Map.get? s.ms.moves n with
  | some m =>
    let s := if m.dstFlash then s.freeFlashAt m.dst else s.freeFrameAt m.dst
    let s : State := { s with ms := { s.ms with moves := Map.erase s.ms.moves n, progs := s.ms.progs.filter (fun p => !(p.2.isMove && p.2.tile == n)),
                                                reads := s.ms.reads.filter (fun p => !(p.2.by_ == .move && p.2.tile == n)) } }
    (((s.loseTile n).bump (R.MPD_MOVE_FAIL m.mover)).endWhy m.why n 0x0A 2).applyHeld n
  | none => s.loseTile n

/-! ### Fences (R164, R201) -/

/-- Both tile home table copies of some block lost: fatal, cause TABLE. One lost: SINGLE (R164, R474). -/
def dropCopy (s : State) (k : Nat) : State :=
  let s : State := { s with ms := { s.ms with tblA := s.ms.tblA && decide (6 ≤ k), tblB := s.ms.tblB && decide (k < 6) } }
  let s := (s.setBits R.MPD_TBL_STAT 0x80000000#32).raiseAll mpdPages 4
  if s.ms.fenced.contains ((k + 6) % 12) then s.fatal 3 (16 + k / 2) 7 else s

/-- The reach port whose buffer half lies on a stack (R150). -/
def portOfStack (k : Nat) : Option Nat :=
  if k = 4 ∨ k = 5 then some 33 else if k = 6 ∨ k = 7 then some 35 else if k = 8 ∨ k = 9 then some 32
  else if k = 10 ∨ k = 11 then some 34 else none

/-- Frames a reach port's replay store holds (R202, R215). -/
def replayFrames (s : State) (p : Nat) : Nat := (s.ms.frames.filter (fun (f : Nat × Frame) => f.2.use == FrameUse.replay (p - 32))).length
/-- A stack is fenced (R164): status, interrupt, quotas, table copy, the reach port's half; a turnover may end (R369); a move asked for
to it by name fails (R159). -/
def fenceStack (s : State) (k : Nat) : State :=
  let s := s.turnFence k
  let s := (s.ms.asks.filter (fun a => a.dest == .stack k)).foldl (fun u a => u.endWhy a.why a.tile 3 3) s
  let before := s.liveFrames
  let s : State := { s with ms := { s.ms with fenced := (k :: s.ms.fenced), evacuating := s.ms.evacuating.filter (· != k),
                                              frames := s.ms.frames.filter (fun p => stackOf p.1 != k),
                                              asks := s.ms.asks.filter (fun a => a.dest != .stack k) } }
  let s := s.wrF (R.DRP_FENCE_STAT k) 31 30 2
  let s := (s.cutQuotas false before s.liveFrames).raise (0xD8 + k) 2
  let s := match portOfStack k with
    | some p => ((s.wrF (preg p 0x20C) 11 0 (s.replayFrames p)).clrBits (preg p 0x204) (BitVec.ofNat 32 (2 ^ (k % 2)))).raise (portPage p) 9
    | none => s
  s.dropCopy k

/-- Does anything still stand on an evacuating stack? -/
def stackHolds (s : State) (k : Nat) : Bool :=
  s.ms.frames.any (fun p => stackOf p.1 == k && (match p.2.use with | .replay _ => false | _ => true))
/-- Do the flits in the buffer of a stack's reach port fit into its other half (R201)? -/
def bufDrained (s : State) (k : Nat) : Bool :=
  match portOfStack k with
  | some p => decide (((s.router.filter (fun r => r.2.inPort == p)).map (fun r => r.2.flits)).sum ≤ 262144)
  | none => true
/-- The end of an evacuation: when no tile remains, and the reach port's half is drained, the stack is fenced (R164 step 5, R201). -/
def evacEnd (s : State) (k : Nat) : State :=
  if s.ms.evacuating.contains k && !s.stackHolds k && s.bufDrained k then s.fenceStack k else s

/-- Move a frame that is no tile's home (a guest, a staging frame) off a stack, where another stack has a free frame. -/
def relocate (s : State) (loc : Nat) (f : Frame) : State :=
  match ((placeOrder 0 loc).filter s.stackLive).findSome? s.freeFrame with
  | some l =>
    let s := s.framesSet (Map.set (Map.erase s.ms.frames loc) l f)
    (match f.use with
     | .guest g => { s with guests := Map.modify s.guests g (fun x => { x with frame := l }) }
     | _ => s)
  | none => s

/-- Start the evacuation of a stack (R164): no new frames; every tile there is to move, pinned ones included. -/
def evacuate (s : State) (k : Nat) : State :=
  if s.ms.fenced.contains k || s.ms.evacuating.contains k then s
  else
    let s : State := { s with ms := { s.ms with evacuating := k :: s.ms.evacuating } }
    let s := s.wrF (R.DRP_FENCE_STAT k) 31 30 1
    let s := match portOfStack k with
      | some p => s.portSet p { s.port p with leaving := (s.port p).leaving + (if s.portLive p then 262144 else 0) }
      | none => s
    let s := (s.ms.frames.filter (fun p => stackOf p.1 == k)).foldl (fun u p =>
      match p.2.use with
      | .tile n => u.askMove ⟨n, .evacuate, .place, false⟩
      | .guest _ => u.relocate p.1 p.2
      | .stage _ => u.relocate p.1 p.2
      | _ => u) s
    s.evacEnd k

/-- A guest is given up: its frame is freed, its bytes are gone (R240, R243). -/
def dropGuest (s : State) (g : Nat) : State :=
  match Map.get? s.guests g with
  | some v =>
    let a := 2 ^ 64 + g * tileBytes
    ({ s.clearPoison a tileBytes with guests := Map.erase s.guests g, mem := Mem.clear s.mem a tileBytes } : State).freeFrameAt v.frame
  | none => s
/-- One frame of a stack lost at once (R154, R164). -/
def loseFrame (s : State) (p : Nat × Frame) : State :=
  match p.2.use with
  | .tile n =>
    (match Map.get? s.ms.moves n with
     | some m => if m.verified && m.isRead then s else s.loseAny n
     | none => s.loseTile n)
  | .dest n =>
    (match Map.get? s.ms.moves n with
     | some m => s.abortMove n m 0x0A 2
     | none => s)
  | .guest g => s.dropGuest g
  | _ => s

/-- The immediate fence (R164): every tile homed in the stack is LOST at once. -/
def fenceNow (s : State) (k : Nat) : State :=
  if s.ms.fenced.contains k then s
  else
    let s := s.turnFence k
    let s := (s.ms.frames.filter (fun p => stackOf p.1 == k)).foldl loseFrame s
    s.fenceStack k

/-! ### Read errors (R161, R162) -/

/-- Symbols of a codeword that a die holds at most (R161). -/
def dieSyms (d : Nat) : Nat := if d < 4 then 3 else 2
/-- Symbols of a codeword erased on every read of a stack: those of its failed dies (R162). -/
def erasedSyms (s : State) (k : Nat) : Nat :=
  (((List.range 16).filter (fun d => s.rdB (R.DRP_DIE_STAT k) d)).map dieSyms).sum
/-- What the DRP makes of what it finds: four check symbols decode at most four symbols erased, a symbol in error beside those erased
counting for two (R161, R162; log entry 66). -/
def eccDecode (s : State) (k : Nat) (e : EccResult) : EccResult :=
  let er := s.erasedSyms k
  if 4 < er then .poisoned
  else match e with
  | .symbol => if er + 2 ≤ 4 then .symbol else .poisoned
  | .dieTrial d => if s.rdB (R.DRP_DIE_STAT k) d then .clean else if er + dieSyms d ≤ 4 then .dieTrial d else .poisoned
  | r => r
/-- What a read of the 64-byte unit at local address `a` (none in the carve-out) of stack `k` finds. -/
def eccApply (s : State) (k : Nat) (a : Option Nat) (e : EccResult) : State :=
  match s.eccDecode k e with
  | .clean => s
  | .symbol => s.bump (R.DRP_CE_CNT k)
  | .dieTrial d =>
    if 16 ≤ d then s
    else
      let c := satAdd32 (Map.get s.ms.dieErr 0 (16 * k + d)) 1
      let s := s.bump (R.DRP_DIE_CNT k)
      let s : State := { s with ms := { s.ms with dieErr := Map.set s.ms.dieErr (16 * k + d) c } }
      if s.rdF (R.DRP_DIE_THRESH k) 7 0 ≤ c.toNat then
        let second := s.rd (R.DRP_DIE_STAT k) != 0
        let s := ((s.setBits (R.DRP_DIE_STAT k) (BitVec.ofNat 32 (2 ^ d))).raise (0xD8 + k) 1).errLatch (0xD8 + k) 2 0
        if second then s.evacuate k else s
      else s
  | .poisoned =>
    let s := match a with | some x => s.poisonAt (x / 64) | none => s
    ((s.bump (R.DRP_UE_CNT k)).raise (0xD8 + k) 0).errLatch (0xD8 + k) 1 (match a with | some x => s.globalAddr x | none => 0)

/-! ### Moves between packages, at the origin (R240) -/

/-- Does the region of a tile belong to the model key domain? -/
def modelTile (s : State) (n : Nat) : Bool := s.tileOwner n == modelOwner

/-- A move between packages ends for who asked for it; a TILE_MOVE that needed it first ends too where it failed (R243). -/
def awayEnd (s : State) (n : Nat) (r : ReqFor) (code detail : Nat) : State :=
  let s := s.endWhy (.between r) n code detail
  match r with
  | .op h _ => if code = 0 then s else { s with ms := { s.ms with asks := s.ms.asks.filter (fun a => !(a.tile == n && a.why == .op h)) } }
  | _ => s
/-- Step 1 and 2 of a move to package `d` (R240): the entry is marked, the destination takes its frame. -/
def awayStart (s : State) (n d : Nat) (r : ReqFor) : State :=
  let t := s.tile n
  let fail (c e : Nat) : State := s.awayEnd n r c e
  if s.modelTile n then fail 5 0
  else match t.st with
  | .unalloc => fail 0 0
  | .lost => fail 0x0A 2
  | .movingD => s
  | .movingF => s
  | .away =>
    if t.loc = d then fail 0 0
    else if s.lostPkgs.contains d || (d != s.pkg && !inDomain (s.rd R.FBD_SHAPE) d) then fail 0x11 1
    else if d = s.pkg then
      (if s.dFree (s.tileOwner n) = 0 then fail 0x11 5
       else match s.placeFrame n with
        | none => fail 0x11 5
        | some loc =>
          let s := s.takeFrame loc (.dest n) (s.tileOwner n)
          let s : State := { s with away := Map.set s.away n ⟨d, some t.loc, 2, some r, loc⟩ }
          s.reqSend t.loc 0x15 0x7F { remNone (s.globalAddr (n * tileBytes)) with op0 := BitVec.ofNat 64 d } 0 (.send n))
    else
      let s : State := { s with away := Map.set s.away n ⟨d, some t.loc, 1, some r, 0⟩ }
      s.reqSend d 0x14 0x7F { remNone (s.globalAddr (n * tileBytes)) with aop := s.tileOwner n } 0 (.offer n)
  | _ =>
    if d = s.pkg then fail 0 0
    else if s.lostPkgs.contains d || !inDomain (s.rd R.FBD_SHAPE) d then fail 0x11 1
    else
      let s := s.tileSet n { t with st := if t.st = .flash then .movingF else .movingD }
      let s : State := { s with away := Map.set s.away n ⟨d, none, 1, some r, 0⟩ }
      s.reqSend d 0x14 0x7F { remNone (s.globalAddr (n * tileBytes)) with aop := s.tileOwner n } 0 (.offer n)

/-! ### TILE_MOVE and PREFETCH (R145, R158, R159) -/

/-- May a tenant move a tile? CODE and DETAIL where it may not (R143, R145). -/
def moveDeny (s : State) (who n : Nat) (discard : Bool) : Option (Nat × Nat) :=
  let v := s.rgn (n / 65536)
  if !bit v 31 || !s.tenantActive who then some (4, 1)
  else if rgnOwner v = modelOwner then
    if bit v 23 then (if s.turnRight who then none else some (4, 1))
    else if discard && s.turnRight who then (if s.turn.isSome then some (0x17, 2) else none)
    else if s.readGrant who || s.turnRight who then some (5, 0) else some (4, 1)
  else if rgnOwner v = who then none else some (4, 1)

/-- The DRAM stack R160 selects for a tile: its own counts as having room. -/
def placedStack (s : State) (n : Nat) : Option Nat :=
  let t := s.tile n
  ((placeOrder (fld (s.rgn (n / 65536)) 27 24) n).filter s.stackLive).find? (fun k =>
    (s.freeFrame k).isSome || ((t.st == .dram || t.st == .movingD) && stackOf t.loc == k))

/-- Is a tile at a destination already (R159)? -/
def atDest (s : State) (n : Nat) (d : MoveDest) : Bool :=
  let t := s.tile n
  match d with
  | .place => t.st == .dram && s.placedStack n == some (stackOf t.loc)
  | .stack k => t.st == .dram && stackOf t.loc == k
  | .flash => t.st == .flash
  | _ => false

/-- Why a move of an allocated tile is refused (R159). -/
def moveBad (s : State) (n : Nat) (d : MoveDest) : Bool :=
  let tier := rgnTier (s.rgn (n / 65536))
  match d with
  | .flash => (s.tile n).pin || tier == 1
  | .place => tier == 2
  | .stack k => tier == 2 || s.ms.fenced.contains k
  | _ => false

/-- Discard a tile; a weight region's clears VALID of the generation copy (R145); the last on an evacuating stack ends its evacuation
(R164). -/
def discardAny (s : State) (n : Nat) : State :=
  let s := if s.modelTile n && !bit (s.rgn (n / 65536)) 23 then s.clrBits R.RLE_TURN_STAT 0x08000000#32 else s
  if (s.tile n).st = .away then
    (s.reqSend (s.tile n).loc 0x17 0x7F (remNone (s.globalAddr (n * tileBytes))) 0 (.release n)).tileSet n Tile.none
  else
    let t := s.tile n
    let u := s.discardTile n
    if t.st = .dram then u.evacEnd (stackOf t.loc) else u

/-- Does anything hold a tile where it is: a move, or an access in flight (R153)? -/
def tileBusy (s : State) (n : Nat) : Bool :=
  (Map.get? s.ms.moves n).isSome || (Map.get? s.away n).isSome || s.ms.reads.any (fun p => p.2.tile == n) || s.ms.waits.any (fun w => w.acc.addr / tileBytes == n)

/-- One tile of a TILE_MOVE or PREFETCH (R159). `only`: PREFETCH, which concerns flash homes. -/
def moveTile (h who : Nat) (d : MoveDest) (pin unpin only : Bool) (s : State) (n : Nat) : State :=
  match s.moveDeny who n (d == .discard) with
  | some e => s.moveFail h n e.1 e.2
  | none =>
    let t := s.tile n
    let s := if unpin && t.st != .unalloc && t.pin then s.tileSet n { t with pin := false } else s
    let t := s.tile n
    match t.st with
    | .unalloc => s
    | .lost => if d = .discard then s.discardAny n else s.moveFail h n 0x0A 2
    | _ =>
      if d = .discard then (if s.tileBusy n then s.askMove ⟨n, .op h, d, false⟩ else s.discardAny n)
      else if t.st = .away || t.st = .movingD || t.st = .movingF then s.askMove ⟨n, .op h, d, pin⟩
      else if s.atDest n d || (only && t.st == .dram) then
        (if pin && t.st = .dram then s.tileSet n { t with pin := true } else s)
      else if s.moveBad n d then s.moveFail h n 3 3
      else s.askMove ⟨n, .op h, d, pin⟩

/-- TILE_MOVE or PREFETCH over its span (R159). -/
def spanMove (s : State) (h opc : Nat) : State :=
  match s.op? h with
  | none => s
  | some o =>
    if o.dispatched = true ∧ o.ran = false ∧ o.code = 0 ∧ o.cmd.opcode.toNat = opc then
      let w0 := o.cmd.w0.toNat
      let cnt := o.cmd.w1.toNat
      let w2 := o.cmd.w2.toNat
      let mv := opc == 0x0010
      let dest := w2 % 4
      let stk := w2 / 16 % 16
      let mask := if mv then 0x3F3 else 0x100
      let s := s.opSet h { o with ran := true }
      if w0 % tileBytes ≠ 0 ∨ cnt = 0 ∨ 65536 < cnt ∨ uniEnd < w0 + cnt * tileBytes ∨ w2 &&& mask ≠ w2 ∨
         (mv && stk != 0 && dest != 1) ∨ 11 < stk ∨ o.cmd.w3 ≠ 0 ∨ o.cmd.w4 ≠ 0 ∨ o.cmd.w5 ≠ 0 ∨ o.cmd.w6 ≠ 0 ∨ o.cmd.w7 ≠ 0 then
        s.opFail h 3 3
      else
        let d : MoveDest := if mv then (if dest = 0 then .place else if dest = 1 then .stack stk else if dest = 2 then .flash else .discard) else .place
        ((List.range cnt).map (fun i => w0 / tileBytes + i)).foldl
          (moveTile h o.tenant d (w2.testBit 8) (mv && w2.testBit 9) (!mv)) s
    else s

/-! ### Starting and committing a move (R152) -/

/-- The tile mover of a move from frame `loc`, or to the stack named or tried first (R152). -/
def moverOf (s : State) (n : Nat) (t : Tile) (d : MoveDest) : Nat :=
  if t.st = .dram then stackOf t.loc / 2
  else match d with
    | .stack k => k / 2
    | _ => (placeOrder (fld (s.rgn (n / 65536)) 27 24) n).headD 0 / 2

/-- Moves in flight of a mover. -/
def moverLoad (s : State) (m : Nat) : Nat := (s.ms.moves.filter (fun p => p.2.mover == m)).length

/-- Drop the asks for a tile and a reason. -/
def unask (s : State) (a : MoveAsk) : State := { s with ms := { s.ms with asks := s.ms.asks.erase a } }

/-- Frames of an owner that a demotion could free (R156). -/
def demotable (s : State) (o : Nat) : List (Nat × Frame) :=
  s.ms.frames.filter (fun p => p.2.owner == o && (match p.2.use with
    | .tile n => !(s.tile n).pin && (s.tile n).st == .dram && rgnTier (s.rgn (n / 65536)) == 0 && o != modelOwner
    | _ => false))

/-- The frame a move to DRAM takes. -/
def dramDest (s : State) (n : Nat) (d : MoveDest) : Option Nat :=
  if s.dFree (s.tileOwner n) = 0 then none
  else match d with
    | .stack k => if s.stackLive k then s.freeFrame k else none
    | _ => s.placeFrame n

/-- Step 1 and 2 of a move into frame `loc`. -/
def beginDram (s : State) (n m : Nat) (a : MoveAsk) (loc : Nat) : State :=
  let t := s.tile n
  let src := t.st == .flash
  let s := (s.unask a).takeFrame loc (.dest n) (s.tileOwner n)
  let s := s.tileSet n { t with st := if src then .movingF else .movingD }
  let mv : Move := ⟨m, a.why, src, t.loc, false, loc, a.pin, !src, false⟩
  let s : State := { s with ms := { s.ms with moves := Map.set s.ms.moves n mv } }
  if src then s.flashRead n .move else s.countDram false (n * tileBytes) tileBytes

/-- Step 1 and 2 of a move into flash tile `lt`; its program starts. -/
def beginFlash (s : State) (n m : Nat) (a : MoveAsk) (lt : Nat) : State :=
  let t := s.tile n
  let s := ((s.unask a).takeFlash lt n).tileSet n { t with st := .movingD }
  let mv : Move := ⟨m, a.why, false, t.loc, true, lt, a.pin, true, false⟩
  (({ s with ms := { s.ms with moves := Map.set s.ms.moves n mv } } : State).countDram false (n * tileBytes) tileBytes).program lt n true

/-- A flash tile for a move, within the owner's quota. -/
def flashDest (s : State) (n : Nat) : Option Nat :=
  if s.fFree (s.tileOwner n) = 0 || s.rdB R.FTL_STAT 1 then none else s.freeFlash (s.tileOwner n)

/-- End an ask at step 1, its move never in flight. -/
def askEnd (s : State) (m : Nat) (a : MoveAsk) (code detail : Nat) : State :=
  let s := (s.unask a).endWhy a.why a.tile code detail
  if code = 0 then s else s.bump (R.MPD_MOVE_FAIL m)

/-- Start an ask whose tile has a home here and whose mover has a place. -/
def startHere (s : State) (m : Nat) (a : MoveAsk) : State :=
  let n := a.tile
  let o := s.tileOwner n
  match a.dest with
  | .flash =>
    match s.flashDest n with
    | some lt => s.beginFlash n m a lt
    | none => if s.rdB R.FTL_STAT 1 then s.askEnd m a 0x0A 2 else s.askEnd m a 0x13 2
  | d =>
    match s.dramDest n d with
    | some loc => s.beginDram n m a loc
    | none =>
      match a.why with
      | .evacuate => (match s.flashDest n with | some lt => s.beginFlash n m a lt | none => s)
      | .write => if s.rdB R.FTL_STAT 1 then s.askEnd m a 0x13 1 else s
      | .op h =>
        if (s.op? h).any (fun p => p.cmd.opcode == 0x0011) && rgnTier (s.rgn (n / 65536)) == 0 && !s.rdB R.FTL_STAT 1 &&
           (!(s.demotable o).isEmpty || s.ms.moves.any (fun p => p.2.why == .demote && s.tileOwner p.1 == o)) then s
        else s.askEnd m a 0x13 1
      | _ => s.askEnd m a 0x13 1

/-- MOVE_START of the oldest ask for a tile (R152, R153, R240). -/
def startAsk (s : State) (a : MoveAsk) : State :=
  let n := a.tile
  let t := s.tile n
  let m := s.moverOf n t a.dest
  if (Map.get? s.ms.moves n).isSome || (Map.get? s.away n).isSome then s
  else match a.dest with
  | .discard => if s.tileBusy n then s else ((s.unask a).discardAny n).endWhy a.why n 0 0
  | .pkg d =>
    if 16 ≤ s.away.length then s
    else (match a.why with | .between r => (s.unask a).awayStart n d r | _ => s.unask a)
  | d =>
    match t.st with
    | .unalloc => s.askEnd m a 0 0
    | .lost => s.askEnd m a 0x0A 2
    | .away => s.awayStart n s.pkg (match a.why with | .op h => .op h 0 | _ => .release n)
    | _ =>
      let stays := t.st == .dram && (match a.why with | .op h => (s.op? h).any (fun p => p.cmd.opcode == 0x0011) | _ => false)
      if (s.atDest n d || stays) && a.why != .evacuate then
        (let s := if a.pin && t.st = .dram then s.tileSet n { t with pin := true } else s
         s.askEnd m a 0 0)
      else if a.why != .evacuate && s.moveBad n d then s.askEnd m a 3 3
      else if a.why == .evacuate && !(t.st == .dram && s.ms.evacuating.contains (stackOf t.loc)) then s.askEnd m a 0 0
      else if s.moverLoad m < s.rdF (R.MPD_MOVER_CTL m) 5 0 then s.startHere m a
      else s

/-- Copy A of the table cannot be written (R154, R164, R474): the table runs on copy B; with none left the error is fatal. -/
def loseCopyA (s : State) : State :=
  if s.ms.tblA then
    let s : State := { s with ms := { s.ms with tblA := false } }
    let s := (s.setBits R.MPD_TBL_STAT 0x80000000#32).raiseAll mpdPages 4
    if s.ms.tblB then s else s.fatal 3 16 7
  else s
/-- Accesses that a tile's flash read outstanding serves read the source, as it stands at the commit (R153). -/
def snapReads (s : State) (n : Nat) : State :=
  { s with ms := { s.ms with reads := Map.mapVals s.ms.reads (fun _ e =>
      match e.by_ with
      | .acc x => if e.tile = n ∧ e.snap.isNone = true then { e with snap := some (s.bytesAt x.addr x.len, s.ms.poison.filter (fun u => u / 1024 == n)) } else e
      | _ => e) } }
/-- Step 5 and 6: the commit, the source freed, the held accesses applied (R152, R153, R158, R164). A tile that ends on a stack whose
evacuation has begun is to move on. -/
def commitMove (s : State) (n : Nat) (m : Move) : State :=
  let t := s.tile n
  let s := if m.srcFlash then s.snapReads n else s
  let bad := s.anyPoison (n * tileBytes) tileBytes
  let s := if m.srcFlash then s.freeFlashAt m.src else s.freeFrameAt m.src
  let s := if m.dstFlash then s else s.framesSet (Map.modify s.ms.frames m.dst (fun f => { f with use := .tile n }))
  let s := s.tileSet n ⟨if m.dstFlash then .flash else .dram, if m.dstFlash then t.pin else (t.pin || m.pin), m.dst,
    m.dstFlash && m.why == .evacuate⟩
  let s : State := { s with ms := { s.ms with moves := Map.erase s.ms.moves n } }
  let s := (s.bump (R.MPD_MOVE_CNT m.mover)).countDram true (n * tileBytes) tileBytes
  let s := if !m.dstFlash && s.ms.evacuating.contains (stackOf m.dst) then s.askMove ⟨n, .evacuate, .place, false⟩ else s
  let s := match m.why with
    | .demote => s.bump R.MPD_DEMOTE_CNT
    | .promote => s.bump R.MPD_PROMOTE_CNT
    | .write => s.bump R.MPD_PROMOTE_CNT
    | _ => s
  let s := (s.endWhy m.why n (if bad then 9 else 0) 0).applyHeld n
  if m.srcFlash then s else s.evacEnd (stackOf m.src)

/-! ### Demotion (R156) -/

/-- One pass of the clock sweep over an owner's frames: the victim, and the frames passed. -/
def sweepPass : List (Nat × Frame) → List Nat → Option Nat × List Nat
  | [], acc => (none, acc)
  | p :: ps, acc => if p.2.acc || p.2.ref then sweepPass ps (acc ++ [p.1]) else (some p.1, acc)

/-- The clock sweep of an owner: the victim's frame; frames passed lose both marks. -/
def clockSweep (s : State) (o : Nat) : Option Nat × State :=
  let l := s.demotable o
  let c := (s.owner o).clock
  let rot := l.filter (fun p => c ≤ p.1) ++ l.filter (fun p => p.1 < c)
  let r := sweepPass rot []
  let s := s.framesSet (r.2.foldl (fun f k => Map.modify f k (fun x => { x with acc := false, ref := false })) s.ms.frames)
  match r.1 with
  | some k => (some k, s)
  | none => ((rot.head?).map (·.1), s)

/-! ### Flash (R165 to R169) -/

/-- SPARE_LOW follows the spare pool and its threshold (R168, R175). -/
def spareStat (s : State) : State :=
  if s.rdF R.FTL_SPARE 7 0 ≤ s.rdF R.FTL_SPARE_WARN 7 0 then (if s.rdB R.FTL_STAT 0 then s else (s.setBits R.FTL_STAT 1).raise 0x0B 0)
  else s.clrBits R.FTL_STAT 1
/-- The spare pool after a retirement (R168): SPARE_LOW at the threshold, READ_ONLY at 0. -/
def spareSet (s : State) (pct : Nat) : State :=
  let new := min (s.rdF R.FTL_SPARE 7 0) pct
  let s := (s.wrF R.FTL_SPARE 7 0 new).spareStat
  if new = 0 ∧ s.rdB R.FTL_STAT 1 = false then (s.setBits R.FTL_STAT 2).raise 0x0B 1 else s

/-- A flash home is lost (R168, R169, R176). -/
def loseFlash (s : State) (n : Nat) : State := (s.loseAny n).raise 0x0B 3

/-- Drop an outstanding flash read. -/
def readDone (s : State) (k : Nat) : State := { s with ms := { s.ms with reads := Map.erase s.ms.reads k } }

end State

/-- TILE_MOVE (R158, R159): homes of a span of tiles are moved, pinned, unpinned or discarded. -/
def execTileMove (h : Nat) (s : State) : Out := keepQueue s <| .next (s.spanMove h 0x0010)

/-- PREFETCH (R159): every flash-homed tile of a span comes to DRAM. -/
def execPrefetch (h : Nat) (s : State) : Out := keepQueue s <| .next (s.spanMove h 0x0011)

namespace State

/-- A region has an allocated tile (R144). -/
def regionUsed (s : State) (r : Nat) : Bool := s.ms.tiles.any (fun p => p.1 / 65536 == r)
/-- A write the MPDs ignore, with an error bit (R143, R147). -/
def mpdErr (s : State) (a b : Nat) : State :=
  ((s.ignoredWrite a).setBits R.MPD_ERR (BitVec.ofNat 32 (2 ^ b))).raiseAll mpdPages b

end State

/-- RGN_DATA_WRITE (R143, R144): the selected region's entry, or ignored with RGN_ERR. -/
def execRgnDataWrite (v : Word32) (s : State) : Out := keepQueue s <|
  let r := s.rdF R.MPD_RGN_SEL 12 0
  let old := s.rgn r
  let own := fld v 6 0
  let w : Word32 := if own = modelOwner then v &&& 0xFF80007F#32 else v &&& 0xFF00007F#32
  if s.adminOpen = false then .next (s.adminDeny R.MPD_RGN_DATA)
  else if fld v 30 29 = 3 ∨ 7 ≤ fld v 27 24 ∨ 64 < own ∨
     (s.regionUsed r = true ∧ (w ^^^ old) &&& 0xE080007F#32 ≠ 0) then .next (s.mpdErr R.MPD_RGN_DATA 1)
  else
    let s := s.countWrite 0xD0 (w != v)
    .next { s with ms := { s.ms with rgn := Map.put s.ms.rgn 0 r w } }

/-- QUOTA_WRITE (R147): the selected owner's DRAM or flash quota, or ignored with QUOTA_ERR. Replay frames are no owner's
(R202). -/
def execQuotaWrite (flash : Bool) (v : Word32) (s : State) : Out := keepQueue s <|
  let o := s.rdF R.MPD_OWN_SEL 6 0
  let q := s.owner o
  if s.adminOpen = false then .next (s.adminDeny (if flash then R.MPD_OWN_FLASH_QUOTA else R.MPD_OWN_DRAM_QUOTA))
  else if flash then
    let x := fld v 28 0
    let sum := (s.ms.own.map (fun p => p.2.fQuota)).sum - q.fQuota + x
    if s.liveFlash < sum ∨ x < s.fUsed o then .next (s.mpdErr R.MPD_OWN_FLASH_QUOTA 0)
    else .next ((s.countWrite 0xD0 (decide (x ≠ v.toNat))).ownerSet o { q with fQuota := x })
  else
    let x := fld v 24 0
    let sum := (s.ms.own.map (fun p => p.2.dQuota)).sum - q.dQuota + x
    let replay := (s.ms.frames.filter (fun p => match p.2.use with | .replay _ => true | _ => false)).length
    if s.liveFrames < sum + replay + (if s.pwr.napArea then 66224 else 0) ∨ x < s.dUsed o then .next (s.mpdErr R.MPD_OWN_DRAM_QUOTA 0)
    else .next ((s.countWrite 0xD0 (decide (x ≠ v.toNat))).ownerSet o { q with dQuota := x })

/-- An access arrives at the tile's MPD: what the DRP finds in the first unit read of a DRAM home, and what is served. -/
def State.mpdServe (s : State) (x : Access) (e : EccResult) : State :=
  let t := s.tile (x.addr / tileBytes)
  let u := if (s.deny x.who x.addr (x.kind != .read)).isNone && (t.st == .dram || t.st == .movingD) && x.kind != .write then
      s.eccApply (State.stackOf t.loc) (some (x.addr / 64 * 64)) e else s
  u.serve x
/-- The die an access comes from: that of the first core its operator runs on, else the control die (R11; log entry 57). -/
def State.accDie (s : State) (x : Access) : Nat :=
  match x.op.bind s.op? with
  | some o => State.coreDie (CmdRecF.firstCore o.cmd)
  | none => 24

/-- MPD_ACCESS (R16, R28, R141, R143, R145 to R148, R153, R157, R161, R162, R230): an access within one tile is served, waits, or
is refused; `e` is what the DRP finds in the first unit read of a DRAM home. It waits where a mesh link on its way is drained. -/
def execMpdAccess (x : Access) (e : EccResult) (s : State) : Out := keepQueue s <|
  let x := { x with rem := none, poison := [] }
  let len := match x.kind with | .read => x.len | .write => x.data.length | .atomic => atomicSize x
  if len = 0 ∨ x.addr / tileBytes ≠ (x.addr + len - 1) / tileBytes then .next s
  else
    let a := s.accDie x
    let b := s.addrDie x.addr
    if s.meshWaits .request a b then .next (s.meshPut ⟨.request, a, b, .access x e⟩) else .next (s.mpdServe x e)

/-- MOVE_START (R152, R153, R154, R160, R240): the oldest move asked for tile `n` takes its place and its destination. -/
def execMoveStart (n : Nat) (s : State) : Out := keepQueue s <|
  match s.ms.asks.find? (fun a => a.tile == n) with
  | some a => .next (s.startAsk a)
  | none => .next s

/-- MOVE_COMMIT (R152 to R154, R162): every unit copied and verified, the move of tile `n` commits; `es` lists the units of a DRAM
source its copy found in error. A DRAM destination whose write fails ends the move; where copy A cannot be written, copy B holds the
commit. -/
def execMoveCommit (n : Nat) (es : List (Nat × EccResult)) (r : MoveEnd) (s : State) : Out := keepQueue s <|
  match Map.get? s.ms.moves n with
  | some m =>
    if m.isRead && (!m.dstFlash || m.verified) then
      let s := if m.srcFlash then s else
        es.foldl (fun u p => if p.1 < 1024 then u.eccApply (State.stackOf m.src) (some (n * tileBytes + p.1 * 64)) p.2 else u) s
      (match Map.get? s.ms.moves n with
       | none => .next s
       | some m =>
         match r with
         | .dstFail => if m.dstFlash then .next s else .next (s.abortMove n m 0x0A 2)
         | .done => .next (s.commitMove n m)
         | .noCopyA => .next (s.loseCopyA.commitMove n m))
    else .next s
  | none => .next s

/-- WAITING_WRITE_PROCEED (R148, R157): the `k`-th waiting write is tried again and goes on if it need wait no more. -/
def execWaitingWriteProceed (k : Nat) (s : State) : Out := keepQueue s <|
  match s.ms.waits[k]? with
  | some w =>
    if w.held then .next s
    else
      let l := s.ms.waits.eraseIdx k
      let t : State := { s with ms := { s.ms with waits := l } }
      let u := t.serve w.acc
      if u.ms.waits.length = l.length then .next u else .next s
  | none => .next s

/-- ACCESS_BIT_SAMPLE (R156): every frame's access bit goes into its reference mark and is cleared. -/
def execAccessBitSample (s : State) : Out := keepQueue s <|
  .next (s.framesSet (Map.mapVals s.ms.frames (fun _ f => { f with acc := false, ref := f.acc })))

/-- Demotions of an owner under way: asked for or in flight. -/
def State.demoting (s : State) (o : Nat) : Nat :=
  (s.ms.asks.filter (fun a => a.why == .demote && s.tileOwner a.tile == o)).length +
  (s.ms.moves.filter (fun p => p.2.why == .demote && s.tileOwner p.1 == o)).length
/-- DEMOTION (R156, R168): while an owner has fewer than 256 free frames, those of demotions under way counted as free, the clock
sweep's victim is to move to flash. -/
def execDemotion (o : Nat) (s : State) : Out := keepQueue s <|
  if o < 64 ∧ s.dFree o + s.demoting o < 256 ∧ s.rdB R.FTL_STAT 1 = false then
    match s.clockSweep o with
    | (some loc, t) =>
      let t := t.ownerSet o { t.owner o with clock := loc + 1 }
      (match (Map.get? t.ms.frames loc).map (fun (f : Frame) => f.use) with
       | some (.tile n) => .next (t.askMove ⟨n, .demote, .flash, false⟩)
       | _ => .next t)
    | (none, t) => .next t
  else .next s

/-- A stream ends with its operator, or an operator whose inputs are read, on a late or failed read of a flash tile (R169, R170). -/
def State.readerEnds (s : State) (b : RdFor) (tile detail : Nat) : State :=
  match b with
  | .strm n =>
    (match Map.get? s.strm n with
     | some x => (s.cancelStream n).opFaultIn x.op x.eng 0x0A (BitVec.ofNat 8 detail) (tile * tileBytes) x.eng (SD.slot x.desc)
     | none => s)
  | .op h => s.opFaultAt h 0x0A (BitVec.ofNat 8 detail) (tile * tileBytes)
  | _ => s
/-- FLASH_READ_DONE (R165, R167, R169): an outstanding flash read delivers its last byte, or fails beyond retry and parity. -/
def execFlashReadDone (n : Nat) (r : FlashRead) (s : State) : Out := keepQueue s <|
  match Map.get? s.ms.reads n with
  | none => .next s
  | some e =>
    let s := s.readDone n
    let s := match r with
      | .retried => s.bump R.FTL_RETRY_CNT
      | .rebuilt => s.bump R.FTL_REBUILD_CNT
      | _ => s
    let t := s.tile e.tile
    let s := if r = .failed ∧ (t.st = .flash ∨ t.st = .movingF) then
        (s.loseFlash e.tile).errLatch 0x0B 1 (s.globalAddr (e.tile * tileBytes)) else s
    match e.by_ with
    | .move =>
      (match Map.get? s.ms.moves e.tile with
       | some m => .next { s with ms := { s.ms with moves := Map.set s.ms.moves e.tile { m with isRead := true } } }
       | none => .next s)
    | .acc x =>
      if e.late then .next s
      else if r = .failed then .next (s.answer x 0x0A 2 [])
      else
        let p := e.snap.getD (s.bytesAt x.addr x.len, s.ms.poison)
        .next (s.answerWith x (if p.2.any (fun u => x.addr / 64 ≤ u && u * 64 < x.addr + x.len) then 9 else 0) 0 p.1 p.2)
    | b => if e.late || r ≠ .failed then .next s else .next (s.readerEnds b e.tile 2)

/-- FLASH_PROGRAM_DONE (R152, R154, R165, R167, R168): a program's status. A failure retires the block, `spare` per cent of
the pool remaining; a move ends, and other data is programmed again elsewhere in the channel. -/
def execFlashProgramDone (n : Nat) (ok : Bool) (spare : Nat) (s : State) : Out := keepQueue s <|
  match Map.get? s.ms.progs n with
  | none => .next s
  | some p =>
    let s : State := { s with ms := { s.ms with progs := Map.erase s.ms.progs n } }
    let mv := if p.isMove then Map.get? s.ms.moves p.tile else none
    if ok then
      (match mv with
       | some m => .next { s with ms := { s.ms with moves := Map.set s.ms.moves p.tile { m with verified := true } } }
       | none => .next s)
    else
      let s := (((s.retirePage p.ltile).bump R.FTL_RETIRED).spareSet spare).errLatch 0x0B 2 0
      (match mv with
       | some m => .next (s.abortMove p.tile m 0x0A 2)
       | none => .next ((s.placePage p.ltile).add64 R.FTL_NAND_WR_LO 1))

/-- TIER_TIMEOUT (R169, R170): an outstanding flash read not complete within MPD_TIER_TMO is late: what waits for it ends,
the read goes on. An operator whose deadline has come ends with DEADLINE instead. -/
def execTierTimeout (n : Nat) (s : State) : Out := keepQueue s <|
  match Map.get? s.ms.reads n with
  | none => .next s
  | some e =>
    let due := e.at_.toNat + s.rdF R.MPD_TIER_TMO 15 0 * 4000 ≤ s.ft.toNat
    let op := match e.by_ with
      | .acc x => x.op
      | .op h => some h
      | .strm k => (Map.get? s.strm k).map (fun (x : Strm) => x.op)
      | .move => none
    let dead := match op.bind s.op? with | some o => s.expired o.cmd | none => false
    if e.by_ ≠ .move ∧ e.late = false ∧ due ∧ dead = false then
      let s : State := { s with ms := { s.ms with reads := Map.set s.ms.reads n { e with late := true } } }
      let s := match e.by_ with | .acc x => s.answer x 0x0A 1 [] | b => s.readerEnds b e.tile 1
      .next (s.errLatch 0x0B 1 (s.globalAddr (e.tile * tileBytes)))
    else .next s

/-- The local address of a 64-byte unit of a frame; none in the carve-out or a free frame. -/
def State.unitAddr (s : State) (k fr u : Nat) : Option Nat :=
  match (Map.get? s.ms.frames (k * 2 ^ 24 + fr)).map (fun (f : Frame) => f.use) with
  | some (.tile n) => some (n * tileBytes + u * 64)
  | some (.guest g) => some (2 ^ 64 + g * tileBytes + u * 64)
  | some (.stage n) => some (2 ^ 65 + n * tileBytes + u * 64)
  | _ => none

/-- PATROL_SCRUB (R161 to R163, R174): the scrub reads the next frame of a stack; `es` lists the units it finds in error. -/
def execPatrolScrub (k : Nat) (es : List (Nat × EccResult)) (s : State) : Out := keepQueue s <|
  if k < 12 ∧ s.rdB (R.DRP_SCRUB_CTL k) 31 = true ∧ s.ms.fenced.contains k = false then
    let fr := s.rdF (R.DRP_SCRUB_POS k) 20 0
    let s := (es.foldl (fun u p => u.eccApply k (u.unitAddr k fr p.1) p.2) s).add64 (R.DRP_RD_BYTES_LO k) 65536
    let nx := if fr + 1 = 1572864 then 0 else fr + 1
    let s := s.wrF (R.DRP_SCRUB_POS k) 20 0 nx
    .next (if nx = 0 then s.raise (0xD8 + k) 3 else s)
  else .next s

/-- EVACUATE (R164): a write of EVACUATE to DRP_FENCE_CMD. -/
def execEvacuate (k : Nat) (s : State) : Out := keepQueue s <|
  if k < 12 then .next ((s.countWrite (0xD8 + k) false).evacuate k) else .next s

/-- EVAC_TILE_PROMOTE (R164): a tile evacuation sent to flash comes back: on any free frame of its owner's quota in a
DRAM-only region, on more than 256 in an automatic one. -/
def execEvacTilePromote (n : Nat) (s : State) : Out := keepQueue s <|
  let t := s.tile n
  let tier := State.rgnTier (s.rgn (n / 65536))
  let f := s.dFree (s.tileOwner n)
  if t.st = .flash ∧ t.evac = true ∧ ((tier = 1 ∧ 0 < f) ∨ (tier = 0 ∧ 256 < f)) then
    .next (s.askMove ⟨n, .promote, .place, false⟩)
  else .next s

/-- FTL_REFRESH (R167, R168, R175): a flash tile is rewritten internally, to another page; its LOC and contents stay. Where the block it
leaves fails to erase, that block is retired, `spare` per cent of the pool remaining. -/
def execFtlRefresh (lt : Nat) (erased : Bool) (spare : Nat) (s : State) : Out := keepQueue s <|
  if (Map.get? s.ms.ftiles lt).isSome then
    let s := if erased then s else (((s.retirePage lt).bump R.FTL_RETIRED).spareSet spare).errLatch 0x0B 2 0
    .next (((s.placePage lt).bump R.FTL_REFRESH_CNT).add64 R.FTL_NAND_WR_LO 1)
  else .next s

/-- NAND_DIE_FAIL (R167, R469): the die is rebuilt from parity with no loss of data; the error is latched. -/
def execNandDieFail (c : Nat) (s : State) : Out := keepQueue s <|
  if c < 16 then .next (s.errLatch 0x0B 2 0) else .next s

/-- FLASH_CHANNEL_FAIL (R168): every tile on the channel is LOST, FTL_CAP falls, flash quotas are cut. -/
def execFlashChannelFail (c : Nat) (s : State) : Out := keepQueue s <|
  if c < 16 ∧ s.ms.chanFail.contains c = false then
    let before := s.liveFlash
    let s := (s.ms.moves.filter (fun p => p.2.dstFlash && State.chanOf p.2.dst == c)).foldl (fun u p => u.abortMove p.1 p.2 0x0A 2) s
    let s := (s.ms.ftiles.filter (fun p => State.chanOf p.1 == c)).foldl (fun u p => u.loseFlash p.2) s
    let s : State := { s with ms := { s.ms with chanFail := c :: s.ms.chanFail } }
    let s := ((s.wr R.FTL_CAP (s.rd R.FTL_CAP - 16777216)).setBits R.FTL_STAT (BitVec.ofNat 32 (2 ^ (16 + c)))).raise 0x0B 2
    .next ((s.cutQuotas true before s.liveFlash).errLatch 0x0B 2 0)
  else .next s

end Sys2Proof.Machine
end

