-- ==== Sys2Proof/Machine/Remote.lean ====
section
/-! DEFINITION. Chapter 07: the remote operators, the target's side of the transport, moves between packages (R226 to
R243). -/
namespace Sys2Proof.Machine
open Sys2Proof

/-- Cut a range of a package into pieces of one tile each: offset and length (R227). -/
def cutSpan (a n : Nat) : List (Nat × Nat) :=
  (State.tilesOf a n).map (fun t =>
    let lo := max a (t * tileBytes)
    (lo, min (a + n) ((t + 1) * tileBytes) - lo))

/-- Guest-table key of a global address (R238). -/
def guestKey (a : Nat) : Nat := a / 2 ^ 52 * 2 ^ 29 + a % 2 ^ 52 / tileBytes
/-- Where the bytes of a guest stand. -/
def guestAddr (a : Nat) : Nat := 2 ^ 64 + guestKey a * tileBytes + a % tileBytes

namespace State

/-! ### Requester -/

/-- Is there a way to a package (R231)? -/
def reachable (s : State) (p : Nat) : Bool :=
  inDomain (s.rd R.FBD_SHAPE) p && !s.lostPkgs.contains p &&
  s.hop p ⟨p + 4096 * s.domain, s.srcField, 0, 0x10, 3, 0, [], false, []⟩ != .wait

/-- A live guest tile of this package at a global address (R239). -/
def guestAt (s : State) (a : Nat) : Bool :=
  match Map.get? s.guests (guestKey a) with
  | some g => !g.pending && g.sentTo.isNone
  | none => false

/-- The owner of a guest. -/
def guestOwner (s : State) (a : Nat) : Nat := match Map.get? s.guests (guestKey a) with | some g => g.owner | none => 0x7F
/-- Serve a request on a guest tile from its bytes (R239): the state, the CODE, the data read or the old value. -/
def serveGuest (s : State) (x : Access) (a : Nat) : State × Nat × List Byte :=
  let b := guestAddr a
  match x.kind with
  | .read => (s, if s.anyPoison b x.len then 9 else 0, Mem.read s.mem b x.len)
  | .write => (s.storeAcc { x with addr := b } x.data, 0, [])
  | .atomic =>
    let old := Mem.read s.mem b (atomicSize x)
    if s.anyPoison b (atomicSize x) then (s, 9, old) else (s.store b (accBytes x old), 0, old)

/-- One piece of a remote operator: served here when the address is this package's or a guest held here, else sent
(R217, R227, R239). A tenant that does not own the guest goes by the origin, which has the region's entry (R219; log entry 77). `dst` is the local destination of a read, `src` the local source of a write. -/
def remPiece (s : State) (h : Nat) (o : RunOp) (x : Access) (cls src : Nat) (ga : Nat) : State :=
  if ga / 2 ^ 52 = s.pkg then s.serve { x with addr := ga % 2 ^ 52 }
  else if s.guestAt ga && s.guestOwner ga == o.tenant then
    (if x.kind = .atomic && ((atomicNew (x.len % 16) (atomicSize x) 0 0 0).isNone) then s.answer x 3 3 []
     else let r := s.serveGuest x ga; r.1.answer { x with addr := guestAddr ga } r.2.1 0 r.2.2)
  else
    let m := { remNone ga with seq := o.cmd.seq, ring := o.ring }
    let m := match x.kind with
      | .read => { m with len := x.len }
      | .write => { m with len := x.data.length, data := x.data, poison := x.poison }
      | .atomic => { m with aop := x.len, op0 := BitVec.ofNat 64 (leNat (x.data.take 8)), op1 := BitVec.ofNat 64 (leNat (x.data.drop 8)) }
    { s with remTodo := Map.set s.remTodo h (Map.get s.remTodo [] h ++ [⟨ga / 2 ^ 52, cls, m, src, x.fresh⟩]) }

/-- Does a remote operator's target stand: this package, a guest here, or a package there is a way to? -/
def targetOk (s : State) (ga : Nat) : Bool := ga / 2 ^ 52 == s.pkg || s.guestAt ga || s.reachable (ga / 2 ^ 52)

/-- A local range of a remote operator (R226). -/
def localOk (s : State) (who a n : Nat) (wr : Bool) : Option Err :=
  if uniEnd < a + n then some (.access (4, 1) (max a uniEnd))
  else (tilesOf a n).findSome? (fun t => (s.deny who (max a (t * tileBytes)) wr).map (fun e => Err.access e (max a (t * tileBytes))))

/-- A condition, or an error. -/
def demand (c : Bool) (e : Err) : Except Err Unit := if c then .ok () else .error e

/-- REMOTE_READ's requests. -/
def remoteReadFx (h : Nat) (o : RunOp) (s : State) : Except Err State := do
  let c := o.cmd
  let n := c.w2.toNat
  demand (1 ≤ n && n ≤ 16777216 && c.w3 == 0 && c.w4 == 0 && c.w5 == 0 && c.w6 == 0 && c.w7 == 0) (.of 3 3)
  match s.localOk o.tenant c.w1.toNat n true with
  | some e => .error e
  | none =>
    demand (s.targetOk c.w0.toNat) (.of 0x11 1)
    let s := (cutSpan (c.w0.toNat % 2 ^ 52) n).foldl (fun u p =>
      u.remPiece h o ⟨o.tenant, some h, .read, p.1, [], p.2, c.w1.toNat + (p.1 - c.w0.toNat % 2 ^ 52), none, []⟩ 0x10 0
        (c.w0.toNat / 2 ^ 52 * 2 ^ 52 + p.1)) s
    .ok (s.remIssue h)

/-- REMOTE_WRITE's requests. -/
def remoteWriteFx (h : Nat) (o : RunOp) (s : State) : Except Err State := do
  let c := o.cmd
  let n := c.w2.toNat
  demand (1 ≤ n && n ≤ 16777216 && c.w3 == 0 && c.w4 == 0 && c.w5 == 0 && c.w6 == 0 && c.w7 == 0) (.of 3 3)
  match s.localOk o.tenant c.w0.toNat n false with
  | some e => .error e
  | none =>
    demand (s.targetOk c.w1.toNat) (.of 0x11 1)
    match s.readErr o.tenant c.w0.toNat n with
    | some e => .error e
    | none =>
      let bs := s.bytesAt c.w0.toNat n
      let base := c.w1.toNat % 2 ^ 52
      let s := s.markPoison h (s.anyPoison c.w0.toNat n) (s.firstPoison c.w0.toNat n)
      let s := (cutSpan base n).foldl (fun u p =>
        u.remPiece h o ⟨o.tenant, some h, .write, p.1, (bs.drop (p.1 - base)).take p.2, p.2, 0, none, s.poisonRel (c.w0.toNat + (p.1 - base)) p.2 p.1⟩ 0x11 (c.w0.toNat + (p.1 - base))
          (c.w1.toNat / 2 ^ 52 * 2 ^ 52 + p.1)) s
      .ok (s.remIssue h)

/-- REMOTE_ATOMIC's request. -/
def remoteAtomicFx (h : Nat) (o : RunOp) (s : State) : Except Err State := do
  let c := o.cmd
  let code := c.w3.toNat % 32
  let sz := if code / 16 = 1 then 8 else 4
  demand (decide (c.w3.toNat < 32) && c.w5 == 0 && c.w6 == 0 && c.w7 == 0 && c.w4.toNat % 8 == 0) (.of 3 3)
  demand (c.w0.toNat % sz == 0) (.of 0x11 2)
  match (if c.w4 = 0 then none else s.localOk o.tenant c.w4.toNat 8 true) with
  | some e => .error e
  | none =>
    demand (s.targetOk c.w0.toNat) (.of 0x11 1)
    let x : Access := ⟨o.tenant, some h, .atomic, c.w0.toNat % 2 ^ 52, leBytes 8 c.w1.toNat ++ leBytes 8 c.w2.toNat, code, 0, none, []⟩
    .ok ((s.remPiece h o x 0x12 0 c.w0.toNat).remIssue h)

/-- REMOTE_MOVE's requests, one per tile, to the tiles' origin (R227). -/
def remoteMoveFx (h : Nat) (o : RunOp) (s : State) : Except Err State := do
  let c := o.cmd
  let n := c.w1.toNat
  let org := c.w0.toNat / 2 ^ 52
  demand (1 ≤ n && n ≤ 65536 && (c.w2 &&& ~~~(0x8FFF : Word64)) == 0 && c.w3 == 0 && c.w4 == 0 && c.w5 == 0 && c.w6 == 0 && c.w7 == 0) (.of 3 3)
  demand (c.w0.toNat % tileBytes == 0) (.of 0x11 2)
  demand (decide (c.w0.toNat % 2 ^ 52 + n * tileBytes ≤ uniEnd)) (.of 4 1)
  let d := if c.w2.toNat.testBit 15 then org else c.w2.toNat % 4096
  let ts := (List.range n).map (fun i => c.w0.toNat % 2 ^ 52 / tileBytes + i)
  if org = s.pkg then
    .ok (ts.foldl (fun u t =>
      match u.deny o.tenant (t * tileBytes) true with
      | some e => u.moveFail h t e.1 e.2
      | none => u.askMove ⟨t, .between (.op h t), .pkg d, false⟩) s)
  else
    demand (s.reachable org) (.of 0x11 1)
    let l : List RemTodo := ts.map (fun t =>
      ⟨org, 0x13, { remNone (org * 2 ^ 52 + t * tileBytes) with seq := c.seq, ring := o.ring, op0 := c.w2 }, 0, 0⟩)
    .ok ({ s with remTodo := Map.set s.remTodo h l }.remIssue h)

/-- Resend every unanswered request of a flow from the oldest, with DUP = 1; a write's source is read again (R226, R236). A
write of a group exchange (source 2^62) keeps its data (R290). -/
def goBack (s : State) (p : Nat) : State :=
  let f := s.flow p
  let again (r : OutReq) : OutReq :=
    let m := { r.m with flags := r.m.flags ||| 4 }
    let m := if r.cls = 0x11 && r.src < 2 ^ 62 && (match r.why with | .op _ _ => true | _ => false) then { m with data := s.bytesAt r.src m.len, poison := s.poisonRel r.src m.len m.addr.toNat } else m
    { r with m := m, tries := r.tries + 1, since := s.ft }
  let rs := f.reqs.map again
  let s := s.flowSet p { f with reqs := rs }
  rs.foldl (fun u r => (u.sendMarked p r.cls 3 r.own (remBody r.m) r.m.poison).bump R.FBD_RESEND_CNT) s

/-! ### Moves between packages, at the origin (R240 to R242) -/

/-- The move of a tile between packages ends, its home unchanged. -/
def awayFail (s : State) (n : Nat) (a : AwayMove) (code detail : Nat) : State :=
  let t := s.tile n
  let s := match a.from_ with
    | none => s.tileSet n { t with st := (if t.st = Home.movingF then Home.flash else if t.st = Home.movingD then Home.dram else t.st) }
    | some _ => if a.dest = s.pkg then s.freeFrameAt a.frame else s
  let s : State := { s with away := Map.erase s.away n }
  let s := match a.by_ with | some r => s.awayEnd n r code detail | none => s
  s.applyHeld n

/-- The move is over: the former home is freed, what was held is applied at the new one (R240 step 6, R241). -/
def awayDone (s : State) (n : Nat) (a : AwayMove) : State :=
  let s : State := { s with away := Map.erase s.away n }
  let s := match a.from_ with
    | some p => if s.lostPkgs.contains p then s else s.reqSend p 0x17 0x7F (remNone (s.globalAddr (n * tileBytes))) 0 (.release n)
    | none =>
      let s := if a.frame < 2 ^ 28 then s.freeFrameAt a.frame else s.freeFlashAt (a.frame - 2 ^ 28)
      { s.clearPoison (n * tileBytes) tileBytes with mem := Mem.clear s.mem (n * tileBytes) tileBytes }
  let s := match a.by_ with | some r => s.endWhy (.between r) n 0 0 | none => s
  s.applyHeld n

/-- The commit point (R240 step 5): the new entry is written. -/
def awayCommit (s : State) (n : Nat) (a : AwayMove) : State :=
  let t := s.tile n
  if a.dest = s.pkg then
    let s := s.framesSet (Map.modify s.ms.frames a.frame (fun f => { f with use := .tile n }))
    (s.tileSet n ⟨.dram, false, a.frame, false⟩).awayDone n a
  else
    let keep := if t.st = .movingF then 2 ^ 28 + t.loc else t.loc
    let s := s.tileSet n ⟨.away, false, a.dest, false⟩
    let s : State := { s with away := Map.set s.away n { a with step := 3, frame := keep } }
    s.reqSend a.dest 0x16 0x7F (remNone (s.globalAddr (n * tileBytes))) 0 (.commit n)

/-- MV_DATA of a tile homed here (R240 step 3). -/
def awayData (s : State) (n : Nat) (a : AwayMove) (eseq : Nat) : State :=
  s.sendMarked a.dest 0x19 4 0x7F (remBody { remNone (s.globalAddr (n * tileBytes)) with eseq := eseq, len := tileBytes, data := s.bytesAt (n * tileBytes) tileBytes })
    (s.poisonRel (n * tileBytes) tileBytes 0)
/-- MV_DATA of a guest, by its holder (R240 step 3). -/
def guestData (s : State) (ga d eseq : Nat) : State :=
  s.sendMarked d 0x19 4 0x7F (remBody { remNone ga with eseq := eseq, len := tileBytes, data := Mem.read s.mem (guestAddr ga) tileBytes })
    (s.poisonRel (guestAddr ga) tileBytes 0)
/-- The destination has its frame: the data is sent, or the holder is told to send it (R240 step 3); once more where the offer, resent, is
answered so again (R242). MV_SEND carries the
ESEQ of the offer in OPND1 (log entry 23). -/
def awaySend (s : State) (n : Nat) (a : AwayMove) (eseq : Nat) : State :=
  let asked (p : Nat) : Bool := (s.flow p).reqs.any (fun r => r.why == .send n) || s.reqWait.any (fun r => r.why == .send n)
  let s : State := { s with away := Map.set s.away n { a with step := 2 } }
  let ga := s.globalAddr (n * tileBytes)
  match a.from_ with
  | none => s.awayData n a eseq
  | some p => if asked p then s else s.reqSend p 0x15 0x7F { remNone ga with op0 := BitVec.ofNat 64 a.dest, op1 := BitVec.ofNat 64 eseq } 0 (.send n)

/-- A tile whose holder has failed during a move is LOST (R242). -/
def awayLost (s : State) (n : Nat) (a : AwayMove) : State :=
  let s := if a.dest = s.pkg then s.freeFrameAt a.frame else s
  let s : State := { s with away := Map.erase s.away n }
  let s := s.loseTile n
  let s := match a.by_ with | some r => s.awayEnd n r 0x0A 2 | none => s
  s.applyHeld n

/-- A request has ended with a CODE and no data: an error answer, or no answer at all. -/
def reqError (s : State) (q : OutReq) (code detail : Nat) : State :=
  match q.why with
  | .op h _ =>
    (match s.op? h with
     | some o => if o.code = 0 then s.opSet h { o with code := BitVec.ofNat 8 code, detail := BitVec.ofNat 8 detail, faultAddr := q.m.addr, faultCnt := satAdd32 o.faultCnt 1 }
                 else s.opSet h { o with faultCnt := satAdd32 o.faultCnt 1 }
     | none => s).remIssueAll
  | .held x =>
    let s := if code = 0x0A ∧ detail = 2 ∧ (s.tile (x.addr / tileBytes)).st = .away then s.loseTile (x.addr / tileBytes) else s
    s.answer x code (if code = 0x11 ∧ (detail = 3 ∨ detail = 1) then 4 else detail) []
  | .offer n => (match Map.get? s.away n with | some a => if a.step ≤ 2 then s.awayFail n a code (if code = 0x11 ∧ detail = 1 then 3 else detail) else s | none => s)
  | .send n =>
    (match Map.get? s.away n with
     | some a => if a.step ≠ 2 then s else if code = 0x11 then s.awayFail n a 0x11 4 else s.awayLost n a
     | none => s)
  | .commit n => (match Map.get? s.away n with | some a => s.awayDone n a | none => s)
  | _ => s

/-- A request is answered OK (R235, R239, R240). -/
def reqOk (s : State) (q : OutReq) (r : RspMsg) : State :=
  match q.why with
  | .op h dst =>
    let s := match s.op? h with
      | none => s
      | some o =>
        let bs := if q.cls = 0x10 then r.data else if q.cls = 0x12 ∧ o.cmd.w4 ≠ 0 then leBytes 8 r.old.toNat else []
        let a := if q.cls = 0x10 then dst else o.cmd.w4.toNat
        let w := s.writeMarked o.tenant (some h) a bs (blockUnits a bs.length r.poison)
        if w.2.1 ≠ 0 then s.opFaultAt h (BitVec.ofNat 8 w.2.1) (BitVec.ofNat 8 w.2.2) a else w.1
    s.remIssueAll
  | .held x => s.answerWith x r.code 0 (if q.cls = 0x12 then leBytes (atomicSize x) r.old.toNat else r.data)
      ((blockUnits x.addr r.data.length r.poison).map (x.addr / 64 + ·))
  | .commit n => (match Map.get? s.away n with | some a => s.awayDone n a | none => s)
  | .query g =>
    (match Map.get? s.guests g with
     | some v =>
       if r.old.toNat % 4096 = s.pkg then { s with guests := Map.set s.guests g { v with pending := false, sentTo := none } }
       else s.dropGuest g
     | none => s)
  | _ => s

/-- Take a request off its flow, keeping it among those answered, 4,096 at most; what waits for its place goes (R227). -/
def reqTake (s : State) (p : Nat) (q : OutReq) : State :=
  let f := s.flow p
  (s.flowSet p { f with reqs := f.reqs.filter (fun x => x.eseq != q.eseq), done := (f.done ++ [q]).drop (f.done.length + 1 - 4096) }).reqDrain

/-! ### Target (R219, R233, R234) -/

/-- What `cls` asks at the target, in order: a request ahead of the expected ESEQ is discarded with one NACK, one behind is
a duplicate: a read is executed again, another's kept response is sent again. -/
def recv (s : State) (p own cls : Nat) (m : RemMsg) (run : State → State) : State :=
  let f := s.inFlow p
  let d := (m.eseq + 2 ^ 24 - f.exp) % 2 ^ 24
  if d = 0 then run (s.inFlowSet p { f with exp := (f.exp + 1) % 2 ^ 24, nacked := false })
  else if d < 2 ^ 23 then
    (if f.nacked then s
     else (s.inFlowSet p { f with nacked := true }).sendTo p 0x1B 2 own (leBytes 3 f.exp ++ [m.flags &&& 0xFE] ++ leBytes 4 0))
  else if cls = 0x10 then run s
  else match f.cache.reverse.find? (fun r => r.eseq == m.eseq) with
    | some r => s.send r.m
    | none => s

/-- Serve RD, WR or AT: on a guest where the address names another package, else at the tile's home (R219, R239). What its origin forwards has
been checked there; another request for a guest is its owner's alone (log entry 77). -/
def target (s : State) (p own cls : Nat) (m : RemMsg) (kind : AccKindM) : State :=
  let ga := m.addr.toNat
  let x : Access := ⟨own, none, kind, ga % 2 ^ 52,
    (match kind with | .read => [] | .write => m.data | .atomic => leBytes 8 m.op0.toNat ++ leBytes 8 m.op1.toNat),
    (match kind with | .atomic => m.aop | .read => m.len | .write => m.data.length), 0, some (p, cls, m), m.poison⟩
  let n := match kind with | .atomic => atomicSize x | _ => x.len
  if n = 0 ∨ x.addr / tileBytes ≠ (x.addr + n - 1) / tileBytes then s.answer x 3 3 []
  else if ga / 2 ^ 52 = s.pkg then s.serve x
  else if s.guestAt ga then
    (if !(bit m.flags 1 || s.guestOwner ga == own) then s.answer x 4 1 []
     else if x.kind = .atomic && (x.addr % n != 0 || (atomicNew (x.len % 16) n 0 0 0).isNone) then s.answer x 3 3 []
     else let r := s.serveGuest x ga; r.1.answer { x with addr := guestAddr ga } r.2.1 0 r.2.2)
  else s.answer x 0x0A 2 []

/-- An AT request (R230). -/
def atomicAt (s : State) (op p own : Nat) (m : RemMsg) : State :=
  let m := { m with aop := op + 16 * (m.aop / 16 % 2) }
  s.recv p own 0x12 m (fun u => u.target p own 0x12 m .atomic)

end State

/-- REMOTE_READ (R226, R227, R231). -/
def execRemoteRead (h : Nat) (s : State) : Out := keepQueue s <| .next (s.runOp h 0x0700 (State.remoteReadFx h))
/-- REMOTE_WRITE (R226, R227, R231). -/
def execRemoteWrite (h : Nat) (s : State) : Out := keepQueue s <| .next (s.runOpR h 0x0701 (fun _ o => if o.cmd.w2.toNat ≤ 16777216 then [(o.cmd.w0.toNat, o.cmd.w2.toNat)] else []) (State.remoteWriteFx h))
/-- REMOTE_ATOMIC (R226, R230, R231). -/
def execRemoteAtomic (h : Nat) (s : State) : Out := keepQueue s <| .next (s.runOp h 0x0702 (State.remoteAtomicFx h))
/-- REMOTE_MOVE (R226, R227, R240). -/
def execRemoteMove (h : Nat) (s : State) : Out := keepQueue s <| .next (s.runOp h 0x0703 (State.remoteMoveFx h))

/-- RD (R219, R231, R233): read at the target. -/
def execRd (p own : Nat) (m : RemMsg) (s : State) : Out := keepQueue s <| .next (s.recv p own 0x10 m (fun u => u.target p own 0x10 m .read))
/-- WR (R219, R231, R233): write at the target, once. -/
def execWr (p own : Nat) (m : RemMsg) (s : State) : Out := keepQueue s <| .next (s.recv p own 0x11 m (fun u => u.target p own 0x11 m .write))
/-- ATOMIC_ADD (R230): wrapping. -/
def execAtomicAdd (p own : Nat) (m : RemMsg) (s : State) : Out := keepQueue s <| .next (s.atomicAt 0 p own m)
/-- ATOMIC_FADD (R230): FP32, RNE. -/
def execAtomicFadd (p own : Nat) (m : RemMsg) (s : State) : Out := keepQueue s <| .next (s.atomicAt 1 p own m)
/-- ATOMIC_SMIN (R230). -/
def execAtomicSmin (p own : Nat) (m : RemMsg) (s : State) : Out := keepQueue s <| .next (s.atomicAt 2 p own m)
/-- ATOMIC_SMAX (R230). -/
def execAtomicSmax (p own : Nat) (m : RemMsg) (s : State) : Out := keepQueue s <| .next (s.atomicAt 3 p own m)
/-- ATOMIC_UMIN (R230). -/
def execAtomicUmin (p own : Nat) (m : RemMsg) (s : State) : Out := keepQueue s <| .next (s.atomicAt 4 p own m)
/-- ATOMIC_UMAX (R230). -/
def execAtomicUmax (p own : Nat) (m : RemMsg) (s : State) : Out := keepQueue s <| .next (s.atomicAt 5 p own m)
/-- ATOMIC_AND (R230). -/
def execAtomicAnd (p own : Nat) (m : RemMsg) (s : State) : Out := keepQueue s <| .next (s.atomicAt 6 p own m)
/-- ATOMIC_OR (R230). -/
def execAtomicOr (p own : Nat) (m : RemMsg) (s : State) : Out := keepQueue s <| .next (s.atomicAt 7 p own m)
/-- ATOMIC_XOR (R230). -/
def execAtomicXor (p own : Nat) (m : RemMsg) (s : State) : Out := keepQueue s <| .next (s.atomicAt 8 p own m)
/-- ATOMIC_SWAP (R230). -/
def execAtomicSwap (p own : Nat) (m : RemMsg) (s : State) : Out := keepQueue s <| .next (s.atomicAt 9 p own m)
/-- ATOMIC_CAS (R230). -/
def execAtomicCas (p own : Nat) (m : RemMsg) (s : State) : Out := keepQueue s <| .next (s.atomicAt 10 p own m)

/-- MV (R227, R240): the origin starts the move of one tile. -/
def execMv (p own : Nat) (m : RemMsg) (s : State) : Out := keepQueue s <|
  .next (s.recv p own 0x13 m (fun u =>
    let n := m.addr.toNat % 2 ^ 52 / tileBytes
    let d := if m.op0.toNat.testBit 15 then u.pkg else m.op0.toNat % 4096
    match u.deny own (n * tileBytes) true with
    | some e => u.rspSend p own m e.1 e.2 0 []
    | none =>
      let a : MoveAsk := ⟨n, .between (.relay p own m), .pkg d, false⟩
      (u.askMove a).startAsk a))

/-- MV_OFFER (R238, R240): the destination takes a frame of the owner's quota and a PENDING guest, or refuses: no frame in the quota, the
table full, or the owner's context not ACTIVE here (R442). -/
def execMvOffer (p own : Nat) (m : RemMsg) (s : State) : Out := keepQueue s <|
  .next (s.recv p own 0x14 m (fun u =>
    let o := m.aop % 128
    if u.dFree o = 0 ∨ 1048576 ≤ u.guests.length ∨ u.tenantActive o = false then u.rspSend p own m 0x11 5 0 []
    else match u.placeFrame (m.addr.toNat % 2 ^ 52 / tileBytes) with
      | none => u.rspSend p own m 0x11 5 0 []
      | some loc =>
        let g := guestKey m.addr.toNat
        let u := u.takeFrame loc (.guest g) o
        ({ u with guests := Map.set u.guests g ⟨loc, o, true, m.eseq, none, u.ft⟩ }.rspSend p own m 0 0 0 [])))

/-- MV_SEND (R240): the holder, having executed every earlier forwarded request, sends the tile's data. -/
def execMvSend (p own : Nat) (m : RemMsg) (s : State) : Out := keepQueue s <|
  .next (s.recv p own 0x15 m (fun u =>
    let ga := m.addr.toNat
    match Map.get? u.guests (guestKey ga) with
    | none => u.rspSend p own m 0x0A 2 0 []
    | some v =>
      let d := m.op0.toNat % 4096
      let u : State := { u with guests := Map.set u.guests (guestKey ga) { v with sentTo := some d, since := u.ft } }
      (u.guestData ga d (m.op1.toNat % 2 ^ 24)).rspSend p own m 0 0 0 []))

/-- MV_DATA (R240, R242): the destination writes and verifies the tile and answers the MV_OFFER, the second answer carrying 1 in OLD (log
entry 23); at the origin itself the move commits. Where the verify fails (`good` is false) nothing is answered. -/
def execMvData (m : RemMsg) (good : Bool) (s : State) : Out := keepQueue s <|
  if m.data.length ≠ 65536 then .refused (.illFormed "MV_DATA")
  else if good = false then .next s
  else
    let ga := m.addr.toNat
    let n := ga % 2 ^ 52 / tileBytes
    if ga / 2 ^ 52 = s.pkg then
      match Map.get? s.away n with
      | some a =>
        if a.dest = s.pkg ∧ a.step = 2 then
          .next (((s.store (n * tileBytes) m.data).markUnits (n * tileBytes) m.poison).awayCommit n a)
        else .next s
      | none => .next s
    else match Map.get? s.guests (guestKey ga) with
      | some v =>
        if v.pending ∧ v.offer = m.eseq then
          .next (((s.store (guestAddr ga) m.data).markUnits (guestAddr ga) m.poison).rspSend (ga / 2 ^ 52) 0x7F { State.remNone ga with eseq := v.offer } 0 0 1 [])
        else .next s
      | none => .next s

/-- MV_COMMIT (R240): the guest is live. -/
def execMvCommit (p own : Nat) (m : RemMsg) (s : State) : Out := keepQueue s <|
  .next (s.recv p own 0x16 m (fun u =>
    let g := guestKey m.addr.toNat
    ({ u with guests := Map.modify u.guests g (fun v => { v with pending := false }) }.rspSend p own m 0 0 0 [])))

/-- MV_RELEASE (R240): the former holder frees its guest. -/
def execMvRelease (p own : Nat) (m : RemMsg) (s : State) : Out := keepQueue s <|
  .next (s.recv p own 0x17 m (fun u =>
    let ga := m.addr.toNat
    let u := match Map.get? u.guests (guestKey ga) with
      | some _ => u.dropGuest (guestKey ga)
      | none => u
    u.rspSend p own m 0 0 0 []))

/-- MV_QUERY (R243): the origin answers from its table; OLD holds the package its entry names (log entry 23). -/
def execMvQuery (p own : Nat) (m : RemMsg) (s : State) : Out := keepQueue s <|
  .next (s.recv p own 0x18 m (fun u =>
    let t := u.tile (m.addr.toNat % 2 ^ 52 / tileBytes)
    u.rspSend p own m 0 0 (BitVec.ofNat 64 (if t.st = .away then t.loc else u.pkg)) []))

/-- MV_QUERY_TIMER (R243): a guest PENDING, or sent away, for 10 ms asks its origin, every 10 ms. -/
def execMvQueryTimer (g : Nat) (s : State) : Out := keepQueue s <|
  match Map.get? s.guests g with
  | some v =>
    if (v.pending = true ∨ v.sentTo.isSome = true) ∧ v.since.toNat + 40000000 ≤ s.ft.toNat then
      let s : State := { s with guests := Map.set s.guests g { v with since := s.ft } }
      .next (s.reqSend (g / 2 ^ 29) 0x18 0x7F (State.remNone (g / 2 ^ 29 * 2 ^ 52 + g % 2 ^ 29 * tileBytes)) 0 (.query g))
    else .next s
  | none => .next s

/-- RSP (R235, R240): the first response to an ESEQ is applied; a later one is counted, and reported to the home core, which
makes a second completion item where the record has completed. -/
def execRsp (p : Nat) (r : RspMsg) (s : State) : Out := keepQueue s <|
  match (s.flow p).reqs.find? (fun q => q.eseq == r.eseq) with
  | some q =>
    (match q.why with
     | .offer n =>
       (match Map.get? s.away n with
        | some a =>
          if r.code ≠ 0 then .next ((s.reqTake p q).reqError q r.code r.detail)
          else if r.old = 0 then
            (let f := s.flow p
             .next ((s.flowSet p { f with reqs := f.reqs.map (fun x => if x.eseq = q.eseq ∧ a.step = 1 then { x with since := s.ft, tries := 0 } else x) }).awaySend n a q.eseq))
          else .next ((s.reqTake p q).awayCommit n a)
        | none => .next (s.reqTake p q))
     | _ =>
       let s := s.reqTake p q
       .next (if r.code = 0 ∨ (r.code = 9 ∧ q.cls = 0x10) then
         (let s := s.reqOk q r
          if r.code = 0 then s else match q.why with
            | .op h _ => s.opFaultAt h 9 0 q.m.addr.toNat
            | _ => s)
         else s.reqError q r.code r.detail))
  | none =>
    match (s.flow p).done.find? (fun q => q.eseq == r.eseq) with
    | none => .next s
    | some q =>
      let s := (s.bump R.FBD_DUP_RSP_CNT).raiseAll fbdPages 3
      match q.why, q.record with
      | .op h _, some o =>
        if (s.op? h).isSome then .next s
        else
          let o := { o with code := BitVec.ofNat 8 r.code, detail := BitVec.ofNat 8 r.detail }
          .next (if evtDue o then (s.storeItem o.tenant (CmdRecF.evq o.cmd) (CmdRecF.evtPrio o.cmd) (completionItem o s.ft s.free)).used else s)
      | _, _ => .next s

/-- NACK (R236): every unanswered request of the flow is sent again. -/
def execNack (p : Nat) (s : State) : Out := keepQueue s <| .next (s.goBack p)

/-- E2E_TIMEOUT (R236): the oldest unanswered request of a flow has waited FBD_E2E_TMO: a go-back, or after FBD_E2E_TRIES its
end with REMOTE, DETAIL 0x03. -/
def execE2eTimeout (p : Nat) (s : State) : Out := keepQueue s <|
  match (s.flow p).reqs with
  | [] => .next s
  | q :: _ =>
    if q.since.toNat + s.rdF R.FBD_E2E_TMO 15 0 * 4000 ≤ s.ft.toNat then
      (if s.rdF R.FBD_E2E_TRIES 3 0 ≤ q.tries then .next ((s.reqTake p q).reqError q 0x11 3) else .next (s.goBack p))
    else .next s

/-- CLEAR_LOST (R243): requests to the package in FBD_FLOW_SEL go again. -/
def execClearLost (s : State) : Out := keepQueue s <|
  let p := s.rdF R.FBD_FLOW_SEL 11 0
  .next { s.countWrite 0xF0 false with lostPkgs := s.lostPkgs.filter (· != p) }

end Sys2Proof.Machine
end

