-- ==== Sys2Proof/Machine/Flocks.lean ====
section
/-! DEFINITION. Chapter 08: flock slots, member order, the messages of collectives, and what a lost message does (R249 to R253,
R259, R268). -/
namespace Sys2Proof.Machine
open Sys2Proof

namespace Flock
/-- EN. -/
def on (f : Flock) : Bool := bit f.ctl 31
/-- OWNER. -/
def owner (f : Flock) : Nat := fld f.ctl 22 16
/-- GEN. -/
def gen (f : Flock) : Nat := fld f.ctl 7 0
/-- COUNT. -/
def count (f : Flock) : Nat := fld f.cnt 12 0
/-- STEP. -/
def step (f : Flock) : Nat := fld f.cnt 27 16
/-- Table mode. -/
def table (f : Flock) : Bool := bit f.ctl 30
/-- Window bytes (R253). -/
def winBytes (f : Flock) : Nat := fld f.win 12 0 * 262144
/-- Original positions still live, in order (R250, R270). -/
def live (f : Flock) : List Nat := (List.range f.count).filter (fun q => !f.drops.contains q)
end Flock

/-- RED page of a slot (R249). -/
def redPage (f : Nat) : Nat := 0xF2 + f % 2
/-- Space a chunk of `n` data bytes takes (R260). -/
def chunkSpace (n : Nat) : Nat := 64 + n
/-- Bytes 0x08 and up of a control message (R259). -/
def flkBody (m : FlkMsg) : List Byte :=
  leBytes 1 m.slot ++ leBytes 1 m.gen ++ leBytes 2 0 ++ leBytes 4 m.cseq ++ leBytes 4 m.a ++ leBytes 4 m.b ++ leBytes 4 m.c ++
  leBytes 36 0
/-- Bytes 0x08 and up of a CHUNK (R259). -/
def chunkBody (c : Chunk) : List Byte :=
  leBytes 1 (c.slot + (if c.dup then 64 else 0) + (if c.ag then 128 else 0)) ++ leBytes 1 c.gen ++ leBytes 2 c.step ++
  leBytes 4 c.cseq ++ leBytes 4 c.sig.toNat ++ leBytes 4 c.idx ++ leBytes 4 c.nelem ++ leBytes 1 c.fmt ++ leBytes 3 0 ++
  leBytes 2 c.pos ++ leBytes 2 0 ++ leBytes 4 c.sidx ++ leBytes 24 0 ++ c.data

namespace State

/-- A flock slot. -/
def flock (s : State) (f : Nat) : Flock := Map.get s.slots Flock.none f
/-- Set it. -/
def flockSet (s : State) (f : Nat) (v : Flock) : State := { s with slots := Map.put s.slots Flock.none f v }
/-- Member m_i (R250). -/
def flkMember (s : State) (f : Flock) (i : Nat) : Nat :=
  if f.table then fld (Map.get s.ftable 0 (fld f.base 14 0 + i)) 14 0
  else (fld f.base 14 0 + i * fld f.base 30 16) % 32768
/-- The member at an original position (R250). -/
def flkAt (s : State) (f : Flock) (q : Nat) : Nat := s.flkMember f (q * f.step % f.count)
/-- Live members in order. -/
def flkLive (s : State) (f : Flock) : List Nat := f.live.map (s.flkAt f)
/-- Own position among them. -/
def flkPos (s : State) (f : Flock) : Nat := (s.flkLive f).idxOf s.srcField
/-- The successor. -/
def flkSucc (s : State) (f : Flock) : Nat := let l := s.flkLive f; l.getD ((s.flkPos f + 1) % l.length) 0
/-- The predecessor. -/
def flkPred (s : State) (f : Flock) : Nat := let l := s.flkLive f; l.getD ((s.flkPos f + l.length - 1) % l.length) 0
/-- Send a control message of a slot on VC CTRL (R259). -/
def flkSend (s : State) (f cls to_ : Nat) (m : FlkMsg) : State :=
  s.send ⟨to_, s.srcField, 0, cls, 0, (s.flock f).owner, flkBody m, false, []⟩
/-- CHUNK_CTL to the predecessor: what is acknowledged, and the space returned (R260, R261). -/
def flkCtl (s : State) (f cseq ack grant : Nat) : State :=
  let v := s.flock f
  s.flkSend f 0x21 (s.flkPred v) ⟨f, v.gen, cseq, ack, grant, v.winBytes / 256⟩

/-- Go back to the oldest unacknowledged chunk (R268). -/
def flkBack (s : State) (f : Nat) : State :=
  let v := s.flock f
  match v.run with
  | some c => s.flockSet f { v with run := some { c with sent := c.acked, sentAt := [] } }
  | none => s

/-- A retrain found a flit of a collective's message still held (R194, R268): a chunk makes its slot go back; a control
message is sent again. Both are this package's own. -/
def redReport (s : State) (x : HeldFlit) : State :=
  if x.cls = 0x20 then
    let f := (x.hdr.getD 8 0).toNat % 64
    if (s.flock f).on && s.flkSucc (s.flock f) == x.dest then s.flkBack f else s
  else if 0x21 ≤ x.cls ∧ x.cls ≤ 0x23 then
    s.send ⟨x.dest, s.srcField, 0, x.cls, 0, x.own, x.bytes.drop 8, false, []⟩
  else s

end State
end Sys2Proof.Machine
end

