-- ==== Sys2Proof/Machine/Ports.lean ====
section
/-! DEFINITION. Chapter 06: slots, lanes, retry, credits, keys and the states of a port, as operations (R177 to R216, R443 to R446). -/
namespace Sys2Proof.Machine
open Sys2Proof

namespace State

/-- A lane. -/
def lane (s : State) (p l : Nat) : Lane := Map.get (s.port p).lanes Lane.none l
/-- Change a port. -/
def portMod (s : State) (p : Nat) (f : Port → Port) : State := s.portSet p (f (s.port p))
/-- Stripe lanes in use by the transmitter (R186). -/
def txLanes (s : State) (p : Nat) : Nat := if isHall p && !(s.port p).txHalf then 8 else 4
/-- And by the receiver. -/
def rxLanes (s : State) (p : Nat) : Nat := if isHall p && !(s.port p).rxHalf then 8 else 4
/-- Is a lane locked to its markers? -/
def laneLocked (s : State) (p l : Nat) : Bool := match (s.lane p l).lock with | .locked _ _ => true | _ => false
/-- Is a lane healthy: locked, not failed, not under recalibration (R185, R205)? -/
def laneWell (s : State) (p l : Nat) : Bool := s.laneLocked p l && !(s.lane p l).failed && (s.lane p l).recal == 0
/-- Healthy lanes of a port. -/
def healthy (s : State) (p : Nat) : List Nat := (List.range (laneCount p)).filter (s.laneWell p)
/-- Is a lane in the receive stripe? -/
def inStripe (s : State) (p l : Nat) : Bool := (laneStripe (s.rd (preg p 0x110)) (s.rxLanes p) l).isSome
/-- The healthy spare of a hall port, 15 for none (R213). -/
def spareNow (s : State) (p : Nat) : Nat :=
  if isHall p then ((List.range 9).find? (fun l => s.laneWell p l && !s.inStripe p l)).getD 15 else 15
/-- LANE_STAT, SPARE_OK and HALF_W follow the lanes (R213, R214). -/
def laneStat (s : State) (p : Nat) : State :=
  let ls := List.range (laneCount p)
  let lk := ((ls.filter (s.laneLocked p)).map (fun l => 2 ^ l)).sum
  let fl := ((ls.filter (fun l => (s.lane p l).failed)).map (fun l => 2 ^ l)).sum
  let sp := s.spareNow p
  let o := s.port p
  ((s.wr (preg p 0x114) (BitVec.ofNat 32 (lk + fl * 65536 + (if isHall p then sp * 2 ^ 28 else 0)))).wrF (preg p 0x104) 24 24
    (if sp < 15 then 1 else 0)).wrF (preg p 0x104) 25 25 (isHall p && (o.txHalf || o.rxHalf)).toNat
/-- Set a lane, its status unread. -/
def lanePut (s : State) (p l : Nat) (v : Lane) : State := s.portMod p (fun o => { o with lanes := Map.put o.lanes Lane.none l v })
/-- Set a lane. -/
def laneSet (s : State) (p l : Nat) (v : Lane) : State := (s.lanePut p l v).laneStat p
/-- The lanes at the start of a training (R183, R184): none is locked; a cold one forgets failures; the counters go on (R213). -/
def lanesTrain (s : State) (p : Nat) (cold : Bool) : State :=
  (s.portMod p (fun o => { o with lanes := Map.mapVals o.lanes (fun _ v =>
    { v with lock := .hunt, failed := v.failed && !cold, lost := false, recal := 0 }) })).laneStat p
/-- Queue a LINK payload (R189). -/
def link_ (s : State) (p : Nat) (b : List Byte) : State := s.portMod p (fun o => { o with linkQ := o.linkQ ++ [padTo 240 b] })
/-- Tell the far end of a lane (R203). -/
def nameLane (s : State) (p l : Nat) : State := s.link_ p [3, BitVec.ofNat 8 l]

/-! ### Slots (R178 to R182, R203) -/

/-- A block on a lane: scrambled, into the codeword being filled; the twentieth completes it and it goes out. -/
def putBlock (s : State) (p l : Nat) (ctl : Bool) (bytes : List Byte) : State :=
  let v := s.lane p l
  let r := scramble (blockBits ctl bytes) v.scr
  let cw := v.cw ++ [r.1]
  if cw.length < 20 then s.lanePut p l { v with scr := r.2, cw := cw }
  else (s.lanePut p l { v with scr := r.2, cw := [] }).emit (.codeword p l (codeword cw))
/-- A slot passes, each lane with its block. -/
def putSlot (s : State) (p : Nat) (blk : Nat → Bool × List Byte) : State :=
  ((List.range (laneCount p)).foldl (fun u l => u.putBlock p l (blk l).1 (blk l).2) s).portMod p (fun o => { o with slot := o.slot + 1 })
/-- A filler block (R180). -/
def fill : Bool × List Byte := (true, padTo 32 [0xC3])
/-- A slot of fillers, as in training (R180). -/
def fillSlot (s : State) (p : Nat) : State := s.putSlot p (fun _ => fill)
/-- A control slot on every active lane; the spare has a filler, or with `all` the same block (R180, R203). -/
def ctlSlot (s : State) (p : Nat) (all : Bool) (b : List Byte) : State :=
  let m := s.rd (preg p 0x10C)
  let n := s.txLanes p
  (s.emit (.block p 99 (padTo 32 b))).putSlot p (fun l => if all || (laneStripe m n l).isSome then (true, padTo 32 b) else fill)
/-- The 32-byte parts of a flit, or of its half, on the stripe lanes; the other lanes have fillers (R186, R203). -/
def dataSlot (s : State) (p n : Nat) (b : List Byte) : State :=
  let m := s.rd (preg p 0x10C)
  s.putSlot p (fun l => match laneStripe m n l with | some k => (false, flitPart b k) | none => fill)
/-- The 256 bytes of a flit go into one slot, or its first half, the second to follow (R186). -/
def stripeBytes (s : State) (p : Nat) (b : List Byte) : State :=
  if s.txLanes p = 8 then s.dataSlot p 8 b
  else (s.dataSlot p 4 b).portMod p (fun o => { o with half := b.drop 128 })
/-- Does the slot that comes belong to a marker: slot 0 of a codeword whose count is a multiple of 20,480 (R182)? -/
def markerSlot (s : State) (p : Nat) : Bool := (s.port p).slot % 409600 == 0
/-- A marker on every lane, the spare included (R182). -/
def markers (s : State) (p : Nat) : State :=
  let m := s.rd (preg p 0x10C)
  let n := s.txLanes p
  let c := (s.port p).mcount
  let am (l : Nat) : List Byte := amBlock ((laneStripe m n l).getD 15) l c
  let s := (List.range (laneCount p)).foldl (fun u l => u.emit (.block p l (am l))) s
  (s.putSlot p (fun l => (true, am l))).portMod p (fun o => { o with mcount := (c + 1) % 65536 })
/-- A control slot at the next slot that is free for it (R203, R209): a marker due goes first. -/
def nextCtl (s : State) (p : Nat) (all : Bool) (b : List Byte) : State :=
  (if s.markerSlot p then s.markers p else s).ctlSlot p all b

/-! ### Retry (R193, R194) -/

/-- A message whose last flit is still to come by a port and VC (R191, R194): it ends cut short, at the router or in the queue of the port
it leaves by, and its flits leave the buffer. A cut message with nothing left to send ends with one zero byte (log entry 70). -/
def cutMsg (s : State) (p v : Nat) : State :=
  let s : State := { s with router := Map.mapVals s.router (fun _ r =>
    if r.more && r.inPort == p && r.m.vc == v then { r with more := false, m := { r.m with abt := true } } else r) }
  let s : State := { s with ports := Map.mapVals s.ports (fun _ o => { o with txQ := o.txQ.map (fun t =>
    if t.from_ = some (p, v) then { t with from_ := none, abt := true, left := if t.left.isEmpty then [0] else t.left } else t) }) }
  s.portMod p (fun o => { o with rxPart := Map.erase o.rxPart v })

/-- Is a message this package's own (R191)? -/
def ownHdr (s : State) (h : List Byte) : Bool := leNat ((h.drop 2).take 2) == s.srcField
/-- A message that had a flit held, or was not yet sent to its end, at a retrain (R194): the transport sends the operation again. `hdr`: its
first bytes. A request makes its flow go back (R236), a response is sent again, and so is a move's data (R242); the RED has its own way
(R268). A message that only passes through is its source's to recover. -/
def linkReport (s : State) (x : HeldFlit) : State :=
  let dest := x.dest % 4096
  let eseq := leNat ((x.hdr.drop 8).take 3)
  if !s.ownHdr x.hdr then s
  else if 0x10 ≤ x.cls ∧ x.cls ≤ 0x18 then s.goBack dest
  else if x.cls = 0x1A then
    (match (s.inFlow dest).cache.reverse.find? (fun r => r.eseq == eseq) with
     | some r => s.send r.m
     | none => s)
  else if x.cls = 0x1B then s.sendTo dest 0x1B 2 x.own ((x.hdr.drop 8).take 8)
  else if x.cls = 0x19 then
    let ga := leNat ((x.hdr.drop 0x10).take 8)
    (match Map.get? s.away (ga % 2 ^ 52 / tileBytes), Map.get? s.guests (guestKey ga) with
     | some a, _ => if ga / 2 ^ 52 = s.pkg ∧ a.step = 2 ∧ a.from_ = none then s.awayData (ga % 2 ^ 52 / tileBytes) a eseq else s
     | none, some g => if g.sentTo = some dest then s.guestData ga dest eseq else s
     | none, none => s)
  else s.redReport x
/-- One report for a message, and one for the requests of a package. -/
def reports (s : State) (l : List HeldFlit) : State :=
  let key (x : HeldFlit) : List Byte × Nat := if 0x10 ≤ x.cls ∧ x.cls ≤ 0x18 ∧ s.ownHdr x.hdr then ([], x.dest) else (x.hdr, x.dest)
  (l.foldl (fun (u : List (List Byte × Nat) × State) x =>
    if u.1.contains (key x) then u else (key x :: u.1, u.2.linkReport x)) ([], s)).2

/-- What a retrain does to the link layer (R194): the replay store is discarded, messages under way end cut short, numbers and credits start
afresh, the session ends; what was held or not yet sent to its end is reported. Flits that still stand in the buffer no longer count
against credits (log entry 72). -/
def linkReset (s : State) (p : Nat) : State :=
  let o := s.port p
  let s := s.bump (preg p 0x148) o.held.length
  let cut := (o.txQ.filter (·.begun)).map (fun t => (⟨t.dest, t.cls, 0, 1, 0, 0, t.own, [], false, t.hdr⟩ : HeldFlit))
  let s := o.rxPart.foldl (fun u e => u.cutMsg p e.1) s
  let s : State := { s with router := Map.mapVals s.router (fun _ r => if r.inPort == p then { r with flits := 0 } else r) }
  let s := s.portMod p (fun o => { o with held := [], txLseq := 0, rxExp := 0, rxPart := [], outV := [], farDed := [], farPool := 0,
                                          owed := [], kept := [], leaving := 0, half := [], nakSent := false, nakDue := false, linkQ := [],
                                          replays := 0, helloSent := false, hello := none, farReady := false, pingAt := none,
                                          tx := PortKey.none, rx := PortKey.none, txQ := o.txQ.filter (fun t => !t.begun) })
  (s.wrF (preg p 0x104) 26 26 0).reports (o.held.filter (fun f => f.type == 1) ++ cut)

/-- Retrain a port (R194, R209): its lanes relock. -/
def retrain (s : State) (p : Nat) : State := (((s.bump (preg p 0x134)).linkReset p).lanesTrain p false).portTo p 6

/-- A replay starts from an LSEQ (R193): every flit held from there is sent again; eight from one LSEQ start a retrain. -/
def replay (s : State) (p from_ : Nat) : State :=
  let o := s.port p
  if o.held.any (fun f => f.lseq == from_ || seqAfter f.lseq from_) then
    let n := if o.replays ≠ 0 ∧ o.replayFrom = from_ then o.replays + 1 else 1
    let s := s.bump (preg p 0x130)
    if 8 ≤ n then s.retrain p
    else s.portMod p (fun o => { o with replayFrom := from_, replays := n, ackAt := s.ft, held := o.held.map (fun f => if f.lseq = from_ || seqAfter f.lseq from_ then { f with wait := true } else f) })
  else s
/-- A flit joins the replay store (R193): the timer starts where the store was empty. -/
def hold (ft : Word64) (o : Port) (f : HeldFlit) : Port :=
  { o with held := o.held ++ [f], ackAt := if o.held.isEmpty then ft else o.ackAt, txLseq := (o.txLseq + 1) % 2 ^ 24 }

/-! ### Keys (R206, R207, R444 to R446) -/

/-- Bytes of the active fabric key. -/
def kfBytes (s : State) : List Byte := Map.get s.kf [] (s.rdF R.SEM_KF_STAT 0 0)
/-- Is a fabric key active? -/
def kfOn (s : State) : Bool := s.rdB R.SEM_KF_STAT 31
/-- Key (32 bytes) and salt (4) of a direction (R444): `tx` from this end. -/
def portKey (s : State) (p : Nat) (tx kph : Bool) (epoch : Nat) : List Byte :=
  let o := s.port p
  let x := o.hello.getD ⟨0, 0, 0, false, false, false, 0⟩
  let me := leBytes 2 s.srcField
  let far := leBytes 2 (x.pkg + 4096 * x.domain)
  let fp := if x.reach then 32 + x.port else x.port
  let k := leBytes 1 kph.toNat
  let c := (if tx then me ++ leBytes 1 p ++ k ++ far ++ leBytes 1 fp ++ leBytes 1 0 ++ leBytes 4 o.nonce.toNat ++ leBytes 4 x.nonce.toNat
            else far ++ leBytes 1 fp ++ k ++ me ++ leBytes 1 p ++ leBytes 1 0 ++ leBytes 4 x.nonce.toNat ++ leBytes 4 o.nonce.toNat) ++
           leBytes 4 epoch ++ leBytes 4 (s.rd R.SEM_KF_ID).toNat ++ leBytes 8 0
  (sha384 (s.kfBytes ++ c)).take 36
/-- The IV of a flit (R206): the salt, then CTR. -/
def flitIv (key : List Byte) (ctr : Nat) : List Byte := key.drop 32 ++ leBytes 8 ctr

/-- Sixteen bad tags in a second (R208): the port goes DOWN and the SEM is told. -/
def tagFail (s : State) (p : Nat) : State :=
  let l := ((s.port p).tagFails ++ [s.ft]).filter (fun t => decide (s.ft.toNat < t.toNat + 4000000000))
  let s := (s.bump (preg p 0x144)).portMod p (fun o => { o with tagFails := l })
  if 16 ≤ l.length then
    let s := ((s.portMod p (fun o => { o with tagFails := [] })).linkReset p).portTo p 9
    let s := s.raise (portPage p) 5
    (if p < 32 then s.setBits R.SEM_TAG_PORTS0 (BitVec.ofNat 32 (2 ^ p)) else s.setBits R.SEM_TAG_PORTS1 (BitVec.ofNat 32 (2 ^ (p - 32)))).raise 0x04 6
  else s

/-! ### Sending (R196 to R198, R206) -/

/-- Flits a port's buffer, and its replay store, hold (R177, R201): half for each stack live. -/
def portFlits (s : State) (p : Nat) : Nat :=
  if isHall p then 4096 else 262144 * ((s.rdF (preg p 0x204) 0 0) + (s.rdF (preg p 0x204) 1 1))
/-- May a DATA flit go on a VC (R198)? -/
def hasCredit (o : Port) (v : Nat) : Bool :=
  let d (u : Nat) : Nat := o.farDed.getD u 0
  let n (u : Nat) : Nat := Map.get o.outV 0 u
  decide (n v < d v) || decide (((List.range 8).map (fun u => n u - d u)).sum < o.farPool)

/-- The flit that a slot carries, before its slot is filled: ACK and CRED as they stand, encryption under the key in use, the CRC (R189, R190,
R206). -/
def makeFlit (s : State) (p type flg len own lseq : Nat) (text : List Byte) : Flit × State :=
  let o := s.port p
  let vc := (o.owed.find? (fun e => e.2 != 0)).map (·.1)
  let n := match vc with | some v => min (Map.get o.owed 0 v) 8191 | none => 0
  let o : Port := match vc with | some v => { o with owed := Map.put o.owed 0 v (Map.get o.owed 0 v - n) } | none => o
  let turn := o.tx.on && o.tx.due && o.tx.nextReady
  let tx : PortKey := if turn then { o.tx with kph := !o.tx.kph, epoch := o.tx.epoch + 1, ctr := 0, due := false, nextReady := false, since := s.ft } else o.tx
  let enc : Bool := tx.on
  let ctr := tx.ctr + 1
  let flg : Nat := flg + (if enc then 32 else 0) + (if enc && tx.kph then 128 else 0)
  let f0 : Flit := ⟨BitVec.ofNat 8 type, BitVec.ofNat 8 flg, BitVec.ofNat 8 len, BitVec.ofNat 8 own, BitVec.ofNat 24 lseq, BitVec.ofNat 24 o.rxExp,
    BitVec.ofNat 16 (vc.getD 0 * 8192 + n), 0, []⟩
  let pay : List Byte := if enc then
      (let k := s.portKey p true tx.kph tx.epoch
       let c := gcmSeal (k.take 32) (flitIv k ctr) (flitHead f0 ++ leBytes 8 ctr) (padTo 216 text)
       leBytes 8 ctr ++ c.1 ++ c.2)
    else padTo 240 text
  let f := { f0 with payload := pay }
  ({ f with crc := flitCrc f },
   s.portSet p { o with tx := if enc then { tx with ctr := ctr } else tx, slots := o.slots + 1,
                        ctrlAt := o.ctrlAt.filter (fun k => o.slots < k + 4096) })
/-- Send a flit. A key used up to CTR = 2^48 takes the port DOWN (R207). -/
def sendFlit (s : State) (p type flg len own lseq : Nat) (text : List Byte) : State :=
  let r := s.makeFlit p type flg len own lseq text
  let s := (r.2.emit (.flit p r.1)).stripeBytes p (flitBytes r.1)
  let k := (s.port p).tx
  let s := if k.on then s.wr64 (preg p 0x170) k.ctr else s
  if k.on && k.ctr == 2 ^ 48 then ((s.setBits (preg p 0x16C) 4).linkReset p).portTo p 9 else s

/-- Can a message's next flit go: all of it is here, or as much as fills a flit (R191)? -/
def txReady (room : Nat) (t : TxMsg) : Bool := t.from_.isNone || decide (room ≤ t.left.length)
/-- The head of a VC's queue: the message under way there, else the oldest of the owner (R191, R196). -/
def vcHead (room : Nat) (q : List TxMsg) (v own : Nat) : Option TxMsg :=
  match q.find? (fun t => t.vc == v && t.begun) with
  | some t => if t.own == own && txReady room t then some t else none
  | none => q.find? (fun t => t.vc == v && t.own == own && txReady room t)
/-- The head of a VC's queue whoever owns it. -/
def vcAny (room : Nat) (q : List TxMsg) (v : Nat) : Option TxMsg :=
  match q.find? (fun t => t.vc == v && t.begun) with
  | some t => if txReady room t then some t else none
  | none => q.find? (fun t => t.vc == v && txReady room t)
/-- The message an owner would send from, by the order of R196 step 3. -/
def ownerPick (room : Nat) (o : Port) (own : Nat) : Option TxMsg :=
  ([1, 5, 2, 6, 3, 4] : List Nat).findSome? (fun v => if hasCredit o v then vcHead room o.txQ v own else none)

/-- Weight of an owner on a port (R197). -/
def ownWeight (s : State) (p own : Nat) : Nat :=
  if own < 64 then fld (s.rd (preg p (0x180 + 4 * (own / 4)))) (8 * (own % 4) + 7) (8 * (own % 4))
  else if own = 0x40 then s.rdF (preg p 0x1C0) 7 0 else s.rdF (preg p 0x1C0) 15 8

/-- TX_FT of a TIME_SYNC is written as its first flit leaves (R382). -/
def stampSync (s : State) (t : TxMsg) : List Byte :=
  if t.cls = 0x30 ∧ t.begun = false then t.left.take 0x10 ++ leBytes 8 s.ft.toNat ++ t.left.drop 0x18 else t.left

/-- Send the next flit of a queued message (R191, R193), counted as forwarded where it is a router's (R246). -/
def sendData (s : State) (p : Nat) (t : TxMsg) : State :=
  let o := s.port p
  let all := s.stampSync t
  let room := s.flitRoom p
  let part := all.take room
  let last := t.from_.isNone && decide (all.length ≤ room)
  let flg := t.vc + (if t.begun then 0 else 8) + (if last then 16 else 0) + (if last && t.abt then 64 else 0)
  let q := if last then o.txQ.erase t else o.txQ.map (fun x => if x = t then { t with left := all.drop room, begun := true } else x)
  let o := { o with txQ := q, outV := Map.put o.outV 0 t.vc (Map.get o.outV 0 t.vc + 1), ctrlAt := (if t.vc = 0 then o.ctrlAt ++ [o.slots] else o.ctrlAt) }
  let s := s.portSet p (hold s.ft o ⟨t.dest, t.cls, o.txLseq, 1, flg, part.length, t.own, part, false, t.hdr⟩)
  let s := if t.cls = 0x30 then s else s.add64 (R.FBD_FWD_FLITS_LO (fbdOf p)) 1
  (s.add64 (preg p 0x158) 1).sendFlit p 1 flg part.length t.own o.txLseq part

/-- The flit slot's choice beyond NAK, resends and LINK (R196 steps 2 to 5). -/
def sendChoice (s : State) (p : Nat) : State :=
  let o := s.port p
  let room := s.flitRoom p
  let idle : State := s.sendFlit p 0 0 0 0x7F 0 []
  if s.portState p ≠ 5 ∨ s.portFlits p ≤ o.held.length then idle
  else
    let ctrl := if hasCredit o 0 ∧ (o.ctrlAt.filter (fun k => o.slots < k + 4096)).length < 64 then vcAny room o.txQ 0 else none
    match ctrl with
    | some t => s.sendData p t
    | none =>
      let ready := ((List.range 128).filter (fun w => o.txQ.any (fun t => t.own == w && t.vc != 0 && t.vc != 7) && (ownerPick room o w).isSome))
      let own := if 0 < o.deficit ∧ ready.contains o.lastOwn then some (o.lastOwn, o.deficit)
        else ((ready.filter (fun w => o.lastOwn < w) ++ ready).head?).map (fun w => (w, s.ownWeight p w))
      match own.bind (fun w => (ownerPick room o w.1).map (fun t => (w, t))) with
      | some (w, t) => (s.portSet p { o with lastOwn := w.1, deficit := w.2 - 1 }).sendData p t
      | none =>
        match (if hasCredit o 7 then vcAny room o.txQ 7 else none) with
        | some t => s.sendData p t
        | none => idle

/-! ### Receiving (R189, R192, R198, R207, R208) -/

/-- A flit is discarded with a NAK, one until the expected flit comes (R192). -/
def nak (s : State) (p : Nat) : State :=
  s.portMod p (fun o => if o.nakSent then o else { o with nakSent := true, nakDue := true })

/-- ACK and CRED of a good flit are applied (R189, R193). -/
def ackCred (s : State) (p : Nat) (f : Flit) : State :=
  s.portMod p (fun o =>
    let keep := o.held.filter (fun h => !seqAfter f.ack.toNat h.lseq)
    let v := fld f.cred 15 13
    let o := { o with outV := Map.put o.outV 0 v (Map.get o.outV 0 v - fld f.cred 12 0) }
    if keep.length < o.held.length then { o with held := keep, ackAt := s.ft, replays := 0 } else o)

end State

/-- What becomes of a flit's text (R206 to R208). -/
inductive Opened where
  | text (b : List Byte)     -- in clear, or verified and decrypted
  | stale                    -- a good tag whose CTR did not rise: discarded, not counted as a tag failure
  | badTag
deriving DecidableEq, Repr

namespace State

/-- Decrypt a flit under the key its KPH names, and note the CTR verified. -/
def openFlit (s : State) (p : Nat) (f : Flit) : Opened × State :=
  let o := s.port p
  let kph := bit f.flg 7
  let ctr := leNat (f.payload.take 8)
  let isOld := o.rx.oldKept && kph != o.rx.kph
  let isNew := !o.rx.oldKept && kph != o.rx.kph && o.rx.nextReady
  let epoch := if isOld then o.rx.epoch - 1 else if isNew then o.rx.epoch + 1 else o.rx.epoch
  let last := if isOld then o.rx.oldCtr else if isNew then 0 else o.rx.ctr
  if kph != o.rx.kph && !isOld && !isNew then (.badTag, s)
  else
    let k := s.portKey p false kph epoch
    match gcmOpen (k.take 32) (flitIv k ctr) (flitHead f ++ leBytes 8 ctr) ((f.payload.drop 8).take 216) (f.payload.drop 224) with
    | none => (.badTag, s)
    | some t =>
      if ctr ≤ last then (.stale, s)
      else
        let rx := if isOld then { o.rx with oldCtr := ctr }
          else if isNew then { o.rx with kph := kph, epoch := epoch, oldKept := true, oldCtr := o.rx.ctr, ctr := ctr, nextReady := false, since := s.ft }
          else { o.rx with ctr := ctr }
        (.text t, s.portSet p { o with rx := rx })

/-- What becomes of a received flit whose CRC is good (R192, R207, R208): its text where it is accepted, and the state with its ACK and
credits applied, or a NAK due. `clear`: HELLO, IDLE or KEY_READY, which HELD takes without encryption (R445). -/
def rxFlit (s : State) (p : Nat) (f : Flit) (numbered clear : Bool) : Option (List Byte) × State :=
  let o := s.port p
  let r : Opened × State :=
    if bit f.flg 5 then (if o.rx.on then s.openFlit p f else (.badTag, s))
    else if !o.encOn || (clear && s.portState p == 4) then (.text f.payload, s) else (.badTag, s)
  match r with
  | (.badTag, s) => (none, (s.tagFail p).nak p)
  | (.stale, s) => (none, s.nak p)
  | (.text t, s) =>
    let s := s.ackCred p f
    let o := s.port p
    if !numbered then (some t, s)
    else if f.lseq.toNat = o.rxExp then (some t, s.portSet p { o with rxExp := (o.rxExp + 1) % 2 ^ 24, nakSent := false, nakDue := false })
    else if (o.rxExp + 2 ^ 24 - f.lseq.toNat) % 2 ^ 24 ≤ 2 ^ 23 then (none, s)
    else (none, s.nak p)

/-- A received slot, as a flit of TYPE `ty` (R180, R187 to R190): a slot that loses its flit, a bad CRC and a TYPE that does not exist are
counted in CRC_ERR_CNT. -/
def receive (s : State) (p ty : Nat) (numbered clear : Bool) (x : List LaneBlock) : Option (Flit × List Byte) × State :=
  let st := s.portState p
  if !(p < 36 && (st == 4 || st == 5 || st == 7)) then (none, s)
  else match slotKind (s.rd (preg p 0x110)) (s.rxLanes p) x with
    | .lost => (none, s.bump (preg p 0x138))
    | .control _ => (none, s)
    | .flit f =>
      if f.crc ≠ flitCrc f then (none, (s.bump (preg p 0x138)).nak p)
      else if 3 < f.type.toNat then (none, s.bump (preg p 0x138))
      else if f.type.toNat ≠ ty then (none, s)
      else let r := s.rxFlit p f numbered clear; (r.1.map (fun t => (f, t)), r.2)
/-- A received LINK flit of a code (R189): its text. -/
def linkIn (s : State) (p : Nat) (code : Byte) (clear : Bool) (x : List LaneBlock) : Option (List Byte) × State :=
  match s.receive p 3 true clear x with
  | (some r, u) => if r.2.getD 0 0 = code then (some r.2, u) else (none, s)
  | (none, u) => (none, u)

/-- Dedicated part of a VC as a register holds it (R198). -/
def dedReg (s : State) (p v : Nat) : Nat := fld (s.rd (preg p (if v < 4 then 0x120 else 0x124))) (8 * (v % 4) + 7) (8 * (v % 4))
/-- Is there a credit for a flit that came on a VC (R198, R199)? Credits not yet returned, and those withheld, count as held. -/
def creditFor (s : State) (p v : Nat) : Bool :=
  let d (u : Nat) : Nat := (s.port p).ded.getD u 0
  s.portLive p && (decide (s.bufHeld p v < d v) ||
    decide (((List.range 8).map (fun u => s.bufHeld p u - d u)).sum < (s.port p).pool))

/-- A flit joins a message under way (R191): at the router, or past it in the queue of the port it leaves by, where it leaves the buffer at
once; a message that was dropped drops it too. -/
def joinMsg (s : State) (p v : Nat) (part : List Byte) (last abt : Bool) : State :=
  let here (r : RMsg) : Bool := r.more && r.inPort == p && r.m.vc == v
  if s.router.any (fun r => here r.2) then
    { s with router := Map.mapVals s.router (fun _ r => if here r then
        { r with more := !last, flits := r.flits + 1, m := { r.m with body := r.m.body ++ part, abt := abt } } else r) }
  else
    let s : State := { s with ports := Map.mapVals s.ports (fun _ o => { o with txQ := o.txQ.map (fun t =>
      if t.from_ = some (p, v) then { t with left := t.left ++ part, from_ := if last then none else t.from_, abt := abt } else t) }) }
    s.unbuffer p v 1
/-- The message that a SOM flit begins goes to the router (R191). -/
def beginMsg (s : State) (p v own : Nat) (part : List Byte) (last abt : Bool) : State :=
  let m : Msg := ⟨leNat (part.take 2), leNat ((part.drop 2).take 2), leNat ((part.drop 6).take 1), leNat ((part.drop 7).take 1), v, own, part.drop 8, abt, []⟩
  { s with router := Map.set s.router (Map.nextKey s.router) ⟨m, p, s.ft, !last, leNat ((part.drop 4).take 2) + 1, 1⟩ }

/-- An accepted DATA flit (R191, R198, R199): it begins a message or joins the one under way on its VC. A flit that belongs to no message,
has no header or is past the 4,096th of one is discarded and counted (log entry 70). -/
def dataIn (s : State) (p : Nat) (f : Flit) (text : List Byte) : State :=
  let v := fld f.flg 2 0
  let part := text.take f.len.toNat
  let last := bit f.flg 4
  let abt := last && bit f.flg 6
  if !s.creditFor p v then s.bump (preg p 0x168)
  else
    let s := s.add64 (preg p 0x160) 1
    let drop (u : State) : State := (u.bump (preg p 0x168)).unbuffer p v 1
    let note (u : State) (n : Nat) : State := u.portMod p (fun o => { o with rxPart := if last then Map.erase o.rxPart v else Map.set o.rxPart v n })
    if bit f.flg 3 then
      let s := if (Map.get? (s.port p).rxPart v).isSome then s.cutMsg p v else s
      if part.length < 16 then drop s else note (s.beginMsg p v f.own.toNat part last abt) 1
    else match Map.get? (s.port p).rxPart v with
      | none => drop s
      | some n => if 4096 ≤ n then drop (s.cutMsg p v) else note (s.joinMsg p v part last abt) (n + 1)

/-! ### Lanes (R185, R203 to R205) -/

/-- The transmitter sends an LSW slot with a new map and width (R203). -/
def sendLsw (s : State) (p : Nat) (m : Word32) (w : Nat) : State :=
  let n := (s.port p).lsw
  let s := s.nextCtl p true ([0x5A] ++ leBytes 4 m.toNat ++ leBytes 1 w ++ leBytes 1 n)
  ((s.portMod p (fun o => { o with lsw := (n + 1) % 256, txHalf := isHall p && w == 4 })).wr (preg p 0x10C) m).laneStat p
/-- A map of stripe lanes 0 and up onto the lanes given. -/
def lanesMap (ls : List Nat) : Word32 := BitVec.ofNat 32 (ls.foldr (fun x a => 16 * a + x) 0)

/-- The far end has named a lane (R203, R205): its stripe goes onto a lane outside the stripe that is not named, or with none the port goes
to half width on four lanes that are not; a lane named outside the stripe is not used until the port is at full width again (log
entry 69). -/
def leaveStripe (s : State) (p l : Nat) : State :=
  let m := s.rd (preg p 0x10C)
  let n := s.txLanes p
  let out (u : State) : State := u.portMod p (fun o => { o with named := if o.named.contains l then o.named else l :: o.named })
  match laneStripe m n l with
  | none => out s
  | some k =>
    match (List.range 9).find? (fun x => (laneStripe m n x).isNone && !(s.port p).named.contains x) with
    | some x => (s.sendLsw p (setFld m (4 * k + 3) (4 * k) x) n).raise (portPage p) 2
    | none =>
      let ls := (((List.range n).map (mapLane m)).filter (fun x => x != l && !(s.port p).named.contains x)).take 4
      if ls.length < 4 then out s else ((out s).sendLsw p (lanesMap ls) 4).raise (portPage p) 3

/-- Full width again, on eight healthy lanes, unless HALF holds the port (R205, R214). -/
def fullAgain (s : State) (p : Nat) : State :=
  if isHall p && (s.port p).txHalf && !s.rdB (preg p 0x100) 28 && s.portLive p && decide (8 ≤ (s.healthy p).length) then
    (s.portMod p (fun o => { o with named := [] })).sendLsw p (lanesMap ((s.healthy p).take 8)) 8
  else s
/-- HALF written 1 takes a port at full width to half width, on its first four stripe lanes (R214; log entry 73). -/
def halfNow (s : State) (p : Nat) : State :=
  if isHall p && !(s.port p).txHalf && s.rdB (preg p 0x100) 28 && s.portLive p then
    (s.sendLsw p (s.rd (preg p 0x10C) &&& 0xFFFF) 4).raise (portPage p) 3
  else s.fullAgain p

/-- Name to the far end the lanes of the stripe that are not healthy; those outside first, where no spare is healthy, so that none of them is
taken for one (R203, R205; log entry 69). -/
def nameSick (s : State) (p : Nat) (ls : List Nat) : State :=
  if isHall p then
    let outs := if ls.isEmpty || s.spareNow p < 15 then [] else (List.range 9).filter (fun l => !s.inStripe p l && !s.laneWell p l)
    (outs ++ ls).foldl (fun u l => u.nameLane p l) s
  else s
/-- A lane fails (R185, R203, R205): it is named to the far end; a recalibration under way is abandoned, its lane to be checked like a
failed one; with fewer than four healthy lanes the port retrains. -/
def laneFail (s : State) (p l : Nat) : State :=
  let had := s.spareNow p
  let busy := (List.range (laneCount p)).filter (fun x => x != l && 1 ≤ (s.lane p x).recal && (s.lane p x).recal ≤ 2)
  let s := s.laneSet p l { s.lane p l with failed := true, recal := 0 }
  let s := if had < 15 ∧ s.spareNow p = 15 then s.raise (portPage p) 4 else s
  if !s.portLive p then s
  else
    let s := if s.inStripe p l then busy.foldl (fun u x => (u.laneSet p x { u.lane p x with recal := 3 }).nameLane p x) s else s
    if s.portState p = 5 ∧ (s.healthy p).length < 4 then s.retrain p
    else if s.inStripe p l then s.nameSick p [l] else if isHall p then s.nameLane p l else s

/-! ### Frames of a reach port's replay store (R150, R202) -/

/-- The two stacks of a reach port. -/
def reachStacks (p : Nat) : List Nat := if p = 33 then [4, 5] else if p = 35 then [6, 7] else if p = 32 then [8, 9] else [10, 11]
/-- Take the lowest free frames of a stack. -/
def takeReplay (p k : Nat) : Nat → State → State
  | 0, s => s
  | n + 1, s => match s.freeFrame k with
    | some loc => takeReplay p k n (s.framesSet (Map.set s.ms.frames loc ⟨.replay (p - 32), 0x7F, false, false⟩))
    | none => s
/-- Frames of a stack no one holds. -/
def stackFree (s : State) (k : Nat) : Nat :=
  if s.ms.fenced.contains k then 0 else 1568768 - (s.ms.frames.filter (fun f => stackOf f.1 == k)).length
/-- Live frames no quota reserves (R173). -/
def framesUnres (s : State) : Nat :=
  s.liveFrames - (s.ms.own.map (fun p => p.2.dQuota)).sum -
    (s.ms.frames.filter (fun p => match p.2.use with | .replay _ => true | _ => false)).length - (if s.pwr.napArea then 66224 else 0)

/-- Return a reach port's frames. -/
def dropReplay (s : State) (p : Nat) : State :=
  (s.framesSet (s.ms.frames.filter (fun f => f.2.use != .replay (p - 32)))).wr (preg p 0x20C) 0

/-! ### Between HELD and ACTIVE (R209, R210, R218, R221, R443 to R445) -/

/-- Can an encrypting port start a session: a fabric key is active, and the inline engines run (R427, R443)? -/
def encUp (s : State) : Bool := s.kfOn && !s.semStops

/-- A link enters HELD (R209, R445). -/
def enterHeld (s : State) (p : Nat) : State :=
  let r := s.drbgTake 4
  let s := r.2.portMod p (fun o => { o with nonce := BitVec.ofNat 32 (leNat r.1), tagFails := [] })
  let s := (s.linkReset p).portTo p 4
  if (s.port p).encOn && !s.kfOn then (s.setBits R.SEM_ERR 4).raise 0x04 5 else s

/-- ACTIVE entry: credits are advertised, the round trip is measured, and lanes of the stripe that are not healthy are named (R185, R198,
R209). -/
def enterActive (s : State) (p : Nat) : State :=
  let o := s.port p
  let pool := s.portFlits p - o.ded.sum
  let s := (s.portSet p { o with pool := pool }).link_ p ([2, 0, 0, 0] ++ (List.range 8).map (fun v => BitVec.ofNat 8 (o.ded.getD v 0)) ++ leBytes 4 pool)
  let s := s.link_ p ([5, 0, 0, 0] ++ leBytes 8 s.ft.toNat)
  let s := (s.portMod p (fun o => { o with pingAt := some s.ft, ackAt := s.ft })).portTo p 5
  s.nameSick p ((List.range (laneCount p)).filter (fun l => s.inStripe p l && !s.laneWell p l))

/-- May a neighbour stand at a hall port (R221)? -/
def wiringOk (s : State) (p : Nat) (x : Hello) : Bool :=
  let v := s.rd R.FBD_SHAPE
  let ds := (List.range 4).filter (fun d => digit v d s.pkg != digit v d x.pkg)
  x.domain == s.domain && !x.reach && inDomain v x.pkg &&
  (match ds with
   | [d] => bit (s.nbrPorts d (digit v d x.pkg)) p
   | _ => false)

/-- A HELLO is checked (R209, R221): wrong wiring, and ENC that differs, are reported. -/
def helloCheck (s : State) (p : Nat) (x : Hello) : State :=
  let s := if isHall p && s.pkgValid && !s.wiringOk p x then
      (let u := if s.rdB R.FBD_WIRING_PORT 31 then s else s.wr R.FBD_WIRING_PORT (BitVec.ofNat 32 (2 ^ 31 + p))
       (u.setBits R.FBD_ERR 1).raiseAll fbdPages 0) else s
  if x.enc != (s.port p).encOn then (s.setBits (preg p 0x16C) 2).raise (portPage p) 7 else s
/-- May a port in HELD go on (R209, R210, R214, R218, R221)? -/
def mayGo (s : State) (p : Nat) : Bool :=
  s.portState p == 4 && s.released && s.pkgValid && !s.rdB (preg p 0x100) 29 &&
  (match (s.port p).hello with
   | some x => x.enc == (s.port p).encOn && (!isHall p || s.wiringOk p x)
   | none => false)
/-- A port in HELD goes on where it may (R209, R445): in clear to ACTIVE; encrypting, it installs the receive key and says so, and enters
ACTIVE once the far end has. -/
def heldGo (s : State) (p : Nat) : State :=
  if !s.mayGo p then s
  else if !(s.port p).encOn then s.enterActive p
  else if !s.encUp then s
  else
    let s := if (s.port p).rx.on then s
      else (s.portMod p (fun o => { o with rx := { PortKey.none with on := true, since := s.ft } })).link_ p
        ([4, 0, 0, 0] ++ leBytes 4 0 ++ leBytes 4 (s.rd R.SEM_KF_ID).toNat)
    if (s.port p).farReady then
      ((s.portMod p (fun o => { o with tx := { PortKey.none with on := true, since := s.ft } })).wrF (preg p 0x104) 26 26 1).enterActive p
    else s
/-- Every port in HELD is looked at again: at the fabric's release, as VALID is set, when a fabric key becomes active. -/
def heldAll (s : State) (check : Bool) : State :=
  (List.range 36).foldl (fun u p => match (u.port p).hello with
    | some x => if u.portState p = 4 then (if check then u.helloCheck p x else u).heldGo p else u
    | none => u) s

end State
end Sys2Proof.Machine
end

