-- ==== Sys2Proof/Machine/Fabric.lean ====
section
/-! DEFINITION. Chapter 06: the commands of a port: markers, slots, received flits, training, recalibration, keys (R177 to R216, R443 to
R446), and the fences that reach a port. -/
namespace Sys2Proof.Machine
open Sys2Proof

/-- Lanes are lit: the port sends (R209). -/
def State.portSends (s : State) (p : Nat) : Bool := let st := s.portState p; 1 ≤ st && st ≤ 7

/-- PKG_ID_WRITE (R218, R221): while VALID = 0; otherwise ignored, setting ID_ERR. As VALID is set the ports in HELD are looked at again. -/
def execPkgIdWrite (v : Word32) (s : State) : Out := keepQueue s <|
  if s.pkgValid then .next ((s.ignoredWrite R.FBD_PKG_ID).setBits R.FBD_ERR 4)
  else .next ((s.plainWrite R.FBD_PKG_ID v).heldAll true)

/-- AM_TRANSMIT (R182): a marker on every lane of the port, the spare included, in slot 0 of a codeword whose count is a multiple of
20,480. -/
def execAmTransmit (p : Nat) (s : State) : Out := keepQueue s <|
  if p < 36 ∧ s.portSends p = true ∧ s.markerSlot p = true then .next (s.markers p) else .next s

/-- A good marker on a locked lane, `c` its codeword corrected (R183, R187): the stripe lane and the far lane it names are learnt, and a lane
more than 100 ns behind the others fails. -/
def State.markerGood (s : State) (p l skew c : Nat) : State :=
  let k := cwByte c 25 % 16
  let s := if k < (if isHall p then 8 else 4) then s.wr (preg p 0x110) (setFld (s.rd (preg p 0x110)) (4 * k + 3) (4 * k) l) else s
  let s := s.laneSet p l { s.lane p l with lock := .locked 0 ((amCount c + 1) % 65536), lost := false, stripe := k, far := cwByte c 26 }
  if 100 < skew then s.laneFail p l else s
/-- May a lane hunt (R184): in training, or after its lock was lost? -/
def State.mayHunt (s : State) (p l : Nat) : Bool :=
  let st := s.portState p
  st == 2 || st == 3 || st == 6 || ((s.lane p l).lost && (st == 4 || st == 5 || st == 7))

/-- AM_RECEIVED (R183 to R185, R187): the codeword, as received, at the position that lane `l` compares, and the lane's skew in ns behind the
first. In LOCKED the MCOUNT expected rises at every marker position, also where a marker is missed (log entry 75). -/
def execAmReceived (p l skew raw : Nat) (s : State) : Out := keepQueue s <|
  if p < 36 ∧ l < laneCount p then
    let v := s.lane p l
    let clean := amMatch raw && rsLeft raw == 0
    match v.lock with
    | .hunt => .next (if s.mayHunt p l && clean then s.laneSet p l { v with lock := .confirm 1 ((amCount raw + 1) % 65536) } else s)
    | .confirm n mc =>
      .next (if clean && amCount raw == mc then
          (if 3 ≤ n then s.markerGood p l skew raw else s.laneSet p l { v with lock := .confirm (n + 1) ((mc + 1) % 65536) })
        else s.laneSet p l { v with lock := .hunt })
    | .locked n mc =>
      (match (rsDecode raw).filter (fun r => amMatch r.1 && amCount r.1 == mc) with
       | some r => .next (s.markerGood p l skew r.1)
       | none =>
         if 2 ≤ n then .next ((s.laneSet p l { v with lock := .hunt, lost := true }).laneFail p l)
         else .next (s.laneSet p l { v with lock := .locked (n + 1) ((mc + 1) % 65536) }))
  else .next s

/-- LANE_ERROR_WINDOW (R16, R185, R204, R205): the end of a lane's window of 1,024 codewords; `bad`: those of them, as received, whose syndrome
is not clean. -/
def execLaneErrorWindow (p l : Nat) (bad : List Nat) (s : State) : Out := keepQueue s <|
  if p < 36 ∧ l < laneCount p then
    let ds := bad.map rsDecode
    let errs := (ds.filter (·.isNone)).length
    let corr := (ds.map (fun d => match d with | some r => r.2 | none => 0)).sum
    let s := (s.bump (preg p 0x13C) errs).bump (preg p 0x140) corr
    let v := s.lane p l
    let v := { v with corr := satAdd32 v.corr corr, uncorr := satAdd32 v.uncorr errs }
    let s := s.laneSet p l v
    if !s.laneLocked p l || v.recal == 1 || v.recal == 2 then .next s
    else if 4 ≤ errs then (if v.failed then .next s else .next (s.laneFail p l))
    else if v.failed || v.recal == 3 then .next ((s.laneSet p l { v with failed := false, recal := 0 }).fullAgain p)
    else .next s
  else .next s

/-- LSW (R203 to R205): a received lane switch: the new map and width apply from the next slot. The map names the far end's physical lanes;
its markers say on which of this end's each comes (R187). -/
def execLsw (p : Nat) (x : List LaneBlock) (s : State) : Out := keepQueue s <|
  if p < 36 ∧ s.portLive p = true then
    match slotKind (s.rd (preg p 0x110)) (s.rxLanes p) x with
    | .lost => .next (s.bump (preg p 0x138))
    | .flit _ => .next s
    | .control b =>
      if b.getD 0 0 ≠ 0x5A then .next s
      else
        let m : Word32 := BitVec.ofNat 32 (leNat ((b.drop 1).take 4))
        let w := if b.getD 5 0 = 8 then 8 else 4
        let near (f : Nat) : Nat := ((List.range (laneCount p)).find? (fun l => (s.lane p l).far == f)).getD f
        let was := s.rxLanes p
        let had := s.spareNow p
        let s := (s.wr (preg p 0x110) (State.lanesMap ((List.range w).map (fun k => near (mapLane m k))))).portMod p (fun o => { o with rxHalf := isHall p && w == 4 })
        let s := (List.range (laneCount p)).foldl (fun u l =>
          let v := u.lane p l
          if v.recal = 1 ∧ u.inStripe p l = false then u.lanePut p l { v with recal := 2 } else u) s
        let s := s.laneStat p
        let s := if had < 15 ∧ s.spareNow p = 15 ∧ (List.range (laneCount p)).any (fun l => (s.lane p l).failed) then s.raise (portPage p) 4 else s
        .next (if w = 4 ∧ isHall p then s.raise (portPage p) 3 else if was = w then s.raise (portPage p) 2 else s)
  else .next s

/-- LPI (R209): a port in ACTIVE with the package in Doze and nothing to send. -/
def execLpi (p : Nat) (s : State) : Out := keepQueue s <|
  let o := s.port p
  if p < 36 ∧ s.portState p = 5 ∧ s.rdF R.PWR_STAT 31 29 = 2 ∧ o.txQ = [] ∧ o.linkQ = [] ∧ o.half = [] ∧ o.held.any (·.wait) = false then
    .next ((s.nextCtl p false [0x3C]).portTo p 7)
  else .next s

/-- WAKE (R209): a port in LPI with traffic to send. Lanes that failed meanwhile have been named (R185). -/
def execWake (p : Nat) (s : State) : Out := keepQueue s <|
  let o := s.port p
  if p < 36 ∧ s.portState p = 7 ∧ (o.txQ ≠ [] ∨ o.linkQ ≠ []) then
    .next (let u := (s.nextCtl p false [0x99]).portTo p 5
           if (u.healthy p).length < 4 then u.retrain p else u)
  else .next s

/-- The HELLO of this end (R189, R221, R445; log entry 21). -/
def State.helloBytes (s : State) (p : Nat) : List Byte :=
  let o := s.port p
  [1, BitVec.ofNat 8 (if p < 32 then p else p - 32),
    BitVec.ofNat 8 ((if p < 32 then 0 else 1) + (if o.encOn then 2 else 0) + (if s.rdB (preg p 0x104) 25 then 4 else 0)), 0] ++
    leBytes 4 o.nonce.toNat ++ leBytes 2 s.srcField
/-- What goes in a flit slot (R189, R193, R196, R445): a NAK, a flit sent again, a LINK flit, or the choice of R196. In HELD it is LINK or
IDLE; before the key of an encrypting port, no NAK. -/
def State.slotFlit (s : State) (p : Nat) : State :=
  let o := s.port p
  let hello := s.portState p == 4 && s.released && s.pkgValid && !o.helloSent && !s.rdB (preg p 0x100) 29 && (!o.encOn || s.encUp)
  let o : Port := if hello then { o with helloSent := true, linkQ := o.linkQ ++ [padTo 240 (s.helloBytes p)] } else o
  let s := s.portSet p o
  if o.nakDue && (!o.encOn || o.tx.on) then (s.portSet p { o with nakDue := false }).sendFlit p 2 0 0 0x7F 0 []
  else match o.held.find? (·.wait) with
    | some f =>
      (s.portSet p { o with held := o.held.map (fun x => if x.lseq = f.lseq then { x with wait := false } else x) }).sendFlit
        p f.type f.flg f.len f.own f.lseq f.bytes
    | none =>
      match o.linkQ with
      | b :: bs =>
        if o.held.length < s.portFlits p then
          (s.portSet p (State.hold s.ft { o with linkQ := bs } ⟨0, 0, o.txLseq, 3, 0, 0, 0x7F, b, false, []⟩)).sendFlit p 3 0 0 0x7F o.txLseq b
        else s.sendChoice p
      | [] => s.sendChoice p

/-- FLIT_TRANSMIT (R178, R186, R189, R193, R196 to R198, R206, R207, R209, R214, R445): one slot of a port passes. A marker's slot waits for
AM_TRANSMIT; the second half of a flit goes next; in training the slot is a filler, in LPI an LPI block, and in an odd slot at half width or on a
reach port, where no flit starts, a filler (log entry 76). Under LOOP the flit comes back to this port. -/
def execFlitTransmit (p : Nat) (s : State) : Out := keepQueue s <|
  if p < 36 ∧ s.portSends p = true ∧ s.markerSlot p = false then
    let st := s.portState p
    let s := if isHall p then s else (State.reachStacks p).foldl (fun u k => u.evacEnd k) s
    let o := s.port p
    if o.half ≠ [] then .next ((s.portSet p { o with half := [] }).dataSlot p 4 o.half)
    else if st = 7 then .next (s.ctlSlot p false [0x3C])
    else if st ≠ 4 ∧ st ≠ 5 then .next (s.fillSlot p)
    else if s.txLanes p = 4 ∧ o.slot % 2 = 1 then .next (s.fillSlot p)
    else
      let u := s.slotFlit p
      match s.rdB (preg p 0x100) 29, u.outbox.reverse.find? (fun e => match e with | .flit q _ => q == p | _ => false) with
      | true, some (.flit _ f) => .next (if st = 4 ∧ f.type = 0 then (u.rxFlit p f false true).2 else u)
      | _, _ => .next u
  else .next s

/-- DATA (R192, R198, R199, R207, R208): a received DATA flit. -/
def execData (p : Nat) (x : List LaneBlock) (s : State) : Out := keepQueue s <|
  match s.receive p 1 true false x with
  | (some r, u) => .next (u.dataIn p r.1 r.2)
  | (none, u) => .next u

/-- IDLE (R189): a received IDLE flit delivers its ACK and credits. -/
def execIdle (p : Nat) (x : List LaneBlock) (s : State) : Out := keepQueue s <| .next (s.receive p 0 false true x).2

/-- NAK (R193): every held flit from the LSEQ named is sent again. -/
def execNak (p : Nat) (x : List LaneBlock) (s : State) : Out := keepQueue s <|
  match s.receive p 2 false false x with
  | (some r, u) => .next (u.replay p r.1.ack.toNat)
  | (none, u) => .next u

/-- What a HELLO tells (R189; log entry 21). -/
def helloOf (t : List Byte) : Hello :=
  let fl := (t.getD 2 0)
  let src := leNat ((t.drop 8).take 2)
  ⟨src % 4096, src / 4096 % 8, (t.getD 1 0).toNat, bit fl 0, bit fl 1, bit fl 2, BitVec.ofNat 32 (leNat ((t.drop 4).take 4))⟩

/-- HELLO (R209, R210, R221, R443, R445): the neighbour is recorded and checked; a port in HELD goes on where it may. -/
def execHello (p : Nat) (x : List LaneBlock) (s : State) : Out := keepQueue s <|
  match s.linkIn p 1 true x with
  | (none, u) => .next u
  | (some t, u) =>
    if u.portState p ≠ 4 then .next u
    else
      let h := helloOf t
      let u := (u.portMod p (fun o => { o with hello := some h })).wr (preg p 0x11C)
        (BitVec.ofNat 32 (2 ^ 31 + h.port % 32 * 2 ^ 24 + h.reach.toNat * 2 ^ 23 + h.domain % 8 * 2 ^ 20 + h.pkg % 4096))
      .next ((u.helloCheck p h).heldGo p)

/-- CREDIT_INIT (R198): the far buffer's dedicated parts and pool. -/
def execCreditInit (p : Nat) (x : List LaneBlock) (s : State) : Out := keepQueue s <|
  match s.linkIn p 2 false x with
  | (some t, u) => .next (u.portMod p (fun o => { o with
      farDed := (List.range 8).map (fun v => (t.getD (4 + v) 0).toNat), farPool := leNat ((t.drop 12).take 4), outV := [] }))
  | (none, u) => .next u

/-- RECAL_REQ (R203, R205): the lane named leaves the stripe. -/
def execRecalReq (p : Nat) (x : List LaneBlock) (s : State) : Out := keepQueue s <|
  match s.linkIn p 3 false x with
  | (some t, u) => .next (if isHall p then u.leaveStripe p (t.getD 1 0).toNat else u)
  | (none, u) => .next u

/-- KEY_READY (R207, R445, R446): the far end has installed a key: epoch 0 lets the port enter ACTIVE, a later one lets the
transmitter switch; another KF_ID sets KF_MISMATCH. -/
def execKeyReady (p : Nat) (x : List LaneBlock) (s : State) : Out := keepQueue s <|
  match s.linkIn p 4 true x with
  | (none, u) => .next u
  | (some t, u) =>
    let epoch := leNat ((t.drop 4).take 4)
    let o := u.port p
    if BitVec.ofNat 32 (leNat ((t.drop 8).take 4)) ≠ u.rd R.SEM_KF_ID then .next ((u.setBits R.SEM_ERR 8).raise 0x04 7)
    else if u.portState p = 4 ∧ epoch = 0 ∧ o.encOn = true then .next ((u.portSet p { o with farReady := true }).heldGo p)
    else if u.portState p = 5 ∧ epoch = o.tx.epoch + 1 then .next (u.portSet p { o with tx := { o.tx with nextReady := true } })
    else .next u

/-- RTT_PING (R189): answered with RTT_ECHO. -/
def execRttPing (p : Nat) (x : List LaneBlock) (s : State) : Out := keepQueue s <|
  match s.linkIn p 5 false x with
  | (some t, u) => .next (u.link_ p ([6, 0, 0, 0] ++ (t.drop 4).take 8))
  | (none, u) => .next u

/-- RTT_ECHO (R200, R215): the round trip in ns, and on a reach port the fibre length it means. -/
def execRttEcho (p : Nat) (x : List LaneBlock) (s : State) : Out := keepQueue s <|
  match s.linkIn p 6 false x with
  | (some _, u) =>
    (match (u.port p).pingAt with
     | some t =>
       let ns := (u.ft - t).toNat / 4
       let u := (u.portMod p (fun o => { o with pingAt := none })).wrF (preg p 0x128) 23 0 ns
       .next (if isHall p then u else u.wrF (preg p 0x210) 15 0 ((ns - 24000) / 980))
     | none => .next u)
  | (none, u) => .next u

/-- REPLAY_TIMEOUT (R193): ACK has not advanced for REPLAY_TMO while flits are held. -/
def execReplayTimeout (p : Nat) (s : State) : Out := keepQueue s <|
  let o := s.port p
  match o.held with
  | f :: _ =>
    if o.ackAt.toNat + s.rdF (preg p 0x12C) 23 0 * 4 ≤ s.ft.toNat ∧ (s.portState p = 4 ∨ s.portState p = 5) then .next (s.replay p f.lseq)
    else .next s
  | [] => .next s

/-- NAK_HOLDOFF_EXPIRY (R192): another NAK may be sent. -/
def execNakHoldoffExpiry (p : Nat) (s : State) : Out := keepQueue s <| .next (s.portMod p (fun o => { o with nakSent := false }))

/-- A port begins to send (R181, R209): its lanes' scramblers start anywhere, its lane counters go on. -/
def State.portStart (s : State) (p : Nat) : State :=
  let old := (s.port p).lanes
  let s := (s.portSet p { Port.none with autoAt := s.ft }).wr (preg p 0x10C) (if isHall p then 0x76543210 else 0x3210)
  let s := s.wr (preg p 0x110) (if isHall p then 0x76543210 else 0x3210)
  ((List.range (laneCount p)).foldl (fun u l =>
    let v := Map.get old Lane.none l
    (u.lanePut p l { Lane.none with corr := v.corr, uncorr := v.uncorr, scr := u.free.toNat % 2 ^ 58 }).used) s).laneStat p

/-- PORT_ENABLE (R202, R209, R214): a write of HPT_CTL or XPT_CTL with EN = 1. -/
def execPortEnable (p : Nat) (v : Word32) (s : State) : Out := keepQueue s <|
  if p < 36 ∧ bit v 31 = true then
    if s.portState p ≠ 0 then .next ((s.plainWrite (preg p 0x100) v).halfNow p)
    else if isHall p then .next (((s.plainWrite (preg p 0x100) v).portStart p).portTo p 1)
    else if s.framesUnres < 2048 ∨ (State.reachStacks p).any (fun k => s.stackFree k < 1024) then
      .next (((s.plainWrite (preg p 0x100) (v &&& 0x7FFFFFFF#32)).setBits (preg p 0x16C) 8))
    else
      let s := (State.reachStacks p).foldl (fun u k => State.takeReplay p k 1024 u) (s.plainWrite (preg p 0x100) v)
      .next (((s.wr (preg p 0x20C) 2048).portStart p).portTo p 1)
  else .next s

/-- PORT_DISABLE (R202, R209): a write with EN = 0 takes the port to OFF. -/
def execPortDisable (p : Nat) (v : Word32) (s : State) : Out := keepQueue s <|
  if p < 36 ∧ bit v 31 = false then
    let s := ((s.plainWrite (preg p 0x100) v).linkReset p).portTo p 0
    .next (if isHall p then s else s.dropReplay p)
  else .next s

/-- SIGNAL_DETECT (R209, R212): signal on every lane needed; an optic not on the list keeps the port in DETECT. -/
def execSignalDetect (p : Nat) (s : State) : Out := keepQueue s <|
  if p < 36 ∧ s.portState p = 1 then
    if isHall p || s.rdB (preg p 0x200) 30 then .next ((s.lanesTrain p true).portTo p 2)
    else .next (s.setBits (preg p 0x16C) 16)
  else .next s

/-- TRAIN_CONVERGED (R198, R209, R214): the equalisers have converged; the ENC and the dedicated parts of this training hold from here. -/
def execTrainConverged (p : Nat) (s : State) : Out := keepQueue s <|
  if p < 36 ∧ (s.portState p = 2 ∨ s.portState p = 6) then
    .next ((s.portMod p (fun o => { o with
      cold := 0, stored := true, encOn := s.rdB (preg p 0x100) 30, ded := (List.range 8).map (s.dedReg p) })).portTo p 3)
  else .next s

/-- TRAIN_TIMEOUT (R209): not converged in 100 ms: back to DETECT, DOWN at the third cold failure; stored settings that fail
lead to a cold training. -/
def execTrainTimeout (p : Nat) (s : State) : Out := keepQueue s <|
  if p < 36 ∧ s.portState p = 6 then .next (((s.portMod p (fun o => { o with stored := false })).lanesTrain p true).portTo p 2)
  else if p < 36 ∧ s.portState p = 2 then
    let n := (s.port p).cold + 1
    let s := s.portMod p (fun o => { o with cold := n })
    .next (if 3 ≤ n then (s.portTo p 9).raise (portPage p) 0 else s.portTo p 1)
  else .next s

/-- The width a training ends with (R205, R214): HALF holds the transmitter at half width; the receiver goes by the stripe lanes its markers
name (R187). A full map replaces one of half width. -/
def State.widthSet (s : State) (p : Nat) : State :=
  let tx := isHall p && s.rdB (preg p 0x100) 28
  let rx := isHall p && !(List.range 9).any (fun l => s.laneLocked p l && decide (4 ≤ (s.lane p l).stripe) && decide ((s.lane p l).stripe < 8))
  let s := if (s.port p).txHalf && !tx then s.wr (preg p 0x10C) 0x76543210 else s
  (s.portMod p (fun o => { o with txHalf := tx, rxHalf := rx, named := [] })).laneStat p

/-- ALIGN_DONE (R209, R443, R445): the lanes needed are locked and deskewed: HELD. -/
def execAlignDone (p : Nat) (s : State) : Out := keepQueue s <|
  let lk := (List.range (laneCount p)).filter (s.laneLocked p)
  let need := if isHall p && !s.rdB (preg p 0x100) 28 then 8 else 4
  if p < 36 ∧ s.portState p = 3 ∧ need ≤ lk.length then .next ((s.widthSet p).enterHeld p) else .next s

/-- ALIGN_TIMEOUT (R209). -/
def execAlignTimeout (p : Nat) (s : State) : Out := keepQueue s <|
  if p < 36 ∧ s.portState p = 3 then .next (s.portTo p 2) else .next s

/-- RETRAIN (R194, R209, R213): a write of RETRAIN, from ACTIVE, LPI or HELD (log entry 20). -/
def execRetrain (p : Nat) (s : State) : Out := keepQueue s <|
  if p < 36 then
    let s := s.countWrite (portPage p) false
    .next (if s.portState p = 5 ∨ s.portState p = 7 ∨ s.portState p = 4 then s.retrain p else s)
  else .next s

/-- FULL_TRAIN (R209, R213): a cold training. -/
def execFullTrain (p : Nat) (s : State) : Out := keepQueue s <|
  if p < 36 then
    let s := s.countWrite (portPage p) false
    let st := s.portState p
    .next (if 4 ≤ st ∧ st ≤ 9 ∧ st ≠ 8 then
      ((((if st = 5 ∨ st = 7 then s.bump (preg p 0x134) else s).linkReset p).portMod p (fun o => { o with cold := 0, stored := false })).lanesTrain p true).portTo p 2
      else s)
  else .next s

/-- Ask for the recalibration of a lane (R204). -/
def State.recal (s : State) (p l : Nat) : State :=
  (s.laneSet p l { s.lane p l with recal := 1 }).nameLane p l
/-- May a lane be recalibrated (R204)? -/
def State.recalOk (s : State) (p l : Nat) : Bool :=
  isHall p && s.portState p == 5 && l < 9 && decide (s.spareNow p < 15) && s.spareNow p != l && s.laneWell p l

/-- RECAL (R204, R213, R215): recalibrates the lane selected, or sets CMD_ERR. -/
def execRecal (p : Nat) (s : State) : Out := keepQueue s <|
  if p < 36 then
    let s := s.countWrite (portPage p) false
    let l := s.rdF (preg p 0x118) 3 0
    .next (if s.recalOk p l then s.recal p l else (s.setBits (preg p 0x16C) 1).raise (portPage p) 6)
  else .next s

/-- RECAL_AUTO (R204, R213): every PERIOD seconds the next lane in turn, skipped while no spare is healthy. -/
def execRecalAuto (p : Nat) (s : State) : Out := keepQueue s <|
  if p < 32 ∧ s.rdB (preg p 0x118) 31 = true ∧
      (s.port p).autoAt.toNat + s.rdF (preg p 0x118) 30 16 * 4000000000 ≤ s.ft.toNat then
    let l := (s.port p).autoLane
    let s := s.portMod p (fun o => { o with autoLane := (l + 1) % 9, autoAt := s.ft })
    .next (if s.recalOk p l then s.recal p l else s)
  else .next s

/-- RECAL_ADAPT_DONE (R204): adaptation ends and the check of 1,024 codewords begins. -/
def execRecalAdaptDone (p l : Nat) (s : State) : Out := keepQueue s <|
  if p < 32 ∧ (s.lane p l).recal = 2 then .next (s.laneSet p l { s.lane p l with recal := 3 }) else .next s

/-- OLD_KEY_DROP (R207, R446): 1 ms after the first flit under the key in use the old one is dropped and the next epoch's key
installed, which KEY_READY tells. -/
def execOldKeyDrop (p : Nat) (s : State) : Out := keepQueue s <|
  let k := (s.port p).rx
  if p < 36 ∧ k.on = true ∧ k.nextReady = false ∧ k.since.toNat + 4000000 ≤ s.ft.toNat then
    .next ((s.portMod p (fun o => { o with rx := { o.rx with oldKept := false, nextReady := true } })).link_ p
      ([4, BitVec.ofNat 8 (!k.kph).toNat, 0, 0] ++ leBytes 4 (k.epoch + 1) ++ leBytes 4 (s.rd R.SEM_KF_ID).toNat))
  else .next s

/-- KEY_ROTATION_DUE (R446): ROT_PERIOD has passed, CTR has reached 2^47, or another KF is active. -/
def execKeyRotationDue (p : Nat) (newKf : Bool) (s : State) : Out := keepQueue s <|
  let k := (s.port p).tx
  let rot := s.rdF R.SEM_CTL 15 0
  if p < 36 ∧ k.on = true ∧ (2 ^ 47 ≤ k.ctr ∨ newKf = true ∨ (rot ≠ 0 ∧ k.since.toNat + rot * 4000000000 ≤ s.ft.toNat)) then
    .next (s.portMod p (fun o => { o with tx := { o.tx with due := true } }))
  else .next s

/-- The messages that came by a reach port with flits in the half of its buffer that a stack held: of the flits that stand there, oldest
first, the first 262,144 lie in the first half (R201; log entry 71). -/
def State.halfLost (s : State) (p k : Nat) : List Nat :=
  let l := (s.router.filter (fun r => r.2.inPort == p && r.2.flits != 0))
  (l.foldl (fun (a : Nat × List Nat) r =>
    let e := a.1 + r.2.flits
    (e, if (if k % 2 = 0 then a.1 < 262144 else 262144 < e) then r.1 :: a.2 else a.2)) (0, [])).2
/-- Fence a stack at once (R164, R201): messages with flits in a reach port's half there are discarded, and the port retrains. -/
def State.fenceAtOnce (s : State) (k : Nat) : State :=
  if s.ms.fenced.contains k then s
  else
    let s := s.fenceNow k
    match State.portOfStack k with
    | some p =>
      let st := s.portState p
      if st = 4 ∨ st = 5 ∨ st = 7 then
        (let bad := s.halfLost p k
         ({ s with router := s.router.filter (fun r => !bad.contains r.1) } : State).retrain p)
      else s
    | none => s

/-- IMMEDIATE (R164): a write of IMMEDIATE to DRP_FENCE_CMD. -/
def execImmediate (k : Nat) (s : State) : Out := keepQueue s <|
  if k < 12 then .next ((s.countWrite (0xD8 + k) false).fenceAtOnce k) else .next s

/-- MPD_FAULT (R164, R476): both stacks of the MPD are fenced immediately. Its RLE's work goes to the others: pieces are
taken by whichever RLE is live. -/
def execMpdFault (m : Nat) (s : State) : Out := keepQueue s <|
  if m < 6 then .next (((s.fenceAtOnce (2 * m)).fenceAtOnce (2 * m + 1)).errLatch (0xD0 + m) 2 0) else .next s

end Sys2Proof.Machine
end

