-- ==== Sys2Proof/Machine/MeshLinks.lean ====
section
/-! DEFINITION. Chapter 01: the end of a mesh link's re-mapping (R28, R29). -/
namespace Sys2Proof.Machine
open Sys2Proof

/-- A message reaches its die. -/
def State.meshArrive (s : State) (m : MeshMsg) : State :=
  match m.body with
  | .report h u busy => s.partReported h u busy
  | .access x e => s.mpdServe x e
/-- The messages held go on in the order they were sent, but for those whose way is still held, and those of their class between the same
dies behind them (R28). -/
def State.meshGo (s : State) : State :=
  s.meshQ.foldl (fun u m => if u.meshWaits m.cls m.src m.dst then u.meshPut m else u.meshArrive m) { s with meshQ := [] }

/-- MESH_LINK_REMAP (R28, R29): the router has re-mapped the drained link, and traffic resumes. -/
def execMeshLinkRemap (die edge : Nat) (s : State) : Out := keepQueue s <|
  match State.linkKey die edge with
  | none => .next s
  | some k => .next (({ s with mesh := Map.set s.mesh k { s.link k with draining := false } } : State).meshGo)

end Sys2Proof.Machine
end

