-- ==== Sys2Proof/Machine/CommitBlock.lean ====
section
/-! DEFINITION. Chapter 11: the commit block, and how a COMMIT moves it (R336 to R340). Its rounds are collectives
(Sys2Proof.Machine.Collectives). -/
namespace Sys2Proof.Machine
open Sys2Proof

/-- States of a commit block (R336). -/
def cbIdle : Nat := 0
/-- SWEPT. -/
def cbSwept : Nat := 1
/-- VOTED. -/
def cbVoted : Nat := 2
/-- DECIDED. -/
def cbDecided : Nat := 3
/-- ACKED. -/
def cbAcked : Nat := 4
/-- DOUBT_V. -/
def cbDoubtV : Nat := 5
/-- DOUBT_D. -/
def cbDoubtD : Nat := 6

/-- The MFU page of the cluster a record's first core lies in (R348). -/
def mfuOf (c : CmdRec) : Nat := CmdRecF.firstCore c / 6

namespace State

/-- A field of a commit block. -/
def cbGet (s : State) (cb off n : Nat) : Nat := leNat (s.bytesAt (cb + off) n)
/-- Write a field of a commit block. -/
def cbSet (s : State) (who cb off n v : Nat) : State := (s.writeRange who none (cb + off) (leBytes n v)).1
/-- STATE. -/
def cbState (s : State) (cb : Nat) : Nat := s.cbGet cb 0x14 1
/-- Set STATE. -/
def cbTo (s : State) (who cb st : Nat) : State := s.cbSet who cb 0x14 1 st
/-- A bit of FLAGS: 0 NONFINITE, 1 DURABLE, 7 BUSY. -/
def cbFlag (s : State) (cb i : Nat) : Bool := (s.cbGet cb 0x15 1).testBit i
/-- Set or clear a bit of FLAGS. -/
def cbFlagSet (s : State) (who cb i : Nat) (v : Bool) : State :=
  let f := s.cbGet cb 0x15 1
  s.cbSet who cb 0x15 1 (if v then f ||| 2 ^ i else f - (if f.testBit i then 2 ^ i else 0))
/-- COMMITTED. -/
def cbCommitted (s : State) (cb : Nat) : Nat := s.cbGet cb 0 8
/-- PENDING. -/
def cbPending (s : State) (cb : Nat) : Nat := s.cbGet cb 8 8
/-- FOLDED. -/
def cbFolded (s : State) (cb : Nat) : Nat := s.cbGet cb 0x18 8
/-- VERSION advances by one (R338, R347). -/
def cbNextVersion (s : State) (who cb : Nat) : State := s.cbSet who cb 0x10 4 (s.cbGet cb 0x10 4 + 1)

/-- An operator sets BUSY for as long as it runs (R336). -/
def cbTake (s : State) (h who cb next : Nat) : State :=
  let s := s.cbFlagSet who cb 7 true
  { s with busyCb := Map.set s.busyCb h (cb, next) }

/-- Record the outcome of a COMMIT and the RESOLVE maximum for its item (R341). -/
def commitOutcome (s : State) (h outcome mx : Nat) : State :=
  match s.op? h with
  | some o => s.opSet h { o with tdata := BitVec.ofNat 64 (outcome * 256 + mx * 65536) }
  | none => s

/-- The ACKED action of R338. -/
def commitAck (s : State) (h who : Nat) (r : CommitRun) : State :=
  let s := s.cbSet who r.cb 0 8 r.t
  let s := s.cbSet who r.cb 8 8 0
  let s := (s.cbNextVersion who r.cb).cbFlagSet who r.cb 1 false
  let s := s.cbTo who r.cb cbAcked
  match s.op? h with
  | some o => s.bump (R.MFU_COMMIT_CNT (mfuOf o.cmd))
  | none => s

/-- A rollback: PENDING 0, STATE IDLE, ROLLED_BACK or the EPOCH code the COMMIT had earned (R337 to R339). -/
def commitRoll (s : State) (h who : Nat) (r : CommitRun) (detail : Nat) : State :=
  let s := if r.moves || r.resolve then (s.cbSet who r.cb 8 8 0).cbTo who r.cb cbIdle else s
  if r.err ≠ 0 then s.opDone h 0x16 r.err
  else
    let s := s.commitOutcome h 2 0
    match s.op? h with
    | some o => ((s.bump (R.MFU_ROLLBACK_CNT (mfuOf o.cmd))).raise (0x180 + mfuOf o.cmd) 1).opDone h 0x12 detail
    | none => s

/-- A round's collective ended with a CODE other than OK, which the operator has already taken (R338, R339): in doubt. -/
def commitFail (s : State) (h : Nat) : State :=
  match Map.get? s.commits h, s.op? h with
  | some r, some o =>
    let s : State := { s with commits := Map.erase s.commits h }
    let s := if r.moves && !r.resolve then s.cbTo o.tenant r.cb (if r.round = 0 then cbDoubtV else cbDoubtD) else s
    let d := s.cbState r.cb
    if d = cbDoubtV ∨ d = cbDoubtD then
      ((s.commitOutcome h 3 0).bump (R.MFU_DOUBT_CNT (mfuOf o.cmd))).raise (0x180 + mfuOf o.cmd) 2
    else s
  | _, _ => s

end State
end Sys2Proof.Machine
end

