-- ==== Sys2Proof/Machine/Collectives.lean ====
section
/-! DEFINITION. Chapter 08: the collective operators and the flocks they run on (R249 to R271, R275). -/
namespace Sys2Proof.Machine
open Sys2Proof

/-! ### Chunks, segments and send lists (R256, R257) -/

/-- An entry of a send list: step, chunk index, and whether it belongs to an all-gather. -/
structure SendEnt where
  step : Nat
  idx : Nat
  ag : Bool
deriving DecidableEq, Repr

namespace Coll
/-- Chunks of a collective. -/
def nchunk (c : Coll) : Nat := (c.nelem + c.chunkElem - 1) / c.chunkElem
/-- First chunk of a segment. -/
def segLo (c : Coll) (i : Nat) : Nat := i * c.nchunk / c.n
/-- Chunks of a segment. -/
def seg (c : Coll) (i : Nat) : List Nat := List.range' (c.segLo i) (c.segLo (i + 1) - c.segLo i)
/-- First element of a chunk. -/
def lo (c : Coll) (j : Nat) : Nat := j * c.chunkElem
/-- Elements of a chunk. -/
def len (c : Coll) (j : Nat) : Nat := min c.chunkElem (c.nelem - c.lo j)
/-- Elements of a segment. -/
def segElems (c : Coll) (i : Nat) : Nat := ((c.seg i).map c.len).sum
/-- The reduce-scatter list of position `p`. -/
def rsList (c : Coll) (p : Nat) : List SendEnt :=
  (List.range (c.n - 1)).flatMap (fun t => (c.seg ((p + 2 * c.n - 1 - t) % c.n)).map (fun j => ⟨t, j, false⟩))
/-- The all-gather list of position `p`, its steps counted from `off`. -/
def agList (c : Coll) (p off : Nat) : List SendEnt :=
  (List.range (c.n - 1)).flatMap (fun t => (c.seg ((p + c.n - t) % c.n)).map (fun j => ⟨t + off, j, true⟩))
/-- The send list of position `p`. -/
def sendList (c : Coll) (p : Nat) : List SendEnt :=
  let all := (List.range c.nchunk).map (fun j => (⟨0, j, false⟩ : SendEnt))
  match c.opcode with
  | 0x0600 => c.rsList p
  | 0x0601 => c.agList p 0
  | 0x0602 => c.rsList p ++ c.agList p (c.n - 1)
  | 0x0603 => if (p + 1) % c.n = c.root then [] else all
  | _ => if p = c.root then all else []
/-- What this member sends. -/
def sends (c : Coll) : List SendEnt := c.sendList c.pos
/-- What it receives: its predecessor's list. -/
def recvs (c : Coll) : List SendEnt := c.sendList ((c.pos + c.n - 1) % c.n)
/-- Does the collective reduce? -/
def reduces (c : Coll) : Bool := c.opcode == 0x0600 || c.opcode == 0x0602
/-- The entry of the send list that forwards a received chunk (R257). -/
def fwdOf (c : Coll) (e : SendEnt) : Option Nat :=
  if c.opcode = 0x0603 then c.sends.findIdx? (fun x => x.idx == e.idx)
  else if 0x0603 < c.opcode then none
  else c.sends.findIdx? (fun x => x.ag == e.ag && x.step == e.step + 1 && x.idx == e.idx)
/-- Format code of the data of an entry: in the all-gather of ALL_REDUCE the output's (R257). -/
def fmtAt (c : Coll) (ag : Bool) : Nat :=
  if ag && c.opcode == 0x0602 then (match c.output with | some d => SD.src d | none => c.wire) else c.wire
/-- Element of the output that element `e` of the collective is (R256). -/
def outElem (c : Coll) (e : Nat) : Nat := if c.opcode = 0x0600 then e - c.lo (c.segLo c.pos) else e
/-- Element of the input that element `e` of the collective is (R256). -/
def inElem (c : Coll) (e : Nat) : Nat := if c.opcode = 0x0601 then e - c.lo (c.segLo c.pos) else e
/-- What to acknowledge (R259). -/
def ackNo (c : Coll) : Nat := if c.recvs.length ≤ c.exp then 0xFFFFFFFF else c.exp
end Coll

/-! ### Data of chunks (R255, R256, R258) -/

/-- Data bytes of `n` elements of a format: a block format in whole groups (R255). -/
def dataBytes (code n : Nat) : Nat := (n + strmElemK code - 1) / strmElemK code * strmElemBytes code
/-- Chunk data from codes and the scale bytes of runs of 32, padded with +0 (R256, R258). -/
def packCodes (code : Nat) (codes scales : List Nat) : List Byte :=
  let f := (fmtOf code).getD .int8
  let k := strmElemK code
  let m := (codes.length + k - 1) / k
  let cs := codes ++ List.replicate (m * k - codes.length) 0
  let sc := scales ++ List.replicate (m * 32 - scales.length) (scaleByte f (-127))
  (List.range m).flatMap (fun i => State.elemBytes f ((sc.drop (32 * i)).take 32) ((cs.drop (k * i)).take k))
/-- Scale bytes and codes of `n` elements of chunk data. -/
def unpackCodes (code n : Nat) (bs : List Byte) : List (Nat × Nat) :=
  let b := strmElemBytes code
  ((List.range (bs.length / b)).flatMap (fun i => elemPairs ((fmtOf code).getD .int8) ((bs.drop (b * i)).take b))).take n
/-- Scale bytes of the runs of 32 of a list of codes. -/
def runScales (l : List (Nat × Nat)) : List Nat := (List.range ((l.length + 31) / 32)).map (fun i => (l.getD (32 * i) (0, 0)).1)
/-- Their numbers. -/
def codeNums (code : Nat) (l : List (Nat × Nat)) : List XNum := l.map (fun p => ((fmtOf code).getD .int8).scaled p.1 p.2)
/-- Cast numbers from one format to another with RNE (R42, R45 to R47, R255): codes, scale bytes of the runs of 32, flags. A
last run that is not whole is completed with +0. -/
def castRne (src dst : Fmt) (sat : Bool) (xs : List XNum) : List Nat × List Nat × NumFlags :=
  let vs := xs.map (castVia src dst sat)
  let fl := orFlags (vs.map (·.2))
  if dst.isBlock then
    let ys := vs.map (·.1) ++ List.replicate ((32 - xs.length % 32) % 32) XNum.zero
    let q := State.castBlocks dst (List.replicate ys.length .rne) ys
    (q.1, q.2.1, fl ||| q.2.2)
  else
    let cs := vs.map (fun v => castEnd src dst .rne sat v.1)
    (cs.map (·.1), [], fl ||| orFlags (cs.map (·.2)))
/-- Combine (R258): SUM, MAX or MIN. -/
def redOp (red : Nat) (a b : XNum) : XNum × NumFlags :=
  match red with
  | 1 => (XNum.maximum a b, fNone)
  | 2 => (XNum.minimum a b, fNone)
  | _ => vAdd a b
/-- Apply an operation element by element, collecting flags. -/
def zipFlags (op : XNum → XNum → XNum × NumFlags) (a b : List XNum) : List XNum × NumFlags :=
  let r := List.zipWith op a b
  (r.map (·.1), orFlags (r.map (·.2)))
/-- FP32 values as bytes. -/
def f32Bytes (xs : List XNum) : List Byte := xs.flatMap (fun x => leBytes 4 (f32Code x))

/-- The tensor a checked descriptor names (R109). -/
def tensorOf (d : StreamDesc) : Tensor :=
  ⟨d, (fmtOf (SD.src d)).getD .int8, SD.src d == 14, SD.elems d / SD.count d.dim0, SD.count d.dim0 * strmElemK (SD.src d)⟩

namespace State

/-- Bytes whose value is undefined: free values, where the range holds any (log entry 3). -/
def openRange (s : State) (a n : Nat) : State :=
  (List.range n).foldl (fun u i =>
    match (u.tile ((a + i) / tileBytes)).st with
    | .unalloc => u | .lost => u | .away => u
    | _ => (u.store (a + i) [u.free.setWidth 8]).used) s
/-- A tensor whose contents are undefined. -/
def openTensor (s : State) (d : StreamDesc) : State :=
  (s.elemAddrs d).foldl (fun u a => u.openRange a.toNat (strmElemBytes (SD.src d))) s

/-- Scale bytes and codes of `n` elements of a tensor from element `lo` on. -/
def codesAt (s : State) (d : StreamDesc) (lo n : Nat) : List (Nat × Nat) :=
  let k := strmElemK (SD.src d)
  let as_ := ((s.elemAddrs d).drop (lo / k)).take ((lo % k + n + k - 1) / k)
  ((as_.flatMap (fun a => elemPairs ((fmtOf (SD.src d)).getD .int8) (s.bytesAt a.toNat (strmElemBytes (SD.src d))))).drop (lo % k)).take n

/-- The writes that put `n` elements into a tensor from element `lo` on; padding is not written (R256). -/
def putPieces (s : State) (d : StreamDesc) (lo n : Nat) (codes scales : List Nat) : List (Int × List Byte) :=
  let f := (fmtOf (SD.src d)).getD .int8
  let k := strmElemK (SD.src d)
  let as_ := s.elemAddrs d
  if f.isBlock then
    (List.range (n / 32)).flatMap (fun r =>
      let e := lo + 32 * r
      let a := as_.getD (e / 1024) 0
      let b := e % 1024 / 32
      [(a + b, [BitVec.ofNat 8 (scales.getD r 0)]),
       (a + 32 + (b * 32 * f.ebits / 8 : Nat), elemBytes f [] ((codes.drop (32 * r)).take 32))])
  else
    (List.range ((n + k - 1) / k)).map (fun i => (as_.getD (lo / k + i) 0, elemBytes f [] ((codes.drop (k * i)).take k)))

/-- Write `n` elements of an operator's output from element `lo` on. -/
def putAt (s : State) (h who : Nat) (bad : Bool) (d : StreamDesc) (lo n : Nat) (codes scales : List Nat) : Except Err State :=
  putAll h who bad (.ok s) (s.putPieces d lo n codes scales)

/-- Write chunk elements, held in format `code`, into the output, with the cast of R255; poisoned where `bad` (R472). -/
def outPut (s : State) (c : Coll) (bad : Bool) (code e0 : Nat) (l : List (Nat × Nat)) : Except Err State :=
  match c.output with
  | none => .ok s
  | some d =>
    let who := (s.op? c.op).map (·.tenant) |>.getD 0
    if SD.src d = code then s.putAt c.op who bad d (c.outElem e0) l.length (l.map (·.2)) (runScales l)
    else
      let q := castRne ((fmtOf code).getD .int8) ((fmtOf (SD.src d)).getD .int8) c.sat (codeNums code l)
      (s.putAt c.op who bad d (c.outElem e0) l.length q.1 q.2.1).map (fun u => u.opFlags c.op q.2.2)

/-- Is any of `n` elements of a tensor from element `lo` on poisoned? -/
def elemsBad (s : State) (d : Option StreamDesc) (lo n : Nat) : Bool :=
  match d with
  | some d =>
    let k := strmElemK (SD.src d)
    (((s.elemAddrs d).drop (lo / k)).take ((lo % k + n + k - 1) / k)).any (fun a => s.anyPoison a.toNat (strmElemBytes (SD.src d)))
  | none => false
/-- Is a member's own contribution to chunk `j` poisoned (R472)? -/
def ownBad (s : State) (c : Coll) (j : Nat) : Bool :=
  s.elemsBad c.input (c.inElem (c.lo j)) (c.len j) || (c.carryIn != 0 && s.anyPoison (c.carryIn + 4 * c.lo j) (4 * c.len j))
/-- A member's own contribution to chunk `j` (R258). -/
def ownPart (s : State) (c : Coll) (j : Nat) : List XNum × NumFlags :=
  let xs := match c.input with
    | some d => codeNums (SD.src d) (s.codesAt d (c.lo j) (c.len j))
    | none => []
  let a := zipFlags vMul xs (List.replicate xs.length (f32 c.scaleIn))
  let a := (a.1, a.2 ||| niOf (f32 c.scaleIn :: xs))
  if c.carryIn = 0 then a
  else
    let bs := s.bytesAt (c.carryIn + 4 * c.lo j) (4 * c.len j)
    let ys := (List.range (c.len j)).map (f32At bs ∘ (4 * ·))
    let b := zipFlags vAdd a.1 ys
    (b.1, a.2 ||| b.2 ||| niOf ys)

/-- NI for elements of the input that are taken over as they are (R67). -/
def inputNi (s : State) (c : Coll) (lo n : Nat) : NumFlags :=
  match c.input with
  | some d => if SD.src d = 14 then fNone else niOf (codeNums (SD.src d) (s.codesAt d lo n))
  | none => fNone

/-- The received chunk an entry of the send list forwards, where the window holds it. -/
def rxFor (c : Coll) (e : SendEnt) : Option Chunk :=
  let st := if c.opcode = 0x0603 then e.step else e.step - 1
  (c.rx.find? (fun r => r.c.ag == e.ag && r.c.step == st && r.c.idx == e.idx)).map (·.c)

/-- Data of an entry of the send list once it can be computed, with what it writes to CARRY_OUT, its flags and the elements
combined (R257, R258). -/
def chunkData (s : State) (c : Coll) (e : SendEnt) : Option (List Byte × List Byte × NumFlags × Nat) :=
  let n := c.len e.idx
  let own (lo : Nat) (d : Option StreamDesc) : List Byte :=
    match d with
    | some d => let l := s.codesAt d lo n; packCodes (SD.src d) (l.map (·.2)) (runScales l)
    | none => []
  let rs (v : List XNum) (fl : NumFlags) (k : Nat) : List Byte × List Byte × NumFlags × Nat :=
    let f := (fmtOf c.wire).getD .int8
    let q := castRne (.fp .fp32) f c.sat v
    let w := packCodes c.wire q.1 q.2.1
    if c.carryOut = 0 then (w, [], fl ||| q.2.2, k)
    else
      let z := zipFlags vSub v (codeNums c.wire (unpackCodes c.wire n w))
      (w, f32Bytes z.1, fl ||| q.2.2 ||| z.2, k)
  if c.reduces && !e.ag then
    let o := s.ownPart c e.idx
    if e.step = 0 then some (rs o.1 o.2 0)
    else match rxFor c e with
      | none => none
      | some r =>
        let v := zipFlags (redOp c.red) (codeNums c.wire (unpackCodes c.wire n r.data)) o.1
        some (rs v.1 (o.2 ||| v.2) n)
  else if c.opcode = 0x0602 ∧ e.step = c.n - 1 then
    -- its own result, once the last step of the reduce-scatter has brought this chunk and the result is visible
    match c.recvs.findIdx? (fun x => !x.ag && x.step == c.n - 2 && x.idx == e.idx) with
    | some i => if i < c.exp && !s.opWaits c.op then some (own (c.outElem (c.lo e.idx)) c.output, [], fNone, 0) else none
    | none => none
  else if (e.ag && e.step == 0) || (0x0603 ≤ c.opcode && c.pos == c.root) then
    some (own (c.inElem (c.lo e.idx)) c.input, [], s.inputNi c (c.inElem (c.lo e.idx)) n, 0)
  else (rxFor c e).map (fun r => (r.data, [], fNone, 0))

/-- Does the chunk of an entry of the send list carry the poison marker (R472)? -/
def chunkBad (s : State) (c : Coll) (e : SendEnt) : Bool :=
  let rx := (rxFor c e).any (·.bad)
  if c.reduces && !e.ag then s.ownBad c e.idx || (e.step != 0 && rx)
  else if c.opcode = 0x0602 ∧ e.step = c.n - 1 then s.elemsBad c.output (c.outElem (c.lo e.idx)) (c.len e.idx)
  else if (e.ag && e.step == 0) || (0x0603 ≤ c.opcode && c.pos == c.root) then s.elemsBad c.input (c.inElem (c.lo e.idx)) (c.len e.idx)
  else rx

/-! ### Ends (R269 to R271) -/

/-- The FLOCK item (R271). -/
def flockItem (s : State) (f : Nat) (o : Option RunOp) (cseq code detail : Nat) (suspect : Nat) (sig : Word32)
    (off : Option Chunk) (exp acked : Nat) : State :=
  let v := s.flock f
  let data := cseq % 2 ^ 32 * 2 ^ 32 + code * 2 ^ 24 + detail * 2 ^ 16 + v.gen * 2 ^ 8 + f
  let u : Unit0 := { devUnit0 0x14 1 (fld v.ctl 11 10) v.owner ((o.map (·.ring)).getD 0) s.ft
    (statusOf (BitVec.ofNat 8 code) (BitVec.ofNat 8 detail) 0) 0 0xFFFFFFFF (BitVec.ofNat 64 data) with
      seq := (o.map (·.cmd.seq)).getD 0 }
  let u1 := leBytes 2 (s.flkPos v) ++ leBytes 2 v.live.length ++ leBytes 2 (s.flkPred v) ++ leBytes 2 (s.flkSucc v) ++
    leBytes 2 suspect ++ leBytes 2 0 ++ leBytes 4 sig.toNat ++ leBytes 4 ((off.map (·.sig.toNat)).getD 0) ++
    leBytes 4 ((off.map (·.cseq)).getD 0) ++ leBytes 4 exp ++ leBytes 4 acked ++ leBytes 4 v.lastOk.toNat ++ leBytes 28 0
  s.storeItem v.owner (fld v.ctl 15 12) (fld v.ctl 11 10) (u.bytes ++ u1)

/-- Is an end with this CODE one of R269 or R270: TAG_MISMATCH, FLOCK, or the deadline's? -/
def byFlock (code : Nat) : Bool := code == 0x10 || code == 0x14 || code == 7
/-- An operator's collective ends before completion: its CODE, and its outputs and CARRY_OUT are undefined (R269). -/
def collFail (s : State) (c : Coll) (code detail : Nat) : State :=
  let s := s.opFail c.op (BitVec.ofNat 8 code) (BitVec.ofNat 8 detail)
  let s := match s.op? c.op with
    | some o => s.opSet c.op { o with ran := true }
    | none => s
  let s := match c.output with
    | some d => s.openTensor d
    | none => s
  let s := if c.carryOut = 0 then s else s.openRange c.carryOut (4 * c.nelem)
  (if byFlock code then s.bump R.RED_ABORT_CNT else s).commitFail c.op

/-- Space of the chunks in the window of a running collective. -/
def rxSpace (l : List RxChunk) : Nat := (l.map (fun r => chunkSpace r.c.data.length)).sum

/-- The running collective of a slot leaves it, and the space of its chunks is returned. -/
def flkClear (s : State) (f : Nat) (c : Coll) : State :=
  let n := rxSpace c.rx
  let s := s.flockSet f { s.flock f with run := none, nackAt := none }
  if n = 0 then s else s.flkCtl f c.cseq 0xFFFFFFFF n

/-- The running collective ends: under R269 with its FLOCK item and, from this member, COLL_ABORT to the successor. An end that R269 does
not list (a window too small under R260, a fault of its memory) makes no item (log entry 28). -/
def collEnd (s : State) (f code detail suspect : Nat) (off : Option Chunk) (abort : Bool) : State :=
  let v := s.flock f
  match v.run with
  | none => s
  | some c =>
    let o := s.op? c.op
    let s := (s.collFail c code detail).flkClear f c
    let s := if byFlock code then (s.flockItem f o c.cseq code detail suspect c.sig off c.exp c.acked).raise (redPage f) 3 else s
    if abort then s.flkSend f 0x23 (s.flkSucc v) ⟨f, v.gen, c.cseq, detail, s.flkPos v, 0⟩ else s

/-- A queued collective ends likewise. -/
def queueEnd (s : State) (f : Nat) (c : Coll) (code detail suspect : Nat) : State :=
  let o := s.op? c.op
  let v := s.flock f
  let s := (s.collFail c code detail).flockSet f { v with queue := v.queue.filter (fun x => x.cseq != c.cseq) }
  if byFlock code then (s.flockItem f o c.cseq code detail suspect c.sig none 0 0).raise (redPage f) 3 else s

/-- Apply the CHUNK_CTL messages that came early for this GEN (R260; log entry 28). -/
def ctlApply (s : State) (f : Nat) : State :=
  let v := s.flock f
  let mine := v.ctlHeld.filter (fun x => x.2.2.gen == v.gen && x.1 == s.flkSucc v && x.2.1 == v.owner)
  s.flockSet f { v with
    ctlHeld := v.ctlHeld.filter (fun x => x.2.2.gen != v.gen)
    grant := v.grant + (mine.map (fun x => x.2.2.b)).sum
    succWin := match mine.getLast? with
      | some x => x.2.2.c
      | none => v.succWin }

/-- A slot starts a new GEN: CSEQ 0, nothing granted, the window empty but for chunks of that GEN, its whole size granted to
the predecessor (R251, R270). -/
def flkFresh (s : State) (f : Nat) (drops : List Nat) : State :=
  let v := s.flock f
  let g := (v.gen + 1) % 256
  let v : Flock := { v with
    ctl := setFld v.ctl 7 0 g, cseq := 0, drops := drops, run := none, queue := [], aborts := [], grant := 0, succWin := 0
    held := v.held.filter (fun x => x.2.2.gen == g)
    nackAt := none, lastOk := 0xFFFFFFFF, last := none }
  let s := (s.flockSet f v).ctlApply f
  s.flkCtl f 0 0 v.winBytes

/-- A slot is disabled: its collectives end with FLOCK, DETAIL 0x05, and its window is released (R251). -/
def flkDisable (s : State) (f : Nat) : State :=
  let s := s.collEnd f 0x14 5 0xFFFF none true
  let s := (s.flock f).queue.foldl (fun u c => u.queueEnd f c 0x14 5 0xFFFF) s
  let v := s.flock f
  s.flockSet f { v with ctl := v.ctl &&& ~~~(0x80000000#32), held := [], ctlHeld := [], aborts := [], grant := 0, succWin := 0, drops := [] }

/-- Set bits of RED_ERR, with CFG_ERR on both RED pages (R251, R252, R270, R275). -/
def redErr (s : State) (m : Word32) : State := (s.setBits R.RED_ERR m).raiseAll [0xF2, 0xF3] 4

/-- Are the members of a slot's definition sound (R251)? -/
def flkDefOk (s : State) (v : Flock) : Bool :=
  let ms := (List.range v.count).map (s.flkMember v)
  2 ≤ v.count && v.count ≤ 4096 && 1 ≤ v.step && v.step < v.count && Nat.gcd v.step v.count == 1 &&
  (!v.table || (fld v.base 30 16 == 0 && fld v.base 14 0 + v.count ≤ 4096 &&
    (List.range v.count).all (fun i => bit (Map.get s.ftable 0 (fld v.base 14 0 + i)) 31))) &&
  decide ms.Nodup && ms.contains s.srcField && v.owner < 64

/-- SRAM window units the enabled slots of one FBD hold (R253). -/
def winUsed (s : State) (par : Nat) : Nat :=
  ((s.slots.filter (fun e => e.1 % 2 == par && e.2.on && !(bit e.2.win 31))).map (fun e => fld e.2.win 12 0)).sum

/-- Is the window of a slot available (R253)? -/
def flkWinOk (s : State) (f : Nat) (v : Flock) : Bool :=
  let n := fld v.win 12 0
  if bit v.win 31 then
    1 ≤ n && n ≤ 4096 && v.waddr.toNat + v.winBytes ≤ uniEnd &&
    (tilesOf v.waddr.toNat v.winBytes).all (fun t =>
      (s.tile t).st == .dram && (s.tile t).pin && (s.deny v.owner (t * tileBytes) true).isNone)
  else 1 ≤ n && s.winUsed (f % 2) + n ≤ 32

/-- A write to RED_FLK_CTL (R251, R274). While EN = 1 the other fields keep their values. -/
def flkCtlWrite (s : State) (w : Word32) : State :=
  let f := s.rdF R.RED_FLK_SEL 5 0
  let v := s.flock f
  let q := writeFields (fieldsAt R.RED_FLK_CTL) v.ctl w
  if v.on then
    let s := s.countWrite 0xF2 (q.2 || (q.1 ||| 0x80000000#32) != v.ctl)
    if bit w 31 then s else s.flkDisable f
  else
    let s := s.countWrite 0xF2 q.2
    let v : Flock := { v with ctl := q.1 &&& ~~~(0x80000000#32) }
    let s := s.flockSet f v
    if bit w 31 then
      if !s.flkDefOk v then s.redErr 1
      else if !s.flkWinOk f v then s.redErr 2
      else (s.flockSet f { v with ctl := v.ctl ||| 0x80000000#32 }).flkFresh f []
    else s

/-- A drop disables the slot (R270). Where no collective ends with it, its FLOCK item says so alone (R271; log entry 28). -/
def flkOut (s : State) (f gone : Nat) : State :=
  let v := s.flock f
  if v.run.isSome || !v.queue.isEmpty then s.flkDisable f
  else (s.flkDisable f).flockItem f none v.cseq 0x14 5 gone 0 none 0 0

/-- A drop of an original position (R270). -/
def flkDrop (s : State) (f q : Nat) : State :=
  let v := s.flock f
  if !v.on then s
  else if v.drops.contains q || v.count ≤ q then s.redErr 4
  else if v.live.length < 3 || v.drops.length == 16 then (s.redErr 4).flkOut f (s.flkAt v q)
  else if s.flkAt v q = s.srcField then s.flkOut f (s.flkAt v q)
  else
    let gone := s.flkAt v q
    let all := (match v.run with | some c => [c] | none => []) ++ v.queue
    let o := all.head?.bind (fun c => s.op? c.op)
    let s := all.foldl (fun u c => u.collFail c 0x14 2) s
    let s := s.flkFresh f (v.drops ++ [q])
    let c := all.head?
    (s.flockItem f o ((c.map (·.cseq)).getD v.cseq) 0x14 2 gone ((c.map (·.sig)).getD 0) none ((c.map (·.exp)).getD 0)
      ((c.map (·.acked)).getD 0)).raise (redPage f) 2

/-- TAG_MISMATCH (R266, R271): latched, the collective ends, COLL_ABORT goes out. With none running there is none to end. -/
def tagErr (s : State) (f detail src cur : Nat) (ch : Chunk) : State :=
  let t := s.rd R.RED_TAG_ERR
  let s := if bit t 31 then s.wr R.RED_TAG_ERR (t ||| 0x40000000#32)
           else s.wr R.RED_TAG_ERR (BitVec.ofNat 32 (2 ^ 31 + f * 2 ^ 24 + detail * 2 ^ 16 + cur % 65536))
  let s := s.raise (redPage f) 0
  let v := s.flock f
  if v.run.isSome then s.collEnd f 0x10 detail src (some ch) true
  else
    let s := s.flockItem f none cur 0x10 detail src 0 (some ch) 0 0
    s.flkSend f 0x23 (s.flkSucc v) ⟨f, v.gen, cur, detail, s.flkPos v, 0⟩

/-! ### Receiving (R261, R266) -/

/-- Return the space of chunks of the window that are done: forwarded and acknowledged, or visible in the output (R261). -/
def flkSettle (s : State) (f : Nat) : State :=
  let v := s.flock f
  match v.run with
  | none => s
  | some c =>
    let done (r : RxChunk) : Bool := match r.fwd with
      | some k => decide (k < c.acked)
      | none => !s.opWaits c.op
    let n := rxSpace (c.rx.filter done)
    let c : Coll := { c with rx := c.rx.filter (fun r => !done r) }
    if n = 0 then s else (s.flockSet f { v with run := some c }).flkCtl f c.cseq c.ackNo n

/-- The effect of a consumed chunk on this member's outputs (R257, R258). -/
def chunkOut (s : State) (c : Coll) (ch : Chunk) (fwd : Option Nat) : Except Err State :=
  let n := c.len ch.idx
  let l := unpackCodes (c.fmtAt ch.ag) n ch.data
  let bad := ch.bad || (c.reduces && !ch.ag && s.ownBad c ch.idx)
  let place := match c.output with
    | some d => ((s.elemAddrs d).getD (c.outElem (c.lo ch.idx) / strmElemK (SD.src d)) 0).toNat
    | none => 0
  let s := s.markPoison c.op ch.bad place
  if c.reduces && !ch.ag then
    if fwd.isSome then .ok s
    else
      let o := s.ownPart c ch.idx
      let v := zipFlags (redOp c.red) (codeNums c.wire l) o.1
      let y := zipFlags vMul v.1 (List.replicate n (f32 c.scaleOut))
      let s := (s.opFlags c.op (o.2 ||| v.2 ||| y.2 ||| niOf [f32 c.scaleOut])).add64 (R.RED_ELEM_LO (ch.slot % 2)) n
      match c.output with
      | none => .ok s
      | some d =>
        let who := (s.op? c.op).map (·.tenant) |>.getD 0
        let q := castRne (.fp .fp32) ((fmtOf (SD.src d)).getD .int8) c.sat y.1
        match s.putAt c.op who bad d (c.outElem (c.lo ch.idx)) n q.1 q.2.1 with
        | .error e => .error e
        | .ok u =>
          let u := u.opFlags c.op q.2.2
          if c.carryOut = 0 then .ok u
          else putElem c.op who bad (.ok u) ((c.carryOut + 4 * c.lo ch.idx : Nat), List.replicate (4 * n) 0)
  else s.outPut c bad (c.fmtAt ch.ag) (c.lo ch.idx) l

/-- A chunk is consumed (R261, R266 step 11). -/
def chunkTake (s : State) (f : Nat) (c : Coll) (ch : Chunk) : State :=
  let fwd := c.fwdOf ⟨ch.step, ch.idx, ch.ag⟩
  let s := s.bump (R.RED_RX_CHUNK_CNT (f % 2))
  match s.chunkOut c ch fwd with
  | .error e =>
    let s := (e.left.getD s).flkCtl f c.cseq c.exp (chunkSpace ch.data.length)
    ((match e.place with | some a => s.opFaultAt c.op (BitVec.ofNat 8 e.1) (BitVec.ofNat 8 e.2) a | none => s)).collEnd f e.1 e.2 0xFFFF none true
  | .ok u =>
    let keep := match fwd with
      | some k => decide (c.acked ≤ k)
      | none => u.opWaits c.op
    let c : Coll := { c with exp := c.exp + 1, lastRx := u.ft, rx := if keep then c.rx ++ [⟨ch, fwd⟩] else c.rx }
    let u := u.flockSet f { u.flock f with run := some c, nackAt := none }
    u.flkCtl f c.cseq c.ackNo (if keep then 0 else chunkSpace ch.data.length)

/-- The CSEQ in force (R266): the running collective's, or the one that runs next. -/
def flkCur (v : Flock) : Nat :=
  match v.run, v.queue with
  | some c, _ => c.cseq
  | none, c :: _ => c.cseq
  | none, [] => v.cseq

/-- The tests of R266, in order. A slot not enabled has no window: what reaches it is discarded (log entry 28). -/
def chunkIn (s : State) (src own : Nat) (ch : Chunk) : State :=
  let f := ch.slot
  let v := s.flock f
  let space := chunkSpace ch.data.length
  let stale (s : State) : State := s.bump R.RED_STALE_CNT
  let d := (ch.gen + 256 - v.gen) % 256
  if !v.on || own ≠ v.owner || 128 ≤ d then stale s
  else
    let s := if bit v.win 31 then s.openRange v.waddr.toNat v.winBytes else s
    let hold : State := s.flockSet f { v with held := v.held ++ [(src, own, ch)] }
    if d ≠ 0 then hold
    else if src ≠ s.flkPred v then s.tagErr f 3 src (flkCur v) ch
    else if ch.cseq < flkCur v then (stale s).flkCtl f ch.cseq 0xFFFFFFFF space
    else match v.run with
      | none => if ch.cseq = flkCur v then hold else (s.flkCtl f (flkCur v) 0 space).tagErr f 2 src (flkCur v) ch
      | some c =>
        if ch.cseq = c.cseq + 1 then hold
        else if ch.cseq ≠ c.cseq then (s.flkCtl f c.cseq c.exp space).tagErr f 2 src c.cseq ch
        else if ch.sig ≠ c.sig then (s.flkCtl f c.cseq c.exp space).tagErr f 1 src c.cseq ch
        else if ch.sidx < c.exp then (stale s).flkCtl f c.cseq c.ackNo space
        else if c.exp < ch.sidx then
          let s := (stale s).flkCtl f c.cseq c.ackNo space
          let due := match v.nackAt with
            | none => true
            | some t => decide (t.toNat + s.rdF R.FBD_E2E_TMO 15 0 * 2000 ≤ s.ft.toNat)
          if due then
            ((s.flockSet f { s.flock f with nackAt := some s.ft }).bump R.RED_NACK_CNT).flkSend f 0x22 src ⟨f, v.gen, c.cseq, c.exp, 0, 0⟩
          else s
        else s.chunkTake f c ch

/-- Test held chunks again, oldest first. -/
def heldAgain (s : State) (f : Nat) : State :=
  let l := (s.flock f).held
  l.foldl (fun u x => u.chunkIn x.1 x.2.1 x.2.2) (s.flockSet f { s.flock f with held := [] })

/-! ### Dispatch (R254, R255, R265, R266) -/

/-- SIG (R266). -/
def sigOf (opcode red wire nelem root ctag : Nat) : Word32 :=
  crc32c (leBytes 2 (if opcode = 0x0605 then 0x0604 else opcode) ++ leBytes 1 red ++ leBytes 1 wire ++ leBytes 8 nelem ++
    leBytes 2 root ++ leBytes 2 ctag)

/-- The ranges of a tensor's elements. -/
def spansOf (s : State) (d : Option StreamDesc) : List (Nat × Nat) :=
  match d with
  | some d => (s.elemAddrs d).map (fun a => (a.toNat, strmElemBytes (SD.src d)))
  | none => []
/-- Do two sets of ranges meet? -/
def spansMeet (a b : List (Nat × Nat)) : Bool := a.any (fun x => b.any (fun y => x.1 < y.1 + y.2 && y.1 < x.1 + x.2))

/-- Read and check a collective (R254 to R256): its slot and its parameters. -/
def collOf (s : State) (h : Nat) (o : RunOp) : Except Err (Nat × Coll) := do
  let w := o.cmd
  let opc := w.opcode.toNat
  let rs := opc == 0x0600 || opc == 0x0602
  demand (CmdRecF.unit w == 5 && CmdRecF.ncoreM1 w == 0) (.of 3 3)
  let b ← s.block64 o.tenant w.w0
  let q (i n : Nat) : Nat := leNat ((b.drop i).take n)
  let f := q 2 1
  let v := s.flock f
  demand (q 0 2 == 1 && f < 64 && q 3 1 ≤ 2 && (rs || q 3 1 == 0) && q 5 1 < 2 && q 0x16 2 == 0 && (b.drop 0x20).all (· == 0) &&
    (0x0603 ≤ opc || q 6 2 == 0) && 1 ≤ q 8 8 && q 8 8 ≤ 2 ^ 40 && w.w5 == 0 && w.w6 == 0 && w.w7 == 0 &&
    (opc != 0x0605 || w.w1 == 0) && (opc != 0x0604 || w.w2 == 0) && (w.w3 == 0) == (w.w4 == 0)) (.of 3 3)
  demand (v.on && v.owner == o.tenant) (.of 0x14 1)
  let n := v.live.length
  let pos := s.flkPos v
  let input ← (if opc = 0x0605 then (.ok none : Except Err (Option Tensor)) else (s.tensor o.tenant w.w1 false).map some)
  let output ← (if opc = 0x0604 then (.ok none : Except Err (Option Tensor)) else (s.tensor o.tenant w.w2 true).map some)
  let wire := q 4 1
  let ic := (input.map (fun t => SD.src t.d)).getD wire
  let oc := (output.map (fun t => SD.src t.d)).getD ic
  demand (if rs then ic < 3 && (wire < 3 || wire == 12 || wire == 13) && (oc < 3 || oc == 13)
          else wire < 15 && ic == wire && (oc == wire || (oc != 7 && oc != 14 && wire != 14))) (.of 3 1)
  demand (w.w3 == 0 || (rs && q 3 1 == 0)) (.of 3 1)
  let chunkElem := q 0x10 4
  let blk := 8 ≤ wire && wire ≤ 13
  demand (1 ≤ chunkElem && chunkElem % (if blk then 1024 else 32) == 0 && dataBytes wire chunkElem ≤ 262144 &&
    (opc != 0x0602 || dataBytes oc chunkElem ≤ 262144) && (opc < 0x0604 || n == 2) && q 6 2 < n &&
    (opc != 0x0604 || pos == q 6 2) && (opc != 0x0605 || pos != q 6 2)) (.of 3 3)
  let c : Coll := ⟨h, v.cseq, sigOf opc (q 3 1) wire (q 8 8) (q 6 2) (q 0x14 2), opc, q 3 1, wire, q 5 1 == 1, q 6 2, q 8 8, chunkElem,
    BitVec.ofNat 32 (q 0x18 4), BitVec.ofNat 32 (q 0x1C 4), input.map (·.d), output.map (·.d), w.w3.toNat, w.w4.toNat, n, pos,
    (input.map s.tensorPoison).getD false, 0, 0, 0, [], 0, [], s.ft⟩
  let size (t : Option Tensor) : Nat := (t.map (fun t => t.rows * t.cols)).getD 0
  demand ((opc == 0x0605 || size input == (if opc = 0x0601 then c.segElems pos else c.nelem)) &&
    (opc == 0x0604 || size output == (if opc = 0x0600 then c.segElems pos else c.nelem))) (.of 3 3)
  match (if w.w3 = 0 then none else (s.localOk o.tenant w.w3.toNat (4 * c.nelem) false).or (s.localOk o.tenant w.w4.toNat (4 * c.nelem) true)) with
  | some e => .error e
  | none =>
    let a := s.spansOf c.input
    let d := s.spansOf c.output
    let ci := if w.w3 = 0 then [] else [(w.w3.toNat, 4 * c.nelem)]
    let co := if w.w4 = 0 then [] else [(w.w4.toNat, 4 * c.nelem)]
    demand (!(spansMeet a d || spansMeet a ci || spansMeet a co || spansMeet d ci || spansMeet d co || spansMeet ci co)) (.of 3 3)
    .ok (f, c)

/-- Is an operator's collective in a slot already? -/
def collQueued (s : State) (h : Nat) : Bool :=
  s.slots.any (fun e => (match e.2.run with | some c => c.op == h | none => false) || e.2.queue.any (fun c => c.op == h))

/-- The extent a set of ranges covers, lowest to highest byte (R355). -/
def extentOf (l : List (Nat × Nat)) : List (Nat × Nat) :=
  match l with
  | [] => []
  | x :: xs =>
    let lo := xs.foldl (fun a y => min a y.1) x.1
    [(lo, xs.foldl (fun a y => max a (y.1 + y.2)) (x.1 + x.2) - lo)]
/-- Extents of a reduction: its output's and its CARRY_OUT's (R355). -/
def redExtents (s : State) (c : Coll) : List (Nat × Nat) :=
  if c.reduces then extentOf (s.spansOf c.output) ++ (if c.carryOut = 0 then [] else [(c.carryOut, 4 * c.nelem)]) else []
/-- Extents held: those of every reduction dispatched and not ended (R355). -/
def pendExtents (s : State) : List (Nat × Nat) :=
  s.slots.flatMap (fun e => ((match e.2.run with | some c => [c] | none => []) ++ e.2.queue).flatMap s.redExtents)

/-- Destinations of the LOCAL conversions being written (R355). -/
def convDests (s : State) : List (Nat × Nat) :=
  (s.convs.filter (fun e => !e.2.d.send && e.2.passed)).map (fun e => (e.2.d.dest, rleBytes e.2.d.dstFmt e.2.d.layout e.2.d.rows e.2.d.ncol))

/-- A dispatched collective reaches its slot and takes its CSEQ (R265); one whose CSEQ was aborted before ends at once
(R269). A reduction waits while its extents would pass 256, or meet a destination being converted (R355). -/
def collDispatch (s : State) (h opc : Nat) : State :=
  match s.op? h with
  | none => s
  | some o =>
    if o.dispatched = true ∧ o.ran = false ∧ o.code = 0 ∧ o.cmd.opcode.toNat = opc ∧ s.collQueued h = false then
      match s.collOf h o with
      | .error e => s.opErr h e
      | .ok (f, c) =>
        if c.reduces && (decide (256 < s.pendExtents.length + (s.redExtents c).length) || spansMeet (s.redExtents c) s.convDests) then s else
        let v := s.flock f
        let s := s.flockSet f { v with cseq := (v.cseq + 1) % 2 ^ 32, queue := v.queue ++ [c], aborts := v.aborts.filter (fun a => a.1 != c.cseq) }
        match v.aborts.find? (fun a => a.1 == c.cseq) with
        | some a => s.queueEnd f c 0x14 4 ((s.flkLive v).getD a.2 0xFFFF)
        | none => s
    else s

/-! ### The rounds of a COMMIT (R337 to R339) -/

/-- The descriptor of 32 FP32 values. -/
def roundDesc (a : Nat) : StreamDesc := ⟨BitVec.ofNat 64 a, BitVec.ofNat 64 (31 * 2 ^ 48 + 4), 0, 0, 0, 0, 0, 0, 1, 0⟩

/-- The value of a round in the scratch area. -/
def roundValue (w : Nat) : List Byte := leBytes 4 w ++ leBytes 124 0

/-- Start the ALL_REDUCE of the level a COMMIT has reached. It waits while the extents of R355 would pass 256; a slot that
takes none ends the round. -/
def commitLaunch (s : State) (h : Nat) (r : CommitRun) : State :=
  let set (w : Bool) (s : State) : State := { s with commits := Map.set s.commits h { r with waiting := w } }
  match r.levels[r.lv]?, s.op? h with
  | some f, some o =>
    let v := s.flock f
    if v.on = false ∨ v.owner ≠ o.tenant then ((set false s).opDone h 0x14 1).commitFail h
    else
      let red := if r.resolve then 1 else 2
      let c : Coll := ⟨h, v.cseq, sigOf 0x0602 red 0 32 0 (r.t % 32768 + 32768 * r.round), 0x0602, red, 0, false, 0, 32, 32,
        0x3F800000, 0x3F800000, some (roundDesc r.scratch), some (roundDesc (r.scratch + 0x80)), 0, 0, v.live.length, s.flkPos v,
        s.anyPoison r.scratch 128, 0, 0, 0, [], 0, [], s.ft⟩
      if 256 < s.pendExtents.length + (s.redExtents c).length then set true s
      else
        let s := set false s
        let s := s.flockSet f { v with cseq := (v.cseq + 1) % 2 ^ 32, queue := v.queue ++ [c], aborts := v.aborts.filter (fun a => a.1 != c.cseq) }
        match v.aborts.find? (fun a => a.1 == c.cseq) with
        | some a => s.queueEnd f c 0x14 4 ((s.flkLive v).getD a.2 0xFFFF)
        | none => s
  | _, _ => s

/-- A round begins: its value at the start of the scratch area, then the first level. -/
def commitRound (s : State) (h who value : Nat) (r : CommitRun) : State :=
  ((s.writeRange who none r.scratch (roundValue value)).1).commitLaunch h r

/-- A round has run on every level: what its value decides (R338, R339). -/
def commitDecide (s : State) (h : Nat) (o : RunOp) (r : CommitRun) (v : Nat) : State :=
  let leave (s : State) : State := { s with commits := Map.erase s.commits h }
  let who := o.tenant
  if r.resolve then
    let mx := if v = 0x40400000 then 3 else if v = 0x40000000 then 2 else 1
    if mx = 3 then
      let st := s.cbState r.cb
      let s := if st = cbAcked ∨ (st = cbIdle ∧ s.cbCommitted r.cb = r.t) then s else s.commitAck h who r
      ((leave s).commitOutcome h 1 3).opDone h 0 0
    else
      let s := (leave s).commitRoll h who r 2
      s.commitOutcome h 2 mx
  else if r.round = 1 then (((leave s).commitAck h who r).commitOutcome h 1 0).opDone h 0 0
  else if v = 0x3F800000 then
    let s := s.cbTo who r.cb cbDecided
    s.commitRound h who 0x3F800000 { r with lv := 0, round := 1 }
  else (leave s).commitRoll h who r 1

/-- A level's collective is complete: its output is the next level's input, or the round's value. -/
def commitStep (s : State) (h : Nat) : State :=
  match Map.get? s.commits h, s.op? h with
  | some r, some o =>
    let b := s.bytesAt (r.scratch + 0x80) 128
    if r.lv + 1 < r.levels.length then
      ((s.writeRange o.tenant none r.scratch b).1).commitLaunch h { r with lv := r.lv + 1 }
    else s.commitDecide h o r (leNat (b.take 4))
  | _, _ => s

end State

/-- What a collective reads of the unified range begins to be read (R156, R165, R174): its descriptors, its input and its CARRY_IN. -/
def State.collTouch (s : State) (c : Coll) : State :=
  match s.op? c.op with
  | none => s
  | some o =>
    if o.touched then s
    else
      let s := (s.opSet c.op { o with touched := true }).readWord o.cmd.w0
      s.readTiles ((match c.input with | some d => s.fillReads d | none => []) ++ (if c.carryIn = 0 then [] else [(c.carryIn, 4 * c.nelem)])) (.op c.op)

/-- REDUCE_SCATTER (R254, R257). -/
def execReduceScatter (h : Nat) (s : State) : Out := keepQueue s <| .next (s.collDispatch h 0x0600)
/-- ALL_GATHER (R254, R257). -/
def execAllGather (h : Nat) (s : State) : Out := keepQueue s <| .next (s.collDispatch h 0x0601)
/-- ALL_REDUCE (R254, R257). -/
def execAllReduce (h : Nat) (s : State) : Out := keepQueue s <| .next (s.collDispatch h 0x0602)
/-- BROADCAST (R254, R257). -/
def execBroadcast (h : Nat) (s : State) : Out := keepQueue s <| .next (s.collDispatch h 0x0603)
/-- SEND (R254, R257). -/
def execSend (h : Nat) (s : State) : Out := keepQueue s <| .next (s.collDispatch h 0x0604)
/-- RECV (R254, R257). -/
def execRecv (h : Nat) (s : State) : Out := keepQueue s <| .next (s.collDispatch h 0x0605)

/-- FLOCK_ENABLE (R251): a write of EN = 1. -/
def execFlockEnable (v : Word32) (s : State) : Out := keepQueue s <| if bit v 31 then .next (s.flkCtlWrite v) else .next s
/-- FLOCK_DISABLE (R251): a write of EN = 0. -/
def execFlockDisable (v : Word32) (s : State) : Out := keepQueue s <| if bit v 31 then .next s else .next (s.flkCtlWrite v)

/-- COLLECTIVE_START (R265): the head of a slot's queue runs once no other does and none of its input is still to come from flash. ALL_GATHER and BROADCAST write their own part
to their output; chunks held for this CSEQ are tested again. -/
def execCollectiveStart (f : Nat) (s : State) : Out := keepQueue s <|
  let v := s.flock f
  match v.run, v.queue with
  | none, c :: rest =>
    let s := s.collTouch c
    if s.reading (.op c.op) then .next s else
    let c : Coll := { c with lastRx := s.ft }
    let s := s.flockSet f { v with run := some c, queue := rest }
    let s := s.markPoison c.op c.bad (match c.input with | some d => s.poisonOf (tensorOf d) | none => 0)
    let mine := if c.opcode = 0x0601 then c.seg c.pos else if c.opcode = 0x0603 ∧ c.pos = c.root then List.range c.nchunk else []
    let r : Except Err State := match c.input with
      | none => .ok s
      | some d => mine.foldl (fun (acc : Except Err State) j => match acc with
          | .error e => .error e
          | .ok u => (u.opFlags c.op (u.inputNi c (c.inElem (c.lo j)) (c.len j))).outPut c (u.elemsBad c.input (c.inElem (c.lo j)) (c.len j)) c.wire (c.lo j) (u.codesAt d (c.inElem (c.lo j)) (c.len j))) (.ok s)
    match r with
    | .error e => .next (s.collEnd f e.1 e.2 0xFFFF none true)
    | .ok u => .next (u.heldAgain f)
  | _, _ => .next s

namespace State
/-- The port a slot's chunks leave by (R222); 99 where none is open. -/
def chunkPort (s : State) (f : Nat) : Nat :=
  match s.route 99 ⟨s.flkSucc (s.flock f), s.srcField, 0, 0x20, 1, (s.flock f).owner, [], false, []⟩ with
  | .port p _ => p
  | _ => 99
/-- Has a slot a chunk ready, and enough grant for it (R263)? -/
def chunkReady (s : State) (f : Nat) : Bool :=
  match (s.flock f).run with
  | none => false
  | some c => match c.sends[c.sent]? with
    | none => false
    | some e => match s.chunkData c e with
      | none => false
      | some d => decide (chunkSpace d.1.length ≤ (s.flock f).grant)
/-- The key of a port and owner in the turns of R263. -/
def turnKey (s : State) (f : Nat) : Nat := 128 * s.chunkPort f + (s.flock f).owner
/-- Is it a slot's turn (R263)? Among the slots of one owner and port that are ready, one chunk per turn in the order of slot number. -/
def chunkTurn (s : State) (f : Nat) : Bool :=
  let k := s.turnKey f
  let last := Map.get s.collTurn 63 k
  (s.slots.filter (fun e => e.2.on && s.turnKey e.1 == k && s.chunkReady e.1)).all (fun e => (f + 127 - last) % 64 ≤ (e.1 + 127 - last) % 64)
end State

/-- CHUNK_SEND (R258, R260, R263): the next entry of a slot's send list, where it can be computed, the grant covers it and it is the slot's
turn. Every sending takes its space off the grant (log entry 27). -/
def execChunkSend (f : Nat) (s : State) : Out := keepQueue s <|
  let v := s.flock f
  match v.run with
  | none => .next s
  | some c =>
    match c.sends[c.sent]? with
    | none => .next s
    | some e =>
      match s.chunkData c e with
      | none => .next s
      | some (data, carry, fl, k) =>
        let space := chunkSpace data.length
        if v.succWin ≠ 0 ∧ v.succWin * 256 < space then .next (s.collEnd f 3 3 0xFFFF none true)
        else if v.grant < space ∨ s.chunkTurn f = false then .next s
        else
          let who := (s.op? c.op).map (·.tenant) |>.getD 0
          let r := if carry.isEmpty then (.ok s : Except Err State)
                   else State.putElem c.op who (s.chunkBad c e) (.ok s) ((c.carryOut + 4 * c.lo e.idx : Nat), carry)
          match r with
          | .error x => .next (s.collEnd f x.1 x.2 0xFFFF none true)
          | .ok s =>
            let dup := decide (c.sent < c.maxSent)
            let ch : Chunk := ⟨f, v.gen, dup, e.ag, e.step, c.cseq, c.sig, e.idx, c.len e.idx, c.fmtAt e.ag, c.pos, c.sent, data, s.chunkBad c e⟩
            let s := (s.opFlags c.op fl).bump (R.RED_TX_CHUNK_CNT (f % 2))
            let s := if dup then s.bump (R.RED_RESEND_CNT (f % 2)) else s
            let s := if k = 0 then s else s.add64 (R.RED_ELEM_LO (f % 2)) k
            let c : Coll := { c with sent := c.sent + 1, maxSent := max c.maxSent (c.sent + 1), sentAt := c.sentAt ++ [s.ft] }
            let s : State := { s with collTurn := Map.set s.collTurn (s.turnKey f) f }
            let s := s.flockSet f { v with run := some c, grant := v.grant - space }
            .next (s.send ⟨s.flkSucc v, s.srcField, 0, 0x20, 1, v.owner, chunkBody ch, false, if ch.bad then State.rangeUnits 0 data.length else []⟩)

/-- CHUNK (R266). -/
def execChunk (src own : Nat) (c : Chunk) (s : State) : Out := keepQueue s <| .next (s.chunkIn src own c)

/-- CHUNK_CTL (R260, R261, R264, R268): grant and acknowledgement. For a collective already complete, the home core makes a
second completion item. -/
def execChunkCtl (src own : Nat) (m : FlkMsg) (s : State) : Out := keepQueue s <|
  let f := m.slot
  let v := s.flock f
  let d := (m.gen + 256 - v.gen) % 256
  if own ≠ v.owner ∧ v.on = true then .next s
  else if (v.on = false ∨ d ≠ 0) ∧ 1 ≤ d ∧ d ≤ 127 then .next (s.flockSet f { v with ctlHeld := v.ctlHeld ++ [(src, own, m)] })
  else if v.on = false ∨ d ≠ 0 ∨ src ≠ s.flkSucc v then .next s
  else
    let v : Flock := { v with grant := v.grant + m.b, succWin := m.c }
    match v.run with
    | some c =>
      if c.cseq = m.cseq then
        let a := if m.a = 0xFFFFFFFF then c.sends.length else min m.a c.maxSent
        if c.acked < a then
          let c : Coll := { c with acked := a, sent := max c.sent a, sentAt := c.sentAt.drop (a - c.acked), lastRx := s.ft }
          .next ((s.flockSet f { v with run := some c }).flkSettle f)
        else .next (s.flockSet f { v with run := some { c with lastRx := s.ft } })
      else
        match v.last with
        | some (q, o) =>
          if q = m.cseq ∧ m.a = 0xFFFFFFFF then
            let s := s.flockSet f { v with last := none }
            .next (if evtDue o then (s.storeItem o.tenant (CmdRecF.evq o.cmd) (CmdRecF.evtPrio o.cmd) (completionItem o s.ft s.free)).used else s)
          else .next (s.flockSet f v)
        | none => .next (s.flockSet f v)
    | none =>
      match v.last with
      | some (q, o) =>
        if q = m.cseq ∧ m.a = 0xFFFFFFFF then
          let s := s.flockSet f { v with last := none }
          .next (if evtDue o then (s.storeItem o.tenant (CmdRecF.evq o.cmd) (CmdRecF.evtPrio o.cmd) (completionItem o s.ft s.free)).used else s)
        else .next (s.flockSet f v)
      | none => .next (s.flockSet f v)

/-- CHUNK_NACK (R266, R268): the sender goes back to the SIDX expected. -/
def execChunkNack (src own : Nat) (m : FlkMsg) (s : State) : Out := keepQueue s <|
  let f := m.slot
  let v := s.flock f
  match v.run with
  | some c =>
    if v.on = true ∧ own = v.owner ∧ m.gen = v.gen ∧ src = s.flkSucc v ∧ c.cseq = m.cseq ∧ c.acked ≤ m.a ∧ m.a ≤ c.sent then
      .next (s.flockSet f { v with run := some { c with sent := m.a, sentAt := c.sentAt.take (m.a - c.acked) } })
    else .next s
  | none => .next s

/-- COLL_ABORT (R269): ends the collective running or waiting, or is recorded for its dispatch; forwarded, except by its
origin. -/
def execCollAbort (src own : Nat) (m : FlkMsg) (s : State) : Out := keepQueue s <|
  let f := m.slot
  let v := s.flock f
  if v.on = true ∧ own = v.owner ∧ m.gen = v.gen ∧ src = s.flkPred v ∧ m.b % 4096 ≠ s.flkPos v then
    let who := (s.flkLive v).getD (m.b % 4096) 0xFFFF
    let t :=
      if (match v.run with | some c => c.cseq == m.cseq | none => false) then s.collEnd f 0x14 4 who none false
      else match v.queue.find? (fun c => c.cseq == m.cseq) with
        | some c => s.queueEnd f c 0x14 4 who
        | none => if v.cseq ≤ m.cseq then s.flockSet f { v with aborts := v.aborts ++ [(m.cseq, m.b % 4096)] } else s
    .next (t.flkSend f 0x23 (s.flkSucc v) m)
  else .next s

/-- CHUNK_ACK_TIMEOUT (R268). -/
def execChunkAckTimeout (f : Nat) (s : State) : Out := keepQueue s <|
  match (s.flock f).run with
  | some c =>
    (match c.sentAt with
     | t :: _ => if t.toNat + s.rdF R.FBD_E2E_TMO 15 0 * 4000 ≤ s.ft.toNat then .next (s.flkBack f) else .next s
     | [] => .next s)
  | none => .next s

/-- PROG_TIMEOUT (R269): no chunk and no acknowledgement for RED_PROG_TMO. The suspect is the predecessor while a chunk of its
is awaited, else the successor (log entry 28). -/
def execProgTimeout (f : Nat) (s : State) : Out := keepQueue s <|
  let v := s.flock f
  match v.run with
  | some c =>
    if c.lastRx.toNat + s.rdF R.RED_PROG_TMO 19 0 * 4000 ≤ s.ft.toNat then
      .next ((s.raise (redPage f) 1).collEnd f 0x14 3 (if c.exp < c.recvs.length then s.flkPred v else s.flkSucc v) none true)
    else .next s
  | none => .next s

/-- COLLECTIVE_COMPLETE (R264): outputs visible, every chunk acknowledged, every chunk consumed. Before that, it returns the space
of the chunks whose results have become visible (R261). -/
def execCollectiveComplete (f : Nat) (s : State) : Out := keepQueue s <|
  match (s.flock f).run with
  | some c =>
    if c.sends.length ≤ c.acked ∧ c.recvs.length ≤ c.exp ∧ s.opWaits c.op = false then
      match s.op? c.op with
      | some o =>
        if (Map.get? s.commits c.op).isSome then
          let s := s.flkSettle f
          .next ((s.flockSet f { s.flock f with
            run := none, nackAt := none, last := none
            lastOk := if o.code = 0 then BitVec.ofNat 32 c.cseq else (s.flock f).lastOk }).commitStep c.op)
        else
        let s := (s.flkSettle f).opSet c.op { o with ran := true }
        .next (s.flockSet f { s.flock f with
          run := none, nackAt := none
          last := some (c.cseq, { o with ran := true })
          lastOk := if o.code = 0 then BitVec.ofNat 32 c.cseq else (s.flock f).lastOk })
      | none => .next (s.flockSet f { s.flock f with run := none })
    else .next (s.flkSettle f)
  | none => .next s

/-- DROP (R270): a write of DROP to RED_FLK_CMD. -/
def execDrop (s : State) : Out := keepQueue s <|
  .next ((s.countWrite 0xF2 false).flkDrop (s.rdF R.RED_FLK_SEL 5 0) (s.rdF R.RED_FLK_DROP_POS 11 0))

/-- ABORT (R269): a write of ABORT to RED_FLK_CMD. -/
def execAbort (s : State) : Out := keepQueue s <|
  .next ((s.countWrite 0xF2 false).collEnd (s.rdF R.RED_FLK_SEL 5 0) 0x14 4 s.srcField none true)

/-- DECLARE_LOST (R243, R248, R270): the package in FBD_FLOW_SEL is lost: its requests, moves, AWAY tiles and guests end, and
every enabled slot it is a live member of drops it. -/
def execDeclareLost (s : State) : Out := keepQueue s <|
  let p := s.rdF R.FBD_FLOW_SEL 11 0
  let s := (s.countWrite 0xF0 false).raiseAll fbdPages 4
  let s : State := { s with lostPkgs := if s.lostPkgs.contains p then s.lostPkgs else p :: s.lostPkgs }
  let rs := (s.flow p).reqs ++ (s.reqWait.filter (fun r => r.pkg == p)).map (fun r => (⟨0, r.cls, r.own, r.m, r.src, r.why, none, 0, s.ft⟩ : OutReq))
  let s : State := { s.flowSet p { s.flow p with reqs := [] } with reqWait := s.reqWait.filter (fun r => r.pkg != p) }
  let todo := s.remTodo.filter (fun e => e.2.any (fun r => r.pkg == p))
  let s : State := { s with remTodo := s.remTodo.filter (fun e => !e.2.any (fun r => r.pkg == p)) }
  let s := (s.away.filter (fun e => e.2.from_ == some p && e.2.step ≤ 2)).foldl (fun u e => u.awayLost e.1 e.2) s
  let s := (s.ms.tiles.filter (fun e => e.2.st == .away && e.2.loc == p)).foldl (fun u e => u.loseTile e.1) s
  let s := rs.foldl (fun u q => u.reqError q 0x11 1) s
  let s := todo.foldl (fun u e => u.opFail e.1 0x11 1) s
  let s := (s.guests.filter (fun e => e.1 / 2 ^ 29 == p)).foldl (fun u e => u.dropGuest e.1) s
  .next ((s.slots.filter (fun e => e.2.on)).foldl (fun u e =>
    let v := u.flock e.1
    match v.live.find? (fun q => u.flkAt v q == p + 4096 * u.domain) with
    | some q => u.flkDrop e.1 q
    | none => u) s)

end Sys2Proof.Machine
end

