-- ==== Sys2Proof/Machine/Attention.lean ====
section
/-! DEFINITION. Chapters 09 and 10: attention whole, split and paged, its backward, and candidate sets (R279, R284 to R287,
R292, R293, R304 to R307). -/
namespace Sys2Proof.Machine
open Sys2Proof

/-! ### One row over one KV head (R284) -/

/-- How a row attends: the drain multiplier of the scores, that of the values, the format of probabilities, and the kinds of
accumulation of the two products. -/
structure AttnCtx where
  kind : AccKind
  pv : AccKind
  pfmt : FpFmt
  scale : XNum
  vScale : XNum
  fl : NumFlags              -- what the product of the two scales has set

/-- One allowed position: its number within its part, its key and its value. -/
structure KvPos where
  idx : Nat
  k : List EngElem
  v : List EngElem

/-- What a part gives (R284): m_c, l_c and a_c, with the flags it sets. -/
structure PartRes where
  m : XNum
  l : XNum
  a : List XNum
  fl : NumFlags

/-- A sum over elements with their index, in the order of R66. -/
def vSumAt (xs : List (Nat × XNum)) : VStep XNum :=
  match (treeLevels vAdd 9 ((List.range 512).map (fun i =>
    laneFold vAdd ((xs.filter (fun p => p.1 % 512 == i)).map (·.2))))).head? with
  | some (some r) => r
  | _ => (XNum.zero, fNone)

/-- An absent product. -/
def elemZero : EngElem := ⟨XNum.zero, 0⟩
/-- A list of pairs by index from 0, absent ones as +0 × +0. -/
def byIndex (l : List (Nat × (EngElem × EngElem))) : List (EngElem × EngElem) :=
  match l.getLast? with
  | none => []
  | some x => (List.range (x.1 + 1)).map (fun i => ((l.find? (fun p => p.1 == i)).map (·.2)).getD (elemZero, elemZero))
/-- A number of a plain format as an engine operand. -/
def numElem (x : XNum) : EngElem := ⟨x, 0⟩

/-- Scores of a part (R284). -/
def partScores (c : AttnCtx) (q : List EngElem) (ps : List KvPos) : List (VStep XNum) :=
  ps.map (fun p =>
    let a := accumulate c.kind XNum.zero (q.zip p.k)
    let y := drainMul c.kind c.scale a.1
    (y.1, a.2 ||| y.2 ||| c.fl))
/-- The greatest score, −∞ for none. -/
def partMax (ss : List (VStep XNum)) : XNum := ss.foldl (fun m x => m.maximum x.1) (.inf true)

/-- One part of a row (R284); `d` values per position. A part with m_c = −∞ is skipped, and sets no flag (R285). -/
def attnPart (c : AttnCtx) (d : Nat) (q : List EngElem) (ps : List KvPos) : PartRes :=
  let ss := partScores c q ps
  let m := partMax ss
  let f0 := orFlags (ss.map (·.2))
  if m.isInf && m.sign then ⟨m, XNum.zero, List.replicate d XNum.zero, if ps.isEmpty then fNone else f0⟩
  else
    let es := ss.map (fun x => let t := vSub x.1 m; let e := vExp t.1; (e.1, t.2 ||| e.2))
    let cs := es.map (fun e => castFp c.pfmt .rne true e.1)
    let pr := cs.map (fun p => c.pfmt.decode p.1)
    let l := vSumAt ((ps.map (·.idx)).zip pr)
    let as_ := (List.range d).map (fun e =>
      let a := accumulate c.pv XNum.zero (byIndex ((ps.zip pr).map (fun x => (x.1.idx, (numElem x.2, x.1.v.getD e elemZero)))))
      let y := drainMul c.pv c.vScale a.1
      (y.1, a.2 ||| y.2))
    ⟨m, l.1, as_.map (·.1), f0 ||| orFlags (es.map (·.2)) ||| orFlags (cs.map (·.2)) ||| l.2 ||| orFlags (as_.map (·.2))⟩

/-- The running combination of a row (R284): ELL and ACC, with flags. -/
structure RowAcc where
  ell : XNum
  acc : List XNum
  fl : NumFlags

/-- Add a part to the combination under the maximum `mx` (R284, R305). -/
def addPart (mx : XNum) (r : RowAcc) (p : PartRes) : RowAcc :=
  if p.m.isInf && p.m.sign then r
  else
    let t := vSub p.m mx
    let f := vExp t.1
    let le := vMul p.l f.1
    let ell := vAdd r.ell le.1
    let as_ := List.zipWith (fun a y => let z := vMul y f.1; let w := vAdd a z.1; (w.1, z.2 ||| w.2)) r.acc p.a
    ⟨ell.1, as_.map (·.1), r.fl ||| p.fl ||| t.2 ||| f.2 ||| le.2 ||| ell.2 ||| orFlags (as_.map (·.2))⟩

/-- A row's result: O before its cast, LSE, EMPTY, flags (R284, R285). -/
structure RowRes where
  o : List XNum
  lse : XNum
  empty : Bool
  fl : NumFlags

/-- The end of a row (R284, R305 mode 3). -/
def finishRow (d : Nat) (mx : XNum) (r : RowAcc) : RowRes :=
  if mx.isInf && mx.sign then ⟨List.replicate d XNum.zero, .inf true, true, r.fl⟩
  else
    let os := r.acc.map (fun a => vDiv a r.ell)
    let lg := vLn r.ell
    let l := vAdd mx lg.1
    ⟨os.map (·.1), l.1, false, r.fl ||| orFlags (os.map (·.2)) ||| lg.2 ||| l.2⟩

/-- A whole row from its parts in ascending order. -/
def attnRow (c : AttnCtx) (d : Nat) (q : List EngElem) (parts : List (List KvPos)) : RowRes :=
  let ps := parts.map (attnPart c d q)
  let mx := ps.foldl (fun m p => m.maximum p.m) (.inf true)
  finishRow d mx (ps.foldl (addPart mx) ⟨XNum.zero, List.replicate d XNum.zero, fNone⟩)

/-- Which positions a row at `q` may attend to (R284). -/
structure Mask where
  kvLen : Nat
  causal : Bool
  window : Nat
/-- Is position `j` allowed for a row at position `q`? -/
def Mask.ok (m : Mask) (q j : Nat) : Bool := j < m.kvLen && (!m.causal || j ≤ q) && (m.window == 0 || q < j + m.window)

/-- The formats attention reads (R279, R287): K and V in a KV format, Q in one R63 pairs with it. -/
def attnCtx (q k v : Fmt) (scale kScale vScale : XNum) : Option AttnCtx :=
  match k with
  | .fp g =>
    if (g == .bf16 || g == .e4m3 || g == .e5m2) && v == k && (q == .fp .bf16 || q == .fp .e4m3) then
      match accKind q k, accKind k k with
      | some a, some b => some ⟨a, b, g, (vMul scale kScale).1, vScale, (vMul scale kScale).2 ||| State.niOf [vScale]⟩
      | _, _ => none
    else none
  | _ => none

/-- Positive and finite. -/
def posFinite (x : XNum) : Bool := !x.isNan && !x.isInf && !x.isZero && !x.sign

/-- Counts of DIM0, DIM1 and DIM2 of a tensor; the two further dimensions must be single. -/
def dims3 (t : Tensor) : Option (Nat × Nat × Nat) :=
  if SD.count t.d.dim3 = 1 ∧ SD.count t.d.dim4 = 1 then some (t.cols, SD.count t.d.dim1, SD.count t.d.dim2) else none

namespace State

/-- Counts of a tensor with three dimensions, or OPERAND, DETAIL 0x03. -/
def shape3 (t : Tensor) : Except Err (Nat × Nat × Nat) :=
  match dims3 t with
  | some x => .ok x
  | none => .error (.of 3 3)

/-- A tensor's elements as engine operands. -/
def engElems (s : State) (t : Tensor) : List EngElem := (s.tensorCodes t).map (fun p => engElem t.fmt p.1 p.2)

/-- Vector-unit output of rows, their FP32 log-sum-exp, and one flag byte each (R287). -/
def attnOut (s : State) (h : Nat) (o : RunOp) (bad : Bool) (ot lt ft : Tensor) (rs : List RowRes) : Except Err State := do
  let u ← s.vecOut h o bad (CmdRecF.cast0 o.cmd) ot (.fp .fp32) (rs.flatMap (·.o))
  let u ← u.tensorPut h o.tenant bad lt (rs.map (fun r => f32Code r.lse)) []
  let u ← u.tensorPut h o.tenant bad ft (rs.map (fun r => if r.empty then 1 else 0)) []
  pure (u.opFlags h (orFlags (rs.map (·.fl))))

/-- Output tensors of attention: O, LSE and row flags, for `rows` × `heads` rows of `d` (R287). -/
def attnOuts (s : State) (o : RunOp) (io il ig d heads rows : Nat) : Except Err (Tensor × Tensor × Tensor) := do
  let ot ← s.tout o io
  let lt ← s.tout o il
  let ft ← s.tout o ig
  need (!ot.raw && (ot.fmt == .fp .fp32 || ot.fmt == .fp .bf16) && !lt.raw && lt.fmt == .fp .fp32 && (ft.raw || ft.fmt == .int8)) 1
  let so ← shape3 ot
  need (so == (d, heads, rows) && lt.rows * lt.cols == heads * rows && ft.rows * ft.cols == heads * rows) 3
  pure (ot, lt, ft)

/-- Keys and values of a contiguous tensor pair by KV head: position `off + i` of head κ. -/
def kvAt (ks vs : List EngElem) (d hkv off : Nat) (kap j : Nat) : KvPos :=
  let b := ((j - off) * hkv + kap) * d
  ⟨j % 1024, (ks.drop b).take d, (vs.drop b).take d⟩

/-- Positions of part `c` among those given that a row may attend to. -/
def partOf (m : Mask) (q lo hi c : Nat) : List Nat := ((List.range 1024).map (fun i => 1024 * c + i)).filter (fun j => lo ≤ j && j < hi && m.ok q j)
/-- Parts that positions `lo` to `hi` touch. -/
def partsOf (lo hi : Nat) : List Nat := (List.range (hi / 1024 + 1)).filter (fun c => lo < 1024 * c + 1024 && 1024 * c < hi)

/-- W6 of attention: position of row 0 and the mask (R287). -/
def maskOf (w : Word64) (kvLen : Nat) : Nat × Mask := (fld w 31 0, ⟨kvLen, bit w 56, fld w 55 32⟩)

/-- ATTN_FWD (R284 to R287, R304, R305). `attnPass` remembers the pass a row state is in, so that the first call of a pass
starts it afresh (log entry 29). -/
def attnFwdFx (h : Nat) (o : RunOp) (s : State) : Except Err State := do
  let b ← s.params o
  let w6 := o.cmd.w6
  let mode := (i32At b 0x10).toNat
  let off := (i32At b 0x14).toNat
  let st := leNat ((b.drop 0x18).take 8)
  let kvl := (i32At b 0x0C).toNat
  need (decide (0 ≤ i32At b 0x10) && mode ≤ 3 && decide (0 ≤ i32At b 0x14) && off % 1024 == 0 && (b.drop 0x20).all (· == 0) &&
    (st == 0) == (mode == 0) && st % 64 == 0 && fld w6 63 57 == 0 && decide (0 ≤ i32At b 0x0C)) 3
  need (posFinite (f32At b 0) && posFinite (f32At b 4)) 3
  let q ← s.tin o 0
  need (!q.raw && (q.fmt == .fp .bf16 || q.fmt == .fp .e4m3)) 1
  let (d, hq, rows) ← shape3 q
  let (q0, msk) := maskOf w6 kvl
  let ent := 16 + 4 * d
  let n := hq * rows
  let mxs (bs : List Byte) : List XNum := (List.range n).map (fun i => f32At bs (ent * i))
  if mode = 3 then do
    let (ot, lt, ft) ← s.attnOuts o 3 4 5 d hq rows
    let bs ← s.readOp o.tenant st (ent * n)
    let rs := (List.range n).map (fun i =>
      finishRow d (f32At bs (ent * i)) ⟨f32At bs (ent * i + 4), (List.range d).map (fun e => f32At bs (ent * i + 16 + 4 * e)), fNone⟩)
    let bad := s.anyPoison st (ent * n)
    let u ← s.attnOut h o bad ot lt ft rs
    pure ({ u with attnPass := Map.erase u.attnPass (o.tenant * 2 ^ 64 + st) }.markPoison h bad st)
  else do
    let k ← s.tin o 1
    let v ← s.tin o 2
    let c ← (match (if k.raw || v.raw then none else attnCtx q.fmt k.fmt v.fmt (f32At b 0) (f32At b 4) (f32At b 8)) with
      | some c => (.ok c : Except Err AttnCtx)
      | none => .error (.of 3 1))
    let sk ← shape3 k
    let sv ← shape3 v
    let hkv := sk.2.1
    let cnt := sk.2.2
    need (sk == sv && sk.1 == d && hq % hkv == 0 && (mode != 0 || kvl ≤ off + cnt)) 3
    let qs := s.engElems q
    let ks := s.engElems k
    let vs := s.engElems v
    let bad := s.tensorPoison q || s.tensorPoison k || s.tensorPoison v || s.anyPoison o.cmd.w7.toNat 64
    let ni := if (qs ++ ks ++ vs).any (fun x => x.num.isNan) then fNI else niOf [f32At b 8]
    let hi := min kvl (off + cnt)
    let rowParts (i : Nat) : List EngElem × List (List KvPos) :=
      ((qs.drop (i * d)).take d,
       (partsOf off hi).map (fun p => (partOf msk (q0 + i / hq) off hi p).map (kvAt ks vs d hkv off (i % hq * hkv / hq))))
    if mode = 0 then do
      let (ot, lt, ft) ← s.attnOuts o 3 4 5 d hq rows
      let rs := (List.range n).map (fun i => let r := rowParts i; attnRow c d r.1 r.2)
      let u ← s.attnOut h o bad ot lt ft rs
      pure ((u.opFlags h ni).markPoison h bad (s.poisonOf q))
    else do
      let key := o.tenant * 2 ^ 64 + st
      let first := Map.get s.attnPass 0 key != mode
      let bs ← s.readOp o.tenant st (ent * n)
      let out : List (List Byte × NumFlags) := (List.range n).map (fun i =>
        let r := rowParts i
        let mx := (mxs bs).getD i .nan
        if mode = 1 then
          let ss := r.2.map (partScores c r.1)
          let m := ss.foldl (fun m x => m.maximum (partMax x)) (if first then .inf true else mx)
          (leBytes 4 (f32Code m) ++ (bs.drop (ent * i + 4)).take (ent - 4), orFlags (ss.flatten.map (·.2)))
        else
          let a0 : RowAcc := if first then ⟨XNum.zero, List.replicate d XNum.zero, fNone⟩
            else ⟨f32At bs (ent * i + 4), (List.range d).map (fun e => f32At bs (ent * i + 16 + 4 * e)), fNone⟩
          let a := r.2.foldl (fun acc p => addPart mx acc (attnPart c d r.1 p)) a0
          ((bs.drop (ent * i)).take 4 ++ leBytes 4 (f32Code a.ell) ++ leBytes 8 0 ++ f32Bytes a.acc, a.fl))
      let u ← putElem h o.tenant bad (.ok s) ((st : Nat), out.flatMap (·.1))
      let u : State := { u with attnPass := Map.set u.attnPass key mode }
      pure ((u.opFlags h (ni ||| orFlags (out.map (·.2)))).markPoison h bad (s.poisonOf q))

/-- A sum over indexed products in parts of 1,024, each one accumulation under R49 drained with a multiplier, the parts
combined in ascending order (R306). -/
def partsSum (m : XNum) (l : List (Nat × XNum × XNum)) : VStep XNum :=
  let cs := (l.map (fun p => p.1 / 1024)).dedup
  let part (c : Nat) : VStep XNum :=
    let a := accumulate .fused XNum.zero ((l.filter (fun p => p.1 / 1024 == c)).map (fun p => (numElem p.2.1, numElem p.2.2)))
    let y := drainMul .fused m a.1
    (y.1, a.2 ||| y.2)
  match cs with
  | [] => (XNum.zero, fNone)
  | c :: rest => rest.foldl (fun a k => let p := part k; let z := vAdd a.1 p.1; (z.1, a.2 ||| p.2 ||| z.2)) (part c)

/-- To BF16 and back. -/
def toBf16 (x : XNum) : VStep XNum := let q := castFp .bf16 .rne false x; (FpFmt.bf16.decode q.1, q.2)

/-- What the backward knows of one allowed pair of a row and a position (R306). -/
structure BwdPair where
  row : Nat
  j : Nat
  ds : XNum
  p : XNum

/-- ATTN_BWD (R306, R307; log entry 29). -/
def attnBwdFx (h : Nat) (o : RunOp) (s : State) : Except Err State := do
  let b ← s.params o
  let mode := (i32At b 0x10).toNat
  let off := (i32At b 0x14).toNat
  let kvl := (i32At b 0x0C).toNat
  let w1c := leNat ((b.drop 0x1C).take 4)
  need ((mode == 0 || mode == 2) && decide (0 ≤ i32At b 0x10) && decide (0 ≤ i32At b 0x14) && off % 1024 == 0 &&
    decide (0 ≤ i32At b 0x0C) && decide (0 ≤ i32At b 0x18) && w1c < 2 ^ 25) 3
  need (posFinite (f32At b 0) && posFinite (f32At b 4)) 3
  let q ← s.tin o 0
  let k ← s.tin o 1
  let v ← s.tin o 2
  let ot ← s.tin o 3
  let dO ← s.tin o 4
  let ls ← s.tin o 5
  let dq ← s.tout o 6
  let dk ← s.tensor o.tenant (BitVec.ofNat 64 (leNat ((b.drop 0x20).take 8))) true
  let dv ← s.tensor o.tenant (BitVec.ofNat 64 (leNat ((b.drop 0x28).take 8))) true
  let c ← (match (if q.raw || k.raw || v.raw then none else attnCtx q.fmt k.fmt v.fmt (f32At b 0) (f32At b 4) (f32At b 8)) with
    | some c => (.ok c : Except Err AttnCtx)
    | none => .error (.of 3 1))
  need (!ot.raw && (ot.fmt == .fp .fp32 || ot.fmt == .fp .bf16) && !dO.raw && (dO.fmt == .fp .fp32 || dO.fmt == .fp .bf16) &&
    !ls.raw && ls.fmt == .fp .fp32 && !dq.raw && dq.fmt == .fp .fp32 && !dk.raw && dk.fmt == .fp .fp32 && !dv.raw && dv.fmt == .fp .fp32) 1
  let (d, hq, rows) ← shape3 q
  let (dK, hkv, cnt) ← shape3 k
  let sv ← shape3 v
  let so ← shape3 ot
  let sdo ← shape3 dO
  let sdq ← shape3 dq
  let sdk ← shape3 dk
  let sdv ← shape3 dv
  need (dK == d && sv == (d, hkv, cnt) && hq % hkv == 0 && so == (d, hq, rows) && sdo == (d, hq, rows) && sdq == (d, hq, rows) &&
    sdk == (d, hkv, cnt) && sdv == (d, hkv, cnt) && ls.rows * ls.cols == hq * rows && (mode != 0 || kvl ≤ off + cnt)) 3
  let mk : Mask := ⟨kvl, w1c / 2 ^ 24 == 1, w1c % 2 ^ 24⟩
  let q0 := (i32At b 0x18).toNat
  let n := hq * rows
  let hi := min kvl (off + cnt)
  let qs := s.engElems q
  let ks := s.engElems k
  let vs := s.engElems v
  let qn := s.tensorNums q
  let kn := s.tensorNums k
  let os := s.tensorNums ot
  let dos := s.tensorNums dO
  let lses := s.tensorNums ls
  let kap (i : Nat) : Nat := i % hq * hkv / hq
  -- rows with a finite or NaN log-sum-exp and their pairs
  let rowRes : List (List BwdPair × NumFlags) := (List.range n).map (fun i =>
    let lse := lses.getD i .nan
    if lse.isInf && lse.sign then ([], fNone)
    else
      let pr := (List.range d).map (fun e => vMul (dos.getD (i * d + e) .nan) (os.getD (i * d + e) .nan))
      let dd := vSum (pr.map (·.1))
      let js := ((List.range cnt).map (fun x => off + x)).filter (fun j => j < hi && mk.ok (q0 + i / hq) j)
      let ps := js.map (fun j =>
        let p := kvAt ks vs d hkv off (kap i) j
        let sc := (partScores c ((qs.drop (i * d)).take d) [p]).headD (.nan, fNone)
        let t := vSub sc.1 lse
        let e := vExp t.1
        let a := accumulate .fused XNum.zero ((List.range d).map (fun x => (numElem (dos.getD (i * d + x) .nan), p.v.getD x elemZero)))
        let dp := drainMul .fused c.vScale a.1
        let u := vSub dp.1 dd.1
        let ds := vMul e.1 u.1
        ((⟨i, j, ds.1, e.1⟩ : BwdPair), sc.2 ||| t.2 ||| e.2 ||| a.2 ||| dp.2 ||| u.2 ||| ds.2))
      (ps.map (·.1), orFlags (pr.map (·.2)) ||| dd.2 ||| orFlags (ps.map (·.2))))
  let pairs := rowRes.flatMap (·.1)
  let fl := orFlags (rowRes.map (·.2)) ||| orFlags (pairs.map (fun p => (toBf16 p.ds).2 ||| (toBf16 p.p).2))
  let dQs : List (VStep XNum) := (List.range (n * d)).map (fun x =>
    let i := x / d; let e := x % d
    partsSum c.scale (((rowRes.getD i ([], fNone)).1).map (fun p => (p.j, (toBf16 p.ds).1, kn.getD (((p.j - off) * hkv + kap i) * d + e) .nan))))
  let colSum (m : XNum) (f : BwdPair → XNum) (rs : List XNum) (x : Nat) : VStep XNum :=
    let e := x % d; let g := x / d % hkv; let j := off + x / d / hkv
    partsSum m ((pairs.filter (fun p => p.j == j && kap p.row == g)).map (fun p => (p.row / hq, (toBf16 (f p)).1, rs.getD (p.row * d + e) .nan)))
  let dKs := (List.range (cnt * hkv * d)).map (colSum (f32At b 0) (·.ds) qn)
  let dVs := (List.range (cnt * hkv * d)).map (colSum XNum.one (·.p) dos)
  let bad := [q, k, v, ot, dO, ls].any s.tensorPoison || s.anyPoison o.cmd.w7.toNat 64
  let into (t : Tensor) (xs : List (VStep XNum)) (acc : Except Err (State × NumFlags)) : Except Err (State × NumFlags) := do
    let (u, f) ← acc
    let ys := if mode = 2 then zipFlags vAdd (s.tensorNums t) (xs.map (·.1)) else (xs.map (·.1), fNone)
    let w ← u.tensorPut h o.tenant bad t (ys.1.map f32Code) []
    pure (w, f ||| ys.2 ||| orFlags (xs.map (·.2)))
  let (u, f) ← into dv dVs (into dk dKs (into dq dQs (.ok (s, fl))))
  let ni := niOf (qn ++ kn ++ os ++ dos ++ lses ++ s.tensorNums v)
  pure ((u.opFlags h (f ||| ni)).markPoison h bad (s.poisonOf q))

/-! ### Paged attention (R279 to R281, R287) -/

/-- How KV pages are laid out (R279, R280): HEAD_DIM, the KV format, HPP, S, NLAYER. -/
structure KvLay where
  d : Nat
  fmt : FpFmt
  hpp : Nat
  s : Nat
  nlayer : Nat
/-- Bytes of a KV element. -/
def KvLay.b (l : KvLay) : Nat := l.fmt.bits / 8
/-- A page-table entry (R280): the block's first page, none where V = 0 or a reserved bit is set. -/
def blockOf (w : Nat) : Option Nat := if bitsN w 63 63 = 1 ∧ bitsN w 62 45 = 0 ∧ bitsN w 15 0 = 0 then some (bitsN w 44 16 * 65536) else none
/-- Offset of K element `k` of page position `p` (R279). -/
def kOff (b k p : Nat) : Nat := p / 64 * 16384 + k * 64 * b + p % 64 * b
/-- Offset of V element `v` of page position `p` (R279). -/
def vOff (b v p : Nat) : Nat := 0x8000 + v / 64 * (128 * 64 * b) + p * 64 * b + v % 64 * b

/-- A page-table entry, by block (R280). -/
def ptEntry (s : State) (pt i : Nat) : Nat := leNat (s.bytesAt (pt + 8 * i) 8)
/-- The blocks `is_` of a page table are mapped and valid for a tenant (R281). -/
def blocksOk (s : State) (who pt : Nat) (l : KvLay) (is_ : List Nat) : Bool :=
  is_.all (fun i => i < 32768 && (match blockOf (s.ptEntry pt i) with
    | some a =>
      let z := l.nlayer * l.s * 65536
      a + z ≤ uniEnd && a / 2 ^ 32 == (a + z - 1) / 2 ^ 32 && rgnOwner (s.rgnAt a) == who && bit (s.rgnAt a) 31
    | none => false))
/-- Address of the page of a position, layer and stripe. -/
def pageAt (s : State) (pt : Nat) (l : KvLay) (layer stripe j : Nat) : Nat :=
  (blockOf (s.ptEntry pt (j / 128))).getD 0 + (layer * l.s + stripe) * 65536
/-- Key and value of position `j` for the member's KV head `kap` (R279). -/
def pageKv (s : State) (pt : Nat) (l : KvLay) (layer kap j : Nat) : KvPos :=
  let a := s.pageAt pt l layer (kap / l.hpp) j
  let at_ (o : Nat) : EngElem := numElem (l.fmt.decode (leNat (s.bytesAt (a + o) l.b)))
  let e0 := kap % l.hpp * l.d
  ⟨j % 1024, (List.range l.d).map (fun e => at_ (kOff l.b (e0 + e) (j % 128))), (List.range l.d).map (fun e => at_ (vOff l.b (e0 + e) (j % 128)))⟩
/-- The bytes of pages that attention over `n` positions reads in one layer (R279): K's rows up to the last position of each panel, V's panels
up to the last. -/
def pageReads (s : State) (pt : Nat) (l : KvLay) (layer n : Nat) : List (Nat × Nat) :=
  (List.range ((n + 127) / 128)).flatMap (fun i =>
    let m := min 128 (n - 128 * i)
    (List.range l.s).flatMap (fun st =>
      let a := s.pageAt pt l layer st (128 * i)
      (List.range ((m + 63) / 64)).flatMap (fun p => (List.range (l.hpp * l.d)).map (fun k => (a + kOff l.b k (64 * p), min 64 (m - 64 * p) * l.b))) ++
      (List.range ((l.hpp * l.d + 63) / 64)).map (fun v => (a + vOff l.b (64 * v) 0, m * 64 * l.b))))
/-- The first poisoned byte of ranges. -/
def poisonIn (s : State) (rs : List (Nat × Nat)) : Option Nat := (rs.find? (fun r => s.anyPoison r.1 r.2)).map (fun r => s.firstPoison r.1 r.2)
/-- Attention of one row over pages. -/
def pagedRow (s : State) (c : AttnCtx) (pt : Nat) (l : KvLay) (layer kap : Nat) (mk : Mask) (q : List EngElem) (pos : Nat) : RowRes :=
  attnRow c l.d q ((partsOf 0 mk.kvLen).map (fun p => (partOf mk pos 0 mk.kvLen p).map (s.pageKv pt l layer kap)))

/-- ATTN_DECODE (R284, R287): attention over the pages of a page table; KV in the format of Q (log entry 29). -/
def attnDecodeFx (h : Nat) (o : RunOp) (s : State) : Except Err State := do
  let b ← s.params o
  let w5 := o.cmd.w5
  let kvl := (i32At b 0x0C).toNat
  let lay0 := fld w5 8 0
  let hpp := fld w5 31 25
  let ns := (i32At b 0x10).toNat
  let nl := (i32At b 0x14).toNat
  need (fld o.cmd.w6 63 57 == 0 && fld w5 63 32 == 0 && fld w5 15 9 == 0 && decide (0 ≤ i32At b 0x0C) && 1 ≤ hpp && 1 ≤ ns && 1 ≤ nl && lay0 < nl) 3
  need (posFinite (f32At b 0) && posFinite (f32At b 4)) 3
  let q ← s.tin o 0
  let c ← (match (if q.raw then none else attnCtx q.fmt q.fmt q.fmt (f32At b 0) (f32At b 4) (f32At b 8)) with
    | some c => (.ok c : Except Err AttnCtx)
    | none => .error (.of 3 1))
  let (d, hq, rows) ← shape3 q
  let l : KvLay := ⟨d, c.pfmt, hpp, ns, nl⟩
  let hkv := ns * hpp
  need (hpp * d * l.b ≤ 256 && hq % hkv == 0 && o.cmd.w1.toNat % 4096 == 0 && kvl ≤ 4194304) 3
  let (ot, lt, ft) ← s.attnOuts o 2 3 4 d hq rows
  let pt := o.cmd.w1.toNat
  match s.localOk o.tenant pt (8 * ((kvl + 127) / 128)) false with
  | some e => .error e
  | none =>
    if !(s.blocksOk o.tenant pt l (List.range ((kvl + 127) / 128))) then .error (.of 0x15 1)
    else match (s.pageReads pt l lay0 kvl).findSome? (fun r => s.readErr o.tenant r.1 r.2) with
    | some e => .error e
    | none => do
      let (q0, msk) := maskOf o.cmd.w6 kvl
      let qs := s.engElems q
      let rs := (List.range (hq * rows)).map (fun i =>
        s.pagedRow c pt l lay0 (i % hq * hkv / hq) msk ((qs.drop (i * d)).take d) (q0 + i / hq))
      let pg := s.poisonIn (s.pageReads pt l lay0 kvl)
      let bad := s.tensorPoison q || s.anyPoison o.cmd.w7.toNat 64 || pg.isSome
      let kv := (List.range kvl).any (fun j => (List.range hkv).any (fun kap =>
        let x := s.pageKv pt l lay0 kap j
        (x.k ++ x.v).any (fun y => y.num.isNan)))
      let ni := if qs.any (fun x => x.num.isNan) || kv then fNI else fNone
      let u ← s.attnOut h o bad ot lt ft rs
      pure ((u.opFlags h ni).markPoison h bad (if s.tensorPoison q then s.poisonOf q else pg.getD (s.poisonOf q)))

/-- What ATTN_DECODE reads beside its input tensor: the page table and the pages. -/
def decodeReads (s : State) (o : RunOp) : List (Nat × Nat) :=
  match s.params o, s.tin o 0 with
  | .ok b, .ok q =>
    let kvl := (i32At b 0x0C).toNat
    let hpp := fld o.cmd.w5 31 25
    let pt := o.cmd.w1.toNat
    match (if q.raw || hpp = 0 then none else attnCtx q.fmt q.fmt q.fmt (f32At b 0) (f32At b 4) (f32At b 8)) with
    | none => []
    | some c =>
      let l : KvLay := ⟨q.cols, c.pfmt, hpp, (i32At b 0x10).toNat, (i32At b 0x14).toNat⟩
      if kvl ≤ 4194304 && (s.localOk o.tenant pt (8 * ((kvl + 127) / 128)) false).isNone && s.blocksOk o.tenant pt l (List.range ((kvl + 127) / 128)) then
        (pt, 8 * ((kvl + 127) / 128)) :: s.pageReads pt l (fld o.cmd.w5 8 0) kvl
      else []
  | _, _ => []

end State

/-! ### Candidate sets (R292, R293) -/

/-- Insert into a list in the order of R292: descending number, ties by ascending token. -/
def insertTop (x : XNum × Nat) : List (XNum × Nat) → List (XNum × Nat)
  | [] => [x]
  | y :: ys => if y.1.ltN x.1 then x :: y :: ys else y :: insertTop x ys
/-- Tokens and logits in rank order. -/
def rankTop (zs : List XNum) : List (XNum × Nat) := (zs.zip (List.range zs.length)).foldl (fun a x => insertTop x a) []

/-- Bytes of a position record for K candidates (R293). -/
def recBytes (k : Nat) : Nat := 64 + (12 * k + 63) / 64 * 64

/-- A position record (R293), with its flags, top-1 token and logprob, and LSE. The top-1 fields of a row with NaN are not
stated: `open_` (log entry 3). -/
def candRow (pos k : Nat) (beta : Word32) (empty : Bool) (open_ : Word64) (zs : List XNum) : List Byte × NumFlags × List Word32 :=
  let xs := zs.map (vMul (f32 beta))
  let l := State.lseOf (xs.map (·.1))
  let nan := zs.any XNum.isNan
  let fl := orFlags (xs.map (·.2)) ||| l.2
  let top := if nan then [] else (rankTop zs).take k
  let lps := top.map (fun p => State.logProb l.1 ((xs.map (·.1)).getD p.2 .nan))
  let t1 : Word32 := if nan then open_.setWidth 32 else BitVec.ofNat 32 ((top.map (·.2)).headD 0)
  let p1 : Word32 := if nan then BitVec.ofNat 32 (open_.toNat / 2 ^ 32) else BitVec.ofNat 32 (f32Code ((lps.map (·.1)).headD .nan))
  let lse : Word32 := BitVec.ofNat 32 (f32Code (if nan then .nan else l.1))
  let body := leBytes 4 pos ++ leBytes 2 top.length ++ leBytes 2 ((if nan then 1 else 0) + (if empty then 2 else 0)) ++
    leBytes 4 lse.toNat ++ leBytes 4 beta.toNat ++ leBytes 4 t1.toNat ++ leBytes 4 p1.toNat ++ leBytes 40 0 ++
    top.flatMap (fun p => leBytes 4 p.2) ++ top.flatMap (fun p => leBytes 4 (f32Code p.1)) ++ lps.flatMap (fun p => leBytes 4 (f32Code p.1))
  (padTo (recBytes k) body, if nan then fNV else fl ||| orFlags (lps.map (·.2)), [t1, p1, lse])

namespace State

/-- CANDIDATES (R287, R292, R293): W1 a RAW tensor holding the records back to back (log entry 29). -/
def candidatesFx (h : Nat) (o : RunOp) (s : State) : Except Err State := do
  let a ← s.tin o 0
  let t ← s.tout o 1
  let b ← s.params o
  need (!a.raw && a.fmt == .fp .fp32 && t.raw) 1
  let k := fld o.cmd.w3 10 0
  need (fld o.cmd.w3 63 11 == 0 && 1 ≤ k && k ≤ 1024 && k ≤ a.cols && o.cmd.w2 == 0 && o.cmd.w5 == 0 && o.cmd.w6 == 0 &&
    fld o.cmd.w4 63 32 == 0 && posFinite (f32At b 0) && t.rows * t.cols == a.rows * recBytes k) 3
  let beta : Word32 := BitVec.ofNat 32 (leNat (b.take 4))
  let rows := (rowsOf a.cols (s.tensorNums a)).zip (List.range a.rows)
  let rs := rows.map (fun p => candRow (o.cmd.w4.toNat + p.2) k beta false (Config.freeValue (s.freeCtr + p.2)) p.1)
  let s : State := { s with freeCtr := s.freeCtr + a.rows }
  let bad := s.tensorPoison a || s.anyPoison o.cmd.w7.toNat 64
  let u ← s.tensorPut h o.tenant bad t (rs.flatMap (fun r => r.1.map (·.toNat))) []
  pure ((u.opFlags h (niOf (s.tensorNums a) ||| orFlags (rs.map (·.2.1)))).markPoison h bad (s.poisonOf a))

end State

/-- ATTN_FWD (R284, R305). -/
def execAttnFwd (h : Nat) (s : State) : Out := keepQueue s <| .next (s.runOp h 0x0200 (State.attnFwdFx h))
/-- ATTN_BWD (R306). -/
def execAttnBwd (h : Nat) (s : State) : Out := keepQueue s <| .next (s.runOp h 0x0201 (State.attnBwdFx h))
/-- ATTN_DECODE (R284, R287). -/
def execAttnDecode (h : Nat) (s : State) : Out := keepQueue s <| .next (s.runOpR h 0x0202 State.decodeReads (State.attnDecodeFx h))
/-- CANDIDATES (R292). -/
def execCandidates (h : Nat) (s : State) : Out := keepQueue s <| .next (s.runOp h 0x0204 (State.candidatesFx h))

end Sys2Proof.Machine
end

