-- ==== Sys2Proof/Machine/Generation.lean ====
section
/-! DEFINITION. Chapter 09: the verify step over the generation copy, group exchange, candidate sets and the request table
(R276 to R283, R288 to R301). -/
namespace Sys2Proof.Machine
open Sys2Proof

/-! ### The model descriptor (R277, R278) -/

/-- A layer entry: addresses of tensor descriptors, and the K and V divisors. -/
structure GenLayer where
  attnNorm : Word64
  wqkv : Word64
  wo : Word64
  mlpNorm : Word64
  gateUp : Word64
  down : Word64
  router : Word64
  kScale : Word32
  vScale : Word32
deriving DecidableEq, Repr

/-- A model descriptor. -/
structure GenModel where
  dm : Nat
  vocab : Nat
  hq : Nat
  hkv : Nat
  d : Nat
  kv : FpFmt
  par : Bool
  moe : Bool
  rope : Word32
  eps : Word32
  g : Nat
  rank : Nat
  ek : Nat
  embed : Word64
  lmHead : Word64
  fnorm : Word64
  exch : Nat
  layers : List GenLayer
  group : List Nat
deriving DecidableEq, Repr

namespace GenModel
/-- Query heads of this member. -/
def hqm (m : GenModel) : Nat := m.hq / m.g
/-- KV heads of this member. -/
def hkvm (m : GenModel) : Nat := m.hkv / m.g
/-- Layout of its KV pages (R279, R280). -/
def lay (m : GenModel) : State.KvLay :=
  let hpp := min (256 / (m.d * (m.kv.bits / 8))) m.hkvm
  ⟨m.d, m.kv, hpp, m.hkvm / hpp, m.layers.length⟩
/-- Format of Q against the KV format. -/
def qf (m : GenModel) : FpFmt := if m.kv = .bf16 then .bf16 else .e4m3
end GenModel

/-- An 8-byte field. -/
def q64 (b : List Byte) (i : Nat) : Word64 := BitVec.ofNat 64 (leNat ((b.drop i).take 8))
/-- A 4-byte field. -/
def d32 (b : List Byte) (i : Nat) : Word32 := BitVec.ofNat 32 (leNat ((b.drop i).take 4))
/-- An `n`-byte field as a natural. -/
def nAt (b : List Byte) (i n : Nat) : Nat := leNat ((b.drop i).take n)

/-- FP32 numbers of words. -/
def nums (l : List Word32) : List XNum := l.map f32
/-- FP32 words of numbers. -/
def words (l : List XNum) : List Word32 := l.map (fun x => BitVec.ofNat 32 (f32Code x))

namespace State

/-! ### Products of a layer -/

/-- The format activations take against a weight tensor (R278). -/
def actFmt (t : Tensor) : Except Err FpFmt :=
  if t.raw then .error (.of 3 1)
  else if accKind (.fp .bf16) t.fmt = some .fused then .ok .bf16
  else if (accKind (.fp .e4m3) t.fmt).isSome then .ok .e4m3 else .error (.of 3 1)
/-- Rows and columns of a weight: K × N for a plain format, N × K for a block format (log entry 12). -/
def weightDims (t : Tensor) : Nat × Nat := if t.fmt.isBlock then (t.cols, t.rows) else (t.rows, t.cols)
/-- A weight tensor with the dimensions `k` × `n`, times `e` experts (R277). -/
def weight (s : State) (who : Nat) (w : Word64) (k n e : Nat) : Except Err Tensor := do
  let t ← s.tensor who w false
  let _ ← actFmt t
  need (weightDims t == (if t.fmt.isBlock then (k, n * e) else (k * e, n))) 3
  pure t
/-- The lanes of expert `x` of a weight of `k` × `n`. -/
def expertLanes (s : State) (t : Tensor) (k n x : Nat) : List (List EngElem) :=
  let ls := s.operandLanes t true
  if t.fmt.isBlock then (ls.drop (x * n)).take n else ls.map (fun l => (l.drop (x * k)).take k)
/-- Rows of FP32 numbers times a weight's lanes: activations are cast with the reset NUM_CTL, results drain in FP32 with
m = 1.0 (R54, R278). -/
def rowsTimes (f : FpFmt) (wf : Fmt) (lanes : List (List EngElem)) (xs : List (List XNum)) : List (List XNum) × NumFlags :=
  let kind := (accKind (.fp f) wf).getD .fused
  let rs := xs.map (fun r =>
    let a := r.map (castFp f .rne (castSat 0x10 0 (.fp f)))
    let es := a.map (fun c => numElem (f.decode c.1))
    let ys := lanes.map (fun l =>
      let v := accumulate kind XNum.zero (es.zip l)
      let y := drainMul kind XNum.one v.1
      (y.1, v.2 ||| y.2))
    (ys.map (·.1), orFlags (a.map (·.2)) ||| orFlags (ys.map (·.2))))
  (rs.map (·.1), orFlags (rs.map (·.2)) ||| (if lanes.any (fun l => l.any (fun x => x.num.isNan)) then fNI else fNone))
/-- The same for a weight named by its descriptor. -/
def times (s : State) (who : Nat) (w : Word64) (k n e x : Nat) (xs : List (List XNum)) : Except Err (List (List XNum) × NumFlags) := do
  let t ← s.weight who w k n e
  let f ← actFmt t
  pure (rowsTimes f t.fmt (s.expertLanes t k n x) xs)
/-- A norm weight: FP32 (R278). -/
def normW (s : State) (who : Nat) (w : Word64) (n : Nat) : Except Err (List XNum) := do
  let t ← s.tensor who w false
  need (!t.raw && t.fmt == .fp .fp32) 1
  need (t.rows * t.cols == n) 3
  pure (s.tensorNums t)
/-- Normed rows (R121, R289). -/
def normRows (ws : List XNum) (eps : Word32) (xs : List (List XNum)) : List (List XNum) × NumFlags :=
  let rs := xs.map (fun r => rmsRow r ws (f32 eps))
  (rs.map (fun r => r.map (·.1)), orFlags (rs.map (fun r => orFlags (r.map (·.2)))) ||| niOf (f32 eps :: ws))

/-- The number of experts a router serves. -/
def expertsOf (s : State) (who : Nat) (w : Word64) : Nat :=
  match s.tensor who w false with
  | .ok t => (weightDims t).2
  | .error _ => 1
/-- MLP width of this member, from its W_DOWN. -/
def mlpWidth (s : State) (m : GenModel) (l : GenLayer) (who : Nat) : Nat :=
  match s.tensor who l.down false with
  | .ok t => (weightDims t).1 / (if m.moe && !t.fmt.isBlock then s.expertsOf who l.router else 1)
  | .error _ => 0

/-- One layer's tensors agree with the header (R277, R278). -/
def layerCheck (s : State) (who : Nat) (m : GenModel) (l : GenLayer) : Except Err Unit := do
  let e := if m.moe then s.expertsOf who l.router else 1
  let f := s.mlpWidth m l who
  let _ ← s.normW who l.attnNorm m.dm
  let _ ← s.weight who l.wqkv m.dm ((m.hqm + 2 * m.hkvm) * m.d) 1
  let _ ← s.weight who l.wo (m.hqm * m.d) m.dm 1
  need ((l.mlpNorm == 0) == m.par && (l.router == 0) == !m.moe) 3
  if m.par then pure () else do let _ ← s.normW who l.mlpNorm m.dm
  let _ ← s.weight who l.gateUp m.dm (2 * f) e
  let _ ← s.weight who l.down f m.dm e
  if m.moe then do let _ ← s.weight who l.router m.dm e 1
  else pure ()

/-- Read a model descriptor (R277, R278), which lies in control regions of the model key domain (R145). A breach is OPERAND, DETAIL 0x03. -/
def genModel (s : State) (who a : Nat) : Except Err GenModel := do
  need (a % 64 == 0) 3
  let b ← s.readOp who a 64
  let n := nAt b 2 2
  let hq := nAt b 0x0C 2
  let hkv := nAt b 0x0E 2
  let d := nAt b 0x10 2
  let kvf := nAt b 0x12 1
  let fl := nAt b 0x13 1
  let g := nAt b 0x1C 1
  let rank := nAt b 0x1D 1
  let ek := nAt b 0x1E 1
  let dm := nAt b 4 4
  let v := nAt b 8 4
  let kv : FpFmt := if kvf = 1 then .bf16 else if kvf = 3 then .e4m3 else .e5m2
  let hpp := min (256 / (d * (kv.bits / 8))) (hkv / g)
  need (nAt b 0 2 == 1 && 1 ≤ n && n ≤ 512 && 1 ≤ g && g ≤ 64 && rank < g && 1 ≤ dm && dm ≤ 65536 && dm % (64 * g) == 0 &&
    64 ≤ v && v ≤ 1048576 && v % (64 * g) == 0 && 1 ≤ hkv && hq % hkv == 0 && 1 ≤ hq && hkv % g == 0 &&
    (d == 64 || d == 128 || d == 256) && (kvf == 1 || kvf == 3 || kvf == 4) && fl < 4 && nAt b 0x1F 1 == 0 &&
    (!(fl.testBit 1) || (1 ≤ ek && ek ≤ 8)) && 1 ≤ hpp && (hkv / g) % hpp == 0) 3
  let lb ← s.readOp who (a + 64) (64 * n + 8 * g)
  need (s.ctlSpan a (64 + 64 * n + 8 * g)) 3
  let layers := (List.range n).map (fun i =>
    let e := (lb.drop (64 * i)).take 64
    (⟨q64 e 0, q64 e 8, q64 e 0x10, q64 e 0x18, q64 e 0x20, q64 e 0x28, q64 e 0x30, d32 e 0x38, d32 e 0x3C⟩ : GenLayer))
  let group := (List.range g).map (fun i => nAt lb (64 * n + 8 * i) 8)
  need (group.getD rank 0 == s.globalAddr (nAt b 0x38 8)) 3
  pure ⟨dm, v, hq, hkv, d, kv, fl.testBit 0, fl.testBit 1, d32 b 0x14, d32 b 0x18, g, rank, ek, q64 b 0x20, q64 b 0x28, q64 b 0x30,
    nAt b 0x38 8, layers, group⟩

/-- Every tensor of a model agrees with its header. -/
def modelCheck (s : State) (who : Nat) (m : GenModel) : Except Err Unit := do
  let e ← s.tensor who m.embed false
  need (!e.raw && e.fmt != .int32) 1
  need (e.cols == m.dm && e.rows == m.vocab) 3
  let _ ← s.weight who m.lmHead m.dm (m.vocab / m.g) 1
  let _ ← s.normW who m.fnorm m.dm
  m.layers.foldl (fun (acc : Except Err Unit) l => do let _ ← acc; s.layerCheck who m l) (.ok ())

/-! ### KV pages of a request (R279 to R282) -/

/-- Pin a page, bringing it to DRAM first (R282). -/
def pinTile (s : State) (n : Nat) : State :=
  let t := s.tile n
  match t.st with
  | .dram => s.tileSet n { t with pin := true }
  | .flash => s.askMove ⟨n, .promote, .place, true⟩
  | _ => s
/-- The tiles of block `i` of a page table. -/
def blockTiles (s : State) (pt : Nat) (l : KvLay) (i : Nat) : List Nat :=
  match blockOf (s.ptEntry pt i) with
  | some a => (List.range (l.nlayer * l.s)).map (fun k => a / 65536 + k)
  | none => []
/-- PREFETCH with PIN over blocks (R282, R283). -/
def pinBlocks (s : State) (pt : Nat) (l : KvLay) (is_ : List Nat) : State :=
  (is_.flatMap (s.blockTiles pt l)).foldl pinTile s
/-- Blocks that positions `lo` to `hi` − 1 lie in. -/
def blocksOf (lo hi : Nat) : List Nat := List.range' (lo / 128) ((hi + 127) / 128 - lo / 128)

/-- Store K and V of one position and layer (R279). -/
def putKv (s : State) (h who pt : Nat) (m : GenModel) (l : GenLayer) (layer j : Nat) (ks vs : List XNum) : Except Err (State × NumFlags) :=
  let la := m.lay
  let els (sc : Word32) (xs : List XNum) : List (Nat × NumFlags) := xs.map (fun x =>
    let q := vDiv x (f32 sc)
    let c := castFp m.kv .rne true q.1
    (c.1, q.2 ||| c.2))
  let kc := els l.kScale ks
  let vc := els l.vScale vs
  let pieces := (List.range (m.hkvm * m.d)).flatMap (fun i =>
    let kap := i / m.d
    let e := kap % la.hpp * m.d + i % m.d
    let a := s.pageAt pt la layer (kap / la.hpp) j
    [((a + kOff la.b e (j % 128) : Nat) , leBytes la.b ((kc.getD i (0, fNone)).1)),
     ((a + vOff la.b e (j % 128) : Nat), leBytes la.b ((vc.getD i (0, fNone)).1))])
  (pieces.foldl (fun acc p => putElem h who false acc ((p.1 : Int), p.2)) (.ok s)).map (fun u =>
    (u, orFlags (kc.map (·.2)) ||| orFlags (vc.map (·.2))))

/-! ### Group exchange (R290) -/

/-- Write bytes at a global address for a step (R290): own slices are exchanged locally. -/
def genPut (s : State) (h : Nat) (o : RunOp) (ga : Nat) (bs : List Byte) : State :=
  let a := ga % 2 ^ 52
  (cutSpan a bs.length).foldl (fun u p =>
    u.remPiece h o ⟨o.tenant, some h, .write, p.1, (bs.drop (p.1 - a)).take p.2, p.2, 0, none, []⟩ 0x11 (2 ^ 62) (ga / 2 ^ 52 * 2 ^ 52 + p.1)) s
/-- Add 1 to a counter of an exchange area. -/
def genAdd (s : State) (h : Nat) (o : RunOp) (ga : Nat) : State :=
  s.remPiece h o ⟨o.tenant, some h, .atomic, ga % 2 ^ 52, leBytes 8 1 ++ leBytes 8 0, 16, 0, none, []⟩ 0x12 0 ga
/-- Offset of a counter of the mailbox: LAYER_CTR[2], GATHER_CTR[2], LOGIT_CTR (log entry 30). -/
def ctrOff (i : Nat) : Nat := 0x10 + 8 * i
/-- A counter of this member's mailbox. -/
def ctrVal (s : State) (m : GenModel) (i : Nat) : Nat := leNat (s.bytesAt (m.exch + ctrOff i) 8)
/-- Offset of a partial buffer's slice of source `g`. -/
def partOff (m : GenModel) (par g : Nat) : Nat := 0x1000 + par * (16 * m.dm * 4) + g * (16 * m.dm / m.g) * 4
/-- Offset of a gather buffer's slice of member `c`. -/
def gatherOff (m : GenModel) (par c : Nat) : Nat := 0x1000 + 2 * (16 * m.dm * 4) + par * (16 * m.dm * 4) + c * (16 * m.dm / m.g) * 4
/-- Offset of the logit gather's slice of member `c`, at the lead. -/
def logitOff (m : GenModel) (c : Nat) : Nat := 0x1000 + 4 * (16 * m.dm * 4) + c * (16 * m.vocab / m.g) * 4
/-- FP32 numbers of a slice of the exchange area, row by row. -/
def sliceAt (s : State) (m : GenModel) (off rows cols : Nat) : List (List XNum) :=
  let b := s.bytesAt (m.exch + off) (4 * rows * cols)
  (List.range rows).map (fun r => (List.range cols).map (fun c => f32At b (4 * (r * cols + c))))

/-- A step's state. -/
def gstepSet (s : State) (h : Nat) (g : GStep) : State := { s with gsteps := Map.set s.gsteps h g }

/-- Send this member's partial rows to every member, column slice by column slice, and count it (R290). -/
def sendPartial (s : State) (h : Nat) (o : RunOp) (m : GenModel) (g : GStep) (rows : List (List XNum)) : State :=
  let w := m.dm / m.g
  let par := g.layer % 2
  let s := (List.range m.g).foldl (fun u c =>
    let ga := m.group.getD c 0
    let bs := rows.flatMap (fun r => f32Bytes ((r.drop (c * w)).take w))
    (u.genPut h o (ga + partOff m par m.rank) bs).genAdd h o (ga + ctrOff par)) s
  (s.remIssue h).gstepSet h { g with phase := 2 }

/-- Sum the partials in ascending member order and write the slice to every member's gather buffer (R290). -/
def sumSlices (s : State) (h : Nat) (o : RunOp) (m : GenModel) (g : GStep) : State :=
  let w := m.dm / m.g
  let par := g.layer % 2
  let n := g.x.length
  let sl := (List.range m.g).map (fun k => s.sliceAt m (partOff m par k) n w)
  let sm := (List.range n).map (fun r => (List.range w).map (fun c =>
    let vs := sl.map (fun x => (x.getD r []).getD c .nan)
    vs.tail.foldl (fun (a : VStep XNum) v => let z := vAdd a.1 v; (z.1, a.2 ||| z.2)) (vs.headD .nan, fNone)))
  let s := s.opFlags h (orFlags (sm.map (fun r => orFlags (r.map (·.2)))))
  let bs := sm.flatMap (fun r => f32Bytes (r.map (·.1)))
  let s := (List.range m.g).foldl (fun u c =>
    let ga := m.group.getD c 0
    (u.genPut h o (ga + gatherOff m par m.rank) bs).genAdd h o (ga + ctrOff (2 + par))) s
  (s.remIssue h).gstepSet h { g with phase := 3, base := g.base.set par (g.base.getD par 0 + m.g) }

/-! ### The pass of a layer (R289 step 4) -/

/-- Norm, QKV, rotary encoding and the KV writes of a layer. -/
def layerStart (s : State) (h who : Nat) (m : GenModel) (l : GenLayer) (g : GStep) : Except Err State := do
  let xs := g.x.map nums
  let nw ← s.normW who l.attnNorm m.dm
  let nr := normRows nw m.eps xs
  let y ← s.times who l.wqkv m.dm ((m.hqm + 2 * m.hkvm) * m.d) 1 0 nr.1
  let rot (pos : Nat) (v : List XNum) : List XNum := (List.range (v.length / m.d)).flatMap (fun k =>
    let r := Config.ropeHead m.rope pos (words ((v.drop (k * m.d)).take m.d))
    (List.range m.d).map (fun i => f32 (r.getD i 0)))
  let rows := y.1.zip (List.range y.1.length)
  let qs := rows.map (fun p => words (rot (g.pos + p.2) (p.1.take (m.hqm * m.d))))
  let r ← rows.foldl (fun (acc : Except Err (State × NumFlags)) p => do
    let (u, f) ← acc
    let j := g.pos + p.2
    let (u, f') ← u.putKv h who g.pt m l g.layer j (rot j ((p.1.drop (m.hqm * m.d)).take (m.hkvm * m.d)))
      ((p.1.drop ((m.hqm + m.hkvm) * m.d)).take (m.hkvm * m.d))
    pure (u, f ||| f')) (.ok (s, fNone))
  let u := (r.1.opFlags h (nr.2 ||| y.2 ||| r.2)).pinBlocks g.pt m.lay (blocksOf g.pos (g.pos + g.x.length))
  pure (u.gstepSet h { g with q := qs, phase := 1 })

/-- The MLP of normed rows (R277, R289). -/
def mlp (s : State) (who : Nat) (m : GenModel) (l : GenLayer) (nr : List (List XNum)) : Except Err (List (List XNum) × NumFlags) := do
  let e := if m.moe then s.expertsOf who l.router else 1
  let f := s.mlpWidth m l who
  let one (x : Nat) (r : List (List XNum)) : Except Err (List (List XNum) × NumFlags) := do
    let gu ← s.times who l.gateUp m.dm (2 * f) e x r
    let hid := gu.1.map (fun v => (List.range f).map (fun i =>
      f32 (Config.mlpGate (BitVec.ofNat 32 (f32Code (v.getD i .nan))) (BitVec.ofNat 32 (f32Code (v.getD (f + i) .nan))))))
    let d ← s.times who l.down f m.dm e x hid
    pure (d.1, gu.2 ||| d.2)
  if !m.moe then one 0 nr
  else do
    let rt ← s.times who l.router m.dm e 1 0 nr
    (nr.zip rt.1).foldl (fun (acc : Except Err (List (List XNum) × NumFlags)) p => do
      let (out, fl) ← acc
      let mix := (Config.moeMix m.ek (words p.2)).take m.ek
      let y ← mix.foldl (fun (a : Except Err (List XNum × NumFlags)) x => do
        let (v, f1) ← a
        let r ← one (x.1 % e) [p.1]
        let t := zipFlags vMul (r.1.headD []) (List.replicate m.dm (f32 x.2))
        let z := zipFlags vAdd v t.1
        pure (z.1, f1 ||| r.2 ||| t.2 ||| z.2)) (.ok (List.replicate m.dm XNum.zero, fNone))
      pure (out ++ [y.1], fl ||| y.2)) (.ok ([], rt.2))

/-- Attention over the pages, the output projection and, when PARALLEL is 1, the MLP: this member's partial. -/
def layerAttend (s : State) (h who : Nat) (o : RunOp) (m : GenModel) (l : GenLayer) (g : GStep) : Except Err State := do
  let la := m.lay
  let n := g.x.length
  let qc := g.q.map (fun r => (nums r).map (fun x => castFp m.qf .rne (castSat 0x10 0 (.fp m.qf)) x))
  let c ← (match attnCtx (.fp m.qf) (.fp m.kv) (.fp m.kv) (f32 (Config.attnScale m.d)) (f32 l.kScale) (f32 l.vScale) with
    | some c => (.ok c : Except Err AttnCtx)
    | none => .error (.of 3 1))
  let rows : List (List XNum × Bool × NumFlags) := (List.range n).map (fun i =>
    let hs := (List.range m.hqm).map (fun k =>
      s.pagedRow c g.pt la g.layer (k * m.hkvm / m.hqm) ⟨g.pos + n, true, 0⟩
        ((((qc.getD i []).drop (k * m.d)).take m.d).map (fun q => numElem (m.qf.decode q.1))) (g.pos + i))
    (hs.flatMap (·.o), hs.any (·.empty), orFlags (hs.map (·.fl))))
  let a ← s.times who l.wo (m.hqm * m.d) m.dm 1 0 (rows.map (·.1))
  let fl := orFlags (qc.map (fun r => orFlags (r.map (·.2)))) ||| orFlags (rows.map (·.2.2)) ||| a.2
  let g : GStep := { g with empty := List.zipWith (fun x y => x || y.2.1) g.empty rows }
  if !m.par then pure ((s.opFlags h fl).sendPartial h o m g a.1)
  else do
    let nw ← s.normW who l.attnNorm m.dm
    let nr := normRows nw m.eps (g.x.map nums)
    let y ← s.mlp who m l nr.1
    let z := List.zipWith (zipFlags vAdd) a.1 y.1
    pure ((s.opFlags h (fl ||| y.2 ||| orFlags (z.map (·.2)))).sendPartial h o m g (z.map (·.1)))

/-- The MLP half of a layer that is not PARALLEL. -/
def layerMlp (s : State) (h who : Nat) (o : RunOp) (m : GenModel) (l : GenLayer) (g : GStep) : Except Err State := do
  let nw ← s.normW who l.mlpNorm m.dm
  let nr := normRows nw m.eps (g.x.map nums)
  let y ← s.mlp who m l nr.1
  pure ((s.opFlags h (nr.2 ||| y.2)).sendPartial h o m { g with second := true } y.1)

/-- The sums are gathered: the residual add, and what comes next. -/
def gathered (s : State) (h : Nat) (m : GenModel) (g : GStep) : State :=
  let w := m.dm / m.g
  let par := g.layer % 2
  let sl := (List.range m.g).map (fun c => s.sliceAt m (gatherOff m par c) g.x.length w)
  let add := (List.range g.x.length).map (fun r => sl.flatMap (fun x => x.getD r []))
  let z := List.zipWith (fun x a => zipFlags vAdd (nums x) a) g.x add
  let g : GStep := { g with x := z.map (fun r => words r.1), base := g.base.set (2 + par) (g.base.getD (2 + par) 0 + m.g) }
  let s := s.opFlags h (orFlags (z.map (·.2)))
  if !m.par && !g.second then s.gstepSet h { g with phase := 4 }
  else if g.layer + 1 < m.layers.length then s.gstepSet h { g with layer := g.layer + 1, second := false, phase := 0 }
  else s.gstepSet h { g with second := false, phase := 5 }

/-- Final norm and this member's logits, written to the lead (R289 step 5). -/
def head (s : State) (h who : Nat) (o : RunOp) (m : GenModel) (g : GStep) : Except Err State := do
  let nw ← s.normW who m.fnorm m.dm
  let nr := normRows nw m.eps (g.x.map nums)
  let y ← s.times who m.lmHead m.dm (m.vocab / m.g) 1 0 nr.1
  let ga := m.group.getD 0 0
  let s := ((s.opFlags h (nr.2 ||| y.2)).genPut h o (ga + logitOff m m.rank) (y.1.flatMap f32Bytes)).genAdd h o (ga + ctrOff 4)
  pure ((s.remIssue h).gstepSet h { g with phase := if g.follow then 8 else 6 })

/-! ### Passes, delivery (R289, R293, R294, R299) -/

/-- Begin a pass of rows: embed the tokens (R289). A token outside the vocabulary has no stated row: free values. -/
def passStart (s : State) (h who : Nat) (m : GenModel) (g : GStep) (toks : List Word32) (pos : Nat) (prefill : Bool) : Except Err State := do
  let e ← s.tensor who m.embed false
  let rows := toks.map (fun t =>
    if t.toNat < m.vocab then words (widen (codeNums (SD.src e.d) (s.codesAt e.d (t.toNat * m.dm) m.dm)))
    else (List.range m.dm).map (fun i => (Config.freeValue (s.freeCtr + i)).setWidth 32))
  let s : State := { s with freeCtr := s.freeCtr + m.dm }
  let s := s.opFlags h (niOf (toks.flatMap (fun t => if t.toNat < m.vocab then codeNums (SD.src e.d) (s.codesAt e.d (t.toNat * m.dm) m.dm) else [])))
  pure (s.gstepSet h { g with read := false, toks := toks, pos := pos, prefill := prefill, x := rows, q := [], empty := toks.map (fun _ => false),
                              layer := 0, second := false, phase := 0, tops := [] })

/-- Announce a pass to the other members' mailboxes: the tokens, NPOS (bit 31: a pass of a prompt), LEN, STATE and, last,
STEP (R290, R291; log entry 30). -/
def announce (s : State) (h : Nat) (o : RunOp) (m : GenModel) (g : GStep) : State :=
  let n := g.toks.length + (if g.prefill then 2 ^ 31 else 0)
  let bs := ((List.range 16).flatMap (fun i => leBytes 4 (g.toks.getD i 0).toNat)) ++ leBytes 4 n ++ leBytes 4 g.pos
  let g : GStep := { g with seen := g.seen + 1, at_ := s.ft }
  let s := ((List.range m.g).filter (· != m.rank)).foldl (fun u c =>
    let ga := m.group.getD c 0
    ((u.genPut h o (ga + 0x38) bs).genPut h o (ga + 8) (leBytes 4 0)).genPut h o ga (leBytes 8 g.seen)) s
  let s := s.store m.exch (leBytes 8 g.seen)
  (s.remIssue h).gstepSet h g

/-- Write STATE to every other member's mailbox (R291). -/
def tellState (s : State) (h : Nat) (o : RunOp) (m : GenModel) (v : Nat) : State :=
  (((List.range m.g).filter (fun c => c != m.rank && s.targetOk (m.group.getD c 0))).foldl (fun u c => u.genPut h o (m.group.getD c 0 + 8) (leBytes 4 v)) s).remIssue h

/-- A request-table entry. -/
def req? (s : State) (r : Nat) : Option Req := Map.get? s.reqs r
/-- Set it. -/
def reqSet (s : State) (r : Nat) (q : Req) : State := { s with reqs := Map.set s.reqs r q }

/-- ⌈n / d⌉. -/
def cdiv (n d : Nat) : Nat := (n + d - 1) / d
/-- A model entry of the admission unit. -/
def mdl (s : State) (k : Nat) : Mdl := Map.get s.mdls Mdl.none k
/-- term(i) of a request under a model entry, ns (R388). -/
def costTerm (m : Mdl) (npos maxLen : Nat) : Nat := npos * (m.row.toNat + cdiv maxLen 1024 * m.ctx.toNat)
/-- RHO × 2^23, exactly: RHO is never below 1.0 (R388). -/
def rhoQ (m : Mdl) : Nat := (2 ^ 23 + fld m.rho 22 0) * 2 ^ (fld m.rho 30 23 - 127)
/-- What a request's end, failure, parking or release frees is noted for a second (R393): cycle work in ns × 2^23. -/
def noteFreed (s : State) (q : Req) (work frames entries : Bool) : State :=
  let m := s.mdl q.mdl
  let f : Freed := ⟨s.ft, q.mdl, q.tenant, if work then rhoQ m * costTerm m q.nposMax q.maxLen else 0, if frames then q.kvFrames else 0,
    if entries then 1 else 0⟩
  { s with freed := s.freed.filter (fun x => s.ft.toNat ≤ x.at_.toNat + 4000000000) ++ [f] }

/-- The contract instant of a step (R299), for a reply fetched at `fetch`. -/
def contractAt (q : Req) (first : Bool) (fetch : Nat) : Nat :=
  if first then q.admitFt.toNat + q.ttftUs.toNat * 4000
  else q.lastFt.toNat + q.tbtUs.toNat * 4000 + (fetch - (q.lastFt.toNat + 80000))

/-- The pass of the entry in hand: the next tokens of its prompt, else its candidates (R289 step 3). -/
def entryPass (s : State) (h who : Nat) (o : RunOp) (m : GenModel) (g : GStep) (pos : Nat) : Except Err State := do
  match g.queue with
  | [] => .ok (s.gstepSet h { g with phase := 9 })
  | e :: _ =>
    let p := g.prompt
    let toks := if p.isEmpty then e.toks.take e.npos else p.take 16
    let u ← s.passStart h who m { g with prompt := p.drop 16 } toks pos (!p.isEmpty)
    match Map.get? u.gsteps h with
    | some g => pure (u.announce h o m g)
    | none => pure u

/-- Start the entry at the front of the queue. -/
def entryStart (s : State) (h who : Nat) (o : RunOp) (m : GenModel) (g : GStep) : Except Err State :=
  match g.queue with
  | [] => .ok (((match s.op? h with | some o => s.opSet h { o with ran := true } | none => s)).gstepSet h { g with phase := 9 })
  | e :: _ => s.entryPass h who o m { g with prompt := e.prompt, pt := ((s.req? e.req).map (·.pt.toNat)).getD 0 } (((s.req? e.req).map (·.len)).getD 0)

/-- The logits are gathered at the lead: CANDIDATES, and the candidate set (R289 step 5, R293). -/
def candidateSet (s : State) (h who : Nat) (m : GenModel) (g : GStep) (e : GenEnt) (q : Req) (ver : Word32) : Except Err State := do
  let n := g.x.length
  let w := m.vocab / m.g
  let sl := (List.range m.g).map (fun c => s.sliceAt m (logitOff m c) n w)
  let zs := (List.range n).map (fun r => sl.flatMap (fun x => x.getD r []))
  let k := min (fld q.csCtl 10 0) m.vocab
  let rs := (zs.zip (List.range n)).map (fun p => candRow (g.pos + p.2) k q.beta (g.empty.getD p.2 false) (Config.freeValue (s.freeCtr + p.2)) p.1)
  let s : State := ({ s with freeCtr := s.freeCtr + n } : State).opFlags h (orFlags (rs.map (·.2.1)))
  let kb := fld q.csCtl 10 0
  let hdr := leBytes 4 q.step ++ leBytes 1 e.npos ++ leBytes 1 (if e.first then 1 else 0) ++ leBytes 2 0 ++ leBytes 4 ver.toNat ++
    leBytes 4 g.pos ++ leBytes 8 s.ft.toNat ++ leBytes 40 0
  let off := q.step % 2 ^ fld q.csCtl 27 24 * (64 + 16 * recBytes kb)
  let bs := hdr ++ rs.flatMap (fun r => padTo (recBytes kb) r.1)
  let g : GStep := { g with phase := 7, tops := rs.map (·.2.2), base := g.base.set 4 (g.base.getD 4 0 + m.g) }
  let a := q.cs.toNat + off
  if bit q.csCtl 31 then
    if s.hostReach then pure ((s.emit (.hostWrite a bs false)).gstepSet h g) else pure (s.dmaErr.gstepSet h g)
  else do
    let u ← putElem h who false (.ok s) ((a : Nat), bs)
    pure (u.gstepSet h g)

/-- The TOKEN item (R294). -/
def tokenItem (s : State) (o : RunOp) (g : GStep) (e : GenEnt) (q : Req) (off : Nat) : State :=
  let units := fld q.csCtl 18 16
  let data := off % 2 ^ 32 + e.npos * 2 ^ 32 + q.step % 2 ^ 24 * 2 ^ 40
  let u : Unit0 := ⟨0x10, units - 1, q.evtPrio, o.cmd.seq, srcOf o.tenant o.ring, o.cmd.opcode.toNat, o.cmd.user, o.ftStart, s.ft,
    statusOf 0 0 o.flags, BitVec.ofNat 32 (2 ^ 31 + e.req), o.version, 0, BitVec.ofNat 64 data⟩
  let row (i : Nat) : List Byte := (List.range 16).flatMap (fun p => leBytes 4 (((g.tops.getD p []).getD i 0).toNat))
  s.storeItem q.tenant q.evq q.evtPrio (u.bytes ++ (List.range (units - 1)).flatMap row)

/-- The candidate set is visible: LAST_FT, REPLY, what was measured, the TOKEN item, then the next entry (R289 step 6, R298,
R299). -/
def deliverStep (s : State) (h who : Nat) (o : RunOp) (m : GenModel) (g : GStep) : Except Err State :=
  match g.queue with
  | [] => .ok s
  | e :: rest =>
    match s.req? e.req with
    | none => s.entryStart h who o m { g with queue := rest }
    | some q =>
      let us (from_ : Word64) : Nat := (s.ft.toNat - from_.toNat) / 4000
      let off := q.step % 2 ^ fld q.csCtl 27 24 * (64 + 16 * recBytes (fld q.csCtl 10 0))
      let s1 := s.tokenItem o g e q off
      let q' : Req := { q with
        st := 3, step := q.step + 1, pend := e.npos, lastFt := s.ft, version := o.version, resumed := false
        ttftAct := if e.first then BitVec.ofNat 32 (us q.admitFt) else q.ttftAct
        tbtMax := if e.first then q.tbtMax else BitVec.ofNat 32 (max q.tbtMax.toNat (us q.lastFt)) }
      (s1.reqSet e.req q').entryStart h who o m { g with queue := rest }

/-- One advance of a step, none where it waits. -/
def genAdvance (s : State) (h : Nat) : Option (Except Err State) :=
  match Map.get? s.gsteps h, s.op? h with
  | some g, some o =>
    if o.code ≠ 0 || o.ran || 8 ≤ g.phase then none
    else match s.genModel g.who g.model with
      | .error e => some (.error e)
      | .ok m =>
        let par := g.layer % 2
        let waited (i : Nat) : Bool := g.base.getD i 0 + m.g ≤ s.ctrVal m i
        match m.layers[g.layer]? with
        | none => some (.error (.of 3 3))
        | some l =>
          match g.phase with
          | 0 => if s.opWaits h then none else some (s.layerStart h g.who m l g)
          | 1 => if s.opWaits h then none else some (s.layerAttend h g.who o m l g)
          | 2 => if waited par then some (.ok (s.sumSlices h o m g)) else none
          | 3 => if waited (2 + par) then some (.ok (s.gathered h m g)) else none
          | 4 => some (s.layerMlp h g.who o m l g)
          | 5 =>
            if g.prefill then
              if g.follow then some (.ok (s.gstepSet h { g with phase := 8 }))
              else
                let len := g.pos + g.x.length
                let s := match g.queue with
                  | e :: _ => (match s.req? e.req with | some q => s.reqSet e.req { q with len := len } | none => s)
                  | [] => s
                some (s.entryPass h g.who o m g len)
            else some (s.head h g.who o m g)
          | 6 =>
            if waited 4 then
              match g.queue with
              | e :: _ => (match s.req? e.req with
                | some q => some (s.candidateSet h g.who m g e q o.version)
                | none => none)
              | [] => none
            else none
          | 7 => if s.opWaits h then none else some (s.deliverStep h g.who o m g)
          | _ => none
  | _, _ => none

/-- What the next part of a step reads of the unified range (R289): embedding rows, weights, norm weights, and the pages of the
context. -/
def genReads (s : State) (m : GenModel) (g : GStep) : List (Nat × Nat) :=
  let all (w : Word64) : List (Nat × Nat) := if w = 0 then [] else match s.tensor g.who w false with
    | .ok t => (w.toNat, 64) :: s.fillReads t.d
    | .error _ => []
  match m.layers[g.layer]? with
  | none => []
  | some l =>
    let ffn := [l.gateUp, l.down, l.router].flatMap all
    match g.phase with
    | 0 =>
      let emb := if g.layer = 0 then (match s.tensor g.who m.embed false with
          | .ok e => (g.toks.filter (fun t => decide (t.toNat < m.vocab))).flatMap (fun t =>
              let k := strmElemK (SD.src e.d)
              (((s.elemAddrs e.d).drop (t.toNat * m.dm / k)).take ((m.dm + k - 1) / k)).map (fun a => (a.toNat, strmElemBytes (SD.src e.d))))
          | .error _ => []) else []
      emb ++ [l.attnNorm, l.wqkv].flatMap all
    | 1 => (g.pt, 8 * ((g.pos + g.x.length + 127) / 128)) :: s.pageReads g.pt m.lay g.layer (g.pos + g.x.length) ++ all l.wo ++
        (if m.par then all l.attnNorm ++ ffn else [])
    | 4 => all l.mlpNorm ++ ffn
    | 5 => if g.prefill then [] else [m.fnorm, m.lmHead].flatMap all
    | _ => []

/-- Advance a step as far as it goes: what its next part reads is read first, and the step waits for what comes from flash (R165, R169).
An error, or a poisoned unit (R86), ends it with that CODE. -/
def genRun (h : Nat) : Nat → State → State
  | 0, s => s
  | n + 1, s =>
    match Map.get? s.gsteps h with
    | none => s
    | some g =>
      let rs := match s.genModel g.who g.model with
        | .ok m => s.genReads m g
        | .error _ => []
      let s := if g.read then s else (s.gstepSet h { g with read := true }).readTiles rs (.op h)
      if s.reading (.op h) then s
      else match rs.findSome? (fun r => s.readErr g.who r.1 r.2), s.poisonIn rs with
        | some e, _ => s.opErrOn h e
        | none, some a => s.opFaultAt h 9 0 a
        | none, none =>
          match s.genAdvance h with
          | none => s
          | some (.ok u) => genRun h n (match Map.get? u.gsteps h with | some g => u.gstepSet h { g with read := false } | none => u)
          | some (.error e) => s.opErrOn h e

/-- Advances enough for any step of this package: 4 a layer half, and passes of up to a whole prompt. -/
def genFuel (g : GStep) (nlayer : Nat) : Nat :=
  (g.queue.map (fun e => (e.prompt.length / 16 + 2) * (8 * nlayer + 8))).sum + 8 * nlayer + 8

/-- Run a step until it waits. -/
def genGo (s : State) (h : Nat) : State :=
  match Map.get? s.gsteps h with
  | some g => genRun h (genFuel g 512) s
  | none => s

/-! ### Dispatch of a step (R281, R289, R301) -/

/-- The entries of a batch list up to the one that ends it, at most `n` (R301). -/
def batchRaw (s : State) (who : Nat) : Nat → Nat → Except Err (List (List Byte))
  | _, 0 => .ok []
  | a, n + 1 =>
    match s.readOp who a 128 with
    | .error e => .error e
    | .ok b => if nAt b 2 1 = 0 then .ok [] else (s.batchRaw who (a + 128) n).map (fun l => b :: l)
/-- The entries of a record (R288, R301). -/
def entriesOf (s : State) (o : RunOp) (toks : List Word32) : Except Err (List GenEnt) :=
  let c := o.cmd
  let fl (i : Nat) : Bool := c.w1.toNat.testBit i
  if isBatch c then
    if c.w2.toNat % 64 ≠ 0 then .error (.of 3 3)
    else match s.batchRaw o.tenant c.w2.toNat 64 with
      | .error e => .error e
      | .ok raw =>
        let es := raw.map (fun e => (⟨nAt e 0 2, nAt e 2 1, nAt e 3 1 % 32, (nAt e 3 1).testBit 7,
          (List.range 16).map (fun i => d32 e (0x40 + 4 * i)), []⟩ : GenEnt))
        if raw.all (fun e => nAt e 2 1 ≤ 16 && nAt e 3 1 / 32 % 4 == 0 && ((e.drop 4).take 60).all (· == 0)) && (es.map (·.npos)).sum ≤ 1024 &&
           decide (es.map (·.req)).Nodup && es.all (fun e => match s.req? e.req with | some q => q.tenant == o.tenant && q.st != 0 | none => false) then .ok es
        else .error (.of 0x15 6)
  else
    let npos := fld c.w1 4 0
    let one (p : List Word32) : List GenEnt := [⟨CmdRecF.reqId c, npos, fld c.w1 12 8, fl 16, toks, p⟩]
    if fl 16 && c.w2 != 0 && !fl 19 then
      match s.tensor o.tenant c.w2 false with
      | .error e => .error e
      | .ok t => if t.raw || t.fmt != .int32 then .error (.of 3 1)
                 else if 4194288 < t.rows * t.cols then .error (.of 3 3)
                 else .ok (one ((s.tensorCodes t).map (fun p => BitVec.ofNat 32 p.2)))
    else .ok (one [])

/-- LEN after an entry's commit (R289 step 2). -/
def lenAfter (q : Req) (e : GenEnt) : Nat := if e.first then q.len else q.len + e.accept + 1
/-- The checks of R289 step 1 on one entry. -/
def entryCheck (s : State) (who : Nat) (m : GenModel) (stop : Bool) (e : GenEnt) : Except Err Unit :=
  match s.req? e.req with
  | none => .error (.of 0x15 3)
  | some q =>
    let lo := lenAfter q e
    let hi := lo + e.prompt.length + e.npos
    if q.st ≠ (if e.first && !stop then 1 else 3) then .error (.of 0x15 3)
    else if !e.first && q.pend ≤ e.accept then .error (.of 0x15 5)
    else if stop then .ok ()
    else if 4194304 < hi then .error (.of 0x15 2)
    else if q.pt.toNat % 4096 ≠ 0 || !(s.blocksOk who q.pt.toNat m.lay (blocksOf lo hi)) then .error (.of 0x15 1)
    else .ok ()

/-- Commit an entry and enter STEP, with the step's deadline and a late reply counted (R289 step 2, R298, R299). -/
def entryCommit (o : RunOp) (s : State) (e : GenEnt) : State :=
  match s.req? e.req with
  | none => s
  | some q =>
    let late := !e.first && decide (q.lastFt.toNat + 80000 < o.fetchFt.toNat)
    s.reqSet e.req { q with
      len := lenAfter q e
      tokens := if e.first then q.tokens else q.tokens + BitVec.ofNat 64 (e.accept + 1)
      st := 2, pend := 0
      hostLate := if late then satAdd32 q.hostLate 1 else q.hostLate
      deadline := BitVec.ofNat 64 (contractAt q e.first o.fetchFt.toNat - 16000) }

/-- Has the PREFETCH of a resumed request completed (R283)? -/
def prefetched (s : State) (q : Req) (l : KvLay) : Bool :=
  !q.resumed || ((blocksOf 0 q.len).flatMap (s.blockTiles q.pt.toNat l)).all (fun n =>
    (s.tile n).st != .flash && (s.tile n).st != .movingF && (s.tile n).st != .movingD)
/-- Does a resumed request's context have a lost or emptied page (R282)? -/
def pagesLost (s : State) (q : Req) (l : KvLay) : Bool :=
  q.resumed && ((blocksOf 0 q.len).any (fun i => (blockOf (s.ptEntry q.pt.toNat i)).isNone) ||
    ((blocksOf 0 q.len).flatMap (s.blockTiles q.pt.toNat l)).any (fun n => (s.tile n).st == .lost || (s.tile n).st == .unalloc))

/-- VERIFY_STEP as a lead or a record alone (R289). -/
def verifyLead (s : State) (h : Nat) (o : RunOp) : Except Err State := do
  let c := o.cmd
  let fl (i : Nat) : Bool := c.w1.toNat.testBit i
  let npos := fld c.w1 4 0
  let stop := fl 17 || fl 18
  need (fld c.w1 63 21 == 0 && fld c.w1 15 13 == 0 && fld c.w1 7 5 == 0 && c.w3 == 0 && c.w4 == 0 && c.w5 == 0 && c.w6 == 0 &&
    (stop || isBatch c || (1 ≤ npos && npos ≤ 16)) && (isBatch c || fl 16 || c.w2 == 0) && CmdRecF.reqV c == !(isBatch c)) 3
  let pb ← (if stop || isBatch c then (.ok [] : Except Err (List Byte)) else s.block64 o.tenant c.w7)
  let m ← (match s.genModel o.tenant c.w0.toNat with
    | .ok m => (match s.modelCheck o.tenant m with | .ok _ => (.ok m : Except Err GenModel) | .error e => .error e)
    | .error e => .error e)
  need (m.rank == 0) 3
  let es ← s.entriesOf o ((List.range 16).map (fun i => d32 pb (4 * i)))
  es.foldl (fun (acc : Except Err Unit) e => do let _ ← acc; s.entryCheck o.tenant m stop e) (.ok ())
  let g : GStep := ⟨false, o.tenant, c.w0.toNat, 0, 0, es, [], [], false, 0, [], [], [], 0, false, 9, false,
    (List.range 5).map (s.ctrVal m), leNat (s.bytesAt m.exch 8), s.ft, []⟩
  if stop then
    let s := es.foldl (fun u e => match u.req? e.req with
      | some q => (u.noteFreed q true (!fl 17) false).reqSet e.req { q with
          len := lenAfter q { e with first := false }, tokens := q.tokens + BitVec.ofNat 64 (e.accept + 1), pend := 0
          st := if fl 17 then 5 else 4
          parkFt := if fl 17 then q.parkFt else u.ft }
      | none => u) s
    let s := if fl 17 then s.tellState h o m 1 else s
    match s.op? h with
    | some o => .ok ((s.opSet h { o with ran := true }).gstepSet h { g with queue := [] })
    | none => .ok s
  else do
    -- the pages of a request that leaves ADMITTED are pinned over its whole context (R282)
    let s := es.foldl (fun u e => match u.req? e.req with
      | some q => if q.st = 1 then u.pinBlocks q.pt.toNat m.lay (blocksOf 0 q.len) else u
      | none => u) s
    let s := es.foldl (entryCommit o) s
    s.entryStart h o.tenant o m g

/-- VERIFY_STEP as a follower (R291): it waits for the lead's announcements. -/
def verifyFollow (s : State) (h : Nat) (o : RunOp) : Except Err State := do
  let c := o.cmd
  let idle := fld c.w3 15 0
  need (fld c.w1 63 21 == 0 && fld c.w3 63 16 == 0 && 1 ≤ idle && c.w4 == 0 && c.w5 == 0 && c.w6 == 0) 3
  let m ← s.genModel o.tenant c.w0.toNat
  s.modelCheck o.tenant m
  let pt := match (if CmdRecF.reqV c then s.req? (CmdRecF.reqId c) else none) with
    | some q => q.pt.toNat
    | none => (Config.followerPt o.tenant m.exch).toNat
  .ok (s.gstepSet h ⟨true, o.tenant, c.w0.toNat, idle, pt, [], [], [], false, 0, [], [], [], 0, false, 8, false,
    (List.range 5).map (s.ctrVal m), leNat (s.bytesAt m.exch 8), s.ft, []⟩)

/-- Does VERIFY_STEP wait for a PREFETCH on a resumed request (R283), or find its pages lost (R282)? 1 waits, 2 lost. -/
def resumeWait (s : State) (o : RunOp) : Nat :=
  match (if CmdRecF.reqV o.cmd then s.req? (CmdRecF.reqId o.cmd) else none) with
  | some q =>
    if q.st ≠ 1 || !q.resumed then 0
    else match s.genModel o.tenant q.model.toNat with
      | .error _ => 0
      | .ok m => if s.pagesLost q m.lay then 2 else if s.prefetched q m.lay then 0 else 1
  | none => 0

/-- Start a dispatched VERIFY_STEP. -/
def verifyStep (s : State) (h : Nat) : State :=
  match s.op? h with
  | none => s
  | some o =>
    if o.dispatched = true ∧ o.ran = false ∧ o.code = 0 ∧ o.cmd.opcode.toNat = 0x0203 ∧ (Map.get? s.gsteps h).isNone = true then
      match s.resumeWait o with
      | 1 => s
      | 2 =>
        let s := match s.req? (CmdRecF.reqId o.cmd) with
          | some q => (s.noteFreed q true false false).reqSet (CmdRecF.reqId o.cmd) { q with st := 6 }
          | none => s
        s.opSet h { o with ran := true, code := 0x15, detail := 3 }
      | _ =>
        match (if o.cmd.w1.toNat.testBit 19 then s.verifyFollow h o else s.verifyLead h o) with
        | .error e => s.opErr h e
        | .ok u => u.genGo h
    else s

/-- A group exchange has failed: GEN, DETAIL 0x07, and STATE = 2 to every reachable member (R291). -/
def exchangeFail (s : State) (h : Nat) : State :=
  match Map.get? s.gsteps h, s.op? h with
  | some g, some o =>
    let s := s.opSet h { o with code := 0x15, detail := 7, ran := true }
    (match s.genModel g.who g.model with
     | .ok m => (match s.op? h with | some o => s.tellState h o m 2 | none => s)
     | .error _ => s)
  | _, _ => s

/-- Is a lead's step in the middle of an exchange with other members? -/
def inExchange (s : State) (h : Nat) : Bool :=
  match Map.get? s.gsteps h with
  | some g => !g.follow && (g.phase == 2 || g.phase == 3 || g.phase == 6) &&
      (match s.genModel g.who g.model with | .ok m => decide (1 < m.g) | .error _ => false)
  | none => false

/-- A step of a request has ended with a CODE other than OK: the request is FAILED, and a hardware fault or a lower-tier timeout
is counted (R298). -/
def stepFailed (s : State) (h : Nat) (o : RunOp) : State :=
  match Map.get? s.gsteps h with
  | none => s
  | some g =>
    if g.follow then s
    else
      let hw := o.code == 0x05 || o.code == 0x09 || o.code == 0x0B || (o.code == 0x0A && o.detail == 1)
      (s.requestsOf o.cmd).foldl (fun u r => match u.req? r with
        | some q => if q.st = 2 then (u.noteFreed q true false false).reqSet r { q with st := 6, faults := if hw then satAdd32 q.faults 1 else q.faults } else u
        | none => u) s

end State

/-- VERIFY_STEP (R276, R288, R289, R301). -/
def execVerifyStep (h : Nat) (s : State) : Out := keepQueue s <| .next (s.verifyStep h)

/-- EXCHANGE_SUM (R290): the step of an operator goes on as far as its counters and its writes allow: sums, gathers, further
layers. A remote write of a lead that has ended with another CODE fails the exchange (R291). -/
def execExchangeSum (h : Nat) (s : State) : Out := keepQueue s <|
  match Map.get? s.gsteps h, s.op? h with
  | some g, some o =>
    if o.code = 0x11 ∧ g.follow = false ∧ o.ran = false then .next (s.exchangeFail h) else .next (s.genGo h)
  | _, _ => .next s

/-- FOLLOWER_STEP (R291, R366): the mailbox of a follower: STATE 1 ends it with OK, STATE 2 with GEN, DETAIL 0x04; a new STEP
starts its part, unless it came at or after TURN_FT + SWAP_DELAY of a turnover, which holds it until the release. -/
def execFollowerStep (h : Nat) (s : State) : Out := keepQueue s <|
  match Map.get? s.gsteps h, s.op? h with
  | some g, some o =>
    if g.follow = true ∧ g.phase = 8 ∧ o.code = 0 ∧ o.ran = false then
      match s.genModel g.who g.model with
      | .error e => .next (s.opErrOn h e)
      | .ok m =>
        let b := s.bytesAt m.exch 0x80
        if nAt b 8 4 = 1 then .next ((s.opSet h { o with ran := true }).gstepSet h { g with phase := 9 })
        else if nAt b 8 4 = 2 then .next ((s.opSet h { o with ran := true, code := 0x15, detail := 4 }).gstepSet h { g with phase := 9 })
        else if nAt b 0 8 = g.seen then .next s
        else
          let held := match s.turn with
            | some t => decide (t.turnFt.toNat + t.swapDelay * 4000 ≤ s.ft.toNat)
            | none => false
          if held then .next s
          else
            let s := s.opSet h { o with version := s.genVersion }
            let s : State := match s.turn with
              | some t => if t.st = 2 && !t.readers.contains h then { s with turn := some { t with readers := h :: t.readers } } else s
              | none => s
            let n := nAt b 0x78 4
            let toks := (List.range (min (n % 2 ^ 31) 16)).map (fun i => d32 b (0x38 + 4 * i))
            match s.passStart h g.who m { g with seen := nAt b 0 8, at_ := s.ft } toks (nAt b 0x7C 4) (decide (2 ^ 31 ≤ n)) with
            | .error e => .next (s.opErrOn h e)
            | .ok u => .next (u.genGo h)
    else .next s
  | _, _ => .next s

/-- FOLLOWER_IDLE_TIMEOUT (R291). -/
def execFollowerIdleTimeout (h : Nat) (s : State) : Out := keepQueue s <|
  match Map.get? s.gsteps h, s.op? h with
  | some g, some o =>
    if g.follow = true ∧ g.phase = 8 ∧ o.code = 0 ∧ o.ran = false ∧ g.at_.toNat + g.idleMs * 4000000 ≤ s.ft.toNat ∧
       (match s.genModel g.who g.model with | .ok m => leNat (s.bytesAt m.exch 8) == g.seen | .error _ => true) = true then
      .next ((s.opSet h { o with ran := true, code := 0x15, detail := 4 }).gstepSet h { g with phase := 9 })
    else .next s
  | _, _ => .next s

/-- REPLY_TIMEOUT (R298): a request in REPLY whose reply has not been fetched within 1 s of LAST_FT is ENDED. -/
def execReplyTimeout (r : Nat) (s : State) : Out := keepQueue s <|
  match s.req? r with
  | some q =>
    if q.st = 3 ∧ q.lastFt.toNat + 4000000000 ≤ s.ft.toNat ∧
       s.ops.any (fun p => p.2.cmd.opcode == 0x0203 && (s.requestsOf p.2.cmd).contains r) = false then
      .next ((s.noteFreed q true false false).reqSet r { q with st := 5 })
    else .next s
  | none => .next s

namespace State

/-- Parked requests of a tenant, the earliest PARK_FT first. -/
def parkedBefore (q : Nat × Req) : List (Nat × Req) → List (Nat × Req)
  | [] => [q]
  | p :: ps => if q.2.parkFt < p.2.parkFt then q :: p :: ps else p :: parkedBefore q ps
/-- The tiles of a parked request block by block, in ascending block order. -/
def spillBlocks (s : State) (q : Req) : List (List Nat) :=
  match s.genModel q.tenant q.model.toNat with
  | .error _ => []
  | .ok m => (blocksOf 0 q.len).map (s.blockTiles q.pt.toNat m.lay)
/-- Spill one block (R282): TILE_MOVE to flash with UNPIN over its pages held in DRAM. -/
def spillBlock (s : State) (ts : List Nat) : State :=
  ts.foldl (fun u n =>
    let t := u.tile n
    if t.st = .dram && !u.ms.asks.any (fun a => a.tile == n) then (u.tileSet n { t with pin := false }).askMove ⟨n, .demote, .flash, false⟩ else u) s
/-- Tiles of an owner asked or moving to flash. -/
def leaving (s : State) (o : Nat) : Nat :=
  ((s.ms.asks.filter (fun a => a.dest == .flash && s.tileOwner a.tile == o)).length) +
  ((s.ms.moves.filter (fun p => p.2.dstFlash && s.tileOwner p.1 == o)).length)

end State

/-- KV_SPILL (R282): below its watermark, a tenant's parked requests spill, the one parked first first, until the free quota
with what is on its way reaches the watermark and 1,024 frames more. -/
def execKvSpill (t : Nat) (s : State) : Out := keepQueue s <|
  if t < 64 then
    let low := s.rdF (R.ADM_KV_SPILL_LOW t) 24 0
    if s.dFree t < low then
      let ps := (s.reqs.filter (fun p => p.2.tenant == t && p.2.st == 4)).foldl (fun a p => State.parkedBefore p a) []
      .next ((ps.flatMap (fun p => s.spillBlocks p.2)).foldl (fun u b =>
        if u.dFree t + u.leaving t < low + 1024 then u.spillBlock b else u) s)
    else .next s
  else .next s

end Sys2Proof.Machine
end

