-- ==== Sys2Proof/Machine/Learning.lean ====
section
/-! DEFINITION. Chapter 11: the matrix function unit and the update sweep (R323 to R335), and the COMMIT records (R337 to
R339). -/
namespace Sys2Proof.Machine
open Sys2Proof

/-! ### Matrices of FP32 numbers -/

/-- A row-major matrix. -/
abbrev Mat := List (List XNum)

/-- Columns of a matrix of `n` columns. -/
def colsOf (n : Nat) (a : Mat) : Mat := (List.range n).map (fun j => a.map (fun r => r.getD j .nan))
/-- A function on every element, with its flags. -/
def matMap (f : XNum → VStep XNum) (a : Mat) : Mat × NumFlags :=
  let r := a.map (fun row => row.map f)
  (r.map (fun row => row.map (·.1)), orFlags (r.flatMap (fun row => row.map (·.2))))
/-- A function on the elements of two matrices of one shape. -/
def matZip (f : XNum → XNum → VStep XNum) (a b : Mat) : Mat × NumFlags :=
  let r := List.zipWith (fun x y => List.zipWith f x y) a b
  (r.map (fun row => row.map (·.1)), orFlags (r.flatMap (fun row => row.map (·.2))))
/-- A function of row, column and element. -/
def matMapIdx (f : Nat → Nat → XNum → VStep XNum) (a : Mat) : Mat × NumFlags :=
  let r := (a.zip (List.range a.length)).map (fun p => (p.1.zip (List.range p.1.length)).map (fun q => f p.2 q.2 q.1))
  (r.map (fun row => row.map (·.1)), orFlags (r.flatMap (fun row => row.map (·.2))))

/-- One element of an MFU product: ascending k, one rounding each (R328). -/
def mfuDot (xs ys : List XNum) : VStep XNum :=
  (xs.zip ys).foldl (fun acc p => let r := vFma p.1 p.2 acc.1; (r.1, acc.2 ||| r.2)) (XNum.zero, fNone)
/-- A cast to BF16 with RNE, as PREC = 1 makes of each operand element (R328). -/
def toBf16 (x : XNum) : VStep XNum := let c := castFp .bf16 .rne false x; (FpFmt.decode .bf16 c.1, c.2)
/-- An MFU product of A and of B, which has `n` columns (R328): `prec` is PREC for each output block of 64 × 64, numbered row-major. -/
def mfuMul (prec : Nat → Bool) (n : Nat) (a b : Mat) : Mat × NumFlags :=
  let nb := (n + 63) / 64
  let cast := (List.range ((a.length + 63) / 64 * nb)).any prec
  let x := if cast then matMap toBf16 a else (a, fNone)
  let y := if cast then matMap toBf16 b else (b, fNone)
  let bc := (colsOf n b).zip (colsOf n y.1)
  let r := ((a.zip x.1).zip (List.range a.length)).map (fun p => (bc.zip (List.range n)).map (fun q =>
    if prec (p.2 / 64 * nb + q.2 / 64) then mfuDot p.1.2 q.1.2 else mfuDot p.1.1 q.1.1))
  (r.map (fun row => row.map (·.1)), x.2 ||| y.2 ||| orFlags (r.flatMap (fun row => row.map (·.2))))

/-- A sum of squares: each lane fuses acc := rne(acc + x·x), lanes combine in the order of R66 (R329). -/
def sumSq (xs : List XNum) : VStep XNum :=
  let lane (l : List XNum) : Option (VStep XNum) :=
    match l with
    | [] => none
    | l => some (l.foldl (fun acc x => let r := vFma x x acc.1; (r.1, acc.2 ||| r.2)) (XNum.zero, fNone))
  match (treeLevels vAdd 9 ((List.range 512).map (fun i => lane (laneElems xs i)))).head? with
  | some (some r) => r
  | _ => (XNum.zero, fNone)

/-- One iteration of NS_ORTHO on x, m × n (R329). -/
def nsStep (a b c : XNum) (prec : Nat → Bool) (m n : Nat) (x : Mat) : Mat × NumFlags :=
  let a1 := mfuMul prec m x (colsOf n x)
  let ba := matMap (vMul b) a1.1
  let bm : Mat × NumFlags :=
    if c.isZero then ba
    else
      let a2 := mfuMul prec m a1.1 a1.1
      let z := matZip (fun p q => vFma c p q) a2.1 ba.1
      (z.1, a2.2 ||| ba.2 ||| z.2)
  let y := mfuMul prec n bm.1 x
  let z := matZip (fun p q => vFma a p q) x y.1
  (z.1, a1.2 ||| ba.2 ||| bm.2 ||| y.2 ||| z.2)

/-- `k` iterations. -/
def nsSteps (a b c : XNum) (prec : Nat → Bool) (m n : Nat) : Nat → Mat × NumFlags → Mat × NumFlags
  | 0, x => x
  | k + 1, x => let y := nsStep a b c prec m n x.1; nsSteps a b c prec m n k (y.1, x.2 ||| y.2)

/-- NS_ORTHO of a rows × cols matrix, before the output cast (R329). -/
def nsOrtho (a b c eps scale : XNum) (iters : Nat) (prec : Nat → Bool) (rows cols : Nat) (g : Mat) : Mat × NumFlags :=
  let tr := decide (cols < rows)
  let m := min rows cols
  let n := max rows cols
  let x := if tr then colsOf cols g else g
  let ss := sumSq x.flatten
  let rt := vSqrt ss.1
  let de := vAdd rt.1 eps
  let r := vDiv XNum.one de.1
  let x0 := matMap (fun v => vMul v r.1) x
  let y := nsSteps a b c prec m n iters (x0.1, ss.2 ||| rt.2 ||| de.2 ||| r.2 ||| x0.2)
  let z := matMap (fun v => vMul v scale) y.1
  (if tr then colsOf n z.1 else z.1, y.2 ||| z.2)

/-- MACs of an NS_ORTHO (R329). -/
def nsMacs (c : XNum) (iters rows cols : Nat) : Nat :=
  let m := min rows cols
  iters * (2 * m * m * max rows cols + (if c.isZero then 0 else m * m * m))

/-- max |M − D| in FP32, D the unit matrix (R330). -/
def farFromUnit (m : Mat) : XNum :=
  (vMax ((matMapIdx (fun i j x => let v := vSub x (if i = j then XNum.one else XNum.zero); (v.1.abs, v.2)) m).1.flatten)).1

/-- The coupled Newton iteration from (X, M): the root, the last M, the iterations run, whether TOL stopped it (R330). -/
def kronSteps (p : Nat) (prec : Nat → Bool) (n : Nat) (tol : XNum) : Nat → Nat → Mat × Mat × NumFlags → Mat × Mat × NumFlags × Nat × Bool
  | 0, k, (x, m, f) => (x, m, f, k, false)
  | fuel + 1, k, (x, m, f) =>
    let mp : XNum := .fin true 1 (if p = 2 then -1 else -2)
    let dd : XNum := if p = 2 then .fin false 3 (-1) else .fin false 5 (-2)
    let t := matMapIdx (fun i j v => vFma mp v (if i = j then dd else XNum.zero)) m
    let x1 := mfuMul prec n x t.1
    let u := if p = 2 then (t.1, fNone) else mfuMul prec n t.1 t.1
    let w := mfuMul prec n u.1 m
    let m1 := mfuMul prec n u.1 w.1
    let fl := f ||| t.2 ||| x1.2 ||| u.2 ||| w.2 ||| m1.2
    let far := farFromUnit m1.1
    if XNum.zero.ltN tol && (far.ltN tol || far.eqv tol) then (x1.1, m1.1, fl, k + 1, true)
    else kronSteps p prec n tol fuel (k + 1) (x1.1, m1.1, fl)

/-- KRON_PRECOND of A (R330). -/
def kronRoot (p : Nat) (prec : Nat → Bool) (n iters : Nat) (eps tol : XNum) (a0 : Mat) : Mat × Mat × NumFlags × Nat × Bool :=
  let a := matMapIdx (fun i j v => if i = j then vAdd v eps else (v, fNone)) a0
  let ss := sumSq a.1.flatten
  let cn := vSqrt ss.1
  let rt := if p = 2 then cn else vSqrt cn.1
  let z := vRsqrt rt.1
  let x := (List.range n).map (fun i => (List.range n).map (fun j => if i = j then z.1 else XNum.zero))
  let ic := vDiv XNum.one cn.1
  let m := matMap (fun v => vMul v ic.1) a.1
  kronSteps p prec n tol iters 0 (x, m.1, a.2 ||| ss.2 ||| cn.2 ||| rt.2 ||| z.2 ||| ic.2 ||| m.2)

/-! ### The shard map (R323 to R326) -/

/-- One entry of a shard map (R324). -/
structure Shard where
  tensor : Nat
  rule : Nat
  fmt : Nat
  rows : Nat
  cols : Nat
  lrMul : XNum
  elem : Nat
  grad : Nat
  newm : Nat
  master : Nat
  moment : Nat
  momNew : Nat
  aux : Nat
  auxNew : Nat
  roots : Nat
  pub : Nat
  work : Nat
deriving DecidableEq, Repr

namespace Shard
/-- Elements. -/
def n (h : Shard) : Nat := h.rows * h.cols
/-- GRAD16. -/
def grad16 (h : Shard) : Bool := h.fmt.testBit 4
/-- NODECAY. -/
def noDecay (h : Shard) : Bool := h.fmt.testBit 5
/-- PUB_FMT. -/
def pubFmt (h : Shard) : Nat := h.fmt % 16
/-- Words of the rule state (R325). -/
def auxWords (h : Shard) : Nat :=
  if h.rule = 3 then h.rows + h.cols else if h.rule = 4 then h.rows * h.rows + h.cols * h.cols else 0
/-- Every area with its size (R325), GRAD and NEWM first. -/
def areas (h : Shard) : List (Nat × Nat) :=
  let mom := if h.rule = 0 then 0 else 2 * h.n
  let kron := if h.rule = 4 then 4 * h.auxWords else 0
  let m := min h.rows h.cols
  [(h.grad, if h.grad16 then 2 * h.n else 4 * h.n), (h.newm, 4 * h.n), (h.master, 4 * h.n), (h.moment, mom), (h.momNew, mom),
   (h.aux, 4 * h.auxWords), (h.auxNew, 4 * h.auxWords), (h.roots, kron),
   (h.pub, if h.pubFmt = 1 then 2 * h.n else if h.pubFmt = 3 then h.n else h.n / 1024 * 1056),
   (h.work, if h.rule = 2 then 64 + 4 * (3 * m * max h.rows h.cols + 3 * m * m) else if h.rule = 4 then 8 * h.n else 0)]
/-- What a SWEEP of it reads (R332, R333). -/
def sweepReads (h : Shard) : List (Nat × Nat) :=
  ([(h.grad, if h.rule = 0 then 0 else if h.grad16 then 2 * h.n else 4 * h.n), (h.master, 4 * h.n), (h.moment, if h.rule = 0 then 0 else 2 * h.n),
    (h.aux, 4 * h.auxWords), (h.roots, if h.rule = 4 then 4 * h.auxWords else 0)]).filter (fun r => r.2 != 0)
end Shard

/-- A shard map entry from its 128 bytes. -/
def shardOf (b : List Byte) : Shard :=
  let q (i n : Nat) : Nat := leNat ((b.drop i).take n)
  ⟨q 0 4, q 6 1, q 7 1, q 8 4, q 0xC 4, f32At b 0x10, q 0x18 8, q 0x20 8, q 0x28 8, q 0x30 8, q 0x38 8, q 0x40 8, q 0x48 8, q 0x50 8,
   q 0x58 8, q 0x60 8, q 0x68 8⟩

/-- Do two ranges meet? -/
def meets (a b : Nat × Nat) : Bool := decide (0 < a.2 ∧ 0 < b.2 ∧ a.1 < b.1 + b.2 ∧ b.1 < a.1 + a.2)

/-- Does any pair of a list of ranges meet? -/
def anyMeet : List (Nat × Nat) → Bool
  | [] => false
  | a :: l => l.any (meets a) || anyMeet l

/-- The fields of an entry (R324, R325), but for where its areas lie. -/
def shardFieldsOk (ewe : Nat) (b : List Byte) : Bool :=
  let h := shardOf b
  let q (i n : Nat) : Nat := leNat ((b.drop i).take n)
  let as_ := h.areas
  decide (h.tensor / 2 ^ 25 = 0) && q 4 2 == ewe && decide (h.rule ≤ 4) && decide (h.fmt < 64) &&
  (h.pubFmt == 1 || h.pubFmt == 3 || h.pubFmt == 8) && decide (1 ≤ h.rows ∧ h.rows ≤ 16777216 ∧ 1 ≤ h.cols ∧ h.cols ≤ 65536) &&
  posFinite h.lrMul && q 0x14 4 == 0 && (b.drop 0x70).all (· == 0) &&
  as_.all (fun a => if a.2 = 0 then a.1 == 0 else a.1 % 64 == 0) &&
  (match as_ with
   | g :: m :: rest => !anyMeet (g :: rest) && !anyMeet (m :: rest) && (!meets g m || (g.1 == m.1 && !h.grad16))
   | _ => false) &&
  (h.rule != 2 || decide (min h.rows h.cols ≤ 16384)) && (h.rule != 4 || decide (h.rows ≤ 8192 ∧ h.cols ≤ 8192)) &&
  (h.rule != 3 || decide (2 ≤ h.rows ∧ 2 ≤ h.cols)) && (h.pubFmt != 8 || h.n % 1024 == 0)

namespace State

/-- Read and check the shard map of a record (R324, R325, R331): EWE and the entries. -/
def mapOf (s : State) (o : RunOp) : Except Err (Nat × List Shard) := do
  let a := o.cmd.w0.toNat
  let b ← s.block64 o.tenant o.cmd.w0
  let n := leNat ((b.drop 4).take 4)
  let ewe := leNat ((b.drop 2).take 2)
  need (leNat (b.take 2) == 1 && ewe == s.srcField && n ≤ 65536 && (b.drop 8).all (· == 0)) 3
  need (s.localOk o.tenant a (64 + 128 * n) false).isNone 3
  let es := (List.range n).map (fun i => s.bytesAt (a + 64 + 128 * i) 128)
  need (es.all (shardFieldsOk ewe)) 3
  let hs := es.map shardOf
  need (hs.all (fun h => h.areas.all (fun r => r.2 == 0 || (s.localOk o.tenant r.1 r.2 true).isNone))) 3
  need (CmdRecF.unit o.cmd == 3 || hs.all (fun h => h.rule != 2 && h.rule != 4)) 3
  pure (ewe, hs)

/-- FP32 numbers of an area. -/
def nums32 (s : State) (a n : Nat) : List XNum :=
  let b := s.bytesAt a (4 * n)
  (List.range n).map (fun i => f32At b (4 * i))
/-- BF16 numbers of an area. -/
def nums16 (s : State) (a n : Nat) : List XNum :=
  let b := s.bytesAt a (2 * n)
  (List.range n).map (fun i => FpFmt.decode .bf16 (leNat ((b.drop (2 * i)).take 2)))
/-- The reduced gradient of a shard, widened (R326, R332). -/
def gradOf (s : State) (h : Shard) : List XNum := if h.grad16 then s.nums16 h.grad h.n else s.nums32 h.grad h.n

/-- Is HOLD set on an MFU the record's parts go to (R349)? -/
def mfuHeld (s : State) (o : RunOp) : Bool := CmdRecF.unit o.cmd == 3 && (CmdRecF.units o.cmd).any (fun u => s.rdB (R.MFU_CTL u) 0)
/-- PREC as a unit runs it: FORCE_FP32, as it was when the operator was dispatched, overrules it (R349). -/
def mfuPrec (o : RunOp) (u : Nat) (prec : Bool) : Bool := prec && !bit (Map.get o.numCtl 0 u) 1
/-- Count MACs of an MFU in units of 1,024 (R348). -/
def addMacs (s : State) (u n : Nat) : State := s.add64 (R.MFU_MAC_LO u) (n / 1024)

/-- The cluster and the cores that sweep what part `j` of a record takes (R332, R334). -/
def sweepCores (o : RunOp) (j : Nat) : List Nat :=
  let us := CmdRecF.units o.cmd
  let u := us.getD (j % us.length) 0
  if CmdRecF.unit o.cmd = 3 then (CmdRecF.cores o.cmd).filter (fun c => c / 6 == u) else [u]
/-- Its cluster. -/
def sweepMfu (o : RunOp) (j : Nat) : Nat := (sweepCores o j).headD 0 / 6

/-- The update of FACT2 (R333): AUX_NEW and u. -/
def fact2 (b2 omb2 eps1 : XNum) (rows cols : Nat) (aux g : List XNum) : List XNum × List XNum × NumFlags :=
  let q := g.map (fun x => vFma x x eps1)
  let qm := rowsOf cols (q.map (·.1))
  let ic := vDiv XNum.one (.ofInt cols)
  let ir := vDiv XNum.one (.ofInt rows)
  let upd (old : XNum) (l : List XNum) (inv : XNum) : VStep XNum :=
    let a := vSum l
    let b := vMul a.1 inv
    let c := vMul omb2 b.1
    let d := vFma b2 old c.1
    (d.1, a.2 ||| b.2 ||| c.2 ||| d.2)
  let rn := (qm.zip aux).map (fun p => upd p.2 p.1 ic.1)
  let cn := ((colsOf cols qm).zip (aux.drop rows)).map (fun p => upd p.2 p.1 ir.1)
  let sm := vSum (rn.map (·.1))
  let rm := vMul sm.1 ir.1
  let rs := rn.map (·.1)
  let cs := cn.map (·.1)
  let u := (List.range (rows * cols)).map (fun i =>
    let a := vMul (rs.getD (i / cols) .nan) (cs.getD (i % cols) .nan)
    let b := vDiv a.1 rm.1
    let c := vRsqrt b.1
    let d := vMul (g.getD i .nan) c.1
    (d.1, a.2 ||| b.2 ||| c.2 ||| d.2))
  (rs ++ cs, u.map (·.1), orFlags (q.map (·.2)) ||| ic.2 ||| ir.2 ||| orFlags (rn.map (·.2)) ||| orFlags (cn.map (·.2)) ||| sm.2 ||| rm.2 |||
    orFlags (u.map (·.2)))

/-- The update of KRON (R333): L and R. -/
def kronAux (prec : Nat → Bool) (b2 omb2 : XNum) (rows cols : Nat) (aux : List XNum) (g : Mat) : List XNum × NumFlags :=
  let gt := colsOf cols g
  let l := mfuMul prec rows g gt
  let r := mfuMul prec cols gt g
  let w := List.zipWith (fun old p => let a := vMul omb2 p; let b := vFma b2 old a.1; (b.1, a.2 ||| b.2)) aux (l.1.flatten ++ r.1.flatten)
  (w.map (·.1), l.2 ||| r.2 ||| orFlags (w.map (·.2)))

/-- SWEEP of one shard, the `j`-th of the map (R332, R333): the state after it and its flags. -/
def sweepShard (h : Nat) (o : RunOp) (p : List Byte) (j : Nat) (sh : Shard) (s : State) : Except Err (State × NumFlags) := do
  let k (i : Nat) : XNum := f32At p i
  let u := sweepMfu o j
  let nsPrec (_ : Nat) : Bool := mfuPrec o u ((p.getD 0x38 0).getLsbD 0)
  let kPrec (_ : Nat) : Bool := mfuPrec o u ((p.getD 0x38 0).getLsbD 1)
  let n := sh.n
  let reads := sh.sweepReads
  match reads.findSome? (fun r => s.readErr o.tenant r.1 r.2) with
  | some e => .error e
  | none => pure ()
  let bad := reads.any (fun r => s.anyPoison r.1 r.2) || s.anyPoison o.cmd.w7.toNat 64
  let master := s.nums32 sh.master n
  let put (acc : Except Err State) (a : Nat) (bs : List Byte) : Except Err State := putElem h o.tenant bad acc ((a : Nat), bs)
  let pub (xs : List XNum) : List Byte × NumFlags :=
    let q := castRne (.fp .fp32) ((fmtOf sh.pubFmt).getD .int8) true xs
    (if sh.pubFmt = 8 then packCodes 8 q.1 q.2.1 else q.1.flatMap (leBytes (if sh.pubFmt = 1 then 2 else 1)), q.2.2)
  if sh.rule = 0 then
    let q := pub master
    let s ← put (put (.ok s) sh.newm (s.bytesAt sh.master (4 * n))) sh.pub q.1
    pure (s.markPoison h bad sh.grad, q.2 ||| niOf master)
  else
    let gr := s.gradOf sh
    let g0 := gr.map (fun x => vMul x (k 0x18))
    let gm := g0.map (·.1)
    let aux := s.nums32 sh.aux sh.auxWords
    let f2 := fact2 (k 0xC) (k 0x10) (k 0x1C) sh.rows sh.cols aux gm
    let ka := kronAux kPrec (k 0xC) (k 0x10) sh.rows sh.cols aux (rowsOf sh.cols gm)
    let g := if sh.rule = 3 then f2.2.1 else gm
    let mm := List.zipWith (fun m x => let a := vMul (k 8) x; let b := vFma (k 4) m a.1; (b.1, a.2 ||| b.2)) (s.nums16 sh.moment n) g
    let mv := mm.map (·.1)
    let cast := CmdRecF.cast0 o.cmd
    let rs := s.laneRnds (sweepCores o j) sh.rows sh.cols (castSr 0x10 cast)
    let mc := List.zipWith (fun x r => castElem (.fp .bf16) r (castSat 0x10 cast (.fp .bf16)) x) mv rs.1
    let d : List XNum × NumFlags :=
      if sh.rule = 2 then
        let y := nsOrtho (k 0x20) (k 0x24) (k 0x28) (k 0x2C) (k 0x30) (i32At p 0x34).toNat nsPrec sh.rows sh.cols (rowsOf sh.cols mv)
        (y.1.flatten, y.2)
      else if sh.rule = 4 then
        let rt := s.nums32 sh.roots sh.auxWords
        let y := mfuMul kPrec sh.cols (rowsOf sh.rows (rt.take (sh.rows * sh.rows))) (rowsOf sh.cols mv)
        let z := mfuMul kPrec sh.cols y.1 (rowsOf sh.cols (rt.drop (sh.rows * sh.rows)))
        (z.1.flatten, y.2 ||| z.2)
      else (mv, fNone)
    let lr := vMul (k 0) sh.lrMul
    let nm := List.zipWith (fun w dd =>
      let a : VStep XNum := if sh.noDecay then (w, fNone) else vMul w (k 0x14)
      let b := vFma lr.1.neg dd a.1
      (b.1, a.2 ||| b.2)) master d.1
    let q := pub (nm.map (·.1))
    let s := rs.2
    let s ← put (.ok s) sh.newm (f32Bytes (nm.map (·.1)))
    let s ← put (.ok s) sh.momNew (mc.flatMap (fun c => leBytes 2 c.1))
    let s ← (if sh.rule = 3 then put (.ok s) sh.auxNew (f32Bytes f2.1) else if sh.rule = 4 then put (.ok s) sh.auxNew (f32Bytes ka.1) else .ok s)
    let s ← put (.ok s) sh.pub q.1
    let s := if sh.rule = 2 ∨ sh.rule = 4 then s.openRange sh.work (match sh.areas.getLast? with | some a => a.2 | none => 0) else s
    let macs := if sh.rule = 2 then nsMacs (k 0x28) (i32At p 0x34).toNat sh.rows sh.cols
                else if sh.rule = 4 then 2 * (sh.rows * sh.rows * sh.cols + sh.cols * sh.cols * sh.rows) else 0
    let s := if CmdRecF.unit o.cmd = 3 ∧ macs ≠ 0 then s.addMacs u macs else s
    let s := if sh.rule = 2 then s.bump (R.MFU_ITER_CNT u) (i32At p 0x34).toNat else s
    let used := [0, 4, 8, 0x14, 0x18] ++ (if sh.rule = 3 then [0xC, 0x10, 0x1C] else if sh.rule = 4 then [0xC, 0x10] else
      if sh.rule = 2 then [0x20, 0x24, 0x28, 0x2C, 0x30] else [])
    let ni := niOf (used.map k ++ gr ++ master ++ s.nums16 sh.moment n ++ aux ++ (if sh.rule = 4 then s.nums32 sh.roots sh.auxWords else []))
    let fl := ni ||| orFlags (g0.map (·.2)) ||| (if sh.rule = 3 then f2.2.2 else fNone) ||| (if sh.rule = 4 then ka.2 else fNone) |||
      orFlags (mm.map (·.2)) ||| orFlags (mc.map (·.2)) ||| d.2 ||| lr.2 ||| orFlags (nm.map (·.2)) ||| q.2
    pure (s.markPoison h bad sh.grad, fl)

/-- Does the SWEEP parameter block hold what the rules of the map need (R329, R331, R333)? -/
def sweepParamsOk (hs : List Shard) (p : List Byte) : Bool :=
  let it := i32At p 0x34
  leNat ((p.drop 0x38).take 4) < 4 && leNat ((p.drop 0x3C).take 4) == 0 &&
  (!hs.any (fun h => h.rule == 3) || posFinite (f32At p 0x1C)) &&
  (!hs.any (fun h => h.rule == 2) || (posFinite (f32At p 0x2C) && decide (1 ≤ it) && decide (it ≤ 16)))

/-- Run an UPDATE_SWEEP record of one mode, once its MFUs take operators. A MODE that is none of the five ends with OPERAND
(R331, R349; log entry 31). -/
def sweepOp (s : State) (h mode : Nat) (reads : List Shard → State → RunOp → List (Nat × Nat)) (f : RunOp → State → Except Err State) : State :=
  match s.op? h with
  | none => s
  | some o =>
    if o.cmd.opcode = 0x0500 ∧ (sweepMode o.cmd = mode ∨ 4 < sweepMode o.cmd) ∧ s.mfuHeld o = false then
      s.runOpR h 0x0500 (fun t o =>
        match t.mapOf o with
        | .ok m => (o.cmd.w0.toNat, 64 + 128 * m.2.length) :: reads m.2 t o
        | .error _ => []) (fun o t =>
        if sweepMode o.cmd ≤ 4 ∧ fld o.cmd.w1 7 3 = 0 ∧ fld o.cmd.w1 63 9 = 0 ∧ (bit o.cmd.w1 8 = false ∨ sweepMode o.cmd = 2 ∨ sweepMode o.cmd = 3) ∧
           o.cmd.w6 = 0 ∧ (sweepMode o.cmd = 1 ∨ o.cmd.w7 = 0) then f o t
        else .error (.of 3 3))
    else s

/-- SUMSQ (R335). -/
def sumsqFx (h : Nat) (o : RunOp) (s : State) : Except Err State := do
  let m ← s.mapOf o
  let a := o.cmd.w4.toNat
  need (a % 4 == 0) 3
  match s.localOk o.tenant a (4 * m.2.length) true with
  | some e => .error e
  | none => pure ()
  (m.2.zip (List.range m.2.length)).foldl (fun acc p => do
    let s ← acc
    let n := (if p.1.grad16 then 2 else 4) * p.1.n
    match s.readErr o.tenant p.1.grad n with
    | some e => .error e
    | none =>
      let bad := s.anyPoison p.1.grad n
      let g := s.gradOf p.1
      let y := sumSq g
      let s ← putElem h o.tenant bad (.ok s) ((a + 4 * p.2 : Nat), leBytes 4 (f32Code y.1))
      pure ((s.opFlags h (y.2 ||| niOf g)).markPoison h bad p.1.grad)) (.ok s)

/-- SWEEP (R332 to R334). NONFINITE is cleared as it starts (log entry 31); STATE SWEPT and PENDING are set when it completes
with OK. -/
def sweepFx (h : Nat) (o : RunOp) (s : State) : Except Err State := do
  let m ← s.mapOf o
  let _ ← s.block64 o.tenant o.cmd.w3
  let p ← s.block64 o.tenant o.cmd.w7
  need (sweepParamsOk m.2 p) 3
  let cb := o.cmd.w3.toNat
  demand (!s.cbFlag cb 7) (.of 0x16 5)
  demand (s.cbState cb == cbIdle) (.of 0x16 2)
  demand (o.cmd.w2.toNat == s.cbCommitted cb + 1) (.of 0x16 1)
  demand (s.cbFolded cb == s.cbCommitted cb) (.of 0x16 3)
  let s := (s.cbTake h o.tenant cb 0).cbFlagSet o.tenant cb 0 false
  -- a shard that fails leaves its code with the operator, and BUSY stands until it completes
  let r := (m.2.zip (List.range m.2.length)).foldl (fun (s : State) q =>
    if (s.op? h).any (fun x => x.code != 0 && x.code != 9) then s
    else match sweepShard h o p q.2 q.1 s with
      | .error e => s.opErrOn h e
      | .ok (t, fl) =>
        let u := sweepMfu o q.2
        let t := t.opFlags h fl
        let t := if fl &&& (fNV ||| fNI ||| fOF ||| fBNF) != 0 then (t.cbFlagSet o.tenant cb 0 true).raise (0x180 + u) 0 else t
        if CmdRecF.unit o.cmd = 3 then t.bump (R.MFU_SHARD_CNT u) else t) s
  pure r

/-- NS_ORTHO (R329). The workspace's contents are not stated. -/
def nsOrthoFx (h : Nat) (o : RunOp) (s : State) : Except Err State := do
  let a ← s.tin o 0
  let t ← s.tout o 1
  let p ← s.block64 o.tenant o.cmd.w7
  let w3 := o.cmd.w3
  let iters := fld w3 4 0
  let f32Or16 (x : Tensor) : Bool := !x.raw && (x.fmt == .fp .fp32 || x.fmt == .fp .bf16)
  need (f32Or16 a && f32Or16 t) 1
  need (decide (1 ≤ iters ∧ iters ≤ 16) && fld w3 7 5 == 0 && fld w3 63 9 == 0 && posFinite (f32At p 0xC) && t.rows == a.rows && t.cols == a.cols &&
    o.cmd.w4 == 0 && o.cmd.w5 == 0 && o.cmd.w6 == 0) 3
  let m := min a.rows a.cols
  let ws := 64 + 4 * (2 * m * max a.rows a.cols + 3 * m * m)
  need (o.cmd.w2.toNat % 64 == 0) 3
  match s.localOk o.tenant o.cmd.w2.toNat ws true with
  | some e => .error e
  | none => pure ()
  let us := CmdRecF.units o.cmd
  let c := f32At p 8
  let xs := s.tensorNums a
  let prec (b : Nat) : Bool := mfuPrec o (us.getD (b % us.length) 0) (bit w3 8)
  let y := nsOrtho (f32At p 0) (f32At p 4) c (f32At p 0xC) (f32At p 0x10) iters prec a.rows a.cols (rowsOf a.cols xs)
  let bad := s.tensorPoison a || s.anyPoison o.cmd.w7.toNat 64
  let u ← s.vecOut h o bad (CmdRecF.cast0 o.cmd) t (.fp .fp32) y.1.flatten
  let u := u.openRange o.cmd.w2.toNat ws
  let e := us.length
  let big := max a.rows a.cols
  let share (mm nn kk j : Nat) : Nat := ((unitBlocks mm nn 64 e j).map (blockElems mm nn 64)).sum * kk
  let u := (us.zip (List.range e)).foldl (fun v q =>
    let macs := iters * (share m m big q.2 + (if c.isZero then 0 else share m m m q.2) + share m big m q.2)
    (v.addMacs q.1 macs).bump (R.MFU_ITER_CNT q.1) iters) u
  pure ((u.opFlags h (y.2 ||| niOf ([0, 4, 8, 0xC, 0x10].map (f32At p) ++ xs))).markPoison h bad (s.poisonOf a))

/-- KRON_PRECOND (R330). -/
def kronFx (h : Nat) (o : RunOp) (s : State) : Except Err State := do
  let a ← s.tin o 0
  let t ← s.tout o 1
  let p ← s.block64 o.tenant o.cmd.w7
  let w3 := o.cmd.w3
  let iters := fld w3 4 0
  let pc := fld w3 9 8
  let tol := f32At p 4
  need (!a.raw && a.fmt == .fp .fp32 && !t.raw && t.fmt == .fp .fp32) 1
  let n := a.cols
  need (a.rows == n && t.rows == n && t.cols == n && decide (n ≤ 8192) && decide (1 ≤ iters) && (pc == 1 || pc == 2) && fld w3 7 5 == 0 &&
    fld w3 11 10 == 0 && fld w3 63 13 == 0 && posFinite (f32At p 0) && (tol.isZero || posFinite tol) &&
    o.cmd.w4 == 0 && o.cmd.w5 == 0 && o.cmd.w6 == 0) 3
  let ws := 64 + 16 * n * n
  let w := o.cmd.w2.toNat
  need (w % 64 == 0) 3
  match s.localOk o.tenant w ws true with
  | some e => .error e
  | none => pure ()
  let us := CmdRecF.units o.cmd
  let xs := s.tensorNums a
  let bad := s.tensorPoison a || s.anyPoison o.cmd.w7.toNat 64
  let pp := 2 * pc
  let r := kronRoot pp (fun b => mfuPrec o (us.getD (b % us.length) 0) (bit w3 12)) n iters (f32At p 0) tol (rowsOf n xs)
  let u ← s.tensorPut h o.tenant bad t (r.1.flatten.map f32Code) []
  let u := u.openRange w ws
  let u ← putElem h o.tenant bad (.ok u) ((w : Nat), leBytes 4 r.2.2.2.1 ++ leBytes 4 (f32Code (farFromUnit r.2.1)))
  let e := us.length
  let share (j : Nat) : Nat := ((unitBlocks n n 64 e j).map (blockElems n n 64)).sum * n
  let missed := XNum.zero.ltN tol && !r.2.2.2.2
  let u := (us.zip (List.range e)).foldl (fun v q =>
    let v := (v.addMacs q.1 (r.2.2.2.1 * (pp / 2 + 2) * share q.2)).bump (R.MFU_ITER_CNT q.1) r.2.2.2.1
    let v := if r.2.2.2.2 then v.bump (R.MFU_TOL_STOP_CNT q.1) else v
    if missed then v.raise (0x180 + q.1) 4 else v) u
  pure ((u.opFlags h (r.2.2.1 ||| niOf xs)).markPoison h bad (s.poisonOf a))

/-- Run an operator of the MFUs, once they take operators (R349). -/
def mfuOp (s : State) (h opc : Nat) (f : RunOp → State → Except Err State) : State :=
  match s.op? h with
  | some o => if s.mfuHeld o then s else s.runOp h opc f
  | none => s

/-! ### COMMIT and RESOLVE (R337 to R339) -/

/-- Flock slots of the levels (R337). -/
def commitLevels (w : Word64) : List Nat :=
  (((List.range 6).map (fun i => fld w (8 * i + 7) (8 * i))).takeWhile (fun b => 128 ≤ b)).map (· % 64)

/-- Read and check a COMMIT record (R337). -/
def commitOf (s : State) (o : RunOp) : Except Err CommitRun := do
  let c := o.cmd
  let _ ← s.block64 o.tenant c.w0
  let lv := commitLevels c.w2
  need (CmdRecF.ncoreM1 c == 0 && !lv.isEmpty && fld c.w3 63 3 == 0 && fld c.w3 2 1 < 2 && c.w5 == 0 && c.w6 == 0 && c.w7 == 0 &&
    c.w4.toNat % 64 == 0) 3
  match s.localOk o.tenant c.w4.toNat 256 true with
  | some e => .error e
  | none => pure ⟨fld c.w3 2 1 == 1, c.w0.toNat, c.w1.toNat, c.w4.toNat, lv, 0, 0, 0, true, false⟩

/-- The value RESOLVE contributes (R339): an FP32 code. -/
def resolveValue (s : State) (r : CommitRun) : Nat :=
  let st := s.cbState r.cb
  if st = cbAcked ∨ (st = cbIdle ∧ s.cbCommitted r.cb = r.t) then 0x40400000
  else if st = cbDecided ∨ st = cbDoubtD then 0x40000000
  else 0x3F800000

/-- A COMMIT record of one mode starts its first round; one that waits for room for its extents tries again; one that finds
BUSY waits (R336, R337, R339). A MODE that is neither ends with OPERAND. -/
def commitOp (s : State) (h mode : Nat) : State :=
  match s.op? h with
  | none => s
  | some o =>
    if o.dispatched = true ∧ o.ran = false ∧ o.code = 0 ∧ o.cmd.opcode = 0x0503 ∧ (fld o.cmd.w3 2 1 = mode ∨ 1 < fld o.cmd.w3 2 1) then
      match Map.get? s.commits h with
      | some r => if r.waiting then s.commitLaunch h r else s
      | none =>
        match s.commitOf o with
        | .error e => s.opErr h e
        | .ok r =>
          let st := s.cbState r.cb
          let com := s.cbCommitted r.cb
          if s.cbFlag r.cb 7 then s
          else if r.resolve then
            if st = cbDoubtV ∨ st = cbDoubtD ∨ st = cbAcked ∨ (st = cbIdle ∧ (com = r.t ∨ com + 1 = r.t)) then
              (s.cbTake h o.tenant r.cb 0).commitRound h o.tenant (s.resolveValue r) r
            else s.opDone h 0x16 2
          else
            let moves := decide (st = cbIdle ∨ st = cbSwept)
            let err := if r.t ≠ com + 1 then 1 else if moves then 0 else 2
            let yes := err = 0 ∧ st = cbSwept ∧ s.cbPending r.cb = r.t ∧ s.cbFlag r.cb 0 = false ∧ bit o.cmd.w3 0 = false
            let s := s.cbTake h o.tenant r.cb 0
            let s := if moves then s.cbTo o.tenant r.cb cbVoted else s
            s.commitRound h o.tenant (if yes then 0x3F800000 else 0) { r with err := err, moves := moves }
    else s

end State

/-- SUMSQ (R335). -/
def execSumsq (h : Nat) (s : State) : Out := keepQueue s <| .next (s.sweepOp h 0 (fun hs _ _ => hs.map (fun x => (x.grad, (if x.grad16 then 2 else 4) * x.n))) (State.sumsqFx h))
/-- SWEEP (R332). It waits while a SEND reads PUB of the same commit block (R351). -/
def execSweep (h : Nat) (s : State) : Out := keepQueue s <|
  match s.op? h with
  | some o => if s.convs.any (fun e => e.2.d.send && e.2.d.commit == o.cmd.w3.toNat && (s.op? e.1).any (fun x => x.tenant == o.tenant)) then .next s
              else .next (s.sweepOp h 1 (fun hs _ o => (o.cmd.w3.toNat, 64) :: hs.flatMap (·.sweepReads)) (State.sweepFx h))
  | none => .next s
/-- NS_ORTHO (R329). -/
def execNsOrtho (h : Nat) (s : State) : Out := keepQueue s <| .next (s.mfuOp h 0x0501 (State.nsOrthoFx h))
/-- KRON_PRECOND (R330). -/
def execKronPrecond (h : Nat) (s : State) : Out := keepQueue s <| .next (s.mfuOp h 0x0502 (State.kronFx h))
/-- COMMIT (R337, R338). -/
def execCommit (h : Nat) (s : State) : Out := keepQueue s <| .next (s.commitOp h 0)
/-- RESOLVE (R339). -/
def execResolve (h : Nat) (s : State) : Out := keepQueue s <| .next (s.commitOp h 1)

end Sys2Proof.Machine
end

