-- ==== Sys2Proof/Machine/Delta.lean ====
section
/-! DEFINITION. Chapter 11: the fold, the delta log and its partner stream, and APPLY (R343 to R347). -/
namespace Sys2Proof.Machine
open Sys2Proof

/-! ### Records (R344, R345) -/

/-- A delta record before it has its place: KIND, SECT, TENSOR, epoch, ELEM, NWORDS, AUXOFF and its payload. -/
structure DRec where
  kind : Nat
  sect : Nat
  tensor : Nat
  epoch : Nat
  elem : Nat
  nwords : Nat
  auxOff : Nat
  payload : List Byte
deriving DecidableEq, Repr

/-- Bits a natural needs. -/
def bitLen (n : Nat) : Nat := if n = 0 then 0 else n.log2 + 1

/-- Runs of `n` of a list. -/
def runsOf {α : Type} (n : Nat) (l : List α) : List (List α) := (List.range ((l.length + n - 1) / n)).map (fun i => (l.drop (n * i)).take n)

/-- One group of words (R345): its width, then the words at that width, least significant bit first. -/
def codeGroup (ws : List Nat) : List Byte :=
  let w := ws.foldl (fun a x => max a (bitLen x)) 0
  let v := (ws.zip (List.range ws.length)).foldl (fun a p => a + p.1 * 2 ^ (w * p.2)) 0
  BitVec.ofNat 8 w :: leBytes ((w * ws.length + 7) / 8) v

/-- A payload (R345). -/
def codeWords (ws : List Nat) : List Byte := (runsOf 32 ws).flatMap codeGroup

/-- The words of a payload of `n` words; none where a width is out of range or the payload is short (R345). -/
def wordsOf (maxW : Nat) : Nat → Nat → List Byte → Option (List Nat)
  | 0, n, _ => if n = 0 then some [] else none
  | fuel + 1, n, b =>
    if n = 0 then some []
    else match b with
      | [] => none
      | w :: rest =>
        let k := min 32 n
        let len := (w.toNat * k + 7) / 8
        if maxW < w.toNat ∨ rest.length < len then none
        else
          let v := leNat (rest.take len)
          let ws := (List.range k).map (fun i => v / 2 ^ (w.toNat * i) % 2 ^ w.toNat)
          (wordsOf maxW fuel (n - k) (rest.drop len)).map (fun t => ws ++ t)

/-- Bytes rounded up to whole units of 64. -/
def up64 (n : Nat) : Nat := (n + 63) / 64 * 64

/-- A record as it stands in the log (R344). -/
def DRec.bytes (r : DRec) (ewe version pos : Nat) : List Byte :=
  let h := leBytes 2 1 ++ leBytes 1 r.kind ++ leBytes 1 r.sect ++ leBytes 4 r.tensor ++ leBytes 8 r.epoch ++ leBytes 8 r.elem ++
    leBytes 4 r.nwords ++ leBytes 4 r.auxOff ++ leBytes 4 r.payload.length ++ leBytes 2 ewe ++ leBytes 2 0 ++ leBytes 4 version ++
    leBytes 4 (crc32c r.payload).toNat ++ leBytes 8 pos ++ leBytes 4 0
  h ++ leBytes 4 (crc32c h).toNat ++ r.payload ++ List.replicate (up64 r.payload.length - r.payload.length) 0

/-- A record read from a log; none where it is not valid (R345). -/
def drecOf (b : List Byte) : Option (DRec × List Nat) :=
  let q (i n : Nat) : Nat := leNat ((b.drop i).take n)
  let p := (b.drop 64).take (q 0x20 4)
  let r : DRec := ⟨q 2 1, q 3 1, q 4 4, q 8 8, q 0x10 8, q 0x18 4, q 0x1C 4, p⟩
  if q 0 2 ≠ 1 ∨ r.kind = 0 ∨ 4 < r.kind ∨ 2 < r.sect ∨ q 0x3C 4 ≠ (crc32c (b.take 60)).toNat ∨ q 0x2C 4 ≠ (crc32c p).toNat then none
  else if r.kind ≤ 2 then (wordsOf (if r.sect = 1 then 16 else 32) (r.nwords + 1) r.nwords p).map (fun w => (r, w))
  else some (r, [])

/-- A log descriptor (R346). -/
structure Log where
  partner : Bool
  stream : Nat
  base : Nat
  tiles : Nat
  wpos : Nat
  dest : Nat
  ack : Nat
deriving DecidableEq, Repr

/-- The body of a DELTA_DATA or DELTA_ACK (R346). -/
def deltaBody (stream : Nat) (rewind : Bool) (pos : Nat) (data : List Byte) : List Byte :=
  leBytes 4 stream ++ leBytes 4 (if rewind then 1 else 0) ++ leBytes 8 pos ++ leBytes 4 data.length ++ leBytes 36 0 ++ data

namespace State

/-- Read and check a log descriptor (R346). -/
def logOf (s : State) (who : Nat) (w : Word64) : Except Err Log := do
  let b ← s.block64 who w
  let q (i n : Nat) : Nat := leNat ((b.drop i).take n)
  let l : Log := ⟨q 2 1 == 1, q 4 4, q 8 8, q 0x10 8, q 0x18 8, q 0x20 2, q 0x28 8⟩
  need (q 0 2 == 1 && q 2 1 < 2 && q 3 1 == 0 && q 0x22 6 == 0 && (b.drop 0x30).all (· == 0)) 3
  if l.partner then need (l.base == 0) 3
  else
    need (l.base % tileBytes == 0 && l.wpos ≤ l.tiles * tileBytes && (s.localOk who l.base (l.tiles * tileBytes) true).isNone &&
      (tilesOf l.base (l.tiles * tileBytes)).all (fun t => rgnTier (s.rgn (t / 65536)) != 1)) 3
  pure l
/-- Set WRITE_POS of a log. -/
def logWpos (s : State) (who log v : Nat) : State := (s.writeRange who none (log + 0x18) (leBytes 8 v)).1
/-- Set ACK_POS of a log. -/
def logAck (s : State) (who log v : Nat) : State := (s.writeRange who none (log + 0x28) (leBytes 8 v)).1

/-- Is a tile's flash home journalled (R155, R346)? -/
def tileDurable (s : State) (t : Nat) : Bool := (s.tile t).st == .flash && !s.ms.progs.any (fun p => p.2.tile == t)
/-- The durable position of a log: its leading tiles that are durable, up to WRITE_POS. -/
def logDurable (s : State) (l : Log) : Nat :=
  (((List.range (l.wpos / tileBytes)).map (fun i => l.base / tileBytes + i)).takeWhile s.tileDurable).length * tileBytes

/-- Write whole tiles of a log for an operator; in an automatic region each is then moved to flash (R157, R346). -/
def logTiles (h who base pos : Nat) (bs : List Byte) (acc : Except Err State) : Except Err State :=
  (List.range (bs.length / tileBytes)).foldl (fun acc i =>
    let a := base + pos + i * tileBytes
    match putElem h who false acc ((a : Nat), (bs.drop (i * tileBytes)).take tileBytes) with
    | .error e => .error e
    | .ok u => if rgnTier (u.rgnAt a) = 0 then .ok (u.askMove ⟨a / tileBytes, .op h, .flash, false⟩) else .ok u) acc

/-! ### FOLD (R343) -/

/-- The words of a section: at rest and transient addresses, words, bytes of a word. -/
def sections (sh : Shard) : List (Nat × Nat × Nat × Nat) :=
  [(sh.master, sh.newm, sh.n, 4)] ++ (if sh.rule = 0 then [] else [(sh.moment, sh.momNew, sh.n, 2)]) ++ [(sh.aux, sh.auxNew, sh.auxWords, 4)]
/-- SECT of the sections of a shard. -/
def sectNos (sh : Shard) : List Nat := if sh.rule = 0 then [0, 2] else [0, 1, 2]

/-- Words of an area. -/
def areaWords (s : State) (a n w : Nat) : List Nat :=
  let b := s.bytesAt a (w * n)
  (List.range n).map (fun i => leNat ((b.drop (w * i)).take w))

/-- The DELTA, and with BASE the BASE, records of one shard (R343, R344). -/
def shardRecs (s : State) (t : Nat) (base : Bool) (sh : Shard) : List DRec :=
  ((sections sh).zip (sectNos sh)).flatMap (fun q =>
    let x := q.1
    let old := s.areaWords x.1 x.2.2.1 x.2.2.2
    let new := s.areaWords x.2.1 x.2.2.1 x.2.2.2
    let mk (kind : Nat) (ws : List Nat) : List DRec :=
      ((runsOf 16384 ws).zip (List.range ((ws.length + 16383) / 16384))).map (fun p =>
        ⟨kind, q.2, sh.tensor, t, if q.2 = 2 then sh.elem else sh.elem + 16384 * p.2, p.1.length, if q.2 = 2 then 16384 * p.2 else 0, codeWords p.1⟩)
    mk 1 (List.zipWith Nat.xor old new) ++ (if base then mk 2 new else []))

/-- Place records one after another from a log position. -/
def placeRecs (ewe version : Nat) : Nat → List DRec → List (Nat × List Byte)
  | _, [] => []
  | pos, r :: rs =>
    let b := r.bytes ewe version pos
    (pos, b) :: placeRecs ewe version (pos + b.length) rs

/-- Every record of a fold from a log position: those of the shards, EPOCH_END, and PAD up to the next tile (R343). -/
def foldRecs (s : State) (ewe version t : Nat) (base : Bool) (hs : List Shard) (pos : Nat) : List (Nat × List Byte) :=
  let rs := hs.flatMap (s.shardRecs t base)
  let all := placeRecs ewe version pos (rs ++ [⟨3, 0, 0, t, 0, rs.length, 0, []⟩])
  let fin := (all.map (fun r => r.2.length)).sum + pos
  let room := (tileBytes - fin % tileBytes) % tileBytes
  if room = 0 then all
  else all ++ placeRecs ewe version fin [⟨4, 0, 0, t, 0, 0, 0, List.replicate (room - 64) 0⟩]

/-- Step 4 of a fold: the transient areas become the state at rest. -/
def foldCopy (h who : Nat) (hs : List Shard) (s : State) : Except Err State :=
  hs.foldl (fun acc sh => (sections sh).foldl (fun acc x =>
    match acc with
    | .error e => .error e
    | .ok u => putElem h who false (.ok u) ((x.1 : Nat), u.bytesAt x.2.1 (x.2.2.1 * x.2.2.2))) acc) (.ok s)

/-- Key of a commit block among the tenants'. -/
def cbKey (who cb : Nat) : Nat := who * 2 ^ 64 + cb

/-- Send a record of a fold to the partner (R346). The message that opens a repeated fold carries REWIND. -/
def foldSend (who : Nat) (f : FoldRun) (s : State) (r : Nat × List Byte) : State :=
  match f.partner with
  | some d => s.send ⟨d, s.srcField, 0, 0x38, 4, who, deltaBody f.stream (f.rewind && r.1 == f.start) r.1 r.2, false, []⟩
  | none => s

/-- What a fold reads: both forms of every section, and the log's descriptor. -/
def foldReads (hs : List Shard) (_ : State) (o : RunOp) : List (Nat × Nat) :=
  [(o.cmd.w3.toNat, 64), (o.cmd.w4.toNat, 64)] ++
    (hs.flatMap sections).flatMap (fun x => if x.2.2.1 = 0 then [] else [(x.1, x.2.2.1 * x.2.2.2), (x.2.1, x.2.2.1 * x.2.2.2)])
/-- What an APPLY reads: the log, and the sections it changes. -/
def applyReads (hs : List Shard) (s : State) (o : RunOp) : List (Nat × Nat) :=
  (o.cmd.w3.toNat, 64) ::
  (match s.logOf o.tenant o.cmd.w4 with
   | .ok l => if l.partner || l.wpos = 0 then [] else [(o.cmd.w4.toNat, 64), (l.base, l.wpos)]
   | .error _ => []) ++
  (if bit o.cmd.w1 8 then [] else ((hs.flatMap sections).filter (fun x => x.2.2.1 != 0)).map (fun x => (x.1, x.2.2.1 * x.2.2.2)))
/-- Steps 1 and 2 of a fold, or with DURABLE set step 4 alone. -/
def foldFx (h : Nat) (o : RunOp) (s : State) : Except Err State := do
  let who := o.tenant
  let m ← s.mapOf o
  let _ ← s.block64 who o.cmd.w3
  let cb := o.cmd.w3.toNat
  let t := o.cmd.w2.toNat
  demand (!s.cbFlag cb 7) (.of 0x16 5)
  demand (s.cbState cb == cbAcked && s.cbCommitted cb == t) (.of 0x16 2)
  let areas := (m.2.flatMap sections).filter (fun x => x.2.2.1 != 0)
  match areas.findSome? (fun x => (s.readErr who x.1 (x.2.2.1 * x.2.2.2)).or (s.readErr who x.2.1 (x.2.2.1 * x.2.2.2))) with
  | some e => .error e
  | none => pure ()
  match areas.find? (fun x => s.anyPoison x.1 (x.2.2.1 * x.2.2.2) || s.anyPoison x.2.1 (x.2.2.1 * x.2.2.2)) with
  | some x => pure (s.opFaultAt h 9 0 x.1)
  | none =>
    if s.cbFlag cb 1 then
      foldCopy h who m.2 (s.cbTake h who cb 0)
    else
      let log := o.cmd.w4.toNat
      let l ← s.logOf who o.cmd.w4
      let again := Map.get? s.foldLog (cbKey who cb) == some log
      let pos := if again then s.cbGet cb 0x20 8 else l.wpos
      let recs := s.foldRecs m.1 (s.cbGet cb 0x10 4) t (bit o.cmd.w1 8) m.2 pos
      let fin := (recs.map (fun r => r.2.length)).sum + pos
      demand (l.partner || decide (fin ≤ l.tiles * tileBytes)) (.of 0x16 4)
      let s := s.cbTake h who cb 0
      let s := s.cbSet who cb 0x20 8 pos
      let s := s.logWpos who log fin
      let f : FoldRun := ⟨cb, t, log, if l.partner then some l.dest else none, l.stream, pos, fin, min l.ack pos, if l.partner then recs else [], again, false, 0, s.ft⟩
      let s : State := { s with foldLog := Map.set s.foldLog (cbKey who cb) log, folds := Map.set s.folds h f }
      let s := (m.2.zip (List.range m.2.length)).foldl (fun u p =>
        let rs := s.shardRecs t (bit o.cmd.w1 8) p.1
        let x := sweepMfu o p.2
        (u.add64 (R.MFU_FOLD_WORDS_LO x) ((rs.map (·.nwords)).sum)).add64 (R.MFU_FOLD_BYTES_LO x) ((rs.map (fun r => 64 + up64 r.payload.length)).sum)) s
      if l.partner then pure (recs.foldl (foldSend who f) s)
      else
        let lead := pos % tileBytes
        logTiles h who l.base (pos - lead) (s.bytesAt (l.base + pos - lead) lead ++ recs.flatMap (·.2)) (.ok s)

/-- An operator that has begun a fold or a RECEIVE has more to do. -/
def stillRuns (s : State) (h : Nat) : State :=
  match s.op? h with
  | some o => if ((Map.get? s.folds h).isSome || (Map.get? s.recvs h).isSome) && o.code == 0 then s.opSet h { o with ran := false } else s
  | none => s

/-! ### RECEIVE (R346) -/

/-- Every record of a log from `pos` to its WRITE_POS with its place; none where one is not valid. -/
def scanLog (s : State) (l : Log) : Nat → Nat → Option (List (Nat × DRec × List Nat))
  | 0, _ => some []
  | fuel + 1, pos =>
    if l.wpos < pos + 64 then some []
    else
      let n := leNat (s.bytesAt (l.base + pos + 0x20) 4)
      match drecOf (s.bytesAt (l.base + pos) (64 + min n (l.wpos - pos))) with
      | none => none
      | some r => (scanLog s l fuel (pos + 64 + up64 n)).map (fun t => (pos, r) :: t)

/-- The end of the last EPOCH_END record of a log. -/
def lastEpochEnd (s : State) (l : Log) : Nat :=
  match s.scanLog l (l.wpos / 64 + 1) 0 with
  | some rs => match (rs.filter (fun r => r.2.1.kind == 3)).getLast? with
    | some r => r.1 + 64
    | none => 0
  | none => l.wpos

/-- RECEIVE binds a stream to its log. -/
def receiveFx (h : Nat) (o : RunOp) (s : State) : Except Err State := do
  let c := o.cmd
  need (CmdRecF.ncoreM1 c == 0 && c.w0 == 0 && fld c.w3 63 15 == 0 && decide (1 ≤ c.w5.toNat) && decide (c.w5.toNat < 65536)) 3
  let l ← s.logOf o.tenant c.w4
  need (!l.partner) 3
  let lead := l.wpos % tileBytes
  pure { s with recvs := Map.set s.recvs h ⟨c.w3.toNat, l.stream, c.w4.toNat, c.w5.toNat, s.ft, s.lastEpochEnd l, s.bytesAt (l.base + l.wpos - lead) lead⟩ }

/-- Append a message to a bound log; whole tiles are written (R346). -/
def recvAppend (s : State) (h : Nat) (o : RunOp) (r : RecvRun) (l : Log) (pos : Nat) (data : List Byte) : State :=
  if pos = l.wpos ∧ data ≠ [] ∧ pos + data.length ≤ l.tiles * tileBytes then
    let buf := r.buf ++ data
    let whole := buf.length / tileBytes * tileBytes
    let r : RecvRun := { r with buf := buf.drop whole, endAt := if data.getD 2 0 = 3 then pos + data.length else r.endAt }
    match logTiles h o.tenant l.base (pos - pos % tileBytes) (buf.take whole) (.ok s) with
    | .error e => s.opErr h e
    | .ok u => ({ u with recvs := Map.set u.recvs h r } : State).logWpos o.tenant r.log (pos + data.length)
  else { s with recvs := Map.set s.recvs h r }

/-- Answer with the durable position of the log (R346). -/
def recvAnswer (s : State) (h src : Nat) (o : RunOp) (r : RecvRun) : State :=
  match Map.get? s.recvs h, s.logOf o.tenant (BitVec.ofNat 64 r.log) with
  | some _, .ok l =>
    let d := s.logDurable l
    (s.logAck o.tenant r.log d).send ⟨src, s.srcField, 0, 0x39, 4, o.tenant, deltaBody r.stream false d [], false, []⟩
  | _, _ => s

/-! ### APPLY (R347) -/

/-- The records of the last complete group of an epoch: those of the epoch between the EPOCH_END before and its own. -/
def groupOf (e : Nat) (l : List (DRec × List Nat)) : Option (List (DRec × List Nat)) :=
  (l.foldl (fun (acc : List (DRec × List Nat) × Option (List (DRec × List Nat))) r =>
    if r.1.kind = 3 then ([], if r.1.epoch = e then some acc.1 else acc.2)
    else if r.1.kind ≤ 2 && r.1.epoch == e then (acc.1 ++ [r], acc.2) else acc) ([], none)).2

/-- XOR a record's words over the words of an area, where they overlap: word 0 of the area stands at `s0`, of the record at
`r0`. -/
def xorWords (s0 r0 : Nat) (ws rw : List Nat) : List Nat :=
  (ws.zip (List.range ws.length)).map (fun p =>
    let i := s0 + p.2
    if r0 ≤ i ∧ i < r0 + rw.length then Nat.xor p.1 (rw.getD (i - r0) 0) else p.1)

/-- Apply records to one section of a shard. -/
def applySect (sh : Shard) (sect : Nat) (rs : List (DRec × List Nat)) (ws : List Nat) : List Nat :=
  rs.foldl (fun ws r =>
    if r.1.tensor ≠ sh.tensor ∨ r.1.sect ≠ sect then ws
    else if sect = 2 then (if r.1.elem = sh.elem then xorWords 0 r.1.auxOff ws r.2 else ws)
    else xorWords sh.elem r.1.elem ws r.2) ws

/-- APPLY: BUSY is taken with the epoch it leaves; the commit block moves when it completes with OK. An epoch asked for and not
complete in the log ends it with EPOCH, DETAIL 0x01 (log entry 31). -/
def applyFx (h : Nat) (o : RunOp) (s : State) : Except Err State := do
  let who := o.tenant
  let m ← s.mapOf o
  let _ ← s.block64 who o.cmd.w3
  let cb := o.cmd.w3.toNat
  let first := o.cmd.w2.toNat
  let last := o.cmd.w5.toNat
  let base := bit o.cmd.w1 8
  let com := s.cbCommitted cb
  demand (!s.cbFlag cb 7) (.of 0x16 5)
  if s.cbState cb = cbAcked ∧ base = false ∧ first = com ∧ last = com then pure (s.cbTake h who cb (com - 1))
  else
    demand (s.cbState cb == cbIdle && s.cbFolded cb == com) (.of 0x16 2)
    let fwd := !base && first == com + 1
    demand (decide (first ≤ last) && (base || fwd || last == com)) (.of 0x16 1)
    let l ← s.logOf who o.cmd.w4
    need (!l.partner) 3
    match s.readErr who l.base l.wpos with
    | some e => .error e
    | none => pure ()
    let rs ← (match s.scanLog l (l.wpos / 64 + 1) 0 with
      | some rs => (.ok (rs.map (·.2)) : Except Err (List (DRec × List Nat)))
      | none => .error (.of 0x0A 2))
    let gs := (List.range (last + 1 - first)).map (fun i => groupOf (first + i) rs)
    demand (gs.all (·.isSome)) (.of 0x16 1)
    let gl := gs.map (fun g => g.getD [])
    let use := if base then (gl.headD []).filter (fun r => r.1.kind == 2) ++ ((gl.drop 1).flatten).filter (fun r => r.1.kind == 1)
               else (if fwd then gl.flatten else gl.reverse.flatten).filter (fun r => r.1.kind == 1)
    let secs := (m.2.flatMap (fun sh => ((sections sh).zip (sectNos sh)).map (fun q => (sh, q)))).filter (fun x => x.2.1.2.2.1 != 0)
    match (if base then none else secs.findSome? (fun x => s.readErr who x.2.1.1 (x.2.1.2.2.1 * x.2.1.2.2.2))) with
    | some e => .error e
    | none => pure ()
    let bad := s.anyPoison l.base l.wpos || (!base && secs.any (fun x => s.anyPoison x.2.1.1 (x.2.1.2.2.1 * x.2.1.2.2.2)))
    let s := s.cbTake h who cb (if base || fwd then last else first - 1)
    let s ← secs.foldl (fun acc x =>
      match acc with
      | .error e => .error e
      | .ok u =>
        let w := x.2.1.2.2.2
        let ws := if base then List.replicate x.2.1.2.2.1 0 else u.areaWords x.2.1.1 x.2.1.2.2.1 w
        putElem h who bad (.ok u) ((x.2.1.1 : Nat), (applySect x.1 x.2.2 use ws).flatMap (leBytes w))) (.ok s)
    pure (s.markPoison h bad l.base)

/-- The end of a record that held BUSY (R334, R336, R338, R343, R347): BUSY clears, and an UPDATE_SWEEP that completes with OK
moves the commit block. -/
def epochEnd (s : State) (h : Nat) (o : RunOp) : State :=
  let s := if o.cmd.opcode = 0x0500 ∧ sweepMode o.cmd = 2 ∧ o.code ≠ 0 then s.raise (0x180 + mfuOf o.cmd) 3 else s
  let s : State := { s with commits := Map.erase s.commits h, folds := Map.erase s.folds h, recvs := Map.erase s.recvs h }
  match Map.get? s.busyCb h with
  | none => s
  | some (cb, next) =>
    let who := o.tenant
    let s : State := { s with busyCb := Map.erase s.busyCb h }
    let s := s.cbFlagSet who cb 7 false
    if o.cmd.opcode ≠ 0x0500 ∨ o.code ≠ 0 then s
    else if sweepMode o.cmd = 1 then (s.cbSet who cb 8 8 o.cmd.w2.toNat).cbTo who cb cbSwept
    else if sweepMode o.cmd = 2 then
      let s : State := { s with foldLog := Map.erase s.foldLog (cbKey who cb) }
      (s.cbSet who cb 0x18 8 o.cmd.w2.toNat).cbTo who cb cbIdle
    else
      let s := (s.cbSet who cb 0 8 next).cbSet who cb 0x18 8 next
      (s.cbTo who cb cbIdle).cbNextVersion who cb

end State

/-- FOLD (R343): steps 1 and 2; FOLD_DURABLE does the rest. -/
def execFold (h : Nat) (s : State) : Out := keepQueue s <|
  if (Map.get? s.folds h).isSome then .next s else .next ((s.sweepOp h 2 (fun hs t o => State.foldReads hs t o) (State.foldFx h)).stillRuns h)

/-- FOLD_DURABLE (R343): every record is durable; DURABLE is set and the copy runs. -/
def execFoldDurable (h : Nat) (s : State) : Out := keepQueue s <|
  match Map.get? s.folds h, s.op? h with
  | some f, some o =>
    let dur := match f.partner with
      | some _ => decide (f.finish ≤ f.ack)
      | none => match s.logOf o.tenant (BitVec.ofNat 64 f.log) with
        | .ok l => !s.opWaits h && (State.tilesOf (l.base + f.start) (f.finish - f.start)).all s.tileDurable
        | .error _ => false
    if dur = true ∧ f.copying = false ∧ o.code = 0 then
      let s := (s.cbFlagSet o.tenant f.cb 1 true).logAck o.tenant f.log f.finish
      let s : State := { s with folds := Map.set s.folds h { f with copying := true } }
      match (do let m ← s.mapOf o; State.foldCopy h o.tenant m.2 s) with
      | .error e => .next (s.opErr h e)
      | .ok u => .next (u.opDone h 0 0)
    else .next s
  | _, _ => .next s

/-- APPLY (R347). -/
def execApply (h : Nat) (s : State) : Out := keepQueue s <| .next (s.sweepOp h 3 (fun hs t o => State.applyReads hs t o) (State.applyFx h))

/-- RECEIVE (R346). -/
def execReceive (h : Nat) (s : State) : Out := keepQueue s <|
  if (Map.get? s.recvs h).isSome then .next s else .next ((s.sweepOp h 4 (fun _ _ _ => []) (State.receiveFx h)).stillRuns h)

/-- RECEIVE_IDLE_TIMEOUT (R346): nothing received for the idle limit; RECEIVE completes with OK. -/
def execReceiveIdleTimeout (h : Nat) (s : State) : Out := keepQueue s <|
  match Map.get? s.recvs h with
  | some r =>
    if r.at_.toNat + r.idle * 4000000 ≤ s.ft.toNat then .next ({ s with recvs := Map.erase s.recvs h }.opDone h 0 0) else .next s
  | none => .next s

/-- DELTA_DATA (R346): appended, rewinds, or discarded, and answered. A message for no RECEIVE is discarded. -/
def execDeltaData (src own stream : Nat) (rewind : Bool) (pos : Nat) (data : List Byte) (s : State) : Out := keepQueue s <|
  match s.recvs.find? (fun e => e.2.src == src && e.2.stream == stream && (s.op? e.1).any (fun o => o.tenant == own)) with
  | some (h, r) =>
    match s.op? h with
    | some o =>
      match s.logOf o.tenant (BitVec.ofNat 64 r.log) with
      | .ok l =>
        let r : RecvRun := { r with at_ := s.ft }
        if rewind = true ∧ r.endAt ≤ pos then
          let s := s.logWpos o.tenant r.log pos
          let lead := pos % tileBytes
          let r : RecvRun := { r with buf := s.bytesAt (l.base + pos - lead) lead }
          .next ((s.recvAppend h o r { l with wpos := pos } pos data).recvAnswer h src o r)
        else .next ((s.recvAppend h o r l pos data).recvAnswer h src o r)
      | .error e => .next (s.opErr h e)
    | none => .next s
  | none => .next s

/-- DELTA_ACK (R346): ACK_POS advances. -/
def execDeltaAck (src own stream pos : Nat) (s : State) : Out := keepQueue s <|
  match s.folds.find? (fun e => e.2.partner == some src && e.2.stream == stream && (s.op? e.1).any (fun o => o.tenant == own)) with
  | some (h, f) =>
    if f.ack < pos ∧ pos ≤ f.finish then
      .next ({ s with folds := Map.set s.folds h { f with ack := pos, since := s.ft, tries := 0 } }.logAck own f.log pos)
    else .next s
  | none => .next s

/-- DELTA_RESEND_TIMEOUT (R346): no progress for FBD_E2E_TMO resends from ACK_POS; after FBD_E2E_TRIES resends the FOLD ends with
REMOTE. -/
def execDeltaResendTimeout (h : Nat) (s : State) : Out := keepQueue s <|
  match Map.get? s.folds h, s.op? h with
  | some f, some o =>
    if f.partner.isSome = true ∧ f.ack < f.finish ∧ o.code = 0 ∧ f.since.toNat + s.rdF R.FBD_E2E_TMO 15 0 * 4000 ≤ s.ft.toNat then
      if s.rdF R.FBD_E2E_TRIES 3 0 ≤ f.tries then .next (s.opDone h 0x11 3)
      else
        let f : FoldRun := { f with tries := f.tries + 1, since := s.ft }
        let s : State := { s with folds := Map.set s.folds h f }
        .next ((f.recs.filter (fun r => f.ack < r.1 + r.2.length)).foldl (State.foldSend o.tenant f) s)
    else .next s
  | _, _ => .next s

end Sys2Proof.Machine
end

