-- ==== Sys2Proof/Machine/Stops.lean ====
section
/-! DEFINITION. How a running operator is stopped before its end (R116, R119), and how what it held is given back. -/
namespace Sys2Proof.Machine
open Sys2Proof

/-- A handle no operator has: what a stopped operator's outstanding requests answer to. -/
def deadHandle : Nat := 2 ^ 63

namespace State

/-- A drain that is held is given up: the slots it reserved return to FREE. -/
def dropDrain (s : State) (e bank : Nat) (d : DrainPlan) : State :=
  let s := ((fmtOf d.fmt).map (drainSlots d)).getD [] |>.foldl (fun u k =>
    let v := u.slot e k
    if v.held.contains (.drain e bank) then u.slotSet e k { v with held := v.held.erase (.drain e bank) }
    else if v.st = .fill then u.slotState e k .free else u) s
  s.engineSet e { s.engine e with drains := Map.erase (s.engine e).drains bank }

/-- Engines no longer hold an operator, and no engine has it queued; its banks are idle, but for one it keeps (R56). -/
def freeEngines (s : State) (h : Nat) : State :=
  let s := (s.eng.flatMap (fun p => (p.2.drains.filter (fun q => q.2.op == h)).map (fun q => (p.1, q.1, q.2)))).foldl
    (fun u q => u.dropDrain q.1 q.2.1 q.2.2) s
  let bank (b : Bank) : Bank := if b.op = h ∧ b.st ≠ .kept then Bank.none else b
  { s with
    eng := Map.mapVals s.eng (fun _ g => { g with
      bank0 := bank g.bank0
      bank1 := bank g.bank1
      run := (match g.run with | some t => if t.op = h then none else some t | none => none)
      susp := g.susp.filter (fun x => x.task.op != h) })
    readyQ := (Map.mapVals s.readyQ (fun _ l => l.filter (· != h))).filter (fun p => p.2 != []) }

/-- Nothing in the memory system or on the flows answers to an operator any more: moves asked for are dropped, moves in
flight are given up, requests outstanding stay with their flow. -/
def freeAccesses (s : State) (h : Nat) : State :=
  let s := (s.ms.moves.filter (fun p => p.2.why == .op h)).foldl (fun u p => u.abortMove p.1 p.2 0 0) s
  { s with
    ms := { s.ms with
      asks := s.ms.asks.filter (fun a => a.why != .op h && (match a.why with | .between (.op k _) => k != h | _ => true))
      waits := s.ms.waits.filter (fun w => w.acc.op != some h)
      reads := s.ms.reads.filter (fun p => !p.2.by_.isOp h) }
    remTodo := Map.erase s.remTodo h
    away := Map.mapVals s.away (fun _ a => { a with by_ := (match a.by_ with | some (.op k x) => if k = h then none else some (.op k x) | x => x) })
    flowOut := Map.mapVals s.flowOut (fun _ f => { f with
      reqs := f.reqs.map (fun r => { r with why := (match r.why with | .op k x => if k = h then .op deadHandle x else .op k x | w => w) }) }) }

/-- Areas of a shard whose contents a stopped UPDATE_SWEEP leaves undefined. -/
def stopAreas (s : State) (o : RunOp) (sh : Shard) : List (Nat × Nat) :=
  let mom := if sh.rule = 0 then 0 else 2 * sh.n
  let pub := (sh.areas.getD 8 (0, 0))
  if sweepMode o.cmd = 1 then [(sh.newm, 4 * sh.n), (sh.momNew, mom), (sh.auxNew, 4 * sh.auxWords), pub, sh.areas.getD 9 (0, 0)]
  else if sweepMode o.cmd = 3 ∨ (sweepMode o.cmd = 2 ∧ s.cbFlag o.cmd.w3.toNat 1 = true) then
    [(sh.master, 4 * sh.n), (sh.moment, mom), (sh.aux, 4 * sh.auxWords)]
  else []

/-- The outputs of a stopped operator are undefined (R116): every output tensor, and the areas and ranges of the operators that
write others. The output word of ELEMENTWISE depends on its function, so every word it may be is taken; those of
GROUPED_MATMUL are its groups' (log entry 32). -/
def stopOutputs (s : State) (h : Nat) (o : RunOp) : State :=
  let c := o.cmd
  let s := o.outs.foldl (fun u w => match u.tensor o.tenant w true with | .ok t => u.openTensor t.d | .error _ => u) s
  let outs := if c.opcode = 0x0300 then [1, 2, 4] else if c.opcode = 0x0502 then [1] else
    match opInfo c.opcode.toNat with | some i => i.outs | none => []
  let s := outs.foldl (fun u i =>
    if wordOf c i = 0 then u
    else match u.tensor o.tenant (wordOf c i) true with
      | .ok t => u.openTensor t.d
      | .error _ => u) s
  let s := if c.opcode = 0x0500 then
      (match s.mapOf o with
       | .ok m => m.2.foldl (fun u sh => (u.stopAreas o sh).foldl (fun u r => u.openRange r.1 r.2) u) s
       | .error _ => s)
    else s
  let s := if c.opcode = 0x0404 then s.openRange (c.w7.toNat + 0x20) 12 else if c.opcode = 0x0405 then s.openRange (c.w7.toNat + 0x20) 4
    else if c.opcode = 0x0F02 then s.openRange c.w0.toNat 8 else s
  let s := if c.opcode = 0x0700 ∧ (s.localOk o.tenant c.w1.toNat c.w2.toNat true).isNone = true then s.openRange c.w1.toNat c.w2.toNat else s
  match Map.get? s.convs h with
  | some r => if r.passed && !r.d.send then s.openRange r.d.dest (rleBytes r.d.dstFmt r.d.layout r.d.rows r.d.ncol) else s
  | none => s

/-- A running operator stops with a CODE (R116): its collective ends, a lead in a group exchange fails it (R291), its streams are
cancelled, its parts report no more. It completes when OPERATOR_COMPLETE finds nothing left of it. -/
def stopOp (s : State) (h code detail : Nat) : State :=
  match s.op? h with
  | none => s
  | some o =>
    let s := if s.inExchange h then
        (if code = 7 then s.exchangeFail h
         else match Map.get? s.gsteps h with
           | some g => (match s.genModel g.who g.model with
             | .ok m => s.tellState h o m 2
             | .error _ => s)
           | none => s)
      else s
    let s := s.slots.foldl (fun u e =>
      let u := if (match e.2.run with | some c => c.op == h | none => false) then u.collEnd e.1 code detail 0xFFFF none true else u
      (e.2.queue.filter (fun c => c.op == h)).foldl (fun u c => u.queueEnd e.1 c code detail 0xFFFF) u) s
    let s := (s.opFail h (BitVec.ofNat 8 code) (BitVec.ofNat 8 detail)).stopOutputs h o
    let s := ((s.cancelOpStreams h).freeEngines h).freeAccesses h
    match s.op? h with
    | some o => s.opSet h { o with ran := true, parts := [] }
    | none => s

end State
end Sys2Proof.Machine
end

