-- ==== Sys2Proof/Machine/Turnover.lean ====
section
/-! DEFINITION. Chapter 12: the TURNOVER operator and its state machine (R361 to R370). -/
namespace Sys2Proof.Machine
open Sys2Proof

namespace State

/-- A part entry (R361). -/
def turnPartOf (s : State) (a : Nat) : TurnPart :=
  let b := s.bytesAt a 64
  let q (i n : Nat) : Nat := leNat ((b.drop i).take n)
  ⟨q 0 8, q 8 4, q 0xC 1, q 0xD 1, q 0xE 1, q 0x10 4, q 0x14 4, q 0x18 8, BitVec.ofNat 32 (q 0x20 4), a, [], false⟩

/-- Are a part's fields sound, and its tiles weight tiles of TIER 0b01 homed in DRAM or nowhere (R361, R362)? -/
def partOk (s : State) (p : TurnPart) : Bool :=
  let b := s.bytesAt p.entry 64
  p.base % tileBytes == 0 && 1 ≤ p.tiles && p.tiles ≤ 65536 && (p.srcFmt == 0 || p.srcFmt == 1 || p.srcFmt == 3 || p.srcFmt == 8) &&
  b.getD 0xF 0 == 0 && (b.drop 0x28).all (· == 0) && 1 ≤ p.k && p.k ≤ 16777216 && 1 ≤ p.n && p.n ≤ 65536 &&
  rleLayoutOk p.dstFmt p.layout p.k p.n && (rleBytes p.dstFmt p.layout p.k p.n + 65535) / 65536 == p.tiles &&
  decide (p.base + p.tiles * tileBytes ≤ uniEnd) &&
  p.tilesL.all (fun n =>
    let v := s.rgn (n / 65536)
    bit v 31 && rgnOwner v == modelOwner && !bit v 23 && rgnTier v == 1 && ((s.tile n).st == .dram || (s.tile n).st == .unalloc))

/-- Read and check a TURNOVER record (R361, R362, R391). -/
def turnOf (s : State) (h : Nat) (o : RunOp) : Except Err Turn := do
  let c := o.cmd
  let a := c.w0.toNat
  demand (s.turnRight o.tenant) (.access (4, 1) a)
  demand s.turn.isNone (.of 0x17 2)
  let bad : Err := .of 0x17 1
  demand (CmdRecF.ncoreM1 c == 0 && c.w1 == 0 && c.w2 == 0 && c.w3 == 0 && c.w4 == 0 && c.w5 == 0 && c.w6 == 0 && c.w7 == 0 && a % 64 == 0) bad
  let b := s.bytesAt a 64
  let q (i n : Nat) : Nat := leNat ((b.drop i).take n)
  let np := q 2 2
  demand (np ≤ 1024 && s.ctlSpan a (64 + 64 * np) && (s.readDeny o.tenant a (64 + 64 * np)).isNone) bad
  let ps := (List.range np).map (fun i => s.turnPartOf (a + 64 + 64 * i))
  let total := (ps.map (·.tiles)).sum
  let fl := q 0x24 4
  let swap := q 0x20 4
  let hold := q 0x2C 4
  let stage := q 0x38 4
  let turnFt := q 0x10 8
  let dl := q 0x18 8
  demand (q 0 2 == 1 && 1 ≤ np && q 4 4 != 0 && q 4 4 != 0xFFFFFFFF && q 4 4 != s.genVersion.toNat && s.ft.toNat < turnFt && turnFt < dl &&
    1 ≤ swap && swap ≤ 1000 && fl < 8 && q 0x28 4 < 65536 && q 0x3C 4 == 0 &&
    (c.deadline == 0 || decide (dl < c.deadline.toNat)) && ps.all s.partOk && !anyMeet (ps.map (fun p => (p.base, p.tiles * tileBytes))) &&
    (ps.map (·.pieces)).sum ≤ 67108864 && (fl.testBit 0 || total ≤ stage) && stage ≤ s.dFree modelOwner &&
    !s.mdls.any (fun m => bit m.2.ctl 31 && m.2.hold.toNat < hold) && swap * 384 + total ≤ hold * 384) bad
  pure ⟨h, o.tenant, 1, BitVec.ofNat 32 (q 4 4), BitVec.ofNat 64 (q 8 8), BitVec.ofNat 64 turnFt, BitVec.ofNat 64 dl, swap, fl.testBit 0,
    fl.testBit 1, fl.testBit 2, q 0x28 1, q 0x29 1, hold, BitVec.ofNat 64 (q 0x30 8), stage, ps, [], none, fNone⟩

/-- Claim a trigger for TURN_FT (R115, R384). -/
def turnTrigger (s : State) (ft : Word64) : Option Nat × State :=
  match s.sharedTrigger 1 0 ft with
  | some n => (some n, s)
  | none => match s.freeTrigger with
    | some n => (some n, s.triggerSet n ⟨ft, true, false, 1, 0⟩)
    | none => (none, s)

/-- TURNOVER enters STAGING. -/
def turnStart (s : State) (h : Nat) : State :=
  match s.op? h with
  | none => s
  | some o =>
    if o.dispatched = true ∧ o.ran = false ∧ o.code = 0 ∧ o.cmd.opcode = 0x0800 ∧ (match s.turn with | some t => t.op != h | none => true) = true then
      match s.turnOf h o with
      | .error e => s.opErr h e
      | .ok t =>
        let k := s.turnTrigger t.turnFt
        let s := t.parts.foldl (fun u p => u.turnPut t.tenant (p.entry + 0x24) (leBytes 4 0)) k.2
        { (s.opSet h { o with epoch := t.epoch }) with turn := some { t with trig := k.1 } }
    else s

/-- Old readers at TURN_FT (R365): operators that read the generation copy, dispatched before it; a follower only while it runs
an announced step (R366). -/
def oldReaders (s : State) : List Nat :=
  (s.ops.filter (fun p => p.2.dispatched && s.readsGen p.2.cmd &&
    (match Map.get? s.gsteps p.1 with | some g => !(g.follow && 8 ≤ g.phase) | none => true))).map (·.1)

/-- Does a tensor descriptor name elements between two addresses? -/
def tensorIn (s : State) (w : Word64) (lo hi : Nat) : Bool :=
  w != 0 && (s.elemAddrs (descOf (s.bytesAt w.toNat 64))).any (fun a => decide ((lo : Int) ≤ a ∧ a < (hi : Int)))

/-- Will an old reader read a part again (R365)? A VERIFY_STEP by the layers and the head it has still to run; any other until it
completes. -/
def readerNeeds (s : State) (p : TurnPart) (h : Nat) : Bool :=
  match s.op? h with
  | none => false
  | some o =>
    if o.code = 0x17 then false
    else match Map.get? s.gsteps h with
      | none => true
      | some g =>
        if g.phase = 9 ∨ (g.follow = true ∧ g.phase = 8) then false
        else match s.genModel g.who g.model with
          | .error _ => true
          | .ok m =>
            let lo := p.base
            let hi := p.base + p.tiles * tileBytes
            let again := !g.follow && (g.prefill || 1 < g.queue.length)
            let layers := if again then m.layers else if g.phase ≤ 4 then m.layers.drop g.layer else []
            let headL := again || decide (g.phase ≤ 5)
            (again && s.tensorIn m.embed lo hi) ||
            layers.any (fun l => [l.attnNorm, l.wqkv, l.wo, l.mlpNorm, l.gateUp, l.down, l.router].any (fun w => s.tensorIn w lo hi)) ||
            (headL && (s.tensorIn m.fnorm lo hi || s.tensorIn m.lmHead lo hi))

/-- The swap of one tile (R365): the staging frame becomes its home, the old frame is free. -/
def swapTile (s : State) (n : Nat) : State :=
  match s.stageFrames.find? (fun p => p.2 == n) with
  | none => s
  | some p =>
    let t := s.tile n
    let s := if t.st = .dram then s.freeFrameAt t.loc else s
    let s := s.takeFrame p.1 (.tile n) modelOwner
    let s := (s.tileSet n ⟨.dram, t.st == .dram && t.pin, p.1, false⟩).clearPoison (n * tileBytes) tileBytes
    { s.movePoison (stageAt (n * tileBytes)) (n * tileBytes) tileBytes with mem := Mem.move s.mem (stageAt (n * tileBytes)) (n * tileBytes) tileBytes }

/-- Do a turnover's parts cover the whole generation copy: every tile of a weight region that has a home (R276, R369)? -/
def turnCovers (s : State) (t : Turn) : Bool :=
  let ns := t.parts.flatMap (·.tilesL)
  s.ms.tiles.all (fun e => !s.inWeights (e.1 * tileBytes) || e.2.st == .unalloc || ns.contains e.1)
/-- Release (R360, R364, R368). A copy that is not valid becomes so only where the parts cover the whole of it (R369; log entry 33). -/
def turnRelease (s : State) (t : Turn) (code detail : Nat) : State :=
  let s := if s.rdB R.RLE_TURN_STAT 27 || s.turnCovers t then (s.wr R.RLE_GEN_VERSION t.version).wrF R.RLE_TURN_STAT 27 27 1 else s
  let hold := min (s.turnHold t) 0xFFFFFFFF
  let s := s.wr R.RLE_HOLD_LAST (BitVec.ofNat 32 hold)
  let s := if (s.rd R.RLE_HOLD_MAX).toNat < hold then s.wr R.RLE_HOLD_MAX (BitVec.ofNat 32 hold) else s
  let s := t.parts.foldl (fun u p => if p.ref ≠ 0 then u.turnPut t.tenant (p.entry + 0x20) (leBytes 4 t.version.toNat) else u) s
  let s := s.turnDone t 2 code detail
  let s : State := { s with turn := none, turnLast := some t.version }
  (s.bump R.RLE_TURN_CNT).raiseAll rlePages 2

/-- The end of a turnover whose record's own deadline is reached, or its descriptor's (R361, R364). -/
def turnDeadline (s : State) (t : Turn) : State :=
  if t.st = 1 then s.turnAbort t 3 0x17 0x0A
  else if t.st = 2 then
    if t.parts.all (·.staged) then t.readers.foldl (fun u h => if (u.op? h).any (fun o => o.ran == false || o.parts != []) then u.stopOp h 0x17 4 else u) s
    else s.turnInvalid t
  else s.turnRelease t 0x17 0x0C

end State

/-- TURNOVER (R361, R362, R364). -/
def execTurnover (h : Nat) (s : State) : Out := keepQueue s <| .next (s.turnStart h)

/-- TRIGGER_TURNOVER (R364, R384): at TURN_FT the barrier is raised with its item, or the turnover ends unstaged. A TURNOVER
trigger whose time has come fires, also where its turnover has ended. -/
def execTriggerTurnover (s : State) : Out := keepQueue s <|
  let s := match (List.range 256).find? (fun n => let t := s.trigger n; t.valid && t.action == 1 && decide (t.ft ≤ s.ft)) with
    | some n => s.fireTrigger n
    | none => s
  match s.turn with
  | none => .next s
  | some t =>
    if t.st = 1 ∧ t.turnFt ≤ s.ft then
      let s := if t.trig.isNone then s.bump (R.CRG_TRIG_FALLBACK t.tenant) else s
      if t.stream = true ∨ t.parts.all (·.staged) = true then
        let t : Turn := { t with st := 2, readers := s.oldReaders }
        let s := ({ s with turn := some t } : State).raiseAll rlePages 1
        match s.op? t.op with
        | some o =>
          let o : RunOp := { o with kind := 0x13, version := s.rd R.RLE_GEN_VERSION, tdata := BitVec.ofNat 64 (s.turnData t 1) }
          .next (if evtDue o then (s.storeItem o.tenant (CmdRecF.evq o.cmd) (CmdRecF.evtPrio o.cmd) (completionItem o s.ft s.free)).used else s)
        | none => .next s
      else .next ((s.setBits R.RLE_ERR 4).turnAbort t 3 0x17 3)
    else .next s

/-- PART_SWAP (R365): the next part, staged, past SWAP_DELAY, with no old reader that will read it again. After the last the
counter is signalled, by 1 (log entry 33). -/
def execPartSwap (s : State) : Out := keepQueue s <|
  match s.turn with
  | none => .next s
  | some t =>
    match t.parts.findIdx? (fun p => !p.swapped) with
    | none => .next s
    | some i =>
      match t.parts[i]? with
      | none => .next s
      | some p =>
        if t.st = 2 ∧ p.staged = true ∧ t.turnFt.toNat + t.swapDelay * 4000 ≤ s.ft.toNat ∧ t.readers.any (s.readerNeeds p) = false ∧
           p.tilesL.all (fun n => (s.tile n).st != .movingD && (s.tile n).st != .movingF) = true then
          let s := p.tilesL.foldl State.swapTile s
          let parts := t.parts.set i { p with swapped := true }
          let last := parts.all (·.swapped)
          let s : State := { s with turn := some { t with parts := parts, st := if last then 3 else 2 } }
          if last && t.rdyEn then .next (s.depSet t.tenant t.rdyCtr (satAdd64 (s.dep t.tenant t.rdyCtr) 1)) else .next s
        else .next s

/-- TURNOVER_RELEASE (R364, R368). -/
def execTurnoverRelease (s : State) : Out := keepQueue s <|
  match s.turn with
  | some t => if t.st = 3 ∧ (t.refillEn = false ∨ t.refillVal ≤ s.dep t.tenant t.refillCtr) then .next (s.turnRelease t 0 0) else .next s
  | none => .next s

/-- TURNOVER_DEADLINE (R364). -/
def execTurnoverDeadline (s : State) : Out := keepQueue s <|
  match s.turn with
  | some t => if 2 ≤ t.st ∧ t.deadline ≤ s.ft then .next (s.turnDeadline t) else .next s
  | none => .next s

/-- TURN_ABORT (R364, R372): a write of ABORT to RLE_TURN_CMD. -/
def execTurnAbort (s : State) : Out := keepQueue s <|
  let s := s.countWrite 0xE8 false
  match s.turn with
  | some t => if t.st = 1 then .next (s.turnAbort t 3 0x17 0x0A) else .next ((s.setBits R.RLE_ERR 1).raiseAll rlePages 5)
  | none => .next s

end Sys2Proof.Machine
end

