-- ==== Sys2Proof/Machine/Rungs.lean ====
section
/-! DEFINITION. Chapter 16: the package resets (R460, R466, R468) and the power rungs (R455 to R459), as the power commands and
the RUNG triggers use them. -/
namespace Sys2Proof.Machine
open Sys2Proof

namespace State

/-! ### Firmware images (R428, R479, R482) -/

/-- The slot of a stage that is active: 0 A, 1 B (R484). -/
def fwActive (s : State) (stage : Nat) : Nat := if s.rdB R.PWR_FW_STAT (stage - 1) then 1 else 0
/-- The image in a slot of a stage. -/
def fwImage (s : State) (stage slot : Nat) : List Byte :=
  Map.get s.sem.images (Config.factoryImage (2 * stage + slot)) (2 * stage + slot)
/-- The image a stage runs. -/
def fwRunning (s : State) (stage : Nat) : List Byte := Map.get s.sem.running (s.fwImage stage (s.fwActive stage)) stage
/-- The images a reset boots: the other slot of each stage marked TRY (R482). -/
def fwBoot (s : State) : Map (List Byte) :=
  (([1, 2, 3, 4, 5] : List Nat).filter (fun g => s.rdB R.PWR_FW_STAT (7 + g))).map (fun g => (g, s.fwImage g (1 - s.fwActive g)))

/-! ### What a reset keeps (R155, R434, R449, R468) -/

/-- The home a tile has after a reset: flash homes are journalled, and so is a move into flash that is verified (R152 step 4); DRAM homes
are LOST (R155). Where a tile was AWAY is not kept (log entry 36). -/
def homeAfter (m : Option Move) (t : Tile) : Tile :=
  match t.st with
  | .unalloc => Tile.none
  | .flash => ⟨.flash, false, t.loc, t.evac⟩
  | .movingF => ⟨.flash, false, t.loc, t.evac⟩
  | .dram => ⟨.lost, false, 0, false⟩
  | .movingD =>
    (match m with
     | some m => if m.dstFlash && m.verified then ⟨.flash, false, m.dst, m.why == .evacuate⟩ else ⟨.lost, false, 0, false⟩
     | none => ⟨.lost, false, 0, false⟩)
  | .lost => ⟨.lost, false, 0, false⟩
  | .away => ⟨.lost, false, 0, false⟩

/-- The memory system after a reset (R155): with a journal, the flash homes, regions, quotas and stack fences, those of evacuations cut
short among them (R164); with none, nothing (R449). -/
def memAfter (s : State) : MemSys :=
  let flash : MemSys := { MemSys.reset with chanFail := s.ms.chanFail, spent := s.ms.spent, turnChan := s.ms.turnChan }
  if s.sem.journal then
    let tiles := Map.mapVals s.ms.tiles (fun n t => homeAfter (Map.get? s.ms.moves n) t)
    let ftiles := s.ms.ftiles.filter (fun p => let t := Map.get tiles Tile.none p.2; t.st == .flash && t.loc == p.1)
    let fenced := s.ms.fenced ++ s.ms.evacuating.filter (fun k => !s.ms.fenced.contains k)
    { flash with
      tiles := tiles.filter (fun p => p.2 != Tile.none)
      ftiles := ftiles
      nand := s.ms.nand.filter (fun p => (Map.get? ftiles p.2).isSome)
      rgn := s.ms.rgn
      own := (Map.mapVals s.ms.own (fun _ o => { Owner.none with dQuota := o.dQuota, fQuota := o.fQuota })).filter (fun p => p.2 != Owner.none)
      tblA := !fenced.any (fun k => k < 6)
      tblB := !fenced.any (fun k => 6 ≤ k)
      fenced := fenced
      poison := s.ms.poison.filter (fun u => (Map.get tiles Tile.none (u / 1024)).st == .flash) }
  else flash

/-- What the flash itself keeps of its page (R168, R175; log entry 65): FTL_CAP, FTL_STAT, the spare pool, the blocks retired and the
totals written. -/
def flashReg (a : Nat) : Bool :=
  a / 4096 == 0xB && (let o := a % 4096; o == 0x100 || o == 0x108 || o == 0x110 || o == 0x118 || (decide (0x128 ≤ o) && decide (o < 0x138)))
/-- Registers that a reset keeps: of the always-on domain those of PWR and UAR and the SEM_TAMPER record (R453, R468), and the flash's. -/
def keptReg (a : Nat) : Bool := a / 4096 == 5 || a / 4096 == 0xA || a == R.SEM_TAMPER || flashReg a
/-- What the journal gives back to registers (R155, R164): a stack's fence, its failed dies, one table copy only, the reach port's half, and
the quotas cut for a stack whose evacuation was cut short. -/
def journalRegs (before r : State) : State :=
  if before.sem.journal then
    let r := r.ms.fenced.foldl (fun u k =>
      let u := u.wrF (R.DRP_FENCE_STAT k) 31 30 2
      match portOfStack k with
      | some p => u.clrBits (preg p 0x204) (BitVec.ofNat 32 (2 ^ (k % 2)))
      | none => u) r
    let r := (List.range 12).foldl (fun u k => if before.rd (R.DRP_DIE_STAT k) = 0 then u else u.wr (R.DRP_DIE_STAT k) (before.rd (R.DRP_DIE_STAT k))) r
    let r := if r.ms.tblA && r.ms.tblB then r else (r.setBits R.MPD_TBL_STAT 0x80000000#32).raiseAll mpdPages 4
    if before.ms.evacuating.isEmpty then r else r.cutQuotas false before.liveFrames r.liveFrames
  else r

/-- SEM_CHAL is drawn afresh (R420). -/
def chalDraw (s : State) : State :=
  let r := s.drbgTake 48
  (List.range 12).foldl (fun u j => u.wr (R.SEM_CHAL j) (BitVec.ofNat 32 (leNat ((r.1.drop (4 * j)).take 4)))) r.2

/-- Everything but the always-on domain is lost (R468): the flash with its journal, the sealed store, SEM_TAMPER, the fuses and
the debug path stay. The queue of commands, what has been sent and the count of free values are the model's own. -/
def lose (s : State) : State :=
  let s := s.rungSettle
  let ms := s.memAfter
  let r : State := { State.reset with
    pending := s.pending, outbox := s.outbox, freeCtr := s.freeCtr, clk := s.clk
    regs := s.regs.filter (fun p => keptReg p.1)
    ms := ms
    mem := s.mem.filter (fun c => decide (c.1 < uniEnd) && (Map.get ms.tiles Tile.none (c.1 / tileBytes)).st == .flash)
    tenants := s.tenants, kf := s.kf
    sem := { Sem.reset with admins := s.sem.admins, kak := s.sem.kak, kakSig := s.sem.kakSig, journal := s.sem.journal, modelGen := s.sem.modelGen,
                            modelKey := s.sem.modelKey, journalKey := s.sem.journalKey,
                            svn := s.sem.svn, images := s.sem.images, running := s.fwBoot, kfId := s.sem.kfId, raises := s.sem.raises }
    pwr := { Pwr.reset with acc := s.pwr.acc, main := s.pwr.main, locked := s.pwr.locked, alertHeld := s.pwr.alertHeld
                            temps := s.pwr.temps, errs := s.pwr.errs }
    uart := s.uart, jtag := s.jtag, smb := { s.smb with pulses := [], last := 0 } }
  let r := r.wr R.SEM_STAT (s.rd R.SEM_STAT &&& 0x05000000#32)      -- OWNED and JTAG_OPEN
  let r := r.wr R.SEM_KF_STAT (s.rd R.SEM_KF_STAT &&& 0x300#32)      -- the slots filled
  let r := (journalRegs s r).spareStat
  let lost := (ms.tiles.filter (fun p => p.2.st == .lost)).length
  let r := if lost = 0 then r else (r.bump R.MPD_LOST_CNT lost).raiseAll mpdPages 3
  r.chalDraw

/-- A package reset (R466, R468): the power-up sequence begins at PG with its cause recorded; RUNG reads Idle and READY 0. -/
def packageReset (s : State) (cause : Nat) : State :=
  let r := s.lose
  let keep := r.rd R.PWR_STAT &&& (if r.pwr.alertHeld && cause != 1 then 0x00C00000#32 else 0x00400000#32)
  let r := ((r.wr R.PWR_STAT (keep ||| 0x20000000#32)).wr R.PWR_RESET_CAUSE (BitVec.ofNat 32 (2 ^ cause))).bump (R.PWR_RUNG_TIME 5)
  { r with pwr := { r.pwr with locked := r.pwr.locked && cause != 1, alertHeld := r.pwr.alertHeld && cause != 1 } }

/-- Entry to Sleep (R455, R460): everything outside the always-on domain is lost. -/
def sleepNow (s : State) : State := ((s.rungSet 4).lose).clrBits R.PWR_STAT 0x18000000#32

/-! ### Rungs (R455 to R459) -/

/-- RUNG_ERR (R456, R488). -/
def rungErr (s : State) : State := (s.setBits R.PWR_ERR 1).raise 0x05 7

/-- The compute state a Nap without NAP_SAVE loses (R459): slots FREE, stage counters 0, suspended tasks gone; SRAM contents go as
at power-on (log entry 8). -/
def napLose (s : State) : State :=
  { s with
    eng := [], strm := [], waiters := [], sigs := []
    regs := s.regs.filter (fun p => !(0x140 ≤ p.1 / 4096 && p.1 / 4096 ≤ 0x17F && 0x400 ≤ p.1 % 4096))
    mem := s.mem.filter (fun c => c.1 < sramBase || sramBase + 2 ^ 42 ≤ c.1) }

/-- Ports at entry to Nap: ACTIVE and LPI become PARKED with their equaliser settings stored; OFF at Sleep (R209, R211). -/
def parkPorts (s : State) : State :=
  (List.range 36).foldl (fun u p => if u.portState p = 5 ∨ u.portState p = 7 then
    ((u.linkReset p).portMod p (fun o => { o with stored := true })).portTo p 8 else u) s
/-- PARKED ports retrain when the package leaves Nap (R209). -/
def unparkPorts (s : State) : State :=
  (List.range 36).foldl (fun u p => if u.portState p = 8 then (u.lanesTrain p false).portTo p 6 else u) s

/-- The time unit holds over in Nap (R383, R455). -/
def timHold (s : State) : State :=
  if s.rdF R.TIM_STAT 31 28 = 1 ∨ s.rdF R.TIM_STAT 31 28 = 2 then
    { (s.wrF R.TIM_STAT 31 28 3).raise 0x06 1 with tim := { s.tim with holdAt := s.ft } }
  else s

/-- The package enters a rung below its own (R457, R459). -/
def rungDown (s : State) (r : Nat) : State :=
  let s : State := { s.clrBits R.PWR_STAT 0x10000000#32 with pwr := { s.pwr with want := none } }
  if r = 4 then s.sleepNow
  else if r = 3 then
    if s.rdB R.PWR_RUNG_CTL 1 then
      if s.framesUnres < 66224 then (s.setBits R.PWR_ERR 2).raise 0x05 7
      else
        let s := (s.parkPorts.timHold).rungSet 3
        { s with pwr := { s.pwr with napArea := true } }
    else (s.napLose.parkPorts.timHold).rungSet 3
  else s.rungSet r

/-- The package goes to a rung above its own (R456, R458, R460). From Sleep it takes the power-up sequence, unless an over-voltage
locks it there (R454) or no main input is present. -/
def rungRise (s : State) (r : Nat) : State :=
  let was := s.rung
  let s : State := { s.clrBits R.PWR_STAT 0x10000000#32 with pwr := { s.pwr with want := none } }
  if was = 4 then (if s.pwr.locked || !s.pwr.main then s else s.packageReset 3)
  else
    let s := s.rungSet r
    if was = 3 then { s.unparkPorts with pwr := { s.pwr with napArea := false } } else s

/-- A rung is requested (R456, R457): a higher one is taken, a lower one waits for its entry, the latest request wins. -/
def rungAsk (s : State) (r : Nat) : State :=
  let cur := s.rung
  if r < cur then s.rungRise r
  else if r = cur then { s.clrBits R.PWR_STAT 0x10000000#32 with pwr := { s.pwr with want := none } }
  else { s.setBits R.PWR_STAT 0x10000000#32 with pwr := { s.pwr with want := some r } }

/-- A request is good when it names a rung, and Sleep only with the auxiliary input present (R456). -/
def rungCode (s : State) (r : Nat) : Bool := r ≤ 3 || (r == 4 && s.rdB R.PWR_STAT 22)

/-- Is an operator dispatched and not complete? -/
def opsRunning (s : State) : Bool := s.ops.any (fun p => p.2.dispatched)
/-- Is one running on an engine, a vector unit or an MFU? -/
def unitsRunning (s : State) : Bool := s.ops.any (fun p => p.2.dispatched && CmdRecF.unit p.2.cmd ≤ 3)
/-- Is some ring's head record dispatchable (R112)? -/
def anyReady (s : State) : Bool :=
  ((s.ops.map (fun p => 16 * p.2.tenant + p.2.ring)).dedup).any (fun k => match s.ringHead (k / 16) (k % 16) with
    | some p => s.ready p.1 p.2
    | none => false)

/-- The conditions of entry to a rung (R457). -/
def rungMay (s : State) (r : Nat) : Bool :=
  if r = 1 then !s.unitsRunning
  else !s.opsRunning && !s.anyReady && !s.reqs.any (fun p => 1 ≤ p.2.st && p.2.st ≤ 3) && s.turn.isNone && !s.slots.any (fun p => p.2.run.isSome)

end State
end Sys2Proof.Machine
end

