-- ==== Sys2Proof/Machine/TimeUnit.lean ====
section
/-! DEFINITION. Chapter 13: fabric time, 1PPS and the time of day, the election, and the time triggers (R375 to R385, R395 to
R397). -/
namespace Sys2Proof.Machine
open Sys2Proof

/-! ### ZDA sentences (R378). Their layout is NMEA 0183's (log entry 35). -/

/-- The value of ASCII digits; none where a byte is none. -/
def decNat : List Byte → Option Nat
  | [] => some 0
  | bs => bs.foldl (fun a b => match a with
    | some n => if 0x30 ≤ b.toNat ∧ b.toNat ≤ 0x39 then some (10 * n + (b.toNat - 0x30)) else none
    | none => none) (some 0)
/-- The value of a hexadecimal digit. -/
def hexDigit (b : Byte) : Option Nat :=
  if 0x30 ≤ b.toNat ∧ b.toNat ≤ 0x39 then some (b.toNat - 0x30)
  else if 0x41 ≤ b.toNat ∧ b.toNat ≤ 0x46 then some (b.toNat - 0x37)
  else if 0x61 ≤ b.toNat ∧ b.toNat ≤ 0x66 then some (b.toNat - 0x57)
  else none
/-- Fields between commas. -/
def commaFields (bs : List Byte) : List (List Byte) :=
  bs.foldr (fun b acc => if b = 0x2C then [] :: acc else match acc with
    | f :: fs => (b :: f) :: fs
    | [] => [[b]]) [[]]
/-- Days of a Gregorian date since 2000-01-01. -/
def daysSince2000 (y m d : Nat) : Nat :=
  let leap (k : Nat) : Bool := k % 4 == 0 && (k % 100 != 0 || k % 400 == 0)
  let ys := ((List.range (y - 2000)).map (fun i => if leap (2000 + i) then 366 else 365)).sum
  let ms := (([31, if leap y then 29 else 28, 31, 30, 31, 30, 31, 31, 30, 31, 30, 31] : List Nat).take (m - 1)).sum
  ys + ms + (d - 1)

/-- What a sentence says: 0 ignored, 1 a bad or missing checksum, 2 a ZDA with its UTC second since 2000-01-01. -/
def zdaOf (bs : List Byte) : Nat × Nat :=
  match bs with
  | 0x24#8 :: rest =>
    let body := rest.takeWhile (· != 0x2A#8)
    let tail := rest.drop (body.length + 1)
    let cs : Option Nat := do
      let a ← hexDigit (← tail[0]?)
      let b ← hexDigit (← tail[1]?)
      some (16 * a + b)
    if cs ≠ some (body.foldl (fun x b => x ^^^ b) 0#8).toNat then (1, 0)
    else
      let fs := commaFields body
      if (fs.getD 0 []).drop 2 ≠ [0x5A#8, 0x44#8, 0x41#8] then (0, 0)
      else
        let t := (fs.getD 1 []).take 6
        let sec : Option Nat := do
          let h ← decNat (t.take 2)
          let mi ← decNat ((t.drop 2).take 2)
          let se ← decNat (t.drop 4)
          let d ← decNat (fs.getD 2 [])
          let mo ← decNat (fs.getD 3 [])
          let y ← decNat (fs.getD 4 [])
          if t.length = 6 ∧ h < 24 ∧ mi < 60 ∧ se < 61 ∧ 1 ≤ d ∧ d ≤ 31 ∧ 1 ≤ mo ∧ mo ≤ 12 ∧ 2000 ≤ y ∧ y < 2147 then
            some (daysSince2000 y mo d * 86400 + h * 3600 + mi * 60 + se) else none
        (match sec with | some n => (2, n) | none => (0, 0))
  | _ => (1, 0)

namespace State

/-- A bit of TIM_ERR with the interrupt of its event. -/
def timErr (s : State) (errBit intBit : Nat) : State := (s.setBits R.TIM_ERR (BitVec.ofNat 32 (2 ^ errBit))).raise 0x06 intBit
/-- STATE of the time unit (R380, R396): 0 FREE, 1 LOCKED, 2 FOLLOW, 3 HOLDOVER, 4 FREERUN. -/
def timSt (s : State) : Nat := s.rdF R.TIM_STAT 31 28
/-- PPS_LOCK. -/
def ppsLocked (s : State) : Bool := s.rdB R.TIM_STAT 26
/-- This package's member number (R250). -/
def member (s : State) : Nat := s.srcField

/-! ### Slewing (R376) and the idle tick -/

/-- One tick of fabric time (log entry 2): an offset is slewed away at one unit in 100,000; in Sleep time does not run (R455). -/
def tick (s : State) : State :=
  if s.rung = 4 then s
  else
    let t := s.tim
    if t.slew = 0 then { s with ft := s.ft + BitVec.ofNat 64 Config.idleTick, tim := { t with tick := 0 } }
    else if t.tick + 1 < 100000 then { s with ft := s.ft + BitVec.ofNat 64 Config.idleTick, tim := { t with tick := t.tick + 1 } }
    else if 0 < t.slew then { s with ft := s.ft + BitVec.ofNat 64 (2 * Config.idleTick), tim := { t with tick := 0, slew := t.slew - 1 } }
    else { s with tim := { t with tick := 0, slew := t.slew + 1 } }

/-- An offset is removed (R376, R379, R380): in one step before the package has ever been LOCKED or FOLLOW, else by slewing. It is
reported in TIM_OFFSET, saturated to 32 bits (log entry 35). -/
def timAdjust (s : State) (off : Int) : State :=
  let sat : Int := max (-(2 ^ 31)) (min (2 ^ 31 - 1) off)
  let s := s.wr R.TIM_OFFSET (BitVec.ofInt 32 sat)
  if s.tim.ever then { s with tim := { s.tim with slew := off } }
  else
    let shift (w : Word64) : Word64 := w + BitVec.ofInt 64 off
    { s with ft := shift s.ft, tim := { s.tim with ever := true, pulse := s.tim.pulse.map shift, slew := 0 } }

/-! ### Election (R380, R381) -/

/-- Grade this package has of itself (R381); in FREERUN it is 3 (R380). -/
def ownGrade (s : State) : Nat := if s.ppsLocked then 0 else if s.tim.graded && s.timSt != 4 then 2 else 3
/-- The key masters are compared by: grade, PRIO, member. -/
def masterKey (grade prio member : Nat) : Nat := (grade * 256 + prio) * 32768 + member
/-- The masters neighbours name, by port, this package's own name left out. -/
def heardMasters (s : State) : List (Nat × Heard) := s.tim.heard.filter (fun p => s.portLive p.1 && p.2.master != s.member)
/-- The port the best heard master is reached through: fewest hops, then lowest port (R381). -/
def bestHeard (s : State) : Option (Nat × Heard) :=
  (s.heardMasters).foldl (fun b p => match b with
    | none => some p
    | some q =>
      let kp := masterKey p.2.grade p.2.prio p.2.master
      let kq := masterKey q.2.grade q.2.prio q.2.master
      if kp < kq ∨ (kp = kq ∧ p.2.hops < q.2.hops) then some p else b) none

/-- The package enters a state of the time unit, with its interrupts (R380, R397). -/
def timTo (s : State) (st : Nat) : State :=
  let was := s.timSt
  let s := s.wrF R.TIM_STAT 31 28 st
  if st = was then s
  else if st = 1 then s.raise 0x06 0
  else if st = 3 then { s.raise 0x06 1 with tim := { s.tim with holdAt := s.ft } }
  else s

/-- Who is master, and who the parent (TIM_MASTER, MASTER, GRADE); a change is reported (R395 to R397). -/
def setMaster (s : State) (own : Bool) (grade member hops port : Nat) : State :=
  let v : Word32 := BitVec.ofNat 32 (member % 32768 + hops % 256 * 2 ^ 16 + port * 2 ^ 24)
  let changed := fld (s.rd R.TIM_MASTER) 14 0 != member % 32768 || s.rdB R.TIM_STAT 27 != own
  let s := ((s.wr R.TIM_MASTER v).wrF R.TIM_STAT 27 27 (if own then 1 else 0)).wrF R.TIM_STAT 1 0 grade
  let s : State := if grade ≤ 1 then { s with tim := { s.tim with graded := true } } else s
  if changed then s.raise 0x06 2 else s

/-- ⌈2.5 × hops⌉ ns (R383). -/
def hopNs (h : Nat) : Nat := (5 * h + 1) / 2

/-- TIM_ERR_NS now (R383): in HOLDOVER and FREERUN it grows by 1 µs an hour, 100 µs on the system reference, rounded up. -/
def timErrNs (s : State) : Nat :=
  let e := (s.rd R.TIM_ERR_NS).toNat
  if s.timSt = 3 ∨ s.timSt = 4 then
    let d := s.ft.toNat - s.tim.holdAt.toNat
    min (e + (d * (if s.rdB R.TIM_STAT 25 then 100 else 1) + 14399999999) / 14400000000) 0xFFFFFFFF
  else e

/-- The election (R380, R381). LOCKED is left only by losing the 1PPS lock; a package with PRIO 255 never becomes master. -/
def elect (s : State) : State :=
  let prio := s.rdF R.TIM_CTL 15 8
  let own := masterKey s.ownGrade prio s.member
  let mine := prio != 255 && (match s.bestHeard with | none => true | some p => decide (own < masterKey p.2.grade p.2.prio p.2.master))
  if mine then
    let s := s.setMaster true s.ownGrade s.member 0 0xFF
    if s.ppsLocked then ((s.timTo 1).wr R.TIM_ERR_NS (s.free.setWidth 32)).used
    else if s.timSt = 1 ∨ s.timSt = 2 then s.timTo 3 else s
  else match s.bestHeard with
    | some p =>
      let s := s.setMaster false p.2.grade p.2.master (p.2.hops + 1) p.1
      if s.timSt = 1 ∧ s.ppsLocked = true then s
      else
        let e := p.2.errNs.toNat + (hopNs (p.2.hops + 1) - hopNs p.2.hops)
        (s.timTo 2).wr R.TIM_ERR_NS (BitVec.ofNat 32 (min e 0xFFFFFFFF))
    | none =>
      let s := s.setMaster false 3 0 0 0xFF
      if s.timSt = 1 ∨ s.timSt = 2 then s.timTo 3 else s

/-! ### 1PPS and ZDA (R378, R379) -/

/-- Lock is reached: FT takes the labelled second of the last pulse, and the election runs. -/
def ppsLock (s : State) : State :=
  match s.tim.pulse, s.tim.second with
  | some p, some n =>
    let due := (n + s.rdF R.TIM_LEAP 7 0) * 4000000000
    let s := (s.wrF R.TIM_STAT 26 26 1).timAdjust ((due : Int) - p.toNat)
    ({ s with tim := { s.tim with misses := 0, counted := false } } : State).elect
  | _, _ => s

/-- A pulse of the run has its label: one more than the last keeps the run, four make the lock. -/
def ppsLabel (s : State) (n : Nat) : State :=
  let r := if s.tim.run = 0 ∨ s.tim.second = some (n - 1) ∧ 1 ≤ n then s.tim.run + 1 else 1
  let s : State := { s with tim := { s.tim with run := r, second := some n, labelled := true, next := none } }
  if 4 ≤ r then s.ppsLock else s

/-- A miss (R379): counted; three in a row lose the lock, and the election runs. -/
def ppsMiss (s : State) : State :=
  let s := s.bump R.TIM_PPS_MISS_CNT
  if s.ppsLocked then
    let s : State := { s with tim := { s.tim with misses := s.tim.misses + 1 } }
    if 3 ≤ s.tim.misses then
      let s : State := { s.wrF R.TIM_STAT 26 26 0 with
        tim := { s.tim with misses := 0, run := 0, pulse := none, second := none, next := none, labelled := false } }
      s.elect
    else s
  else { s with tim := { s.tim with run := 0, pulse := none, second := none, labelled := false } }

/-- Is the pulse of this instant good (R378)? -/
def ppsGood (s : State) (p : Word64) : Bool :=
  let w := s.rdF R.TIM_PPS_WIN 15 0 * 4
  decide (p.toNat + 4000000000 ≤ s.ft.toNat + w) && decide (s.ft.toNat ≤ p.toNat + 4000000000 + w)

/-- A pulse at the active edge. -/
def ppsPulse (s : State) : State :=
  match s.tim.pulse with
  | none =>
    let s : State := { s with tim := { s.tim with pulse := some s.ft, run := 0, labelled := false, counted := false } }
    (match s.tim.next with
     | some n => s.ppsLabel n
     | none => s)
  | some p =>
    if s.ppsGood p then
      let s := s.bump R.TIM_PPS_CNT
      if s.ppsLocked then
        let n := s.tim.second.map (· + 1)
        let due := ((n.getD 0) + s.rdF R.TIM_LEAP 7 0) * 4000000000
        let s : State := { s with tim := { s.tim with pulse := some s.ft, misses := 0, counted := false, second := n, labelled := true } }
        s.timAdjust ((due : Int) - s.ft.toNat)
      else
        let s : State := { s with tim := { s.tim with pulse := some s.ft, run := if s.tim.labelled then s.tim.run else 0, labelled := false } }
        (match s.tim.next with
         | some n => s.ppsLabel n
         | none => s)
    else if s.ppsLocked then
      (if s.tim.counted then s else ({ s with tim := { s.tim with counted := true } } : State).ppsMiss)
    else s.ppsMiss

end State

/-- PPS_PULSE (R378, R379): an edge of the 1PPS input. -/
def execPpsPulse (rising : Bool) (s : State) : Out := keepQueue s <|
  if s.rdB R.TIM_CTL 0 = true ∧ rising ≠ s.rdB R.TIM_CTL 1 then .next s.ppsPulse else .next s

/-- PPS_WINDOW_EXPIRY (R379): the window of the expected pulse has passed without one. -/
def execPpsWindowExpiry (s : State) : Out := keepQueue s <|
  match s.tim.pulse with
  | none => .next s
  | some p =>
    if s.rdB R.TIM_CTL 0 = true ∧ p.toNat + 4000000000 + s.rdF R.TIM_PPS_WIN 15 0 * 4 < s.ft.toNat then
      let c := s.tim.counted
      let s : State := if s.ppsLocked then { s with tim := { s.tim with pulse := some (p + 4000000000), second := s.tim.second.map (· + 1), counted := false } } else s
      .next (if c && s.ppsLocked then s else s.ppsMiss)
    else .next s

/-- ZDA_SENTENCE (R378, R379): a sentence of the time-of-day input labels a pulse, or checks the count. -/
def execZdaSentence (b : List Byte) (s : State) : Out := keepQueue s <|
  if s.rdB R.TIM_CTL 0 = false then .next s
  else match zdaOf b with
    | (1, _) => .next (s.bump R.TIM_ZDA_ERR_CNT)
    | (2, n) =>
      let next := s.rdB R.TIM_CTL 16
      if s.ppsLocked then
        (if s.tim.second.map (fun k => if next then k + 1 else k) = some n then .next s else .next (s.timErr 1 4))
      else if next then .next { s with tim := { s.tim with next := some n } }
      else if s.tim.pulse.isSome && !s.tim.labelled then .next (s.ppsLabel n)
      else .next s
    | _ => .next s

/-- TIME_SYNC_TIMER (R381, R382): TIME_SYNC goes out on every live port, naming the best master known. -/
def execTimeSyncTimer (s : State) : Out := keepQueue s <|
  let m := s.rd R.TIM_MASTER
  let none_ : Bool := fld m 31 24 == 0xFF && !s.rdB R.TIM_STAT 27
  let prio := match Map.get? s.tim.heard (fld m 31 24) with
    | some x => x.prio
    | none => s.rdF R.TIM_CTL 15 8
  if none_ || s.rung == 4 || s.rung == 3 then .next s
  else .next (((List.range 36).filter s.portLive).foldl (fun u p =>
    let nb := u.rd (preg p 0x11C)
    let seq := Map.get u.tim.seqs 0 p
    let body := leBytes 4 seq ++ leBytes 1 (u.rdF R.TIM_STAT 1 0) ++ leBytes 1 prio ++ leBytes 2 (fld m 14 0) ++ leBytes 8 0 ++
      leBytes 1 (fld m 23 16) ++ leBytes 3 0 ++ leBytes 4 u.timErrNs ++ leBytes 32 0
    let msg : Msg := ⟨fld nb 11 0 + 4096 * fld nb 22 20, u.srcField, 0, 0x30, 0, 0x7F, body, false, []⟩
    let u := u.portMod p (fun o => { o with txQ := o.txQ ++ [⟨msg.dest, 0x30, 0, 0x7F, u.msgBytes p msg, false, false, (u.msgBytes p msg).take 0x18, none⟩] })
    { u with tim := { u.tim with seqs := Map.set u.tim.seqs p ((seq + 1) % 2 ^ 32) } }) s)

/-- TIME_SYNC (R380 to R382): a neighbour names its master; from the parent it gives the offset. -/
def execTimeSync (p : Nat) (m : SyncMsg) (s : State) : Out := keepQueue s <|
  if s.portLive p = true ∧ p < 36 then
    let g := if isHall p then m.grade else max m.grade 1
    let s : State := { s with tim := { s.tim with heard := Map.set s.tim.heard p ⟨g, m.prio, m.master, m.hops, m.errNs, s.ft⟩ } }
    let s := s.elect
    if s.timSt = 2 ∧ s.rdF R.TIM_MASTER 31 24 = p then
      let d : Int := 2 * (s.rdF (preg p 0x128) 23 0 : Int) + (if isHall p then 0 else (s.rd (R.TIM_XPT_ASYM (p - 32))).toInt)
      .next (s.timAdjust ((m.txFt.toNat : Int) + d - s.ft.toNat))
    else .next s
  else .next s

/-- SYNC_LOSS_TIMEOUT (R380): four intervals without a TIME_SYNC from the parent: HOLDOVER, and the election runs without it. -/
def execSyncLossTimeout (s : State) : Out := keepQueue s <|
  let p := s.rdF R.TIM_MASTER 31 24
  match Map.get? s.tim.heard p with
  | none => .next s
  | some h =>
    if s.timSt = 2 ∧ h.at_.toNat + 16000000 ≤ s.ft.toNat then
      let s := s.timTo 3
      .next ({ s with tim := { s.tim with heard := Map.erase s.tim.heard p } } : State).elect
    else .next s

/-- HOLDOVER_EXPIRY (R380): 72 hours in HOLDOVER; grade 3 is announced from then on. -/
def execHoldoverExpiry (s : State) : Out := keepQueue s <|
  if s.timSt = 3 ∧ s.tim.holdAt.toNat + 1036800000000000 ≤ s.ft.toNat then .next ((s.timTo 4).wrF R.TIM_STAT 1 0 3) else .next s

/-! ### Triggers (R384, R385, R396) -/

namespace State

/-- Is a trigger of an action due? -/
def trigDue (s : State) (n action : Nat) : Bool :=
  let t := s.trigger n
  t.valid && t.action == action && decide (t.ft ≤ s.ft)

/-- A RUNG trigger acts (R384, R456). -/
def trigRung (s : State) (n : Nat) : State :=
  let g := (s.trigger n).target
  let s := s.fireTrigger n
  if g < 8 && s.rungCode g then s.rungAsk g else s.rungErr

/-- A GPIO trigger acts (R384, R511): its pin is inverted for 1 µs; a pin that is an input is driven by nothing. -/
def trigGpio (s : State) (n : Nat) : State :=
  let g := (s.trigger n).target % 16
  let s := s.fireTrigger n
  if s.rdB R.SMB_GPIO_DIR g then
    { s.emit (.gpio g (!s.rdB R.SMB_GPIO_OUT g)) with smb := { s.smb with pulses := Map.set s.smb.pulses g (s.ft + 4000) } }
  else (s.setBits R.SMB_ERR 1).raise 0x09 1

/-- An IRQ trigger acts (R384, R397). -/
def trigIrq (s : State) (n : Nat) : State := (s.fireTrigger n).raise 0x06 3

/-- A due trigger acts, whatever its action (R376, R384). -/
def trigAct (s : State) (n : Nat) : State :=
  match (s.trigger n).action with
  | 0 => s.fireTrigger n
  | 1 => (match execTriggerTurnover s with | .next u => u | _ => s)
  | 2 => s.trigRung n
  | 3 => s.trigGpio n
  | 4 => s.trigIrq n
  | _ => s

/-- Insert by key. -/
def insertBy (k : Nat) (n : Nat) : List (Nat × Nat) → List (Nat × Nat)
  | [] => [(k, n)]
  | p :: ps => if k < p.1 then (k, n) :: p :: ps else p :: insertBy k n ps

/-- Triggers whose time has come, in ascending FT and then ascending number. -/
def trigsDue (s : State) : List Nat :=
  ((s.trigs.filter (fun p => p.2.valid && decide (p.2.ft ≤ s.ft))).foldl (fun l p => insertBy (p.2.ft.toNat) p.1 l) []).map (·.2)

end State

/-- STEP (R376, R395): TIM_STEP is added to FT, and triggers skipped fire at once. -/
def execStep (s : State) : Out := keepQueue s <|
  let d := (BitVec.ofNat 64 (s.rd64 R.TIM_STEP_LO)).toInt
  if d ≤ 0 then .next ((s.ignoredWrite R.TIM_CMD).timErr 0 5)
  else
    let s := s.countWrite 6 false
    let s : State := { s with ft := s.ft + BitVec.ofInt 64 d }
    .next (s.trigsDue.foldl State.trigAct s)

/-- REELECT (R395). -/
def execReelect (s : State) : Out := keepQueue s <| .next ((s.countWrite 6 false).elect)

/-- TRIG_CTL_WRITE (R384, R385, R396). A write that would release a trigger and arm it is refused (log entry 35: R385 arms reserved
triggers only). -/
def execTrigCtlWrite (v : Word32) (s : State) : Out := keepQueue s <|
  let n := s.rdF R.TIM_TRIG_SEL 7 0
  let t := s.trigger n
  let vV := bit v 31
  let vS := bit v 30
  let act := fld v 27 24
  let tgt := fld v 23 0
  let bad : State := (s.ignoredWrite R.TIM_TRIG_CTL).timErr 0 5
  let ok := s.countWrite 6 (fld v 29 28 != 0)
  if 4 < act then .next bad
  else if t.valid && !t.sw then .next bad
  else if t.valid then
    if !vV then .next (ok.triggerSet n { t with valid := false, sw := vS, action := act, target := tgt })
    else if vS ≠ t.sw ∨ act ≠ t.action ∨ tgt ≠ t.target then .next bad
    else .next ok
  else if vV && (!vS || act < 2) then .next bad
  else if !t.sw && !vS then .next (s.countWrite 6 (v != 0))
  else .next (ok.triggerSet n { t with valid := vV, sw := vS, action := act, target := tgt })

/-- TRIG_FT_LO_WRITE (R384, R395): the low half is held. -/
def execTrigFtLoWrite (v : Word32) (s : State) : Out := keepQueue s <|
  .next { s.countWrite 6 false with held := Map.set s.held R.TIM_TRIG_FT_LO v }

/-- TRIG_FT_HI_WRITE (R384, R395): both halves are committed, unless the trigger is armed. -/
def execTrigFtHiWrite (v : Word32) (s : State) : Out := keepQueue s <|
  let n := s.rdF R.TIM_TRIG_SEL 7 0
  let t := s.trigger n
  let lo := Map.get s.held (t.ft.setWidth 32) R.TIM_TRIG_FT_LO
  let u : State := { s with held := Map.erase s.held R.TIM_TRIG_FT_LO }
  if t.valid then .next ((u.ignoredWrite R.TIM_TRIG_FT_HI).timErr 0 5)
  else .next ((u.countWrite 6 false).triggerSet n { t with ft := BitVec.ofNat 64 (lo.toNat + v.toNat * 2 ^ 32) })

/-- TRIGGER_RUNG (R384, R456). -/
def execTriggerRung (n : Nat) (s : State) : Out := keepQueue s <| if s.trigDue n 2 then .next (s.trigRung n) else .next s

/-- TRIGGER_GPIO (R384, R511). -/
def execTriggerGpio (n : Nat) (s : State) : Out := keepQueue s <| if s.trigDue n 3 then .next (s.trigGpio n) else .next s

/-- TRIGGER_IRQ (R384). -/
def execTriggerIrq (n : Nat) (s : State) : Out := keepQueue s <| if s.trigDue n 4 then .next (s.trigIrq n) else .next s

end Sys2Proof.Machine
end

