-- ==== Sys2Proof/Machine/Admission.lean ====
section
/-! DEFINITION. Chapter 13: the admission unit (R387 to R394, R398). Times are compared exactly, in ns × 2^23 (RHO's scale). -/
namespace Sys2Proof.Machine
open Sys2Proof

/-- An admission record (R387). -/
structure AdmRec where
  ver : Nat
  kind : Nat
  flags : Nat
  mdl : Nat
  reqId : Nat
  user : Word32
  ttft : Nat
  tbt : Nat
  npos : Nat
  slots : Nat
  units : Nat
  k : Nat
  prompt : Nat
  maxLen : Nat
  beta : Word32
  pt : Word64
  cs : Word64
  zeros : Bool             -- every field that must be 0 is
deriving DecidableEq, Repr

/-- Read an admission record. -/
def admRecOf (b : List Byte) : AdmRec :=
  let n (i k : Nat) : Nat := leNat ((b.drop i).take k)
  ⟨n 0 2, n 2 1, n 3 1, n 4 1, n 6 2, BitVec.ofNat 32 (n 8 4), n 0xC 4, n 0x10 4, n 0x14 1, n 0x15 1, n 0x16 1, n 0x18 2, n 0x1C 4, n 0x20 4,
   BitVec.ofNat 32 (n 0x24 4), BitVec.ofNat 64 (n 0x28 8), BitVec.ofNat 64 (n 0x30 8),
   n 5 1 == 0 && n 0x17 1 == 0 && n 0x1A 2 == 0 && n 0x38 8 == 0 && (b.drop 0x54).all (· == 0) && n 3 1 / 64 % 2 == 0⟩

/-- The fields a NEW or RESUME must have in range (R387, R392). -/
def admRangeOk (r : AdmRec) : Bool :=
  r.ver == 1 && r.zeros && r.kind ≤ 1 && r.mdl ≤ 15 && (r.kind == 1 || r.reqId == 0) && 1 ≤ r.npos && r.npos ≤ 16 && 1 ≤ r.slots && r.slots ≤ 8 &&
  1 ≤ r.units && r.units ≤ 4 && 1 ≤ r.k && r.k ≤ 1024 && 1 ≤ r.maxLen && r.maxLen ≤ 4194304 &&
  !bit r.beta 31 && r.beta != 0 && decide (fld r.beta 30 23 < 255)

/-- A decision (R387, R392): RESULT, REASON, REQ_ID_OUT, RETRY_US and the model it was taken for. -/
structure Decision where
  result : Nat
  reason : Nat
  id : Nat
  retry : Nat
  mdl : Nat
deriving DecidableEq, Repr

namespace State

/-- Requests of a model that count in its cycle work: ADMITTED, STEP and REPLY (R388). -/
def mdlActive (s : State) (k : Nat) : List Req := ((s.reqs.map (·.2)).filter (fun q => q.mdl == k && 1 ≤ q.st && q.st ≤ 3))
/-- term of a request (R388). -/
def termOf (m : Mdl) (q : Req) : Nat := costTerm m q.nposMax q.maxLen
/-- The cycle work W of a model, ns × 2^23 (R388). -/
def cycleWork (s : State) (k : Nat) : Nat :=
  let m := s.mdl k
  rhoQ m * ((fld m.ctl 5 0 + 1) * m.base.toNat + ((s.mdlActive k).map (termOf m)).sum)
/-- prefill of a prompt (R388). -/
def prefillOf (m : Mdl) (prompt : Nat) : Nat := rhoQ m * (cdiv prompt 1024 * m.prefill.toNat)
/-- pf: prefill over requests in ADMITTED (R388). -/
def prefillWork (s : State) (k : Nat) : Nat :=
  (((s.mdlActive k).filter (fun q => q.st == 1)).map (fun q => prefillOf (s.mdl k) q.prompt)).sum
/-- W in µs, whole (R387 W_US, R398 ADM_W_NOW). -/
def workUs (s : State) (k : Nat) : Nat := s.cycleWork k / (1000 * 2 ^ 23)
/-- Frames a tenant's requests reserve: all but those parked (R389). -/
def kvUsed (s : State) (t : Nat) : Nat := ((s.reqs.filter (fun p => p.2.tenant == t && p.2.st != 4)).map (fun p => p.2.kvFrames)).sum
/-- µs in ns × 2^23. -/
def usQ (n : Nat) : Nat := n * (1000 * 2 ^ 23)

/-- The lowest free request-table entry (R297; log entry 39). -/
def freeReq (s : State) : Option Nat :=
  let n := s.reqs.foldl (fun a p => if p.1 = a then a + 1 else a) 0
  if n < 65536 then some n else none

/-- Bytes that a resumed request's spilled pages, and the flash prefetches already queued, take to read (R389). -/
def flashBytes (s : State) (q : Req) (m : GenModel) : Nat :=
  let spilled := ((((blocksOf 0 q.len).flatMap (s.blockTiles q.pt.toNat m.lay)).dedup).filter (fun n => (s.tile n).st == .flash)).length
  let queued := (s.ms.asks.filter (fun a => (s.tile a.tile).st == .flash && a.dest != .flash && a.dest != .discard)).length +
    (s.ms.moves.filter (fun p => p.2.srcFlash && !p.2.dstFlash)).length
  (spilled + queued) * 65536

/-- What the last second freed of a resource (R393): cycle work of a model, a tenant's frames, entries. -/
def freedSince (s : State) (f : Freed → Nat) : Nat :=
  ((s.freed.filter (fun x => s.ft.toNat ≤ x.at_.toNat + 4000000000)).map f).sum
/-- RETRY_US of a deficit at a rate per second, within the model's bounds (R393). -/
def retryUs (m : Mdl) (deficit rate : Nat) : Nat :=
  let lo := fld m.retry 15 0 * 1000
  let hi := fld m.retry 31 16 * 1000
  if rate = 0 then hi else min hi (max lo (deficit * 1000000 / rate))

/-- The tests of R389, in their order, for a NEW or RESUME of tenant `t`: the reason and RETRY_US; reason 0 where all hold. -/
def admTest (s : State) (t : Nat) (r : AdmRec) (frames pre : Nat) (needEntry : Bool) : Nat × Nat :=
  let m := s.mdl r.mdl
  let act := s.mdlActive r.mdl
  let w := s.cycleWork r.mdl + rhoQ m * costTerm m r.npos r.maxLen
  let hg := usQ (fld m.hold 23 0 + fld m.margin 15 0)
  let tbt := usQ ((act.map (fun q => q.tbtUs.toNat)).foldl min r.tbt)
  let share := rhoQ m * (((act.filter (fun q => q.tenant == t)).map (termOf m)).sum + costTerm m r.npos r.maxLen)
  let workRate := s.freedSince (fun x => if x.mdl = r.mdl then x.work else 0)
  let need2 := s.prefillWork r.mdl + pre + w + hg
  let cap := s.rdF (R.ADM_CAP t) 7 0
  let free := s.rdF (R.ADM_KV_BUDGET t) 24 0 - s.kvUsed t
  if tbt < w + hg then (1, retryUs m (w + hg - tbt) workRate)
  else if usQ r.ttft < need2 then (2, retryUs m (need2 - usQ r.ttft) workRate)
  else if cap * tbt < 100 * share then (3, retryUs m ((100 * share - cap * tbt) / 100) workRate)
  else if free < frames then (4, retryUs m (frames - free) (s.freedSince (fun x => if x.tenant = t then x.frames else 0)))
  else if needEntry && s.freeReq.isNone then (5, retryUs m 1 (s.freedSince (fun x => x.entries)))
  else (0, 0)

/-- The entry an accepted record gives (R297, R389). -/
def admEntry (s : State) (t frames : Nat) (r : AdmRec) (addr : Word64) : Req :=
  { st := 1, tenant := t, evq := r.flags % 16, evtPrio := r.flags / 16 % 4, len := 0, step := 0, pend := 0, model := addr, pt := r.pt, cs := r.cs
    csCtl := BitVec.ofNat 32 (r.flags / 128 % 2 * 2 ^ 31 + r.slots * 2 ^ 24 + r.units * 2 ^ 16 + r.k), beta := r.beta
    ttftUs := BitVec.ofNat 32 r.ttft, tbtUs := BitVec.ofNat 32 r.tbt, admitFt := s.ft, lastFt := 0, deadline := 0, ttftAct := 0, tbtMax := 0
    hostLate := 0, version := 0, tokens := 0, parkFt := 0, faults := 0, mdl := r.mdl, nposMax := r.npos, maxLen := r.maxLen
    prompt := r.prompt, kvFrames := frames, resumed := false }

/-- Decide a record (R389, R392). A field out of range comes first, then the model, then the state of the entry, then the tests
(log entry 39). -/
def admDecide (s : State) (t : Nat) (r : AdmRec) : Decision × State :=
  let refuse (reason id retry : Nat) : Decision × State := (⟨2, reason, id, retry, r.mdl⟩, s)
  if r.kind = 2 then
    if r.ver ≠ 1 ∨ r.flags / 64 % 2 = 1 then refuse 7 r.reqId 0
    else match s.req? r.reqId with
      | some q =>
        if q.tenant = t ∧ (q.st = 5 ∨ q.st = 6) then
          (⟨3, 0, r.reqId, 0, q.mdl⟩, { s.noteFreed q false true true with reqs := Map.erase s.reqs r.reqId })
        else refuse 8 r.reqId 0
      | none => refuse 8 r.reqId 0
  else if !admRangeOk r then refuse 7 r.reqId 0
  else
    let m := s.mdl r.mdl
    match (if bit m.ctl 31 then s.genModel modelOwner m.addr.toNat else .error (.of 0 0)) with
    | .error _ => refuse 6 r.reqId 0
    | .ok g =>
      let frames := cdiv r.maxLen 128 * g.lay.nlayer * g.lay.s
      if r.kind = 0 then
        match s.admTest t r frames (prefillOf m r.prompt) true, s.freeReq with
        | (0, _), some n => (⟨1, 0, n, 0, r.mdl⟩, s.reqSet n (s.admEntry t frames r m.addr))
        | (e, x), _ => refuse e 0 x
      else
        match s.req? r.reqId with
        | some q =>
          if q.tenant = t ∧ q.st = 4 then
            match s.admTest t r frames (cdiv (s.flashBytes q g * 2 ^ 23) 48) false with
            | (0, _) =>
              let e := s.admEntry t frames r m.addr
              let e : Req := { e with len := q.len, step := q.step, lastFt := q.lastFt, ttftAct := q.ttftAct, tbtMax := q.tbtMax,
                                      hostLate := q.hostLate, version := q.version, tokens := q.tokens, faults := q.faults, prompt := 0, resumed := true }
              (⟨1, 0, r.reqId, 0, r.mdl⟩, (s.reqSet r.reqId e).pinBlocks e.pt.toNat g.lay (blocksOf 0 e.len))
            | (x, y) => refuse x r.reqId y
          else refuse 8 r.reqId 0
        | none => refuse 8 r.reqId 0

/-- Put a decision into effect (R387, R392): the result fields of the record, the ADMIT item, then DONE. -/
def admFinish (s : State) (t : Nat) (r : AdmRec) (at_ : Nat) (d : Decision) : State :=
  let out := leBytes 1 d.result ++ leBytes 1 d.reason ++ leBytes 2 d.id ++ leBytes 4 d.retry ++ leBytes 8 (if d.result = 1 then s.ft.toNat else 0) ++
    leBytes 4 (s.workUs d.mdl)
  let s := if s.rdB (R.ADM_RING_CTL t) 30 then s.emit (.hostWrite (at_ + 0x40) out false) else (s.writeRange t none (at_ + 0x40) out).1
  let u : Unit0 := { devUnit0 0x11 0 (r.flags / 16 % 4) t 0 s.ft 0 (BitVec.ofNat 32 d.id) 0xFFFFFFFF
      (BitVec.ofNat 64 (d.result + 256 * d.reason + 2 ^ 32 * d.retry)) with user := r.user }
  let s := s.storeItem t (r.flags % 16) (r.flags / 16 % 4) u.bytes
  let s := s.wr (R.ADM_RING_DONE t) (s.rd (R.ADM_RING_DONE t) + 1)
  if d.result = 1 then s.bump (R.ADM_ACCEPT_CNT t)
  else if d.result = 2 then (s.bump (R.ADM_REFUSE_CNT t)).raise (0x90 + t) 0
  else s

/-- Address of the record the admission ring decides next (R387). -/
def admAt (s : State) (t : Nat) : Nat :=
  s.rd64 (R.ADM_RING_BASE_LO t) / 4096 * 4096 + (s.rd (R.ADM_RING_DONE t)).toNat % 2 ^ s.rdF (R.ADM_RING_CTL t) 19 16 * 128

/-- The record at the head of the admission ring: the host's bytes, or the tenant's memory; none where there is none to decide or
its fetch fails. -/
def admRecord (s : State) (t : Nat) (bytes : List Byte) (ok : Bool) : Option (List Byte) :=
  if t < 64 ∧ s.rdB (R.ADM_RING_CTL t) 31 = true ∧ s.rd (R.ADM_RING_DONE t) ≠ s.rd (R.ADM_RING_PROD t) then
    if s.rdB (R.ADM_RING_CTL t) 30 then (if ok && s.hostReach then some bytes else none)
    else match s.readRange t (s.admAt t) 128 with
      | .ok b => some b
      | .error _ => none
  else none

/-- Decide the head record where it is of one of the kinds given. -/
def admRun (s : State) (t : Nat) (bytes : List Byte) (ok : Bool) (kinds : Nat → Bool) : State :=
  match s.admRecord t bytes ok with
  | none => if t < 64 ∧ s.rdB (R.ADM_RING_CTL t) 31 = true ∧ s.rdB (R.ADM_RING_CTL t) 30 = true ∧
               s.rd (R.ADM_RING_DONE t) ≠ s.rd (R.ADM_RING_PROD t) then s.dmaErr else s
  | some b =>
    let r := admRecOf b
    if kinds r.kind then
      let d := s.admDecide t r
      d.2.admFinish t r (s.admAt t) d.1
    else s

/-- The 128 bytes of a request-table entry (R297). -/
def reqBytes (q : Req) : List Byte :=
  leBytes 4 (q.st * 2 ^ 28 + q.tenant * 2 ^ 22 + q.evq * 2 ^ 18 + q.evtPrio * 2 ^ 16) ++ leBytes 4 q.len ++ leBytes 4 q.step ++ leBytes 4 q.pend ++
  leBytes 8 q.model.toNat ++ leBytes 8 q.pt.toNat ++ leBytes 8 q.cs.toNat ++ leBytes 4 q.csCtl.toNat ++ leBytes 4 q.beta.toNat ++
  leBytes 4 q.ttftUs.toNat ++ leBytes 4 q.tbtUs.toNat ++ leBytes 8 q.admitFt.toNat ++ leBytes 8 q.lastFt.toNat ++ leBytes 8 q.deadline.toNat ++
  leBytes 4 q.ttftAct.toNat ++ leBytes 4 q.tbtMax.toNat ++ leBytes 4 q.hostLate.toNat ++ leBytes 4 q.version.toNat ++
  leBytes 8 q.tokens.toNat ++ leBytes 8 q.parkFt.toNat ++ leBytes 4 q.faults.toNat ++ leBytes 12 0

/-- FP32 code of a ratio of naturals, rounded up (R388; log entry 39): never below 1.0. -/
def ratioUp (a b : Nat) : Word32 :=
  if a ≤ b ∨ b = 0 then 0x3F800000
  else
    let e := (a / b).log2
    let m := cdiv (a * 2 ^ 23) (b * 2 ^ e)
    if m = 2 ^ 24 then BitVec.ofNat 32 ((e + 128) * 2 ^ 23) else BitVec.ofNat 32 ((e + 127) * 2 ^ 23 + (m - 2 ^ 23))

/-- After a step of requests of one model that took `colt` ns of Colt time (R388, R391): a step past ρ times its modelled cost is
counted as missed while no more than NREC steps are in flight, and RHO rises to the largest ratio observed. -/
def stepMeasured (s : State) (rs : List Req) (colt : Nat) : State :=
  match rs with
  | [] => s
  | q :: _ =>
    let m := s.mdl q.mdl
    let cost := m.base.toNat + (rs.map (termOf m)).sum
    let flight := (s.ops.filter (fun p => p.2.dispatched && p.2.cmd.opcode == 0x0203 && !p.2.cmd.w1.toNat.testBit 19)).length
    let s := if rhoQ m * cost < colt * 2 ^ 23 ∧ flight ≤ fld m.ctl 5 0 + 1 then (s.bump (R.ADM_MISS_CNT q.tenant)).raise (0x90 + q.tenant) 1 else s
    let r := ratioUp colt cost
    if m.rho.toNat < r.toNat then { s with mdls := Map.put s.mdls Mdl.none q.mdl { m with rho := r } }.raise (0x90 + q.tenant) 3 else s

end State

/-- ADM_DOORBELL (R387): a write of ADM_RING_PROD, under the rules of R104. -/
def execAdmDoorbell (t : Nat) (v : Word32) (s : State) : Out := keepQueue s <|
  if t < 64 then
    let prod := s.rd (R.ADM_RING_PROD t)
    let done := s.rd (R.ADM_RING_DONE t)
    if s.rdB (R.ADM_RING_CTL t) 31 then
      if (v - done).toNat ≤ 2 ^ s.rdF (R.ADM_RING_CTL t) 19 16 ∧ (prod - done).toNat ≤ (v - done).toNat then
        .next (s.plainWrite (R.ADM_RING_PROD t) v)
      else .next (((s.ignoredWrite (R.ADM_RING_PROD t)).setBits (R.ADM_DB_ERR t) 1).raise (0x90 + t) 2)
    else .next ((s.plainWrite (R.ADM_RING_PROD t) v).wr (R.ADM_RING_DONE t) v)
  else .next s

/-- NEW (R387, R389, R392): the record at the head of the ring, of KIND NEW; a record of no KIND the manual gives is refused as
INVALID here too. -/
def execNew (t : Nat) (bytes : List Byte) (ok : Bool) (s : State) : Out := keepQueue s <|
  if bytes.length ≠ 128 then .refused (.illFormed "NEW") else .next (s.admRun t bytes ok (fun k => k == 0 || 3 ≤ k))

/-- RESUME (R283, R389). -/
def execResume (t : Nat) (bytes : List Byte) (ok : Bool) (s : State) : Out := keepQueue s <|
  if bytes.length ≠ 128 then .refused (.illFormed "RESUME") else .next (s.admRun t bytes ok (fun k => k == 1))

/-- RELEASE (R389). -/
def execRelease (t : Nat) (bytes : List Byte) (ok : Bool) (s : State) : Out := keepQueue s <|
  if bytes.length ≠ 128 then .refused (.illFormed "RELEASE") else .next (s.admRun t bytes ok (fun k => k == 2))

/-- ADM_REQ_SEL_WRITE (R398): the selected entry is latched whole; another tenant's reads as zero. -/
def execAdmReqSelWrite (t : Nat) (v : Word32) (s : State) : Out := keepQueue s <|
  if t < 64 then
    let s := s.plainWrite (R.ADM_REQ_SEL t) v
    let b := match s.req? (s.rdF (R.ADM_REQ_SEL t) 15 0) with
      | some q => if q.tenant = t then State.reqBytes q else []
      | none => []
    .next { s with reqLatch := Map.put s.reqLatch [] t b }
  else .next s

end Sys2Proof.Machine
end

