-- ==== Sys2Proof/Machine/Random.lean ====
section
/-! DEFINITION. Chapter 14: the noise source, the DRBG and the seeding of the lane generators (R401 to R408, R412 to R414). -/
namespace Sys2Proof.Machine
open Sys2Proof

namespace State

/-- CMD_ERR of the RNG (R412, R414). -/
def rngErr (s : State) : State := (s.setBits R.RNG_ERR 1).raise 0x07 3

/-- Lanes of a core's vector unit, by generator index (R403). -/
def coreLanes (c : Nat) : List Nat := (List.range 512).map (laneIdx c)
/-- Generators whose unit runs an operator (R406): an engine's own; a core's lanes for a part on its vector unit, and those of a
cluster's cores for a part on its MFU. -/
def busyGens (s : State) : List Nat :=
  ((s.ops.filter (fun p => p.2.dispatched)).flatMap (fun p =>
    if CmdRecF.unit p.2.cmd ≤ 1 then p.2.parts
    else if CmdRecF.unit p.2.cmd = 2 then p.2.parts.flatMap coreLanes
    else if CmdRecF.unit p.2.cmd = 3 then p.2.parts.flatMap (fun u => (List.range 6).flatMap (fun l => coreLanes (6 * u + l)))
    else [])).dedup

/-- A seed from the DRBG (R406): a zero one is discarded and drawn again, at most `fuel` times (log entry 40). -/
def drbgSeedAux : Nat → State → (Word64 × Word64) × State
  | 0, s => ((1, 0), s)
  | fuel + 1, s =>
    let r := s.drbgTake 16
    let lo : Word64 := BitVec.ofNat 64 (leNat (r.1.take 8))
    let hi : Word64 := BitVec.ofNat 64 (leNat (r.1.drop 8))
    if lo = 0 ∧ hi = 0 then drbgSeedAux fuel r.2 else ((lo, hi), r.2)
/-- A seed from the DRBG (R406). -/
def drbgSeed (s : State) : (Word64 × Word64) × State := drbgSeedAux 16 s

/-- Every generator has switched (R406 step 4). -/
def seedEnd (s : State) : State :=
  if s.rng.pend = [] ∧ s.rdF R.RNG_STAT 31 30 = 1 then
    (((s.wrF R.RNG_STAT 31 30 2).wrF R.RNG_STAT 17 0 0).wr R.RNG_SEED_GEN (s.rd R.RNG_SEED_GEN + 1)).raise 0x07 0
  else s.wrF R.RNG_STAT 17 0 s.rng.pend.length

/-- Seed every generator (R405, R406): idle ones take their new START at once; those of running units keep their STATE until the
operator completes. -/
def seedAll (s : State) (seed : Word64 × Word64) (soft : Bool) : State :=
  let busy := s.busyGens
  let keep : Map Gen := busy.foldl (fun m i => Map.set m i (s.gen i)) []
  let s : State := { s with rng := { s.rng with seedLo := seed.1, seedHi := seed.2, gens := keep, pend := busy, rewinds := [] } }
  ((s.wrF R.RNG_STAT 31 30 1).wrF R.RNG_STAT 27 27 (if soft then 1 else 0)).seedEnd

/-- After an operator has ended: generators of units no longer busy take what waits for them (R406 step 3, R408). -/
def genSwitch (s : State) : State :=
  if s.rng.pend = [] ∧ s.rng.rewinds = [] then s
  else
    let busy := s.busyGens
    let go := (s.rng.pend ++ s.rng.rewinds).filter (fun i => !busy.contains i)
    ({ s with rng := { s.rng with
        gens := s.rng.gens.filter (fun p => !go.contains p.1)
        pend := s.rng.pend.filter busy.contains
        rewinds := s.rng.rewinds.filter busy.contains } } : State).seedEnd

/-- A test of the noise source fails (R401, R426). -/
def noiseFail (s : State) : State :=
  ((s.clrBits R.RNG_STAT 0x20000000#32).bump R.RNG_NOISE_FAIL_CNT).setBits R.RNG_ERR 2 |>.raise 0x07 1

end State

/-- SEED (R406, R422): a write of SEED to RNG_CMD. -/
def execSeed (s : State) : Out := keepQueue s <|
  if s.adminOpen = false then .next (s.adminDeny R.RNG_CMD)
  else if s.rdB R.RNG_CTL 0 then
    let lo : Word64 := BitVec.ofNat 64 ((s.rd (R.RNG_SEED 0)).toNat + (s.rd (R.RNG_SEED 1)).toNat * 2 ^ 32)
    let hi : Word64 := BitVec.ofNat 64 ((s.rd (R.RNG_SEED 2)).toNat + (s.rd (R.RNG_SEED 3)).toNat * 2 ^ 32)
    if lo = 0 ∧ hi = 0 then .next (s.ignoredWrite R.RNG_CMD).rngErr
    else .next ((s.countWrite 7 false).seedAll (lo, hi) true)
  else if s.rdB R.RNG_STAT 28 then
    let r := s.drbgSeed
    .next ((r.2.countWrite 7 false).seedAll r.1 false)
  else .next (s.ignoredWrite R.RNG_CMD).rngErr

/-- REWIND_ALL (R408, R422): every generator takes STATE := START; those of running units when their operator completes. -/
def execRewindAll (s : State) : Out := keepQueue s <|
  if s.adminOpen = false then .next (s.adminDeny R.RNG_CMD)
  else
    let busy := s.busyGens
    let s := s.countWrite 7 false
    .next { s with rng := { s.rng with gens := s.rng.gens.filter (fun p => busy.contains p.1), rewinds := busy.filter (fun i => !s.rng.pend.contains i) } }

/-- DRBG_RESEED (R402): the reseed interval has run out: reseeded from the noise source, or, while it is failed, the DRBG refuses
requests. -/
def execDrbgReseed (s : State) : Out := keepQueue s <|
  if s.rdB R.RNG_STAT 29 then .next (s.drbgFresh.setBits R.RNG_STAT 0x10000000#32)
  else if s.rdB R.RNG_STAT 28 then .next ((s.clrBits R.RNG_STAT 0x10000000#32).raise 0x07 2)
  else .next s

/-- NOISE_FAIL (R401): a health test fails. -/
def execNoiseFail (s : State) : Out := keepQueue s <| .next s.noiseFail

end Sys2Proof.Machine
end

