-- ==== Sys2Proof/Machine/Security.lean ====
section
/-! DEFINITION. Chapter 15: the services of the SEM, its sessions, self-tests, zeroisation and the release of the fabric (R415 to
R452), and FW_UPDATE (R428 to R431, R479 to R483). -/
namespace Sys2Proof.Machine
open Sys2Proof

/-- A mailbox request (R423): the fields of its header, its payload and its signature. -/
structure MbxReq where
  ver : Nat
  service : Nat
  role : Nat
  id : Nat
  zeros : Bool
  len : Nat
  chal : List Byte
  pay : List Byte
  signed : List Byte
  sig : List Byte
deriving DecidableEq, Repr

/-- Bytes `off` to `off + n - 1`. -/
def slice (b : List Byte) (off n : Nat) : List Byte := (b.drop off).take n
/-- The request in a mailbox block. -/
def mbxOf (bytes : List Byte) : MbxReq :=
  let b := padTo 4096 bytes
  let len := leNat (slice b 8 4)
  ⟨leNat (slice b 0 2), (b.getD 2 0).toNat, (b.getD 3 0).toNat, (b.getD 4 0).toNat,
   leNat (slice b 5 3) == 0 && leNat (slice b 12 4) == 0, len, slice b 0x10 48, slice b 0x40 len, b.take (0x40 + len),
   slice b (0x40 + (len + 7) / 8 * 8) 96⟩

/-! ### Keys and signatures (log entry 4) -/

/-- A fabric key blob opened against the KAK `d` (R443): the key, or none where its point is not one or the tag fails. -/
def openBlob (d : Nat) (blob : List Byte) : Option (List Byte) :=
  (ecdhX d (slice blob 8 97)).bind (fun z =>
    gcmOpen ((sha384 (z ++ slice blob 4 4)).take 32) (slice blob 0x69 12) (blob.take 8) (slice blob 0x75 32) (slice blob 0x95 16))
/-- Does an image header's signature verify under a root key (R428)? -/
def rootOk (root : Nat) (msg sig : List Byte) : Bool := ecdsaOk (Config.rootKey root) msg sig

/-- The roles a service allows (R424): 0 unauthenticated, 1 administrator, 2 tenant. -/
def roleOk (svc role : Nat) : Bool :=
  if svc = 1 ∨ svc = 2 ∨ svc = 3 ∨ svc = 5 then role == 0
  else if svc = 4 then role ≤ 2
  else if svc = 8 then role == 1 || role == 2
  else role == 1

/-- What a service does: its STATUS (R425), its output, and the state after it. -/
abbrev SvcRun := MbxReq → List Byte → State → Nat × List Byte × State

namespace State

/-! ### The mailbox (R420, R423 to R425) -/

/-- SEM_CHAL as bytes (R420, R450). -/
def chalBytes (s : State) : List Byte := (List.range 12).flatMap (fun j => leBytes 4 (s.rd (R.SEM_CHAL j)).toNat)
/-- STATE of the SEM. -/
def semState (s : State) : Nat := s.rdF R.SEM_STAT 31 28
/-- APPROVED. -/
def approved (s : State) : Bool := s.rdB R.SEM_STAT 27
/-- A SEM interrupt. -/
def semInt (s : State) (b : Nat) : State := s.raise 0x04 b

/-- The identity a request must match (R419, R420). -/
def storedId (s : State) (r : MbxReq) : Option (List Byte) :=
  if r.role = 1 then Map.get? s.sem.admins r.id
  else if r.role = 2 then (let t := Map.get s.tenants Tenant.none r.id; if t.st = 1 then some t.identity else none)
  else none
/-- Is the request authentic (R420)? -/
def authOk (s : State) (r : MbxReq) : Bool :=
  let key := r.pay.take 97
  (match s.storedId r with
   | some d => sha384 key == d
   | none => false) && r.chal == s.chalBytes && ecdsaOk key r.signed r.sig
/-- A failed authentication (R420, R450): counted; the eighth in a row locks the authenticated services. -/
def authFail (s : State) : State :=
  let n := s.sem.fails + 1
  let s : State := { s with sem := { s.sem with fails := n, lockAt := if 8 ≤ n then some s.ft else s.sem.lockAt } }
  ((s.bump R.SEM_AUTH_FAIL_CNT).setBits R.SEM_ERR 1).semInt 4

/-- A service that needs no authentication in ERROR (R427, R431). -/
def errorFree (s : State) (svc : Nat) : Bool := s.semState == 2 && (svc == 0x12 || (svc == 0x0D && s.sem.bootError))

/-- Why a service is refused before it runs (R417, R420, R424, R425, R427, R430, R448); the order of the tests is log entry 42. -/
def mbxRefuse (s : State) (svc : Nat) (r : MbxReq) : Option Nat :=
  let st := s.semState
  if (s.sem.zero.isSome || st == 3) && !(svc == 1 || svc == 3) then some 3
  else if st = 2 ∧ svc ≠ 1 ∧ s.errorFree svc = false then some 8
  else if st = 0 ∧ svc ≠ 1 ∧ svc ≠ 3 ∧ svc ≠ 0x0D then some 3
  else if r.ver ≠ 1 ∨ r.zeros = false ∨ 3936 < r.len ∨ 2 < r.role ∨ (r.role = 0 ∧ r.id ≠ 0) ∨ (r.role = 1 ∧ 7 < r.id) ∨ (r.role = 2 ∧ 63 < r.id) then some 4
  else if s.errorFree svc then none
  else if roleOk svc r.role = false then some 2
  else if r.role = 0 then none
  else if s.sem.lockAt.isSome then some 6
  else if r.len < 97 then some 4
  else if s.authOk r then none else some 1

/-- The response (R418, R423): written to the mailbox block; then SEM_CHAL is drawn afresh (R420). -/
def mbxAnswer (s : State) (svc status : Nat) (out : List Byte) (ind : Bool) : State :=
  let s := s.emit (.hostWrite (s.rd64 R.SEM_MBX_ADDR_LO / 4096 * 4096 + 0x1000)
    (leBytes 2 status ++ [if ind then 1 else 0, 0] ++ leBytes 4 out.length ++ leBytes 56 0 ++ out) false)
  ((s.wr R.SEM_MBX_STAT (BitVec.ofNat 32 (svc * 256 + status % 256))).semInt 0).chalDraw

/-- A service (R423): GO with this service in the block. Ignored while BUSY; a block that host memory does not give is DMA_ERR. -/
def service (s : State) (svc : Nat) (bytes : List Byte) (run : SvcRun) : State :=
  let r := mbxOf bytes
  if r.service ≠ svc then s
  else if s.rdB R.SEM_MBX_STAT 31 then s.ignoredWrite R.SEM_MBX_CMD
  else
    let s := s.countWrite 4 false
    if s.hostReach = false then s.dmaErr
    else
      match s.mbxRefuse svc r with
      | some c => (if c = 1 then s.authFail else s).mbxAnswer svc c [] false
      | none =>
        let s : State := if r.role = 0 then s else { s with sem := { s.sem with fails := 0 } }
        let app := s.approved
        let x := run r (if r.role = 0 then r.pay else r.pay.drop 97) s
        if x.1 = 0 ∧ svc = 0x0D ∧ x.2.2.sem.fetch.isSome = true then x.2.2.wr R.SEM_MBX_STAT (BitVec.ofNat 32 (2 ^ 31 + svc * 256))
        else x.2.2.mbxAnswer svc x.1 x.2.1 (app && x.1 == 0 && svc != 0x13)

/-! ### Sessions (R421) -/

/-- The administrator session closes. -/
def sessionClose (s : State) : State := { s.wr R.SEM_ADMIN_OPEN 0 with sem := { s.sem with endAt := none } }

/-! ### Measurements and images (R428, R429, R479) -/

/-- Register M`i`, 48 bytes. -/
def meas (s : State) (i : Nat) : List Byte := (List.range 12).flatMap (fun j => leBytes 4 (s.rd (R.SEM_MEAS (12 * i + j))).toNat)
/-- Extend M`i` (R429). -/
def extend (s : State) (i : Nat) (digest : List Byte) : State :=
  let d := sha384 (s.meas i ++ digest)
  (List.range 12).foldl (fun u j => u.wr (R.SEM_MEAS (12 * i + j)) (BitVec.ofNat 32 (leNat (slice d (4 * j) 4)))) s
/-- Minimum SVN of a stage (R428). -/
def svnMin (s : State) (stage : Nat) : Nat := Map.get s.sem.svn (Config.svnFuse stage) stage
/-- Raise it; it never falls (R429). -/
def svnRaise (s : State) (stage v : Nat) : State :=
  { s with sem := { s.sem with svn := Map.set s.sem.svn stage (max (s.svnMin stage) v) } }
/-- Is an image accepted for a stage (R428, R479)? -/
def imageOk (s : State) (stage : Nat) (hdr body : List Byte) : Bool :=
  let root := (hdr.getD 4 0).toNat
  leNat (hdr.take 2) == 1 && (hdr.getD 2 0).toNat == stage && (hdr.getD 3 0).toNat ≤ 63 && root ≤ 3 && (hdr.getD 5 0).toNat ≤ 1 &&
  leNat (slice hdr 8 4) == body.length && sha384 body == slice hdr 0x10 48 && rootOk root (hdr.take 0x40) (slice hdr 0x40 96) &&
  !Config.rootRevoked root && s.svnMin stage ≤ (hdr.getD 3 0).toNat

/-- The image a stage runs is accepted: its header and its body (R428). -/
def bootImageOk (s : State) (stage : Nat) : Bool :=
  let img := s.fwRunning stage
  s.imageOk stage (img.take 160) (img.drop 160)
/-- Every stage's image is accepted (R2, R428). -/
def bootOk (s : State) : Bool := ([1, 2, 3, 4, 5] : List Nat).all s.bootImageOk
/-- The AK's signature of a message, its secret number from the DRBG (R432, R433). -/
def akSign (s : State) (msg : List Byte) : List Byte × State :=
  let k := s.drbgScalar
  (ecdsaSign Config.akKey k.1 msg, k.2)

/-- FW_REVERT (R481, R484): a block has returned to its old image. -/
def fwRevert (s : State) : State := s.used.setBits R.PWR_FW_STAT 0x20000#32

/-- An image written to its stage's inactive slot and checked; with ACTIVATE switched live or marked TRY (R480, R481, R482). The
first component is the STATUS. -/
def fwInstall (s : State) (hdr body : List Byte) (activate raiseSvn : Bool) : Nat × State :=
  let stage := (hdr.getD 2 0).toNat
  if stage < 1 ∨ 5 < stage then (7, s)
  else
    let old := s.fwRunning stage
    let slot := 1 - s.fwActive stage
    let s : State := { s.clrBits R.PWR_FW_STAT (BitVec.ofNat 32 (2 ^ (7 + stage))) with
      sem := { s.sem with images := Map.set s.sem.images (2 * stage + slot) (hdr ++ body), raises := s.sem.raises.filter (· != stage) } }
    if s.imageOk stage hdr body = false then (7, s)
    else if s.semState = 2 then
      (0, ({ s with sem := { s.sem with bootError := false } } : State).wrF R.PWR_FW_STAT (stage - 1) (stage - 1) slot)
    else if !activate then (0, s)
    else
      let svn := (hdr.getD 3 0).toNat
      let fails := Config.switchFails s.freeCtr
      if stage ≤ 4 ∧ s.semState = 1 ∧ (hdr.getD 5 0).getLsbD 0 = true ∧ slice hdr 6 2 = slice old 6 2 then
        let s := s.extend (stage - 1) (slice hdr 0x10 48)
        if stage ≤ 2 ∧ fails = true then (0, s.fwRevert)
        else
        let s := s.wrF R.PWR_FW_STAT (stage - 1) (stage - 1) slot
        let s : State := { s with sem := { s.sem with running := Map.erase s.sem.running stage } }
        let s := if raiseSvn then s.svnRaise stage svn else s
        let s := if stage = 1 then s.wrF R.SEM_STAT 23 23 slot else s
        if stage = 3 then (0, { s with pwr := { s.pwr with fwSwitch := List.range 384, fwOld := [], fwSince := s.ft } })
        else (0, (if stage = 4 ∧ fails = true then s.fwRevert else s.used).raise 0x05 6)
      else
        let s := s.setBits R.PWR_FW_STAT (BitVec.ofNat 32 (2 ^ (7 + stage)))
        (0, if raiseSvn then { s with sem := { s.sem with raises := s.sem.raises ++ [stage] } } else s)

/-! ### BULK messages (R483) -/

/-- A BULK message from byte 0x08 of its header. -/
def bulkBody (kind stage tag off len : Nat) (data : List Byte) : List Byte :=
  [BitVec.ofNat 8 kind, BitVec.ofNat 8 stage, 0, 0] ++ leBytes 4 tag ++ leBytes 8 off ++ leBytes 4 len ++ leBytes 36 0 ++ data
/-- Send one to a member: CLASS 0x48 on VC BULK, owner 0x7F. -/
def bulkSend (s : State) (mbr kind stage tag off len : Nat) (data : List Byte) : State :=
  s.send ⟨mbr, s.srcField, 0, 0x48, 7, 0x7F, bulkBody kind stage tag off len data, false, []⟩
/-- Ask for the next part of the image being fetched: its body begins at offset 160 of the image. -/
def fetchNext (s : State) (f : FwFetch) : State :=
  let want := min 65536 (leNat (slice f.hdr 8 4) - f.got.length)
  ({ s with sem := { s.sem with fetch := some { f with since := s.ft } } } : State).bulkSend f.member 1 f.stage f.tag (160 + f.got.length) want []
/-- The FW_UPDATE of a fetch ends. -/
def fetchEnd (s : State) (status : Nat) : State :=
  let app := s.approved
  ({ s with sem := { s.sem with fetch := none } } : State).mbxAnswer 0x0D status [] (app && status == 0)

/-! ### Zeroisation and errors (R427, R447, R448) -/

/-- Zeroisation starts: keys are overwritten, ports with keys go to DOWN, the session closes; it wins over a service or a turnover
in progress. -/
def zeroStart (s : State) (sensors : Nat) (jtag : Bool) : State :=
  match s.sem.zero with
  | some z => { s with sem := { s.sem with zero := some { z with sensors := z.sensors ||| sensors, jtag := z.jtag || jtag } } }
  | none =>
    let s := s.sessionClose
    let s := if s.sem.fetch.isSome then s.fetchEnd 3 else s
    let s := match s.turn with
      | some t => s.turnAbort t (if t.st = 1 then 3 else 4) 0x0D 0x12
      | none => s
    let s : State := { s with sem := { s.sem with zero := some ⟨sensors, jtag⟩ } }
    (List.range 36).foldl (fun u p => if (u.port p).tx.on || (u.port p).rx.on then
      (u.portMod p (fun o => { o with tx := PortKey.none, rx := PortKey.none })).portTo p 9 else u) s

/-- Tests passed. -/
def testsPass (s : State) (l : List Nat) : State := s.setBits R.SEM_SELFTEST (BitVec.ofNat 32 ((l.map (fun i => 2 ^ i)).sum))

/-- The SEM enters ERROR (R427). -/
def semError (s : State) (test : Nat) : State :=
  let boot := s.semState == 0
  let s := (((s.sessionClose.wrF R.SEM_STAT 31 28 2).wrF R.SEM_STAT 27 27 0).wrF R.SEM_STAT 15 8 test).semInt 1
  let s : State := { s with sem := { s.sem with bootError := boot && test == 1 } }
  (List.range 36).foldl (fun u p => if u.portLive p && ((u.port p).encOn || decide (32 ≤ p)) then (u.linkReset p).portTo p 4 else u) s

/-! ### Contents of the outputs -/

/-- A certificate record (R433). -/
def certOf (kind signer : Nat) (key : List Byte) : List Byte :=
  [1, 0, BitVec.ofNat 8 kind, BitVec.ofNat 8 signer] ++ padTo 16 (Config.identity 0) ++ padTo 97 key ++ leBytes 11 0
/-- The KAK record; what GET_CERT returns in its place while no KAK exists is not stated (log entry 42). -/
def kakCert (s : State) : List Byte :=
  match s.sem.kak with
  | some d => certOf 1 0xFF (ecPublic d) ++ s.sem.kakSig
  | none => padTo 224 Config.noKakRecord
/-- The AK record, signed by a root at manufacture (R433). -/
def akCert : List Byte := certOf 0 Config.akRoot.val (ecPublic Config.akKey) ++ padTo 96 Config.akRecordSig
/-- The KAK is generated, its record signed by the AK; the journal key and the model domain key are drawn (R433 to R435). -/
def claimKeys (s : State) : State :=
  let d := s.drbgScalar
  let g := d.2.akSign (certOf 1 0xFF (ecPublic d.1))
  let j := drbgPair 16 g.2
  let m := drbgPair 16 j.2
  { m.2 with sem := { m.2.sem with kak := some d.1, kakSig := g.1, journal := true, journalKey := j.1, modelKey := m.1, modelGen := m.2.sem.modelGen + 1 } }

/-- The attestation report (R432), and the state that has signed it. -/
def report (s : State) (r : MbxReq) (nonce : List Byte) : List Byte × State :=
  let f (b : Bool) (i : Nat) : Nat := if b then 2 ^ i else 0
  let flags := f s.approved 0 + f (s.rdB R.SEM_STAT 26) 1 + f s.adminOpen 2 + f (s.rdB R.SEM_ADMIN_OPEN 30) 3 + f (s.rdB R.SEM_STAT 24) 4 +
    f (fld (s.rd R.SEM_TAMPER) 4 0 != 0) 5
  let ten := decide (r.role = 2)
  let body : List Byte := leBytes 2 1 ++ leBytes 2 0x280 ++ leBytes 4 flags ++ padTo 16 (Config.identity 0) ++ leBytes 8 s.ft.toNat ++ nonce ++
    (([1, 2, 3, 4, 5] : List Nat).map (fun g => (s.fwRunning g).getD 3 0)) ++ leBytes 3 0 ++ leBytes 2 s.srcField ++
    [if ten then BitVec.ofNat 8 r.id else 0xFF,
     if ten then BitVec.ofNat 8 (f (s.readGrant r.id) 0 + f (s.turnRight r.id) 1) else 0] ++
    leBytes 4 (if s.kfOn then (s.rd R.SEM_KF_ID).toNat else 0) ++
    leBytes 4 (if ten then (Map.get s.tenants Tenant.none r.id).gen else 0) ++ leBytes 4 s.sem.modelGen ++ leBytes 8 0 ++
    (List.range 8).flatMap s.meas ++ sha384 ((List.range 8).flatMap (fun k => Map.get s.sem.admins (List.replicate 48 0) k))
  let g := s.akSign body
  (body ++ g.1, g.2)

/-! ### Tenants (R436, R438) -/

/-- Does any ring or the admission ring of a tenant stand in the way of its destruction (R438)? -/
def tenantBusy (s : State) (t : Nat) : Bool :=
  (List.range 16).any (fun r => s.ringEn t r) || s.rdB (R.ADM_RING_CTL t) 31 || s.ops.any (fun p => p.2.tenant == t)
/-- Steps 1 to 3 of TENANT_DESTROY (R438). -/
def tenantGone (s : State) (t : Nat) : State :=
  let x := Map.get s.tenants Tenant.none t
  let s : State := { s with tenants := Map.set s.tenants t { x with st := 2, identity := [], key := [] } }
  let s := (s.slots.filter (fun f => f.2.on && f.2.owner == t)).foldl (fun u f => u.flkDisable f.1) s
  let s : State := { s with reqs := s.reqs.filter (fun q => q.2.tenant != t) }
  let ns := (s.ms.tiles.map (·.1)).filter (fun n => s.tileOwner n == t)
  let s := ns.foldl (fun u n =>
    let u := match Map.get? u.ms.moves n with
      | some m => u.abortMove n m 4 1
      | none => u
    u.discardAny n) s
  let s : State := { s with ms := { s.ms with
    asks := s.ms.asks.filter (fun a => s.tileOwner a.tile != t)
    rgn := s.ms.rgn.filter (fun p => rgnOwner p.2 != t) } }
  s.ownerSet t { s.owner t with dQuota := 0, fQuota := 0 }

end State

/-! ### Commands -/

/-- STATUS (R424): SEM_STAT, module name, firmware versions. -/
def execStatus (b : List Byte) (s : State) : Out := keepQueue s <|
  .next (s.service 0x01 b (fun _ _ s =>
    (0, leBytes 4 (s.rd R.SEM_STAT).toNat ++ Config.identity 2 ++ ([1, 2, 3, 4, 5] : List Nat).flatMap (fun g => slice (s.fwRunning g) 0x0C 4), s)))

/-- SELFTEST (R426): the boot tests again; the noise source passes its start-up test. -/
def execSelftest (b : List Byte) (s : State) : Out := keepQueue s <|
  .next (s.service 0x02 b (fun _ _ s =>
    let s := (s.testsPass [1, 2, 3, 4, 5, 6, 7, 8, 9]).setBits R.RNG_STAT 0x20000000#32
    (0, leBytes 4 (s.rd R.SEM_SELFTEST).toNat, s)))

/-- GET_CERT (R433). -/
def execGetCert (b : List Byte) (s : State) : Out := keepQueue s <|
  .next (s.service 0x03 b (fun _ _ s => (0, State.akCert ++ s.kakCert, s)))

/-- ATTEST (R432). -/
def execAttest (b : List Byte) (s : State) : Out := keepQueue s <|
  .next (s.service 0x04 b (fun r p s => if p.length ≠ 48 then (4, [], s) else (let x := s.report r p; (0, x.1, x.2))))

/-- CLAIM (R417, R424, R434): slot 0, the KAK with its pairwise test, the journal key and the model domain key. -/
def execClaim (b : List Byte) (s : State) : Out := keepQueue s <|
  .next (s.service 0x05 b (fun _ p s =>
    if s.rdB R.SEM_STAT 26 then (3, [], s)
    else if p.length ≠ 48 then (4, [], s)
    else
      let s := s.claimKeys
      let s : State := { s with sem := { s.sem with admins := Map.set s.sem.admins 0 p } }
      (0, [], (s.testsPass [0x0B]).setBits R.SEM_STAT 0x04000000#32)))

/-- ADMIN_SET (R424). -/
def execAdminSet (b : List Byte) (s : State) : Out := keepQueue s <|
  .next (s.service 0x06 b (fun _ p s =>
    let k := (p.getD 0 0).toNat
    if p.length ≠ 50 ∨ 7 < k ∨ 1 < (p.getD 1 0).toNat then (4, [], s)
    else if p.getD 1 0 = 0 then (0, [], { s with sem := { s.sem with admins := Map.set s.sem.admins k (p.drop 2) } })
    else if s.sem.admins.map (·.1) = [k] then (3, [], s)
    else (0, [], { s with sem := { s.sem with admins := Map.erase s.sem.admins k } })))

/-- TENANT_CREATE (R436). -/
def execTenantCreate (b : List Byte) (s : State) : Out := keepQueue s <|
  .next (s.service 0x07 b (fun _ p s =>
    let t := (p.getD 0 0).toNat
    let x := Map.get s.tenants Tenant.none t
    if p.length ≠ 49 ∨ 63 < t then (4, [], s)
    else if x.st ≠ 0 then (3, [], s)
    else
      let k := State.drbgPair 16 s
      (0, [], { k.2 with tenants := Map.set s.tenants t ⟨1, x.gen + 1, p.drop 1, k.1⟩ })))

/-- TENANT_DESTROY (R438). -/
def execTenantDestroy (b : List Byte) (s : State) : Out := keepQueue s <|
  .next (s.service 0x08 b (fun r p s =>
    let t := (p.getD 0 0).toNat
    if p.length ≠ 1 ∨ 63 < t then (4, [], s)
    else if r.role = 2 ∧ r.id ≠ t then (2, [], s)
    else if s.tenantActive t = false ∨ s.tenantBusy t = true then (5, [], s)
    else (0, [], s.tenantGone t)))

/-- TENANT_DESTROY_DONE (R438): every tile discarded, the context becomes FREE. -/
def execTenantDestroyDone (t : Nat) (s : State) : Out := keepQueue s <|
  let x := Map.get s.tenants Tenant.none t
  if x.st = 2 then .next { s with tenants := Map.set s.tenants t { x with st := 0 } } else .next s

/-- MODEL_GRANT (R439): both bitmaps in one step. -/
def execModelGrant (b : List Byte) (s : State) : Out := keepQueue s <|
  .next (s.service 0x09 b (fun _ p s =>
    if p.length ≠ 16 then (4, [], s)
    else (0, [], (s.wr64 R.SEM_MODEL_GRANT0 (leNat (p.take 8))).wr64 R.SEM_TURN_RIGHT0 (leNat (p.drop 8)))))

/-- MODEL_REKEY (R439): a new model domain key, where the domain holds no tile and no turnover is active. -/
def execModelRekey (b : List Byte) (s : State) : Out := keepQueue s <|
  .next (s.service 0x0A b (fun _ p s =>
    if p.length ≠ 0 then (4, [], s)
    else if s.ms.tiles.any (fun t => s.modelTile t.1) || s.turn.isSome then (5, [], s)
    else (let k := State.drbgPair 16 s; (0, [], { k.2 with sem := { k.2.sem with modelGen := s.sem.modelGen + 1, modelKey := k.1 } }))))

/-- FABRIC_KEY (R443). -/
def execFabricKey (b : List Byte) (s : State) : Out := keepQueue s <|
  .next (s.service 0x0B b (fun _ p s =>
    let k := (p.getD 0 0).toNat
    let id := leNat (slice p 4 4)
    if p.length ≠ 165 ∨ 1 < k ∨ leNat (slice p 1 3) ≠ 0 ∨ id = 0 then (4, [], s)
    else match s.sem.kak.bind (fun g => openBlob g p) with
      | none => (1, [], s)
      | some key =>
        let s : State := { s with kf := Map.set s.kf k key, sem := { s.sem with kfId := Map.set s.sem.kfId k id } }
        let s := s.wrF R.SEM_KF_STAT (8 + k) (8 + k) 1
        (0, [], if s.kfOn && s.rdF R.SEM_KF_STAT 0 0 == k then s.wr R.SEM_KF_ID (BitVec.ofNat 32 id) else s)))

/-- FABRIC_ACTIVATE (R443): only a slot that is filled. -/
def execFabricActivate (b : List Byte) (s : State) : Out := keepQueue s <|
  .next (s.service 0x0C b (fun _ p s =>
    let k := (p.getD 0 0).toNat
    if p.length ≠ 1 ∨ 1 < k then (4, [], s)
    else if s.rdB R.SEM_KF_STAT (8 + k) = false then (3, [], s)
    else (0, [], (((s.wrF R.SEM_KF_STAT 31 31 1).wrF R.SEM_KF_STAT 0 0 k).wr R.SEM_KF_ID (BitVec.ofNat 32 (Map.get s.sem.kfId 0 k))).heldAll false)))

/-- FW_UPDATE (R430, R431, R480): `body` is what host memory holds at the source address, for KIND 0x00. An image accepted in the
ERROR of R431 is followed by a reset. -/
def execFwUpdate (b body : List Byte) (s : State) : Out := keepQueue s <|
  let boot := s.errorFree 0x0D
  let u := s.service 0x0D b (fun _ p s =>
    let hdr := p.take 160
    let kind := (p.getD 160 0).toNat
    let ctl := (p.getD 161 0).toNat
    let len := leNat (slice hdr 8 4)
    if p.length ≠ 176 ∨ 1 < kind ∨ 3 < ctl ∨ leNat (slice p 164 4) ≠ 0 ∨ len = 0 ∨ 67108864 < len then (4, [], s)
    else if boot = true ∧ (hdr.getD 2 0).toNat ≠ 1 then (8, [], s)
    else if kind = 0 then (let x := s.fwInstall hdr (padTo len body) (ctl.testBit 0) (ctl.testBit 1); (x.1, [], x.2))
    else
      let f : FwFetch := ⟨(hdr.getD 2 0).toNat, leNat (slice p 162 2) % 32768, s.free.toNat % 2 ^ 32, hdr, [], ctl.testBit 0, ctl.testBit 1, s.ft⟩
      (0, [], s.used.fetchNext f))
  .next (if boot && !u.sem.bootError then u.packageReset 2 else u)

/-- ADMIN_OPEN (R421). -/
def execAdminOpen (b : List Byte) (s : State) : Out := keepQueue s <|
  .next (s.service 0x0E b (fun _ p s =>
    let n := leNat (p.take 2)
    if p.length ≠ 3 ∨ n = 0 ∨ 3600 < n then (4, [], s)
    else (0, [], { s.wr R.SEM_ADMIN_OPEN (BitVec.ofNat 32 (2 ^ 31 + (if (p.getD 2 0).getLsbD 0 then 2 ^ 30 else 0))) with
                   sem := { s.sem with endAt := some (s.ft + BitVec.ofNat 64 (n * 4000000000)) } })))

/-- ADMIN_CLOSE (R421). -/
def execAdminClose (b : List Byte) (s : State) : Out := keepQueue s <|
  .next (s.service 0x0F b (fun _ p s => if p.length ≠ 0 then (4, [], s) else (0, [], s.sessionClose)))

/-- ADMIN_SESSION_EXPIRY (R421). -/
def execAdminSessionExpiry (s : State) : Out := keepQueue s <|
  match s.sem.endAt with
  | some t => if t ≤ s.ft then .next s.sessionClose else .next s
  | none => .next s

/-- EXTEND (R424, R429). -/
def execExtend (b : List Byte) (s : State) : Out := keepQueue s <|
  .next (s.service 0x10 b (fun _ p s =>
    let i := (p.getD 0 0).toNat
    if p.length ≠ 49 ∨ i < 5 ∨ 7 < i then (4, [], s) else (0, [], s.extend i (p.drop 1))))

/-- CLEAR_TAMPER (R447). -/
def execClearTamper (b : List Byte) (s : State) : Out := keepQueue s <|
  .next (s.service 0x11 b (fun _ p s => if p.length ≠ 0 then (4, [], s) else (0, [], s.wr R.SEM_TAMPER 0)))

/-- ZEROISE (R427, R448). -/
def execZeroise (b : List Byte) (s : State) : Out := keepQueue s <| .next (s.service 0x12 b (fun _ _ s => (0, [], s.zeroStart 0 false)))

/-- JTAG_UNLOCK (R418, R448): the debug path opens once the zeroisation is complete. -/
def execJtagUnlock (b : List Byte) (s : State) : Out := keepQueue s <| .next (s.service 0x13 b (fun _ _ s => (0, [], s.zeroStart 0 true)))

/-- AUTH_LOCKOUT_EXPIRY (R420): 1 s after the lockout began. -/
def execAuthLockoutExpiry (s : State) : Out := keepQueue s <|
  match s.sem.lockAt with
  | some t => if t.toNat + 4000000000 ≤ s.ft.toNat then .next { s with sem := { s.sem with lockAt := none, fails := 0 } } else .next s
  | none => .next s

/-- TAMPER_TRIP (R447): sensor 3 is sensed above Sleep only. -/
def execTamperTrip (sensor : Nat) (s : State) : Out := keepQueue s <|
  if sensor ≤ 4 ∧ (sensor ≠ 3 ∨ s.rung ≠ 4) then .next ((s.semInt 2).zeroStart (2 ^ sensor) false) else .next s

/-- SEALED_STORE_ERASED (R448): the identities, KAK, fabric, domain and journal keys are gone, the tamper record is written, and the
SEM is ZEROISED. -/
def execSealedStoreErased (s : State) : Out := keepQueue s <|
  match s.sem.zero with
  | none => .next s
  | some z =>
    let n := ((List.range 5).filter (fun i => z.sensors.testBit i)).length
    let s : State := { s with
      kf := []
      tenants := (Map.mapVals s.tenants (fun _ t => { Tenant.none with gen := t.gen })).filter (fun p => p.2 != Tenant.none)
      sem := { s.sem with admins := [], kak := none, kakSig := [], journal := false, modelKey := [], journalKey := [], carveKey := [], drbg := none, kfId := [], zero := none, fetch := none, endAt := none } }
    let s := (s.wr R.SEM_KF_STAT 0).wr R.SEM_KF_ID 0
    let v := s.rd R.SEM_TAMPER
    let s := if n = 0 then s else
      s.wr R.SEM_TAMPER (setFld (setFld v 4 0 (fld v 4 0 ||| z.sensors)) 31 24 (min 255 (fld v 31 24 + n)))
    let s := ((s.wrF R.SEM_STAT 31 28 3).wrF R.SEM_STAT 27 26 0).semInt 3
    .next (if z.jtag then s.setBits R.SEM_STAT 0x01000000#32 else s)

/-- SELFTEST_FAIL (R426, R427): a test of the noise source affects the DRBG only; any other puts the SEM into ERROR. -/
def execSelftestFail (test : Nat) (s : State) : Out := keepQueue s <|
  if test < 1 ∨ 0x0B < test then .next s
  else
    let s := s.clrBits R.SEM_SELFTEST (BitVec.ofNat 32 (2 ^ test))
    if test = 9 ∨ test = 0x0A then .next s.noiseFail
    else if s.semState ≤ 1 then .next (s.semError test)
    else .next s

/-- FABRIC_RELEASE (R2, R210, R417, R428, R429, R434, R466, R482): boot is complete: the images, each accepted, are measured, those marked TRY become
active, the generators are seeded from the DRBG, the fabric is released and the package is READY. -/
def execFabricRelease (s : State) : Out := keepQueue s <|
  if s.semState ≠ 0 ∨ s.rdB R.SEM_STAT 22 = true ∨ s.rdB R.SEM_STAT 25 = true ∨ s.sem.zero.isSome = true ∨ s.rung = 4 ∨ s.inFatal = true ∨ s.bootOk = false then .next s
  else
    let imgs := ([1, 2, 3, 4, 5] : List Nat)
    let s := imgs.foldl (fun u g => u.extend (g - 1) (slice (u.fwRunning g) 0x10 48)) s
    let s := imgs.foldl (fun u g =>
      match Map.get? u.sem.running g with
      | none => u
      | some img =>
        let u := if u.sem.raises.contains g then u.svnRaise g (img.getD 3 0).toNat else u
        (u.wrF R.PWR_FW_STAT (g - 1) (g - 1) (1 - u.fwActive g)).clrBits R.PWR_FW_STAT (BitVec.ofNat 32 (2 ^ (7 + g)))) s
    let s : State := { s with sem := { s.sem with running := [], raises := [] } }
    let noise := !s.rdB R.RNG_ERR 1
    let s := s.testsPass (if noise then [1, 2, 3, 4, 5, 6, 7, 8, 9] else [1, 2, 3, 4, 5, 6, 7, 8])
    let k := State.drbgPair 16 s
    let s : State := { k.2 with sem := { k.2.sem with carveKey := k.1 } }
    let s := if noise then (let s := s.setBits R.RNG_STAT 0x30000000#32; let r := s.drbgSeed; r.2.seedAll r.1 false) else s
    let s := ((s.wrF R.SEM_STAT 31 28 1).wrF R.SEM_STAT 27 27 (if s.rdB R.SEM_STAT 24 then 0 else 1)).wrF R.SEM_STAT 25 25 1
    .next ((((s.wrF R.SEM_STAT 23 23 (s.fwActive 1)).setBits R.PWR_STAT 0x08000000#32).raise 0x05 4).heldAll true)

end Sys2Proof.Machine
end

