-- ==== Sys2Proof/Machine/Power.lean ====
section
/-! DEFINITION. Chapter 16: inputs, resets, rungs, the power ladder, temperatures, fatal errors (R453 to R468, R473, R474), and the
fencing and substitution of cores, clusters and dies (R476 to R478). -/
namespace Sys2Proof.Machine
open Sys2Proof

namespace State

/-! ### Inputs and resets (R453, R454, R460, R468) -/

/-- ERR of the PWR page (R488). -/
def pwrErr (s : State) (m : Word32) : State := (s.setBits R.PWR_ERR m).raise 0x05 7

/-- Everything a power-on reset loses is lost (R468): the always-on domain too, but for SEM_TAMPER and, in the SEM's flash, the
slot and TRY mark of each stage. -/
def powerLost (s : State) : State :=
  let fw := s.rd R.PWR_FW_STAT &&& 0x1F1F#32
  let r := s.lose
  let r : State := { r with
    regs := r.regs.filter (fun p => p.1 / 4096 != 5 && p.1 / 4096 != 0xA)
    pwr := { Pwr.reset with main := false }
    uart := Uart.reset, jtag := Jtag.reset, smb := SmbIf.reset, clk := ⟨false, false, false⟩ }
  (r.wr R.PWR_FW_STAT fw).clrBits R.SEM_STAT 0x01000000#32
/-- Off (R455): written as a package in Sleep with neither input (log entry 38). -/
def powerOff (s : State) : State := s.powerLost.wrF R.PWR_STAT 31 29 4
/-- The main rails go off: Sleep where the auxiliary input is present, else off (R454, R474). -/
def railsOff (s : State) : State :=
  if s.rdB R.PWR_STAT 22 = false then s.powerOff else if s.rung = 4 then s else s.sleepNow

/-- The block type of a die, for DETAIL of HW_FAULT (R474); the CTD, and a reference, have none. -/
def dieBlk (s : State) (die : Nat) : Nat :=
  if die < 16 then 6 else if die < 22 then 7 else if die < 24 then 0xA else (s.free.setWidth 8).toNat
/-- A fatal error with its cause (R473, R474); causes RAIL and THERMAL remove the main rails. -/
def fatalEnd (s : State) (cause die : Nat) : State :=
  let blk := if cause = 2 then 6 else if cause = 3 then 7 else if cause = 4 then 0xA
             else if cause = 7 then s.dieBlk die else (s.free.setWidth 8).toNat
  let s := s.used.fatal cause die blk
  if cause = 6 ∨ cause = 7 then s.railsOff else s

/-! ### Figures (R20) and readings (R463) -/

/-- Logical cores of a die that are live. -/
def coresLive (s : State) (d : Nat) : Nat := ((List.range 24).filter (fun i => (s.core (24 * d + i)).st == 0)).length
/-- Engine clock and Ox issue of a die. -/
def clkOf (s : State) (d : Nat) : Nat := s.rdF (R.CDIE_CLK d) 11 0
/-- Ox issue of a die, sixteenths. -/
def oxOf (s : State) (d : Nat) : Nat := s.rdF (R.CDIE_OX_ISSUE d) 4 0
/-- PWR_FIG_FP8: the full figure in proportion to live cores, clocks and Ox issue (R19, R20). -/
def figFp8 (s : State) : Nat :=
  20450 * ((List.range 16).map (fun d => s.coresLive d * s.clkOf d * (12288 * s.oxOf d + 1024 * 16))).sum / (384 * 2000 * 13312 * 16)
/-- PWR_FIG_DRAM. -/
def figDram (s : State) : Nat := 3072 * (12 - s.ms.fenced.length)
/-- PWR_FIG_SRAM: 8.5 MiB a core, 13 MiB a cluster. -/
def figSram (s : State) : Nat :=
  ((List.range 16).map (fun d => s.coresLive d * 17 + ((List.range 4).filter (fun j => !s.rdB (R.CDIE_STAT d) (27 + j))).length * 26)).sum / 2
/-- PWR_FIG_HALL: a port at half width counts half, one that is DOWN not at all. -/
def figHall (s : State) : Nat :=
  ((List.range 32).map (fun p => if s.portState p = 9 then 0 else if s.rdB (preg p 0x104) 25 then 100 else 200)).sum

/-- A sensor's reading: 0–24 dies, 25–28 lid, 29–40 stacks. -/
def tempOf (s : State) (i : Nat) : Int := (Map.get s.pwr.temps (Config.firstTemp i) i).toInt
/-- Kind of a sensor: 0 die, 1 lid, 2 stack. -/
def sensorKind (i : Nat) : Nat := if i < 25 then 0 else if i < 29 then 1 else 2
/-- Throttle threshold of a kind (R463). -/
def throttleAt (s : State) (kind : Nat) : Int :=
  if kind = 0 then ((s.rdF R.PWR_THERM_THR 7 0 : Nat) : Int) else if kind = 1 then 75 else 95
/-- Alert threshold of a kind. -/
def alertAt (s : State) (kind : Nat) : Int :=
  if kind = 0 then ((s.rdF R.PWR_THERM_THR 15 8 : Nat) : Int) else if kind = 1 then 80 else 100
/-- A reading is taken; a compute die's shows in its CDIE_STAT. -/
def tempSet (s : State) (i : Nat) (t : Byte) : State :=
  let s : State := { s with pwr := { s.pwr with temps := Map.set s.pwr.temps i t } }
  if i < 16 then s.wrF (R.CDIE_STAT i) 7 0 t.toNat else s

/-! ### The ladder (R461, R464) -/

/-- Set a die's clock. -/
def clkSet (s : State) (d v : Nat) : State := s.wrF (R.CDIE_CLK d) 11 0 v
/-- Set a die's Ox issue. -/
def oxSet (s : State) (d v : Nat) : State := s.wrF (R.CDIE_OX_ISSUE d) 4 0 v
/-- A step down, counted. -/
def throttled (s : State) : State := (s.bump R.PWR_THROTTLE_CNT).raise 0x05 1
/-- THROTTLED of each die and THR_PWR, after a change. -/
def ladderBits (s : State) : State :=
  let low (d : Nat) : Bool := s.clkOf d < 2000 || s.oxOf d < 16
  let s := (List.range 16).foldl (fun u d => u.wrF (R.CDIE_STAT d) 25 25 (if low d then 1 else 0)) s
  s.wrF R.PWR_STAT 25 25 (if (List.range 16).any low then 1 else 0)
/-- Does a throttle threshold passed make die `d` take the ladder by itself: its own, or the lid's or a stack's? -/
def dieHot (s : State) (d : Nat) : Bool := s.pwr.hot.contains d || s.pwr.hot.any (fun i => 25 ≤ i)
/-- The power ladder's step at average power `p` (R461). A die that throttles is not raised. -/
def ladderStep (s : State) (p : Nat) : State :=
  let lim := s.rdF R.PWR_LIMIT 11 0
  let floor := s.rdF R.PWR_OX_FLOOR 4 0
  let ds := List.range 16
  let cool := ds.filter (fun d => !s.dieHot d)
  if lim < p then
    let c := ds.filter (fun d => floor < s.oxOf d)
    let m := c.foldl (fun a d => max a (s.oxOf d)) 0
    match c.find? (fun d => s.oxOf d == m) with
    | some d => (s.oxSet d (m - 1)).throttled
    | none => if ds.any (fun d => 800 < s.clkOf d) then (ds.foldl (fun u d => u.clkSet d (max 800 (u.clkOf d - 50))) s).throttled else s
  else if p * 100 < 95 * lim then
    if ds.any (fun d => s.clkOf d < 2000) then cool.foldl (fun u d => if u.clkOf d < 2000 then u.clkSet d (min 2000 (u.clkOf d + 50)) else u) s
    else
      let m := cool.foldl (fun a d => min a (s.oxOf d)) 16
      match cool.find? (fun d => s.oxOf d == m) with
      | some d => if m < 16 then s.oxSet d (m + 1) else s
      | none => s
  else s
/-- The steps of dies over their throttle threshold (R464): Ox issue first, then clock. -/
def thermalStep (s : State) : State :=
  let floor := s.rdF R.PWR_OX_FLOOR 4 0
  ((List.range 16).filter s.dieHot).foldl (fun u d =>
    if floor < u.oxOf d then (u.oxSet d (u.oxOf d - 1)).throttled
    else if 800 < u.clkOf d then (u.clkSet d (max 800 (u.clkOf d - 50))).throttled else u) s

/-! ### Telemetry gathered (R475) -/

/-- The four totals of a TELEMETRY item: SRAM corrections, DRAM corrections, FEC-corrected symbols, units poisoned. -/
def telTotals (s : State) : List Nat :=
  [((List.range 16).map (fun d => (s.rd (R.CDIE_SRAM_CE_CNT d)).toNat)).sum,
   ((List.range 12).map (fun k => (s.rd (R.DRP_CE_CNT k)).toNat)).sum,
   ((List.range 36).map (fun p => (s.rd (preg p 0x140)).toNat)).sum,
   ((List.range 16).map (fun d => (s.rd (R.CDIE_SRAM_UE_CNT d)).toNat)).sum + ((List.range 12).map (fun k => (s.rd (R.DRP_UE_CNT k)).toNat)).sum]
/-- Unit 1 of the interval gathered in `a` (R475). -/
def telUnit1 (s : State) (a : TelAcc) : List Byte :=
  let p := if a.n = 0 then s.rdF R.PWR_POWER 11 0 else a.sum / a.n
  let hi := if a.n = 0 then s.rdF R.PWR_POWER 27 16 else a.high
  let st := s.rd R.PWR_STAT
  let fl := (if bit st 25 then 1 else 0) + (if bit st 24 then 2 else 0) + (if bit st 23 then 4 else 0) + (if s.rdB R.PWR_ERR 4 then 8 else 0)
  let d := (s.telTotals.zip a.base).flatMap (fun x => leBytes 4 (x.1 - x.2))
  let spares := ((List.range 64).filter (fun u => s.rdB (R.CLU_CORE_MAP u) 21)).length
  leBytes 2 p ++ leBytes 2 hi ++ leBytes 2 (s.rdF R.PWR_VIN 15 0) ++ [BitVec.ofNat 8 s.rung, BitVec.ofNat 8 fl] ++ d ++
  leBytes 2 (((List.range 16).map s.coresLive).sum) ++ [BitVec.ofNat 8 spares, BitVec.ofNat 8 (12 - s.ms.fenced.length)] ++
  [BitVec.ofNat 8 ((List.range 32).filter s.portLive).length, 0, 0, 0] ++ leBytes 4 s.figFp8 ++ leBytes 4 s.figDram ++ leBytes 24 0
/-- Add a sample. -/
def telAdd (a : TelAcc) (p high : Nat) : TelAcc := { a with sum := a.sum + p, n := a.n + 1, high := max a.high high }
/-- Every 100 ms unit 1 is kept for SMBus. -/
def telClose (s : State) : State :=
  let k := s.ft.toNat / 400000000
  if k = s.pwr.last100 then s
  else { s with pwr := { s.pwr with unit100 := s.telUnit1 s.pwr.tel100, tel100 := ⟨0, 0, 0, s.telTotals⟩, last100 := k } }

/-! ### Cores out of service (R476 to R478) -/

/-- What is under way for an operator beyond its parts ends with it: a collective, a step, a commit, a fold, a conversion. -/
def opHeld (s : State) (h : Nat) : Bool :=
  (Map.get? s.gsteps h).isSome || (Map.get? s.commits h).isSome || (Map.get? s.folds h).isSome || (Map.get? s.recvs h).isSome ||
  (Map.get? s.convs h).isSome || s.slots.any (fun f => f.2.run.any (fun c => c.op == h) || f.2.queue.any (fun c => c.op == h)) ||
  s.turn.any (fun t => t.op == h)
/-- Is a part of a record on one of the cores, or one of the clusters' MFUs? -/
def partOn (cores clusters : List Nat) (o : RunOp) (u : Nat) : Bool :=
  let k := CmdRecF.unit o.cmd
  if k ≤ 1 then cores.contains (u / 4) else if k = 3 then clusters.contains u else cores.contains u
/-- Parts on cores or MFUs end with HW_FAULT; the operator's others go on (R477). What its outputs hold is a free value. -/
def endParts (s : State) (cores clusters : List Nat) (detail : Nat) : State :=
  ((s.ops.filter (fun p => p.2.dispatched && p.2.parts.any (partOn cores clusters p.2))).map (·.1)).foldl (fun u h =>
    match u.op? h with
    | none => u
    | some o =>
      if u.opHeld h then u.stopOp h 0x0D detail
      else
        let u := (u.opFail h 0x0D (BitVec.ofNat 8 detail)).stopOutputs h o
        match u.op? h with
        | some o => u.opSet h { o with ran := true, parts := o.parts.filter (fun x => !partOn cores clusters o x) }
        | none => u) s
/-- A core stops: its streams are cancelled, its slots are FREE, nothing is queued on its engines. -/
def coreStop (s : State) (c : Nat) : State :=
  let s := ((s.strm.filter (fun p => p.2.core == c)).map (·.1)).foldl (fun u n => u.cancelStream n) s
  { s with eng := s.eng.filter (fun p => p.1 / 4 != c), readyQ := s.readyQ.filter (fun p => p.1 / 2 != c) }
/-- Blank a run of SRAM. -/
def sramClear (s : State) (a n : Nat) : State := { s.clearPoison a n with mem := Mem.clear s.mem a n }
/-- A core's tiles and SRAM are cleared to zero. -/
def coreClear (s : State) (c : Nat) : State :=
  (s.sramClear (sramBase + 4 * c * 0x400000) (4 * 0x400000)).sramClear (sramBase + 0x200000000 + c * 0x100000) 0x100000
/-- A cluster's stage counters and SRAM are lost; streams waiting on those counters end with HW_FAULT (R476). -/
def clusterLost (s : State) (u : Nat) : State :=
  let ns := (s.waiters.filter (fun p => p.1 / 256 == u)).flatMap (·.2)
  let s := ns.foldl (fun w n => match Map.get? w.strm n with
    | some x => (w.opFail x.op 0x0D 4).cancelStream n
    | none => w) s
  { s.sramClear (sramBase + 0x300000000 + u * 0x1000000) 0x1000000 with
    regs := s.regs.filter (fun p => !(p.1 / 4096 == 0x140 + u && decide (0x400 ≤ p.1 % 4096))), sigs := s.sigs.filter (fun p => p.1 / 256 != u) }
/-- Rings homed on a fenced core stop with HOME_FENCED (R119). -/
def stopHomed (s : State) (c : Nat) : State :=
  (List.range 1024).foldl (fun u k => if u.ringEn (k / 16) (k % 16) && u.ringHome (k / 16) (k % 16) == c then u.ringStop (k / 16) (k % 16) 2 none else u) s
/-- Is a cluster fenced as a unit? -/
def cluFenced (s : State) (u : Nat) : Bool := (List.range 6).all (fun l => 2 ≤ (s.core (6 * u + l)).st && 1 ≤ (s.core (6 * u + l)).unit)
/-- CLU_FENCED and DIE_FENCED of a die (R487). -/
def fenceBits (s : State) (d : Nat) : State :=
  let s := (List.range 4).foldl (fun u j => u.wrF (R.CDIE_STAT d) (27 + j) (27 + j) (if s.cluFenced (4 * d + j) then 1 else 0)) s
  s.wrF (R.CDIE_STAT d) 31 31 (if (List.range 4).all (fun j => s.cluFenced (4 * d + j)) then 1 else 0)
/-- Set a core's service state. -/
def coreSet (s : State) (c : Nat) (r : CoreRun) : State := { s with coreRun := Map.put s.coreRun CoreRun.live c r }
/-- A core is fenced: by fault (2) or by command (3). With the last core of a cluster fenced as a unit, the cluster is lost. -/
def coreFence (s : State) (c st unit : Nat) : State :=
  let was := s.cluFenced (c / 6)
  let s := (((s.coreStop c).coreSet c ⟨st, false, s.ft, unit⟩).wrF (R.CLU_CORE_MAP (c / 6)) (22 + c % 6) (22 + c % 6) 1).fenceBits (c / 24)
  let s := if !was && s.cluFenced (c / 6) then s.clusterLost (c / 6) else s
  (s.raise (0x130 + c / 24) 1).stopHomed c
/-- Cores whose fence command waits are fenced once they run no operator (R478). -/
def fenceSettle (s : State) : State :=
  ((s.coreRun.filter (fun p => p.2.stop)).map (·.1)).foldl (fun u c => if u.coreBusy c then u else u.coreFence c 3 (u.core c).unit) s
/-- Has the cluster of a core its spare (R102)? -/
def spareLeft (s : State) (c : Nat) : Bool := s.rdB (R.CLU_CORE_MAP (c / 6)) 21
/-- The sequence of R477 begins: the core stops, its parts end, dispatch is held; with no spare left it is fenced. -/
def coreOut (s : State) (c : Nat) : State :=
  let s := (s.endParts [c] [] 3).coreStop c
  if s.spareLeft c then s.coreSet c ⟨1, false, s.ft, 0⟩
  else (s.raise (0x130 + c / 24) 2).coreFence c 2 0
/-- A fence command on cores (R478): dispatch stops at once; idle cores are fenced. -/
def fenceCmd (s : State) (cs : List Nat) (unit : Nat) : State :=
  (cs.foldl (fun u c => if (u.core c).st = 0 then u.coreSet c ⟨0, true, u.ft, unit⟩
                        else if 1 ≤ unit ∧ (u.core c).st = 3 then u.coreSet c { u.core c with unit := max unit (u.core c).unit } else u) s).fenceSettle
/-- CMD_ERR of a CDIE page (R486). -/
def cdieErr (s : State) (d : Nat) : State := (s.ignoredWrite (R.CDIE_FENCE_CMD d)).setBits (R.CDIE_ERR d) 1
/-- The unit is live again, its SRAM cleared. -/
def unfence (s : State) (d : Nat) (cs : List Nat) : State :=
  (cs.foldl (fun u c => ((u.coreSet c CoreRun.live).coreClear c).wrF (R.CLU_CORE_MAP (c / 6)) (22 + c % 6) (22 + c % 6) 0) s).fenceBits d

end State

/-! ### Commands -/

/-- CLOCK_REF_LOST (R18, R383): fatal for the system and SerDes references; for the OCXO the TIM runs on the system reference. -/
def execClockRefLost (r : ClkRef) (s : State) : Out := keepQueue s <|
  match r with
  | .sys => .next (({ s with clk := { s.clk with sysLost := true } } : State).fatalEnd 1 24)
  | .serdes => .next (({ s with clk := { s.clk with serdesLost := true } } : State).fatalEnd 1 24)
  | .ocxo => .next ((({ s with clk := { s.clk with ocxoLost := true } } : State).setBits R.TIM_STAT 0x02000000#32).setBits R.TIM_ERR 4)

/-- POWER_ON (R466, R468): the main input is applied: a power-on reset, up to BOOT. -/
def execPowerOn (aux : Bool) (s : State) : Out := keepQueue s <|
  let r := s.powerLost
  let r : State := { r with pwr := { r.pwr with main := true } }
  .next (((if aux then r.setBits R.PWR_STAT 0x00400000#32 else r).wr R.PWR_RESET_CAUSE 1).bump (R.PWR_RUNG_TIME 5))

/-- MOD_RST_N (R454, R464, R468). -/
def execModRstN (s : State) : Out := keepQueue s <|
  if s.pwr.main then .next (s.packageReset 1)
  else .next ({ s with pwr := { s.pwr with locked := false, alertHeld := false } }.clrBits R.PWR_STAT 0x00800000#32)

/-- PKG_RESET (R468): a write of PWR_CMD. -/
def execPkgReset (s : State) : Out := keepQueue s <|
  let s := s.countWrite 5 false
  if s.pwr.main && !s.pwr.locked then .next (s.packageReset 2) else .next s

/-- BOOT_FALLBACK (R430, R431, R482): during BOOT, a stage's image fails, or READY is late. A stage that runs its TRY image goes back
to the other slot by a reset; one that has no image left to try waits for one. -/
def execBootFallback (stage : Nat) (s : State) : Out := keepQueue s <|
  if s.semState ≠ 0 ∨ s.rdB R.SEM_STAT 25 = true ∨ stage < 1 ∨ 5 < stage ∨ s.rung = 4 then .next s
  else if (Map.get? s.sem.running stage).isSome then
    let s := (s.clrBits R.PWR_FW_STAT (BitVec.ofNat 32 (2 ^ (7 + stage)))).setBits R.PWR_FW_STAT 0x10000#32
    .next (({ s with sem := { s.sem with raises := s.sem.raises.filter (· != stage) } } : State).packageReset 4)
  else if stage = 1 then .next (s.semError 1)
  else .next (s.setBits R.SEM_STAT 0x00400000#32)

/-- RUNG_REQUEST (R456): a write of PWR_RUNG_REQ. -/
def execRungRequest (v : Word32) (s : State) : Out := keepQueue s <|
  let s := s.plainWrite R.PWR_RUNG_REQ v
  let r := fld v 2 0
  if s.inFatal ∧ s.rung ≠ 4 then .next s
  else if s.rungCode r then .next (s.rungAsk r) else .next s.rungErr

/-- RUNG_ENTRY (R457, R459): the 1 µs re-test. -/
def execRungEntry (s : State) : Out := keepQueue s <|
  match s.pwr.want with
  | some r => if s.rung < r ∧ s.rungMay r = true ∧ s.inFatal = false then .next (s.rungDown r) else .next s
  | none => .next s

/-- AUTO_WAKE (R458). -/
def execAutoWake (s : State) : Out := keepQueue s <|
  if 1 ≤ s.rung ∧ s.rung ≤ 3 ∧ s.rdB R.PWR_RUNG_CTL 0 = true ∧ s.inFatal = false ∧ s.rdB R.PWR_STAT 27 = true then .next (s.rungRise 0) else .next s

/-- MAIN_UNDERVOLTAGE (R454). -/
def execMainUndervoltage (s : State) : Out := keepQueue s <|
  let s := s.pwrErr 4
  .next ({ s with pwr := { s.pwr with main := false } } : State).railsOff

/-- MAIN_OVERVOLTAGE (R454): Sleep until MOD_RST_N. -/
def execMainOvervoltage (s : State) : Out := keepQueue s <|
  let s := s.pwrErr 8
  let s : State := { s with pwr := { s.pwr with locked := true } }
  .next (if s.rung = 4 then s else s.sleepNow)

/-- RAIL_FAULT (R454, R474). -/
def execRailFault (die : Nat) (s : State) : Out := keepQueue s <| .next (s.fatalEnd 6 die)

/-- POWER_LADDER_STEP (R461, R464): the readings of this 100 µs, and the step they lead to. -/
def execPowerLadderStep (p high vin aux : Nat) (s : State) : Out := keepQueue s <|
  let s := (s.wr R.PWR_POWER (BitVec.ofNat 32 (p % 4096 + high % 4096 * 65536))).wr R.PWR_VIN (BitVec.ofNat 32 (vin % 65536 + aux % 65536 * 65536))
  let s : State := { s with pwr := { s.pwr with tel := State.telAdd s.pwr.tel (p % 4096) (high % 4096), tel100 := State.telAdd s.pwr.tel100 (p % 4096) (high % 4096) } }
  if s.rung = 4 then .next s.telClose else .next (((s.ladderStep (p % 4096)).thermalStep).ladderBits).telClose

/-- POWER_OVERLOAD (R462). -/
def execPowerOverload (s : State) : Out := keepQueue s <|
  .next ((((List.range 16).foldl (fun u d => u.clkSet d 800) s).ladderBits.pwrErr 16).raise 0x05 5)

/-- THERMAL_THROTTLE (R463, R464): a reading; over the throttle threshold its sensor throttles. -/
def execThermalThrottle (sensor : Nat) (temp : Byte) (s : State) : Out := keepQueue s <|
  if 40 < sensor then .next s
  else
    let s := s.tempSet sensor temp
    if s.throttleAt (State.sensorKind sensor) < temp.toInt then
      .next (({ s with pwr := { s.pwr with hot := (sensor :: s.pwr.hot.filter (· != sensor)) } } : State).setBits R.PWR_STAT 0x01000000#32 |>.raise 0x05 1)
    else .next s

/-- THERMAL_ALERT (R463, R464). -/
def execThermalAlert (sensor : Nat) (temp : Byte) (s : State) : Out := keepQueue s <|
  if 40 < sensor then .next s
  else
    let s := s.tempSet sensor temp
    if s.alertAt (State.sensorKind sensor) ≤ temp.toInt then
      .next (({ s with pwr := { s.pwr with alerts := (sensor :: s.pwr.alerts.filter (· != sensor)) } } : State).setBits R.PWR_STAT 0x00800000#32 |>.raise 0x05 2)
    else .next s

/-- THERMAL_SHUTDOWN (R463, R464, R474): the lid has no such threshold. -/
def execThermalShutdown (sensor : Nat) (temp : Byte) (s : State) : Out := keepQueue s <|
  if 40 < sensor then .next s
  else
    let s := s.tempSet sensor temp
    let k := State.sensorKind sensor
    if k = 1 ∨ temp.toInt < (if k = 0 then 115 else 105) then .next s
    else
      let s : State := { s with pwr := { s.pwr with alertHeld := true } }
      .next ((s.setBits R.PWR_STAT 0x00800000#32).fatalEnd 7 (if k = 0 then sensor else 16 + (sensor - 29) / 2))

/-- THERMAL_CONDITION_END (R463, R464): every sensor of a kind is 5 °C below the threshold; those last read above that are to be
read anew (log entry 41). THERM_ALERT_N stays where a shut-down holds it. -/
def execThermalConditionEnd (kind : Nat) (alert : Bool) (s : State) : Out := keepQueue s <|
  let lim := (if alert then s.alertAt kind else s.throttleAt kind) - 5
  let s : State := { s with pwr := { s.pwr with temps := s.pwr.temps.filter (fun p => !(State.sensorKind p.1 == kind && decide (lim < p.2.toInt))) } }
  if alert then
    let s : State := { s with pwr := { s.pwr with alerts := s.pwr.alerts.filter (fun i => State.sensorKind i != kind) } }
    .next (if s.pwr.alerts.isEmpty && !s.pwr.alertHeld then s.clrBits R.PWR_STAT 0x00800000#32 else s)
  else
    let s : State := { s with pwr := { s.pwr with hot := s.pwr.hot.filter (fun i => State.sensorKind i != kind) } }
    .next (if s.pwr.hot.isEmpty then s.clrBits R.PWR_STAT 0x01000000#32 else s)

/-- FATAL_ERROR (R473, R474). -/
def execFatalError (cause die : Nat) (s : State) : Out := keepQueue s <|
  if 1 ≤ cause ∧ cause ≤ 7 then .next (s.fatalEnd cause die) else .next s

/-- AUXILIARY_INPUT_CHANGE (R453, R455). -/
def execAuxiliaryInputChange (on : Bool) (s : State) : Out := keepQueue s <|
  if on then .next (s.setBits R.PWR_STAT 0x00400000#32)
  else
    let s := s.clrBits R.PWR_STAT 0x00400000#32
    .next (if s.pwr.main then s else s.powerOff)

/-- CORE_FAULT (R471, R477). -/
def execCoreFault (c : Nat) (s : State) : Out := keepQueue s <|
  if c < 384 ∧ (s.core c).st = 0 then .next ((s.errLatch (0x200 + c) 2 0).coreOut c) else .next s

/-- CORE_SUBST_DONE (R102, R403, R477): the spare is in place of the core; its generators restart. -/
def execCoreSubstDone (c : Nat) (s : State) : Out := keepQueue s <|
  if c < 384 ∧ (s.core c).st = 1 ∧ s.spareLeft c = true then
    let a := R.CLU_CORE_MAP (c / 6)
    let slot := s.rdF a 20 18
    let s := (((s.coreClear c).wrF a (3 * (c % 6) + 2) (3 * (c % 6)) slot).wrF a 20 18 7).wrF a 21 21 0
    let gs := (List.range 4).map (fun i => 4 * c + i) ++ State.coreLanes c
    let s : State := { s with
      rng := { s.rng with
        gens := s.rng.gens.filter (fun p => !gs.contains p.1)
        pend := s.rng.pend.filter (fun i => !gs.contains i)
        rewinds := s.rng.rewinds.filter (fun i => !gs.contains i) }
      pwr := { s.pwr with fwOld := s.pwr.fwOld.filter (· != c), fwSwitch := s.pwr.fwSwitch.filter (· != c) } }
    .next ((((s.coreSet c CoreRun.live).seedEnd).bump (R.CDIE_SUBST_CNT (c / 24))).raise (0x130 + c / 24) 0)
  else .next s

/-- UNIT_FAULT (R476): a compute die, or a cluster, is fenced by fault. -/
def execUnitFault (die : Bool) (n : Nat) (s : State) : Out := keepQueue s <|
  if die then
    (if n < 16 then
       let cs := (List.range 24).map (fun i => 24 * n + i)
       let s := (s.errLatch (0x130 + n) 2 0).endParts cs ((List.range 4).map (fun j => 4 * n + j)) 6
       .next (cs.foldl (fun u c => u.coreFence c 2 2) s)
     else .next s)
  else
    (if n < 64 then
       let cs := (List.range 6).map (fun i => 6 * n + i)
       let s := (s.errLatch (0x140 + n) 2 0).endParts cs [n] 4
       .next (cs.foldl (fun u c => u.coreFence c 2 (max 1 (u.core c).unit)) s)
     else .next s)

/-- FENCE_CORE (R478): the selected core, which must lie on the die and be live. -/
def execFenceCore (d : Nat) (s : State) : Out := keepQueue s <|
  let c := s.rdF (R.CDIE_CORE_SEL d) 8 0
  if 16 ≤ d then .next s
  else if c / 24 = d ∧ (s.core c).st = 0 then .next ((s.countWrite (0x130 + d) false).fenceCmd [c] 0) else .next (s.cdieErr d)

/-- FENCE_CLUSTER (R478). -/
def execFenceCluster (d : Nat) (s : State) : Out := keepQueue s <|
  let u := s.rdF (R.CDIE_CORE_SEL d) 5 0
  if 16 ≤ d then .next s
  else if u / 4 = d ∧ s.cluFenced u = false then .next ((s.countWrite (0x130 + d) false).fenceCmd ((List.range 6).map (fun i => 6 * u + i)) 1)
  else .next (s.cdieErr d)

/-- FENCE_DIE (R478). -/
def execFenceDie (d : Nat) (s : State) : Out := keepQueue s <|
  if 16 ≤ d then .next s else .next ((s.countWrite (0x130 + d) false).fenceCmd ((List.range 24).map (fun i => 24 * d + i)) 2)

/-- UNFENCE (R478): the selected core where it was fenced by itself, else the selected cluster, else the die (log entry 43); a unit not
fenced by command sets CMD_ERR. -/
def execUnfence (d : Nat) (s : State) : Out := keepQueue s <|
  let c := s.rdF (R.CDIE_CORE_SEL d) 8 0
  let u := s.rdF (R.CDIE_CORE_SEL d) 5 0
  let of (n base unit : Nat) : List Nat := ((List.range n).map (fun i => base + i)).filter (fun k => (s.core k).st == 3 && (s.core k).unit == unit)
  if 16 ≤ d then .next s
  else
    let cs := if c / 24 = d ∧ (of 1 c 0) ≠ [] then [c]
              else if u / 4 = d ∧ (of 6 (6 * u) 1) ≠ [] then of 6 (6 * u) 1
              else of 24 (24 * d) 2
    if cs = [] then .next (s.cdieErr d) else .next ((s.countWrite (0x130 + d) false).unfence d cs)

/-- SPARE_SWAP (R478): the sequence of R477 on a live core, while a spare remains. -/
def execSpareSwap (d : Nat) (s : State) : Out := keepQueue s <|
  let c := s.rdF (R.CDIE_CORE_SEL d) 8 0
  if 16 ≤ d then .next s
  else if c / 24 = d ∧ (s.core c).st = 0 ∧ s.spareLeft c = true then .next ((s.countWrite (0x130 + d) false).coreOut c) else .next (s.cdieErr d)

/-- FENCE_TIMEOUT (R478): operators still on a core whose fence waits end with HW_FAULT, and it is fenced. -/
def execFenceTimeout (c : Nat) (s : State) : Out := keepQueue s <|
  let r := s.core c
  if c < 384 ∧ r.stop = true ∧ r.at_.toNat + s.rdF (R.CDIE_FENCE_TMO (c / 24)) 19 0 * 4000 ≤ s.ft.toNat then
    .next ((s.endParts [c] (if r.unit = 0 then [] else [c / 6]) 3).coreFence c 3 r.unit)
  else .next s

end Sys2Proof.Machine
end

