-- ==== Sys2Proof/Machine/Rle.lean ====
section
/-! DEFINITION. Chapter 12: re-layout and shard transfer (R352 to R360, R363, R372). -/
namespace Sys2Proof.Machine
open Sys2Proof

/-! ### Pieces and their wire form (R353, R356) -/

/-- Bytes of a plain element. -/
def elemB (fmt : Nat) : Nat := if fmt = 0 then 4 else if fmt = 1 then 2 else 1

/-- The plain payload's numbers, row by row (R356, R358). -/
def wireNums (fmt rows cols : Nat) (b : List Byte) : List (List XNum) :=
  let f := (fmtOf fmt).getD .int8
  if fmt = 8 then
    let bl := (cols + 31) / 32
    (List.range rows).map (fun r => (List.range cols).map (fun c =>
      f.scaled (b.getD (r * bl + c / 32) 0).toNat (b.getD (rows * bl + r * cols + c) 0).toNat))
  else
    (List.range rows).map (fun r => (List.range cols).map (fun c => f.elem (leNat ((b.drop (elemB fmt * (r * cols + c))).take (elemB fmt)))))

/-- Bytes of a plain payload. -/
def wireLen (fmt rows cols : Nat) : Nat := if fmt = 8 then rows * ((cols + 31) / 32) + rows * cols else elemB fmt * rows * cols

/-- How many elements a block cast saturates. -/
def blockSats (f : Fmt) (xs : List XNum) : Nat :=
  let a := amax xs
  if xs.any (fun x => x.isNan || x.isInf) || a.isZero then 0
  else
    let e := blockExp f a
    let k := if f = .mxint8 then 6 - e else -e
    (xs.filter (fun x => (castElem f .rne true (x.scale k)).2 &&& fSAT != 0)).length

/-- Writes of a conversion into a destination, as offsets and bytes, with its flags and saturated elements (R358, R359).
`k0`, `n0`: where the rows stand in the K × N matrix. -/
def rleWrites (fmt layout k n k0 n0 : Nat) (rows : List (List XNum)) : List (Nat × List Byte) × NumFlags × Nat :=
  let f := (fmtOf fmt).getD .int8
  let ni := niOfRows rows
  if 8 ≤ fmt then
    let blocks : List (Nat × Nat × List XNum) :=     -- offset of the group, index of the block in it, values
      if layout = 1 then
        (List.range (rows.headD []).length).map (fun c =>
          ((n0 + c) * (k / 1024) * groupBytes fmt + k0 / 1024 * groupBytes fmt, k0 % 1024 / 32, rows.map (fun r => r.getD c .nan)))
      else
        (rows.zip (List.range rows.length)).flatMap (fun p => (List.range (p.1.length / 32)).map (fun b =>
          let e := (k0 + p.2) * n + n0 + 32 * b
          (e / 1024 * groupBytes fmt, e % 1024 / 32, (p.1.drop (32 * b)).take 32)))
    let outs := blocks.map (fun q => (q, castBlock f (q.2.2.map (fun _ => .rne)) q.2.2))
    (outs.flatMap (fun o => [(o.1.1 + o.1.2.1, [BitVec.ofNat 8 o.2.1]),
                             (o.1.1 + 32 + o.1.2.1 * 32 * f.ebits / 8, State.elemBytes f [] o.2.2.1)]),
     ni ||| orFlags (outs.map (fun o => o.2.2.2)), (blocks.map (fun q => blockSats f q.2.2)).sum)
  else
    let es := (rows.zip (List.range rows.length)).flatMap (fun p => (p.1.zip (List.range p.1.length)).map (fun q =>
      let kk := k0 + p.2
      let nn := n0 + q.2
      let b := elemB fmt
      let off := if layout = 0 then (kk * n + nn) * b
                 else if layout = 1 then (nn * k + kk) * b
                 else (nn / 64 * ((k + panelKp fmt - 1) / panelKp fmt) + kk / panelKp fmt) * 65536 + kk % panelKp fmt * (64 * b) + nn % 64 * b
      (off, castElem f .rne true q.1)))
    (es.map (fun e => (e.1, leBytes (elemB fmt) e.2.1)), ni ||| orFlags (es.map (fun e => e.2.2)), (es.filter (fun e => e.2.2 &&& fSAT != 0)).length)
where
  /-- NI where an element read is NaN. -/
  niOfRows (rows : List (List XNum)) : NumFlags := if rows.any (fun r => r.any XNum.isNan) then fNI else fNone

/-- XOR of two byte strings, word by word, as the words of the coding (R360). -/
def xorWords4 (a b : List Byte) : List Nat :=
  (List.range ((a.length + 3) / 4)).map (fun i => Nat.xor (leNat ((a.drop (4 * i)).take 4)) (leNat ((b.drop (4 * i)).take 4)))

namespace State

/-- The MPD, as 0–5, that serves a tile: by its frame, or by the stack placement tries first (R150, R160). -/
def mpdOfTile (s : State) (n : Nat) : Nat :=
  let t := s.tile n
  if t.st = .dram ∨ t.st = .movingD then stackOf t.loc / 2
  else (placeOrder (fld (s.rgn (n / 65536)) 27 24) n).headD 0 / 2

/-! ### RLE descriptors (R352, R353) -/

/-- A descriptor from its 64 bytes. -/
def rleOf (b : List Byte) : RleDesc :=
  let q (i n : Nat) : Nat := leNat ((b.drop i).take n)
  ⟨q 2 1 == 1, (q 3 1).testBit 0, q 4 1, q 5 1, q 6 1, q 7 1, q 8 8, q 0x10 4, q 0x14 4, q 0x18 4, q 0x1C 4, q 0x20 4, q 0x24 2, q 0x26 2,
   q 0x28 8, q 0x30 8, q 0x38 8⟩

/-- Rows and columns of a SEND's part at its receiver: a rectangle that does not end on the grid ends at the part's edge; where it
does, how the sender knows the part is not stated (log entry 34). -/
def partShape (d : RleDesc) : Nat × Nat :=
  let r := d.dest % 2 ^ 32
  let c := d.dest / 2 ^ 32
  (if d.rows % 32 ≠ 0 then r + d.rows else Config.partRows d.mbr d.part,
   if d.ncol % pieceCols d.srcFmt ≠ 0 then c + d.ncol else Config.partCols d.mbr d.part)

/-- The pieces of a rectangle, in ascending q: row and column in the grid of the rectangle. -/
def rectPieces (d : RleDesc) : List (Nat × Nat) :=
  (List.range ((d.rows + 31) / 32)).flatMap (fun i => (List.range ((d.ncol + pieceCols d.srcFmt - 1) / pieceCols d.srcFmt)).map (fun j => (i, j)))

/-- Read and check an RLE_CONVERT record (R352, R353). A breach of either is OPERAND; an address its tenant may not use is refused by its
own code (R25, R143). -/
def convOf (s : State) (o : RunOp) : Except Err RleDesc := do
  let c := o.cmd
  let b ← s.block64 o.tenant c.w0
  let d := rleOf b
  let fl := (b.getD 3 0).toNat
  need (CmdRecF.ncoreM1 c == 0 && c.w3 == 0 && c.w4 == 0 && c.w5 == 0 && c.w6 == 0 && c.w7 == 0 && leNat (b.take 2) == 1 &&
    decide ((b.getD 2 0).toNat < 2) && (d.srcFmt == 0 || d.srcFmt == 1 || d.srcFmt == 3 || d.srcFmt == 8) && (d.rle < 6 || d.rle == 0xFF) &&
    1 ≤ d.srcCols && d.srcCols ≤ 65536 && 1 ≤ d.rows && 1 ≤ d.ncol && decide (d.col0 + d.ncol ≤ d.srcCols) &&
    (d.srcFmt != 8 || (d.srcCols % 32 == 0 && d.col0 % 32 == 0)) && d.commit % 64 == 0) 3
  match (if d.commit = 0 then none else s.localOk o.tenant d.commit 64 false) with
  | some e => .error e
  | none => pure ()
  if d.send then do
    let sh := partShape d
    let r := d.dest % 2 ^ 32
    let cc := d.dest / 2 ^ 32
    need (fl < 2 && d.dstFmt == 0 && d.layout == 0 && d.commit != 0 && (d.coded || d.ref == 0) && r % 32 == 0 && cc % pieceCols d.srcFmt == 0 &&
      (d.rows % 32 == 0 || r + d.rows == sh.1) && (d.ncol % pieceCols d.srcFmt == 0 || cc + d.ncol == sh.2)) 3
    if d.coded then do
      need (d.ref % 64 == 0) 3
      match s.localOk o.tenant d.ref (64 + (rectPieces d).length * 67584) true with
      | some e => .error e
      | none => need (leNat (s.bytesAt d.ref 4) != 0) 3
  else
    need (fl == 0 && d.mbr == 0 && d.part == 0 && d.ref == 0 && rleLayoutOk d.dstFmt d.layout d.rows d.ncol &&
      (d.layout != 2 || d.dest % tileBytes == 0)) 3
    match s.localOk o.tenant d.dest (rleBytes d.dstFmt d.layout d.rows d.ncol) true with
    | some e => .error e
    | none => pure ()
  pure d

/-- Address of a source element, and in MXFP8 of its scale byte. -/
def srcElem (d : RleDesc) (r c : Nat) : Nat × Nat :=
  let e := r * d.srcCols + c
  if d.srcFmt = 8 then (d.src + e / 1024 * 1056 + 32 + e % 1024, d.src + e / 1024 * 1056 + e % 1024 / 32)
  else (d.src + e * elemB d.srcFmt, 0)

/-- Source ranges of a piece's rows. -/
def srcSpans (d : RleDesc) (r0 rows c0 cols : Nat) : List (Nat × Nat) :=
  (List.range rows).flatMap (fun i =>
    if d.srcFmt = 8 then (List.range ((cols + 31) / 32)).flatMap (fun b => [((srcElem d (r0 + i) (c0 + 32 * b)).2, 1), ((srcElem d (r0 + i) (c0 + 32 * b)).1, min 32 (cols - 32 * b))])
    else [((srcElem d (r0 + i) c0).1, cols * elemB d.srcFmt)])

/-- The wire form of a piece of the source: rows from `r0`, columns from `c0` (R356). -/
def wireOf (s : State) (d : RleDesc) (r0 rows c0 cols : Nat) : List Byte :=
  let sc := if d.srcFmt = 8 then (List.range rows).flatMap (fun i => (List.range ((cols + 31) / 32)).flatMap (fun b =>
      s.bytesAt (srcElem d (r0 + i) (c0 + 32 * b)).2 1)) else []
  sc ++ (List.range rows).flatMap (fun i =>
    if d.srcFmt = 8 then (List.range ((cols + 31) / 32)).flatMap (fun b => s.bytesAt (srcElem d (r0 + i) (c0 + 32 * b)).1 (min 32 (cols - 32 * b)))
    else s.bytesAt (srcElem d (r0 + i) c0).1 (cols * elemB d.srcFmt))

/-- Count a conversion on an RLE (R358, R372). -/
def rleCount (s : State) (k inB outB sat pieces : Nat) : State :=
  (((s.add64 (R.RLE_IN_BYTES_LO k) inB).add64 (R.RLE_OUT_BYTES_LO k) outB).bump (R.RLE_PIECE_CNT k) pieces).bump (R.RLE_SAT_CNT k) sat

/-- The RLE of a record: the one named, or that of the MPD serving the first source tile (R352). -/
def rleIdx (s : State) (d : RleDesc) : Nat :=
  if d.rle < 6 then d.rle else s.mpdOfTile ((srcElem d d.row0 d.col0).1 / tileBytes)

/-! ### LOCAL (R355, R358) -/

/-- A LOCAL conversion whose fence has passed: TURN, DETAIL 0x08 where a reduction still owns part of the destination. -/
def convLocal (s : State) (h : Nat) (o : RunOp) (d : RleDesc) : Except Err State :=
  let n := rleBytes d.dstFmt d.layout d.rows d.ncol
  if spansMeet [(d.dest, n)] s.pendExtents then .error (.of 0x17 8)
  else
    let sp := srcSpans d d.row0 d.rows d.col0 d.ncol
    match sp.findSome? (fun r => s.readErr o.tenant r.1 r.2) with
    | some e => .error e
    | none =>
      let bad := sp.any (fun r => s.anyPoison r.1 r.2)
      let w := s.wireOf d d.row0 d.rows d.col0 d.ncol
      let x := rleWrites d.dstFmt d.layout d.rows d.ncol 0 0 (wireNums d.srcFmt d.rows d.ncol w)
      let kp := panelKp d.dstFmt
      let pad : List (Nat × List Byte) := if d.layout = 2 ∧ d.rows % kp ≠ 0 then
          (List.range (d.ncol / 64)).map (fun p => ((p * ((d.rows + kp - 1) / kp) + d.rows / kp) * 65536 + d.rows % kp * (64 * elemB d.dstFmt),
            List.replicate ((kp - d.rows % kp) * (64 * elemB d.dstFmt)) 0)) else []
      match putAll h o.tenant bad (.ok s) ((x.1 ++ pad).map (fun p => ((d.dest + p.1 : Nat), p.2))) with
      | .error e => .error e
      | .ok u => .ok (((u.opFlags h x.2.1).rleCount (s.rleIdx d) w.length n x.2.2
          ((d.rows + 31) / 32 * ((d.ncol + pieceCols d.srcFmt - 1) / pieceCols d.srcFmt))).markPoison h bad d.src)

/-! ### SEND (R356, R357, R360) -/

/-- The body of a shard-transfer message (R356). -/
def shardBody (version : Word32) (part b0e b0f q rows fmt cols : Nat) (refVer : Word32) (data : List Byte) : List Byte :=
  leBytes 4 version.toNat ++ leBytes 2 part ++ leBytes 1 b0e ++ leBytes 1 b0f ++ leBytes 4 q ++ leBytes 1 rows ++ leBytes 1 fmt ++
  leBytes 2 cols ++ leBytes 4 refVer.toNat ++ leBytes 4 data.length ++ leBytes 32 0 ++ data

/-- Send a piece. -/
def pieceSend (s : State) (who mbr : Nat) (m : ShardMsg) : State :=
  s.send ⟨mbr, s.srcField, 0, 0x40, 4, who, shardBody m.version m.part ((if m.coded then 1 else 0) + (if m.dup then 2 else 0)) 0 m.q m.rows m.srcFmt
    m.cols m.refVer m.data, false, if m.bad then rangeUnits 0 m.data.length else []⟩

/-- Issue pieces of a SEND while fewer than 256 are unacknowledged. A coded one is coded against REF, which then takes its wire
form (R360). A source that cannot be read ends it. -/
def sendPieces (h : Nat) : Nat → State → State
  | 0, s => s
  | fuel + 1, s =>
    match Map.get? s.convs h, s.op? h with
    | some r, some o =>
      match r.todo with
      | [] => s
      | (i, j) :: rest =>
        if 256 ≤ r.out.length ∨ (o.code ≠ 0 ∧ o.code ≠ 9) then s
        else
          let d := r.d
          let pc := pieceCols d.srcFmt
          let rows := min 32 (d.rows - 32 * i)
          let cols := min pc (d.ncol - pc * j)
          let sp := srcSpans d (d.row0 + 32 * i) rows (d.col0 + pc * j) cols
          match sp.findSome? (fun x => s.readErr o.tenant x.1 x.2) with
          | some e => s.opErr h e
          | none =>
            let w := s.wireOf d (d.row0 + 32 * i) rows (d.col0 + pc * j) cols
            let pcs := (d.ncol + pc - 1) / pc
            let slot := d.ref + 64 + (i * pcs + j) * 67584
            let bad := sp.any (fun x => s.anyPoison x.1 x.2) || (d.coded && s.anyPoison slot (up64 w.length))
            let data := if d.coded then codeWords (xorWords4 w (s.bytesAt slot (up64 w.length))) else w
            let s := if d.coded then (s.writeMarked o.tenant none slot w (if bad then rangeUnits slot w.length else [])).1 else s
            let sh := partShape d
            let q := (d.dest % 2 ^ 32 / 32 + i) * ((sh.2 + pc - 1) / pc) + d.dest / 2 ^ 32 / pc + j
            let m : ShardMsg := ⟨r.version, d.part, d.coded, false, q, rows, d.srcFmt, cols, if d.coded then r.refVer else 0, data, bad⟩
            let s := (if bad then s.opFaultAt h 9 0 ((sp.find? (fun x => s.anyPoison x.1 x.2)).elim d.src (fun x => s.firstPoison x.1 x.2)) else s).pieceSend o.tenant d.mbr m
            let s : State := { s with convs := Map.set s.convs h { r with todo := rest, out := r.out ++ [⟨m, 0, s.ft, false⟩] } }
            sendPieces h fuel s
    | _, _ => s

/-- The pieces still to send, and one more. -/
def sendFuel (s : State) (h : Nat) : Nat := match Map.get? s.convs h with | some r => r.todo.length + 1 | none => 0

/-! ### Fences (R354) -/

/-- Have the reductions an RLE_CONVERT waits for ended? -/
def fenceClear (s : State) (r : ConvRun) : Bool :=
  r.waitFor.all (fun p => let v := s.flock p.1
    !(v.run.any (fun c => c.cseq == p.2) || v.queue.any (fun c => c.cseq == p.2)))

/-- What the commit block says to a fenced record: 0 wait, 1 pass, 2 stale. -/
def fenceEpoch (s : State) (r : ConvRun) : Nat :=
  if r.d.commit = 0 then 1
  else
    let com := s.cbCommitted r.d.commit
    let st := s.cbState r.d.commit
    let ok := r.fence ≤ com && (st == cbIdle || st == cbAcked)
    if r.d.send then
      (if r.fence < com ∨ (com = r.fence ∧ s.cbPending r.d.commit ≠ 0) then 2 else if ok then 1 else 0)
    else if ok then 1 else 0

/-- A record past its fence starts, where its RLE takes work (R354, R372) and none of its source is still to come from flash (R165). -/
def convBegin (s : State) (h : Nat) (o : RunOp) (r : ConvRun) : State :=
  if s.rdB (R.RLE_CTL (s.rleIdx r.d)) 0 then s
  else
  let o' := { o with touched := true }
  let s := if o.touched then s else (((s.opSet h o').readWord o.cmd.w0).readWord (BitVec.ofNat 64 r.d.commit)).readTiles
    (srcSpans r.d r.d.row0 r.d.rows r.d.col0 r.d.ncol) (.op h)
  if s.reading (.op h) then s
  else if r.d.send then
    let r : ConvRun := { r with passed := true, version := BitVec.ofNat 32 (s.cbGet r.d.commit 0x10 4),
                                refVer := if r.d.coded then BitVec.ofNat 32 (leNat (s.bytesAt r.d.ref 4)) else 0, todo := rectPieces r.d }
    let s : State := { s with convs := Map.set s.convs h r }
    sendPieces h (s.sendFuel h) s
  else
    match s.convLocal h o r.d with
    | .error e => s.opErr h e
    | .ok u => ({ u with convs := Map.set u.convs h { r with passed := true } } : State).opDone h 0 0

/-- An RLE_CONVERT record of one MODE (R352). One with no fence starts at once; one with a fence notes the reductions of its slots
that have their CSEQ. A MODE that is neither ends with OPERAND. -/
def convOp (s : State) (h : Nat) (send : Bool) : State :=
  match s.op? h with
  | none => s
  | some o =>
    if o.dispatched = true ∧ o.ran = false ∧ o.code = 0 ∧ o.cmd.opcode = 0x0801 then
      match Map.get? s.convs h with
      | some r => if r.passed = false ∧ r.fence = 0 ∧ r.d.send = send then s.convBegin h o r else s
      | none =>
        match s.convOf o with
        | .error e => s.opErr h e
        | .ok d =>
          if d.send ≠ send then s
          else
            let fence := o.cmd.w1.toNat
            let cs := s.slots.flatMap (fun e => if fence ≠ 0 ∧ bit o.cmd.w2 e.1 = true then
              (((match e.2.run with | some c => [c] | none => []) ++ e.2.queue).filter (·.reduces)).map (fun c => (e.1, c.cseq)) else [])
            let r : ConvRun := ⟨d, fence, cs, false, 0, 0, [], []⟩
            let s : State := { s with convs := Map.set s.convs h r }
            if fence = 0 then s.convBegin h o r else s
    else s

/-! ### Receiving (R357, R360, R363) -/

/-- Send SHARD_ACK. -/
def shardAck (s : State) (src own : Nat) (m : ShardMsg) : State :=
  s.send ⟨src, s.srcField, 0, 0x41, 4, own, shardBody m.version m.part 0 0 m.q 0 0 0 0 [], false, []⟩
/-- Send SHARD_NACK, counted on an RLE. -/
def shardNack (s : State) (src own reason k : Nat) (m : ShardMsg) : State :=
  (s.send ⟨src, s.srcField, 0, 0x42, 4, own, shardBody m.version m.part 0 reason m.q 0 0 0 0 [], false, []⟩).bump (R.RLE_NACK_CNT k)

/-- A frame for staging tile `n` (R363): in the stack of its current frame, or by placement; else the next live stack. -/
def stageFrame (s : State) (n : Nat) : Option Nat :=
  let t := s.tile n
  let order := placeOrder (fld (s.rgn (n / 65536)) 27 24) n
  (((if t.st = .dram then [stackOf t.loc] else []) ++ order).filter s.stackLive).findSome? s.freeFrame

/-- Staging frames for the tiles a piece touches that have none; none where they cannot all be had. Bytes past the destination's
whole elements are undefined. -/
def stageTake (s : State) (t : Turn) (p : TurnPart) (ns : List Nat) : Option State :=
  ns.foldl (fun acc n =>
    match acc with
    | none => none
    | some u =>
      if u.stageFrames.any (fun q => q.2 == n) then some u
      else if t.stageMax ≤ u.stageFrames.length ∨ u.dFree modelOwner = 0 then none
      else match u.stageFrame n with
        | none => none
        | some l =>
          let u := u.takeFrame l (.stage n) modelOwner
          let whole := if 8 ≤ p.dstFmt ∧ p.layout = 0 then p.k * p.n / 1024 * groupBytes p.dstFmt else rleBytes p.dstFmt p.layout p.k p.n
          let lo := max (n * tileBytes) (p.base + whole)
          let hi := (n + 1) * tileBytes
          some ((List.range (hi - lo)).foldl (fun (v : State) i => ({ v with mem := Mem.write v.mem (stageAt (lo + i)) [v.free.setWidth 8] } : State).used) u)) (some s)

/-- A piece is converted into its staging frames (R358, R360, R363), by the RLE of the MPD that holds the frame of its first
destination tile. -/
def pieceIn (s : State) (src own : Nat) (m : ShardMsg) (t : Turn) (i : Nat) (p : TurnPart) : State :=
  let pc := pieceCols p.srcFmt
  let k0 := m.q / p.pcols * 32
  let n0 := m.q % p.pcols * pc
  let n := wireLen m.srcFmt m.rows m.cols
  let refA := p.ref + m.q * 67584
  let wire : Option (List Byte) :=
    if m.coded then
      (wordsOf 32 ((n + 3) / 4 + 1) ((n + 3) / 4) m.data).map (fun ws =>
        ((xorWords4 (ws.flatMap (leBytes 4)) (s.bytesAt refA ((n + 3) / 4 * 4))).flatMap (leBytes 4)).take n)
    else if m.data.length = n then some m.data else none
  match wire with
  | none => s.shardNack src own 4 0 m
  | some w =>
    let x := rleWrites p.dstFmt p.layout p.k p.n k0 n0 (wireNums m.srcFmt m.rows m.cols w)
    let ns := (x.1.flatMap (fun q => tilesOf (p.base + q.1) q.2.length)).dedup
    match s.stageTake t p ns with
    | none => s.shardNack src own 2 0 m
    | some s =>
      let first := ((x.1.map (fun q => (p.base + q.1) / tileBytes)).foldl min (2 ^ 64))
      let k := match s.stageFrames.find? (fun q => q.2 == first) with | some q => stackOf q.1 / 2 | none => 0
      let bad := m.bad || (m.coded && s.anyPoison refA n)
      let s := x.1.foldl (fun (u : State) q =>
        let v := u.store (stageAt (p.base + q.1)) q.2
        if bad then v.markUnits (stageAt (p.base + q.1)) (rangeUnits (p.base + q.1) q.2.length) else v) s
      let s := s.rleCount k n ((x.1.map (fun q => q.2.length)).sum) x.2.2 1
      let s := if p.ref ≠ 0 then
          (let u := s.turnPut t.tenant refA (w ++ List.replicate ((n + 3) / 4 * 4 - n) 0)
           if bad then u.markUnits refA (rangeUnits refA n) else u)
        else s
      let p : TurnPart := { p with got := m.q :: p.got }
      let s := s.turnPut t.tenant (p.entry + 0x24) (leBytes 4 p.got.length)
      let t : Turn := { t with parts := t.parts.set i p }
      let s := ({ s with turn := some t } : State).opFlags t.op x.2.1
      let s := if t.parts.all (·.staged) then s.raiseAll rlePages 0 else s
      s.shardAck src own m

/-- The RLE a piece will be converted by: that of the MPD of the frame its first destination tile has, or would take. -/
def pieceRle (s : State) (p : TurnPart) (m : ShardMsg) : Nat :=
  let pc := pieceCols p.srcFmt
  let x := rleWrites p.dstFmt p.layout p.k p.n (m.q / p.pcols * 32) (m.q % p.pcols * pc)
    ((List.range m.rows).map (fun _ => List.replicate m.cols XNum.zero))
  let n := (x.1.map (fun q => (p.base + q.1) / tileBytes)).foldl min (2 ^ 64)
  match s.stageFrames.find? (fun q => q.2 == n) with
  | some q => stackOf q.1 / 2
  | none => match s.stageFrame n with | some l => stackOf l / 2 | none => 0

/-- A SHARD_DATA arrives (R356, R357, R363). `again`: it comes from the queue of an RLE that was held. -/
def shardIn (s : State) (src own : Nat) (m : ShardMsg) (again : Bool) : State :=
  match s.turn with
  | none => s.shardNack src own (if s.turnLast = some m.version then 5 else 1) 0 m
  | some t =>
    if m.version ≠ t.version then
      s.shardNack src own 4 0 m
    else match t.parts[m.part]? with
      | none => s.shardNack src own 4 0 m
      | some p =>
        let pc := pieceCols p.srcFmt
        if m.srcFmt ≠ p.srcFmt ∨ p.pieces ≤ m.q ∨ m.rows ≠ min 32 (p.k - m.q / p.pcols * 32) ∨ m.cols ≠ min pc (p.n - m.q % p.pcols * pc) then
          s.shardNack src own 4 0 m
        else if p.got.contains m.q then (s.shardAck src own m).bump (R.RLE_DUP_CNT (s.pieceRle p m))
        else if ¬(t.st = 1 ∨ (t.st = 2 ∧ t.stream = true)) then s.shardNack src own 5 0 m
        else if m.coded = true ∧ (p.ref = 0 ∨ m.refVer ≠ p.refVer) then s.shardNack src own 3 0 m
        else if s.rdB (R.RLE_CTL (s.pieceRle p m)) 0 then
          (if again then s else { s with rleQ := s.rleQ ++ [(src, own, m)] })
        else s.pieceIn src own m t m.part p

/-- An RLE takes work again: the pieces that waited are taken in order; those whose RLE is still held stay. -/
def rleDrain (s : State) : State :=
  let l := s.rleQ
  l.foldl (fun u x => u.shardIn x.1 x.2.1 x.2.2 false) { s with rleQ := [] }

/-- A SEND that ends writes its reference header: VERSION where it ended with OK, else 0 (R360). -/
def convEnd (s : State) (h : Nat) (o : RunOp) : State :=
  match Map.get? s.convs h with
  | none => s
  | some r =>
    let s : State := { s with convs := Map.erase s.convs h }
    if r.d.send && r.d.coded then (s.writeRange o.tenant none r.d.ref (leBytes 4 (if o.code = 0 then r.version.toNat else 0))).1 else s

/-- The SEND an answer is for: to this member, of this version and part, with the piece out. -/
def sendFor (s : State) (src own : Nat) (version : Word32) (part q : Nat) : Option (Nat × ConvRun) :=
  s.convs.find? (fun e => e.2.d.send && e.2.d.mbr == src && e.2.d.part == part && e.2.version == version && e.2.out.any (fun x => x.m.q == q) &&
    (s.op? e.1).any (fun o => o.tenant == own))

end State

/-- RLE_CONVERT_LOCAL (R355, R358). -/
def execRleConvertLocal (h : Nat) (s : State) : Out := keepQueue s <| .next (s.convOp h false)
/-- RLE_CONVERT_SEND (R352, R357). -/
def execRleConvertSend (h : Nat) (s : State) : Out := keepQueue s <| .next (s.convOp h true)

/-- RLE_FENCE_PASS (R354): the reductions have ended and the epoch is committed; or a SEND finds its source stale. -/
def execRleFencePass (h : Nat) (s : State) : Out := keepQueue s <|
  match Map.get? s.convs h, s.op? h with
  | some r, some o =>
    if r.passed = false ∧ r.fence ≠ 0 ∧ o.code = 0 then
      if s.fenceEpoch r = 2 then .next ((s.setBits R.RLE_ERR 2).opDone h 0x17 6)
      else if s.fenceClear r = true ∧ s.fenceEpoch r = 1 then .next (s.convBegin h o r)
      else .next s
    else .next s
  | _, _ => .next s

/-- SHARD_DATA (R357, R363). -/
def execShardData (src own : Nat) (m : ShardMsg) (s : State) : Out := keepQueue s <| .next (s.shardIn src own m false)

/-- SHARD_ACK (R357). -/
def execShardAck (src own : Nat) (version : Word32) (part q : Nat) (s : State) : Out := keepQueue s <|
  match s.sendFor src own version part q with
  | some (h, r) =>
    let r : ConvRun := { r with out := r.out.filter (fun x => x.m.q != q) }
    let s : State := { s with convs := Map.set s.convs h r }
    if r.out = [] ∧ r.todo = [] then .next (s.opDone h 0 0) else .next (State.sendPieces h (s.sendFuel h) s)
  | none => .next s

/-- SHARD_NACK (R356). -/
def execShardNack (src own : Nat) (version : Word32) (part q reason : Nat) (s : State) : Out := keepQueue s <|
  match s.sendFor src own version part q with
  | some (h, r) =>
    if reason = 1 ∨ reason = 2 then
      .next { s with convs := Map.set s.convs h { r with out := r.out.map (fun x => if x.m.q = q then { x with wait := true, since := s.ft } else x) } }
    else if reason = 3 then .next (s.opDone h 0x17 7)
    else if reason = 4 then .next (s.opDone h 0x17 9)
    else if reason = 5 then .next (s.opDone h 0x17 0x0A)
    else .next s
  | none => .next s

/-- SHARD_RESEND_TIMEOUT (R357): a piece delayed by NONE or WAIT after 100 µs, or unanswered for FBD_E2E_TMO, is sent again; after
FBD_E2E_TRIES of the latter the SEND ends with REMOTE. -/
def execShardResendTimeout (h q : Nat) (s : State) : Out := keepQueue s <|
  match Map.get? s.convs h, s.op? h with
  | some r, some o =>
    match r.out.find? (fun x => x.m.q == q) with
    | some x =>
      let due := if x.wait then x.since.toNat + 400000 else x.since.toNat + s.rdF R.FBD_E2E_TMO 15 0 * 4000
      if due ≤ s.ft.toNat ∧ (o.code = 0 ∨ o.code = 9) then
        if x.wait = false ∧ s.rdF R.FBD_E2E_TRIES 3 0 ≤ x.tries then .next (s.opDone h 0x11 3)
        else
          let m : ShardMsg := { x.m with dup := true }
          let y : OutPiece := ⟨m, if x.wait then x.tries else x.tries + 1, s.ft, false⟩
          .next (({ s with convs := Map.set s.convs h { r with out := r.out.map (fun z => if z.m.q = q then y else z) } } : State).pieceSend o.tenant r.d.mbr m)
      else .next s
    | none => .next s
  | _, _ => .next s

end Sys2Proof.Machine
end

