-- ==== Sys2Proof/Machine/Completion.lean ====
section
/-! DEFINITION. Chapter 04: how an operator ends: the completion its home core records (R113, R516), and its deadline (R116). -/
namespace Sys2Proof.Machine
open Sys2Proof

namespace State

/-- The flags of an operator are ORed into every engine, or MFU, that ran part of it (R67, R348). -/
def endFlags (s : State) (o : RunOp) : State :=
  let s := if CmdRecF.unit o.cmd ≤ 1 then o.numCtl.foldl (fun u p => u.engFlags p.1 o.flags) s else s
  if CmdRecF.unit o.cmd = 3 then
    (CmdRecF.units o.cmd).foldl (fun u m => (u.setBits (R.MFU_NUM_FLAG m) (o.flags.setWidth 32)).bump (R.MFU_OP_CNT m)) s
  else s

/-- The requests a VERIFY_STEP stepped, once it has ended (R298). -/
def stepped (s : State) (o : RunOp) : List Req :=
  ((s.requestsOf o.cmd).filterMap (fun r => s.req? r)).filter (fun q => q.st == 2 || q.st == 3)

/-- A VERIFY_STEP ends: its requests fail with it, or its time is held against its cost (R298, R388, R391). -/
def stepEnd (s : State) (h : Nat) (o : RunOp) (colt : Nat) : State :=
  match Map.get? s.gsteps h with
  | none => s
  | some g =>
    let s := if o.code ≠ 0 then s.stepFailed h o else if g.follow then s else s.stepMeasured (s.stepped o) colt
    { s with gsteps := Map.erase s.gsteps h }

/-- Nothing of an operator is left once it has completed: no stream, engine, access, copy of a generator, or old reader. -/
def opGone (s : State) (h : Nat) : State :=
  let s := (((s.cancelOpStreams h).freeEngines h).freeAccesses h).dropCopies h
  { s with turn := s.turn.map (fun t => { t with readers := t.readers.filter (· != h) }) }

/-- Is every part of an operator done, its writes visible, and nothing of it under way (R113, R120)? -/
def opEnded (s : State) (h : Nat) (o : RunOp) : Bool :=
  o.dispatched && o.parts.isEmpty && (o.code != 0 || !s.strm.any (fun p => p.2.op == h)) && (o.ran || (o.code != 0 && !s.inExchange h)) && !s.opWaits h &&
  !s.slots.any (fun f => f.2.run.any (fun c => c.op == h) || f.2.queue.any (fun c => c.op == h)) && !s.turn.any (fun t => t.op == h)

end State

/-- OPERATOR_COMPLETE (R67, R113, R114, R116, R120, R406, R516): one past its deadline is stopped instead; `colt` is the time its Colt engines took, in ns, which a step is
measured by (R391). -/
def execOperatorComplete (h colt : Nat) (s : State) : Out := keepQueue s <|
  match s.op? h with
  | none => .next s
  | some o =>
    if o.code = 0 ∧ (s.deadlineOf o.cmd).any (fun d => decide (d < s.ft.toNat)) = true ∧ o.cmd.opcode ≠ 0x0800 ∧ s.opEnded h o = true then
      .next (s.stopOp h 7 2)
    else if s.opEnded h o then
      let s := ((((s.endFlags o).stepEnd h o colt).convEnd h o).epochEnd h o).opGone h
      .next (((s.used.complete h (s.recFields o)).genSwitch).fenceSettle)
    else .next s

/-- DEADLINE_EXPIRY (R116): a record not dispatched completes without running; a running operator stops. The turnover's own
record ends by the rules of R364. -/
def execDeadlineExpiry (h : Nat) (s : State) : Out := keepQueue s <|
  match s.op? h with
  | none => .next s
  | some o =>
    if s.expired o.cmd = false then .next s
    else if o.dispatched = false then .next (s.completeUnrun h o 7 1)
    else match s.turn.filter (fun t => t.op == h) with
      | some t => .next (s.turnDeadline t)
      | none => if o.code = 0 ∧ (o.ran = false ∨ o.cmd.opcode ≠ 0x0800) then .next (s.stopOp h 7 2) else .next s

end Sys2Proof.Machine
end

