-- ==== Sys2Proof/Machine/Service.lean ====
section
/-! DEFINITION. Chapter 16: telemetry (R475), live firmware switches (R481), BULK messages (R483), and the optics of the reach cages
(R210, R215). -/
namespace Sys2Proof.Machine
open Sys2Proof

namespace State

/-- Units 1–3 of a TELEMETRY item (R475). -/
def telUnits (s : State) : List Byte :=
  let t (i : Nat) : Byte := Map.get s.pwr.temps (Config.firstTemp i) i
  s.telUnit1 s.pwr.tel ++ ((List.range 41).map t ++ leBytes 23 0) ++
  ((List.range 16).map (fun d => BitVec.ofNat 8 (s.clkOf d / 50)) ++ (List.range 16).map (fun d => BitVec.ofNat 8 (s.oxOf d)) ++ leBytes 32 0)
/-- A TELEMETRY item under PWR_TELEM_CTL (R475). -/
def telStore (s : State) (data : Word64) (units : List Byte) : State :=
  let v := s.rd R.PWR_TELEM_CTL
  let pr := fld v 11 10
  s.storeItem (fld v 21 16) (fld v 15 12) pr ((devUnit0 0x20 3 pr (fld v 21 16) 0 s.ft 0 0 0xFFFFFFFF data).bytes ++ units)
/-- Are TELEMETRY items produced (R485)? -/
def telOn (s : State) : Bool := s.rdB R.PWR_TELEM_CTL 31 && s.rdF R.PWR_TELEM_CTL 9 0 != 0

/-- A core has switched, or is given up: FW_SWITCHED with the last one (R481, R488). -/
def fwCore (s : State) (c : Nat) (kept : Bool) : State :=
  let s : State := { s with pwr := { s.pwr with fwSwitch := s.pwr.fwSwitch.filter (· != c), fwOld := if kept then s.pwr.fwOld ++ [c] else s.pwr.fwOld } }
  if s.pwr.fwSwitch.isEmpty then s.raise 0x05 6 else s

end State

/-- TELEMETRY_PERIOD (R475, R485): an item, and with FWD its units sent on as a BULK message. -/
def execTelemetryPeriod (s : State) : Out := keepQueue s <|
  if s.telOn = false ∨ s.rung = 4 then .next s
  else
    let n := s.pwr.telNo + 1
    let us := s.telUnits
    let s : State := { s.telStore (BitVec.ofNat 64 n) us with pwr := { s.pwr with telNo := n, tel := ⟨0, 0, 0, s.telTotals⟩ } }
    let d := s.rd R.PWR_TELEM_DEST
    .next (if s.rdB R.PWR_TELEM_CTL 30 && bit d 31 then s.bulkSend (fld d 14 0) 4 0 0 0 192 us else s)

/-- FW_CORE_SWITCH (R481): a core whose control processor runs no operator takes the new stage-3 image; where its self-check fails it
returns to the old one. -/
def execFwCoreSwitch (c : Nat) (s : State) : Out := keepQueue s <|
  if s.pwr.fwSwitch.contains c = true ∧ s.coreBusy c = false then
    .next (if Config.switchFails s.freeCtr then s.fwRevert.fwCore c true else s.used.fwCore c false)
  else .next s

/-- FW_SWITCH_TIMEOUT (R481): a core not idle within FW_SWITCH_TMO keeps the old image. -/
def execFwSwitchTimeout (c : Nat) (s : State) : Out := keepQueue s <|
  if s.pwr.fwSwitch.contains c = true ∧ s.pwr.fwSince.toNat + s.rdF R.PWR_FW_SWITCH_TMO 15 0 * 4000000 ≤ s.ft.toNat then .next (s.fwCore c true)
  else .next s

/-- BULK_READ (R483): served from the active image of a stage, or refused with NACK. -/
def execBulkRead (src stage tag off len : Nat) (s : State) : Out := keepQueue s <|
  let img := s.fwImage stage (s.fwActive stage)
  if 1 ≤ stage ∧ stage ≤ 5 ∧ 1 ≤ len ∧ len ≤ 65536 ∧ off + len ≤ img.length then .next (s.bulkSend src 2 stage tag off len (slice img off len))
  else .next (s.bulkSend src 3 stage tag off len [])

/-- BULK_DATA (R480, R483): the part asked for is kept; with the last one the image is installed. -/
def execBulkData (src stage tag off : Nat) (data : List Byte) (s : State) : Out := keepQueue s <|
  match s.sem.fetch with
  | none => .next s
  | some f =>
    let len := leNat (slice f.hdr 8 4)
    let want := min 65536 (len - f.got.length)
    if src = f.member ∧ stage = f.stage ∧ tag = f.tag ∧ off = 160 + f.got.length ∧ data.length = want then
      let g : FwFetch := { f with got := f.got ++ data, tag := (f.tag + 1) % 2 ^ 32 }
      if g.got.length < len then .next (s.fetchNext g)
      else
        let x := s.fwInstall f.hdr g.got f.activate f.raiseSvn
        let boot := s.errorFree 0x0D
        let u := x.2.fetchEnd x.1
        .next (if boot && !u.sem.bootError then u.packageReset 2 else u)
    else .next s

/-- BULK_NACK (R483): the FW_UPDATE ends with IMAGE. -/
def execBulkNack (src stage tag : Nat) (s : State) : Out := keepQueue s <|
  match s.sem.fetch with
  | some f => if src = f.member ∧ stage = f.stage ∧ tag = f.tag then .next (s.fetchEnd 7) else .next s
  | none => .next s

/-- BULK_TELEM (R483): a TELEMETRY item under this package's PWR_TELEM_CTL; TYPE_DATA names the sender in bits 62:48, its other bits
are not stated. -/
def execBulkTelem (src : Nat) (data : List Byte) (s : State) : Out := keepQueue s <|
  if s.telOn then
    .next (s.used.telStore (BitVec.ofNat 64 (src % 32768 * 2 ^ 48 + s.free.toNat % 2 ^ 48 + s.free.toNat / 2 ^ 63 * 2 ^ 63)) (padTo 192 data))
  else .next s

/-- BULK_READ_TIMEOUT (R483): a lost DATA is asked for again after FBD_E2E_TMO. -/
def execBulkReadTimeout (s : State) : Out := keepQueue s <|
  match s.sem.fetch with
  | some f => if f.since.toNat + s.rdF R.FBD_E2E_TMO 15 0 * 4000 ≤ s.ft.toNat then .next (s.fetchNext f) else .next s
  | none => .next s

/-- OPTIC_READY (R210, R212): the optic of a reach port is present, on the list, and ready. -/
def execOpticReady (p : Nat) (s : State) : Out := keepQueue s <|
  if 32 ≤ p ∧ p < 36 then .next (s.wrF (preg p 0x200) 31 28 0xE) else .next s

/-- OPTIC_FAULT (R215). -/
def execOpticFault (p : Nat) (s : State) : Out := keepQueue s <|
  if 32 ≤ p ∧ p < 36 then .next ((s.wrF (preg p 0x200) 28 28 1).raise (portPage p) 8) else .next s

end Sys2Proof.Machine
end

