-- ==== Sys2Proof/Machine/HostLink.lean ====
section
/-! DEFINITION. Chapter 17: the PCIe link, the resets of the host port, the BAR2 windows (R489 to R494). -/
namespace Sys2Proof.Machine
open Sys2Proof

/-- Start of the raw DRAM window (R141). -/
def rawDram : Nat := 0x8_0000_0000_0000
/-- Start of the raw flash window (R141). -/
def rawFlash : Nat := 0xC_0000_0000_0000
/-- 96 GiB: a stack in the raw DRAM window (R142). -/
def stackBytes : Nat := 96 * 2 ^ 30

namespace State

/-- Can a memory request come: the link is up, and BARs are assigned, which needs READY (R467)? -/
def hostOn (s : State) : Bool := s.host.up && s.rdB R.PWR_STAT 27
/-- EN and OWNER of a window, and the local address of a BAR2 offset (R491). -/
def winOwner (s : State) (off : Nat) : Option Nat :=
  let v := s.rd (R.HST_WIN_CTL (off / 2 ^ 28))
  if bit v 31 then some (fld v 6 0) else none
/-- Local address of a BAR2 offset. -/
def winAddr (s : State) (off : Nat) : Nat := s.rd64 (R.HST_WIN_BASE_LO (off / 2 ^ 28)) / 2 ^ 28 * 2 ^ 28 + off % 2 ^ 28
/-- A session with DIAG (R421). -/
def diagOpen (s : State) : Bool := s.adminOpen && s.rdB R.SEM_ADMIN_OPEN 30
/-- What a window reaches (R141, R491): 0 the unified range, 1 SRAM, 2 raw DRAM, 3 raw flash, none where it reaches nothing. -/
def winReach (s : State) (owner a n : Nat) : Option Nat :=
  if owner < 64 then (if a + n ≤ uniEnd then some 0 else none)
  else if owner ≠ adminWho ∨ s.diagOpen = false then none
  else if a + n ≤ uniEnd then some 0
  else if sramValid a && sramValid (a + n - 1) && apertureOf a == apertureOf (a + n - 1) then some 1
  else if rawDram ≤ a ∧ a + n ≤ rawDram + 12 * stackBytes ∧ (a - rawDram) / stackBytes = (a + n - 1 - rawDram) / stackBytes then some 2
  else if rawFlash ≤ a ∧ a + n ≤ rawFlash + 20 * 2 ^ 40 then some 3
  else none
/-! ### The raw windows (R142, R440 to R442) -/

/-- The key of an owner's domain (R440). -/
def domainKey (s : State) (o : Nat) : List Byte := if o = modelOwner then s.sem.modelKey else (Map.get s.tenants Tenant.none o).key
/-- The tweak of the unit at a global address: its address in units, and the origin's domain above it (R440). -/
def unitTweak (s : State) (ga : Nat) : Nat := ga / 64 + s.domain * 2 ^ 58
/-- The stored form of the 64-byte unit that stands at `a` in memory and has global address `ga` (R440, R442). -/
def cipherUnit (s : State) (o ga a : Nat) : List Byte := xtsEnc (s.domainKey o) (s.unitTweak ga) (Mem.read s.mem a 64)
/-- A unit of a tile as DRAM or flash stores it, and whether it is poisoned; `x`: the unit's place in the tile. -/
def tileUnit (s : State) (n x : Nat) : List Byte × Bool :=
  let a := n * tileBytes + x
  if s.poisoned a then (List.replicate 64 0xFF, true) else (s.cipherUnit (s.tileOwner n) (s.globalAddr a) a, false)
/-- A unit of the raw DRAM window, at a multiple of 64 (R142): a tile's, a guest's or a staged tile's ciphertext, the carve-out's under its key
with the raw address as tweak (R441); a unit marked poisoned reads as 0xFF. What a frame in no such use holds is not given (log entry 68);
a fenced stack reads back what was written into it. -/
def rawUnit (s : State) (w : Nat) : List Byte × Bool :=
  let k := w / stackBytes
  let b := w % stackBytes
  let other : List Byte := (List.range 64).map (fun i => (Map.get? s.ms.rawWr (w + i)).getD (Config.rawByte s.ft.toNat (w + i)))
  if s.ms.fenced.contains k then (other, false)
  else if b / tileBytes < 4096 then (xtsEnc s.sem.carveKey (w / 64 * 64) ((List.range 64).map (fun i => Config.rawByte s.ft.toNat (w + i))), false)
  else match (Map.get? s.ms.frames (k * 2 ^ 24 + b / tileBytes)).map (fun (f : Frame) => f.use) with
    | some (.tile n) => s.tileUnit n (b % tileBytes)
    | some (.guest g) =>
      let a := 2 ^ 64 + g * tileBytes + b % tileBytes
      let ga := g / 2 ^ 29 * 2 ^ 52 + g % 2 ^ 29 * tileBytes + b % tileBytes
      if s.poisoned a then (List.replicate 64 0xFF, true)
      else (s.cipherUnit (match Map.get? s.guests g with | some v => v.owner | none => 0x7F) ga a, false)
    | some (.stage n) =>
      let a := 2 ^ 65 + n * tileBytes + b % tileBytes
      if s.poisoned a then (List.replicate 64 0xFF, true) else (s.cipherUnit modelOwner (s.globalAddr (n * tileBytes + b % tileBytes)) a, false)
    | _ => (other, false)
/-- A unit of the raw flash window (R142): the ciphertext of the logical tile its page holds; a retired page 0xFF; else what the FTL keeps
there, 0xFF where erased (log entry 64). -/
def rawFlashUnit (s : State) (w : Nat) : List Byte × Bool :=
  let pg := w / tileBytes
  match (Map.get? s.ms.nand pg).bind (Map.get? s.ms.ftiles) with
  | some n => s.tileUnit n (w % tileBytes)
  | none =>
    if s.ms.spent.contains pg then (List.replicate 64 0xFF, false)
    else ((List.range 64).map (fun i => (Config.ftlByte s.ft.toNat (w + i)).getD 0xFF), false)
/-- `n` bytes at an offset of a raw window, and whether a poisoned unit is among them. -/
def rawBytes (unit : Nat → List Byte × Bool) (w n : Nat) : List Byte × Bool :=
  let us := (List.range ((w + n - 1) / 64 - w / 64 + 1)).map (fun i => unit ((w / 64 + i) * 64))
  ((((us.map (·.1)).flatten).drop (w % 64)).take n, us.any (·.2))
/-- A read of a raw window is answered (R142). -/
def rawRead (s : State) (fresh a n : Nat) : State :=
  let r := if a < rawFlash then rawBytes s.rawUnit (a - rawDram) n else rawBytes s.rawFlashUnit (a - rawFlash) n
  s.emit (.winData fresh r.1 r.2)
/-- Bytes written into a fenced stack (R142). -/
def rawStore (s : State) (w : Nat) (bs : List Byte) : State :=
  { s with ms := { s.ms with rawWr := (bs.zipIdx).foldl (fun m p => Map.set m (w + p.2) p.1) s.ms.rawWr } }

/-- The host port is reset (R468, R493, R494): windows disabled, MSI-X cleared and masked, rings in host memory stopped with cause
0b011. -/
def hostReset (s : State) : State :=
  let s := (List.range 16).foldl (fun u w => u.clrBits (R.HST_WIN_CTL w) 0x80000000#32) s
  let s : State := { s with msix := [], winReads := [], host := { s.host with bme := false } }
  let s := s.clrBits R.HST_LINK_STAT 0x4000#32
  (List.range 1024).foldl (fun u k => if u.ringEn (k / 16) (k % 16) && u.rdB (R.CRG_RING_CTL (k / 16) (k % 16)) 30 then u.ringStop (k / 16) (k % 16) 3 none else u) s
/-- The link goes down (R515). -/
def linkDown (s : State) : State :=
  if s.host.up then
    let s : State := { s with host := { s.host with up := false }, winReads := [] }
    ((s.wr R.HST_LINK_STAT (s.rd R.HST_LINK_STAT &&& 0x4000#32)).bump R.HST_LINKDOWN_CNT).raise 0x08 0
  else s

end State

/-- WINDOW_READ (R491, R492): `fresh` names the request; the length is at most the Max Payload Size. -/
def execWindowRead (off len fresh : Nat) (s : State) : Out := keepQueue s <|
  if s.hostOn = false ∨ (Map.get? s.winReads fresh).isSome = true then .next s
  else
    let a := s.winAddr off
    let refused : State := (s.hostRefuse a).emit (.winData fresh (List.replicate len 0xFF) false)
    match s.winOwner off with
    | none => .next refused
    | some o =>
      if 2 ^ 32 ≤ off ∨ len = 0 ∨ 512 < len ∨ 2 ^ 28 < off % 2 ^ 28 + len then .next refused
      else match s.winReach o a len with
        | none => .next refused
        | some 0 =>
          .next (({ s with winReads := Map.set s.winReads fresh ⟨a, len, s.ft⟩ } : State).serve ⟨o, none, .read, a, [], len, 2 ^ 64 + fresh, none, []⟩)
        | some 1 => .next (s.emit (.winData fresh (s.bytesAt a len) (s.anyPoison a len)))
        | some _ => .next (s.rawRead fresh a len)

/-- WINDOW_WRITE (R142, R491, R492). -/
def execWindowWrite (off : Nat) (data : List Byte) (poisoned : Bool) (s : State) : Out := keepQueue s <|
  if s.hostOn = false then .next s
  else
    let n := data.length
    let s := s.add64 R.HST_RX_BYTES_LO n
    let s := if poisoned then s.setBits R.HST_ERR 16 else s
    let a := s.winAddr off
    match s.winOwner off with
    | none => .next (s.hostRefuse a)
    | some o =>
      if 2 ^ 32 ≤ off ∨ n = 0 ∨ 512 < n ∨ 2 ^ 28 < off % 2 ^ 28 + n then .next (s.hostRefuse a)
      else
        let marks (a n : Nat) : List Nat := if poisoned then State.rangeUnits a n else []
        match s.winReach o a n with
        | none => .next (s.hostRefuse a)
        | some 0 =>
          .next ((State.cutTiles a data).foldl (fun u p => u.serve ⟨o, none, .write, p.1, p.2, p.2.length, 2 ^ 64, none, marks p.1 p.2.length⟩) s)
        | some 1 => .next ((s.store a data).markUnits a (marks a n))
        | some 2 => if s.ms.fenced.contains ((a - rawDram) / stackBytes) then .next (s.rawStore (a - rawDram) data) else .next (s.hostRefuse a)
        | some _ => .next (s.hostRefuse a)

/-- WINDOW_READ_TIMEOUT (R492): a read not complete within HST_WIN_TMO. -/
def execWindowReadTimeout (fresh : Nat) (s : State) : Out := keepQueue s <|
  match Map.get? s.winReads fresh with
  | none => .next s
  | some r =>
    if r.at_.toNat + s.rdF R.HST_WIN_TMO 15 0 * 4000 ≤ s.ft.toNat then
      let s : State := { s with
        winReads := Map.erase s.winReads fresh
        ms := { s.ms with reads := s.ms.reads.filter (fun p => match p.2.by_ with | .acc x => x.fresh != 2 ^ 64 + fresh | _ => true)
                          waits := s.ms.waits.filter (fun w => w.acc.fresh != 2 ^ 64 + fresh || w.acc.kind != .read) } }
      .next ((((s.hostRefuse r.addr).setBits R.HST_ERR 4).raise 0x08 4).emit (.winData fresh (List.replicate r.len 0xFF) false))
    else .next s

/-- HOST_CPL_TIMEOUT (R140, R493): a read of host memory has no completion; that of a ring stops it. -/
def execHostCplTimeout (ring : Option Nat) (s : State) : Out := keepQueue s <|
  let s := s.dmaErr
  match ring with
  | some k =>
    if k < 1024 ∧ s.ringEn (k / 16) (k % 16) = true ∧ s.rdB (R.CRG_RING_CTL (k / 16) (k % 16)) 30 = true then .next (s.ringStop (k / 16) (k % 16) 3 none)
    else .next s
  | none => .next s

/-- HOST_RETRAIN (R512): a write of HST_CMD; what the link trains to comes with HOST_LINK_UP. -/
def execHostRetrain (s : State) : Out := keepQueue s <| .next (s.countWrite 8 false)

/-- HOST_LINK_DOWN (R493, R515). -/
def execHostLinkDown (s : State) : Out := keepQueue s <| .next s.linkDown

/-- HOST_LINK_UP (R489, R493, R512): at x8 or x16, no faster than HST_LINK_CTL allows; flit mode at 64.0 GT/s only. -/
def execHostLinkUp (speed width : Nat) (flit : Bool) (s : State) : Out := keepQueue s <|
  if (width = 8 ∨ width = 16) ∧ 1 ≤ speed ∧ speed ≤ s.rdF R.HST_LINK_CTL 3 0 ∧ s.rung ≠ 4 then
    let was := s.host.up
    let v := s.rd R.HST_LINK_STAT &&& 0x4000#32
    let s : State := { s.wr R.HST_LINK_STAT (v ||| BitVec.ofNat 32 (2 ^ 31 + speed * 2 ^ 24 + width * 2 ^ 16 + (if flit && speed == 6 then 2 ^ 15 else 0))) with
                       host := { s.host with up := true } }
    .next (if was then s else s.raise 0x08 1)
  else .next s

/-- BUS_MASTER_ENABLE (R493, R494): configuration requests are answered from READY. -/
def execBusMasterEnable (on : Bool) (s : State) : Out := keepQueue s <|
  if s.hostOn then .next { s.wrF R.HST_LINK_STAT 14 14 (if on then 1 else 0) with host := { s.host with bme := on } } else .next s

/-- PERST_N (R468, R494). -/
def execPerstN (s : State) : Out := keepQueue s <| if s.rung = 4 then .next s else .next s.linkDown.hostReset

/-- FUNCTION_LEVEL_RESET (R494, R515): the link itself stays up (log entry 44). -/
def execFunctionLevelReset (s : State) : Out := keepQueue s <| if s.hostOn then .next (s.hostReset.raise 0x08 5) else .next s

end Sys2Proof.Machine
end

