-- ==== Sys2Proof/Machine/RegViews.lean ====
section
/-! DEFINITION. What a register reads as (R6, R497 to R499): the stored value, or for the registers that show state held elsewhere
(counts, tables, selected entries, views of a state) the value computed from it. -/
namespace Sys2Proof.Machine
open Sys2Proof

/-- 1 for true. -/
def b01 (b : Bool) : Nat := if b then 1 else 0
/-- A register word. -/
def w32 (n : Nat) : Word32 := BitVec.ofNat 32 n
/-- The word whose set bits are those of `f` below `n`. -/
def bitsOf (n : Nat) (f : Nat → Bool) : Nat := ((List.range n).filter f).foldl (fun a i => a + 2 ^ i) 0
/-- BLK_ID of a page; 0 where it is empty (R496, R497). -/
def blkId (p : Nat) : Nat :=
  match pageOf p with
  | some (_, code, i) => code * 65536 + i
  | none => 0
/-- Home states as a tile home entry encodes them (R149). -/
def homeCode : Home → Nat
  | .unalloc => 0
  | .dram => 1
  | .flash => 2
  | .movingD => 3
  | .movingF => 4
  | .lost => 5
  | .away => 6
/-- Slot states as OXE_SLOT_STATE encodes them (R87, R100). -/
def slotCode : SlotSt → Nat
  | .free => 0
  | .fill => 1
  | .full => 2
  | .use => 3

namespace State

/-! ### Common layout (R498) -/

/-- Does an execution unit run a part: an engine (units 0, 1), or the unit of kind `k`? -/
def unitRuns (s : State) (kinds : List Nat) (u : Nat) : Bool :=
  s.ops.any (fun p => p.2.dispatched && kinds.contains (CmdRecF.unit p.2.cmd) && p.2.parts.contains u)
/-- BUSY of a block (R498): it is running work (log entry 46). -/
def blkBusy (s : State) (b : Blk) (i : Nat) : Bool :=
  match b with
  | .sem => s.rdB R.SEM_MBX_STAT 31
  | .pwr => s.pwr.want.isSome
  | .tim => false
  | .rng => !(s.rng.pend.isEmpty && s.rng.rewinds.isEmpty)
  | .hst => !s.winReads.isEmpty
  | .smb => false
  | .uar => !s.uart.tx.isEmpty
  | .ftl => !(s.ms.reads.isEmpty && s.ms.progs.isEmpty)
  | .crg => s.ops.any (fun p => p.2.tenant == i)
  | .evq => s.evq.any (fun p => p.1 / 16 == i && !p.2.items.isEmpty)
  | .adm => s.rdB (R.ADM_RING_CTL i) 31 && s.rd (R.ADM_RING_DONE i) != s.rd (R.ADM_RING_PROD i)
  | .mpd => s.ms.moves.any (fun p => p.2.mover == i)
  | .drp => s.ms.evacuating.contains i
  | .rle => s.convs.any (fun p => p.2.passed && p.2.d.rle == i)
  | .fbd => !s.router.isEmpty || s.reqsOut != 0
  | .red => s.slots.any (fun p => p.1 % 2 == i && p.2.run.isSome)
  | .hpt => !(s.port i).txQ.isEmpty
  | .xpt => !(s.port (32 + i)).txQ.isEmpty
  | .cdie => (List.range 24).any (fun c => s.coreBusy (24 * i + c))
  | .clu => s.clusterBusy i
  | .mfu => s.unitRuns [3] i
  | .core => s.coreBusy i || s.strm.any (fun p => p.2.core == i)
  | .oxe => s.unitRuns [0, 1] i
  | .clt => s.unitRuns [0, 1] i
/-- FENCED of a block. -/
def blkFenced (s : State) (b : Blk) (i : Nat) : Bool :=
  match b with
  | .mpd => s.ms.fenced.contains (2 * i) && s.ms.fenced.contains (2 * i + 1)
  | .drp => s.ms.fenced.contains i
  | .cdie => s.rdB (R.CDIE_STAT i) 31
  | .clu => s.cluFenced i
  | .mfu => s.cluFenced i
  | .core => s.coreFenced i
  | .oxe => s.coreFenced (i / 4)
  | .clt => s.coreFenced (i / 4)
  | _ => false
/-- Is a block part of the compute island, which the rung gates outside Run (R455)? -/
def blkCompute (b : Blk) : Bool :=
  match b with
  | .cdie => true
  | .clu => true
  | .mfu => true
  | .core => true
  | .oxe => true
  | .clt => true
  | _ => false
/-- INT_RAW (R498): the conditions that a register of the page keeps showing hold now; the other interrupt bits are events, whose
condition lasts no longer than they do (log entry 46). -/
def intRaw (s : State) (b : Blk) (i p : Nat) : Nat :=
  let r (off : Nat) : Word32 := s.rd (4096 * p + off)
  let nz (off bit : Nat) : Nat := if r off = 0 then 0 else 2 ^ bit
  match b with
  | .crg => nz 0x104 0 + nz 0x108 1 + (if (List.range 8).any (fun j => r (0x140 + 4 * j) != 0) then 4 else 0)
  | .evq => b01 ((List.range 16).any (fun q => (s.evqGet i q).gap != 0)) + nz 0x108 1
  | .mpd => fld (r 0x18C) 2 0 + 16 * b01 (bit (r 0x188) 31)
  | .drp => nz 0x118 1 + 4 * b01 (fld (r 0x134) 31 30 == 2)
  | .ftl => b01 (bit (r 0x108) 0) + 2 * b01 (bit (r 0x108) 1) + 4 * b01 (fld (r 0x108) 31 16 != 0)
  | .fbd => b01 (bit (r 0x154) 0)
  | .red => b01 (bit (r 0x184) 31) + nz 0x19C 4
  | .hpt => 64 * b01 (bit (r 0x16C) 0) + 128 * b01 (bit (r 0x16C) 1)
  | .xpt => 64 * b01 (bit (r 0x16C) 0) + 128 * b01 (bit (r 0x16C) 1) + 256 * b01 (bit (r 0x200) 28)
  | .rle => 16 * b01 (bit (r 0x16C) 3) + 32 * b01 (bit (r 0x16C) 0)
  | .tim => b01 (s.timSt == 1) + 2 * b01 (s.timSt == 3) + 16 * b01 (bit (r 0x16C) 1) + 32 * b01 (bit (r 0x16C) 0)
  | .adm => 4 * b01 (bit (r 0x130) 0)
  | .rng => 2 * b01 (bit (r 0x134) 1) + 8 * b01 (bit (r 0x134) 0)
  | .sem => 2 * b01 (fld (r 0x100) 31 28 == 2) + 8 * b01 (fld (r 0x100) 31 28 == 3) + 16 * b01 (bit (r 0x180) 0) + 32 * b01 (bit (r 0x180) 2) +
      64 * b01 (r 0x178 != 0 || r 0x17C != 0) + 128 * b01 (bit (r 0x180) 3)
  | .pwr => 4 * b01 (bit (r 0x100) 23) + 8 * b01 (bit (r 0x100) 26) + nz 0x174 7
  | .hst => 4 * b01 (bit (r 0x10C) 0) + 8 * b01 (bit (r 0x10C) 3) + 16 * b01 (bit (r 0x10C) 2)
  | .smb => nz 0x128 0 + nz 0x12C 1
  | .uar => b01 (!s.uart.rx.isEmpty) + nz 0x114 2
  | _ => 0
/-- The registers of the common layout that are computed. -/
def readCommon (s : State) (b : Blk) (i p off : Nat) : Word32 :=
  if off = 0 then w32 (blkId p)
  else if off = 0x14 then
    w32 (8 * b01 (s.rdB (R.ERR_INFO p) 31) + 4 * b01 (s.rung != 0 && blkCompute b) + 2 * b01 (s.blkFenced b i) + b01 (s.blkBusy b i))
  else if off = 0x18 then w32 (s.intRaw b i p)
  else if off = 0x24 then 0
  else s.rd (4096 * p + off)

/-! ### Views by page -/

/-- CRG_RING_STAT (R136). -/
def ringStat (s : State) (t r : Nat) : Nat :=
  let l := s.ringOps t r
  let st := s.rdF (R.CRG_RING_STAT t r) 30 27
  let w := match s.ringHead t r with
    | none => 0
    | some (h, o) =>
      let c := o.cmd
      16 * b01 o.local_ + 8 * b01 (CmdRecF.barrier c && l.head?.map (·.1) != some h) + 4 * b01 (CmdRecF.hold c && decide (s.ft < c.startFt)) +
      2 * b01 (CmdRecF.w1En c && !decide (c.wait1 ≤ s.dep t (CmdRecF.w1Ctr c))) + b01 (CmdRecF.w0En c && !decide (c.wait0 ≤ s.dep t (CmdRecF.w0Ctr c)))
  2 ^ 31 * b01 l.isEmpty + 2 ^ 27 * st + 256 * min l.length 65535 + w
/-- A half of a 64-bit value. -/
def half (v off : Nat) : Word32 := if off % 8 = 0 then w32 v else w32 (v / 2 ^ 32)
/-- CRG page. -/
def readCrg (s : State) (t off : Nat) : Option Word32 :=
  if off = 0x100 then some (w32 t)
  else if 0x200 ≤ off ∧ off < 0x400 ∧ off % 32 = 0x18 then some (w32 (s.ringStat t ((off - 0x200) / 32)))
  else if 0x800 ≤ off then some (half (s.dep t ((off - 0x800) / 8)).toNat off)
  else none
/-- EVQ page (R137). -/
def readEvq (s : State) (t off : Nat) : Option Word32 :=
  if off = 0x100 then some (w32 t)
  else if off = 0x104 then some (w32 s.poolFree)
  else if 0x200 ≤ off ∧ off < 0x600 ∧ off % 64 = 0x14 then
    let e := s.evqGet t ((off - 0x200) / 64)
    some (w32 (2 ^ 31 * b01 e.flushAt.isSome + storeUnits e))
  else none
/-- ADM page (R398). -/
def readAdm (s : State) (t off : Nat) : Option Word32 :=
  let m := s.mdl (s.rdF R.ADM_MDL_SEL 3 0)
  if off = 0x11C then some (w32 (s.kvUsed t))
  else if off = 0x134 then some (w32 (s.reqs.filter (fun p => p.2.tenant == t)).length)
  else if off = 0x184 then some (w32 m.addr.toNat)
  else if off = 0x188 then some (w32 (m.addr.toNat / 2 ^ 32))
  else if off = 0x18C then some m.base
  else if off = 0x190 then some m.row
  else if off = 0x194 then some m.ctx
  else if off = 0x198 then some m.prefill
  else if off = 0x19C then some m.ctl
  else if off = 0x1A0 then some m.rho
  else if off = 0x1A4 then some m.hold
  else if off = 0x1A8 then some m.margin
  else if off = 0x1AC then some m.retry
  else if off = 0x1B0 then some (w32 (min (s.workUs (s.rdF R.ADM_MDL_SEL 3 0)) 0xFFFFFFFF))
  else if 0x200 ≤ off ∧ off < 0x280 then some (w32 (leNat (((Map.get s.reqLatch [] t).drop (off - 0x200)).take 4)))
  else none
/-- The tile MPD_QRY_ADDR names. -/
def qryTile (s : State) : Nat := (s.rd R.MPD_QRY_ADDR_LO).toNat / 65536 + s.rdF R.MPD_QRY_ADDR_HI 12 0 * 65536
/-- A tile home entry (R149). -/
def tileEntry (t : Tile) : Nat := homeCode t.st * 2 ^ 29 + b01 t.pin * 2 ^ 28 + t.loc % 2 ^ 28
/-- MOVING and the destination in the LOC of an AWAY entry (R238). -/
def movingField (s : State) (n : Nat) : Nat :=
  match Map.get? s.away n with
  | some a => if (s.tile n).st = .away ∧ a.from_.isSome = true ∧ a.step ≤ 2 then 2 ^ 27 + a.dest % 4096 * 4096 else 0
  | none => 0
/-- Frames of an owner that are pinned, its guests with them (R238). -/
def pinnedOf (s : State) (o : Nat) : Nat :=
  (s.ms.frames.filter (fun p => p.2.owner == o && (match p.2.use with | .tile n => (s.tile n).pin | .guest _ => true | _ => false))).length
/-- MPD page (R173). -/
def readMpd (s : State) (m off : Nat) : Option Word32 :=
  let o := s.rdF R.MPD_OWN_SEL 6 0
  if off = 0x100 then
    some (w32 (b01 (s.ms.fenced.contains (2 * m)) + 2 * b01 (s.ms.fenced.contains (2 * m + 1)) +
      4 * b01 (s.ms.evacuating.contains (2 * m) || s.ms.evacuating.contains (2 * m + 1))))
  else if off = 0x144 then some (s.rgn (s.rdF R.MPD_RGN_SEL 12 0))
  else if off = 0x150 then some (w32 (tileEntry (s.tile s.qryTile) + s.movingField s.qryTile))
  else if off = 0x158 then some (w32 (s.owner o).dQuota)
  else if off = 0x15C then some (w32 (s.owner o).fQuota)
  else if off = 0x160 then some (w32 (s.dUsed o))
  else if off = 0x164 then some (w32 (s.fUsed o))
  else if off = 0x168 then some (w32 (s.pinnedOf o))
  else if off = 0x16C then some (s.owner o).flashRd
  else if off = 0x170 then some (w32 s.framesUnres)
  else if off = 0x174 then some (w32 (s.liveFlash - (s.ms.own.map (fun p => p.2.fQuota)).sum))
  else if off = 0x188 then some (w32 (2 ^ 31 * b01 (s.rdB R.MPD_TBL_STAT 31) + s.level2.length))
  else none
/-- Tiles a stack still holds. -/
def tilesLeft (s : State) (k : Nat) : Nat :=
  (s.ms.frames.filter (fun f => stackOf f.1 == k && (match f.2.use with | .tile _ => true | _ => false))).length
/-- DRP page (R174). -/
def readDrp (s : State) (k off : Nat) : Option Word32 :=
  if off = 0x104 then some (if s.ms.fenced.contains k then 0 else 0x17F000)
  else if off = 0x108 then some (w32 (s.stackFree k))
  else if off = 0x120 then some (Map.get s.ms.dieErr 0 (16 * k + s.rdF (R.DRP_DIE_SEL k) 3 0))
  else if off = 0x134 then
    some (setFld (s.rd (R.DRP_FENCE_STAT k)) 20 0 (if s.ms.evacuating.contains k then s.tilesLeft k else 0))
  else none
/-- FTL page (R175); life used is counted in tiles written against the rated 40,000 TiB (R165; log entry 46). -/
def readFtl (s : State) (off : Nat) : Option Word32 :=
  if off = 0x104 then some (w32 ((s.rd R.FTL_CAP).toNat - s.ms.ftiles.length))
  else if off = 0x10C then some (w32 (min (s.rd64 R.FTL_HOST_WR_LO / (40 * 2 ^ 24)) 65535))
  else none
/-- RLE page (R372, R373). -/
def readRle (s : State) (i off : Nat) : Option Word32 :=
  let t := s.turn
  if off = 0x104 then some (w32 (2 ^ 31 * b01 (s.blkBusy .rle i) + min s.rleQ.length 65535))
  else if off = 0x140 then
    let v := s.rdF R.RLE_TURN_STAT 27 27 * 2 ^ 27
    some (w32 (match t with
      | none => v
      | some t => t.st * 2 ^ 28 + v + b01 t.stream * 2 ^ 26 + (t.parts.filter (·.staged)).length * 4096 + turnSwapped t))
  else if off = 0x148 then some (match t with | some t => t.version | none => 0)
  else if off = 0x14C then some (match t with | some t => w32 t.turnFt.toNat | none => 0)
  else if off = 0x150 then some (match t with | some t => w32 (t.turnFt.toNat / 2 ^ 32) | none => 0)
  else if off = 0x15C then some (w32 s.stageFrames.length)
  else if off = 0x160 then some (match t with | some t => w32 t.readers.length | none => 0)
  else if off = 0x168 then some (w32 s.pendExtents.length)
  else none
/-- FBD_FLOW_STAT (R247): the way a request's message takes now. -/
def flowStat (s : State) (p : Nat) : Nat :=
  let m : Msg := ⟨p + 4096 * s.domain, s.srcField, 0, 0, 2, 0, [], false, []⟩
  let out := (s.flow p).reqs.length
  let lost := 2 ^ 30 * b01 (s.lostPkgs.contains p)
  let ok := inDomain (s.rd R.FBD_SHAPE) p
  match s.route 99 m with
  | .here => 2 ^ 31 * b01 ok + lost + out
  | .port q _ => 2 ^ 31 * b01 ok + lost + (if q < 32 then 2 ^ 24 * q + 2 ^ 23 else 0) + out
  | .detour q _ => 2 ^ 31 * b01 ok + lost + 2 ^ 29 + (if q < 32 then 2 ^ 24 * q + 2 ^ 23 else 0) + out
  | _ => lost + out
/-- FBD page (R246). -/
def readFbd (s : State) (off : Nat) : Option Word32 :=
  if off = 0x10C then some (s.nbrPorts (s.rdF R.FBD_NBR_SEL 9 8) (s.rdF R.FBD_NBR_SEL 4 0))
  else if off = 0x110 then some (w32 (bitsOf 32 s.portLive))
  else if off = 0x118 then some (Map.get s.xdom 0 (s.rdF R.FBD_XDOM_SEL 2 0))
  else if off = 0x12C then some (w32 (s.flowStat (s.rdF R.FBD_FLOW_SEL 11 0)))
  else if off = 0x134 then some (w32 s.reqsOut)
  else if off = 0x138 then some (w32 s.guests.length)
  else none
/-- RED page (R273, R274). -/
def readRed (s : State) (i off : Nat) : Option Word32 :=
  let v := s.flock (s.rdF R.RED_FLK_SEL 5 0)
  if off = 0x100 then some (w32 (32 - s.winUsed i))
  else if off = 0x144 then some v.ctl
  else if off = 0x148 then some v.base
  else if off = 0x14C then some v.cnt
  else if off = 0x150 then some v.win
  else if off = 0x154 then some (w32 v.waddr.toNat)
  else if off = 0x158 then some (w32 (v.waddr.toNat / 2 ^ 32))
  else if off = 0x15C then
    some (w32 (2 ^ 31 * b01 v.run.isSome + 2 ^ 30 * b01 (v.held.any (fun x => x.2.2.gen != v.gen || x.2.2.cseq != State.flkCur v)) + (if v.on then 2 ^ 16 * s.flkPos v + v.live.length else 0)))
  else if off = 0x160 then some (w32 v.cseq)
  else if off = 0x164 then some (w32 v.drops.length)
  else if off = 0x16C then some (match v.drops[s.rdF R.RED_FLK_DROP_SEL 3 0]? with | some q => w32 (2 ^ 31 + q) | none => 0)
  else if off = 0x17C then some (Map.get s.ftable 0 (s.rdF R.RED_TBL_SEL 11 0))
  else if off = 0x194 then some (w32 (bitsOf 32 (fun f => (s.flock f).on)))
  else if off = 0x198 then some (w32 (bitsOf 32 (fun f => (s.flock (32 + f)).on)))
  else none
/-- HPT and XPT pages (R213, R215). -/
def readPort (s : State) (p off : Nat) : Option Word32 :=
  if off = 0x104 then some (setFld (s.rd (preg p 0x104)) 27 27 (b01 s.released))
  else if off = 0x150 then some (s.lane p (s.rdF (preg p 0x14C) 3 0)).corr
  else if off = 0x154 then some (s.lane p (s.rdF (preg p 0x14C) 3 0)).uncorr
  else if off = 0x170 then some (w32 (s.port p).tx.ctr)
  else if off = 0x174 then some (w32 ((s.port p).tx.ctr / 2 ^ 32))
  else if off = 0x208 ∧ 32 ≤ p then some (w32 ((s.router.filter (fun r => r.2.inPort == p)).map (fun r => r.2.flits)).sum)
  else none
/-- CDIE page (R486). -/
def readCdie (s : State) (d off : Nat) : Option Word32 :=
  if off = 0x114 then some (w32 (s.core (s.rdF (R.CDIE_CORE_SEL d) 8 0)).st)
  else if off = 0x11C then some (w32 (s.coresLive d + 256 * bitsOf 4 (fun j => s.rdB (R.CLU_CORE_MAP (4 * d + j)) 21)))
  else if off = 0x12C then
    some (w32 (((List.range 4).map (fun e => 2 ^ (8 * e) * (match linkKey d e with
      | some k => min (s.link k).failed 4 + 8 * b01 (s.link k).half
      | none => 16))).sum))
  else if off = 0x130 then some (w32 (s.pwr.fwOld.filter (fun c => c / 24 == d)).length)
  else none
/-- MFU_STAT (R349). -/
def readMfu (s : State) (u off : Nat) : Option Word32 :=
  if off = 0x104 then
    some (match s.ops.find? (fun p => p.2.dispatched && CmdRecF.unit p.2.cmd == 3 && p.2.parts.contains u) with
      | none => 0
      | some p =>
        let c := p.2.cmd.opcode
        w32 (2 ^ 31 + 2 ^ 14 * (if c = 0x0501 then 1 else if c = 0x0502 then 2 else if c = 0x0500 then 3 else 0) + fld p.2.cmd.seq 13 0))
  else none
/-- CORE_STRM_STAT (R101). -/
def readCore (s : State) (c off : Nat) : Option Word32 :=
  if off = 0x104 then
    let l := s.strm.filter (fun p => p.2.core == c)
    let n (f : StrmSt → Bool) : Nat := (l.filter (fun p => f p.2.st)).length
    some (w32 (n (fun x => x != .noContext) + 256 * min (n (fun x => x == .noContext)) 255 + 65536 * n (fun x => x == .waitCtr)))
  else none
/-- OXE and CLT pages (R100). -/
def readEng (s : State) (e off : Nat) : Option Word32 :=
  let g := s.engine e
  if off = 0x12C then
    some (w32 (65536 * g.susp.length + (match g.run with
      | some t => 2 ^ 15 * b01 t.stalled + 2 ^ 14 + (match s.op? t.op with | some o => fld o.cmd.seq 13 0 | none => 0)
      | none => 0)))
  else if 0x130 ≤ off ∧ off ≤ 0x138 then
    let k := (off - 0x130) / 4 * 16
    some (w32 (((List.range 16).map (fun j => 4 ^ j * slotCode (s.slot e (k + j)).st)).sum))
  else none
/-- HST page: HST_PAGE_PEND (R495, R512). -/
def readHst (s : State) (off : Nat) : Option Word32 :=
  if 0x800 ≤ off ∧ off < 0xA00 then
    some (w32 (bitsOf 32 (fun j => let p := (off - 0x800) / 4 * 32 + j; (pageOf p).isSome && s.pagePend p)))
  else none
/-- The level of a GPIO pin now: what drives it as an output, inverted while a pulse runs, or what comes in (R511). -/
def gpioLevel (s : State) (g : Nat) : Bool :=
  if s.rdB R.SMB_GPIO_DIR g then
    xor (s.rdB R.SMB_GPIO_OUT g) (match Map.get? s.smb.pulses g with | some t => decide (s.ft < t) | none => false)
  else s.smb.pins.getLsbD g
/-- SMB page (R513). -/
def readSmb (s : State) (off : Nat) : Option Word32 :=
  if off = 0x100 then some (w32 (0x58 + 2 * b01 (Config.strap 1) + b01 (Config.strap 0)))
  else if off = 0x120 then some (w32 (bitsOf 16 s.gpioLevel))
  else none
/-- A received character as UAR_RXD shows it. -/
def rxWord (x : RxChar) : Nat := 2 ^ 31 + 512 * b01 x.brk + 256 * b01 x.fe + x.data.toNat
/-- UAR page (R514). -/
def readUar (s : State) (off : Nat) : Option Word32 :=
  if off = 0x108 then some (w32 (2 ^ 31 * b01 s.uart.lowLine + 65536 * s.uart.rx.length + s.uart.tx.length))
  else if off = 0x10C then some (s.uart.last.setWidth 32)
  else if off = 0x110 then some (match s.uart.rx with | x :: _ => w32 (rxWord x) | [] => 0)
  else none
/-- The hottest of some sensors. -/
def hottest (s : State) (l : List Nat) : Int := l.foldl (fun a i => max a (s.tempOf i)) (-128)
/-- PWR page (R484). -/
def readPwr (s : State) (off : Nat) : Option Word32 :=
  let byte (t : Int) : Nat := (BitVec.ofInt 8 t).toNat
  if off = 0x120 then some (w32 (byte (s.tempOf (s.rdF R.PWR_TEMP_SEL 5 0)) + 65536 * byte (s.hottest (List.range 25))))
  else if off = 0x148 then some (w32 s.figFp8)
  else if off = 0x14C then some (w32 s.figDram)
  else if off = 0x150 then some (w32 s.figSram)
  else if off = 0x154 then some (w32 s.figHall)
  else if 0x15C ≤ off ∧ off < 0x170 ∧ (off - 0x15C) / 4 = s.rung then
    some (satAdd32 (s.rd (R.PWR_RUNG_TIME s.rung)) ((Map.get s.pwr.acc 0 s.rung + (s.ft.toNat - s.pwr.since.toNat)) / 4000000000))
  else none
/-- TIM page (R395, R396). -/
def readTim (s : State) (off : Nat) : Option Word32 :=
  let t := s.trigger (s.rdF R.TIM_TRIG_SEL 7 0)
  if off = 0x108 then some (w32 s.ft.toNat)
  else if off = 0x10C then some (w32 (s.ft.toNat / 2 ^ 32))
  else if off = 0x118 then some (w32 s.timErrNs)
  else if off = 0x11C then some (w32 (if s.timSt = 3 then min ((s.ft.toNat - s.tim.holdAt.toNat) / 4000000000) 0xFFFFFFFF else 0))
  else if off = 0x154 then some (w32 ((List.range 256).filter (fun n => let x := s.trigger n; !x.valid && !x.sw)).length)
  else if off = 0x15C then some (w32 (2 ^ 31 * b01 t.valid + 2 ^ 30 * b01 t.sw + 2 ^ 24 * t.action + t.target))
  else if off = 0x160 then some (w32 t.ft.toNat)
  else if off = 0x164 then some (w32 (t.ft.toNat / 2 ^ 32))
  else none
/-- RNG page (R412). -/
def readRng (s : State) (off : Nat) : Option Word32 :=
  let d := (s.gen (s.rdF R.RNG_GEN_SEL 17 0)).draws.toNat
  if off = 0x124 then some (w32 d)
  else if off = 0x128 then some (w32 (d / 2 ^ 32))
  else none
/-- SEM page (R450). -/
def readSem (s : State) (off : Nat) : Option Word32 :=
  let t := s.rdF R.SEM_TENANT_SEL 5 0
  if off = 0x148 then
    some (match s.sem.endAt with
      | some e => setFld (s.rd R.SEM_ADMIN_OPEN) 11 0 ((e.toNat - s.ft.toNat + 3999999999) / 4000000000)
      | none => s.rd R.SEM_ADMIN_OPEN)
  else if off = 0x150 then
    let x := Map.get s.tenants Tenant.none t
    some (w32 (2 ^ 30 * x.st + 2 ^ 29 * b01 (s.readGrant t) + 2 ^ 28 * b01 (s.turnRight t) + x.gen % 2 ^ 24))
  else none

/-- The computed value of a register of a block page beyond the common layout; none where it reads as stored. -/
def readBlk (s : State) (b : Blk) (i off : Nat) : Option Word32 :=
  match b with
  | .sem => s.readSem off
  | .pwr => s.readPwr off
  | .tim => s.readTim off
  | .rng => s.readRng off
  | .hst => s.readHst off
  | .smb => s.readSmb off
  | .uar => s.readUar off
  | .ftl => s.readFtl off
  | .crg => s.readCrg i off
  | .evq => s.readEvq i off
  | .adm => s.readAdm i off
  | .mpd => s.readMpd i off
  | .drp => s.readDrp i off
  | .rle => s.readRle i off
  | .fbd => s.readFbd off
  | .red => s.readRed i off
  | .hpt => s.readPort i off
  | .xpt => s.readPort (32 + i) off
  | .cdie => s.readCdie i off
  | .clu => if off = 0x108 then some (w32 (min ((s.waiters.filter (fun p => p.1 / 256 == i)).map (fun p => p.2.length)).sum 1023)) else none
  | .mfu => s.readMfu i off
  | .core => s.readCore i off
  | .oxe => s.readEng i off
  | .clt => s.readEng i off

/-- A word of the MSI-X table, 16 bytes a vector as PCI Express lays them out, or of the PBA (R490, R495). -/
def readMsix (s : State) (a : Nat) : Word32 :=
  if a < 0xF08000 then
    let e := Map.get s.msix Msix.none ((a - 0xF00000) / 16)
    match a % 16 / 4 with
    | 0 => e.addr.setWidth 32
    | 1 => (e.addr >>> 32).setWidth 32
    | 2 => e.data
    | _ => if e.mask then 1 else 0
  else if a < 0xF08100 then w32 (bitsOf 32 (fun i => (Map.get s.msix Msix.none ((a - 0xF08000) / 4 * 32 + i)).pend))
  else 0

/-- What a register reads as (R497 to R499). A reserved offset, and an empty page, read 0. -/
def readReg (s : State) (a : Nat) : Word32 :=
  let p := a / 4096
  let off := a % 4096
  if p < 4 then w32 (blkId (a / 4))
  else if 0xF00 ≤ p ∧ p ≤ 0xF08 then s.readMsix a
  else match pageOf p with
    | none => 0
    | some (b, _, i) =>
      if (rowAt a).isNone then 0
      else if off < 0x100 then s.readCommon b i p off
      else (s.readBlk b i off).getD (s.rd a)

end State
end Sys2Proof.Machine
end

