-- ==== Sys2Proof/Machine/Console.lean ====
section
/-! DEFINITION. Chapter 17: the console UART and the console commands (R503 to R506, R514). -/
namespace Sys2Proof.Machine
open Sys2Proof

namespace State

/-- READY (R466). -/
def pkgReady (s : State) : Bool := s.rdB R.PWR_STAT 27
/-- Set bits of UAR_ERR, with the interrupt ERR (R514, R515). -/
def uarErr (s : State) (m : Word32) : State := (s.setBits R.UAR_ERR m).raise 0x0A 2
/-- Console output leaves, and is kept in the log: the last 64 Ki entries (R506). -/
def conOut (s : State) (o : ConOut) : State :=
  let l := s.uart.log ++ [o]
  { s.emit (.con o) with uart := { s.uart with log := l.drop (l.length - 65536) } }
/-- The prompt "xz> " (R506). -/
def conPrompt (s : State) : State := ([0x78, 0x7A, 0x3E, 0x20] : List Byte).foldl (fun u b => u.conOut (.char b)) s

/-- A logged output as numbers: a character's code; a report's number above 255, the number of its values and they. -/
def conNums : ConOut → List Nat
  | .char b => [b.toNat]
  | .report k vs => (256 + k) :: vs.length :: vs
/-- SVN of the image a stage runs (R428, R479). -/
def svnRunning (s : State) (stage : Nat) : Nat := ((s.fwRunning stage).getD 3 0).toNat
/-- What a console command prints (R506): 0 help, 1 ver, 2 stat, 3 temp, 4 err, 5 log. -/
def conVals (s : State) (k : Nat) : List Nat :=
  let stages : List Nat := [1, 2, 3, 4, 5]
  match k with
  | 1 => stages.map s.fwActive ++ stages.map (fun g => leNat (slice (s.fwRunning g) 0x0C 4)) ++ stages.map s.svnRunning ++
      ((List.range 5).flatMap s.meas).map BitVec.toNat
  | 2 => [(s.readReg R.PWR_STAT).toNat, (s.readReg R.SEM_STAT).toNat, (s.readReg R.TIM_STAT).toNat,
      ((List.range 16).map s.coresLive).sum, 12 - s.ms.fenced.length, ((List.range 36).filter s.portLive).length]
  | 3 => (List.range 41).map (fun i => (BitVec.ofInt 8 (s.tempOf i)).toNat)
  | 4 => (s.rd R.PWR_FATAL).toNat :: (s.rd R.PWR_RESET_CAUSE).toNat :: s.pwr.errs.map BitVec.toNat
  | 5 => s.uart.log.flatMap conNums
  | _ => []
/-- Does the management processor take console commands (R505, R506)? -/
def conOn (s : State) : Bool := s.pkgReady && !s.rdB R.UAR_CTL 31
/-- A console command: its report, then the prompt. No command changes the device's state beyond the console's log. -/
def conRun (s : State) (k : Nat) : State := if s.conOn then (s.conOut (.report k (s.conVals k))).conPrompt else s

/-- The command a line names; 6 for none known. -/
def conCommand (l : List Byte) : Nat :=
  match l.map BitVec.toNat with
  | [0x68, 0x65, 0x6C, 0x70] => 0
  | [0x76, 0x65, 0x72] => 1
  | [0x73, 0x74, 0x61, 0x74] => 2
  | [0x74, 0x65, 0x6D, 0x70] => 3
  | [0x65, 0x72, 0x72] => 4
  | [0x6C, 0x6F, 0x67] => 5
  | _ => 6
/-- A character reaches the management processor: echoed, gathered into a line of up to 255 characters, run at CR or LF. -/
def conChar (s : State) (b : Byte) : State :=
  let s := s.conOut (.char b)
  if b = 0x0D ∨ b = 0x0A then
    let l := s.uart.line
    let s : State := { s with uart := { s.uart with line := [] } }
    if l.isEmpty then s.conPrompt else s.conRun (conCommand l)
  else if s.uart.line.length < 255 then { s with uart := { s.uart with line := s.uart.line ++ [b] } }
  else s

/-- A character enters the receiver (R504, R505): stored, or dropped where the FIFO is full; the management processor takes it at
once while it owns the console. A break is stored once per low period, with a zero byte. -/
def rxStore (s : State) (x : RxChar) : State :=
  let again := x.brk && s.uart.lowLine
  let s : State := { s with uart := { s.uart with lowLine := x.brk } }
  if again then s
  else
    let s := if x.brk then s.uarErr 4 else s
    let s := if x.fe then (s.bump R.UAR_FE_CNT).uarErr 1 else s
    let x : RxChar := if x.brk then { x with data := 0 } else x
    if s.uart.rx.length = 64 then (s.bump R.UAR_OE_CNT).uarErr 2
    else
      let s := if s.uart.rx.isEmpty then s.raise 0x0A 0 else s
      if s.rdB R.UAR_CTL 31 then { s with uart := { s.uart with rx := s.uart.rx ++ [x] } }
      else if x.fe || x.brk then s
      else s.conChar x.data

end State

/-- UART_RX_CHAR (R467, R504, R505): input before READY is discarded; LOOP joins the receiver to the transmitter instead. -/
def execUartRxChar (b : Byte) (fe brk : Bool) (s : State) : Out := keepQueue s <|
  if s.pkgReady && !s.rdB R.UAR_CTL 0 then .next (s.rxStore ⟨b, fe, brk⟩) else .next s

/-- UART_TX_WRITE (R505, R514): a write of UAR_TXD. -/
def execUartTxWrite (b : Byte) (s : State) : Out := keepQueue s <|
  let s : State := { s with uart := { s.uart with last := b } }
  if s.rdB R.UAR_CTL 31 = true ∧ s.uart.tx.length < 64 then
    .next (({ s with uart := { s.uart with tx := s.uart.tx ++ [b] } } : State).countWrite 0x0A false)
  else .next ((s.ignoredWrite R.UAR_TXD).uarErr 8)

/-- UART_TX_CHAR (R503, R514): the oldest byte leaves, to the line or, with LOOP, to the receiver. -/
def execUartTxChar (s : State) : Out := keepQueue s <|
  match s.uart.tx with
  | [] => .next s
  | b :: tx =>
    let s : State := { s with uart := { s.uart with tx := tx } }
    let s := if s.rdB R.UAR_CTL 0 then s.rxStore ⟨b, false, false⟩ else s.conOut (.char b)
    .next (if tx.isEmpty then s.raise 0x0A 1 else s)

/-- UART_RXD_READ (R514): the oldest byte, VALID 0 when there is none. -/
def execUartRxdRead (s : State) : Out := keepQueue s <|
  let v := s.readReg R.UAR_RXD
  let s := (s.emit (.regData 0 R.UAR_RXD v)).bump (R.GEN_RD_CNT 0x0A)
  .next { s with uart := { s.uart with rx := s.uart.rx.drop 1 } }

/-- CON_HELP (R506). -/
def execConHelp (s : State) : Out := keepQueue s <| .next (s.conRun 0)
/-- CON_VER (R506). -/
def execConVer (s : State) : Out := keepQueue s <| .next (s.conRun 1)
/-- CON_STAT (R506). -/
def execConStat (s : State) : Out := keepQueue s <| .next (s.conRun 2)
/-- CON_TEMP (R506). -/
def execConTemp (s : State) : Out := keepQueue s <| .next (s.conRun 3)
/-- CON_ERR (R506). -/
def execConErr (s : State) : Out := keepQueue s <| .next (s.conRun 4)
/-- CON_LOG (R506). -/
def execConLog (s : State) : Out := keepQueue s <| .next (s.conRun 5)

end Sys2Proof.Machine
end

