-- ==== Sys2Proof/Machine/Jtag.lean ====
section
/-! DEFINITION. Chapter 17: the JTAG instructions (R507). A command loads the instruction and runs one pass of its data register. -/
namespace Sys2Proof.Machine
open Sys2Proof

namespace State

/-- Load an instruction: who drives the pins, and what its data register captures. -/
def tap (s : State) (ir : Byte) (drive dr : Nat) : State := { s with jtag := { s.jtag with ir := ir, drive := drive, dr := dr } }
/-- A pass of the boundary-scan register: it captures `pins`, and its cells become `cells` (R507: 67 cells in pin-number order). -/
def scan (s : State) (ir : Byte) (drive : Nat) (pins cells : List Bool) : State :=
  let u := s.tap ir drive (pins.foldr (fun b n => (if b then 1 else 0) + 2 * n) 0)
  { u with jtag := { u.jtag with cells := cells } }

end State

/-- EXTEST (R507): the outputs are driven from the cells. -/
def execExtest (pins cells : List Bool) (s : State) : Out := keepQueue s <|
  if pins.length ≠ 67 ∨ cells.length ≠ 67 then .refused (.illFormed "EXTEST") else .next (s.scan 0 1 pins cells)
/-- IDCODE (R507). -/
def execIdcode (s : State) : Out := keepQueue s <| .next (s.tap 1 0 0x1250034F)
/-- SAMPLE_PRELOAD (R507): the pins stay the core's. -/
def execSamplePreload (pins cells : List Bool) (s : State) : Out := keepQueue s <|
  if pins.length ≠ 67 ∨ cells.length ≠ 67 then .refused (.illFormed "SAMPLE_PRELOAD") else .next (s.scan 2 0 pins cells)
/-- CLAMP (R507): the outputs are held as the cells say; the bypass register captures 0. -/
def execClamp (s : State) : Out := keepQueue s <| .next (s.tap 4 2 0)
/-- HIGHZ (R507). -/
def execHighz (s : State) : Out := keepQueue s <| .next (s.tap 5 3 0)
/-- JTAG_DEBUG (R448, R507): BYPASS unless the path is open; then what its data register captures is not stated: a free value. -/
def execJtagDebug (op : Nat) (s : State) : Out := keepQueue s <|
  if op < 0x80 ∨ 0x8F < op then .next s
  else if s.rdB R.SEM_STAT 24 then
    .next (s.used.tap (BitVec.ofNat 8 op) 0 s.free.toNat)
  else .next (s.tap (BitVec.ofNat 8 op) 0 0)
/-- BYPASS (R507): every other code of the 8-bit instruction register. -/
def execBypass (op : Nat) (s : State) : Out := keepQueue s <|
  if 256 ≤ op ∨ op < 3 ∨ op = 4 ∨ op = 5 ∨ (0x80 ≤ op ∧ op ≤ 0x8F) then .next s else .next (s.tap (BitVec.ofNat 8 op) 0 0)

end Sys2Proof.Machine
end

