-- ==== Sys2Proof/Machine/Registers.lean ====
section
/-! DEFINITION. Chapter 17: reads and writes of registers (R6, R7, R421, R470, R490, R492, R495 to R499): the access rules, and every
register whose writing a chapter ties to a condition. A register with a command of its own is written by that command. -/
namespace Sys2Proof.Machine
open Sys2Proof

/-- The state a meaning answers with; `s` where it does not. -/
def nx (s : State) (o : Out) : State :=
  match o with
  | .next u => u
  | _ => s

/-- Registers that only the administrator writes (R412, R422). -/
def adminOnly (b : Blk) (off : Nat) : Bool :=
  match b with
  | .mpd => off == 0x140 || off == 0x144 || off == 0x154 || off == 0x158 || off == 0x15C
  | .adm => off == 0x114 || off == 0x118 || (decide (0x180 ≤ off) && decide (off < 0x1B4))
  | .rng => true
  | .sem => off == 0x104
  | _ => false

/-- The _LO registers whose read latches the _HI half, block by block (R499 and the register tables). -/
def latching (b : Blk) (off : Nat) : Bool :=
  match b with
  | .tim => off == 0x108
  | .rng => off == 0x124
  | .hst => off == 0x120 || off == 0x128
  | .ftl => off == 0x128 || off == 0x130
  | .crg => decide (0x800 ≤ off) && off % 8 == 0
  | .drp => off == 0x138 || off == 0x140
  | .rle => off == 0x108 || off == 0x110 || off == 0x14C
  | .fbd => off == 0x200
  | .red => off == 0x110
  | .hpt => off == 0x158 || off == 0x160 || off == 0x170
  | .xpt => off == 0x158 || off == 0x160 || off == 0x170
  | .mfu => off == 0x110 || off == 0x124 || off == 0x12C
  | .core => off == 0x110 || off == 0x118
  | _ => false
/-- Is the register at an address the _LO half of such a pair? -/
def latchingAt (a : Nat) : Bool :=
  match pageOf (a / 4096) with
  | some (b, _, _) => (rowAt a).isSome && latching b (a % 4096)
  | none => false

namespace State

/-! ### Interrupts -/

/-- A vector is unmasked: a message kept in its PBA bit is sent (R495). -/
def msixUnmask (s : State) (v : Nat) : State :=
  let e := Map.get s.msix Msix.none v
  let s : State := { s with msix := Map.set s.msix v { e with mask := false, pend := false } }
  if e.mask && e.pend then s.emit (.msix v) else s
/-- A write of an MSI-X table entry, 16 bytes each as PCI Express lays them out (R490, R495). -/
def msixWrite (s : State) (a : Nat) (w : Word32) : State :=
  let v := (a - 0xF00000) / 16
  let e := Map.get s.msix Msix.none v
  let set (e : Msix) : State := { s with msix := Map.set s.msix v e }
  match a % 16 / 4 with
  | 0 => set { e with addr := BitVec.ofNat 64 (e.addr.toNat / 2 ^ 32 * 2 ^ 32 + w.toNat / 4 * 4) }
  | 1 => set { e with addr := BitVec.ofNat 64 (e.addr.toNat % 2 ^ 32 + w.toNat * 2 ^ 32) }
  | 2 => set { e with data := w }
  | _ => if bit w 0 then set { e with mask := true } else s.msixUnmask v

/-- Bits of INT_SET set their INT_STAT bits, for test (R498). -/
def intSet (s : State) (p : Nat) (v : Word32) : State := pendEdge s (s.setBits (R.INT_STAT p) v) p

/-! ### Where a register's value is kept -/

/-- Set the value of a register: of the entry a select register names, where it shows one. -/
def storeAt (s : State) (b : Blk) (i a : Nat) (v : Word32) : State :=
  let off := a % 4096
  match b with
  | .drp =>
    if off = 0x120 then
      { s with ms := { s.ms with dieErr := Map.put s.ms.dieErr 0 (16 * i + s.rdF (R.DRP_DIE_SEL i) 3 0) v } }
    else s.wr a v
  | .mpd =>
    if off = 0x16C then
      let o := s.rdF R.MPD_OWN_SEL 6 0
      s.ownerSet o { s.owner o with flashRd := v }
    else s.wr a v
  | .hpt =>
    let l := s.rdF (preg i 0x14C) 3 0
    if off = 0x150 then s.laneSet i l { s.lane i l with corr := v }
    else if off = 0x154 then s.laneSet i l { s.lane i l with uncorr := v } else s.wr a v
  | .xpt =>
    let l := s.rdF (preg (32 + i) 0x14C) 3 0
    if off = 0x150 then s.laneSet (32 + i) l { s.lane (32 + i) l with corr := v }
    else if off = 0x154 then s.laneSet (32 + i) l { s.lane (32 + i) l with uncorr := v } else s.wr a v
  | .pwr =>
    if 0x15C ≤ off ∧ off < 0x170 then
      let s := s.rungSettle
      let s : State := { s with pwr := { s.pwr with acc := Map.put s.pwr.acc 0 ((off - 0x15C) / 4) 0 } }
      s.wr a v
    else s.wr a v
  | _ => s.wr a v

/-- A write by the fields of a register, each RO bit compared with what it reads (R6, R499). -/
def fieldsWrite (s : State) (b : Blk) (i a : Nat) (v : Word32) : State :=
  let old := s.readReg a
  let w := writeFields (fieldsAt a) old v
  (if w.1 = old then s else s.storeAt b i a w.1).countWrite (canon a / 4096) w.2

/-- Addresses of the restartable counters of a page (R498). -/
def restartAddrs (p : Nat) (b : Blk) : List Nat :=
  ((rowsCommon ++ blkRows b).filter (·.restart)).flatMap (fun r => (List.range r.count).map (fun j => 4096 * p + r.off + r.stride * j))
/-- CLR of a page (R498): its restartable counters, ERR_INFO and ERR_ADDR. -/
def clearPage (s : State) (p : Nat) : State :=
  match pageOf p with
  | some (b, _, i) => ((restartAddrs p b).foldl (fun u a => u.storeAt b i a 0) s).errClear p
  | none => s

/-- A write to a latch register (R7, R470): 1 to VALID clears the record, 1 to MORE alone clears MORE. -/
def latchWrite (s : State) (a : Nat) (v : Word32) : State :=
  let s := s.countWrite (canon a / 4096) (writeFields (fieldsAt a) (s.rd a) v).2
  if bit v 31 then (if a % 4096 = 0x28 then s.errClear (a / 4096) else s.wr a 0)
  else if bit v 30 then s.clrBits a 0x40000000#32 else s

/-- A write of the common layout (R498). -/
def commonWrite (s : State) (b : Blk) (i a : Nat) (v : Word32) : State :=
  let p := a / 4096
  let off := a % 4096
  if off = 0x10 then
    (if bit v 0 then let u := s.clearPage p; (if v = 1 then u else u.bump (R.GEN_IGN_CNT p)) else s.countWrite p (v != 0))
  else if off = 0x1C then pendEdge s (s.fieldsWrite b i a v) p
  else if off = 0x24 then (s.intSet p v).countWrite p false
  else if off = 0x28 then s.latchWrite a v
  else if off = 0x44 then s.wr a v
  else s.fieldsWrite b i a v

/-! ### Registers that a chapter ties to a condition -/

/-- One write counts once on the page it was made to, whatever its parts counted, and on whichever page (R498, R499). -/
def countOnce (s u : State) (a : Nat) (more : Bool) : State :=
  let p := a / 4096
  let q := canon a / 4096
  let ign := more || u.rd (R.GEN_IGN_CNT p) != s.rd (R.GEN_IGN_CNT p) || u.rd (R.GEN_IGN_CNT q) != s.rd (R.GEN_IGN_CNT q)
  let u := (u.wr (R.GEN_WR_CNT q) (s.rd (R.GEN_WR_CNT q))).wr (R.GEN_IGN_CNT q) (s.rd (R.GEN_IGN_CNT q))
  let u := (u.wr (R.GEN_WR_CNT p) (s.rd (R.GEN_WR_CNT p))).wr (R.GEN_IGN_CNT p) (s.rd (R.GEN_IGN_CNT p))
  u.countWrite p ign

/-- A write of command bits: each set bit in ascending order; a 1 in a reserved bit counts. -/
def cmdBits (s : State) (a : Nat) (v : Word32) (cs : List (State → Out)) : State :=
  let u := s.countWrite (canon a / 4096) (v.toNat / 2 ^ cs.length != 0)
  (cs.zipIdx).foldl (fun u c => if bit v c.2 then nx u (c.1 u) else u) u

/-- PWR_THERM_THR (R484): a throttle of 85 to 110 °C; an alert at least 5 °C above it, up to 110 °C. -/
def thermWrite (s : State) (v : Word32) : State :=
  let old := s.rd R.PWR_THERM_THR
  let x := fld v 7 0
  let y := fld v 15 8
  let okx := decide (85 ≤ x ∧ x ≤ 110)
  let t := if okx then x else fld old 7 0
  let oky := decide (t + 5 ≤ y ∧ y ≤ 110)
  (s.wr R.PWR_THERM_THR (w32 (t + 256 * (if oky then y else fld old 15 8)))).countWrite 5 (!okx || !oky || v.toNat / 65536 != 0)
/-- A register of a BAR2 window (R491, R512): the base while EN = 0; an OWNER of 0 to 63 or 0x7F. -/
def winWrite (s : State) (a : Nat) (v : Word32) : State :=
  let w := (a % 4096 - 0x200) / 16
  let o := fld v 6 0
  if a % 16 = 8 then
    (if 64 ≤ o ∧ o ≠ 0x7F then
      (s.fieldsWrite .hst 0 a (setFld v 6 0 (s.rdF a 6 0))).bump (R.GEN_IGN_CNT 8)
     else s.fieldsWrite .hst 0 a v)
  else if s.rdB (R.HST_WIN_CTL w) 31 then s.ignoredWrite a else s.fieldsWrite .hst 0 a v
/-- SMB_GPIO_DIR and SMB_GPIO_OUT (R511): the pins that are outputs take their new levels. -/
def gpioWrite (s : State) (a : Nat) (v : Word32) : State :=
  let u := s.fieldsWrite .smb 0 a v
  ((List.range 16).filter (fun g => u.rdB R.SMB_GPIO_DIR g && (!s.rdB R.SMB_GPIO_DIR g || s.gpioLevel g != u.gpioLevel g))).foldl
    (fun x g => x.emit (.gpio g (u.gpioLevel g))) u
/-- The selected model entry (R388, R398, R399): while VALID, neither its address, its coefficients nor NREC change, and VALID clears
only with no request of the model active. -/
def mdlWrite (s : State) (a : Nat) (v : Word32) : State :=
  let k := s.rdF R.ADM_MDL_SEL 3 0
  let m := s.mdl k
  let off := a % 4096
  let w := writeFields (fieldsAt a) (s.readReg a) v
  let set (m : Mdl) : State := { s.countWrite 0x90 w.2 with mdls := Map.put s.mdls Mdl.none k m }
  let busy := s.reqs.any (fun p => p.2.mdl == k)
  if bit m.ctl 31 ∧ off < 0x19C then s.ignoredWrite a
  else if off = 0x184 then set { m with addr := BitVec.ofNat 64 (m.addr.toNat / 2 ^ 32 * 2 ^ 32 + w.1.toNat) }
  else if off = 0x188 then set { m with addr := BitVec.ofNat 64 (m.addr.toNat % 2 ^ 32 + w.1.toNat * 2 ^ 32) }
  else if off = 0x18C then set { m with base := w.1 }
  else if off = 0x190 then set { m with row := w.1 }
  else if off = 0x194 then set { m with ctx := w.1 }
  else if off = 0x198 then set { m with prefill := w.1 }
  else if off = 0x19C then
    (if bit m.ctl 31 then
      (if fld v 5 0 ≠ fld m.ctl 5 0 ∨ (bit v 31 = false ∧ busy = true) then
        (if bit v 31 = false ∧ busy = false then ({ s with mdls := Map.put s.mdls Mdl.none k { m with ctl := setFld m.ctl 31 31 0 } } : State).ignoredWrite a
         else s.ignoredWrite a)
       else set { m with ctl := w.1 })
     else set { m with ctl := w.1 })
  else if off = 0x1A0 then set { m with rho := w.1 }
  else if off = 0x1A4 then set { m with hold := w.1 }
  else if off = 0x1A8 then set { m with margin := w.1 }
  else if off = 0x1AC then set { m with retry := w.1 }
  else s.countWrite 0x90 w.2
/-- RLE_CTL (R372): with HOLD cleared, the pieces that waited are taken. -/
def rleCtlWrite (s : State) (i a : Nat) (v : Word32) : State :=
  let u := s.fieldsWrite .rle i a v
  if bit v 0 then u else u.rleDrain
/-- FBD_NBR_PORTS (R221, R223, R246): at most four ports; a change of the live ports it lists is told to the peers of the dimension. -/
def nbrWrite (s : State) (a : Nat) (v : Word32) : State :=
  if 4 < ((List.range 32).filter (fun p => bit v p)).length then (s.ignoredWrite a).setBits R.FBD_ERR 2
  else
    let d := s.rdF R.FBD_NBR_SEL 9 8
    let c := s.rdF R.FBD_NBR_SEL 4 0
    let t : State := { s.countWrite 0xF0 false with nbr := Map.put s.nbr 0 (32 * d + c) v }
    if t.livePorts d c = s.livePorts d c then t
    else t.sendNotices d
/-- FBD_XDOM_ROUTE (R244, R246). -/
def xdomWrite (s : State) (a : Nat) (v : Word32) : State :=
  let w := writeFields (fieldsAt a) (s.readReg a) v
  { s.countWrite 0xF0 w.2 with xdom := Map.put s.xdom 0 (s.rdF R.FBD_XDOM_SEL 2 0) w.1 }
/-- The definition and window of the selected slot, ignored while EN = 1 (R251, R273). -/
def flkDefWrite (s : State) (a : Nat) (v : Word32) : State :=
  let f := s.rdF R.RED_FLK_SEL 5 0
  let k := s.flock f
  let w := writeFields (fieldsAt a) (s.readReg a) v
  let set (k : Flock) : State := (s.countWrite 0xF2 w.2).flockSet f k
  if k.on then s.ignoredWrite a
  else match a % 4096 with
    | 0x148 => set { k with base := w.1 }
    | 0x14C => set { k with cnt := w.1 }
    | 0x150 => set { k with win := w.1 }
    | 0x154 => set { k with waddr := BitVec.ofNat 64 (k.waddr.toNat / 2 ^ 32 * 2 ^ 32 + w.1.toNat) }
    | 0x158 => set { k with waddr := BitVec.ofNat 64 (k.waddr.toNat % 2 ^ 32 + w.1.toNat * 2 ^ 32) }
    | _ => s
/-- The selected flock-table entry (R252). -/
def tblWrite (s : State) (a : Nat) (v : Word32) : State :=
  let e := s.rdF R.RED_TBL_SEL 11 0
  let w := writeFields (fieldsAt a) (s.readReg a) v
  if s.slots.any (fun p => p.2.on && p.2.table && decide (fld p.2.base 14 0 ≤ e) && decide (e < fld p.2.base 14 0 + p.2.count)) then
    (s.ignoredWrite a).redErr 8
  else { s.countWrite 0xF2 w.2 with ftable := Map.put s.ftable 0 e w.1 }
/-- HPT_VC_DED (R198): the dedicated parts fit the receive buffer. -/
def dedWrite (s : State) (b : Blk) (i p a : Nat) (v : Word32) : State :=
  let sum (w : Word32) : Nat := fld w 7 0 + fld w 15 8 + fld w 23 16 + fld w 31 24
  let other := preg p (if a % 4096 = 0x120 then 0x124 else 0x120)
  if s.portFlits p < sum v + sum (s.rd other) then ((s.ignoredWrite a).setBits (preg p 0x16C) 1).raise (portPage p) 6
  else s.fieldsWrite b i a v
/-- A write of a port page. -/
def portWrite (s : State) (b : Blk) (i p a : Nat) (v : Word32) : State :=
  let off := a % 4096
  if off = 0x100 then nx s (if bit v 31 then execPortEnable p v s else execPortDisable p v s)
  else if off = 0x108 then s.cmdBits a v [execRetrain p, execFullTrain p, execRecal p]
  else if off = 0x120 ∨ off = 0x124 then s.dedWrite b i p a v
  else s.fieldsWrite b i a v
/-- A write of a CRG page (R134, R135). -/
def crgWrite (s : State) (t a : Nat) (v : Word32) : State :=
  let off := a % 4096
  let r := (off - 0x200) / 32
  if 0x800 ≤ off then
    nx s (if off % 8 = 0 then execDepCtrLoWrite t ((off - 0x800) / 8) v s else execDepCtrHiWrite t ((off - 0x800) / 8) v s)
  else if off < 0x200 then s.fieldsWrite .crg t a v
  else if off % 32 = 0xC then nx s (execRingDoorbell t r v s)
  else if off % 32 = 8 then nx s (if bit v 31 then execRingEnable t r v s else execRingDisable t r v s)
  else if (off % 32 = 0 ∨ off % 32 = 4 ∨ off % 32 = 0x14) ∧ s.ringEn t r = true then s.ignoredWrite a
  else s.fieldsWrite .crg t a v
/-- A write of an EVQ page (R137, R138). -/
def evqWrite (s : State) (t a : Nat) (v : Word32) : State :=
  let off := a % 4096
  let q := (off - 0x200) / 64
  if off < 0x200 then s.fieldsWrite .evq t a v
  else if off % 64 = 8 then nx s (if bit v 31 then execEvqEnable t q v s else execEvqDisable t q v s)
  else if off % 64 = 0xC then nx s (execEvqConsWrite t q v s)
  else if off % 64 = 0x1C then nx s (execFlush t q v s)
  else if (off % 64 = 0 ∨ off % 64 = 4) ∧ s.evqEn t q = true then s.ignoredWrite a
  else s.fieldsWrite .evq t a v

/-- A write of a block page beyond the common layout: the command a register has of its own, the condition its chapter sets, or its
fields. -/
def blkWrite (s : State) (b : Blk) (i a : Nat) (v : Word32) : State :=
  let off := a % 4096
  let plain := s.fieldsWrite b i a v
  match b with
  | .sem => if off = 0x110 ∧ bit v 0 = true ∧ s.rdB R.SEM_MBX_STAT 31 = true then s.ignoredWrite a else plain
  | .pwr => if off = 0x104 then nx s (execRungRequest v s) else if off = 0x124 then s.thermWrite v else plain
  | .tim =>
    if off = 0x12C then s.cmdBits a v [execStep, execReelect]
    else if off = 0x15C then nx s (execTrigCtlWrite v s)
    else if off = 0x160 then nx s (execTrigFtLoWrite v s)
    else if off = 0x164 then nx s (execTrigFtHiWrite v s) else plain
  | .rng =>
    if off = 0x108 then s.cmdBits a v [execSeed, execRewindAll]
    else if off = 0x120 ∧ genValid (fld v 17 0) = false then s.ignoredWrite a else plain
  | .hst =>
    if off = 0x108 then s.cmdBits a v [execHostRetrain] else if 0x200 ≤ off ∧ off < 0x300 then s.winWrite a v else plain
  | .smb => if off = 0x118 ∨ off = 0x11C then s.gpioWrite a v else plain
  | .uar => if off = 0x10C then (nx s (execUartTxWrite (v.setWidth 8) s)) else plain
  | .crg => s.crgWrite i a v
  | .evq => s.evqWrite i a v
  | .adm =>
    if off = 0x10C then nx s (execAdmDoorbell i v s)
    else if off = 0x138 then nx s (execAdmReqSelWrite i v s)
    else if 0x184 ≤ off ∧ off < 0x1B0 then s.mdlWrite a v else plain
  | .mpd =>
    if off = 0x144 then nx s (execRgnDataWrite v s)
    else if off = 0x158 then nx s (execQuotaWrite false v s)
    else if off = 0x15C then nx s (execQuotaWrite true v s) else plain
  | .drp =>
    if off = 0x100 then nx s (execDrpShareWrite i v s)
    else if off = 0x130 then (if bit v 1 then s.cmdBits a (v &&& 0xFFFFFFFE#32) [fun u => .next u, execImmediate i] else s.cmdBits a v [execEvacuate i, fun u => .next u])
    else plain
  | .ftl => if off = 0x114 then plain.spareStat else plain
  | .rle => if off = 0x100 then s.rleCtlWrite i a v else if off = 0x164 then s.cmdBits a v [execTurnAbort] else plain
  | .fbd =>
    if off = 0x100 then nx s (execPkgIdWrite v s)
    else if off = 0x104 then nx s (execShapeWrite v s)
    else if off = 0x10C then s.nbrWrite a v
    else if off = 0x118 then s.xdomWrite a v
    else if off = 0x130 then s.cmdBits a v [execDeclareLost, execClearLost] else plain
  | .red =>
    if off = 0x144 then nx s (if bit v 31 then execFlockEnable v s else execFlockDisable v s)
    else if 0x148 ≤ off ∧ off ≤ 0x158 then s.flkDefWrite a v
    else if off = 0x174 then s.cmdBits a v [execDrop, execAbort]
    else if off = 0x17C then s.tblWrite a v
    else if off = 0x184 then s.latchWrite a v else plain
  | .hpt => s.portWrite b i i a v
  | .xpt => s.portWrite b i (32 + i) a v
  | .cdie => if off = 0x10C then s.cmdBits a v [execFenceCore i, execFenceCluster i, execFenceDie i, execUnfence i, execSpareSwap i] else plain
  | .clu =>
    if off = 0x104 then nx s (execCluSramSplitWrite i v s)
    else if 0x400 ≤ off then nx s (execStageCtrWrite (256 * i + (off - 0x400) / 4) v s) else plain
  | .core => if off = 0x10C then nx s (execCoreSramSplitWrite i v s) else if off = 0x108 then s.latchWrite a v else plain
  | _ => plain

/-- A write of a register, whoever makes it (R412, R421, R422, R498, R499); an empty page takes nothing. -/
def regWrite (s : State) (a : Nat) (v : Word32) : State :=
  match pageOf (a / 4096) with
  | none => s
  | some (b, _, i) =>
    if (rowAt a).isNone then s.countWrite (a / 4096) (v != 0)
    else if adminOnly b (a % 4096) && (fieldsAt a).any (fun f => f.acc != .ro) && !s.adminOpen then s.adminDeny a
    else if a % 4096 < 0x100 then s.commonWrite b i a v
    else if a = R.PWR_CMD ∧ bit v 0 = true then nx s (execPkgReset s)
    else s.countOnce (s.blkWrite b i a v) a (b == .uar && a % 4096 == 0x10C && v.toNat / 256 != 0)

/-- What a read of a register answers, and what it leaves (R498, R499, R514): a _LO read latches the _HI half for the requester, a
_HI read returns what that requester latched; the count follows. -/
def regRead (s : State) (req a : Nat) : Word32 × State :=
  let hi := decide (4 ≤ a) && latchingAt (a - 4)
  let v := if hi then Map.get s.latched (s.readReg a) (req * 2 ^ 32 + a) else s.readReg a
  let s : State := if latchingAt a then { s with latched := Map.set s.latched (req * 2 ^ 32 + a + 4) (s.readReg (a + 4)) } else s
  let s : State := if a = R.UAR_RXD then { s with uart := { s.uart with rx := s.uart.rx.drop 1 } } else s
  (v, if (pageOf (a / 4096)).isSome then s.bump (R.GEN_RD_CNT (a / 4096)) else s)

end State

/-- Local address of a register (R141, R490). -/
def mmioAddr (a : Nat) : Nat := 0xF_0000_0000_0000 + a
/-- Is a page outside the register table (R496)? -/
def pageEmpty (p : Nat) : Bool := (pageOf p).isNone && decide (4 ≤ p) && !(decide (0xF00 ≤ p) && decide (p ≤ 0xF08))

/-- MSIX_UNMASK (R495). -/
def execMsixUnmask (v : Nat) (s : State) : Out := keepQueue s <| if v < 2048 then .next (s.msixUnmask v) else .next s

/-- INT_SET (R498): a write of INT_SET of page `p`. -/
def execIntSet (p : Nat) (v : Word32) (s : State) : Out := keepQueue s <| .next (s.regWrite (R.INT_SET p) v)

/-- CLR (R498): a write of CLR to BLK_CTL of page `p`. -/
def execClr (p : Nat) (s : State) : Out := keepQueue s <| .next (s.regWrite (R.BLK_CTL p) 1)

/-- ERR_LATCH_CLEAR (R470): a write of ERR_INFO, CORE_STRM_ERR or RED_TAG_ERR. -/
def execErrLatchClear (a : Nat) (v : Word32) (s : State) : Out := keepQueue s <|
  match pageOf (a / 4096) with
  | some (b, _, _) =>
    if a % 4096 = 0x28 ∨ (b = .core ∧ a % 4096 = 0x108) ∨ (b = .red ∧ a % 4096 = 0x184) then .next (s.regWrite a v) else .next s
  | none => .next s

/-- COUNTER_LO_READ (R499): requester 0 is the host, 1 the management processor, 2 the SMBus path. -/
def execCounterLoRead (req a : Nat) (s : State) : Out := keepQueue s <|
  if latchingAt a then
    let r := s.regRead req a
    .next (r.2.emit (.regData req a r.1))
  else .next s

/-- REGISTER_WRITE (R490, R492, R498, R499): a write of `size` bytes at MMIO address `a`. The host's accesses come by BAR0, whose
MSI-X pages only it has; what is not 4 aligned bytes, or lies outside the table, is refused. -/
def execRegisterWrite (req a size : Nat) (v : Word32) (s : State) : Out := keepQueue s <|
  if 2 ^ 24 ≤ a then .next s
  else if req = 0 then
    if s.hostOn = false then .next s
    else if size ≠ 4 ∨ a % 4 ≠ 0 then .next ((s.hostRefuse (mmioAddr a)).setBits R.HST_ERR 2)
    else if pageEmpty (a / 4096) then .next (s.hostRefuse (mmioAddr a))
    else if 0xF00 ≤ a / 4096 ∧ a / 4096 < 0xF08 then .next (s.msixWrite a v)
    else .next (s.regWrite a v)
  else if size = 4 ∧ a % 4 = 0 then .next (s.regWrite a v) else .next s

end Sys2Proof.Machine
end

