-- ==== Sys2Proof/Machine/Smbus.lean ====
section
/-! DEFINITION. Chapter 17: the SMBus target and the GPIO pins (R467, R500 to R502, R511, R513). -/
namespace Sys2Proof.Machine
open Sys2Proof

/-- One bit of SMBus's packet error check: CRC-8 with x⁸ + x² + x + 1, most significant bit first (SMBus 3.2; R9, R10). -/
def pecBits (n c : Nat) : Nat :=
  match n with
  | 0 => c
  | k + 1 => pecBits k (if c < 128 then 2 * c else (2 * c) ^^^ 0x107)
/-- The check after some bytes. The case split on it has the kernel evaluate byte by byte. -/
def pecRun : List Byte → Nat → Nat
  | [], c => c
  | b :: l, 0 => pecRun l (pecBits 8 b.toNat)
  | b :: l, c + 1 => pecRun l (pecBits 8 ((c + 1) ^^^ b.toNat))
/-- The PEC byte over the bytes of a transaction, from 0. -/
def pecOf (bs : List Byte) : Byte := BitVec.ofNat 8 (pecRun bs 0)

namespace State

/-- Is the always-on domain powered: does either input come in (R453)? -/
def powered (s : State) : Bool := s.pwr.main || s.rdB R.PWR_STAT 22
/-- Set bits of SMB_ERR, with the interrupt ERR (R513, R515). -/
def smbErr (s : State) (m : Word32) : State := (s.setBits R.SMB_ERR m).raise 0x09 1
/-- The target's address byte: the 7-bit address of R500, and the direction bit. -/
def smbAddr (read : Bool) : Byte := BitVec.ofNat 8 ((0x58 + 2 * b01 (Config.strap 1) + b01 (Config.strap 0)) * 2 + b01 read)
/-- The bytes of a read transaction that its PEC covers, in SMBus 3.2's order (R10, R500): address and command, what a process
call writes, the address again, and the data. Block data begin with their count. -/
def smbRead (code : Byte) (sent data : List Byte) : List Byte := [smbAddr false, code] ++ sent ++ [smbAddr true] ++ data
/-- Block data: the byte count, then the bytes. -/
def smbBlock (data : List Byte) : List Byte := BitVec.ofNat 8 data.length :: data
/-- A command served: counted, and answered, with the PEC over the whole transaction. -/
def smbServe (s : State) (code : Byte) (sent data : List Byte) : State :=
  (s.bump R.SMB_CMD_CNT).emit (.smb data (pecOf (smbRead code sent data)))
/-- A command NACKed at its command byte (R500). -/
def smbNacked (s : State) : State := (s.bump R.SMB_NACK_CNT).emit .smbNack
/-- An always-on command: served whenever the always-on domain is powered (R501). -/
def smbAlways (s : State) (code : Byte) (data : List Byte) : State := if s.powered then s.smbServe code [] data else s
/-- A command served from READY (R467, R501). -/
def smbReady (s : State) (f : State → State) : State :=
  if s.powered = false then s else if s.pkgReady then f s else s.smbNacked
/-- Set LAST_STATUS. -/
def lastStatus (s : State) (c : Byte) : State := { s with smb := { s.smb with last := c } }
/-- FW_VER of the running image of a stage, once it is loaded: all are at READY, and the first before it in every rung but Sleep. -/
def fwVerOf (s : State) (stage : Nat) : List Byte :=
  if s.pkgReady || (stage == 1 && s.rung != 4) then padTo 4 (slice (s.fwRunning stage) 0x0C 4) else leBytes 4 0

/-- Status 0x02 (R502): an empty page, an MSI-X page, or an offset not aligned or outside its page. -/
def smbNoReg (page off : Nat) : Bool := pageEmpty page || decide (0xF00 ≤ page) || off % 4 != 0 || decide (4096 ≤ off)
/-- The registers REG_WRITE may write (R502). -/
def smbMay (a : Nat) : Bool :=
  [R.PWR_RUNG_REQ, R.PWR_LIMIT, R.PWR_THERM_THR, R.PWR_CMD, R.PWR_TELEM_CTL, R.PWR_TELEM_DEST,
   R.SMB_GPIO_DIR, R.SMB_GPIO_OUT, R.SMB_GPIO_EDGE_EN, R.SMB_GPIO_EDGE].contains a

end State

/-- SMB_STATUS (R501). -/
def execSmbStatus (s : State) : Out := keepQueue s <|
  let p := s.rd R.PWR_STAT
  .next (s.smbAlways 0x00 (leBytes 2 (fld p 31 29 * 2 ^ 13 + b01 (bit p 27) * 2 ^ 12 + b01 (bit p 26) * 2 ^ 11 + b01 (bit p 23) * 2 ^ 10 +
    b01 (bit p 22) * 2 ^ 9 + b01 (bit p 28) * 2 ^ 8 + s.semState * 2 ^ 4)))
/-- SMB_POWER (R501). -/
def execSmbPower (s : State) : Out := keepQueue s <| .next (s.smbAlways 0x01 (leBytes 2 (s.rdF R.PWR_POWER 11 0)))
/-- SMB_VIN (R501). -/
def execSmbVin (s : State) : Out := keepQueue s <| .next (s.smbAlways 0x02 (leBytes 2 (s.rdF R.PWR_VIN 15 0)))
/-- SMB_TEMP_MAX (R463, R501): the hottest of every sensor; before READY, of those read so far, 0 while there is none. -/
def execSmbTempMax (s : State) : Out := keepQueue s <|
  let l := if s.pkgReady then List.range 41 else (s.pwr.temps.map (·.1)).filter (· < 41)
  .next (s.smbAlways 0x03 [if l.isEmpty then 0 else BitVec.ofInt 8 (s.hottest l)])
/-- SMB_FATAL (R501). -/
def execSmbFatal (s : State) : Out := keepQueue s <| .next (s.smbAlways 0x04 (leBytes 2 (s.rdF R.PWR_FATAL 15 0)))
/-- SMB_RESET_CAUSE (R501). -/
def execSmbResetCause (s : State) : Out := keepQueue s <| .next (s.smbAlways 0x05 (leBytes 1 (s.rdF R.PWR_RESET_CAUSE 7 0)))
/-- SMB_IDENT (R501). -/
def execSmbIdent (s : State) : Out := keepQueue s <|
  .next (s.smbAlways 0x06 (State.smbBlock (padTo 16 (Config.identity 0) ++ s.fwVerOf 1 ++ s.fwVerOf 2 ++ leBytes 8 0)))
/-- SMB_PROTO (R501). -/
def execSmbProto (s : State) : Out := keepQueue s <| .next (s.smbAlways 0x07 [1])

/-- SMB_SENSORS (R501): dies 0 to 24, lid 0 to 3, stacks 0 to 11. -/
def execSmbSensors (s : State) : Out := keepQueue s <|
  .next (s.smbReady (fun u => u.smbServe 0x10 [] (State.smbBlock ((List.range 41).map (fun i => BitVec.ofInt 8 (u.tempOf i))))))
/-- SMB_TELEM (R475, R501). -/
def execSmbTelem (s : State) : Out := keepQueue s <| .next (s.smbReady (fun u => u.smbServe 0x11 [] (State.smbBlock (padTo 64 u.pwr.unit100))))
/-- REG_READ (R501, R502): the data bytes beside a status other than OK are not stated: free values. -/
def execRegRead (page off : Nat) (s : State) : Out := keepQueue s <|
  let sent := State.smbBlock (leBytes 2 page ++ leBytes 2 off)
  .next (s.smbReady (fun u =>
    if State.smbNoReg page off then (u.used.lastStatus 2).smbServe 0x12 sent (State.smbBlock (2 :: leBytes 4 (u.free.toNat % 2 ^ 32)))
    else
      let r := u.regRead 2 (4096 * page + off)
      (r.2.lastStatus 0).smbServe 0x12 sent (State.smbBlock (0 :: leBytes 4 r.1.toNat))))
/-- The bytes of a REG_WRITE that its PEC covers. -/
def regWriteBytes (page off : Nat) (v : Word32) : List Byte :=
  [State.smbAddr false, 0x13] ++ State.smbBlock (leBytes 2 page ++ leBytes 2 off ++ leBytes 4 v.toNat)
/-- REG_WRITE (R500, R501, R502): `pec` is the PEC byte, where the host sent one. A write discarded for its PEC is not a command
served. -/
def execRegWrite (page off : Nat) (v : Word32) (pec : Option Byte) (s : State) : Out := keepQueue s <|
  .next (s.smbReady (fun u =>
    if (pec ≠ none ∧ pec ≠ some (pecOf (regWriteBytes page off v))) ∨ (pec = none ∧ u.rdB R.SMB_CTL 0 = true) then
      ((u.lastStatus 4).bump R.SMB_PEC_ERR_CNT).smbErr 2
    else
      let u := u.bump R.SMB_CMD_CNT
      if State.smbNoReg page off then u.lastStatus 2
      else if State.smbMay (4096 * page + off) then (u.lastStatus 0).regWrite (4096 * page + off) v
      else u.lastStatus 1))
/-- LAST_STATUS (R501, R502). -/
def execLastStatus (s : State) : Out := keepQueue s <| .next (s.smbReady (fun u => u.smbServe 0x14 [] [u.smb.last]))
/-- SMB_BUS_TIMEOUT (R500). -/
def execSmbBusTimeout (s : State) : Out := keepQueue s <| if s.powered then .next ((s.bump R.SMB_TMO_CNT).smbErr 4) else .next s

/-- GPIO_EDGE (R511, R513): a pin changes; an enabled edge is recorded. -/
def execGpioEdge (pin : Nat) (rising : Bool) (s : State) : Out := keepQueue s <|
  if 16 ≤ pin then .next s
  else
    let m : BitVec 16 := BitVec.ofNat 16 (2 ^ pin)
    let s : State := { s with smb := { s.smb with pins := if rising then s.smb.pins ||| m else s.smb.pins &&& ~~~m } }
    let k := if rising then pin else 16 + pin
    if s.rdB R.SMB_GPIO_EDGE_EN k then .next ((s.setBits R.SMB_GPIO_EDGE (BitVec.ofNat 32 (2 ^ k))).raise 0x09 0) else .next s

end Sys2Proof.Machine
end

