-- ==== Sys2Proof/Machine/Dispatch.lean ====
section
/-! DEFINITION. exec: each command to its meaning, one arm per row of the opcode table. -/
namespace Sys2Proof.Machine
open Sys2Proof

def exec (i : Instr) (s : State) : Host.Outcome State Fault Refusal :=
  match i with
  | .clockRefLost r => Sys2Proof.Machine.execClockRefLost r s
  | .coreSramSplitWrite c v => Sys2Proof.Machine.execCoreSramSplitWrite c v s
  | .cluSramSplitWrite u v => Sys2Proof.Machine.execCluSramSplitWrite u v s
  | .sramSplitApply cluster n => Sys2Proof.Machine.execSramSplitApply cluster n s
  | .drpShareWrite k v => Sys2Proof.Machine.execDrpShareWrite k v s
  | .arbitrationWindow k => Sys2Proof.Machine.execArbitrationWindow k s
  | .meshBundleFail die edge => Sys2Proof.Machine.execMeshBundleFail die edge s
  | .meshLinkRemap die edge => Sys2Proof.Machine.execMeshLinkRemap die edge s
  | .engineGroupStart e g ce ue => Sys2Proof.Machine.execEngineGroupStart e g ce ue s
  | .bankDrain e bank d => Sys2Proof.Machine.execBankDrain e bank d s
  | .streamIssue e h d => Sys2Proof.Machine.execStreamIssue e h d s
  | .streamContextFree c => Sys2Proof.Machine.execStreamContextFree c s
  | .stageWaitPass ctr => Sys2Proof.Machine.execStageWaitPass ctr s
  | .fillStart q => Sys2Proof.Machine.execFillStart q s
  | .streamComplete n slots => Sys2Proof.Machine.execStreamComplete n slots s
  | .stageSignal ctr => Sys2Proof.Machine.execStageSignal ctr s
  | .stageCtrWrite ctr v => Sys2Proof.Machine.execStageCtrWrite ctr v s
  | .slotRelease e slot release => Sys2Proof.Machine.execSlotRelease e slot release s
  | .nextOpPrefetch e h ds => Sys2Proof.Machine.execNextOpPrefetch e h ds s
  | .taskSwitch e cycles plans => Sys2Proof.Machine.execTaskSwitch e cycles plans s
  | .taskResume e cycles plans => Sys2Proof.Machine.execTaskResume e cycles plans s
  | .ringDoorbell t r v => Sys2Proof.Machine.execRingDoorbell t r v s
  | .ringEnable t r v => Sys2Proof.Machine.execRingEnable t r v s
  | .ringDisable t r v => Sys2Proof.Machine.execRingDisable t r v s
  | .recordFetch t r bytes ok => Sys2Proof.Machine.execRecordFetch t r bytes ok s
  | .recordDispatch t r => Sys2Proof.Machine.execRecordDispatch t r s
  | .depCtrLoWrite t n v => Sys2Proof.Machine.execDepCtrLoWrite t n v s
  | .depCtrHiWrite t n v => Sys2Proof.Machine.execDepCtrHiWrite t n v s
  | .triggerRelease n => Sys2Proof.Machine.execTriggerRelease n s
  | .fallbackRelease t r => Sys2Proof.Machine.execFallbackRelease t r s
  | .deadlineExpiry h => Sys2Proof.Machine.execDeadlineExpiry h s
  | .partComplete h u busy => Sys2Proof.Machine.execPartComplete h u busy s
  | .operatorComplete h colt => Sys2Proof.Machine.execOperatorComplete h colt s
  | .eventDeliver t q => Sys2Proof.Machine.execEventDeliver t q s
  | .evqConsWrite t q v => Sys2Proof.Machine.execEvqConsWrite t q v s
  | .flush t q v => Sys2Proof.Machine.execFlush t q v s
  | .flushApply t q => Sys2Proof.Machine.execFlushApply t q s
  | .evqEnable t q v => Sys2Proof.Machine.execEvqEnable t q v s
  | .evqDisable t q v => Sys2Proof.Machine.execEvqDisable t q v s
  | .evqHoldoffExpiry t q => Sys2Proof.Machine.execEvqHoldoffExpiry t q s
  | .copy h => Sys2Proof.Machine.execCopy h s
  | .fill h => Sys2Proof.Machine.execFill h s
  | .gather h => Sys2Proof.Machine.execGather h s
  | .tileMove h => Sys2Proof.Machine.execTileMove h s
  | .prefetch h => Sys2Proof.Machine.execPrefetch h s
  | .matmul h start => Sys2Proof.Machine.execMatmul h start s
  | .matmulSplitk h start => Sys2Proof.Machine.execMatmulSplitk h start s
  | .groupedMatmul h groups => Sys2Proof.Machine.execGroupedMatmul h groups s
  | .attnFwd h => Sys2Proof.Machine.execAttnFwd h s
  | .attnBwd h => Sys2Proof.Machine.execAttnBwd h s
  | .attnDecode h => Sys2Proof.Machine.execAttnDecode h s
  | .verifyStep h => Sys2Proof.Machine.execVerifyStep h s
  | .candidates h => Sys2Proof.Machine.execCandidates h s
  | .elementwise h f => Sys2Proof.Machine.execElementwise h f s
  | .rmsnorm h eps => Sys2Proof.Machine.execRmsnorm h eps s
  | .layernorm h eps => Sys2Proof.Machine.execLayernorm h eps s
  | .logsoftmax h => Sys2Proof.Machine.execLogsoftmax h s
  | .reduce h op => Sys2Proof.Machine.execReduce h op s
  | .rope h half rots => Sys2Proof.Machine.execRope h half rots s
  | .randMask h => Sys2Proof.Machine.execRandMask h s
  | .tokenLogprob h => Sys2Proof.Machine.execTokenLogprob h s
  | .entropy h => Sys2Proof.Machine.execEntropy h s
  | .groupAdv h => Sys2Proof.Machine.execGroupAdv h s
  | .gae h => Sys2Proof.Machine.execGae h s
  | .policyLoss h => Sys2Proof.Machine.execPolicyLoss h s
  | .klPenalty h => Sys2Proof.Machine.execKlPenalty h s
  | .sumsq h => Sys2Proof.Machine.execSumsq h s
  | .sweep h => Sys2Proof.Machine.execSweep h s
  | .fold h => Sys2Proof.Machine.execFold h s
  | .foldDurable h => Sys2Proof.Machine.execFoldDurable h s
  | .apply h => Sys2Proof.Machine.execApply h s
  | .receive h => Sys2Proof.Machine.execReceive h s
  | .receiveIdleTimeout h => Sys2Proof.Machine.execReceiveIdleTimeout h s
  | .nsOrtho h => Sys2Proof.Machine.execNsOrtho h s
  | .kronPrecond h => Sys2Proof.Machine.execKronPrecond h s
  | .commit h => Sys2Proof.Machine.execCommit h s
  | .resolve h => Sys2Proof.Machine.execResolve h s
  | .reduceScatter h => Sys2Proof.Machine.execReduceScatter h s
  | .allGather h => Sys2Proof.Machine.execAllGather h s
  | .allReduce h => Sys2Proof.Machine.execAllReduce h s
  | .broadcast h => Sys2Proof.Machine.execBroadcast h s
  | .send h => Sys2Proof.Machine.execSend h s
  | .recv h => Sys2Proof.Machine.execRecv h s
  | .remoteRead h => Sys2Proof.Machine.execRemoteRead h s
  | .remoteWrite h => Sys2Proof.Machine.execRemoteWrite h s
  | .remoteAtomic h => Sys2Proof.Machine.execRemoteAtomic h s
  | .remoteMove h => Sys2Proof.Machine.execRemoteMove h s
  | .turnover h => Sys2Proof.Machine.execTurnover h s
  | .rleConvertLocal h => Sys2Proof.Machine.execRleConvertLocal h s
  | .rleConvertSend h => Sys2Proof.Machine.execRleConvertSend h s
  | .rleFencePass h => Sys2Proof.Machine.execRleFencePass h s
  | .nop h => Sys2Proof.Machine.execNop h s
  | .event h => Sys2Proof.Machine.execEvent h s
  | .timestamp h => Sys2Proof.Machine.execTimestamp h s
  | .rgnDataWrite v => Sys2Proof.Machine.execRgnDataWrite v s
  | .quotaWrite flash v => Sys2Proof.Machine.execQuotaWrite flash v s
  | .mpdAccess x e => Sys2Proof.Machine.execMpdAccess x e s
  | .moveStart n => Sys2Proof.Machine.execMoveStart n s
  | .moveCommit n es r => Sys2Proof.Machine.execMoveCommit n es r s
  | .waitingWriteProceed k => Sys2Proof.Machine.execWaitingWriteProceed k s
  | .accessBitSample => Sys2Proof.Machine.execAccessBitSample s
  | .demotion o => Sys2Proof.Machine.execDemotion o s
  | .flashReadDone n r => Sys2Proof.Machine.execFlashReadDone n r s
  | .flashProgramDone n ok spare => Sys2Proof.Machine.execFlashProgramDone n ok spare s
  | .tierTimeout n => Sys2Proof.Machine.execTierTimeout n s
  | .patrolScrub k es => Sys2Proof.Machine.execPatrolScrub k es s
  | .evacuate k => Sys2Proof.Machine.execEvacuate k s
  | .immediate k => Sys2Proof.Machine.execImmediate k s
  | .evacTilePromote n => Sys2Proof.Machine.execEvacTilePromote n s
  | .ftlRefresh lt erased spare => Sys2Proof.Machine.execFtlRefresh lt erased spare s
  | .nandDieFail c => Sys2Proof.Machine.execNandDieFail c s
  | .flashChannelFail c => Sys2Proof.Machine.execFlashChannelFail c s
  | .amTransmit p => Sys2Proof.Machine.execAmTransmit p s
  | .amReceived p l skew raw => Sys2Proof.Machine.execAmReceived p l skew raw s
  | .laneErrorWindow p l bad => Sys2Proof.Machine.execLaneErrorWindow p l bad s
  | .lsw p x => Sys2Proof.Machine.execLsw p x s
  | .lpi p => Sys2Proof.Machine.execLpi p s
  | .wake p => Sys2Proof.Machine.execWake p s
  | .flitTransmit p => Sys2Proof.Machine.execFlitTransmit p s
  | .data p x => Sys2Proof.Machine.execData p x s
  | .idle p x => Sys2Proof.Machine.execIdle p x s
  | .nak p x => Sys2Proof.Machine.execNak p x s
  | .hello p x => Sys2Proof.Machine.execHello p x s
  | .creditInit p x => Sys2Proof.Machine.execCreditInit p x s
  | .recalReq p x => Sys2Proof.Machine.execRecalReq p x s
  | .keyReady p x => Sys2Proof.Machine.execKeyReady p x s
  | .rttPing p x => Sys2Proof.Machine.execRttPing p x s
  | .rttEcho p x => Sys2Proof.Machine.execRttEcho p x s
  | .replayTimeout p => Sys2Proof.Machine.execReplayTimeout p s
  | .nakHoldoffExpiry p => Sys2Proof.Machine.execNakHoldoffExpiry p s
  | .portEnable p v => Sys2Proof.Machine.execPortEnable p v s
  | .portDisable p v => Sys2Proof.Machine.execPortDisable p v s
  | .signalDetect p => Sys2Proof.Machine.execSignalDetect p s
  | .trainConverged p => Sys2Proof.Machine.execTrainConverged p s
  | .trainTimeout p => Sys2Proof.Machine.execTrainTimeout p s
  | .alignDone p => Sys2Proof.Machine.execAlignDone p s
  | .alignTimeout p => Sys2Proof.Machine.execAlignTimeout p s
  | .retrain p => Sys2Proof.Machine.execRetrain p s
  | .fullTrain p => Sys2Proof.Machine.execFullTrain p s
  | .recal p => Sys2Proof.Machine.execRecal p s
  | .recalAuto p => Sys2Proof.Machine.execRecalAuto p s
  | .recalAdaptDone p l => Sys2Proof.Machine.execRecalAdaptDone p l s
  | .oldKeyDrop p => Sys2Proof.Machine.execOldKeyDrop p s
  | .keyRotationDue p newKf => Sys2Proof.Machine.execKeyRotationDue p newKf s
  | .pkgIdWrite v => Sys2Proof.Machine.execPkgIdWrite v s
  | .shapeWrite v => Sys2Proof.Machine.execShapeWrite v s
  | .messageForward n => Sys2Proof.Machine.execMessageForward n s
  | .routeWaitTimeout n => Sys2Proof.Machine.execRouteWaitTimeout n s
  | .routeNotice d c lost => Sys2Proof.Machine.execRouteNotice d c lost s
  | .rd p own m => Sys2Proof.Machine.execRd p own m s
  | .wr p own m => Sys2Proof.Machine.execWr p own m s
  | .atomicAdd p own m => Sys2Proof.Machine.execAtomicAdd p own m s
  | .atomicFadd p own m => Sys2Proof.Machine.execAtomicFadd p own m s
  | .atomicSmin p own m => Sys2Proof.Machine.execAtomicSmin p own m s
  | .atomicSmax p own m => Sys2Proof.Machine.execAtomicSmax p own m s
  | .atomicUmin p own m => Sys2Proof.Machine.execAtomicUmin p own m s
  | .atomicUmax p own m => Sys2Proof.Machine.execAtomicUmax p own m s
  | .atomicAnd p own m => Sys2Proof.Machine.execAtomicAnd p own m s
  | .atomicOr p own m => Sys2Proof.Machine.execAtomicOr p own m s
  | .atomicXor p own m => Sys2Proof.Machine.execAtomicXor p own m s
  | .atomicSwap p own m => Sys2Proof.Machine.execAtomicSwap p own m s
  | .atomicCas p own m => Sys2Proof.Machine.execAtomicCas p own m s
  | .mv p own m => Sys2Proof.Machine.execMv p own m s
  | .mvOffer p own m => Sys2Proof.Machine.execMvOffer p own m s
  | .mvSend p own m => Sys2Proof.Machine.execMvSend p own m s
  | .mvData m good => Sys2Proof.Machine.execMvData m good s
  | .mvCommit p own m => Sys2Proof.Machine.execMvCommit p own m s
  | .mvRelease p own m => Sys2Proof.Machine.execMvRelease p own m s
  | .mvQuery p own m => Sys2Proof.Machine.execMvQuery p own m s
  | .mvQueryTimer g => Sys2Proof.Machine.execMvQueryTimer g s
  | .rsp p r => Sys2Proof.Machine.execRsp p r s
  | .nack p => Sys2Proof.Machine.execNack p s
  | .e2eTimeout p => Sys2Proof.Machine.execE2eTimeout p s
  | .declareLost => Sys2Proof.Machine.execDeclareLost s
  | .clearLost => Sys2Proof.Machine.execClearLost s
  | .flockEnable v => Sys2Proof.Machine.execFlockEnable v s
  | .flockDisable v => Sys2Proof.Machine.execFlockDisable v s
  | .collectiveStart f => Sys2Proof.Machine.execCollectiveStart f s
  | .chunkSend f => Sys2Proof.Machine.execChunkSend f s
  | .chunk src own c => Sys2Proof.Machine.execChunk src own c s
  | .chunkCtl src own m => Sys2Proof.Machine.execChunkCtl src own m s
  | .chunkNack src own m => Sys2Proof.Machine.execChunkNack src own m s
  | .collAbort src own m => Sys2Proof.Machine.execCollAbort src own m s
  | .chunkAckTimeout f => Sys2Proof.Machine.execChunkAckTimeout f s
  | .progTimeout f => Sys2Proof.Machine.execProgTimeout f s
  | .collectiveComplete f => Sys2Proof.Machine.execCollectiveComplete f s
  | .drop => Sys2Proof.Machine.execDrop s
  | .abort => Sys2Proof.Machine.execAbort s
  | .exchangeSum h => Sys2Proof.Machine.execExchangeSum h s
  | .followerStep h => Sys2Proof.Machine.execFollowerStep h s
  | .followerIdleTimeout h => Sys2Proof.Machine.execFollowerIdleTimeout h s
  | .replyTimeout r => Sys2Proof.Machine.execReplyTimeout r s
  | .kvSpill t => Sys2Proof.Machine.execKvSpill t s
  | .deltaData src own stream rewind pos data => Sys2Proof.Machine.execDeltaData src own stream rewind pos data s
  | .deltaAck src own stream pos => Sys2Proof.Machine.execDeltaAck src own stream pos s
  | .deltaResendTimeout h => Sys2Proof.Machine.execDeltaResendTimeout h s
  | .shardData src own m => Sys2Proof.Machine.execShardData src own m s
  | .shardAck src own version part q => Sys2Proof.Machine.execShardAck src own version part q s
  | .shardNack src own version part q reason => Sys2Proof.Machine.execShardNack src own version part q reason s
  | .shardResendTimeout h q => Sys2Proof.Machine.execShardResendTimeout h q s
  | .triggerTurnover => Sys2Proof.Machine.execTriggerTurnover s
  | .partSwap => Sys2Proof.Machine.execPartSwap s
  | .turnoverRelease => Sys2Proof.Machine.execTurnoverRelease s
  | .turnoverDeadline => Sys2Proof.Machine.execTurnoverDeadline s
  | .turnAbort => Sys2Proof.Machine.execTurnAbort s
  | .ppsPulse rising => Sys2Proof.Machine.execPpsPulse rising s
  | .ppsWindowExpiry => Sys2Proof.Machine.execPpsWindowExpiry s
  | .zdaSentence b => Sys2Proof.Machine.execZdaSentence b s
  | .timeSyncTimer => Sys2Proof.Machine.execTimeSyncTimer s
  | .timeSync p m => Sys2Proof.Machine.execTimeSync p m s
  | .syncLossTimeout => Sys2Proof.Machine.execSyncLossTimeout s
  | .holdoverExpiry => Sys2Proof.Machine.execHoldoverExpiry s
  | .step => Sys2Proof.Machine.execStep s
  | .reelect => Sys2Proof.Machine.execReelect s
  | .trigCtlWrite v => Sys2Proof.Machine.execTrigCtlWrite v s
  | .trigFtLoWrite v => Sys2Proof.Machine.execTrigFtLoWrite v s
  | .trigFtHiWrite v => Sys2Proof.Machine.execTrigFtHiWrite v s
  | .triggerRung n => Sys2Proof.Machine.execTriggerRung n s
  | .triggerGpio n => Sys2Proof.Machine.execTriggerGpio n s
  | .triggerIrq n => Sys2Proof.Machine.execTriggerIrq n s
  | .admDoorbell t v => Sys2Proof.Machine.execAdmDoorbell t v s
  | .new t bytes ok => Sys2Proof.Machine.execNew t bytes ok s
  | .resume t bytes ok => Sys2Proof.Machine.execResume t bytes ok s
  | .release t bytes ok => Sys2Proof.Machine.execRelease t bytes ok s
  | .admReqSelWrite t v => Sys2Proof.Machine.execAdmReqSelWrite t v s
  | .seed => Sys2Proof.Machine.execSeed s
  | .rewindAll => Sys2Proof.Machine.execRewindAll s
  | .drbgReseed => Sys2Proof.Machine.execDrbgReseed s
  | .noiseFail => Sys2Proof.Machine.execNoiseFail s
  | .status b => Sys2Proof.Machine.execStatus b s
  | .selftest b => Sys2Proof.Machine.execSelftest b s
  | .getCert b => Sys2Proof.Machine.execGetCert b s
  | .attest b => Sys2Proof.Machine.execAttest b s
  | .claim b => Sys2Proof.Machine.execClaim b s
  | .adminSet b => Sys2Proof.Machine.execAdminSet b s
  | .tenantCreate b => Sys2Proof.Machine.execTenantCreate b s
  | .tenantDestroy b => Sys2Proof.Machine.execTenantDestroy b s
  | .tenantDestroyDone t => Sys2Proof.Machine.execTenantDestroyDone t s
  | .modelGrant b => Sys2Proof.Machine.execModelGrant b s
  | .modelRekey b => Sys2Proof.Machine.execModelRekey b s
  | .fabricKey b => Sys2Proof.Machine.execFabricKey b s
  | .fabricActivate b => Sys2Proof.Machine.execFabricActivate b s
  | .fwUpdate b body => Sys2Proof.Machine.execFwUpdate b body s
  | .adminOpen b => Sys2Proof.Machine.execAdminOpen b s
  | .adminClose b => Sys2Proof.Machine.execAdminClose b s
  | .adminSessionExpiry => Sys2Proof.Machine.execAdminSessionExpiry s
  | .extend b => Sys2Proof.Machine.execExtend b s
  | .clearTamper b => Sys2Proof.Machine.execClearTamper b s
  | .zeroise b => Sys2Proof.Machine.execZeroise b s
  | .jtagUnlock b => Sys2Proof.Machine.execJtagUnlock b s
  | .authLockoutExpiry => Sys2Proof.Machine.execAuthLockoutExpiry s
  | .tamperTrip sensor => Sys2Proof.Machine.execTamperTrip sensor s
  | .sealedStoreErased => Sys2Proof.Machine.execSealedStoreErased s
  | .selftestFail test => Sys2Proof.Machine.execSelftestFail test s
  | .fabricRelease => Sys2Proof.Machine.execFabricRelease s
  | .powerOn aux => Sys2Proof.Machine.execPowerOn aux s
  | .modRstN => Sys2Proof.Machine.execModRstN s
  | .pkgReset => Sys2Proof.Machine.execPkgReset s
  | .perstN => Sys2Proof.Machine.execPerstN s
  | .functionLevelReset => Sys2Proof.Machine.execFunctionLevelReset s
  | .bootFallback stage => Sys2Proof.Machine.execBootFallback stage s
  | .rungRequest v => Sys2Proof.Machine.execRungRequest v s
  | .rungEntry => Sys2Proof.Machine.execRungEntry s
  | .autoWake => Sys2Proof.Machine.execAutoWake s
  | .mainUndervoltage => Sys2Proof.Machine.execMainUndervoltage s
  | .mainOvervoltage => Sys2Proof.Machine.execMainOvervoltage s
  | .railFault die => Sys2Proof.Machine.execRailFault die s
  | .powerLadderStep p high vin aux => Sys2Proof.Machine.execPowerLadderStep p high vin aux s
  | .powerOverload => Sys2Proof.Machine.execPowerOverload s
  | .thermalThrottle sensor temp => Sys2Proof.Machine.execThermalThrottle sensor temp s
  | .thermalAlert sensor temp => Sys2Proof.Machine.execThermalAlert sensor temp s
  | .thermalShutdown sensor temp => Sys2Proof.Machine.execThermalShutdown sensor temp s
  | .fatalError cause die => Sys2Proof.Machine.execFatalError cause die s
  | .telemetryPeriod => Sys2Proof.Machine.execTelemetryPeriod s
  | .coreFault c => Sys2Proof.Machine.execCoreFault c s
  | .coreSubstDone c => Sys2Proof.Machine.execCoreSubstDone c s
  | .unitFault die n => Sys2Proof.Machine.execUnitFault die n s
  | .fenceCore d => Sys2Proof.Machine.execFenceCore d s
  | .fenceCluster d => Sys2Proof.Machine.execFenceCluster d s
  | .fenceDie d => Sys2Proof.Machine.execFenceDie d s
  | .unfence d => Sys2Proof.Machine.execUnfence d s
  | .spareSwap d => Sys2Proof.Machine.execSpareSwap d s
  | .fenceTimeout c => Sys2Proof.Machine.execFenceTimeout c s
  | .fwCoreSwitch c => Sys2Proof.Machine.execFwCoreSwitch c s
  | .fwSwitchTimeout c => Sys2Proof.Machine.execFwSwitchTimeout c s
  | .bulkRead src stage tag off len => Sys2Proof.Machine.execBulkRead src stage tag off len s
  | .bulkData src stage tag off data => Sys2Proof.Machine.execBulkData src stage tag off data s
  | .bulkNack src stage tag => Sys2Proof.Machine.execBulkNack src stage tag s
  | .bulkTelem src data => Sys2Proof.Machine.execBulkTelem src data s
  | .bulkReadTimeout => Sys2Proof.Machine.execBulkReadTimeout s
  | .windowRead off len fresh => Sys2Proof.Machine.execWindowRead off len fresh s
  | .windowWrite off data poisoned => Sys2Proof.Machine.execWindowWrite off data poisoned s
  | .windowReadTimeout fresh => Sys2Proof.Machine.execWindowReadTimeout fresh s
  | .hostCplTimeout ring => Sys2Proof.Machine.execHostCplTimeout ring s
  | .hostRetrain => Sys2Proof.Machine.execHostRetrain s
  | .hostLinkDown => Sys2Proof.Machine.execHostLinkDown s
  | .msixUnmask v => Sys2Proof.Machine.execMsixUnmask v s
  | .intSet p v => Sys2Proof.Machine.execIntSet p v s
  | .clr p => Sys2Proof.Machine.execClr p s
  | .errLatchClear a v => Sys2Proof.Machine.execErrLatchClear a v s
  | .counterLoRead req a => Sys2Proof.Machine.execCounterLoRead req a s
  | .registerWrite req a size v => Sys2Proof.Machine.execRegisterWrite req a size v s
  | .smbStatus => Sys2Proof.Machine.execSmbStatus s
  | .smbPower => Sys2Proof.Machine.execSmbPower s
  | .smbVin => Sys2Proof.Machine.execSmbVin s
  | .smbTempMax => Sys2Proof.Machine.execSmbTempMax s
  | .smbFatal => Sys2Proof.Machine.execSmbFatal s
  | .smbResetCause => Sys2Proof.Machine.execSmbResetCause s
  | .smbIdent => Sys2Proof.Machine.execSmbIdent s
  | .smbProto => Sys2Proof.Machine.execSmbProto s
  | .smbSensors => Sys2Proof.Machine.execSmbSensors s
  | .smbTelem => Sys2Proof.Machine.execSmbTelem s
  | .regRead page off => Sys2Proof.Machine.execRegRead page off s
  | .regWrite page off v pec => Sys2Proof.Machine.execRegWrite page off v pec s
  | .lastStatus => Sys2Proof.Machine.execLastStatus s
  | .smbBusTimeout => Sys2Proof.Machine.execSmbBusTimeout s
  | .uartRxChar b fe brk => Sys2Proof.Machine.execUartRxChar b fe brk s
  | .uartTxWrite b => Sys2Proof.Machine.execUartTxWrite b s
  | .uartTxChar => Sys2Proof.Machine.execUartTxChar s
  | .uartRxdRead => Sys2Proof.Machine.execUartRxdRead s
  | .conHelp => Sys2Proof.Machine.execConHelp s
  | .conVer => Sys2Proof.Machine.execConVer s
  | .conStat => Sys2Proof.Machine.execConStat s
  | .conTemp => Sys2Proof.Machine.execConTemp s
  | .conErr => Sys2Proof.Machine.execConErr s
  | .conLog => Sys2Proof.Machine.execConLog s
  | .extest pins cells => Sys2Proof.Machine.execExtest pins cells s
  | .idcode => Sys2Proof.Machine.execIdcode s
  | .samplePreload pins cells => Sys2Proof.Machine.execSamplePreload pins cells s
  | .clamp => Sys2Proof.Machine.execClamp s
  | .highz => Sys2Proof.Machine.execHighz s
  | .jtagDebug op => Sys2Proof.Machine.execJtagDebug op s
  | .bypass op => Sys2Proof.Machine.execBypass op s
  | .gpioEdge pin rising => Sys2Proof.Machine.execGpioEdge pin rising s
  | .hostLinkUp speed width flit => Sys2Proof.Machine.execHostLinkUp speed width flit s
  | .busMasterEnable on => Sys2Proof.Machine.execBusMasterEnable on s
  | .auxiliaryInputChange on => Sys2Proof.Machine.execAuxiliaryInputChange on s
  | .opticReady p => Sys2Proof.Machine.execOpticReady p s
  | .opticFault p => Sys2Proof.Machine.execOpticFault p s
  | .thermalConditionEnd kind alert => Sys2Proof.Machine.execThermalConditionEnd kind alert s
  | .mpdFault m => Sys2Proof.Machine.execMpdFault m s

end Sys2Proof.Machine
end

