-- ==== Sys2Proof/WellFormed.lean ====
section
/-! DEFINITION. When a command is well formed: the lists it carries have the lengths the manual fixes. -/
namespace Sys2Proof

/-- Can a sender send this command (log entry 7)? Only lists of a fixed length are checked: a 128-byte record (R104, R387), a
64 KiB tile (R239), the 67 boundary cells (R507). Every other operand is judged by the command's own meaning. -/
def Instr.wf : Instr → Bool
  | .recordFetch _ _ bytes _ => bytes.length == 128
  | .new _ bytes _ => bytes.length == 128
  | .resume _ bytes _ => bytes.length == 128
  | .release _ bytes _ => bytes.length == 128
  | .mvData m _ => m.data.length == 65536
  | .extest pins cells => pins.length == 67 && cells.length == 67
  | .samplePreload pins cells => pins.length == 67 && cells.length == 67
  | _ => true

end Sys2Proof
end

