-- ==== Sys2Proof/Safety.lean ====
section
/-! DEFINITION. What a safe step is, and the terms claims are stated in. -/
namespace Sys2Proof.Machine
open Sys2Proof

/-- A step is safe when it ends in a next state. -/
def Safe (o : Out) : Prop := ∃ t, o = .next t

/-- Every command that waits is one a sender can send (log entry 7). -/
def QueueWf (s : State) : Prop := ∀ c ∈ s.pending, c.wf = true

/-- The fields of a register lie inside its word and apart from each other. -/
def FieldsFit (fs : List Fld) : Prop :=
  (∀ f ∈ fs, f.lo ≤ f.hi ∧ f.hi < 32) ∧ fs.Pairwise (fun f g => f.hi < g.lo ∨ g.hi < f.lo)

/-- Steps in a row: as many as `n`, while each ends in a next state. -/
def stepsTo : Nat → State → State → Prop
  | 0, s, t => t = s
  | n + 1, s, t => ∃ u, step s = .next u ∧ stepsTo n u t

/-- Every register but those named holds what it held. -/
def RegsKept (s t : State) (l : List Nat) : Prop := ∀ a, (∀ b ∈ l, canon a ≠ canon b) → t.rd a = s.rd a

/-- Registers alone change, and none but those named. -/
def OnlyRegs (s t : State) (l : List Nat) : Prop := t = { s with regs := t.regs } ∧ RegsKept s t l

/-- A waiter queue is served no further (R92): it is empty, or its head waits for more than `v`. -/
def HeadWaits (s : State) (l : List Nat) (v : Word32) : Prop :=
  ∀ n rest, l = n :: rest → ∃ x, Map.get? s.strm n = some x ∧ v.toNat < SD.waitAmt x.desc

/-- All that the start of a read of the unified range may change (R156, R157, R165, R173, R174): the flash reads outstanding, the access
bits, the owners' counts, the promotions asked, and the byte counts of the stacks' DRAM ports; of registers, those named change too. -/
def ReadFrame (s t : State) (l : List Nat) : Prop :=
  t.ms = { s.ms with reads := t.ms.reads, frames := t.ms.frames, own := t.ms.own, asks := t.ms.asks } ∧
  ∀ a, (∀ b ∈ l, canon a ≠ canon b) →
    (∀ k, canon a ≠ canon (R.DRP_RD_BYTES_LO k) ∧ canon a ≠ canon (R.DRP_RD_BYTES_LO k + 4)) → t.rd a = s.rd a

/-- Of registers, the byte counts of the stacks' DRAM ports and those named change at most (R174). -/
def DramRegs (s t : State) (l : List Nat) : Prop :=
  ∀ a, (∀ b ∈ l, canon a ≠ canon b) → (∀ k, canon a ≠ canon (R.DRP_RD_BYTES_LO k) ∧ canon a ≠ canon (R.DRP_RD_BYTES_LO k + 4) ∧
    canon a ≠ canon (R.DRP_WR_BYTES_LO k) ∧ canon a ≠ canon (R.DRP_WR_BYTES_LO k + 4)) → t.rd a = s.rd a

/-- Stream `n`, at the head of counter `ctr`'s queue, proceeds (R92): it is held on a slot, or runs; a fill that runs begins to read, and
but for that only the queue and the registers named have changed. -/
def Proceeds (s t : State) (ctr n : Nat) (rest : List Nat) (x : Strm) (l : List Nat) : Prop :=
  Map.get? t.strm n = some { x with st := if s.strmHeld n then .waitSlot else .run } ∧
  (∀ m, m ≠ n → Map.get? t.strm m = Map.get? s.strm m) ∧
  Map.get t.waiters [] ctr = rest ∧ (∀ c, c ≠ ctr → Map.get t.waiters [] c = Map.get s.waiters [] c) ∧ ReadFrame s t l ∧
  ((s.strmHeld n = true ∨ SD.spill x.desc = true) → t.ms = s.ms ∧ RegsKept s t l)

/-- What a stream's issue makes of an engine slot (R87): a fill reserves one that is FREE or FULL with nothing held on it, and is held
on any other; a spill is held on one in FILL. -/
def slotTaken (n : Nat) (spill : Bool) (v : Slot) : Slot :=
  if spill then (if v.st = .fill then { v with held := v.held ++ [.strm n] } else v)
  else if (v.st = .free ∨ v.st = .full) ∧ v.held = [] then { v with st := .fill } else { v with held := v.held ++ [.strm n] }

/-- Is slot `k` of engine `e` one that a stream takes part in (R74, R87)? -/
def Covers (d : StreamDesc) (e k : Nat) : Prop := SD.direct d = false ∧ k < 64 ∧ e * 64 + k < 0x20000 ∧ e * 64 + k ∈ slotsAll d

/-- Stream `n` takes a context (R83, R87, R92): its slots are reserved or hold it, and no other slot changes; it joins its counter's
queue, or is held on a slot, or runs, a fill that runs beginning to read. -/
def TookContext (s t : State) (n : Nat) (x : Strm) : Prop :=
  t = { s with strm := t.strm, eng := t.eng, waiters := t.waiters, ms := t.ms, regs := t.regs } ∧
  Map.get? t.strm n = some { x with st := if SD.waitEn x.desc then .waitCtr else if t.strmHeld n then .waitSlot else .run } ∧
  (∀ m, m ≠ n → Map.get? t.strm m = Map.get? s.strm m) ∧
  (∀ c, Map.get t.waiters [] c = if SD.waitEn x.desc = true ∧ c = SD.waitCtr x.desc then Map.get s.waiters [] c ++ [n]
    else Map.get s.waiters [] c) ∧
  (∀ e k, Covers x.desc e k → t.slot e k = slotTaken n (SD.spill x.desc) (s.slot e k)) ∧
  (∀ e k, ¬Covers x.desc e k → t.slot e k = s.slot e k) ∧ ReadFrame s t [] ∧
  ((SD.waitEn x.desc = true ∨ t.strmHeld n = true ∨ SD.spill x.desc = true) → t.ms = s.ms ∧ t.regs = s.regs)

/-- A bank's drain has been written (R54, R56, R87): the bank is free, its slots are FULL, the operator has more flags at most, and no
other slot, bank, engine, operator or byte changes; draws come from the operator's own copy. -/
def Drained (s t : State) (e b : Nat) (d : DrainPlan) (f : Fmt) : Prop :=
  t = { s with mem := t.mem, ms := { s.ms with poison := t.ms.poison }, eng := t.eng, ops := t.ops, rng := { s.rng with copies := t.rng.copies } } ∧
  t.bank e b = Bank.none ∧ (∀ c, (c = 0 ↔ b ≠ 0) → t.bank e c = s.bank e c) ∧ Map.get? (t.engine e).drains b = none ∧
  (∀ k ∈ State.drainSlots d f, (t.slot e k).st = .full) ∧ (∀ k, k ∉ State.drainSlots d f → t.slot e k = s.slot e k) ∧
  (∀ e', e' ≠ e → t.engine e' = s.engine e') ∧ (∀ o, s.op? d.op = some o → ∃ fl, t.op? d.op = some { o with flags := o.flags ||| fl }) ∧
  (∀ h, h ≠ d.op → t.op? h = s.op? h) ∧ (∀ k, k ≠ d.op * 2048 + e → Map.get? t.rng.copies k = Map.get? s.rng.copies k) ∧
  ∀ a, (∀ i, i < d.rows * d.cols → a < State.drainAddr e d i ∨ State.drainAddr e d i + max 1 (f.ebits / 8) ≤ a) →
    (f.isBlock = true → ∀ j, j * 32 < d.rows * d.cols → a ≠ State.drainScale e d j) → Mem.get t.mem a = Mem.get s.mem a

/-- The running task of an engine is suspended at a stall and another given the engine (R95 to R97): where it computes in its bank, the bank's
words are in the save slot, and no other byte changes; the switch is counted. -/
def Suspended (s t : State) (e : Nat) (k : Task) : Prop :=
  let mine := (s.bank e k.bank).st = .computing ∧ (s.bank e k.bank).op = k.op
  let at_ := slotAddr (e * 64 + State.saveSlot e) + State.freePlace (s.engine e).susp * 16384
  t = { s with mem := t.mem, ms := { s.ms with poison := t.ms.poison }, eng := t.eng, regs := t.regs } ∧
  t.rd (R.OXE_SW_CNT e) = satAdd32 (s.rd (R.OXE_SW_CNT e)) 1 ∧ RegsKept s t [R.OXE_SW_CNT e] ∧
  (∀ e', e' ≠ e → t.engine e' = s.engine e') ∧ (∀ j, t.slot e j = s.slot e j) ∧
  (∀ c, (c = 0 ↔ k.bank ≠ 0) → t.bank e c = s.bank e c) ∧
  (mine → Mem.read t.mem at_ (4 * (s.bank e k.bank).vals.length) = (s.bank e k.bank).vals.flatMap (fun w => leBytes 4 w.toNat)) ∧
  ∀ a, ¬mine ∨ a < at_ ∨ at_ + 4 * (s.bank e k.bank).vals.length ≤ a → Mem.get t.mem a = Mem.get s.mem a

/-- The entry of a task suspended so (R97). -/
def suspEntry (s : State) (e : Nat) (k : Task) : Susp :=
  ⟨k, if (s.bank e k.bank).st = .computing ∧ (s.bank e k.bank).op = k.op then s.bank e k.bank else Bank.none, State.freePlace (s.engine e).susp⟩

/-- The completion of a record is recorded (R113, R114, R516): the record is gone and no other, DONE of its ring advances by 1, its signal
adds SIG_AMT to its counter alone, saturating, a CODE other than OK sets that counter's FAULT bit, and no byte of memory changes. -/
def Recorded (s u : State) (h : Nat) (o : RunOp) (code : Byte) : Prop :=
  u.mem = s.mem ∧ u.op? h = none ∧ (∀ k, k ≠ h → u.op? k = s.op? k) ∧
  u.rd (R.CRG_RING_DONE o.tenant o.ring) = s.rd (R.CRG_RING_DONE o.tenant o.ring) + 1 ∧
  (CmdRecF.sigEn o.cmd = false → u.depCtr = s.depCtr) ∧
  (CmdRecF.sigEn o.cmd = true →
    u.dep o.tenant (CmdRecF.sigCtr o.cmd) = satAdd64 (s.dep o.tenant (CmdRecF.sigCtr o.cmd)) o.cmd.sigAmt.toNat ∧
    (∀ t n, n < 256 → ¬(t = o.tenant ∧ n = CmdRecF.sigCtr o.cmd) → u.dep t n = s.dep t n) ∧
    (code ≠ 0 → u.depFault o.tenant (CmdRecF.sigCtr o.cmd) = true))

/-- A running operator that no collective, group exchange, turnover or tile move holds. -/
def LoneOp (s : State) (h : Nat) : Prop :=
  Map.get? s.gsteps h = none ∧ (∀ t, s.turn = some t → t.op ≠ h) ∧ (∀ m ∈ s.ms.moves, m.2.why ≠ .op h) ∧
  ∀ f ∈ s.slots, (∀ c, f.2.run = some c → c.op ≠ h) ∧ ∀ c ∈ f.2.queue, c.op ≠ h

/-- Waiting for a condition, the ring that home core serves next, or another dispatch rule, the head record stands: the state in which it is
dispatched, on the rung Run (R112, R117, R458). -/
def DispatchReady (s u : State) (t r h : Nat) (o : RunOp) : Prop :=
  s.ringHead t r = some (h, o) ∧ refusal o.cmd = 0 ∧ s.corePaused (s.ringHome t r) = false ∧
  s.nextRing (s.ringHome t r) = some (16 * t + r) ∧ s.rungRuns = true ∧ u = s.rungUp

/-- A register write takes its ordinary effect (R6, R498, R499): the register takes what its fields accept, the write is counted on
its page, and counted as ignored where part of it had no effect; nothing else changes. -/
def RegWritten (s t : State) (a : Nat) (v : Word32) : Prop :=
  OnlyRegs s t [a, R.GEN_WR_CNT (a / 4096), R.GEN_IGN_CNT (a / 4096)] ∧
  t.rd a = (writeFields (fieldsAt a) (s.rd a) v).1 ∧
  t.rd (R.GEN_WR_CNT (a / 4096)) = satAdd32 (s.rd (R.GEN_WR_CNT (a / 4096))) 1 ∧
  t.rd (R.GEN_IGN_CNT (a / 4096)) = satAdd32 (s.rd (R.GEN_IGN_CNT (a / 4096)))
    (if (writeFields (fieldsAt a) (s.rd a) v).2 then 1 else 0)

/-- A register write is ignored (R499): it is counted twice over, and nothing else changes. -/
def RegIgnored (s t : State) (a : Nat) : Prop :=
  OnlyRegs s t [R.GEN_WR_CNT (a / 4096), R.GEN_IGN_CNT (a / 4096)] ∧
  t.rd (R.GEN_WR_CNT (a / 4096)) = satAdd32 (s.rd (R.GEN_WR_CNT (a / 4096))) 1 ∧
  t.rd (R.GEN_IGN_CNT (a / 4096)) = satAdd32 (s.rd (R.GEN_IGN_CNT (a / 4096))) 1

/-- An operator has been dispatched and not run, with no CODE, and is of this opcode (R112, R118). -/
def OpIssued (s : State) (h opc : Nat) (o : RunOp) : Prop :=
  s.op? h = some o ∧ o.dispatched = true ∧ o.ran = false ∧ o.code = 0 ∧ o.cmd.opcode.toNat = opc
/-- An operator stands ready for its effect: issued, and next on its units (R117). -/
def OpReady (s : State) (h opc : Nat) (o : RunOp) : Prop := OpIssued s h opc o ∧ s.mayStart h o = true

/-- The state in which an operator's effect is computed: it has begun to read its input tensors and the further ranges `rs` (R156, R165). -/
def State.begun (s : State) (h : Nat) (o : RunOp) (rs : List (Nat × Nat)) : State :=
  if o.touched then s else (s.opSet h { o with touched := true }).touchInputs h o rs

/-- Where the condition `p` holds, a command runs operator `h` by the effect `f` on the state in which its reads, `rs` beside its input
tensors, have begun. While one of them is outstanding the operator waits, and nothing but those reads begins. Else, where the effect succeeds
the next state is the one it answers with the operator marked as run; where it is refused with no write made, the operator has the CODE and
DETAIL given and has run, and beside operators and registers nothing changes. -/
def RunsWhen (c : Instr) (h opc : Nat) (rs : State → RunOp → List (Nat × Nat)) (p : State → RunOp → Prop)
    (f : RunOp → State → Except Err State) : Prop :=
  ∀ (s b : State) (o o' : RunOp), OpReady s h opc o → p s o → b = s.begun h o (rs s o) → o' = { o with touched := true } →
    (b.reading (.op h) = true → exec c s = .next { b with pending := s.pending }) ∧
    (b.reading (.op h) = false → ∃ t, exec c s = .next t ∧ t.pending = s.pending ∧
      (∀ u q, f o' b = .ok u → u.op? h = some q → t = { u with ops := t.ops, pending := s.pending } ∧
        t.op? h = some { q with ran := true } ∧ ∀ k, k ≠ h → t.op? k = u.op? k) ∧
      (∀ e, f o' b = .error e → e.left = none → t = { b with ops := t.ops, regs := t.regs, pending := s.pending } ∧
        (∃ q, t.op? h = some q ∧ q.ran = true ∧ q.code = BitVec.ofNat 8 e.code ∧ q.detail = BitVec.ofNat 8 e.detail) ∧
        ∀ k, k ≠ h → t.op? k = b.op? k))

/-- A command runs operator `h` by the effect `f`, as in `RunsWhen`, whatever the state, and once: an operator that has run is left as it
is. -/
def RunsBy (c : Instr) (h opc : Nat) (rs : State → RunOp → List (Nat × Nat)) (f : RunOp → State → Except Err State) : Prop :=
  RunsWhen c h opc rs (fun _ _ => True) f ∧
  ∀ (s : State) (o : RunOp), s.op? h = some o → o.ran = true → exec c s = .next s

/-- Nothing is read beside the input tensors. -/
def noReads (_ : State) (_ : RunOp) : List (Nat × Nat) := []

/-- What an UPDATE_SWEEP reads (R331, R333): its update map, and what its mode reads for the map's shards. -/
def mapReads (reads : List Shard → State → RunOp → List (Nat × Nat)) (s : State) (o : RunOp) : List (Nat × Nat) :=
  match s.mapOf o with
  | .ok m => (o.cmd.w0.toNat, 64 + 128 * m.2.length) :: reads m.2 s o
  | .error _ => []

/-- The gradients of shards (R335). -/
def gradReads (hs : List Shard) (_ : State) (_ : RunOp) : List (Nat × Nat) := hs.map (fun x => (x.grad, (if x.grad16 then 2 else 4) * x.n))

/-- An UPDATE_SWEEP record of one mode whose unused fields are 0 and whose MFUs take operators (R331, R349). -/
def SweepRec (mode : Nat) (s : State) (o : RunOp) : Prop :=
  State.sweepMode o.cmd = mode ∧ s.mfuHeld o = false ∧ fld o.cmd.w1 7 3 = 0 ∧ fld o.cmd.w1 63 9 = 0 ∧ o.cmd.w6 = 0 ∧
  (bit o.cmd.w1 8 = false ∨ mode = 2 ∨ mode = 3) ∧ (mode = 1 ∨ o.cmd.w7 = 0)

/-- The state in which a conversion begins (R156, R165): it has begun to read its descriptor, its commit block and its source. -/
def State.convBegun (s : State) (h : Nat) (o : RunOp) (d : RleDesc) : State :=
  if o.touched then s
  else (((s.opSet h { o with touched := true }).readWord o.cmd.w0).readWord (BitVec.ofNat 64 d.commit)).readTiles
    (srcSpans d d.row0 d.rows d.col0 d.ncol) (.op h)

/-- An SMBus command is served (R500, R501, R513): its data go out with the PEC over the whole transaction, SMB_CMD_CNT counts it, and
nothing else changes. -/
def SmbServed (s t : State) (code : Byte) (d : List Byte) : Prop :=
  t = { s with regs := t.regs, outbox := s.outbox ++ [.smb d (pecOf (State.smbRead code [] d))] } ∧ RegsKept s t [R.SMB_CMD_CNT] ∧
  t.rd R.SMB_CMD_CNT = satAdd32 (s.rd R.SMB_CMD_CNT) 1

/-- The package stands at the start of the power-up sequence (R155, R466, R468): the cause is recorded, the rung reads Idle with READY and
FATAL clear, no operator and no stream is left, tenants are kept, SRAM reads as blank (log entry 8), and with a journal every flash-homed
tile keeps its bytes. -/
def CameUp (s t : State) (cause : Nat) : Prop :=
  t.rd R.PWR_RESET_CAUSE = BitVec.ofNat 32 (2 ^ cause) ∧ t.rung = 1 ∧ t.rdB R.PWR_STAT 27 = false ∧ t.rdB R.PWR_STAT 26 = false ∧
  t.ops = [] ∧ t.strm = [] ∧ t.tenants = s.tenants ∧ (∀ a, uniEnd ≤ a → Mem.get t.mem a = Mem.blank) ∧
  (s.sem.journal = true → ∀ a, a < uniEnd → (s.tile (a / tileBytes)).st = .flash → Mem.get t.mem a = Mem.get s.mem a)

/-- The commands that receive a flit by port `p`. -/
def FlitCmds (p : Nat) (x : List LaneBlock) : List Instr :=
  [.data p x, .idle p x, .nak p x, .hello p x, .creditInit p x, .recalReq p x, .keyReady p x, .rttPing p x, .rttEcho p x]

/-- A slot shows port `p`, which takes flits, the unencrypted flit `f` whole, and the port needs no encryption (R188, R190, R445). -/
def FlitCame (s : State) (p : Nat) (x : List LaneBlock) (f : Flit) : Prop :=
  p < 36 ∧ (s.portState p = 4 ∨ s.portState p = 5 ∨ s.portState p = 7) ∧ slotKind (s.rd (preg p 0x110)) (s.rxLanes p) x = .flit f ∧
  f.crc = flitCrc f ∧ f.type.toNat ≤ 3 ∧ bit f.flg 5 = false ∧ (s.port p).encOn = false

/-- TAG_MISMATCH on flock `f` (R266, R271): latched in RED_TAG_ERR, or MORE where one stands there, with its interrupt; no collective runs on
the flock, and COLL_ABORT has gone to the successor. -/
def TagEnded (s t : State) (f detail cur : Nat) : Prop :=
  t.rd R.RED_TAG_ERR = (if s.rdB R.RED_TAG_ERR 31 then s.rd R.RED_TAG_ERR ||| 0x40000000#32
    else BitVec.ofNat 32 (2 ^ 31 + f * 2 ^ 24 + detail * 2 ^ 16 + cur % 65536)) ∧
  t.rdB (R.INT_STAT (redPage f)) 0 = true ∧ (t.flock f).run = none ∧
  ∃ k r, Map.get? t.router k = some r ∧ r.m.cls = 0x23 ∧ r.m.dest = s.flkSucc (s.flock f)

/-- Message `n` has left the router, and its flits the buffer of the port it came by: their credits go back (R191, R198), where none is
withheld. -/
def LeftRouter (s t : State) (n : Nat) (r : RMsg) : Prop :=
  t.router = Map.erase s.router n ∧ (36 ≤ r.inPort → ∀ q, (t.port q).owed = (s.port q).owed) ∧
  (r.inPort < 36 → (s.port r.inPort).leaving = 0 →
    Map.get (t.port r.inPort).owed 0 r.m.vc = Map.get (s.port r.inPort).owed 0 r.m.vc + r.flits)

/-- Of the ports only `p` changes, and beside ports only registers and what is sent. -/
def PortOnly (s t : State) (p : Nat) : Prop :=
  t = { s with regs := t.regs, ports := t.ports, outbox := t.outbox, msix := t.msix } ∧ ∀ q, q ≠ p → t.port q = s.port q

/-- A mailbox service can be taken and is not refused (R423 to R425): its block names it, the mailbox is not busy, host memory answers, and
every test passes. -/
def SvcReady (s : State) (svc : Nat) (b : List Byte) : Prop :=
  (mbxOf b).service = svc ∧ s.rdB R.SEM_MBX_STAT 31 = false ∧ s.hostReach = true ∧ (s.countWrite 4 false).mbxRefuse svc (mbxOf b) = none

/-- The state a service begins in: its write is counted, and an authenticated request clears the run of failures (R420). -/
def svcIn (s : State) (b : List Byte) : State :=
  if (mbxOf b).role = 0 then s.countWrite 4 false
  else { s.countWrite 4 false with sem := { (s.countWrite 4 false).sem with fails := 0 } }

/-- The payload of a request past its public key (R420, R423). -/
def svcPay (b : List Byte) : List Byte := if (mbxOf b).role = 0 then (mbxOf b).pay else (mbxOf b).pay.drop 97

/-- A service has answered (R423): status and output written to the mailbox block, SEM_MBX_STAT and its interrupt set. -/
def Answered (s t : State) (svc status : Nat) (out : List Byte) : Prop :=
  (∃ ind l, t.outbox = s.outbox ++ .hostWrite (s.rd64 R.SEM_MBX_ADDR_LO / 4096 * 4096 + 0x1000)
    (leBytes 2 status ++ [ind, 0] ++ leBytes 4 out.length ++ leBytes 56 0 ++ out) false :: l) ∧
  t.rd R.SEM_MBX_STAT = BitVec.ofNat 32 (svc * 256 + status % 256) ∧ t.rdB (R.INT_STAT 4) 0 = true

/-- A zeroisation has begun (R447, R448): the administrator session is closed, no port holds a key, and no tenant, fabric key or sealed
identity is gone yet. -/
def ZeroBegun (s t : State) : Prop :=
  t.adminOpen = false ∧ t.sem.endAt = none ∧ (∀ p, p < 36 → (t.port p).tx.on = false ∧ (t.port p).rx.on = false) ∧
  t.tenants = s.tenants ∧ t.kf = s.kf ∧ t.sem.admins = s.sem.admins ∧ t.sem.kak = s.sem.kak

/-- A service has answered and, beside the SEM's own state, changed only registers and what is sent. -/
def SvcOnly (s t : State) (svc status : Nat) (out : List Byte) : Prop :=
  Answered s t svc status out ∧ t = { s with regs := t.regs, outbox := t.outbox, msix := t.msix, freeCtr := t.freeCtr, sem := t.sem }

end Sys2Proof.Machine
end

