-- ==== Sys2Proof/Certificates/Slice0/Obligations.lean ====
section
/-! DEFINITION. The statements for the provers. Each says of the commands it names that they end in a next state, what that state
holds, and what they leave as it was. A state is compared as a record: an equation t = (s with some fields of t) says that every
other field is as it was. -/
open Sys2Proof Sys2Proof.Machine

/-- CORE_SRAM_SPLIT_WRITE and CLU_SRAM_SPLIT_WRITE are ordinary register writes. SRAM_SPLIT_APPLY, with no operator on the core or
cluster, copies REQ to GEN and touches no other register. DRP_SHARE_WRITE whose bytes sum to 100 is taken whole and clears SHARE_ERR;
any other leaves the shares and sets it. ARBITRATION_WINDOW puts the shares written in force. MESH_BUNDLE_FAIL counts the failure,
drains the link, from the fifth on at half width, and raises MESH_REPAIR on every compute die at its ends (the model's choice, log entry
57), and on no other page; MESH_LINK_REMAP ends the draining of that link alone, and messages whose way is held by another link stay held. -/
def Obligations.SplitShareMesh : Prop :=
  (∀ (s : State) (c : Nat) (v : Word32), c < 384 →
    ∃ t, exec (.coreSramSplitWrite c v) s = .next t ∧ RegWritten s t (R.CORE_SRAM_SPLIT c) v) ∧
  (∀ (s : State) (u : Nat) (v : Word32), u < 64 →
    ∃ t, exec (.cluSramSplitWrite u v) s = .next t ∧ RegWritten s t (R.CLU_SRAM_SPLIT u) v) ∧
  (∀ (s : State) (c : Nat), c < 384 → s.coreBusy c = false →
    ∃ t, exec (.sramSplitApply false c) s = .next t ∧ OnlyRegs s t [R.CORE_SRAM_SPLIT c] ∧
      t.rdF (R.CORE_SRAM_SPLIT c) 4 0 = s.rdF (R.CORE_SRAM_SPLIT c) 20 16 ∧
      t.rdF (R.CORE_SRAM_SPLIT c) 31 5 = s.rdF (R.CORE_SRAM_SPLIT c) 31 5) ∧
  (∀ (s : State) (u : Nat), u < 64 → s.clusterBusy u = false →
    ∃ t, exec (.sramSplitApply true u) s = .next t ∧ OnlyRegs s t [R.CLU_SRAM_SPLIT u] ∧
      t.rdF (R.CLU_SRAM_SPLIT u) 7 0 = s.rdF (R.CLU_SRAM_SPLIT u) 23 16 ∧
      t.rdF (R.CLU_SRAM_SPLIT u) 31 8 = s.rdF (R.CLU_SRAM_SPLIT u) 31 8) ∧
  (∀ (s : State) (k : Nat) (v : Word32), k < 12 →
    ∃ t, exec (.drpShareWrite k v) s = .next t ∧
      OnlyRegs s t [R.DRP_SHARE k, R.DRP_FENCE_STAT k, R.GEN_WR_CNT (R.DRP_SHARE k / 4096), R.GEN_IGN_CNT (R.DRP_SHARE k / 4096)] ∧
      t.rd (R.DRP_SHARE k) = (if fld v 7 0 + fld v 15 8 + fld v 23 16 + fld v 31 24 = 100 then v else s.rd (R.DRP_SHARE k)) ∧
      t.rdF (R.DRP_FENCE_STAT k) 29 29 = (if fld v 7 0 + fld v 15 8 + fld v 23 16 + fld v 31 24 = 100 then 0 else 1)) ∧
  (∀ (s : State) (k : Nat), k < 12 →
    ∃ t, exec (.arbitrationWindow k) s = .next t ∧ t = { s with ms := { s.ms with shareNow := t.ms.shareNow } } ∧
      t.shareNow k = s.rd (R.DRP_SHARE k) ∧ ∀ j, j ≠ k → t.shareNow j = s.shareNow j) ∧
  (∀ (s : State) (die edge k : Nat), State.linkKey die edge = some k →
    ∃ t, exec (.meshBundleFail die edge) s = .next t ∧
      t = { s with mesh := t.mesh, regs := t.regs, outbox := t.outbox, msix := t.msix } ∧
      t.link k = ⟨(s.link k).failed + 1, (s.link k).half || decide (4 ≤ (s.link k).failed), true⟩ ∧
      (∀ j, j ≠ k → t.link j = s.link j) ∧ RegsKept s t ((State.linkEnds k).map (fun d => R.INT_STAT (0x130 + d))) ∧
      (∀ d ∈ State.linkEnds k, t.rdB (R.INT_STAT (0x130 + d)) 4 = true)) ∧
  (∀ (s : State) (die edge k : Nat), State.linkKey die edge = some k → s.meshQ = [] →
    ∃ t, exec (.meshLinkRemap die edge) s = .next t ∧ t = { s with mesh := t.mesh } ∧
      t.link k = { s.link k with draining := false } ∧ ∀ j, j ≠ k → t.link j = s.link j) ∧
  (∀ (s : State) (die edge k : Nat), State.linkKey die edge = some k →
    (∀ m ∈ s.meshQ, ({ s with mesh := Map.set s.mesh k { s.link k with draining := false } } : State).meshHeld m.src m.dst = true) →
    ∃ t, exec (.meshLinkRemap die edge) s = .next t ∧ t = { s with mesh := t.mesh } ∧
      t.link k = { s.link k with draining := false } ∧ ∀ j, j ≠ k → t.link j = s.link j)

/-- STAGE_SIGNAL takes one signal off its way, counts it, and adds 1 to the counter, which stays at 0xFFFF_FFFF with the overflow
recorded; a head waiter whose WAIT_AMT the new value does not reach stays, and one it reaches proceeds at once, its amount taken.
STAGE_CTR_WRITE is an ordinary register write with the same test, and STAGE_WAIT_PASS the test alone. A waiter that proceeds is held on a
slot or runs, and the next one stays where what is left does not reach its amount. -/
def Obligations.StageCounters : Prop :=
  (∀ (s : State) (ctr : Nat), ctr < 16384 → 0 < Map.get s.sigs 0 ctr →
    let a := R.CLU_STAGE_CTR (ctr / 256) (ctr % 256)
    let w : Word32 := if s.rd a = 0xFFFFFFFF then 0xFFFFFFFF else s.rd a + 1
    HeadWaits s (Map.get s.waiters [] ctr) w →
    ∃ t, exec (.stageSignal ctr) s = .next t ∧ t = { s with sigs := t.sigs, regs := t.regs } ∧
      Map.get t.sigs 0 ctr = Map.get s.sigs 0 ctr - 1 ∧ (∀ c, c ≠ ctr → Map.get t.sigs 0 c = Map.get s.sigs 0 c) ∧
      t.rd a = w ∧ RegsKept s t [a, R.CLU_SIG_CNT (ctr / 256), R.CLU_CTR_ERR (ctr / 256)] ∧
      t.rd (R.CLU_SIG_CNT (ctr / 256)) = satAdd32 (s.rd (R.CLU_SIG_CNT (ctr / 256))) 1 ∧
      (s.rd a = 0xFFFFFFFF → t.rdB (R.CLU_CTR_ERR (ctr / 256)) 31 = true) ∧
      (s.rd a ≠ 0xFFFFFFFF → t.rd (R.CLU_CTR_ERR (ctr / 256)) = s.rd (R.CLU_CTR_ERR (ctr / 256)))) ∧
  (∀ (s : State) (ctr n : Nat) (rest : List Nat) (x : Strm), ctr < 16384 → 0 < Map.get s.sigs 0 ctr →
    Map.get s.waiters [] ctr = n :: rest → Map.get? s.strm n = some x →
    let a := R.CLU_STAGE_CTR (ctr / 256) (ctr % 256)
    let w : Word32 := if s.rd a = 0xFFFFFFFF then 0xFFFFFFFF else s.rd a + 1
    SD.waitAmt x.desc ≤ w.toNat → HeadWaits s rest (w - BitVec.ofNat 32 (SD.waitAmt x.desc)) →
    ∃ t, exec (.stageSignal ctr) s = .next t ∧
      t = { s with sigs := t.sigs, regs := t.regs, waiters := t.waiters, strm := t.strm, ms := t.ms } ∧
      Map.get t.sigs 0 ctr = Map.get s.sigs 0 ctr - 1 ∧ (∀ c, c ≠ ctr → Map.get t.sigs 0 c = Map.get s.sigs 0 c) ∧
      t.rd a = w - BitVec.ofNat 32 (SD.waitAmt x.desc) ∧ t.rd (R.CLU_SIG_CNT (ctr / 256)) = satAdd32 (s.rd (R.CLU_SIG_CNT (ctr / 256))) 1 ∧
      Proceeds s t ctr n rest x [a, R.CLU_SIG_CNT (ctr / 256), R.CLU_CTR_ERR (ctr / 256)]) ∧
  (∀ (s : State) (ctr : Nat) (v : Word32), ctr < 16384 →
    let a := R.CLU_STAGE_CTR (ctr / 256) (ctr % 256)
    HeadWaits s (Map.get s.waiters [] ctr) (writeFields (fieldsAt a) (s.rd a) v).1 →
    ∃ t, exec (.stageCtrWrite ctr v) s = .next t ∧ RegWritten s t a v) ∧
  (∀ (s : State) (ctr n : Nat) (v : Word32) (rest : List Nat) (x : Strm), ctr < 16384 →
    Map.get s.waiters [] ctr = n :: rest → Map.get? s.strm n = some x →
    let a := R.CLU_STAGE_CTR (ctr / 256) (ctr % 256)
    let w := (writeFields (fieldsAt a) (s.rd a) v).1
    SD.waitAmt x.desc ≤ w.toNat → HeadWaits s rest (w - BitVec.ofNat 32 (SD.waitAmt x.desc)) →
    ∃ t, exec (.stageCtrWrite ctr v) s = .next t ∧ t = { s with regs := t.regs, waiters := t.waiters, strm := t.strm, ms := t.ms } ∧
      t.rd a = w - BitVec.ofNat 32 (SD.waitAmt x.desc) ∧
      Proceeds s t ctr n rest x [a, R.GEN_WR_CNT (a / 4096), R.GEN_IGN_CNT (a / 4096)]) ∧
  (∀ (s : State) (ctr : Nat), HeadWaits s (Map.get s.waiters [] ctr) (s.rd (R.CLU_STAGE_CTR (ctr / 256) (ctr % 256))) →
    exec (.stageWaitPass ctr) s = .next s) ∧
  (∀ (s : State) (ctr n : Nat) (rest : List Nat) (x : Strm), Map.get s.waiters [] ctr = n :: rest → Map.get? s.strm n = some x →
    let a := R.CLU_STAGE_CTR (ctr / 256) (ctr % 256)
    SD.waitAmt x.desc ≤ (s.rd a).toNat → HeadWaits s rest (s.rd a - BitVec.ofNat 32 (SD.waitAmt x.desc)) →
    ∃ t, exec (.stageWaitPass ctr) s = .next t ∧ t = { s with regs := t.regs, waiters := t.waiters, strm := t.strm, ms := t.ms } ∧
      (t.rd a).toNat + SD.waitAmt x.desc = (s.rd a).toNat ∧ Proceeds s t ctr n rest x [a])

/-- STREAM_ISSUE of a descriptor that passes its checks makes a stream of it, in a context where one is free and none is held for one, and
else held; a refused one ends its operator with CODE 2 and the check's code, one whose write the tenant may not make with that CODE.
STREAM_CONTEXT_FREE gives the context to the oldest held descriptor. FILL_START starts a held stream or drain when every slot's head is
ready. SLOT_RELEASE moves a slot from USE. STREAM_COMPLETE of a running fill moves its elements, its slots, or those of its first part
(the model's choice of a command, log entry 60), becoming FULL, and one past its last element sends its signal where none of its writes is
still on its way and none was refused; in a fill no byte of the unified range changes, a direct-port stream moves nothing. A spill ends,
or waits for its writes. NEXT_OP_PREFETCH issues the streams whose slots are all FREE or FULL, and no other. -/
def Obligations.StreamUnit : Prop :=
  (∀ (s : State) (e h : Nat) (d : StreamDesc) (o : RunOp), e < 1536 → s.op? h = some o → s.streamCheck o e d = 0 →
    s.spillDeny o d = none → s.ctxUsed (e / 4) < 16 → s.heldDesc (e / 4) = none →
    ∃ t, exec (.streamIssue e h d) s = .next t ∧ TookContext s t (Map.nextKey s.strm) ⟨e / 4, e, h, d, .noContext, 0, false⟩) ∧
  (∀ (s : State) (e h : Nat) (d : StreamDesc) (o : RunOp), e < 1536 → s.op? h = some o → s.streamCheck o e d = 0 →
    s.spillDeny o d = none → 16 ≤ s.ctxUsed (e / 4) ∨ s.heldDesc (e / 4) ≠ none →
    ∃ t, exec (.streamIssue e h d) s = .next t ∧ t = { s with strm := t.strm } ∧
      Map.get? t.strm (Map.nextKey s.strm) = some ⟨e / 4, e, h, d, .noContext, 0, false⟩ ∧
      ∀ m, m ≠ Map.nextKey s.strm → Map.get? t.strm m = Map.get? s.strm m) ∧
  (∀ (s : State) (e h : Nat) (d : StreamDesc) (o : RunOp), e < 1536 → s.op? h = some o → s.streamCheck o e d ≠ 0 → o.code = 0 →
    ∃ t, exec (.streamIssue e h d) s = .next t ∧ t = { s with ops := t.ops, regs := t.regs } ∧
      RegsKept s t [R.CORE_STRM_ERR (e / 4)] ∧
      t.rd (R.CORE_STRM_ERR (e / 4)) = (if s.rdB (R.CORE_STRM_ERR (e / 4)) 31 then s.rd (R.CORE_STRM_ERR (e / 4)) ||| 0x40000000
        else BitVec.ofNat 32 (0x80000000 + fld o.cmd.seq 13 0 * 256 + s.streamCheck o e d)) ∧
      t.op? h = some { o with code := 2, detail := BitVec.ofNat 8 (s.streamCheck o e d), failUnit := e } ∧
      ∀ k, k ≠ h → t.op? k = s.op? k) ∧
  (∀ (s : State) (e h a c dt : Nat) (d : StreamDesc) (o : RunOp), e < 1536 → s.op? h = some o → s.streamCheck o e d = 0 →
    s.spillDeny o d = some (a, c, dt) → o.code = 0 →
    ∃ t q, exec (.streamIssue e h d) s = .next t ∧ t = { s with ops := t.ops } ∧ t.op? h = some q ∧ q.code = BitVec.ofNat 8 c ∧
      q.detail = BitVec.ofNat 8 dt ∧ q.faultAddr = BitVec.ofNat 64 (s.globalAddr a) ∧ q.faultCnt = satAdd32 o.faultCnt 1 ∧
      ∀ k, k ≠ h → t.op? k = s.op? k) ∧
  (∀ (s : State) (c n : Nat) (x : Strm), s.ctxUsed c < 16 → s.heldDesc c = some (n, x) →
    ∃ t, exec (.streamContextFree c) s = .next t ∧ TookContext s t n x) ∧
  (∀ (s : State) (n : Nat) (x : Strm), Map.get? s.strm n = some x → x.st = .waitSlot →
    (slotsAll x.desc).all (s.headReady (.strm n) (SD.spill x.desc)) = true →
    ∃ t, exec (.fillStart (.strm n)) s = .next t ∧ t = { s with strm := t.strm, eng := t.eng, ms := t.ms, regs := t.regs } ∧
      Map.get? t.strm n = some { x with st := if t.strmHeld n then .waitSlot else .run } ∧
      (∀ m, m ≠ n → Map.get? t.strm m = Map.get? s.strm m) ∧ ReadFrame s t [] ∧
      ∀ e k, t.slot e k = (if k < 64 ∧ e * 64 + k < 0x20000 ∧ e * 64 + k ∈ slotsAll x.desc ∧ HeldReq.strm n ∈ (s.slot e k).held
        then ⟨if SD.spill x.desc then (s.slot e k).st else .fill, (s.slot e k).held.erase (.strm n)⟩ else s.slot e k)) ∧
  (∀ (s : State) (e b : Nat) (d : DrainPlan) (o : RunOp) (f : Fmt), Map.get? (s.engine e).drains b = some d → s.op? d.op = some o →
    fmtOf d.fmt = some f → State.drainCheck d f = 0 → e < 1536 → (∀ k ∈ State.drainSlots d f, k < 64) →
    (∀ k ∈ State.drainSlots d f, HeldReq.drain e b ∈ (s.slot e k).held → (s.slot e k).held = [.drain e b] ∧
      ((s.slot e k).st = .free ∨ (s.slot e k).st = .full)) →
    ∃ t, exec (.fillStart (.drain e b)) s = .next t ∧ Drained s t e b d f) ∧
  (∀ (s : State) (e k : Nat) (rel : Bool), (s.slot e k).st = .use →
    ∃ t, exec (.slotRelease e k rel) s = .next t ∧ t = { s with eng := t.eng } ∧
      t.slot e k = { s.slot e k with st := if rel then .free else .full } ∧
      (∀ e' k', ¬(e' = e ∧ k' = k) → t.slot e' k' = s.slot e' k') ∧ ∀ b, t.bank e b = s.bank e b) ∧
  (∀ (s : State) (n : Nat) (x : Strm), Map.get? s.strm n = some x → x.st = .run → s.strmStop x = none → s.reading (.strm n) = false →
    s.strmMeshHeld x = false → SD.spill x.desc = false → SD.direct x.desc = false → s.strmWrites n x = false →
    ∃ t, exec (.streamComplete n none) s = .next t ∧
      t = { s with mem := t.mem, ms := { s.ms with poison := t.ms.poison }, eng := t.eng, ops := t.ops, strm := t.strm
                   sigs := t.sigs, regs := t.regs } ∧
      Map.get? t.strm n = none ∧ (∀ m, m ≠ n → Map.get? t.strm m = Map.get? s.strm m) ∧
      (∀ c, Map.get t.sigs 0 c = Map.get s.sigs 0 c + (if SD.sigEn x.desc = true ∧ x.bad = false ∧ c = SD.sigCtr x.desc then 1 else 0)) ∧
      (∀ e k, Covers x.desc e k → e * 64 + k ∉ (slotsOf x.desc).take x.done → t.slot e k = { s.slot e k with st := .full }) ∧
      (∀ e k, ¬Covers x.desc e k → t.slot e k = s.slot e k) ∧
      RegsKept s t [R.CORE_FILL_BYTES_LO x.core, R.CORE_FILL_BYTES_LO x.core + 4] ∧
      (∀ o, s.op? x.op = some o → ∃ fl, t.op? x.op = some { o with flags := o.flags ||| fl }) ∧
      (∀ k, k ≠ x.op → t.op? k = s.op? k) ∧ ∀ a, a < uniEnd → Mem.get t.mem a = Mem.get s.mem a) ∧
  (∀ (s : State) (n k : Nat) (x : Strm), Map.get? s.strm n = some x → x.st = .run → s.strmStop x = none → s.reading (.strm n) = false →
    s.strmMeshHeld x = false → SD.spill x.desc = false → SD.direct x.desc = false → x.done < k → k < slotCount x.desc →
    ∃ t, exec (.streamComplete n (some k)) s = .next t ∧ Map.get? t.strm n = some { x with done := k } ∧ t.sigs = s.sigs ∧
      (∀ e j, j < 64 → e * 64 + j < 0x20000 → e * 64 + j ∈ ((slotsOf x.desc).take k).drop x.done →
        t.slot e j = { s.slot e j with st := .full }) ∧
      (∀ e j, e * 64 + j ∉ ((slotsOf x.desc).take k).drop x.done → t.slot e j = s.slot e j) ∧
      ∀ a, a < uniEnd → Mem.get t.mem a = Mem.get s.mem a) ∧
  (∀ (s : State) (n : Nat) (x : Strm), Map.get? s.strm n = some x → x.st = .run → s.strmStop x = none → s.reading (.strm n) = false →
    s.strmMeshHeld x = false → SD.direct x.desc = true → s.strmWrites n x = false →
    ∃ t, exec (.streamComplete n none) s = .next t ∧ t = { s with strm := t.strm, sigs := t.sigs } ∧ Map.get? t.strm n = none ∧
      ∀ c, Map.get t.sigs 0 c = Map.get s.sigs 0 c + (if SD.sigEn x.desc = true ∧ x.bad = false ∧ c = SD.sigCtr x.desc then 1 else 0)) ∧
  (∀ (s : State) (n : Nat) (x : Strm), Map.get? s.strm n = some x → x.st = .flush → s.strmWrites n x = false →
    ∃ t, exec (.streamComplete n none) s = .next t ∧ t = { s with strm := t.strm, sigs := t.sigs } ∧ Map.get? t.strm n = none ∧
      ∀ c, Map.get t.sigs 0 c = Map.get s.sigs 0 c + (if SD.sigEn x.desc = true ∧ x.bad = false ∧ c = SD.sigCtr x.desc then 1 else 0)) ∧
  (∀ (s : State) (n : Nat) (x : Strm), Map.get? s.strm n = some x → x.st = .flush → s.strmWrites n x = true →
    ∃ t, exec (.streamComplete n none) s = .next t ∧ t = { s with strm := t.strm } ∧ Map.get? t.strm n = some x) ∧
  (∀ (s : State) (n : Nat) (x : Strm), Map.get? s.strm n = some x → x.st = .run → s.strmStop x = none → s.reading (.strm n) = false →
    s.strmMeshHeld x = false → SD.spill x.desc = true → SD.direct x.desc = false →
    ∃ t, exec (.streamComplete n none) s = .next t ∧ t.eng = s.eng ∧ t.waiters = s.waiters ∧
      (Map.get? t.strm n = none ∨ t.sigs = s.sigs ∧ ∃ y, Map.get? t.strm n = some y ∧ y.st = .flush)) ∧
  (∀ (s : State) (e h : Nat) (d : StreamDesc) (k : Task) (o : RunOp), (s.engine e).run = some k → e < 1536 →
    s.rdF (R.CORE_STRM_CTL (e / 4)) 3 0 ≠ 0 → k.pos ≠ 0 → k.left ≤ s.rdF (R.CORE_STRM_CTL (e / 4)) 3 0 →
    State.firstPrio s.opPrio ((s.queuedOn e).filter (· != k.op)) = some h → s.op? h = some o →
    SD.spill d = false → SD.direct d = false →
    (∀ sl ∈ slotsAll d, 0x20000 ≤ sl ∨ (s.slot (sl / 64) (sl % 64)).st = .free ∨ (s.slot (sl / 64) (sl % 64)).st = .full) →
    s.streamCheck o e d = 0 → s.ctxUsed (e / 4) < 16 → s.heldDesc (e / 4) = none →
    ∃ t, exec (.nextOpPrefetch e h [d]) s = .next t ∧ TookContext s t (Map.nextKey s.strm) ⟨e / 4, e, h, d, .noContext, 0, false⟩) ∧
  (∀ (s : State) (e h : Nat) (ds : List StreamDesc),
    (∀ d ∈ ds, SD.spill d = true ∨ SD.direct d = true ∨ ∃ sl ∈ slotsAll d, sl < 0x20000 ∧
      (s.slot (sl / 64) (sl % 64)).st ≠ .free ∧ (s.slot (sl / 64) (sl % 64)).st ≠ .full) →
    exec (.nextOpPrefetch e h ds) s = .next s)

/-- When a running fill of layout LIN, without PAD, whose two formats are one, completes, element n of the stream stands in the slot at
n times its size, exactly as memory holds it at the element's address, for every element the stream visits in the unified range. -/
def Obligations.LinFillCopies : Prop :=
  ∀ (s : State) (n : Nat) (x : Strm), Map.get? s.strm n = some x → x.st = .run → x.done = 0 → s.strmStop x = none →
    s.reading (.strm n) = false → s.strmMeshHeld x = false →
    SD.spill x.desc = false → SD.direct x.desc = false → SD.pad x.desc = false → SD.layout x.desc = 0 →
    SD.src x.desc = SD.dst x.desc →
    (∀ i, i < SD.elems x.desc → 0 ≤ s.elemAddr x.desc i ∧ (s.elemAddr x.desc i).toNat + strmElemBytes (SD.src x.desc) ≤ uniEnd) →
    (SD.idx x.desc = true → fld x.desc.dim4 47 0 + 8 * SD.count x.desc.dim4 ≤ uniEnd) →
    ∃ t, exec (.streamComplete n none) s = .next t ∧
      ∀ i, i < SD.elems x.desc →
        Mem.read t.mem (slotAddr (SD.slot x.desc) + i * strmElemBytes (SD.src x.desc)) (strmElemBytes (SD.src x.desc)) =
          s.bytesAt (s.elemAddr x.desc i).toNat (strmElemBytes (SD.src x.desc))

/-- ENGINE_GROUP_START with every operand delivered computes the group into its bank, which carries a mark where what it read is
poisoned, and uses its slots; late data stall the engine; a FREE slot ends the operator with CODE 6 and the slot, formats that do not
combine with CODE 3 DETAIL 1, an MX group of other than 32 steps with DETAIL 2, a poisoned unit with CODE 9. BANK_DRAIN with KEEP keeps
the finished bank as it is; else its slots end FULL and the bank is free, and with a slot in use the drain is held. TASK_SWITCH saves the
stalled task and gives the engine to the candidate, or counts the stall. TASK_RESUME at a stall does the same, and at a block boundary
restores a suspended task into the idle bank. Which drains and kept banks the model takes, and where the running task goes, are its choices
(log entry 61). -/
def Obligations.EngineTasks : Prop :=
  (∀ (s : State) (e ce : Nat) (g : GroupPlan) (o : RunOp) (fa fb : Fmt) (k : AccKind), s.op? g.op = some o → fmtOf g.aFmt = some fa →
    fmtOf g.bFmt = some fb → e < 1536 → o.dispatched = true → o.parts.contains e = true → s.mayRun e g.op = true → 1 ≤ g.kn → g.kn ≤ 32 →
    (State.usesPort g = true → e % 4 = 3) → accKind fa fb = some k → ((fa.isMx = true ∨ fb.isMx = true) → g.kn = 32) →
    s.groupReady e g fa fb = true → s.bankReady e g = true → s.groupPoison e g fa fb = none →
    ∃ t, exec (.engineGroupStart e g ce none) s = .next t ∧ t = { s with eng := t.eng, ops := t.ops, regs := t.regs } ∧
      t.bank e g.bank = ⟨if g.last then .finished else .computing, g.op, decide (k = .int), (s.groupCompute e g fa fb k).1,
        (g.start.isNone || g.start == some 3) && (s.bank e g.bank).bad⟩ ∧
      (∀ b, (b = 0 ↔ g.bank ≠ 0) → t.bank e b = s.bank e b) ∧
      (∀ sl ∈ State.groupSlots g fa fb, t.slot e sl = { s.slot e sl with st := .use }) ∧
      (∀ sl, sl ∉ State.groupSlots g fa fb → t.slot e sl = s.slot e sl) ∧
      (t.engine e).run = some ⟨g.op, g.bank, (match (s.engine e).run with | some r => r.pos | none => 0) + 1, g.blocks, false⟩ ∧
      (t.engine e).susp = (s.engine e).susp ∧ (∀ e', e' ≠ e → t.engine e' = s.engine e') ∧
      t.op? g.op = some { o with flags := o.flags ||| (s.groupCompute e g fa fb k).2 } ∧ (∀ h, h ≠ g.op → t.op? h = s.op? h) ∧
      RegsKept s t [R.CDIE_SRAM_CE_CNT (e / 96)] ∧
      t.rd (R.CDIE_SRAM_CE_CNT (e / 96)) = satAdd32 (s.rd (R.CDIE_SRAM_CE_CNT (e / 96))) ce) ∧
  (∀ (s : State) (e ce sl a : Nat) (g : GroupPlan) (o : RunOp) (fa fb : Fmt) (k : AccKind), s.op? g.op = some o → o.code = 0 →
    fmtOf g.aFmt = some fa → fmtOf g.bFmt = some fb → e < 1536 → o.dispatched = true → o.parts.contains e = true →
    s.mayRun e g.op = true → 1 ≤ g.kn → g.kn ≤ 32 → (State.usesPort g = true → e % 4 = 3) → accKind fa fb = some k →
    ((fa.isMx = true ∨ fb.isMx = true) → g.kn = 32) → s.groupReady e g fa fb = true → s.bankReady e g = true →
    s.groupPoison e g fa fb = some (sl, a) →
    ∃ t q, exec (.engineGroupStart e g ce none) s = .next t ∧ (t.bank e g.bank).bad = true ∧
      (t.bank e g.bank).vals = (s.groupCompute e g fa fb k).1 ∧ t.op? g.op = some q ∧ q.code = 9 ∧ q.detail = 0 ∧
      q.faultAddr = BitVec.ofNat 64 (s.globalAddr a) ∧ q.faultEng = e ∧ q.faultSlot = sl) ∧
  (∀ (s : State) (e ce sl : Nat) (ue : Option Nat) (g : GroupPlan) (o : RunOp) (fa fb : Fmt) (k : AccKind), s.op? g.op = some o →
    fmtOf g.aFmt = some fa → fmtOf g.bFmt = some fb → e < 1536 → o.dispatched = true → o.parts.contains e = true →
    s.mayRun e g.op = true → 1 ≤ g.kn → g.kn ≤ 32 → (State.usesPort g = true → e % 4 = 3) → accKind fa fb = some k →
    ((fa.isMx = true ∨ fb.isMx = true) → g.kn = 32) → o.code = 0 →
    (State.groupSlots g fa fb).find? (fun sl => decide ((s.slot e sl).st = .free)) = some sl →
    ∃ t, exec (.engineGroupStart e g ce ue) s = .next t ∧ t = { s with ops := t.ops } ∧
      t.op? g.op = some { o with code := 6, detail := BitVec.ofNat 8 sl, failUnit := e }) ∧
  (∀ (s : State) (e ce : Nat) (ue : Option Nat) (g : GroupPlan) (o : RunOp) (fa fb : Fmt), s.op? g.op = some o →
    fmtOf g.aFmt = some fa → fmtOf g.bFmt = some fb → e < 1536 → o.dispatched = true → o.parts.contains e = true →
    s.mayRun e g.op = true → 1 ≤ g.kn → g.kn ≤ 32 → (State.usesPort g = true → e % 4 = 3) → o.code = 0 →
    accKind fa fb = none ∨ ((fa.isMx = true ∨ fb.isMx = true) ∧ g.kn ≠ 32) →
    ∃ t, exec (.engineGroupStart e g ce ue) s = .next t ∧ t = { s with ops := t.ops } ∧
      t.op? g.op = some { o with code := 3, detail := if accKind fa fb = none then 1 else 2, failUnit := e }) ∧
  (∀ (s : State) (e ce : Nat) (ue : Option Nat) (g : GroupPlan) (o : RunOp) (fa fb : Fmt) (k : AccKind), s.op? g.op = some o →
    fmtOf g.aFmt = some fa → fmtOf g.bFmt = some fb → e < 1536 → o.dispatched = true → o.parts.contains e = true →
    s.mayRun e g.op = true → 1 ≤ g.kn → g.kn ≤ 32 → (State.usesPort g = true → e % 4 = 3) → accKind fa fb = some k →
    ((fa.isMx = true ∨ fb.isMx = true) → g.kn = 32) →
    (∀ sl ∈ State.groupSlots g fa fb, (s.slot e sl).st ≠ .free) → s.groupReady e g fa fb = false →
    ∃ t, exec (.engineGroupStart e g ce ue) s = .next t ∧ t = { s with eng := t.eng } ∧
      (∃ r, (t.engine e).run = some r ∧ r.stalled = true) ∧ (∀ b, t.bank e b = s.bank e b) ∧ ∀ j, t.slot e j = s.slot e j) ∧
  (∀ (s : State) (e b : Nat) (d : DrainPlan) (o : RunOp) (f : Fmt), s.op? d.op = some o → fmtOf d.fmt = some f → e < 1536 →
    (s.bank e b).st = .finished → (s.bank e b).op = d.op → Map.get? (s.engine e).drains b = none → d.keep = true →
    ∃ t, exec (.bankDrain e b d) s = .next t ∧ t = { s with eng := t.eng } ∧ t.bank e b = { s.bank e b with st := .kept } ∧
      ∀ k, t.slot e k = s.slot e k) ∧
  (∀ (s : State) (e b : Nat) (d : DrainPlan) (o : RunOp) (f : Fmt), s.op? d.op = some o → fmtOf d.fmt = some f → e < 1536 →
    (s.bank e b).st = .finished → (s.bank e b).op = d.op → Map.get? (s.engine e).drains b = none → d.keep = false →
    State.drainCheck d f ≠ 0 → o.code = 0 →
    ∃ t, exec (.bankDrain e b d) s = .next t ∧ t = { s with ops := t.ops } ∧
      t.op? d.op = some { o with code := 3, detail := BitVec.ofNat 8 (State.drainCheck d f), failUnit := e }) ∧
  (∀ (s : State) (e b : Nat) (d : DrainPlan) (o : RunOp) (f : Fmt), s.op? d.op = some o → fmtOf d.fmt = some f → e < 1536 →
    (s.bank e b).st = .finished → (s.bank e b).op = d.op → Map.get? (s.engine e).drains b = none → d.keep = false →
    State.drainCheck d f = 0 →
    (∀ k ∈ State.drainSlots d f, ((s.slot e k).st = .free ∨ (s.slot e k).st = .full) ∧ (s.slot e k).held = []) →
    ∃ t, exec (.bankDrain e b d) s = .next t ∧ Drained s t e b d f) ∧
  (∀ (s : State) (e b : Nat) (d : DrainPlan) (o : RunOp) (f : Fmt), s.op? d.op = some o → fmtOf d.fmt = some f → e < 1536 →
    (s.bank e b).st = .finished → (s.bank e b).op = d.op → Map.get? (s.engine e).drains b = none → d.keep = false →
    State.drainCheck d f = 0 →
    (∃ k ∈ State.drainSlots d f, ((s.slot e k).st ≠ .free ∧ (s.slot e k).st ≠ .full) ∨ (s.slot e k).held ≠ []) →
    ∃ t, exec (.bankDrain e b d) s = .next t ∧ t = { s with eng := t.eng } ∧ t.bank e b = s.bank e b ∧
      Map.get? (t.engine e).drains b = some d ∧
      ∀ k ∈ State.drainSlots d f, t.slot e k = (if ((s.slot e k).st = .free ∨ (s.slot e k).st = .full) ∧ (s.slot e k).held = []
        then { s.slot e k with st := .fill } else { s.slot e k with held := (s.slot e k).held ++ [.drain e b] })) ∧
  (∀ (s : State) (e c : Nat) (plans : List GroupPlan) (k : Task), (s.engine e).run = some k → e < 1536 → k.stalled = true →
    bit (s.engine e).swCtl 31 = false ∨ c < fld (s.engine e).swCtl 15 0 ∨ 4 ≤ (s.engine e).susp.length ∨ s.nextTask e plans = none →
    ∃ t, exec (.taskSwitch e c plans) s = .next t ∧ OnlyRegs s t [R.OXE_STALL_CYC e] ∧
      t.rd (R.OXE_STALL_CYC e) = satAdd32 (s.rd (R.OXE_STALL_CYC e)) c) ∧
  (∀ (s : State) (e h c : Nat) (plans : List GroupPlan) (k : Task), (s.engine e).run = some k → e < 1536 → k.stalled = true →
    bit (s.engine e).swCtl 31 = true → fld (s.engine e).swCtl 15 0 ≤ c → (s.engine e).susp.length < 4 →
    s.nextTask e plans = some (.inr h) →
    ∃ t n, exec (.taskSwitch e c plans) s = .next t ∧ Suspended s t e k ∧ (t.engine e).run = some ⟨h, k.bank, 0, n, false⟩ ∧
      (t.engine e).susp = (s.engine e).susp ++ [suspEntry s e k] ∧
      t.bank e k.bank = (if (s.bank e k.bank).st = .computing ∧ (s.bank e k.bank).op = k.op then Bank.none else s.bank e k.bank)) ∧
  (∀ (s : State) (e c : Nat) (plans : List GroupPlan) (k : Task) (x : Susp), (s.engine e).run = some k → e < 1536 → k.stalled = true →
    bit (s.engine e).swCtl 31 = true → fld (s.engine e).swCtl 15 0 ≤ c → (s.engine e).susp.length < 4 →
    s.nextTask e plans = some (.inl x) → x.saved.st = .computing →
    ∃ t, exec (.taskSwitch e c plans) s = .next t ∧ Suspended s t e k ∧
      (t.engine e).run = some { x.task with bank := k.bank, stalled := false } ∧
      (t.engine e).susp = ((s.engine e).susp ++ [suspEntry s e k]).erase x ∧ t.bank e k.bank = x.saved) ∧
  (∀ (s : State) (e c : Nat) (plans : List GroupPlan) (k : Task), (s.engine e).run = some k → e < 1536 → k.stalled = true →
    exec (.taskResume e c plans) s = exec (.taskSwitch e c plans) s ∧ ∃ t, exec (.taskResume e c plans) s = .next t) ∧
  (∀ (s : State) (e c b : Nat) (plans : List GroupPlan) (x : Susp), e < 1536 →
    State.firstPrio s.suspPrio (s.suspReady e plans) = some x → x.saved.st = .computing →
    (∀ k, (s.engine e).run = some k → k.stalled = false ∧ (s.bank e k.bank).st ≠ .computing ∧ s.opPrio k.op ≤ s.suspPrio x) →
    s.idleBank e (match (s.engine e).run with | some k => k.bank | none => x.task.bank) = some b →
    ∃ t, exec (.taskResume e c plans) s = .next t ∧ t = { s with eng := t.eng } ∧
      (t.engine e).run = some { x.task with bank := b, stalled := false } ∧ (t.engine e).susp = (s.engine e).susp.erase x ∧
      t.bank e b = x.saved ∧ (∀ b', (b' = 0 ↔ b ≠ 0) → t.bank e b' = s.bank e b') ∧ ∀ j, t.slot e j = s.slot e j)

/-- RING_DOORBELL on an enabled or stopped ring takes a PROD that neither moves back nor passes the ring's size, and otherwise ignores it, sets the
ring's bit in CRG_DB_ERR and raises the interrupt; on a ring never enabled it sets PROD and FETCH. RING_ENABLE clears STOPPED and the
cause; with a fenced home core the ring stops with HOME_FENCED instead. RING_DISABLE of a disabled ring is an ordinary write; of an enabled
one it clears EN alone, and every record fetched and not dispatched completes. DEP_CTR_LO_WRITE holds the low half and
changes no counter; DEP_CTR_HI_WRITE commits both halves at once, to that counter alone; with no half held the stored one stays. -/
def Obligations.RingRegisters : Prop :=
  (∀ (s : State) (t r : Nat) (v : Word32), t < 64 → r < 16 → (s.ringEn t r || s.ringStopped t r) = true →
    (v - s.rd (R.CRG_RING_FETCH t r)).toNat ≤ 2 ^ s.rdF (R.CRG_RING_CTL t r) 19 16 →
    (s.rd (R.CRG_RING_PROD t r) - s.rd (R.CRG_RING_FETCH t r)).toNat ≤ (v - s.rd (R.CRG_RING_FETCH t r)).toNat →
    ∃ u, exec (.ringDoorbell t r v) s = .next u ∧ RegWritten s u (R.CRG_RING_PROD t r) v) ∧
  (∀ (s : State) (t r : Nat) (v : Word32), t < 64 → r < 16 → (s.ringEn t r || s.ringStopped t r) = true →
    (2 ^ s.rdF (R.CRG_RING_CTL t r) 19 16 < (v - s.rd (R.CRG_RING_FETCH t r)).toNat ∨
      (v - s.rd (R.CRG_RING_FETCH t r)).toNat < (s.rd (R.CRG_RING_PROD t r) - s.rd (R.CRG_RING_FETCH t r)).toNat) →
    ∃ u, exec (.ringDoorbell t r v) s = .next u ∧ u = { s with regs := u.regs, outbox := u.outbox, msix := u.msix } ∧
      RegsKept s u [R.GEN_WR_CNT (0x10 + t), R.GEN_IGN_CNT (0x10 + t), R.CRG_DB_ERR t, R.INT_STAT (0x10 + t)] ∧
      u.rd (R.CRG_DB_ERR t) = s.rd (R.CRG_DB_ERR t) ||| BitVec.ofNat 32 (2 ^ r) ∧ u.rdB (R.INT_STAT (0x10 + t)) 0 = true) ∧
  (∀ (s : State) (t r : Nat) (v : Word32), t < 64 → r < 16 → s.ringEn t r = false → s.ringStopped t r = false →
    ∃ u, exec (.ringDoorbell t r v) s = .next u ∧ u = { s with regs := u.regs } ∧
      u.rd (R.CRG_RING_FETCH t r) = v ∧ u.rd (R.CRG_RING_PROD t r) = (writeFields (fieldsAt (R.CRG_RING_PROD t r)) (s.rd (R.CRG_RING_PROD t r)) v).1 ∧
      RegsKept s u [R.CRG_RING_FETCH t r, R.CRG_RING_PROD t r, R.GEN_WR_CNT (0x10 + t), R.GEN_IGN_CNT (0x10 + t)]) ∧
  (∀ (s : State) (t r : Nat) (v : Word32), t < 64 → r < 16 → bit v 31 = true →
    (s.ringCtlWrite t r v).coreFenced ((s.ringCtlWrite t r v).ringHome t r) = false →
    ∃ u, exec (.ringEnable t r v) s = .next u ∧ u = { s with regs := u.regs } ∧ u.ringEn t r = true ∧ u.ringStopped t r = false ∧
      u.rdF (R.CRG_RING_STAT t r) 30 27 = 0 ∧ ∀ q, q < 16 → q ≠ r → u.ringStopped t q = s.ringStopped t q) ∧
  (∀ (s : State) (t r : Nat) (v : Word32), t < 64 → r < 16 → bit v 31 = true →
    (s.ringCtlWrite t r v).coreFenced ((s.ringCtlWrite t r v).ringHome t r) = true →
    ∃ u, exec (.ringEnable t r v) s = .next u ∧ u.ringEn t r = false ∧ u.ringStopped t r = true ∧
      u.rdF (R.CRG_RING_STAT t r) 30 27 = 10 ∧ u.ringWaiting t r = [] ∧ u.mem = s.mem) ∧
  (∀ (s : State) (t r : Nat) (v : Word32), t < 64 → r < 16 → bit v 31 = false → s.ringEn t r = false →
    ∃ u, exec (.ringDisable t r v) s = .next u ∧ RegWritten s u (R.CRG_RING_CTL t r) v) ∧
  (∀ (s : State) (t r : Nat) (v : Word32), t < 64 → r < 16 → bit v 31 = false → s.ringEn t r = true →
    ∃ u, exec (.ringDisable t r v) s = .next u ∧ u.ringEn t r = false ∧
      u.rdF (R.CRG_RING_CTL t r) 30 0 = s.rdF (R.CRG_RING_CTL t r) 30 0 ∧ u.ringWaiting t r = [] ∧ u.mem = s.mem ∧ u.ms = s.ms ∧
      u.rd (R.CRG_RING_DONE t r) = s.rd (R.CRG_RING_DONE t r) + BitVec.ofNat 32 (s.ringWaiting t r).length) ∧
  (∀ (s : State) (t n : Nat) (v : Word32), t < 64 → n < 256 →
    ∃ u, exec (.depCtrLoWrite t n v) s = .next u ∧ u = { s with regs := u.regs, held := u.held } ∧
      Map.get? u.held (R.CRG_DEP_CTR_LO t n) = some v ∧ u.depCtr = s.depCtr ∧
      RegsKept s u [R.GEN_WR_CNT (0x10 + t)] ∧ u.rd (R.GEN_WR_CNT (0x10 + t)) = satAdd32 (s.rd (R.GEN_WR_CNT (0x10 + t))) 1) ∧
  (∀ (s : State) (t n : Nat) (v : Word32), t < 64 → n < 256 →
    ∃ u, exec (.depCtrHiWrite t n v) s = .next u ∧ u = { s with regs := u.regs, held := u.held, depCtr := u.depCtr } ∧
      (u.dep t n).toNat = (Map.get s.held ((s.dep t n).setWidth 32) (R.CRG_DEP_CTR_LO t n)).toNat + 2 ^ 32 * v.toNat ∧
      Map.get? u.held (R.CRG_DEP_CTR_LO t n) = none ∧
      (∀ t' n', n' < 256 → ¬(t' = t ∧ n' = n) → u.dep t' n' = s.dep t' n') ∧ RegsKept s u [R.GEN_WR_CNT (0x10 + t)])

/-- RECORD_FETCH of a record in order holds it undispatched and advances FETCH and SEQ; with HOLD and a time to come it claims a
trigger, or is held by the local clock; one out of order, or a failed fetch, stops the ring. RECORD_DISPATCH of a refused head
completes it with CODE 1; of one that is chosen, it completes it for an expired deadline, a faulted counter, another tenant's request, a
fenced core or an invalid generation copy, and else sends it to its units. PART_COMPLETE takes the unit off the parts and adds its
cycles, or its report waits on the mesh. DEADLINE_EXPIRY of an undispatched record completes it with CODE 7 DETAIL 1, and stops a running one with
DETAIL 2; OPERATOR_COMPLETE of an ended operator records it, and of one past its deadline is its expiry. TRIGGER_RELEASE fires its
trigger; FALLBACK_RELEASE releases the held head and counts it. -/
def Obligations.RecordLife : Prop :=
  (∀ (s : State) (t r : Nat) (bytes b : List Byte) (ok : Bool), bytes.length = 128 → t < 64 → r < 16 → s.inFatal = false →
    s.ringEn t r = true → s.rd (R.CRG_RING_FETCH t r) ≠ s.rd (R.CRG_RING_PROD t r) → (s.ringWaiting t r).length < 8 →
    s.corePaused (s.ringHome t r) = false → s.ringBytes t r bytes ok = some b →
    (recOf b).seq = s.rd (R.CRG_RING_SEQ t r) →
    ∃ u, exec (.recordFetch t r bytes ok) s = .next u ∧ u = { s with regs := u.regs, ops := u.ops, trigs := u.trigs } ∧
      (∃ trig loc, u.op? (Map.nextKey s.ops) = some { State.fetched t r (recOf b) s.ft with trig := trig, local_ := loc } ∧
        ((CmdRecF.hold (recOf b) = false ∨ (recOf b).startFt ≤ s.ft) → trig = none ∧ loc = false ∧ u.trigs = s.trigs) ∧
        (CmdRecF.hold (recOf b) = true → s.ft < (recOf b).startFt →
          (∀ n, s.sharedTrigger 0 (s.ringHome t r) (recOf b).startFt = some n → trig = some n ∧ loc = false ∧ u.trigs = s.trigs) ∧
          (s.sharedTrigger 0 (s.ringHome t r) (recOf b).startFt = none → trig = s.freeTrigger ∧ loc = s.freeTrigger.isNone ∧
            (∀ n, trig = some n → u.trigger n = ⟨(recOf b).startFt, true, false, 0, s.ringHome t r⟩) ∧
            ∀ n, trig ≠ some n → u.trigger n = s.trigger n))) ∧
      (∀ k, k ≠ Map.nextKey s.ops → u.op? k = s.op? k) ∧ RegsKept s u [R.CRG_RING_FETCH t r, R.CRG_RING_SEQ t r] ∧
      u.rd (R.CRG_RING_FETCH t r) = s.rd (R.CRG_RING_FETCH t r) + 1 ∧ u.rd (R.CRG_RING_SEQ t r) = s.rd (R.CRG_RING_SEQ t r) + 1) ∧
  (∀ (s : State) (t r : Nat) (bytes : List Byte) (ok : Bool), bytes.length = 128 → t < 64 → r < 16 → s.inFatal = false →
    s.ringEn t r = true → s.rd (R.CRG_RING_FETCH t r) ≠ s.rd (R.CRG_RING_PROD t r) → (s.ringWaiting t r).length < 8 →
    s.corePaused (s.ringHome t r) = false →
    (∀ b, s.ringBytes t r bytes ok = some b → (recOf b).seq ≠ s.rd (R.CRG_RING_SEQ t r)) →
    ∃ u, exec (.recordFetch t r bytes ok) s = .next u ∧ u.ringEn t r = false ∧ u.ringStopped t r = true ∧ u.ringWaiting t r = [] ∧
      u.rdF (R.CRG_RING_STAT t r) 30 27 = (if s.ringBytes t r bytes ok = none then 11 else 9) ∧
      u.rd (R.CRG_RING_SEQ t r) = s.rd (R.CRG_RING_SEQ t r) ∧ u.mem = s.mem) ∧
  (∀ (s : State) (t r h : Nat) (o : RunOp), s.ringHead t r = some (h, o) → t < 64 → r < 16 → refusal o.cmd ≠ 0 →
    ∃ u, exec (.recordDispatch t r) s = .next u ∧ u.ms = s.ms ∧ Recorded s u h o 1 ∧
      exec (.recordDispatch t r) s = keepQueue s (.next (s.completeUnrun h o 1 (BitVec.ofNat 8 (refusal o.cmd))))) ∧
  (∀ (s b : State) (t r h : Nat) (o : RunOp) (code detail : Byte), DispatchReady s b t r h o → t < 64 → r < 16 →
    (b.expired o.cmd = true ∧ code = 7 ∧ detail = 1) ∨
    (b.expired o.cmd = false ∧ code = 8 ∧
      let f0 := CmdRecF.w0En o.cmd && b.depFault o.tenant (CmdRecF.w0Ctr o.cmd)
      let f1 := CmdRecF.w1En o.cmd && b.depFault o.tenant (CmdRecF.w1Ctr o.cmd)
      (f0 || f1) = true ∧ detail = BitVec.ofNat 8 ((if f0 then 1 else 0) + (if f1 then 2 else 0))) →
    ∃ u, exec (.recordDispatch t r) s = .next u ∧ u.ms = b.ms ∧ Recorded b u h o code ∧ Map.get? u.rrHome (s.ringHome t r) = some (16 * t + r) ∧
      exec (.recordDispatch t r) s =
        keepQueue s (.next { b.completeUnrun h o code detail with rrHome := Map.set s.rrHome (s.ringHome t r) (16 * t + r) })) ∧
  (∀ (s b : State) (t r h : Nat) (o : RunOp) (code detail : Byte), DispatchReady s b t r h o → t < 64 → r < 16 → b.expired o.cmd = false →
    (CmdRecF.w0En o.cmd = false ∨ b.depFault o.tenant (CmdRecF.w0Ctr o.cmd) = false) →
    (CmdRecF.w1En o.cmd = false ∨ b.depFault o.tenant (CmdRecF.w1Ctr o.cmd) = false) →
    (CmdRecF.reqV o.cmd = true ∧ (∀ q, Map.get? b.reqs (CmdRecF.reqId o.cmd) = some q → q.tenant ≠ o.tenant) ∧ code = 4 ∧ detail = 2) ∨
    ((CmdRecF.reqV o.cmd = true → ∃ q, Map.get? b.reqs (CmdRecF.reqId o.cmd) = some q ∧ q.tenant = o.tenant) ∧
      (((CmdRecF.cores o.cmd).any b.coreFenced = true ∧ code = 0x0B ∧ detail = 0) ∨
       ((CmdRecF.cores o.cmd).any b.coreFenced = false ∧ b.readsGen o.cmd = true ∧ b.genValidBit = false ∧ code = 0x17 ∧ detail = 5))) →
    ∃ u, exec (.recordDispatch t r) s = .next u ∧ u.ms = b.ms ∧ Recorded b u h o code ∧ Map.get? u.rrHome (s.ringHome t r) = some (16 * t + r) ∧
      exec (.recordDispatch t r) s =
        keepQueue s (.next { b.completeUnrun h o code detail with rrHome := Map.set s.rrHome (s.ringHome t r) (16 * t + r) })) ∧
  (∀ (s b : State) (t r h : Nat) (o : RunOp), DispatchReady s b t r h o → b.expired o.cmd = false →
    (CmdRecF.w0En o.cmd = false ∨ b.depFault o.tenant (CmdRecF.w0Ctr o.cmd) = false) →
    (CmdRecF.w1En o.cmd = false ∨ b.depFault o.tenant (CmdRecF.w1Ctr o.cmd) = false) →
    (CmdRecF.reqV o.cmd = true → ∃ q, Map.get? b.reqs (CmdRecF.reqId o.cmd) = some q ∧ q.tenant = o.tenant) →
    (CmdRecF.cores o.cmd).any b.coreFenced = false → (b.readsGen o.cmd = true → b.genValidBit = true) →
    ∃ u, exec (.recordDispatch t r) s = .next u ∧
      u = { b with ops := u.ops, readyQ := u.readyQ, rrHome := u.rrHome, eng := u.eng, rng := u.rng, pending := s.pending } ∧
      (∃ p, u.op? h = some p ∧ p.dispatched = true ∧ p.ftStart = s.ft ∧ p.parts = CmdRecF.units o.cmd ∧ p.cmd = o.cmd ∧
        p.code = o.code ∧ p.ran = o.ran ∧ p.version = (if b.readsGen o.cmd then b.genVersion else 0xFFFFFFFF) ∧
        (CmdRecF.unit o.cmd ≤ 1 → p.numCtl = (CmdRecF.units o.cmd).map (fun e => (e, b.rd (R.OXE_NUM_CTL e))))) ∧
      (CmdRecF.unit o.cmd ≤ 1 → ∀ e ∈ CmdRecF.units o.cmd, (u.engine e).swCtl = b.rd (R.OXE_SW_CTL e) ∧
        Map.get u.readyQ [] (State.queueKey e) = Map.get s.readyQ [] (State.queueKey e) ++ [h]) ∧
      (2 ≤ CmdRecF.unit o.cmd → u.readyQ = s.readyQ ∧ u.eng = s.eng) ∧
      Map.get? u.rrHome (s.ringHome t r) = some (16 * t + r) ∧ ∀ k, k ≠ h → u.op? k = s.op? k) ∧
  (∀ (s : State) (h x busy : Nat) (o : RunOp), s.op? h = some o → o.dispatched = true → o.parts.contains x = true →
    (o.ran = true ∨ o.code ≠ 0) → s.opWaits h = false → s.reportHeld h x = false → (o.code ≠ 0 ∨ s.strm.any (fun p => p.2.op == h) = false) →
    s.meshWaits .response (unitDie o.cmd x) (State.coreDie (s.ringHome o.tenant o.ring)) = false →
    ∃ u, exec (.partComplete h x busy) s = .next u ∧ u = { s with ops := u.ops, eng := u.eng } ∧
      u.op? h = some { o with parts := o.parts.erase x, busy := satAdd64 o.busy busy } ∧ (∀ k, k ≠ h → u.op? k = s.op? k) ∧
      (2 ≤ CmdRecF.unit o.cmd → u.eng = s.eng) ∧
      (CmdRecF.unit o.cmd ≤ 1 → (∀ k, (u.engine x).run = some k → k.op ≠ h) ∧ (∀ k ∈ (u.engine x).susp, k.task.op ≠ h) ∧
        ∀ e, e ≠ x → u.engine e = s.engine e)) ∧
  (∀ (s : State) (h x busy : Nat) (o : RunOp), s.op? h = some o → o.dispatched = true → o.parts.contains x = true →
    (o.ran = true ∨ o.code ≠ 0) → s.opWaits h = false → s.reportHeld h x = false → (o.code ≠ 0 ∨ s.strm.any (fun p => p.2.op == h) = false) →
    s.meshWaits .response (unitDie o.cmd x) (State.coreDie (s.ringHome o.tenant o.ring)) = true →
    ∃ u, exec (.partComplete h x busy) s = .next u ∧ u = { s with meshQ := u.meshQ, eng := u.eng } ∧
      u.meshQ = s.meshQ ++ [⟨.response, unitDie o.cmd x, State.coreDie (s.ringHome o.tenant o.ring), .report h x busy⟩]) ∧
  (∀ (s : State) (h : Nat) (o : RunOp), s.op? h = some o → o.tenant < 64 → o.ring < 16 → s.expired o.cmd = true → o.dispatched = false →
    ∃ u, exec (.deadlineExpiry h) s = .next u ∧ u.ms = s.ms ∧ Recorded s u h o 7 ∧
      exec (.deadlineExpiry h) s = keepQueue s (.next (s.completeUnrun h o 7 1))) ∧
  (∀ (s : State) (h : Nat) (o : RunOp), s.op? h = some o → s.expired o.cmd = true → o.dispatched = true → o.code = 0 →
    (o.ran = false ∨ o.cmd.opcode ≠ 0x0800) → LoneOp s h →
    ∃ u q, exec (.deadlineExpiry h) s = .next u ∧ u.op? h = some q ∧ q.code = 7 ∧ q.detail = 2 ∧ q.parts = [] ∧ q.ran = true ∧
      u.strm.any (fun p => p.2.op == h) = false ∧ ∀ e, (∀ k, (u.engine e).run = some k → k.op ≠ h)) ∧
  (∀ (s : State) (h colt d : Nat) (o : RunOp), s.op? h = some o → s.opEnded h o = true → s.deadlineOf o.cmd = some d → d < s.ft.toNat →
    o.code = 0 → o.cmd.opcode ≠ 0x0800 →
    exec (.operatorComplete h colt) s = exec (.deadlineExpiry h) s ∧ ∃ u, exec (.operatorComplete h colt) s = .next u) ∧
  (∀ (s : State) (h colt : Nat) (o : RunOp), s.op? h = some o → o.tenant < 64 → o.ring < 16 → s.opEnded h o = true →
    (o.code ≠ 0 ∨ ∀ d, s.deadlineOf o.cmd = some d → s.ft.toNat ≤ d) →
    LoneOp s h → Map.get? s.convs h = none → Map.get? s.busyCb h = none → o.cmd.opcode ≠ 0x0500 → s.rng.pend = [] → s.rng.rewinds = [] →
    (∀ p ∈ s.coreRun, p.2.stop = false) →
    ∃ u, exec (.operatorComplete h colt) s = .next u ∧ Recorded s u h o o.code ∧ u.strm.any (fun p => p.2.op == h) = false ∧
      (∀ e k, (u.engine e).run = some k → k.op ≠ h) ∧ (∀ k l, Map.get? u.readyQ k = some l → h ∉ l)) ∧
  (∀ (s : State) (n : Nat), (s.trigger n).valid = true → (s.trigger n).action = 0 → (s.trigger n).sw = false →
    (s.trigger n).ft ≤ s.ft →
    ∃ u, exec (.triggerRelease n) s = .next u ∧ u = { s with trigs := u.trigs, regs := u.regs } ∧
      u.trigger n = { s.trigger n with valid := false } ∧ (∀ m, m ≠ n → u.trigger m = s.trigger m) ∧
      u.rd R.TIM_TRIG_FIRED_CNT = satAdd32 (s.rd R.TIM_TRIG_FIRED_CNT) 1 ∧ RegsKept s u [R.TIM_TRIG_FIRED_CNT]) ∧
  (∀ (s : State) (t r h : Nat) (o : RunOp), s.ringHead t r = some (h, o) → o.local_ = true → o.cmd.startFt ≤ s.ft →
    ∃ u, exec (.fallbackRelease t r) s = .next u ∧ u = { s with ops := u.ops, regs := u.regs } ∧
      u.op? h = some { o with local_ := false } ∧ (∀ k, k ≠ h → u.op? k = s.op? k) ∧
      u.rd (R.CRG_TRIG_FALLBACK t) = satAdd32 (s.rd (R.CRG_TRIG_FALLBACK t)) 1 ∧ RegsKept s u [R.CRG_TRIG_FALLBACK t])

/-- The completion of a record that makes no event item: DONE of its ring advances by 1, the record is gone, its signal adds SIG_AMT to its
counter alone, saturating, and a CODE other than OK sets that counter's FAULT bit. No byte of memory and no event queue changes. -/
def Obligations.CompletionRecorded : Prop :=
  ∀ (s : State) (h : Nat) (o : RunOp), CmdRecF.evt o.cmd = 0 → o.tenant < 64 → o.ring < 16 →
    let u := s.complete h o
    u.ms = s.ms ∧ u.evq = s.evq ∧ Recorded s u h o o.code ∧
    ((CmdRecF.sigEn o.cmd = false ∨ o.code = 0) → RegsKept s u [R.CRG_RING_DONE o.tenant o.ring])

/-- EVENT_DELIVER with room delivers the next item whose units are all written: the oldest of the highest priority leaves the store, the
pending gap returns to 0, PROD advances by its units, and an item of one unit goes to the host with GAP and PHASE in its header.
EVQ_CONS_WRITE takes a value between CONS and PROD, and ignores any other. FLUSH marks the boundary;
FLUSH_APPLY discards what began before it, once that is complete, counts it and raises FLUSH_DONE. EVQ_ENABLE with room in the pool enables
the queue empty, without room sets ALLOC_ERR and leaves it disabled, and of an enabled queue leaves LOC, CAP and DLV. EVQ_DISABLE drops the
store. EVQ_HOLDOFF_EXPIRY ends the interval. -/
def Obligations.EventQueueCommands : Prop :=
  (∀ (s : State) (t q : Nat) (i : EvItem), t < 64 → q < 16 → State.nextItem s.ft (s.evqGet t q) = some i → s.evqEn t q = true →
    i.bytes.length / 64 ≤ s.dlvFree t q → (s.rdB (R.EVQ_CTL t q) 30 = true → s.hostReach = true) →
    ∃ u, exec (.eventDeliver t q) s = .next u ∧
      (u.evqGet t q).items = (s.evqGet t q).items.erase i ∧ (u.evqGet t q).gap = 0 ∧ (u.evqGet t q).nextNo = (s.evqGet t q).nextNo ∧
      u.rd (R.EVQ_PROD t q) = s.rd (R.EVQ_PROD t q) + BitVec.ofNat 32 (i.bytes.length / 64) ∧
      (∀ k, k ≠ 16 * t + q → Map.get? u.evq k = Map.get? s.evq k) ∧
      (s.rdB (R.EVQ_CTL t q) 30 = true → u = { s with evq := u.evq, outbox := u.outbox, regs := u.regs, msix := u.msix }) ∧
      (s.rdB (R.EVQ_CTL t q) 30 = true → s.rdB (R.EVQ_CTL t q) 19 = false → i.bytes.length = 64 →
        u.outbox = s.outbox ++ [.hostWrite (s.rd64 (R.EVQ_BASE_LO t q) / 64 * 64 + (s.rd (R.EVQ_PROD t q)).toNat % s.dlvUnits t q * 64)
          (State.stampHdr i.bytes (s.evqGet t q).gap ((s.rd (R.EVQ_PROD t q)).toNat / s.dlvUnits t q % 2 == 0)) false])) ∧
  (∀ (s : State) (t q : Nat) (v : Word32), t < 64 → q < 16 →
    (s.rd (R.EVQ_PROD t q) - v).toNat ≤ (s.rd (R.EVQ_PROD t q) - s.rd (R.EVQ_CONS t q)).toNat →
    ∃ u, exec (.evqConsWrite t q v) s = .next u ∧ RegWritten s u (R.EVQ_CONS t q) v) ∧
  (∀ (s : State) (t q : Nat) (v : Word32), t < 64 → q < 16 →
    (s.rd (R.EVQ_PROD t q) - s.rd (R.EVQ_CONS t q)).toNat < (s.rd (R.EVQ_PROD t q) - v).toNat →
    ∃ u, exec (.evqConsWrite t q v) s = .next u ∧ RegIgnored s u (R.EVQ_CONS t q)) ∧
  (∀ (s : State) (t q : Nat) (v : Word32), t < 64 → q < 16 → bit v 0 = true →
    ∃ u, exec (.flush t q v) s = .next u ∧ u = { s with evq := u.evq, regs := u.regs } ∧
      u.evqGet t q = { s.evqGet t q with flushAt := some (s.evqGet t q).nextNo, gapSince := 0 } ∧
      (∀ k, k ≠ 16 * t + q → Map.get? u.evq k = Map.get? s.evq k) ∧ RegsKept s u [R.GEN_WR_CNT (0x50 + t), R.GEN_IGN_CNT (0x50 + t)]) ∧
  (∀ (s : State) (t q : Nat) (v : Word32), t < 64 → q < 16 → bit v 0 = false →
    ∃ u, exec (.flush t q v) s = .next u ∧ OnlyRegs s u [R.GEN_WR_CNT (0x50 + t), R.GEN_IGN_CNT (0x50 + t)]) ∧
  (∀ (s : State) (t q k : Nat), t < 64 → q < 16 → (s.evqGet t q).flushAt = some k →
    (∀ i ∈ (s.evqGet t q).items, i.no < k → i.due ≤ s.ft) →
    ∃ u, exec (.flushApply t q) s = .next u ∧ u = { s with evq := u.evq, regs := u.regs, outbox := u.outbox, msix := u.msix } ∧
      u.evqGet t q = { s.evqGet t q with items := (s.evqGet t q).items.filter (fun i => k ≤ i.no), gap := (s.evqGet t q).gapSince, flushAt := none } ∧
      u.rd (R.EVQ_FLUSH_CNT t q) =
        satAdd32 (s.rd (R.EVQ_FLUSH_CNT t q)) ((s.evqGet t q).items.filter (fun i => i.no < k)).length ∧
      u.rdB (R.INT_STAT (0x50 + t)) 2 = true ∧ RegsKept s u [R.EVQ_FLUSH_CNT t q, R.INT_STAT (0x50 + t)]) ∧
  (∀ (s : State) (t q k : Nat) (i : EvItem), (s.evqGet t q).flushAt = some k → i ∈ (s.evqGet t q).items → i.no < k → s.ft < i.due →
    exec (.flushApply t q) s = .next s) ∧
  (∀ (s : State) (t q : Nat) (v : Word32), t < 64 → q < 16 → bit v 31 = true → s.evqEn t q = false →
    let w := s.evqCtlWrite t q (v &&& 0x7FFFFFFF#32)
    w.evqCap t q ≤ w.poolFree →
    ∃ u, exec (.evqEnable t q v) s = .next u ∧ u = { s with evq := u.evq, regs := u.regs } ∧ u.evqEn t q = true ∧
      u.evqGet t q = EvQueue.none ∧ u.rd (R.EVQ_PROD t q) = 0 ∧ u.rd (R.EVQ_CONS t q) = 0) ∧
  (∀ (s : State) (t q : Nat) (v : Word32), t < 64 → q < 16 → bit v 31 = true → s.evqEn t q = false →
    let w := s.evqCtlWrite t q (v &&& 0x7FFFFFFF#32)
    w.poolFree < w.evqCap t q →
    ∃ u, exec (.evqEnable t q v) s = .next u ∧ u = { s with regs := u.regs, outbox := u.outbox, msix := u.msix } ∧
      u.evqEn t q = false ∧ u.rd (R.EVQ_ALLOC_ERR t) = s.rd (R.EVQ_ALLOC_ERR t) ||| BitVec.ofNat 32 (2 ^ q) ∧
      u.rdB (R.INT_STAT (0x50 + t)) 1 = true) ∧
  (∀ (s : State) (t q : Nat) (v : Word32), t < 64 → q < 16 → bit v 31 = true → s.evqEn t q = true →
    ∃ u, exec (.evqEnable t q v) s = .next u ∧ u = { s with regs := u.regs } ∧
      u.rd (R.EVQ_CTL t q) &&& 0x4FF00000#32 = s.rd (R.EVQ_CTL t q) &&& 0x4FF00000#32) ∧
  (∀ (s : State) (t q : Nat) (v : Word32), t < 64 → q < 16 → bit v 31 = false →
    ∃ u, exec (.evqDisable t q v) s = .next u ∧ u = { s with evq := u.evq, regs := u.regs } ∧ u.evqEn t q = false ∧ u.evqGet t q = EvQueue.none ∧
      (∀ k, k ≠ 16 * t + q → Map.get? u.evq k = Map.get? s.evq k)) ∧
  (∀ (s : State) (t q : Nat), (s.evqGet t q).holdoff = true → (s.evqGet t q).irqWait = false →
    ∃ u, exec (.evqHoldoffExpiry t q) s = .next u ∧ u = { s with evq := u.evq } ∧
      u.evqGet t q = { s.evqGet t q with holdoff := false } ∧ (∀ k, k ≠ 16 * t + q → Map.get? u.evq k = Map.get? s.evq k)) ∧
  (∀ (s : State) (t q : Nat), (s.evqGet t q).holdoff = true → (s.evqGet t q).irqWait = true → s.rdB (R.EVQ_CTL t q) 19 = true →
    ∃ u, exec (.evqHoldoffExpiry t q) s = .next u ∧ u = { s with evq := u.evq, outbox := u.outbox, msix := u.msix } ∧
      u.evqGet t q = { s.evqGet t q with holdoff := s.rdF (R.EVQ_CTL t q) 18 11 != 0, irqWait := false } ∧
      (∀ k, k ≠ 16 * t + q → Map.get? u.evq k = Map.get? s.evq k))

/-- Each of COPY, FILL, GATHER, MATMUL, MATMUL_SPLITK, GROUPED_MATMUL, ATTN_FWD, ATTN_BWD, ATTN_DECODE, CANDIDATES, ELEMENTWISE, RMSNORM,
LAYERNORM, LOGSOFTMAX, REDUCE, ROPE, RAND_MASK, TOKEN_LOGPROB, ENTROPY, GROUP_ADV, GAE, POLICY_LOSS and KL_PENALTY, of an operator next on its
units, begins to read its inputs and, while one comes from flash, waits; else it runs its effect once and marks the operator run, or, refused
before any write, ends it with that CODE and DETAIL, memory as it was. An operator that has run is left as it is. ELEMENTWISE runs only the
function its record selects, in the coding of Config (the model's choice, log entry 19). -/
def Obligations.TensorOperators : Prop :=
  (∀ h, RunsBy (.copy h) h 0x0001 noReads (State.copyFx h)) ∧
  (∀ h, RunsBy (.fill h) h 0x0002 noReads (State.fillFx h)) ∧
  (∀ h, RunsBy (.gather h) h 0x0003 noReads (State.gatherFx h)) ∧
  (∀ (h : Nat) (start : List Word32), RunsBy (.matmul h start) h 0x0100 noReads (State.matmulOp start h)) ∧
  (∀ (h : Nat) (start : List Word32), RunsBy (.matmulSplitk h start) h 0x0101 noReads (State.splitkFx start h)) ∧
  (∀ (h : Nat) (groups : List MmGroup), RunsBy (.groupedMatmul h groups) h 0x0102 (State.listReads groups) (State.groupedFx groups h)) ∧
  (∀ h, RunsBy (.attnFwd h) h 0x0200 noReads (State.attnFwdFx h)) ∧
  (∀ h, RunsBy (.attnBwd h) h 0x0201 noReads (State.attnBwdFx h)) ∧
  (∀ h, RunsBy (.attnDecode h) h 0x0202 State.decodeReads (State.attnDecodeFx h)) ∧
  (∀ h, RunsBy (.candidates h) h 0x0204 noReads (State.candidatesFx h)) ∧
  (∀ (h : Nat) (f : VFun), RunsWhen (.elementwise h f) h 0x0300 noReads (fun _ o => fld o.cmd.w3 7 0 = (Config.elementCode f).toNat)
    (State.elementwiseFx f h)) ∧
  (∀ (s : State) (h : Nat) (f : VFun) (o : RunOp), s.op? h = some o → (o.ran = true ∨ fld o.cmd.w3 7 0 ≠ (Config.elementCode f).toNat) →
    exec (.elementwise h f) s = .next s) ∧
  (∀ (h : Nat) (eps : Word32), RunsBy (.rmsnorm h eps) h 0x0301 noReads (State.rmsFx eps h)) ∧
  (∀ (h : Nat) (eps : Word32), RunsBy (.layernorm h eps) h 0x0302 noReads (State.layerFx eps h)) ∧
  (∀ h, RunsBy (.logsoftmax h) h 0x0303 noReads (State.logsoftmaxFx h)) ∧
  (∀ (h : Nat) (op : RedOp), RunsBy (.reduce h op) h 0x0304 noReads (State.reduceFx op h)) ∧
  (∀ (h : Nat) (half : Bool) (rots : List Rot), RunsBy (.rope h half rots) h 0x0305 noReads (State.ropeFx half rots h)) ∧
  (∀ h, RunsBy (.randMask h) h 0x0306 noReads (State.randMaskFx h)) ∧
  (∀ h, RunsBy (.tokenLogprob h) h 0x0400 noReads (State.tokenLogprobFx h)) ∧
  (∀ h, RunsBy (.entropy h) h 0x0401 noReads (State.entropyFx h)) ∧
  (∀ h, RunsBy (.groupAdv h) h 0x0402 noReads (State.groupAdvFx h)) ∧
  (∀ h, RunsBy (.gae h) h 0x0403 noReads (State.gaeFx h)) ∧
  (∀ h, RunsBy (.policyLoss h) h 0x0404 noReads (State.policyLossFx h)) ∧
  (∀ h, RunsBy (.klPenalty h) h 0x0405 noReads (State.klFx h))

/-- Each of REMOTE_READ, REMOTE_WRITE, REMOTE_ATOMIC and REMOTE_MOVE, of an operator that may start, begins to read what it sends and, while that
comes from flash, waits; else it runs its effect once and marks the operator run, or, refused before any write, ends it with that CODE and
DETAIL, memory as it was. -/
def Obligations.RemoteOperators : Prop :=
  (∀ h, RunsBy (.remoteRead h) h 0x0700 noReads (State.remoteReadFx h)) ∧
  (∀ h, RunsBy (.remoteWrite h) h 0x0701 (fun _ o => if o.cmd.w2.toNat ≤ 16777216 then [(o.cmd.w0.toNat, o.cmd.w2.toNat)] else []) (State.remoteWriteFx h)) ∧
  (∀ h, RunsBy (.remoteAtomic h) h 0x0702 noReads (State.remoteAtomicFx h)) ∧
  (∀ h, RunsBy (.remoteMove h) h 0x0703 noReads (State.remoteMoveFx h))

/-- NOP only marks its operator as run, a parameter block it names being read. EVENT without further units makes its item a USER item with
W0 as TYPE_DATA, and touches nothing else. TIMESTAMP writes FT_START, 8 little-endian bytes at W0, and changes no other byte of memory and no
register but the byte counts of DRAM. -/
def Obligations.ControlOperators : Prop :=
  (∀ (s : State) (h : Nat) (o : RunOp), OpReady s h 0x0F00 o → s.reading (.op h) = false →
    ∃ t, exec (.nop h) s = .next t ∧ t = { s with ops := t.ops, ms := t.ms, regs := t.regs } ∧ ReadFrame s t [] ∧
      (o.cmd.w7 = 0 → t = { s with ops := t.ops }) ∧
      t.op? h = some { o with touched := true, ran := true } ∧ ∀ k, k ≠ h → t.op? k = s.op? k) ∧
  (∀ (s : State) (h : Nat) (o : RunOp), OpReady s h 0x0F01 o → s.reading (.op h) = false → o.cmd.w1 = 0 → o.cmd.w2 = 0 → o.cmd.w3 = 0 →
    o.cmd.w4 = 0 → o.cmd.w5 = 0 → o.cmd.w6 = 0 → o.cmd.w7 = 0 →
    ∃ t, exec (.event h) s = .next t ∧ t = { s with ops := t.ops } ∧
      t.op? h = some { o with touched := true, kind := 4, tdata := o.cmd.w0, ran := true } ∧ ∀ k, k ≠ h → t.op? k = s.op? k) ∧
  (∀ (s : State) (h : Nat) (o : RunOp), OpReady s h 0x0F02 o → s.reading (.op h) = false →
    o.cmd.w0.toNat + 8 ≤ uniEnd → o.cmd.w0.toNat % tileBytes + 8 ≤ tileBytes → s.deny o.tenant o.cmd.w0.toNat true = none →
    (s.tile (o.cmd.w0.toNat / tileBytes)).st = .dram →
    ∃ t, exec (.timestamp h) s = .next t ∧ t = { s with ops := t.ops, mem := t.mem, ms := t.ms, regs := t.regs } ∧
      Mem.read t.mem o.cmd.w0.toNat 8 = leBytes 8 o.ftStart.toNat ∧
      (∀ a, a < o.cmd.w0.toNat ∨ o.cmd.w0.toNat + 8 ≤ a → Mem.get t.mem a = Mem.get s.mem a) ∧ t.ms.tiles = s.ms.tiles ∧
      DramRegs s t [] ∧
      t.op? h = some { o with touched := true, ran := true } ∧ ∀ k, k ≠ h → t.op? k = s.op? k) ∧
  (∀ h, RunsBy (.event h) h 0x0F01 (fun _ o => if fld o.cmd.w2 1 0 = 0 then [] else [(o.cmd.w1.toNat, 64 * fld o.cmd.w2 1 0)])
    (State.eventFx h)) ∧
  (∀ h, RunsBy (.timestamp h) h 0x0F02 noReads (State.timestampFx h))

/-- RGN_DATA_WRITE and QUOTA_WRITE outside an administrator session set ADMIN_DENY and change neither regions nor quotas. In one,
RGN_DATA_WRITE of an entry whose fields are in range, to a region with no allocated tile or one whose owner, tier and VALID stay, replaces that
entry alone; any other sets RGN_ERR on every MPD and changes no entry. QUOTA_WRITE within the live frames or tiles, and no less than the
owner holds, sets that owner's quota alone; one that asks for too much, or too little, sets QUOTA_ERR. -/
def Obligations.RegionsAndQuotas : Prop :=
  (∀ (s : State) (v : Word32), s.adminOpen = false →
    ∃ t, exec (.rgnDataWrite v) s = .next t ∧ t = { s with regs := t.regs } ∧ t.rdB R.SEM_ERR 1 = true ∧
      RegsKept s t [R.SEM_ERR, R.GEN_WR_CNT 0xD0, R.GEN_IGN_CNT 0xD0]) ∧
  (∀ (s : State) (v : Word32) (flash : Bool), s.adminOpen = false →
    ∃ t, exec (.quotaWrite flash v) s = .next t ∧ t = { s with regs := t.regs } ∧ t.rdB R.SEM_ERR 1 = true ∧
      RegsKept s t [R.SEM_ERR, R.GEN_WR_CNT 0xD0, R.GEN_IGN_CNT 0xD0]) ∧
  (∀ (s : State) (v w : Word32), s.adminOpen = true → fld v 30 29 < 3 → fld v 27 24 < 7 → fld v 6 0 ≤ 64 →
    w = (if fld v 6 0 = 64 then v &&& 0xFF80007F#32 else v &&& 0xFF00007F#32) →
    (s.regionUsed (s.rdF R.MPD_RGN_SEL 12 0) = false ∨ (w ^^^ s.rgn (s.rdF R.MPD_RGN_SEL 12 0)) &&& 0xE080007F#32 = 0) →
    ∃ t, exec (.rgnDataWrite v) s = .next t ∧ t = { s with regs := t.regs, ms := { s.ms with rgn := t.ms.rgn } } ∧
      t.rgn (s.rdF R.MPD_RGN_SEL 12 0) = w ∧
      (∀ r, r ≠ s.rdF R.MPD_RGN_SEL 12 0 → t.rgn r = s.rgn r) ∧ RegsKept s t [R.GEN_WR_CNT 0xD0, R.GEN_IGN_CNT 0xD0]) ∧
  (∀ (s : State) (v w : Word32), s.adminOpen = true →
    w = (if fld v 6 0 = 64 then v &&& 0xFF80007F#32 else v &&& 0xFF00007F#32) →
    (fld v 30 29 = 3 ∨ 7 ≤ fld v 27 24 ∨ 64 < fld v 6 0 ∨
      (s.regionUsed (s.rdF R.MPD_RGN_SEL 12 0) = true ∧ (w ^^^ s.rgn (s.rdF R.MPD_RGN_SEL 12 0)) &&& 0xE080007F#32 ≠ 0)) →
    ∃ t, exec (.rgnDataWrite v) s = .next t ∧ t = { s with regs := t.regs, outbox := t.outbox, msix := t.msix } ∧
      t.rdB R.MPD_ERR 1 = true ∧ ∀ m, m < 6 → t.rdB (R.INT_STAT (0xD0 + m)) 1 = true) ∧
  (∀ (s : State) (v : Word32), s.adminOpen = true →
    let o := s.rdF R.MPD_OWN_SEL 6 0
    (s.ms.own.map (fun p => p.2.fQuota)).sum - (s.owner o).fQuota + fld v 28 0 ≤ s.liveFlash → s.fUsed o ≤ fld v 28 0 →
    ∃ t, exec (.quotaWrite true v) s = .next t ∧ t = { s with regs := t.regs, ms := { s.ms with own := t.ms.own } } ∧
      t.owner o = { s.owner o with fQuota := fld v 28 0 } ∧ (∀ p, p ≠ o → t.owner p = s.owner p) ∧
      RegsKept s t [R.GEN_WR_CNT 0xD0, R.GEN_IGN_CNT 0xD0]) ∧
  (∀ (s : State) (v : Word32), s.adminOpen = true →
    let o := s.rdF R.MPD_OWN_SEL 6 0
    (s.liveFlash < (s.ms.own.map (fun p => p.2.fQuota)).sum - (s.owner o).fQuota + fld v 28 0 ∨ fld v 28 0 < s.fUsed o) →
    ∃ t, exec (.quotaWrite true v) s = .next t ∧ t = { s with regs := t.regs, outbox := t.outbox, msix := t.msix } ∧
      t.rdB R.MPD_ERR 0 = true) ∧
  (∀ (s : State) (v : Word32) (nap : Nat), s.adminOpen = true → nap = (if s.pwr.napArea then 66224 else 0) →
    let o := s.rdF R.MPD_OWN_SEL 6 0
    let replay := (s.ms.frames.filter (fun p => match p.2.use with | .replay _ => true | _ => false)).length
    (s.ms.own.map (fun p => p.2.dQuota)).sum - (s.owner o).dQuota + fld v 24 0 + replay + nap ≤ s.liveFrames → s.dUsed o ≤ fld v 24 0 →
    ∃ t, exec (.quotaWrite false v) s = .next t ∧ t = { s with regs := t.regs, ms := { s.ms with own := t.ms.own } } ∧
      t.owner o = { s.owner o with dQuota := fld v 24 0 } ∧ (∀ p, p ≠ o → t.owner p = s.owner p) ∧
      RegsKept s t [R.GEN_WR_CNT 0xD0, R.GEN_IGN_CNT 0xD0]) ∧
  (∀ (s : State) (v : Word32) (nap : Nat), s.adminOpen = true → nap = (if s.pwr.napArea then 66224 else 0) →
    let o := s.rdF R.MPD_OWN_SEL 6 0
    let replay := (s.ms.frames.filter (fun p => match p.2.use with | .replay _ => true | _ => false)).length
    (s.liveFrames < (s.ms.own.map (fun p => p.2.dQuota)).sum - (s.owner o).dQuota + fld v 24 0 + replay + nap ∨ fld v 24 0 < s.dUsed o) →
    ∃ t, exec (.quotaWrite false v) s = .next t ∧ t = { s with regs := t.regs, outbox := t.outbox, msix := t.msix } ∧
      t.rdB R.MPD_ERR 0 = true)

/-- MPD_ACCESS, for a requester that is no operator, with no link on its way drained: a read of a DRAM home answers the bytes memory holds
and changes no byte; a read of a flash home starts a flash read; a write stores its data at its address and changes no other byte, and is
answered; an atomic stores its result and answers the old value; a requester without the right is answered with CODE and DETAIL and
nothing changes; the first write of a tile takes the frame that placement gives and makes it the tile's home; a write to a tile that
moves waits, and no byte changes. With a link drained the access waits in the mesh. -/
def Obligations.MemoryAccess : Prop :=
  (∀ (s : State) (x : Access), s.meshWaits .request (s.accDie x) (s.addrDie x.addr) = false → x.op = none → x.kind = .read →
    x.fresh < 2 ^ 64 → 0 < x.len →
    x.addr % tileBytes + x.len ≤ tileBytes → s.deny x.who x.addr false = none → (s.tile (x.addr / tileBytes)).st = .dram →
    s.erasedSyms (State.stackOf (s.tile (x.addr / tileBytes)).loc) ≤ 4 → s.anyPoison x.addr x.len = false →
    ∃ t, exec (.mpdAccess x .clean) s = .next t ∧
      t = { s with ms := { s.ms with frames := t.ms.frames }, regs := t.regs
                   outbox := s.outbox ++ [.reply x.fresh 0 0 (s.bytesAt x.addr x.len)] } ∧ DramRegs s t []) ∧
  (∀ (s : State) (x : Access) (e : EccResult), s.meshWaits .request (s.accDie x) (s.addrDie x.addr) = false → x.op = none →
    x.kind = .read → 0 < x.len → x.addr % tileBytes + x.len ≤ tileBytes → s.deny x.who x.addr false = none →
    (s.tile (x.addr / tileBytes)).st = .flash →
    ∃ t, exec (.mpdAccess x e) s = .next t ∧ t = { s with ms := { s.ms with reads := t.ms.reads, own := t.ms.own, asks := t.ms.asks } } ∧
      Map.get? t.ms.reads (Map.nextKey s.ms.reads) =
        some ⟨x.addr / tileBytes, s.ft, .acc { x with rem := none, poison := [] }, false, none⟩) ∧
  (∀ (s : State) (x : Access) (e : EccResult), s.meshWaits .request (s.accDie x) (s.addrDie x.addr) = false → x.op = none → x.kind = .write →
    x.fresh < 2 ^ 64 → x.data ≠ [] →
    x.addr % tileBytes + x.data.length ≤ tileBytes → s.deny x.who x.addr true = none →
    (s.tile (x.addr / tileBytes)).st = .dram →
    ∃ t, exec (.mpdAccess x e) s = .next t ∧
      t = { s with ms := { s.ms with frames := t.ms.frames, poison := t.ms.poison }, mem := t.mem, regs := t.regs
                   outbox := s.outbox ++ [.reply x.fresh 0 0 []] } ∧ DramRegs s t [] ∧
      Mem.read t.mem x.addr x.data.length = x.data ∧
      ∀ a, a < x.addr ∨ x.addr + x.data.length ≤ a → Mem.get t.mem a = Mem.get s.mem a) ∧
  (∀ (s : State) (x : Access), s.meshWaits .request (s.accDie x) (s.addrDie x.addr) = false → x.op = none → x.kind = .atomic →
    x.fresh < 2 ^ 64 → x.addr % atomicSize x = 0 → (atomicNew (x.len % 16) (atomicSize x) 0 0 0).isSome = true →
    s.deny x.who x.addr true = none → (s.tile (x.addr / tileBytes)).st = .dram →
    s.erasedSyms (State.stackOf (s.tile (x.addr / tileBytes)).loc) ≤ 4 → s.anyPoison x.addr (atomicSize x) = false →
    ∃ t v, exec (.mpdAccess x .clean) s = .next t ∧
      t = { s with ms := { s.ms with frames := t.ms.frames, poison := t.ms.poison }, mem := t.mem, regs := t.regs
                   outbox := s.outbox ++ [.reply x.fresh 0 0 (s.bytesAt x.addr (atomicSize x))] } ∧
      atomicNew (x.len % 16) (atomicSize x) (leNat (s.bytesAt x.addr (atomicSize x))) (leNat (x.data.take 8)) (leNat (x.data.drop 8)) = some v ∧
      Mem.read t.mem x.addr (atomicSize x) = leBytes (atomicSize x) v ∧
      ∀ a, a < x.addr ∨ x.addr + atomicSize x ≤ a → Mem.get t.mem a = Mem.get s.mem a) ∧
  (∀ (s : State) (x : Access) (e : EccResult) (c d : Nat), s.meshWaits .request (s.accDie x) (s.addrDie x.addr) = false → x.op = none →
    x.kind = .write → x.fresh < 2 ^ 64 → x.data ≠ [] →
    x.addr % tileBytes + x.data.length ≤ tileBytes → s.deny x.who x.addr true = some (c, d) →
    exec (.mpdAccess x e) s = .next { s with outbox := s.outbox ++ [.reply x.fresh c d []] }) ∧
  (∀ (s : State) (x : Access) (e : EccResult) (loc : Nat), s.meshWaits .request (s.accDie x) (s.addrDie x.addr) = false → x.op = none →
    x.kind = .write → x.fresh < 2 ^ 64 → x.data ≠ [] →
    x.addr % tileBytes + x.data.length ≤ tileBytes → s.deny x.who x.addr true = none →
    s.tile (x.addr / tileBytes) = Tile.none → s.tableFull (x.addr / tileBytes / 65536) = false →
    State.rgnTier (s.rgnAt x.addr) ≠ 2 → 0 < s.dFree (State.rgnOwner (s.rgnAt x.addr)) →
    s.placeFrame (x.addr / tileBytes) = some loc →
    ∃ t, exec (.mpdAccess x e) s = .next t ∧ t.tile (x.addr / tileBytes) = ⟨.dram, false, loc, false⟩ ∧
      (∃ f, Map.get? t.ms.frames loc = some f ∧ f.use = .tile (x.addr / tileBytes) ∧ f.owner = State.rgnOwner (s.rgnAt x.addr)) ∧
      Mem.read t.mem x.addr x.data.length = x.data ∧
      (∀ a, a < x.addr ∨ x.addr + x.data.length ≤ a → Mem.get t.mem a = Mem.get s.mem a) ∧
      (∀ n, n ≠ x.addr / tileBytes → t.tile n = s.tile n) ∧ DramRegs s t [] ∧
      t.outbox = s.outbox ++ [.reply x.fresh 0 0 []]) ∧
  (∀ (s : State) (x : Access) (e : EccResult), s.meshWaits .request (s.accDie x) (s.addrDie x.addr) = false → x.op = none → x.kind = .write →
    x.data ≠ [] → x.addr % tileBytes + x.data.length ≤ tileBytes → s.deny x.who x.addr true = none →
    ((s.tile (x.addr / tileBytes)).st = .movingD ∨ (s.tile (x.addr / tileBytes)).st = .movingF) →
    exec (.mpdAccess x e) s = .next { s with ms := { s.ms with waits := s.ms.waits ++ [⟨{ x with rem := none, poison := [] }, true⟩] } }) ∧
  (∀ (s : State) (x : Access) (e : EccResult), s.meshWaits .request (s.accDie x) (s.addrDie x.addr) = true →
    (x.kind = .read → 0 < x.len ∧ x.addr % tileBytes + x.len ≤ tileBytes) →
    (x.kind = .write → 0 < x.data.length ∧ x.addr % tileBytes + x.data.length ≤ tileBytes) →
    (x.kind = .atomic → x.addr % tileBytes + atomicSize x ≤ tileBytes) →
    exec (.mpdAccess x e) s =
      .next { s with meshQ := s.meshQ ++ [⟨.request, s.accDie x, s.addrDie x.addr, .access { x with rem := none, poison := [] } e⟩] })

/-- TILE_MOVE of one DRAM tile to flash, and PREFETCH of one flash tile, ask for the move and change no home; a TILE_MOVE that discards an
idle DRAM tile leaves it UNALLOC and blank, and of a busy one asks; one with a bad span ends with CODE 3 DETAIL 3. MOVE_START of a move to
flash takes a flash tile, marks the home moving and starts the program; to DRAM it takes the frame and starts the flash read. MOVE_COMMIT
makes the destination the home and frees the source; a failed destination leaves the home at the source, and a table copy that cannot be
written is dropped. WAITING_WRITE_PROCEED serves a write whose tile is in DRAM, and leaves one that is held. ACCESS_BIT_SAMPLE moves every
access bit into its reference mark. DEMOTION asks for the move of the clock sweep's victim. -/
def Obligations.TileMoves : Prop :=
  (∀ (s : State) (h n : Nat) (o : RunOp), OpIssued s h 0x0010 o → o.cmd.w0.toNat = n * tileBytes → (n + 1) * tileBytes ≤ uniEnd →
    o.cmd.w1 = 1 → o.cmd.w2 = 2 → o.cmd.w3 = 0 → o.cmd.w4 = 0 → o.cmd.w5 = 0 → o.cmd.w6 = 0 → o.cmd.w7 = 0 →
    s.moveDeny o.tenant n false = none → s.tile n = ⟨.dram, false, (s.tile n).loc, (s.tile n).evac⟩ →
    State.rgnTier (s.rgn (n / 65536)) ≠ 1 → s.ms.asks = [] → Map.get? s.ms.moves n = none →
    ∃ t, exec (.tileMove h) s = .next t ∧
      t = { s with ops := t.ops, ms := { s.ms with asks := [⟨n, .op h, .flash, false⟩] } } ∧ t.op? h = some { o with ran := true } ∧
      ∀ k, k ≠ h → t.op? k = s.op? k) ∧
  (∀ (s : State) (h n : Nat) (o : RunOp), OpIssued s h 0x0010 o → o.cmd.w0.toNat = n * tileBytes → (n + 1) * tileBytes ≤ uniEnd →
    o.cmd.w1 = 1 → o.cmd.w2 = 3 → o.cmd.w3 = 0 → o.cmd.w4 = 0 → o.cmd.w5 = 0 → o.cmd.w6 = 0 → o.cmd.w7 = 0 →
    s.moveDeny o.tenant n true = none → (s.tile n).st = .dram → s.tileBusy n = false → s.modelTile n = false → s.ms.evacuating = [] →
    ∃ t, exec (.tileMove h) s = .next t ∧ t = { s with ops := t.ops, ms := t.ms, mem := t.mem } ∧ t.tile n = Tile.none ∧
      Map.get? t.ms.frames (s.tile n).loc = none ∧ (∀ k, k ≠ n → t.tile k = s.tile k) ∧
      (∀ a, n * tileBytes ≤ a → a < (n + 1) * tileBytes → Mem.get t.mem a = Mem.blank) ∧
      (∀ a, a < n * tileBytes ∨ (n + 1) * tileBytes ≤ a → Mem.get t.mem a = Mem.get s.mem a) ∧ t.op? h = some { o with ran := true }) ∧
  (∀ (s : State) (h n : Nat) (o : RunOp), OpIssued s h 0x0010 o → o.cmd.w0.toNat = n * tileBytes → (n + 1) * tileBytes ≤ uniEnd →
    o.cmd.w1 = 1 → o.cmd.w2 = 3 → o.cmd.w3 = 0 → o.cmd.w4 = 0 → o.cmd.w5 = 0 → o.cmd.w6 = 0 → o.cmd.w7 = 0 →
    s.moveDeny o.tenant n true = none → (s.tile n).st = .dram → s.tileBusy n = true → s.ms.asks = [] → Map.get? s.ms.moves n = none →
    ∃ t, exec (.tileMove h) s = .next t ∧
      t = { s with ops := t.ops, ms := { s.ms with asks := [⟨n, .op h, .discard, false⟩] } } ∧ t.op? h = some { o with ran := true }) ∧
  (∀ (s : State) (h : Nat) (o : RunOp), OpIssued s h 0x0010 o → (o.cmd.w0.toNat % tileBytes ≠ 0 ∨ o.cmd.w1 = 0 ∨ o.cmd.w3 ≠ 0) →
    ∃ t, exec (.tileMove h) s = .next t ∧ t = { s with ops := t.ops } ∧
      t.op? h = some { o with ran := true, code := 3, detail := 3, failUnit := 0 }) ∧
  (∀ (s : State) (h n : Nat) (o : RunOp), OpIssued s h 0x0011 o → o.cmd.w0.toNat = n * tileBytes → (n + 1) * tileBytes ≤ uniEnd →
    o.cmd.w1 = 1 → o.cmd.w2 = 0 → o.cmd.w3 = 0 → o.cmd.w4 = 0 → o.cmd.w5 = 0 → o.cmd.w6 = 0 → o.cmd.w7 = 0 →
    s.moveDeny o.tenant n false = none → (s.tile n).st = .flash → State.rgnTier (s.rgn (n / 65536)) ≠ 2 → s.ms.asks = [] →
    Map.get? s.ms.moves n = none →
    ∃ t, exec (.prefetch h) s = .next t ∧
      t = { s with ops := t.ops, ms := { s.ms with asks := [⟨n, .op h, .place, false⟩] } } ∧ t.op? h = some { o with ran := true }) ∧
  (∀ (s : State) (n lt : Nat) (w : MoveWhy), s.ms.asks = [⟨n, w, .flash, false⟩] → w ≠ .evacuate →
    (∀ h o, w = .op h → s.op? h = some o → o.cmd.opcode ≠ 0x0011) →
    Map.get? s.ms.moves n = none → Map.get? s.away n = none → (s.tile n).st = .dram → s.moveBad n .flash = false →
    s.moverLoad (State.stackOf (s.tile n).loc / 2) < s.rdF (R.MPD_MOVER_CTL (State.stackOf (s.tile n).loc / 2)) 5 0 →
    s.flashDest n = some lt →
    ∃ t, exec (.moveStart n) s = .next t ∧ t = { s with regs := t.regs, ms := t.ms, freeCtr := t.freeCtr } ∧ t.ms.asks = [] ∧
      t.tile n = { s.tile n with st := .movingD } ∧ Map.get? t.ms.ftiles lt = some n ∧
      Map.get? t.ms.moves n = some ⟨State.stackOf (s.tile n).loc / 2, w, false, (s.tile n).loc, true, lt, false, true, false⟩ ∧
      Map.get? t.ms.progs (Map.nextKey s.ms.progs) = some ⟨lt, n, true⟩ ∧ ∀ k, k ≠ n → t.tile k = s.tile k) ∧
  (∀ (s : State) (n loc m : Nat) (w : MoveWhy) (pin : Bool), s.ms.asks = [⟨n, w, .place, pin⟩] → w ≠ .evacuate →
    Map.get? s.ms.moves n = none → Map.get? s.away n = none → (s.tile n).st = .flash → s.moveBad n .place = false →
    m = s.moverOf n (s.tile n) .place → s.moverLoad m < s.rdF (R.MPD_MOVER_CTL m) 5 0 →
    s.dramDest n .place = some loc →
    ∃ t, exec (.moveStart n) s = .next t ∧ t = { s with ms := t.ms } ∧ t.ms.asks = [] ∧
      t.tile n = { s.tile n with st := .movingF } ∧ (∃ f, Map.get? t.ms.frames loc = some f ∧ f.use = .dest n) ∧
      Map.get? t.ms.moves n = some ⟨m, w, true, (s.tile n).loc, false, loc, pin, false, false⟩ ∧
      Map.get? t.ms.reads (Map.nextKey s.ms.reads) = some ⟨n, s.ft, .move, false, none⟩ ∧ ∀ k, k ≠ n → t.tile k = s.tile k) ∧
  (∀ (s : State) (n : Nat) (m : Move), Map.get? s.ms.moves n = some m → m.isRead = true → m.dstFlash = true → m.verified = true →
    m.srcFlash = false → m.why = .demote → s.ms.waits = [] → s.ms.evacuating = [] →
    ∃ t, exec (.moveCommit n [] .done) s = .next t ∧ t = { s with regs := t.regs, ms := t.ms } ∧
      t.tile n = ⟨.flash, (s.tile n).pin, m.dst, false⟩ ∧ Map.get? t.ms.moves n = none ∧ Map.get? t.ms.frames m.src = none ∧
      (∀ k, k ≠ n → t.tile k = s.tile k) ∧ t.rd R.MPD_DEMOTE_CNT = satAdd32 (s.rd R.MPD_DEMOTE_CNT) 1) ∧
  (∀ (s : State) (n : Nat) (m : Move) (f : Frame), Map.get? s.ms.moves n = some m → m.isRead = true → m.dstFlash = false →
    m.srcFlash = true → m.why = .promote → s.ms.waits = [] → s.ms.evacuating = [] → Map.get? s.ms.frames m.dst = some f →
    ∃ t, exec (.moveCommit n [] .done) s = .next t ∧ t = { s with regs := t.regs, ms := t.ms } ∧
      t.tile n = ⟨.dram, (s.tile n).pin || m.pin, m.dst, false⟩ ∧ Map.get? t.ms.moves n = none ∧ Map.get? t.ms.ftiles m.src = none ∧
      Map.get? t.ms.frames m.dst = some { f with use := .tile n } ∧
      (∀ k, k ≠ n → t.tile k = s.tile k) ∧ t.rd R.MPD_PROMOTE_CNT = satAdd32 (s.rd R.MPD_PROMOTE_CNT) 1) ∧
  (∀ (s : State) (n : Nat) (m : Move), Map.get? s.ms.moves n = some m → m.isRead = true → m.dstFlash = false →
    m.srcFlash = true → m.why = .promote → s.ms.waits = [] →
    ∃ t, exec (.moveCommit n [] .dstFail) s = .next t ∧ t = { s with regs := t.regs, ms := t.ms } ∧
      t.tile n = { s.tile n with st := .flash } ∧ Map.get? t.ms.moves n = none ∧ Map.get? t.ms.frames m.dst = none ∧
      ∀ k, k ≠ n → t.tile k = s.tile k) ∧
  (∀ (s : State) (n : Nat) (m : Move), Map.get? s.ms.moves n = some m → m.isRead = true → m.dstFlash = true → m.verified = true →
    m.srcFlash = false → m.why = .demote → s.ms.waits = [] → s.ms.evacuating = [] → s.ms.tblB = true →
    ∃ t, exec (.moveCommit n [] .noCopyA) s = .next t ∧ t.ms.tblA = false ∧ t.ms.tblB = true ∧
      t.tile n = ⟨.flash, (s.tile n).pin, m.dst, false⟩ ∧ Map.get? t.ms.moves n = none) ∧
  (∀ (s : State) (k : Nat) (w : WaitWr), s.ms.waits[k]? = some w → w.held = false → w.acc.op = none → w.acc.rem = none →
    w.acc.kind = .write → w.acc.fresh < 2 ^ 64 → s.deny w.acc.who w.acc.addr true = none →
    (s.tile (w.acc.addr / tileBytes)).st = .dram →
    ∃ t, exec (.waitingWriteProceed k) s = .next t ∧ t.ms.waits = s.ms.waits.eraseIdx k ∧ t.ms.tiles = s.ms.tiles ∧
      t = { s with ms := t.ms, mem := t.mem, regs := t.regs, outbox := s.outbox ++ [.reply w.acc.fresh 0 0 []] } ∧
      Mem.read t.mem w.acc.addr w.acc.data.length = w.acc.data ∧
      ∀ a, a < w.acc.addr ∨ w.acc.addr + w.acc.data.length ≤ a → Mem.get t.mem a = Mem.get s.mem a) ∧
  (∀ (s : State) (k : Nat) (w : WaitWr), s.ms.waits[k]? = some w → w.held = true → exec (.waitingWriteProceed k) s = .next s) ∧
  (∀ (s : State), ∃ t, exec .accessBitSample s = .next t ∧ t = { s with ms := { s.ms with frames := t.ms.frames } } ∧
    ∀ k f, Map.get? s.ms.frames k = some f → Map.get? t.ms.frames k = some { f with acc := false, ref := f.acc }) ∧
  (∀ (s u : State) (o loc n : Nat) (f : Frame), o < 64 → s.dFree o + s.demoting o < 256 → s.rdB R.FTL_STAT 1 = false →
    s.clockSweep o = (some loc, u) → Map.get? u.ms.frames loc = some f → f.use = .tile n → u.ms.asks = [] →
    Map.get? u.ms.moves n = none →
    ∃ t, exec (.demotion o) s = .next t ∧ t.pending = s.pending ∧ t.ms.asks = [⟨n, .demote, .flash, false⟩] ∧
      t.owner o = { u.owner o with clock := loc + 1 } ∧ t.mem = u.mem ∧ t.regs = u.regs ∧ t.ms.tiles = s.ms.tiles) ∧
  (∀ (s : State) (o : Nat), (256 ≤ s.dFree o + s.demoting o ∨ s.rdB R.FTL_STAT 1 = true) → exec (.demotion o) s = .next s)

/-- FLASH_READ_DONE of a read that answers an access sends its bytes, those of the tile's old home where it moved meanwhile; of a move's, marks the
source read; of an operator's, ends the wait; one that failed loses the tile. FLASH_PROGRAM_DONE with a good status verifies the move; with a
bad one it retires the page. TIER_TIMEOUT answers a late access with CODE 0x0A DETAIL 1. PATROL_SCRUB without error moves to the next frame,
wrapping with SCRUB_PASS. EVACUATE of an empty stack fences it at once. IMMEDIATE and MPD_FAULT fence their stacks, whose tiles are LOST and
blank. EVAC_TILE_PROMOTE asks for the move back. FTL_REFRESH counts, and changes no tile; a block that fails to erase is retired.
NAND_DIE_FAIL latches the error and loses nothing. FLASH_CHANNEL_FAIL of a channel with no tile takes it out of FTL_CAP. -/
def Obligations.FlashAndFences : Prop :=
  (∀ (s : State) (k : Nat) (e : FlashRd) (x : Access) (p : List Byte × List Nat), Map.get? s.ms.reads k = some e → e.by_ = .acc x →
    e.late = false → x.op = none → x.rem = none → x.fresh < 2 ^ 64 → p = e.snap.getD (s.bytesAt x.addr x.len, s.ms.poison) →
    ∃ t, exec (.flashReadDone k .ok) s = .next t ∧ t = { s with ms := { s.ms with reads := t.ms.reads }, outbox := t.outbox } ∧
      t.outbox = s.outbox ++
        [.reply x.fresh (if p.2.any (fun u => x.addr / 64 ≤ u && u * 64 < x.addr + x.len) then 9 else 0) 0 p.1] ∧
      Map.get? t.ms.reads k = none) ∧
  (∀ (s : State) (k : Nat) (e : FlashRd) (m : Move), Map.get? s.ms.reads k = some e → e.by_ = .move →
    Map.get? s.ms.moves e.tile = some m →
    ∃ t, exec (.flashReadDone k .ok) s = .next t ∧ t = { s with ms := { s.ms with reads := t.ms.reads, moves := t.ms.moves } } ∧
      Map.get? t.ms.moves e.tile = some { m with isRead := true } ∧ Map.get? t.ms.reads k = none) ∧
  (∀ (s : State) (k h : Nat) (e : FlashRd), Map.get? s.ms.reads k = some e → e.by_ = .op h →
    ∃ t, exec (.flashReadDone k .rebuilt) s = .next t ∧ t = { s with ms := { s.ms with reads := t.ms.reads }, regs := t.regs } ∧
      Map.get? t.ms.reads k = none ∧ t.rd R.FTL_REBUILD_CNT = satAdd32 (s.rd R.FTL_REBUILD_CNT) 1 ∧ RegsKept s t [R.FTL_REBUILD_CNT]) ∧
  (∀ (s : State) (k : Nat) (e : FlashRd) (x : Access), Map.get? s.ms.reads k = some e → e.by_ = .acc x → e.late = false → x.op = none →
    x.rem = none → x.fresh < 2 ^ 64 → (s.tile e.tile).st = .flash → Map.get? s.ms.moves e.tile = none →
    ∃ t, exec (.flashReadDone k .failed) s = .next t ∧ t.tile e.tile = ⟨.lost, false, 0, false⟩ ∧
      (∀ n, n ≠ e.tile → t.tile n = s.tile n) ∧ Emit.reply x.fresh 0x0A 2 [] ∈ t.outbox ∧
      t.rd R.MPD_LOST_CNT = satAdd32 (s.rd R.MPD_LOST_CNT) 1 ∧ t.rdB (R.ERR_INFO 0x0B) 31 = true) ∧
  (∀ (s : State) (k spare : Nat) (p : FlashWr) (m : Move), Map.get? s.ms.progs k = some p → p.isMove = true →
    Map.get? s.ms.moves p.tile = some m →
    ∃ t, exec (.flashProgramDone k true spare) s = .next t ∧ t = { s with ms := { s.ms with progs := t.ms.progs, moves := t.ms.moves } } ∧
      Map.get? t.ms.moves p.tile = some { m with verified := true } ∧ Map.get? t.ms.progs k = none) ∧
  (∀ (s : State) (k spare : Nat) (p : FlashWr), Map.get? s.ms.progs k = some p → p.isMove = false →
    ∃ t, exec (.flashProgramDone k false spare) s = .next t ∧ t.mem = s.mem ∧ t.ms.tiles = s.ms.tiles ∧ Map.get? t.ms.progs k = none ∧
      t.rd R.FTL_RETIRED = satAdd32 (s.rd R.FTL_RETIRED) 1 ∧ t.rdB (R.ERR_INFO 0x0B) 31 = true) ∧
  (∀ (s : State) (k : Nat) (e : FlashRd) (x : Access), Map.get? s.ms.reads k = some e → e.by_ = .acc x → e.late = false →
    x.op = none → x.rem = none → x.fresh < 2 ^ 64 → e.at_.toNat + s.rdF R.MPD_TIER_TMO 15 0 * 4000 ≤ s.ft.toNat →
    ∃ t, exec (.tierTimeout k) s = .next t ∧ t.outbox = s.outbox ++ [.reply x.fresh 0x0A 1 []] ∧ t.mem = s.mem ∧
      t.ms = { s.ms with reads := t.ms.reads } ∧ Map.get? t.ms.reads k = some { e with late := true } ∧ t.ops = s.ops) ∧
  (∀ (s : State) (k : Nat), k < 12 → s.rdB (R.DRP_SCRUB_CTL k) 31 = true → s.ms.fenced.contains k = false →
    s.rdF (R.DRP_SCRUB_POS k) 20 0 < 1572864 →
    ∃ t, exec (.patrolScrub k []) s = .next t ∧ t = { s with regs := t.regs, outbox := t.outbox, msix := t.msix } ∧
      t.rdF (R.DRP_SCRUB_POS k) 20 0 = (s.rdF (R.DRP_SCRUB_POS k) 20 0 + 1) % 1572864 ∧
      RegsKept s t [R.DRP_SCRUB_POS k, R.INT_STAT (0xD8 + k), R.DRP_RD_BYTES_LO k, R.DRP_RD_BYTES_LO k + 4] ∧
      t.rd64 (R.DRP_RD_BYTES_LO k) = (s.rd64 (R.DRP_RD_BYTES_LO k) + 65536) % 2 ^ 64 ∧
      (s.rdF (R.DRP_SCRUB_POS k) 20 0 = 1572863 → t.rdB (R.INT_STAT (0xD8 + k)) 3 = true)) ∧
  (∀ (s : State) (k : Nat), k < 12 → s.ms.fenced = [] → s.ms.evacuating = [] → s.ms.frames = [] → s.ms.asks = [] → s.turn = none →
    s.router = [] →
    ∃ t, exec (.evacuate k) s = .next t ∧ t = { s with regs := t.regs, ms := t.ms, outbox := t.outbox, msix := t.msix, ports := t.ports } ∧
      t.ms.fenced = [k] ∧ t.ms.evacuating = [] ∧ t.ms.tiles = s.ms.tiles ∧ t.rdF (R.DRP_FENCE_STAT k) 31 30 = 2) ∧
  (∀ (s : State) (k : Nat), k < 12 → s.ms.fenced = [] → s.ms.moves = [] → s.ms.asks = [] → s.turn = none →
    (∀ p, State.portOfStack k = some p → s.portState p ≠ 4 ∧ s.portState p ≠ 5 ∧ s.portState p ≠ 7) →
    ∃ t, exec (.immediate k) s = .next t ∧ t.ms.fenced = [k] ∧ t.rdF (R.DRP_FENCE_STAT k) 31 30 = 2 ∧ t.rdB (R.INT_STAT (0xD8 + k)) 2 = true ∧
      ∀ n, if s.ms.frames.any (fun p => State.stackOf p.1 == k && p.2.use == .tile n)
        then t.tile n = ⟨.lost, false, 0, false⟩ ∧ ∀ i, i < tileBytes → Mem.get t.mem (n * tileBytes + i) = Mem.blank
        else t.tile n = s.tile n ∧ (n < 2 ^ 29 → ∀ i, i < tileBytes → Mem.get t.mem (n * tileBytes + i) = Mem.get s.mem (n * tileBytes + i))) ∧
  (∀ (s : State) (k : Nat), k < 12 → s.ms.fenced.contains k = true →
    ∃ t, exec (.immediate k) s = .next t ∧ OnlyRegs s t [R.GEN_WR_CNT (0xD8 + k)]) ∧
  (∀ (s : State) (m : Nat), m < 6 → s.ms.fenced = [] → s.ms.moves = [] → s.ms.asks = [] → s.turn = none →
    (∀ p, (State.portOfStack (2 * m) = some p ∨ State.portOfStack (2 * m + 1) = some p) →
      s.portState p ≠ 4 ∧ s.portState p ≠ 5 ∧ s.portState p ≠ 7) →
    ∃ t, exec (.mpdFault m) s = .next t ∧ t.ms.fenced = [2 * m + 1, 2 * m] ∧ t.rdB (R.ERR_INFO (0xD0 + m)) 31 = true ∧
      ∀ n, if s.ms.frames.any (fun p => State.stackOf p.1 / 2 == m && p.2.use == .tile n)
        then t.tile n = ⟨.lost, false, 0, false⟩ else t.tile n = s.tile n) ∧
  (∀ (s : State) (n : Nat), (s.tile n).st = .flash → (s.tile n).evac = true →
    ((State.rgnTier (s.rgn (n / 65536)) = 1 ∧ 0 < s.dFree (s.tileOwner n)) ∨
     (State.rgnTier (s.rgn (n / 65536)) = 0 ∧ 256 < s.dFree (s.tileOwner n))) → s.ms.asks = [] → Map.get? s.ms.moves n = none →
    exec (.evacTilePromote n) s = .next { s with ms := { s.ms with asks := [⟨n, .promote, .place, false⟩] } }) ∧
  (∀ (s : State) (lt n spare : Nat) (erased : Bool), Map.get? s.ms.ftiles lt = some n →
    ∃ t, exec (.ftlRefresh lt erased spare) s = .next t ∧ t.mem = s.mem ∧ t.ms.tiles = s.ms.tiles ∧ t.ms.ftiles = s.ms.ftiles ∧
      t.rd R.FTL_REFRESH_CNT = satAdd32 (s.rd R.FTL_REFRESH_CNT) 1 ∧ t.rd64 R.FTL_NAND_WR_LO = (s.rd64 R.FTL_NAND_WR_LO + 1) % 2 ^ 64 ∧
      t.rd R.FTL_RETIRED = (if erased then s.rd R.FTL_RETIRED else satAdd32 (s.rd R.FTL_RETIRED) 1)) ∧
  (∀ (s : State) (c : Nat), c < 16 →
    ∃ t, exec (.nandDieFail c) s = .next t ∧ t = { s with regs := t.regs, freeCtr := t.freeCtr, pwr := t.pwr } ∧
      t.rdB (R.ERR_INFO 0x0B) 31 = true) ∧
  (∀ (s : State) (c : Nat), c < 16 → s.ms.chanFail = [] → s.ms.moves = [] → s.ms.ftiles = [] →
    ∃ t, exec (.flashChannelFail c) s = .next t ∧ t.mem = s.mem ∧ t.ms.chanFail = [c] ∧ t.ms.tiles = s.ms.tiles ∧
      t.rd R.FTL_CAP = s.rd R.FTL_CAP - 16777216 ∧ t.rdB R.FTL_STAT (16 + c) = true ∧ t.rdB (R.INT_STAT 0x0B) 2 = true)

/-- Enabling a hall port that is OFF stores HPT_CTL, starts the port afresh but for its lanes' error counters, with the lane maps at the
identity and scramblers at free values, and takes it to DETECT; a reach port does so only where its 2,048 replay frames can be had, and
otherwise stays OFF with EN clear and its error bit set. A write to an enabled port is an ordinary one, and where HALF of a live hall port
changes its width an LSW goes out (which lanes: log entry 73). SIGNAL_DETECT, TRAIN_CONVERGED, TRAIN_TIMEOUT, ALIGN_DONE and ALIGN_TIMEOUT
each take a port from the STATE the rule names to the next: TRAIN, ALIGN, back to DETECT (DOWN at the third cold failure), HELD, back to
TRAIN; a training unlocks the lanes, a cold one forgets failures, and ENC and the dedicated buffer parts are taken as it converges. RETRAIN from
HELD, ACTIVE or LPI (from HELD and LPI: log entry 20), and FULL_TRAIN, empty the link layer and take the port to RETRAIN or to a cold TRAIN;
elsewhere RETRAIN only counts as a write. LPI and WAKE move between ACTIVE and LPI, with their block. Disabling takes any port to OFF. -/
def Obligations.PortStates : Prop :=
  (∀ (s : State) (p : Nat) (v : Word32), p < 36 → bit v 31 = true → s.portState p ≠ 0 →
    (32 ≤ p ∨ s.portLive p = false ∨ bit v 28 = (s.port p).txHalf) →
    ∃ t, exec (.portEnable p v) s = .next t ∧ RegWritten s t (preg p 0x100) v) ∧
  (∀ (s : State) (p : Nat) (v : Word32), p < 32 → bit v 31 = true → s.portLive p = true → bit v 28 = true → (s.port p).txHalf = false →
    ∃ t, exec (.portEnable p v) s = .next t ∧ PortOnly s t p ∧ (t.port p).txHalf = true ∧ t.rd (preg p 0x10C) = s.rd (preg p 0x10C) &&& 0xFFFF ∧
      t.rdB (preg p 0x104) 25 = true ∧ t.rdB (R.INT_STAT (portPage p)) 3 = true ∧ t.portState p = s.portState p) ∧
  (∀ (s : State) (p : Nat) (v : Word32), p < 32 → bit v 31 = true → s.portLive p = true → bit v 28 = false → (s.port p).txHalf = true →
    8 ≤ (s.healthy p).length →
    ∃ t, exec (.portEnable p v) s = .next t ∧ PortOnly s t p ∧ (t.port p).txHalf = false ∧ (t.port p).named = [] ∧
      t.rd (preg p 0x10C) = State.lanesMap ((s.healthy p).take 8) ∧ t.portState p = s.portState p) ∧
  (∀ (s : State) (p : Nat) (v : Word32), p < 32 → bit v 31 = true → s.portState p = 0 →
    ∃ t, exec (.portEnable p v) s = .next t ∧ t = { s with regs := t.regs, ports := t.ports, freeCtr := s.freeCtr + 9 } ∧ t.portState p = 1 ∧
      t.port p = { Port.none with autoAt := s.ft, lanes := (t.port p).lanes } ∧ (∀ q, q ≠ p → t.port q = s.port q) ∧
      (∀ l, l < 9 → t.lane p l = { Lane.none with corr := (s.lane p l).corr, uncorr := (s.lane p l).uncorr, scr := (t.lane p l).scr }) ∧
      t.rd (preg p 0x100) = (writeFields (fieldsAt (preg p 0x100)) (s.rd (preg p 0x100)) v).1 ∧
      t.rd (preg p 0x10C) = 0x76543210 ∧ t.rd (preg p 0x110) = 0x76543210 ∧ t.rd (preg p 0x114) = 0xF0000000 ∧
      RegsKept s t [preg p 0x100, preg p 0x104, preg p 0x10C, preg p 0x110, preg p 0x114, R.GEN_WR_CNT (portPage p), R.GEN_IGN_CNT (portPage p)]) ∧
  (∀ (s : State) (p : Nat) (v : Word32), 32 ≤ p → p < 36 → bit v 31 = true → s.portState p = 0 →
    (s.framesUnres < 2048 ∨ ∃ k ∈ State.reachStacks p, s.stackFree k < 1024) →
    ∃ t, exec (.portEnable p v) s = .next t ∧ t = { s with regs := t.regs } ∧ t.portState p = 0 ∧ t.rdB (preg p 0x16C) 3 = true ∧
      t.rd (preg p 0x100) = (writeFields (fieldsAt (preg p 0x100)) (s.rd (preg p 0x100)) (v &&& 0x7FFFFFFF#32)).1 ∧
      RegsKept s t [preg p 0x100, preg p 0x16C, R.GEN_WR_CNT (portPage p), R.GEN_IGN_CNT (portPage p)]) ∧
  (∀ (s : State) (p : Nat) (v : Word32), 32 ≤ p → p < 36 → bit v 31 = true → s.portState p = 0 → 2048 ≤ s.framesUnres →
    (∀ k ∈ State.reachStacks p, 1024 ≤ s.stackFree k) →
    ∃ t, exec (.portEnable p v) s = .next t ∧
      t = { s with regs := t.regs, ports := t.ports, ms := { s.ms with frames := t.ms.frames }, freeCtr := s.freeCtr + 4 } ∧ t.portState p = 1 ∧
      t.rd (preg p 0x20C) = 2048 ∧ t.port p = { Port.none with autoAt := s.ft, lanes := (t.port p).lanes } ∧
      (∀ l, l < 4 → t.lane p l = { Lane.none with corr := (s.lane p l).corr, uncorr := (s.lane p l).uncorr, scr := (t.lane p l).scr }) ∧
      ∀ q, q ≠ p → t.port q = s.port q) ∧
  (∀ (s : State) (p : Nat) (v : Word32), p < 36 → bit v 31 = false →
    ∃ t, exec (.portDisable p v) s = .next t ∧ t.portState p = 0 ∧ (t.port p).held = [] ∧ (t.port p).linkQ = [] ∧ (t.port p).rxPart = [] ∧
      (t.port p).tx = PortKey.none ∧ (t.port p).rx = PortKey.none ∧ (t.port p).hello = none ∧ t.rdB (preg p 0x104) 26 = false ∧
      (32 ≤ p → t.rd (preg p 0x20C) = 0 ∧ ∀ e ∈ t.ms.frames, e.2.use ≠ .replay (p - 32))) ∧
  (∀ (s : State) (p : Nat), p < 36 → s.portState p = 1 → (p < 32 ∨ s.rdB (preg p 0x200) 30 = true) →
    ∃ t, exec (.signalDetect p) s = .next t ∧ t = { s with regs := t.regs, ports := t.ports } ∧ t.portState p = 2 ∧
      t.port p = { s.port p with lanes := (t.port p).lanes } ∧ (∀ q, q ≠ p → t.port q = s.port q) ∧
      (∀ l, t.lane p l = { s.lane p l with lock := .hunt, failed := false, lost := false, recal := 0 }) ∧
      RegsKept s t [preg p 0x104, preg p 0x114]) ∧
  (∀ (s : State) (p : Nat), 32 ≤ p → p < 36 → s.portState p = 1 → s.rdB (preg p 0x200) 30 = false →
    ∃ t, exec (.signalDetect p) s = .next t ∧ OnlyRegs s t [preg p 0x16C] ∧ t.rd (preg p 0x16C) = s.rd (preg p 0x16C) ||| 16) ∧
  (∀ (s : State) (p : Nat), p < 36 → (s.portState p = 2 ∨ s.portState p = 6) →
    ∃ t, exec (.trainConverged p) s = .next t ∧ t = { s with regs := t.regs, ports := t.ports } ∧ t.portState p = 3 ∧
      t.port p = { s.port p with cold := 0, stored := true, encOn := s.rdB (preg p 0x100) 30, ded := (List.range 8).map (s.dedReg p) } ∧
      (∀ q, q ≠ p → t.port q = s.port q) ∧ RegsKept s t [preg p 0x104]) ∧
  (∀ (s : State) (p : Nat), p < 36 → s.portState p = 6 →
    ∃ t, exec (.trainTimeout p) s = .next t ∧ t = { s with regs := t.regs, ports := t.ports } ∧ t.portState p = 2 ∧
      t.port p = { s.port p with stored := false, lanes := (t.port p).lanes } ∧
      (∀ l, t.lane p l = { s.lane p l with lock := .hunt, failed := false, lost := false, recal := 0 }) ∧
      RegsKept s t [preg p 0x104, preg p 0x114]) ∧
  (∀ (s : State) (p : Nat), p < 36 → s.portState p = 2 →
    ∃ t, exec (.trainTimeout p) s = .next t ∧ PortOnly s t p ∧ t.port p = { s.port p with cold := (s.port p).cold + 1 } ∧
      ((s.port p).cold < 2 → t.portState p = 1 ∧ RegsKept s t [preg p 0x104]) ∧
      (2 ≤ (s.port p).cold → t.portState p = 9 ∧ t.rdB (R.INT_STAT (portPage p)) 0 = true)) ∧
  (∀ (s : State) (p : Nat), p < 36 → s.portState p = 3 →
    let lk := (List.range (laneCount p)).filter (s.laneLocked p)
    let need := if isHall p && !s.rdB (preg p 0x100) 28 then 8 else 4
    (lk.length < need → exec (.alignDone p) s = .next s) ∧
    (need ≤ lk.length → ∃ t, exec (.alignDone p) s = .next t ∧ t.portState p = 4 ∧ (t.port p).txHalf = (isHall p && s.rdB (preg p 0x100) 28) ∧
      (t.port p).rxHalf = (isHall p && !lk.any (fun l => decide (4 ≤ (s.lane p l).stripe) && decide ((s.lane p l).stripe < 8))) ∧
      (t.port p).held = [] ∧ (t.port p).rxExp = 0 ∧ (t.port p).txLseq = 0 ∧ (t.port p).helloSent = false ∧ (t.port p).hello = none ∧
      (t.port p).encOn = (s.port p).encOn ∧
      ((s.port p).encOn = true → s.kfOn = false → t.rdB R.SEM_ERR 2 = true ∧ t.rdB (R.INT_STAT 4) 5 = true))) ∧
  (∀ (s : State) (p : Nat), p < 36 → s.portState p = 3 →
    ∃ t, exec (.alignTimeout p) s = .next t ∧ OnlyRegs s t [preg p 0x104] ∧ t.portState p = 2) ∧
  (∀ (s : State) (p : Nat), p < 36 → (s.portState p = 4 ∨ s.portState p = 5 ∨ s.portState p = 7) →
    ∃ t, exec (.retrain p) s = .next t ∧ t.portState p = 6 ∧ t.rd (preg p 0x134) = satAdd32 (s.rd (preg p 0x134)) 1 ∧
      t.rdB (preg p 0x104) 26 = false ∧
      (t.port p).held = [] ∧ (t.port p).rxPart = [] ∧ (t.port p).linkQ = [] ∧ (t.port p).tx = PortKey.none ∧ (t.port p).rx = PortKey.none ∧
      (t.port p).rxExp = 0 ∧ (t.port p).txLseq = 0 ∧ ∀ l, t.lane p l = { s.lane p l with lock := .hunt, lost := false, recal := 0 }) ∧
  (∀ (s : State) (p : Nat), p < 36 → s.portState p ≠ 4 → s.portState p ≠ 5 → s.portState p ≠ 7 →
    ∃ t, exec (.retrain p) s = .next t ∧ OnlyRegs s t [R.GEN_WR_CNT (portPage p)]) ∧
  (∀ (s : State) (p : Nat), p < 36 → 4 ≤ s.portState p → s.portState p ≤ 9 → s.portState p ≠ 8 →
    ∃ t, exec (.fullTrain p) s = .next t ∧ t.portState p = 2 ∧ (t.port p).held = [] ∧ (t.port p).cold = 0 ∧ (t.port p).stored = false ∧
      (t.port p).tx = PortKey.none ∧ (t.port p).rx = PortKey.none ∧
      ∀ l, t.lane p l = { s.lane p l with lock := .hunt, failed := false, lost := false, recal := 0 }) ∧
  (∀ (s : State) (p : Nat), p < 36 → s.portState p = 5 → s.rdF R.PWR_STAT 31 29 = 2 → (s.port p).txQ = [] → (s.port p).linkQ = [] →
    (s.port p).half = [] → (s.port p).held.any (·.wait) = false → s.markerSlot p = false →
    ∃ t l, exec (.lpi p) s = .next t ∧ PortOnly s t p ∧ t.outbox = s.outbox ++ .block p 99 (padTo 32 [0x3C]) :: l ∧
      t.port p = { s.port p with lanes := (t.port p).lanes, slot := (s.port p).slot + 1 } ∧
      t.portState p = 7 ∧ t.rdB (R.INT_STAT (portPage p)) 0 = true) ∧
  (∀ (s : State) (p : Nat), p < 36 → s.portState p = 7 → ((s.port p).txQ ≠ [] ∨ (s.port p).linkQ ≠ []) → 4 ≤ (s.healthy p).length →
    s.markerSlot p = false →
    ∃ t l, exec (.wake p) s = .next t ∧ PortOnly s t p ∧ t.outbox = s.outbox ++ .block p 99 (padTo 32 [0x99]) :: l ∧
      t.port p = { s.port p with lanes := (t.port p).lanes, slot := (s.port p).slot + 1 } ∧
      t.portState p = 5 ∧ t.rdB (R.INT_STAT (portPage p)) 1 = true)

/-- AM_TRANSMIT at a marker's slot puts one marker on every lane of the port, unscrambled, in the codeword being filled, and advances
MCOUNT. AM_RECEIVED moves that lane's lock alone, by the table of HUNT, CONFIRM and LOCKED: the 201 fixed bits, a clean syndrome (in LOCKED a
corrected codeword) and the MCOUNT expected (which rises where a marker is missed too: log entry 75) make a good marker; a good one that locks
or keeps a lane teaches its stripe lane and the far lane, and one over 100 ns late fails the lane. A window counts its codewords' symbol errors
and uncorrectable codewords; four or more of these on a locked lane fail it: fewer than four healthy lanes retrain an ACTIVE port, and a lane
of a hall stripe is named to the far end; a good window restores a failed or checked lane. A lane switch takes the map, translated to this
end's lanes, the width and the interrupt. RECAL starts a lane's recalibration or sets CMD_ERR; RECAL_AUTO takes the next lane in turn once
PERIOD has passed; RECAL_ADAPT_DONE begins the check. A RECAL_REQ moves the lane named off a hall port's stripe, onto a lane that is not
named, or to half width (log entry 69). -/
def Obligations.LaneCommands : Prop :=
  (∀ (s : State) (p : Nat), p < 36 → s.portSends p = true → s.markerSlot p = true →
    let am (l : Nat) : List Byte := amBlock ((laneStripe (s.rd (preg p 0x10C)) (s.txLanes p) l).getD 15) l (s.port p).mcount
    ∃ t, exec (.amTransmit p) s = .next t ∧ PortOnly s t p ∧ t.regs = s.regs ∧
      t.port p = { s.port p with lanes := (t.port p).lanes, slot := (s.port p).slot + 1, mcount := ((s.port p).mcount + 1) % 65536 } ∧
      (∃ l, t.outbox = s.outbox ++ (List.range (laneCount p)).map (fun l => .block p l (am l)) ++ l) ∧
      ∀ l, l < laneCount p → (s.lane p l).cw.length < 19 →
        t.lane p l = { s.lane p l with cw := (s.lane p l).cw ++ [blockBits true (am l)] }) ∧
  (∀ (s : State) (p : Nat), (s.portSends p = false ∨ s.markerSlot p = false) → exec (.amTransmit p) s = .next s) ∧
  (∀ (s : State) (p l skew raw : Nat), p < 36 → l < laneCount p → (s.lane p l).lock = .hunt →
    (s.mayHunt p l = false ∨ amMatch raw = false ∨ rsLeft raw ≠ 0) → exec (.amReceived p l skew raw) s = .next s) ∧
  (∀ (s : State) (p l skew raw : Nat) (a b : LaneLock), p < 36 → l < laneCount p → (s.lane p l).lock = a →
    ((a = .hunt ∧ s.mayHunt p l = true ∧ amMatch raw = true ∧ rsLeft raw = 0 ∧ b = .confirm 1 ((amCount raw + 1) % 65536)) ∨
     (∃ n m, n < 3 ∧ a = .confirm n m ∧ amMatch raw = true ∧ rsLeft raw = 0 ∧ amCount raw = m ∧ b = .confirm (n + 1) ((m + 1) % 65536)) ∨
     (∃ n m, a = .confirm n m ∧ (amMatch raw = false ∨ rsLeft raw ≠ 0 ∨ amCount raw ≠ m) ∧ b = .hunt) ∨
     (∃ n m, n < 2 ∧ a = .locked n m ∧ (∀ r, rsDecode raw = some r → amMatch r.1 = false ∨ amCount r.1 ≠ m) ∧
       b = .locked (n + 1) ((m + 1) % 65536))) →
    ∃ t, exec (.amReceived p l skew raw) s = .next t ∧ PortOnly s t p ∧
      t.port p = { s.port p with lanes := (t.port p).lanes } ∧ t.lane p l = { s.lane p l with lock := b } ∧
      (∀ k, k ≠ l → t.lane p k = s.lane p k) ∧ RegsKept s t [preg p 0x104, preg p 0x114]) ∧
  (∀ (s : State) (p l skew raw c m : Nat), p < 36 → l < laneCount p →
    ((∃ n, 3 ≤ n ∧ (s.lane p l).lock = .confirm n m ∧ amMatch raw = true ∧ rsLeft raw = 0 ∧ c = raw) ∨
     (∃ n e, (s.lane p l).lock = .locked n m ∧ rsDecode raw = some (c, e) ∧ amMatch c = true)) → amCount c = m →
    ∃ t, exec (.amReceived p l skew raw) s = .next t ∧ (100 < skew → (t.lane p l).failed = true) ∧
      (skew ≤ 100 → PortOnly s t p ∧ t.port p = { s.port p with lanes := (t.port p).lanes } ∧
        t.lane p l = { s.lane p l with lock := .locked 0 ((m + 1) % 65536), lost := false, stripe := cwByte c 25 % 16, far := cwByte c 26 } ∧
        (∀ k, k ≠ l → t.lane p k = s.lane p k) ∧ RegsKept s t [preg p 0x104, preg p 0x110, preg p 0x114] ∧
        (cwByte c 25 % 16 < (if isHall p then 8 else 4) → mapLane (t.rd (preg p 0x110)) (cwByte c 25 % 16) = l))) ∧
  (∀ (s : State) (p l skew raw n m : Nat), p < 36 → l < laneCount p → (s.lane p l).lock = .locked n m → 2 ≤ n →
    (∀ r, rsDecode raw = some r → amMatch r.1 = false ∨ amCount r.1 ≠ m) →
    ∃ t, exec (.amReceived p l skew raw) s = .next t ∧ (t.lane p l).lock = .hunt ∧ (t.lane p l).failed = true ∧ (t.lane p l).recal = 0) ∧
  (∀ (s : State) (p l errs : Nat) (corr : Nat) (bad : List Nat) (v : Lane), p < 36 → l < laneCount p →
    errs = ((bad.map rsDecode).filter (·.isNone)).length → corr = ((bad.map rsDecode).map (fun d => match d with | some r => r.2 | none => 0)).sum →
    v = { s.lane p l with corr := satAdd32 (s.lane p l).corr corr, uncorr := satAdd32 (s.lane p l).uncorr errs } →
    ∃ t, exec (.laneErrorWindow p l bad) s = .next t ∧ t.rd (preg p 0x13C) = satAdd32 (s.rd (preg p 0x13C)) errs ∧
      t.rd (preg p 0x140) = satAdd32 (s.rd (preg p 0x140)) corr ∧
      ((s.laneLocked p l = false ∨ v.recal = 1 ∨ v.recal = 2 ∨ (v.failed = true ∧ 4 ≤ errs) ∨ (v.failed = false ∧ v.recal ≠ 3 ∧ errs < 4)) →
        PortOnly s t p ∧ t.port p = { s.port p with lanes := (t.port p).lanes } ∧ t.lane p l = v ∧ (∀ k, k ≠ l → t.lane p k = s.lane p k) ∧
        RegsKept s t [preg p 0x13C, preg p 0x140, preg p 0x104, preg p 0x114]) ∧
      (s.laneLocked p l = true → v.recal ≠ 1 → v.recal ≠ 2 → errs < 4 → (v.failed = true ∨ v.recal = 3) → PortOnly s t p ∧
        (t.lane p l).failed = false ∧ (t.lane p l).recal = 0 ∧ (t.lane p l).lock = v.lock ∧ (t.lane p l).corr = v.corr ∧
        (t.lane p l).uncorr = v.uncorr) ∧
      (s.laneLocked p l = true → v.recal ≠ 1 → v.recal ≠ 2 → 4 ≤ errs → v.failed = false →
        (t.lane p l).failed = true ∧ (t.lane p l).recal = 0 ∧
        (s.portState p = 5 → ((s.healthy p).filter (· != l)).length < 4 → t.portState p = 6) ∧
        (s.portState p = 5 → 4 ≤ ((s.healthy p).filter (· != l)).length → isHall p = true → s.inStripe p l = true →
          (∃ q, (t.port p).linkQ = (s.port p).linkQ ++ q ++ [padTo 240 [3, BitVec.ofNat 8 l]]) ∧ t.portState p = 5))) ∧
  (∀ (s : State) (p : Nat) (x : List LaneBlock) (b : List Byte) (w : Nat) (m : Word32), p < 36 → s.portLive p = true →
    slotKind (s.rd (preg p 0x110)) (s.rxLanes p) x = .control b → b.getD 0 0 = 0x5A → w = (if b.getD 5 0 = 8 then 8 else 4) →
    m = BitVec.ofNat 32 (leNat ((b.drop 1).take 4)) →
    ∃ t, exec (.lsw p x) s = .next t ∧ PortOnly s t p ∧ t.portState p = s.portState p ∧
      t.rd (preg p 0x110) = State.lanesMap ((List.range w).map (fun k =>
        ((List.range (laneCount p)).find? (fun l => (s.lane p l).far == mapLane m k)).getD (mapLane m k))) ∧
      (t.port p).rxHalf = (isHall p && w == 4) ∧ t.rdB (preg p 0x104) 25 = (isHall p && ((s.port p).txHalf || w == 4)) ∧
      (w = 4 ∧ isHall p = true → t.rdB (R.INT_STAT (portPage p)) 3 = true) ∧
      (¬(w = 4 ∧ isHall p = true) → s.rxLanes p = w → t.rdB (R.INT_STAT (portPage p)) 2 = true) ∧
      ∀ l, l < laneCount p → t.lane p l = if (s.lane p l).recal = 1 ∧ t.inStripe p l = false then { s.lane p l with recal := 2 } else s.lane p l) ∧
  (∀ (s : State) (p : Nat) (x : List LaneBlock), s.portLive p = false → exec (.lsw p x) s = .next s) ∧
  (∀ (s : State) (p : Nat), p < 36 →
    let l := s.rdF (preg p 0x118) 3 0
    (s.recalOk p l = true → ∃ t, exec (.recal p) s = .next t ∧ PortOnly s t p ∧
      t.lane p l = { s.lane p l with recal := 1 } ∧ (∀ k, k ≠ l → t.lane p k = s.lane p k) ∧
      t.port p = { s.port p with lanes := (t.port p).lanes, linkQ := (s.port p).linkQ ++ [padTo 240 [3, BitVec.ofNat 8 l]] } ∧
      RegsKept s t [preg p 0x104, preg p 0x114, R.GEN_WR_CNT (portPage p)]) ∧
    (s.recalOk p l = false → ∃ t, exec (.recal p) s = .next t ∧ t = { s with regs := t.regs, outbox := t.outbox, msix := t.msix } ∧
      t.rdB (preg p 0x16C) 0 = true ∧ t.rdB (R.INT_STAT (portPage p)) 6 = true)) ∧
  (∀ (s : State) (p l : Nat), p < 32 → s.rdB (preg p 0x118) 31 = true → l = (s.port p).autoLane →
    (s.port p).autoAt.toNat + s.rdF (preg p 0x118) 30 16 * 4000000000 ≤ s.ft.toNat →
    ∃ t, exec (.recalAuto p) s = .next t ∧ t = { s with regs := t.regs, ports := t.ports } ∧ (∀ q, q ≠ p → t.port q = s.port q) ∧
      (t.port p).autoLane = (l + 1) % 9 ∧ (t.port p).autoAt = s.ft ∧
      (s.recalOk p l = true → t.lane p l = { s.lane p l with recal := 1 } ∧
        (t.port p).linkQ = (s.port p).linkQ ++ [padTo 240 [3, BitVec.ofNat 8 l]]) ∧
      (s.recalOk p l = false → t.regs = s.regs ∧ t.port p = { s.port p with autoLane := (l + 1) % 9, autoAt := s.ft })) ∧
  (∀ (s : State) (p : Nat), (s.rdB (preg p 0x118) 31 = false ∨
      s.ft.toNat < (s.port p).autoAt.toNat + s.rdF (preg p 0x118) 30 16 * 4000000000) → exec (.recalAuto p) s = .next s) ∧
  (∀ (s : State) (p l : Nat), p < 32 → (s.lane p l).recal = 2 →
    ∃ t, exec (.recalAdaptDone p l) s = .next t ∧ PortOnly s t p ∧ t.port p = { s.port p with lanes := (t.port p).lanes } ∧
      t.lane p l = { s.lane p l with recal := 3 } ∧ ∀ k, k ≠ l → t.lane p k = s.lane p k) ∧
  (∀ (s u : State) (p l : Nat) (b : List Byte) (x : List LaneBlock), s.linkIn p 3 false x = (some b, u) → l = (b.getD 1 0).toNat →
    let m := u.rd (preg p 0x10C)
    let n := u.txLanes p
    (isHall p = false → exec (.recalReq p x) s = .next { u with pending := s.pending }) ∧
    (isHall p = true → laneStripe m n l = none → ∃ t, exec (.recalReq p x) s = .next t ∧ t = { u with ports := t.ports, pending := s.pending } ∧
      t.port p = { u.port p with named := (t.port p).named } ∧ l ∈ (t.port p).named) ∧
    (∀ k y, isHall p = true → laneStripe m n l = some k →
      (List.range 9).find? (fun y => (laneStripe m n y).isNone && !(u.port p).named.contains y) = some y → u.markerSlot p = false →
      ∃ t q, exec (.recalReq p x) s = .next t ∧ t.rd (preg p 0x10C) = setFld m (4 * k + 3) (4 * k) y ∧
        t.rdB (R.INT_STAT (portPage p)) 2 = true ∧ (t.port p).lsw = ((u.port p).lsw + 1) % 256 ∧ (t.port p).named = (u.port p).named ∧
        t.outbox = u.outbox ++ .block p 99 (padTo 32 ([0x5A] ++ leBytes 4 (setFld m (4 * k + 3) (4 * k) y).toNat ++ leBytes 1 n ++
          leBytes 1 (u.port p).lsw)) :: q) ∧
    (∀ k ls, isHall p = true → laneStripe m n l = some k →
      (List.range 9).find? (fun y => (laneStripe m n y).isNone && !(u.port p).named.contains y) = none →
      ls = (((List.range n).map (mapLane m)).filter (fun y => y != l && !(u.port p).named.contains y)).take 4 → ls.length = 4 →
      ∃ t, exec (.recalReq p x) s = .next t ∧ t.rd (preg p 0x10C) = State.lanesMap ls ∧ (t.port p).txHalf = true ∧ l ∈ (t.port p).named ∧
        t.rdB (R.INT_STAT (portPage p)) 3 = true))

/-- A flit outside HELD, ACTIVE and LPI is ignored; a slot that loses its flit and a TYPE that does not exist are counted, one whose CRC
does not match is counted and NAKed once, and a control slot carries none. Of the unencrypted flits on a port in clear, one with the LSEQ expected
is accepted, its ACK freeing the flits it covers and its CRED returning credits, and the next is expected; one behind is discarded; one
ahead is NAKed. A flit whose tag is bad is NAKed and counted, and the sixteenth within a second takes the port DOWN. An accepted DATA flit
without a credit is dropped and counted; with one it begins a message at the router or joins the one under way, at the router or already past it;
one that belongs to no message is dropped and counted (log entry 70). NAK sends again what is held from the LSEQ it names. HELLO records
the neighbour, checks wiring and ENC, and a port in HELD with all that R209 asks goes ACTIVE, or installs its key and says so. CREDIT_INIT,
KEY_READY, RTT_PING and RTT_ECHO do what their rows say. -/
def Obligations.FlitsReceived : Prop :=
  (∀ (s : State) (p : Nat) (x : List LaneBlock), ∀ c ∈ FlitCmds p x,
    ((36 ≤ p ∨ (s.portState p ≠ 4 ∧ s.portState p ≠ 5 ∧ s.portState p ≠ 7)) → exec c s = .next s) ∧
    (p < 36 → (s.portState p = 4 ∨ s.portState p = 5 ∨ s.portState p = 7) →
      (∀ b, slotKind (s.rd (preg p 0x110)) (s.rxLanes p) x = .control b → exec c s = .next s) ∧
      (slotKind (s.rd (preg p 0x110)) (s.rxLanes p) x = .lost →
        ∃ t, exec c s = .next t ∧ OnlyRegs s t [preg p 0x138] ∧ t.rd (preg p 0x138) = satAdd32 (s.rd (preg p 0x138)) 1) ∧
      (∀ f, slotKind (s.rd (preg p 0x110)) (s.rxLanes p) x = .flit f → f.crc = flitCrc f → 3 < f.type.toNat →
        ∃ t, exec c s = .next t ∧ OnlyRegs s t [preg p 0x138] ∧ t.rd (preg p 0x138) = satAdd32 (s.rd (preg p 0x138)) 1) ∧
      (∀ f, slotKind (s.rd (preg p 0x110)) (s.rxLanes p) x = .flit f → f.crc ≠ flitCrc f →
        ∃ t, exec c s = .next t ∧ t = { s with regs := t.regs, ports := t.ports } ∧ RegsKept s t [preg p 0x138] ∧
          t.rd (preg p 0x138) = satAdd32 (s.rd (preg p 0x138)) 1 ∧ (∀ q, q ≠ p → t.port q = s.port q) ∧
          t.port p = (if (s.port p).nakSent then s.port p else { s.port p with nakSent := true, nakDue := true })))) ∧
  (∀ (s : State) (p : Nat) (f : Flit) (clear : Bool) (x : List LaneBlock), FlitCame s p x f →
    let held := (s.port p).held.filter (fun h => !seqAfter f.ack.toNat h.lseq)
    let back := ((s.port p).rxExp + 2 ^ 24 - f.lseq.toNat) % 2 ^ 24
    let v := fld f.cred 15 13
    let r := s.receive p f.type.toNat true clear x
    r.2 = { s with ports := r.2.ports } ∧ (∀ q, q ≠ p → r.2.port q = s.port q) ∧ (r.2.port p).held = held ∧
    Map.get (r.2.port p).outV 0 v = Map.get (s.port p).outV 0 v - fld f.cred 12 0 ∧
    (f.lseq.toNat = (s.port p).rxExp → r.1 = some (f, f.payload) ∧
      (r.2.port p).rxExp = ((s.port p).rxExp + 1) % 2 ^ 24 ∧ (r.2.port p).nakDue = false ∧ (r.2.port p).nakSent = false ∧
      (f.type = 3 → ∀ code, s.linkIn p code clear x = if f.payload.getD 0 0 = code then (some f.payload, r.2) else (none, s))) ∧
    (f.lseq.toNat ≠ (s.port p).rxExp → back ≤ 2 ^ 23 → r.1 = none ∧
      (r.2.port p).rxExp = (s.port p).rxExp ∧ (r.2.port p).nakSent = (s.port p).nakSent) ∧
    (f.lseq.toNat ≠ (s.port p).rxExp → 2 ^ 23 < back → r.1 = none ∧
      (r.2.port p).rxExp = (s.port p).rxExp ∧ (r.2.port p).nakSent = true)) ∧
  (∀ (s : State) (p : Nat) (f : Flit) (x : List LaneBlock), FlitCame s p x f → f.type = 0 →
    ∃ t, exec (.idle p x) s = .next t ∧ t = { s with ports := t.ports } ∧ (∀ q, q ≠ p → t.port q = s.port q) ∧
      (t.port p).held = (s.port p).held.filter (fun h => !seqAfter f.ack.toNat h.lseq) ∧ (t.port p).rxExp = (s.port p).rxExp ∧
      Map.get (t.port p).outV 0 (fld f.cred 15 13) = Map.get (s.port p).outV 0 (fld f.cred 15 13) - fld f.cred 12 0) ∧
  (∀ (s : State) (p : Nat) (f : Flit) (x : List LaneBlock), p < 36 → (s.portState p = 5 ∨ s.portState p = 7) →
    slotKind (s.rd (preg p 0x110)) (s.rxLanes p) x = .flit f → f.crc = flitCrc f → f.type = 1 →
    ((bit f.flg 5 = true ∧ (s.port p).rx.on = false) ∨ (bit f.flg 5 = false ∧ (s.port p).encOn = true)) →
    ∃ t, exec (.data p x) s = .next t ∧ t.rd (preg p 0x144) = satAdd32 (s.rd (preg p 0x144)) 1 ∧ (t.port p).nakSent = true ∧
      let l := ((s.port p).tagFails ++ [s.ft]).filter (fun t => decide (s.ft.toNat < t.toNat + 4000000000))
      (l.length < 16 → t = { s with regs := t.regs, ports := t.ports } ∧ RegsKept s t [preg p 0x144] ∧ (t.port p).tagFails = l) ∧
      (16 ≤ l.length → t.portState p = 9 ∧ (t.port p).tagFails = [] ∧ t.rdB (R.INT_STAT (portPage p)) 5 = true ∧
        t.rdB (R.INT_STAT 4) 6 = true)) ∧
  (∀ (s u : State) (p : Nat) (f : Flit) (b : List Byte) (x : List LaneBlock), s.receive p 1 true false x = (some (f, b), u) →
    let v := fld f.flg 2 0
    let part := b.take f.len.toNat
    let last := bit f.flg 4
    let abt := bit f.flg 4 && bit f.flg 6
    let here (r : RMsg) : Bool := r.more && r.inPort == p && r.m.vc == v
    (u.creditFor p v = false → ∃ t, exec (.data p x) s = .next t ∧ OnlyRegs { u with pending := s.pending } t [preg p 0x168] ∧
      t.rd (preg p 0x168) = satAdd32 (u.rd (preg p 0x168)) 1) ∧
    (u.creditFor p v = true → ∃ t, exec (.data p x) s = .next t ∧
      t = { u with regs := t.regs, ports := t.ports, router := t.router, pending := s.pending } ∧
      RegsKept u t [preg p 0x160, preg p 0x164, preg p 0x168] ∧ t.rd64 (preg p 0x160) = (u.rd64 (preg p 0x160) + 1) % 2 ^ 64 ∧
      (bit f.flg 3 = true → Map.get? (u.port p).rxPart v = none → 16 ≤ part.length →
        t.router = Map.set u.router (Map.nextKey u.router) ⟨⟨leNat (part.take 2), leNat ((part.drop 2).take 2), leNat ((part.drop 6).take 1),
          leNat ((part.drop 7).take 1), v, f.own.toNat, part.drop 8, abt, []⟩, p, u.ft, !last, leNat ((part.drop 4).take 2) + 1, 1⟩ ∧
        t.port p = { u.port p with rxPart := (t.port p).rxPart } ∧ Map.get? (t.port p).rxPart v = (if last then none else some 1)) ∧
      ((bit f.flg 3 = true → part.length < 16) → Map.get? (u.port p).rxPart v = none →
        t.router = u.router ∧ t.rd (preg p 0x168) = satAdd32 (u.rd (preg p 0x168)) 1 ∧
        ((u.port p).leaving = 0 → Map.get (t.port p).owed 0 v = Map.get (u.port p).owed 0 v + 1)) ∧
      (∀ n, bit f.flg 3 = false → Map.get? (u.port p).rxPart v = some n → n < 4096 →
        Map.get? (t.port p).rxPart v = (if last then none else some (n + 1)) ∧
        (u.router.any (fun r => here r.2) = true → ∀ k, Map.get? t.router k = (Map.get? u.router k).map (fun r => if here r then
          { r with more := !last, flits := r.flits + 1, m := { r.m with body := r.m.body ++ part, abt := abt } } else r)) ∧
        (u.router.any (fun r => here r.2) = false → t.router = u.router ∧ ∀ q, (t.port q).txQ = (u.port q).txQ.map (fun y =>
          if y.from_ = some (p, v) then { y with left := y.left ++ part, from_ := if last then none else y.from_, abt := abt } else y))))) ∧
  (∀ (s u : State) (p : Nat) (f : Flit) (b : List Byte) (x : List LaneBlock), s.receive p 2 false false x = (some (f, b), u) →
    let from_ := f.ack.toNat
    let hit := (u.port p).held.any (fun h => h.lseq == from_ || seqAfter h.lseq from_)
    let again := (u.port p).replays ≠ 0 ∧ (u.port p).replayFrom = from_
    (hit = false → exec (.nak p x) s = .next { u with pending := s.pending }) ∧
    (hit = true → (again → (u.port p).replays < 7) → ∃ t, exec (.nak p x) s = .next t ∧
      t = { u with regs := t.regs, ports := t.ports, pending := s.pending } ∧ RegsKept u t [preg p 0x130] ∧
      t.rd (preg p 0x130) = satAdd32 (u.rd (preg p 0x130)) 1 ∧
      (t.port p).held = (u.port p).held.map (fun h => if h.lseq = from_ ∨ seqAfter h.lseq from_ = true then { h with wait := true } else h)) ∧
    (hit = true → again → 7 ≤ (u.port p).replays → ∃ t, exec (.nak p x) s = .next t ∧ t.portState p = 6 ∧ (t.port p).held = [])) ∧
  (∀ (s u : State) (p : Nat) (b : List Byte) (h : Hello) (x : List LaneBlock), s.linkIn p 1 true x = (some b, u) → h = helloOf b →
    (u.portState p ≠ 4 → exec (.hello p x) s = .next { u with pending := s.pending }) ∧
    (u.portState p = 4 → ∃ t, exec (.hello p x) s = .next t ∧ (t.port p).hello = some h ∧ t.rdB (preg p 0x11C) 31 = true ∧
      t.rdF (preg p 0x11C) 11 0 = h.pkg ∧ t.rdF (preg p 0x11C) 22 20 = h.domain ∧
      ((u.released = false ∨ u.pkgValid = false ∨ u.rdB (preg p 0x100) 29 = true) → t.portState p = 4) ∧
      (h.enc ≠ (u.port p).encOn → t.portState p = 4 ∧ t.rdB (preg p 0x16C) 1 = true ∧ t.rdB (R.INT_STAT (portPage p)) 7 = true) ∧
      (p < 32 → u.pkgValid = true → u.wiringOk p h = false → t.portState p = 4 ∧ t.rdB R.FBD_ERR 0 = true ∧ t.rdB R.FBD_WIRING_PORT 31 = true) ∧
      (u.released = true → u.pkgValid = true → u.rdB (preg p 0x100) 29 = false → h.enc = (u.port p).encOn → (p < 32 → u.wiringOk p h = true) →
        ((u.port p).encOn = false → t.portState p = 5 ∧ (t.port p).pingAt = some u.ft ∧ t.rdB (R.INT_STAT (portPage p)) 1 = true ∧
          (t.port p).pool = u.portFlits p - (u.port p).ded.sum ∧
          ∃ l, (t.port p).linkQ = (u.port p).linkQ ++ [padTo 240 ([2, 0, 0, 0] ++ (List.range 8).map (fun v =>
            BitVec.ofNat 8 ((u.port p).ded.getD v 0)) ++ leBytes 4 (t.port p).pool), padTo 240 ([5, 0, 0, 0] ++ leBytes 8 u.ft.toNat)] ++ l) ∧
        ((u.port p).encOn = true → u.encUp = false → t.portState p = 4 ∧ (t.port p).rx = (u.port p).rx) ∧
        ((u.port p).encOn = true → u.encUp = true → (u.port p).rx.on = false → (t.port p).rx = { PortKey.none with on := true, since := u.ft } ∧
          t.portState p = (if (u.port p).farReady then 5 else 4) ∧ t.rdB (preg p 0x104) 26 = ((u.port p).farReady || u.rdB (preg p 0x104) 26) ∧
          ∃ l, (t.port p).linkQ = (u.port p).linkQ ++ [padTo 240 ([4, 0, 0, 0] ++ leBytes 4 0 ++ leBytes 4 (u.rd R.SEM_KF_ID).toNat)] ++ l)))) ∧
  (∀ (s u : State) (p : Nat) (b : List Byte) (x : List LaneBlock), s.linkIn p 2 false x = (some b, u) →
    ∃ t, exec (.creditInit p x) s = .next t ∧ t = { u with ports := t.ports, pending := s.pending } ∧ (∀ q, q ≠ p → t.port q = u.port q) ∧
      t.port p = { u.port p with farDed := (List.range 8).map (fun v => (b.getD (4 + v) 0).toNat), farPool := leNat ((b.drop 12).take 4), outV := [] }) ∧
  (∀ (s u : State) (p e : Nat) (kf : Word32) (b : List Byte) (x : List LaneBlock), s.linkIn p 4 true x = (some b, u) →
    e = leNat ((b.drop 4).take 4) → kf = BitVec.ofNat 32 (leNat ((b.drop 8).take 4)) →
    (kf ≠ u.rd R.SEM_KF_ID → ∃ t, exec (.keyReady p x) s = .next t ∧ t.ports = u.ports ∧ t.rdB R.SEM_ERR 3 = true ∧
      t.rdB (R.INT_STAT 4) 7 = true) ∧
    (kf = u.rd R.SEM_KF_ID → u.portState p = 4 → e = 0 → (u.port p).encOn = true →
      ∃ t, exec (.keyReady p x) s = .next t ∧ (t.port p).farReady = true ∧
        (u.mayGo p = false → t = { u with ports := t.ports, pending := s.pending } ∧ t.port p = { u.port p with farReady := true }) ∧
        (u.mayGo p = true → u.encUp = true → t.portState p = 5 ∧ t.rdB (preg p 0x104) 26 = true ∧ (t.port p).rx.on = true ∧
          (t.port p).tx = { PortKey.none with on := true, since := u.ft })) ∧
    (kf = u.rd R.SEM_KF_ID → u.portState p = 5 → e = (u.port p).tx.epoch + 1 →
      ∃ t, exec (.keyReady p x) s = .next t ∧ t = { u with ports := t.ports, pending := s.pending } ∧
        t.port p = { u.port p with tx := { (u.port p).tx with nextReady := true } })) ∧
  (∀ (s u : State) (p : Nat) (b : List Byte) (x : List LaneBlock), s.linkIn p 5 false x = (some b, u) →
    ∃ t, exec (.rttPing p x) s = .next t ∧ t = { u with ports := t.ports, pending := s.pending } ∧
      t.port p = { u.port p with linkQ := (u.port p).linkQ ++ [padTo 240 ([6, 0, 0, 0] ++ (b.drop 4).take 8)] }) ∧
  (∀ (s u : State) (p : Nat) (w : Word64) (b : List Byte) (x : List LaneBlock), s.linkIn p 6 false x = (some b, u) →
    (u.port p).pingAt = some w →
    ∃ t, exec (.rttEcho p x) s = .next t ∧ t = { u with regs := t.regs, ports := t.ports, pending := s.pending } ∧
      t.port p = { u.port p with pingAt := none } ∧ t.rdF (preg p 0x128) 23 0 = (u.ft - w).toNat / 4 % 2 ^ 24 ∧
      (32 ≤ p → t.rdF (preg p 0x210) 15 0 = ((u.ft - w).toNat / 4 - 24000) / 980 % 65536) ∧ RegsKept u t [preg p 0x128, preg p 0x210])

/-- A port that does not send, and a marker's slot, pass nothing. In training, and in an odd slot at half width or on a reach port where no flit
starts, fillers go (log entry 76); in LPI an LPI block; the second half of a flit follows its first. In each other slot of an ACTIVE port in
clear one flit goes, each of its 32-byte parts scrambled on the lane that carries that stripe lane, with the LSEQ expected as its ACK and its own
CRC: a NAK that is due first; then the oldest flit to be sent again; then a LINK payload, numbered and held; then, with a credit and slots to
spare, a CTRL message's next flit; with nothing to send, an IDLE flit. Under a key a flit carries CTR, the ciphertext and the tag. In HELD, a
released package's first flit is its HELLO (log entry 21). REPLAY_TIMEOUT sends all that is held again; NAK_HOLDOFF_EXPIRY lets another NAK go;
OLD_KEY_DROP installs the next epoch's key and tells it; KEY_ROTATION_DUE marks the transmitter's key for rotation. -/
def Obligations.FlitsSent : Prop :=
  (∀ (s : State) (p : Nat), (36 ≤ p ∨ s.portSends p = false ∨ s.markerSlot p = true) → exec (.flitTransmit p) s = .next s) ∧
  (∀ (s : State) (p : Nat), p < 36 → s.portSends p = true → s.markerSlot p = false → (32 ≤ p → s.ms.evacuating = []) →
    ((s.port p).half ≠ [] ∨ (s.portState p ≠ 4 ∧ s.portState p ≠ 5) ∨ (s.txLanes p = 4 ∧ (s.port p).slot % 2 = 1)) →
    ∃ t, exec (.flitTransmit p) s = .next t ∧ PortOnly s t p ∧ t.regs = s.regs ∧
      t.port p = { s.port p with lanes := (t.port p).lanes, slot := (s.port p).slot + 1, half := [] } ∧
      ∀ l, l < laneCount p → (s.lane p l).cw.length < 19 →
        let k := laneStripe (s.rd (preg p 0x10C)) 4 l
        let b : Nat := if (s.port p).half ≠ [] then (match k with
            | some k => blockBits false (flitPart (s.port p).half k)
            | none => blockBits true (padTo 32 [0xC3]))
          else if s.portState p = 7 ∧ (laneStripe (s.rd (preg p 0x10C)) (s.txLanes p) l).isSome then blockBits true (padTo 32 [0x3C])
          else blockBits true (padTo 32 [0xC3])
        t.lane p l = { s.lane p l with scr := (scramble b (s.lane p l).scr).2, cw := (s.lane p l).cw ++ [(scramble b (s.lane p l).scr).1] }) ∧
  (∀ (s : State) (p : Nat), p < 36 → s.portState p = 5 → s.markerSlot p = false → (32 ≤ p → s.ms.evacuating = []) → (s.port p).half = [] →
    (s.txLanes p = 8 ∨ (s.port p).slot % 2 = 0) → s.rdB (preg p 0x100) 29 = false → (s.port p).tx.on = false → (s.port p).encOn = false →
    ∃ t f cs, exec (.flitTransmit p) s = .next t ∧ PortOnly s t p ∧ t.outbox = s.outbox ++ .flit p f :: cs ∧ t.msix = s.msix ∧
      f.ack = BitVec.ofNat 24 (s.port p).rxExp ∧ f.crc = flitCrc f ∧ (t.port p).slots = (s.port p).slots + 1 ∧ t.portState p = 5 ∧
      (t.port p).slot = (s.port p).slot + 1 ∧ (t.port p).half = (if s.txLanes p = 8 then [] else (flitBytes f).drop 128) ∧
      (∀ l k, l < laneCount p → laneStripe (s.rd (preg p 0x10C)) (s.txLanes p) l = some k → (s.lane p l).cw.length < 19 →
        let z := scramble (blockBits false (flitPart (flitBytes f) k)) (s.lane p l).scr
        t.lane p l = { s.lane p l with scr := z.2, cw := (s.lane p l).cw ++ [z.1] }) ∧
      ((s.port p).nakDue = true → f.type = 2 ∧ f.own = 0x7F ∧ (t.port p).nakDue = false ∧ (t.port p).held = (s.port p).held ∧
        (t.port p).linkQ = (s.port p).linkQ ∧ (t.port p).txQ = (s.port p).txQ) ∧
      (∀ g, (s.port p).nakDue = false → (s.port p).held.find? (·.wait) = some g →
        f.type = BitVec.ofNat 8 g.type ∧ f.lseq = BitVec.ofNat 24 g.lseq ∧ f.payload = padTo 240 g.bytes ∧
        (t.port p).held = (s.port p).held.map (fun x => if x.lseq = g.lseq then { x with wait := false } else x)) ∧
      (∀ b l, (s.port p).nakDue = false → (s.port p).held.find? (·.wait) = none → (s.port p).linkQ = b :: l →
        (s.port p).held.length < s.portFlits p →
        f.type = 3 ∧ f.lseq = BitVec.ofNat 24 (s.port p).txLseq ∧ f.payload = padTo 240 b ∧ (t.port p).linkQ = l ∧
        (t.port p).txLseq = ((s.port p).txLseq + 1) % 2 ^ 24 ∧
        (t.port p).held = (s.port p).held ++ [⟨0, 0, (s.port p).txLseq, 3, 0, 0, 0x7F, b, false, []⟩]) ∧
      ((s.port p).nakDue = false → (s.port p).held.find? (·.wait) = none → (s.port p).linkQ = [] → (s.port p).txQ = [] →
        f.type = 0 ∧ f.own = 0x7F ∧ (t.port p).held = (s.port p).held ∧ (t.port p).txLseq = (s.port p).txLseq) ∧
      (∀ m, (s.port p).nakDue = false → (s.port p).held.find? (·.wait) = none → (s.port p).linkQ = [] →
        (s.port p).held.length < s.portFlits p → State.hasCredit (s.port p) 0 = true →
        ((s.port p).ctrlAt.filter (fun k => (s.port p).slots < k + 4096)).length < 64 →
        (s.port p).txQ.find? (fun t => t.vc == 0 && t.begun) = none →
        (s.port p).txQ.find? (fun t => t.vc == 0 && State.txReady 240 t) = some m → m.cls ≠ 0x30 →
        f.type = 1 ∧ f.own = BitVec.ofNat 8 m.own ∧ f.lseq = BitVec.ofNat 24 (s.port p).txLseq ∧ f.payload = padTo 240 (m.left.take 240) ∧
        fld f.flg 2 0 = 0 ∧ bit f.flg 3 = true ∧ bit f.flg 4 = (m.from_.isNone && decide (m.left.length ≤ 240)) ∧
        f.len = BitVec.ofNat 8 (m.left.take 240).length ∧ (t.port p).held.length = (s.port p).held.length + 1)) ∧
  (∀ (s : State) (p : Nat), p < 36 → s.portState p = 5 → s.markerSlot p = false → (32 ≤ p → s.ms.evacuating = []) → (s.port p).half = [] →
    (s.txLanes p = 8 ∨ (s.port p).slot % 2 = 0) → s.rdB (preg p 0x100) 29 = false → (s.port p).tx.on = true → (s.port p).tx.due = false →
    (s.port p).tx.ctr + 1 < 2 ^ 48 → (s.port p).nakDue = false → (s.port p).held.find? (·.wait) = none → (s.port p).linkQ = [] →
    (s.port p).txQ = [] →
    ∃ t f cs, exec (.flitTransmit p) s = .next t ∧ t.outbox = s.outbox ++ .flit p f :: cs ∧ f.type = 0 ∧ bit f.flg 5 = true ∧
      bit f.flg 7 = (s.port p).tx.kph ∧ f.crc = flitCrc f ∧ (t.port p).tx = { (s.port p).tx with ctr := (s.port p).tx.ctr + 1 } ∧
      t.rd64 (preg p 0x170) = (s.port p).tx.ctr + 1 ∧
      let k := s.portKey p true (s.port p).tx.kph (s.port p).tx.epoch
      let c := gcmSeal (k.take 32) (State.flitIv k ((s.port p).tx.ctr + 1)) (flitHead f ++ leBytes 8 ((s.port p).tx.ctr + 1)) (padTo 216 [])
      f.payload = leBytes 8 ((s.port p).tx.ctr + 1) ++ c.1 ++ c.2) ∧
  (∀ (s : State) (p : Nat), p < 36 → s.portState p = 4 → s.markerSlot p = false → (32 ≤ p → s.ms.evacuating = []) → (s.port p).half = [] →
    (s.txLanes p = 8 ∨ (s.port p).slot % 2 = 0) → (s.port p).tx.on = false → (s.port p).encOn = false → s.released = true →
    s.pkgValid = true → (s.port p).helloSent = false → s.rdB (preg p 0x100) 29 = false → (s.port p).nakDue = false →
    (s.port p).held.find? (·.wait) = none → (s.port p).linkQ = [] → (s.port p).held.length < s.portFlits p →
    ∃ t f cs, exec (.flitTransmit p) s = .next t ∧ t.outbox = s.outbox ++ .flit p f :: cs ∧ f.type = 3 ∧ (t.port p).helloSent = true ∧
      f.payload = padTo 240 ([1, BitVec.ofNat 8 (if p < 32 then p else p - 32),
        BitVec.ofNat 8 ((if p < 32 then 0 else 1) + (if s.rdB (preg p 0x104) 25 then 4 else 0)), 0] ++
        leBytes 4 (s.port p).nonce.toNat ++ leBytes 2 s.srcField)) ∧
  (∀ (s : State) (p : Nat) (f : HeldFlit) (l : List HeldFlit), (s.portState p = 4 ∨ s.portState p = 5) → (s.port p).held = f :: l →
    (s.port p).ackAt.toNat + s.rdF (preg p 0x12C) 23 0 * 4 ≤ s.ft.toNat →
    ((s.port p).replays ≠ 0 → (s.port p).replayFrom = f.lseq → (s.port p).replays < 7) →
    ∃ t, exec (.replayTimeout p) s = .next t ∧ t = { s with regs := t.regs, ports := t.ports } ∧ (t.port p).ackAt = s.ft ∧
      t.rd (preg p 0x130) = satAdd32 (s.rd (preg p 0x130)) 1 ∧ RegsKept s t [preg p 0x130] ∧ (t.port p).replayFrom = f.lseq ∧
      (t.port p).held = (s.port p).held.map (fun h => if h.lseq = f.lseq ∨ seqAfter h.lseq f.lseq = true then { h with wait := true } else h)) ∧
  (∀ (s : State) (p : Nat), ((s.port p).held = [] ∨ s.ft.toNat < (s.port p).ackAt.toNat + s.rdF (preg p 0x12C) 23 0 * 4 ∨
      (s.portState p ≠ 4 ∧ s.portState p ≠ 5)) →
    exec (.replayTimeout p) s = .next s) ∧
  (∀ (s : State) (p : Nat), ∃ t, exec (.nakHoldoffExpiry p) s = .next t ∧ t = { s with ports := t.ports } ∧
    t.port p = { s.port p with nakSent := false } ∧ ∀ q, q ≠ p → t.port q = s.port q) ∧
  (∀ (s : State) (p : Nat), p < 36 → (s.port p).rx.on = true → (s.port p).rx.nextReady = false →
    (s.port p).rx.since.toNat + 4000000 ≤ s.ft.toNat →
    ∃ t, exec (.oldKeyDrop p) s = .next t ∧ t = { s with ports := t.ports } ∧ (∀ q, q ≠ p → t.port q = s.port q) ∧
      t.port p = { s.port p with rx := { (s.port p).rx with oldKept := false, nextReady := true }, linkQ := (t.port p).linkQ } ∧
      (t.port p).linkQ = (s.port p).linkQ ++ [padTo 240 ([4, BitVec.ofNat 8 (!(s.port p).rx.kph).toNat, 0, 0] ++
        leBytes 4 ((s.port p).rx.epoch + 1) ++ leBytes 4 (s.rd R.SEM_KF_ID).toNat)]) ∧
  (∀ (s : State) (p : Nat) (kf : Bool), p < 36 → (s.port p).tx.on = true →
    (((2 ^ 47 ≤ (s.port p).tx.ctr ∨ kf = true ∨ (s.rdF R.SEM_CTL 15 0 ≠ 0 ∧
        (s.port p).tx.since.toNat + s.rdF R.SEM_CTL 15 0 * 4000000000 ≤ s.ft.toNat)) →
      ∃ t, exec (.keyRotationDue p kf) s = .next t ∧ t = { s with ports := t.ports } ∧ (∀ q, q ≠ p → t.port q = s.port q) ∧
        t.port p = { s.port p with tx := { (s.port p).tx with due := true } }) ∧
     ((s.port p).tx.ctr < 2 ^ 47 → kf = false → s.rdF R.SEM_CTL 15 0 = 0 → exec (.keyRotationDue p kf) s = .next s)))

/-- FBD_PKG_ID, and a legal FBD_SHAPE, are taken while VALID = 0; otherwise the write is ignored and its error bit is set; as VALID is set a
port that waits for it in HELD goes ACTIVE. A message for this package is delivered, one that came on a reach port for another domain is
dropped and counted, and one for another package goes by the first digit that differs to a live port listed for that digit; forwarding takes it off
the router onto that port's queue with HOPS one higher, marked PH2 where it detours, the flits still to come following it; at the hop limit, or
with a CLASS that is not listed, it is dropped and counted on the port it came by. The flits that leave a buffer give their credits back. A message
that waits stays, and after FBD_ROUTE_WAIT is dropped and counted. ROUTE_NOTICE records what a neighbour has lost. CLEAR_LOST takes the selected package off the lost list; DECLARE_LOST puts it there, raises PKG_LOST, and,
with nothing outstanding to it, makes the tiles away at it LOST and frees its guests. -/
def Obligations.RouterCommands : Prop :=
  (∀ (s : State) (v : Word32),
    (s.pkgValid = false → (∀ p, p < 36 → s.portState p ≠ 4 ∨ (s.port p).hello = none) →
      ∃ t, exec (.pkgIdWrite v) s = .next t ∧ RegWritten s t R.FBD_PKG_ID v) ∧
    (∀ p h, s.pkgValid = false → bit v 31 = true → 32 ≤ p → p < 36 → s.portState p = 4 → (s.port p).hello = some h →
      (∀ q, q < 36 → q ≠ p → s.portState q ≠ 4 ∨ (s.port q).hello = none) → (s.port p).encOn = false → h.enc = false → s.released = true →
      s.rdB (preg p 0x100) 29 = false → ∃ t, exec (.pkgIdWrite v) s = .next t ∧ t.pkgValid = true ∧ t.portState p = 5) ∧
    (s.pkgValid = true → ∃ t, exec (.pkgIdWrite v) s = .next t ∧ OnlyRegs s t [R.FBD_ERR, R.GEN_WR_CNT 0xF0, R.GEN_IGN_CNT 0xF0] ∧
      t.rd R.FBD_ERR = s.rd R.FBD_ERR ||| 4) ∧
    (s.pkgValid = false → shapeOk v = true → ∃ t, exec (.shapeWrite v) s = .next t ∧ RegWritten s t R.FBD_SHAPE v) ∧
    ((s.pkgValid = true ∨ shapeOk v = false) → ∃ t, exec (.shapeWrite v) s = .next t ∧
      OnlyRegs s t [R.FBD_ERR, R.GEN_WR_CNT 0xF0, R.GEN_IGN_CNT 0xF0] ∧ t.rd R.FBD_ERR = s.rd R.FBD_ERR ||| 2)) ∧
  (∀ (s : State) (inp d : Nat) (m : Msg),
    (m.dest / 4096 % 8 = s.domain → m.dest % 4096 = s.pkg → s.route inp m = .here) ∧
    (m.dest / 4096 % 8 ≠ s.domain → 32 ≤ inp → inp < 36 → s.route inp m = .transit) ∧
    (m.dest / 4096 % 8 = s.domain → m.dest % 4096 ≠ s.pkg →
      (List.range 4).find? (fun d => digit (s.rd R.FBD_SHAPE) d s.pkg != digit (s.rd R.FBD_SHAPE) d (m.dest % 4096)) = some d →
      s.livePorts d (digit (s.rd R.FBD_SHAPE) d (m.dest % 4096)) ≠ [] →
      ∃ p ∈ s.livePorts d (digit (s.rd R.FBD_SHAPE) d (m.dest % 4096)), s.route inp m = .port p (State.phaseVc m))) ∧
  (∀ (s : State) (n : Nat) (r : RMsg), Map.get? s.router n = some r →
    (r.inPort < 36 → (15 ≤ r.m.hops ∨ State.listedClass r.m.cls = false) → ∃ t, exec (.messageForward n) s = .next t ∧
      t = { s with regs := t.regs, router := t.router, ports := t.ports } ∧ LeftRouter s t n r ∧ RegsKept s t [preg r.inPort 0x168] ∧
      t.rd (preg r.inPort 0x168) = satAdd32 (s.rd (preg r.inPort 0x168)) 1) ∧
    ((36 ≤ r.inPort ∨ (r.m.hops < 15 ∧ State.listedClass r.m.cls = true)) →
      (s.route r.inPort r.m = .here → ∃ t, exec (.messageForward n) s = .next t ∧
        t = { s with router := t.router, ports := t.ports } ∧ LeftRouter s t n r) ∧
      (s.route r.inPort r.m = .wait → exec (.messageForward n) s = .next s) ∧
      (s.route r.inPort r.m = .noRoute → ∃ t, exec (.messageForward n) s = .next t ∧
        t = { s with regs := t.regs, router := t.router, ports := t.ports, outbox := t.outbox, msix := t.msix } ∧ LeftRouter s t n r ∧
        t.rd R.FBD_NOROUTE_CNT = satAdd32 (s.rd R.FBD_NOROUTE_CNT) 1 ∧ t.rdB (R.INT_STAT 0xF0) 2 = true ∧ t.rdB (R.INT_STAT 0xF1) 2 = true) ∧
      (s.route r.inPort r.m = .transit → ∃ t, exec (.messageForward n) s = .next t ∧
        t = { s with regs := t.regs, router := t.router, ports := t.ports } ∧ LeftRouter s t n r ∧ RegsKept s t [R.FBD_XDOM_DROP_CNT] ∧
        t.rd R.FBD_XDOM_DROP_CNT = satAdd32 (s.rd R.FBD_XDOM_DROP_CNT) 1) ∧
      (∀ p vc m, ((s.route r.inPort r.m = .port p vc ∧ m = r.m) ∨ (s.route r.inPort r.m = .detour p vc ∧ m = State.setPh2 r.m)) →
        ∃ t q, exec (.messageForward n) s = .next t ∧
        t = { s with regs := t.regs, ports := t.ports, router := t.router } ∧ LeftRouter s t n r ∧ (t.port p).txQ = (s.port p).txQ ++ [q] ∧
        q.dest = r.m.dest ∧ q.cls = r.m.cls ∧ q.vc = vc ∧ q.own = r.m.own ∧ q.begun = false ∧ q.abt = r.m.abt ∧
        q.from_ = (if r.more then some (r.inPort, r.m.vc) else none) ∧
        q.left.drop 8 = m.body ∧ q.left.take 4 = leBytes 2 r.m.dest ++ leBytes 2 r.m.src ∧
        (q.left.drop 6).take 2 = leBytes 1 (r.m.hops + 1) ++ leBytes 1 r.m.cls ∧
        (s.route r.inPort r.m = .detour p vc → t.rd R.FBD_DETOUR_CNT = satAdd32 (s.rd R.FBD_DETOUR_CNT) 1) ∧
        RegsKept s t [R.FBD_DETOUR_CNT] ∧ ∀ k, k ≠ p → k ≠ r.inPort → t.port k = s.port k)) ∧
    (s.route r.inPort r.m = .wait → r.since.toNat + s.rdF R.FBD_ROUTE_WAIT 9 0 * 4000000 ≤ s.ft.toNat →
      ∃ t, exec (.routeWaitTimeout n) s = .next t ∧ t = { s with regs := t.regs, router := t.router, ports := t.ports } ∧ LeftRouter s t n r ∧
        RegsKept s t [R.FBD_ROUTE_DROP_CNT] ∧ t.rd R.FBD_ROUTE_DROP_CNT = satAdd32 (s.rd R.FBD_ROUTE_DROP_CNT) 1) ∧
    (s.ft.toNat < r.since.toNat + s.rdF R.FBD_ROUTE_WAIT 9 0 * 4000000 → exec (.routeWaitTimeout n) s = .next s)) ∧
  (∀ (s : State) (d c : Nat) (l : List Nat), d < 4 → c < 32 →
    ∃ t, exec (.routeNotice d c l) s = .next t ∧ t = { s with notices := t.notices } ∧ Map.get t.notices [] (32 * d + c) = l ∧
      ∀ k, k ≠ 32 * d + c → Map.get t.notices [] k = Map.get s.notices [] k) ∧
  (∀ (s : State), ∃ t, exec .clearLost s = .next t ∧ t = { s with regs := t.regs, lostPkgs := t.lostPkgs } ∧
    RegsKept s t [R.GEN_WR_CNT 0xF0] ∧ s.rdF R.FBD_FLOW_SEL 11 0 ∉ t.lostPkgs ∧
    ∀ p, p ≠ s.rdF R.FBD_FLOW_SEL 11 0 → (p ∈ t.lostPkgs ↔ p ∈ s.lostPkgs)) ∧
  (∀ (s : State), Map.wf s.ms.tiles = true → s.slots = [] → s.away = [] → s.remTodo = [] → s.reqWait = [] →
    (s.flow (s.rdF R.FBD_FLOW_SEL 11 0)).reqs = [] →
    let p := s.rdF R.FBD_FLOW_SEL 11 0
    ∃ t, exec .declareLost s = .next t ∧ p ∈ t.lostPkgs ∧ (∀ q, q ≠ p → (q ∈ t.lostPkgs ↔ q ∈ s.lostPkgs)) ∧
      t.rdB (R.INT_STAT 0xF0) 4 = true ∧ t.rdB (R.INT_STAT 0xF1) 4 = true ∧
      (∀ n, (s.tile n).st = .away → (s.tile n).loc = p → (t.tile n).st = .lost) ∧
      (∀ n, ((s.tile n).st ≠ .away ∨ (s.tile n).loc ≠ p) → t.tile n = s.tile n) ∧
      (∀ e ∈ t.guests, e.1 / 2 ^ 29 ≠ p ∧ e ∈ s.guests))

/-- A request ahead of the ESEQ expected is discarded with one NACK; one behind it, other than RD, is answered from the kept
responses. In order, on a DRAM home: RD answers its bytes and changes none; WR stores its data once and changes no other byte; each atomic
answers the old value and stores what its OP gives, 4 or 8 bytes, and no other byte. A read of a guest answers its bytes to its owner or where the
origin forwards it, and ACCESS to another (log entry 77); of one that is not here, REMOTE's LOST. MV of a tile at home in DRAM marks it and offers it
to its destination, and one without the right is refused. MV_OFFER takes a frame and a PENDING guest or refuses; MV_SEND sends the
tile's data; MV_DATA that verifies is written and answers the offer, at the origin itself it commits the move; MV_COMMIT makes the guest live;
MV_RELEASE frees it; MV_QUERY answers the package the entry names (in OLD, by log entry 23); a PENDING guest asks its origin every 10 ms. -/
def Obligations.RemoteTarget : Prop :=
  (∀ (s : State) (p own : Nat) (m : RemMsg) (c : Instr),
    c ∈ [Instr.rd p own m, .wr p own m, .atomicAdd p own m, .atomicFadd p own m, .atomicSmin p own m, .atomicSmax p own m, .atomicUmin p own m,
      .atomicUmax p own m, .atomicAnd p own m, .atomicOr p own m, .atomicXor p own m, .atomicSwap p own m, .atomicCas p own m, .mv p own m,
      .mvOffer p own m, .mvSend p own m, .mvCommit p own m, .mvRelease p own m, .mvQuery p own m] →
    let d := (m.eseq + 2 ^ 24 - (s.inFlow p).exp) % 2 ^ 24
    (0 < d → d < 2 ^ 23 → (s.inFlow p).nacked = true → exec c s = .next s) ∧
    (0 < d → d < 2 ^ 23 → (s.inFlow p).nacked = false → ∃ t r, exec c s = .next t ∧ t = { s with flowIn := t.flowIn, router := t.router } ∧
      t.inFlow p = { s.inFlow p with nacked := true } ∧ Map.get? t.router (Map.nextKey s.router) = some r ∧ r.m.cls = 0x1B ∧
      r.m.dest = p + 4096 * s.domain ∧ r.m.body = leBytes 3 (s.inFlow p).exp ++ [m.flags &&& 0xFE] ++ leBytes 4 0) ∧
    (2 ^ 23 ≤ d → c ≠ .rd p own m →
      (∀ k, (s.inFlow p).cache.reverse.find? (fun r => r.eseq == m.eseq) = some k → exec c s = .next (s.send k.m)) ∧
      ((s.inFlow p).cache.reverse.find? (fun r => r.eseq == m.eseq) = none → exec c s = .next s))) ∧
  (∀ (s : State) (p own : Nat) (m : RemMsg), m.eseq = (s.inFlow p).exp → m.eseq < 2 ^ 24 → m.addr.toNat / 2 ^ 52 = s.pkg →
    let a := m.addr.toNat % 2 ^ 52
    s.deny own a false = none → (s.tile (a / tileBytes)).st = .dram →
    (0 < m.len → a % tileBytes + m.len ≤ tileBytes → s.anyPoison a m.len = false →
      ∃ t r, exec (.rd p own m) s = .next t ∧
        t = { s with flowIn := t.flowIn, router := t.router, ms := { s.ms with frames := t.ms.frames }, regs := t.regs } ∧ DramRegs s t [] ∧
        (t.inFlow p).exp = ((s.inFlow p).exp + 1) % 2 ^ 24 ∧ Map.get? t.router (Map.nextKey s.router) = some r ∧ r.m.cls = 0x1A ∧
        r.m.dest = p + 4096 * s.domain ∧ r.m.body = rspBody m 0 0 0 (s.bytesAt a m.len)) ∧
    (m.data ≠ [] → a % tileBytes + m.data.length ≤ tileBytes → s.deny own a true = none →
      ∃ t r, exec (.wr p own m) s = .next t ∧
        t = { s with flowIn := t.flowIn, router := t.router, mem := t.mem, regs := t.regs
                     ms := { s.ms with frames := t.ms.frames, poison := t.ms.poison } } ∧ DramRegs s t [] ∧
        (t.inFlow p).exp = ((s.inFlow p).exp + 1) % 2 ^ 24 ∧ Map.get? t.router (Map.nextKey s.router) = some r ∧ r.m.cls = 0x1A ∧
        r.m.body = rspBody m 0 0 0 [] ∧ (t.inFlow p).cache.getLast? = some ⟨m.eseq, r.m⟩ ∧ Mem.read t.mem a m.data.length = m.data ∧
        ∀ b, b < a ∨ a + m.data.length ≤ b → Mem.get t.mem b = Mem.get s.mem b) ∧
    (∀ (c : Instr) (v : Nat),
      let sz := if m.aop / 16 % 2 = 1 then 8 else 4
      let k := 2 ^ (8 * sz)
      let x := leNat (s.bytesAt a sz)
      let y := m.op0.toNat % k
      (c, v) ∈ [(Instr.atomicAdd p own m, (x + y) % k), (.atomicUmin p own m, min x y), (.atomicUmax p own m, max x y),
        (.atomicSmin p own m, if (BitVec.ofNat (8 * sz) y).toInt < (BitVec.ofNat (8 * sz) x).toInt then y else x),
        (.atomicSmax p own m, if (BitVec.ofNat (8 * sz) x).toInt < (BitVec.ofNat (8 * sz) y).toInt then y else x),
        (.atomicAnd p own m, x &&& y), (.atomicOr p own m, x ||| y), (.atomicXor p own m, x ^^^ y), (.atomicSwap p own m, y),
        (.atomicCas p own m, if x = m.op1.toNat % k then y else x)] ∨
        (c = .atomicFadd p own m ∧ sz = 4 ∧
          v = f32Code (accAdd (f32 (BitVec.ofNat 32 x)) (f32 (BitVec.ofNat 32 y))).1) →
      s.deny own a true = none → a % sz = 0 → s.anyPoison a sz = false →
      ∃ t r, exec c s = .next t ∧
        t = { s with flowIn := t.flowIn, router := t.router, mem := t.mem, regs := t.regs
                     ms := { s.ms with frames := t.ms.frames, poison := t.ms.poison } } ∧ DramRegs s t [] ∧
        (t.inFlow p).exp = ((s.inFlow p).exp + 1) % 2 ^ 24 ∧ Map.get? t.router (Map.nextKey s.router) = some r ∧ r.m.cls = 0x1A ∧
        r.m.body = rspBody m 0 0 (BitVec.ofNat 64 x) [] ∧ Mem.read t.mem a sz = leBytes sz v ∧
        ∀ b, b < a ∨ a + sz ≤ b → Mem.get t.mem b = Mem.get s.mem b)) ∧
  (∀ (s : State) (p own : Nat) (m : RemMsg), m.eseq = (s.inFlow p).exp → m.eseq < 2 ^ 24 → m.addr.toNat / 2 ^ 52 ≠ s.pkg → 0 < m.len →
    m.addr.toNat % tileBytes + m.len ≤ tileBytes →
    ∃ t r c d bs, exec (.rd p own m) s = .next t ∧ t = { s with flowIn := t.flowIn, router := t.router } ∧
      Map.get? t.router (Map.nextKey s.router) = some r ∧ r.m.cls = 0x1A ∧ r.m.dest = p + 4096 * s.domain ∧ r.m.body = rspBody m c d 0 bs ∧
      (s.guestAt m.addr.toNat = false → c = 0x0A ∧ d = 2 ∧ bs = []) ∧
      (s.guestAt m.addr.toNat = true → (bit m.flags 1 = true ∨ s.guestOwner m.addr.toNat = own) → d = 0 ∧
        c = (if s.anyPoison (guestAddr m.addr.toNat) m.len then 9 else 0) ∧ bs = Mem.read s.mem (guestAddr m.addr.toNat) m.len) ∧
      (s.guestAt m.addr.toNat = true → bit m.flags 1 = false → s.guestOwner m.addr.toNat ≠ own → c = 4 ∧ d = 1 ∧ bs = [])) ∧
  (∀ (s : State) (p own e : Nat) (m : RemMsg), m.eseq = (s.inFlow p).exp → m.eseq < 2 ^ 24 →
    let n := m.addr.toNat % 2 ^ 52 / tileBytes
    (∀ c d, s.deny own (n * tileBytes) true = some (c, d) → ∃ t r, exec (.mv p own m) s = .next t ∧
      t = { s with flowIn := t.flowIn, router := t.router } ∧ Map.get? t.router (Map.nextKey s.router) = some r ∧ r.m.cls = 0x1A ∧
      r.m.dest = p + 4096 * s.domain ∧ r.m.body = rspBody m c d 0 []) ∧
    (s.deny own (n * tileBytes) true = none → e = (if m.op0.toNat.testBit 15 then s.pkg else m.op0.toNat % 4096) → e ≠ s.pkg →
      (s.tile n).st = .dram → s.modelTile n = false → Map.get? s.ms.moves n = none → Map.get? s.away n = none → s.away.length < 16 →
      (∀ a ∈ s.ms.asks, a.tile ≠ n) → s.lostPkgs.contains e = false → inDomain (s.rd R.FBD_SHAPE) e = true → s.reqRoom e = true →
      (∀ w ∈ s.reqWait, w.pkg ≠ e) →
      ∃ t r q, exec (.mv p own m) s = .next t ∧ t = { s with flowIn := t.flowIn, flowOut := t.flowOut, router := t.router, away := t.away
                                                             ms := { s.ms with tiles := t.ms.tiles } } ∧
        t.tile n = { s.tile n with st := .movingD } ∧ (∀ k, k ≠ n → t.tile k = s.tile k) ∧
        Map.get? t.away n = some ⟨e, none, 1, some (.relay p own m), 0⟩ ∧ (t.flow e).reqs = (s.flow e).reqs ++ [q] ∧ q.why = .offer n ∧
        Map.get? t.router (Map.nextKey s.router) = some r ∧ r.m.cls = 0x14 ∧ r.m.dest = e + 4096 * s.domain)) ∧
  (∀ (s : State) (p own : Nat) (m : RemMsg), m.eseq = (s.inFlow p).exp → m.eseq < 2 ^ 24 →
    let g := guestKey m.addr.toNat
    let rsp (t : State) (code detail : Nat) (old : Word64) : Prop :=
      ∃ k r, Map.get? t.router k = some r ∧ r.m.cls = 0x1A ∧ r.m.dest = p + 4096 * s.domain ∧ r.m.body = rspBody m code detail old []
    ((s.dFree (m.aop % 128) = 0 ∨ 1048576 ≤ s.guests.length ∨ s.tenantActive (m.aop % 128) = false) → ∃ t, exec (.mvOffer p own m) s = .next t ∧
      t = { s with flowIn := t.flowIn, router := t.router } ∧ rsp t 0x11 5 0) ∧
    (∀ loc, 0 < s.dFree (m.aop % 128) → s.guests.length < 1048576 → s.tenantActive (m.aop % 128) = true → s.placeFrame (m.addr.toNat % 2 ^ 52 / tileBytes) = some loc →
      ∃ t, exec (.mvOffer p own m) s = .next t ∧
        t = { s with flowIn := t.flowIn, router := t.router, guests := t.guests, ms := { s.ms with frames := t.ms.frames } } ∧
        Map.get? t.guests g = some ⟨loc, m.aop % 128, true, m.eseq, none, s.ft⟩ ∧
        (∃ f, Map.get? t.ms.frames loc = some f ∧ f.use = .guest g ∧ f.owner = m.aop % 128) ∧ rsp t 0 0 0) ∧
    (Map.get? s.guests g = none → ∃ t, exec (.mvSend p own m) s = .next t ∧ t = { s with flowIn := t.flowIn, router := t.router } ∧
      rsp t 0x0A 2 0) ∧
    (∀ v, Map.get? s.guests g = some v → ∃ t r, exec (.mvSend p own m) s = .next t ∧
      t = { s with flowIn := t.flowIn, router := t.router, guests := t.guests } ∧
      Map.get? t.guests g = some { v with sentTo := some (m.op0.toNat % 4096), since := s.ft } ∧
      Map.get? t.router (Map.nextKey s.router) = some r ∧ r.m.cls = 0x19 ∧ r.m.dest = m.op0.toNat % 4096 + 4096 * s.domain ∧
      r.m.body.drop 56 = Mem.read s.mem (guestAddr m.addr.toNat) tileBytes ∧ rsp t 0 0 0) ∧
    (∀ v, Map.get? s.guests g = some v → ∃ t, exec (.mvCommit p own m) s = .next t ∧
      t = { s with flowIn := t.flowIn, router := t.router, guests := t.guests } ∧
      Map.get? t.guests g = some { v with pending := false } ∧ rsp t 0 0 0) ∧
    (∀ v, Map.get? s.guests g = some v → ∃ t, exec (.mvRelease p own m) s = .next t ∧ Map.get? t.guests g = none ∧
      Map.get? t.ms.frames v.frame = none ∧ rsp t 0 0 0 ∧
      (∀ b, guestAddr m.addr.toNat / tileBytes * tileBytes ≤ b → b < guestAddr m.addr.toNat / tileBytes * tileBytes + tileBytes →
        Mem.get t.mem b = Mem.blank) ∧
      ∀ b, b < guestAddr m.addr.toNat / tileBytes * tileBytes ∨ guestAddr m.addr.toNat / tileBytes * tileBytes + tileBytes ≤ b →
        Mem.get t.mem b = Mem.get s.mem b) ∧
    (let e := s.tile (m.addr.toNat % 2 ^ 52 / tileBytes)
     ∃ t, exec (.mvQuery p own m) s = .next t ∧ t = { s with flowIn := t.flowIn, router := t.router } ∧
       rsp t 0 0 (BitVec.ofNat 64 (if e.st = .away then e.loc else s.pkg)))) ∧
  (∀ (s : State) (m : RemMsg), m.data.length = 65536 → exec (.mvData m false) s = .next s) ∧
  (∀ (s : State) (m : RemMsg) (v : Guest), m.data.length = 65536 → m.addr.toNat / 2 ^ 52 ≠ s.pkg →
    m.addr.toNat % tileBytes = 0 → Map.get? s.guests (guestKey m.addr.toNat) = some v → v.pending = true → v.offer = m.eseq →
    ∃ t r, exec (.mvData m true) s = .next t ∧
      t = { s with mem := t.mem, flowIn := t.flowIn, router := t.router, ms := { s.ms with poison := t.ms.poison } } ∧
      Mem.read t.mem (guestAddr m.addr.toNat) tileBytes = m.data ∧
      (∀ b, b < guestAddr m.addr.toNat ∨ guestAddr m.addr.toNat + tileBytes ≤ b → Mem.get t.mem b = Mem.get s.mem b) ∧
      Map.get? t.router (Map.nextKey s.router) = some r ∧ r.m.cls = 0x1A ∧ r.m.dest = m.addr.toNat / 2 ^ 52 + 4096 * s.domain ∧
      r.m.body = rspBody { State.remNone m.addr.toNat with eseq := v.offer } 0 0 1 []) ∧
  (∀ (s : State) (m : RemMsg) (a : AwayMove) (q : Nat), m.data.length = 65536 → m.addr.toNat / 2 ^ 52 = s.pkg →
    let n := m.addr.toNat % 2 ^ 52 / tileBytes
    Map.get? s.away n = some a → a.dest = s.pkg → a.step = 2 → a.from_ = some q → s.lostPkgs.contains q = false →
    (∀ w ∈ s.ms.waits, w.held = true → w.acc.addr / tileBytes ≠ n) → s.reqRoom q = true → (∀ w ∈ s.reqWait, w.pkg ≠ q) →
    ∃ t x, exec (.mvData m true) s = .next t ∧ t.tile n = ⟨.dram, false, a.frame, false⟩ ∧ (∀ k, k ≠ n → t.tile k = s.tile k) ∧
      Mem.read t.mem (n * tileBytes) tileBytes = m.data ∧
      (∀ b, b < n * tileBytes ∨ n * tileBytes + tileBytes ≤ b → Mem.get t.mem b = Mem.get s.mem b) ∧
      Map.get? t.away n = none ∧ (t.flow q).reqs = (s.flow q).reqs ++ [x] ∧ x.cls = 0x17 ∧ x.why = .release n) ∧
  (∀ (s : State) (g : Nat) (v : Guest), Map.get? s.guests g = some v → (v.pending = true ∨ v.sentTo.isSome = true) →
    (s.ft.toNat < v.since.toNat + 40000000 → exec (.mvQueryTimer g) s = .next s) ∧
    (v.since.toNat + 40000000 ≤ s.ft.toNat → s.reqRoom (g / 2 ^ 29) = true → (∀ w ∈ s.reqWait, w.pkg ≠ g / 2 ^ 29) →
      ∃ t r, exec (.mvQueryTimer g) s = .next t ∧
      t = { s with guests := t.guests, flowOut := t.flowOut, router := t.router } ∧ Map.get? t.guests g = some { v with since := s.ft } ∧
      Map.get? t.router (Map.nextKey s.router) = some r ∧ r.m.cls = 0x18 ∧ r.m.dest = g / 2 ^ 29 + 4096 * s.domain))

/-- The first response to a request takes it off its flow and is applied: the data of an operator's read are stored at its destination, an access to
an AWAY tile is answered, and an error ends the operator's record with its CODE. The first answer to MV_OFFER sends the tile's data, the second (1 in
OLD, log entry 23) makes the entry AWAY and sends MV_COMMIT, whose answer frees the former home; an error leaves the tile where it was. A response to
no request outstanding changes nothing, or, where one was answered before, is counted and reported. A NACK resends every unanswered request of the
flow with DUP = 1. E2E_TIMEOUT before FBD_E2E_TMO changes nothing; then it goes back while tries are left; then the oldest request ends with REMOTE,
DETAIL 0x03 (0x04 for an access forwarded to a holder). -/
def Obligations.RemoteRequester : Prop :=
  (∀ (s : State) (p : Nat) (r : RspMsg) (q : OutReq), (s.flow p).reqs.find? (fun q => q.eseq == r.eseq) = some q →
    s.reqWait = [] → s.remTodo = [] →
    (∀ h a o, r.code = 0 → q.cls = 0x10 → q.why = .op h a → s.op? h = some o → r.data ≠ [] → a % tileBytes + r.data.length ≤ tileBytes →
      s.deny o.tenant a true = none → (s.tile (a / tileBytes)).st = .dram →
      ∃ t, exec (.rsp p r) s = .next t ∧ t = { s with flowOut := t.flowOut, mem := t.mem, regs := t.regs
                                                      ms := { s.ms with frames := t.ms.frames, poison := t.ms.poison } } ∧ DramRegs s t [] ∧
        (t.flow p).reqs = (s.flow p).reqs.filter (fun x => x.eseq != q.eseq) ∧ Mem.read t.mem a r.data.length = r.data ∧
        ∀ b, b < a ∨ a + r.data.length ≤ b → Mem.get t.mem b = Mem.get s.mem b) ∧
    (∀ x, r.code = 0 → q.why = .held x → x.op = none → x.rem = none → x.fresh < 2 ^ 64 → q.cls = 0x10 →
      ∃ t, exec (.rsp p r) s = .next t ∧ t = { s with flowOut := t.flowOut, outbox := s.outbox ++ [.reply x.fresh 0 0 r.data] } ∧
        (t.flow p).reqs = (s.flow p).reqs.filter (fun x => x.eseq != q.eseq) ∧ (t.flow p).done.getLast? = some q ∧
        ∀ k, k ≠ p → t.flow k = s.flow k) ∧
    (∀ h a o, r.code ≠ 0 → (r.code ≠ 9 ∨ q.cls ≠ 0x10) → q.why = .op h a → s.op? h = some o → o.code = 0 →
      ∃ t, exec (.rsp p r) s = .next t ∧ t = { s with flowOut := t.flowOut, ops := t.ops } ∧ (∀ k, k ≠ h → t.op? k = s.op? k) ∧
        (t.flow p).reqs = (s.flow p).reqs.filter (fun x => x.eseq != q.eseq) ∧
        t.op? h = some { o with code := BitVec.ofNat 8 r.code, detail := BitVec.ofNat 8 r.detail, faultAddr := q.m.addr
                                faultCnt := satAdd32 o.faultCnt 1 }) ∧
    (∀ n a, r.code ≠ 0 → q.why = .offer n → Map.get? s.away n = some a → a.step ≤ 2 → a.from_ = none → (s.tile n).st = .movingD →
      (∀ w ∈ s.ms.waits, w.held = true → w.acc.addr / tileBytes ≠ n) →
      ∃ t, exec (.rsp p r) s = .next t ∧ t.tile n = { s.tile n with st := .dram } ∧ (∀ k, k ≠ n → t.tile k = s.tile k) ∧
        Map.get? t.away n = none ∧ t.mem = s.mem) ∧
    (∀ n a, r.code = 0 → r.old = 0 → q.why = .offer n → Map.get? s.away n = some a → a.from_ = none →
      ∃ t m, exec (.rsp p r) s = .next t ∧ t = { s with flowOut := t.flowOut, away := t.away, router := t.router } ∧
        Map.get? t.away n = some { a with step := 2 } ∧ (t.flow p).reqs.map (·.eseq) = (s.flow p).reqs.map (·.eseq) ∧
        Map.get? t.router (Map.nextKey s.router) = some m ∧ m.m.cls = 0x19 ∧ m.m.dest = a.dest + 4096 * s.domain ∧
        m.m.body.drop 56 = s.bytesAt (n * tileBytes) tileBytes) ∧
    (∀ n a, r.code = 0 → r.old ≠ 0 → q.why = .offer n → Map.get? s.away n = some a → a.dest ≠ s.pkg →
      ∃ t, exec (.rsp p r) s = .next t ∧ t.tile n = ⟨.away, false, a.dest, false⟩ ∧ (∀ k, k ≠ n → t.tile k = s.tile k) ∧ t.mem = s.mem ∧
        (∃ b, Map.get? t.away n = some b ∧ b.step = 3 ∧ b.dest = a.dest) ∧
        ((∃ x ∈ (t.flow a.dest).reqs, x.cls = 0x16 ∧ x.why = .commit n) ∨ ∃ w ∈ t.reqWait, w.cls = 0x16 ∧ w.why = .commit n)) ∧
    (∀ n a, r.code = 0 → q.why = .commit n → Map.get? s.away n = some a → a.from_ = none → a.frame < 2 ^ 28 →
      (∀ w ∈ s.ms.waits, w.held = true → w.acc.addr / tileBytes ≠ n) →
      ∃ t, exec (.rsp p r) s = .next t ∧ Map.get? t.away n = none ∧ Map.get? t.ms.frames a.frame = none ∧
        (∀ b, n * tileBytes ≤ b → b < n * tileBytes + tileBytes → Mem.get t.mem b = Mem.blank) ∧
        ∀ b, b < n * tileBytes ∨ n * tileBytes + tileBytes ≤ b → Mem.get t.mem b = Mem.get s.mem b)) ∧
  (∀ (s : State) (p : Nat) (r : RspMsg), (s.flow p).reqs.find? (fun q => q.eseq == r.eseq) = none →
    ((s.flow p).done.find? (fun q => q.eseq == r.eseq) = none → exec (.rsp p r) s = .next s) ∧
    (∀ q, (s.flow p).done.find? (fun q => q.eseq == r.eseq) = some q →
      ∃ t, exec (.rsp p r) s = .next t ∧ t.mem = s.mem ∧ t.flowOut = s.flowOut ∧
        t.rd R.FBD_DUP_RSP_CNT = satAdd32 (s.rd R.FBD_DUP_RSP_CNT) 1 ∧ t.rdB (R.INT_STAT 0xF0) 3 = true ∧
        t.rdB (R.INT_STAT 0xF1) 3 = true ∧
        (q.record = none → t = { s with regs := t.regs, outbox := t.outbox, msix := t.msix }))) ∧
  (∀ (s : State) (p : Nat), ∃ t, exec (.nack p) s = .next t ∧
    t = { s with regs := t.regs, flowOut := t.flowOut, router := t.router } ∧ RegsKept s t [R.FBD_RESEND_CNT] ∧
    t.rd R.FBD_RESEND_CNT = satAdd32 (s.rd R.FBD_RESEND_CNT) (s.flow p).reqs.length ∧ (t.flow p).next = (s.flow p).next ∧
    (t.flow p).reqs.map (·.eseq) = (s.flow p).reqs.map (·.eseq) ∧
    (∀ q ∈ (t.flow p).reqs, bit q.m.flags 2 = true ∧ q.since = s.ft ∧ q.tries ≠ 0) ∧
    t.router.length = s.router.length + (s.flow p).reqs.length ∧ ∀ k, k ≠ p → t.flow k = s.flow k) ∧
  (∀ (s : State) (p : Nat), (s.flow p).reqs = [] → exec (.e2eTimeout p) s = .next s) ∧
  (∀ (s : State) (p : Nat) (q : OutReq) (l : List OutReq), (s.flow p).reqs = q :: l →
    (s.ft.toNat < q.since.toNat + s.rdF R.FBD_E2E_TMO 15 0 * 4000 → exec (.e2eTimeout p) s = .next s) ∧
    (q.since.toNat + s.rdF R.FBD_E2E_TMO 15 0 * 4000 ≤ s.ft.toNat → q.tries < s.rdF R.FBD_E2E_TRIES 3 0 →
      exec (.e2eTimeout p) s = exec (.nack p) s) ∧
    (q.since.toNat + s.rdF R.FBD_E2E_TMO 15 0 * 4000 ≤ s.ft.toNat → s.rdF R.FBD_E2E_TRIES 3 0 ≤ q.tries →
      (∀ h a o, q.why = .op h a → s.op? h = some o → o.code = 0 → ∃ t, exec (.e2eTimeout p) s = .next t ∧ t.mem = s.mem ∧
        t.op? h = some { o with code := 0x11, detail := 3, faultAddr := q.m.addr, faultCnt := satAdd32 o.faultCnt 1 } ∧
        ∀ k, k ≠ h → t.op? k = s.op? k) ∧
      (∀ x, q.why = .held x → x.op = none → x.rem = none → x.fresh < 2 ^ 64 →
        ∃ t, exec (.e2eTimeout p) s = .next t ∧ t.outbox = s.outbox ++ [.reply x.fresh 0x11 4 []] ∧ t.mem = s.mem)))

/-- Enabling a disabled slot whose definition and window are sound starts a new GEN: EN set, CSEQ 0, nothing running or queued, and
its window granted to the predecessor; an unsound definition, or no window, sets its bit of RED_ERR and leaves it disabled.
Disabling leaves the slot disabled, with nothing running or queued. DROP of a live position of another member starts a new GEN without it; where
fewer than 3 are live, after the 16th, or of this package itself it disables the slot; on a disabled slot it changes nothing but the write
count. ABORT ends the collective that runs. -/
def Obligations.FlockSlots : Prop :=
  (∀ (s : State) (w : Word32), bit w 31 = true → (s.flock (s.rdF R.RED_FLK_SEL 5 0)).on = false →
    let f := s.rdF R.RED_FLK_SEL 5 0
    let v : Flock := { s.flock f with ctl := (writeFields (fieldsAt R.RED_FLK_CTL) (s.flock f).ctl w).1 &&& ~~~(0x80000000#32) }
    let u := s.flockSet f v
    (u.flkDefOk v = false → ∃ t, exec (.flockEnable w) s = .next t ∧ t.flock f = v ∧ t.rdB R.RED_ERR 0 = true ∧
      t.rdB (R.INT_STAT 0xF2) 4 = true ∧ t.rdB (R.INT_STAT 0xF3) 4 = true ∧ t.router = s.router) ∧
    (u.flkDefOk v = true → u.flkWinOk f v = false → ∃ t, exec (.flockEnable w) s = .next t ∧ t.flock f = v ∧ t.rdB R.RED_ERR 1 = true) ∧
    (u.flkDefOk v = true → u.flkWinOk f v = true → ∃ t r, exec (.flockEnable w) s = .next t ∧
      t = { s with regs := t.regs, slots := t.slots, router := t.router } ∧ (t.flock f).on = true ∧
      (t.flock f).gen = (v.gen + 1) % 256 ∧ (t.flock f).cseq = 0 ∧ (t.flock f).run = none ∧ (t.flock f).queue = [] ∧
      (t.flock f).drops = [] ∧ (∀ k, k ≠ f → t.flock k = s.flock k) ∧ Map.get? t.router (Map.nextKey s.router) = some r ∧
      r.m.cls = 0x21 ∧ r.m.dest = t.flkPred (t.flock f) ∧
      r.m.body = flkBody ⟨f, (t.flock f).gen, 0, 0, v.winBytes, v.winBytes / 256⟩)) ∧
  (∀ (s : State) (w : Word32), bit w 31 = false →
    let f := s.rdF R.RED_FLK_SEL 5 0
    ((s.flock f).on = true → ∃ t, exec (.flockDisable w) s = .next t ∧ (t.flock f).on = false ∧ (t.flock f).run = none ∧
      (t.flock f).queue = [] ∧ (t.flock f).drops = [] ∧ (t.flock f).held = [] ∧ (t.flock f).grant = 0) ∧
    ((s.flock f).on = true → (s.flock f).run = none → (s.flock f).queue = [] → ∃ t, exec (.flockDisable w) s = .next t ∧
      t = { s with regs := t.regs, slots := t.slots } ∧ RegsKept s t [R.GEN_WR_CNT 0xF2, R.GEN_IGN_CNT 0xF2] ∧
      ∀ k, k ≠ f → t.flock k = s.flock k) ∧
    ((s.flock f).on = false → ∃ t, exec (.flockDisable w) s = .next t ∧ t = { s with regs := t.regs, slots := t.slots } ∧
      t.flock f = { s.flock f with ctl := (writeFields (fieldsAt R.RED_FLK_CTL) (s.flock f).ctl w).1 &&& ~~~(0x80000000#32) })) ∧
  (∀ (s : State),
    let f := s.rdF R.RED_FLK_SEL 5 0
    let q := s.rdF R.RED_FLK_DROP_POS 11 0
    let v := s.flock f
    (v.on = false → ∃ t, exec .drop s = .next t ∧ OnlyRegs s t [R.GEN_WR_CNT 0xF2]) ∧
    (v.on = true → (v.drops.contains q = true ∨ v.count ≤ q) → ∃ t, exec .drop s = .next t ∧
      t = { s with regs := t.regs, outbox := t.outbox, msix := t.msix } ∧ t.rdB R.RED_ERR 2 = true) ∧
    (v.on = true → v.drops.contains q = false → q < v.count → 3 ≤ v.live.length → v.drops.length ≠ 16 → s.flkAt v q ≠ s.srcField →
      ∃ t, exec .drop s = .next t ∧ (t.flock f).drops = v.drops ++ [q] ∧ (t.flock f).gen = (v.gen + 1) % 256 ∧ (t.flock f).cseq = 0 ∧
        (t.flock f).run = none ∧ (t.flock f).queue = [] ∧ (t.flock f).on = true ∧ t.rdB (R.INT_STAT (redPage f)) 2 = true) ∧
    (v.on = true → v.drops.contains q = false → q < v.count → (v.live.length < 3 ∨ v.drops.length = 16 ∨ s.flkAt v q = s.srcField) →
      ∃ t, exec .drop s = .next t ∧ (t.flock f).on = false ∧ (t.flock f).run = none ∧ (t.flock f).queue = [] ∧
        (v.live.length < 3 ∨ v.drops.length = 16 → t.rdB R.RED_ERR 2 = true)) ∧
    (v.run = none → ∃ t, exec .abort s = .next t ∧ OnlyRegs s t [R.GEN_WR_CNT 0xF2]) ∧
    (∀ c, v.run = some c → ∃ t, exec .abort s = .next t ∧ (t.flock f).run = none ∧ (t.flock f).queue = v.queue ∧
      t.rdB (R.INT_STAT (redPage f)) 3 = true))

/-- A ready collective whose record checks joins the queue of its flock with the slot's CSEQ, which advances by one, and changes nothing
else; one that does not check ends with the CODE the check gives; one already in a slot is left. COLLECTIVE_START takes the head of the
queue when nothing runs, begins to read its input, and once none of that is still to come from flash starts it: an ALL_GATHER member and a
BROADCAST's root put their own part into the output. Otherwise it changes nothing. -/
def Obligations.CollectiveOperators : Prop :=
  (∀ (s : State) (h opc : Nat) (o : RunOp) (c : Instr), OpIssued s h opc o →
    (c, opc) ∈ [(Instr.reduceScatter h, 0x0600), (.allGather h, 0x0601), (.allReduce h, 0x0602), (.broadcast h, 0x0603), (.send h, 0x0604),
      (.recv h, 0x0605)] →
    (s.collQueued h = true → exec c s = .next s) ∧
    (∀ e, s.collQueued h = false → s.collOf h o = .error e → e.left = none → ∃ t q, exec c s = .next t ∧
      t = { s with ops := t.ops, regs := t.regs } ∧ t.op? h = some q ∧ q.ran = true ∧ q.code = BitVec.ofNat 8 e.code ∧
      q.detail = BitVec.ofNat 8 e.detail ∧ ∀ k, k ≠ h → t.op? k = s.op? k) ∧
    (s.collQueued h = false → CmdRecF.unit o.cmd ≠ 5 → ∃ t, exec c s = .next t ∧ t = { s with ops := t.ops } ∧
      t.op? h = some { o with ran := true, code := 3, detail := 3, failUnit := 0 } ∧ ∀ k, k ≠ h → t.op? k = s.op? k) ∧
    (∀ f k, s.collQueued h = false → s.collOf h o = .ok (f, k) → f < 64 ∧ (s.flock f).on = true ∧ (s.flock f).owner = o.tenant ∧ k.op = h ∧
      k.opcode = opc ∧ k.cseq = (s.flock f).cseq ∧ k.n = (s.flock f).live.length ∧ k.pos = s.flkPos (s.flock f) ∧ k.sent = 0 ∧ k.exp = 0) ∧
    (∀ f k, s.collQueued h = false → s.collOf h o = .ok (f, k) →
      (k.reduces = true → s.pendExtents.length + (s.redExtents k).length ≤ 256 ∧ State.spansMeet (s.redExtents k) s.convDests = false) →
      (s.flock f).aborts.find? (fun a => a.1 == k.cseq) = none →
      ∃ t, exec c s = .next t ∧ t = { s with slots := t.slots } ∧
        t.flock f = { s.flock f with cseq := ((s.flock f).cseq + 1) % 2 ^ 32, queue := (s.flock f).queue ++ [k],
                                     aborts := (s.flock f).aborts.filter (fun a => a.1 != k.cseq) } ∧
        ∀ g, g ≠ f → t.flock g = s.flock g)) ∧
  (∀ (s : State) (f : Nat), ((s.flock f).run ≠ none ∨ (s.flock f).queue = []) → exec (.collectiveStart f) s = .next s) ∧
  (∀ (s u : State) (f : Nat) (c : Coll) (l : List Coll), (s.flock f).run = none → (s.flock f).queue = c :: l → u = s.collTouch c →
    (u.reading (.op c.op) = true → exec (.collectiveStart f) s = .next { u with pending := s.pending }) ∧
    (u.reading (.op c.op) = false → (s.flock f).held = [] → c.bad = false →
      (c.opcode = 0x0600 ∨ c.opcode = 0x0602 ∨ c.opcode = 0x0604 ∨ c.opcode = 0x0605 ∨ (c.opcode = 0x0603 ∧ c.pos ≠ c.root)) →
      ∃ t, exec (.collectiveStart f) s = .next t ∧ t = { u with slots := t.slots, pending := s.pending } ∧
        t.flock f = { s.flock f with run := some { c with lastRx := s.ft }, queue := l } ∧ ∀ g, g ≠ f → t.flock g = s.flock g)) ∧
  (∀ (s u w : State) (f : Nat) (c k : Coll) (l : List Coll) (d : StreamDesc), (s.flock f).run = none → (s.flock f).queue = c :: l →
    (s.flock f).held = [] → c.bad = false → c.input = some d → (s.collTouch c).reading (.op c.op) = false →
    (c.opcode = 0x0601 ∨ (c.opcode = 0x0603 ∧ c.pos = c.root)) → k = { c with lastRx := s.ft } →
    u = (s.collTouch c).flockSet f { s.flock f with run := some k, queue := l } →
    (if c.opcode = 0x0601 then c.seg c.pos else List.range c.nchunk).foldl (fun (a : Except Err State) j => match a with
        | .error e => .error e
        | .ok x => (x.opFlags c.op (x.inputNi k (k.inElem (k.lo j)) (k.len j))).outPut k (x.elemsBad (some d) (k.inElem (k.lo j)) (k.len j)) k.wire
            (k.lo j) (x.codesAt d (k.inElem (k.lo j)) (k.len j))) (.ok u) = .ok w →
    ∃ t, exec (.collectiveStart f) s = .next t ∧ t = { w with slots := t.slots, pending := s.pending } ∧
      t.flock f = { s.flock f with run := some k, queue := l } ∧ ∀ g, g ≠ f → t.flock g = s.flock g)

/-- CHUNK_SEND sends the next entry of the send list to the successor when its data can be had, the grant covers it and it is the slot's turn,
and takes its space off the grant (that every sending does so: log entry 27); with too little granted, or out of turn, it changes nothing; with a
window too small for it the collective ends. CHUNK runs R266's tests in order: a disabled slot (log entry 28), another owner or an old GEN is
stale; a later GEN, or the next CSEQ, is held; another sender, another SIG or a CSEQ further on is TAG_MISMATCH; an earlier CSEQ or SIDX is stale
and its space returned; a later SIDX is stale too and NACKed once; the one expected is consumed and acknowledged. CHUNK_CTL
from the successor adds its grant and advances what is acknowledged, and one for a later GEN is held; CHUNK_NACK goes back. COLL_ABORT ends the
collective and is forwarded. The timeouts go back, or end it with FLOCK. COLLECTIVE_COMPLETE ends the operator and
frees the slot. -/
def Obligations.Chunks : Prop :=
  (∀ (s : State) (f : Nat) (c : Coll) (e : SendEnt) (data carry : List Byte) (fl : NumFlags) (k : Nat), (s.flock f).run = some c →
    c.sends[c.sent]? = some e → s.chunkData c e = some (data, carry, fl, k) →
    ((s.flock f).succWin ≠ 0 → (s.flock f).succWin * 256 < chunkSpace data.length →
      ∃ t, exec (.chunkSend f) s = .next t ∧ (t.flock f).run = none) ∧
    ((s.flock f).succWin = 0 ∨ chunkSpace data.length ≤ (s.flock f).succWin * 256 →
      ((s.flock f).grant < chunkSpace data.length ∨ s.chunkTurn f = false) → exec (.chunkSend f) s = .next s) ∧
    ((s.flock f).succWin = 0 ∨ chunkSpace data.length ≤ (s.flock f).succWin * 256 → s.chunkTurn f = true →
      chunkSpace data.length ≤ (s.flock f).grant → carry = [] → ∃ t r, exec (.chunkSend f) s = .next t ∧
      t = { s with regs := t.regs, ops := t.ops, slots := t.slots, router := t.router, collTurn := t.collTurn } ∧
      t.flock f = { s.flock f with grant := (s.flock f).grant - chunkSpace data.length, run := (t.flock f).run } ∧
      (t.flock f).run = some { c with sent := c.sent + 1, maxSent := max c.maxSent (c.sent + 1), sentAt := c.sentAt ++ [s.ft] } ∧
      (∀ g, g ≠ f → t.flock g = s.flock g) ∧
      t.rd (R.RED_TX_CHUNK_CNT (f % 2)) = satAdd32 (s.rd (R.RED_TX_CHUNK_CNT (f % 2))) 1 ∧
      Map.get? t.router (Map.nextKey s.router) = some r ∧ r.m.cls = 0x20 ∧ r.m.vc = 1 ∧ r.m.dest = s.flkSucc (s.flock f) ∧
      r.m.own = (s.flock f).owner ∧ r.m.body.drop 56 = data ∧
      r.m.body.take 12 = leBytes 1 (f + (if c.sent < c.maxSent then 64 else 0) + (if e.ag then 128 else 0)) ++ leBytes 1 (s.flock f).gen ++
        leBytes 2 e.step ++ leBytes 4 c.cseq ++ leBytes 4 c.sig.toNat)) ∧
  (∀ (s : State) (f : Nat), ((s.flock f).run = none ∨ ∃ c, (s.flock f).run = some c ∧ c.sends.length ≤ c.sent) →
    exec (.chunkSend f) s = .next s) ∧
  (∀ (s : State) (src own : Nat) (ch : Chunk),
    let v := s.flock ch.slot
    let d := (ch.gen + 256 - v.gen) % 256
    ((v.on = false ∨ own ≠ v.owner ∨ 128 ≤ d) → ∃ t, exec (.chunk src own ch) s = .next t ∧ OnlyRegs s t [R.RED_STALE_CNT] ∧
      t.rd R.RED_STALE_CNT = satAdd32 (s.rd R.RED_STALE_CNT) 1) ∧
    (v.on = true → own = v.owner → bit v.win 31 = false →
      (0 < d → d < 128 → ∃ t, exec (.chunk src own ch) s = .next t ∧ t = { s with slots := t.slots } ∧
        t.flock ch.slot = { v with held := v.held ++ [(src, own, ch)] }) ∧
      (d = 0 → src ≠ s.flkPred v → ∃ t, exec (.chunk src own ch) s = .next t ∧ TagEnded s t ch.slot 3 (State.flkCur v)) ∧
      (∀ c, d = 0 → src = s.flkPred v → v.run = some c →
        (ch.cseq < c.cseq → ∃ t r, exec (.chunk src own ch) s = .next t ∧ t = { s with regs := t.regs, router := t.router } ∧
          t.rd R.RED_STALE_CNT = satAdd32 (s.rd R.RED_STALE_CNT) 1 ∧ Map.get? t.router (Map.nextKey s.router) = some r ∧ r.m.cls = 0x21 ∧
          r.m.body = flkBody ⟨ch.slot, v.gen, ch.cseq, 0xFFFFFFFF, chunkSpace ch.data.length, v.winBytes / 256⟩) ∧
        (ch.cseq = c.cseq + 1 → ∃ t, exec (.chunk src own ch) s = .next t ∧ t = { s with slots := t.slots } ∧
          t.flock ch.slot = { v with held := v.held ++ [(src, own, ch)] }) ∧
        (c.cseq + 1 < ch.cseq → ∃ t, exec (.chunk src own ch) s = .next t ∧ TagEnded s t ch.slot 2 c.cseq) ∧
        (ch.cseq = c.cseq → ch.sig ≠ c.sig → ∃ t, exec (.chunk src own ch) s = .next t ∧ TagEnded s t ch.slot 1 c.cseq) ∧
        (ch.cseq = c.cseq → ch.sig = c.sig → ch.sidx < c.exp → ∃ t r, exec (.chunk src own ch) s = .next t ∧
          t = { s with regs := t.regs, router := t.router } ∧ RegsKept s t [R.RED_STALE_CNT] ∧
          t.rd R.RED_STALE_CNT = satAdd32 (s.rd R.RED_STALE_CNT) 1 ∧ Map.get? t.router (Map.nextKey s.router) = some r ∧ r.m.cls = 0x21 ∧
          r.m.body = flkBody ⟨ch.slot, v.gen, c.cseq, c.ackNo, chunkSpace ch.data.length, v.winBytes / 256⟩) ∧
        (ch.cseq = c.cseq → ch.sig = c.sig → c.exp < ch.sidx → v.nackAt = none → ∃ t, exec (.chunk src own ch) s = .next t ∧
          t = { s with regs := t.regs, slots := t.slots, router := t.router } ∧ t.flock ch.slot = { v with nackAt := some s.ft } ∧
          t.rd R.RED_NACK_CNT = satAdd32 (s.rd R.RED_NACK_CNT) 1 ∧ t.rd R.RED_STALE_CNT = satAdd32 (s.rd R.RED_STALE_CNT) 1 ∧
          ∃ k r, Map.get? t.router k = some r ∧ r.m.cls = 0x22 ∧ r.m.dest = src ∧
            r.m.body = flkBody ⟨ch.slot, v.gen, c.cseq, c.exp, 0, 0⟩) ∧
        (∀ u, ch.cseq = c.cseq → ch.sig = c.sig → ch.sidx = c.exp →
          (s.bump (R.RED_RX_CHUNK_CNT (ch.slot % 2))).chunkOut c ch (c.fwdOf ⟨ch.step, ch.idx, ch.ag⟩) = .ok u → u.slots = s.slots →
          ∃ t k, exec (.chunk src own ch) s = .next t ∧ t = { u with slots := t.slots, router := t.router, pending := s.pending } ∧
            (t.flock ch.slot).run = some k ∧ k.exp = c.exp + 1 ∧ k.acked = c.acked ∧ k.sent = c.sent ∧ (t.flock ch.slot).nackAt = none ∧
            ∃ n r, Map.get? t.router n = some r ∧ r.m.cls = 0x21 ∧ r.m.dest = s.flkPred v) ∧
        (∀ e, ch.cseq = c.cseq → ch.sig = c.sig → ch.sidx = c.exp →
          (s.bump (R.RED_RX_CHUNK_CNT (ch.slot % 2))).chunkOut c ch (c.fwdOf ⟨ch.step, ch.idx, ch.ag⟩) = .error e → e.left = none →
          ∃ t, exec (.chunk src own ch) s = .next t ∧ (t.flock ch.slot).run = none) ∧
        (∀ k, ch.cseq = c.cseq → ch.sig = c.sig → ch.sidx = c.exp → c.reduces = true → ch.ag = false → ch.bad = false →
          c.fwdOf ⟨ch.step, ch.idx, ch.ag⟩ = some k → c.acked ≤ k → ∃ t, exec (.chunk src own ch) s = .next t ∧
          t = { s with regs := t.regs, slots := t.slots, router := t.router } ∧
          t.flock ch.slot = { v with nackAt := none,
                                     run := some { c with exp := c.exp + 1, lastRx := s.ft, rx := c.rx ++ [⟨ch, some k⟩] } } ∧
          t.rd (R.RED_RX_CHUNK_CNT (ch.slot % 2)) = satAdd32 (s.rd (R.RED_RX_CHUNK_CNT (ch.slot % 2))) 1)))) ∧
  (∀ (s : State) (src own : Nat) (m : FlkMsg) (c : Coll),
    let v := s.flock m.slot
    let a := if m.a = 0xFFFFFFFF then c.sends.length else min m.a c.maxSent
    v.on = true → own = v.owner → m.gen = v.gen → m.gen < 256 → src = s.flkSucc v → v.run = some c → c.cseq = m.cseq →
    ∃ t, exec (.chunkCtl src own m) s = .next t ∧ (t.flock m.slot).grant = v.grant + m.b ∧ (t.flock m.slot).succWin = m.c ∧
      t = { s with slots := t.slots, router := t.router } ∧
      (a ≤ c.acked → (t.flock m.slot).run = some { c with lastRx := s.ft } ∧ t.router = s.router) ∧
      (c.acked < a → ∃ k, (t.flock m.slot).run = some k ∧ k.acked = a ∧ k.sent = max c.sent a ∧ k.exp = c.exp ∧ k.lastRx = s.ft)) ∧
  (∀ (s : State) (src own : Nat) (m : FlkMsg),
    let d := (m.gen + 256 - (s.flock m.slot).gen) % 256
    ((s.flock m.slot).on = true → own = (s.flock m.slot).owner) → 1 ≤ d → d ≤ 127 → ∃ t, exec (.chunkCtl src own m) s = .next t ∧
      t = { s with slots := t.slots } ∧ t.flock m.slot = { s.flock m.slot with ctlHeld := (s.flock m.slot).ctlHeld ++ [(src, own, m)] } ∧
      ∀ g, g ≠ m.slot → t.flock g = s.flock g) ∧
  (∀ (s : State) (src own : Nat) (m : FlkMsg), (s.flock m.slot).on = true → own = (s.flock m.slot).owner → m.gen = (s.flock m.slot).gen →
    m.gen < 256 → src ≠ s.flkSucc (s.flock m.slot) → exec (.chunkCtl src own m) s = .next s) ∧
  (∀ (s : State) (src own : Nat) (m : FlkMsg) (c : Coll), (s.flock m.slot).run = some c → (s.flock m.slot).on = true →
    own = (s.flock m.slot).owner → m.gen = (s.flock m.slot).gen → src = s.flkSucc (s.flock m.slot) → c.cseq = m.cseq →
    (c.acked ≤ m.a → m.a ≤ c.sent → ∃ t, exec (.chunkNack src own m) s = .next t ∧ t = { s with slots := t.slots } ∧
      t.flock m.slot = { s.flock m.slot with run := some { c with sent := m.a, sentAt := c.sentAt.take (m.a - c.acked) } }) ∧
    ((m.a < c.acked ∨ c.sent < m.a) → exec (.chunkNack src own m) s = .next s)) ∧
  (∀ (s : State) (src own : Nat) (m : FlkMsg),
    let v := s.flock m.slot
    ((v.on = false ∨ own ≠ v.owner ∨ m.gen ≠ v.gen ∨ src ≠ s.flkPred v ∨ m.b % 4096 = s.flkPos v) →
      exec (.collAbort src own m) s = .next s) ∧
    (v.on = true → own = v.owner → m.gen = v.gen → src = s.flkPred v → m.b % 4096 ≠ s.flkPos v →
      (∀ c, v.run = some c → c.cseq = m.cseq → ∃ t, exec (.collAbort src own m) s = .next t ∧ (t.flock m.slot).run = none ∧
        t.rdB (R.INT_STAT (redPage m.slot)) 3 = true ∧ ∃ k r, Map.get? t.router k = some r ∧ r.m.cls = 0x23 ∧ r.m.body = flkBody m) ∧
      (v.run = none → v.queue = [] → v.cseq ≤ m.cseq → ∃ t r, exec (.collAbort src own m) s = .next t ∧
        t = { s with slots := t.slots, router := t.router } ∧ t.flock m.slot = { v with aborts := v.aborts ++ [(m.cseq, m.b % 4096)] } ∧
        Map.get? t.router (Map.nextKey s.router) = some r ∧ r.m.cls = 0x23 ∧ r.m.body = flkBody m))) ∧
  (∀ (s : State) (f : Nat) (c : Coll), (s.flock f).run = some c →
    (∀ w l, c.sentAt = w :: l → w.toNat + s.rdF R.FBD_E2E_TMO 15 0 * 4000 ≤ s.ft.toNat → ∃ t, exec (.chunkAckTimeout f) s = .next t ∧
      t = { s with slots := t.slots } ∧ t.flock f = { s.flock f with run := some { c with sent := c.acked, sentAt := [] } }) ∧
    (c.sentAt = [] → exec (.chunkAckTimeout f) s = .next s) ∧
    (c.lastRx.toNat + s.rdF R.RED_PROG_TMO 19 0 * 4000 ≤ s.ft.toNat → ∃ t, exec (.progTimeout f) s = .next t ∧ (t.flock f).run = none ∧
      t.rdB (R.INT_STAT (redPage f)) 1 = true ∧ t.rdB (R.INT_STAT (redPage f)) 3 = true) ∧
    (s.ft.toNat < c.lastRx.toNat + s.rdF R.RED_PROG_TMO 19 0 * 4000 → exec (.progTimeout f) s = .next s) ∧
    ((c.acked < c.sends.length ∨ c.exp < c.recvs.length ∨ s.opWaits c.op = true) → ∃ t, exec (.collectiveComplete f) s = .next t ∧
      t = { s with slots := t.slots, router := t.router } ∧ (c.rx = [] → t = s) ∧
      (t.flock f).run = some { c with rx := ((t.flock f).run.getD c).rx } ∧ (∀ r ∈ ((t.flock f).run.getD c).rx, r ∈ c.rx) ∧
      ∀ r ∈ c.rx, c.acked ≤ r.fwd.getD c.acked → (r.fwd = none → s.opWaits c.op = true) → r ∈ ((t.flock f).run.getD c).rx) ∧
    (∀ o, c.sends.length ≤ c.acked → c.recvs.length ≤ c.exp → s.opWaits c.op = false → c.rx = [] → s.op? c.op = some o → s.commits = [] →
      ∃ t, exec (.collectiveComplete f) s = .next t ∧ t = { s with ops := t.ops, slots := t.slots } ∧
        t.op? c.op = some { o with ran := true } ∧
        t.flock f = { s.flock f with run := none, nackAt := none, last := some (c.cseq, { o with ran := true }),
                                     lastOk := if o.code = 0 then BitVec.ofNat 32 c.cseq else (s.flock f).lastOk }))

/-- VERIFY_STEP of a ready operator with no step under way starts the step its record checks to and runs it until it waits, ends with the
CODE of the check, waits for a resumed request's PREFETCH, or, where its pages are lost, ends with GEN DETAIL 0x03 and the request FAILED; a
follower's record, checked, waits at its mailbox. STOP and PARK of a request in REPLY commit what was accepted and leave it ENDED or PARKED, and
the operator has run. EXCHANGE_SUM leaves a step whose counter has not come as it is, and otherwise runs it on; a lead whose remote write has
ended with REMOTE ends with GEN DETAIL 0x07 and writes STATE = 2 to the members it can reach. FOLLOWER_STEP ends
the follower on STATE 1 or 2, and starts its part on a new STEP, but not while a turnover holds it. FOLLOWER_IDLE_TIMEOUT ends it with GEN
DETAIL 0x04. REPLY_TIMEOUT ends a request in REPLY after 1 s. KV_SPILL does nothing at or above the watermark. -/
def Obligations.GenerationCommands : Prop :=
  (∀ (s : State) (h : Nat) (o : RunOp), OpReady s h 0x0203 o →
    ((Map.get? s.gsteps h).isSome = true → exec (.verifyStep h) s = .next s) ∧
    (Map.get? s.gsteps h = none → s.resumeWait o = 1 → exec (.verifyStep h) s = .next s) ∧
    (∀ q, Map.get? s.gsteps h = none → s.resumeWait o = 2 → s.req? (CmdRecF.reqId o.cmd) = some q →
      ∃ t, exec (.verifyStep h) s = .next t ∧ t = { s with ops := t.ops, reqs := t.reqs, freed := t.freed } ∧
        t.op? h = some { o with ran := true, code := 0x15, detail := 3 } ∧ t.req? (CmdRecF.reqId o.cmd) = some { q with st := 6 } ∧
        (∀ k, k ≠ h → t.op? k = s.op? k) ∧ ∀ k, k ≠ CmdRecF.reqId o.cmd → t.req? k = s.req? k) ∧
    (∀ e, Map.get? s.gsteps h = none → s.resumeWait o = 0 →
      (if o.cmd.w1.toNat.testBit 19 then s.verifyFollow h o else s.verifyLead h o) = .error e →
      e.left = none →
      ∃ t q, exec (.verifyStep h) s = .next t ∧ t = { s with ops := t.ops, regs := t.regs } ∧ t.op? h = some q ∧ q.ran = true ∧
        q.code = BitVec.ofNat 8 e.code ∧ q.detail = BitVec.ofNat 8 e.detail ∧ ∀ k, k ≠ h → t.op? k = s.op? k) ∧
    (∀ u, Map.get? s.gsteps h = none → s.resumeWait o = 0 →
      (if o.cmd.w1.toNat.testBit 19 then s.verifyFollow h o else s.verifyLead h o) = .ok u →
      exec (.verifyStep h) s = .next { u.genGo h with pending := s.pending }) ∧
    (∀ q m, Map.get? s.gsteps h = none → CmdRecF.reqV o.cmd = true → bit o.cmd.w1 16 = false →
      (bit o.cmd.w1 17 = true ∨ bit o.cmd.w1 18 = true) → fld o.cmd.w1 63 19 = 0 → fld o.cmd.w1 15 13 = 0 → fld o.cmd.w1 7 5 = 0 →
      o.cmd.w2 = 0 → o.cmd.w3 = 0 → o.cmd.w4 = 0 → o.cmd.w5 = 0 → o.cmd.w6 = 0 → s.genModel o.tenant o.cmd.w0.toNat = .ok m →
      s.modelCheck o.tenant m = .ok () → m.rank = 0 → (bit o.cmd.w1 17 = true → m.g = 1 ∧ Map.get? s.remTodo h = none) →
      s.req? (CmdRecF.reqId o.cmd) = some q → q.st = 3 → fld o.cmd.w1 12 8 < q.pend →
      ∃ t, exec (.verifyStep h) s = .next t ∧ t = { s with ops := t.ops, reqs := t.reqs, freed := t.freed, gsteps := t.gsteps } ∧
        t.op? h = some { o with ran := true } ∧
        t.req? (CmdRecF.reqId o.cmd) = some { q with
          len := q.len + fld o.cmd.w1 12 8 + 1, tokens := q.tokens + BitVec.ofNat 64 (fld o.cmd.w1 12 8 + 1), pend := 0
          st := if bit o.cmd.w1 17 then 5 else 4, parkFt := if bit o.cmd.w1 17 then q.parkFt else s.ft } ∧
        (∀ k, k ≠ h → t.op? k = s.op? k) ∧ ∀ k, k ≠ CmdRecF.reqId o.cmd → t.req? k = s.req? k) ∧
    (∀ m, Map.get? s.gsteps h = none → CmdRecF.reqV o.cmd = false → o.cmd.w1.toNat.testBit 19 = true → fld o.cmd.w1 63 21 = 0 →
      o.cmd.w3 ≠ 0 → fld o.cmd.w3 63 16 = 0 → o.cmd.w4 = 0 → o.cmd.w5 = 0 → o.cmd.w6 = 0 → s.genModel o.tenant o.cmd.w0.toNat = .ok m →
      s.modelCheck o.tenant m = .ok () →
      ∃ t g, exec (.verifyStep h) s = .next t ∧ t = { s with gsteps := t.gsteps } ∧ Map.get? t.gsteps h = some g ∧ g.follow = true ∧
        g.phase = 8 ∧ g.idleMs = fld o.cmd.w3 15 0 ∧ g.at_ = s.ft ∧ ∀ k, k ≠ h → Map.get? t.gsteps k = Map.get? s.gsteps k)) ∧
  (∀ (s : State) (h : Nat) (g : GStep) (o : RunOp) (m : GenModel) (l : GenLayer), Map.get? s.gsteps h = some g → s.op? h = some o →
    (∀ u, o.code = 0x11 → g.follow = false → o.ran = false → u = s.opSet h { o with code := 0x15, detail := 7, ran := true } →
      u.genModel g.who g.model = .ok m →
      exec (.exchangeSum h) s = .next { u.tellState h { o with code := 0x15, detail := 7, ran := true } m 2 with pending := s.pending } ∧
      (Map.get? s.remTodo h = none → (∀ c, c < m.g → c ≠ m.rank → u.targetOk (m.group.getD c 0) = false) →
        ∃ t, exec (.exchangeSum h) s = .next t ∧ t = { s with ops := t.ops } ∧
          t.op? h = some { o with code := 0x15, detail := 7, ran := true } ∧ ∀ k, k ≠ h → t.op? k = s.op? k)) ∧
    (o.code ≠ 0x11 → exec (.exchangeSum h) s = .next { s.genGo h with pending := s.pending }) ∧
    (g.read = true → o.code = 0 → o.ran = false → s.genModel g.who g.model = .ok m → m.layers[g.layer]? = some l → g.phase = 2 →
      s.ctrVal m (g.layer % 2) < g.base.getD (g.layer % 2) 0 + m.g → exec (.exchangeSum h) s = .next s)) ∧
  (∀ (s : State) (h : Nat), (Map.get? s.gsteps h = none ∨ s.op? h = none) →
    exec (.exchangeSum h) s = .next s ∧ exec (.followerStep h) s = .next s ∧ exec (.followerIdleTimeout h) s = .next s) ∧
  (∀ (s : State) (h : Nat) (g : GStep) (o : RunOp) (m : GenModel), Map.get? s.gsteps h = some g → s.op? h = some o → g.follow = true →
    g.phase = 8 → o.code = 0 → o.ran = false → s.genModel g.who g.model = .ok m →
    let st := leNat (((s.bytesAt m.exch 0x80).drop 8).take 4)
    let step := leNat ((s.bytesAt m.exch 0x80).take 8)
    (st = 1 → ∃ t, exec (.followerStep h) s = .next t ∧ t = { s with ops := t.ops, gsteps := t.gsteps } ∧
      t.op? h = some { o with ran := true } ∧ Map.get? t.gsteps h = some { g with phase := 9 } ∧
      ∀ k, k ≠ h → t.op? k = s.op? k ∧ Map.get? t.gsteps k = Map.get? s.gsteps k) ∧
    (st = 2 → ∃ t, exec (.followerStep h) s = .next t ∧ t = { s with ops := t.ops, gsteps := t.gsteps } ∧
      t.op? h = some { o with ran := true, code := 0x15, detail := 4 } ∧ Map.get? t.gsteps h = some { g with phase := 9 } ∧
      ∀ k, k ≠ h → t.op? k = s.op? k ∧ Map.get? t.gsteps k = Map.get? s.gsteps k) ∧
    (st ≠ 1 → st ≠ 2 → step = g.seen → exec (.followerStep h) s = .next s) ∧
    (∀ w, st ≠ 1 → st ≠ 2 → s.turn = some w → w.turnFt.toNat + w.swapDelay * 4000 ≤ s.ft.toNat → exec (.followerStep h) s = .next s) ∧
    (∀ u, st ≠ 1 → st ≠ 2 → step ≠ g.seen → s.turn = none →
      (s.opSet h { o with version := s.genVersion }).passStart h g.who m { g with seen := step, at_ := s.ft }
        ((List.range (min (leNat (((s.bytesAt m.exch 0x80).drop 0x78).take 4) % 2 ^ 31) 16)).map
          (fun i => d32 (s.bytesAt m.exch 0x80) (0x38 + 4 * i)))
        (leNat (((s.bytesAt m.exch 0x80).drop 0x7C).take 4)) (decide (2 ^ 31 ≤ leNat (((s.bytesAt m.exch 0x80).drop 0x78).take 4))) = .ok u →
      exec (.followerStep h) s = .next { u.genGo h with pending := s.pending })) ∧
  (∀ (s : State) (h : Nat) (g : GStep) (o : RunOp) (m : GenModel), Map.get? s.gsteps h = some g → s.op? h = some o →
    s.genModel g.who g.model = .ok m →
    (g.follow = true → g.phase = 8 → o.code = 0 → o.ran = false → g.at_.toNat + g.idleMs * 4000000 ≤ s.ft.toNat →
      leNat (s.bytesAt m.exch 8) = g.seen →
      ∃ t, exec (.followerIdleTimeout h) s = .next t ∧ t = { s with ops := t.ops, gsteps := t.gsteps } ∧
        t.op? h = some { o with ran := true, code := 0x15, detail := 4 } ∧ Map.get? t.gsteps h = some { g with phase := 9 } ∧
        ∀ k, k ≠ h → t.op? k = s.op? k ∧ Map.get? t.gsteps k = Map.get? s.gsteps k) ∧
    ((s.ft.toNat < g.at_.toNat + g.idleMs * 4000000 ∨ leNat (s.bytesAt m.exch 8) ≠ g.seen) →
      exec (.followerIdleTimeout h) s = .next s)) ∧
  (∀ (s : State) (r : Nat) (q : Req), s.req? r = some q →
    (q.st = 3 → q.lastFt.toNat + 4000000000 ≤ s.ft.toNat →
      s.ops.any (fun p => p.2.cmd.opcode == 0x0203 && (s.requestsOf p.2.cmd).contains r) = false →
      ∃ t, exec (.replyTimeout r) s = .next t ∧ t = { s with reqs := t.reqs, freed := t.freed } ∧ t.req? r = some { q with st := 5 } ∧
        ∀ k, k ≠ r → t.req? k = s.req? k) ∧
    ((q.st ≠ 3 ∨ s.ft.toNat < q.lastFt.toNat + 4000000000) → exec (.replyTimeout r) s = .next s)) ∧
  (∀ (s : State) (n : Nat), n < 64 →
    (s.rdF (R.ADM_KV_SPILL_LOW n) 24 0 ≤ s.dFree n → exec (.kvSpill n) s = .next s) ∧
    ((∀ p ∈ s.reqs, p.2.tenant = n → p.2.st ≠ 4) → exec (.kvSpill n) s = .next s) ∧
    (∀ r q a b, s.reqs = [(r, q)] → q.tenant = n → q.st = 4 → s.spillBlocks q = [[a], [b]] →
      s.dFree n + s.leaving n < s.rdF (R.ADM_KV_SPILL_LOW n) 24 0 → (s.tile a).st = .dram → s.ms.asks = [] → Map.get? s.ms.moves a = none →
      ∃ t, exec (.kvSpill n) s = .next t ∧ (t.tile a).pin = false ∧ t.ms.asks.contains ⟨a, .demote, .flash, false⟩ = true ∧
        t.mem = s.mem ∧ t.reqs = s.reqs))

/-- Each operator of the update sweep and of the matrix function unit runs by its effect once its MFUs take operators, with its record's
unused fields 0, and is then marked as run, or ends with the CODE its check gives and no write. While HOLD is set on an MFU it uses,
nothing changes; a record with an unused field set ends with CODE 3 DETAIL 3. A SWEEP waits, changing nothing, while a SEND of its tenant
reads PUB of the same commit block. -/
def Obligations.LearningOperators : Prop :=
  (∀ h, RunsWhen (.sumsq h) h 0x0500 (mapReads gradReads) (SweepRec 0) (State.sumsqFx h)) ∧
  (∀ h, RunsWhen (.sweep h) h 0x0500 (mapReads (fun hs _ o => (o.cmd.w3.toNat, 64) :: hs.flatMap (·.sweepReads)))
    (fun s o => SweepRec 1 s o ∧ ∀ e ∈ s.convs, e.2.d.send = false) (State.sweepFx h)) ∧
  (∀ h, RunsWhen (.apply h) h 0x0500 (mapReads (fun hs t o => State.applyReads hs t o)) (SweepRec 3) (State.applyFx h)) ∧
  (∀ h, RunsWhen (.nsOrtho h) h 0x0501 noReads (fun s o => s.mfuHeld o = false) (State.nsOrthoFx h)) ∧
  (∀ h, RunsWhen (.kronPrecond h) h 0x0502 noReads (fun s o => s.mfuHeld o = false) (State.kronFx h)) ∧
  (∀ (s : State) (h opc : Nat) (o : RunOp) (c : Instr), OpReady s h opc o → s.mfuHeld o = true →
    (c, opc) ∈ [(Instr.sumsq h, 0x0500), (.sweep h, 0x0500), (.apply h, 0x0500), (.nsOrtho h, 0x0501), (.kronPrecond h, 0x0502)] →
    exec c s = .next s) ∧
  (∀ (s : State) (h : Nat) (o : RunOp) (c : Instr), OpReady s h 0x0500 o → s.mfuHeld o = false → s.convs = [] → o.touched = true →
    s.reading (.op h) = false →
    (c, State.sweepMode o.cmd) ∈ [(Instr.sumsq h, 0), (.sweep h, 1), (.apply h, 3)] →
    (fld o.cmd.w1 7 3 ≠ 0 ∨ fld o.cmd.w1 63 9 ≠ 0 ∨ o.cmd.w6 ≠ 0 ∨ (State.sweepMode o.cmd ≠ 1 ∧ o.cmd.w7 ≠ 0) ∨ (State.sweepMode o.cmd < 2 ∧ bit o.cmd.w1 8 = true)) →
    ∃ t, exec c s = .next t ∧ t = { s with ops := t.ops } ∧ t.op? h = some { o with ran := true, code := 3, detail := 3, failUnit := 0 } ∧
      ∀ k, k ≠ h → t.op? k = s.op? k) ∧
  (∀ (s : State) (h : Nat) (o : RunOp) (e : Nat × ConvRun), OpReady s h 0x0500 o → e ∈ s.convs → e.2.d.send = true →
    e.2.d.commit = o.cmd.w3.toNat → (s.op? e.1).any (fun x => x.tenant == o.tenant) = true → exec (.sweep h) s = .next s)

/-- A COMMIT or RESOLVE whose commit block is BUSY changes nothing. A COMMIT takes BUSY, moves an IDLE or SWEPT block to VOTED, and starts the
first round with 1.0 exactly when the block is SWEPT with the epoch pending, finite, and not told to roll back; otherwise with 0. RESOLVE starts
its round with the value of the block's state, 3.0, 2.0 or 1.0, where the state allows it, and otherwise ends with EPOCH DETAIL 0x02. A record
that does not check ends with the CODE of the check. -/
def Obligations.CommitOperators : Prop :=
  (∀ (s : State) (h : Nat) (o : RunOp) (c : Instr), OpReady s h 0x0503 o → Map.get? s.commits h = none →
    (c, fld o.cmd.w3 2 1) ∈ [(Instr.commit h, 0), (.resolve h, 1)] →
    (∀ e, s.commitOf o = .error e → e.left = none → ∃ t q, exec c s = .next t ∧ t = { s with ops := t.ops, regs := t.regs } ∧
      t.op? h = some q ∧ q.ran = true ∧ q.code = BitVec.ofNat 8 e.code ∧ q.detail = BitVec.ofNat 8 e.detail ∧
      ∀ k, k ≠ h → t.op? k = s.op? k) ∧
    (∀ r, s.commitOf o = .ok r → s.cbFlag r.cb 7 = true → exec c s = .next s)) ∧
  (∀ (s : State) (h : Nat) (o : RunOp) (r : CommitRun), OpReady s h 0x0503 o → Map.get? s.commits h = none → s.commitOf o = .ok r →
    s.cbFlag r.cb 7 = false → r.resolve = false → fld o.cmd.w3 2 1 = 0 →
    (r.t = s.cbCommitted r.cb + 1 → s.cbState r.cb = cbSwept → s.cbPending r.cb = r.t → s.cbFlag r.cb 0 = false → bit o.cmd.w3 0 = false →
      exec (.commit h) s = .next { ((s.cbTake h o.tenant r.cb 0).cbTo o.tenant r.cb cbVoted).commitRound h o.tenant 0x3F800000
        { r with err := 0, moves := true } with pending := s.pending }) ∧
    (r.t = s.cbCommitted r.cb + 1 → s.cbState r.cb = cbSwept → (s.cbPending r.cb ≠ r.t ∨ s.cbFlag r.cb 0 = true ∨ bit o.cmd.w3 0 = true) →
      exec (.commit h) s = .next { ((s.cbTake h o.tenant r.cb 0).cbTo o.tenant r.cb cbVoted).commitRound h o.tenant 0
        { r with err := 0, moves := true } with pending := s.pending }) ∧
    (r.t = s.cbCommitted r.cb + 1 → s.cbState r.cb ≠ cbIdle → s.cbState r.cb ≠ cbSwept →
      exec (.commit h) s = .next { (s.cbTake h o.tenant r.cb 0).commitRound h o.tenant 0 { r with err := 2, moves := false } with pending := s.pending })) ∧
  (∀ (s : State) (h : Nat) (o : RunOp) (r : CommitRun), OpReady s h 0x0503 o → Map.get? s.commits h = none → s.commitOf o = .ok r →
    s.cbFlag r.cb 7 = false → r.resolve = true → fld o.cmd.w3 2 1 = 1 →
    (∀ v, ((s.cbState r.cb = cbAcked ∨ (s.cbState r.cb = cbIdle ∧ s.cbCommitted r.cb = r.t)) ∧ v = 0x40400000) ∨
        (s.cbState r.cb = cbDoubtD ∧ v = 0x40000000) ∨
        ((s.cbState r.cb = cbDoubtV ∨ (s.cbState r.cb = cbIdle ∧ s.cbCommitted r.cb + 1 = r.t)) ∧ v = 0x3F800000) →
      exec (.resolve h) s = .next { (s.cbTake h o.tenant r.cb 0).commitRound h o.tenant v r with pending := s.pending }) ∧
    ((s.cbState r.cb = cbSwept ∨ s.cbState r.cb = cbVoted ∨ s.cbState r.cb = cbDecided) →
      ∃ t, exec (.resolve h) s = .next t ∧ t = { s with ops := t.ops } ∧ t.op? h = some { o with ran := true, code := 0x16, detail := 2, failUnit := 0 } ∧
        ∀ k, k ≠ h → t.op? k = s.op? k)) ∧
  (∀ (s : State) (h : Nat) (o : RunOp) (r : CommitRun) (c : Instr), OpReady s h 0x0503 o → Map.get? s.commits h = some r →
    (c, fld o.cmd.w3 2 1) ∈ [(Instr.commit h, 0), (.resolve h, 1)] →
    (r.waiting = false → exec c s = .next s) ∧ (r.waiting = true → exec c s = .next { s.commitLaunch h r with pending := s.pending }))

/-- A FOLD whose first steps run stays running until it is durable; FOLD_DURABLE before that changes nothing, and after it sets DURABLE,
copies, and ends the operator. RECEIVE binds its stream to its log and stays running; after its idle limit it completes with OK. Either waits,
but for its reads, while one of them is outstanding. DELTA_DATA for
no RECEIVE changes nothing; in place it is appended, out of place discarded, with REWIND at or past the last group's end the log goes back to
its position first, and each is answered with the durable position. DELTA_ACK advances what is
acknowledged. A stream without progress is sent again from ACK_POS while tries are left, and then the FOLD ends with REMOTE DETAIL 0x03. -/
def Obligations.FoldAndDelta : Prop :=
  (∀ (s : State) (h : Nat), (Map.get? s.folds h).isSome = true → exec (.fold h) s = .next s) ∧
  (∀ (s : State) (h : Nat), (Map.get? s.recvs h).isSome = true → exec (.receive h) s = .next s) ∧
  (∀ (s b : State) (h : Nat) (o o' : RunOp), OpReady s h 0x0500 o → SweepRec 2 s o → Map.get? s.folds h = none → Map.get? s.recvs h = none →
    b = s.begun h o (mapReads (fun hs t o => State.foldReads hs t o) s o) → o' = { o with touched := true } →
    (b.reading (.op h) = true → exec (.fold h) s = .next { b with pending := s.pending }) ∧
    (∀ u p f, b.reading (.op h) = false → State.foldFx h o' b = .ok u → u.op? h = some p → p.code = 0 → Map.get? u.folds h = some f →
      ∃ t, exec (.fold h) s = .next t ∧ t = { u with ops := t.ops, pending := s.pending } ∧ t.op? h = some { p with ran := false } ∧
        ∀ k, k ≠ h → t.op? k = u.op? k) ∧
    (∀ e, b.reading (.op h) = false → State.foldFx h o' b = .error e → e.left = none → e.code < 256 → e.code ≠ 0 →
      ∃ t q, exec (.fold h) s = .next t ∧ t = { b with ops := t.ops, regs := t.regs, pending := s.pending } ∧ t.op? h = some q ∧
        q.ran = true ∧ q.code = BitVec.ofNat 8 e.code ∧ q.detail = BitVec.ofNat 8 e.detail ∧ ∀ k, k ≠ h → t.op? k = b.op? k)) ∧
  (∀ (s b u : State) (h : Nat) (o o' p : RunOp), OpReady s h 0x0500 o → SweepRec 4 s o → Map.get? s.folds h = none → Map.get? s.recvs h = none →
    b = s.begun h o (mapReads (fun _ _ _ => []) s o) → o' = { o with touched := true } → b.reading (.op h) = false →
    State.receiveFx h o' b = .ok u → u.op? h = some p → p.code = 0 →
    ∃ t r, exec (.receive h) s = .next t ∧ t = { b with ops := t.ops, recvs := t.recvs, pending := s.pending } ∧
      t.op? h = some { p with ran := false } ∧ Map.get? t.recvs h = some r ∧ r.src = o.cmd.w3.toNat ∧ r.log = o.cmd.w4.toNat ∧
      r.idle = o.cmd.w5.toNat ∧ r.at_ = b.ft ∧ ∀ k, k ≠ h → t.op? k = u.op? k ∧ Map.get? t.recvs k = Map.get? s.recvs k) ∧
  (∀ (s : State) (h : Nat) (o : RunOp) (f : FoldRun), Map.get? s.folds h = some f → s.op? h = some o →
    (∀ d, f.partner = some d → f.ack < f.finish → exec (.foldDurable h) s = .next s) ∧
    (f.partner = none → s.opWaits h = true → exec (.foldDurable h) s = .next s) ∧
    (∀ m u q, ((∃ d, f.partner = some d ∧ f.finish ≤ f.ack) ∨ (f.partner = none ∧ s.opWaits h = false ∧
        ∃ l, s.logOf o.tenant (BitVec.ofNat 64 f.log) = .ok l ∧
          ∀ k ∈ State.tilesOf (l.base + f.start) (f.finish - f.start), s.tileDurable k = true)) → f.copying = false → o.code = 0 →
      let w : State := (s.cbFlagSet o.tenant f.cb 1 true).logAck o.tenant f.log f.finish
      let v : State := { w with folds := Map.set w.folds h { f with copying := true } }
      v.mapOf o = .ok m → State.foldCopy h o.tenant m.2 v = .ok u → u.op? h = some q → q.code = 0 →
      ∃ t, exec (.foldDurable h) s = .next t ∧ t = { u with ops := t.ops, pending := s.pending } ∧
        t.op? h = some { q with ran := true, detail := 0, failUnit := 0 } ∧ ∀ k, k ≠ h → t.op? k = u.op? k)) ∧
  (∀ (s : State) (h : Nat) (o : RunOp) (r : RecvRun), Map.get? s.recvs h = some r → s.op? h = some o → o.code = 0 →
    (r.at_.toNat + r.idle * 4000000 ≤ s.ft.toNat → ∃ t, exec (.receiveIdleTimeout h) s = .next t ∧
      t = { s with ops := t.ops, recvs := t.recvs } ∧ t.op? h = some { o with ran := true, detail := 0, failUnit := 0 } ∧
      Map.get? t.recvs h = none ∧ ∀ k, k ≠ h → t.op? k = s.op? k ∧ Map.get? t.recvs k = Map.get? s.recvs k) ∧
    (s.ft.toNat < r.at_.toNat + r.idle * 4000000 → exec (.receiveIdleTimeout h) s = .next s)) ∧
  (∀ (s : State) (src own stream pos : Nat) (rewind : Bool) (data : List Byte),
    (s.recvs.find? (fun e => e.2.src == src && e.2.stream == stream && (s.op? e.1).any (fun o => o.tenant == own)) = none →
      exec (.deltaData src own stream rewind pos data) s = .next s) ∧
    (∀ h r o l, s.recvs.find? (fun e => e.2.src == src && e.2.stream == stream && (s.op? e.1).any (fun o => o.tenant == own)) = some (h, r) →
      s.op? h = some o → s.logOf o.tenant (BitVec.ofNat 64 r.log) = .ok l →
      (let v := s.logWpos o.tenant r.log pos
       let q : RecvRun := { r with at_ := s.ft, buf := v.bytesAt (l.base + pos - pos % tileBytes) (pos % tileBytes) }
       rewind = true → r.endAt ≤ pos → exec (.deltaData src own stream rewind pos data) s =
        .next { (v.recvAppend h o q { l with wpos := pos } pos data).recvAnswer h src o q with pending := s.pending }) ∧
      ((rewind = false ∨ pos < r.endAt) →
      exec (.deltaData src own stream rewind pos data) s =
        .next { (s.recvAppend h o { r with at_ := s.ft } l pos data).recvAnswer h src o { r with at_ := s.ft } with pending := s.pending } ∧
      (pos = l.wpos → data ≠ [] → pos + data.length ≤ l.tiles * tileBytes → r.buf.length + data.length < tileBytes →
        ∃ t, exec (.deltaData src own stream rewind pos data) s = .next t ∧ t.ops = s.ops ∧
          Map.get? t.recvs h = some { r with
            at_ := s.ft, buf := r.buf ++ data, endAt := if data.getD 2 0 = 3 then pos + data.length else r.endAt }) ∧
      (pos ≠ l.wpos → ∃ t k m, exec (.deltaData src own stream rewind pos data) s = .next t ∧
        Map.get? t.recvs h = some { r with at_ := s.ft } ∧ Map.get? t.router k = some m ∧ m.m.cls = 0x39 ∧
        m.m.dest = src ∧ m.m.body = deltaBody r.stream false (s.logDurable l) [])))) ∧
  (∀ (s : State) (src own stream pos h : Nat) (f : FoldRun),
    s.folds.find? (fun e => e.2.partner == some src && e.2.stream == stream && (s.op? e.1).any (fun o => o.tenant == own)) = some (h, f) →
    (f.ack < pos → pos ≤ f.finish → ∃ t, exec (.deltaAck src own stream pos) s = .next t ∧
      Map.get? t.folds h = some { f with ack := pos, since := s.ft, tries := 0 } ∧ t.ops = s.ops) ∧
    ((pos ≤ f.ack ∨ f.finish < pos) → exec (.deltaAck src own stream pos) s = .next s)) ∧
  (∀ (s : State) (h d : Nat) (o : RunOp) (f : FoldRun), Map.get? s.folds h = some f → s.op? h = some o → f.partner = some d → o.code = 0 →
    f.ack < f.finish →
    (s.ft.toNat < f.since.toNat + s.rdF R.FBD_E2E_TMO 15 0 * 4000 → exec (.deltaResendTimeout h) s = .next s) ∧
    (f.since.toNat + s.rdF R.FBD_E2E_TMO 15 0 * 4000 ≤ s.ft.toNat → f.tries < s.rdF R.FBD_E2E_TRIES 3 0 →
      ∃ t, exec (.deltaResendTimeout h) s = .next t ∧ t = { s with folds := t.folds, router := t.router } ∧
        Map.get? t.folds h = some { f with tries := f.tries + 1, since := s.ft } ∧
        t.router.length = s.router.length + (f.recs.filter (fun r => f.ack < r.1 + r.2.length)).length) ∧
    (f.since.toNat + s.rdF R.FBD_E2E_TMO 15 0 * 4000 ≤ s.ft.toNat → s.rdF R.FBD_E2E_TRIES 3 0 ≤ f.tries →
      ∃ t, exec (.deltaResendTimeout h) s = .next t ∧ t = { s with ops := t.ops } ∧
        t.op? h = some { o with ran := true, code := 0x11, detail := 3, failUnit := 0 } ∧ ∀ k, k ≠ h → t.op? k = s.op? k))

/-- An RLE_CONVERT that does not check ends with the CODE of the check. One with a fence, or whose RLE is held, waits, and no byte is written.
Without a fence it begins to read its source, waiting while a read is outstanding; LOCAL then converts, and completes, and a SEND takes the
VERSION of its commit block, with every piece of its rectangle out or to come. Past its fence a record begins likewise; a SEND whose source has
gone stale ends with CODE 0x17 DETAIL 6, setting RLE_ERR. SHARD_ACK takes its piece off; after the last the SEND completes. SHARD_NACK NONE or WAIT delays the piece; REFERENCE, PARAMETER and
VERSION end the SEND. A piece due is sent again marked as a duplicate, and after FBD_E2E_TRIES the SEND ends with REMOTE DETAIL 0x03. -/
def Obligations.Conversions : Prop :=
  (∀ (s : State) (h : Nat) (o : RunOp) (c : Instr) (snd : Bool), OpReady s h 0x0801 o → Map.get? s.convs h = none →
    (c, snd) ∈ [(Instr.rleConvertLocal h, false), (.rleConvertSend h, true)] →
    (∀ e, s.convOf o = .error e → e.left = none → ∃ t q, exec c s = .next t ∧ t = { s with ops := t.ops, regs := t.regs } ∧
      t.op? h = some q ∧ q.ran = true ∧ q.code = BitVec.ofNat 8 e.code ∧ q.detail = BitVec.ofNat 8 e.detail ∧
      ∀ k, k ≠ h → t.op? k = s.op? k) ∧
    (∀ d, s.convOf o = .ok d → d.send ≠ snd → exec c s = .next s) ∧
    (∀ d, s.convOf o = .ok d → d.send = snd → o.cmd.w1 ≠ 0 → ∃ t r, exec c s = .next t ∧ t = { s with convs := t.convs } ∧
      Map.get? t.convs h = some r ∧ r.d = d ∧ r.fence = o.cmd.w1.toNat ∧ r.passed = false ∧ r.out = [] ∧
      ∀ f v k, (f, v) ∈ s.slots → v.run = some k → k.reduces = true → bit o.cmd.w2 f = true → (f, k.cseq) ∈ r.waitFor) ∧
    (∀ d b, s.convOf o = .ok d → d.send = snd → o.cmd.w1 = 0 →
      let r : ConvRun := ⟨d, 0, [], false, 0, 0, [], []⟩
      let u : State := { s with convs := Map.set s.convs h r }
      (s.rdB (R.RLE_CTL (u.rleIdx d)) 0 = true → exec c s = .next u) ∧
      (s.rdB (R.RLE_CTL (u.rleIdx d)) 0 = false → u.convBegun h o d = b → b.reading (.op h) = true →
        exec c s = .next { b with pending := s.pending }) ∧
      (∀ v q, s.rdB (R.RLE_CTL (u.rleIdx d)) 0 = false → u.convBegun h o d = b → b.reading (.op h) = false → snd = false →
        b.convLocal h o d = .ok v → v.op? h = some q → q.code = 0 →
        ∃ t, exec c s = .next t ∧ t = { v with ops := t.ops, convs := t.convs, pending := s.pending } ∧
          t.op? h = some { q with ran := true, detail := 0, failUnit := 0 } ∧ ∀ k, k ≠ h → t.op? k = v.op? k) ∧
      (∀ e, s.rdB (R.RLE_CTL (u.rleIdx d)) 0 = false → u.convBegun h o d = b → b.reading (.op h) = false → snd = false →
        b.convLocal h o d = .error e → e.left = none → ∃ t q, exec c s = .next t ∧
        t = { b with ops := t.ops, regs := t.regs, pending := s.pending } ∧ t.op? h = some q ∧ q.ran = true ∧
        q.code = BitVec.ofNat 8 e.code ∧ q.detail = BitVec.ofNat 8 e.detail ∧ ∀ k, k ≠ h → t.op? k = b.op? k) ∧
      (s.rdB (R.RLE_CTL (u.rleIdx d)) 0 = false → u.convBegun h o d = b → b.reading (.op h) = false → snd = true →
        ∃ t x, exec c s = .next t ∧ Map.get? t.convs h = some x ∧ x.d = d ∧ x.passed = true ∧
          x.version = BitVec.ofNat 32 (b.cbGet d.commit 0x10 4) ∧ x.out.length + x.todo.length = (State.rectPieces d).length))) ∧
  (∀ (s : State) (h : Nat) (o : RunOp) (r : ConvRun), Map.get? s.convs h = some r → s.op? h = some o → r.passed = false → r.fence ≠ 0 →
    o.code = 0 →
    (s.fenceEpoch r = 2 → ∃ t, exec (.rleFencePass h) s = .next t ∧ t = { s with regs := t.regs, ops := t.ops } ∧
      RegsKept s t [R.RLE_ERR] ∧ t.rd R.RLE_ERR = s.rd R.RLE_ERR ||| 2 ∧ t.op? h = some { o with ran := true, code := 0x17, detail := 6, failUnit := 0 } ∧
      ∀ k, k ≠ h → t.op? k = s.op? k) ∧
    (s.fenceEpoch r = 1 → s.fenceClear r = true → exec (.rleFencePass h) s = .next { s.convBegin h o r with pending := s.pending } ∧
      (s.rdB (R.RLE_CTL (s.rleIdx r.d)) 0 = true → exec (.rleFencePass h) s = .next s)) ∧
    ((s.fenceEpoch r = 0 ∨ (s.fenceEpoch r = 1 ∧ s.fenceClear r = false)) → exec (.rleFencePass h) s = .next s)) ∧
  (∀ (s : State) (src own part q h : Nat) (version : Word32) (r : ConvRun) (o : RunOp), s.sendFor src own version part q = some (h, r) →
    s.op? h = some o → o.code = 0 →
    (r.out.filter (fun x => x.m.q != q) = [] → r.todo = [] → ∃ t, exec (.shardAck src own version part q) s = .next t ∧
      t = { s with ops := t.ops, convs := t.convs } ∧ t.op? h = some { o with ran := true, detail := 0, failUnit := 0 } ∧
      ∀ k, k ≠ h → t.op? k = s.op? k ∧ Map.get? t.convs k = Map.get? s.convs k) ∧
    ((r.out.filter (fun x => x.m.q != q) ≠ [] ∨ r.todo ≠ []) →
      ∃ t x, exec (.shardAck src own version part q) s = .next t ∧ Map.get? t.convs h = some x ∧ x.d = r.d ∧
        x.out.take (r.out.filter (fun x => x.m.q != q)).length = r.out.filter (fun x => x.m.q != q) ∧
        x.out.length + x.todo.length = (r.out.filter (fun x => x.m.q != q)).length + r.todo.length) ∧
    (∀ reason, reason = 1 ∨ reason = 2 → ∃ t k, exec (.shardNack src own version part q reason) s = .next t ∧
      t = { s with convs := t.convs } ∧ Map.get? t.convs h = some k ∧ k.todo = r.todo ∧
      k.out = r.out.map (fun x => if x.m.q = q then { x with wait := true, since := s.ft } else x)) ∧
    (∀ reason d, (reason, d) ∈ [(3, (7 : Byte)), (4, 9), (5, 0x0A)] → ∃ t, exec (.shardNack src own version part q reason) s = .next t ∧
      t = { s with ops := t.ops } ∧ t.op? h = some { o with ran := true, code := 0x17, detail := d, failUnit := 0 } ∧
      ∀ k, k ≠ h → t.op? k = s.op? k)) ∧
  (∀ (s : State) (src own part q reason : Nat) (version : Word32), s.sendFor src own version part q = none →
    exec (.shardAck src own version part q) s = .next s ∧ exec (.shardNack src own version part q reason) s = .next s) ∧
  (∀ (s : State) (h q : Nat) (o : RunOp) (r : ConvRun) (x : OutPiece), Map.get? s.convs h = some r → s.op? h = some o → o.code = 0 →
    r.out.find? (fun x => x.m.q == q) = some x →
    let due := if x.wait then x.since.toNat + 400000 else x.since.toNat + s.rdF R.FBD_E2E_TMO 15 0 * 4000
    (s.ft.toNat < due → exec (.shardResendTimeout h q) s = .next s) ∧
    (due ≤ s.ft.toNat → (x.wait = true ∨ x.tries < s.rdF R.FBD_E2E_TRIES 3 0) → ∃ t m k, exec (.shardResendTimeout h q) s = .next t ∧
      t = { s with convs := t.convs, router := t.router } ∧ Map.get? t.router (Map.nextKey s.router) = some m ∧ m.m.cls = 0x40 ∧
      m.m.dest = r.d.mbr ∧ m.m.body.drop 56 = x.m.data ∧ Map.get? t.convs h = some k ∧ k.out.length = r.out.length) ∧
    (due ≤ s.ft.toNat → x.wait = false → s.rdF R.FBD_E2E_TRIES 3 0 ≤ x.tries → ∃ t, exec (.shardResendTimeout h q) s = .next t ∧
      t = { s with ops := t.ops } ∧ t.op? h = some { o with ran := true, code := 0x11, detail := 3, failUnit := 0 } ∧ ∀ k, k ≠ h → t.op? k = s.op? k))

/-- A piece is answered, in this order: with no turnover, NACK NONE, or VERSION where its turnover has ended; of another
version, or of no such part or shape, PARAMETER; already received, ACK; at a time no piece is taken, VERSION; coded
against another reference, REFERENCE. For a held RLE it waits. Otherwise it is taken: noted as received, and acknowledged. A piece that is only answered changes no byte of memory. -/
def Obligations.ShardPieces : Prop :=
  (∀ (s : State) (src own : Nat) (m : ShardMsg),
    let nacked (reason : Nat) : Prop := ∃ t r, exec (.shardData src own m) s = .next t ∧ t = { s with regs := t.regs, router := t.router } ∧
      RegsKept s t [R.RLE_NACK_CNT 0] ∧ t.rd (R.RLE_NACK_CNT 0) = satAdd32 (s.rd (R.RLE_NACK_CNT 0)) 1 ∧
      Map.get? t.router (Map.nextKey s.router) = some r ∧ r.m.cls = 0x42 ∧ r.m.dest = src ∧
      r.m.body = State.shardBody m.version m.part 0 reason m.q 0 0 0 0 []
    (s.turn = none → s.turnLast ≠ some m.version → nacked 1) ∧
    (s.turn = none → s.turnLast = some m.version → nacked 5) ∧
    (∀ w, s.turn = some w →
      (m.version ≠ w.version → nacked 4) ∧
      (m.version = w.version → w.parts.length ≤ m.part → nacked 4) ∧
      (∀ p, m.version = w.version → w.parts[m.part]? = some p →
        ((m.srcFmt ≠ p.srcFmt ∨ p.pieces ≤ m.q) → nacked 4) ∧
        (m.srcFmt = p.srcFmt → m.q < p.pieces → m.rows = min 32 (p.k - m.q / p.pcols * 32) →
          m.cols = min (pieceCols p.srcFmt) (p.n - m.q % p.pcols * pieceCols p.srcFmt) →
          (p.got.contains m.q = true → ∃ t r, exec (.shardData src own m) s = .next t ∧ t = { s with regs := t.regs, router := t.router } ∧
            RegsKept s t [R.RLE_DUP_CNT (s.pieceRle p m)] ∧ Map.get? t.router (Map.nextKey s.router) = some r ∧ r.m.cls = 0x41 ∧
            r.m.dest = src ∧ r.m.body = State.shardBody m.version m.part 0 0 m.q 0 0 0 0 []) ∧
          (p.got.contains m.q = false → ¬(w.st = 1 ∨ (w.st = 2 ∧ w.stream = true)) → nacked 5) ∧
          (p.got.contains m.q = false → (w.st = 1 ∨ (w.st = 2 ∧ w.stream = true)) → m.coded = true → (p.ref = 0 ∨ m.refVer ≠ p.refVer) →
            nacked 3) ∧
          (p.got.contains m.q = false → (w.st = 1 ∨ (w.st = 2 ∧ w.stream = true)) → (m.coded = false ∨ (p.ref ≠ 0 ∧ m.refVer = p.refVer)) →
            (s.rdB (R.RLE_CTL (s.pieceRle p m)) 0 = true → exec (.shardData src own m) s = .next { s with rleQ := s.rleQ ++ [(src, own, m)] }) ∧
            (s.rdB (R.RLE_CTL (s.pieceRle p m)) 0 = false →
              (let x := rleWrites p.dstFmt p.layout p.k p.n (m.q / p.pcols * 32) (m.q % p.pcols * pieceCols p.srcFmt)
                 (wireNums m.srcFmt m.rows m.cols m.data)
               m.coded = false → m.data.length = wireLen m.srcFmt m.rows m.cols →
               (s.stageTake w p (x.1.flatMap (fun q => State.tilesOf (p.base + q.1) q.2.length)).dedup).isSome = true →
               ∃ t r, exec (.shardData src own m) s = .next t ∧
                 t.turn = some { w with parts := w.parts.set m.part { p with got := m.q :: p.got } } ∧
                 Map.get? t.router (Map.nextKey s.router) = some r ∧ r.m.cls = 0x41 ∧ r.m.dest = src) ∧
              exec (.shardData src own m) s = .next { s.pieceIn src own m w m.part p with pending := s.pending } ∧
              (m.coded = false → m.data.length ≠ wireLen m.srcFmt m.rows m.cols → nacked 4)))))))

/-- A TURNOVER that checks enters STAGING. At TURN_FT, with every part staged or STREAM set, the barrier is raised: REPLACING, with
the old readers noted; otherwise it is aborted with CODE 0x17 DETAIL 3. PART_SWAP swaps the next part once it is staged, past SWAP_DELAY, and no
old reader needs it; after the last the turnover is in REFILL. TURNOVER_RELEASE then ends it: its version is the generation copy's,
where the copy is valid or its parts cover the whole of it (log entry 33: the model's reading), and it is counted. At its deadline REFILL is released, REPLACING with a part not staged leaves the copy invalid, and otherwise the old readers
are stopped. TURN_ABORT ends STAGING, and is refused later. -/
def Obligations.TurnoverCommands : Prop :=
  (∀ (s : State) (h : Nat) (o : RunOp), OpReady s h 0x0800 o →
    (∀ w, s.turn = some w → w.op = h → exec (.turnover h) s = .next s) ∧
    ((∀ w, s.turn = some w → w.op ≠ h) →
      (∀ e, s.turnOf h o = .error e → e.left = none → ∃ t q, exec (.turnover h) s = .next t ∧ t = { s with ops := t.ops, regs := t.regs } ∧
      t.op? h = some q ∧ q.ran = true ∧ q.code = BitVec.ofNat 8 e.code ∧ q.detail = BitVec.ofNat 8 e.detail ∧
      ∀ k, k ≠ h → t.op? k = s.op? k) ∧
      (∀ w, s.turnOf h o = .ok w → ∃ t k, exec (.turnover h) s = .next t ∧ t.turn = some { w with trig := k } ∧ w.st = 1 ∧ w.op = h ∧
        w.tenant = o.tenant ∧ t.op? h = some { o with epoch := w.epoch } ∧ t.tenants = s.tenants ∧ t.rleQ = s.rleQ))) ∧
  (∀ (s : State) (w : Turn), (∀ n, n < 256 → (s.trigger n).valid = false) → s.turn = some w →
    ((w.st ≠ 1 ∨ s.ft < w.turnFt) → exec .triggerTurnover s = .next s) ∧
    (w.st = 1 → w.turnFt ≤ s.ft → (w.stream = true ∨ w.parts.all (·.staged) = true) → ∃ t, exec .triggerTurnover s = .next t ∧
      (∃ l, t.turn = some { w with st := 2, readers := l } ∧ (w.trig.isSome = true → l = s.oldReaders)) ∧ t.mem = s.mem ∧ t.ops = s.ops ∧
      ∀ p ∈ rlePages, t.rdB (R.INT_STAT p) 1 = true) ∧
    (w.st = 1 → w.turnFt ≤ s.ft → w.stream = false → w.parts.all (·.staged) = false → ∃ t, exec .triggerTurnover s = .next t ∧
      t.turn = none ∧ t.turnLast = some w.version ∧ t.rleQ = [] ∧ t.rdB R.RLE_ERR 2 = true ∧
      (∀ o, s.op? w.op = some o → o.code = 0 → ∃ q, t.op? w.op = some q ∧ q.ran = true ∧ q.code = 0x17 ∧ q.detail = 3) ∧
      ∀ p ∈ rlePages, t.rdB (R.INT_STAT p) 3 = true)) ∧
  (∀ (s : State) (w : Turn) (p : TurnPart) (i : Nat), s.turn = some w → w.parts.findIdx? (fun p => !p.swapped) = some i → w.parts[i]? = some p →
    ((w.st ≠ 2 ∨ p.staged = false ∨ s.ft.toNat < w.turnFt.toNat + w.swapDelay * 4000 ∨ w.readers.any (s.readerNeeds p) = true) →
      exec .partSwap s = .next s) ∧
    (w.st = 2 → p.staged = true → w.turnFt.toNat + w.swapDelay * 4000 ≤ s.ft.toNat → w.readers.any (s.readerNeeds p) = false →
      (∀ n ∈ p.tilesL, (s.tile n).st ≠ .movingD ∧ (s.tile n).st ≠ .movingF) →
      ∃ t x, exec .partSwap s = .next t ∧ t.turn = some x ∧ x.parts = w.parts.set i { p with swapped := true } ∧
        x.st = (if x.parts.all (·.swapped) then 3 else 2) ∧ x.op = w.op ∧ x.version = w.version ∧ t.regs = s.regs ∧ t.ops = s.ops) ∧
    (∀ n l, w.st = 2 → p.staged = true → w.turnFt.toNat + w.swapDelay * 4000 ≤ s.ft.toNat → w.readers.any (s.readerNeeds p) = false →
      p.tilesL = [n] → (s.tile n).st = .dram → s.stageFrames.find? (fun q => q.2 == n) = some (l, n) → l ≠ (s.tile n).loc →
      ∃ t, exec .partSwap s = .next t ∧ t.tile n = ⟨.dram, (s.tile n).pin, l, false⟩ ∧ Map.get? t.ms.frames (s.tile n).loc = none ∧
        Mem.read t.mem (n * tileBytes) tileBytes = Mem.read s.mem (stageAt (n * tileBytes)) tileBytes)) ∧
  (∀ (s : State) (w : Turn), s.turn = some w →
    ((w.st ≠ 3 ∨ (w.refillEn = true ∧ s.dep w.tenant w.refillCtr < w.refillVal)) → exec .turnoverRelease s = .next s) ∧
    (w.st = 3 → (w.refillEn = false ∨ w.refillVal ≤ s.dep w.tenant w.refillCtr) → ∃ t, exec .turnoverRelease s = .next t ∧ t.turn = none ∧
      t.turnLast = some w.version ∧
      ((s.rdB R.RLE_TURN_STAT 27 = true ∨ s.turnCovers w = true) → t.rd R.RLE_GEN_VERSION = w.version ∧ t.rdB R.RLE_TURN_STAT 27 = true) ∧
      (s.rdB R.RLE_TURN_STAT 27 = false → s.turnCovers w = false → t.rd R.RLE_GEN_VERSION = s.rd R.RLE_GEN_VERSION ∧ t.rdB R.RLE_TURN_STAT 27 = false) ∧
      t.rd R.RLE_TURN_CNT = satAdd32 (s.rd R.RLE_TURN_CNT) 1 ∧ ∀ p ∈ rlePages, t.rdB (R.INT_STAT p) 2 = true) ∧
    ((w.st < 2 ∨ s.ft < w.deadline) → exec .turnoverDeadline s = .next s) ∧
    (w.st = 3 → w.deadline ≤ s.ft → ∃ t, exec .turnoverDeadline s = .next t ∧ t.turn = none ∧
      t.turnLast = some w.version ∧ (s.rdB R.RLE_TURN_STAT 27 = true → t.rd R.RLE_GEN_VERSION = w.version)) ∧
    (w.st = 2 → w.deadline ≤ s.ft → w.parts.all (·.staged) = false → ∃ t, exec .turnoverDeadline s = .next t ∧ t.turn = none ∧
      t.rd R.RLE_GEN_VERSION = 0xFFFFFFFF ∧ t.rdB R.RLE_ERR 3 = true ∧ t.rdB R.RLE_TURN_STAT 27 = false) ∧
    (w.st = 2 → w.deadline ≤ s.ft → w.parts.all (·.staged) = true → exec .turnoverDeadline s = .next
      { w.readers.foldl (fun u h => if (u.op? h).any (fun o => o.ran == false || o.parts != []) then u.stopOp h 0x17 4 else u) s with
        pending := s.pending }) ∧
    (w.st = 1 → ∃ t, exec .turnAbort s = .next t ∧ t.turn = none ∧ t.turnLast = some w.version ∧ t.rleQ = [] ∧
      (∀ o, s.op? w.op = some o → o.code = 0 → ∃ q, t.op? w.op = some q ∧ q.ran = true ∧ q.code = 0x17 ∧ q.detail = 0x0A) ∧
      ∀ p ∈ rlePages, t.rdB (R.INT_STAT p) 3 = true) ∧
    (w.st ≠ 1 → ∃ t, exec .turnAbort s = .next t ∧ t = { s with regs := t.regs, outbox := t.outbox, msix := t.msix } ∧
      t.rdB R.RLE_ERR 0 = true ∧ ∀ p ∈ rlePages, t.rdB (R.INT_STAT p) 5 = true)) ∧
  (∀ (s : State), s.turn = none → exec .partSwap s = .next s ∧ exec .turnoverRelease s = .next s ∧ exec .turnoverDeadline s = .next s ∧
    ∃ t, exec .turnAbort s = .next t ∧ OnlyRegs s t [R.GEN_WR_CNT 0xE8])

/-- While locked, a good pulse counts, labels the next second and sets the slew to what FT is off by; a window without a pulse counts a miss.
Three misses in a row lose the lock. A first pulse is kept. A ZDA sentence with a bad checksum counts and does nothing else; while locked one that agrees does nothing, one that
does not sets the error. TIME_SYNC keeps what the neighbour named, and from the parent gives the offset. TIME_SYNC_TIMER queues one message
on each live port with the next sequence number. A parent unheard is dropped; 72 hours of HOLDOVER end in FREERUN. A package that hears no
master, with PRIO other than 255, is master on election. -/
def Obligations.TimeSignals : Prop :=
  (∀ (s : State) (up : Bool) (p : Word64) (n : Nat), s.rdB R.TIM_CTL 0 = true → up ≠ s.rdB R.TIM_CTL 1 → s.tim.pulse = some p →
    s.ppsGood p = true → s.ppsLocked = true → s.tim.second = some n → s.tim.ever = true →
    let off : Int := (((n + 1 + s.rdF R.TIM_LEAP 7 0) * 4000000000 : Nat) : Int) - s.ft.toNat
    ∃ t, exec (.ppsPulse up) s = .next t ∧ t = { s with regs := t.regs, tim := { s.tim with
        pulse := some s.ft, misses := 0, counted := false, second := some (n + 1), labelled := true, slew := off } } ∧
      t.rd R.TIM_PPS_CNT = satAdd32 (s.rd R.TIM_PPS_CNT) 1 ∧ RegsKept s t [R.TIM_PPS_CNT, R.TIM_OFFSET] ∧
      t.rd R.TIM_OFFSET = BitVec.ofInt 32 (max (-(2 ^ 31)) (min (2 ^ 31 - 1) off))) ∧
  (∀ (s : State) (up : Bool), s.rdB R.TIM_CTL 0 = true → up ≠ s.rdB R.TIM_CTL 1 → s.tim.pulse = none → s.tim.next = none →
    exec (.ppsPulse up) s = .next { s with tim := { s.tim with pulse := some s.ft, run := 0, labelled := false, counted := false } }) ∧
  (∀ (s : State) (up : Bool), (s.rdB R.TIM_CTL 0 = false ∨ up = s.rdB R.TIM_CTL 1) → exec (.ppsPulse up) s = .next s) ∧
  (∀ (s : State) (p : Word64), s.rdB R.TIM_CTL 0 = true → s.tim.pulse = some p →
    p.toNat + 4000000000 + s.rdF R.TIM_PPS_WIN 15 0 * 4 < s.ft.toNat → s.ppsLocked = true → s.tim.counted = false → s.tim.misses < 2 →
    ∃ t, exec .ppsWindowExpiry s = .next t ∧ t = { s with regs := t.regs, tim := { s.tim with
        pulse := some (p + 4000000000), second := s.tim.second.map (· + 1), misses := s.tim.misses + 1 } } ∧
      t.rd R.TIM_PPS_MISS_CNT = satAdd32 (s.rd R.TIM_PPS_MISS_CNT) 1 ∧ RegsKept s t [R.TIM_PPS_MISS_CNT]) ∧
  (∀ (s : State) (p : Word64), s.rdB R.TIM_CTL 0 = true → s.tim.pulse = some p →
    p.toNat + 4000000000 + s.rdF R.TIM_PPS_WIN 15 0 * 4 < s.ft.toNat → s.ppsLocked = true → s.tim.counted = false → s.tim.misses = 2 →
    ∃ t, exec .ppsWindowExpiry s = .next t ∧ t.ppsLocked = false ∧ t.tim.pulse = none ∧ t.tim.second = none ∧ t.tim.misses = 0 ∧
      t.rd R.TIM_PPS_MISS_CNT = satAdd32 (s.rd R.TIM_PPS_MISS_CNT) 1 ∧ t.ft = s.ft) ∧
  (∀ (s : State) (b : List Byte) (n : Nat), s.rdB R.TIM_CTL 0 = true →
    (zdaOf b = (1, 0) → ∃ t, exec (.zdaSentence b) s = .next t ∧ OnlyRegs s t [R.TIM_ZDA_ERR_CNT] ∧
      t.rd R.TIM_ZDA_ERR_CNT = satAdd32 (s.rd R.TIM_ZDA_ERR_CNT) 1) ∧
    (zdaOf b = (2, n) → s.ppsLocked = true → s.tim.second.map (fun k => if s.rdB R.TIM_CTL 16 then k + 1 else k) = some n →
      exec (.zdaSentence b) s = .next s) ∧
    (zdaOf b = (2, n) → s.ppsLocked = true → s.tim.second.map (fun k => if s.rdB R.TIM_CTL 16 then k + 1 else k) ≠ some n →
      ∃ t, exec (.zdaSentence b) s = .next t ∧ t = { s with regs := t.regs, outbox := t.outbox, msix := t.msix } ∧
        t.rdB R.TIM_ERR 1 = true ∧ t.rdB (R.INT_STAT 6) 4 = true) ∧
    (zdaOf b = (2, n) → s.ppsLocked = false → s.rdB R.TIM_CTL 16 = true →
      exec (.zdaSentence b) s = .next { s with tim := { s.tim with next := some n } })) ∧
  (∀ s : State, s.rdF R.TIM_MASTER 31 24 ≠ 0xFF → s.rung ≠ 3 → s.rung ≠ 4 →
    ∃ t, exec .timeSyncTimer s = .next t ∧ t = { s with ports := t.ports, tim := { s.tim with seqs := t.tim.seqs } } ∧
      ∀ p, p < 36 → (s.portLive p = true → Map.get t.tim.seqs 0 p = (Map.get s.tim.seqs 0 p + 1) % 2 ^ 32 ∧
          (t.port p).txQ.length = (s.port p).txQ.length + 1) ∧
        (s.portLive p = false → Map.get t.tim.seqs 0 p = Map.get s.tim.seqs 0 p ∧ t.port p = s.port p)) ∧
  (∀ (s : State) (p : Nat) (m : SyncMsg), p < 36 → s.portLive p = true →
    let h : Heard := ⟨if isHall p then m.grade else max m.grade 1, m.prio, m.master, m.hops, m.errNs, s.ft⟩
    let u := ({ s with tim := { s.tim with heard := Map.set s.tim.heard p h } } : State).elect
    let d : Int := 2 * (u.rdF (preg p 0x128) 23 0 : Int) + (if isHall p then 0 else (u.rd (R.TIM_XPT_ASYM (p - 32))).toInt)
    ∃ t, exec (.timeSync p m) s = .next t ∧ Map.get? t.tim.heard p = some h ∧
      (u.timSt = 2 → u.rdF R.TIM_MASTER 31 24 = p →
        t = { u.timAdjust ((m.txFt.toNat : Int) + d - u.ft.toNat) with pending := s.pending }) ∧
      (u.timSt ≠ 2 ∨ u.rdF R.TIM_MASTER 31 24 ≠ p → t = { u with pending := s.pending })) ∧
  (∀ (s : State) (h : Heard), Map.get? s.tim.heard (s.rdF R.TIM_MASTER 31 24) = some h → s.timSt = 2 →
    h.at_.toNat + 16000000 ≤ s.ft.toNat →
    ∃ t, exec .syncLossTimeout s = .next t ∧ Map.get? t.tim.heard (s.rdF R.TIM_MASTER 31 24) = none ∧ t.tim.holdAt = s.ft ∧
      t.rdB (R.INT_STAT 6) 1 = true) ∧
  (∀ s : State, s.timSt = 3 → s.tim.holdAt.toNat + 1036800000000000 ≤ s.ft.toNat →
    ∃ t, exec .holdoverExpiry s = .next t ∧ OnlyRegs s t [R.TIM_STAT] ∧ t.timSt = 4) ∧
  (∀ s : State, s.rdF R.TIM_CTL 15 8 ≠ 255 → s.heardMasters = [] →
    ∃ t, exec .reelect s = .next t ∧ t.rdB R.TIM_STAT 27 = true ∧ t.rdF R.TIM_MASTER 14 0 = s.member ∧
      (s.ppsLocked = true → t.timSt = 1) ∧ t.mem = s.mem ∧ t.ops = s.ops)

/-- STEP adds a positive TIM_STEP to FT and, with no trigger armed, changes nothing else; any other step is refused with CMD_ERR. A trigger
not armed takes VALID, action and target from TRIG_CTL, and its time from the two halves of TRIG_FT at once; an armed one refuses its time.
A due RUNG trigger requests its rung, a due GPIO trigger pulses a pin that is an output or sets TRIG_IN, a due IRQ trigger raises its
interrupt; each is then no longer valid and counts. -/
def Obligations.TimeStepsAndTriggers : Prop :=
  (∀ s : State, let d := (BitVec.ofNat 64 (s.rd64 R.TIM_STEP_LO)).toInt
    0 < d → s.trigs = [] →
    ∃ t, exec .step s = .next t ∧ t = { s with regs := t.regs, ft := s.ft + BitVec.ofInt 64 d } ∧ RegsKept s t [R.GEN_WR_CNT 6]) ∧
  (∀ s : State, (BitVec.ofNat 64 (s.rd64 R.TIM_STEP_LO)).toInt ≤ 0 →
    ∃ t, exec .step s = .next t ∧ t = { s with regs := t.regs, outbox := t.outbox, msix := t.msix } ∧ t.rdB R.TIM_ERR 0 = true ∧
      t.rdB (R.INT_STAT 6) 5 = true) ∧
  (∀ (s : State) (v : Word32), let n := s.rdF R.TIM_TRIG_SEL 7 0
    (s.trigger n).valid = false → bit v 31 = true → bit v 30 = true → 2 ≤ fld v 27 24 → fld v 27 24 ≤ 4 →
    ∃ t, exec (.trigCtlWrite v) s = .next t ∧ t = { s with regs := t.regs, trigs := t.trigs } ∧
      t.trigger n = { s.trigger n with valid := true, sw := true, action := fld v 27 24, target := fld v 23 0 } ∧
      ∀ k, k ≠ n → t.trigger k = s.trigger k) ∧
  (∀ (s : State) (v : Word32), (4 < fld v 27 24 ∨ ((s.trigger (s.rdF R.TIM_TRIG_SEL 7 0)).valid = true ∧ (s.trigger (s.rdF R.TIM_TRIG_SEL 7 0)).sw = false)) →
    ∃ t, exec (.trigCtlWrite v) s = .next t ∧ t = { s with regs := t.regs, outbox := t.outbox, msix := t.msix } ∧ t.rdB R.TIM_ERR 0 = true) ∧
  (∀ (s : State) (v : Word32), ∃ t, exec (.trigFtLoWrite v) s = .next t ∧ t = { s with regs := t.regs, held := t.held } ∧
    Map.get? t.held R.TIM_TRIG_FT_LO = some v ∧ RegsKept s t [R.GEN_WR_CNT 6]) ∧
  (∀ (s : State) (v lo : Word32), let n := s.rdF R.TIM_TRIG_SEL 7 0
    Map.get? s.held R.TIM_TRIG_FT_LO = some lo → (s.trigger n).valid = false →
    ∃ t, exec (.trigFtHiWrite v) s = .next t ∧ t = { s with regs := t.regs, held := t.held, trigs := t.trigs } ∧
      (t.trigger n).ft.toNat = lo.toNat + 2 ^ 32 * v.toNat ∧ (t.trigger n).valid = false ∧ Map.get? t.held R.TIM_TRIG_FT_LO = none ∧
      ∀ k, k ≠ n → t.trigger k = s.trigger k) ∧
  (∀ (s : State) (v : Word32), (s.trigger (s.rdF R.TIM_TRIG_SEL 7 0)).valid = true →
    ∃ t, exec (.trigFtHiWrite v) s = .next t ∧ t.trigs = s.trigs ∧ t.rdB R.TIM_ERR 0 = true) ∧
  (∀ (s : State) (n : Nat), s.trigDue n 2 = true → s.rungCode (s.trigger n).target = true → s.rung < (s.trigger n).target →
    ∃ t, exec (.triggerRung n) s = .next t ∧
      t = { s with regs := t.regs, trigs := t.trigs, pwr := { s.pwr with want := some (s.trigger n).target } } ∧
      t.trigger n = { s.trigger n with valid := false } ∧ t.rdB R.PWR_STAT 28 = true ∧
      t.rd R.TIM_TRIG_FIRED_CNT = satAdd32 (s.rd R.TIM_TRIG_FIRED_CNT) 1) ∧
  (∀ (s : State) (n : Nat), let g := (s.trigger n).target % 16
    s.trigDue n 3 = true → s.rdB R.SMB_GPIO_DIR g = true →
    ∃ t, exec (.triggerGpio n) s = .next t ∧ t = { s with regs := t.regs, trigs := t.trigs, outbox := t.outbox, smb := { s.smb with pulses := t.smb.pulses } } ∧
      t.outbox = s.outbox ++ [.gpio g (!s.rdB R.SMB_GPIO_OUT g)] ∧ t.smb.pulses = Map.set s.smb.pulses g (s.ft + 4000) ∧
      t.trigger n = { s.trigger n with valid := false } ∧ RegsKept s t [R.TIM_TRIG_FIRED_CNT]) ∧
  (∀ (s : State) (n : Nat), s.trigDue n 3 = true → s.rdB R.SMB_GPIO_DIR ((s.trigger n).target % 16) = false →
    ∃ t, exec (.triggerGpio n) s = .next t ∧ t = { s with regs := t.regs, trigs := t.trigs, outbox := t.outbox, msix := t.msix } ∧
      t.trigger n = { s.trigger n with valid := false } ∧ t.rdB R.SMB_ERR 0 = true ∧ t.rdB (R.INT_STAT 9) 1 = true) ∧
  (∀ (s : State) (n : Nat), s.trigDue n 4 = true →
    ∃ t, exec (.triggerIrq n) s = .next t ∧ t = { s with regs := t.regs, trigs := t.trigs, outbox := t.outbox, msix := t.msix } ∧
      t.trigger n = { s.trigger n with valid := false } ∧ t.rdB (R.INT_STAT 6) 3 = true ∧
      RegsKept s t [R.TIM_TRIG_FIRED_CNT, R.INT_STAT 6])

/-- ADM_DOORBELL takes a PROD that neither moves back nor passes the ring's size, and otherwise ignores it with DB_ERR; while the ring is
disabled it sets DONE too. A NEW record in host memory that passes every test takes the lowest free entry, which holds what the record
and the model give, and counts as accepted; one that fails a test changes no entry and counts as refused; in both the result is written,
and DONE advances. RESUME of a parked request returns it to ADMITTED with its length kept. RELEASE of a finished request frees its entry.
ADM_REQ_SEL latches the selected entry of the tenant, and no bytes of another's. (The lowest free entry: log entry 39.) -/
def Obligations.AdmissionCommands : Prop :=
  (∀ (s : State) (t : Nat) (v : Word32), t < 64 → s.rdB (R.ADM_RING_CTL t) 31 = true →
    ((v - s.rd (R.ADM_RING_DONE t)).toNat ≤ 2 ^ s.rdF (R.ADM_RING_CTL t) 19 16 →
      (s.rd (R.ADM_RING_PROD t) - s.rd (R.ADM_RING_DONE t)).toNat ≤ (v - s.rd (R.ADM_RING_DONE t)).toNat →
      ∃ u, exec (.admDoorbell t v) s = .next u ∧ RegWritten s u (R.ADM_RING_PROD t) v) ∧
    ((2 ^ s.rdF (R.ADM_RING_CTL t) 19 16 < (v - s.rd (R.ADM_RING_DONE t)).toNat ∨
        (v - s.rd (R.ADM_RING_DONE t)).toNat < (s.rd (R.ADM_RING_PROD t) - s.rd (R.ADM_RING_DONE t)).toNat) →
      ∃ u, exec (.admDoorbell t v) s = .next u ∧ u = { s with regs := u.regs, outbox := u.outbox, msix := u.msix } ∧
        u.rdB (R.ADM_DB_ERR t) 0 = true ∧ u.rdB (R.INT_STAT (0x90 + t)) 2 = true ∧
        RegsKept s u [R.GEN_WR_CNT (0x90 + t), R.GEN_IGN_CNT (0x90 + t), R.ADM_DB_ERR t, R.INT_STAT (0x90 + t)])) ∧
  (∀ (s : State) (t : Nat) (v : Word32), t < 64 → s.rdB (R.ADM_RING_CTL t) 31 = false →
    ∃ u, exec (.admDoorbell t v) s = .next u ∧ u = { s with regs := u.regs } ∧ u.rd (R.ADM_RING_DONE t) = v ∧ u.rd (R.ADM_RING_PROD t) = v) ∧
  (∀ (s : State) (t n x : Nat) (b : List Byte) (g : GenModel), let r := admRecOf b
    let frames := State.cdiv r.maxLen 128 * g.lay.nlayer * g.lay.s
    b.length = 128 → t < 64 → s.rdB (R.ADM_RING_CTL t) 31 = true → s.rdB (R.ADM_RING_CTL t) 30 = true → s.hostReach = true →
    s.rd (R.ADM_RING_DONE t) ≠ s.rd (R.ADM_RING_PROD t) → r.kind = 0 → admRangeOk r = true → bit (s.mdl r.mdl).ctl 31 = true →
    s.genModel modelOwner (s.mdl r.mdl).addr.toNat = .ok g → s.admTest t r frames (State.prefillOf (s.mdl r.mdl) r.prompt) true = (0, x) →
    s.freeReq = some n →
    ∃ u, exec (.new t b true) s = .next u ∧ u.req? n = some (s.admEntry t frames r (s.mdl r.mdl).addr) ∧
      (∀ k, k ≠ n → u.req? k = s.req? k) ∧ u.rd (R.ADM_RING_DONE t) = s.rd (R.ADM_RING_DONE t) + 1 ∧
      u.rd (R.ADM_ACCEPT_CNT t) = satAdd32 (s.rd (R.ADM_ACCEPT_CNT t)) 1 ∧ u.mem = s.mem ∧ u.ms = s.ms ∧
      ∃ out l, u.outbox = s.outbox ++ .hostWrite (s.admAt t + 0x40) (1 :: 0 :: (leBytes 2 n ++ leBytes 4 0 ++ leBytes 8 s.ft.toNat ++ out)) false :: l) ∧
  (∀ (s : State) (t e x : Nat) (b : List Byte) (g : GenModel), let r := admRecOf b
    let frames := State.cdiv r.maxLen 128 * g.lay.nlayer * g.lay.s
    b.length = 128 → t < 64 → s.rdB (R.ADM_RING_CTL t) 31 = true → s.rdB (R.ADM_RING_CTL t) 30 = true → s.hostReach = true →
    s.rd (R.ADM_RING_DONE t) ≠ s.rd (R.ADM_RING_PROD t) → r.kind = 0 → admRangeOk r = true → bit (s.mdl r.mdl).ctl 31 = true →
    s.genModel modelOwner (s.mdl r.mdl).addr.toNat = .ok g → s.admTest t r frames (State.prefillOf (s.mdl r.mdl) r.prompt) true = (e, x) → e ≠ 0 →
    e < 256 →
    ∃ u, exec (.new t b true) s = .next u ∧ u.reqs = s.reqs ∧ u.rd (R.ADM_RING_DONE t) = s.rd (R.ADM_RING_DONE t) + 1 ∧
      u.rd (R.ADM_REFUSE_CNT t) = satAdd32 (s.rd (R.ADM_REFUSE_CNT t)) 1 ∧ u.rdB (R.INT_STAT (0x90 + t)) 0 = true ∧ u.mem = s.mem ∧
      ∃ out l, u.outbox = s.outbox ++ .hostWrite (s.admAt t + 0x40) (2 :: BitVec.ofNat 8 e :: (leBytes 2 0 ++ leBytes 4 x ++ out)) false :: l) ∧
  (∀ (s : State) (t x : Nat) (b : List Byte) (g : GenModel) (q : Req), let r := admRecOf b
    let frames := State.cdiv r.maxLen 128 * g.lay.nlayer * g.lay.s
    b.length = 128 → t < 64 → s.rdB (R.ADM_RING_CTL t) 31 = true → s.rdB (R.ADM_RING_CTL t) 30 = true → s.hostReach = true →
    s.rd (R.ADM_RING_DONE t) ≠ s.rd (R.ADM_RING_PROD t) → r.kind = 1 → admRangeOk r = true → bit (s.mdl r.mdl).ctl 31 = true →
    s.genModel modelOwner (s.mdl r.mdl).addr.toNat = .ok g → s.req? r.reqId = some q → q.tenant = t → q.st = 4 →
    s.admTest t r frames (State.cdiv (s.flashBytes q g * 2 ^ 23) 48) false = (0, x) →
    ∃ u p, exec (.resume t b true) s = .next u ∧ u.req? r.reqId = some p ∧ p.st = 1 ∧ p.tenant = t ∧ p.len = q.len ∧ p.step = q.step ∧
      p.resumed = true ∧ p.kvFrames = frames ∧ (∀ k, k ≠ r.reqId → u.req? k = s.req? k) ∧ u.mem = s.mem ∧
      u.rd (R.ADM_RING_DONE t) = s.rd (R.ADM_RING_DONE t) + 1 ∧ u.rd (R.ADM_ACCEPT_CNT t) = satAdd32 (s.rd (R.ADM_ACCEPT_CNT t)) 1) ∧
  (∀ (s : State) (t : Nat) (b : List Byte) (q : Req), let r := admRecOf b
    b.length = 128 → t < 64 → s.rdB (R.ADM_RING_CTL t) 31 = true → s.rdB (R.ADM_RING_CTL t) 30 = true → s.hostReach = true →
    s.rd (R.ADM_RING_DONE t) ≠ s.rd (R.ADM_RING_PROD t) → r.kind = 2 → r.ver = 1 → r.flags / 64 % 2 = 0 → s.req? r.reqId = some q →
    q.tenant = t → (q.st = 5 ∨ q.st = 6) →
    ∃ u, exec (.release t b true) s = .next u ∧ u.req? r.reqId = none ∧ (∀ k, k ≠ r.reqId → u.req? k = s.req? k) ∧
      u.rd (R.ADM_RING_DONE t) = s.rd (R.ADM_RING_DONE t) + 1 ∧ u.mem = s.mem ∧ u.ms = s.ms) ∧
  (∀ (s : State) (t n : Nat) (q : Req), t < 64 → n < 65536 → s.req? n = some q →
    ∃ u, exec (.admReqSelWrite t (BitVec.ofNat 32 n)) s = .next u ∧ u = { s with regs := u.regs, reqLatch := u.reqLatch } ∧
      Map.get u.reqLatch [] t = (if q.tenant = t then State.reqBytes q else []) ∧
      ∀ k, k ≠ t → Map.get u.reqLatch [] k = Map.get s.reqLatch [] k)

/-- SEED and REWIND_ALL outside an administrator session set ADMIN_DENY and change no generator. With no unit busy, SEED with RNG_CTL's soft
seed takes RNG_SEED as the seed of every generator at once, counts in RNG_SEED_GEN and raises SEEDED; a zero soft seed is refused
with CMD_ERR; without it the seed is drawn and is never zero. REWIND_ALL sets every generator to its start. The reseed interval run out
counts a reseed, or with the noise source failed ends the DRBG. NOISE_FAIL marks the source failed, counts and raises. (What a drawn
seed holds is free; a zero one is drawn again: log entry 40.) -/
def Obligations.RandomnessCommands : Prop :=
  (∀ s : State, s.adminOpen = false →
    (∃ t, exec .seed s = .next t ∧ t = { s with regs := t.regs } ∧ t.rdB R.SEM_ERR 1 = true ∧ RegsKept s t [R.SEM_ERR, R.GEN_WR_CNT 7, R.GEN_IGN_CNT 7]) ∧
    (∃ t, exec .rewindAll s = .next t ∧ t = { s with regs := t.regs } ∧ t.rdB R.SEM_ERR 1 = true ∧
      RegsKept s t [R.SEM_ERR, R.GEN_WR_CNT 7, R.GEN_IGN_CNT 7])) ∧
  (∀ s : State, s.adminOpen = true → s.rdB R.RNG_CTL 0 = true →
    (s.rd (R.RNG_SEED 0) ≠ 0 ∨ s.rd (R.RNG_SEED 1) ≠ 0 ∨ s.rd (R.RNG_SEED 2) ≠ 0 ∨ s.rd (R.RNG_SEED 3) ≠ 0) → s.busyGens = [] →
    ∃ t, exec .seed s = .next t ∧ t = { s with regs := t.regs, outbox := t.outbox, msix := t.msix, rng := t.rng } ∧
      t.rng.seedLo.toNat = (s.rd (R.RNG_SEED 0)).toNat + 2 ^ 32 * (s.rd (R.RNG_SEED 1)).toNat ∧
      t.rng.seedHi.toNat = (s.rd (R.RNG_SEED 2)).toNat + 2 ^ 32 * (s.rd (R.RNG_SEED 3)).toNat ∧ t.rng.gens = [] ∧ t.rng.pend = [] ∧
      t.rdF R.RNG_STAT 31 30 = 2 ∧ t.rdB R.RNG_STAT 27 = true ∧ t.rd R.RNG_SEED_GEN = s.rd R.RNG_SEED_GEN + 1 ∧ t.rdB (R.INT_STAT 7) 0 = true) ∧
  (∀ s : State, s.adminOpen = true → s.rdB R.RNG_CTL 0 = true →
    s.rd (R.RNG_SEED 0) = 0 → s.rd (R.RNG_SEED 1) = 0 → s.rd (R.RNG_SEED 2) = 0 → s.rd (R.RNG_SEED 3) = 0 →
    ∃ t, exec .seed s = .next t ∧ t = { s with regs := t.regs, outbox := t.outbox, msix := t.msix } ∧ t.rdB R.RNG_ERR 0 = true ∧
      t.rdB (R.INT_STAT 7) 3 = true) ∧
  (∀ s : State, s.adminOpen = true → s.rdB R.RNG_CTL 0 = false → s.rdB R.RNG_STAT 28 = true → s.busyGens = [] →
    ∃ t, exec .seed s = .next t ∧ t = { s with
        regs := t.regs, outbox := t.outbox, msix := t.msix, rng := t.rng, freeCtr := t.freeCtr,
        sem := { s.sem with drbg := t.sem.drbg, drbgReqs := t.sem.drbgReqs } } ∧
      ¬(t.rng.seedLo = 0 ∧ t.rng.seedHi = 0) ∧ t.rng.gens = [] ∧ t.rdF R.RNG_STAT 31 30 = 2 ∧ t.rdB R.RNG_STAT 27 = false ∧
      t.rd R.RNG_SEED_GEN = s.rd R.RNG_SEED_GEN + 1) ∧
  (∀ s : State, s.adminOpen = true → s.busyGens = [] →
    ∃ t, exec .rewindAll s = .next t ∧ t = { s with regs := t.regs, rng := { s.rng with gens := [], rewinds := [] } } ∧ RegsKept s t [R.GEN_WR_CNT 7]) ∧
  (∀ s : State, s.rdB R.RNG_STAT 29 = true →
    ∃ t, exec .drbgReseed s = .next t ∧ RegsKept s t [R.RNG_DRBG_RESEED_CNT, R.RNG_STAT] ∧
      t = { s with regs := t.regs, freeCtr := t.freeCtr, sem := { s.sem with drbg := t.sem.drbg, drbgReqs := 0 } } ∧
      t.sem.drbg.isSome = true ∧ t.rdB R.RNG_STAT 28 = true ∧
      t.rd R.RNG_DRBG_RESEED_CNT = satAdd32 (s.rd R.RNG_DRBG_RESEED_CNT) 1) ∧
  (∀ s : State, s.rdB R.RNG_STAT 29 = false → s.rdB R.RNG_STAT 28 = true →
    ∃ t, exec .drbgReseed s = .next t ∧ t = { s with regs := t.regs, outbox := t.outbox, msix := t.msix } ∧ t.rdB R.RNG_STAT 28 = false ∧
      t.rdB (R.INT_STAT 7) 2 = true ∧ RegsKept s t [R.RNG_STAT, R.INT_STAT 7]) ∧
  (∀ s : State, ∃ t, exec .noiseFail s = .next t ∧ t = { s with regs := t.regs, outbox := t.outbox, msix := t.msix } ∧
    t.rdB R.RNG_STAT 29 = false ∧ t.rd R.RNG_NOISE_FAIL_CNT = satAdd32 (s.rd R.RNG_NOISE_FAIL_CNT) 1 ∧ t.rdB R.RNG_ERR 1 = true ∧
    t.rdB (R.INT_STAT 7) 1 = true ∧ RegsKept s t [R.RNG_STAT, R.RNG_NOISE_FAIL_CNT, R.RNG_ERR, R.INT_STAT 7])

/-- Each service of the mailbox, where a test refuses it with a code other than 1, answers that code with no output, and changes nothing but
registers, what is sent, and the DRBG, of which the next challenge is drawn. A failed authentication (code 1) also counts and, at the eighth in a row, locks. A request while the mailbox
is busy is ignored. (The order of the tests is the model's reading: log entry 42.) -/
def Obligations.ServiceRefusals : Prop :=
  (∀ (s : State) (c : Instr) (svc code : Nat) (b body : List Byte),
    (c, svc) ∈ [(Instr.status b, 1), (.selftest b, 2), (.getCert b, 3), (.attest b, 4), (.claim b, 5), (.adminSet b, 6),
      (.tenantCreate b, 7), (.tenantDestroy b, 8), (.modelGrant b, 9), (.modelRekey b, 0x0A), (.fabricKey b, 0x0B),
      (.fabricActivate b, 0x0C), (.fwUpdate b body, 0x0D), (.adminOpen b, 0x0E), (.adminClose b, 0x0F), (.extend b, 0x10),
      (.clearTamper b, 0x11), (.zeroise b, 0x12), (.jtagUnlock b, 0x13)] →
    (mbxOf b).service = svc → s.hostReach = true →
    (s.rdB R.SEM_MBX_STAT 31 = false → (s.countWrite 4 false).mbxRefuse svc (mbxOf b) = some code → code ≠ 1 → code < 256 →
      ∃ t, exec c s = .next t ∧ Answered s t svc code [] ∧
        t = { s with
          regs := t.regs, outbox := t.outbox, msix := t.msix, freeCtr := t.freeCtr,
          sem := { s.sem with drbg := t.sem.drbg, drbgReqs := t.sem.drbgReqs } }) ∧
    (s.rdB R.SEM_MBX_STAT 31 = false → (s.countWrite 4 false).mbxRefuse svc (mbxOf b) = some 1 →
      ∃ t, exec c s = .next t ∧ t.rd R.SEM_MBX_STAT = BitVec.ofNat 32 (svc * 256 + 1) ∧
        t = { s with regs := t.regs, outbox := t.outbox, msix := t.msix, freeCtr := t.freeCtr, sem := t.sem } ∧
        t.sem = { s.sem with
          fails := s.sem.fails + 1, lockAt := if 8 ≤ s.sem.fails + 1 then some s.ft else s.sem.lockAt,
          drbg := t.sem.drbg, drbgReqs := t.sem.drbgReqs } ∧
        t.rdB R.SEM_ERR 0 = true ∧ t.rd R.SEM_AUTH_FAIL_CNT = satAdd32 (s.rd R.SEM_AUTH_FAIL_CNT) 1) ∧
    (s.rdB R.SEM_MBX_STAT 31 = true → ∃ t, exec c s = .next t ∧ RegIgnored s t R.SEM_MBX_CMD))

/-- Each service that passes its tests, with a well-formed payload, answers STATUS 0 with its output, and leaves: CLAIM the first
administrator, a KAK and the journal; ADMIN_SET that slot alone; TENANT_CREATE that context ACTIVE with the next generation;
TENANT_DESTROY (of a tenant that holds nothing) the context being destroyed, its quotas 0; MODEL_GRANT both bitmaps; MODEL_REKEY a
new generation; FABRIC_KEY the key in its slot; FABRIC_ACTIVATE the slot in force; ADMIN_OPEN and ADMIN_CLOSE the session; EXTEND that
measurement alone; CLEAR_TAMPER no record; ZEROISE and JTAG_UNLOCK a zeroisation under way: the session is closed and no port holds a key.
FABRIC_ACTIVATE also lets ports in HELD go on. -/
def Obligations.SecurityServices : Prop :=
  (∀ (s : State) (b : List Byte), SvcReady s 1 b →
    ∃ t, exec (.status b) s = .next t ∧ SvcOnly s t 1 0 (leBytes 4 (s.rd R.SEM_STAT).toNat ++ Config.identity 2 ++
      ([1, 2, 3, 4, 5] : List Nat).flatMap (fun g => slice (s.fwRunning g) 0x0C 4))) ∧
  (∀ (s : State) (b : List Byte), SvcReady s 2 b →
    ∃ t, exec (.selftest b) s = .next t ∧ SvcOnly s t 2 0 (leBytes 4 (t.rd R.SEM_SELFTEST).toNat) ∧
      (∀ i, 1 ≤ i → i ≤ 9 → t.rdB R.SEM_SELFTEST i = true) ∧ t.rdB R.RNG_STAT 29 = true) ∧
  (∀ (s : State) (b : List Byte), SvcReady s 3 b →
    ∃ t, exec (.getCert b) s = .next t ∧ SvcOnly s t 3 0 (State.akCert ++ s.kakCert)) ∧
  (∀ (s : State) (b : List Byte), SvcReady s 4 b → (svcPay b).length = 48 →
    ∃ t, exec (.attest b) s = .next t ∧ SvcOnly s t 4 0 ((svcIn s b).report (mbxOf b) (svcPay b)).1) ∧
  (∀ (s : State) (b : List Byte), SvcReady s 5 b → (svcPay b).length = 48 → s.rdB R.SEM_STAT 26 = false →
    ∃ t, exec (.claim b) s = .next t ∧ SvcOnly s t 5 0 [] ∧ t.rdB R.SEM_STAT 26 = true ∧ t.sem.journal = true ∧ t.sem.kak.isSome = true ∧
      Map.get? t.sem.admins 0 = some (svcPay b) ∧ ∀ k, k ≠ 0 → Map.get? t.sem.admins k = Map.get? s.sem.admins k) ∧
  (∀ (s : State) (b : List Byte), let k := ((svcPay b).getD 0 0).toNat
    SvcReady s 6 b → (svcPay b).length = 50 → k < 8 →
    ((svcPay b).getD 1 0 = 0 → ∃ t, exec (.adminSet b) s = .next t ∧ SvcOnly s t 6 0 [] ∧
      Map.get? t.sem.admins k = some ((svcPay b).drop 2) ∧ ∀ j, j ≠ k → Map.get? t.sem.admins j = Map.get? s.sem.admins j) ∧
    ((svcPay b).getD 1 0 = 1 → s.sem.admins.map (·.1) ≠ [k] → ∃ t, exec (.adminSet b) s = .next t ∧ SvcOnly s t 6 0 [] ∧
      Map.get? t.sem.admins k = none ∧ ∀ j, j ≠ k → Map.get? t.sem.admins j = Map.get? s.sem.admins j) ∧
    ((svcPay b).getD 1 0 = 1 → s.sem.admins.map (·.1) = [k] → ∃ t, exec (.adminSet b) s = .next t ∧ SvcOnly s t 6 3 [] ∧
      t.sem.admins = s.sem.admins)) ∧
  (∀ (s : State) (b : List Byte), let k := ((svcPay b).getD 0 0).toNat
    SvcReady s 7 b → (svcPay b).length = 49 → k < 64 → (Map.get s.tenants Tenant.none k).st = 0 →
    ∃ t, exec (.tenantCreate b) s = .next t ∧ Answered s t 7 0 [] ∧
      (∃ key, Map.get? t.tenants k = some ⟨1, (Map.get s.tenants Tenant.none k).gen + 1, (svcPay b).drop 1, key⟩) ∧
      (∀ j, j ≠ k → Map.get? t.tenants j = Map.get? s.tenants j) ∧ t.ms = s.ms ∧ t.mem = s.mem) ∧
  (∀ (s : State) (b : List Byte), let k := ((svcPay b).getD 0 0).toNat
    SvcReady s 8 b → (svcPay b).length = 1 → k < 64 → ((mbxOf b).role = 2 → (mbxOf b).id = k) → s.tenantActive k = true →
    s.tenantBusy k = false → s.slots = [] → s.ms.tiles = [] →
    ∃ t, exec (.tenantDestroy b) s = .next t ∧ Answered s t 8 0 [] ∧ (Map.get t.tenants Tenant.none k).st = 2 ∧
      (Map.get t.tenants Tenant.none k).identity = [] ∧
      (Map.get t.tenants Tenant.none k).key = [] ∧ (∀ j, j ≠ k → Map.get? t.tenants j = Map.get? s.tenants j) ∧
      (t.owner k).dQuota = 0 ∧ (t.owner k).fQuota = 0 ∧ (∀ p ∈ t.ms.rgn, State.rgnOwner p.2 ≠ k) ∧
      (∀ q ∈ t.reqs, q.2.tenant ≠ k) ∧ t.mem = s.mem) ∧
  (∀ (s : State) (k : Nat), (Map.get s.tenants Tenant.none k).st = 2 →
    ∃ t, exec (.tenantDestroyDone k) s = .next t ∧ t = { s with tenants := t.tenants } ∧
      Map.get? t.tenants k = some { Map.get s.tenants Tenant.none k with st := 0 } ∧
      ∀ j, j ≠ k → Map.get? t.tenants j = Map.get? s.tenants j) ∧
  (∀ (s : State) (b : List Byte), SvcReady s 9 b → (svcPay b).length = 16 →
    ∃ t, exec (.modelGrant b) s = .next t ∧ SvcOnly s t 9 0 [] ∧
      ∀ k, k < 64 → t.readGrant k = (leNat ((svcPay b).take 8)).testBit k ∧ t.turnRight k = (leNat ((svcPay b).drop 8)).testBit k) ∧
  (∀ (s : State) (b : List Byte), SvcReady s 0x0A b → (svcPay b).length = 0 → s.ms.tiles.any (fun t => s.modelTile t.1) = false →
    s.turn = none → ∃ t, exec (.modelRekey b) s = .next t ∧ SvcOnly s t 0x0A 0 [] ∧ t.sem.modelGen = s.sem.modelGen + 1) ∧
  (∀ (s : State) (b key : List Byte) (g : Nat), let k := ((svcPay b).getD 0 0).toNat
    SvcReady s 0x0B b → (svcPay b).length = 165 → k < 2 → leNat (slice (svcPay b) 1 3) = 0 → leNat (slice (svcPay b) 4 4) ≠ 0 →
    s.sem.kak = some g → openBlob g (svcPay b) = some key →
    ∃ t, exec (.fabricKey b) s = .next t ∧ Answered s t 0x0B 0 [] ∧ Map.get? t.kf k = some key ∧
      Map.get? t.sem.kfId k = some (leNat (slice (svcPay b) 4 4)) ∧ t.rdB R.SEM_KF_STAT (8 + k) = true ∧
      (∀ j, j ≠ k → Map.get? t.kf j = Map.get? s.kf j)) ∧
  (∀ (s : State) (b : List Byte), let k := ((svcPay b).getD 0 0).toNat
    SvcReady s 0x0C b → (svcPay b).length = 1 → k < 2 → s.rdB R.SEM_KF_STAT (8 + k) = true →
    ∃ t, exec (.fabricActivate b) s = .next t ∧ t.rd R.SEM_MBX_STAT = 0x0C00 ∧
      ((∀ p, p < 36 → s.portState p ≠ 4) → SvcOnly s t 0x0C 0 []) ∧ t.rdB R.SEM_KF_STAT 31 = true ∧ t.rdF R.SEM_KF_STAT 0 0 = k ∧
      t.rd R.SEM_KF_ID = BitVec.ofNat 32 (Map.get s.sem.kfId 0 k)) ∧
  (∀ (s : State) (b : List Byte), let n := leNat ((svcPay b).take 2)
    SvcReady s 0x0E b → (svcPay b).length = 3 → 1 ≤ n → n ≤ 3600 →
    ∃ t, exec (.adminOpen b) s = .next t ∧ SvcOnly s t 0x0E 0 [] ∧ t.adminOpen = true ∧
      t.rdB R.SEM_ADMIN_OPEN 30 = ((svcPay b).getD 2 0).getLsbD 0 ∧ t.sem.endAt = some (s.ft + BitVec.ofNat 64 (n * 4000000000))) ∧
  (∀ (s : State) (b : List Byte), SvcReady s 0x0F b → (svcPay b).length = 0 →
    ∃ t, exec (.adminClose b) s = .next t ∧ SvcOnly s t 0x0F 0 [] ∧ t.adminOpen = false ∧ t.sem.endAt = none) ∧
  (∀ (s : State) (b : List Byte), let i := ((svcPay b).getD 0 0).toNat
    SvcReady s 0x10 b → (svcPay b).length = 49 → 5 ≤ i → i ≤ 7 →
    ∃ t, exec (.extend b) s = .next t ∧ SvcOnly s t 0x10 0 [] ∧ t.meas i = sha384 (s.meas i ++ (svcPay b).drop 1) ∧
      ∀ j, j < 8 → j ≠ i → t.meas j = s.meas j) ∧
  (∀ (s : State) (b : List Byte), SvcReady s 0x11 b → (svcPay b).length = 0 →
    ∃ t, exec (.clearTamper b) s = .next t ∧ SvcOnly s t 0x11 0 [] ∧ t.rd R.SEM_TAMPER = 0) ∧
  (∀ (s : State) (b : List Byte), SvcReady s 0x12 b →
    ∃ t, exec (.zeroise b) s = .next t ∧ t.sem.zero = some ⟨0, false⟩ ∧ ZeroBegun s t ∧ t.rd R.SEM_MBX_STAT = 0x1200) ∧
  (∀ (s : State) (b : List Byte), SvcReady s 0x13 b →
    ∃ t, exec (.jtagUnlock b) s = .next t ∧ t.sem.zero = some ⟨0, true⟩ ∧ ZeroBegun s t ∧ t.rd R.SEM_MBX_STAT = 0x1300)

/-- FW_UPDATE from host memory installs the image and answers with the status that installing gives: an image that is not accepted answers
IMAGE, and one that is, without ACTIVATE, stands in its stage's inactive slot. The session and the lockout end when
their times come. A tamper sensor during a zeroisation joins its record. The sealed store erased leaves the SEM ZEROISED: no identities,
no keys, no journal, no tenant, and the debug path open where JTAG_UNLOCK asked. A failed test other than the noise source's puts a live
SEM in ERROR, and one of the noise source's fails the noise source. The fabric is released only where every stage's image is accepted, and
then leaves the SEM READY, the package READY and a fresh carve-out key. -/
def Obligations.SecurityEvents : Prop :=
  (∀ (s : State) (b body : List Byte), let p := svcPay b
    let x := (svcIn s b).fwInstall (p.take 160) (padTo (leNat (slice (p.take 160) 8 4)) body) ((p.getD 161 0).toNat.testBit 0) ((p.getD 161 0).toNat.testBit 1)
    let n := ((p.take 160).getD 2 0).toNat
    SvcReady s 0x0D b → s.errorFree 0x0D = false → p.length = 176 → (p.getD 160 0).toNat = 0 → (p.getD 161 0).toNat ≤ 3 →
    leNat (slice p 164 4) = 0 → 0 < leNat (slice (p.take 160) 8 4) → leNat (slice (p.take 160) 8 4) ≤ 67108864 → s.sem.fetch = none →
    exec (.fwUpdate b body) s = .next { x.2.mbxAnswer 0x0D x.1 [] ((svcIn s b).approved && x.1 == 0) with pending := s.pending } ∧
    ((n < 1 ∨ 5 < n ∨ s.imageOk n (p.take 160) (padTo (leNat (slice (p.take 160) 8 4)) body) = false) →
      ∃ t, exec (.fwUpdate b body) s = .next t ∧ SvcOnly s t 0x0D 7 []) ∧
    (1 ≤ n → n ≤ 5 → s.imageOk n (p.take 160) (padTo (leNat (slice (p.take 160) 8 4)) body) = true → (p.getD 161 0).toNat.testBit 0 = false →
      ∃ t, exec (.fwUpdate b body) s = .next t ∧ SvcOnly s t 0x0D 0 [] ∧
        Map.get? t.sem.images (2 * n + (1 - s.fwActive n)) = some (p.take 160 ++ padTo (leNat (slice (p.take 160) 8 4)) body))) ∧
  (∀ (s : State) (e : Word64), s.sem.endAt = some e → e ≤ s.ft →
    ∃ t, exec .adminSessionExpiry s = .next t ∧ t = { s with regs := t.regs, sem := { s.sem with endAt := none } } ∧
      t.adminOpen = false ∧ RegsKept s t [R.SEM_ADMIN_OPEN]) ∧
  (∀ (s : State) (e : Word64), s.sem.lockAt = some e → e.toNat + 4000000000 ≤ s.ft.toNat →
    exec .authLockoutExpiry s = .next { s with sem := { s.sem with lockAt := none, fails := 0 } }) ∧
  (∀ (s : State) (k : Nat) (z : Zero), k ≤ 4 → s.rung ≠ 4 → s.sem.zero = some z →
    ∃ t, exec (.tamperTrip k) s = .next t ∧ t = { s with regs := t.regs, outbox := t.outbox, msix := t.msix, sem := t.sem } ∧
      t.sem = { s.sem with zero := some { z with sensors := z.sensors ||| 2 ^ k } } ∧ t.rdB (R.INT_STAT 4) 2 = true) ∧
  (∀ (s : State) (k : Nat), k ≤ 4 → s.rung ≠ 4 → s.sem.zero = none →
    ∃ t, exec (.tamperTrip k) s = .next t ∧ t.sem.zero = some ⟨2 ^ k, false⟩ ∧ ZeroBegun s t ∧ t.rdB (R.INT_STAT 4) 2 = true) ∧
  (∀ (s : State) (z : Zero), s.sem.zero = some z →
    ∃ t, exec .sealedStoreErased s = .next t ∧ t.kf = [] ∧ t.sem.admins = [] ∧ t.sem.kak = none ∧ t.sem.journal = false ∧
      t.sem.modelKey = [] ∧ t.sem.journalKey = [] ∧
      t.sem.carveKey = [] ∧ t.sem.drbg = none ∧ t.sem.zero = none ∧ t.semState = 3 ∧ t.approved = false ∧ t.rdB R.SEM_STAT 26 = false ∧ t.rdB (R.INT_STAT 4) 3 = true ∧
      (z.jtag = true → t.rdB R.SEM_STAT 24 = true) ∧
      (∀ k, (Map.get t.tenants Tenant.none k).st = 0 ∧ (Map.get t.tenants Tenant.none k).identity = [] ∧
        (Map.get t.tenants Tenant.none k).key = []) ∧ t.mem = s.mem ∧ t.ops = s.ops) ∧
  (∀ (s : State) (k : Nat), 1 ≤ k → k ≤ 0x0B → k ≠ 9 → k ≠ 0x0A → s.semState ≤ 1 → (∀ p, p < 36 → s.portLive p = false) →
    ∃ t, exec (.selftestFail k) s = .next t ∧ t.semState = 2 ∧ t.approved = false ∧ t.rdF R.SEM_STAT 15 8 = k ∧
      t.rdB R.SEM_SELFTEST k = false ∧ t.adminOpen = false ∧ t.rdB (R.INT_STAT 4) 1 = true ∧ t.mem = s.mem ∧ t.ops = s.ops) ∧
  (∀ (s : State) (k : Nat), k = 9 ∨ k = 0x0A →
    ∃ t, exec (.selftestFail k) s = .next t ∧ t = { s with regs := t.regs, outbox := t.outbox, msix := t.msix } ∧
      t.rdB R.SEM_SELFTEST k = false ∧ t.rdB R.RNG_STAT 29 = false ∧ t.rdB R.RNG_ERR 1 = true ∧ t.rdB (R.INT_STAT 7) 1 = true ∧
      t.semState = s.semState) ∧
  (∀ s : State, s.semState = 0 → s.rdB R.SEM_STAT 22 = false → s.rdB R.SEM_STAT 25 = false → s.sem.zero = none → s.rung ≠ 4 →
    s.inFatal = false →
    (s.bootOk = false → exec .fabricRelease s = .next s) ∧
    (s.bootOk = true →
    ∃ t, exec .fabricRelease s = .next t ∧ t.semState = 1 ∧ t.pkgReady = true ∧ t.rdB R.SEM_STAT 25 = true ∧
      t.approved = !s.rdB R.SEM_STAT 24 ∧ t.sem.running = [] ∧ t.sem.raises = [] ∧ t.rdB (R.INT_STAT 5) 4 = true ∧ t.mem = s.mem ∧
      (t.sem.carveKey).length = 64))

/-- POWER_ON, MOD_RST_N with main input, and PKG_RESET bring the package up with causes 0, 1 and 2. An auxiliary input sets and clears AUX.
MAIN_UNDERVOLTAGE with the auxiliary input takes the package to Sleep, MAIN_OVERVOLTAGE locks it there, each with its error bit. BOOT_FALLBACK
of a stage that runs a TRY image clears that mark and brings the package up with cause 4. FATAL_ERROR latches cause and die, sets FATAL and
ends every operator; the first cause stays. A rail fault adds the loss of the main rails: Sleep, or off where no auxiliary input is present. The
system or the SerDes reference lost is the fatal error of cause 1 (die number 24 in PWR_FATAL: the model's choice, log entry 57), with every
port OFF. The OCXO reference lost sets OCXO_LOST alone. -/
def Obligations.PowerInputsAndResets : Prop :=
  (∀ (s : State) (aux : Bool), ∃ t, exec (.powerOn aux) s = .next t ∧ CameUp s t 0 ∧ t.pwr.main = true ∧ t.rdB R.PWR_STAT 22 = aux) ∧
  (∀ s : State, s.pwr.main = true → ∃ t, exec .modRstN s = .next t ∧ CameUp s t 1 ∧ t.pwr.locked = false ∧ t.pwr.alertHeld = false ∧
    t.rdB R.PWR_STAT 22 = s.rdB R.PWR_STAT 22) ∧
  (∀ s : State, s.pwr.main = false → ∃ t, exec .modRstN s = .next t ∧
    t = { s with regs := t.regs, pwr := { s.pwr with locked := false, alertHeld := false } } ∧
    t.rdB R.PWR_STAT 23 = false ∧ RegsKept s t [R.PWR_STAT]) ∧
  (∀ s : State, s.pwr.main = true → s.pwr.locked = false → ∃ t, exec .pkgReset s = .next t ∧ CameUp s t 2) ∧
  (∀ s : State, ∃ t, exec (.auxiliaryInputChange true) s = .next t ∧ OnlyRegs s t [R.PWR_STAT] ∧ t.rdB R.PWR_STAT 22 = true) ∧
  (∀ s : State, s.pwr.main = true →
    ∃ t, exec (.auxiliaryInputChange false) s = .next t ∧ OnlyRegs s t [R.PWR_STAT] ∧ t.rdB R.PWR_STAT 22 = false) ∧
  (∀ s : State, s.rdB R.PWR_STAT 22 = true → s.rung < 4 →
    (∃ t, exec .mainUndervoltage s = .next t ∧ t.rung = 4 ∧ t.pwr.main = false ∧ t.ops = [] ∧ t.rdB R.PWR_ERR 2 = true) ∧
    (∃ t, exec .mainOvervoltage s = .next t ∧ t.rung = 4 ∧ t.pwr.locked = true ∧ t.ops = [] ∧ t.rdB R.PWR_ERR 3 = true)) ∧
  (∀ (s : State) (g : Nat) (img : List Byte), s.semState = 0 → s.rdB R.SEM_STAT 25 = false → 1 ≤ g → g ≤ 5 → s.rung ≠ 4 →
    Map.get? s.sem.running g = some img →
    ∃ t, exec (.bootFallback g) s = .next t ∧ CameUp s t 4 ∧ t.rdB R.PWR_FW_STAT (7 + g) = false ∧ t.rdB R.PWR_FW_STAT 16 = true) ∧
  (∀ (s : State) (g : Nat), s.semState = 0 → s.rdB R.SEM_STAT 25 = false → 2 ≤ g → g ≤ 5 → s.rung ≠ 4 → Map.get? s.sem.running g = none →
    ∃ t, exec (.bootFallback g) s = .next t ∧ OnlyRegs s t [R.SEM_STAT] ∧ t.rdB R.SEM_STAT 22 = true) ∧
  (∀ (s : State) (cause die : Nat), 1 ≤ cause → cause ≤ 5 → s.inFatal = false → s.ops = [] → (∀ p, p < 36 → s.portState p = 0) →
    ∃ t, exec (.fatalError cause die) s = .next t ∧ t.rd R.PWR_FATAL = BitVec.ofNat 32 (2 ^ 31 + die % 256 * 256 + cause) ∧
      t.inFatal = true ∧ t.rdB (R.INT_STAT 5) 3 = true ∧ t.ops = [] ∧ t.strm = [] ∧ t.mem = s.mem ∧
      RegsKept s t [R.PWR_FATAL, R.PWR_STAT, R.INT_STAT 5]) ∧
  (∀ (s : State) (cause die : Nat), 1 ≤ cause → cause ≤ 5 → s.inFatal = true →
    ∃ t, exec (.fatalError cause die) s = .next t ∧ t = { s with freeCtr := t.freeCtr }) ∧
  (∀ (s : State) (die : Nat),
    (s.rdB R.PWR_STAT 22 = true → s.rung < 4 → ∃ t, exec (.railFault die) s = .next t ∧ t.rung = 4 ∧ t.ops = [] ∧ t.strm = [] ∧
      t.tenants = s.tenants ∧ (s.inFatal = false → t.rd R.PWR_FATAL = BitVec.ofNat 32 (2 ^ 31 + die % 256 * 256 + 6))) ∧
    (s.rdB R.PWR_STAT 22 = false → ∃ t, exec (.railFault die) s = .next t ∧ t.rung = 4 ∧ t.ops = [] ∧ t.strm = [] ∧ t.pwr.main = false ∧
      t.tenants = s.tenants)) ∧
  (∀ (s : State) (c : ClkRef) (k : Clk), (c, k) ∈ [(ClkRef.sys, { s.clk with sysLost := true }), (.serdes, { s.clk with serdesLost := true })] →
    (s.inFatal = false → ∃ t, exec (.clockRefLost c) s = .next t ∧ t.clk = k ∧ t.rd R.PWR_FATAL = 0x80001801 ∧ t.inFatal = true ∧
      t.ops = [] ∧ t.strm = [] ∧ (∀ p, p < 36 → t.portState p = 0) ∧ t.rdB (R.INT_STAT 5) 3 = true) ∧
    (s.inFatal = true → ∃ t, exec (.clockRefLost c) s = .next t ∧ t = { s with clk := k, freeCtr := t.freeCtr })) ∧
  (∀ s : State,
    ∃ t, exec (.clockRefLost .ocxo) s = .next t ∧ t = { s with regs := t.regs, clk := { s.clk with ocxoLost := true } } ∧
      t.rdB R.TIM_STAT 25 = true ∧ t.rdB R.TIM_ERR 2 = true ∧ RegsKept s t [R.TIM_STAT, R.TIM_ERR])

/-- A request for a lower rung is pending until its entry; one for the rung in force drops what was pending; one for a higher rung is taken
at once and counted; a bad code sets RUNG_ERR. RUNG_ENTRY takes a pending request for Idle or Doze when its conditions hold, and leaves the
state where they do not. AUTO_WAKE returns to Active. -/
def Obligations.RungCommands : Prop :=
  (∀ (s : State) (v : Word32), s.inFatal = false → s.rungCode (fld v 2 0) = true → s.rung < fld v 2 0 →
    ∃ t, exec (.rungRequest v) s = .next t ∧ t = { s with regs := t.regs, pwr := { s.pwr with want := some (fld v 2 0) } } ∧
      t.rdB R.PWR_STAT 28 = true ∧ t.rung = s.rung) ∧
  (∀ (s : State) (v : Word32), s.inFatal = false → s.rungCode (fld v 2 0) = true → s.rung = fld v 2 0 →
    ∃ t, exec (.rungRequest v) s = .next t ∧ t = { s with regs := t.regs, pwr := { s.pwr with want := none } } ∧
      t.rdB R.PWR_STAT 28 = false ∧ t.rung = s.rung) ∧
  (∀ (s : State) (v : Word32), s.inFatal = false → fld v 2 0 < s.rung → s.rung < 3 →
    ∃ t, exec (.rungRequest v) s = .next t ∧ t = { s with regs := t.regs, outbox := t.outbox, msix := t.msix, pwr := t.pwr } ∧
      t.rung = fld v 2 0 ∧ t.pwr.want = none ∧ t.rd R.PWR_RUNG_CNT = satAdd32 (s.rd R.PWR_RUNG_CNT) 1 ∧ t.rdB (R.INT_STAT 5) 0 = true) ∧
  (∀ (s : State) (v : Word32), s.inFatal = false → s.rungCode (fld v 2 0) = false →
    ∃ t, exec (.rungRequest v) s = .next t ∧ t = { s with regs := t.regs, outbox := t.outbox, msix := t.msix } ∧
      t.rdB R.PWR_ERR 0 = true ∧ t.rdB (R.INT_STAT 5) 7 = true ∧ t.rung = s.rung) ∧
  (∀ (s : State) (r : Nat), s.pwr.want = some r → s.rung < r → r < 3 → s.rungMay r = true → s.inFatal = false →
    ∃ t, exec .rungEntry s = .next t ∧ t = { s with regs := t.regs, outbox := t.outbox, msix := t.msix, pwr := t.pwr } ∧
      t.rung = r ∧ t.pwr.want = none ∧ t.rdB R.PWR_STAT 28 = false ∧ t.rd R.PWR_RUNG_CNT = satAdd32 (s.rd R.PWR_RUNG_CNT) 1) ∧
  (∀ (s : State) (r : Nat), s.pwr.want = some r → s.rungMay r = false → exec .rungEntry s = .next s) ∧
  (∀ s : State, 1 ≤ s.rung → s.rung ≤ 2 → s.rdB R.PWR_RUNG_CTL 0 = true → s.inFatal = false → s.rdB R.PWR_STAT 27 = true →
    ∃ t, exec .autoWake s = .next t ∧ t = { s with regs := t.regs, outbox := t.outbox, msix := t.msix, pwr := t.pwr } ∧
      t.rung = 0 ∧ t.pwr.want = none)

/-- Over the limit, with some die above the Ox floor and none hot, one step lowers the Ox issue of one die by one sixteenth, a die of the
greatest issue, and counts it; no clock changes. Below 95 % of the limit, with some clock below 2000, one step raises each such clock by 50
MHz, to 2000 at most. An overload puts every die at 800 MHz. A reading over the throttle or alert threshold is held, sets its bit and
interrupt; the end of the condition clears both. A reading at the shutdown threshold is the fatal error THERMAL, with
THERM_ALERT_N held and the main rails off. -/
def Obligations.LadderAndHeat : Prop :=
  (∀ (s : State) (p high vin aux : Nat), s.rung ≠ 4 → s.pwr.hot = [] → p < 4096 → s.rdF R.PWR_LIMIT 11 0 < p →
    (∃ d, d < 16 ∧ s.rdF R.PWR_OX_FLOOR 4 0 < s.oxOf d) →
    ∃ t d, exec (.powerLadderStep p high vin aux) s = .next t ∧ t = { s with regs := t.regs, outbox := t.outbox, msix := t.msix, pwr := t.pwr } ∧
      d < 16 ∧ t.oxOf d = s.oxOf d - 1 ∧ (∀ e, e < 16 → s.oxOf e ≤ s.oxOf d) ∧ (∀ e, e < 16 → e ≠ d → t.oxOf e = s.oxOf e) ∧
      (∀ e, e < 16 → t.clkOf e = s.clkOf e) ∧ t.rd R.PWR_THROTTLE_CNT = satAdd32 (s.rd R.PWR_THROTTLE_CNT) 1 ∧
      t.rdF R.PWR_POWER 11 0 = p ∧ t.rdF R.PWR_VIN 15 0 = vin % 65536) ∧
  (∀ (s : State) (p high vin aux : Nat), s.rung ≠ 4 → s.pwr.hot = [] → p < 4096 → p * 100 < 95 * s.rdF R.PWR_LIMIT 11 0 →
    (∃ d, d < 16 ∧ s.clkOf d < 2000) →
    ∃ t, exec (.powerLadderStep p high vin aux) s = .next t ∧ t = { s with regs := t.regs, pwr := t.pwr } ∧
      (∀ d, d < 16 → t.clkOf d = if s.clkOf d < 2000 then min 2000 (s.clkOf d + 50) else s.clkOf d) ∧
      (∀ d, d < 16 → t.oxOf d = s.oxOf d)) ∧
  (∀ s : State, ∃ t, exec .powerOverload s = .next t ∧ t = { s with regs := t.regs, outbox := t.outbox, msix := t.msix } ∧
    (∀ d, d < 16 → t.clkOf d = 800 ∧ t.oxOf d = s.oxOf d) ∧ t.rdB R.PWR_ERR 4 = true ∧ t.rdB (R.INT_STAT 5) 5 = true) ∧
  (∀ (s : State) (i : Nat) (x : Byte), i ≤ 40 → s.throttleAt (State.sensorKind i) < x.toInt →
    ∃ t, exec (.thermalThrottle i x) s = .next t ∧ t = { s with regs := t.regs, outbox := t.outbox, msix := t.msix, pwr := { s.pwr with temps := t.pwr.temps, hot := t.pwr.hot } } ∧
      t.tempOf i = x.toInt ∧ t.pwr.hot.contains i = true ∧ t.rdB R.PWR_STAT 24 = true ∧ t.rdB (R.INT_STAT 5) 1 = true) ∧
  (∀ (s : State) (i : Nat) (x : Byte), i ≤ 40 → s.alertAt (State.sensorKind i) ≤ x.toInt →
    ∃ t, exec (.thermalAlert i x) s = .next t ∧ t = { s with regs := t.regs, outbox := t.outbox, msix := t.msix, pwr := { s.pwr with temps := t.pwr.temps, alerts := t.pwr.alerts } } ∧
      t.tempOf i = x.toInt ∧ t.pwr.alerts.contains i = true ∧ t.rdB R.PWR_STAT 23 = true ∧ t.rdB (R.INT_STAT 5) 2 = true) ∧
  (∀ (s : State) (kind : Nat), (∀ i ∈ s.pwr.hot, State.sensorKind i = kind) →
    ∃ t, exec (.thermalConditionEnd kind false) s = .next t ∧ t = { s with regs := t.regs, pwr := { s.pwr with temps := t.pwr.temps, hot := [] } } ∧
      t.rdB R.PWR_STAT 24 = false ∧ RegsKept s t [R.PWR_STAT]) ∧
  (∀ (s : State) (i : Nat) (x : Byte), i ≤ 40 → (i < 25 ∧ 115 ≤ x.toInt ∨ 29 ≤ i ∧ 105 ≤ x.toInt) →
    (s.rdB R.PWR_STAT 22 = true → s.rung < 4 → ∃ t, exec (.thermalShutdown i x) s = .next t ∧ t.rung = 4 ∧ t.ops = [] ∧ t.strm = [] ∧
      t.pwr.alertHeld = true ∧ t.rdB R.PWR_STAT 23 = true ∧
      (s.inFatal = false → t.rd R.PWR_FATAL = BitVec.ofNat 32 (2 ^ 31 + (if i < 25 then i else 16 + (i - 29) / 2) * 256 + 7))) ∧
    (s.rdB R.PWR_STAT 22 = false → ∃ t, exec (.thermalShutdown i x) s = .next t ∧ t.rung = 4 ∧ t.ops = [] ∧ t.strm = [] ∧ t.pwr.main = false)) ∧
  (∀ (s : State) (i : Nat) (x : Byte), i ≤ 40 → x.toInt < 105 → exec (.thermalShutdown i x) s = .next (s.tempSet i x))

/-- With no operator held: CORE_FAULT of a live core with a spare pauses it, and touches no other core. CORE_SUBST_DONE puts the spare in its
place, with its SRAM clear, and counts. FENCE_CORE fences an idle live core of its die at once, FENCE_CLUSTER and FENCE_DIE every core of
theirs, UNIT_FAULT every core of its die by fault; a core that is not on the die, or not live, sets CMD_ERR. UNFENCE of a core fenced
by command makes it live with its SRAM clear. SPARE_SWAP of a live core with a spare pauses it as a fault does, and FENCE_TIMEOUT fences a core
whose fence still waits, with no more than the core's own bits changed among cores. -/
def Obligations.FencingAndSubstitution : Prop :=
  (∀ (s : State) (c : Nat), c < 384 → (s.core c).st = 0 → s.spareLeft c = true → s.ops = [] →
    ∃ t, exec (.coreFault c) s = .next t ∧ t.core c = ⟨1, false, s.ft, 0⟩ ∧ (∀ k, k ≠ c → t.core k = s.core k) ∧
      t.corePaused c = true ∧ t.mem = s.mem) ∧
  (∀ (s : State) (c : Nat), c < 384 → (s.core c).st = 1 → s.spareLeft c = true →
    ∃ t, exec (.coreSubstDone c) s = .next t ∧ t.core c = CoreRun.live ∧ (∀ k, k ≠ c → t.core k = s.core k) ∧
      t.rdF (R.CLU_CORE_MAP (c / 6)) (3 * (c % 6) + 2) (3 * (c % 6)) = s.rdF (R.CLU_CORE_MAP (c / 6)) 20 18 ∧
      t.spareLeft c = false ∧ t.rd (R.CDIE_SUBST_CNT (c / 24)) = satAdd32 (s.rd (R.CDIE_SUBST_CNT (c / 24))) 1 ∧
      t.rdB (R.INT_STAT (0x130 + c / 24)) 0 = true ∧
      ∀ a, sramBase + 4 * c * 0x400000 ≤ a → a < sramBase + 4 * (c + 1) * 0x400000 → Mem.get t.mem a = Mem.blank) ∧
  (∀ (s : State) (d : Nat), let c := s.rdF (R.CDIE_CORE_SEL d) 8 0
    d < 16 → c / 24 = d → (s.core c).st = 0 → s.coreBusy c = false → (∀ p ∈ s.coreRun, p.2.stop = false) → (s.core c).unit = 0 →
    ∃ t, exec (.fenceCore d) s = .next t ∧ (t.core c).st = 3 ∧ (t.core c).stop = false ∧ (∀ k, k ≠ c → t.core k = s.core k)) ∧
  (∀ (s : State) (d : Nat), let c := s.rdF (R.CDIE_CORE_SEL d) 8 0
    d < 16 → (c / 24 ≠ d ∨ (s.core c).st ≠ 0) →
    ∃ t, exec (.fenceCore d) s = .next t ∧ OnlyRegs s t [R.CDIE_ERR d, R.GEN_WR_CNT (0x130 + d), R.GEN_IGN_CNT (0x130 + d)] ∧
      t.rdB (R.CDIE_ERR d) 0 = true) ∧
  (∀ (s : State) (d : Nat), let u := s.rdF (R.CDIE_CORE_SEL d) 5 0
    d < 16 → u / 4 = d → s.coreRun = [] → s.ops = [] →
    ∃ t, exec (.fenceCluster d) s = .next t ∧ (∀ c, c / 6 = u → (t.core c).st = 3) ∧ (∀ c, c / 6 ≠ u → t.core c = s.core c)) ∧
  (∀ (s : State) (d : Nat), d < 16 → s.coreRun = [] → s.ops = [] →
    ∃ t, exec (.fenceDie d) s = .next t ∧ (∀ c, c / 24 = d → (t.core c).st = 3) ∧ (∀ c, c / 24 ≠ d → t.core c = s.core c)) ∧
  (∀ (s : State) (d : Nat), d < 16 → s.coreRun = [] → s.ops = [] →
    ∃ t, exec (.unitFault true d) s = .next t ∧ (∀ c, c / 24 = d → (t.core c).st = 2) ∧ (∀ c, c / 24 ≠ d → t.core c = s.core c)) ∧
  (∀ (s : State) (d : Nat), let c := s.rdF (R.CDIE_CORE_SEL d) 8 0
    d < 16 → c / 24 = d → (s.core c).st = 3 → (s.core c).unit = 0 →
    ∃ t, exec (.unfence d) s = .next t ∧ t.core c = CoreRun.live ∧ (∀ k, k ≠ c → t.core k = s.core k) ∧
      t.rdB (R.CLU_CORE_MAP (c / 6)) (22 + c % 6) = false ∧
      ∀ a, sramBase + 4 * c * 0x400000 ≤ a → a < sramBase + 4 * (c + 1) * 0x400000 → Mem.get t.mem a = Mem.blank) ∧
  (∀ (s : State) (d : Nat), let c := s.rdF (R.CDIE_CORE_SEL d) 8 0
    d < 16 → c / 24 = d → (s.core c).st = 0 → s.spareLeft c = true →
    s.ops = [] → ∃ t, exec (.spareSwap d) s = .next t ∧ t.core c = ⟨1, false, s.ft, 0⟩ ∧ (∀ k, k ≠ c → t.core k = s.core k) ∧
      t.corePaused c = true ∧ t.mem = s.mem) ∧
  (∀ (s : State) (c : Nat), c < 384 → (s.core c).stop = true →
    (s.core c).at_.toNat + s.rdF (R.CDIE_FENCE_TMO (c / 24)) 19 0 * 4000 ≤ s.ft.toNat →
    (∀ p ∈ s.ops, s.opHeld p.1 = false) →
    ∃ t, exec (.fenceTimeout c) s = .next t ∧ t.core c = ⟨3, false, s.ft, (s.core c).unit⟩ ∧ (∀ k, k ≠ c → t.core k = s.core k) ∧
      t.rdB (R.CLU_CORE_MAP (c / 6)) (22 + c % 6) = true ∧ t.rdB (R.INT_STAT (0x130 + c / 24)) 1 = true)

/-- TELEMETRY_PERIOD while telemetry is on stores one item with the next number and starts a new interval. A core whose switch waits takes the
new image when it is idle, or returns to the old one with FW_REVERT where its self-check fails (a free value), and keeps the old one when
FW_SWITCH_TMO has passed. BULK READ is answered with the bytes asked for, or NACKed.
BULK DATA of the part asked for is kept and the next asked for; with the last the image is installed and the service answers; a NACK ends the fetch with IMAGE; a lost part is asked for again. BULK TELEM
makes an item. An optic's readiness and fault show in XPT_OPTIC_STAT. -/
def Obligations.ServiceCommands : Prop :=
  (∀ s : State, s.telOn = true → s.rung ≠ 4 → s.rdB R.PWR_TELEM_CTL 30 = false →
    ∃ t, exec .telemetryPeriod s = .next t ∧
      t = { s.telStore (BitVec.ofNat 64 (s.pwr.telNo + 1)) s.telUnits with
            pending := s.pending, pwr := { s.pwr with telNo := s.pwr.telNo + 1, tel := ⟨0, 0, 0, s.telTotals⟩ } }) ∧
  (∀ (s : State) (c : Nat), s.pwr.fwSwitch.contains c = true → s.coreBusy c = false →
    (Config.switchFails s.freeCtr = false →
      ∃ t, exec (.fwCoreSwitch c) s = .next t ∧ t.pwr = { s.pwr with fwSwitch := s.pwr.fwSwitch.filter (· != c) } ∧ t.mem = s.mem ∧ t.ops = s.ops ∧
        RegsKept s t [R.INT_STAT 5] ∧ (s.pwr.fwSwitch.all (· == c) = true → t.rdB (R.INT_STAT 5) 6 = true)) ∧
    (Config.switchFails s.freeCtr = true →
      ∃ t, exec (.fwCoreSwitch c) s = .next t ∧
        t.pwr = { s.pwr with fwSwitch := s.pwr.fwSwitch.filter (· != c), fwOld := s.pwr.fwOld ++ [c] } ∧ t.mem = s.mem ∧ t.ops = s.ops ∧
        RegsKept s t [R.INT_STAT 5, R.PWR_FW_STAT] ∧ t.rdB R.PWR_FW_STAT 17 = true)) ∧
  (∀ (s : State) (c : Nat), s.pwr.fwSwitch.contains c = true →
    s.pwr.fwSince.toNat + s.rdF R.PWR_FW_SWITCH_TMO 15 0 * 4000000 ≤ s.ft.toNat →
    ∃ t, exec (.fwSwitchTimeout c) s = .next t ∧
      t.pwr = { s.pwr with fwSwitch := s.pwr.fwSwitch.filter (· != c), fwOld := s.pwr.fwOld ++ [c] } ∧ t.mem = s.mem ∧ t.ops = s.ops ∧
      RegsKept s t [R.INT_STAT 5]) ∧
  (∀ (s : State) (src g tag off len : Nat), 1 ≤ g → g ≤ 5 → 1 ≤ len → len ≤ 65536 → off + len ≤ (s.fwImage g (s.fwActive g)).length →
    exec (.bulkRead src g tag off len) s = .next (s.bulkSend src 2 g tag off len (slice (s.fwImage g (s.fwActive g)) off len))) ∧
  (∀ (s : State) (src g tag off len : Nat), (g = 0 ∨ 5 < g ∨ len = 0 ∨ 65536 < len ∨ (s.fwImage g (s.fwActive g)).length < off + len) →
    exec (.bulkRead src g tag off len) s = .next (s.bulkSend src 3 g tag off len [])) ∧
  (∀ (s : State) (f : FwFetch) (data : List Byte), s.sem.fetch = some f →
    data.length = min 65536 (leNat (slice f.hdr 8 4) - f.got.length) → f.got.length + data.length < leNat (slice f.hdr 8 4) →
    exec (.bulkData f.member f.stage f.tag (160 + f.got.length) data) s =
      .next (s.fetchNext { f with got := f.got ++ data, tag := (f.tag + 1) % 2 ^ 32 })) ∧
  (∀ (s : State) (f : FwFetch) (data : List Byte), s.sem.fetch = some f → s.errorFree 0x0D = false →
    data.length = min 65536 (leNat (slice f.hdr 8 4) - f.got.length) → f.got.length + data.length = leNat (slice f.hdr 8 4) →
    let x := s.fwInstall f.hdr (f.got ++ data) f.activate f.raiseSvn
    ∃ t, exec (.bulkData f.member f.stage f.tag (160 + f.got.length) data) s = .next t ∧ t = { x.2.fetchEnd x.1 with pending := s.pending } ∧
      t.sem.fetch = none ∧ t.rd R.SEM_MBX_STAT = BitVec.ofNat 32 (0x0D00 + x.1)) ∧
  (∀ (s : State) (f : FwFetch), s.sem.fetch = some f →
    ∃ t, exec (.bulkNack f.member f.stage f.tag) s = .next t ∧ SvcOnly s t 0x0D 7 [] ∧ t.sem.fetch = none) ∧
  (∀ (s : State) (src : Nat) (data : List Byte), s.telOn = true →
    ∃ t n, exec (.bulkTelem src data) s = .next t ∧ t = { s.used.telStore n (padTo 192 data) with pending := s.pending } ∧
      n.toNat / 2 ^ 48 % 2 ^ 15 = src % 2 ^ 15) ∧
  (∀ (s : State) (f : FwFetch), s.sem.fetch = some f → f.since.toNat + s.rdF R.FBD_E2E_TMO 15 0 * 4000 ≤ s.ft.toNat →
    exec .bulkReadTimeout s = .next (s.fetchNext f)) ∧
  (∀ (s : State) (p : Nat), 32 ≤ p → p < 36 →
    (∃ t, exec (.opticReady p) s = .next t ∧ OnlyRegs s t [preg p 0x200] ∧ t.rdF (preg p 0x200) 31 28 = 0xE) ∧
    (∃ t, exec (.opticFault p) s = .next t ∧ t = { s with regs := t.regs, outbox := t.outbox, msix := t.msix } ∧
      t.rdB (preg p 0x200) 28 = true ∧ t.rdB (R.INT_STAT (portPage p)) 8 = true ∧ RegsKept s t [preg p 0x200, R.INT_STAT (portPage p)]))

/-- REGISTER_WRITE of UAR_BAUD takes a divisor from 0x0021 to 0xFFFF; any other value leaves it and counts in GEN_IGN_CNT. INT_SET sets the
bits of INT_STAT it writes, and no other register but the count. CLR sets the three counts of the page, and ERR_INFO with its address, to 0.
A write of 1 to VALID clears the latched record. A read of a _LO counter answers it and latches its _HI half for that requester alone.
A register write of the host that is not 4 aligned bytes is refused, sets HST_ERR, counts, and changes no register but those of that refusal and
the error record; one of an MSI-X vector's data word sets that word alone. (The pages named here
are not the RNG's, which only an administrator writes, R412.) -/
def Obligations.RegisterCommands : Prop :=
  (∀ (s : State) (req : Nat) (v : Word32), 1 ≤ req → 0x21 ≤ fld v 15 0 →
    ∃ t, exec (.registerWrite req R.UAR_BAUD 4 v) s = .next t ∧ t = { s with regs := t.regs } ∧ fld (t.rd R.UAR_BAUD) 15 0 = fld v 15 0 ∧
      RegsKept s t [R.UAR_BAUD, R.GEN_WR_CNT 0x0A, R.GEN_IGN_CNT 0x0A] ∧
      t.rd (R.GEN_IGN_CNT 0x0A) = satAdd32 (s.rd (R.GEN_IGN_CNT 0x0A)) (if fld v 31 16 = 0 then 0 else 1)) ∧
  (∀ (s : State) (req : Nat) (v : Word32), 1 ≤ req → fld v 15 0 < 0x21 →
    ∃ t, exec (.registerWrite req R.UAR_BAUD 4 v) s = .next t ∧ t = { s with regs := t.regs } ∧
      RegsKept s t [R.GEN_WR_CNT 0x0A, R.GEN_IGN_CNT 0x0A] ∧
      t.rd (R.GEN_IGN_CNT 0x0A) = satAdd32 (s.rd (R.GEN_IGN_CNT 0x0A)) 1) ∧
  (∀ (s : State) (a size : Nat) (v : Word32), a < 2 ^ 24 → s.hostOn = true → (size ≠ 4 ∨ a % 4 ≠ 0) →
    ∃ t, exec (.registerWrite 0 a size v) s = .next t ∧
      t = { s with regs := t.regs, outbox := t.outbox, msix := t.msix, freeCtr := t.freeCtr, pwr := t.pwr } ∧
      t.rdB R.HST_ERR 0 = true ∧ t.rdB R.HST_ERR 1 = true ∧ t.rdB (R.INT_STAT 8) 2 = true ∧
      t.rd R.HST_REFUSED_CNT = satAdd32 (s.rd R.HST_REFUSED_CNT) 1 ∧
      RegsKept s t [R.HST_ERR, R.HST_REFUSED_CNT, R.INT_STAT 8, R.ERR_INFO 8, R.ERR_ADDR_LO 8, R.ERR_ADDR_HI 8]) ∧
  (∀ (s : State) (n : Nat) (v : Word32), n < 2048 → s.hostOn = true →
    ∃ t, exec (.registerWrite 0 (0xF00000 + 16 * n + 8) 4 v) s = .next t ∧ t = { s with msix := t.msix } ∧
      Map.get? t.msix n = some { Map.get s.msix Msix.none n with data := v } ∧ ∀ k, k ≠ n → Map.get? t.msix k = Map.get? s.msix k) ∧
  (∀ (s : State) (b : Blk) (n : Nat × Nat) (p : Nat) (v : Word32), pageOf p = some (b, n) → b ≠ .rng →
    ∃ t, exec (.intSet p v) s = .next t ∧ t = { s with regs := t.regs, outbox := t.outbox, msix := t.msix } ∧
      t.rd (R.INT_STAT p) = s.rd (R.INT_STAT p) ||| v ∧ RegsKept s t [R.INT_STAT p, R.GEN_WR_CNT p]) ∧
  (∀ (s : State) (b : Blk) (n : Nat × Nat) (p : Nat), pageOf p = some (b, n) → b ≠ .rng →
    ∃ t, exec (.clr p) s = .next t ∧ t.rd (R.GEN_RD_CNT p) = 0 ∧ t.rd (R.GEN_WR_CNT p) = 0 ∧ t.rd (R.GEN_IGN_CNT p) = 0 ∧
      t.rd (R.ERR_INFO p) = 0 ∧ t.rd (R.ERR_ADDR_LO p) = 0 ∧ t.rd (R.ERR_ADDR_HI p) = 0 ∧ t.mem = s.mem ∧ t.ops = s.ops ∧
      t.depCtr = s.depCtr ∧ t.rd (R.INT_STAT p) = s.rd (R.INT_STAT p)) ∧
  (∀ (s : State) (b : Blk) (n : Nat × Nat) (p : Nat) (v : Word32), pageOf p = some (b, n) → b ≠ .rng → bit v 31 = true →
    ∃ t, exec (.errLatchClear (R.ERR_INFO p) v) s = .next t ∧ t = { s with regs := t.regs } ∧ t.rd (R.ERR_INFO p) = 0 ∧
      t.rd (R.ERR_ADDR_LO p) = 0 ∧ t.rd (R.ERR_ADDR_HI p) = 0 ∧
      RegsKept s t [R.ERR_INFO p, R.ERR_ADDR_LO p, R.ERR_ADDR_HI p, R.GEN_WR_CNT p, R.GEN_IGN_CNT p]) ∧
  (∀ (s : State) (req a : Nat), latchingAt a = true → latchingAt (a - 4) = false → a ≠ R.UAR_RXD →
    ∃ t, exec (.counterLoRead req a) s = .next t ∧ t = { s with regs := t.regs, latched := t.latched, outbox := t.outbox } ∧
      t.outbox = s.outbox ++ [.regData req a (s.readReg a)] ∧
      Map.get? t.latched (req * 2 ^ 32 + a + 4) = some (s.readReg (a + 4)) ∧
      (∀ k, k ≠ req * 2 ^ 32 + a + 4 → Map.get? t.latched k = Map.get? s.latched k) ∧ RegsKept s t [R.GEN_RD_CNT (a / 4096)])

/-- A read through an enabled window acts as its owner on the unified range: of a tile in DRAM it is answered with the bytes, of one in flash it
waits for the flash read, and one its owner may not make returns 0xFF bytes. Under DIAG a window reads SRAM, and the raw DRAM window answers a
unit of a tile's frame with that unit's ciphertext (R440). A window access that is disabled, too long, or reaches nothing returns 0xFF bytes or
is discarded, sets HST_ERR and counts. A write to a tile in DRAM stores its bytes alone, counts them, and marks its units poisoned where the
host's data was. A read that is late returns 0xFF bytes with WIN_TMO. A lost completion sets DMA_ERR; that of a ring in host memory stops the
ring with cause 0b011. The link down drops the window reads, counts and raises LINK_DOWN; up again it raises LINK_UP. Bus Master Enable is
held. PERST_N and a function level reset disable the windows and clear MSI-X. Unmasking a vector with its PBA bit sends its message once.
HOST_RETRAIN leaves all but its count as it was (what the link trains to comes with HOST_LINK_UP: log entry 44). -/
def Obligations.HostPort : Prop :=
  (∀ (s : State) (off len fresh o : Nat), s.hostOn = true → Map.get? s.winReads fresh = none → s.winOwner off = some o →
    off < 2 ^ 32 → 0 < len → len ≤ 512 → off % 2 ^ 28 + len ≤ 2 ^ 28 → s.winReach o (s.winAddr off) len = some 0 →
    s.winAddr off % tileBytes + len ≤ tileBytes →
    (s.deny o (s.winAddr off) false = none → (s.tile (s.winAddr off / tileBytes)).st = .dram →
      ∃ t, exec (.windowRead off len fresh) s = .next t ∧
        t = { s with ms := { s.ms with frames := t.ms.frames }, regs := t.regs, winReads := t.winReads
                     outbox := s.outbox ++ [.winData fresh (s.bytesAt (s.winAddr off) len) (s.anyPoison (s.winAddr off) len)] } ∧
        Map.get? t.winReads fresh = none ∧ (∀ k, k ≠ fresh → Map.get? t.winReads k = Map.get? s.winReads k) ∧
        DramRegs s t [R.HST_TX_BYTES_LO, R.HST_TX_BYTES_LO + 4] ∧ t.rd64 R.HST_TX_BYTES_LO = (s.rd64 R.HST_TX_BYTES_LO + len) % 2 ^ 64) ∧
    (s.deny o (s.winAddr off) false = none → (s.tile (s.winAddr off / tileBytes)).st = .flash →
      ∃ t, exec (.windowRead off len fresh) s = .next t ∧
        t = { s with ms := { s.ms with reads := t.ms.reads, own := t.ms.own, asks := t.ms.asks }, winReads := t.winReads } ∧
        Map.get? t.winReads fresh = some ⟨s.winAddr off, len, s.ft⟩ ∧
        Map.get? t.ms.reads (Map.nextKey s.ms.reads) = some ⟨s.winAddr off / tileBytes, s.ft,
          .acc ⟨o, none, .read, s.winAddr off, [], len, 2 ^ 64 + fresh, none, []⟩, false, none⟩) ∧
    ((s.deny o (s.winAddr off) false).isSome = true →
      ∃ t, exec (.windowRead off len fresh) s = .next t ∧
        t = { s with regs := t.regs, outbox := t.outbox, msix := t.msix, freeCtr := t.freeCtr, pwr := t.pwr, winReads := t.winReads } ∧
        t.outbox.getLast? = some (.winData fresh (List.replicate len 0xFF) false) ∧ Map.get? t.winReads fresh = none ∧
        t.rdB R.HST_ERR 0 = true ∧ t.rd R.HST_REFUSED_CNT = satAdd32 (s.rd R.HST_REFUSED_CNT) 1)) ∧
  (∀ (s : State) (off len fresh o : Nat), s.hostOn = true → Map.get? s.winReads fresh = none → s.winOwner off = some o →
    off < 2 ^ 32 → 0 < len → len ≤ 512 → off % 2 ^ 28 + len ≤ 2 ^ 28 → s.winReach o (s.winAddr off) len = some 1 →
    ∃ t, exec (.windowRead off len fresh) s = .next t ∧
      t = { s with regs := t.regs
                   outbox := s.outbox ++ [.winData fresh (s.bytesAt (s.winAddr off) len) (s.anyPoison (s.winAddr off) len)] } ∧
      RegsKept s t [R.HST_TX_BYTES_LO, R.HST_TX_BYTES_LO + 4]) ∧
  (∀ (s : State) (off fresh o n : Nat) (f : Frame), s.hostOn = true → Map.get? s.winReads fresh = none → s.winOwner off = some o →
    off < 2 ^ 32 → off % 2 ^ 28 + 64 ≤ 2 ^ 28 → s.winAddr off % 64 = 0 → s.winReach o (s.winAddr off) 64 = some 2 →
    (let w := s.winAddr off - rawDram
     let b := w % stackBytes
     let a := n * tileBytes + b % tileBytes
     s.ms.fenced.contains (w / stackBytes) = false → 4096 ≤ b / tileBytes →
     Map.get? s.ms.frames (w / stackBytes * 2 ^ 24 + b / tileBytes) = some f → f.use = .tile n → s.poisoned a = false →
     ∃ t, exec (.windowRead off 64 fresh) s = .next t ∧
       t = { s with regs := t.regs, outbox := s.outbox ++ [.winData fresh (s.cipherUnit (s.tileOwner n) (s.globalAddr a) a) false] } ∧
       RegsKept s t [R.HST_TX_BYTES_LO, R.HST_TX_BYTES_LO + 4])) ∧
  (∀ (s : State) (off len fresh : Nat), s.hostOn = true → Map.get? s.winReads fresh = none →
    (∀ o, s.winOwner off = some o → 2 ^ 32 ≤ off ∨ len = 0 ∨ 512 < len ∨ 2 ^ 28 < off % 2 ^ 28 + len ∨ s.winReach o (s.winAddr off) len = none) →
    ∃ t, exec (.windowRead off len fresh) s = .next t ∧
      t = { s with regs := t.regs, outbox := t.outbox, msix := t.msix, freeCtr := t.freeCtr, pwr := t.pwr } ∧
      t.outbox.getLast? = some (.winData fresh (List.replicate len 0xFF) false) ∧ t.rdB R.HST_ERR 0 = true ∧
      t.rd R.HST_REFUSED_CNT = satAdd32 (s.rd R.HST_REFUSED_CNT) 1) ∧
  (∀ (s : State) (off o : Nat) (data : List Byte) (poisoned : Bool), s.hostOn = true → s.winOwner off = some o → off < 2 ^ 32 → data ≠ [] →
    data.length ≤ 512 → off % 2 ^ 28 + data.length ≤ 2 ^ 28 → s.winReach o (s.winAddr off) data.length = some 0 →
    s.winAddr off % tileBytes + data.length ≤ tileBytes → s.deny o (s.winAddr off) true = none →
    (s.tile (s.winAddr off / tileBytes)).st = .dram →
    ∃ t, exec (.windowWrite off data poisoned) s = .next t ∧
      t = { s with ms := { s.ms with frames := t.ms.frames, poison := t.ms.poison }, mem := t.mem, regs := t.regs } ∧
      Mem.read t.mem (s.winAddr off) data.length = data ∧
      (∀ a, a < s.winAddr off ∨ s.winAddr off + data.length ≤ a → Mem.get t.mem a = Mem.get s.mem a) ∧
      DramRegs s t [R.HST_RX_BYTES_LO, R.HST_RX_BYTES_LO + 4, R.HST_ERR] ∧
      t.rd64 R.HST_RX_BYTES_LO = (s.rd64 R.HST_RX_BYTES_LO + data.length) % 2 ^ 64 ∧
      (poisoned = true → t.rdB R.HST_ERR 4 = true ∧ ∀ i, i < data.length → t.poisoned (s.winAddr off + i) = true) ∧
      (poisoned = false → t.rd R.HST_ERR = s.rd R.HST_ERR)) ∧
  (∀ (s : State) (off : Nat) (data : List Byte), s.hostOn = true →
    (∀ o, s.winOwner off = some o → 2 ^ 32 ≤ off ∨ data = [] ∨ 512 < data.length ∨ 2 ^ 28 < off % 2 ^ 28 + data.length ∨
      s.winReach o (s.winAddr off) data.length = none ∨ s.winReach o (s.winAddr off) data.length = some 3) →
    ∃ t, exec (.windowWrite off data false) s = .next t ∧
      t = { s with regs := t.regs, outbox := t.outbox, msix := t.msix, freeCtr := t.freeCtr, pwr := t.pwr } ∧
      t.rdB R.HST_ERR 0 = true ∧ t.rd R.HST_REFUSED_CNT = satAdd32 (s.rd R.HST_REFUSED_CNT) 1) ∧
  (∀ (s : State) (fresh : Nat) (r : WinRead), Map.get? s.winReads fresh = some r →
    r.at_.toNat + s.rdF R.HST_WIN_TMO 15 0 * 4000 ≤ s.ft.toNat →
    ∃ t, exec (.windowReadTimeout fresh) s = .next t ∧ Map.get? t.winReads fresh = none ∧ t.mem = s.mem ∧
      t.outbox.getLast? = some (.winData fresh (List.replicate r.len 0xFF) false) ∧ t.rdB R.HST_ERR 2 = true ∧ t.rdB (R.INT_STAT 8) 4 = true) ∧
  (∀ s : State, ∃ t, exec (.hostCplTimeout none) s = .next t ∧ t = { s with regs := t.regs, outbox := t.outbox, msix := t.msix } ∧
    t.rdB R.HST_ERR 3 = true ∧ t.rdB (R.INT_STAT 8) 3 = true ∧ RegsKept s t [R.HST_ERR, R.INT_STAT 8]) ∧
  (∀ (s : State) (k : Nat), k < 1024 → s.ringEn (k / 16) (k % 16) = true → s.rdB (R.CRG_RING_CTL (k / 16) (k % 16)) 30 = true →
    ∃ t, exec (.hostCplTimeout (some k)) s = .next t ∧ t.ringEn (k / 16) (k % 16) = false ∧ t.ringStopped (k / 16) (k % 16) = true ∧
      t.rdF (R.CRG_RING_STAT (k / 16) (k % 16)) 30 27 = 11 ∧ t.ringWaiting (k / 16) (k % 16) = [] ∧ t.rdB R.HST_ERR 3 = true ∧ t.mem = s.mem) ∧
  (∀ s : State, ∃ t, exec .hostRetrain s = .next t ∧ OnlyRegs s t [R.GEN_WR_CNT 8] ∧
    t.rd (R.GEN_WR_CNT 8) = satAdd32 (s.rd (R.GEN_WR_CNT 8)) 1) ∧
  (∀ s : State, s.host.up = true →
    ∃ t, exec .hostLinkDown s = .next t ∧
      t = { s with regs := t.regs, outbox := t.outbox, msix := t.msix, host := { s.host with up := false }, winReads := [] } ∧
      t.rdB R.HST_LINK_STAT 31 = false ∧ t.rd R.HST_LINKDOWN_CNT = satAdd32 (s.rd R.HST_LINKDOWN_CNT) 1 ∧
      t.rdB (R.INT_STAT 8) 0 = true) ∧
  (∀ (s : State) (speed width : Nat) (flit : Bool), (width = 8 ∨ width = 16) → 1 ≤ speed → speed ≤ s.rdF R.HST_LINK_CTL 3 0 →
    s.rung ≠ 4 → s.host.up = false →
    ∃ t, exec (.hostLinkUp speed width flit) s = .next t ∧
      t = { s with regs := t.regs, outbox := t.outbox, msix := t.msix, host := { s.host with up := true } } ∧
      t.rdB R.HST_LINK_STAT 31 = true ∧ t.rdF R.HST_LINK_STAT 27 24 = speed ∧ t.rdF R.HST_LINK_STAT 20 16 = width ∧
      t.rdB R.HST_LINK_STAT 15 = (flit && speed == 6) ∧ t.rdB R.HST_LINK_STAT 14 = s.rdB R.HST_LINK_STAT 14 ∧
      t.rdB (R.INT_STAT 8) 1 = true) ∧
  (∀ (s : State) (on : Bool), s.hostOn = true →
    ∃ t, exec (.busMasterEnable on) s = .next t ∧ t = { s with regs := t.regs, host := { s.host with bme := on } } ∧
      t.rdB R.HST_LINK_STAT 14 = on ∧ RegsKept s t [R.HST_LINK_STAT]) ∧
  (∀ s : State, s.rung ≠ 4 → s.host.up = true → (∀ k, k < 1024 → s.ringEn (k / 16) (k % 16) = false) →
    ∃ t, exec .perstN s = .next t ∧
      t = { s with regs := t.regs, outbox := t.outbox, msix := [], winReads := [], host := ⟨false, false⟩ } ∧
      ∀ w, w < 16 → t.rdB (R.HST_WIN_CTL w) 31 = false) ∧
  (∀ s : State, s.hostOn = true → (∀ k, k < 1024 → s.ringEn (k / 16) (k % 16) = false) →
    ∃ t, exec .functionLevelReset s = .next t ∧
      t = { s with regs := t.regs, outbox := t.outbox, msix := t.msix, winReads := [], host := ⟨true, false⟩ } ∧
      (∀ w, w < 16 → t.rdB (R.HST_WIN_CTL w) 31 = false) ∧ t.rdB (R.INT_STAT 8) 5 = true) ∧
  (∀ (s : State) (v : Nat) (e : Msix), v < 2048 → Map.get? s.msix v = some e → e.mask = true → e.pend = true →
    ∃ t, exec (.msixUnmask v) s = .next t ∧ t = { s with outbox := s.outbox ++ [.msix v], msix := t.msix } ∧
      Map.get? t.msix v = some { e with mask := false, pend := false } ∧ ∀ k, k ≠ v → Map.get? t.msix k = Map.get? s.msix k)

/-- While the always-on domain is powered each always-served command answers with the word its row of the table gives, little-endian,
counts in SMB_CMD_CNT and changes nothing else. SENSORS, TELEM and LAST_STATUS answer from READY; before READY each of those, REG_READ and
REG_WRITE is NACKed, SMB_NACK_CNT counts it, and nothing else changes. (SMB_TEMP_MAX before READY: the sensors read so far, a reading of
the spec in log entry 47.) -/
def Obligations.SmbusAnswers : Prop :=
  (∀ s : State, s.powered = true →
    (∃ t w, exec .smbStatus s = .next t ∧ SmbServed s t 0x00 (leBytes 2 w) ∧ w < 2 ^ 16 ∧
      w / 2 ^ 13 = s.rdF R.PWR_STAT 31 29 ∧ w.testBit 12 = s.rdB R.PWR_STAT 27 ∧ w.testBit 11 = s.rdB R.PWR_STAT 26 ∧
      w.testBit 10 = s.rdB R.PWR_STAT 23 ∧ w.testBit 9 = s.rdB R.PWR_STAT 22 ∧ w.testBit 8 = s.rdB R.PWR_STAT 28 ∧
      w / 16 % 16 = s.semState ∧ w % 16 = 0) ∧
    (∃ t, exec .smbPower s = .next t ∧ SmbServed s t 0x01 (leBytes 2 (s.rdF R.PWR_POWER 11 0))) ∧
    (∃ t, exec .smbVin s = .next t ∧ SmbServed s t 0x02 (leBytes 2 (s.rdF R.PWR_VIN 15 0))) ∧
    (∃ t, exec .smbFatal s = .next t ∧ SmbServed s t 0x04 (leBytes 2 (s.rdF R.PWR_FATAL 15 0))) ∧
    (∃ t, exec .smbResetCause s = .next t ∧ SmbServed s t 0x05 [(s.rd R.PWR_RESET_CAUSE).setWidth 8]) ∧
    (∃ t, exec .smbProto s = .next t ∧ SmbServed s t 0x07 [1]) ∧
    (∃ t, exec .smbIdent s = .next t ∧
      SmbServed s t 0x06 (32 :: padTo 16 (Config.identity 0) ++ s.fwVerOf 1 ++ s.fwVerOf 2 ++ List.replicate 8 0)) ∧
    (s.pkgReady = true → ∃ t x, exec .smbTempMax s = .next t ∧ SmbServed s t 0x03 [BitVec.ofInt 8 x] ∧
      (∀ i, i < 41 → s.tempOf i ≤ x) ∧ (x = -128 ∨ ∃ i, i < 41 ∧ s.tempOf i = x))) ∧
  (∀ s : State, s.powered = true → s.pkgReady = true →
    (∃ t, exec .smbSensors s = .next t ∧ SmbServed s t 0x10 (41 :: (List.range 41).map (fun i => BitVec.ofInt 8 (s.tempOf i)))) ∧
    (∃ t, exec .smbTelem s = .next t ∧ SmbServed s t 0x11 (64 :: padTo 64 s.pwr.unit100)) ∧
    (∃ t, exec .lastStatus s = .next t ∧ SmbServed s t 0x14 [s.smb.last])) ∧
  (∀ (s : State) (c : Instr), s.powered = true → s.pkgReady = false →
    (c = .smbSensors ∨ c = .smbTelem ∨ c = .lastStatus ∨ (∃ p o, c = .regRead p o) ∨ ∃ p o v b, c = .regWrite p o v b) →
    ∃ t, exec c s = .next t ∧ t = { s with regs := t.regs, outbox := s.outbox ++ [.smbNack] } ∧
      RegsKept s t [R.SMB_NACK_CNT] ∧ t.rd R.SMB_NACK_CNT = satAdd32 (s.rd R.SMB_NACK_CNT) 1)

/-- From READY, REG_READ of a page in the table answers status 0 and the register's value; of no register it answers status 2. REG_WRITE to
a permitted register takes effect with status 0; to any other it sets status 1 and to no register status 2, and changes no other register;
with a PEC that does not match, or none where PEC_REQ = 1, it is discarded with status 4, counted, and sets PEC in SMB_ERR. A bus timeout
counts in SMB_TMO_CNT and sets TIMEOUT. -/
def Obligations.SmbusRegisters : Prop :=
  (∀ (s : State) (p o : Nat), s.powered = true → s.pkgReady = true → State.smbNoReg p o = false →
    latchingAt (4096 * p + o) = false → latchingAt (4096 * p + o - 4) = false → 4096 * p + o ≠ R.UAR_RXD →
    ∃ t, exec (.regRead p o) s = .next t ∧ t = { s with regs := t.regs, outbox := t.outbox, smb := { s.smb with last := 0 } } ∧
      (let d : List Byte := 5 :: 0 :: leBytes 4 (s.readReg (4096 * p + o)).toNat
       t.outbox = s.outbox ++ [.smb d (pecOf (State.smbRead 0x12 (4 :: leBytes 2 p ++ leBytes 2 o) d))]) ∧
      RegsKept s t [R.SMB_CMD_CNT, R.GEN_RD_CNT p]) ∧
  (∀ (s : State) (p o : Nat), s.powered = true → s.pkgReady = true → State.smbNoReg p o = true →
    ∃ t d, exec (.regRead p o) s = .next t ∧ d.length = 4 ∧
      t.outbox = s.outbox ++ [.smb (5 :: 2 :: d) (pecOf (State.smbRead 0x12 (4 :: leBytes 2 p ++ leBytes 2 o) (5 :: 2 :: d)))] ∧ t.smb = { s.smb with last := 2 } ∧
      RegsKept s t [R.SMB_CMD_CNT] ∧ t.mem = s.mem) ∧
  (∀ (s : State) (p o : Nat) (v : Word32), s.powered = true → s.pkgReady = true → State.smbNoReg p o = false →
    State.smbMay (4096 * p + o) = true →
    exec (.regWrite p o v (some (pecOf (regWriteBytes p o v)))) s =
      .next { ((s.bump R.SMB_CMD_CNT).lastStatus 0).regWrite (4096 * p + o) v with pending := s.pending }) ∧
  (∀ (s : State) (v : Word32), s.powered = true → s.pkgReady = true →
    ∃ t, exec (.regWrite 9 (R.SMB_GPIO_EDGE_EN % 4096) v (some (pecOf (regWriteBytes 9 (R.SMB_GPIO_EDGE_EN % 4096) v)))) s = .next t ∧
      t = { s with regs := t.regs, smb := { s.smb with last := 0 } } ∧ t.rd R.SMB_GPIO_EDGE_EN = v ∧
      RegsKept s t [R.SMB_CMD_CNT, R.SMB_GPIO_EDGE_EN, R.GEN_WR_CNT 9, R.GEN_IGN_CNT 9]) ∧
  (∀ (s : State) (p o : Nat) (v : Word32), s.powered = true → s.pkgReady = true →
    (State.smbNoReg p o = true ∨ State.smbMay (4096 * p + o) = false) →
    ∃ t, exec (.regWrite p o v (some (pecOf (regWriteBytes p o v)))) s = .next t ∧
      t = { s with regs := t.regs, smb := { s.smb with last := if State.smbNoReg p o then 2 else 1 } } ∧ RegsKept s t [R.SMB_CMD_CNT]) ∧
  (∀ (s : State) (p o : Nat) (v : Word32) (b : Option Byte), s.powered = true → s.pkgReady = true →
    ((b ≠ none ∧ b ≠ some (pecOf (regWriteBytes p o v))) ∨ (b = none ∧ s.rdB R.SMB_CTL 0 = true)) →
    ∃ t, exec (.regWrite p o v b) s = .next t ∧
      t = { s with regs := t.regs, smb := { s.smb with last := 4 }, outbox := t.outbox, msix := t.msix } ∧
      RegsKept s t [R.SMB_PEC_ERR_CNT, R.SMB_ERR, R.INT_STAT 9] ∧
      t.rd R.SMB_PEC_ERR_CNT = satAdd32 (s.rd R.SMB_PEC_ERR_CNT) 1 ∧ t.rdB R.SMB_ERR 1 = true ∧ t.rdB (R.INT_STAT 9) 1 = true) ∧
  (∀ (s : State), s.powered = true →
    ∃ t, exec .smbBusTimeout s = .next t ∧ t = { s with regs := t.regs, outbox := t.outbox, msix := t.msix } ∧
      RegsKept s t [R.SMB_TMO_CNT, R.SMB_ERR, R.INT_STAT 9] ∧
      t.rd R.SMB_TMO_CNT = satAdd32 (s.rd R.SMB_TMO_CNT) 1 ∧ t.rdB R.SMB_ERR 2 = true ∧ t.rdB (R.INT_STAT 9) 1 = true)

/-- With HOST_OWN set, a good character joins the receive FIFO, or is dropped with OE when 64 are held, and a byte written to UAR_TXD joins
the transmit FIFO; without HOST_OWN, or with 64 held, it is discarded and sets TX_OVF. UART_TX_CHAR sends the oldest byte, in order.
UART_RXD_READ answers the oldest received character and takes it. Each console command of the management processor prints its report
and the prompt, and changes nothing but the output and its log. -/
def Obligations.ConsoleUart : Prop :=
  (∀ (s : State) (b : Byte), s.pkgReady = true → s.rdB R.UAR_CTL 0 = false → s.rdB R.UAR_CTL 31 = true → s.uart.rx.length ≠ 64 →
    ∃ t, exec (.uartRxChar b false false) s = .next t ∧
      t = { s with regs := t.regs, outbox := t.outbox, msix := t.msix, uart := { s.uart with rx := s.uart.rx ++ [⟨b, false, false⟩], lowLine := false } } ∧
      (s.uart.rx = [] → t.rdB (R.INT_STAT 0x0A) 0 = true) ∧ RegsKept s t [R.INT_STAT 0x0A]) ∧
  (∀ (s : State) (b : Byte), s.pkgReady = true → s.rdB R.UAR_CTL 0 = false → s.uart.rx.length = 64 →
    ∃ t, exec (.uartRxChar b false false) s = .next t ∧
      t = { s with regs := t.regs, outbox := t.outbox, msix := t.msix, uart := { s.uart with lowLine := false } } ∧
      t.rdB R.UAR_ERR 1 = true ∧ t.rd R.UAR_OE_CNT = satAdd32 (s.rd R.UAR_OE_CNT) 1 ∧ t.rdB (R.INT_STAT 0x0A) 2 = true) ∧
  (∀ (s : State) (b : Byte), s.rdB R.UAR_CTL 31 = true → s.uart.tx.length < 64 →
    ∃ t, exec (.uartTxWrite b) s = .next t ∧ t = { s with regs := t.regs, uart := { s.uart with last := b, tx := s.uart.tx ++ [b] } } ∧
      RegsKept s t [R.GEN_WR_CNT 0x0A]) ∧
  (∀ (s : State) (b : Byte), (s.rdB R.UAR_CTL 31 = false ∨ 64 ≤ s.uart.tx.length) →
    ∃ t, exec (.uartTxWrite b) s = .next t ∧
      t = { s with regs := t.regs, outbox := t.outbox, msix := t.msix, uart := { s.uart with last := b } } ∧
      t.rdB R.UAR_ERR 3 = true ∧ t.rdB (R.INT_STAT 0x0A) 2 = true ∧
      RegsKept s t [R.UAR_ERR, R.INT_STAT 0x0A, R.GEN_WR_CNT 0x0A, R.GEN_IGN_CNT 0x0A]) ∧
  (∀ (s : State) (b c : Byte) (l : List Byte), s.uart.tx = b :: c :: l → s.rdB R.UAR_CTL 0 = false →
    ∃ t, exec .uartTxChar s = .next t ∧ t = { s with outbox := s.outbox ++ [.con (.char b)], uart := t.uart } ∧
      t.uart = { s.uart with tx := c :: l, log := t.uart.log }) ∧
  (∀ (s : State) (x : RxChar) (l : List RxChar), s.uart.rx = x :: l →
    ∃ t w, exec .uartRxdRead s = .next t ∧ t = { s with regs := t.regs, outbox := s.outbox ++ [.regData 0 R.UAR_RXD w], uart := { s.uart with rx := l } } ∧
      bit w 31 = true ∧ bit w 9 = x.brk ∧ bit w 8 = x.fe ∧ fld w 7 0 = x.data.toNat ∧ fld w 30 10 = 0 ∧ RegsKept s t [R.GEN_RD_CNT 0x0A]) ∧
  (∀ (s : State) (c : Instr) (k : Nat), s.pkgReady = true → s.rdB R.UAR_CTL 31 = false →
    (c, k) ∈ [(Instr.conHelp, 0), (.conVer, 1), (.conStat, 2), (.conTemp, 3), (.conErr, 4), (.conLog, 5)] →
    ∃ t, exec c s = .next t ∧ t = { s with outbox := s.outbox ++ [.con (.report k (s.conVals k)), .con (.char 0x78), .con (.char 0x7A),
        .con (.char 0x3E), .con (.char 0x20)], uart := { s.uart with log := t.uart.log } } ∧
      t.uart.log.length = min 65536 (s.uart.log.length + 5))

/-- Each JTAG instruction of the table loads its code, selects its register and sets who drives the pins, and changes nothing else: EXTEST
drives them from the cells, SAMPLE/PRELOAD leaves them the core's, CLAMP holds them, HIGHZ floats them; IDCODE captures 0x1250034F; every
other code, and a debug code while the path is closed, is BYPASS, whose register captures 0. A change on a GPIO pin sets that pin's level,
and an enabled edge is recorded with the interrupt. -/
def Obligations.JtagAndGpio : Prop :=
  (∀ (s : State) (pins cells : List Bool), pins.length = 67 → cells.length = 67 →
    (∃ t, exec (.extest pins cells) s = .next t ∧ t = { s with jtag := ⟨0, cells, 1, t.jtag.dr⟩ } ∧
      ∀ i, i < 67 → t.jtag.dr.testBit i = pins.getD i false) ∧
    (∃ t, exec (.samplePreload pins cells) s = .next t ∧ t = { s with jtag := ⟨2, cells, 0, t.jtag.dr⟩ } ∧
      ∀ i, i < 67 → t.jtag.dr.testBit i = pins.getD i false)) ∧
  (∀ s : State, exec .idcode s = .next { s with jtag := ⟨1, s.jtag.cells, 0, 0x1250034F⟩ } ∧
    exec .clamp s = .next { s with jtag := ⟨4, s.jtag.cells, 2, 0⟩ } ∧
    exec .highz s = .next { s with jtag := ⟨5, s.jtag.cells, 3, 0⟩ }) ∧
  (∀ (s : State) (op : Nat), op < 256 → 2 < op → op ≠ 4 → op ≠ 5 → (op < 0x80 ∨ 0x8F < op) →
    exec (.bypass op) s = .next { s with jtag := ⟨BitVec.ofNat 8 op, s.jtag.cells, 0, 0⟩ }) ∧
  (∀ (s : State) (op : Nat), 0x80 ≤ op → op ≤ 0x8F → s.rdB R.SEM_STAT 24 = false →
    exec (.jtagDebug op) s = .next { s with jtag := ⟨BitVec.ofNat 8 op, s.jtag.cells, 0, 0⟩ }) ∧
  (∀ (s : State) (op : Nat), 0x80 ≤ op → op ≤ 0x8F → s.rdB R.SEM_STAT 24 = true →
    ∃ t, exec (.jtagDebug op) s = .next t ∧ t = { s with freeCtr := t.freeCtr, jtag := t.jtag } ∧ t.jtag.ir = BitVec.ofNat 8 op ∧
      t.jtag.cells = s.jtag.cells ∧ t.jtag.drive = 0) ∧
  (∀ (s : State) (g : Nat) (up : Bool), g < 16 →
    ∃ t, exec (.gpioEdge g up) s = .next t ∧ t = { s with regs := t.regs, outbox := t.outbox, msix := t.msix, smb := { s.smb with pins := t.smb.pins } } ∧
      t.smb.pins.getLsbD g = up ∧ (∀ k, k ≠ g → t.smb.pins.getLsbD k = s.smb.pins.getLsbD k) ∧
      (let k := if up then g else 16 + g
       (s.rdB R.SMB_GPIO_EDGE_EN k = true → t.rdB R.SMB_GPIO_EDGE k = true ∧ t.rdB (R.INT_STAT 9) 0 = true ∧
         RegsKept s t [R.SMB_GPIO_EDGE, R.INT_STAT 9]) ∧
       (s.rdB R.SMB_GPIO_EDGE_EN k = false → t.regs = s.regs)))

/-- For every command c and every state with c at the front of its queue, a step is exec of c on that state with the queue's rest. (Software
drives the device by commands; that they wait in one queue is the model's choice, log entry 2.) -/
def Obligations.StepRunsFront : Prop :=
  ∀ (s : State) (c : Instr) (rest : List Instr), s.pending = c :: rest → step s = exec c { s with pending := rest }

/-- A step with an empty queue answers a next state in which only fabric time and the time unit's own state may differ. In Sleep nothing
changes. On the other rungs fabric time and the offset still to be slewed away advance together by one unit of 250 ps: no time is lost or
won, fabric time never moves back, and the offset never grows; it shrinks by one unit only at the 100,000th tick since it last did. (That an
idle step is one tick is the model's choice, log entry 2; that the slew takes the greatest rate R376 allows is too.) -/
def Obligations.IdleTick : Prop :=
  ∀ (s : State), s.pending = [] →
    ∃ t, step s = .next t ∧ t.pending = [] ∧ t = { s with ft := t.ft, tim := t.tim } ∧
      (s.rung = 4 → t = s) ∧
      (s.rung ≠ 4 →
        t.ft + BitVec.ofInt 64 t.tim.slew = s.ft + BitVec.ofInt 64 s.tim.slew + 1 ∧
        (t.ft = s.ft ∨ t.ft = s.ft + 1 ∨ t.ft = s.ft + 2) ∧
        t.tim = { s.tim with slew := t.tim.slew, tick := t.tim.tick } ∧
        (s.tim.slew = 0 → t.ft = s.ft + 1 ∧ t.tim.slew = 0) ∧
        (t.tim.slew ≠ s.tim.slew → 100000 ≤ s.tim.tick + 1 ∧ t.tim.tick = 0 ∧ t.tim.slew.natAbs + 1 = s.tim.slew.natAbs))

/-- A well-formed command, whatever its operands and in whatever state, reachable or not, ends in a next state and leaves the queue as it
was; a command whose list has a length no sender can send is refused by name (log entry 7), and no command ever faults. A step from a state
whose waiting commands are all well formed ends in a next state whose waiting commands are the rest of them, again all well formed, so
that every such queue drains in as many steps as it is long. -/
def Obligations.EveryCommandCompletes : Prop :=
  (∀ (c : Instr) (s : State), c.wf = true → ∃ t, exec c s = .next t ∧ t.pending = s.pending) ∧
  (∀ (c : Instr) (s : State), c.wf = false → ∃ n, exec c s = .refused (.illFormed n)) ∧
  (∀ (s : State), QueueWf s → ∃ t, step s = .next t ∧ t.pending = s.pending.tail ∧ QueueWf t) ∧
  (∀ (s : State), QueueWf s → ∃ t, stepsTo s.pending.length s t ∧ t.pending = [])

/-- State.reset has an empty queue, empty memory in canonical form, no operator, stream or request, and the reset values of the register
tables: among them the ring and queue controls of every tenant, ADM_CAP, the SRAM split of every cluster, the numeric controls of every
Ox page, the tier and transport time-outs and the time unit's window; INT_STAT, INT_EN and the counters of every page read 0. -/
def Obligations.ResetState : Prop :=
  State.reset.pending = [] ∧ QueueWf State.reset ∧ State.reset.mem = [] ∧ Mem.wf State.reset.mem = true ∧
  State.reset.ops = [] ∧ State.reset.strm = [] ∧ State.reset.reqs = [] ∧
  (∀ i j, i < 64 → j < 16 → State.reset.rd (R.CRG_RING_CTL i j) = 0x00060000#32 ∧ State.reset.rd (R.EVQ_CTL i j) = 0x06200000#32) ∧
  (∀ i, i < 64 → State.reset.rd (R.ADM_CAP i) = 0x64#32 ∧ State.reset.rd (R.CLU_SRAM_SPLIT i) = 0x00680068#32) ∧
  (∀ i, i < 1536 → State.reset.rd (R.OXE_NUM_CTL i) = 0x10#32) ∧
  State.reset.rd R.MPD_TIER_TMO = 0x1388#32 ∧ State.reset.rd R.FBD_E2E_TMO = 0xFA0#32 ∧ State.reset.rd R.FBD_E2E_TRIES = 4#32 ∧
  State.reset.rd R.TIM_PPS_WIN = 0x3E8#32 ∧
  (∀ p, (pageOf p).isSome = true → State.reset.rd (R.INT_STAT p) = 0 ∧ State.reset.rd (R.INT_EN p) = 0 ∧
    State.reset.rd (R.GEN_WR_CNT p) = 0 ∧ State.reset.rd (R.GEN_IGN_CNT p) = 0 ∧ State.reset.rd (R.GEN_RD_CNT p) = 0)

/-- The fields of every register of the map lie inside its word and apart from each other. A write of such a register gives each RW field
the value written where the field accepts it and leaves it otherwise; leaves each RO field; clears each W1C bit written 1 and keeps the
others; leaves W1S fields (their effect is the register's own) and every reserved bit. It counts in GEN_IGN_CNT exactly when it puts a 1
into a reserved bit, a field refuses its value, or it writes an RO field a value other than it holds. -/
def Obligations.FieldWrites : Prop :=
  (∀ a, FieldsFit (fieldsAt a)) ∧
  (∀ (fs : List Fld) (old v : Word32), FieldsFit fs →
    (∀ f ∈ fs, f.acc = .rw → fld (writeFields fs old v).1 f.hi f.lo =
      if f.min ≤ fld v f.hi f.lo ∧ fld v f.hi f.lo ≤ f.max then fld v f.hi f.lo else fld old f.hi f.lo) ∧
    (∀ f ∈ fs, f.acc = .ro ∨ f.acc = .w1s → fld (writeFields fs old v).1 f.hi f.lo = fld old f.hi f.lo) ∧
    (∀ f ∈ fs, f.acc = .w1c → ∀ i, f.lo ≤ i → i ≤ f.hi → bit (writeFields fs old v).1 i = (bit old i && !bit v i)) ∧
    (∀ i, i < 32 → (∀ f ∈ fs, i < f.lo ∨ f.hi < i) → bit (writeFields fs old v).1 i = bit old i) ∧
    ((writeFields fs old v).2 = true ↔
      (∃ i, i < 32 ∧ bit v i = true ∧ ∀ f ∈ fs, i < f.lo ∨ f.hi < i) ∨
      (∃ f ∈ fs, f.acc = .rw ∧ (fld v f.hi f.lo < f.min ∨ f.max < fld v f.hi f.lo)) ∨
      (∃ f ∈ fs, f.acc = .ro ∧ fld v f.hi f.lo ≠ fld old f.hi f.lo)))

/-- On any ADM page, in an administrator session, with VALID of the selected model entry 1: a write of ADM_MDL_ADDR, BASE, ROW, CTX or
PREFILL is ignored: it is counted as such and nothing else changes. A write of ADM_MDL_CTL leaves NREC whatever it writes. One that clears
VALID is ignored while a request of the model is active; with none active VALID clears, and every other entry and every other register but
the page's counts is as it was. -/
def Obligations.ModelEntryLock : Prop :=
  ∀ (s : State) (p k : Nat) (v : Word32), 0x90 ≤ p → p ≤ 0xCF → s.adminOpen = true → k = s.rdF R.ADM_MDL_SEL 3 0 → bit (s.mdl k).ctl 31 = true →
    (∀ off, off ∈ [0x184, 0x188, 0x18C, 0x190, 0x194, 0x198] →
      ∃ t, exec (.registerWrite 1 (4096 * p + off) 4 v) s = .next t ∧ RegIgnored s t (4096 * p + off)) ∧
    (∃ t, exec (.registerWrite 1 (4096 * p + 0x19C) 4 v) s = .next t ∧ fld (t.mdl k).ctl 5 0 = fld (s.mdl k).ctl 5 0 ∧
      (bit v 31 = false → (∃ r ∈ s.reqs, r.2.mdl = k) → RegIgnored s t (4096 * p + 0x19C)) ∧
      (bit v 31 = false → (∀ r ∈ s.reqs, r.2.mdl ≠ k) →
        t = { s with regs := t.regs, mdls := t.mdls } ∧ bit (t.mdl k).ctl 31 = false ∧ (∀ j, j ≠ k → t.mdl j = s.mdl j) ∧
        RegsKept s t [R.GEN_WR_CNT p, R.GEN_IGN_CNT p]))

/-- The sum of a group of products of finite numbers is finite and exact: at every exponent not above those of the products it is the sum
of their signed mantissas. Where it is zero it is negative only if every product is -0. The group sum is added to the accumulator by the
same rule: where the two add to exactly zero the accumulator becomes zero, with no flag, and negative only if both are -0. -/
def Obligations.ZeroSums : Prop :=
  (∀ (l : List (XNum × XNum)) (e : Int), l ≠ [] →
    (∀ p ∈ l, ∃ n m x, p.1.mulX p.2 = (.fin n m x, false) ∧ e ≤ x) →
    (groupSum l).2 = false ∧ ∃ n m x, (groupSum l).1 = .fin n m x ∧ e ≤ x ∧
      (groupSum l).1.toIntAt e = (l.map (fun p => (p.1.mulX p.2).1.toIntAt e)).sum ∧
      (m = 0 → n = l.all (fun p => (p.1.mulX p.2).1.isZero && (p.1.mulX p.2).1.sign))) ∧
  (∀ (n n' : Bool) (m m' : Nat) (x x' e : Int), e ≤ x → e ≤ x' →
    (XNum.fin n m x).toIntAt e + (XNum.fin n' m' x').toIntAt e = 0 →
    accAdd (.fin n m x) (.fin n' m' x') = (.fin (m == 0 && n && m' == 0 && n') 0 (FpFmt.qmin .fp32), fNone))

/-- In FP32, BF16, FP16 and E5M2 a code decodes to NaN exactly when its exponent is all ones and its mantissa is not 0, whatever its sign;
in E4M3 exactly when its magnitude is 0x7F; the meanings of every operator see no more of it than that. No code of E4M3 is an infinity,
and magnitudes 0x78 to 0x7E decode to the finite values (8 + m) times 2 to the power 5, m being the low three bits. -/
def Obligations.NanInputs : Prop :=
  (∀ (f : FpFmt) (c : Nat), f = .fp32 ∨ f = .bf16 ∨ f = .fp16 ∨ f = .e5m2 → c < 2 ^ f.bits →
    (f.decode c = .nan ↔ bitsN c (f.ebits + f.mbits - 1) f.mbits = 2 ^ f.ebits - 1 ∧ bitsN c (f.mbits - 1) 0 ≠ 0)) ∧
  (∀ c, c < 256 → (FpFmt.decode .e4m3 c = .nan ↔ c % 128 = 0x7F)) ∧
  (∀ c, c < 256 → (FpFmt.decode .e4m3 c).isInf = false) ∧
  (∀ c, c < 256 → 0x78 ≤ c % 128 → c % 128 ≤ 0x7E → FpFmt.decode .e4m3 c = .fin (decide (128 ≤ c)) (8 + c % 8) 5)

/-- Every flit laid out in its 256 bytes is read back as itself. Striped over the lanes of any map that names distinct lanes, at full or half
width, and taken in any order of lanes, it is read back as itself. A block scrambled from any state is descrambled by a receiver in that
state, a marker being passed by both; and a receiver in any other state reads a block right from the 59th bit on and is in step after it. A
codeword of any twenty blocks decodes as it stands, with no symbol changed, and holds each block. A payload sealed under a key, an IV and
additional data opens under the same to itself. -/
def Obligations.LinkCodingRoundTrips : Prop :=
  (∀ f : Flit, f.payload.length = 240 → (flitBytes f).length = 256 ∧ flitOf (flitBytes f) = f) ∧
  (∀ (m : Word32) (n : Nat) (f : Flit) (x : List LaneBlock), n = 4 ∨ n = 8 → (∀ i j, i < n → j < n → mapLane m i = mapLane m j → i = j) →
    f.payload.length = 240 → x.Perm (stripeFlit m n f) → slotKind m n x = .flit f) ∧
  (∀ b st : Nat, b < 2 ^ 257 → st < 2 ^ 58 →
    descramble (decide (b % 512 = 0x14B)) (scramble b st).1 st = (b, (scramble b st).2)) ∧
  (∀ b st other : Nat, b < 2 ^ 257 → b % 512 ≠ 0x14B → st < 2 ^ 58 → other < 2 ^ 58 →
    (descramble false (scramble b st).1 other).2 = (scramble b st).2 ∧ (descramble false (scramble b st).1 other).1 / 2 ^ 59 = b / 2 ^ 59) ∧
  (∀ blocks : List Nat, blocks.length = 20 → (∀ b ∈ blocks, b < 2 ^ 257) →
    rsDecode (codeword blocks) = some (codeword blocks, 0) ∧ ∀ i, i < 20 → codeword blocks / 2 ^ (257 * i) % 2 ^ 257 = blocks.getD i 0) ∧
  (∀ k iv aad text : List Byte, gcmOpen k iv aad (gcmSeal k iv aad text).1 (gcmSeal k iv aad text).2 = some text)
end

