-- ==== Sys2Proof/Laws/Bits.lean ====
section
/-! SUPPORT. Bit fields of words: what a field reads as after a field is set. -/
namespace Sys2Proof.Machine

/-- The bits of a field. -/
theorem testBit_fld {w : Nat} (v : BitVec w) (hi lo i : Nat) :
    (fld v hi lo).testBit i = (decide (i < hi + 1 - lo) && v.getLsbD (lo + i)) := by
  unfold fld bitsN
  rw [Nat.testBit_mod_two_pow, ← Nat.shiftRight_eq_div_pow, Nat.testBit_shiftRight]
  rfl

/-- The bits of a word one of whose fields is set. -/
theorem getLsbD_setFld (v : BitVec 32) (hi lo x i : Nat) (h : i < 32) :
    (setFld v hi lo x).getLsbD i = if lo ≤ i ∧ i ≤ hi then x.testBit (i - lo) else v.getLsbD i := by
  have hm : (BitVec.ofNat 32 ((2 ^ (hi + 1 - lo) - 1) * 2 ^ lo)).getLsbD i = decide (lo ≤ i ∧ i ≤ hi) := by
    rw [BitVec.getLsbD_ofNat, Nat.testBit_mul_two_pow, Nat.testBit_two_pow_sub_one]
    by_cases h1 : lo ≤ i <;> by_cases h2 : i ≤ hi <;> simp [h, h1, h2] <;> omega
  have hx : (BitVec.ofNat 32 (x * 2 ^ lo)).getLsbD i = (decide (lo ≤ i) && x.testBit (i - lo)) := by
    rw [BitVec.getLsbD_ofNat, Nat.testBit_mul_two_pow]
    simp [h]
  simp only [setFld, BitVec.getLsbD_or, BitVec.getLsbD_and, BitVec.getLsbD_not, hm, hx]
  by_cases h1 : lo ≤ i <;> by_cases h2 : i ≤ hi <;> simp [h, h1, h2]

/-- A field just set reads as what was put there, cut to its width. -/
theorem fld_setFld_self (v : BitVec 32) (hi lo x : Nat) (h : hi < 32) :
    fld (setFld v hi lo x) hi lo = x % 2 ^ (hi + 1 - lo) := by
  apply Nat.eq_of_testBit_eq
  intro i
  rw [testBit_fld, Nat.testBit_mod_two_pow]
  by_cases hi' : i < hi + 1 - lo
  · rw [getLsbD_setFld v hi lo x (lo + i) (by omega)]
    simp [hi', show lo + i ≤ hi by omega]
  · simp [hi']

/-- Setting a field leaves a field apart from it as it was. -/
theorem fld_setFld_ne (v : BitVec 32) (hi lo x hi' lo' : Nat) (h' : hi' < 32) (hd : hi' < lo ∨ hi < lo') :
    fld (setFld v hi lo x) hi' lo' = fld v hi' lo' := by
  apply Nat.eq_of_testBit_eq
  intro i
  rw [testBit_fld, testBit_fld]
  by_cases hi0 : i < hi' + 1 - lo'
  · rw [getLsbD_setFld v hi lo x (lo' + i) (by omega), if_neg (by omega)]
  · simp [hi0]

/-- A bit as a field. -/
theorem bit_setFld (v : BitVec 32) (hi lo x i : Nat) (h : i < 32) :
    bit (setFld v hi lo x) i = if lo ≤ i ∧ i ≤ hi then x.testBit (i - lo) else bit v i := getLsbD_setFld v hi lo x i h

end Sys2Proof.Machine
end

