-- ==== Sys2Proof/Laws/Maps.lean ====
section
/-! SUPPORT. Laws of finite maps and of sparse byte memory: reading after a write, and the canonical form. -/
namespace Sys2Proof.Machine

namespace Map
variable {α : Type}

theorem find_lt_none (m : Map α) (k : Nat) : (m.filter (fun p => p.1 < k)).find? (fun p => p.1 == k) = none := by
  simp only [List.find?_eq_none, List.mem_filter, decide_eq_true_eq, beq_iff_eq]
  rintro p ⟨-, h⟩; omega

theorem find_filter_of (m : Map α) (j : Nat) (q : Nat × α → Bool) (h : ∀ p, p.1 = j → q p = true) :
    (m.filter q).find? (fun p => p.1 == j) = m.find? (fun p => p.1 == j) := by
  rw [List.find?_filter]
  congr 1
  funext p
  by_cases hp : p.1 = j <;> simp [hp, h]

theorem find_filter_none (m : Map α) (j : Nat) (q : Nat × α → Bool) (h : ∀ p, p.1 = j → q p = false) :
    (m.filter q).find? (fun p => p.1 == j) = none := by
  simp only [List.find?_eq_none, List.mem_filter, beq_iff_eq]
  rintro p ⟨-, hq⟩ hp
  simp [h p hp] at hq

/-- A key just set reads as what was put there. -/
@[simp] theorem get?_set_self (m : Map α) (k : Nat) (v : α) : get? (set m k v) k = some v := by
  simp only [get?, set, List.find?_append, find_lt_none]
  simp

/-- Setting a key leaves every other as it was. -/
theorem get?_set_ne (m : Map α) {j k : Nat} (v : α) (h : j ≠ k) : get? (set m k v) j = get? m j := by
  simp only [get?, set, List.find?_append, List.find?_cons]
  have hk : (k == j) = false := by simpa using fun e : k = j => h e.symm
  rw [hk]
  rcases Nat.lt_or_gt_of_ne h with hl | hg
  · rw [find_filter_of m j _ (by intro p hp; simp; omega), find_filter_none m j (fun p => k < p.1) (by intro p hp; simp; omega)]
    simp
  · rw [find_filter_of m j (fun p => k < p.1) (by intro p hp; simp; omega), find_filter_none m j _ (by intro p hp; simp; omega)]
    simp

/-- What any key reads as after a set. -/
theorem get?_set (m : Map α) (j k : Nat) (v : α) : get? (set m k v) j = if j = k then some v else get? m j := by
  split
  · subst_vars; simp
  · exact get?_set_ne m v ‹_›

/-- What any key reads as after a removal. -/
theorem get?_erase (m : Map α) (j k : Nat) : get? (erase m k) j = if j = k then none else get? m j := by
  simp only [get?, erase]
  split
  · rw [find_filter_none m j _ (by intro p hp; subst_vars; simp)]; rfl
  · rw [find_filter_of m j _ (by intro p hp; subst_vars; simpa using ‹_›)]

/-- What any key reads as after a put, whether or not the value is listed. -/
theorem get_put [DecidableEq α] (m : Map α) (d : α) (j k : Nat) (v : α) :
    get (put m d k v) d j = if j = k then v else get m d j := by
  unfold get put
  split
  · rw [get?_erase]; split <;> simp_all
  · rw [get?_set]; split <;> simp_all

theorem wf_iff (m : Map α) : wf m = true ↔ m.Pairwise (fun a b => a.1 < b.1) := by simp [wf]

/-- Setting a key keeps the canonical form. -/
theorem wf_set (m : Map α) (k : Nat) (v : α) (h : wf m = true) : wf (set m k v) = true := by
  rw [wf_iff] at *
  simp only [set, List.pairwise_append, List.pairwise_cons, List.mem_filter, decide_eq_true_eq, List.mem_cons]
  refine ⟨h.filter _, ⟨fun p hp => hp.2, h.filter _⟩, ?_⟩
  rintro a ⟨-, ha⟩ b (rfl | ⟨-, hb⟩)
  · exact ha
  · omega

/-- Removing a key keeps the canonical form. -/
theorem wf_erase (m : Map α) (k : Nat) (h : wf m = true) : wf (erase m k) = true := by
  rw [wf_iff] at *; exact h.filter _

/-- Putting a value keeps the canonical form. -/
theorem wf_put [DecidableEq α] (m : Map α) (d : α) (k : Nat) (v : α) (h : wf m = true) : wf (put m d k v) = true := by
  unfold put; split
  · exact wf_erase m k h
  · exact wf_set m k v h

end Map

namespace Mem

theorem mem_cells {a : Nat} {bs : List (BitVec 8)} {c : Host.Cell} (h : c ∈ cells a bs) :
    a ≤ c.1 ∧ c.1 < a + bs.length ∧ c.2 ≠ blank := by
  induction bs generalizing a with
  | nil => simp [cells] at h
  | cons b bs ih =>
    simp only [cells] at h
    split at h
    · have := ih h; exact ⟨by omega, by simp only [List.length_cons]; omega, this.2.2⟩
    · rcases List.mem_cons.1 h with rfl | h
      · exact ⟨Nat.le_refl _, by simp, ‹_›⟩
      · have := ih h; exact ⟨by omega, by simp only [List.length_cons]; omega, this.2.2⟩

/-- The byte a run of cells holds at an address inside it. -/
theorem cells_get (bs : List (BitVec 8)) (a i : Nat) (hi : i < bs.length) :
    (((cells a bs).find? (fun c => c.1 == a + i)).map (·.2)).getD blank = bs[i] := by
  induction bs generalizing a i with
  | nil => simp at hi
  | cons b bs ih =>
    simp only [cells]
    cases i with
    | zero =>
      split
      · rename_i hb
        rw [List.find?_eq_none.2]
        · simp [hb]
        · intro c hc; have := mem_cells hc; simp; omega
      · simp
    | succ i =>
      have := ih (a + 1) i (by simpa using hi)
      rw [show a + 1 + i = a + (i + 1) by omega] at this
      split
      · simpa using this
      · rw [List.find?_cons_of_neg (by simp)]; simpa using this

theorem find_filter_of (m : Mem) (j : Nat) (q : Host.Cell → Bool) (h : ∀ p, p.1 = j → q p = true) :
    (m.filter q).find? (fun p => p.1 == j) = m.find? (fun p => p.1 == j) := Map.find_filter_of m j q h
theorem find_filter_none (m : Mem) (j : Nat) (q : Host.Cell → Bool) (h : ∀ p, p.1 = j → q p = false) :
    (m.filter q).find? (fun p => p.1 == j) = none := Map.find_filter_none m j q h

/-- A byte just written reads as what was written. -/
theorem get_write_in (m : Mem) (a : Nat) (bs : List (BitVec 8)) (i : Nat) (hi : i < bs.length) :
    get (write m a bs) (a + i) = bs[i] := by
  unfold get write
  rw [List.find?_append, List.find?_append, find_filter_none m (a + i) _ (by intro p hp; simp; omega),
    find_filter_none m (a + i) (fun c => a + bs.length ≤ c.1) (by intro p hp; simp; omega)]
  simpa using cells_get bs a i hi

/-- A write leaves every other byte as it was. -/
theorem get_write_out (m : Mem) (a : Nat) (bs : List (BitVec 8)) (x : Nat) (h : x < a ∨ a + bs.length ≤ x) :
    get (write m a bs) x = get m x := by
  unfold get write
  have hc : (cells a bs).find? (fun c => c.1 == x) = none := by
    rw [List.find?_eq_none]; intro c hc; have := mem_cells hc; simp; omega
  rw [List.find?_append, List.find?_append, hc]
  rcases h with h | h
  · rw [find_filter_of m x _ (by intro p hp; simp; omega),
      find_filter_none m x (fun c => a + bs.length ≤ c.1) (by intro p hp; simp; omega)]
    simp
  · rw [find_filter_none m x _ (by intro p hp; simp; omega),
      find_filter_of m x (fun c => a + bs.length ≤ c.1) (by intro p hp; simp; omega)]
    simp

/-- Blanking a range leaves every other byte as it was. -/
theorem get_clear_out (m : Mem) (a n x : Nat) (h : x < a ∨ a + n ≤ x) : get (clear m a n) x = get m x := by
  unfold get clear
  rw [List.find?_append]
  rcases h with h | h
  · rw [find_filter_of m x _ (by intro p hp; simp; omega),
      find_filter_none m x (fun c => a + n ≤ c.1) (by intro p hp; simp; omega)]
    simp
  · rw [find_filter_none m x _ (by intro p hp; simp; omega),
      find_filter_of m x (fun c => a + n ≤ c.1) (by intro p hp; simp; omega)]
    simp

/-- A blanked byte reads blank. -/
theorem get_clear_in (m : Mem) (a n x : Nat) (h : a ≤ x ∧ x < a + n) : get (clear m a n) x = blank := by
  unfold get clear
  rw [List.find?_append, find_filter_none m x _ (by intro p hp; simp; omega),
    find_filter_none m x (fun c => a + n ≤ c.1) (by intro p hp; simp; omega)]
  simp

/-- Bytes just written read back as they were written. -/
theorem read_write (m : Mem) (a : Nat) (bs : List (BitVec 8)) : read (write m a bs) a bs.length = bs := by
  apply List.ext_getElem
  · simp [read]
  · intro i h1 h2
    simp only [read, List.getElem_map, List.getElem_range]
    exact get_write_in m a bs i h2

theorem wf_iff (m : Mem) : wf m = true ↔ m.Pairwise (fun a b => a.1 < b.1) ∧ ∀ c ∈ m, c.2 ≠ blank := by
  simp [wf, Bool.and_eq_true, decide_eq_true_eq, List.all_eq_true, bne_iff_ne]

theorem cells_pairwise (bs : List (BitVec 8)) (a : Nat) : (cells a bs).Pairwise (fun a b => a.1 < b.1) := by
  induction bs generalizing a with
  | nil => simp [cells]
  | cons b bs ih =>
    simp only [cells]
    split
    · exact ih _
    · refine List.pairwise_cons.2 ⟨fun c hc => ?_, ih _⟩
      have := mem_cells hc; simp; omega

/-- A write keeps the canonical form. -/
theorem wf_write (m : Mem) (a : Nat) (bs : List (BitVec 8)) (h : wf m = true) : wf (write m a bs) = true := by
  rw [wf_iff] at *
  refine ⟨?_, ?_⟩
  · simp only [write, List.pairwise_append, List.mem_filter, decide_eq_true_eq, List.mem_append]
    refine ⟨h.1.filter _, ⟨cells_pairwise bs a, h.1.filter _, ?_⟩, ?_⟩
    · rintro c hc d ⟨-, hd⟩; have := mem_cells hc; omega
    · rintro c ⟨-, hc⟩ d (hd | ⟨-, hd⟩)
      · have := mem_cells hd; omega
      · omega
  · intro c hc
    simp only [write, List.mem_append, List.mem_filter] at hc
    rcases hc with ⟨hc, -⟩ | hc | ⟨hc, -⟩
    · exact h.2 c hc
    · exact (mem_cells hc).2.2
    · exact h.2 c hc

/-- Blanking a range keeps the canonical form. -/
theorem wf_clear (m : Mem) (a n : Nat) (h : wf m = true) : wf (clear m a n) = true := by
  rw [wf_iff] at *
  refine ⟨?_, ?_⟩
  · simp only [clear, List.pairwise_append, List.mem_filter, decide_eq_true_eq]
    refine ⟨h.1.filter _, h.1.filter _, ?_⟩
    rintro c ⟨-, hc⟩ d ⟨-, hd⟩; omega
  · intro c hc
    simp only [clear, List.mem_append, List.mem_filter] at hc
    rcases hc with ⟨hc, -⟩ | ⟨hc, -⟩ <;> exact h.2 c hc

/-- Moving bytes keeps the canonical form. -/
theorem wf_move (m : Mem) (src dst n : Nat) (h : wf m = true) : wf (move m src dst n) = true :=
  wf_write _ _ _ (wf_clear _ _ _ h)

end Mem

end Sys2Proof.Machine
end

