-- ==== Sys2Proof/Laws/State.lean ====
section
/-! SUPPORT. Each update of the state leaves every other field as it was: one lemma per field per update, true by rfl. -/
namespace Sys2Proof.Machine.State

/-! ### wr -/

@[simp] theorem wr_pending (s : State) (a : Nat) (v : Word32) : (s.wr a v).pending = s.pending := rfl
@[simp] theorem wr_ft (s : State) (a : Nat) (v : Word32) : (s.wr a v).ft = s.ft := rfl
@[simp] theorem wr_freeCtr (s : State) (a : Nat) (v : Word32) : (s.wr a v).freeCtr = s.freeCtr := rfl
@[simp] theorem wr_outbox (s : State) (a : Nat) (v : Word32) : (s.wr a v).outbox = s.outbox := rfl
@[simp] theorem wr_mem (s : State) (a : Nat) (v : Word32) : (s.wr a v).mem = s.mem := rfl
@[simp] theorem wr_clk (s : State) (a : Nat) (v : Word32) : (s.wr a v).clk = s.clk := rfl
@[simp] theorem wr_mesh (s : State) (a : Nat) (v : Word32) : (s.wr a v).mesh = s.mesh := rfl
@[simp] theorem wr_meshQ (s : State) (a : Nat) (v : Word32) : (s.wr a v).meshQ = s.meshQ := rfl
@[simp] theorem wr_eng (s : State) (a : Nat) (v : Word32) : (s.wr a v).eng = s.eng := rfl
@[simp] theorem wr_strm (s : State) (a : Nat) (v : Word32) : (s.wr a v).strm = s.strm := rfl
@[simp] theorem wr_waiters (s : State) (a : Nat) (v : Word32) : (s.wr a v).waiters = s.waiters := rfl
@[simp] theorem wr_sigs (s : State) (a : Nat) (v : Word32) : (s.wr a v).sigs = s.sigs := rfl
@[simp] theorem wr_readyQ (s : State) (a : Nat) (v : Word32) : (s.wr a v).readyQ = s.readyQ := rfl
@[simp] theorem wr_ops (s : State) (a : Nat) (v : Word32) : (s.wr a v).ops = s.ops := rfl
@[simp] theorem wr_depCtr (s : State) (a : Nat) (v : Word32) : (s.wr a v).depCtr = s.depCtr := rfl
@[simp] theorem wr_evq (s : State) (a : Nat) (v : Word32) : (s.wr a v).evq = s.evq := rfl
@[simp] theorem wr_ms (s : State) (a : Nat) (v : Word32) : (s.wr a v).ms = s.ms := rfl
@[simp] theorem wr_tenants (s : State) (a : Nat) (v : Word32) : (s.wr a v).tenants = s.tenants := rfl
@[simp] theorem wr_msix (s : State) (a : Nat) (v : Word32) : (s.wr a v).msix = s.msix := rfl
@[simp] theorem wr_rng (s : State) (a : Nat) (v : Word32) : (s.wr a v).rng = s.rng := rfl
@[simp] theorem wr_held (s : State) (a : Nat) (v : Word32) : (s.wr a v).held = s.held := rfl
@[simp] theorem wr_latched (s : State) (a : Nat) (v : Word32) : (s.wr a v).latched = s.latched := rfl
@[simp] theorem wr_reqs (s : State) (a : Nat) (v : Word32) : (s.wr a v).reqs = s.reqs := rfl
@[simp] theorem wr_trigs (s : State) (a : Nat) (v : Word32) : (s.wr a v).trigs = s.trigs := rfl
@[simp] theorem wr_turn (s : State) (a : Nat) (v : Word32) : (s.wr a v).turn = s.turn := rfl
@[simp] theorem wr_rrHome (s : State) (a : Nat) (v : Word32) : (s.wr a v).rrHome = s.rrHome := rfl
@[simp] theorem wr_coreRun (s : State) (a : Nat) (v : Word32) : (s.wr a v).coreRun = s.coreRun := rfl
@[simp] theorem wr_host (s : State) (a : Nat) (v : Word32) : (s.wr a v).host = s.host := rfl
@[simp] theorem wr_nbr (s : State) (a : Nat) (v : Word32) : (s.wr a v).nbr = s.nbr := rfl
@[simp] theorem wr_xdom (s : State) (a : Nat) (v : Word32) : (s.wr a v).xdom = s.xdom := rfl
@[simp] theorem wr_notices (s : State) (a : Nat) (v : Word32) : (s.wr a v).notices = s.notices := rfl
@[simp] theorem wr_router (s : State) (a : Nat) (v : Word32) : (s.wr a v).router = s.router := rfl
@[simp] theorem wr_ports (s : State) (a : Nat) (v : Word32) : (s.wr a v).ports = s.ports := rfl
@[simp] theorem wr_flowOut (s : State) (a : Nat) (v : Word32) : (s.wr a v).flowOut = s.flowOut := rfl
@[simp] theorem wr_flowIn (s : State) (a : Nat) (v : Word32) : (s.wr a v).flowIn = s.flowIn := rfl
@[simp] theorem wr_remTodo (s : State) (a : Nat) (v : Word32) : (s.wr a v).remTodo = s.remTodo := rfl
@[simp] theorem wr_reqWait (s : State) (a : Nat) (v : Word32) : (s.wr a v).reqWait = s.reqWait := rfl
@[simp] theorem wr_guests (s : State) (a : Nat) (v : Word32) : (s.wr a v).guests = s.guests := rfl
@[simp] theorem wr_away (s : State) (a : Nat) (v : Word32) : (s.wr a v).away = s.away := rfl
@[simp] theorem wr_lostPkgs (s : State) (a : Nat) (v : Word32) : (s.wr a v).lostPkgs = s.lostPkgs := rfl
@[simp] theorem wr_kf (s : State) (a : Nat) (v : Word32) : (s.wr a v).kf = s.kf := rfl
@[simp] theorem wr_slots (s : State) (a : Nat) (v : Word32) : (s.wr a v).slots = s.slots := rfl
@[simp] theorem wr_ftable (s : State) (a : Nat) (v : Word32) : (s.wr a v).ftable = s.ftable := rfl
@[simp] theorem wr_collTurn (s : State) (a : Nat) (v : Word32) : (s.wr a v).collTurn = s.collTurn := rfl
@[simp] theorem wr_gsteps (s : State) (a : Nat) (v : Word32) : (s.wr a v).gsteps = s.gsteps := rfl
@[simp] theorem wr_attnPass (s : State) (a : Nat) (v : Word32) : (s.wr a v).attnPass = s.attnPass := rfl
@[simp] theorem wr_commits (s : State) (a : Nat) (v : Word32) : (s.wr a v).commits = s.commits := rfl
@[simp] theorem wr_folds (s : State) (a : Nat) (v : Word32) : (s.wr a v).folds = s.folds := rfl
@[simp] theorem wr_recvs (s : State) (a : Nat) (v : Word32) : (s.wr a v).recvs = s.recvs := rfl
@[simp] theorem wr_busyCb (s : State) (a : Nat) (v : Word32) : (s.wr a v).busyCb = s.busyCb := rfl
@[simp] theorem wr_foldLog (s : State) (a : Nat) (v : Word32) : (s.wr a v).foldLog = s.foldLog := rfl
@[simp] theorem wr_convs (s : State) (a : Nat) (v : Word32) : (s.wr a v).convs = s.convs := rfl
@[simp] theorem wr_rleQ (s : State) (a : Nat) (v : Word32) : (s.wr a v).rleQ = s.rleQ := rfl
@[simp] theorem wr_turnLast (s : State) (a : Nat) (v : Word32) : (s.wr a v).turnLast = s.turnLast := rfl
@[simp] theorem wr_tim (s : State) (a : Nat) (v : Word32) : (s.wr a v).tim = s.tim := rfl
@[simp] theorem wr_mdls (s : State) (a : Nat) (v : Word32) : (s.wr a v).mdls = s.mdls := rfl
@[simp] theorem wr_freed (s : State) (a : Nat) (v : Word32) : (s.wr a v).freed = s.freed := rfl
@[simp] theorem wr_reqLatch (s : State) (a : Nat) (v : Word32) : (s.wr a v).reqLatch = s.reqLatch := rfl
@[simp] theorem wr_sem (s : State) (a : Nat) (v : Word32) : (s.wr a v).sem = s.sem := rfl
@[simp] theorem wr_pwr (s : State) (a : Nat) (v : Word32) : (s.wr a v).pwr = s.pwr := rfl
@[simp] theorem wr_winReads (s : State) (a : Nat) (v : Word32) : (s.wr a v).winReads = s.winReads := rfl
@[simp] theorem wr_uart (s : State) (a : Nat) (v : Word32) : (s.wr a v).uart = s.uart := rfl
@[simp] theorem wr_jtag (s : State) (a : Nat) (v : Word32) : (s.wr a v).jtag = s.jtag := rfl
@[simp] theorem wr_smb (s : State) (a : Nat) (v : Word32) : (s.wr a v).smb = s.smb := rfl

/-! ### used -/

@[simp] theorem used_pending (s : State) : (s.used).pending = s.pending := rfl
@[simp] theorem used_ft (s : State) : (s.used).ft = s.ft := rfl
@[simp] theorem used_outbox (s : State) : (s.used).outbox = s.outbox := rfl
@[simp] theorem used_regs (s : State) : (s.used).regs = s.regs := rfl
@[simp] theorem used_mem (s : State) : (s.used).mem = s.mem := rfl
@[simp] theorem used_clk (s : State) : (s.used).clk = s.clk := rfl
@[simp] theorem used_mesh (s : State) : (s.used).mesh = s.mesh := rfl
@[simp] theorem used_meshQ (s : State) : (s.used).meshQ = s.meshQ := rfl
@[simp] theorem used_eng (s : State) : (s.used).eng = s.eng := rfl
@[simp] theorem used_strm (s : State) : (s.used).strm = s.strm := rfl
@[simp] theorem used_waiters (s : State) : (s.used).waiters = s.waiters := rfl
@[simp] theorem used_sigs (s : State) : (s.used).sigs = s.sigs := rfl
@[simp] theorem used_readyQ (s : State) : (s.used).readyQ = s.readyQ := rfl
@[simp] theorem used_ops (s : State) : (s.used).ops = s.ops := rfl
@[simp] theorem used_depCtr (s : State) : (s.used).depCtr = s.depCtr := rfl
@[simp] theorem used_evq (s : State) : (s.used).evq = s.evq := rfl
@[simp] theorem used_ms (s : State) : (s.used).ms = s.ms := rfl
@[simp] theorem used_tenants (s : State) : (s.used).tenants = s.tenants := rfl
@[simp] theorem used_msix (s : State) : (s.used).msix = s.msix := rfl
@[simp] theorem used_rng (s : State) : (s.used).rng = s.rng := rfl
@[simp] theorem used_held (s : State) : (s.used).held = s.held := rfl
@[simp] theorem used_latched (s : State) : (s.used).latched = s.latched := rfl
@[simp] theorem used_reqs (s : State) : (s.used).reqs = s.reqs := rfl
@[simp] theorem used_trigs (s : State) : (s.used).trigs = s.trigs := rfl
@[simp] theorem used_turn (s : State) : (s.used).turn = s.turn := rfl
@[simp] theorem used_rrHome (s : State) : (s.used).rrHome = s.rrHome := rfl
@[simp] theorem used_coreRun (s : State) : (s.used).coreRun = s.coreRun := rfl
@[simp] theorem used_host (s : State) : (s.used).host = s.host := rfl
@[simp] theorem used_nbr (s : State) : (s.used).nbr = s.nbr := rfl
@[simp] theorem used_xdom (s : State) : (s.used).xdom = s.xdom := rfl
@[simp] theorem used_notices (s : State) : (s.used).notices = s.notices := rfl
@[simp] theorem used_router (s : State) : (s.used).router = s.router := rfl
@[simp] theorem used_ports (s : State) : (s.used).ports = s.ports := rfl
@[simp] theorem used_flowOut (s : State) : (s.used).flowOut = s.flowOut := rfl
@[simp] theorem used_flowIn (s : State) : (s.used).flowIn = s.flowIn := rfl
@[simp] theorem used_remTodo (s : State) : (s.used).remTodo = s.remTodo := rfl
@[simp] theorem used_reqWait (s : State) : (s.used).reqWait = s.reqWait := rfl
@[simp] theorem used_guests (s : State) : (s.used).guests = s.guests := rfl
@[simp] theorem used_away (s : State) : (s.used).away = s.away := rfl
@[simp] theorem used_lostPkgs (s : State) : (s.used).lostPkgs = s.lostPkgs := rfl
@[simp] theorem used_kf (s : State) : (s.used).kf = s.kf := rfl
@[simp] theorem used_slots (s : State) : (s.used).slots = s.slots := rfl
@[simp] theorem used_ftable (s : State) : (s.used).ftable = s.ftable := rfl
@[simp] theorem used_collTurn (s : State) : (s.used).collTurn = s.collTurn := rfl
@[simp] theorem used_gsteps (s : State) : (s.used).gsteps = s.gsteps := rfl
@[simp] theorem used_attnPass (s : State) : (s.used).attnPass = s.attnPass := rfl
@[simp] theorem used_commits (s : State) : (s.used).commits = s.commits := rfl
@[simp] theorem used_folds (s : State) : (s.used).folds = s.folds := rfl
@[simp] theorem used_recvs (s : State) : (s.used).recvs = s.recvs := rfl
@[simp] theorem used_busyCb (s : State) : (s.used).busyCb = s.busyCb := rfl
@[simp] theorem used_foldLog (s : State) : (s.used).foldLog = s.foldLog := rfl
@[simp] theorem used_convs (s : State) : (s.used).convs = s.convs := rfl
@[simp] theorem used_rleQ (s : State) : (s.used).rleQ = s.rleQ := rfl
@[simp] theorem used_turnLast (s : State) : (s.used).turnLast = s.turnLast := rfl
@[simp] theorem used_tim (s : State) : (s.used).tim = s.tim := rfl
@[simp] theorem used_mdls (s : State) : (s.used).mdls = s.mdls := rfl
@[simp] theorem used_freed (s : State) : (s.used).freed = s.freed := rfl
@[simp] theorem used_reqLatch (s : State) : (s.used).reqLatch = s.reqLatch := rfl
@[simp] theorem used_sem (s : State) : (s.used).sem = s.sem := rfl
@[simp] theorem used_pwr (s : State) : (s.used).pwr = s.pwr := rfl
@[simp] theorem used_winReads (s : State) : (s.used).winReads = s.winReads := rfl
@[simp] theorem used_uart (s : State) : (s.used).uart = s.uart := rfl
@[simp] theorem used_jtag (s : State) : (s.used).jtag = s.jtag := rfl
@[simp] theorem used_smb (s : State) : (s.used).smb = s.smb := rfl

/-! ### emit1 -/

@[simp] theorem emit1_pending (s : State) (e : Emit) : (s.emit1 e).pending = s.pending := rfl
@[simp] theorem emit1_ft (s : State) (e : Emit) : (s.emit1 e).ft = s.ft := rfl
@[simp] theorem emit1_freeCtr (s : State) (e : Emit) : (s.emit1 e).freeCtr = s.freeCtr := rfl
@[simp] theorem emit1_regs (s : State) (e : Emit) : (s.emit1 e).regs = s.regs := rfl
@[simp] theorem emit1_mem (s : State) (e : Emit) : (s.emit1 e).mem = s.mem := rfl
@[simp] theorem emit1_clk (s : State) (e : Emit) : (s.emit1 e).clk = s.clk := rfl
@[simp] theorem emit1_mesh (s : State) (e : Emit) : (s.emit1 e).mesh = s.mesh := rfl
@[simp] theorem emit1_meshQ (s : State) (e : Emit) : (s.emit1 e).meshQ = s.meshQ := rfl
@[simp] theorem emit1_eng (s : State) (e : Emit) : (s.emit1 e).eng = s.eng := rfl
@[simp] theorem emit1_strm (s : State) (e : Emit) : (s.emit1 e).strm = s.strm := rfl
@[simp] theorem emit1_waiters (s : State) (e : Emit) : (s.emit1 e).waiters = s.waiters := rfl
@[simp] theorem emit1_sigs (s : State) (e : Emit) : (s.emit1 e).sigs = s.sigs := rfl
@[simp] theorem emit1_readyQ (s : State) (e : Emit) : (s.emit1 e).readyQ = s.readyQ := rfl
@[simp] theorem emit1_ops (s : State) (e : Emit) : (s.emit1 e).ops = s.ops := rfl
@[simp] theorem emit1_depCtr (s : State) (e : Emit) : (s.emit1 e).depCtr = s.depCtr := rfl
@[simp] theorem emit1_evq (s : State) (e : Emit) : (s.emit1 e).evq = s.evq := rfl
@[simp] theorem emit1_ms (s : State) (e : Emit) : (s.emit1 e).ms = s.ms := rfl
@[simp] theorem emit1_tenants (s : State) (e : Emit) : (s.emit1 e).tenants = s.tenants := rfl
@[simp] theorem emit1_msix (s : State) (e : Emit) : (s.emit1 e).msix = s.msix := rfl
@[simp] theorem emit1_rng (s : State) (e : Emit) : (s.emit1 e).rng = s.rng := rfl
@[simp] theorem emit1_held (s : State) (e : Emit) : (s.emit1 e).held = s.held := rfl
@[simp] theorem emit1_latched (s : State) (e : Emit) : (s.emit1 e).latched = s.latched := rfl
@[simp] theorem emit1_reqs (s : State) (e : Emit) : (s.emit1 e).reqs = s.reqs := rfl
@[simp] theorem emit1_trigs (s : State) (e : Emit) : (s.emit1 e).trigs = s.trigs := rfl
@[simp] theorem emit1_turn (s : State) (e : Emit) : (s.emit1 e).turn = s.turn := rfl
@[simp] theorem emit1_rrHome (s : State) (e : Emit) : (s.emit1 e).rrHome = s.rrHome := rfl
@[simp] theorem emit1_coreRun (s : State) (e : Emit) : (s.emit1 e).coreRun = s.coreRun := rfl
@[simp] theorem emit1_host (s : State) (e : Emit) : (s.emit1 e).host = s.host := rfl
@[simp] theorem emit1_nbr (s : State) (e : Emit) : (s.emit1 e).nbr = s.nbr := rfl
@[simp] theorem emit1_xdom (s : State) (e : Emit) : (s.emit1 e).xdom = s.xdom := rfl
@[simp] theorem emit1_notices (s : State) (e : Emit) : (s.emit1 e).notices = s.notices := rfl
@[simp] theorem emit1_router (s : State) (e : Emit) : (s.emit1 e).router = s.router := rfl
@[simp] theorem emit1_ports (s : State) (e : Emit) : (s.emit1 e).ports = s.ports := rfl
@[simp] theorem emit1_flowOut (s : State) (e : Emit) : (s.emit1 e).flowOut = s.flowOut := rfl
@[simp] theorem emit1_flowIn (s : State) (e : Emit) : (s.emit1 e).flowIn = s.flowIn := rfl
@[simp] theorem emit1_remTodo (s : State) (e : Emit) : (s.emit1 e).remTodo = s.remTodo := rfl
@[simp] theorem emit1_reqWait (s : State) (e : Emit) : (s.emit1 e).reqWait = s.reqWait := rfl
@[simp] theorem emit1_guests (s : State) (e : Emit) : (s.emit1 e).guests = s.guests := rfl
@[simp] theorem emit1_away (s : State) (e : Emit) : (s.emit1 e).away = s.away := rfl
@[simp] theorem emit1_lostPkgs (s : State) (e : Emit) : (s.emit1 e).lostPkgs = s.lostPkgs := rfl
@[simp] theorem emit1_kf (s : State) (e : Emit) : (s.emit1 e).kf = s.kf := rfl
@[simp] theorem emit1_slots (s : State) (e : Emit) : (s.emit1 e).slots = s.slots := rfl
@[simp] theorem emit1_ftable (s : State) (e : Emit) : (s.emit1 e).ftable = s.ftable := rfl
@[simp] theorem emit1_collTurn (s : State) (e : Emit) : (s.emit1 e).collTurn = s.collTurn := rfl
@[simp] theorem emit1_gsteps (s : State) (e : Emit) : (s.emit1 e).gsteps = s.gsteps := rfl
@[simp] theorem emit1_attnPass (s : State) (e : Emit) : (s.emit1 e).attnPass = s.attnPass := rfl
@[simp] theorem emit1_commits (s : State) (e : Emit) : (s.emit1 e).commits = s.commits := rfl
@[simp] theorem emit1_folds (s : State) (e : Emit) : (s.emit1 e).folds = s.folds := rfl
@[simp] theorem emit1_recvs (s : State) (e : Emit) : (s.emit1 e).recvs = s.recvs := rfl
@[simp] theorem emit1_busyCb (s : State) (e : Emit) : (s.emit1 e).busyCb = s.busyCb := rfl
@[simp] theorem emit1_foldLog (s : State) (e : Emit) : (s.emit1 e).foldLog = s.foldLog := rfl
@[simp] theorem emit1_convs (s : State) (e : Emit) : (s.emit1 e).convs = s.convs := rfl
@[simp] theorem emit1_rleQ (s : State) (e : Emit) : (s.emit1 e).rleQ = s.rleQ := rfl
@[simp] theorem emit1_turnLast (s : State) (e : Emit) : (s.emit1 e).turnLast = s.turnLast := rfl
@[simp] theorem emit1_tim (s : State) (e : Emit) : (s.emit1 e).tim = s.tim := rfl
@[simp] theorem emit1_mdls (s : State) (e : Emit) : (s.emit1 e).mdls = s.mdls := rfl
@[simp] theorem emit1_freed (s : State) (e : Emit) : (s.emit1 e).freed = s.freed := rfl
@[simp] theorem emit1_reqLatch (s : State) (e : Emit) : (s.emit1 e).reqLatch = s.reqLatch := rfl
@[simp] theorem emit1_sem (s : State) (e : Emit) : (s.emit1 e).sem = s.sem := rfl
@[simp] theorem emit1_pwr (s : State) (e : Emit) : (s.emit1 e).pwr = s.pwr := rfl
@[simp] theorem emit1_winReads (s : State) (e : Emit) : (s.emit1 e).winReads = s.winReads := rfl
@[simp] theorem emit1_uart (s : State) (e : Emit) : (s.emit1 e).uart = s.uart := rfl
@[simp] theorem emit1_jtag (s : State) (e : Emit) : (s.emit1 e).jtag = s.jtag := rfl
@[simp] theorem emit1_smb (s : State) (e : Emit) : (s.emit1 e).smb = s.smb := rfl

/-! ### opSet -/

@[simp] theorem opSet_pending (s : State) (h : Nat) (o : RunOp) : (s.opSet h o).pending = s.pending := rfl
@[simp] theorem opSet_ft (s : State) (h : Nat) (o : RunOp) : (s.opSet h o).ft = s.ft := rfl
@[simp] theorem opSet_freeCtr (s : State) (h : Nat) (o : RunOp) : (s.opSet h o).freeCtr = s.freeCtr := rfl
@[simp] theorem opSet_outbox (s : State) (h : Nat) (o : RunOp) : (s.opSet h o).outbox = s.outbox := rfl
@[simp] theorem opSet_regs (s : State) (h : Nat) (o : RunOp) : (s.opSet h o).regs = s.regs := rfl
@[simp] theorem opSet_mem (s : State) (h : Nat) (o : RunOp) : (s.opSet h o).mem = s.mem := rfl
@[simp] theorem opSet_clk (s : State) (h : Nat) (o : RunOp) : (s.opSet h o).clk = s.clk := rfl
@[simp] theorem opSet_mesh (s : State) (h : Nat) (o : RunOp) : (s.opSet h o).mesh = s.mesh := rfl
@[simp] theorem opSet_meshQ (s : State) (h : Nat) (o : RunOp) : (s.opSet h o).meshQ = s.meshQ := rfl
@[simp] theorem opSet_eng (s : State) (h : Nat) (o : RunOp) : (s.opSet h o).eng = s.eng := rfl
@[simp] theorem opSet_strm (s : State) (h : Nat) (o : RunOp) : (s.opSet h o).strm = s.strm := rfl
@[simp] theorem opSet_waiters (s : State) (h : Nat) (o : RunOp) : (s.opSet h o).waiters = s.waiters := rfl
@[simp] theorem opSet_sigs (s : State) (h : Nat) (o : RunOp) : (s.opSet h o).sigs = s.sigs := rfl
@[simp] theorem opSet_readyQ (s : State) (h : Nat) (o : RunOp) : (s.opSet h o).readyQ = s.readyQ := rfl
@[simp] theorem opSet_depCtr (s : State) (h : Nat) (o : RunOp) : (s.opSet h o).depCtr = s.depCtr := rfl
@[simp] theorem opSet_evq (s : State) (h : Nat) (o : RunOp) : (s.opSet h o).evq = s.evq := rfl
@[simp] theorem opSet_ms (s : State) (h : Nat) (o : RunOp) : (s.opSet h o).ms = s.ms := rfl
@[simp] theorem opSet_tenants (s : State) (h : Nat) (o : RunOp) : (s.opSet h o).tenants = s.tenants := rfl
@[simp] theorem opSet_msix (s : State) (h : Nat) (o : RunOp) : (s.opSet h o).msix = s.msix := rfl
@[simp] theorem opSet_rng (s : State) (h : Nat) (o : RunOp) : (s.opSet h o).rng = s.rng := rfl
@[simp] theorem opSet_held (s : State) (h : Nat) (o : RunOp) : (s.opSet h o).held = s.held := rfl
@[simp] theorem opSet_latched (s : State) (h : Nat) (o : RunOp) : (s.opSet h o).latched = s.latched := rfl
@[simp] theorem opSet_reqs (s : State) (h : Nat) (o : RunOp) : (s.opSet h o).reqs = s.reqs := rfl
@[simp] theorem opSet_trigs (s : State) (h : Nat) (o : RunOp) : (s.opSet h o).trigs = s.trigs := rfl
@[simp] theorem opSet_turn (s : State) (h : Nat) (o : RunOp) : (s.opSet h o).turn = s.turn := rfl
@[simp] theorem opSet_rrHome (s : State) (h : Nat) (o : RunOp) : (s.opSet h o).rrHome = s.rrHome := rfl
@[simp] theorem opSet_coreRun (s : State) (h : Nat) (o : RunOp) : (s.opSet h o).coreRun = s.coreRun := rfl
@[simp] theorem opSet_host (s : State) (h : Nat) (o : RunOp) : (s.opSet h o).host = s.host := rfl
@[simp] theorem opSet_nbr (s : State) (h : Nat) (o : RunOp) : (s.opSet h o).nbr = s.nbr := rfl
@[simp] theorem opSet_xdom (s : State) (h : Nat) (o : RunOp) : (s.opSet h o).xdom = s.xdom := rfl
@[simp] theorem opSet_notices (s : State) (h : Nat) (o : RunOp) : (s.opSet h o).notices = s.notices := rfl
@[simp] theorem opSet_router (s : State) (h : Nat) (o : RunOp) : (s.opSet h o).router = s.router := rfl
@[simp] theorem opSet_ports (s : State) (h : Nat) (o : RunOp) : (s.opSet h o).ports = s.ports := rfl
@[simp] theorem opSet_flowOut (s : State) (h : Nat) (o : RunOp) : (s.opSet h o).flowOut = s.flowOut := rfl
@[simp] theorem opSet_flowIn (s : State) (h : Nat) (o : RunOp) : (s.opSet h o).flowIn = s.flowIn := rfl
@[simp] theorem opSet_remTodo (s : State) (h : Nat) (o : RunOp) : (s.opSet h o).remTodo = s.remTodo := rfl
@[simp] theorem opSet_reqWait (s : State) (h : Nat) (o : RunOp) : (s.opSet h o).reqWait = s.reqWait := rfl
@[simp] theorem opSet_guests (s : State) (h : Nat) (o : RunOp) : (s.opSet h o).guests = s.guests := rfl
@[simp] theorem opSet_away (s : State) (h : Nat) (o : RunOp) : (s.opSet h o).away = s.away := rfl
@[simp] theorem opSet_lostPkgs (s : State) (h : Nat) (o : RunOp) : (s.opSet h o).lostPkgs = s.lostPkgs := rfl
@[simp] theorem opSet_kf (s : State) (h : Nat) (o : RunOp) : (s.opSet h o).kf = s.kf := rfl
@[simp] theorem opSet_slots (s : State) (h : Nat) (o : RunOp) : (s.opSet h o).slots = s.slots := rfl
@[simp] theorem opSet_ftable (s : State) (h : Nat) (o : RunOp) : (s.opSet h o).ftable = s.ftable := rfl
@[simp] theorem opSet_collTurn (s : State) (h : Nat) (o : RunOp) : (s.opSet h o).collTurn = s.collTurn := rfl
@[simp] theorem opSet_gsteps (s : State) (h : Nat) (o : RunOp) : (s.opSet h o).gsteps = s.gsteps := rfl
@[simp] theorem opSet_attnPass (s : State) (h : Nat) (o : RunOp) : (s.opSet h o).attnPass = s.attnPass := rfl
@[simp] theorem opSet_commits (s : State) (h : Nat) (o : RunOp) : (s.opSet h o).commits = s.commits := rfl
@[simp] theorem opSet_folds (s : State) (h : Nat) (o : RunOp) : (s.opSet h o).folds = s.folds := rfl
@[simp] theorem opSet_recvs (s : State) (h : Nat) (o : RunOp) : (s.opSet h o).recvs = s.recvs := rfl
@[simp] theorem opSet_busyCb (s : State) (h : Nat) (o : RunOp) : (s.opSet h o).busyCb = s.busyCb := rfl
@[simp] theorem opSet_foldLog (s : State) (h : Nat) (o : RunOp) : (s.opSet h o).foldLog = s.foldLog := rfl
@[simp] theorem opSet_convs (s : State) (h : Nat) (o : RunOp) : (s.opSet h o).convs = s.convs := rfl
@[simp] theorem opSet_rleQ (s : State) (h : Nat) (o : RunOp) : (s.opSet h o).rleQ = s.rleQ := rfl
@[simp] theorem opSet_turnLast (s : State) (h : Nat) (o : RunOp) : (s.opSet h o).turnLast = s.turnLast := rfl
@[simp] theorem opSet_tim (s : State) (h : Nat) (o : RunOp) : (s.opSet h o).tim = s.tim := rfl
@[simp] theorem opSet_mdls (s : State) (h : Nat) (o : RunOp) : (s.opSet h o).mdls = s.mdls := rfl
@[simp] theorem opSet_freed (s : State) (h : Nat) (o : RunOp) : (s.opSet h o).freed = s.freed := rfl
@[simp] theorem opSet_reqLatch (s : State) (h : Nat) (o : RunOp) : (s.opSet h o).reqLatch = s.reqLatch := rfl
@[simp] theorem opSet_sem (s : State) (h : Nat) (o : RunOp) : (s.opSet h o).sem = s.sem := rfl
@[simp] theorem opSet_pwr (s : State) (h : Nat) (o : RunOp) : (s.opSet h o).pwr = s.pwr := rfl
@[simp] theorem opSet_winReads (s : State) (h : Nat) (o : RunOp) : (s.opSet h o).winReads = s.winReads := rfl
@[simp] theorem opSet_uart (s : State) (h : Nat) (o : RunOp) : (s.opSet h o).uart = s.uart := rfl
@[simp] theorem opSet_jtag (s : State) (h : Nat) (o : RunOp) : (s.opSet h o).jtag = s.jtag := rfl
@[simp] theorem opSet_smb (s : State) (h : Nat) (o : RunOp) : (s.opSet h o).smb = s.smb := rfl

/-! ### evqSet -/

@[simp] theorem evqSet_pending (s : State) (n q : Nat) (e : EvQueue) : (s.evqSet n q e).pending = s.pending := rfl
@[simp] theorem evqSet_ft (s : State) (n q : Nat) (e : EvQueue) : (s.evqSet n q e).ft = s.ft := rfl
@[simp] theorem evqSet_freeCtr (s : State) (n q : Nat) (e : EvQueue) : (s.evqSet n q e).freeCtr = s.freeCtr := rfl
@[simp] theorem evqSet_outbox (s : State) (n q : Nat) (e : EvQueue) : (s.evqSet n q e).outbox = s.outbox := rfl
@[simp] theorem evqSet_regs (s : State) (n q : Nat) (e : EvQueue) : (s.evqSet n q e).regs = s.regs := rfl
@[simp] theorem evqSet_mem (s : State) (n q : Nat) (e : EvQueue) : (s.evqSet n q e).mem = s.mem := rfl
@[simp] theorem evqSet_clk (s : State) (n q : Nat) (e : EvQueue) : (s.evqSet n q e).clk = s.clk := rfl
@[simp] theorem evqSet_mesh (s : State) (n q : Nat) (e : EvQueue) : (s.evqSet n q e).mesh = s.mesh := rfl
@[simp] theorem evqSet_meshQ (s : State) (n q : Nat) (e : EvQueue) : (s.evqSet n q e).meshQ = s.meshQ := rfl
@[simp] theorem evqSet_eng (s : State) (n q : Nat) (e : EvQueue) : (s.evqSet n q e).eng = s.eng := rfl
@[simp] theorem evqSet_strm (s : State) (n q : Nat) (e : EvQueue) : (s.evqSet n q e).strm = s.strm := rfl
@[simp] theorem evqSet_waiters (s : State) (n q : Nat) (e : EvQueue) : (s.evqSet n q e).waiters = s.waiters := rfl
@[simp] theorem evqSet_sigs (s : State) (n q : Nat) (e : EvQueue) : (s.evqSet n q e).sigs = s.sigs := rfl
@[simp] theorem evqSet_readyQ (s : State) (n q : Nat) (e : EvQueue) : (s.evqSet n q e).readyQ = s.readyQ := rfl
@[simp] theorem evqSet_ops (s : State) (n q : Nat) (e : EvQueue) : (s.evqSet n q e).ops = s.ops := rfl
@[simp] theorem evqSet_depCtr (s : State) (n q : Nat) (e : EvQueue) : (s.evqSet n q e).depCtr = s.depCtr := rfl
@[simp] theorem evqSet_ms (s : State) (n q : Nat) (e : EvQueue) : (s.evqSet n q e).ms = s.ms := rfl
@[simp] theorem evqSet_tenants (s : State) (n q : Nat) (e : EvQueue) : (s.evqSet n q e).tenants = s.tenants := rfl
@[simp] theorem evqSet_msix (s : State) (n q : Nat) (e : EvQueue) : (s.evqSet n q e).msix = s.msix := rfl
@[simp] theorem evqSet_rng (s : State) (n q : Nat) (e : EvQueue) : (s.evqSet n q e).rng = s.rng := rfl
@[simp] theorem evqSet_held (s : State) (n q : Nat) (e : EvQueue) : (s.evqSet n q e).held = s.held := rfl
@[simp] theorem evqSet_latched (s : State) (n q : Nat) (e : EvQueue) : (s.evqSet n q e).latched = s.latched := rfl
@[simp] theorem evqSet_reqs (s : State) (n q : Nat) (e : EvQueue) : (s.evqSet n q e).reqs = s.reqs := rfl
@[simp] theorem evqSet_trigs (s : State) (n q : Nat) (e : EvQueue) : (s.evqSet n q e).trigs = s.trigs := rfl
@[simp] theorem evqSet_turn (s : State) (n q : Nat) (e : EvQueue) : (s.evqSet n q e).turn = s.turn := rfl
@[simp] theorem evqSet_rrHome (s : State) (n q : Nat) (e : EvQueue) : (s.evqSet n q e).rrHome = s.rrHome := rfl
@[simp] theorem evqSet_coreRun (s : State) (n q : Nat) (e : EvQueue) : (s.evqSet n q e).coreRun = s.coreRun := rfl
@[simp] theorem evqSet_host (s : State) (n q : Nat) (e : EvQueue) : (s.evqSet n q e).host = s.host := rfl
@[simp] theorem evqSet_nbr (s : State) (n q : Nat) (e : EvQueue) : (s.evqSet n q e).nbr = s.nbr := rfl
@[simp] theorem evqSet_xdom (s : State) (n q : Nat) (e : EvQueue) : (s.evqSet n q e).xdom = s.xdom := rfl
@[simp] theorem evqSet_notices (s : State) (n q : Nat) (e : EvQueue) : (s.evqSet n q e).notices = s.notices := rfl
@[simp] theorem evqSet_router (s : State) (n q : Nat) (e : EvQueue) : (s.evqSet n q e).router = s.router := rfl
@[simp] theorem evqSet_ports (s : State) (n q : Nat) (e : EvQueue) : (s.evqSet n q e).ports = s.ports := rfl
@[simp] theorem evqSet_flowOut (s : State) (n q : Nat) (e : EvQueue) : (s.evqSet n q e).flowOut = s.flowOut := rfl
@[simp] theorem evqSet_flowIn (s : State) (n q : Nat) (e : EvQueue) : (s.evqSet n q e).flowIn = s.flowIn := rfl
@[simp] theorem evqSet_remTodo (s : State) (n q : Nat) (e : EvQueue) : (s.evqSet n q e).remTodo = s.remTodo := rfl
@[simp] theorem evqSet_reqWait (s : State) (n q : Nat) (e : EvQueue) : (s.evqSet n q e).reqWait = s.reqWait := rfl
@[simp] theorem evqSet_guests (s : State) (n q : Nat) (e : EvQueue) : (s.evqSet n q e).guests = s.guests := rfl
@[simp] theorem evqSet_away (s : State) (n q : Nat) (e : EvQueue) : (s.evqSet n q e).away = s.away := rfl
@[simp] theorem evqSet_lostPkgs (s : State) (n q : Nat) (e : EvQueue) : (s.evqSet n q e).lostPkgs = s.lostPkgs := rfl
@[simp] theorem evqSet_kf (s : State) (n q : Nat) (e : EvQueue) : (s.evqSet n q e).kf = s.kf := rfl
@[simp] theorem evqSet_slots (s : State) (n q : Nat) (e : EvQueue) : (s.evqSet n q e).slots = s.slots := rfl
@[simp] theorem evqSet_ftable (s : State) (n q : Nat) (e : EvQueue) : (s.evqSet n q e).ftable = s.ftable := rfl
@[simp] theorem evqSet_collTurn (s : State) (n q : Nat) (e : EvQueue) : (s.evqSet n q e).collTurn = s.collTurn := rfl
@[simp] theorem evqSet_gsteps (s : State) (n q : Nat) (e : EvQueue) : (s.evqSet n q e).gsteps = s.gsteps := rfl
@[simp] theorem evqSet_attnPass (s : State) (n q : Nat) (e : EvQueue) : (s.evqSet n q e).attnPass = s.attnPass := rfl
@[simp] theorem evqSet_commits (s : State) (n q : Nat) (e : EvQueue) : (s.evqSet n q e).commits = s.commits := rfl
@[simp] theorem evqSet_folds (s : State) (n q : Nat) (e : EvQueue) : (s.evqSet n q e).folds = s.folds := rfl
@[simp] theorem evqSet_recvs (s : State) (n q : Nat) (e : EvQueue) : (s.evqSet n q e).recvs = s.recvs := rfl
@[simp] theorem evqSet_busyCb (s : State) (n q : Nat) (e : EvQueue) : (s.evqSet n q e).busyCb = s.busyCb := rfl
@[simp] theorem evqSet_foldLog (s : State) (n q : Nat) (e : EvQueue) : (s.evqSet n q e).foldLog = s.foldLog := rfl
@[simp] theorem evqSet_convs (s : State) (n q : Nat) (e : EvQueue) : (s.evqSet n q e).convs = s.convs := rfl
@[simp] theorem evqSet_rleQ (s : State) (n q : Nat) (e : EvQueue) : (s.evqSet n q e).rleQ = s.rleQ := rfl
@[simp] theorem evqSet_turnLast (s : State) (n q : Nat) (e : EvQueue) : (s.evqSet n q e).turnLast = s.turnLast := rfl
@[simp] theorem evqSet_tim (s : State) (n q : Nat) (e : EvQueue) : (s.evqSet n q e).tim = s.tim := rfl
@[simp] theorem evqSet_mdls (s : State) (n q : Nat) (e : EvQueue) : (s.evqSet n q e).mdls = s.mdls := rfl
@[simp] theorem evqSet_freed (s : State) (n q : Nat) (e : EvQueue) : (s.evqSet n q e).freed = s.freed := rfl
@[simp] theorem evqSet_reqLatch (s : State) (n q : Nat) (e : EvQueue) : (s.evqSet n q e).reqLatch = s.reqLatch := rfl
@[simp] theorem evqSet_sem (s : State) (n q : Nat) (e : EvQueue) : (s.evqSet n q e).sem = s.sem := rfl
@[simp] theorem evqSet_pwr (s : State) (n q : Nat) (e : EvQueue) : (s.evqSet n q e).pwr = s.pwr := rfl
@[simp] theorem evqSet_winReads (s : State) (n q : Nat) (e : EvQueue) : (s.evqSet n q e).winReads = s.winReads := rfl
@[simp] theorem evqSet_uart (s : State) (n q : Nat) (e : EvQueue) : (s.evqSet n q e).uart = s.uart := rfl
@[simp] theorem evqSet_jtag (s : State) (n q : Nat) (e : EvQueue) : (s.evqSet n q e).jtag = s.jtag := rfl
@[simp] theorem evqSet_smb (s : State) (n q : Nat) (e : EvQueue) : (s.evqSet n q e).smb = s.smb := rfl

/-! ### depSet -/

@[simp] theorem depSet_pending (s : State) (n k : Nat) (v : Word64) : (s.depSet n k v).pending = s.pending := rfl
@[simp] theorem depSet_ft (s : State) (n k : Nat) (v : Word64) : (s.depSet n k v).ft = s.ft := rfl
@[simp] theorem depSet_freeCtr (s : State) (n k : Nat) (v : Word64) : (s.depSet n k v).freeCtr = s.freeCtr := rfl
@[simp] theorem depSet_outbox (s : State) (n k : Nat) (v : Word64) : (s.depSet n k v).outbox = s.outbox := rfl
@[simp] theorem depSet_regs (s : State) (n k : Nat) (v : Word64) : (s.depSet n k v).regs = s.regs := rfl
@[simp] theorem depSet_mem (s : State) (n k : Nat) (v : Word64) : (s.depSet n k v).mem = s.mem := rfl
@[simp] theorem depSet_clk (s : State) (n k : Nat) (v : Word64) : (s.depSet n k v).clk = s.clk := rfl
@[simp] theorem depSet_mesh (s : State) (n k : Nat) (v : Word64) : (s.depSet n k v).mesh = s.mesh := rfl
@[simp] theorem depSet_meshQ (s : State) (n k : Nat) (v : Word64) : (s.depSet n k v).meshQ = s.meshQ := rfl
@[simp] theorem depSet_eng (s : State) (n k : Nat) (v : Word64) : (s.depSet n k v).eng = s.eng := rfl
@[simp] theorem depSet_strm (s : State) (n k : Nat) (v : Word64) : (s.depSet n k v).strm = s.strm := rfl
@[simp] theorem depSet_waiters (s : State) (n k : Nat) (v : Word64) : (s.depSet n k v).waiters = s.waiters := rfl
@[simp] theorem depSet_sigs (s : State) (n k : Nat) (v : Word64) : (s.depSet n k v).sigs = s.sigs := rfl
@[simp] theorem depSet_readyQ (s : State) (n k : Nat) (v : Word64) : (s.depSet n k v).readyQ = s.readyQ := rfl
@[simp] theorem depSet_ops (s : State) (n k : Nat) (v : Word64) : (s.depSet n k v).ops = s.ops := rfl
@[simp] theorem depSet_evq (s : State) (n k : Nat) (v : Word64) : (s.depSet n k v).evq = s.evq := rfl
@[simp] theorem depSet_ms (s : State) (n k : Nat) (v : Word64) : (s.depSet n k v).ms = s.ms := rfl
@[simp] theorem depSet_tenants (s : State) (n k : Nat) (v : Word64) : (s.depSet n k v).tenants = s.tenants := rfl
@[simp] theorem depSet_msix (s : State) (n k : Nat) (v : Word64) : (s.depSet n k v).msix = s.msix := rfl
@[simp] theorem depSet_rng (s : State) (n k : Nat) (v : Word64) : (s.depSet n k v).rng = s.rng := rfl
@[simp] theorem depSet_held (s : State) (n k : Nat) (v : Word64) : (s.depSet n k v).held = s.held := rfl
@[simp] theorem depSet_latched (s : State) (n k : Nat) (v : Word64) : (s.depSet n k v).latched = s.latched := rfl
@[simp] theorem depSet_reqs (s : State) (n k : Nat) (v : Word64) : (s.depSet n k v).reqs = s.reqs := rfl
@[simp] theorem depSet_trigs (s : State) (n k : Nat) (v : Word64) : (s.depSet n k v).trigs = s.trigs := rfl
@[simp] theorem depSet_turn (s : State) (n k : Nat) (v : Word64) : (s.depSet n k v).turn = s.turn := rfl
@[simp] theorem depSet_rrHome (s : State) (n k : Nat) (v : Word64) : (s.depSet n k v).rrHome = s.rrHome := rfl
@[simp] theorem depSet_coreRun (s : State) (n k : Nat) (v : Word64) : (s.depSet n k v).coreRun = s.coreRun := rfl
@[simp] theorem depSet_host (s : State) (n k : Nat) (v : Word64) : (s.depSet n k v).host = s.host := rfl
@[simp] theorem depSet_nbr (s : State) (n k : Nat) (v : Word64) : (s.depSet n k v).nbr = s.nbr := rfl
@[simp] theorem depSet_xdom (s : State) (n k : Nat) (v : Word64) : (s.depSet n k v).xdom = s.xdom := rfl
@[simp] theorem depSet_notices (s : State) (n k : Nat) (v : Word64) : (s.depSet n k v).notices = s.notices := rfl
@[simp] theorem depSet_router (s : State) (n k : Nat) (v : Word64) : (s.depSet n k v).router = s.router := rfl
@[simp] theorem depSet_ports (s : State) (n k : Nat) (v : Word64) : (s.depSet n k v).ports = s.ports := rfl
@[simp] theorem depSet_flowOut (s : State) (n k : Nat) (v : Word64) : (s.depSet n k v).flowOut = s.flowOut := rfl
@[simp] theorem depSet_flowIn (s : State) (n k : Nat) (v : Word64) : (s.depSet n k v).flowIn = s.flowIn := rfl
@[simp] theorem depSet_remTodo (s : State) (n k : Nat) (v : Word64) : (s.depSet n k v).remTodo = s.remTodo := rfl
@[simp] theorem depSet_reqWait (s : State) (n k : Nat) (v : Word64) : (s.depSet n k v).reqWait = s.reqWait := rfl
@[simp] theorem depSet_guests (s : State) (n k : Nat) (v : Word64) : (s.depSet n k v).guests = s.guests := rfl
@[simp] theorem depSet_away (s : State) (n k : Nat) (v : Word64) : (s.depSet n k v).away = s.away := rfl
@[simp] theorem depSet_lostPkgs (s : State) (n k : Nat) (v : Word64) : (s.depSet n k v).lostPkgs = s.lostPkgs := rfl
@[simp] theorem depSet_kf (s : State) (n k : Nat) (v : Word64) : (s.depSet n k v).kf = s.kf := rfl
@[simp] theorem depSet_slots (s : State) (n k : Nat) (v : Word64) : (s.depSet n k v).slots = s.slots := rfl
@[simp] theorem depSet_ftable (s : State) (n k : Nat) (v : Word64) : (s.depSet n k v).ftable = s.ftable := rfl
@[simp] theorem depSet_collTurn (s : State) (n k : Nat) (v : Word64) : (s.depSet n k v).collTurn = s.collTurn := rfl
@[simp] theorem depSet_gsteps (s : State) (n k : Nat) (v : Word64) : (s.depSet n k v).gsteps = s.gsteps := rfl
@[simp] theorem depSet_attnPass (s : State) (n k : Nat) (v : Word64) : (s.depSet n k v).attnPass = s.attnPass := rfl
@[simp] theorem depSet_commits (s : State) (n k : Nat) (v : Word64) : (s.depSet n k v).commits = s.commits := rfl
@[simp] theorem depSet_folds (s : State) (n k : Nat) (v : Word64) : (s.depSet n k v).folds = s.folds := rfl
@[simp] theorem depSet_recvs (s : State) (n k : Nat) (v : Word64) : (s.depSet n k v).recvs = s.recvs := rfl
@[simp] theorem depSet_busyCb (s : State) (n k : Nat) (v : Word64) : (s.depSet n k v).busyCb = s.busyCb := rfl
@[simp] theorem depSet_foldLog (s : State) (n k : Nat) (v : Word64) : (s.depSet n k v).foldLog = s.foldLog := rfl
@[simp] theorem depSet_convs (s : State) (n k : Nat) (v : Word64) : (s.depSet n k v).convs = s.convs := rfl
@[simp] theorem depSet_rleQ (s : State) (n k : Nat) (v : Word64) : (s.depSet n k v).rleQ = s.rleQ := rfl
@[simp] theorem depSet_turnLast (s : State) (n k : Nat) (v : Word64) : (s.depSet n k v).turnLast = s.turnLast := rfl
@[simp] theorem depSet_tim (s : State) (n k : Nat) (v : Word64) : (s.depSet n k v).tim = s.tim := rfl
@[simp] theorem depSet_mdls (s : State) (n k : Nat) (v : Word64) : (s.depSet n k v).mdls = s.mdls := rfl
@[simp] theorem depSet_freed (s : State) (n k : Nat) (v : Word64) : (s.depSet n k v).freed = s.freed := rfl
@[simp] theorem depSet_reqLatch (s : State) (n k : Nat) (v : Word64) : (s.depSet n k v).reqLatch = s.reqLatch := rfl
@[simp] theorem depSet_sem (s : State) (n k : Nat) (v : Word64) : (s.depSet n k v).sem = s.sem := rfl
@[simp] theorem depSet_pwr (s : State) (n k : Nat) (v : Word64) : (s.depSet n k v).pwr = s.pwr := rfl
@[simp] theorem depSet_winReads (s : State) (n k : Nat) (v : Word64) : (s.depSet n k v).winReads = s.winReads := rfl
@[simp] theorem depSet_uart (s : State) (n k : Nat) (v : Word64) : (s.depSet n k v).uart = s.uart := rfl
@[simp] theorem depSet_jtag (s : State) (n k : Nat) (v : Word64) : (s.depSet n k v).jtag = s.jtag := rfl
@[simp] theorem depSet_smb (s : State) (n k : Nat) (v : Word64) : (s.depSet n k v).smb = s.smb := rfl

/-! ### tileSet -/

@[simp] theorem tileSet_pending (s : State) (n : Nat) (v : Tile) : (s.tileSet n v).pending = s.pending := rfl
@[simp] theorem tileSet_ft (s : State) (n : Nat) (v : Tile) : (s.tileSet n v).ft = s.ft := rfl
@[simp] theorem tileSet_freeCtr (s : State) (n : Nat) (v : Tile) : (s.tileSet n v).freeCtr = s.freeCtr := rfl
@[simp] theorem tileSet_outbox (s : State) (n : Nat) (v : Tile) : (s.tileSet n v).outbox = s.outbox := rfl
@[simp] theorem tileSet_regs (s : State) (n : Nat) (v : Tile) : (s.tileSet n v).regs = s.regs := rfl
@[simp] theorem tileSet_mem (s : State) (n : Nat) (v : Tile) : (s.tileSet n v).mem = s.mem := rfl
@[simp] theorem tileSet_clk (s : State) (n : Nat) (v : Tile) : (s.tileSet n v).clk = s.clk := rfl
@[simp] theorem tileSet_mesh (s : State) (n : Nat) (v : Tile) : (s.tileSet n v).mesh = s.mesh := rfl
@[simp] theorem tileSet_meshQ (s : State) (n : Nat) (v : Tile) : (s.tileSet n v).meshQ = s.meshQ := rfl
@[simp] theorem tileSet_eng (s : State) (n : Nat) (v : Tile) : (s.tileSet n v).eng = s.eng := rfl
@[simp] theorem tileSet_strm (s : State) (n : Nat) (v : Tile) : (s.tileSet n v).strm = s.strm := rfl
@[simp] theorem tileSet_waiters (s : State) (n : Nat) (v : Tile) : (s.tileSet n v).waiters = s.waiters := rfl
@[simp] theorem tileSet_sigs (s : State) (n : Nat) (v : Tile) : (s.tileSet n v).sigs = s.sigs := rfl
@[simp] theorem tileSet_readyQ (s : State) (n : Nat) (v : Tile) : (s.tileSet n v).readyQ = s.readyQ := rfl
@[simp] theorem tileSet_ops (s : State) (n : Nat) (v : Tile) : (s.tileSet n v).ops = s.ops := rfl
@[simp] theorem tileSet_depCtr (s : State) (n : Nat) (v : Tile) : (s.tileSet n v).depCtr = s.depCtr := rfl
@[simp] theorem tileSet_evq (s : State) (n : Nat) (v : Tile) : (s.tileSet n v).evq = s.evq := rfl
@[simp] theorem tileSet_tenants (s : State) (n : Nat) (v : Tile) : (s.tileSet n v).tenants = s.tenants := rfl
@[simp] theorem tileSet_msix (s : State) (n : Nat) (v : Tile) : (s.tileSet n v).msix = s.msix := rfl
@[simp] theorem tileSet_rng (s : State) (n : Nat) (v : Tile) : (s.tileSet n v).rng = s.rng := rfl
@[simp] theorem tileSet_held (s : State) (n : Nat) (v : Tile) : (s.tileSet n v).held = s.held := rfl
@[simp] theorem tileSet_latched (s : State) (n : Nat) (v : Tile) : (s.tileSet n v).latched = s.latched := rfl
@[simp] theorem tileSet_reqs (s : State) (n : Nat) (v : Tile) : (s.tileSet n v).reqs = s.reqs := rfl
@[simp] theorem tileSet_trigs (s : State) (n : Nat) (v : Tile) : (s.tileSet n v).trigs = s.trigs := rfl
@[simp] theorem tileSet_turn (s : State) (n : Nat) (v : Tile) : (s.tileSet n v).turn = s.turn := rfl
@[simp] theorem tileSet_rrHome (s : State) (n : Nat) (v : Tile) : (s.tileSet n v).rrHome = s.rrHome := rfl
@[simp] theorem tileSet_coreRun (s : State) (n : Nat) (v : Tile) : (s.tileSet n v).coreRun = s.coreRun := rfl
@[simp] theorem tileSet_host (s : State) (n : Nat) (v : Tile) : (s.tileSet n v).host = s.host := rfl
@[simp] theorem tileSet_nbr (s : State) (n : Nat) (v : Tile) : (s.tileSet n v).nbr = s.nbr := rfl
@[simp] theorem tileSet_xdom (s : State) (n : Nat) (v : Tile) : (s.tileSet n v).xdom = s.xdom := rfl
@[simp] theorem tileSet_notices (s : State) (n : Nat) (v : Tile) : (s.tileSet n v).notices = s.notices := rfl
@[simp] theorem tileSet_router (s : State) (n : Nat) (v : Tile) : (s.tileSet n v).router = s.router := rfl
@[simp] theorem tileSet_ports (s : State) (n : Nat) (v : Tile) : (s.tileSet n v).ports = s.ports := rfl
@[simp] theorem tileSet_flowOut (s : State) (n : Nat) (v : Tile) : (s.tileSet n v).flowOut = s.flowOut := rfl
@[simp] theorem tileSet_flowIn (s : State) (n : Nat) (v : Tile) : (s.tileSet n v).flowIn = s.flowIn := rfl
@[simp] theorem tileSet_remTodo (s : State) (n : Nat) (v : Tile) : (s.tileSet n v).remTodo = s.remTodo := rfl
@[simp] theorem tileSet_reqWait (s : State) (n : Nat) (v : Tile) : (s.tileSet n v).reqWait = s.reqWait := rfl
@[simp] theorem tileSet_guests (s : State) (n : Nat) (v : Tile) : (s.tileSet n v).guests = s.guests := rfl
@[simp] theorem tileSet_away (s : State) (n : Nat) (v : Tile) : (s.tileSet n v).away = s.away := rfl
@[simp] theorem tileSet_lostPkgs (s : State) (n : Nat) (v : Tile) : (s.tileSet n v).lostPkgs = s.lostPkgs := rfl
@[simp] theorem tileSet_kf (s : State) (n : Nat) (v : Tile) : (s.tileSet n v).kf = s.kf := rfl
@[simp] theorem tileSet_slots (s : State) (n : Nat) (v : Tile) : (s.tileSet n v).slots = s.slots := rfl
@[simp] theorem tileSet_ftable (s : State) (n : Nat) (v : Tile) : (s.tileSet n v).ftable = s.ftable := rfl
@[simp] theorem tileSet_collTurn (s : State) (n : Nat) (v : Tile) : (s.tileSet n v).collTurn = s.collTurn := rfl
@[simp] theorem tileSet_gsteps (s : State) (n : Nat) (v : Tile) : (s.tileSet n v).gsteps = s.gsteps := rfl
@[simp] theorem tileSet_attnPass (s : State) (n : Nat) (v : Tile) : (s.tileSet n v).attnPass = s.attnPass := rfl
@[simp] theorem tileSet_commits (s : State) (n : Nat) (v : Tile) : (s.tileSet n v).commits = s.commits := rfl
@[simp] theorem tileSet_folds (s : State) (n : Nat) (v : Tile) : (s.tileSet n v).folds = s.folds := rfl
@[simp] theorem tileSet_recvs (s : State) (n : Nat) (v : Tile) : (s.tileSet n v).recvs = s.recvs := rfl
@[simp] theorem tileSet_busyCb (s : State) (n : Nat) (v : Tile) : (s.tileSet n v).busyCb = s.busyCb := rfl
@[simp] theorem tileSet_foldLog (s : State) (n : Nat) (v : Tile) : (s.tileSet n v).foldLog = s.foldLog := rfl
@[simp] theorem tileSet_convs (s : State) (n : Nat) (v : Tile) : (s.tileSet n v).convs = s.convs := rfl
@[simp] theorem tileSet_rleQ (s : State) (n : Nat) (v : Tile) : (s.tileSet n v).rleQ = s.rleQ := rfl
@[simp] theorem tileSet_turnLast (s : State) (n : Nat) (v : Tile) : (s.tileSet n v).turnLast = s.turnLast := rfl
@[simp] theorem tileSet_tim (s : State) (n : Nat) (v : Tile) : (s.tileSet n v).tim = s.tim := rfl
@[simp] theorem tileSet_mdls (s : State) (n : Nat) (v : Tile) : (s.tileSet n v).mdls = s.mdls := rfl
@[simp] theorem tileSet_freed (s : State) (n : Nat) (v : Tile) : (s.tileSet n v).freed = s.freed := rfl
@[simp] theorem tileSet_reqLatch (s : State) (n : Nat) (v : Tile) : (s.tileSet n v).reqLatch = s.reqLatch := rfl
@[simp] theorem tileSet_sem (s : State) (n : Nat) (v : Tile) : (s.tileSet n v).sem = s.sem := rfl
@[simp] theorem tileSet_pwr (s : State) (n : Nat) (v : Tile) : (s.tileSet n v).pwr = s.pwr := rfl
@[simp] theorem tileSet_winReads (s : State) (n : Nat) (v : Tile) : (s.tileSet n v).winReads = s.winReads := rfl
@[simp] theorem tileSet_uart (s : State) (n : Nat) (v : Tile) : (s.tileSet n v).uart = s.uart := rfl
@[simp] theorem tileSet_jtag (s : State) (n : Nat) (v : Tile) : (s.tileSet n v).jtag = s.jtag := rfl
@[simp] theorem tileSet_smb (s : State) (n : Nat) (v : Tile) : (s.tileSet n v).smb = s.smb := rfl

/-! ### framesSet -/

@[simp] theorem framesSet_pending (s : State) (f : Map Frame) : (s.framesSet f).pending = s.pending := rfl
@[simp] theorem framesSet_ft (s : State) (f : Map Frame) : (s.framesSet f).ft = s.ft := rfl
@[simp] theorem framesSet_freeCtr (s : State) (f : Map Frame) : (s.framesSet f).freeCtr = s.freeCtr := rfl
@[simp] theorem framesSet_outbox (s : State) (f : Map Frame) : (s.framesSet f).outbox = s.outbox := rfl
@[simp] theorem framesSet_regs (s : State) (f : Map Frame) : (s.framesSet f).regs = s.regs := rfl
@[simp] theorem framesSet_mem (s : State) (f : Map Frame) : (s.framesSet f).mem = s.mem := rfl
@[simp] theorem framesSet_clk (s : State) (f : Map Frame) : (s.framesSet f).clk = s.clk := rfl
@[simp] theorem framesSet_mesh (s : State) (f : Map Frame) : (s.framesSet f).mesh = s.mesh := rfl
@[simp] theorem framesSet_meshQ (s : State) (f : Map Frame) : (s.framesSet f).meshQ = s.meshQ := rfl
@[simp] theorem framesSet_eng (s : State) (f : Map Frame) : (s.framesSet f).eng = s.eng := rfl
@[simp] theorem framesSet_strm (s : State) (f : Map Frame) : (s.framesSet f).strm = s.strm := rfl
@[simp] theorem framesSet_waiters (s : State) (f : Map Frame) : (s.framesSet f).waiters = s.waiters := rfl
@[simp] theorem framesSet_sigs (s : State) (f : Map Frame) : (s.framesSet f).sigs = s.sigs := rfl
@[simp] theorem framesSet_readyQ (s : State) (f : Map Frame) : (s.framesSet f).readyQ = s.readyQ := rfl
@[simp] theorem framesSet_ops (s : State) (f : Map Frame) : (s.framesSet f).ops = s.ops := rfl
@[simp] theorem framesSet_depCtr (s : State) (f : Map Frame) : (s.framesSet f).depCtr = s.depCtr := rfl
@[simp] theorem framesSet_evq (s : State) (f : Map Frame) : (s.framesSet f).evq = s.evq := rfl
@[simp] theorem framesSet_tenants (s : State) (f : Map Frame) : (s.framesSet f).tenants = s.tenants := rfl
@[simp] theorem framesSet_msix (s : State) (f : Map Frame) : (s.framesSet f).msix = s.msix := rfl
@[simp] theorem framesSet_rng (s : State) (f : Map Frame) : (s.framesSet f).rng = s.rng := rfl
@[simp] theorem framesSet_held (s : State) (f : Map Frame) : (s.framesSet f).held = s.held := rfl
@[simp] theorem framesSet_latched (s : State) (f : Map Frame) : (s.framesSet f).latched = s.latched := rfl
@[simp] theorem framesSet_reqs (s : State) (f : Map Frame) : (s.framesSet f).reqs = s.reqs := rfl
@[simp] theorem framesSet_trigs (s : State) (f : Map Frame) : (s.framesSet f).trigs = s.trigs := rfl
@[simp] theorem framesSet_turn (s : State) (f : Map Frame) : (s.framesSet f).turn = s.turn := rfl
@[simp] theorem framesSet_rrHome (s : State) (f : Map Frame) : (s.framesSet f).rrHome = s.rrHome := rfl
@[simp] theorem framesSet_coreRun (s : State) (f : Map Frame) : (s.framesSet f).coreRun = s.coreRun := rfl
@[simp] theorem framesSet_host (s : State) (f : Map Frame) : (s.framesSet f).host = s.host := rfl
@[simp] theorem framesSet_nbr (s : State) (f : Map Frame) : (s.framesSet f).nbr = s.nbr := rfl
@[simp] theorem framesSet_xdom (s : State) (f : Map Frame) : (s.framesSet f).xdom = s.xdom := rfl
@[simp] theorem framesSet_notices (s : State) (f : Map Frame) : (s.framesSet f).notices = s.notices := rfl
@[simp] theorem framesSet_router (s : State) (f : Map Frame) : (s.framesSet f).router = s.router := rfl
@[simp] theorem framesSet_ports (s : State) (f : Map Frame) : (s.framesSet f).ports = s.ports := rfl
@[simp] theorem framesSet_flowOut (s : State) (f : Map Frame) : (s.framesSet f).flowOut = s.flowOut := rfl
@[simp] theorem framesSet_flowIn (s : State) (f : Map Frame) : (s.framesSet f).flowIn = s.flowIn := rfl
@[simp] theorem framesSet_remTodo (s : State) (f : Map Frame) : (s.framesSet f).remTodo = s.remTodo := rfl
@[simp] theorem framesSet_reqWait (s : State) (f : Map Frame) : (s.framesSet f).reqWait = s.reqWait := rfl
@[simp] theorem framesSet_guests (s : State) (f : Map Frame) : (s.framesSet f).guests = s.guests := rfl
@[simp] theorem framesSet_away (s : State) (f : Map Frame) : (s.framesSet f).away = s.away := rfl
@[simp] theorem framesSet_lostPkgs (s : State) (f : Map Frame) : (s.framesSet f).lostPkgs = s.lostPkgs := rfl
@[simp] theorem framesSet_kf (s : State) (f : Map Frame) : (s.framesSet f).kf = s.kf := rfl
@[simp] theorem framesSet_slots (s : State) (f : Map Frame) : (s.framesSet f).slots = s.slots := rfl
@[simp] theorem framesSet_ftable (s : State) (f : Map Frame) : (s.framesSet f).ftable = s.ftable := rfl
@[simp] theorem framesSet_collTurn (s : State) (f : Map Frame) : (s.framesSet f).collTurn = s.collTurn := rfl
@[simp] theorem framesSet_gsteps (s : State) (f : Map Frame) : (s.framesSet f).gsteps = s.gsteps := rfl
@[simp] theorem framesSet_attnPass (s : State) (f : Map Frame) : (s.framesSet f).attnPass = s.attnPass := rfl
@[simp] theorem framesSet_commits (s : State) (f : Map Frame) : (s.framesSet f).commits = s.commits := rfl
@[simp] theorem framesSet_folds (s : State) (f : Map Frame) : (s.framesSet f).folds = s.folds := rfl
@[simp] theorem framesSet_recvs (s : State) (f : Map Frame) : (s.framesSet f).recvs = s.recvs := rfl
@[simp] theorem framesSet_busyCb (s : State) (f : Map Frame) : (s.framesSet f).busyCb = s.busyCb := rfl
@[simp] theorem framesSet_foldLog (s : State) (f : Map Frame) : (s.framesSet f).foldLog = s.foldLog := rfl
@[simp] theorem framesSet_convs (s : State) (f : Map Frame) : (s.framesSet f).convs = s.convs := rfl
@[simp] theorem framesSet_rleQ (s : State) (f : Map Frame) : (s.framesSet f).rleQ = s.rleQ := rfl
@[simp] theorem framesSet_turnLast (s : State) (f : Map Frame) : (s.framesSet f).turnLast = s.turnLast := rfl
@[simp] theorem framesSet_tim (s : State) (f : Map Frame) : (s.framesSet f).tim = s.tim := rfl
@[simp] theorem framesSet_mdls (s : State) (f : Map Frame) : (s.framesSet f).mdls = s.mdls := rfl
@[simp] theorem framesSet_freed (s : State) (f : Map Frame) : (s.framesSet f).freed = s.freed := rfl
@[simp] theorem framesSet_reqLatch (s : State) (f : Map Frame) : (s.framesSet f).reqLatch = s.reqLatch := rfl
@[simp] theorem framesSet_sem (s : State) (f : Map Frame) : (s.framesSet f).sem = s.sem := rfl
@[simp] theorem framesSet_pwr (s : State) (f : Map Frame) : (s.framesSet f).pwr = s.pwr := rfl
@[simp] theorem framesSet_winReads (s : State) (f : Map Frame) : (s.framesSet f).winReads = s.winReads := rfl
@[simp] theorem framesSet_uart (s : State) (f : Map Frame) : (s.framesSet f).uart = s.uart := rfl
@[simp] theorem framesSet_jtag (s : State) (f : Map Frame) : (s.framesSet f).jtag = s.jtag := rfl
@[simp] theorem framesSet_smb (s : State) (f : Map Frame) : (s.framesSet f).smb = s.smb := rfl

end Sys2Proof.Machine.State
end

