-- ==== Sys2Proof/Laws/Ops.lean ====
section
/-! SUPPORT. What the shared operations do: what a register reads as after a write, and all that each operation can change. -/
namespace Sys2Proof.Machine
open Sys2Proof

/-! ### The queue -/

/-- A meaning that answers a next state answers one whose queue is the one it began with. -/
theorem keepQueue_next {s t : State} {o : Out} (h : keepQueue s o = .next t) : t.pending = s.pending := by
  cases o <;> simp [keepQueue] at h
  subst h; rfl

/-- Keeping the queue changes nothing else of a next state. -/
@[simp] theorem keepQueue_of_next (s t : State) : keepQueue s (.next t) = .next { t with pending := s.pending } := rfl

namespace State

/-! ### Registers -/

/-- A register just written holds what was written. -/
@[simp] theorem rd_wr_self (s : State) (a : Nat) (v : Word32) : (s.wr a v).rd a = v := by simp [rd, wr]

/-- A register just written holds what was written, at each address that names it. -/
theorem rd_wr_of_canon (s : State) {a b : Nat} (v : Word32) (h : canon b = canon a) : (s.wr a v).rd b = v := by
  simp [rd, wr, h]

/-- Writing one register leaves every other as it was. -/
theorem rd_wr_ne (s : State) {a b : Nat} (v : Word32) (h : canon b ≠ canon a) : (s.wr a v).rd b = s.rd b := by
  simp [rd, wr, Map.get?_set_ne _ _ h]

/-- What any register holds after a write of one. -/
theorem rd_wr (s : State) (a b : Nat) (v : Word32) : (s.wr a v).rd b = if canon b = canon a then v else s.rd b := by
  split
  · exact rd_wr_of_canon s v ‹_›
  · exact rd_wr_ne s v ‹_›

/-- A register holds what a state of the same registers holds. -/
theorem rd_congr {s t : State} (h : t.regs = s.regs) (a : Nat) : t.rd a = s.rd a := by simp [rd, h]

@[simp] theorem rd_used (s : State) (a : Nat) : s.used.rd a = s.rd a := rfl
@[simp] theorem rd_emit1 (s : State) (e : Emit) (a : Nat) : (s.emit1 e).rd a = s.rd a := rfl
@[simp] theorem rd_opSet (s : State) (h : Nat) (o : RunOp) (a : Nat) : (s.opSet h o).rd a = s.rd a := rfl
@[simp] theorem rd_evqSet (s : State) (t q : Nat) (e : EvQueue) (a : Nat) : (s.evqSet t q e).rd a = s.rd a := rfl
@[simp] theorem rd_depSet (s : State) (t n : Nat) (v : Word64) (a : Nat) : (s.depSet t n v).rd a = s.rd a := rfl
@[simp] theorem rd_tileSet (s : State) (n : Nat) (v : Tile) (a : Nat) : (s.tileSet n v).rd a = s.rd a := rfl
@[simp] theorem rd_framesSet (s : State) (f : Map Frame) (a : Nat) : (s.framesSet f).rd a = s.rd a := rfl

/-- Every register that is not written keeps its value, and nothing beside the registers changes. -/
theorem wr_frame (s : State) (a : Nat) (v : Word32) : ∃ r, s.wr a v = { s with regs := r } := ⟨_, rfl⟩

/-- A bump, a set and a clear of bits, a field write: each writes its register and nothing else. -/
theorem bump_eq (s : State) (a n : Nat) : s.bump a n = s.wr a (satAdd32 (s.rd a) n) := rfl
theorem setBits_eq (s : State) (a : Nat) (m : Word32) : s.setBits a m = s.wr a (s.rd a ||| m) := rfl
theorem clrBits_eq (s : State) (a : Nat) (m : Word32) : s.clrBits a m = s.wr a (s.rd a &&& ~~~m) := rfl
theorem wrF_eq (s : State) (a hi lo x : Nat) : s.wrF a hi lo x = s.wr a (setFld (s.rd a) hi lo x) := rfl

/-- An operator just set is the operator at its handle. -/
@[simp] theorem op?_opSet_self (s : State) (h : Nat) (o : RunOp) : (s.opSet h o).op? h = some o := by simp [op?, opSet]
/-- Setting one operator leaves every other as it was. -/
theorem op?_opSet_ne (s : State) {h k : Nat} (o : RunOp) (hk : k ≠ h) : (s.opSet h o).op? k = s.op? k := by
  simp [op?, opSet, Map.get?_set_ne _ _ hk]

/-- A dependency counter just set reads as it was set; every other is as it was. -/
theorem dep_depSet (s : State) (t n t' n' : Nat) (v : Word64) (hn : n < 256) (hn' : n' < 256) :
    (s.depSet t n v).dep t' n' = if t' = t ∧ n' = n then v else s.dep t' n' := by
  unfold dep depSet
  rw [Map.get_put]
  by_cases h : t' = t ∧ n' = n
  · simp [h.1, h.2]
  · rw [if_neg h, if_neg (by omega)]

/-- A tile's home just set is its home; every other is as it was. -/
theorem tile_tileSet (s : State) (n m : Nat) (v : Tile) : (s.tileSet n v).tile m = if m = n then v else s.tile m := by
  simp [tile, tileSet, Map.get_put]

/-! ### Sending, interrupts -/

/-- Sending changes the outbox and, where payload bytes go to the host, their count. -/
theorem emit_frame (s : State) (e : Emit) : ∃ r, s.emit e = { s with outbox := s.outbox ++ [e], regs := r } := by
  unfold emit
  split <;> exact ⟨_, rfl⟩

/-- An MSI-X message changes the outbox and the PBA. -/
theorem msixSend_frame (s : State) (v : Nat) : ∃ o m, s.msixSend v = { s with outbox := o, msix := m } := by
  unfold msixSend
  simp only
  split <;> exact ⟨_, _, rfl⟩

/-- A page's pending edge changes the outbox and the PBA. -/
theorem pendEdge_frame (b s : State) (p : Nat) : ∃ o m, pendEdge b s p = { s with outbox := o, msix := m } := by
  unfold pendEdge
  split
  · split
    · simp only
      split
      · exact msixSend_frame _ _
      · exact ⟨_, _, rfl⟩
    · exact ⟨_, _, rfl⟩
  · exact ⟨_, _, rfl⟩

/-- Raising an interrupt bit sets it, and beside it changes the outbox and the PBA. -/
theorem raise_frame (s : State) (p b : Nat) :
    ∃ o m, s.raise p b = { s.setBits (R.INT_STAT p) (BitVec.ofNat 32 (2 ^ b)) with outbox := o, msix := m } :=
  pendEdge_frame s _ p

/-- What any register holds after an interrupt bit is raised. -/
theorem rd_raise (s : State) (p b a : Nat) :
    (s.raise p b).rd a = if canon a = canon (R.INT_STAT p) then s.rd (R.INT_STAT p) ||| BitVec.ofNat 32 (2 ^ b) else s.rd a := by
  obtain ⟨o, m, h⟩ := raise_frame s p b
  rw [h]
  exact rd_wr s _ a _

/-- Raising a bit on several pages changes the registers, the outbox and the PBA. -/
theorem raiseAll_frame (s : State) (ps : List Nat) (b : Nat) :
    ∃ r o m, s.raiseAll ps b = { s with regs := r, outbox := o, msix := m } := by
  unfold raiseAll
  induction ps generalizing s with
  | nil => exact ⟨_, _, _, rfl⟩
  | cons p ps ih =>
    obtain ⟨r, o, m, h⟩ := ih (s.raise p b)
    obtain ⟨o', m', h'⟩ := raise_frame s p b
    refine ⟨r, o, m, ?_⟩
    rw [List.foldl_cons, h, h']
    rfl

/-- Counting a register write changes registers only. -/
theorem countWrite_frame (s : State) (p : Nat) (i : Bool) : ∃ r, s.countWrite p i = { s with regs := r } := by
  unfold countWrite
  split <;> exact ⟨_, rfl⟩

/-- A register write without further effect changes registers only. -/
theorem plainWrite_frame (s : State) (a : Nat) (v : Word32) : ∃ r, s.plainWrite a v = { s with regs := r } := by
  obtain ⟨r, h⟩ := countWrite_frame (s.wr a (writeFields (fieldsAt a) (s.rd a) v).1) (a / 4096) (writeFields (fieldsAt a) (s.rd a) v).2
  exact ⟨r, h⟩

/-! ### Memory -/

/-- Storing bytes changes memory and the poison of units covered whole. -/
theorem store_frame (s : State) (a : Nat) (bs : List Byte) :
    ∃ p, s.store a bs = { s with mem := Mem.write s.mem a bs, ms := { s.ms with poison := p } } := ⟨_, rfl⟩

/-- Storing bytes keeps the memory's canonical form. -/
theorem store_wf (s : State) (a : Nat) (bs : List Byte) (h : Mem.wf s.mem = true) : Mem.wf (s.store a bs).mem = true :=
  Mem.wf_write _ _ _ h

/-- Reset memory has the canonical form. -/
theorem reset_mem_wf : Mem.wf State.reset.mem = true := by decide

/-- A poison mark changes the poison marks only. -/
theorem poisonAt_frame (s : State) (u : Nat) : ∃ p, s.poisonAt u = { s with ms := { s.ms with poison := p } } := ⟨_, rfl⟩

/-- Marks change the poison marks only. -/
theorem markUnits_frame (s : State) (a : Nat) (l : List Nat) :
    ∃ p, s.markUnits a l = { s with ms := { s.ms with poison := p } } := by
  unfold markUnits
  induction l generalizing s with
  | nil => exact ⟨_, rfl⟩
  | cons i l ih =>
    obtain ⟨p, h⟩ := ih (s.poisonAt (a / 64 + i))
    exact ⟨p, h⟩

/-- An access that stores changes memory as the store does, and poison marks. -/
theorem storeAcc_frame (s : State) (x : Access) (bs : List Byte) :
    ∃ p, s.storeAcc x bs = { s with mem := Mem.write s.mem x.addr bs, ms := { s.ms with poison := p } } := by
  obtain ⟨p, h⟩ := markUnits_frame (s.store x.addr bs) x.addr x.poison
  exact ⟨p, h⟩

/-- A discarded tile reads blank, and every other byte is as it was. -/
theorem discardTile_mem (s : State) (n : Nat) : (s.discardTile n).mem = Mem.clear s.mem (n * tileBytes) tileBytes := by
  unfold discardTile
  simp only
  split
  · rfl
  · split <;> rfl

/-! ### Running an operator -/

/-- Everything running an operator can do: nothing where it does not stand ready; else its reads begin, and it waits for them, ends with its
error, or has its effect with RAN set. -/
theorem runOpR_cases (s : State) (h opc : Nat) (rs : State → RunOp → List (Nat × Nat)) (f : RunOp → State → Except Err State) :
    (s.runOpR h opc rs f = s) ∨
    (∃ o b, s.op? h = some o ∧ o.dispatched = true ∧ o.ran = false ∧ o.code = 0 ∧ o.cmd.opcode.toNat = opc ∧ s.mayStart h o = true ∧
      b = (if o.touched then s else (s.opSet h { o with touched := true }).touchInputs h o (rs s o)) ∧
      ((b.reading (.op h) = true ∧ s.runOpR h opc rs f = b) ∨
       (∃ e, f { o with touched := true } b = .error e ∧ s.runOpR h opc rs f = b.opErr h e) ∨
       (∃ t, f { o with touched := true } b = .ok t ∧
         s.runOpR h opc rs f = (match t.op? h with | some p => t.opSet h { p with ran := true } | none => t)))) := by
  unfold runOpR
  cases ho : s.op? h with
  | none => exact .inl rfl
  | some o =>
    simp only
    split
    · rename_i hc
      refine .inr ⟨o, _, rfl, hc.1, hc.2.1, hc.2.2.1, hc.2.2.2.1, hc.2.2.2.2, rfl, ?_⟩
      generalize (if o.touched then s else (s.opSet h { o with touched := true }).touchInputs h o (rs s o)) = b
      by_cases hr : b.reading (.op h) = true
      · exact .inl ⟨hr, if_pos hr⟩
      · rw [if_neg hr]
        cases hf : f { o with touched := true } b with
        | error e => exact .inr (.inl ⟨e, rfl, rfl⟩)
        | ok t => exact .inr (.inr ⟨t, rfl, rfl⟩)
    · exact .inl rfl

/-- An operator whose input tensors are all it reads. -/
theorem runOp_eq (s : State) (h opc : Nat) (f : RunOp → State → Except Err State) : s.runOp h opc f = s.runOpR h opc (fun _ _ => []) f := rfl

end State
end Sys2Proof.Machine
end

