-- ==== Sys2Proof/Laws/Writes.lean ====
section
/-! SUPPORT. What a register write does, and when two addresses name different registers. -/
namespace Sys2Proof.Machine
open Sys2Proof

/-- A mirrored register stands for one at the same offset of its page. -/
theorem canon_off (a : Nat) : canon a % 4096 = a % 4096 := by
  unfold canon
  simp only
  split_ifs <;> omega

/-- Addresses at different offsets name different registers. -/
theorem canon_ne_of_off {a b : Nat} (h : a % 4096 ≠ b % 4096) : canon a ≠ canon b := by
  intro e
  have := congrArg (· % 4096) e
  simp only [canon_off] at this
  exact h this

/-- The registers every page has are not mirrored. -/
theorem canon_common {a : Nat} (h : a % 4096 < 256) : canon a = a := by
  unfold canon
  simp only
  split_ifs <;> omega

namespace State

/-- A register changed by set keeps the registers that are not it. -/
theorem kept_wr (s : State) (a : Nat) (v : Word32) : RegsKept s (s.wr a v) [a] :=
  fun b hb => rd_wr_ne s v (hb a (by simp))

/-- Keeping registers, twice over. -/
theorem kept_trans {s t u : State} {l m n : List Nat} (h : RegsKept s t l) (h' : RegsKept t u m)
    (hl : ∀ x ∈ l, x ∈ n) (hm : ∀ x ∈ m, x ∈ n) : RegsKept s u n :=
  fun a ha => (h' a (fun b hb => ha b (hm b hb))).trans (h a (fun b hb => ha b (hl b hb)))

theorem wr_cnt_ne (p : Nat) : canon (R.GEN_WR_CNT p) ≠ canon (R.GEN_IGN_CNT p) := by
  apply canon_ne_of_off; simp only [R.GEN_WR_CNT, R.GEN_IGN_CNT]; omega

/-- What counting a write leaves in the two counts and in every other register. -/
theorem countWrite_wr (s : State) (p : Nat) (i : Bool) :
    (s.countWrite p i).rd (R.GEN_WR_CNT p) = satAdd32 (s.rd (R.GEN_WR_CNT p)) 1 := by
  unfold countWrite
  cases i
  · simp [bump_eq]
  · simp [bump_eq, rd_wr_ne _ _ (wr_cnt_ne p)]

/-- Adding nothing to a counter leaves it. -/
theorem satAdd32_zero (v : Word32) : satAdd32 v 0 = v := by
  unfold satAdd32
  have := v.isLt
  rw [Nat.add_zero, Nat.min_eq_left (by omega), BitVec.ofNat_toNat, BitVec.setWidth_eq]

theorem countWrite_ign (s : State) (p : Nat) (i : Bool) :
    (s.countWrite p i).rd (R.GEN_IGN_CNT p) = satAdd32 (s.rd (R.GEN_IGN_CNT p)) (if i then 1 else 0) := by
  unfold countWrite
  cases i
  · simp [bump_eq, rd_wr_ne _ _ (wr_cnt_ne p).symm, satAdd32_zero]
  · simp [bump_eq, rd_wr_ne _ _ (wr_cnt_ne p).symm]

theorem countWrite_kept (s : State) (p : Nat) (i : Bool) : RegsKept s (s.countWrite p i) [R.GEN_WR_CNT p, R.GEN_IGN_CNT p] := by
  intro a ha
  have h1 := ha (R.GEN_WR_CNT p) (by simp)
  have h2 := ha (R.GEN_IGN_CNT p) (by simp)
  unfold countWrite
  cases i
  · simp [bump_eq, rd_wr_ne _ _ h1]
  · simp [bump_eq, rd_wr_ne _ _ h1, rd_wr_ne _ _ h2]

/-- A write with no effect beyond its fields is an ordinary register write, at every address beyond the common registers. -/
theorem plainWrite_spec (s : State) (a : Nat) (v : Word32) (h : 256 ≤ a % 4096) : RegWritten s (s.plainWrite a v) a v := by
  have e1 : canon a ≠ canon (R.GEN_WR_CNT (a / 4096)) := canon_ne_of_off (by simp only [R.GEN_WR_CNT]; omega)
  have e2 : canon a ≠ canon (R.GEN_IGN_CNT (a / 4096)) := canon_ne_of_off (by simp only [R.GEN_IGN_CNT]; omega)
  obtain ⟨r, hr⟩ := plainWrite_frame s a v
  refine ⟨⟨by rw [hr], ?_⟩, ?_, ?_, ?_⟩
  · exact kept_trans (kept_wr s a _) (countWrite_kept _ _ _) (by simp) (by simp)
  · exact (countWrite_kept _ _ _ a (by simp [e1, e2])).trans (rd_wr_self _ _ _)
  · exact (countWrite_wr _ _ _).trans (by rw [rd_wr_ne _ _ e1.symm])
  · exact (countWrite_ign _ _ _).trans (by rw [rd_wr_ne _ _ e2.symm])

/-- An ignored write is counted, and does nothing else. -/
theorem ignoredWrite_spec (s : State) (a : Nat) : RegIgnored s (s.ignoredWrite a) a := by
  obtain ⟨r, hr⟩ := countWrite_frame s (a / 4096) true
  refine ⟨⟨?_, countWrite_kept _ _ _⟩, countWrite_wr _ _ _, countWrite_ign _ _ _⟩
  show s.countWrite (a / 4096) true = _
  rw [ignoredWrite, hr]

end State
end Sys2Proof.Machine
end

