-- ==== Sys2Proof/Tests/Slice0.lean ====
section
/-! SUPPORT. The author's own tests: the ill-formed commands, the manual's worked examples, and for every statement with hypotheses a
witness: concrete states and operands that meet them, clause by clause, at a boundary value where a clause has a range. -/
namespace Sys2Proof.Tests
open Sys2Proof Sys2Proof.Machine
set_option Elab.async false
set_option synthInstance.maxHeartbeats 400000
set_option synthInstance.maxSize 4000

/-! ### Small states and operands -/

/-- A record of one opcode, on the Ox engines of core 0, everything else 0. -/
def rec0 (opc : Nat) : CmdRec :=
  ⟨BitVec.ofNat 16 opc, 1, 0, 0, 0, 0x1C000000, 0, 0, 0, 0, 0, 0, 0, 0, 0, 0, 0, 0, 0, 0, 0, 0⟩
/-- An operator of a record: dispatched, with part 0 still to run. -/
def opOf (c : CmdRec) : RunOp :=
  ⟨0, 0, c, true, 0, [0], false, 0, 0, 0, 0, 0, 0, 0, 0, 0, 0, 0, none, false, [], 0, 0, [], 0, false, 0, []⟩
/-- The reset state with some registers. -/
def stReg (l : Map Word32) : State := { State.reset with regs := l }
/-- The reset state with operator 0 of a record. -/
def stOp (c : CmdRec) : State := { State.reset with ops := [(0, opOf c)], readyQ := [(0, [0])] }
/-- The reset state with the first 4 GiB an automatic region of tenant 0, tile 0 of it in frame 4096 of stack 0, and a quota. -/
def stMem : State :=
  { stReg [(R.SEM_STAT, 0x18000000)] with
    tenants := [(0, ⟨1, 0, [], []⟩)]
    ms := { MemSys.reset with
      rgn := [(0, 0x80000000)], own := [(0, ⟨1000, 1000, 0, 0⟩)], tiles := [(0, ⟨.dram, false, 4096, false⟩)]
      frames := [(4096, ⟨.tile 0, 0, false, false⟩)] } }
/-- The same with operator 0 of a record. -/
def stMemOp (c : CmdRec) : State := { stMem with ops := [(0, opOf c)], readyQ := [(0, [0])] }
/-- A stream descriptor: FP32 elements in layout LIN. -/
def desc0 (base slot : Nat) : StreamDesc :=
  ⟨BitVec.ofNat 64 base, 0, 0, 0, 0, 0, BitVec.ofNat 32 slot, 0, 1, 0⟩

/-- Does a result succeed, with a value of which `p` holds? -/
def okAnd {ε α : Type} (r : Except ε α) (p : α → Bool) : Bool := match r with
  | .ok x => p x
  | .error _ => false
theorem okAnd_iff {ε α : Type} (r : Except ε α) (p : α → Bool) : okAnd r p = true ↔ ∃ x, r = .ok x ∧ p x = true := by
  cases r <;> simp [okAnd]

/-! ### Chapters 01 to 03 -/

/-- A mesh link of die 15 drained, and a part's report held for it. -/
def stMesh : State :=
  { State.reset with mesh := [(57, ⟨5, true, true⟩)], meshQ := [⟨.response, 15, 24, .report 0 0 0⟩] }
theorem witness_SplitShareMesh :
    (383 : Nat) < 384 ∧ (63 : Nat) < 64 ∧ State.reset.coreBusy 383 = false ∧ State.reset.clusterBusy 63 = false ∧ (11 : Nat) < 12 ∧
    State.linkKey 24 1 = some 97 ∧ State.linkKey 0 0 ≠ none ∧ State.reset.meshQ = [] ∧
    State.linkKey 15 3 = some 57 ∧ (stMesh.link 57).draining = true := by decide +kernel

/-- A stream that waits with WAIT_AMT 1. -/
def xWait : Strm := ⟨0, 0, 0, { desc0 sramBase 0 with aux := 0x10000 }, .waitCtr, 0, false⟩
/-- A state in which it waits on counter 16383, which stands at `v`. -/
def stWait (v : Word32) : State :=
  { stReg [(R.CLU_STAGE_CTR 63 255, v)] with sigs := [(16383, 1)], waiters := [(16383, [0])], strm := [(0, xWait)] }
/-- With no waiter, or no other, the queue's head waits for no amount. -/
theorem headWaits_nil (s : State) (v : Word32) : HeadWaits s [] v := fun _ _ h => by cases h
theorem witness_StageCounters :
    (16383 : Nat) < 16384 ∧ 0 < Map.get (stWait 0).sigs 0 16383 ∧ Map.get State.reset.waiters [] 16383 = [] ∧
    Map.get (stWait 0).waiters [] 16383 = [0] ∧ Map.get? (stWait 0).strm 0 = some xWait ∧ SD.waitAmt xWait.desc ≤ (1 : Word32).toNat ∧
    SD.waitAmt xWait.desc ≤ (writeFields (fieldsAt (R.CLU_STAGE_CTR 63 255)) ((stWait 0).rd (R.CLU_STAGE_CTR 63 255)) 1).1.toNat ∧
    SD.waitAmt xWait.desc ≤ ((stWait 1).rd (R.CLU_STAGE_CTR 63 255)).toNat := by decide +kernel

/-- A stream of operator 0 on engine 0, for slot 1. -/
def xOf (d : StreamDesc) (st : StrmSt) : Strm := ⟨0, 0, 0, d, st, 0, false⟩
/-- An operator on engine 0 of core 0, with streams. -/
def stStrm (l : Map Strm) : State := { stMemOp (rec0 0x0101) with strm := l }
/-- Sixteen running streams. -/
def stFull : State := stStrm ((List.range 16).map (fun n => (n, xOf (desc0 sramBase 1) .run)))
/-- Engine 0 with slot 1 in a given state. -/
def withSlot (s : State) (v : Slot) : State := { s with eng := [(0, { Eng.none with slots := [(1, v)] })] }
/-- A task of operator 1 runs on engine 0 with one block left, operator 0 next in line. -/
def stNext : State :=
  { stMemOp (rec0 0x0101) with
    eng := [(0, { Eng.none with run := some ⟨1, 0, 1, 1, false⟩ })], readyQ := [(0, [1, 0])] }
/-- A spill of one FP32 element from slot 1 to an address of the unified range. -/
def dSpill (a : Nat) : StreamDesc := { desc0 a 1 with ctl := 0x00800001 }
/-- A direct-port stream of FP16 elements. -/
def dPort : StreamDesc := { desc0 sramBase 0xFFFFF with ctl := 0x10012201 }
theorem witness_StreamUnit :
    (1535 : Nat) < 1536 ∧ (stStrm []).op? 0 = some (opOf (rec0 0x0101)) ∧
    (stStrm []).streamCheck (opOf (rec0 0x0101)) 0 (desc0 sramBase 1) = 0 ∧ (stStrm []).spillDeny (opOf (rec0 0x0101)) (desc0 sramBase 1) = none ∧
    (stStrm []).ctxUsed 0 < 16 ∧ (stStrm []).heldDesc 0 = none ∧ 16 ≤ stFull.ctxUsed 0 ∧
    stFull.streamCheck (opOf (rec0 0x0101)) 0 (desc0 sramBase 1) = 0 ∧
    (stStrm []).streamCheck (opOf (rec0 0x0101)) 0 (desc0 sramBase 0xFFFFE) ≠ 0 ∧ (opOf (rec0 0x0101)).code = 0 ∧
    ({ stStrm [] with ms := { (stStrm []).ms with rgn := [(0, 0x80000040)] } } : State).streamCheck (opOf (rec0 0x0101)) 0 (dSpill 0x100) = 0 ∧
    (({ stStrm [] with ms := { (stStrm []).ms with rgn := [(0, 0x80000040)] } } : State).spillDeny (opOf (rec0 0x0101)) (dSpill 0x100)).isSome = true ∧
    (stStrm [(0, xOf (desc0 sramBase 1) .noContext)]).ctxUsed 0 < 16 ∧
    (stStrm [(0, xOf (desc0 sramBase 1) .noContext)]).heldDesc 0 = some (0, xOf (desc0 sramBase 1) .noContext) ∧
    (let s := withSlot (stStrm [(0, xOf (desc0 sramBase 1) .waitSlot)]) ⟨.free, [.strm 0]⟩
     Map.get? s.strm 0 = some (xOf (desc0 sramBase 1) .waitSlot) ∧
     (slotsAll (desc0 sramBase 1)).all (s.headReady (.strm 0) (SD.spill (desc0 sramBase 1))) = true) ∧
    ((withSlot State.reset ⟨.use, []⟩).slot 0 1).st = .use ∧
    (let s := stStrm [(0, xOf (desc0 sramBase 1) .run)]
     s.strmStop (xOf (desc0 sramBase 1) .run) = none ∧ s.reading (.strm 0) = false ∧ s.strmMeshHeld (xOf (desc0 sramBase 1) .run) = false ∧
     SD.spill (desc0 sramBase 1) = false ∧ SD.direct (desc0 sramBase 1) = false ∧ s.strmWrites 0 (xOf (desc0 sramBase 1) .run) = false) ∧
    (let s := stStrm [(0, xOf dPort .run)]
     s.strmStop (xOf dPort .run) = none ∧ s.reading (.strm 0) = false ∧ SD.direct dPort = true ∧ s.strmWrites 0 (xOf dPort .run) = false) ∧
    (stStrm [(0, xOf (desc0 sramBase 1) .flush)]).strmWrites 0 (xOf (desc0 sramBase 1) .flush) = false ∧
    (let s := stStrm [(0, xOf (dSpill 0x100) .flush)]
     ({ s with ms := { s.ms with waits := [⟨⟨0, some 0, .write, 0x100, [0, 0, 0, 0], 4, 1, none, []⟩, false⟩] } } : State).strmWrites 0
       (xOf (dSpill 0x100) .flush) = true) ∧
    (let s := stStrm [(0, xOf (dSpill 0x100) .run)]
     s.strmStop (xOf (dSpill 0x100) .run) = none ∧ s.reading (.strm 0) = false ∧ SD.spill (dSpill 0x100) = true) ∧
    (stNext.engine 0).run = some ⟨1, 0, 1, 1, false⟩ ∧ stNext.rdF (R.CORE_STRM_CTL 0) 3 0 ≠ 0 ∧ 1 ≤ stNext.rdF (R.CORE_STRM_CTL 0) 3 0 ∧
    State.firstPrio stNext.opPrio ((stNext.queuedOn 0).filter (· != 1)) = some 0 ∧ stNext.op? 0 = some (opOf (rec0 0x0101)) ∧
    (∀ sl ∈ slotsAll (desc0 sramBase 1), 0x20000 ≤ sl ∨ (stNext.slot (sl / 64) (sl % 64)).st = .free ∨
      (stNext.slot (sl / 64) (sl % 64)).st = .full) ∧ stNext.streamCheck (opOf (rec0 0x0101)) 0 (desc0 sramBase 1) = 0 ∧
    SD.spill (dSpill 0x100) = true := by decide +kernel
/-- A stream of two slots runs, its first part not yet delivered. -/
theorem witness_StreamUnit_part :
    (let s := stStrm [(0, xOf { desc0 sramBase 1 with dim0 := 0x4000000000000000 } .run)]
     Map.get? s.strm 0 = some (xOf { desc0 sramBase 1 with dim0 := 0x4000000000000000 } .run) ∧ s.reading (.strm 0) = false ∧ (0 : Nat) < 1 ∧
     1 < slotCount { desc0 sramBase 1 with dim0 := 0x4000000000000000 }) := by decide +kernel

/-- A running fill of two FP32 elements from the unified range. -/
def xLin : Strm := xOf { desc0 0x100 1 with dim0 := 0x0001000000000004 } .run
theorem witness_LinFillCopies :
    Map.get? (stStrm [(0, xLin)]).strm 0 = some xLin ∧ xLin.st = .run ∧ xLin.done = 0 ∧ (stStrm [(0, xLin)]).strmStop xLin = none ∧
    (stStrm [(0, xLin)]).reading (.strm 0) = false ∧ (stStrm [(0, xLin)]).strmMeshHeld xLin = false ∧ SD.spill xLin.desc = false ∧
    SD.direct xLin.desc = false ∧ SD.pad xLin.desc = false ∧ SD.layout xLin.desc = 0 ∧ SD.src xLin.desc = SD.dst xLin.desc ∧
    SD.elems xLin.desc = 2 ∧
    (∀ i, i < 2 → 0 ≤ (stStrm [(0, xLin)]).elemAddr xLin.desc i ∧
      ((stStrm [(0, xLin)]).elemAddr xLin.desc i).toNat + strmElemBytes (SD.src xLin.desc) ≤ uniEnd) ∧
    SD.idx xLin.desc = false := by decide +kernel

/-- A group of FP16 operands in slots 1 and 2. -/
def plan0 : GroupPlan := ⟨0, 0, 64, 1, 0, 2, 0, 2, 0, 2, 0, 32, some 0, 0, 1, 0, false⟩
/-- Engine 0 with two slots in given states and bank 0 in one, operator 0 running. -/
def stGrp (a b : SlotSt) (v : Bank) : State :=
  { stMemOp (rec0 0x0101) with
    eng := [(0, { Eng.none with slots := [(1, ⟨a, []⟩), (2, ⟨b, []⟩)], bank0 := v, run := some ⟨0, 0, 0, 1, false⟩ })] }
/-- A finished bank of operator 0. -/
def bankDone : Bank := ⟨.finished, 0, false, [0x3F800000], false⟩
/-- A drain of bank 0 of that operator, one value to slot 1 in LIN. -/
def drain0 (layout : Nat) (keep : Bool) : DrainPlan := ⟨0, 1, 1, 0x3F800000, 1, layout, 0, 0, 0, 0, false, keep⟩
/-- Operator 0 that may switch is ready behind the stalled task of operator 1 on engine 0; `susp`: tasks suspended there. -/
def stSw (susp : List Susp) : State :=
  { stMemOp { rec0 0x0101 with flags := 0x40 } with
    ops := [(0, opOf { rec0 0x0101 with flags := 0x40 }), (2, opOf (rec0 0x0101))]
    eng := [(0, { Eng.none with slots := [(1, ⟨.full, []⟩), (2, ⟨.full, []⟩)], bank0 := ⟨.computing, 1, false, [], false⟩
                                run := some ⟨1, 0, 0, 1, true⟩, susp := susp, swCtl := 0x80000080 })] }
/-- A suspended task of operator 2. -/
def susp2 : Susp := ⟨⟨2, 0, 0, 1, false⟩, ⟨.computing, 2, false, [], false⟩, 0⟩
theorem witness_EngineTasks :
    (stGrp .full .use Bank.none).op? 0 = some (opOf (rec0 0x0101)) ∧ fmtOf 2 = some (.fp .fp16) ∧ (opOf (rec0 0x0101)).dispatched = true ∧
    (opOf (rec0 0x0101)).parts.contains 0 = true ∧ (stGrp .full .use Bank.none).mayRun 0 0 = true ∧ State.usesPort plan0 = false ∧
    accKind (.fp .fp16) (.fp .fp16) = some .fused ∧ (opOf (rec0 0x0101)).code = 0 ∧
    (stGrp .full .use Bank.none).groupReady 0 plan0 (.fp .fp16) (.fp .fp16) = true ∧ (stGrp .full .use Bank.none).bankReady 0 plan0 = true ∧
    (stGrp .full .use Bank.none).groupPoison 0 plan0 (.fp .fp16) (.fp .fp16) = none ∧
    (({ stGrp .full .use Bank.none with ms := { stMem.ms with poison := [slotAddr 1 / 64] } } : State).groupPoison 0 plan0 (.fp .fp16)
      (.fp .fp16)).isSome = true ∧
    (State.groupSlots plan0 (.fp .fp16) (.fp .fp16)).find? (fun sl => decide (((stGrp .full .free Bank.none).slot 0 sl).st = .free)) = some 2 ∧
    fmtOf 6 = some .int8 ∧ accKind .int8 (.fp .fp16) = none ∧
    (∀ sl ∈ State.groupSlots plan0 (.fp .fp16) (.fp .fp16), ((stGrp .full .fill Bank.none).slot 0 sl).st ≠ .free) ∧
    (stGrp .full .fill Bank.none).groupReady 0 plan0 (.fp .fp16) (.fp .fp16) = false ∧
    fmtOf 0 = some (.fp .fp32) ∧ ((stGrp .full .full bankDone).bank 0 0).st = .finished ∧ ((stGrp .full .full bankDone).bank 0 0).op = 0 ∧
    Map.get? ((stGrp .full .full bankDone).engine 0).drains 0 = none ∧ State.drainCheck (drain0 9 false) (.fp .fp32) ≠ 0 ∧
    State.drainCheck (drain0 0 false) (.fp .fp32) = 0 ∧
    (∀ k ∈ State.drainSlots (drain0 0 false) (.fp .fp32), (((stGrp .full .full bankDone).slot 0 k).st = .free ∨
      ((stGrp .full .full bankDone).slot 0 k).st = .full) ∧ ((stGrp .full .full bankDone).slot 0 k).held = []) ∧
    (∃ k ∈ State.drainSlots (drain0 0 false) (.fp .fp32), ((stGrp .use .full bankDone).slot 0 k).st = .use) ∧
    (((stSw []).engine 0).run = some ⟨1, 0, 0, 1, true⟩) ∧ 127 < fld (((stSw []).engine 0).swCtl) 15 0 ∧
    bit ((stSw []).engine 0).swCtl 31 = true ∧ fld ((stSw []).engine 0).swCtl 15 0 ≤ 128 ∧ ((stSw []).engine 0).susp.length < 4 ∧
    (stSw []).nextTask 0 [plan0] = some (.inr 0) ∧ (stSw [susp2]).nextTask 0 [{ plan0 with op := 2 }] = some (.inl susp2) ∧
    susp2.saved.st = .computing ∧
    (let s : State := { stSw [susp2] with eng := [(0, { (stSw [susp2]).engine 0 with run := none })] }
     State.firstPrio s.suspPrio (s.suspReady 0 [{ plan0 with op := 2 }]) = some susp2 ∧ (s.engine 0).run = none ∧
     s.idleBank 0 susp2.task.bank = some 1) := by decide +kernel
/-! ### Chapter 04 -/

/-- Ring 15 of tenant 63 enabled, SIZE 6: FETCH at 2, PROD at 5. -/
def stRing : State := stReg [(R.CRG_RING_PROD 63 15, 5), (R.CRG_RING_CTL 63 15, 0x80060000), (R.CRG_RING_FETCH 63 15, 2)]
/-- The home core of ring 15 of tenant 63, core 0, fenced. -/
def stFenced : State := { State.reset with coreRun := [(0, ⟨3, false, 0, 0⟩)] }
/-- A low half held for dependency counter 255 of tenant 63. -/
def stHeldLo : State := { State.reset with held := [(R.CRG_DEP_CTR_LO 63 255, 7)] }
/-- Ring 0 of tenant 0 enabled in host memory, one record to fetch. -/
def stFetch : State :=
  { stReg [(R.SEM_STAT, 0x18000000), (R.CRG_RING_PROD 0 0, 1), (R.CRG_RING_CTL 0 0, 0xC0060000)] with host := ⟨true, true⟩ }
/-- The bytes of a NOP record: with no flag, or with HOLD until fabric time 9; with sequence number `q`. -/
def nopBytes (q : Nat) (hold : Bool) : List Byte :=
  leBytes 4 (if hold then 0x20010F00 else 0x00010F00) ++ leBytes 4 q ++ leBytes 44 0 ++ leBytes 8 9 ++ leBytes 68 0
/-- A fetched record of ring 0, at the head, on the rung Run. -/
def headOf (c : CmdRec) : RunOp := { opOf c with dispatched := false, parts := [] }
/-- The state with one at the head. -/
def stHead (c : CmdRec) : State :=
  { stReg [(R.SEM_STAT, 0x18000000), (R.PWR_STAT, 0x08000000), (R.CRG_RING_CTL 0 0, 0xC0060000)] with
    tenants := [(0, ⟨1, 0, [], []⟩)], ops := [(0, headOf c)] }
/-- The same at fabric time 2, its core 1 fenced, with counter 0 of its tenant faulted. -/
def stHead2 (c : CmdRec) : State :=
  { stHead c with
    ft := 2, coreRun := [(1, ⟨3, false, 0, 0⟩)]
    regs := [(R.SEM_STAT, 0x18000000), (R.PWR_STAT, 0x08000000), (R.CRG_CTR_FAULT 0 0, 1), (R.CRG_RING_CTL 0 0, 0xC0060000)] }
/-- The state a dispatch finds: the rung is Run already. -/
def upOf (s : State) : State := s.rungUp
/-- A record with an expired deadline; one that waits for counter 0; one of a request that is not there. -/
def recLate : CmdRec := { rec0 0x0F00 with deadline := 1 }
/-- It waits for counter 0. -/
def recWait : CmdRec := { rec0 0x0F00 with flags := 4 }
/-- It names request 5. -/
def recReq : CmdRec := { rec0 0x0F00 with req := 0x80000005 }
/-- A NOP on the vector units of cores 0 and 1. -/
def recVec : CmdRec := { rec0 0x0F00 with place := 0x40000200 }
/-- An operator that has run, with two parts left. -/
def opRan : RunOp := { opOf recVec with ran := true, parts := [0, 1] }
/-- The state with it. -/
def stRan : State := { stHead recVec with ops := [(0, opRan)] }
/-- The same with its home core on die 15, and every link of the mesh drained. -/
def stRanMesh : State :=
  { stRan with regs := [(R.CRG_RING_CTL 0 0, 0xC006017F)], mesh := (List.range 98).map (fun k => (k, ⟨1, false, true⟩)) }
/-- An operator with nothing left to run or report. -/
def opDone (c : CmdRec) : RunOp := { opOf c with ran := true, parts := [] }
/-- The state with it. -/
def stDone (c : CmdRec) : State := { stHead c with ft := 2, ops := [(0, opDone c)] }
/-- An operator of an expired deadline that runs. -/
def stLate : State := { stHead recLate with ft := 2, ops := [(0, opOf recLate)] }
/-- Trigger 255 set for fabric time 0. -/
def stTrig : State := { State.reset with trigs := [(255, ⟨0, true, false, 0, 0⟩)] }
/-- A head held by the local clock. -/
def opLocal : RunOp := { headOf recVec with local_ := true }
/-- The state with it. -/
def stLocal : State := { stHead recVec with ops := [(0, opLocal)] }
/-- An item of one unit. -/
def item0 : EvItem := ⟨0, 1, List.replicate 64 0, 0⟩
/-- Queue 15 of tenant 63 enabled for host delivery, with one item, written by fabric time 0, and a flush under way. -/
def stEvq (hold wait : Bool) : State :=
  { stReg [(R.EVQ_PROD 63 15, 3), (R.EVQ_CTL 63 15, 0xC6280000)] with
    host := ⟨true, true⟩, evq := [(16 * 63 + 15, ⟨[item0], 1, 0, 0, some 1, hold, wait⟩)] }
/-- The same without an interrupt on delivery. -/
def stEvq0 : State := { stEvq false false with regs := [(R.EVQ_PROD 63 15, 3), (R.EVQ_CTL 63 15, 0xC6200000)] }
/-- An item whose unit is written at fabric time 9. -/
def item9 : EvItem := { item0 with due := 9 }
/-- The same with an item whose unit is written at fabric time 9. -/
def stEvqDue : State := { stEvq0 with evq := [(16 * 63 + 15, ⟨[item9], 1, 0, 0, some 1, false, false⟩)] }
/-- Sixteen queues of 32,768 units take the whole pool. -/
def stPool : State :=
  { stReg ((List.range 16).map (fun t => (R.EVQ_CTL t 0, 0x8F200000#32))) with evq := (List.range 16).map (fun t => (16 * t, EvQueue.none)) }
/-- A completed record that signals counter 0. -/
def recSig : CmdRec := { rec0 0x0F00 with flags := 0x10, sigAmt := 3 }
theorem witness_RingRegisters :
    (stRing.ringEn 63 15 || stRing.ringStopped 63 15) = true ∧
    BitVec.toNat ((66 : Word32) - stRing.rd (R.CRG_RING_FETCH 63 15)) ≤ 2 ^ stRing.rdF (R.CRG_RING_CTL 63 15) 19 16 ∧
    BitVec.toNat (stRing.rd (R.CRG_RING_PROD 63 15) - stRing.rd (R.CRG_RING_FETCH 63 15)) ≤ BitVec.toNat ((66 : Word32) - stRing.rd
      (R.CRG_RING_FETCH 63 15)) ∧
    2 ^ stRing.rdF (R.CRG_RING_CTL 63 15) 19 16 < BitVec.toNat ((67 : Word32) - stRing.rd (R.CRG_RING_FETCH 63 15)) ∧
    BitVec.toNat ((4 : Word32) - stRing.rd (R.CRG_RING_FETCH 63 15)) < BitVec.toNat (stRing.rd (R.CRG_RING_PROD 63 15) - stRing.rd
      (R.CRG_RING_FETCH 63 15)) ∧
    State.reset.ringEn 63 15 = false ∧ State.reset.ringStopped 63 15 = false ∧ bit (0x80060000 : Word32) 31 = true ∧
    (State.reset.ringCtlWrite 63 15 (0x80060000 : Word32)).coreFenced ((State.reset.ringCtlWrite 63 15 (0x80060000 : Word32)).ringHome 63 15) =
      false ∧
    (stFenced.ringCtlWrite 63 15 (0x80060000 : Word32)).coreFenced ((stFenced.ringCtlWrite 63 15 (0x80060000 : Word32)).ringHome 63 15) = true ∧
    bit (0 : Word32) 31 = false ∧ stRing.ringEn 63 15 = true ∧ (stHead recVec).ringEn 0 0 = true := by decide +kernel
theorem witness_RecordLife :
    (nopBytes 0 false).length = 128 ∧ stFetch.inFatal = false ∧ stFetch.ringEn 0 0 = true ∧
    stFetch.rd (R.CRG_RING_FETCH 0 0) ≠ stFetch.rd (R.CRG_RING_PROD 0 0) ∧ (stFetch.ringWaiting 0 0).length < 8 ∧
    stFetch.corePaused (stFetch.ringHome 0 0) = false ∧ stFetch.ringBytes 0 0 (nopBytes 0 false) true = some (nopBytes 0 false) ∧
    (recOf (nopBytes 0 false)).seq = stFetch.rd (R.CRG_RING_SEQ 0 0) ∧ (nopBytes 0 true).length = 128 ∧
    stFetch.ringBytes 0 0 (nopBytes 0 true) true = some (nopBytes 0 true) ∧ (recOf (nopBytes 0 true)).seq = stFetch.rd (R.CRG_RING_SEQ 0 0) ∧
    (nopBytes 1 false).length = 128 ∧
    (∀ (b : List Byte), stFetch.ringBytes 0 0 (nopBytes 1 false) true = some b → (recOf b).seq ≠ stFetch.rd (R.CRG_RING_SEQ 0 0)) ∧
    (∀ (b : List Byte), stFetch.ringBytes 0 0 (nopBytes 0 false) false = some b → (recOf b).seq ≠ stFetch.rd (R.CRG_RING_SEQ 0 0)) ∧
    (stHead (rec0 61166)).ringHead 0 0 = some (0, headOf (rec0 61166)) ∧ refusal (headOf (rec0 61166)).cmd ≠ 0 ∧
    (stHead2 recLate).ringHead 0 0 = some (0, headOf recLate) ∧ refusal (headOf recLate).cmd = 0 ∧
    (stHead2 recLate).corePaused ((stHead2 recLate).ringHome 0 0) = false ∧
    (stHead2 recLate).nextRing ((stHead2 recLate).ringHome 0 0) = some (16 * 0 + 0) ∧ (stHead2 recLate).rungRuns = true ∧
    stHead2 recLate = (stHead2 recLate).rungUp ∧ (stHead2 recLate).expired (headOf recLate).cmd = true ∧
    (stHead2 recWait).ringHead 0 0 = some (0, headOf recWait) ∧ refusal (headOf recWait).cmd = 0 ∧
    (stHead2 recWait).corePaused ((stHead2 recWait).ringHome 0 0) = false ∧
    (stHead2 recWait).nextRing ((stHead2 recWait).ringHome 0 0) = some (16 * 0 + 0) ∧ (stHead2 recWait).rungRuns = true ∧
    stHead2 recWait = (stHead2 recWait).rungUp ∧ (stHead2 recWait).expired (headOf recWait).cmd = false ∧
    (CmdRecF.w0En (headOf recWait).cmd && (stHead2 recWait).depFault (headOf recWait).tenant (CmdRecF.w0Ctr (headOf recWait).cmd) || CmdRecF.w1En
      (headOf recWait).cmd && (stHead2 recWait).depFault (headOf recWait).tenant (CmdRecF.w1Ctr (headOf recWait).cmd)) = true ∧
    ((1 : Byte) = BitVec.ofNat 8 ((if (CmdRecF.w0En (headOf recWait).cmd && (stHead2 recWait).depFault (headOf recWait).tenant (CmdRecF.w0Ctr
      (headOf recWait).cmd)) = true then 1 else 0) + if (CmdRecF.w1En (headOf recWait).cmd && (stHead2 recWait).depFault (headOf recWait).tenant
      (CmdRecF.w1Ctr (headOf recWait).cmd)) = true then 2 else 0)) ∧
    (stHead2 recReq).ringHead 0 0 = some (0, headOf recReq) ∧ refusal (headOf recReq).cmd = 0 ∧
    (stHead2 recReq).corePaused ((stHead2 recReq).ringHome 0 0) = false ∧
    (stHead2 recReq).nextRing ((stHead2 recReq).ringHome 0 0) = some (16 * 0 + 0) ∧ (stHead2 recReq).rungRuns = true ∧
    stHead2 recReq = (stHead2 recReq).rungUp ∧ (stHead2 recReq).expired (headOf recReq).cmd = false ∧ CmdRecF.w0En (headOf recReq).cmd = false ∧
    CmdRecF.w1En (headOf recReq).cmd = false ∧ CmdRecF.reqV (headOf recReq).cmd = true ∧
    (∀ (q : Req), (stHead2 recReq).reqs.get? (CmdRecF.reqId (headOf recReq).cmd) = some q → q.tenant ≠ (headOf recReq).tenant) ∧
    (stHead2 recVec).ringHead 0 0 = some (0, headOf recVec) ∧ refusal (headOf recVec).cmd = 0 ∧
    (stHead2 recVec).corePaused ((stHead2 recVec).ringHome 0 0) = false ∧
    (stHead2 recVec).nextRing ((stHead2 recVec).ringHome 0 0) = some (16 * 0 + 0) ∧ (stHead2 recVec).rungRuns = true ∧
    stHead2 recVec = (stHead2 recVec).rungUp ∧ (stHead2 recVec).expired (headOf recVec).cmd = false ∧ CmdRecF.w0En (headOf recVec).cmd = false ∧
    CmdRecF.w1En (headOf recVec).cmd = false ∧
    (CmdRecF.reqV (headOf recVec).cmd = true → ∃ q, (stHead2 recVec).reqs.get? (CmdRecF.reqId (headOf recVec).cmd) = some q ∧ q.tenant = (headOf
      recVec).tenant) ∧
    (CmdRecF.cores (headOf recVec).cmd).any (stHead2 recVec).coreFenced = true ∧ (stHead recVec).ringHead 0 0 = some (0, headOf recVec) ∧
    (stHead recVec).corePaused ((stHead recVec).ringHome 0 0) = false ∧
    (stHead recVec).nextRing ((stHead recVec).ringHome 0 0) = some (16 * 0 + 0) ∧ (stHead recVec).rungRuns = true ∧
    stHead recVec = (stHead recVec).rungUp ∧ (stHead recVec).expired (headOf recVec).cmd = false ∧
    (CmdRecF.reqV (headOf recVec).cmd = true → ∃ q, (stHead recVec).reqs.get? (CmdRecF.reqId (headOf recVec).cmd) = some q ∧ q.tenant = (headOf
      recVec).tenant) ∧
    (CmdRecF.cores (headOf recVec).cmd).any (stHead recVec).coreFenced = false ∧
    ((stHead recVec).readsGen (headOf recVec).cmd = true → (stHead recVec).genValidBit = true) ∧
    (stHead (rec0 257)).ringHead 0 0 = some (0, headOf (rec0 257)) ∧ refusal (headOf (rec0 257)).cmd = 0 ∧
    (stHead (rec0 257)).corePaused ((stHead (rec0 257)).ringHome 0 0) = false ∧
    (stHead (rec0 257)).nextRing ((stHead (rec0 257)).ringHome 0 0) = some (16 * 0 + 0) ∧ (stHead (rec0 257)).rungRuns = true ∧
    stHead (rec0 257) = (stHead (rec0 257)).rungUp ∧ (stHead (rec0 257)).expired (headOf (rec0 257)).cmd = false ∧
    CmdRecF.w0En (headOf (rec0 257)).cmd = false ∧ CmdRecF.w1En (headOf (rec0 257)).cmd = false ∧
    (CmdRecF.reqV (headOf (rec0 257)).cmd = true → ∃ q, (stHead (rec0 257)).reqs.get? (CmdRecF.reqId (headOf (rec0 257)).cmd) = some q ∧ q.tenant
      = (headOf (rec0 257)).tenant) ∧
    (CmdRecF.cores (headOf (rec0 257)).cmd).any (stHead (rec0 257)).coreFenced = false ∧
    ((stHead (rec0 257)).readsGen (headOf (rec0 257)).cmd = true → (stHead (rec0 257)).genValidBit = true) ∧ stRan.op? 0 = some opRan ∧
    opRan.dispatched = true ∧ opRan.parts.contains 1 = true ∧ opRan.ran = true ∧ stRan.opWaits 0 = false ∧ stRan.reportHeld 0 1 = false ∧
    ((List.any stRan.strm fun p => p.2.op == 0) = false) ∧
    stRan.meshWaits MeshClass.response (unitDie opRan.cmd 1) (State.coreDie (stRan.ringHome opRan.tenant opRan.ring)) = false ∧
    stRanMesh.op? 0 = some opRan ∧ stRanMesh.opWaits 0 = false ∧ stRanMesh.reportHeld 0 1 = false ∧
    ((List.any stRanMesh.strm fun p => p.2.op == 0) = false) ∧
    stRanMesh.meshWaits MeshClass.response (unitDie opRan.cmd 1) (State.coreDie (stRanMesh.ringHome opRan.tenant opRan.ring)) = true ∧
    (stHead2 recLate).op? 0 = some (headOf recLate) ∧ (headOf recLate).tenant < 64 ∧ (headOf recLate).ring < 16 ∧
    (headOf recLate).dispatched = false ∧ stLate.op? 0 = some (opOf recLate) ∧ stLate.expired (opOf recLate).cmd = true ∧
    (opOf recLate).dispatched = true ∧ (opOf recLate).code = (0 : Byte) ∧ (opOf recLate).ran = false ∧ stLate.gsteps.get? 0 = none ∧
    (∀ (t : Turn), stLate.turn = some t → t.op ≠ 0) ∧ (∀ m ∈ stLate.ms.moves, m.2.why ≠ MoveWhy.op 0) ∧
    (∀ f ∈ stLate.slots, (∀ (c : Coll), f.2.run = some c → c.op ≠ 0) ∧ ∀ c ∈ f.2.queue, c.op ≠ 0) ∧ (stDone recLate).op? 0 = some (opDone recLate) ∧
    (stDone recLate).opEnded 0 (opDone recLate) = true ∧ (stDone recLate).deadlineOf (opDone recLate).cmd = some 1 ∧
    1 < BitVec.toNat (stDone recLate).ft ∧ (opDone recLate).code = (0 : Byte) ∧ (opDone recLate).cmd.opcode ≠ (0x800 : BitVec 16) ∧
    (stDone recVec).op? 0 = some (opDone recVec) ∧ (opDone recVec).tenant < 64 ∧ (opDone recVec).ring < 16 ∧
    (stDone recVec).opEnded 0 (opDone recVec) = true ∧
    (∀ (d : ℕ), (stDone recVec).deadlineOf (opDone recVec).cmd = some d → BitVec.toNat (stDone recVec).ft ≤ d) ∧
    (stDone recVec).gsteps.get? 0 = none ∧ (∀ (t : Turn), (stDone recVec).turn = some t → t.op ≠ 0) ∧
    (∀ m ∈ (stDone recVec).ms.moves, m.2.why ≠ MoveWhy.op 0) ∧
    (∀ f ∈ (stDone recVec).slots, (∀ (c : Coll), f.2.run = some c → c.op ≠ 0) ∧ ∀ c ∈ f.2.queue, c.op ≠ 0) ∧ (stDone recVec).convs.get? 0 = none ∧
    (stDone recVec).busyCb.get? 0 = none ∧ (opDone recVec).cmd.opcode ≠ (0x500 : BitVec 16) ∧ (stDone recVec).rng.pend = [] ∧
    (stDone recVec).rng.rewinds = [] ∧ (∀ p ∈ (stDone recVec).coreRun, p.2.stop = false) ∧ (stTrig.trigger 255).valid = true ∧
    (stTrig.trigger 255).action = 0 ∧ (stTrig.trigger 255).sw = false ∧ (stTrig.trigger 255).ft ≤ stTrig.ft ∧
    stLocal.ringHead 0 0 = some (0, opLocal) ∧ opLocal.local_ = true ∧ opLocal.cmd.startFt ≤ stLocal.ft := by decide +kernel
theorem witness_CompletionRecorded :
    CmdRecF.evt (opDone recSig).cmd = 0 ∧ (opDone recSig).tenant < 64 ∧ (opDone recSig).ring < 16 ∧ (opDone recSig).code = (0 : Byte) := by decide +kernel
theorem witness_EventQueueCommands :
    State.nextItem stEvq0.ft (stEvq0.evqGet 63 15) = some item0 ∧ stEvq0.evqEn 63 15 = true ∧ item0.bytes.length / 64 ≤ stEvq0.dlvFree 63 15 ∧
    stEvq0.rdB (R.EVQ_CTL 63 15) 30 = true ∧ stEvq0.hostReach = true ∧
    BitVec.toNat (stEvq0.rd (R.EVQ_PROD 63 15) - (3 : Word32)) ≤ BitVec.toNat (stEvq0.rd (R.EVQ_PROD 63 15) - stEvq0.rd (R.EVQ_CONS 63 15)) ∧
    BitVec.toNat (stEvq0.rd (R.EVQ_PROD 63 15) - stEvq0.rd (R.EVQ_CONS 63 15)) < BitVec.toNat (stEvq0.rd (R.EVQ_PROD 63 15) - (4 : Word32)) ∧
    bit (1 : Word32) 0 = true ∧ bit (0x55555554 : Word32) 0 = false ∧ (stEvq0.evqGet 63 15).flushAt = some 1 ∧
    (∀ i ∈ (stEvq0.evqGet 63 15).items, i.no < 1 → i.due ≤ stEvq0.ft) ∧ (stEvqDue.evqGet 63 15).flushAt = some 1 ∧
    item9 ∈ (stEvqDue.evqGet 63 15).items ∧ item9.no < 1 ∧ stEvqDue.ft < item9.due ∧ bit (0x86200000 : Word32) 31 = true ∧
    State.reset.evqEn 63 15 = false ∧
    (State.reset.evqCtlWrite 63 15 ((0x86200000 : Word32) &&& BitVec.ofNat 32 0x7fffffff)).evqCap 63 15 ≤ (State.reset.evqCtlWrite 63 15
      ((0x86200000 : Word32) &&& BitVec.ofNat 32 0x7fffffff)).poolFree ∧
    bit (0x90000000 : Word32) 31 = true ∧ stPool.evqEn 63 15 = false ∧
    (stPool.evqCtlWrite 63 15 ((0x90000000 : Word32) &&& BitVec.ofNat 32 0x7fffffff)).poolFree < (stPool.evqCtlWrite 63 15 ((0x90000000 : Word32)
      &&& BitVec.ofNat 32 0x7fffffff)).evqCap 63 15 ∧
    bit (0 : Word32) 31 = false ∧ ((stEvq true false).evqGet 63 15).holdoff = true ∧ ((stEvq true false).evqGet 63 15).irqWait = false ∧
    ((stEvq true true).evqGet 63 15).holdoff = true ∧ ((stEvq true true).evqGet 63 15).irqWait = true ∧
    (stEvq true true).rdB (R.EVQ_CTL 63 15) 19 = true := by decide +kernel
/-! ### Chapter 05's operators -/

/-- The opcodes of the tensor, remote and control operators. -/
def opcodes05 : List Nat :=
  [0x0001, 0x0002, 0x0003, 0x0100, 0x0101, 0x0102, 0x0200, 0x0201, 0x0202, 0x0204, 0x0300, 0x0301, 0x0302, 0x0303, 0x0304, 0x0305, 0x0306,
   0x0400, 0x0401, 0x0402, 0x0403, 0x0404, 0x0405, 0x0700, 0x0701, 0x0702, 0x0703, 0x0F00, 0x0F01, 0x0F02]
/-- Operator 0 of each opcode stands ready, with nothing outstanding. -/
theorem witness_ready : ∀ opc ∈ opcodes05, OpReady (stMemOp (rec0 opc)) 0 opc (opOf (rec0 opc)) ∧
    (stMemOp (rec0 opc)).reading (.op 0) = false ∧
    ((stMemOp (rec0 opc)).begun 0 (opOf (rec0 opc)) []).reading (.op 0) = false := by
  unfold OpReady OpIssued; decide +kernel
/-- The same where it has run. -/
theorem witness_ran : (stDone recVec).op? 0 = some (opDone recVec) ∧ (opDone recVec).ran = true := by decide +kernel
/-- A record that selects each ELEMENTWISE function, and one that does not. -/
theorem witness_elementwise (f : VFun) : fld (BitVec.ofNat 64 (Config.elementCode f).toNat) 7 0 = (Config.elementCode f).toNat ∧
    fld (BitVec.ofNat 64 ((Config.elementCode f).toNat + 1)) 7 0 ≠ (Config.elementCode f).toNat := by
  have h := (Config.elementCode f).isLt
  simp only [fld, bitsN, BitVec.toNat_ofNat]; omega
/-- A record that writes its start time to the last 8 bytes of tile 0. -/
def recTs : CmdRec := { rec0 0x0F02 with w0 := 0xFFF8 }
/-- An operator whose reads have begun. -/
def opTouched (c : CmdRec) : RunOp := { opOf c with touched := true }
/-- The state its effect begins in. -/
def begunOf (c : CmdRec) : State := (stMemOp c).begun 0 (opOf c) []
theorem witness_TensorOperators :
    (stMemOp (rec0 2)).op? 0 = some (opOf (rec0 2)) ∧ (opOf (rec0 2)).dispatched = true ∧ (opOf (rec0 2)).ran = false ∧
    (opOf (rec0 2)).code = (0 : Byte) ∧ (opOf (rec0 2)).cmd.opcode.toNat = 2 ∧ (stMemOp (rec0 2)).mayStart 0 (opOf (rec0 2)) = true ∧
    begunOf (rec0 2) = (stMemOp (rec0 2)).begun 0 (opOf (rec0 2)) (noReads (stMemOp (rec0 2)) (opOf (rec0 2))) ∧
    (begunOf (rec0 2)).reading (RdFor.op 0) = false ∧ (stMemOp (rec0 1)).op? 0 = some (opOf (rec0 1)) ∧ (opOf (rec0 1)).dispatched = true ∧
    (opOf (rec0 1)).ran = false ∧ (opOf (rec0 1)).code = (0 : Byte) ∧ (opOf (rec0 1)).cmd.opcode.toNat = 1 ∧
    (stMemOp (rec0 1)).mayStart 0 (opOf (rec0 1)) = true ∧
    begunOf (rec0 1) = (stMemOp (rec0 1)).begun 0 (opOf (rec0 1)) (noReads (stMemOp (rec0 1)) (opOf (rec0 1))) ∧
    (begunOf (rec0 1)).reading (RdFor.op 0) = false := by decide +kernel
theorem witness_RemoteOperators :
    (stMemOp (rec0 1792)).op? 0 = some (opOf (rec0 1792)) ∧ (opOf (rec0 1792)).dispatched = true ∧ (opOf (rec0 1792)).ran = false ∧
    (opOf (rec0 1792)).code = (0 : Byte) ∧ (opOf (rec0 1792)).cmd.opcode.toNat = 1792 ∧ (stMemOp (rec0 1792)).mayStart 0 (opOf (rec0 1792)) = true ∧
    begunOf (rec0 1792) = (stMemOp (rec0 1792)).begun 0 (opOf (rec0 1792)) (noReads (stMemOp (rec0 1792)) (opOf (rec0 1792))) ∧
    (begunOf (rec0 1792)).reading (RdFor.op 0) = false := by decide +kernel
theorem witness_ControlOperators :
    (stMemOp (rec0 3840)).op? 0 = some (opOf (rec0 3840)) ∧ (opOf (rec0 3840)).dispatched = true ∧ (opOf (rec0 3840)).ran = false ∧
    (opOf (rec0 3840)).code = (0 : Byte) ∧ (opOf (rec0 3840)).cmd.opcode.toNat = 3840 ∧ (stMemOp (rec0 3840)).mayStart 0 (opOf (rec0 3840)) = true ∧
    (stMemOp (rec0 3840)).reading (RdFor.op 0) = false ∧ (stMemOp (rec0 3841)).op? 0 = some (opOf (rec0 3841)) ∧
    (opOf (rec0 3841)).dispatched = true ∧ (opOf (rec0 3841)).ran = false ∧ (opOf (rec0 3841)).code = (0 : Byte) ∧
    (opOf (rec0 3841)).cmd.opcode.toNat = 3841 ∧ (stMemOp (rec0 3841)).mayStart 0 (opOf (rec0 3841)) = true ∧
    (stMemOp (rec0 3841)).reading (RdFor.op 0) = false ∧ (opOf (rec0 3841)).cmd.w1 = (0 : Word64) ∧ (opOf (rec0 3841)).cmd.w2 = (0 : Word64) ∧
    (opOf (rec0 3841)).cmd.w3 = (0 : Word64) ∧ (opOf (rec0 3841)).cmd.w4 = (0 : Word64) ∧ (opOf (rec0 3841)).cmd.w5 = (0 : Word64) ∧
    (opOf (rec0 3841)).cmd.w6 = (0 : Word64) ∧ (opOf (rec0 3841)).cmd.w7 = (0 : Word64) ∧ (stMemOp recTs).op? 0 = some (opOf recTs) ∧
    (opOf recTs).dispatched = true ∧ (opOf recTs).ran = false ∧ (opOf recTs).code = (0 : Byte) ∧ (opOf recTs).cmd.opcode.toNat = 3842 ∧
    (stMemOp recTs).mayStart 0 (opOf recTs) = true ∧ (stMemOp recTs).reading (RdFor.op 0) = false ∧ BitVec.toNat (opOf recTs).cmd.w0 + 8 ≤ uniEnd ∧
    BitVec.toNat (opOf recTs).cmd.w0 % tileBytes + 8 ≤ tileBytes ∧
    (stMemOp recTs).deny (opOf recTs).tenant (BitVec.toNat (opOf recTs).cmd.w0) true = none ∧
    ((stMemOp recTs).tile (BitVec.toNat (opOf recTs).cmd.w0 / tileBytes)).st = Home.dram ∧
    (begunOf (rec0 3841) = (stMemOp (rec0 3841)).begun 0 (opOf (rec0 3841)) ((fun x o => if fld o.cmd.w2 1 0 = 0 then [] else [(BitVec.toNat
      o.cmd.w1, 64 * fld o.cmd.w2 1 0)]) (stMemOp (rec0 3841)) (opOf (rec0 3841)))) ∧
    (begunOf (rec0 3841)).reading (RdFor.op 0) = false ∧
    begunOf recTs = (stMemOp recTs).begun 0 (opOf recTs) (noReads (stMemOp recTs) (opOf recTs)) ∧ (begunOf recTs).reading (RdFor.op 0) = false := by decide +kernel
/-! ### Chapter 05 -/

/-- An administrator session open, with the last region and the model key domain selected. -/
def stAdmin : State := { stMem with regs := [(R.SEM_STAT, 0x18000000), (R.SEM_ADMIN_OPEN, 0x80000000), (R.MPD_RGN_SEL, 0x1FFF), (R.MPD_OWN_SEL, 0x40)] }
/-- The same with region 0 selected, which has a tile. -/
def stAdmin0 : State := { stMem with regs := [(R.SEM_STAT, 0x18000000), (R.SEM_ADMIN_OPEN, 0x80000000)] }
/-- A read of tenant 0 at the end of tile 0. -/
def accR : Access := ⟨0, none, .read, 0xFFFF, [], 1, 7, none, []⟩
/-- A write of one byte. -/
def accW (a : Nat) : Access := ⟨0, none, .write, a, [1], 0, 7, none, []⟩
/-- An atomic add of 4 bytes at the end of tile 0. -/
def accA : Access := ⟨0, none, .atomic, 0xFFFC, leBytes 8 1, 0, 7, none, []⟩
/-- Tile 0 on its way to flash. -/
def mvOut : Move := ⟨0, .demote, false, 4096, true, 16, false, true, true⟩
/-- The state with that move. -/
def stMoving : State :=
  { stMem with ms := { stMem.ms with
      tiles := [(0, ⟨.movingD, false, 4096, false⟩)], ftiles := [(16, 0)], moves := [(0, mvOut)], progs := [(3, ⟨16, 0, true⟩)] } }
/-- Tile 0 on its way to DRAM. -/
def mvIn : Move := ⟨0, .promote, true, 16, false, 4096, false, true, false⟩
/-- The state with that move. -/
def stComing : State :=
  { stMem with ms := { stMem.ms with
      tiles := [(0, ⟨.movingF, false, 16, false⟩)], ftiles := [(16, 0)], moves := [(0, mvIn)], frames := [(4096, ⟨.dest 0, 0, false, false⟩)]
      reads := [(0, ⟨0, 0, .move, false, none⟩)] } }
/-- Tile 0 flash-homed, region 0 of the tier given. -/
def stFlash (rgn : Word32) (evac : Bool) : State :=
  { stMem with ms := { stMem.ms with
      rgn := [(0, rgn)], tiles := [(0, ⟨.flash, false, 16, evac⟩)], frames := [], ftiles := [(16, 0)] } }
/-- Every mesh and attach link drained. -/
def drained (s : State) : State := { s with mesh := (List.range 98).map (fun k => (k, ⟨1, false, true⟩)) }
/-- A TILE_MOVE or PREFETCH record: W1 tiles from W0, W2. -/
def recMove (opc : Nat) (w0 w1 w2 : Word64) : CmdRec := { rec0 opc with w0 := w0, w1 := w1, w2 := w2 }
/-- The state with an operator. -/
def withOp (s : State) (c : CmdRec) : State := { s with ops := [(0, opOf c)] }
/-- Tile 0 busy: a write of it waits. -/
def stBusy : State := { stMem with ms := { stMem.ms with waits := [⟨accW 0xFFFF, false⟩] } }
/-- The state with a move to flash asked for. -/
def stAsk : State := { stMem with ms := { stMem.ms with asks := [⟨0, .demote, .flash, false⟩] } }
/-- The state with a move to DRAM asked for. -/
def stAskIn : State := { stFlash 0x80000000 false with ms := { (stFlash 0x80000000 false).ms with asks := [⟨0, .promote, .place, true⟩] } }
/-- A write held for a move. -/
def stHeldWr : State := { stMem with ms := { stMem.ms with waits := [⟨accW 0xFFFF, true⟩] } }
/-- An owner with few frames free. -/
def stLow : State := { stMem with ms := { stMem.ms with own := [(0, ⟨200, 1000, 0, 0⟩)] } }
/-- A flash read that answers an access, or an operator's. -/
def rdAcc : FlashRd := ⟨0, 0, .acc accR, false, none⟩
/-- An operator's read. -/
def rdOp : FlashRd := ⟨0, 0, .op 0, false, none⟩
/-- The state with a read, at fabric time `t`. -/
def stRd (e : FlashRd) (t : Word64) : State :=
  { stFlash 0x80000000 false with ft := t, ms := { (stFlash 0x80000000 false).ms with reads := [(0, e)] } }
/-- A program that is no move's. -/
def stProg : State := { stFlash 0xC0000000 false with ms := { (stFlash 0xC0000000 false).ms with progs := [(0, ⟨16, 0, false⟩)] } }
/-- The scrub of stack 11 at its last frame. -/
def stScrub : State := stReg [(R.DRP_SCRUB_CTL 11, 0x80000018), (R.DRP_SCRUB_POS 11, 1572863)]
/-- Stack 11 fenced. -/
def stFence : State := { State.reset with ms := { MemSys.reset with fenced := [11] } }
/-- Operator 0 a TILE_MOVE of tile 0 to flash. -/
def stMoveOp : State := withOp stMem (recMove 0x0010 0 1 2)
/-- No port of reset's is one that a fence retrains, and a demotion is no operator's move. -/
theorem witness_no_port : (∀ p, p < 36 → State.reset.portState p = 0 ∧ stMem.portState p = 0) ∧ ∀ h, MoveWhy.demote ≠ .op h := by
  constructor
  · decide +kernel
  · intro h e; cases e
theorem witness_RegionsAndQuotas :
    State.reset.adminOpen = false ∧ stAdmin.adminOpen = true ∧ fld (0xc600003f : Word32) 30 29 < 3 ∧ fld (0xc600003f : Word32) 27 24 < 7 ∧
    fld (0xc600003f : Word32) 6 0 ≤ 64 ∧
    ((0xc600003f : Word32) = if fld (0xc600003f : Word32) 6 0 = 64 then (0xc600003f : Word32) &&& BitVec.ofNat 32 0xff80007f else (0xc600003f :
      Word32) &&& BitVec.ofNat 32 0xff00007f) ∧
    stAdmin.regionUsed (stAdmin.rdF R.MPD_RGN_SEL 12 0) = false ∧ fld (0xc6ff0040 : Word32) 30 29 < 3 ∧ fld (0xc6ff0040 : Word32) 27 24 < 7 ∧
    fld (0xc6ff0040 : Word32) 6 0 ≤ 64 ∧
    ((0xc6800040 : Word32) = if fld (0xc6ff0040 : Word32) 6 0 = 64 then (0xc6ff0040 : Word32) &&& BitVec.ofNat 32 0xff80007f else (0xc6ff0040 :
      Word32) &&& BitVec.ofNat 32 0xff00007f) ∧
    ((0xe0000000 : Word32) = if fld (0xe0000000 : Word32) 6 0 = 64 then (0xe0000000 : Word32) &&& BitVec.ofNat 32 0xff80007f else (0xe0000000 :
      Word32) &&& BitVec.ofNat 32 0xff00007f) ∧
    fld (0xe0000000 : Word32) 30 29 = 3 ∧
    ((0x87000000 : Word32) = if fld (0x87000000 : Word32) 6 0 = 64 then (0x87000000 : Word32) &&& BitVec.ofNat 32 0xff80007f else (0x87000000 :
      Word32) &&& BitVec.ofNat 32 0xff00007f) ∧
    7 ≤ fld (0x87000000 : Word32) 27 24 ∧
    ((0x80000041 : Word32) = if fld (0x80000041 : Word32) 6 0 = 64 then (0x80000041 : Word32) &&& BitVec.ofNat 32 0xff80007f else (0x80000041 :
      Word32) &&& BitVec.ofNat 32 0xff00007f) ∧
    64 < fld (0x80000041 : Word32) 6 0 ∧ stAdmin0.adminOpen = true ∧
    ((0xa0000000 : Word32) = if fld (0xa0000000 : Word32) 6 0 = 64 then (0xa0000000 : Word32) &&& BitVec.ofNat 32 0xff80007f else (0xa0000000 :
      Word32) &&& BitVec.ofNat 32 0xff00007f) ∧
    stAdmin0.regionUsed (stAdmin0.rdF R.MPD_RGN_SEL 12 0) = true ∧
    ((0xa0000000 : Word32) ^^^ stAdmin0.rgn (stAdmin0.rdF R.MPD_RGN_SEL 12 0)) &&& BitVec.ofNat 32 0xe080007f ≠ (0 : Word32) ∧
    ((List.map (fun p => p.2.fQuota) stAdmin.ms.own).sum - (stAdmin.owner (stAdmin.rdF R.MPD_OWN_SEL 6 0)).fQuota + fld (BitVec.ofNat 32
      (stAdmin.liveFlash - 1000)) 28 0 ≤ stAdmin.liveFlash) ∧
    stAdmin.fUsed (stAdmin.rdF R.MPD_OWN_SEL 6 0) ≤ fld (BitVec.ofNat 32 (stAdmin.liveFlash - 1000)) 28 0 ∧
    (stAdmin.liveFlash < (List.map (fun p => p.2.fQuota) stAdmin.ms.own).sum - (stAdmin.owner (stAdmin.rdF R.MPD_OWN_SEL 6 0)).fQuota + fld
      (BitVec.ofNat 32 (stAdmin.liveFlash - 999)) 28 0) ∧
    (0 = if stAdmin.pwr.napArea = true then 66224 else 0) ∧
    ((List.map (fun p => p.2.dQuota) stAdmin.ms.own).sum - (stAdmin.owner (stAdmin.rdF R.MPD_OWN_SEL 6 0)).dQuota + fld (BitVec.ofNat 32
      (stAdmin.liveFrames - 1000)) 24 0 + (List.filter (fun p => match p.2.use with | FrameUse.replay port => true | x => false)
      stAdmin.ms.frames).length + 0 ≤ stAdmin.liveFrames) ∧
    stAdmin.dUsed (stAdmin.rdF R.MPD_OWN_SEL 6 0) ≤ fld (BitVec.ofNat 32 (stAdmin.liveFrames - 1000)) 24 0 ∧
    (stAdmin.liveFrames < (List.map (fun p => p.2.dQuota) stAdmin.ms.own).sum - (stAdmin.owner (stAdmin.rdF R.MPD_OWN_SEL 6 0)).dQuota + fld
      (BitVec.ofNat 32 (stAdmin.liveFrames - 999)) 24 0 + (List.filter (fun p => match p.2.use with | FrameUse.replay port => true | x => false)
      stAdmin.ms.frames).length + 0) := by decide +kernel
theorem witness_MemoryAccess :
    stMem.meshWaits MeshClass.request (stMem.accDie accR) (stMem.addrDie accR.addr) = false ∧ accR.op = none ∧ accR.kind = AccKindM.read ∧
    accR.fresh < 2 ^ 64 ∧ 0 < accR.len ∧ accR.addr % tileBytes + accR.len ≤ tileBytes ∧ stMem.deny accR.who accR.addr false = none ∧
    (stMem.tile (accR.addr / tileBytes)).st = Home.dram ∧ stMem.erasedSyms (State.stackOf (stMem.tile (accR.addr / tileBytes)).loc) ≤ 4 ∧
    stMem.anyPoison accR.addr accR.len = false ∧
    (stFlash (0x80000000 : Word32) false).meshWaits MeshClass.request ((stFlash (0x80000000 : Word32) false).accDie accR) ((stFlash (0x80000000 :
      Word32) false).addrDie accR.addr) = false ∧
    (stFlash (0x80000000 : Word32) false).deny accR.who accR.addr false = none ∧
    ((stFlash (0x80000000 : Word32) false).tile (accR.addr / tileBytes)).st = Home.flash ∧
    stMem.meshWaits MeshClass.request (stMem.accDie (accW 65535)) (stMem.addrDie (accW 65535).addr) = false ∧ (accW 65535).op = none ∧
    (accW 65535).kind = AccKindM.write ∧ (accW 65535).fresh < 2 ^ 64 ∧ (accW 65535).data ≠ [] ∧
    (accW 65535).addr % tileBytes + (accW 65535).data.length ≤ tileBytes ∧ stMem.deny (accW 65535).who (accW 65535).addr true = none ∧
    (stMem.tile ((accW 65535).addr / tileBytes)).st = Home.dram ∧
    stMem.meshWaits MeshClass.request (stMem.accDie accA) (stMem.addrDie accA.addr) = false ∧ accA.op = none ∧ accA.kind = AccKindM.atomic ∧
    accA.fresh < 2 ^ 64 ∧ accA.addr % atomicSize accA = 0 ∧ (atomicNew (accA.len % 16) (atomicSize accA) 0 0 0).isSome = true ∧
    stMem.deny accA.who accA.addr true = none ∧ (stMem.tile (accA.addr / tileBytes)).st = Home.dram ∧
    stMem.erasedSyms (State.stackOf (stMem.tile (accA.addr / tileBytes)).loc) ≤ 4 ∧ stMem.anyPoison accA.addr (atomicSize accA) = false ∧
    stMem.meshWaits MeshClass.request (stMem.accDie (accW 0x100000000)) (stMem.addrDie (accW 0x100000000).addr) = false ∧
    (accW 0x100000000).op = none ∧ (accW 0x100000000).kind = AccKindM.write ∧ (accW 0x100000000).fresh < 2 ^ 64 ∧ (accW 0x100000000).data ≠ [] ∧
    (accW 0x100000000).addr % tileBytes + (accW 0x100000000).data.length ≤ tileBytes ∧
    stMem.deny (accW 0x100000000).who (accW 0x100000000).addr true = some (4, 1) ∧
    stMem.meshWaits MeshClass.request (stMem.accDie (accW 65536)) (stMem.addrDie (accW 65536).addr) = false ∧ (accW 65536).op = none ∧
    (accW 65536).kind = AccKindM.write ∧ (accW 65536).fresh < 2 ^ 64 ∧ (accW 65536).data ≠ [] ∧
    (accW 65536).addr % tileBytes + (accW 65536).data.length ≤ tileBytes ∧ stMem.deny (accW 65536).who (accW 65536).addr true = none ∧
    stMem.tile ((accW 65536).addr / tileBytes) = Tile.none ∧ stMem.tableFull ((accW 65536).addr / tileBytes / 65536) = false ∧
    State.rgnTier (stMem.rgnAt (accW 65536).addr) ≠ 2 ∧ 0 < stMem.dFree (State.rgnOwner (stMem.rgnAt (accW 65536).addr)) ∧
    stMem.placeFrame ((accW 65536).addr / tileBytes) = some 0x1001000 ∧
    stMoving.meshWaits MeshClass.request (stMoving.accDie (accW 65535)) (stMoving.addrDie (accW 65535).addr) = false ∧
    stMoving.deny (accW 65535).who (accW 65535).addr true = none ∧ (stMoving.tile ((accW 65535).addr / tileBytes)).st = Home.movingD ∧
    (drained stMem).meshWaits MeshClass.request ((drained stMem).accDie accR) ((drained stMem).addrDie accR.addr) = true ∧
    (accR.kind = AccKindM.write → 0 < accR.data.length ∧ accR.addr % tileBytes + accR.data.length ≤ tileBytes) ∧
    (accR.kind = AccKindM.atomic → accR.addr % tileBytes + atomicSize accR ≤ tileBytes) ∧
    (drained stMem).meshWaits MeshClass.request ((drained stMem).accDie (accW 65535)) ((drained stMem).addrDie (accW 65535).addr) = true ∧
    ((accW 65535).kind = AccKindM.read → 0 < (accW 65535).len ∧ (accW 65535).addr % tileBytes + (accW 65535).len ≤ tileBytes) ∧
    0 < (accW 65535).data.length ∧ ((accW 65535).kind = AccKindM.atomic → (accW 65535).addr % tileBytes + atomicSize (accW 65535) ≤ tileBytes) ∧
    (drained stMem).meshWaits MeshClass.request ((drained stMem).accDie accA) ((drained stMem).addrDie accA.addr) = true ∧
    (accA.kind = AccKindM.read → 0 < accA.len ∧ accA.addr % tileBytes + accA.len ≤ tileBytes) ∧
    (accA.kind = AccKindM.write → 0 < accA.data.length ∧ accA.addr % tileBytes + accA.data.length ≤ tileBytes) ∧
    accA.addr % tileBytes + atomicSize accA ≤ tileBytes := by decide +kernel
theorem witness_TileMoves :
    stMoveOp.op? 0 = some (opOf (recMove 16 (0 : Word64) (1 : Word64) (2 : Word64))) ∧
    (opOf (recMove 16 (0 : Word64) (1 : Word64) (2 : Word64))).dispatched = true ∧
    (opOf (recMove 16 (0 : Word64) (1 : Word64) (2 : Word64))).ran = false ∧
    (opOf (recMove 16 (0 : Word64) (1 : Word64) (2 : Word64))).code = (0 : Byte) ∧
    (opOf (recMove 16 (0 : Word64) (1 : Word64) (2 : Word64))).cmd.opcode.toNat = 16 ∧
    BitVec.toNat (opOf (recMove 16 (0 : Word64) (1 : Word64) (2 : Word64))).cmd.w0 = 0 * tileBytes ∧ (0 + 1) * tileBytes ≤ uniEnd ∧
    (opOf (recMove 16 (0 : Word64) (1 : Word64) (2 : Word64))).cmd.w1 = (1 : Word64) ∧
    (opOf (recMove 16 (0 : Word64) (1 : Word64) (2 : Word64))).cmd.w2 = (2 : Word64) ∧
    (opOf (recMove 16 (0 : Word64) (1 : Word64) (2 : Word64))).cmd.w3 = (0 : Word64) ∧
    (opOf (recMove 16 (0 : Word64) (1 : Word64) (2 : Word64))).cmd.w4 = (0 : Word64) ∧
    (opOf (recMove 16 (0 : Word64) (1 : Word64) (2 : Word64))).cmd.w5 = (0 : Word64) ∧
    (opOf (recMove 16 (0 : Word64) (1 : Word64) (2 : Word64))).cmd.w6 = (0 : Word64) ∧
    (opOf (recMove 16 (0 : Word64) (1 : Word64) (2 : Word64))).cmd.w7 = (0 : Word64) ∧
    stMoveOp.moveDeny (opOf (recMove 16 (0 : Word64) (1 : Word64) (2 : Word64))).tenant 0 false = none ∧
    stMoveOp.tile 0 = Tile.mk Home.dram false (stMoveOp.tile 0).loc (stMoveOp.tile 0).evac ∧ State.rgnTier (stMoveOp.rgn (0 / 65536 : ℕ)) ≠ 1 ∧
    stMoveOp.ms.asks = [] ∧ stMoveOp.ms.moves.get? 0 = none ∧
    (withOp stMem (recMove 16 (0 : Word64) (1 : Word64) (3 : Word64))).op? 0 = some (opOf (recMove 16 (0 : Word64) (1 : Word64) (3 : Word64))) ∧
    (opOf (recMove 16 (0 : Word64) (1 : Word64) (3 : Word64))).dispatched = true ∧
    (opOf (recMove 16 (0 : Word64) (1 : Word64) (3 : Word64))).ran = false ∧
    (opOf (recMove 16 (0 : Word64) (1 : Word64) (3 : Word64))).code = (0 : Byte) ∧
    (opOf (recMove 16 (0 : Word64) (1 : Word64) (3 : Word64))).cmd.opcode.toNat = 16 ∧
    BitVec.toNat (opOf (recMove 16 (0 : Word64) (1 : Word64) (3 : Word64))).cmd.w0 = 0 * tileBytes ∧
    (opOf (recMove 16 (0 : Word64) (1 : Word64) (3 : Word64))).cmd.w1 = (1 : Word64) ∧
    (opOf (recMove 16 (0 : Word64) (1 : Word64) (3 : Word64))).cmd.w2 = (3 : Word64) ∧
    (opOf (recMove 16 (0 : Word64) (1 : Word64) (3 : Word64))).cmd.w3 = (0 : Word64) ∧
    (opOf (recMove 16 (0 : Word64) (1 : Word64) (3 : Word64))).cmd.w4 = (0 : Word64) ∧
    (opOf (recMove 16 (0 : Word64) (1 : Word64) (3 : Word64))).cmd.w5 = (0 : Word64) ∧
    (opOf (recMove 16 (0 : Word64) (1 : Word64) (3 : Word64))).cmd.w6 = (0 : Word64) ∧
    (opOf (recMove 16 (0 : Word64) (1 : Word64) (3 : Word64))).cmd.w7 = (0 : Word64) ∧
    (withOp stMem (recMove 16 (0 : Word64) (1 : Word64) (3 : Word64))).moveDeny (opOf (recMove 16 (0 : Word64) (1 : Word64) (3 : Word64))).tenant
      0 true = none ∧
    ((withOp stMem (recMove 16 (0 : Word64) (1 : Word64) (3 : Word64))).tile 0).st = Home.dram ∧
    (withOp stMem (recMove 16 (0 : Word64) (1 : Word64) (3 : Word64))).tileBusy 0 = false ∧
    (withOp stMem (recMove 16 (0 : Word64) (1 : Word64) (3 : Word64))).modelTile 0 = false ∧
    (withOp stMem (recMove 16 (0 : Word64) (1 : Word64) (3 : Word64))).ms.evacuating = [] ∧
    (withOp stBusy (recMove 16 (0 : Word64) (1 : Word64) (3 : Word64))).op? 0 = some (opOf (recMove 16 (0 : Word64) (1 : Word64) (3 : Word64))) ∧
    (withOp stBusy (recMove 16 (0 : Word64) (1 : Word64) (3 : Word64))).moveDeny (opOf (recMove 16 (0 : Word64) (1 : Word64) (3 : Word64))).tenant
      0 true = none ∧
    ((withOp stBusy (recMove 16 (0 : Word64) (1 : Word64) (3 : Word64))).tile 0).st = Home.dram ∧
    (withOp stBusy (recMove 16 (0 : Word64) (1 : Word64) (3 : Word64))).tileBusy 0 = true ∧
    (withOp stBusy (recMove 16 (0 : Word64) (1 : Word64) (3 : Word64))).ms.asks = [] ∧
    (withOp stBusy (recMove 16 (0 : Word64) (1 : Word64) (3 : Word64))).ms.moves.get? 0 = none ∧
    (withOp stMem (recMove 16 (1 : Word64) (1 : Word64) (2 : Word64))).op? 0 = some (opOf (recMove 16 (1 : Word64) (1 : Word64) (2 : Word64))) ∧
    (opOf (recMove 16 (1 : Word64) (1 : Word64) (2 : Word64))).dispatched = true ∧
    (opOf (recMove 16 (1 : Word64) (1 : Word64) (2 : Word64))).ran = false ∧
    (opOf (recMove 16 (1 : Word64) (1 : Word64) (2 : Word64))).code = (0 : Byte) ∧
    (opOf (recMove 16 (1 : Word64) (1 : Word64) (2 : Word64))).cmd.opcode.toNat = 16 ∧
    BitVec.toNat (opOf (recMove 16 (1 : Word64) (1 : Word64) (2 : Word64))).cmd.w0 % tileBytes ≠ 0 ∧
    (withOp stMem (recMove 16 (0 : Word64) (0 : Word64) (2 : Word64))).op? 0 = some (opOf (recMove 16 (0 : Word64) (0 : Word64) (2 : Word64))) ∧
    (opOf (recMove 16 (0 : Word64) (0 : Word64) (2 : Word64))).dispatched = true ∧
    (opOf (recMove 16 (0 : Word64) (0 : Word64) (2 : Word64))).ran = false ∧
    (opOf (recMove 16 (0 : Word64) (0 : Word64) (2 : Word64))).code = (0 : Byte) ∧
    (opOf (recMove 16 (0 : Word64) (0 : Word64) (2 : Word64))).cmd.opcode.toNat = 16 ∧
    (opOf (recMove 16 (0 : Word64) (0 : Word64) (2 : Word64))).cmd.w1 = (0 : Word64) ∧
    (withOp (stFlash (0x80000000 : Word32) false) (recMove 17 (0 : Word64) (1 : Word64) (0 : Word64))).op? 0 = some (opOf (recMove 17 (0 : Word64)
      (1 : Word64) (0 : Word64))) ∧
    (opOf (recMove 17 (0 : Word64) (1 : Word64) (0 : Word64))).dispatched = true ∧
    (opOf (recMove 17 (0 : Word64) (1 : Word64) (0 : Word64))).ran = false ∧
    (opOf (recMove 17 (0 : Word64) (1 : Word64) (0 : Word64))).code = (0 : Byte) ∧
    (opOf (recMove 17 (0 : Word64) (1 : Word64) (0 : Word64))).cmd.opcode.toNat = 17 ∧
    BitVec.toNat (opOf (recMove 17 (0 : Word64) (1 : Word64) (0 : Word64))).cmd.w0 = 0 * tileBytes ∧
    (opOf (recMove 17 (0 : Word64) (1 : Word64) (0 : Word64))).cmd.w1 = (1 : Word64) ∧
    (opOf (recMove 17 (0 : Word64) (1 : Word64) (0 : Word64))).cmd.w2 = (0 : Word64) ∧
    (opOf (recMove 17 (0 : Word64) (1 : Word64) (0 : Word64))).cmd.w3 = (0 : Word64) ∧
    (opOf (recMove 17 (0 : Word64) (1 : Word64) (0 : Word64))).cmd.w4 = (0 : Word64) ∧
    (opOf (recMove 17 (0 : Word64) (1 : Word64) (0 : Word64))).cmd.w5 = (0 : Word64) ∧
    (opOf (recMove 17 (0 : Word64) (1 : Word64) (0 : Word64))).cmd.w6 = (0 : Word64) ∧
    (opOf (recMove 17 (0 : Word64) (1 : Word64) (0 : Word64))).cmd.w7 = (0 : Word64) ∧
    (withOp (stFlash (0x80000000 : Word32) false) (recMove 17 (0 : Word64) (1 : Word64) (0 : Word64))).moveDeny (opOf (recMove 17 (0 : Word64) (1
      : Word64) (0 : Word64))).tenant 0 false = none ∧
    ((withOp (stFlash (0x80000000 : Word32) false) (recMove 17 (0 : Word64) (1 : Word64) (0 : Word64))).tile 0).st = Home.flash ∧
    State.rgnTier ((withOp (stFlash (0x80000000 : Word32) false) (recMove 17 (0 : Word64) (1 : Word64) (0 : Word64))).rgn (0 / 65536 : ℕ)) ≠ 2 ∧
    (withOp (stFlash (0x80000000 : Word32) false) (recMove 17 (0 : Word64) (1 : Word64) (0 : Word64))).ms.asks = [] ∧
    (withOp (stFlash (0x80000000 : Word32) false) (recMove 17 (0 : Word64) (1 : Word64) (0 : Word64))).ms.moves.get? 0 = none ∧
    stAsk.ms.asks = [MoveAsk.mk 0 MoveWhy.demote MoveDest.flash false] ∧ MoveWhy.demote ≠ MoveWhy.evacuate ∧ stAsk.ms.moves.get? 0 = none ∧
    stAsk.away.get? 0 = none ∧ (stAsk.tile 0).st = Home.dram ∧ stAsk.moveBad 0 MoveDest.flash = false ∧
    stAsk.moverLoad (State.stackOf (stAsk.tile 0).loc / 2) < stAsk.rdF (R.MPD_MOVER_CTL (State.stackOf (stAsk.tile 0).loc / 2)) 5 0 ∧
    stAsk.flashDest 0 = some 0 ∧ stAskIn.ms.asks = [MoveAsk.mk 0 MoveWhy.promote MoveDest.place true] ∧ MoveWhy.promote ≠ MoveWhy.evacuate ∧
    stAskIn.ms.moves.get? 0 = none ∧ stAskIn.away.get? 0 = none ∧ (stAskIn.tile 0).st = Home.flash ∧ stAskIn.moveBad 0 MoveDest.place = false ∧
    0 = stAskIn.moverOf 0 (stAskIn.tile 0) MoveDest.place ∧ stAskIn.moverLoad 0 < stAskIn.rdF (R.MPD_MOVER_CTL 0) 5 0 ∧
    stAskIn.dramDest 0 MoveDest.place = some 4096 ∧ stMoving.ms.moves.get? 0 = some mvOut ∧ mvOut.isRead = true ∧ mvOut.dstFlash = true ∧
    mvOut.verified = true ∧ mvOut.srcFlash = false ∧ mvOut.why = MoveWhy.demote ∧ stMoving.ms.waits = [] ∧ stMoving.ms.evacuating = [] ∧
    stComing.ms.moves.get? 0 = some mvIn ∧ mvIn.isRead = true ∧ mvIn.dstFlash = false ∧ mvIn.srcFlash = true ∧ mvIn.why = MoveWhy.promote ∧
    stComing.ms.waits = [] ∧ stComing.ms.evacuating = [] ∧ stComing.ms.frames.get? mvIn.dst = some (Frame.mk (FrameUse.dest 0) 0 false false) ∧
    stMoving.ms.tblB = true ∧ stBusy.ms.waits[0]? = some (WaitWr.mk (accW 65535) false) ∧ (WaitWr.mk (accW 65535) false).held = false ∧
    (WaitWr.mk (accW 65535) false).acc.op = none ∧ (WaitWr.mk (accW 65535) false).acc.rem = none ∧
    (WaitWr.mk (accW 65535) false).acc.kind = AccKindM.write ∧ (WaitWr.mk (accW 65535) false).acc.fresh < 2 ^ 64 ∧
    stBusy.deny (WaitWr.mk (accW 65535) false).acc.who (WaitWr.mk (accW 65535) false).acc.addr true = none ∧
    (stBusy.tile ((WaitWr.mk (accW 65535) false).acc.addr / tileBytes)).st = Home.dram ∧
    stHeldWr.ms.waits[0]? = some (WaitWr.mk (accW 65535) true) ∧ (WaitWr.mk (accW 65535) true).held = true ∧
    stLow.dFree 0 + stLow.demoting 0 < 256 ∧ stLow.rdB R.FTL_STAT 1 = false ∧ stLow.clockSweep 0 = (some 4096, (stLow.clockSweep 0).2) ∧
    (stLow.clockSweep 0).2.ms.frames.get? 4096 = some (Frame.mk (FrameUse.tile 0) 0 false false) ∧
    (Frame.mk (FrameUse.tile 0) 0 false false).use = FrameUse.tile 0 ∧ (stLow.clockSweep 0).2.ms.asks = [] ∧
    (stLow.clockSweep 0).2.ms.moves.get? 0 = none ∧ 256 ≤ stMem.dFree 0 + stMem.demoting 0 := by decide +kernel
theorem witness_FlashAndFences :
    (stRd rdAcc (0 : Word64)).ms.reads.get? 0 = some rdAcc ∧ rdAcc.by_ = RdFor.acc accR ∧ rdAcc.late = false ∧ accR.op = none ∧ accR.rem = none ∧
    accR.fresh < 2 ^ 64 ∧
    ([(0 : Byte)], []) = rdAcc.snap.getD ((stRd rdAcc (0 : Word64)).bytesAt accR.addr accR.len, (stRd rdAcc (0 : Word64)).ms.poison) ∧
    stComing.ms.reads.get? 0 = some (FlashRd.mk 0 (0 : Word64) RdFor.move false none) ∧
    (FlashRd.mk 0 (0 : Word64) RdFor.move false none).by_ = RdFor.move ∧
    stComing.ms.moves.get? (FlashRd.mk 0 (0 : Word64) RdFor.move false none).tile = some mvIn ∧
    (stRd rdOp (0 : Word64)).ms.reads.get? 0 = some rdOp ∧ rdOp.by_ = RdFor.op 0 ∧ ((stRd rdAcc (0 : Word64)).tile rdAcc.tile).st = Home.flash ∧
    (stRd rdAcc (0 : Word64)).ms.moves.get? rdAcc.tile = none ∧ stMoving.ms.progs.get? 3 = some (FlashWr.mk 16 0 true) ∧
    (FlashWr.mk 16 0 true).isMove = true ∧ stMoving.ms.moves.get? (FlashWr.mk 16 0 true).tile = some mvOut ∧
    stProg.ms.progs.get? 0 = some (FlashWr.mk 16 0 false) ∧ (FlashWr.mk 16 0 false).isMove = false ∧
    (stRd rdAcc (0x1312d00 : Word64)).ms.reads.get? 0 = some rdAcc ∧
    BitVec.toNat rdAcc.at_ + (stRd rdAcc (0x1312d00 : Word64)).rdF R.MPD_TIER_TMO 15 0 * 4000 ≤ BitVec.toNat (stRd rdAcc (0x1312d00 : Word64)).ft ∧
    stScrub.rdB (R.DRP_SCRUB_CTL 11) 31 = true ∧ stScrub.ms.fenced.contains 11 = false ∧ stScrub.rdF (R.DRP_SCRUB_POS 11) 20 0 < 0x180000 ∧
    State.reset.ms.fenced = [] ∧ State.reset.ms.evacuating = [] ∧ State.reset.ms.frames = [] ∧ State.reset.ms.asks = [] ∧ State.reset.turn = none ∧
    State.reset.router = [] ∧ stMem.ms.fenced = [] ∧ stMem.ms.moves = [] ∧ stMem.ms.asks = [] ∧ stMem.turn = none ∧
    (∀ (p : ℕ), State.portOfStack 0 = some p → stMem.portState p ≠ 4 ∧ stMem.portState p ≠ 5 ∧ stMem.portState p ≠ 7) ∧ State.reset.ms.moves = [] ∧
    (∀ (p : ℕ), State.portOfStack 11 = some p → State.reset.portState p ≠ 4 ∧ State.reset.portState p ≠ 5 ∧ State.reset.portState p ≠ 7) ∧
    stFence.ms.fenced.contains 11 = true ∧ ((stFlash (0xa0000000 : Word32) true).tile 0).st = Home.flash ∧
    ((stFlash (0xa0000000 : Word32) true).tile 0).evac = true ∧ State.rgnTier ((stFlash (0xa0000000 : Word32) true).rgn (0 / 65536 : ℕ)) = 1 ∧
    0 < (stFlash (0xa0000000 : Word32) true).dFree ((stFlash (0xa0000000 : Word32) true).tileOwner 0) ∧
    (stFlash (0xa0000000 : Word32) true).ms.asks = [] ∧ (stFlash (0xa0000000 : Word32) true).ms.moves.get? 0 = none ∧
    stProg.ms.ftiles.get? 16 = some 0 ∧ State.reset.ms.chanFail = [] ∧ State.reset.ms.ftiles = [] := by decide +kernel
/-! ### Chapter 06 -/

/-- Port `p` in a STATE of R214, with its port record, and identity lane maps. -/
def stPort (p st : Nat) (o : Port) : State :=
  { stReg [(R.SEM_STAT, 0x1A000000), (preg p 0x104, BitVec.ofNat 32 (st * 2 ^ 28)), (preg p 0x10C, 0x76543210), (preg p 0x110, 0x76543210)] with
    ports := [(p, o)] }
/-- The same with more registers. -/
def stPortR (p st : Nat) (o : Port) (l : Map Word32) : State := { stPort p st o with regs := (stPort p st o).regs ++ l }
/-- Lanes `0` to `n` - 1, all locked. -/
def lanesUp (n : Nat) : Map Lane := (List.range n).map (fun l => (l, { Lane.none with lock := .locked 0 0, stripe := l, far := l }))
/-- A port whose lanes are all locked. -/
def pLocked (n : Nat) : Port := { Port.none with lanes := lanesUp n, slot := 2 }
/-- A transmit message of class `cls`. -/
def tx0 (vc : Nat) (b : Bool) : TxMsg := ⟨1, 0x40, vc, 0, [1, 2, 3], b, false, [], none⟩
/-- A held flit. -/
def hf0 (wait : Bool) : HeldFlit := ⟨1, 0x40, 5, 3, 0, 0, 0x7F, [1], wait, []⟩
/-- A hall port ACTIVE, sending at half width, all lanes locked. -/
def stHalf : State := stPort 31 5 { pLocked 9 with txHalf := true }
/-- The same at full width. -/
def stFullPort : State := stPort 31 5 (pLocked 9)
/-- A reach port whose stacks are full for it: no frame is unreserved. -/
def stNoFrames : State := { stReg [] with ms := { MemSys.reset with own := [(0, ⟨State.reset.liveFrames, 0, 0, 0⟩)] } }
/-- A reach port in DETECT whose span is in range, or not. -/
def stReach (v : Word32) : State := stPortR 35 1 Port.none [(preg 35 0x200, v)]
/-- A port in DETECT that failed cold training `n` times. -/
def stCold (n : Nat) : State := stPort 35 2 { Port.none with cold := n }
/-- A port in LPI with a LINK payload to send. -/
def stLpi : State := stPort 31 7 { pLocked 9 with linkQ := [[5]] }
/-- A port with ENC in ALIGN, with no fabric key. -/
def stEncAlign : State := stPort 31 3 { pLocked 8 with encOn := true }
/-- The package in LPI's power state. -/
def stIdlePwr : State := stPortR 31 5 (pLocked 9) [(R.PWR_STAT, 0x40000000)]
/-- Port 31 ACTIVE at a marker's slot. -/
def stMarker : State := stPort 31 5 { pLocked 9 with slot := 0 }
/-- The first codeword that a marker begins, zeros after it. -/
def cwAm (stripe lane mc : Nat) : Nat := codeword (blockBits true (amBlock stripe lane mc) :: List.replicate 19 0)
/-- Port 0 in a STATE, its lanes locked, lane 8 as given and selected. -/
def stLane (st : Nat) (x : Lane) : State :=
  stPortR 0 st { Port.none with lanes := lanesUp 8 ++ [(8, x)] } [(preg 0 0x118, 0x80000008)]
/-- A lane with a lock, failed or not, in a recalibration step. -/
def lane0 (l : LaneLock) (failed : Bool) (recal : Nat) : Lane := { Lane.none with lock := l, failed := failed, recal := recal }
/-- Port 0 ACTIVE with lane 3 in use and only three other lanes healthy. -/
def stFew : State :=
  stPort 0 5 { Port.none with lanes := lanesUp 4 ++ (List.range 5).map (fun l => (l + 4, lane0 .hunt true 0)) }
/-- A codeword no decoder corrects: every symbol of its second half wrong. -/
def cwBad : Nat := (2 ^ 2720 - 1) * 2 ^ 2720
/-- A lane switch block for a map and a width, on every stripe lane. -/
def lswSlot (m : Nat) (w : Byte) : List LaneBlock :=
  (List.range 8).map (fun k => ⟨0, k, true, padTo 32 ([0x5A] ++ leBytes 4 m ++ [w, 0])⟩)
/-- An unencrypted flit, its ACK, CRED and LSEQ `q` given, and its CRC. -/
def mkFlit (type flg : Byte) (q : Nat) (ack cred : Nat) (pl : List Byte) : Flit :=
  let f : Flit := ⟨type, flg, BitVec.ofNat 8 (min 240 pl.length), 0, BitVec.ofNat 24 q, BitVec.ofNat 24 ack, BitVec.ofNat 16 cred, 0, padTo 240 pl⟩
  { f with crc := flitCrc f }
/-- The slot of a flit at full width. -/
def slotOf (f : Flit) : List LaneBlock := stripeFlit 0x76543210 8 f
/-- An IDLE flit, with an ACK of 6 and a credit for VC 0. -/
def fIdle : Flit := mkFlit 0 0 0 6 1 []
/-- A DATA flit of VC 0 with LSEQ `q`: FLG as given. -/
def fData (flg : Byte) (q : Nat) (pl : List Byte) : Flit := mkFlit 1 flg q 0 0 pl
/-- A LINK flit of one code. -/
def fLink (code : Byte) (l : List Byte) : Flit := mkFlit 3 0 0 0 0 (code :: l)
/-- A flit whose CRC is wrong. -/
def fBad : Flit := { fIdle with crc := fIdle.crc + 1 }
/-- Message bytes: SRC 1, DST 0, SIZE 24, CLASS 0x40. -/
def msgBytes : List Byte := leBytes 2 1 ++ leBytes 2 0 ++ leBytes 2 0 ++ [0x40, 0] ++ List.replicate 16 7
/-- Port 0 ACTIVE with a message under way at the router. -/
def stPart : State :=
  { stPort 0 5 { pLocked 9 with rxPart := [(0, 1)], ded := [32], pool := 100 } with
    router := [(0, ⟨⟨1, 0, 0x40, 0, 0, 0, [], false, []⟩, 0, 0, true, 1, 1⟩)] }
/-- The same with the message already past the router, on port 1. -/
def stPart1 : State :=
  { stPort 0 5 { pLocked 9 with rxPart := [(0, 1)], ded := [32], pool := 100 } with
    ports := [(0, { pLocked 9 with rxPart := [(0, 1)], ded := [32], pool := 100 }), (1, { Port.none with txQ := [⟨1, 0x40, 0, 0, [], true, false, [], some (0, 0)⟩] })] }
/-- Port 0 ACTIVE, with room for messages. -/
def stRoom : State := stPort 0 5 { pLocked 9 with ded := [32], pool := 100 }
/-- Port 0 ACTIVE, with no room. -/
def stNoRoom : State := stPort 0 5 { pLocked 9 with ded := [0], pool := 0 }
/-- Port 0 with two flits held, credit given, and a ping under way. -/
def pUp : Port :=
  { pLocked 9 with
    held := [hf0 false], farDed := [32], farPool := 100, pingAt := some 5, tx := { PortKey.none with on := true, epoch := 2 } }
/-- Port `p` with a record: in a domain of 32 packages of which this is 0, package 1 reached by ports 0 and 32, a fabric key in slot 0. -/
def stUp (p st : Nat) (o : Port) : State :=
  { stPortR p st o [(R.SEM_KF_STAT, 0x80000000), (R.FBD_PKG_ID, 0x80000000), (R.FBD_SHAPE, 0x0001F005)] with nbr := [(1, 1)] }
/-- The same under a fabric key and ENC as of the last training. -/
def stUpEnc (o : Port) : State := stUp 0 4 { o with encOn := true }
/-- A HELLO flit of package `pkg`'s port 1, with FLAGS. -/
def fHello (flags pkg : Byte) : Flit := mkFlit 3 0 0 0 0 [1, 0, flags, 0, 0, 0, 0, 0, pkg, 0]
/-- Its payload. -/
def bHello (flags pkg : Byte) : List Byte := padTo 240 [1, 0, flags, 0, 0, 0, 0, 0, pkg, 0]
/-- A NAK that names LSEQ 5. -/
def nak5 : Flit := mkFlit 2 0 0 5 0 []
/-- Port 0 ACTIVE with seven replays from LSEQ 5 made. -/
def stEight : State := stUp 0 5 { pUp with replays := 7, replayFrom := 5 }
/-- Port 0 with what it has to send. -/
def pSend (h : List HeldFlit) (l : List (List Byte)) (q : List TxMsg) (nak : Bool) : Port :=
  { pLocked 9 with held := h, linkQ := l, txQ := q, nakDue := nak, farDed := [32], farPool := 100 }
/-- Port 31 ACTIVE with that to send. -/
def stSend (o : Port) : State := stPort 31 5 o
/-- Port 0 HELD, released, its HELLO not yet sent. -/
def stHello : State := stUp 0 4 { pLocked 9 with slot := 1 }
/-- A transmit key in use. -/
def pKeyed : Port := { pLocked 9 with tx := { PortKey.none with on := true } }
/-- A key of which 2^47 CTR values are used. -/
def pWorn : Port := { pKeyed with tx := { PortKey.none with on := true, ctr := 2 ^ 47 } }
/-- A receive key 1 ms old. -/
def stOldKey : State := { stPort 35 5 { Port.none with rx := { PortKey.none with on := true } } with ft := 4000000 }
/-- The state after port 0 took a flit. -/
def rxU (s : State) (type : Nat) (q : Bool) (f : Flit) : State := (s.receive 0 type q false (slotOf f)).2
/-- The state after port 0 took a LINK flit. -/
def linkU (s : State) (code : Nat) (clear : Bool) (f : Flit) : State := (s.linkIn 0 code clear (slotOf f)).2
/-- Port 0 HELD, in a package not yet released, or in LOOP. -/
def stUnreleased : State := { stUp 0 4 pUp with regs := (stUp 0 4 pUp).regs.drop 1 }
/-- Port 0 HELD with ENC and the far end's key ready. -/
def stFarReady : State := stUpEnc { pUp with farReady := true, tx := PortKey.none }
/-- Port 0 HELD with ENC and no fabric key. -/
def stNoKf : State := { stPortR 0 4 { pUp with encOn := true } [(R.FBD_PKG_ID, 0x80000000), (R.FBD_SHAPE, 0x0001F005)] with nbr := [(1, 1)] }
/-- Port 0 HELD with ENC and the HELLO of package 1 taken, or not. -/
def stHeldKey (b : Bool) : State :=
  stUpEnc { pUp with hello := if b then some ⟨1, 0, 0, false, true, false, 0⟩ else none, tx := PortKey.none }
/-- Port 0 ACTIVE with three free lanes named, in half of which no lane is left but four. -/
def stNamed (l : List Nat) : State := stUp 0 5 { pUp with named := l }
/-- Port 32 ACTIVE. -/
def stReach5 : State := stUp 32 5 pUp
/-- Fifteen bad tags within the last second, on port 31 ACTIVE with ENC. -/
def stTags (n : Nat) : State := stPort 0 5 { pLocked 9 with encOn := true, tagFails := List.replicate n 0 }
/-- Port 0 with lane 3 held in recalibration step `n`. -/
def stRecal (n : Nat) : State := stPort 0 5 { pLocked 9 with lanes := lanesUp 3 ++ [(3, lane0 (.locked 0 0) false n)] ++ (lanesUp 9).drop 4 }
/-- A flit held for longer than REPLAY_TMO. -/
def stStale : State := { stSend (pSend [hf0 false] [] [] false) with ft := 4000000000 }
/-- Markers that match, with a clean syndrome, with another MCOUNT, and one that is corrected: what the moves of a lane's lock ask. -/
theorem witness_locks :
    amMatch (cwAm 7 8 9) = true ∧ rsLeft (cwAm 7 8 9) = 0 ∧ amCount (cwAm 7 8 9) = 9 ∧ rsDecode (cwAm 7 8 8) = some (cwAm 7 8 8, 0) ∧
    amCount (cwAm 7 8 8) ≠ 9 ∧ rsDecode (cwAm 15 8 9 ^^^ 7) = some (cwAm 15 8 9, 1) ∧ amMatch (cwAm 15 8 9) = true ∧
    ((stLane 5 (lane0 (.confirm 3 9) false 0)).lane 0 8).lock = .confirm 3 9 ∧
    ((stLane 5 (lane0 (.locked 2 9) false 0)).lane 0 8).lock = .locked 2 9 := by decide +kernel
/-- Lanes whose counters an error window has raised. -/
def laneW (failed : Bool) (corr uncorr : Word32) : Lane := { lane0 (.locked 0 0) failed 0 with corr := corr, uncorr := uncorr }
/-- The same of a lane that has seen markers. -/
def laneFew : Lane := { stFew.lane 0 3 with uncorr := 4 }
/-- Half width, the second half of a flit to go. -/
def pSecond : Port := { pLocked 9 with half := List.replicate 128 7, txHalf := true, slot := 3 }
/-- Slots that show a flit with a bad CRC, one of a TYPE that does not exist, and a control block. -/
theorem witness_slots :
    slotKind (stRoom.rd (preg 0 0x110)) (stRoom.rxLanes 0) (slotOf fBad) = .flit fBad ∧ fBad.crc ≠ flitCrc fBad ∧
    slotKind (stRoom.rd (preg 0 0x110)) (stRoom.rxLanes 0) (slotOf (mkFlit 4 0 0 0 0 [])) = .flit (mkFlit 4 0 0 0 0 []) ∧
    3 < (mkFlit 4 0 0 0 0 []).type.toNat ∧
    slotKind (stRoom.rd (preg 0 0x110)) (stRoom.rxLanes 0) (lswSlot 0 8) = .control (padTo 32 [0x5A, 0, 0, 0, 0, 8, 0]) := by decide +kernel
theorem witness_PortStates :
    bit (0xc0000000 : Word32) 31 = true ∧ (stPort 35 5 (pLocked 4)).portState 35 ≠ 0 ∧ bit (0x80000000 : Word32) 31 = true ∧
    stFullPort.portState 31 ≠ 0 ∧ bit (0x80000000 : Word32) 28 = (stFullPort.port 31).txHalf ∧ bit (0x90000000 : Word32) 31 = true ∧
    stFullPort.portLive 31 = true ∧ bit (0x90000000 : Word32) 28 = true ∧ (stFullPort.port 31).txHalf = false ∧ stHalf.portLive 31 = true ∧
    bit (0x80000000 : Word32) 28 = false ∧ (stHalf.port 31).txHalf = true ∧ 8 ≤ (stHalf.healthy 31).length ∧
    (stPort 31 0 (pLocked 9)).portState 31 = 0 ∧ stNoFrames.portState 35 = 0 ∧ stNoFrames.framesUnres < 2048 ∧ State.reset.portState 35 = 0 ∧
    2048 ≤ State.reset.framesUnres ∧ (∀ k ∈ State.reachStacks 35, 1024 ≤ State.reset.stackFree k) ∧ bit (0 : Word32) 31 = false ∧
    (stPort 31 1 Port.none).portState 31 = 1 ∧ (stReach (0x40000000 : Word32)).portState 35 = 1 ∧
    (stReach (0x40000000 : Word32)).rdB (preg 35 512) 30 = true ∧ (stReach (0 : Word32)).portState 35 = 1 ∧
    (stReach (0 : Word32)).rdB (preg 35 512) 30 = false ∧ (stCold 0).portState 35 = 2 ∧ (stPort 35 6 Port.none).portState 35 = 6 ∧
    (stCold 1).portState 35 = 2 ∧ (stCold 2).portState 35 = 2 ∧ (stPort 31 3 (pLocked 7)).portState 31 = 3 ∧
    ((List.filter ((stPort 31 3 (pLocked 7)).laneLocked 31) (List.range (laneCount 31))).length < if (isHall 31 && !(stPort 31 3 (pLocked 7)).rdB
      (preg 31 256) 28) = true then 8 else 4) ∧
    (stPort 31 3 (pLocked 8)).portState 31 = 3 ∧
    ((if (isHall 31 && !(stPort 31 3 (pLocked 8)).rdB (preg 31 256) 28) = true then 8 else 4) ≤ (List.filter ((stPort 31 3 (pLocked 8)).laneLocked
      31) (List.range (laneCount 31))).length) ∧
    stEncAlign.portState 31 = 3 ∧
    ((if (isHall 31 && !stEncAlign.rdB (preg 31 256) 28) = true then 8 else 4) ≤ (List.filter (stEncAlign.laneLocked 31) (List.range (laneCount
      31))).length) ∧
    (stPort 35 3 Port.none).portState 35 = 3 ∧ (stPort 35 7 (pLocked 4)).portState 35 = 7 ∧ State.reset.portState 35 ≠ 4 ∧
    State.reset.portState 35 ≠ 5 ∧ State.reset.portState 35 ≠ 7 ∧ 4 ≤ (stPort 35 4 (pLocked 4)).portState 35 ∧
    (stPort 35 4 (pLocked 4)).portState 35 ≤ 9 ∧ (stPort 35 4 (pLocked 4)).portState 35 ≠ 8 ∧ 4 ≤ (stPort 35 9 (pLocked 4)).portState 35 ∧
    (stPort 35 9 (pLocked 4)).portState 35 ≤ 9 ∧ (stPort 35 9 (pLocked 4)).portState 35 ≠ 8 ∧ stIdlePwr.portState 31 = 5 ∧
    stIdlePwr.rdF R.PWR_STAT 31 29 = 2 ∧ (stIdlePwr.port 31).txQ = [] ∧ (stIdlePwr.port 31).linkQ = [] ∧ (stIdlePwr.port 31).half = [] ∧
    (((stIdlePwr.port 31).held.any fun x => x.wait) = false) ∧ stIdlePwr.markerSlot 31 = false ∧ stLpi.portState 31 = 7 ∧
    (stLpi.port 31).linkQ ≠ [] ∧ 4 ≤ (stLpi.healthy 31).length ∧ stLpi.markerSlot 31 = false := by decide +kernel
theorem witness_LaneCommands :
    stMarker.portSends 31 = true ∧ stMarker.markerSlot 31 = true ∧ stFullPort.markerSlot 31 = false ∧ State.reset.portSends 0 = false ∧
    3 < laneCount 35 ∧ ((stPort 35 5 Port.none).lane 35 3).lock = LaneLock.hunt ∧ (stPort 35 5 Port.none).mayHunt 35 3 = false ∧
    ((stPort 35 3 Port.none).lane 35 3).lock = LaneLock.hunt ∧ amMatch 0 = false ∧ 8 < laneCount 31 ∧
    ((stPort 31 2 Port.none).lane 31 8).lock = LaneLock.hunt ∧ LaneLock.hunt = LaneLock.hunt ∧ (stPort 31 2 Port.none).mayHunt 31 8 = true ∧
    amMatch (cwAm 7 8 65535) = true ∧ rsLeft (cwAm 7 8 65535) = 0 ∧
    LaneLock.confirm 1 0 = LaneLock.confirm 1 ((amCount (cwAm 7 8 65535) + 1) % 65536) ∧ 8 < laneCount 0 ∧
    ((stLane 5 (lane0 (LaneLock.confirm 2 9) false 0)).lane 0 8).lock = LaneLock.confirm 2 9 ∧
    ((stLane 5 (lane0 (LaneLock.confirm 3 9) false 0)).lane 0 8).lock = LaneLock.confirm 3 9 ∧
    ((stLane 5 (lane0 (LaneLock.locked 1 9) false 0)).lane 0 8).lock = LaneLock.locked 1 9 ∧ amCount (cwAm 7 8 9) = 9 ∧ amCount (cwAm 15 8 9) = 9 ∧
    ((stLane 5 (lane0 (LaneLock.locked 2 9) false 0)).lane 0 8).lock = LaneLock.locked 2 9 ∧
    (∀ (r : ℕ × ℕ), rsDecode cwBad = some r → amMatch r.1 = false ∨ amCount r.1 ≠ 9) ∧
    (0 = (List.filter (fun x => x.isNone) (List.map rsDecode [1])).length) ∧
    (1 = (List.map (fun d => match d with | some r => r.2 | none => 0) (List.map rsDecode [1])).sum) ∧ 3 < laneCount 0 ∧
    (4 = (List.filter (fun x => x.isNone) (List.map rsDecode (List.replicate 4 cwBad))).length) ∧
    (0 = (List.map (fun d => match d with | some r => r.2 | none => 0) (List.map rsDecode (List.replicate 4 cwBad))).sum) ∧
    stFullPort.portLive 31 = true ∧
    slotKind (stFullPort.rd (preg 31 272)) (stFullPort.rxLanes 31) (lswSlot 0x76543218 (8 : Byte)) = SlotKind.control (padTo 32 [(90 : Byte), (24 : Byte),
      (50 : Byte), (84 : Byte), (118 : Byte), (8 : Byte), (0 : Byte)]) ∧
    (padTo 32 [(90 : Byte), (24 : Byte), (50 : Byte), (84 : Byte), (118 : Byte), (8 : Byte), (0 : Byte)]).getD 0 (0 : Byte) = (90 : Byte) ∧
    (8 = if (padTo 32 [(90 : Byte), (24 : Byte), (50 : Byte), (84 : Byte), (118 : Byte), (8 : Byte), (0 : Byte)]).getD 5 (0 : Byte) = (8 : Byte)
      then 8 else 4) ∧
    (0x76543218 : Word32) = BitVec.ofNat 32 (leNat (List.take 4 (List.drop 1 (padTo 32 [(90 : Byte), (24 : Byte), (50 : Byte), (84 : Byte), (118 :
      Byte), (8 : Byte), (0 : Byte)])))) ∧
    (stRecal 1).portLive 0 = true ∧
    slotKind ((stRecal 1).rd (preg 0 272)) ((stRecal 1).rxLanes 0) (lswSlot 0x76548210 (4 : Byte)) = SlotKind.control (padTo 32 [(90 : Byte), (16
      : Byte), (130 : Byte), (84 : Byte), (118 : Byte), (4 : Byte), (0 : Byte)]) ∧
    (padTo 32 [(90 : Byte), (16 : Byte), (130 : Byte), (84 : Byte), (118 : Byte), (4 : Byte), (0 : Byte)]).getD 0 (0 : Byte) = (90 : Byte) ∧
    (4 = if (padTo 32 [(90 : Byte), (16 : Byte), (130 : Byte), (84 : Byte), (118 : Byte), (4 : Byte), (0 : Byte)]).getD 5 (0 : Byte) = (8 : Byte)
      then 8 else 4) ∧
    (0x76548210 : Word32) = BitVec.ofNat 32 (leNat (List.take 4 (List.drop 1 (padTo 32 [(90 : Byte), (16 : Byte), (130 : Byte), (84 : Byte), (118
      : Byte), (4 : Byte), (0 : Byte)])))) ∧
    State.reset.portLive 0 = false ∧
    (stLane 5 (lane0 (LaneLock.locked 0 0) false 0)).recalOk 0 ((stLane 5 (lane0 (LaneLock.locked 0 0) false 0)).rdF (preg 0 280) 3 0) = false ∧
    (stRecal 0).recalOk 0 ((stRecal 0).rdF (preg 0 280) 3 0) = true ∧ (stLane 5 (lane0 (LaneLock.locked 0 0) false 0)).rdB (preg 0 280) 31 = true ∧
    0 = ((stLane 5 (lane0 (LaneLock.locked 0 0) false 0)).port 0).autoLane ∧
    BitVec.toNat ((stLane 5 (lane0 (LaneLock.locked 0 0) false 0)).port 0).autoAt + (stLane 5 (lane0 (LaneLock.locked 0 0) false 0)).rdF (preg 0
      280) 30 16 * 0xee6b2800 ≤ BitVec.toNat (stLane 5 (lane0 (LaneLock.locked 0 0) false 0)).ft ∧
    State.reset.rdB (preg 0 280) 31 = false ∧ ((stRecal 2).lane 0 3).recal = 2 ∧
    (stUp 0 5 pUp).linkIn 0 (3 : Byte) false (slotOf (fLink (3 : Byte) [(2 : Byte)])) = (some (padTo 240 [(3 : Byte), (2 : Byte)]), linkU (stUp 0
      5 pUp) 3 false (fLink (3 : Byte) [(2 : Byte)])) ∧
    2 = BitVec.toNat ((padTo 240 [(3 : Byte), (2 : Byte)]).getD 1 (0 : Byte)) ∧
    (laneStripe ((linkU (stUp 0 5 pUp) 3 false (fLink (3 : Byte) [(2 : Byte)])).rd (preg 0 268)) ((linkU (stUp 0 5 pUp) 3 false (fLink (3 : Byte)
      [(2 : Byte)])).txLanes 0) 2).isSome = true ∧
    ((List.find? (fun y => (laneStripe ((linkU (stUp 0 5 pUp) 3 false (fLink (3 : Byte) [(2 : Byte)])).rd (preg 0 268)) ((linkU (stUp 0 5 pUp) 3
      false (fLink (3 : Byte) [(2 : Byte)])).txLanes 0) y).isNone && !((linkU (stUp 0 5 pUp) 3 false (fLink (3 : Byte) [(2 : Byte)])).port
      0).named.contains y) (List.range 9)).isSome = true) ∧
    isHall 0 = true ∧ (linkU (stUp 0 5 pUp) 3 false (fLink (3 : Byte) [(2 : Byte)])).markerSlot 0 = false ∧
    (stUp 0 5 pUp).linkIn 0 (3 : Byte) false (slotOf (fLink (3 : Byte) [(8 : Byte)])) = (some (padTo 240 [(3 : Byte), (8 : Byte)]), linkU (stUp 0
      5 pUp) 3 false (fLink (3 : Byte) [(8 : Byte)])) ∧
    8 = BitVec.toNat ((padTo 240 [(3 : Byte), (8 : Byte)]).getD 1 (0 : Byte)) ∧
    laneStripe ((linkU (stUp 0 5 pUp) 3 false (fLink (3 : Byte) [(8 : Byte)])).rd (preg 0 268)) ((linkU (stUp 0 5 pUp) 3 false (fLink (3 : Byte)
      [(8 : Byte)])).txLanes 0) 8 = none ∧
    (stNamed [8]).linkIn 0 (3 : Byte) false (slotOf (fLink (3 : Byte) [(2 : Byte)])) = (some (padTo 240 [(3 : Byte), (2 : Byte)]), linkU (stNamed
      [8]) 3 false (fLink (3 : Byte) [(2 : Byte)])) := by decide +kernel
theorem witness_FlitsReceived :
    Instr.idle 35 [] ∈ FlitCmds 35 [] ∧ State.reset.portState 35 ≠ 4 ∧ State.reset.portState 35 ≠ 5 ∧ State.reset.portState 35 ≠ 7 ∧
    Instr.data 0 (slotOf fBad) ∈ FlitCmds 0 (slotOf fBad) ∧
    Instr.nak 0 (slotOf (mkFlit (4 : Byte) (0 : Byte) 0 0 0 [])) ∈ FlitCmds 0 (slotOf (mkFlit (4 : Byte) (0 : Byte) 0 0 0 [])) ∧
    Instr.hello 0 (lswSlot 0 (8 : Byte)) ∈ FlitCmds 0 (lswSlot 0 (8 : Byte)) ∧ Instr.rttEcho 0 [] ∈ FlitCmds 0 [] ∧ stRoom.portState 0 = 5 ∧
    slotKind (stRoom.rd (preg 0 272)) (stRoom.rxLanes 0) [] = SlotKind.lost ∧ (stUp 0 5 pUp).portState 0 = 5 ∧
    slotKind ((stUp 0 5 pUp).rd (preg 0 272)) ((stUp 0 5 pUp).rxLanes 0) (slotOf (mkFlit (3 : Byte) (0 : Byte) 0 6 1 [(5 : Byte)])) =
      SlotKind.flit (mkFlit (3 : Byte) (0 : Byte) 0 6 1 [(5 : Byte)]) ∧
    (mkFlit (3 : Byte) (0 : Byte) 0 6 1 [(5 : Byte)]).crc = flitCrc (mkFlit (3 : Byte) (0 : Byte) 0 6 1 [(5 : Byte)]) ∧
    BitVec.toNat (mkFlit (3 : Byte) (0 : Byte) 0 6 1 [(5 : Byte)]).type ≤ 3 ∧ bit (mkFlit (3 : Byte) (0 : Byte) 0 6 1 [(5 : Byte)]).flg 5 = false ∧
    ((stUp 0 5 pUp).port 0).encOn = false ∧ (mkFlit (3 : Byte) (0 : Byte) 0 6 1 [(5 : Byte)]).lseq.toNat = ((stUp 0 5 pUp).port 0).rxExp ∧
    slotKind ((stUp 0 5 pUp).rd (preg 0 272)) ((stUp 0 5 pUp).rxLanes 0) (slotOf (mkFlit (1 : Byte) (0 : Byte) (2 ^ 24 - 1) 6 1 [(5 : Byte)])) =
      SlotKind.flit (mkFlit (1 : Byte) (0 : Byte) (2 ^ 24 - 1) 6 1 [(5 : Byte)]) ∧
    (mkFlit (1 : Byte) (0 : Byte) (2 ^ 24 - 1) 6 1 [(5 : Byte)]).crc = flitCrc (mkFlit (1 : Byte) (0 : Byte) (2 ^ 24 - 1) 6 1 [(5 : Byte)]) ∧
    BitVec.toNat (mkFlit (1 : Byte) (0 : Byte) (2 ^ 24 - 1) 6 1 [(5 : Byte)]).type ≤ 3 ∧
    bit (mkFlit (1 : Byte) (0 : Byte) (2 ^ 24 - 1) 6 1 [(5 : Byte)]).flg 5 = false ∧
    (mkFlit (1 : Byte) (0 : Byte) (2 ^ 24 - 1) 6 1 [(5 : Byte)]).lseq.toNat ≠ ((stUp 0 5 pUp).port 0).rxExp ∧
    (((stUp 0 5 pUp).port 0).rxExp + 2 ^ 24 - (mkFlit (1 : Byte) (0 : Byte) (2 ^ 24 - 1) 6 1 [(5 : Byte)]).lseq.toNat) % 2 ^ 24 ≤ 2 ^ 23 ∧
    slotKind ((stUp 0 5 pUp).rd (preg 0 272)) ((stUp 0 5 pUp).rxLanes 0) (slotOf (mkFlit (1 : Byte) (0 : Byte) (2 ^ 23) 6 1 [(5 : Byte)])) =
      SlotKind.flit (mkFlit (1 : Byte) (0 : Byte) (2 ^ 23) 6 1 [(5 : Byte)]) ∧
    (mkFlit (1 : Byte) (0 : Byte) (2 ^ 23) 6 1 [(5 : Byte)]).crc = flitCrc (mkFlit (1 : Byte) (0 : Byte) (2 ^ 23) 6 1 [(5 : Byte)]) ∧
    BitVec.toNat (mkFlit (1 : Byte) (0 : Byte) (2 ^ 23) 6 1 [(5 : Byte)]).type ≤ 3 ∧
    bit (mkFlit (1 : Byte) (0 : Byte) (2 ^ 23) 6 1 [(5 : Byte)]).flg 5 = false ∧
    (mkFlit (1 : Byte) (0 : Byte) (2 ^ 23) 6 1 [(5 : Byte)]).lseq.toNat ≠ ((stUp 0 5 pUp).port 0).rxExp ∧
    (((stUp 0 5 pUp).port 0).rxExp + 2 ^ 24 - (mkFlit (1 : Byte) (0 : Byte) (2 ^ 23) 6 1 [(5 : Byte)]).lseq.toNat) % 2 ^ 24 ≤ 2 ^ 23 ∧
    slotKind ((stUp 0 5 pUp).rd (preg 0 272)) ((stUp 0 5 pUp).rxLanes 0) (slotOf (mkFlit (1 : Byte) (0 : Byte) (2 ^ 23 - 1) 6 1 [(5 : Byte)])) =
      SlotKind.flit (mkFlit (1 : Byte) (0 : Byte) (2 ^ 23 - 1) 6 1 [(5 : Byte)]) ∧
    (mkFlit (1 : Byte) (0 : Byte) (2 ^ 23 - 1) 6 1 [(5 : Byte)]).crc = flitCrc (mkFlit (1 : Byte) (0 : Byte) (2 ^ 23 - 1) 6 1 [(5 : Byte)]) ∧
    BitVec.toNat (mkFlit (1 : Byte) (0 : Byte) (2 ^ 23 - 1) 6 1 [(5 : Byte)]).type ≤ 3 ∧
    bit (mkFlit (1 : Byte) (0 : Byte) (2 ^ 23 - 1) 6 1 [(5 : Byte)]).flg 5 = false ∧
    (mkFlit (1 : Byte) (0 : Byte) (2 ^ 23 - 1) 6 1 [(5 : Byte)]).lseq.toNat ≠ ((stUp 0 5 pUp).port 0).rxExp ∧
    2 ^ 23 < (((stUp 0 5 pUp).port 0).rxExp + 2 ^ 24 - (mkFlit (1 : Byte) (0 : Byte) (2 ^ 23 - 1) 6 1 [(5 : Byte)]).lseq.toNat) % 2 ^ 24 ∧
    slotKind ((stUp 0 5 pUp).rd (preg 0 272)) ((stUp 0 5 pUp).rxLanes 0) (slotOf fIdle) = SlotKind.flit fIdle ∧ fIdle.crc = flitCrc fIdle ∧
    BitVec.toNat fIdle.type ≤ 3 ∧ bit fIdle.flg 5 = false ∧ fIdle.type = (0 : Byte) ∧ (stTags 14).portState 0 = 5 ∧
    slotKind ((stTags 14).rd (preg 0 272)) ((stTags 14).rxLanes 0) (slotOf (fData (8 : Byte) 0 [(1 : Byte)])) = SlotKind.flit (fData (8 : Byte) 0
      [(1 : Byte)]) ∧
    (fData (8 : Byte) 0 [(1 : Byte)]).crc = flitCrc (fData (8 : Byte) 0 [(1 : Byte)]) ∧ (fData (8 : Byte) 0 [(1 : Byte)]).type = (1 : Byte) ∧
    bit (fData (8 : Byte) 0 [(1 : Byte)]).flg 5 = false ∧ ((stTags 14).port 0).encOn = true ∧ (stTags 15).portState 0 = 5 ∧
    slotKind ((stTags 15).rd (preg 0 272)) ((stTags 15).rxLanes 0) (slotOf (fData (8 : Byte) 0 [(1 : Byte)])) = SlotKind.flit (fData (8 : Byte) 0
      [(1 : Byte)]) ∧
    ((stTags 15).port 0).encOn = true ∧
    stRoom.receive 0 1 true false (slotOf (fData (24 : Byte) 0 msgBytes)) = (some (fData (24 : Byte) 0 msgBytes, padTo 240 msgBytes), rxU stRoom 1
      true (fData (24 : Byte) 0 msgBytes)) ∧
    (rxU stRoom 1 true (fData (24 : Byte) 0 msgBytes)).creditFor 0 (fld (fData (24 : Byte) 0 msgBytes).flg 2 0) = true ∧
    stRoom.receive 0 1 true false (slotOf (fData (8 : Byte) 0 msgBytes)) = (some (fData (8 : Byte) 0 msgBytes, padTo 240 msgBytes), rxU stRoom 1
      true (fData (8 : Byte) 0 msgBytes)) ∧
    (rxU stRoom 1 true (fData (8 : Byte) 0 msgBytes)).creditFor 0 (fld (fData (8 : Byte) 0 msgBytes).flg 2 0) = true ∧
    stRoom.receive 0 1 true false (slotOf (fData (24 : Byte) 0 [(1 : Byte)])) = (some (fData (24 : Byte) 0 [(1 : Byte)], padTo 240 [(1 : Byte)]),
      rxU stRoom 1 true (fData (24 : Byte) 0 [(1 : Byte)])) ∧
    (rxU stRoom 1 true (fData (24 : Byte) 0 [(1 : Byte)])).creditFor 0 (fld (fData (24 : Byte) 0 [(1 : Byte)]).flg 2 0) = true ∧
    stRoom.receive 0 1 true false (slotOf (fData (0 : Byte) 0 [(1 : Byte)])) = (some (fData (0 : Byte) 0 [(1 : Byte)], padTo 240 [(1 : Byte)]),
      rxU stRoom 1 true (fData (0 : Byte) 0 [(1 : Byte)])) ∧
    (rxU stRoom 1 true (fData (0 : Byte) 0 [(1 : Byte)])).creditFor 0 (fld (fData (0 : Byte) 0 [(1 : Byte)]).flg 2 0) = true ∧
    stNoRoom.receive 0 1 true false (slotOf (fData (24 : Byte) 0 msgBytes)) = (some (fData (24 : Byte) 0 msgBytes, padTo 240 msgBytes), rxU
      stNoRoom 1 true (fData (24 : Byte) 0 msgBytes)) ∧
    (rxU stNoRoom 1 true (fData (24 : Byte) 0 msgBytes)).creditFor 0 (fld (fData (24 : Byte) 0 msgBytes).flg 2 0) = false ∧
    stPart.receive 0 1 true false (slotOf (fData (80 : Byte) 0 [(9 : Byte)])) = (some (fData (80 : Byte) 0 [(9 : Byte)], padTo 240 [(9 : Byte)]),
      rxU stPart 1 true (fData (80 : Byte) 0 [(9 : Byte)])) ∧
    (rxU stPart 1 true (fData (80 : Byte) 0 [(9 : Byte)])).creditFor 0 (fld (fData (80 : Byte) 0 [(9 : Byte)]).flg 2 0) = true ∧
    stPart.receive 0 1 true false (slotOf (fData (0 : Byte) 0 [(9 : Byte)])) = (some (fData (0 : Byte) 0 [(9 : Byte)], padTo 240 [(9 : Byte)]),
      rxU stPart 1 true (fData (0 : Byte) 0 [(9 : Byte)])) ∧
    (rxU stPart 1 true (fData (0 : Byte) 0 [(9 : Byte)])).creditFor 0 (fld (fData (0 : Byte) 0 [(9 : Byte)]).flg 2 0) = true ∧
    stPart1.receive 0 1 true false (slotOf (fData (16 : Byte) 0 [(9 : Byte)])) = (some (fData (16 : Byte) 0 [(9 : Byte)], padTo 240 [(9 : Byte)]),
      rxU stPart1 1 true (fData (16 : Byte) 0 [(9 : Byte)])) ∧
    (rxU stPart1 1 true (fData (16 : Byte) 0 [(9 : Byte)])).creditFor 0 (fld (fData (16 : Byte) 0 [(9 : Byte)]).flg 2 0) = true ∧
    (stUp 0 5 pUp).receive 0 2 false false (slotOf nak5) = (some (nak5, padTo 240 []), rxU (stUp 0 5 pUp) 2 false nak5) ∧
    ((((rxU (stUp 0 5 pUp) 2 false nak5).port 0).held.any fun h => h.lseq == nak5.ack.toNat || seqAfter h.lseq nak5.ack.toNat) = true) ∧
    (((rxU (stUp 0 5 pUp) 2 false nak5).port 0).replays ≠ 0 ∧ ((rxU (stUp 0 5 pUp) 2 false nak5).port 0).replayFrom = nak5.ack.toNat → ((rxU (stUp
      0 5 pUp) 2 false nak5).port 0).replays < 7) ∧
    stRoom.receive 0 2 false false (slotOf nak5) = (some (nak5, padTo 240 []), rxU stRoom 2 false nak5) ∧
    ((((rxU stRoom 2 false nak5).port 0).held.any fun h => h.lseq == nak5.ack.toNat || seqAfter h.lseq nak5.ack.toNat) = false) ∧
    stEight.receive 0 2 false false (slotOf nak5) = (some (nak5, padTo 240 []), rxU stEight 2 false nak5) ∧
    ((((rxU stEight 2 false nak5).port 0).held.any fun h => h.lseq == nak5.ack.toNat || seqAfter h.lseq nak5.ack.toNat) = true) ∧
    ((rxU stEight 2 false nak5).port 0).replays ≠ 0 ∧ ((rxU stEight 2 false nak5).port 0).replayFrom = nak5.ack.toNat ∧
    7 ≤ ((rxU stEight 2 false nak5).port 0).replays ∧
    (stUp 0 4 pUp).linkIn 0 (1 : Byte) true (slotOf (fHello (0 : Byte) (1 : Byte))) = (some (bHello (0 : Byte) (1 : Byte)), linkU (stUp 0 4 pUp) 1
      true (fHello (0 : Byte) (1 : Byte))) ∧
    helloOf (bHello (0 : Byte) (1 : Byte)) = helloOf (bHello (0 : Byte) (1 : Byte)) ∧
    (linkU (stUp 0 4 pUp) 1 true (fHello (0 : Byte) (1 : Byte))).portState 0 = 4 ∧
    (stUp 0 5 pUp).linkIn 0 (1 : Byte) true (slotOf (fHello (0 : Byte) (1 : Byte))) = (some (bHello (0 : Byte) (1 : Byte)), linkU (stUp 0 5 pUp) 1
      true (fHello (0 : Byte) (1 : Byte))) ∧
    (linkU (stUp 0 5 pUp) 1 true (fHello (0 : Byte) (1 : Byte))).portState 0 ≠ 4 ∧
    (stUp 0 4 pUp).linkIn 0 (1 : Byte) true (slotOf (fHello (2 : Byte) (1 : Byte))) = (some (bHello (2 : Byte) (1 : Byte)), linkU (stUp 0 4 pUp) 1
      true (fHello (2 : Byte) (1 : Byte))) ∧
    helloOf (bHello (2 : Byte) (1 : Byte)) = helloOf (bHello (2 : Byte) (1 : Byte)) ∧
    (linkU (stUp 0 4 pUp) 1 true (fHello (2 : Byte) (1 : Byte))).portState 0 = 4 ∧
    (stUp 0 4 pUp).linkIn 0 (1 : Byte) true (slotOf (fHello (0 : Byte) (2 : Byte))) = (some (bHello (0 : Byte) (2 : Byte)), linkU (stUp 0 4 pUp) 1
      true (fHello (0 : Byte) (2 : Byte))) ∧
    helloOf (bHello (0 : Byte) (2 : Byte)) = helloOf (bHello (0 : Byte) (2 : Byte)) ∧
    (linkU (stUp 0 4 pUp) 1 true (fHello (0 : Byte) (2 : Byte))).portState 0 = 4 ∧
    (stUpEnc pUp).linkIn 0 (1 : Byte) true (slotOf (fHello (2 : Byte) (1 : Byte))) = (some (bHello (2 : Byte) (1 : Byte)), linkU (stUpEnc pUp) 1
      true (fHello (2 : Byte) (1 : Byte))) ∧
    (linkU (stUpEnc pUp) 1 true (fHello (2 : Byte) (1 : Byte))).portState 0 = 4 ∧
    stFarReady.linkIn 0 (1 : Byte) true (slotOf (fHello (2 : Byte) (1 : Byte))) = (some (bHello (2 : Byte) (1 : Byte)), linkU stFarReady 1 true
      (fHello (2 : Byte) (1 : Byte))) ∧
    (linkU stFarReady 1 true (fHello (2 : Byte) (1 : Byte))).portState 0 = 4 ∧
    stNoKf.linkIn 0 (1 : Byte) true (slotOf (fHello (2 : Byte) (1 : Byte))) = (some (bHello (2 : Byte) (1 : Byte)), linkU stNoKf 1 true (fHello (2
      : Byte) (1 : Byte))) ∧
    (linkU stNoKf 1 true (fHello (2 : Byte) (1 : Byte))).portState 0 = 4 ∧
    stUnreleased.linkIn 0 (1 : Byte) true (slotOf (fHello (0 : Byte) (1 : Byte))) = (some (bHello (0 : Byte) (1 : Byte)), linkU stUnreleased 1
      true (fHello (0 : Byte) (1 : Byte))) ∧
    (linkU stUnreleased 1 true (fHello (0 : Byte) (1 : Byte))).portState 0 = 4 ∧
    stRoom.linkIn 0 (2 : Byte) false (slotOf (fLink (2 : Byte) [(0 : Byte), (0 : Byte), (0 : Byte), (1 : Byte), (2 : Byte), (3 : Byte), (4 :
      Byte), (5 : Byte), (6 : Byte), (7 : Byte), (8 : Byte), (9 : Byte)])) = (some (padTo 240 [(2 : Byte), (0 : Byte), (0 : Byte), (0 : Byte), (1 :
      Byte), (2 : Byte), (3 : Byte), (4 : Byte), (5 : Byte), (6 : Byte), (7 : Byte), (8 : Byte), (9 : Byte)]), linkU stRoom 2 false (fLink (2 :
      Byte) [(0 : Byte), (0 : Byte), (0 : Byte), (1 : Byte), (2 : Byte), (3 : Byte), (4 : Byte), (5 : Byte), (6 : Byte), (7 : Byte), (8 : Byte), (9
      : Byte)])) ∧
    (stHeldKey true).linkIn 0 (4 : Byte) true (slotOf (fLink (4 : Byte) [])) = (some (padTo 240 [(4 : Byte)]), linkU (stHeldKey true) 4 true
      (fLink (4 : Byte) [])) ∧
    0 = leNat (List.take 4 (List.drop 4 (padTo 240 [(4 : Byte)]))) ∧
    (0 : Word32) = BitVec.ofNat 32 (leNat (List.take 4 (List.drop 8 (padTo 240 [(4 : Byte)])))) ∧
    (0 : Word32) = (linkU (stHeldKey true) 4 true (fLink (4 : Byte) [])).rd R.SEM_KF_ID ∧
    (linkU (stHeldKey true) 4 true (fLink (4 : Byte) [])).portState 0 = 4 ∧
    ((linkU (stHeldKey true) 4 true (fLink (4 : Byte) [])).port 0).encOn = true ∧
    (stHeldKey false).linkIn 0 (4 : Byte) true (slotOf (fLink (4 : Byte) [])) = (some (padTo 240 [(4 : Byte)]), linkU (stHeldKey false) 4 true
      (fLink (4 : Byte) [])) ∧
    (0 : Word32) = (linkU (stHeldKey false) 4 true (fLink (4 : Byte) [])).rd R.SEM_KF_ID ∧
    (linkU (stHeldKey false) 4 true (fLink (4 : Byte) [])).portState 0 = 4 ∧
    ((linkU (stHeldKey false) 4 true (fLink (4 : Byte) [])).port 0).encOn = true ∧
    stRoom.linkIn 0 (4 : Byte) true (slotOf (fLink (4 : Byte) [(0 : Byte), (0 : Byte), (0 : Byte), (3 : Byte), (0 : Byte), (0 : Byte), (0 : Byte),
      (9 : Byte)])) = (some (padTo 240 [(4 : Byte), (0 : Byte), (0 : Byte), (0 : Byte), (3 : Byte), (0 : Byte), (0 : Byte), (0 : Byte), (9 :
      Byte)]), linkU stRoom 4 true (fLink (4 : Byte) [(0 : Byte), (0 : Byte), (0 : Byte), (3 : Byte), (0 : Byte), (0 : Byte), (0 : Byte), (9 :
      Byte)])) ∧
    3 = leNat (List.take 4 (List.drop 4 (padTo 240 [(4 : Byte), (0 : Byte), (0 : Byte), (0 : Byte), (3 : Byte), (0 : Byte), (0 : Byte), (0 :
      Byte), (9 : Byte)]))) ∧
    (9 : Word32) = BitVec.ofNat 32 (leNat (List.take 4 (List.drop 8 (padTo 240 [(4 : Byte), (0 : Byte), (0 : Byte), (0 : Byte), (3 : Byte), (0 :
      Byte), (0 : Byte), (0 : Byte), (9 : Byte)])))) ∧
    (9 : Word32) ≠ (linkU stRoom 4 true (fLink (4 : Byte) [(0 : Byte), (0 : Byte), (0 : Byte), (3 : Byte), (0 : Byte), (0 : Byte), (0 : Byte), (9
      : Byte)])).rd R.SEM_KF_ID ∧
    (stUp 0 5 pUp).linkIn 0 (4 : Byte) true (slotOf (fLink (4 : Byte) [(0 : Byte), (0 : Byte), (0 : Byte), (3 : Byte)])) = (some (padTo 240 [(4 :
      Byte), (0 : Byte), (0 : Byte), (0 : Byte), (3 : Byte)]), linkU (stUp 0 5 pUp) 4 true (fLink (4 : Byte) [(0 : Byte), (0 : Byte), (0 : Byte), (3
      : Byte)])) ∧
    3 = leNat (List.take 4 (List.drop 4 (padTo 240 [(4 : Byte), (0 : Byte), (0 : Byte), (0 : Byte), (3 : Byte)]))) ∧
    (0 : Word32) = BitVec.ofNat 32 (leNat (List.take 4 (List.drop 8 (padTo 240 [(4 : Byte), (0 : Byte), (0 : Byte), (0 : Byte), (3 : Byte)])))) ∧
    (0 : Word32) = (linkU (stUp 0 5 pUp) 4 true (fLink (4 : Byte) [(0 : Byte), (0 : Byte), (0 : Byte), (3 : Byte)])).rd R.SEM_KF_ID ∧
    (linkU (stUp 0 5 pUp) 4 true (fLink (4 : Byte) [(0 : Byte), (0 : Byte), (0 : Byte), (3 : Byte)])).portState 0 = 5 ∧
    3 = ((linkU (stUp 0 5 pUp) 4 true (fLink (4 : Byte) [(0 : Byte), (0 : Byte), (0 : Byte), (3 : Byte)])).port 0).tx.epoch + 1 ∧
    stRoom.linkIn 0 (5 : Byte) false (slotOf (fLink (5 : Byte) [(0 : Byte), (0 : Byte), (0 : Byte), (8 : Byte)])) = (some (padTo 240 [(5 : Byte),
      (0 : Byte), (0 : Byte), (0 : Byte), (8 : Byte)]), linkU stRoom 5 false (fLink (5 : Byte) [(0 : Byte), (0 : Byte), (0 : Byte), (8 : Byte)])) ∧
    (stUp 0 5 pUp).linkIn 0 (6 : Byte) false (slotOf (fLink (6 : Byte) [])) = (some (padTo 240 [(6 : Byte)]), linkU (stUp 0 5 pUp) 6 false (fLink
      (6 : Byte) [])) ∧
    ((linkU (stUp 0 5 pUp) 6 false (fLink (6 : Byte) [])).port 0).pingAt = some (5 : Word64) := by decide +kernel
theorem witness_FlitsSent :
    stMarker.markerSlot 31 = true ∧ State.reset.portSends 35 = false ∧ stLpi.portSends 31 = true ∧ stLpi.markerSlot 31 = false ∧
    (32 ≤ 31 → stLpi.ms.evacuating = []) ∧ stLpi.portState 31 ≠ 4 ∧ stLpi.portState 31 ≠ 5 ∧ (stPort 35 3 (pLocked 4)).portSends 35 = true ∧
    (stPort 35 3 (pLocked 4)).markerSlot 35 = false ∧ (stPort 35 3 (pLocked 4)).ms.evacuating = [] ∧ (stPort 35 3 (pLocked 4)).portState 35 ≠ 4 ∧
    (stPort 35 3 (pLocked 4)).portState 35 ≠ 5 ∧ (stSend pSecond).portSends 31 = true ∧ (stSend pSecond).markerSlot 31 = false ∧
    (32 ≤ 31 → (stSend pSecond).ms.evacuating = []) ∧ ((stSend pSecond).port 31).half ≠ [] ∧ (stSend (pSend [] [] [] true)).portState 31 = 5 ∧
    (stSend (pSend [] [] [] true)).markerSlot 31 = false ∧ (32 ≤ 31 → (stSend (pSend [] [] [] true)).ms.evacuating = []) ∧
    ((stSend (pSend [] [] [] true)).port 31).half = [] ∧ (stSend (pSend [] [] [] true)).txLanes 31 = 8 ∧
    (stSend (pSend [] [] [] true)).rdB (preg 31 256) 29 = false ∧ ((stSend (pSend [] [] [] true)).port 31).tx.on = false ∧
    ((stSend (pSend [] [] [] true)).port 31).encOn = false ∧ (stSend (pSend [hf0 true] [[(5 : Byte)]] [tx0 0 true] false)).portState 31 = 5 ∧
    (stSend (pSend [hf0 true] [[(5 : Byte)]] [tx0 0 true] false)).markerSlot 31 = false ∧
    (32 ≤ 31 → (stSend (pSend [hf0 true] [[(5 : Byte)]] [tx0 0 true] false)).ms.evacuating = []) ∧
    ((stSend (pSend [hf0 true] [[(5 : Byte)]] [tx0 0 true] false)).port 31).half = [] ∧
    (stSend (pSend [hf0 true] [[(5 : Byte)]] [tx0 0 true] false)).txLanes 31 = 8 ∧
    (stSend (pSend [hf0 true] [[(5 : Byte)]] [tx0 0 true] false)).rdB (preg 31 256) 29 = false ∧
    ((stSend (pSend [hf0 true] [[(5 : Byte)]] [tx0 0 true] false)).port 31).tx.on = false ∧
    ((stSend (pSend [hf0 true] [[(5 : Byte)]] [tx0 0 true] false)).port 31).encOn = false ∧
    (stSend (pSend [hf0 false] [[(5 : Byte)], [(6 : Byte)]] [tx0 0 true] false)).portState 31 = 5 ∧
    (stSend (pSend [hf0 false] [[(5 : Byte)], [(6 : Byte)]] [tx0 0 true] false)).markerSlot 31 = false ∧
    (32 ≤ 31 → (stSend (pSend [hf0 false] [[(5 : Byte)], [(6 : Byte)]] [tx0 0 true] false)).ms.evacuating = []) ∧
    ((stSend (pSend [hf0 false] [[(5 : Byte)], [(6 : Byte)]] [tx0 0 true] false)).port 31).half = [] ∧
    (stSend (pSend [hf0 false] [[(5 : Byte)], [(6 : Byte)]] [tx0 0 true] false)).txLanes 31 = 8 ∧
    (stSend (pSend [hf0 false] [[(5 : Byte)], [(6 : Byte)]] [tx0 0 true] false)).rdB (preg 31 256) 29 = false ∧
    ((stSend (pSend [hf0 false] [[(5 : Byte)], [(6 : Byte)]] [tx0 0 true] false)).port 31).tx.on = false ∧
    ((stSend (pSend [hf0 false] [[(5 : Byte)], [(6 : Byte)]] [tx0 0 true] false)).port 31).encOn = false ∧
    (stSend (pSend [] [] [] false)).portState 31 = 5 ∧ (stSend (pSend [] [] [] false)).markerSlot 31 = false ∧
    (32 ≤ 31 → (stSend (pSend [] [] [] false)).ms.evacuating = []) ∧ ((stSend (pSend [] [] [] false)).port 31).half = [] ∧
    (stSend (pSend [] [] [] false)).txLanes 31 = 8 ∧ (stSend (pSend [] [] [] false)).rdB (preg 31 256) 29 = false ∧
    ((stSend (pSend [] [] [] false)).port 31).tx.on = false ∧ ((stSend (pSend [] [] [] false)).port 31).encOn = false ∧
    (stSend (pSend [hf0 false] [] [tx0 0 false] false)).portState 31 = 5 ∧
    (stSend (pSend [hf0 false] [] [tx0 0 false] false)).markerSlot 31 = false ∧
    (32 ≤ 31 → (stSend (pSend [hf0 false] [] [tx0 0 false] false)).ms.evacuating = []) ∧
    ((stSend (pSend [hf0 false] [] [tx0 0 false] false)).port 31).half = [] ∧ (stSend (pSend [hf0 false] [] [tx0 0 false] false)).txLanes 31 = 8 ∧
    (stSend (pSend [hf0 false] [] [tx0 0 false] false)).rdB (preg 31 256) 29 = false ∧
    ((stSend (pSend [hf0 false] [] [tx0 0 false] false)).port 31).tx.on = false ∧
    ((stSend (pSend [hf0 false] [] [tx0 0 false] false)).port 31).encOn = false ∧ (stSend pKeyed).portState 31 = 5 ∧
    (stSend pKeyed).markerSlot 31 = false ∧ (32 ≤ 31 → (stSend pKeyed).ms.evacuating = []) ∧ ((stSend pKeyed).port 31).half = [] ∧
    (stSend pKeyed).txLanes 31 = 8 ∧ (stSend pKeyed).rdB (preg 31 256) 29 = false ∧ ((stSend pKeyed).port 31).tx.on = true ∧
    ((stSend pKeyed).port 31).tx.due = false ∧ ((stSend pKeyed).port 31).tx.ctr + 1 < 2 ^ 48 ∧ ((stSend pKeyed).port 31).nakDue = false ∧
    (List.find? (fun x => x.wait) ((stSend pKeyed).port 31).held = none) ∧ ((stSend pKeyed).port 31).linkQ = [] ∧
    ((stSend pKeyed).port 31).txQ = [] ∧ stHello.portState 0 = 4 ∧ stHello.markerSlot 0 = false ∧ (32 ≤ 0 → stHello.ms.evacuating = []) ∧
    (stHello.port 0).half = [] ∧ stHello.txLanes 0 = 8 ∧ (stHello.port 0).tx.on = false ∧ (stHello.port 0).encOn = false ∧ stHello.released = true ∧
    stHello.pkgValid = true ∧ (stHello.port 0).helloSent = false ∧ stHello.rdB (preg 0 256) 29 = false ∧ (stHello.port 0).nakDue = false ∧
    (List.find? (fun x => x.wait) (stHello.port 0).held = none) ∧ (stHello.port 0).linkQ = [] ∧ (stHello.port 0).held.length < stHello.portFlits 0 ∧
    stStale.portState 31 = 5 ∧ (stStale.port 31).held = [hf0 false] ∧
    BitVec.toNat (stStale.port 31).ackAt + stStale.rdF (preg 31 300) 23 0 * 4 ≤ BitVec.toNat stStale.ft ∧
    ((stStale.port 31).replays ≠ 0 → (stStale.port 31).replayFrom = (hf0 false).lseq → (stStale.port 31).replays < 7) ∧
    ((stSend (pLocked 9)).port 31).held = [] ∧ (stOldKey.port 35).rx.on = true ∧ (stOldKey.port 35).rx.nextReady = false ∧
    BitVec.toNat (stOldKey.port 35).rx.since + 0x3d0900 ≤ BitVec.toNat stOldKey.ft ∧ ((stSend pWorn).port 31).tx.on = true ∧
    2 ^ 47 ≤ ((stSend pWorn).port 31).tx.ctr ∧ true = true := by decide +kernel
/-! ### Chapter 07 -/

/-- A message of class `cls` for package `dest`. -/
def msg0 (dest hops cls : Nat) : Msg := ⟨dest, 0, hops, cls, 2, 0, [3], false, []⟩
/-- A message at the router, come by port `inp`, two flits of it, with more to come or not. -/
def rm0 (m : Msg) (inp : Nat) (more : Bool) : RMsg := ⟨m, inp, 0, more, 3, 2⟩
/-- This package is 0 of 32 with port 0 in a STATE, and a message at the router. -/
def stRoute (st : Nat) (r : RMsg) (ft : Word64) : State := { stUp 0 st Port.none with router := [(0, r)], ft := ft }
/-- Package 1 is reached by two live ports; package 0 of 1,024, nothing on the way to package 33 but by package 1 or 32. -/
def stDetour : State :=
  { stPortR 0 5 Port.none [(R.FBD_PKG_ID, 0x80000000), (R.FBD_SHAPE, 0x0001F005)] with
    nbr := [(1, 2), (2, 1)], router := [(0, rm0 (msg0 1 0 0x10) 36 false)] }
/-- Port 35 HELD before the package's number is written, with the HELLO of its far end taken. -/
def stNoId : State :=
  stPort 35 4 { pLocked 4 with hello := some ⟨1, 0, 0, true, false, false, 0⟩, ded := [0] }
/-- Package 1 is declared lost; tile 0 is away at it, and a guest of its is here. -/
def stLost : State :=
  { stUp 0 5 Port.none with
    regs := (stUp 0 5 Port.none).regs ++ [(R.FBD_FLOW_SEL, 1)], lostPkgs := [1], guests := [(2 ^ 29, ⟨4097, 0, false, 0, none, 0⟩)]
    ms := { MemSys.reset with tiles := [(0, ⟨.away, false, 1, false⟩)], frames := [(4097, ⟨.guest (2 ^ 29), 0, false, false⟩)] } }
/-- A remote request. -/
def rem0 (eseq addr len aop : Nat) (data : List Byte) : RemMsg := ⟨eseq, 0, BitVec.ofNat 64 addr, len, aop, 0, 0, 3, 0, data, []⟩
/-- The target in a domain of 32 packages, with a flow from package 1. -/
def stIn (f : FlowIn) : State := { stMem with regs := stMem.regs ++ [(R.FBD_PKG_ID, 0x80000000), (R.FBD_SHAPE, 0x0001F005)], flowIn := [(1, f)] }
/-- The last ESEQ expected of package 1. -/
def fi0 (nacked : Bool) : FlowIn := ⟨0xFFFFFF, nacked, []⟩
/-- A guest of package 1's tile 0, PENDING or not, sent to another or not. -/
def stGuest (pending : Bool) (dst : Option Nat) (ft : Word64) : State :=
  { stIn (fi0 false) with
    ft := ft, guests := [(2 ^ 29, ⟨4097, 0, pending, 7, dst, 0⟩)]
    ms := { stMem.ms with frames := [(4096, ⟨.tile 0, 0, false, false⟩), (4097, ⟨.guest (2 ^ 29), 0, false, false⟩)] } }
/-- An address of that tile, in the space of package 1. -/
def gAddr : Nat := 2 ^ 52
/-- An owner without a frame left. -/
def stNoQuota : State := { stIn (fi0 false) with ms := { stMem.ms with own := [(0, ⟨1, 1000, 0, 0⟩)] } }
/-- Tile 0 on its way back to this package, sent. -/
def stBack : State :=
  { stIn (fi0 false) with
    away := [(0, ⟨0, some 1, 2, none, 4097⟩)]
    ms := { stMem.ms with tiles := [(0, ⟨.away, false, 1, false⟩)], frames := [(4097, ⟨.dest 0, 0, false, false⟩)] } }
/-- The message of a kept response. -/
def kept0 : CachedRsp := ⟨0xFFFFFE, msg0 1 0 0x1A⟩
/-- The flow that keeps it. -/
def stKept : State := stIn ⟨0, false, [kept0]⟩
/-- Requests outstanding to package 1: a read for an access that was held. -/
def outHeld : OutReq := ⟨3, 0x10, 0, rem0 3 0 1 0 [], 0, .held accR, none, 0, 0⟩
/-- The same, answered before. -/
def outDone : OutReq := ⟨1, 0x10, 0, rem0 1 0 1 0 [], 0, .held accR, none, 0, 0⟩
/-- The offer of tile 0. -/
def outOffer : OutReq := ⟨4, 0x14, 0, rem0 4 0 0 0 [], 0, .offer 0, none, 4, 0⟩
/-- The commit of tile 0. -/
def outCommit : OutReq := ⟨5, 0x16, 0, rem0 5 0 0 0 [], 0, .commit 0, none, 4, 0⟩
/-- A read of operator 0, to the end of tile 0. -/
def outOp : OutReq := ⟨6, 0x10, 0, rem0 6 0 2 0 [], 0, .op 0 0xFFFE, none, 4, 0⟩
/-- The flow with some requests, tile 0 moving to package 1 at a step, at a fabric time. -/
def stOut (l : List OutReq) (step : Nat) (ft : Word64) : State :=
  { withOp (stIn (fi0 false)) (rec0 0x0020) with
    ft := ft, flowOut := [(1, ⟨7, l, [outDone]⟩)], away := [(0, ⟨1, none, step, none, 4096⟩)]
    ms := { stMem.ms with tiles := [(0, ⟨if step < 3 then .movingD else .away, false, if step < 3 then 4096 else 1, false⟩)] } }
/-- The flow of an operator's read alone, no move. -/
def stOutOp (ft : Word64) : State := { withOp (stIn (fi0 false)) (rec0 0x0020) with ft := ft, flowOut := [(1, ⟨7, [outOp], [outDone]⟩)] }
/-- Its operator. -/
def opRead : RunOp := opOf (rec0 0x0020)
/-- A response. -/
def rsp0 (eseq code old : Nat) : RspMsg := ⟨eseq, code, 0, BitVec.ofNat 64 old, [9, 8], []⟩
/-- MV_DATA's request, of the guest's tile, and of this package's. -/
def mvMsg (a : Nat) : RemMsg := rem0 7 a 0 0 (List.replicate 65536 5)
/-- The guest offered and not yet sent. -/
def guest0 (pending : Bool) (dst : Option Nat) : Guest := ⟨4097, 0, pending, 7, dst, 0⟩
/-- MV of tile 0 to package 1. -/
def mvReq (d : Nat) : RemMsg := ⟨0xFFFFFF, 0, 0, 0, 0, 0, 0, BitVec.ofNat 64 d, 0, [], []⟩
theorem witness_RouterCommands :
    shapeOk (0x80000000 : Word32) = false ∧ (stUp 0 5 Port.none).pkgValid = true ∧ State.reset.pkgValid = false ∧
    (∀ p < 36, State.reset.portState p ≠ 4 ∨ (State.reset.port p).hello = none) ∧ shapeOk (0x1f005 : Word32) = true ∧
    (msg0 0 0 16).dest / 4096 % 8 = (stUp 0 5 Port.none).domain ∧ (msg0 0 0 16).dest % 4096 = (stUp 0 5 Port.none).pkg ∧
    (msg0 4096 0 16).dest / 4096 % 8 ≠ (stUp 0 5 Port.none).domain ∧ (msg0 1 0 16).dest / 4096 % 8 = (stUp 0 5 Port.none).domain ∧
    (msg0 1 0 16).dest % 4096 ≠ (stUp 0 5 Port.none).pkg ∧
    (List.find? (fun d => digit ((stUp 0 5 Port.none).rd R.FBD_SHAPE) d (stUp 0 5 Port.none).pkg != digit ((stUp 0 5 Port.none).rd R.FBD_SHAPE) d
      ((msg0 1 0 16).dest % 4096)) (List.range 4) = some 0) ∧
    (stUp 0 5 Port.none).livePorts 0 (digit ((stUp 0 5 Port.none).rd R.FBD_SHAPE) 0 ((msg0 1 0 16).dest % 4096)) ≠ [] ∧
    (stRoute 5 (rm0 (msg0 1 15 16) 35 false) (0 : Word64)).router.get? 0 = some (rm0 (msg0 1 15 16) 35 false) ∧
    (rm0 (msg0 1 15 16) 35 false).inPort < 36 ∧ 15 ≤ (rm0 (msg0 1 15 16) 35 false).m.hops ∧
    BitVec.toNat (stRoute 5 (rm0 (msg0 1 15 16) 35 false) (0 : Word64)).ft < BitVec.toNat (rm0 (msg0 1 15 16) 35 false).since + (stRoute 5 (rm0
      (msg0 1 15 16) 35 false) (0 : Word64)).rdF R.FBD_ROUTE_WAIT 9 0 * 0x3d0900 ∧
    (stRoute 5 (rm0 (msg0 1 14 17) 36 true) (0 : Word64)).router.get? 0 = some (rm0 (msg0 1 14 17) 36 true) ∧
    BitVec.toNat (stRoute 5 (rm0 (msg0 1 14 17) 36 true) (0 : Word64)).ft < BitVec.toNat (rm0 (msg0 1 14 17) 36 true).since + (stRoute 5 (rm0
      (msg0 1 14 17) 36 true) (0 : Word64)).rdF R.FBD_ROUTE_WAIT 9 0 * 0x3d0900 ∧
    (stRoute 5 (rm0 (msg0 1 14 17) 35 true) (0 : Word64)).router.get? 0 = some (rm0 (msg0 1 14 17) 35 true) ∧
    BitVec.toNat (stRoute 5 (rm0 (msg0 1 14 17) 35 true) (0 : Word64)).ft < BitVec.toNat (rm0 (msg0 1 14 17) 35 true).since + (stRoute 5 (rm0
      (msg0 1 14 17) 35 true) (0 : Word64)).rdF R.FBD_ROUTE_WAIT 9 0 * 0x3d0900 ∧
    (stRoute 5 (rm0 (msg0 0 0 72) 35 false) (0 : Word64)).router.get? 0 = some (rm0 (msg0 0 0 72) 35 false) ∧
    (rm0 (msg0 0 0 72) 35 false).m.hops < 15 ∧ State.listedClass (rm0 (msg0 0 0 72) 35 false).m.cls = true ∧
    (stRoute 5 (rm0 (msg0 0 0 72) 35 false) (0 : Word64)).route (rm0 (msg0 0 0 72) 35 false).inPort (rm0 (msg0 0 0 72) 35 false).m = Route.here ∧
    BitVec.toNat (stRoute 5 (rm0 (msg0 0 0 72) 35 false) (0 : Word64)).ft < BitVec.toNat (rm0 (msg0 0 0 72) 35 false).since + (stRoute 5 (rm0
      (msg0 0 0 72) 35 false) (0 : Word64)).rdF R.FBD_ROUTE_WAIT 9 0 * 0x3d0900 ∧
    (stRoute 5 (rm0 (msg0 4097 0 16) 32 false) (0 : Word64)).router.get? 0 = some (rm0 (msg0 4097 0 16) 32 false) ∧
    (rm0 (msg0 4097 0 16) 32 false).m.hops < 15 ∧ State.listedClass (rm0 (msg0 4097 0 16) 32 false).m.cls = true ∧
    (stRoute 5 (rm0 (msg0 4097 0 16) 32 false) (0 : Word64)).route (rm0 (msg0 4097 0 16) 32 false).inPort (rm0 (msg0 4097 0 16) 32 false).m =
      Route.transit ∧
    BitVec.toNat (stRoute 5 (rm0 (msg0 4097 0 16) 32 false) (0 : Word64)).ft < BitVec.toNat (rm0 (msg0 4097 0 16) 32 false).since + (stRoute 5
      (rm0 (msg0 4097 0 16) 32 false) (0 : Word64)).rdF R.FBD_ROUTE_WAIT 9 0 * 0x3d0900 ∧
    (stRoute 5 (rm0 (msg0 2 0 16) 36 false) (0 : Word64)).router.get? 0 = some (rm0 (msg0 2 0 16) 36 false) ∧
    BitVec.toNat (stRoute 5 (rm0 (msg0 2 0 16) 36 false) (0 : Word64)).ft < BitVec.toNat (rm0 (msg0 2 0 16) 36 false).since + (stRoute 5 (rm0
      (msg0 2 0 16) 36 false) (0 : Word64)).rdF R.FBD_ROUTE_WAIT 9 0 * 0x3d0900 ∧
    stDetour.router.get? 0 = some (rm0 (msg0 1 0 16) 36 false) ∧
    BitVec.toNat stDetour.ft < BitVec.toNat (rm0 (msg0 1 0 16) 36 false).since + stDetour.rdF R.FBD_ROUTE_WAIT 9 0 * 0x3d0900 ∧
    (stRoute 6 (rm0 (msg0 1 0 16) 36 false) (0 : Word64)).router.get? 0 = some (rm0 (msg0 1 0 16) 36 false) ∧
    36 ≤ (rm0 (msg0 1 0 16) 36 false).inPort ∧
    (stRoute 6 (rm0 (msg0 1 0 16) 36 false) (0 : Word64)).route (rm0 (msg0 1 0 16) 36 false).inPort (rm0 (msg0 1 0 16) 36 false).m = Route.wait ∧
    BitVec.toNat (stRoute 6 (rm0 (msg0 1 0 16) 36 false) (0 : Word64)).ft < BitVec.toNat (rm0 (msg0 1 0 16) 36 false).since + (stRoute 6 (rm0
      (msg0 1 0 16) 36 false) (0 : Word64)).rdF R.FBD_ROUTE_WAIT 9 0 * 0x3d0900 ∧
    (stRoute 6 (rm0 (msg0 1 0 16) 36 false) (0xee6b2800 : Word64)).router.get? 0 = some (rm0 (msg0 1 0 16) 36 false) ∧
    (stRoute 6 (rm0 (msg0 1 0 16) 36 false) (0xee6b2800 : Word64)).route (rm0 (msg0 1 0 16) 36 false).inPort (rm0 (msg0 1 0 16) 36 false).m =
      Route.wait ∧
    BitVec.toNat (rm0 (msg0 1 0 16) 36 false).since + (stRoute 6 (rm0 (msg0 1 0 16) 36 false) (0xee6b2800 : Word64)).rdF R.FBD_ROUTE_WAIT 9 0 *
      0x3d0900 ≤ BitVec.toNat (stRoute 6 (rm0 (msg0 1 0 16) 36 false) (0xee6b2800 : Word64)).ft ∧
    (stRoute 6 (rm0 (msg0 4097 0 16) 36 false) (0 : Word64)).router.get? 0 = some (rm0 (msg0 4097 0 16) 36 false) ∧
    36 ≤ (rm0 (msg0 4097 0 16) 36 false).inPort ∧
    (stRoute 6 (rm0 (msg0 4097 0 16) 36 false) (0 : Word64)).route (rm0 (msg0 4097 0 16) 36 false).inPort (rm0 (msg0 4097 0 16) 36 false).m =
      Route.noRoute ∧
    BitVec.toNat (stRoute 6 (rm0 (msg0 4097 0 16) 36 false) (0 : Word64)).ft < BitVec.toNat (rm0 (msg0 4097 0 16) 36 false).since + (stRoute 6
      (rm0 (msg0 4097 0 16) 36 false) (0 : Word64)).rdF R.FBD_ROUTE_WAIT 9 0 * 0x3d0900 ∧
    stLost.ms.tiles.wf = true ∧ stLost.slots = [] ∧ stLost.away = [] ∧ stLost.remTodo = [] ∧ stLost.reqWait = [] ∧
    (stLost.flow (stLost.rdF R.FBD_FLOW_SEL 11 0)).reqs = [] := by decide +kernel
theorem witness_RemoteTarget :
    Instr.rd 1 0 (rem0 0 0 0 0 []) ∈ [Instr.rd 1 0 (rem0 0 0 0 0 []), Instr.wr 1 0 (rem0 0 0 0 0 []), Instr.atomicAdd 1 0 (rem0 0 0 0 0 []),
      Instr.atomicFadd 1 0 (rem0 0 0 0 0 []), Instr.atomicSmin 1 0 (rem0 0 0 0 0 []), Instr.atomicSmax 1 0 (rem0 0 0 0 0 []), Instr.atomicUmin 1 0
      (rem0 0 0 0 0 []), Instr.atomicUmax 1 0 (rem0 0 0 0 0 []), Instr.atomicAnd 1 0 (rem0 0 0 0 0 []), Instr.atomicOr 1 0 (rem0 0 0 0 0 []),
      Instr.atomicXor 1 0 (rem0 0 0 0 0 []), Instr.atomicSwap 1 0 (rem0 0 0 0 0 []), Instr.atomicCas 1 0 (rem0 0 0 0 0 []), Instr.mv 1 0 (rem0 0 0 0
      0 []), Instr.mvOffer 1 0 (rem0 0 0 0 0 []), Instr.mvSend 1 0 (rem0 0 0 0 0 []), Instr.mvCommit 1 0 (rem0 0 0 0 0 []), Instr.mvRelease 1 0
      (rem0 0 0 0 0 []), Instr.mvQuery 1 0 (rem0 0 0 0 0 [])] ∧
    0 < ((rem0 0 0 0 0 []).eseq + 2 ^ 24 - ((stIn (FlowIn.mk 0xffffff false [])).inFlow 1).exp) % 2 ^ 24 ∧
    ((rem0 0 0 0 0 []).eseq + 2 ^ 24 - ((stIn (FlowIn.mk 0xffffff false [])).inFlow 1).exp) % 2 ^ 24 < 2 ^ 23 ∧
    ((stIn (FlowIn.mk 0xffffff false [])).inFlow 1).nacked = false ∧
    Instr.mv 1 0 (rem0 0 0 0 0 []) ∈ [Instr.rd 1 0 (rem0 0 0 0 0 []), Instr.wr 1 0 (rem0 0 0 0 0 []), Instr.atomicAdd 1 0 (rem0 0 0 0 0 []),
      Instr.atomicFadd 1 0 (rem0 0 0 0 0 []), Instr.atomicSmin 1 0 (rem0 0 0 0 0 []), Instr.atomicSmax 1 0 (rem0 0 0 0 0 []), Instr.atomicUmin 1 0
      (rem0 0 0 0 0 []), Instr.atomicUmax 1 0 (rem0 0 0 0 0 []), Instr.atomicAnd 1 0 (rem0 0 0 0 0 []), Instr.atomicOr 1 0 (rem0 0 0 0 0 []),
      Instr.atomicXor 1 0 (rem0 0 0 0 0 []), Instr.atomicSwap 1 0 (rem0 0 0 0 0 []), Instr.atomicCas 1 0 (rem0 0 0 0 0 []), Instr.mv 1 0 (rem0 0 0 0
      0 []), Instr.mvOffer 1 0 (rem0 0 0 0 0 []), Instr.mvSend 1 0 (rem0 0 0 0 0 []), Instr.mvCommit 1 0 (rem0 0 0 0 0 []), Instr.mvRelease 1 0
      (rem0 0 0 0 0 []), Instr.mvQuery 1 0 (rem0 0 0 0 0 [])] ∧
    0 < ((rem0 0 0 0 0 []).eseq + 2 ^ 24 - ((stIn (FlowIn.mk 0xffffff true [])).inFlow 1).exp) % 2 ^ 24 ∧
    ((rem0 0 0 0 0 []).eseq + 2 ^ 24 - ((stIn (FlowIn.mk 0xffffff true [])).inFlow 1).exp) % 2 ^ 24 < 2 ^ 23 ∧
    ((stIn (FlowIn.mk 0xffffff true [])).inFlow 1).nacked = true ∧
    Instr.atomicCas 1 0 (rem0 0xfffffe 0 0 0 []) ∈ [Instr.rd 1 0 (rem0 0xfffffe 0 0 0 []), Instr.wr 1 0 (rem0 0xfffffe 0 0 0 []), Instr.atomicAdd
      1 0 (rem0 0xfffffe 0 0 0 []), Instr.atomicFadd 1 0 (rem0 0xfffffe 0 0 0 []), Instr.atomicSmin 1 0 (rem0 0xfffffe 0 0 0 []), Instr.atomicSmax 1
      0 (rem0 0xfffffe 0 0 0 []), Instr.atomicUmin 1 0 (rem0 0xfffffe 0 0 0 []), Instr.atomicUmax 1 0 (rem0 0xfffffe 0 0 0 []), Instr.atomicAnd 1 0
      (rem0 0xfffffe 0 0 0 []), Instr.atomicOr 1 0 (rem0 0xfffffe 0 0 0 []), Instr.atomicXor 1 0 (rem0 0xfffffe 0 0 0 []), Instr.atomicSwap 1 0
      (rem0 0xfffffe 0 0 0 []), Instr.atomicCas 1 0 (rem0 0xfffffe 0 0 0 []), Instr.mv 1 0 (rem0 0xfffffe 0 0 0 []), Instr.mvOffer 1 0 (rem0
      0xfffffe 0 0 0 []), Instr.mvSend 1 0 (rem0 0xfffffe 0 0 0 []), Instr.mvCommit 1 0 (rem0 0xfffffe 0 0 0 []), Instr.mvRelease 1 0 (rem0 0xfffffe
      0 0 0 []), Instr.mvQuery 1 0 (rem0 0xfffffe 0 0 0 [])] ∧
    2 ^ 23 ≤ ((rem0 0xfffffe 0 0 0 []).eseq + 2 ^ 24 - (stKept.inFlow 1).exp) % 2 ^ 24 ∧
    Instr.atomicCas 1 0 (rem0 0xfffffe 0 0 0 []) ≠ Instr.rd 1 0 (rem0 0xfffffe 0 0 0 []) ∧
    ((List.find? (fun r => r.eseq == (rem0 0xfffffe 0 0 0 []).eseq) (stKept.inFlow 1).cache.reverse).isSome = true) ∧
    Instr.mvQuery 1 0 (rem0 0xffffff 0 0 0 []) ∈ [Instr.rd 1 0 (rem0 0xffffff 0 0 0 []), Instr.wr 1 0 (rem0 0xffffff 0 0 0 []), Instr.atomicAdd 1
      0 (rem0 0xffffff 0 0 0 []), Instr.atomicFadd 1 0 (rem0 0xffffff 0 0 0 []), Instr.atomicSmin 1 0 (rem0 0xffffff 0 0 0 []), Instr.atomicSmax 1 0
      (rem0 0xffffff 0 0 0 []), Instr.atomicUmin 1 0 (rem0 0xffffff 0 0 0 []), Instr.atomicUmax 1 0 (rem0 0xffffff 0 0 0 []), Instr.atomicAnd 1 0
      (rem0 0xffffff 0 0 0 []), Instr.atomicOr 1 0 (rem0 0xffffff 0 0 0 []), Instr.atomicXor 1 0 (rem0 0xffffff 0 0 0 []), Instr.atomicSwap 1 0
      (rem0 0xffffff 0 0 0 []), Instr.atomicCas 1 0 (rem0 0xffffff 0 0 0 []), Instr.mv 1 0 (rem0 0xffffff 0 0 0 []), Instr.mvOffer 1 0 (rem0
      0xffffff 0 0 0 []), Instr.mvSend 1 0 (rem0 0xffffff 0 0 0 []), Instr.mvCommit 1 0 (rem0 0xffffff 0 0 0 []), Instr.mvRelease 1 0 (rem0 0xffffff
      0 0 0 []), Instr.mvQuery 1 0 (rem0 0xffffff 0 0 0 [])] ∧
    2 ^ 23 ≤ ((rem0 0xffffff 0 0 0 []).eseq + 2 ^ 24 - (stKept.inFlow 1).exp) % 2 ^ 24 ∧
    Instr.mvQuery 1 0 (rem0 0xffffff 0 0 0 []) ≠ Instr.rd 1 0 (rem0 0xffffff 0 0 0 []) ∧
    (List.find? (fun r => r.eseq == (rem0 0xffffff 0 0 0 []).eseq) (stKept.inFlow 1).cache.reverse = none) ∧
    (rem0 0xffffff 65532 4 0 [(1 : Byte), (2 : Byte), (3 : Byte), (4 : Byte)]).eseq = ((stIn (fi0 false)).inFlow 1).exp ∧
    (rem0 0xffffff 65532 4 0 [(1 : Byte), (2 : Byte), (3 : Byte), (4 : Byte)]).eseq < 2 ^ 24 ∧
    BitVec.toNat (rem0 0xffffff 65532 4 0 [(1 : Byte), (2 : Byte), (3 : Byte), (4 : Byte)]).addr / 2 ^ 52 = (stIn (fi0 false)).pkg ∧
    (stIn (fi0 false)).deny 0 (BitVec.toNat (rem0 0xffffff 65532 4 0 [(1 : Byte), (2 : Byte), (3 : Byte), (4 : Byte)]).addr % 2 ^ 52) false = none ∧
    ((stIn (fi0 false)).tile (BitVec.toNat (rem0 0xffffff 65532 4 0 [(1 : Byte), (2 : Byte), (3 : Byte), (4 : Byte)]).addr % 2 ^ 52 /
      tileBytes)).st = Home.dram ∧
    0 < (rem0 0xffffff 65532 4 0 [(1 : Byte), (2 : Byte), (3 : Byte), (4 : Byte)]).len ∧
    BitVec.toNat (rem0 0xffffff 65532 4 0 [(1 : Byte), (2 : Byte), (3 : Byte), (4 : Byte)]).addr % 2 ^ 52 % tileBytes + (rem0 0xffffff 65532 4 0
      [(1 : Byte), (2 : Byte), (3 : Byte), (4 : Byte)]).len ≤ tileBytes ∧
    (stIn (fi0 false)).anyPoison (BitVec.toNat (rem0 0xffffff 65532 4 0 [(1 : Byte), (2 : Byte), (3 : Byte), (4 : Byte)]).addr % 2 ^ 52) (rem0
      0xffffff 65532 4 0 [(1 : Byte), (2 : Byte), (3 : Byte), (4 : Byte)]).len = false ∧
    (rem0 0xffffff 65532 4 0 [(1 : Byte), (2 : Byte), (3 : Byte), (4 : Byte)]).data ≠ [] ∧
    BitVec.toNat (rem0 0xffffff 65532 4 0 [(1 : Byte), (2 : Byte), (3 : Byte), (4 : Byte)]).addr % 2 ^ 52 % tileBytes + (rem0 0xffffff 65532 4 0
      [(1 : Byte), (2 : Byte), (3 : Byte), (4 : Byte)]).data.length ≤ tileBytes ∧
    (stIn (fi0 false)).deny 0 (BitVec.toNat (rem0 0xffffff 65532 4 0 [(1 : Byte), (2 : Byte), (3 : Byte), (4 : Byte)]).addr % 2 ^ 52) true = none ∧
    (rem0 0xffffff 65528 8 16 [(1 : Byte)]).eseq = ((stIn (fi0 false)).inFlow 1).exp ∧ (rem0 0xffffff 65528 8 16 [(1 : Byte)]).eseq < 2 ^ 24 ∧
    BitVec.toNat (rem0 0xffffff 65528 8 16 [(1 : Byte)]).addr / 2 ^ 52 = (stIn (fi0 false)).pkg ∧
    (stIn (fi0 false)).deny 0 (BitVec.toNat (rem0 0xffffff 65528 8 16 [(1 : Byte)]).addr % 2 ^ 52) false = none ∧
    ((stIn (fi0 false)).tile (BitVec.toNat (rem0 0xffffff 65528 8 16 [(1 : Byte)]).addr % 2 ^ 52 / tileBytes)).st = Home.dram ∧
    0 < (rem0 0xffffff 65528 8 16 [(1 : Byte)]).len ∧
    BitVec.toNat (rem0 0xffffff 65528 8 16 [(1 : Byte)]).addr % 2 ^ 52 % tileBytes + (rem0 0xffffff 65528 8 16 [(1 : Byte)]).len ≤ tileBytes ∧
    (stIn (fi0 false)).anyPoison (BitVec.toNat (rem0 0xffffff 65528 8 16 [(1 : Byte)]).addr % 2 ^ 52) (rem0 0xffffff 65528 8 16 [(1 : Byte)]).len
      = false ∧
    (rem0 0xffffff 65528 8 16 [(1 : Byte)]).data ≠ [] ∧
    BitVec.toNat (rem0 0xffffff 65528 8 16 [(1 : Byte)]).addr % 2 ^ 52 % tileBytes + (rem0 0xffffff 65528 8 16 [(1 : Byte)]).data.length ≤
      tileBytes ∧
    (stIn (fi0 false)).deny 0 (BitVec.toNat (rem0 0xffffff 65528 8 16 [(1 : Byte)]).addr % 2 ^ 52) true = none ∧
    (rem0 0xffffff gAddr 4 0 []).eseq = ((stIn (fi0 false)).inFlow 1).exp ∧ (rem0 0xffffff gAddr 4 0 []).eseq < 2 ^ 24 ∧
    BitVec.toNat (rem0 0xffffff gAddr 4 0 []).addr / 2 ^ 52 ≠ (stIn (fi0 false)).pkg ∧ 0 < (rem0 0xffffff gAddr 4 0 []).len ∧
    BitVec.toNat (rem0 0xffffff gAddr 4 0 []).addr % tileBytes + (rem0 0xffffff gAddr 4 0 []).len ≤ tileBytes ∧
    (rem0 0xffffff (gAddr + 65532) 4 0 []).eseq = ((stGuest false none (0 : Word64)).inFlow 1).exp ∧
    (rem0 0xffffff (gAddr + 65532) 4 0 []).eseq < 2 ^ 24 ∧
    BitVec.toNat (rem0 0xffffff (gAddr + 65532) 4 0 []).addr / 2 ^ 52 ≠ (stGuest false none (0 : Word64)).pkg ∧
    0 < (rem0 0xffffff (gAddr + 65532) 4 0 []).len ∧
    BitVec.toNat (rem0 0xffffff (gAddr + 65532) 4 0 []).addr % tileBytes + (rem0 0xffffff (gAddr + 65532) 4 0 []).len ≤ tileBytes ∧
    (mvReq 1).eseq = ((stIn (fi0 false)).inFlow 1).exp ∧ (mvReq 1).eseq < 2 ^ 24 ∧ (mvReq 31).eseq = ((stIn (fi0 false)).inFlow 1).exp ∧
    (mvReq 31).eseq < 2 ^ 24 ∧ (stIn (fi0 false)).deny 0 (BitVec.toNat (mvReq 31).addr % 2 ^ 52 / tileBytes * tileBytes) true = none ∧
    (31 = if (BitVec.toNat (mvReq 31).op0).testBit 15 = true then (stIn (fi0 false)).pkg else BitVec.toNat (mvReq 31).op0 % 4096) ∧
    31 ≠ (stIn (fi0 false)).pkg ∧ ((stIn (fi0 false)).tile (BitVec.toNat (mvReq 31).addr % 2 ^ 52 / tileBytes)).st = Home.dram ∧
    (stIn (fi0 false)).modelTile (BitVec.toNat (mvReq 31).addr % 2 ^ 52 / tileBytes) = false ∧
    (stIn (fi0 false)).ms.moves.get? (BitVec.toNat (mvReq 31).addr % 2 ^ 52 / tileBytes) = none ∧
    (stIn (fi0 false)).away.get? (BitVec.toNat (mvReq 31).addr % 2 ^ 52 / tileBytes) = none ∧ List.length (stIn (fi0 false)).away < 16 ∧
    (∀ a ∈ (stIn (fi0 false)).ms.asks, a.tile ≠ BitVec.toNat (mvReq 31).addr % 2 ^ 52 / tileBytes) ∧
    (stIn (fi0 false)).lostPkgs.contains 31 = false ∧ inDomain ((stIn (fi0 false)).rd R.FBD_SHAPE) 31 = true ∧
    (stIn (fi0 false)).reqRoom 31 = true ∧ (∀ w ∈ (stIn (fi0 false)).reqWait, w.pkg ≠ 31) ∧
    (rem0 0xffffff gAddr 0 0 []).eseq = ((stGuest true none (0 : Word64)).inFlow 1).exp ∧ (rem0 0xffffff gAddr 0 0 []).eseq < 2 ^ 24 ∧
    ((stGuest true none (0 : Word64)).placeFrame (BitVec.toNat (rem0 0xffffff gAddr 0 0 []).addr % 2 ^ 52 / tileBytes)).isSome = true ∧
    0 < (stGuest true none (0 : Word64)).dFree ((rem0 0xffffff gAddr 0 0 []).aop % 128) ∧
    List.length (stGuest true none (0 : Word64)).guests < 0x100000 ∧
    (stGuest true none (0 : Word64)).tenantActive ((rem0 0xffffff gAddr 0 0 []).aop % 128) = true ∧
    ((stGuest true none (0 : Word64)).guests.get? (guestKey (BitVec.toNat (rem0 0xffffff gAddr 0 0 []).addr))).isSome = true ∧
    (rem0 0xffffff gAddr 0 0 []).eseq = (stNoQuota.inFlow 1).exp ∧ stNoQuota.dFree ((rem0 0xffffff gAddr 0 0 []).aop % 128) = 0 ∧
    stNoQuota.guests.get? (guestKey (BitVec.toNat (rem0 0xffffff gAddr 0 0 []).addr)) = none ∧
    (rem0 0xffffff gAddr 0 0 []).eseq = ((stIn (fi0 false)).inFlow 1).exp ∧
    ((stIn (fi0 false)).placeFrame (BitVec.toNat (rem0 0xffffff gAddr 0 0 []).addr % 2 ^ 52 / tileBytes)).isSome = true ∧
    0 < (stIn (fi0 false)).dFree ((rem0 0xffffff gAddr 0 0 []).aop % 128) ∧ List.length (stIn (fi0 false)).guests < 0x100000 ∧
    (stIn (fi0 false)).tenantActive ((rem0 0xffffff gAddr 0 0 []).aop % 128) = true ∧
    (stIn (fi0 false)).guests.get? (guestKey (BitVec.toNat (rem0 0xffffff gAddr 0 0 []).addr)) = none ∧ (mvMsg 0).data.length = 65536 ∧
    (mvMsg gAddr).data.length = 65536 ∧ BitVec.toNat (mvMsg gAddr).addr / 2 ^ 52 ≠ (stGuest true none (0 : Word64)).pkg ∧
    BitVec.toNat (mvMsg gAddr).addr % tileBytes = 0 ∧
    (stGuest true none (0 : Word64)).guests.get? (guestKey (BitVec.toNat (mvMsg gAddr).addr)) = some (guest0 true none) ∧
    (guest0 true none).pending = true ∧ (guest0 true none).offer = (mvMsg gAddr).eseq ∧ BitVec.toNat (mvMsg 0).addr / 2 ^ 52 = stBack.pkg ∧
    stBack.away.get? (BitVec.toNat (mvMsg 0).addr % 2 ^ 52 / tileBytes) = some (AwayMove.mk 0 (some 1) 2 none 4097) ∧
    (AwayMove.mk 0 (some 1) 2 none 4097).dest = stBack.pkg ∧ (AwayMove.mk 0 (some 1) 2 none 4097).step = 2 ∧
    (AwayMove.mk 0 (some 1) 2 none 4097).from_ = some 1 ∧ stBack.lostPkgs.contains 1 = false ∧
    (∀ w ∈ stBack.ms.waits, w.held = true → w.acc.addr / tileBytes ≠ BitVec.toNat (mvMsg 0).addr % 2 ^ 52 / tileBytes) ∧ stBack.reqRoom 1 = true ∧
    (∀ w ∈ stBack.reqWait, w.pkg ≠ 1) ∧ (stGuest true none (0 : Word64)).guests.get? (2 ^ 29) = some (guest0 true none) ∧
    BitVec.toNat (stGuest true none (0 : Word64)).ft < BitVec.toNat (guest0 true none).since + 0x2625a00 ∧
    (stGuest false (some 2) (0x2625a00 : Word64)).guests.get? (2 ^ 29) = some (guest0 false (some 2)) ∧
    (guest0 false (some 2)).sentTo.isSome = true ∧
    BitVec.toNat (guest0 false (some 2)).since + 0x2625a00 ≤ BitVec.toNat (stGuest false (some 2) (0x2625a00 : Word64)).ft ∧
    (stGuest false (some 2) (0x2625a00 : Word64)).reqRoom (2 ^ 29 / 2 ^ 29) = true ∧
    (∀ w ∈ (stGuest false (some 2) (0x2625a00 : Word64)).reqWait, w.pkg ≠ 2 ^ 29 / 2 ^ 29) := by decide +kernel
theorem witness_RemoteRequester :
    (List.find? (fun q => q.eseq == (rsp0 6 0 0).eseq) ((stOutOp (0 : Word64)).flow 1).reqs = some outOp) ∧ (stOutOp (0 : Word64)).reqWait = [] ∧
    (stOutOp (0 : Word64)).remTodo = [] ∧ (List.find? (fun q => q.eseq == (rsp0 6 4 0).eseq) ((stOutOp (0 : Word64)).flow 1).reqs = some outOp) ∧
    (List.find? (fun q => q.eseq == (rsp0 3 0 0).eseq) ((stOut [outHeld, outOffer] 1 (0 : Word64)).flow 1).reqs = some outHeld) ∧
    (stOut [outHeld, outOffer] 1 (0 : Word64)).reqWait = [] ∧ (stOut [outHeld, outOffer] 1 (0 : Word64)).remTodo = [] ∧
    (List.find? (fun q => q.eseq == (rsp0 4 17 0).eseq) ((stOut [outHeld, outOffer] 1 (0 : Word64)).flow 1).reqs = some outOffer) ∧
    (List.find? (fun q => q.eseq == (rsp0 4 0 0).eseq) ((stOut [outHeld, outOffer] 1 (0 : Word64)).flow 1).reqs = some outOffer) ∧
    (List.find? (fun q => q.eseq == (rsp0 4 0 1).eseq) ((stOut [outHeld, outOffer] 2 (0 : Word64)).flow 1).reqs = some outOffer) ∧
    (stOut [outHeld, outOffer] 2 (0 : Word64)).reqWait = [] ∧ (stOut [outHeld, outOffer] 2 (0 : Word64)).remTodo = [] ∧
    (List.find? (fun q => q.eseq == (rsp0 5 0 0).eseq) ((stOut [outCommit] 3 (0 : Word64)).flow 1).reqs = some outCommit) ∧
    (stOut [outCommit] 3 (0 : Word64)).reqWait = [] ∧ (stOut [outCommit] 3 (0 : Word64)).remTodo = [] ∧
    (List.find? (fun q => q.eseq == (rsp0 1 0 0).eseq) ((stOut [outHeld] 1 (0 : Word64)).flow 1).reqs = none) ∧
    ((List.find? (fun q => q.eseq == (rsp0 1 0 0).eseq) ((stOut [outHeld] 1 (0 : Word64)).flow 1).done).isSome = true) ∧
    (List.find? (fun q => q.eseq == (rsp0 2 0 0).eseq) ((stOut [outHeld] 1 (0 : Word64)).flow 1).reqs = none) ∧
    (List.find? (fun q => q.eseq == (rsp0 2 0 0).eseq) ((stOut [outHeld] 1 (0 : Word64)).flow 1).done = none) ∧
    ((stOut [] 1 (0 : Word64)).flow 1).reqs = [] ∧ ((stOut [outHeld, outOffer] 1 (0 : Word64)).flow 1).reqs = [outHeld, outOffer] ∧
    BitVec.toNat (stOut [outHeld, outOffer] 1 (0 : Word64)).ft < BitVec.toNat outHeld.since + (stOut [outHeld, outOffer] 1 (0 : Word64)).rdF
      R.FBD_E2E_TMO 15 0 * 4000 ∧
    ((stOut [outHeld, outOffer] 1 (0x17d78400 : Word64)).flow 1).reqs = [outHeld, outOffer] ∧
    BitVec.toNat outHeld.since + (stOut [outHeld, outOffer] 1 (0x17d78400 : Word64)).rdF R.FBD_E2E_TMO 15 0 * 4000 ≤ BitVec.toNat (stOut [outHeld,
      outOffer] 1 (0x17d78400 : Word64)).ft ∧
    outHeld.tries < (stOut [outHeld, outOffer] 1 (0x17d78400 : Word64)).rdF R.FBD_E2E_TRIES 3 0 ∧
    ((stOutOp (0x17d78400 : Word64)).flow 1).reqs = [outOp] := by decide +kernel
/-! ### Chapter 08 -/

/-- Bytes of a stream descriptor (R75). -/
def descBytes (d : StreamDesc) : List Byte :=
  leBytes 8 d.base.toNat ++ leBytes 8 d.dim0.toNat ++ leBytes 8 d.dim1.toNat ++ leBytes 8 d.dim2.toNat ++ leBytes 8 d.dim3.toNat ++
  leBytes 8 d.dim4.toNat ++ leBytes 4 d.slot.toNat ++ leBytes 4 d.aux.toNat ++ leBytes 4 d.ctl.toNat ++ leBytes 4 d.sync.toNat
/-- Two FP32 elements at an address. -/
def vec2 (a : Nat) : StreamDesc := { desc0 a 0 with dim0 := 0x0001000000000004 }
/-- A flock of packages 0, 1 and 2, this one 1, in a slot of tenant 0; its window is at 0x40000. -/
def flk0 : Flock := { Flock.none with ctl := 0x80000000, base := 0x00010000, cnt := 0x00010003, waddr := 0x40000, grant := 1000, succWin := 1024 }
/-- A collective of two FP32 elements in it, of one chunk. -/
def coll0 (opc root : Nat) : Coll :=
  ⟨0, 0, 7, opc, 0, 0, false, root, 2, 64, 0, 0, some (vec2 0x2000), none, 0, 0, 3, 1, false, 0, 0, 0, [], 0, [], 0⟩
/-- The package with it, an operator, and tensor descriptors in memory: a collective descriptor at 0x1000, tensors at
0x1040 and 0x1080. -/
def stFlk (f : Flock) (c : CmdRec) (root : Nat := 1) : State :=
  { stMemOp c with
    regs := [(R.SEM_STAT, 0x1A000000), (R.FBD_PKG_ID, 0x80000001), (R.FBD_SHAPE, 0x0001F005)], slots := if f = Flock.none then [] else [(0, f)]
    mem := Mem.write (Mem.write [] 0x1000 (leBytes 4 1 ++ leBytes 4 (root * 0x10000) ++ leBytes 8 2 ++ leBytes 4 32 ++ leBytes 44 0)) 0x1040
      (descBytes (vec2 0x2000) ++ descBytes (vec2 0x3000)) }
/-- The slot disabled. -/
def flkOff : Flock := { flk0 with ctl := 0, grant := 0, succWin := 0 }
/-- A record of a collective, on a core's RED unit. -/
def recColl (opc : Nat) : CmdRec := { rec0 opc with place := 0xA0000000, w0 := 0x1000, w1 := 0x1040, w2 := 0x1080 }
/-- A chunk of the slot from package 0. -/
def chunk0 (gen cseq sidx : Nat) (sig : Word32) : Chunk := ⟨0, gen, false, false, 0, cseq, sig, 0, 2, 0, 0, sidx, [1, 2, 3, 4, 5, 6, 7, 8], false⟩
/-- The slot with a collective that runs, and the fields of a chunk it waits for. -/
def stRun (c : Coll) : State := stFlk { flk0 with run := some c, cseq := 1 } (rec0 c.opcode)
/-- A control message of the slot. -/
def fmsg0 (a b c : Nat) : FlkMsg := ⟨0, 0, 0, a, b, c⟩
/-- Flock definitions that are not sound: no members; a window of 33 units. -/
def flkNone : Flock := { flkOff with cnt := 0 }
/-- A window that does not fit. -/
def flkWide : Flock := { flkOff with win := 33 }
/-- A state whose slot 0 is one of these. -/
def stF (f : Flock) : State := stFlk f (rec0 0x0600)
/-- The slot with a collective that runs. -/
def flkRun : Flock := { flk0 with run := some (coll0 0x0603 1) }
/-- One from which position 0 is dropped. -/
def flkDrop : Flock := { flk0 with drops := [0] }
/-- A slot of two members. -/
def flkTwo : Flock := { flk0 with cnt := 0x00010002 }
/-- A slot that has collective `c` queued. -/
def flkQ (c : Coll) : Flock := { flk0 with queue := [c] }
/-- The slot of a record's operator. -/
def stQ (f : Flock) (opc : Nat) : State := stFlk f (recColl opc) (if opc = 0x0603 then 1 else 0)
/-- The states a start passes through. -/
def stBegun (c : Coll) : State := (stF (flkQ c)).collTouch c
/-- The collective as it runs, and the state with it. -/
def stStarted (c : Coll) : State := (stBegun c).flockSet 0 { flkQ c with run := some { c with lastRx := 0 }, queue := [] }
/-- The value of a computation, or the reset state. -/
def okSt (r : Except Err State) : State := match r with
  | .ok x => x
  | .error _ => State.reset
/-- A member's own part put into its output, chunk by chunk. -/
def ownFold (c k : Coll) (d : StreamDesc) (l : List Nat) : Except Err State :=
  l.foldl (fun (a : Except Err State) j => match a with
    | .error e => .error e
    | .ok x => (x.opFlags c.op (x.inputNi k (k.inElem (k.lo j)) (k.len j))).outPut k (x.elemsBad (some d) (k.inElem (k.lo j)) (k.len j)) k.wire
        (k.lo j) (x.codesAt d (k.inElem (k.lo j)) (k.len j))) (.ok (stStarted c))
/-- The state with that. -/
def stOwn (c k : Coll) (d : StreamDesc) (l : List Nat) : State := okSt (ownFold c k d l)
/-- The collective with an output too. -/
def collIO (opc root : Nat) : Coll := { coll0 opc root with output := some (vec2 0x3000) }
/-- Its data in the input, and the flags of it. -/
def dataOf (c : Coll) (e : SendEnt) : List Byte × List Byte × NumFlags × Nat := ((stRun c).chunkData c e).getD ([], [], fNone, 0)
/-- The grant one byte short. -/
def stShort : State := stFlk { flk0 with run := some (coll0 0x0603 1), cseq := 1, grant := 71 } (rec0 0x0603)
/-- The successor's window too small for a chunk. -/
def stSmall : State := stFlk { flk0 with run := some { coll0 0x0603 1 with chunkElem := 1024, nelem := 1024 }, cseq := 1, succWin := 1 } (rec0 0x0603)
/-- A collective whose slot waits for CSEQ 1. -/
def coll1 : Coll := { coll0 0x0602 0 with cseq := 1 }
/-- One whose chunks are all sent and acknowledged, all received. -/
def collEnd : Coll := { coll0 0x0602 0 with acked := 4, sent := 4, maxSent := 4, exp := 4 }
/-- One with a chunk unacknowledged. -/
def collSent : Coll := { coll0 0x0602 0 with sent := 1, maxSent := 1, sentAt := [0] }
/-- Late. -/
def stLateColl (c : Coll) : State := { stRun c with ft := 0x1000000000 }
/-- What a consumed chunk of a broadcast leaves. -/
def stChunk (c : Coll) (ch : Chunk) : State :=
  okSt (((stRun c).bump (R.RED_RX_CHUNK_CNT (ch.slot % 2))).chunkOut c ch (c.fwdOf ⟨ch.step, ch.idx, ch.ag⟩))
/-- A tensor of 192 FP32 elements. -/
def vec192 (a : Nat) : StreamDesc := { desc0 a 0 with dim0 := 0x00BF000000000004 }
/-- An ALL_GATHER of three chunks, one to each member. -/
def collAg : Coll := { coll0 0x0601 1 with nelem := 192, input := some (vec192 0x2000), output := some (vec192 0x3000) }
/-- A collective whose output lies where no tile is. -/
def collAway : Coll := { coll0 0x0603 0 with output := some { vec2 0x3000 with base := 0x100000000 } }
/-- One chunk received. -/
def collRx : Coll := { coll0 0x0602 0 with exp := 1 }
/-- Records that check, one that reduces with room for its extents, and own parts that can be put out. -/
theorem witness_collOf :
    okAnd ((stQ flk0 0x0602).collOf 0 (opOf (recColl 0x0602))) (fun x => decide (x.1 = 0 ∧ x.2.reduces = true ∧
      (stQ flk0 0x0602).pendExtents.length + ((stQ flk0 0x0602).redExtents x.2).length ≤ 256 ∧
      State.spansMeet ((stQ flk0 0x0602).redExtents x.2) (stQ flk0 0x0602).convDests = false ∧
      ((stQ flk0 0x0602).flock x.1).aborts.find? (fun a => a.1 == x.2.cseq) = none)) = true ∧
    okAnd ((stQ flk0 0x0603).collOf 0 (opOf (recColl 0x0603))) (fun x => !x.2.reduces) = true ∧
    okAnd ((stQ flkOff 0x0600).collOf 0 (opOf (recColl 0x0600))) (fun _ => true) = false ∧
    okAnd (ownFold (coll0 0x0603 1) (coll0 0x0603 1) (vec2 0x2000) (List.range (coll0 0x0603 1).nchunk)) (fun _ => true) = true ∧
    okAnd (ownFold collAg collAg (vec192 0x2000) (collAg.seg collAg.pos)) (fun _ => true) = true := by decide +kernel
theorem witness_FlockSlots :
    bit (0x80000000 : Word32) 31 = true ∧ ((stF flkNone).flock ((stF flkNone).rdF R.RED_FLK_SEL 5 0)).on = false ∧
    ((stF flkWide).flock ((stF flkWide).rdF R.RED_FLK_SEL 5 0)).on = false ∧ ((stF flkOff).flock ((stF flkOff).rdF R.RED_FLK_SEL 5 0)).on = false ∧
    bit (0 : Word32) 31 = false ∧ ((stF flk0).flock ((stF flk0).rdF R.RED_FLK_SEL 5 0)).on = true ∧
    ((stF flk0).flock ((stF flk0).rdF R.RED_FLK_SEL 5 0)).run = none ∧ ((stF flk0).flock ((stF flk0).rdF R.RED_FLK_SEL 5 0)).queue = [] ∧
    ((stF flkRun).flock ((stF flkRun).rdF R.RED_FLK_SEL 5 0)).on = true ∧
    ((stF flk0).flock ((stF flk0).rdF R.RED_FLK_SEL 5 0)).drops.contains ((stF flk0).rdF R.RED_FLK_DROP_POS 11 0) = false ∧
    (stF flk0).rdF R.RED_FLK_DROP_POS 11 0 < ((stF flk0).flock ((stF flk0).rdF R.RED_FLK_SEL 5 0)).count ∧
    3 ≤ ((stF flk0).flock ((stF flk0).rdF R.RED_FLK_SEL 5 0)).live.length ∧
    ((stF flk0).flock ((stF flk0).rdF R.RED_FLK_SEL 5 0)).drops.length ≠ 16 ∧
    (stF flk0).flkAt ((stF flk0).flock ((stF flk0).rdF R.RED_FLK_SEL 5 0)) ((stF flk0).rdF R.RED_FLK_DROP_POS 11 0) ≠ (stF flk0).srcField ∧
    ((stF flkOff).flock ((stF flkOff).rdF R.RED_FLK_SEL 5 0)).run = none ∧ ((stF flkDrop).flock ((stF flkDrop).rdF R.RED_FLK_SEL 5 0)).on = true ∧
    ((stF flkDrop).flock ((stF flkDrop).rdF R.RED_FLK_SEL 5 0)).drops.contains ((stF flkDrop).rdF R.RED_FLK_DROP_POS 11 0) = true ∧
    ((stF flkDrop).flock ((stF flkDrop).rdF R.RED_FLK_SEL 5 0)).run = none ∧ ((stF flkTwo).flock ((stF flkTwo).rdF R.RED_FLK_SEL 5 0)).on = true ∧
    ((stF flkTwo).flock ((stF flkTwo).rdF R.RED_FLK_SEL 5 0)).drops.contains ((stF flkTwo).rdF R.RED_FLK_DROP_POS 11 0) = false ∧
    (stF flkTwo).rdF R.RED_FLK_DROP_POS 11 0 < ((stF flkTwo).flock ((stF flkTwo).rdF R.RED_FLK_SEL 5 0)).count ∧
    ((stF flkTwo).flock ((stF flkTwo).rdF R.RED_FLK_SEL 5 0)).live.length < 3 ∧
    ((stF flkTwo).flock ((stF flkTwo).rdF R.RED_FLK_SEL 5 0)).run = none ∧
    ((stF flkRun).flock ((stF flkRun).rdF R.RED_FLK_SEL 5 0)).drops.contains ((stF flkRun).rdF R.RED_FLK_DROP_POS 11 0) = false ∧
    (stF flkRun).rdF R.RED_FLK_DROP_POS 11 0 < ((stF flkRun).flock ((stF flkRun).rdF R.RED_FLK_SEL 5 0)).count ∧
    3 ≤ ((stF flkRun).flock ((stF flkRun).rdF R.RED_FLK_SEL 5 0)).live.length ∧
    ((stF flkRun).flock ((stF flkRun).rdF R.RED_FLK_SEL 5 0)).drops.length ≠ 16 ∧
    (stF flkRun).flkAt ((stF flkRun).flock ((stF flkRun).rdF R.RED_FLK_SEL 5 0)) ((stF flkRun).rdF R.RED_FLK_DROP_POS 11 0) ≠ (stF
      flkRun).srcField ∧
    ((stF flkRun).flock ((stF flkRun).rdF R.RED_FLK_SEL 5 0)).run.isSome = true := by decide +kernel
theorem witness_CollectiveOperators :
    (stQ flk0 1538).op? 0 = some (opOf (recColl 1538)) ∧ (opOf (recColl 1538)).dispatched = true ∧ (opOf (recColl 1538)).ran = false ∧
    (opOf (recColl 1538)).code = (0 : Byte) ∧ (opOf (recColl 1538)).cmd.opcode.toNat = 1538 ∧
    (Instr.allReduce 0, 1538) ∈ [(Instr.reduceScatter 0, 1536), (Instr.allGather 0, 1537), (Instr.allReduce 0, 1538), (Instr.broadcast 0, 1539),
      (Instr.send 0, 1540), (Instr.recv 0, 1541)] ∧
    (stQ (flkQ (coll0 1539 0)) 1539).op? 0 = some (opOf (recColl 1539)) ∧ (opOf (recColl 1539)).dispatched = true ∧
    (opOf (recColl 1539)).ran = false ∧ (opOf (recColl 1539)).code = (0 : Byte) ∧ (opOf (recColl 1539)).cmd.opcode.toNat = 1539 ∧
    (Instr.broadcast 0, 1539) ∈ [(Instr.reduceScatter 0, 1536), (Instr.allGather 0, 1537), (Instr.allReduce 0, 1538), (Instr.broadcast 0, 1539),
      (Instr.send 0, 1540), (Instr.recv 0, 1541)] ∧
    (stQ (flkQ (coll0 1539 0)) 1539).collQueued 0 = true ∧ (stQ flkOff 1536).op? 0 = some (opOf (recColl 1536)) ∧
    (opOf (recColl 1536)).dispatched = true ∧ (opOf (recColl 1536)).ran = false ∧ (opOf (recColl 1536)).code = (0 : Byte) ∧
    (opOf (recColl 1536)).cmd.opcode.toNat = 1536 ∧
    (Instr.reduceScatter 0, 1536) ∈ [(Instr.reduceScatter 0, 1536), (Instr.allGather 0, 1537), (Instr.allReduce 0, 1538), (Instr.broadcast 0,
      1539), (Instr.send 0, 1540), (Instr.recv 0, 1541)] ∧
    (stQ flkOff 1536).collQueued 0 = false ∧ (stMemOp (rec0 1540)).op? 0 = some (opOf (rec0 1540)) ∧ (opOf (rec0 1540)).dispatched = true ∧
    (opOf (rec0 1540)).ran = false ∧ (opOf (rec0 1540)).code = (0 : Byte) ∧ (opOf (rec0 1540)).cmd.opcode.toNat = 1540 ∧
    (Instr.send 0, 1540) ∈ [(Instr.reduceScatter 0, 1536), (Instr.allGather 0, 1537), (Instr.allReduce 0, 1538), (Instr.broadcast 0, 1539),
      (Instr.send 0, 1540), (Instr.recv 0, 1541)] ∧
    (stMemOp (rec0 1540)).collQueued 0 = false ∧ CmdRecF.unit (opOf (rec0 1540)).cmd ≠ 5 ∧ (stQ flk0 1537).op? 0 = some (opOf (recColl 1537)) ∧
    (opOf (recColl 1537)).dispatched = true ∧ (opOf (recColl 1537)).ran = false ∧ (opOf (recColl 1537)).code = (0 : Byte) ∧
    (opOf (recColl 1537)).cmd.opcode.toNat = 1537 ∧
    (Instr.allGather 0, 1537) ∈ [(Instr.reduceScatter 0, 1536), (Instr.allGather 0, 1537), (Instr.allReduce 0, 1538), (Instr.broadcast 0, 1539),
      (Instr.send 0, 1540), (Instr.recv 0, 1541)] ∧
    (stQ flk0 1537).collQueued 0 = false ∧ ((stF flkRun).flock 0).run ≠ none ∧ ((stF flk0).flock 63).queue = [] ∧
    ((stF (flkQ (coll0 1538 0))).flock 0).run = none ∧ ((stF (flkQ (coll0 1538 0))).flock 0).queue = [coll0 1538 0] ∧
    stBegun (coll0 1538 0) = (stF (flkQ (coll0 1538 0))).collTouch (coll0 1538 0) ∧
    (stBegun (coll0 1538 0)).reading (RdFor.op (coll0 1538 0).op) = false ∧ ((stF (flkQ (coll0 1538 0))).flock 0).held = [] ∧
    (coll0 1538 0).bad = false ∧ (coll0 1538 0).opcode = 1538 ∧ ((stF (flkQ (coll0 1539 0))).flock 0).run = none ∧
    ((stF (flkQ (coll0 1539 0))).flock 0).queue = [coll0 1539 0] ∧ stBegun (coll0 1539 0) = (stF (flkQ (coll0 1539 0))).collTouch (coll0 1539 0) ∧
    (stBegun (coll0 1539 0)).reading (RdFor.op (coll0 1539 0).op) = false ∧ ((stF (flkQ (coll0 1539 0))).flock 0).held = [] ∧
    (coll0 1539 0).bad = false ∧ (coll0 1539 0).opcode = 1539 ∧ (coll0 1539 0).pos ≠ (coll0 1539 0).root ∧
    ((stF (flkQ (coll0 1539 1))).flock 0).run = none ∧ ((stF (flkQ (coll0 1539 1))).flock 0).queue = [coll0 1539 1] ∧
    ((stF (flkQ (coll0 1539 1))).flock 0).held = [] ∧ (coll0 1539 1).bad = false ∧ (coll0 1539 1).input = some (vec2 8192) ∧
    ((stF (flkQ (coll0 1539 1))).collTouch (coll0 1539 1)).reading (RdFor.op (coll0 1539 1).op) = false ∧ (coll0 1539 1).opcode = 1539 ∧
    (coll0 1539 1).pos = (coll0 1539 1).root ∧ ((stF (flkQ collAg)).flock 0).run = none ∧ ((stF (flkQ collAg)).flock 0).queue = [collAg] ∧
    ((stF (flkQ collAg)).flock 0).held = [] ∧ collAg.bad = false ∧ collAg.input = some (vec192 8192) ∧
    ((stF (flkQ collAg)).collTouch collAg).reading (RdFor.op collAg.op) = false ∧ collAg.opcode = 1537 := by decide +kernel
theorem witness_Chunks :
    ((stRun (coll0 1539 1)).flock 0).run = some (coll0 1539 1) ∧ (coll0 1539 1).sends[(coll0 1539 1).sent]? = some (SendEnt.mk 0 0 false) ∧
    (stRun (coll0 1539 1)).chunkData (coll0 1539 1) (SendEnt.mk 0 0 false) = some (List.replicate 8 (0 : Byte), [], fNone, 0) ∧
    chunkSpace (List.replicate 8 (0 : Byte)).length ≤ ((stRun (coll0 1539 1)).flock 0).succWin * 256 ∧ (stRun (coll0 1539 1)).chunkTurn 0 = true ∧
    chunkSpace (List.replicate 8 (0 : Byte)).length ≤ ((stRun (coll0 1539 1)).flock 0).grant ∧ (stShort.flock 0).run = some (coll0 1539 1) ∧
    stShort.chunkData (coll0 1539 1) (SendEnt.mk 0 0 false) = some (List.replicate 8 (0 : Byte), [], fNone, 0) ∧
    chunkSpace (List.replicate 8 (0 : Byte)).length ≤ (stShort.flock 0).succWin * 256 ∧
    (stShort.flock 0).grant < chunkSpace (List.replicate 8 (0 : Byte)).length ∧ ((stF flkOff).flock 0).run = none ∧
    (∃ c, ((stRun (coll0 1539 2)).flock 0).run = some c ∧ c.sends.length ≤ c.sent) ∧
    ((stF flkOff).flock (chunk0 0 0 0 (7 : Word32)).slot).on = false ∧
    128 ≤ ((chunk0 128 0 0 (7 : Word32)).gen + 256 - ((stF flk0).flock (chunk0 128 0 0 (7 : Word32)).slot).gen) % 256 ∧
    ((stF flk0).flock (chunk0 127 0 0 (7 : Word32)).slot).on = true ∧ 0 = ((stF flk0).flock (chunk0 127 0 0 (7 : Word32)).slot).owner ∧
    bit ((stF flk0).flock (chunk0 127 0 0 (7 : Word32)).slot).win 31 = false ∧
    0 < ((chunk0 127 0 0 (7 : Word32)).gen + 256 - ((stF flk0).flock (chunk0 127 0 0 (7 : Word32)).slot).gen) % 256 ∧
    ((chunk0 127 0 0 (7 : Word32)).gen + 256 - ((stF flk0).flock (chunk0 127 0 0 (7 : Word32)).slot).gen) % 256 < 128 ∧
    ((stRun (coll0 1538 0)).flock (chunk0 0 0 0 (7 : Word32)).slot).on = true ∧
    0 = ((stRun (coll0 1538 0)).flock (chunk0 0 0 0 (7 : Word32)).slot).owner ∧
    bit ((stRun (coll0 1538 0)).flock (chunk0 0 0 0 (7 : Word32)).slot).win 31 = false ∧
    ((chunk0 0 0 0 (7 : Word32)).gen + 256 - ((stRun (coll0 1538 0)).flock (chunk0 0 0 0 (7 : Word32)).slot).gen) % 256 = 0 ∧
    2 ≠ (stRun (coll0 1538 0)).flkPred ((stRun (coll0 1538 0)).flock (chunk0 0 0 0 (7 : Word32)).slot) ∧
    ((stRun coll1).flock (chunk0 0 0 0 (7 : Word32)).slot).on = true ∧ 0 = ((stRun coll1).flock (chunk0 0 0 0 (7 : Word32)).slot).owner ∧
    bit ((stRun coll1).flock (chunk0 0 0 0 (7 : Word32)).slot).win 31 = false ∧
    ((stRun coll1).flock (chunk0 0 0 0 (7 : Word32)).slot).run.isSome = true ∧
    ((chunk0 0 0 0 (7 : Word32)).gen + 256 - ((stRun coll1).flock (chunk0 0 0 0 (7 : Word32)).slot).gen) % 256 = 0 ∧
    0 = (stRun coll1).flkPred ((stRun coll1).flock (chunk0 0 0 0 (7 : Word32)).slot) ∧
    ((stRun (coll0 1538 0)).flock (chunk0 0 1 0 (7 : Word32)).slot).on = true ∧
    0 = ((stRun (coll0 1538 0)).flock (chunk0 0 1 0 (7 : Word32)).slot).owner ∧
    bit ((stRun (coll0 1538 0)).flock (chunk0 0 1 0 (7 : Word32)).slot).win 31 = false ∧
    ((stRun (coll0 1538 0)).flock (chunk0 0 1 0 (7 : Word32)).slot).run.isSome = true ∧
    ((chunk0 0 1 0 (7 : Word32)).gen + 256 - ((stRun (coll0 1538 0)).flock (chunk0 0 1 0 (7 : Word32)).slot).gen) % 256 = 0 ∧
    0 = (stRun (coll0 1538 0)).flkPred ((stRun (coll0 1538 0)).flock (chunk0 0 1 0 (7 : Word32)).slot) ∧
    ((stRun (coll0 1538 0)).flock (chunk0 0 2 0 (7 : Word32)).slot).on = true ∧
    0 = ((stRun (coll0 1538 0)).flock (chunk0 0 2 0 (7 : Word32)).slot).owner ∧
    bit ((stRun (coll0 1538 0)).flock (chunk0 0 2 0 (7 : Word32)).slot).win 31 = false ∧
    ((stRun (coll0 1538 0)).flock (chunk0 0 2 0 (7 : Word32)).slot).run.isSome = true ∧
    ((chunk0 0 2 0 (7 : Word32)).gen + 256 - ((stRun (coll0 1538 0)).flock (chunk0 0 2 0 (7 : Word32)).slot).gen) % 256 = 0 ∧
    0 = (stRun (coll0 1538 0)).flkPred ((stRun (coll0 1538 0)).flock (chunk0 0 2 0 (7 : Word32)).slot) ∧
    ((stRun (coll0 1538 0)).flock (chunk0 0 0 0 (8 : Word32)).slot).on = true ∧
    0 = ((stRun (coll0 1538 0)).flock (chunk0 0 0 0 (8 : Word32)).slot).owner ∧
    bit ((stRun (coll0 1538 0)).flock (chunk0 0 0 0 (8 : Word32)).slot).win 31 = false ∧
    ((stRun (coll0 1538 0)).flock (chunk0 0 0 0 (8 : Word32)).slot).run.isSome = true ∧
    ((chunk0 0 0 0 (8 : Word32)).gen + 256 - ((stRun (coll0 1538 0)).flock (chunk0 0 0 0 (8 : Word32)).slot).gen) % 256 = 0 ∧
    0 = (stRun (coll0 1538 0)).flkPred ((stRun (coll0 1538 0)).flock (chunk0 0 0 0 (8 : Word32)).slot) ∧
    ((stRun collRx).flock (chunk0 0 0 0 (7 : Word32)).slot).on = true ∧ 0 = ((stRun collRx).flock (chunk0 0 0 0 (7 : Word32)).slot).owner ∧
    bit ((stRun collRx).flock (chunk0 0 0 0 (7 : Word32)).slot).win 31 = false ∧
    ((stRun collRx).flock (chunk0 0 0 0 (7 : Word32)).slot).run.isSome = true ∧
    ((chunk0 0 0 0 (7 : Word32)).gen + 256 - ((stRun collRx).flock (chunk0 0 0 0 (7 : Word32)).slot).gen) % 256 = 0 ∧
    0 = (stRun collRx).flkPred ((stRun collRx).flock (chunk0 0 0 0 (7 : Word32)).slot) ∧
    ((stRun (coll0 1538 0)).flock (chunk0 0 0 1 (7 : Word32)).slot).on = true ∧
    0 = ((stRun (coll0 1538 0)).flock (chunk0 0 0 1 (7 : Word32)).slot).owner ∧
    bit ((stRun (coll0 1538 0)).flock (chunk0 0 0 1 (7 : Word32)).slot).win 31 = false ∧
    ((stRun (coll0 1538 0)).flock (chunk0 0 0 1 (7 : Word32)).slot).run.isSome = true ∧
    ((chunk0 0 0 1 (7 : Word32)).gen + 256 - ((stRun (coll0 1538 0)).flock (chunk0 0 0 1 (7 : Word32)).slot).gen) % 256 = 0 ∧
    0 = (stRun (coll0 1538 0)).flkPred ((stRun (coll0 1538 0)).flock (chunk0 0 0 1 (7 : Word32)).slot) ∧
    ((stRun (coll0 1538 0)).flock (chunk0 0 0 1 (7 : Word32)).slot).nackAt = none ∧
    ((stRun (coll0 1538 0)).flock (chunk0 0 0 0 (7 : Word32)).slot).run.isSome = true ∧
    0 = (stRun (coll0 1538 0)).flkPred ((stRun (coll0 1538 0)).flock (chunk0 0 0 0 (7 : Word32)).slot) ∧ (chunk0 0 0 0 (7 : Word32)).ag = false ∧
    (chunk0 0 0 0 (7 : Word32)).bad = false ∧ ((stRun (collIO 1539 0)).flock (chunk0 0 0 0 (7 : Word32)).slot).on = true ∧
    0 = ((stRun (collIO 1539 0)).flock (chunk0 0 0 0 (7 : Word32)).slot).owner ∧
    bit ((stRun (collIO 1539 0)).flock (chunk0 0 0 0 (7 : Word32)).slot).win 31 = false ∧
    ((stRun (collIO 1539 0)).flock (chunk0 0 0 0 (7 : Word32)).slot).run.isSome = true ∧
    ((chunk0 0 0 0 (7 : Word32)).gen + 256 - ((stRun (collIO 1539 0)).flock (chunk0 0 0 0 (7 : Word32)).slot).gen) % 256 = 0 ∧
    0 = (stRun (collIO 1539 0)).flkPred ((stRun (collIO 1539 0)).flock (chunk0 0 0 0 (7 : Word32)).slot) ∧
    ((stRun (coll0 1538 0)).flock (fmsg0 0 64 1).slot).on = true ∧ 0 = ((stRun (coll0 1538 0)).flock (fmsg0 0 64 1).slot).owner ∧
    (fmsg0 0 64 1).gen = ((stRun (coll0 1538 0)).flock (fmsg0 0 64 1).slot).gen ∧ (fmsg0 0 64 1).gen < 256 ∧
    2 = (stRun (coll0 1538 0)).flkSucc ((stRun (coll0 1538 0)).flock (fmsg0 0 64 1).slot) ∧
    ((stRun (coll0 1538 0)).flock (fmsg0 0 64 1).slot).run = some (coll0 1538 0) ∧ (coll0 1538 0).cseq = (fmsg0 0 64 1).cseq ∧
    ((stRun collSent).flock (fmsg0 1 64 1).slot).on = true ∧ 0 = ((stRun collSent).flock (fmsg0 1 64 1).slot).owner ∧
    (fmsg0 1 64 1).gen = ((stRun collSent).flock (fmsg0 1 64 1).slot).gen ∧ (fmsg0 1 64 1).gen < 256 ∧
    2 = (stRun collSent).flkSucc ((stRun collSent).flock (fmsg0 1 64 1).slot) ∧ ((stRun collSent).flock (fmsg0 1 64 1).slot).run = some collSent ∧
    collSent.cseq = (fmsg0 1 64 1).cseq ∧ ((stF flk0).flock (FlkMsg.mk 0 127 0 0 0 0).slot).on = true ∧
    0 = ((stF flk0).flock (FlkMsg.mk 0 127 0 0 0 0).slot).owner ∧
    1 ≤ ((FlkMsg.mk 0 127 0 0 0 0).gen + 256 - ((stF flk0).flock (FlkMsg.mk 0 127 0 0 0 0).slot).gen) % 256 ∧
    ((FlkMsg.mk 0 127 0 0 0 0).gen + 256 - ((stF flk0).flock (FlkMsg.mk 0 127 0 0 0 0).slot).gen) % 256 ≤ 127 ∧
    ((stF flk0).flock (fmsg0 0 0 0).slot).on = true ∧ 0 = ((stF flk0).flock (fmsg0 0 0 0).slot).owner ∧
    (fmsg0 0 0 0).gen = ((stF flk0).flock (fmsg0 0 0 0).slot).gen ∧ (fmsg0 0 0 0).gen < 256 ∧
    0 ≠ (stF flk0).flkSucc ((stF flk0).flock (fmsg0 0 0 0).slot) ∧ ((stRun collSent).flock (fmsg0 1 0 0).slot).run = some collSent ∧
    ((stRun collSent).flock (fmsg0 1 0 0).slot).on = true ∧ 0 = ((stRun collSent).flock (fmsg0 1 0 0).slot).owner ∧
    (fmsg0 1 0 0).gen = ((stRun collSent).flock (fmsg0 1 0 0).slot).gen ∧ 2 = (stRun collSent).flkSucc ((stRun collSent).flock (fmsg0 1 0 0).slot) ∧
    collSent.cseq = (fmsg0 1 0 0).cseq ∧ collSent.acked ≤ (fmsg0 1 0 0).a ∧ (fmsg0 1 0 0).a ≤ collSent.sent ∧
    ((stRun collSent).flock (fmsg0 2 0 0).slot).run = some collSent ∧ ((stRun collSent).flock (fmsg0 2 0 0).slot).on = true ∧
    0 = ((stRun collSent).flock (fmsg0 2 0 0).slot).owner ∧ (fmsg0 2 0 0).gen = ((stRun collSent).flock (fmsg0 2 0 0).slot).gen ∧
    2 = (stRun collSent).flkSucc ((stRun collSent).flock (fmsg0 2 0 0).slot) ∧ collSent.cseq = (fmsg0 2 0 0).cseq ∧
    collSent.sent < (fmsg0 2 0 0).a ∧ (fmsg0 0 1 0).b % 4096 = (stRun (coll0 1538 0)).flkPos ((stRun (coll0 1538 0)).flock (fmsg0 0 1 0).slot) ∧
    ((stRun (coll0 1538 0)).flock (fmsg0 0 2 0).slot).on = true ∧ 0 = ((stRun (coll0 1538 0)).flock (fmsg0 0 2 0).slot).owner ∧
    (fmsg0 0 2 0).gen = ((stRun (coll0 1538 0)).flock (fmsg0 0 2 0).slot).gen ∧
    0 = (stRun (coll0 1538 0)).flkPred ((stRun (coll0 1538 0)).flock (fmsg0 0 2 0).slot) ∧
    (fmsg0 0 2 0).b % 4096 ≠ (stRun (coll0 1538 0)).flkPos ((stRun (coll0 1538 0)).flock (fmsg0 0 2 0).slot) ∧
    ((stRun (coll0 1538 0)).flock (fmsg0 0 2 0).slot).run.isSome = true ∧ ((stF flk0).flock (fmsg0 0 2 0).slot).on = true ∧
    0 = ((stF flk0).flock (fmsg0 0 2 0).slot).owner ∧ (fmsg0 0 2 0).gen = ((stF flk0).flock (fmsg0 0 2 0).slot).gen ∧
    0 = (stF flk0).flkPred ((stF flk0).flock (fmsg0 0 2 0).slot) ∧
    (fmsg0 0 2 0).b % 4096 ≠ (stF flk0).flkPos ((stF flk0).flock (fmsg0 0 2 0).slot) ∧ ((stF flk0).flock (fmsg0 0 2 0).slot).run = none ∧
    ((stF flk0).flock (fmsg0 0 2 0).slot).queue = [] ∧ ((stF flk0).flock (fmsg0 0 2 0).slot).cseq ≤ (fmsg0 0 2 0).cseq ∧
    ((stRun (coll0 1538 0)).flock 0).run = some (coll0 1538 0) ∧ (coll0 1538 0).sentAt = [] ∧
    BitVec.toNat (stRun (coll0 1538 0)).ft < BitVec.toNat (coll0 1538 0).lastRx + (stRun (coll0 1538 0)).rdF R.RED_PROG_TMO 19 0 * 4000 ∧
    (coll0 1538 0).acked < (coll0 1538 0).sends.length ∧ ((stLateColl collSent).flock 0).run = some collSent ∧
    BitVec.toNat collSent.lastRx + (stLateColl collSent).rdF R.RED_PROG_TMO 19 0 * 4000 ≤ BitVec.toNat (stLateColl collSent).ft ∧
    collSent.acked < collSent.sends.length ∧ ((stRun collEnd).flock 0).run = some collEnd ∧ collEnd.sentAt = [] ∧
    BitVec.toNat (stRun collEnd).ft < BitVec.toNat collEnd.lastRx + (stRun collEnd).rdF R.RED_PROG_TMO 19 0 * 4000 ∧
    ((stRun collEnd).op? collEnd.op).isSome = true ∧ collEnd.sends.length ≤ collEnd.acked ∧ collEnd.recvs.length ≤ collEnd.exp ∧
    (stRun collEnd).opWaits collEnd.op = false ∧ collEnd.rx = [] ∧ (stRun collEnd).commits = [] := by decide +kernel
/-! ### Chapter 09 -/

/-- A tensor of `n` stream elements of one format, all at one address. -/
def flat (fmt n0 n1 : Nat) : StreamDesc :=
  { desc0 0x4000 0 with
    dim0 := BitVec.ofNat 64 ((n0 - 1) * 2 ^ 48), dim1 := BitVec.ofNat 64 ((n1 - 1) * 2 ^ 48), ctl := BitVec.ofNat 32 (1 + 0x1100 * fmt) }
/-- A model of one layer, of width 1,024, whose one member is this package: its tensors at 0x1100 on, its exchange area at 0x8000, its descriptor in a control region. -/
def modelBytes : List Byte :=
  leBytes 2 1 ++ leBytes 2 1 ++ leBytes 4 1024 ++ leBytes 4 64 ++ leBytes 2 16 ++ leBytes 2 1 ++ leBytes 2 64 ++ leBytes 1 1 ++ leBytes 1 1 ++
  leBytes 4 0 ++ leBytes 4 0 ++ leBytes 4 1 ++ leBytes 8 0x1100 ++ leBytes 8 0x1140 ++ leBytes 8 0x1180 ++ leBytes 8 0x8000 ++
  leBytes 8 0x1180 ++ leBytes 8 0x11C0 ++ leBytes 8 0x1200 ++ leBytes 8 0 ++ leBytes 8 0x1240 ++ leBytes 8 0x1280 ++ leBytes 8 0 ++ leBytes 8 0 ++
  leBytes 8 0x8000
/-- Memory with it, and an exchange area whose mailbox holds a STEP and a STATE. -/
def genMem (step st : Nat) : Mem :=
  Mem.write (Mem.write (Mem.write [] 0x1100
    (descBytes (flat 8 1 64) ++ descBytes (flat 8 1 64) ++ descBytes (flat 0 1024 1) ++ descBytes (flat 8 1 1152) ++ descBytes (flat 8 1 1024) ++
     descBytes (flat 8 1 2) ++ descBytes (flat 1 1024 1))) 0x8000 (leBytes 8 step ++ leBytes 4 st)) 0x100000000 modelBytes
/-- A VERIFY_STEP of the model: a follower's, and a leader's that names no request. -/
def recFol : CmdRec := { rec0 0x0203 with w0 := 0x100000000, w1 := 0x80000, w3 := 5 }
/-- One with a request. -/
def recVerify : CmdRec := { rec0 0x0203 with w0 := 0x100000000, req := 0x80000000 }
/-- A request of tenant 0. -/
def req0 (st : Nat) (resumed : Bool) : Req :=
  ⟨st, 0, 0, 0, 128, 0, 0, 0x100000000, 0x10000, 0, 0, 0, 0, 0, 0, 0, 0, 0, 0, 0, 0, 0, 0, 0, 0, 1, 128, 1, 1, resumed⟩
/-- A step under way in a phase. -/
def gstep0 (follow : Bool) (phase : Nat) : GStep :=
  ⟨follow, 0, 0x100000000, 5, 0, [], [], [], false, 0, [], [], [], 0, false, phase, true, [0, 0, 0, 0, 0], 0, 0, []⟩
/-- A state with the model in memory, a VERIFY_STEP, steps and requests. -/
def stGen (c : CmdRec) (step st : Nat) (g : Map GStep) (q : Map Req) : State := 
  { stMemOp c with
    regs := [(R.SEM_STAT, 0x18000000), (R.SEM_MODEL_GRANT0, 1)]
    mem := genMem step st, gsteps := g, reqs := q, ms := { stMem.ms with rgn := [(0, 0x80000000), (1, 0x80800040)] } }
/-- A parked request with one block, in tile 5; its owner has less than the watermark free. -/
def stPark : State :=
  { stGen recVerify 0 0 [] [(0, { req0 4 false with len := 256 })] with
    mem := Mem.write (genMem 0 0) 0x10000 (leBytes 8 0x8000000000050000 ++ leBytes 8 0x8000000000060000)
    ms := { (stGen recVerify 0 0 [] []).ms with tiles := [(0, ⟨.dram, false, 4096, false⟩), (5, ⟨.dram, true, 4097, false⟩), (6, ⟨.dram, true, 4098, false⟩)] } }
/-- A resumed request whose first page is still in flash. -/
def stResume : State :=
  { stPark with ms := { stPark.ms with tiles := [(0, ⟨.dram, false, 4096, false⟩), (5, ⟨.flash, false, 17, false⟩), (6, ⟨.dram, true, 4098, false⟩)] }
                reqs := [(0, { req0 1 true with len := 256 })] }
/-- A record that stops a request's reply, or parks it. -/
def recStop (w1 : Word64) : CmdRec := { recVerify with w1 := w1 }
/-- A request in REPLY with one token pending. -/
def reqPend : Req := { req0 3 false with pend := 1 }
/-- The state with a request in REPLY and no record that names it. -/
def stReply (ft : Word64) : State := { stGen recVerify 0 0 [] [(0, req0 3 false)] with ft := ft, ops := [] }
/-- A lead's operator whose remote write ended with REMOTE. -/
def opRem : RunOp := { opOf recFol with code := 0x11 }
/-- A lead's step waiting for its peers' parts. -/
def stWaitStage : State := { stGen recFol 0 0 [(0, gstep0 false 2)] [] with ops := [(0, opOf recFol)] }
/-- The same after REMOTE. -/
def stRemote : State := { stWaitStage with ops := [(0, opRem)] }
/-- The follower's state with a mailbox and a fabric time. -/
def stFol (step st : Nat) (ft : Word64) : State := { stGen recFol step st [(0, gstep0 true 8)] [] with ft := ft }
/-- A spill whose owner is well supplied. -/
def stSpillOk : State := stReg [(R.ADM_KV_SPILL_LOW 63, 0)]
/-- A request in REPLY, a record that stops it. -/
def stStop (w1 : Word64) : State := stGen (recStop w1) 0 0 [] [(0, reqPend)]
/-- The model of the record. -/
def mdl0 : GenModel := ((stGen recFol 0 0 [] []).genModel 0 0x100000000).toOption.get (by decide +kernel)
/-- Its layer. -/
def lay0 : GenLayer := mdl0.layers[0]?.get (by decide +kernel)
/-- What a check answers, or the reset state. -/
def okState (r : Except Err State) : State := match r with
  | .ok x => x
  | .error _ => State.reset
/-- A follower's record with a bad field. -/
def recBadFol : CmdRec := { recFol with w3 := 0 }
/-- A parked request's block. -/
def reqParked : Req := { req0 4 false with len := 256 }
/-- The model of the records, and a bad record that does not check. -/
theorem witness_models :
    okAnd ((stGen recFol 0 0 [] []).genModel 0 0x100000000) (fun m => decide ((m.layers[0]?).isSome = true ∧ m.rank = 0 ∧ m.g = 1 ∧
      (stWaitStage.ctrVal m 0 < 0 + m.g))) = true ∧
    okAnd ((stGen recBadFol 0 0 [] []).verifyFollow 0 (opOf recBadFol)) (fun _ => true) = false ∧
    Map.get? (stStop 0x20000).remTodo 0 = none := by decide +kernel
theorem witness_GenerationCommands :
    (stFol 0 0 (0 : Word64)).op? 0 = some (opOf recFol) ∧ (opOf recFol).dispatched = true ∧ (opOf recFol).ran = false ∧
    (opOf recFol).code = (0 : Byte) ∧ (opOf recFol).cmd.opcode.toNat = 515 ∧ (stFol 0 0 (0 : Word64)).mayStart 0 (opOf recFol) = true ∧
    ((stFol 0 0 (0 : Word64)).gsteps.get? 0).isSome = true ∧ stResume.op? 0 = some (opOf recVerify) ∧ (opOf recVerify).dispatched = true ∧
    (opOf recVerify).ran = false ∧ (opOf recVerify).code = (0 : Byte) ∧ (opOf recVerify).cmd.opcode.toNat = 515 ∧ stResume.mayStart 0 (opOf recVerify) = true ∧
    stResume.gsteps.get? 0 = none ∧ stResume.resumeWait (opOf recVerify) = 1 ∧ (stGen recVerify 0 0 [] [(0, req0 1 true)]).op? 0 = some (opOf recVerify) ∧
    (stGen recVerify 0 0 [] [(0, req0 1 true)]).mayStart 0 (opOf recVerify) = true ∧
    ((stGen recVerify 0 0 [] [(0, req0 1 true)]).req? (CmdRecF.reqId (opOf recVerify).cmd)).isSome = true ∧
    (stGen recVerify 0 0 [] [(0, req0 1 true)]).gsteps.get? 0 = none ∧ (stGen recVerify 0 0 [] [(0, req0 1 true)]).resumeWait (opOf recVerify) = 2 ∧
    (stGen recBadFol 0 0 [] []).op? 0 = some (opOf recBadFol) ∧ (opOf recBadFol).dispatched = true ∧ (opOf recBadFol).ran = false ∧
    (opOf recBadFol).code = (0 : Byte) ∧ (opOf recBadFol).cmd.opcode.toNat = 515 ∧ (stGen recBadFol 0 0 [] []).mayStart 0 (opOf recBadFol) = true ∧
    (stGen recBadFol 0 0 [] []).gsteps.get? 0 = none ∧ (stGen recBadFol 0 0 [] []).resumeWait (opOf recBadFol) = 0 ∧
    (stGen recFol 0 0 [] []).op? 0 = some (opOf recFol) ∧ (stGen recFol 0 0 [] []).mayStart 0 (opOf recFol) = true ∧
    (stGen recFol 0 0 [] []).gsteps.get? 0 = none ∧ (stGen recFol 0 0 [] []).resumeWait (opOf recFol) = 0 ∧ CmdRecF.reqV (opOf recFol).cmd = false ∧
    (BitVec.toNat (opOf recFol).cmd.w1).testBit 19 = true ∧ fld (opOf recFol).cmd.w1 63 21 = 0 ∧ (opOf recFol).cmd.w3 ≠ (0 : Word64) ∧
    fld (opOf recFol).cmd.w3 63 16 = 0 ∧ (opOf recFol).cmd.w4 = (0 : Word64) ∧ (opOf recFol).cmd.w5 = (0 : Word64) ∧
    (opOf recFol).cmd.w6 = (0 : Word64) ∧ (stStop (0x20000 : Word64)).op? 0 = some (opOf (recStop (0x20000 : Word64))) ∧
    (opOf (recStop (0x20000 : Word64))).dispatched = true ∧ (opOf (recStop (0x20000 : Word64))).ran = false ∧
    (opOf (recStop (0x20000 : Word64))).code = (0 : Byte) ∧ (opOf (recStop (0x20000 : Word64))).cmd.opcode.toNat = 515 ∧
    (stStop (0x20000 : Word64)).mayStart 0 (opOf (recStop (0x20000 : Word64))) = true ∧ (stStop (0x20000 : Word64)).gsteps.get? 0 = none ∧
    (stStop (0x20000 : Word64)).resumeWait (opOf (recStop (0x20000 : Word64))) = 0 ∧
    ((stStop (0x20000 : Word64)).req? (CmdRecF.reqId (opOf (recStop (0x20000 : Word64))).cmd)).isSome = true ∧
    CmdRecF.reqV (opOf (recStop (0x20000 : Word64))).cmd = true ∧ bit (opOf (recStop (0x20000 : Word64))).cmd.w1 16 = false ∧
    bit (opOf (recStop (0x20000 : Word64))).cmd.w1 17 = true ∧ fld (opOf (recStop (0x20000 : Word64))).cmd.w1 63 19 = 0 ∧
    fld (opOf (recStop (0x20000 : Word64))).cmd.w1 15 13 = 0 ∧ fld (opOf (recStop (0x20000 : Word64))).cmd.w1 7 5 = 0 ∧
    (opOf (recStop (0x20000 : Word64))).cmd.w2 = (0 : Word64) ∧ (opOf (recStop (0x20000 : Word64))).cmd.w3 = (0 : Word64) ∧
    (opOf (recStop (0x20000 : Word64))).cmd.w4 = (0 : Word64) ∧ (opOf (recStop (0x20000 : Word64))).cmd.w5 = (0 : Word64) ∧
    (opOf (recStop (0x20000 : Word64))).cmd.w6 = (0 : Word64) ∧ (stStop (0x40000 : Word64)).op? 0 = some (opOf (recStop (0x40000 : Word64))) ∧
    (opOf (recStop (0x40000 : Word64))).dispatched = true ∧ (opOf (recStop (0x40000 : Word64))).ran = false ∧
    (opOf (recStop (0x40000 : Word64))).code = (0 : Byte) ∧ (opOf (recStop (0x40000 : Word64))).cmd.opcode.toNat = 515 ∧
    (stStop (0x40000 : Word64)).mayStart 0 (opOf (recStop (0x40000 : Word64))) = true ∧ (stStop (0x40000 : Word64)).gsteps.get? 0 = none ∧
    (stStop (0x40000 : Word64)).resumeWait (opOf (recStop (0x40000 : Word64))) = 0 ∧
    ((stStop (0x40000 : Word64)).req? (CmdRecF.reqId (opOf (recStop (0x40000 : Word64))).cmd)).isSome = true ∧
    CmdRecF.reqV (opOf (recStop (0x40000 : Word64))).cmd = true ∧ bit (opOf (recStop (0x40000 : Word64))).cmd.w1 16 = false ∧
    bit (opOf (recStop (0x40000 : Word64))).cmd.w1 18 = true ∧ fld (opOf (recStop (0x40000 : Word64))).cmd.w1 63 19 = 0 ∧
    fld (opOf (recStop (0x40000 : Word64))).cmd.w1 15 13 = 0 ∧ fld (opOf (recStop (0x40000 : Word64))).cmd.w1 7 5 = 0 ∧
    (opOf (recStop (0x40000 : Word64))).cmd.w2 = (0 : Word64) ∧ (opOf (recStop (0x40000 : Word64))).cmd.w3 = (0 : Word64) ∧
    (opOf (recStop (0x40000 : Word64))).cmd.w4 = (0 : Word64) ∧ (opOf (recStop (0x40000 : Word64))).cmd.w5 = (0 : Word64) ∧
    (opOf (recStop (0x40000 : Word64))).cmd.w6 = (0 : Word64) ∧ stRemote.gsteps.get? 0 = some (gstep0 false 2) ∧ stRemote.op? 0 = some opRem ∧
    stWaitStage.gsteps.get? 0 = some (gstep0 false 2) ∧ stWaitStage.op? 0 = some (opOf recFol) ∧ (opOf recFol).code ≠ (17 : Byte) ∧
    (gstep0 false 2).read = true ∧ (gstep0 false 2).phase = 2 ∧
    stWaitStage.ctrVal mdl0 ((gstep0 false 2).layer % 2) < (gstep0 false 2).base.getD ((gstep0 false 2).layer % 2) 0 + mdl0.g ∧
    (stFol 0 0 (0 : Word64)).gsteps.get? 0 = some (gstep0 true 8) ∧ (gstep0 true 8).follow = true ∧ (gstep0 true 8).phase = 8 ∧
    leNat (List.take 4 (List.drop 8 ((stFol 0 0 (0 : Word64)).bytesAt mdl0.exch 128))) ≠ 1 ∧
    leNat (List.take 4 (List.drop 8 ((stFol 0 0 (0 : Word64)).bytesAt mdl0.exch 128))) ≠ 2 ∧
    leNat (List.take 8 ((stFol 0 0 (0 : Word64)).bytesAt mdl0.exch 128)) = (gstep0 true 8).seen ∧
    (stFol 1 1 (0 : Word64)).gsteps.get? 0 = some (gstep0 true 8) ∧ (stFol 1 1 (0 : Word64)).op? 0 = some (opOf recFol) ∧
    leNat (List.take 4 (List.drop 8 ((stFol 1 1 (0 : Word64)).bytesAt mdl0.exch 128))) = 1 ∧
    (stFol 1 2 (0 : Word64)).gsteps.get? 0 = some (gstep0 true 8) ∧ (stFol 1 2 (0 : Word64)).op? 0 = some (opOf recFol) ∧
    leNat (List.take 4 (List.drop 8 ((stFol 1 2 (0 : Word64)).bytesAt mdl0.exch 128))) = 2 ∧
    (stFol 1 0 (0 : Word64)).gsteps.get? 0 = some (gstep0 true 8) ∧ (stFol 1 0 (0 : Word64)).op? 0 = some (opOf recFol) ∧
    leNat (List.take 4 (List.drop 8 ((stFol 1 0 (0 : Word64)).bytesAt mdl0.exch 128))) ≠ 1 ∧
    leNat (List.take 4 (List.drop 8 ((stFol 1 0 (0 : Word64)).bytesAt mdl0.exch 128))) ≠ 2 ∧
    leNat (List.take 8 ((stFol 1 0 (0 : Word64)).bytesAt mdl0.exch 128)) ≠ (gstep0 true 8).seen ∧ (stFol 1 0 (0 : Word64)).turn = none ∧
    (stFol 0 0 (0x1312d00 : Word64)).gsteps.get? 0 = some (gstep0 true 8) ∧ (stFol 0 0 (0x1312d00 : Word64)).op? 0 = some (opOf recFol) ∧
    BitVec.toNat (gstep0 true 8).at_ + (gstep0 true 8).idleMs * 0x3d0900 ≤ BitVec.toNat (stFol 0 0 (0x1312d00 : Word64)).ft ∧
    leNat ((stFol 0 0 (0x1312d00 : Word64)).bytesAt mdl0.exch 8) = (gstep0 true 8).seen ∧
    (stFol 1 0 (0x1312d00 : Word64)).gsteps.get? 0 = some (gstep0 true 8) ∧ (stFol 1 0 (0x1312d00 : Word64)).op? 0 = some (opOf recFol) ∧
    leNat ((stFol 1 0 (0x1312d00 : Word64)).bytesAt mdl0.exch 8) ≠ (gstep0 true 8).seen ∧
    BitVec.toNat (stFol 0 0 (0 : Word64)).ft < BitVec.toNat (gstep0 true 8).at_ + (gstep0 true 8).idleMs * 0x3d0900 ∧
    (stReply (0xee6b2800 : Word64)).req? 0 = some (req0 3 false) ∧ (req0 3 false).st = 3 ∧
    BitVec.toNat (req0 3 false).lastFt + 0xee6b2800 ≤ BitVec.toNat (stReply (0xee6b2800 : Word64)).ft ∧
    ((List.any (stReply (0xee6b2800 : Word64)).ops fun p => p.2.cmd.opcode == (515 : BitVec 16) && ((stReply (0xee6b2800 : Word64)).requestsOf
      p.2.cmd).contains 0) = false) ∧
    (stReply (0xee6b27ff : Word64)).req? 0 = some (req0 3 false) ∧
    BitVec.toNat (stReply (0xee6b27ff : Word64)).ft < BitVec.toNat (req0 3 false).lastFt + 0xee6b2800 ∧
    stSpillOk.rdF (R.ADM_KV_SPILL_LOW 63) 24 0 ≤ stSpillOk.dFree 63 ∧ (∀ p ∈ stSpillOk.reqs, p.2.tenant = 63 → p.2.st ≠ 4) ∧
    (∀ p ∈ (stReply (0 : Word64)).reqs, p.2.tenant = 0 → p.2.st ≠ 4) := by decide +kernel
/-! ### Chapter 11 -/

/-- An UPDATE_SWEEP record of one mode on cluster 0's MFU: shard map at 0x4400, epoch 1, commit block at 0x4000. -/
def recUs (w1 w4 w5 : Word64) : CmdRec := { rec0 0x0500 with place := 0x60000000, w0 := 0x4400, w1 := w1, w2 := 1, w3 := 0x4000, w4 := w4, w5 := w5 }
/-- A COMMIT record: flags W3, its level slot 0, scratch at 0x4800. -/
def recCom (t w3 : Word64) : CmdRec :=
  { rec0 0x0503 with place := 0x60000000, w0 := 0x4000, w1 := t, w2 := 0x80, w3 := w3, w4 := 0x4800 }
/-- Memory with a commit block (COMMITTED, PENDING, STATE, FLAGS), a partner log at 0x4100, a local log at 0x4200, an empty shard map. -/
def stCb (com pend st fl wpos : Nat) (c : CmdRec) : State :=
  { stMemOp c with
    mem := Mem.write (Mem.write (Mem.write (Mem.write [] 0x4000 (leBytes 8 com ++ leBytes 8 pend ++ leBytes 4 0 ++ leBytes 1 st ++ leBytes 1 fl)) 0x4100
      (leBytes 2 1 ++ leBytes 2 1 ++ leBytes 4 5 ++ leBytes 16 0 ++ leBytes 8 65472 ++ leBytes 8 2 ++ leBytes 8 0)) 0x4200
      (leBytes 2 1 ++ leBytes 2 0 ++ leBytes 4 5 ++ leBytes 8 0x10000 ++ leBytes 8 2 ++ leBytes 8 wpos ++ leBytes 16 0)) 0x4400 [1] }
/-- A descriptor of a SEND of commit block 0x4000. -/
def conv0 (send : Bool) : ConvRun := ⟨⟨send, false, 0, 1, 1, 1, 0, 0, 0, 0, 0, 0, 0, 0, 0, 0, 0x4000⟩, 0, [], false, 0, 0, [], []⟩
/-- The state with conversions under way. -/
def withConv (s : State) (l : Map ConvRun) : State := { s with convs := l }
/-- A FOLD to package 2 under way, one record at position 0; the acknowledged position and tries given. -/
def fold0 (ack tries : Nat) : FoldRun := ⟨0x4000, 1, 0x4100, some 2, 5, 0, 64, ack, [(0, List.replicate 64 0)], false, false, tries, 0⟩
/-- A RECEIVE under way from package 2, stream 5, log 0x4200, idle limit 1 ms. -/
def recv0 : RecvRun := ⟨2, 5, 0x4200, 1, 0, 64, []⟩
/-- The state with a FOLD under way. -/
def stFold (f : FoldRun) : State := { stCb 1 0 4 0 64 (recUs 2 0x4100 0) with folds := [(0, f)] }
/-- The state with a RECEIVE under way. -/
def stRecv : State := { stCb 1 0 4 0 64 (recUs 4 0x4200 1) with recvs := [(0, recv0)] }
/-- A RECEIVE record. -/
def recRcv (w4 : Word64) : CmdRec := { rec0 0x0500 with place := 0x60000000, w1 := 4, w3 := 2, w4 := w4, w5 := 1 }
/-- The state of a commit block in which the reads of an UPDATE_SWEEP have begun. -/
def begunUs (s : State) (c : CmdRec) (rd : List Shard → State → RunOp → List (Nat × Nat)) : State := s.begun 0 (opOf c) (mapReads rd s (opOf c))
/-- The SUMSQ, SWEEP, FOLD, APPLY and RECEIVE records. -/
def recSum : CmdRec := recUs 0 0x4800 0
/-- SWEEP. -/
def recSwp : CmdRec := { recUs 1 0 0 with w7 := 0x4100 }
/-- APPLY. -/
def recApp : CmdRec := recUs 3 0x4200 1
/-- FOLD to the partner log. -/
def recFld : CmdRec := recUs 2 0x4100 0
/-- FOLD to the local log. -/
def recFldL : CmdRec := recUs 2 0x4200 0
/-- A SWEEP with an unused field set. -/
def recSwpBad : CmdRec := recUs 0x100 0 0
/-- HOLD is set on cluster 0's MFU. -/
def stHold : State := { stReg [(R.MFU_CTL 0, 1)] with ops := [(0, opOf recSum)], readyQ := [(0, [0])] }
/-- An operator whose reads have begun, ready. -/
def stTouched (c : CmdRec) : State := { stMem with ops := [(0, opTouched c)], readyQ := [(0, [0])] }
/-- A SWEEP while a SEND of its tenant runs. -/
def stSending : State :=
  { withConv (stMemOp (recUs 1 0 0)) [(1, conv0 true)] with ops := [(0, opOf (recUs 1 0 0)), (1, opOf (rec0 0x0604))] }
/-- A COMMIT record that does not check. -/
def recComBad : CmdRec := { recCom 1 0 with w2 := 0 }
/-- A COMMIT under way at a round, to be started or not. -/
def com0 (waiting : Bool) : CommitRun := ⟨false, 0x4000, 1, 0x4800, [0], 0, 0, 0, true, waiting⟩
/-- The state with it. -/
def stCom (waiting : Bool) : State := { stCb 0 1 2 0 0 (recCom 1 0) with commits := [(0, com0 waiting)] }
/-- What a COMMIT or RESOLVE starts from. -/
def comOf (s : State) (c : CmdRec) : CommitRun := match s.commitOf (opOf c) with
  | .ok r => r
  | .error _ => com0 false
/-- What a step of a computation leaves, or the reset state. -/
def stOk (r : Except Err State) : State := match r with
  | .ok x => x
  | .error _ => State.reset
/-- A FOLD's effect in the state in which its reads have begun. -/
def begunFld (com : Nat) : State := begunUs (stCb com 0 4 0 64 recFld) recFld (fun hs t o => State.foldReads hs t o)
/-- A RECEIVE's. -/
def begunRcv : State := begunUs (stCb 1 0 4 0 64 (recRcv 0x4200)) (recRcv 0x4200) (fun _ _ _ => [])
/-- What the effect of a RECEIVE answers. -/
def recvTo : State := stOk (State.receiveFx 0 (opTouched (recRcv 0x4200)) begunRcv)
/-- Its operator there. -/
def recvOp : RunOp := (recvTo.op? 0).getD (opOf (recRcv 0x4200))
/-- A FOLD into the local log. -/
def fold1 : FoldRun := ⟨0x4000, 1, 0x4200, none, 5, 0, 0, 0, [], false, false, 0, 0⟩
/-- The state with it. -/
def stFoldL : State := { stCb 1 0 4 0 64 recFldL with folds := [(0, fold1)] }
/-- The same while a write of it waits. -/
def stFoldW : State := { stFoldL with ms := { stMem.ms with waits := [⟨{ accW 0 with op := some 0 }, false⟩] } }
/-- A RECEIVE at a fabric time. -/
def stRecvAt (t : Word64) : State := { stRecv with ft := t }
/-- A RECEIVE past the last group's end. -/
def stRecvEnd : State := { stRecv with recvs := [(0, { recv0 with endAt := 0 })] }
/-- A FOLD at a fabric time. -/
def stFoldAt (f : FoldRun) (t : Word64) : State := { stFold f with ft := t }
/-- Its record, and the log of a RECEIVE. -/
def log0 : List Byte := [1, 2, 3, 4]
/-- Effects that succeed and effects that are refused; COMMIT records that check, in the states their rounds ask; a local log that is durable. -/
theorem witness_effects :
    okAnd (State.sumsqFx 0 (opTouched recSum) (begunUs (stCb 0 0 0 0 0 recSum) recSum gradReads)) (fun u => (u.op? 0).isSome) = true ∧
    okAnd (State.foldFx 0 (opTouched recFld) (begunFld 1)) (fun u => (u.op? 0).any (fun p => p.code == 0) && (Map.get? u.folds 0).isSome) = true ∧
    okAnd (State.foldFx 0 (opTouched recFld) (begunFld 0)) (fun _ => true) = false ∧
    okAnd (State.receiveFx 0 (opTouched (recRcv 0x4200)) begunRcv) (fun u => (u.op? 0).any (fun p => p.code == 0)) = true ∧
    okAnd ((stCb 0 1 1 0 0 recComBad).commitOf (opOf recComBad)) (fun _ => true) = false ∧
    okAnd ((stCb 0 1 1 0x80 0 (recCom 1 0)).commitOf (opOf (recCom 1 0))) (fun r => (stCb 0 1 1 0x80 0 (recCom 1 0)).cbFlag r.cb 7) = true ∧
    okAnd ((stCb 0 1 1 0 0 (recCom 1 0)).commitOf (opOf (recCom 1 0))) (fun _ => true) = true ∧
    okAnd ((stCb 0 1 4 0 0 (recCom 1 0)).commitOf (opOf (recCom 1 0))) (fun _ => true) = true ∧
    okAnd ((stCb 1 0 4 0 0 (recCom 1 2)).commitOf (opOf (recCom 1 2))) (fun _ => true) = true ∧
    okAnd ((stCb 0 0 3 0 0 (recCom 1 2)).commitOf (opOf (recCom 1 2))) (fun _ => true) = true ∧
    okAnd (stRecv.logOf 0 0x4200) (fun l => l.wpos == 64) = true ∧
    okAnd (stFoldL.logOf 0 0x4200) (fun l => (State.tilesOf l.base 0).all stFoldL.tileDurable) = true := by decide +kernel
theorem witness_LearningOperators :
    (stCb 0 0 0 0 0 recSum).op? 0 = some (opOf recSum) ∧ (opOf recSum).dispatched = true ∧ (opOf recSum).ran = false ∧
    (opOf recSum).code = (0 : Byte) ∧ (opOf recSum).cmd.opcode.toNat = 1280 ∧ (stCb 0 0 0 0 0 recSum).mayStart 0 (opOf recSum) = true ∧
    State.sweepMode (opOf recSum).cmd = 0 ∧ (stCb 0 0 0 0 0 recSum).mfuHeld (opOf recSum) = false ∧ fld (opOf recSum).cmd.w1 7 3 = 0 ∧
    fld (opOf recSum).cmd.w1 63 9 = 0 ∧ (opOf recSum).cmd.w6 = (0 : Word64) ∧ bit (opOf recSum).cmd.w1 8 = false ∧
    (opOf recSum).cmd.w7 = (0 : Word64) ∧
    begunUs (stCb 0 0 0 0 0 recSum) recSum gradReads = (stCb 0 0 0 0 0 recSum).begun 0 (opOf recSum) (mapReads gradReads (stCb 0 0 0 0 0 recSum)
      (opOf recSum)) ∧
    (begunUs (stCb 0 0 0 0 0 recSum) recSum gradReads).reading (RdFor.op 0) = false ∧ (stCb 0 0 0 0 0 recSwp).op? 0 = some (opOf recSwp) ∧
    (opOf recSwp).dispatched = true ∧ (opOf recSwp).ran = false ∧ (opOf recSwp).code = (0 : Byte) ∧ (opOf recSwp).cmd.opcode.toNat = 1280 ∧
    (stCb 0 0 0 0 0 recSwp).mayStart 0 (opOf recSwp) = true ∧ State.sweepMode (opOf recSwp).cmd = 1 ∧
    (stCb 0 0 0 0 0 recSwp).mfuHeld (opOf recSwp) = false ∧ fld (opOf recSwp).cmd.w1 7 3 = 0 ∧ fld (opOf recSwp).cmd.w1 63 9 = 0 ∧
    (opOf recSwp).cmd.w6 = (0 : Word64) ∧ bit (opOf recSwp).cmd.w1 8 = false ∧ (∀ e ∈ (stCb 0 0 0 0 0 recSwp).convs, e.2.d.send = false) ∧
    ((begunUs (stCb 0 0 0 0 0 recSwp) recSwp fun hs x o => (BitVec.toNat o.cmd.w3, 64) :: List.flatMap (fun x => x.sweepReads) hs) = (stCb 0 0 0 0
      0 recSwp).begun 0 (opOf recSwp) (mapReads (fun hs x o => (BitVec.toNat o.cmd.w3, 64) :: List.flatMap (fun x => x.sweepReads) hs) (stCb 0 0 0 0
      0 recSwp) (opOf recSwp))) ∧
    ((begunUs (stCb 0 0 0 0 0 recSwp) recSwp fun hs x o => (BitVec.toNat o.cmd.w3, 64) :: List.flatMap (fun x => x.sweepReads) hs).reading
      (RdFor.op 0) = false) ∧
    (stCb 0 0 0 0 0 recApp).op? 0 = some (opOf recApp) ∧ (opOf recApp).dispatched = true ∧ (opOf recApp).ran = false ∧
    (opOf recApp).code = (0 : Byte) ∧ (opOf recApp).cmd.opcode.toNat = 1280 ∧ (stCb 0 0 0 0 0 recApp).mayStart 0 (opOf recApp) = true ∧
    State.sweepMode (opOf recApp).cmd = 3 ∧ (stCb 0 0 0 0 0 recApp).mfuHeld (opOf recApp) = false ∧ fld (opOf recApp).cmd.w1 7 3 = 0 ∧
    fld (opOf recApp).cmd.w1 63 9 = 0 ∧ (opOf recApp).cmd.w6 = (0 : Word64) ∧ bit (opOf recApp).cmd.w1 8 = false ∧
    (opOf recApp).cmd.w7 = (0 : Word64) ∧
    ((begunUs (stCb 0 0 0 0 0 recApp) recApp fun hs t o => State.applyReads hs t o) = (stCb 0 0 0 0 0 recApp).begun 0 (opOf recApp) (mapReads (fun
      hs t o => State.applyReads hs t o) (stCb 0 0 0 0 0 recApp) (opOf recApp))) ∧
    ((begunUs (stCb 0 0 0 0 0 recApp) recApp fun hs t o => State.applyReads hs t o).reading (RdFor.op 0) = false) ∧
    (stMemOp (rec0 1281)).op? 0 = some (opOf (rec0 1281)) ∧ (opOf (rec0 1281)).dispatched = true ∧ (opOf (rec0 1281)).ran = false ∧
    (opOf (rec0 1281)).code = (0 : Byte) ∧ (opOf (rec0 1281)).cmd.opcode.toNat = 1281 ∧ (stMemOp (rec0 1281)).mayStart 0 (opOf (rec0 1281)) = true ∧
    (stMemOp (rec0 1281)).mfuHeld (opOf (rec0 1281)) = false ∧
    begunOf (rec0 1281) = (stMemOp (rec0 1281)).begun 0 (opOf (rec0 1281)) (noReads (stMemOp (rec0 1281)) (opOf (rec0 1281))) ∧
    (begunOf (rec0 1281)).reading (RdFor.op 0) = false ∧ (stMemOp (rec0 1282)).op? 0 = some (opOf (rec0 1282)) ∧
    (opOf (rec0 1282)).dispatched = true ∧ (opOf (rec0 1282)).ran = false ∧ (opOf (rec0 1282)).code = (0 : Byte) ∧
    (opOf (rec0 1282)).cmd.opcode.toNat = 1282 ∧ (stMemOp (rec0 1282)).mayStart 0 (opOf (rec0 1282)) = true ∧
    (stMemOp (rec0 1282)).mfuHeld (opOf (rec0 1282)) = false ∧
    begunOf (rec0 1282) = (stMemOp (rec0 1282)).begun 0 (opOf (rec0 1282)) (noReads (stMemOp (rec0 1282)) (opOf (rec0 1282))) ∧
    (begunOf (rec0 1282)).reading (RdFor.op 0) = false ∧ stHold.op? 0 = some (opOf recSum) ∧ stHold.mayStart 0 (opOf recSum) = true ∧
    stHold.mfuHeld (opOf recSum) = true ∧
    (Instr.apply 0, 1280) ∈ [(Instr.sumsq 0, 1280), (Instr.sweep 0, 1280), (Instr.apply 0, 1280), (Instr.nsOrtho 0, 1281), (Instr.kronPrecond 0,
      1282)] ∧
    (stTouched recSwpBad).op? 0 = some (opTouched recSwpBad) ∧ (opTouched recSwpBad).dispatched = true ∧ (opTouched recSwpBad).ran = false ∧
    (opTouched recSwpBad).code = (0 : Byte) ∧ (opTouched recSwpBad).cmd.opcode.toNat = 1280 ∧
    (stTouched recSwpBad).mayStart 0 (opTouched recSwpBad) = true ∧ (stTouched recSwpBad).mfuHeld (opTouched recSwpBad) = false ∧
    (stTouched recSwpBad).convs = [] ∧ (opTouched recSwpBad).touched = true ∧ (stTouched recSwpBad).reading (RdFor.op 0) = false ∧
    (Instr.sumsq 0, State.sweepMode (opTouched recSwpBad).cmd) ∈ [(Instr.sumsq 0, 0), (Instr.sweep 0, 1), (Instr.apply 0, 3)] ∧
    State.sweepMode (opTouched recSwpBad).cmd < 2 ∧ bit (opTouched recSwpBad).cmd.w1 8 = true ∧
    stSending.op? 0 = some (opOf (recUs (1 : Word64) (0 : Word64) (0 : Word64))) ∧
    (opOf (recUs (1 : Word64) (0 : Word64) (0 : Word64))).dispatched = true ∧ (opOf (recUs (1 : Word64) (0 : Word64) (0 : Word64))).ran = false ∧
    (opOf (recUs (1 : Word64) (0 : Word64) (0 : Word64))).code = (0 : Byte) ∧
    (opOf (recUs (1 : Word64) (0 : Word64) (0 : Word64))).cmd.opcode.toNat = 1280 ∧
    stSending.mayStart 0 (opOf (recUs (1 : Word64) (0 : Word64) (0 : Word64))) = true ∧ (1, conv0 true) ∈ stSending.convs ∧
    (1, conv0 true).2.d.send = true ∧ (1, conv0 true).2.d.commit = BitVec.toNat (opOf (recUs (1 : Word64) (0 : Word64) (0 : Word64))).cmd.w3 ∧
    (Option.any (fun x => x.tenant == (opOf (recUs (1 : Word64) (0 : Word64) (0 : Word64))).tenant) (stSending.op? (1, conv0 true).1) = true) := by decide +kernel
theorem witness_CommitOperators :
    (stCb 0 1 1 0 0 recComBad).op? 0 = some (opOf recComBad) ∧ (opOf recComBad).dispatched = true ∧ (opOf recComBad).ran = false ∧
    (opOf recComBad).code = (0 : Byte) ∧ (opOf recComBad).cmd.opcode.toNat = 1283 ∧ (stCb 0 1 1 0 0 recComBad).mayStart 0 (opOf recComBad) = true ∧
    (stCb 0 1 1 0 0 recComBad).commits.get? 0 = none ∧
    (Instr.commit 0, fld (opOf recComBad).cmd.w3 2 1) ∈ [(Instr.commit 0, 0), (Instr.resolve 0, 1)] ∧
    (stCb 0 1 1 128 0 (recCom (1 : Word64) (0 : Word64))).op? 0 = some (opOf (recCom (1 : Word64) (0 : Word64))) ∧
    (opOf (recCom (1 : Word64) (0 : Word64))).dispatched = true ∧ (opOf (recCom (1 : Word64) (0 : Word64))).ran = false ∧
    (opOf (recCom (1 : Word64) (0 : Word64))).code = (0 : Byte) ∧ (opOf (recCom (1 : Word64) (0 : Word64))).cmd.opcode.toNat = 1283 ∧
    (stCb 0 1 1 128 0 (recCom (1 : Word64) (0 : Word64))).mayStart 0 (opOf (recCom (1 : Word64) (0 : Word64))) = true ∧
    (stCb 0 1 1 128 0 (recCom (1 : Word64) (0 : Word64))).commits.get? 0 = none ∧
    (Instr.commit 0, fld (opOf (recCom (1 : Word64) (0 : Word64))).cmd.w3 2 1) ∈ [(Instr.commit 0, 0), (Instr.resolve 0, 1)] ∧
    (stCb 0 1 1 0 0 (recCom (1 : Word64) (0 : Word64))).op? 0 = some (opOf (recCom (1 : Word64) (0 : Word64))) ∧
    (stCb 0 1 1 0 0 (recCom (1 : Word64) (0 : Word64))).mayStart 0 (opOf (recCom (1 : Word64) (0 : Word64))) = true ∧
    (stCb 0 1 1 0 0 (recCom (1 : Word64) (0 : Word64))).commits.get? 0 = none ∧
    (stCb 0 1 1 0 0 (recCom (1 : Word64) (0 : Word64))).cbFlag (comOf (stCb 0 1 1 0 0 (recCom (1 : Word64) (0 : Word64))) (recCom (1 : Word64) (0
      : Word64))).cb 7 = false ∧
    (comOf (stCb 0 1 1 0 0 (recCom (1 : Word64) (0 : Word64))) (recCom (1 : Word64) (0 : Word64))).resolve = false ∧
    fld (opOf (recCom (1 : Word64) (0 : Word64))).cmd.w3 2 1 = 0 ∧
    (comOf (stCb 0 1 1 0 0 (recCom (1 : Word64) (0 : Word64))) (recCom (1 : Word64) (0 : Word64))).t = (stCb 0 1 1 0 0 (recCom (1 : Word64) (0 :
      Word64))).cbCommitted (comOf (stCb 0 1 1 0 0 (recCom (1 : Word64) (0 : Word64))) (recCom (1 : Word64) (0 : Word64))).cb + 1 ∧
    (stCb 0 1 1 0 0 (recCom (1 : Word64) (0 : Word64))).cbState (comOf (stCb 0 1 1 0 0 (recCom (1 : Word64) (0 : Word64))) (recCom (1 : Word64) (0
      : Word64))).cb = cbSwept ∧
    (stCb 0 1 1 0 0 (recCom (1 : Word64) (0 : Word64))).cbPending (comOf (stCb 0 1 1 0 0 (recCom (1 : Word64) (0 : Word64))) (recCom (1 : Word64)
      (0 : Word64))).cb = (comOf (stCb 0 1 1 0 0 (recCom (1 : Word64) (0 : Word64))) (recCom (1 : Word64) (0 : Word64))).t ∧
    (stCb 0 1 1 0 0 (recCom (1 : Word64) (0 : Word64))).cbFlag (comOf (stCb 0 1 1 0 0 (recCom (1 : Word64) (0 : Word64))) (recCom (1 : Word64) (0
      : Word64))).cb 0 = false ∧
    bit (opOf (recCom (1 : Word64) (0 : Word64))).cmd.w3 0 = false ∧
    (stCb 0 1 1 0 0 (recCom (1 : Word64) (1 : Word64))).op? 0 = some (opOf (recCom (1 : Word64) (1 : Word64))) ∧
    (opOf (recCom (1 : Word64) (1 : Word64))).dispatched = true ∧ (opOf (recCom (1 : Word64) (1 : Word64))).ran = false ∧
    (opOf (recCom (1 : Word64) (1 : Word64))).code = (0 : Byte) ∧ (opOf (recCom (1 : Word64) (1 : Word64))).cmd.opcode.toNat = 1283 ∧
    (stCb 0 1 1 0 0 (recCom (1 : Word64) (1 : Word64))).mayStart 0 (opOf (recCom (1 : Word64) (1 : Word64))) = true ∧
    (stCb 0 1 1 0 0 (recCom (1 : Word64) (1 : Word64))).commits.get? 0 = none ∧
    (stCb 0 1 1 0 0 (recCom (1 : Word64) (1 : Word64))).cbFlag (comOf (stCb 0 1 1 0 0 (recCom (1 : Word64) (1 : Word64))) (recCom (1 : Word64) (1
      : Word64))).cb 7 = false ∧
    (comOf (stCb 0 1 1 0 0 (recCom (1 : Word64) (1 : Word64))) (recCom (1 : Word64) (1 : Word64))).resolve = false ∧
    fld (opOf (recCom (1 : Word64) (1 : Word64))).cmd.w3 2 1 = 0 ∧
    (comOf (stCb 0 1 1 0 0 (recCom (1 : Word64) (1 : Word64))) (recCom (1 : Word64) (1 : Word64))).t = (stCb 0 1 1 0 0 (recCom (1 : Word64) (1 :
      Word64))).cbCommitted (comOf (stCb 0 1 1 0 0 (recCom (1 : Word64) (1 : Word64))) (recCom (1 : Word64) (1 : Word64))).cb + 1 ∧
    (stCb 0 1 1 0 0 (recCom (1 : Word64) (1 : Word64))).cbState (comOf (stCb 0 1 1 0 0 (recCom (1 : Word64) (1 : Word64))) (recCom (1 : Word64) (1
      : Word64))).cb = cbSwept ∧
    bit (opOf (recCom (1 : Word64) (1 : Word64))).cmd.w3 0 = true ∧
    (stCb 0 1 4 0 0 (recCom (1 : Word64) (0 : Word64))).op? 0 = some (opOf (recCom (1 : Word64) (0 : Word64))) ∧
    (stCb 0 1 4 0 0 (recCom (1 : Word64) (0 : Word64))).mayStart 0 (opOf (recCom (1 : Word64) (0 : Word64))) = true ∧
    (stCb 0 1 4 0 0 (recCom (1 : Word64) (0 : Word64))).commits.get? 0 = none ∧
    (stCb 0 1 4 0 0 (recCom (1 : Word64) (0 : Word64))).cbFlag (comOf (stCb 0 1 4 0 0 (recCom (1 : Word64) (0 : Word64))) (recCom (1 : Word64) (0
      : Word64))).cb 7 = false ∧
    (comOf (stCb 0 1 4 0 0 (recCom (1 : Word64) (0 : Word64))) (recCom (1 : Word64) (0 : Word64))).resolve = false ∧
    (comOf (stCb 0 1 4 0 0 (recCom (1 : Word64) (0 : Word64))) (recCom (1 : Word64) (0 : Word64))).t = (stCb 0 1 4 0 0 (recCom (1 : Word64) (0 :
      Word64))).cbCommitted (comOf (stCb 0 1 4 0 0 (recCom (1 : Word64) (0 : Word64))) (recCom (1 : Word64) (0 : Word64))).cb + 1 ∧
    (stCb 0 1 4 0 0 (recCom (1 : Word64) (0 : Word64))).cbState (comOf (stCb 0 1 4 0 0 (recCom (1 : Word64) (0 : Word64))) (recCom (1 : Word64) (0
      : Word64))).cb ≠ cbIdle ∧
    (stCb 0 1 4 0 0 (recCom (1 : Word64) (0 : Word64))).cbState (comOf (stCb 0 1 4 0 0 (recCom (1 : Word64) (0 : Word64))) (recCom (1 : Word64) (0
      : Word64))).cb ≠ cbSwept ∧
    (stCb 1 0 4 0 0 (recCom (1 : Word64) (2 : Word64))).op? 0 = some (opOf (recCom (1 : Word64) (2 : Word64))) ∧
    (opOf (recCom (1 : Word64) (2 : Word64))).dispatched = true ∧ (opOf (recCom (1 : Word64) (2 : Word64))).ran = false ∧
    (opOf (recCom (1 : Word64) (2 : Word64))).code = (0 : Byte) ∧ (opOf (recCom (1 : Word64) (2 : Word64))).cmd.opcode.toNat = 1283 ∧
    (stCb 1 0 4 0 0 (recCom (1 : Word64) (2 : Word64))).mayStart 0 (opOf (recCom (1 : Word64) (2 : Word64))) = true ∧
    (stCb 1 0 4 0 0 (recCom (1 : Word64) (2 : Word64))).commits.get? 0 = none ∧
    (stCb 1 0 4 0 0 (recCom (1 : Word64) (2 : Word64))).cbFlag (comOf (stCb 1 0 4 0 0 (recCom (1 : Word64) (2 : Word64))) (recCom (1 : Word64) (2
      : Word64))).cb 7 = false ∧
    (comOf (stCb 1 0 4 0 0 (recCom (1 : Word64) (2 : Word64))) (recCom (1 : Word64) (2 : Word64))).resolve = true ∧
    fld (opOf (recCom (1 : Word64) (2 : Word64))).cmd.w3 2 1 = 1 ∧
    (stCb 0 0 6 0 0 (recCom (1 : Word64) (2 : Word64))).op? 0 = some (opOf (recCom (1 : Word64) (2 : Word64))) ∧
    (stCb 0 0 6 0 0 (recCom (1 : Word64) (2 : Word64))).mayStart 0 (opOf (recCom (1 : Word64) (2 : Word64))) = true ∧
    (stCb 0 0 6 0 0 (recCom (1 : Word64) (2 : Word64))).commits.get? 0 = none ∧
    (stCb 0 0 6 0 0 (recCom (1 : Word64) (2 : Word64))).cbFlag (comOf (stCb 0 0 6 0 0 (recCom (1 : Word64) (2 : Word64))) (recCom (1 : Word64) (2
      : Word64))).cb 7 = false ∧
    (comOf (stCb 0 0 6 0 0 (recCom (1 : Word64) (2 : Word64))) (recCom (1 : Word64) (2 : Word64))).resolve = true ∧
    (stCb 0 0 0 0 0 (recCom (1 : Word64) (2 : Word64))).op? 0 = some (opOf (recCom (1 : Word64) (2 : Word64))) ∧
    (stCb 0 0 0 0 0 (recCom (1 : Word64) (2 : Word64))).mayStart 0 (opOf (recCom (1 : Word64) (2 : Word64))) = true ∧
    (stCb 0 0 0 0 0 (recCom (1 : Word64) (2 : Word64))).commits.get? 0 = none ∧
    (stCb 0 0 0 0 0 (recCom (1 : Word64) (2 : Word64))).cbFlag (comOf (stCb 0 0 0 0 0 (recCom (1 : Word64) (2 : Word64))) (recCom (1 : Word64) (2
      : Word64))).cb 7 = false ∧
    (comOf (stCb 0 0 0 0 0 (recCom (1 : Word64) (2 : Word64))) (recCom (1 : Word64) (2 : Word64))).resolve = true ∧
    (stCb 0 0 3 0 0 (recCom (1 : Word64) (2 : Word64))).op? 0 = some (opOf (recCom (1 : Word64) (2 : Word64))) ∧
    (stCb 0 0 3 0 0 (recCom (1 : Word64) (2 : Word64))).mayStart 0 (opOf (recCom (1 : Word64) (2 : Word64))) = true ∧
    (stCb 0 0 3 0 0 (recCom (1 : Word64) (2 : Word64))).commits.get? 0 = none ∧
    (stCb 0 0 3 0 0 (recCom (1 : Word64) (2 : Word64))).cbFlag (comOf (stCb 0 0 3 0 0 (recCom (1 : Word64) (2 : Word64))) (recCom (1 : Word64) (2
      : Word64))).cb 7 = false ∧
    (comOf (stCb 0 0 3 0 0 (recCom (1 : Word64) (2 : Word64))) (recCom (1 : Word64) (2 : Word64))).resolve = true ∧
    (stCb 0 0 3 0 0 (recCom (1 : Word64) (2 : Word64))).cbState (comOf (stCb 0 0 3 0 0 (recCom (1 : Word64) (2 : Word64))) (recCom (1 : Word64) (2
      : Word64))).cb = cbDecided ∧
    (stCom true).op? 0 = some (opOf (recCom (1 : Word64) (0 : Word64))) ∧ (stCom true).mayStart 0 (opOf (recCom (1 : Word64) (0 : Word64))) = true ∧
    (stCom true).commits.get? 0 = some (com0 true) ∧ (com0 true).waiting = true ∧
    (stCom false).op? 0 = some (opOf (recCom (1 : Word64) (0 : Word64))) ∧
    (stCom false).mayStart 0 (opOf (recCom (1 : Word64) (0 : Word64))) = true ∧ (stCom false).commits.get? 0 = some (com0 false) ∧
    (com0 false).waiting = false := by decide +kernel
theorem witness_FoldAndDelta :
    ((stFold (fold0 0 0)).folds.get? 0).isSome = true ∧ (stRecv.recvs.get? 0).isSome = true ∧ (stCb 1 0 4 0 64 recFld).op? 0 = some (opOf recFld) ∧
    (opOf recFld).dispatched = true ∧ (opOf recFld).ran = false ∧ (opOf recFld).code = (0 : Byte) ∧ (opOf recFld).cmd.opcode.toNat = 1280 ∧
    (stCb 1 0 4 0 64 recFld).mayStart 0 (opOf recFld) = true ∧ State.sweepMode (opOf recFld).cmd = 2 ∧
    (stCb 1 0 4 0 64 recFld).mfuHeld (opOf recFld) = false ∧ fld (opOf recFld).cmd.w1 7 3 = 0 ∧ fld (opOf recFld).cmd.w1 63 9 = 0 ∧
    (opOf recFld).cmd.w6 = (0 : Word64) ∧ bit (opOf recFld).cmd.w1 8 = false ∧ (opOf recFld).cmd.w7 = (0 : Word64) ∧
    (stCb 1 0 4 0 64 recFld).folds.get? 0 = none ∧ (stCb 1 0 4 0 64 recFld).recvs.get? 0 = none ∧
    (begunFld 1 = (stCb 1 0 4 0 64 recFld).begun 0 (opOf recFld) (mapReads (fun hs t o => State.foldReads hs t o) (stCb 1 0 4 0 64 recFld) (opOf
      recFld))) ∧
    (begunFld 1).reading (RdFor.op 0) = false ∧ (stCb 0 0 4 0 64 recFld).op? 0 = some (opOf recFld) ∧
    (stCb 0 0 4 0 64 recFld).mayStart 0 (opOf recFld) = true ∧ (stCb 0 0 4 0 64 recFld).mfuHeld (opOf recFld) = false ∧
    (stCb 0 0 4 0 64 recFld).folds.get? 0 = none ∧ (stCb 0 0 4 0 64 recFld).recvs.get? 0 = none ∧
    (begunFld 0 = (stCb 0 0 4 0 64 recFld).begun 0 (opOf recFld) (mapReads (fun hs t o => State.foldReads hs t o) (stCb 0 0 4 0 64 recFld) (opOf
      recFld))) ∧
    (begunFld 0).reading (RdFor.op 0) = false ∧ (stCb 1 0 4 0 64 (recRcv (0x4200 : Word64))).op? 0 = some (opOf (recRcv (0x4200 : Word64))) ∧
    (opOf (recRcv (0x4200 : Word64))).dispatched = true ∧ (opOf (recRcv (0x4200 : Word64))).ran = false ∧
    (opOf (recRcv (0x4200 : Word64))).code = (0 : Byte) ∧ (opOf (recRcv (0x4200 : Word64))).cmd.opcode.toNat = 1280 ∧
    (stCb 1 0 4 0 64 (recRcv (0x4200 : Word64))).mayStart 0 (opOf (recRcv (0x4200 : Word64))) = true ∧
    State.sweepMode (opOf (recRcv (0x4200 : Word64))).cmd = 4 ∧
    (stCb 1 0 4 0 64 (recRcv (0x4200 : Word64))).mfuHeld (opOf (recRcv (0x4200 : Word64))) = false ∧
    fld (opOf (recRcv (0x4200 : Word64))).cmd.w1 7 3 = 0 ∧ fld (opOf (recRcv (0x4200 : Word64))).cmd.w1 63 9 = 0 ∧
    (opOf (recRcv (0x4200 : Word64))).cmd.w6 = (0 : Word64) ∧ bit (opOf (recRcv (0x4200 : Word64))).cmd.w1 8 = false ∧
    (opOf (recRcv (0x4200 : Word64))).cmd.w7 = (0 : Word64) ∧ (stCb 1 0 4 0 64 (recRcv (0x4200 : Word64))).folds.get? 0 = none ∧
    (stCb 1 0 4 0 64 (recRcv (0x4200 : Word64))).recvs.get? 0 = none ∧
    (begunRcv = (stCb 1 0 4 0 64 (recRcv (0x4200 : Word64))).begun 0 (opOf (recRcv (0x4200 : Word64))) (mapReads (fun x x_1 x_2 => []) (stCb 1 0 4
      0 64 (recRcv (0x4200 : Word64))) (opOf (recRcv (0x4200 : Word64))))) ∧
    begunRcv.reading (RdFor.op 0) = false ∧ recvTo.op? 0 = some recvOp ∧ recvOp.code = (0 : Byte) ∧
    (stFold (fold0 63 0)).folds.get? 0 = some (fold0 63 0) ∧ (stFold (fold0 63 0)).op? 0 = some (opOf recFld) ∧ (fold0 63 0).partner.isSome = true ∧
    (fold0 63 0).ack < (fold0 63 0).finish ∧ (stFold (fold0 64 0)).folds.get? 0 = some (fold0 64 0) ∧
    (stFold (fold0 64 0)).op? 0 = some (opOf recFld) ∧ stFoldW.folds.get? 0 = some fold1 ∧ stFoldW.op? 0 = some (opOf recFldL) ∧
    fold1.partner = none ∧ stFoldW.opWaits 0 = true ∧ stFoldL.folds.get? 0 = some fold1 ∧ stFoldL.op? 0 = some (opOf recFldL) ∧
    (stRecvAt (0x3d0900 : Word64)).recvs.get? 0 = some recv0 ∧
    (stRecvAt (0x3d0900 : Word64)).op? 0 = some (opOf (recUs (4 : Word64) (0x4200 : Word64) (1 : Word64))) ∧
    (opOf (recUs (4 : Word64) (0x4200 : Word64) (1 : Word64))).code = (0 : Byte) ∧
    BitVec.toNat recv0.at_ + recv0.idle * 0x3d0900 ≤ BitVec.toNat (stRecvAt (0x3d0900 : Word64)).ft ∧
    (stRecvAt (0x3d08ff : Word64)).recvs.get? 0 = some recv0 ∧
    (stRecvAt (0x3d08ff : Word64)).op? 0 = some (opOf (recUs (4 : Word64) (0x4200 : Word64) (1 : Word64))) ∧
    BitVec.toNat (stRecvAt (0x3d08ff : Word64)).ft < BitVec.toNat recv0.at_ + recv0.idle * 0x3d0900 ∧
    (List.find? (fun e => e.2.src == 2 && e.2.stream == 5 && Option.any (fun o => o.tenant == 0) (stMem.op? e.1)) stMem.recvs = none) ∧
    (List.find? (fun e => e.2.partner == some 2 && e.2.stream == 5 && Option.any (fun o => o.tenant == 0) ((stFold (fold0 63 0)).op? e.1)) (stFold
      (fold0 63 0)).folds = some (0, fold0 63 0)) ∧
    (fold0 63 0).ack < 64 ∧ 64 ≤ (fold0 63 0).finish ∧ 63 ≤ (fold0 63 0).ack ∧ (fold0 63 0).finish < 65 ∧
    (stFoldAt (fold0 0 0) (0 : Word64)).folds.get? 0 = some (fold0 0 0) ∧ (stFoldAt (fold0 0 0) (0 : Word64)).op? 0 = some (opOf recFld) ∧
    (fold0 0 0).partner = some 2 ∧ (fold0 0 0).ack < (fold0 0 0).finish ∧
    BitVec.toNat (stFoldAt (fold0 0 0) (0 : Word64)).ft < BitVec.toNat (fold0 0 0).since + (stFoldAt (fold0 0 0) (0 : Word64)).rdF R.FBD_E2E_TMO
      15 0 * 4000 ∧
    (stFoldAt (fold0 0 0) (0x10000000 : Word64)).folds.get? 0 = some (fold0 0 0) ∧
    (stFoldAt (fold0 0 0) (0x10000000 : Word64)).op? 0 = some (opOf recFld) ∧
    BitVec.toNat (fold0 0 0).since + (stFoldAt (fold0 0 0) (0x10000000 : Word64)).rdF R.FBD_E2E_TMO 15 0 * 4000 ≤ BitVec.toNat (stFoldAt (fold0 0
      0) (0x10000000 : Word64)).ft ∧
    (fold0 0 0).tries < (stFoldAt (fold0 0 0) (0x10000000 : Word64)).rdF R.FBD_E2E_TRIES 3 0 ∧
    (stFoldAt (fold0 0 15) (0x10000000 : Word64)).folds.get? 0 = some (fold0 0 15) ∧
    (stFoldAt (fold0 0 15) (0x10000000 : Word64)).op? 0 = some (opOf recFld) ∧ (fold0 0 15).partner = some 2 ∧
    (fold0 0 15).ack < (fold0 0 15).finish ∧
    BitVec.toNat (fold0 0 15).since + (stFoldAt (fold0 0 15) (0x10000000 : Word64)).rdF R.FBD_E2E_TMO 15 0 * 4000 ≤ BitVec.toNat (stFoldAt (fold0
      0 15) (0x10000000 : Word64)).ft ∧
    (stFoldAt (fold0 0 15) (0x10000000 : Word64)).rdF R.FBD_E2E_TRIES 3 0 ≤ (fold0 0 15).tries := by decide +kernel
/-! ### Chapter 12 -/

/-- An RLE descriptor: FP32 source at 0x2000, one row of four columns; LOCAL to FP32 at 0x3000, or SEND to package 2. -/
def rleBytes0 (send : Nat) (coded ref commit : Nat) : List Byte :=
  leBytes 2 1 ++ leBytes 1 send ++ leBytes 1 coded ++ leBytes 1 0 ++ leBytes 1 0 ++ leBytes 1 0 ++ leBytes 1 0 ++ leBytes 8 0x2000 ++ leBytes 4 4 ++
  leBytes 4 0 ++ leBytes 4 1 ++ leBytes 4 0 ++ leBytes 4 4 ++ leBytes 2 (2 * send) ++ leBytes 2 0 ++ leBytes 8 (if send = 1 then 0 else 0x3000) ++
  leBytes 8 ref ++ leBytes 8 commit
/-- An RLE_CONVERT record whose descriptor is at 0x1000, with fence epoch W1 and slot 0 named. -/
def recRle (w1 : Word64) : CmdRec := { rec0 0x0801 with w0 := 0x1000, w1 := w1, w2 := 1 }
/-- Memory with it and a commit block at 0x4000; with some registers and a slot. -/
def stRle (send com st : Nat) (l : Map Word32) (k : Map Flock) (w1 : Word64) : State :=
  { stMemOp (recRle w1) with
    regs := l ++ [(R.SEM_STAT, 0x18000000)], slots := k
    mem := Mem.write (Mem.write [] 0x1000 (rleBytes0 send 0 0 (0x4000 * send))) 0x4000 (leBytes 8 com ++ leBytes 12 0 ++ leBytes 1 st) }
/-- A SEND to package 2 of a version, fenced or under way. -/
def csend (fence : Nat) (out : List OutPiece) : ConvRun :=
  ⟨rleOf0, fence, [], out ≠ [], 1, 0, [], out⟩
where rleOf0 : RleDesc := ⟨true, false, 0, 0, 0, 0, 0x2000, 4, 0, 1, 0, 4, 2, 0, 0, 0, 0x4000⟩
/-- A piece out. -/
def out0 (q tries : Nat) (wait : Bool) : OutPiece := ⟨⟨1, 0, false, false, q, 1, 0, 4, 0, List.replicate 16 0, false⟩, tries, 0, wait⟩
/-- The state with conversion 0 under way. -/
def stSendColl (com st : Nat) (r : ConvRun) : State := { stRle 1 com st [] [] 1 with convs := [(0, r)] }
/-- A part of one row of 513 FP32 columns: two pieces of the grid; what is received, and its reference. -/
def part0 (got : List Nat) (ref : Nat) : TurnPart := ⟨0x100000000, 1, 0, 0, 0, 1, 513, ref, 7, 0x1040, got, false⟩
/-- The active turnover of version 1. -/
def turn0 (st : Nat) (stream : Bool) (p : TurnPart) : Turn := ⟨0, 0, st, 1, 0, 4000, 8000, 1, stream, true, false, 0, 0, 2, 1, 1, [p], [], none, fNone⟩
/-- The second piece of its grid. -/
def shm0 (version : Word32) (part q cols : Nat) (coded : Bool) (refVer : Word32) : ShardMsg :=
  ⟨version, part, coded, false, q, 1, 0, cols, refVer, List.replicate (4 * cols) 0, false⟩
/-- The package with a turnover: its descriptors at 0x1000 in a model region, the part's tile 65536 in a weight region, homed. -/
def stTurn (w : Option Turn) (last : Option Word32) (l : Map Word32) : State :=
  { stMemOp { rec0 0x0800 with w0 := 0x1000 } with
    regs := l ++ [(R.SEM_STAT, 0x18000000), (R.SEM_TURN_RIGHT0, 1)], turn := w, turnLast := last
    mem := Mem.write [] 0x1000 (leBytes 2 1 ++ leBytes 2 1 ++ leBytes 4 1 ++ leBytes 8 0 ++ leBytes 8 4000 ++ leBytes 8 8000 ++ leBytes 4 1 ++
      leBytes 4 0 ++ leBytes 4 0 ++ leBytes 4 2 ++ leBytes 8 0 ++ leBytes 4 1 ++ leBytes 4 0 ++ leBytes 8 0x100000000 ++ leBytes 4 1 ++ leBytes 4 0 ++
      leBytes 4 1 ++ leBytes 4 513)
    ms := { stMem.ms with
      rgn := [(0, 0x80800040), (1, 0xA0000040)], own := [(0, ⟨1000, 1000, 0, 0⟩), (64, ⟨1000, 1000, 0, 0⟩)]
      tiles := [(0, ⟨.dram, false, 4096, false⟩), (65536, ⟨.dram, false, 4097, false⟩)]
      frames := [(4096, ⟨.tile 0, 0x40, false, false⟩), (4097, ⟨.tile 65536, 0x40, false, false⟩), (4098, ⟨.stage 65536, 0x40, false, false⟩)] } }
/-- A fence that waits for a reduction. -/
def csendWait : ConvRun := { csend 1 [] with waitFor := [(0, 0)] }
/-- The state with it and a reduction under way in slot 0. -/
def stSendWait : State := { stSendColl 1 4 csendWait with slots := [(0, { flk0 with run := some (coll0 0x0602 0) })] }
/-- One conversion at a fabric time. -/
def stSendAt (r : ConvRun) (t : Word64) : State := { stSendColl 1 4 r with ft := t }
/-- An RLE_CONVERT on a package with a reduction under way. -/
def stRleRed : State := stRle 1 1 4 [] [(0, { flk0 with run := some (coll0 0x0602 0) })] 1
/-- The RLE_CONVERT while its RLE is held. -/
def stRleHeld : State := stRle 0 0 0 [(R.RLE_CTL 0, 1)] [] 0
/-- A SEND whose RLE is held. -/
def stSendHeld : State := { stRle 1 1 4 [(R.RLE_CTL 0, 1)] [] 1 with convs := [(0, csend 1 [])] }
/-- A piece with too little data. -/
def shmShort : ShardMsg := { shm0 1 0 1 1 false 0 with data := [0] }
/-- A turnover of one part at a state, some of it received, at a fabric time. -/
def stTurnAt (w : Turn) (t : Word64) : State := { stTurn (some w) none [] with ft := t }
/-- Both pieces received. -/
def partAll : TurnPart := part0 [0, 1] 0
/-- A turnover whose old reader is operator 0. -/
def turnRd : Turn := { turn0 2 false partAll with readers := [0] }
/-- A turnover whose refill counter has come. -/
def turnRefilled : Turn := { turn0 3 false partAll with refillVal := 0 }
/-- A TURNOVER record. -/
def recTurn : CmdRec := { rec0 0x0800 with w0 := 0x1000 }
/-- A turnover of another operator. -/
def turnOther : Turn := { turn0 1 false (part0 [] 0) with op := 1 }
/-- Records that check, one whose RLE is held, one that does not, and a LOCAL that converts. -/
theorem witness_convOf :
    okAnd ((stMemOp (recRle 0)).convOf (opOf (recRle 0))) (fun _ => true) = false ∧
    okAnd ((stRle 0 0 0 [] [] 0).convOf (opOf (recRle 0))) (fun d => !d.send && !(stRle 0 0 0 [] [] 0).rdB (R.RLE_CTL ((stRle 0 0 0 [] [] 0).rleIdx d)) 0 &&
      okAnd ((stRle 0 0 0 [] [] 0).convLocal 0 (opOf (recRle 0)) d) (fun v => (v.op? 0).any (fun q => q.code == 0))) = true ∧
    okAnd ((stRle 1 0 0 [] [] 0).convOf (opOf (recRle 0))) (fun d => d.send && !(stRle 1 0 0 [] [] 0).rdB (R.RLE_CTL ((stRle 1 0 0 [] [] 0).rleIdx d)) 0) = true ∧
    okAnd (stRleRed.convOf (opOf (recRle 1))) (fun d => d.send) = true ∧
    okAnd (stRleHeld.convOf (opOf (recRle 0))) (fun d => stRleHeld.rdB (R.RLE_CTL (stRleHeld.rleIdx d)) 0) = true ∧
    okAnd ((stTurn none none []).turnOf 0 (opOf recTurn)) (fun w => w.st == 1) = true ∧
    okAnd ((stTurn (some turnOther) none []).turnOf 0 (opOf recTurn)) (fun _ => true) = false := by decide +kernel
theorem witness_Conversions :
    (stMemOp (recRle (0 : Word64))).op? 0 = some (opOf (recRle (0 : Word64))) ∧ (opOf (recRle (0 : Word64))).dispatched = true ∧
    (opOf (recRle (0 : Word64))).ran = false ∧ (opOf (recRle (0 : Word64))).code = (0 : Byte) ∧
    (opOf (recRle (0 : Word64))).cmd.opcode.toNat = 2049 ∧ (stMemOp (recRle (0 : Word64))).mayStart 0 (opOf (recRle (0 : Word64))) = true ∧
    (stMemOp (recRle (0 : Word64))).convs.get? 0 = none ∧
    (Instr.rleConvertLocal 0, false) ∈ [(Instr.rleConvertLocal 0, false), (Instr.rleConvertSend 0, true)] ∧
    (stRle 0 0 0 [] [] (0 : Word64)).op? 0 = some (opOf (recRle (0 : Word64))) ∧
    (stRle 0 0 0 [] [] (0 : Word64)).mayStart 0 (opOf (recRle (0 : Word64))) = true ∧ (stRle 0 0 0 [] [] (0 : Word64)).convs.get? 0 = none ∧
    (Instr.rleConvertSend 0, true) ∈ [(Instr.rleConvertLocal 0, false), (Instr.rleConvertSend 0, true)] ∧
    (stRle 1 0 0 [] [] (0 : Word64)).op? 0 = some (opOf (recRle (0 : Word64))) ∧
    (stRle 1 0 0 [] [] (0 : Word64)).mayStart 0 (opOf (recRle (0 : Word64))) = true ∧ (stRle 1 0 0 [] [] (0 : Word64)).convs.get? 0 = none ∧
    stRleRed.op? 0 = some (opOf (recRle (1 : Word64))) ∧ (opOf (recRle (1 : Word64))).dispatched = true ∧ (opOf (recRle (1 : Word64))).ran = false ∧
    (opOf (recRle (1 : Word64))).code = (0 : Byte) ∧ (opOf (recRle (1 : Word64))).cmd.opcode.toNat = 2049 ∧
    stRleRed.mayStart 0 (opOf (recRle (1 : Word64))) = true ∧ stRleRed.convs.get? 0 = none ∧ (opOf (recRle (1 : Word64))).cmd.w1 ≠ (0 : Word64) ∧
    stRleHeld.op? 0 = some (opOf (recRle (0 : Word64))) ∧ stRleHeld.mayStart 0 (opOf (recRle (0 : Word64))) = true ∧ stRleHeld.convs.get? 0 = none ∧
    (stSendColl 2 4 (csend 1 [])).convs.get? 0 = some (csend 1 []) ∧ (stSendColl 2 4 (csend 1 [])).op? 0 = some (opOf (recRle (1 : Word64))) ∧
    (csend 1 []).passed = false ∧ (csend 1 []).fence ≠ 0 ∧ (stSendColl 2 4 (csend 1 [])).fenceEpoch (csend 1 []) = 2 ∧
    (stSendColl 1 4 (csend 1 [])).convs.get? 0 = some (csend 1 []) ∧ (stSendColl 1 4 (csend 1 [])).op? 0 = some (opOf (recRle (1 : Word64))) ∧
    (stSendColl 1 4 (csend 1 [])).fenceEpoch (csend 1 []) = 1 ∧ (stSendColl 1 4 (csend 1 [])).fenceClear (csend 1 []) = true ∧
    (stSendColl 0 4 (csend 1 [])).convs.get? 0 = some (csend 1 []) ∧ (stSendColl 0 4 (csend 1 [])).op? 0 = some (opOf (recRle (1 : Word64))) ∧
    (stSendColl 0 4 (csend 1 [])).fenceEpoch (csend 1 []) = 0 ∧ stSendWait.convs.get? 0 = some csendWait ∧
    stSendWait.op? 0 = some (opOf (recRle (1 : Word64))) ∧ csendWait.passed = false ∧ csendWait.fence ≠ 0 ∧ stSendWait.fenceEpoch csendWait = 1 ∧
    stSendWait.fenceClear csendWait = false ∧ stSendHeld.convs.get? 0 = some (csend 1 []) ∧ stSendHeld.op? 0 = some (opOf (recRle (1 : Word64))) ∧
    stSendHeld.fenceEpoch (csend 1 []) = 1 ∧ stSendHeld.fenceClear (csend 1 []) = true ∧
    stSendHeld.rdB (R.RLE_CTL (stSendHeld.rleIdx (csend 1 []).d)) 0 = true ∧
    (stSendColl 1 4 (csend 0 [out0 0 0 false])).sendFor 2 0 (1 : Word32) 0 0 = some (0, csend 0 [out0 0 0 false]) ∧
    (stSendColl 1 4 (csend 0 [out0 0 0 false])).op? 0 = some (opOf (recRle (1 : Word64))) ∧
    (List.filter (fun x => x.m.q != 0) (csend 0 [out0 0 0 false]).out = []) ∧ (csend 0 [out0 0 0 false]).todo = [] ∧
    (stSendColl 1 4 (csend 0 [out0 0 0 false, out0 1 0 true])).sendFor 2 0 (1 : Word32) 0 0 = some (0, csend 0 [out0 0 0 false, out0 1 0 true]) ∧
    (stSendColl 1 4 (csend 0 [out0 0 0 false, out0 1 0 true])).op? 0 = some (opOf (recRle (1 : Word64))) ∧
    (List.filter (fun x => x.m.q != 0) (csend 0 [out0 0 0 false, out0 1 0 true]).out ≠ []) ∧
    (stSendColl 1 4 (csend 0 [out0 0 0 false])).sendFor 2 0 (2 : Word32) 0 0 = none ∧
    (stSendAt (csend 0 [out0 0 0 false]) (0 : Word64)).convs.get? 0 = some (csend 0 [out0 0 0 false]) ∧
    (stSendAt (csend 0 [out0 0 0 false]) (0 : Word64)).op? 0 = some (opOf (recRle (1 : Word64))) ∧
    (List.find? (fun x => x.m.q == 0) (csend 0 [out0 0 0 false]).out = some (out0 0 0 false)) ∧
    (BitVec.toNat (stSendAt (csend 0 [out0 0 0 false]) (0 : Word64)).ft < if (out0 0 0 false).wait = true then BitVec.toNat (out0 0 0 false).since
      + 0x61a80 else BitVec.toNat (out0 0 0 false).since + (stSendAt (csend 0 [out0 0 0 false]) (0 : Word64)).rdF R.FBD_E2E_TMO 15 0 * 4000) ∧
    (stSendAt (csend 0 [out0 0 0 false]) (0x10000000 : Word64)).convs.get? 0 = some (csend 0 [out0 0 0 false]) ∧
    (stSendAt (csend 0 [out0 0 0 false]) (0x10000000 : Word64)).op? 0 = some (opOf (recRle (1 : Word64))) ∧
    ((if (out0 0 0 false).wait = true then BitVec.toNat (out0 0 0 false).since + 0x61a80 else BitVec.toNat (out0 0 0 false).since + (stSendAt
      (csend 0 [out0 0 0 false]) (0x10000000 : Word64)).rdF R.FBD_E2E_TMO 15 0 * 4000) ≤ BitVec.toNat (stSendAt (csend 0 [out0 0 0 false])
      (0x10000000 : Word64)).ft) ∧
    (out0 0 0 false).tries < (stSendAt (csend 0 [out0 0 0 false]) (0x10000000 : Word64)).rdF R.FBD_E2E_TRIES 3 0 ∧
    (stSendAt (csend 0 [out0 0 15 false]) (0x10000000 : Word64)).convs.get? 0 = some (csend 0 [out0 0 15 false]) ∧
    (stSendAt (csend 0 [out0 0 15 false]) (0x10000000 : Word64)).op? 0 = some (opOf (recRle (1 : Word64))) ∧
    (List.find? (fun x => x.m.q == 0) (csend 0 [out0 0 15 false]).out = some (out0 0 15 false)) ∧
    ((if (out0 0 15 false).wait = true then BitVec.toNat (out0 0 15 false).since + 0x61a80 else BitVec.toNat (out0 0 15 false).since + (stSendAt
      (csend 0 [out0 0 15 false]) (0x10000000 : Word64)).rdF R.FBD_E2E_TMO 15 0 * 4000) ≤ BitVec.toNat (stSendAt (csend 0 [out0 0 15 false])
      (0x10000000 : Word64)).ft) ∧
    (out0 0 15 false).wait = false ∧
    (stSendAt (csend 0 [out0 0 15 false]) (0x10000000 : Word64)).rdF R.FBD_E2E_TRIES 3 0 ≤ (out0 0 15 false).tries ∧
    (stSendAt (csend 0 [out0 0 3 true]) (0x61a80 : Word64)).convs.get? 0 = some (csend 0 [out0 0 3 true]) ∧
    (stSendAt (csend 0 [out0 0 3 true]) (0x61a80 : Word64)).op? 0 = some (opOf (recRle (1 : Word64))) ∧
    (List.find? (fun x => x.m.q == 0) (csend 0 [out0 0 3 true]).out = some (out0 0 3 true)) ∧
    ((if (out0 0 3 true).wait = true then BitVec.toNat (out0 0 3 true).since + 0x61a80 else BitVec.toNat (out0 0 3 true).since + (stSendAt (csend
      0 [out0 0 3 true]) (0x61a80 : Word64)).rdF R.FBD_E2E_TMO 15 0 * 4000) ≤ BitVec.toNat (stSendAt (csend 0 [out0 0 3 true]) (0x61a80 :
      Word64)).ft) ∧
    (out0 0 3 true).wait = true ∧ (stSendAt (csend 0 [out0 0 3 true]) (0x61a7f : Word64)).convs.get? 0 = some (csend 0 [out0 0 3 true]) ∧
    (stSendAt (csend 0 [out0 0 3 true]) (0x61a7f : Word64)).op? 0 = some (opOf (recRle (1 : Word64))) ∧
    (BitVec.toNat (stSendAt (csend 0 [out0 0 3 true]) (0x61a7f : Word64)).ft < if (out0 0 3 true).wait = true then BitVec.toNat (out0 0 3
      true).since + 0x61a80 else BitVec.toNat (out0 0 3 true).since + (stSendAt (csend 0 [out0 0 3 true]) (0x61a7f : Word64)).rdF R.FBD_E2E_TMO 15 0
      * 4000) := by decide +kernel
theorem witness_ShardPieces :
    (stTurn none (some (2 : Word32)) []).turn = none ∧
    (stTurn none (some (2 : Word32)) []).turnLast ≠ some (shm0 (1 : Word32) 0 1 1 false (0 : Word32)).version ∧
    (stTurn none (some (1 : Word32)) []).turn = none ∧
    (stTurn none (some (1 : Word32)) []).turnLast = some (shm0 (1 : Word32) 0 1 1 false (0 : Word32)).version ∧
    (stTurn (some (turn0 1 false (part0 [] 0))) (some (2 : Word32)) []).turn.isSome = true ∧
    (stTurn (some (turn0 1 false (part0 [] 0))) (some (2 : Word32)) []).turnLast = some (shm0 (2 : Word32) 0 1 1 false (0 : Word32)).version ∧
    (stTurn (some (turn0 1 false (part0 [] 0))) (some (2 : Word32)) []).turnLast ≠ some (shm0 (3 : Word32) 0 1 1 false (0 : Word32)).version ∧
    (stTurn (some (turn0 1 false (part0 [] 0))) none []).turn.isSome = true ∧ (shm0 (1 : Word32) 0 1 1 false (0 : Word32)).coded = false ∧
    (shm0 (1 : Word32) 0 1 1 false (0 : Word32)).data.length = wireLen (shm0 (1 : Word32) 0 1 1 false (0 : Word32)).srcFmt (shm0 (1 : Word32) 0 1
      1 false (0 : Word32)).rows (shm0 (1 : Word32) 0 1 1 false (0 : Word32)).cols ∧
    (shm0 (1 : Word32) 0 0 512 false (0 : Word32)).coded = false ∧
    (shm0 (1 : Word32) 0 0 512 false (0 : Word32)).data.length = wireLen (shm0 (1 : Word32) 0 0 512 false (0 : Word32)).srcFmt (shm0 (1 : Word32)
      0 0 512 false (0 : Word32)).rows (shm0 (1 : Word32) 0 0 512 false (0 : Word32)).cols ∧
    shmShort.coded = false ∧ shmShort.data.length ≠ wireLen shmShort.srcFmt shmShort.rows shmShort.cols ∧
    (stTurn (some (turn0 1 false (part0 [1] 0))) none []).turn.isSome = true ∧
    (stTurn (some (turn0 2 false (part0 [] 0))) none []).turn.isSome = true ∧
    (stTurn (some (turn0 2 true (part0 [] 8192))) none []).turn.isSome = true ∧ (shm0 (1 : Word32) 0 1 1 true (6 : Word32)).coded = true ∧
    (stTurn (some (turn0 1 false (part0 [] 0))) none [(R.RLE_CTL 0, (1 : Word32))]).turn.isSome = true := by decide +kernel
theorem witness_TurnoverCommands :
    (stTurn none none []).op? 0 = some (opOf recTurn) ∧ (opOf recTurn).dispatched = true ∧ (opOf recTurn).ran = false ∧
    (opOf recTurn).code = (0 : Byte) ∧ (opOf recTurn).cmd.opcode.toNat = 2048 ∧ (stTurn none none []).mayStart 0 (opOf recTurn) = true ∧
    (∀ (w : Turn), (stTurn none none []).turn = some w → w.op ≠ 0) ∧
    (stTurn (some (turn0 1 false (part0 [] 0))) none []).op? 0 = some (opOf recTurn) ∧
    (stTurn (some (turn0 1 false (part0 [] 0))) none []).mayStart 0 (opOf recTurn) = true ∧
    (stTurn (some (turn0 1 false (part0 [] 0))) none []).turn.isSome = true ∧ (stTurn (some turnOther) none []).op? 0 = some (opOf recTurn) ∧
    (stTurn (some turnOther) none []).mayStart 0 (opOf recTurn) = true ∧
    (∀ (w : Turn), (stTurn (some turnOther) none []).turn = some w → w.op ≠ 0) ∧
    (∀ n < 256, ((stTurnAt (turn0 1 false (part0 [0] 0)) (0xf9f : Word64)).trigger n).valid = false) ∧
    (stTurnAt (turn0 1 false (part0 [0] 0)) (0xf9f : Word64)).turn = some (turn0 1 false (part0 [0] 0)) ∧
    (stTurnAt (turn0 1 false (part0 [0] 0)) (0xf9f : Word64)).ft < (turn0 1 false (part0 [0] 0)).turnFt ∧
    (∀ n < 256, ((stTurnAt (turn0 1 false (part0 [0] 0)) (0xfa0 : Word64)).trigger n).valid = false) ∧
    (stTurnAt (turn0 1 false (part0 [0] 0)) (0xfa0 : Word64)).turn = some (turn0 1 false (part0 [0] 0)) ∧ (turn0 1 false (part0 [0] 0)).st = 1 ∧
    (turn0 1 false (part0 [0] 0)).turnFt ≤ (stTurnAt (turn0 1 false (part0 [0] 0)) (0xfa0 : Word64)).ft ∧
    (turn0 1 false (part0 [0] 0)).stream = false ∧ (((turn0 1 false (part0 [0] 0)).parts.all fun x => x.staged) = false) ∧
    (∀ n < 256, ((stTurnAt (turn0 1 false partAll) (0xfa0 : Word64)).trigger n).valid = false) ∧
    (stTurnAt (turn0 1 false partAll) (0xfa0 : Word64)).turn = some (turn0 1 false partAll) ∧ (turn0 1 false partAll).st = 1 ∧
    (turn0 1 false partAll).turnFt ≤ (stTurnAt (turn0 1 false partAll) (0xfa0 : Word64)).ft ∧
    (((turn0 1 false partAll).parts.all fun x => x.staged) = true) ∧
    (stTurnAt (turn0 2 true (part0 [0] 0)) (0x1f40 : Word64)).turn = some (turn0 2 true (part0 [0] 0)) ∧
    (List.findIdx? (fun p => !p.swapped) (turn0 2 true (part0 [0] 0)).parts = some 0) ∧
    (turn0 2 true (part0 [0] 0)).parts[0]? = some (part0 [0] 0) ∧ (part0 [0] 0).staged = false ∧
    (stTurnAt (turn0 2 false partAll) (0x1f3f : Word64)).turn = some (turn0 2 false partAll) ∧
    (List.findIdx? (fun p => !p.swapped) (turn0 2 false partAll).parts = some 0) ∧ (turn0 2 false partAll).parts[0]? = some partAll ∧
    BitVec.toNat (stTurnAt (turn0 2 false partAll) (0x1f3f : Word64)).ft < BitVec.toNat (turn0 2 false partAll).turnFt + (turn0 2 false
      partAll).swapDelay * 4000 ∧
    (stTurnAt (turn0 2 false partAll) (0x1f40 : Word64)).turn = some (turn0 2 false partAll) ∧ (turn0 2 false partAll).st = 2 ∧
    partAll.staged = true ∧
    BitVec.toNat (turn0 2 false partAll).turnFt + (turn0 2 false partAll).swapDelay * 4000 ≤ BitVec.toNat (stTurnAt (turn0 2 false partAll)
      (0x1f40 : Word64)).ft ∧
    (turn0 2 false partAll).readers.any ((stTurnAt (turn0 2 false partAll) (0x1f40 : Word64)).readerNeeds partAll) = false ∧
    (∀ n ∈ partAll.tilesL, ((stTurnAt (turn0 2 false partAll) (0x1f40 : Word64)).tile n).st ≠ Home.movingD ∧ ((stTurnAt (turn0 2 false partAll)
      (0x1f40 : Word64)).tile n).st ≠ Home.movingF) ∧
    (stTurnAt turnRd (0x1f40 : Word64)).turn = some turnRd ∧ (List.findIdx? (fun p => !p.swapped) turnRd.parts = some 0) ∧
    turnRd.parts[0]? = some partAll ∧ turnRd.readers.any ((stTurnAt turnRd (0x1f40 : Word64)).readerNeeds partAll) = true ∧
    (stTurnAt (turn0 3 false partAll) (0x1f3f : Word64)).turn = some (turn0 3 false partAll) ∧ (turn0 3 false partAll).refillEn = true ∧
    (stTurnAt (turn0 3 false partAll) (0x1f3f : Word64)).dep (turn0 3 false partAll).tenant (turn0 3 false partAll).refillCtr < (turn0 3 false
      partAll).refillVal ∧
    (stTurnAt (turn0 3 false partAll) (0x1f3f : Word64)).ft < (turn0 3 false partAll).deadline ∧ (turn0 3 false partAll).st ≠ 1 ∧
    (stTurnAt turnRefilled (0x1f40 : Word64)).turn = some turnRefilled ∧ turnRefilled.st = 3 ∧
    turnRefilled.refillVal ≤ (stTurnAt turnRefilled (0x1f40 : Word64)).dep turnRefilled.tenant turnRefilled.refillCtr ∧
    turnRefilled.deadline ≤ (stTurnAt turnRefilled (0x1f40 : Word64)).ft ∧ turnRefilled.st ≠ 1 ∧ (turn0 2 false partAll).st ≠ 3 ∧
    (turn0 2 false partAll).deadline ≤ (stTurnAt (turn0 2 false partAll) (0x1f40 : Word64)).ft ∧
    (((turn0 2 false partAll).parts.all fun x => x.staged) = true) ∧ (turn0 2 false partAll).st ≠ 1 ∧ (turn0 2 true (part0 [0] 0)).st ≠ 3 ∧
    (turn0 2 true (part0 [0] 0)).st = 2 ∧ (turn0 2 true (part0 [0] 0)).deadline ≤ (stTurnAt (turn0 2 true (part0 [0] 0)) (0x1f40 : Word64)).ft ∧
    (((turn0 2 true (part0 [0] 0)).parts.all fun x => x.staged) = false) ∧ (turn0 2 true (part0 [0] 0)).st ≠ 1 ∧
    (stTurnAt (turn0 1 true (part0 [0] 0)) (0x1f40 : Word64)).turn = some (turn0 1 true (part0 [0] 0)) ∧ (turn0 1 true (part0 [0] 0)).st ≠ 3 ∧
    (turn0 1 true (part0 [0] 0)).st < 2 ∧ (turn0 1 true (part0 [0] 0)).st = 1 ∧ (stTurn none none []).turn = none := by decide +kernel
/-! ### Chapters 13 and 14 -/

/-- The time unit in use, in a state and with registers given; its parent is port 0. -/
def stTim (st ctl : Nat) (pps : Bool) (t : Tim) (ft : Word64) : State :=
  { stReg [(R.TIM_STAT, BitVec.ofNat 32 (st * 2 ^ 28 + (if pps then 2 ^ 26 else 0))), (R.TIM_CTL, BitVec.ofNat 32 ctl), (preg 0 0x104, 0x50000000)] with
    tim := t, ft := ft }
/-- The time unit with a pulse at 4,000,000 of labelled second `n`. -/
def tim0 (n : Nat) : Tim := { Tim.reset with ever := true, pulse := some 4000000, second := some n }
/-- $GPZDA,000001,01,01,2000 with its checksum: second 1. -/
def zda1 : List Byte := [0x24, 0x47, 0x50, 0x5A, 0x44, 0x41, 0x2C, 0x30, 0x30, 0x30, 0x30, 0x30, 0x31, 0x2C, 0x30, 0x31, 0x2C, 0x30, 0x31, 0x2C, 0x32, 0x30, 0x30, 0x30, 0x2A, 0x34, 0x42]
/-- A master heard. -/
def heard0 : Heard := ⟨1, 100, 5, 1, 10, 0⟩
/-- HOLDOVER since 0, at a time. -/
def stHoldOp (ft : Word64) : State := stTim 3 1 false Tim.reset ft
/-- Two misses so far, one second and more after the pulse. -/
def stMiss (m : Nat) (ft : Word64) : State := stTim 1 1 true { tim0 5 with misses := m } ft
/-- FOLLOW with the parent of port 0 heard at 0. -/
def stFollow (ft : Word64) : State := stTim 2 1 false { Tim.reset with heard := [(0, heard0)] } ft
/-- A TIME_SYNC of a grade. -/
def sync0 (grade : Nat) : SyncMsg := ⟨1, grade, 100, 5, 4000, 1, 10⟩

/-- The reset state with trigger 255 set. -/
def stTrigOp (t : Trig) (l : Map Word32) : State := { stReg (l ++ [(R.TIM_TRIG_SEL, 255)]) with trigs := [(255, t)] }
/-- A low half held for trigger 255. -/
def stHeldFt (t : Trig) : State := { stTrigOp t [] with held := [(R.TIM_TRIG_FT_LO, 9)] }
/-- A step of a number of counts. -/
def stStep (lo hi : Word32) : State := stReg [(R.TIM_STEP_LO, lo), (R.TIM_STEP_LO + 4, hi)]

/-- An admission record of tenant 0. -/
def admBytes (kind id : Nat) (tbt : Nat) : List Byte :=
  leBytes 2 1 ++ leBytes 1 kind ++ leBytes 1 0 ++ leBytes 1 3 ++ leBytes 1 0 ++ leBytes 2 id ++ leBytes 4 9 ++ leBytes 4 5000 ++ leBytes 4 tbt ++
  leBytes 1 16 ++ leBytes 1 1 ++ leBytes 1 1 ++ leBytes 1 0 ++ leBytes 2 1 ++ leBytes 2 0 ++ leBytes 4 8192 ++ leBytes 4 65536 ++ leBytes 4 0x3F800000 ++
  leBytes 8 0 ++ leBytes 8 0 ++ leBytes 72 0
/-- The model entry of the worked example of R394. -/
def mdl3 : Mdl := { Mdl.none with addr := 0x100000000, base := 300000, row := 2000, ctx := 40, prefill := 180000, ctl := 0x80000000, hold := 100 }
/-- An admission ring in host memory with one record to decide, and requests. -/
def stAdm (q : Map Req) : State :=
  { stMem with
    regs := [(R.SEM_STAT, 0x18000000), (R.ADM_RING_CTL 0, 0xC0010000), (R.ADM_RING_PROD 0, 1), (R.ADM_CAP 0, 100), (R.ADM_KV_BUDGET 0, 0x100000)]
    mem := genMem 0 0, ms := { stMem.ms with rgn := [(0, 0x80000040), (1, 0x80800040)] }, host := { State.reset.host with up := true, bme := true }
    mdls := [(3, mdl3)], reqs := q }
/-- A request of the example, in a state. -/
def reqEx (st : Nat) : Req := { req0 st false with mdl := 3, nposMax := 16, maxLen := 65536, prompt := 4096, tbtUs := 2000, ttftUs := 5000 }
/-- The generation model the example's entry names. -/
def gAdm : GenModel := ((stAdm []).genModel modelOwner 0x100000000).toOption.get (by decide +kernel)
/-- The same ring disabled. -/
def stAdmOff : State := { stAdm [] with regs := [] }
/-- The worked example after R394: with 20 requests the 21st passes and W reads 1,832 µs; the 22nd is refused with TBT and RETRY_US 29,605. -/
def ex20 : Map Req := (0, reqEx 1) :: (List.range 19).map (fun i => (i + 1, { reqEx 2 with len := i }))
theorem test_admission_example :
    (stAdm ex20).admTest 0 (admRecOf (admBytes 0 0 2000)) 0 (State.prefillOf mdl3 8192) true = (0, 0) ∧
    (stAdm (ex20 ++ [(20, reqEx 1)])).workUs 3 = 1832 ∧
    ({ stAdm (ex20 ++ [(20, reqEx 1)]) with freed := (List.range 7).map (fun _ => ⟨0, 3, 0, 72960 * 2 ^ 23, 0, 0⟩) } : State).admTest 0
      (admRecOf (admBytes 0 0 2000)) 0 (State.prefillOf mdl3 8192) true = (1, 29605) := by and_intros <;> decide +kernel

/-- An administrator session open, with a soft seed. -/
def stSeed (l : Map Word32) : State := stReg ((R.SEM_STAT, 0x18000000) :: (R.SEM_ADMIN_OPEN, 0x80000000) :: l)
/-- The hard seed is drawn from a seeded DRBG. -/
def stDrawn (l : Map Word32) : State := { stSeed l with sem := { (stSeed l).sem with drbg := some ⟨[], []⟩ } }
theorem witness_AdmissionCommands_model :
    okAnd ((stAdm []).genModel modelOwner ((stAdm []).mdl (admRecOf (admBytes 0 0 2000)).mdl).addr.toNat) (fun g => decide (g = gAdm)) = true ∧
    okAnd ((stAdm []).genModel modelOwner ((stAdm []).mdl (admRecOf (admBytes 0 0 0)).mdl).addr.toNat) (fun g => decide (g = gAdm)) = true ∧
    okAnd ((stAdm [(0, reqEx 4)]).genModel modelOwner ((stAdm [(0, reqEx 4)]).mdl (admRecOf (admBytes 0 0 2000)).mdl).addr.toNat)
      (fun g => decide (g = gAdm)) = true ∧
    okAnd ((stAdm [(7, reqEx 4)]).genModel modelOwner ((stAdm [(7, reqEx 4)]).mdl (admRecOf (admBytes 1 7 2000)).mdl).addr.toNat)
      (fun g => decide (g = gAdm)) = true := by and_intros <;> decide +kernel
theorem witness_TimeSignals :
    (stTim 1 1 true (tim0 5) (0xeea83100 : Word64)).rdB R.TIM_CTL 0 = true ∧
    true ≠ (stTim 1 1 true (tim0 5) (0xeea83100 : Word64)).rdB R.TIM_CTL 1 ∧
    (stTim 1 1 true (tim0 5) (0xeea83100 : Word64)).tim.pulse = some (0x3d0900 : Word64) ∧
    (stTim 1 1 true (tim0 5) (0xeea83100 : Word64)).ppsGood (0x3d0900 : Word64) = true ∧
    (stTim 1 1 true (tim0 5) (0xeea83100 : Word64)).ppsLocked = true ∧ (stTim 1 1 true (tim0 5) (0xeea83100 : Word64)).tim.second = some 5 ∧
    (stTim 1 1 true (tim0 5) (0xeea83100 : Word64)).tim.ever = true ∧ (stTim 1 1 true (tim0 5) (0xeea82160 : Word64)).rdB R.TIM_CTL 0 = true ∧
    true ≠ (stTim 1 1 true (tim0 5) (0xeea82160 : Word64)).rdB R.TIM_CTL 1 ∧
    (stTim 1 1 true (tim0 5) (0xeea82160 : Word64)).tim.pulse = some (0x3d0900 : Word64) ∧
    (stTim 1 1 true (tim0 5) (0xeea82160 : Word64)).ppsGood (0x3d0900 : Word64) = true ∧
    (stTim 1 1 true (tim0 5) (0xeea82160 : Word64)).ppsLocked = true ∧ (stTim 1 1 true (tim0 5) (0xeea82160 : Word64)).tim.second = some 5 ∧
    (stTim 1 1 true (tim0 5) (0xeea82160 : Word64)).tim.ever = true ∧ (stTim 1 1 true (tim0 5) (0xeea840a0 : Word64)).rdB R.TIM_CTL 0 = true ∧
    true ≠ (stTim 1 1 true (tim0 5) (0xeea840a0 : Word64)).rdB R.TIM_CTL 1 ∧
    (stTim 1 1 true (tim0 5) (0xeea840a0 : Word64)).tim.pulse = some (0x3d0900 : Word64) ∧
    (stTim 1 1 true (tim0 5) (0xeea840a0 : Word64)).ppsGood (0x3d0900 : Word64) = true ∧
    (stTim 1 1 true (tim0 5) (0xeea840a0 : Word64)).ppsLocked = true ∧ (stTim 1 1 true (tim0 5) (0xeea840a0 : Word64)).tim.second = some 5 ∧
    (stTim 1 1 true (tim0 5) (0xeea840a0 : Word64)).tim.ever = true ∧ (stTim 0 1 false Tim.reset (9 : Word64)).rdB R.TIM_CTL 0 = true ∧
    true ≠ (stTim 0 1 false Tim.reset (9 : Word64)).rdB R.TIM_CTL 1 ∧ (stTim 0 1 false Tim.reset (9 : Word64)).tim.pulse = none ∧
    (stTim 0 1 false Tim.reset (9 : Word64)).tim.next = none ∧ State.reset.rdB R.TIM_CTL 0 = false ∧
    false = (stTim 1 1 true (tim0 5) (0 : Word64)).rdB R.TIM_CTL 1 ∧ (stMiss 0 (0xeea840a1 : Word64)).rdB R.TIM_CTL 0 = true ∧
    (stMiss 0 (0xeea840a1 : Word64)).tim.pulse = some (0x3d0900 : Word64) ∧
    BitVec.toNat (0x3d0900 : Word64) + 0xee6b2800 + (stMiss 0 (0xeea840a1 : Word64)).rdF R.TIM_PPS_WIN 15 0 * 4 < BitVec.toNat (stMiss 0
      (0xeea840a1 : Word64)).ft ∧
    (stMiss 0 (0xeea840a1 : Word64)).ppsLocked = true ∧ (stMiss 0 (0xeea840a1 : Word64)).tim.counted = false ∧
    (stMiss 0 (0xeea840a1 : Word64)).tim.misses < 2 ∧ (stMiss 1 (0xeea840a1 : Word64)).rdB R.TIM_CTL 0 = true ∧
    (stMiss 1 (0xeea840a1 : Word64)).tim.pulse = some (0x3d0900 : Word64) ∧
    BitVec.toNat (0x3d0900 : Word64) + 0xee6b2800 + (stMiss 1 (0xeea840a1 : Word64)).rdF R.TIM_PPS_WIN 15 0 * 4 < BitVec.toNat (stMiss 1
      (0xeea840a1 : Word64)).ft ∧
    (stMiss 1 (0xeea840a1 : Word64)).ppsLocked = true ∧ (stMiss 1 (0xeea840a1 : Word64)).tim.counted = false ∧
    (stMiss 1 (0xeea840a1 : Word64)).tim.misses < 2 ∧ (stMiss 2 (0xeea840a1 : Word64)).rdB R.TIM_CTL 0 = true ∧
    (stMiss 2 (0xeea840a1 : Word64)).tim.pulse = some (0x3d0900 : Word64) ∧
    BitVec.toNat (0x3d0900 : Word64) + 0xee6b2800 + (stMiss 2 (0xeea840a1 : Word64)).rdF R.TIM_PPS_WIN 15 0 * 4 < BitVec.toNat (stMiss 2
      (0xeea840a1 : Word64)).ft ∧
    (stMiss 2 (0xeea840a1 : Word64)).ppsLocked = true ∧ (stMiss 2 (0xeea840a1 : Word64)).tim.counted = false ∧
    (stMiss 2 (0xeea840a1 : Word64)).tim.misses = 2 ∧ (stTim 1 1 true (tim0 5) (0 : Word64)).rdB R.TIM_CTL 0 = true ∧ zdaOf [] = (1, 0) ∧
    zdaOf zda1.dropLast = (1, 0) ∧ (stTim 1 1 true (tim0 1) (0 : Word64)).rdB R.TIM_CTL 0 = true ∧ zdaOf zda1 = (2, 1) ∧
    (stTim 1 1 true (tim0 1) (0 : Word64)).ppsLocked = true ∧
    (Option.map (fun k => if (stTim 1 1 true (tim0 1) (0 : Word64)).rdB R.TIM_CTL 16 = true then k + 1 else k) (stTim 1 1 true (tim0 1) (0 :
      Word64)).tim.second = some 1) ∧
    (stTim 1 65537 true (tim0 0) (0 : Word64)).rdB R.TIM_CTL 0 = true ∧ (stTim 1 65537 true (tim0 0) (0 : Word64)).ppsLocked = true ∧
    (Option.map (fun k => if (stTim 1 65537 true (tim0 0) (0 : Word64)).rdB R.TIM_CTL 16 = true then k + 1 else k) (stTim 1 65537 true (tim0 0) (0
      : Word64)).tim.second = some 1) ∧
    (stTim 1 1 true (tim0 2) (0 : Word64)).rdB R.TIM_CTL 0 = true ∧ (stTim 1 1 true (tim0 2) (0 : Word64)).ppsLocked = true ∧
    (Option.map (fun k => if (stTim 1 1 true (tim0 2) (0 : Word64)).rdB R.TIM_CTL 16 = true then k + 1 else k) (stTim 1 1 true (tim0 2) (0 :
      Word64)).tim.second ≠ some 1) ∧
    (stTim 0 65537 false Tim.reset (0 : Word64)).rdB R.TIM_CTL 0 = true ∧ (stTim 0 65537 false Tim.reset (0 : Word64)).ppsLocked = false ∧
    (stTim 0 65537 false Tim.reset (0 : Word64)).rdB R.TIM_CTL 16 = true ∧ (stTim 1 1 true (tim0 5) (0 : Word64)).rdF R.TIM_MASTER 31 24 ≠ 255 ∧
    (stTim 1 1 true (tim0 5) (0 : Word64)).rung ≠ 3 ∧ (stTim 1 1 true (tim0 5) (0 : Word64)).rung ≠ 4 ∧
    (stTim 2 1 false Tim.reset (0 : Word64)).portLive 0 = true ∧ (stFollow (0 : Word64)).portLive 0 = true ∧
    (stTim 4 65281 false Tim.reset (0 : Word64)).portLive 0 = true ∧
    (stFollow (0xf42400 : Word64)).tim.heard.get? ((stFollow (0xf42400 : Word64)).rdF R.TIM_MASTER 31 24) = some heard0 ∧
    (stFollow (0xf42400 : Word64)).timSt = 2 ∧ BitVec.toNat heard0.at_ + 0xf42400 ≤ BitVec.toNat (stFollow (0xf42400 : Word64)).ft ∧
    (stHoldOp (0x3aef6cfb40000 : Word64)).timSt = 3 ∧
    BitVec.toNat (stHoldOp (0x3aef6cfb40000 : Word64)).tim.holdAt + 0x3aef6cfb40000 ≤ BitVec.toNat (stHoldOp (0x3aef6cfb40000 : Word64)).ft ∧
    (stTim 4 1 false Tim.reset (0 : Word64)).rdF R.TIM_CTL 15 8 ≠ 255 ∧ (stTim 4 1 false Tim.reset (0 : Word64)).heardMasters = [] ∧
    (stTim 1 1 true (tim0 5) (0x3d0900 : Word64)).rdF R.TIM_CTL 15 8 ≠ 255 ∧ (stTim 1 1 true (tim0 5) (0x3d0900 : Word64)).heardMasters = [] := by decide +kernel
theorem witness_TimeStepsAndTriggers :
    (0 : ℤ) < (BitVec.ofNat 64 ((stStep (1 : Word32) (0 : Word32)).rd64 R.TIM_STEP_LO)).toInt ∧ (stStep (1 : Word32) (0 : Word32)).trigs = [] ∧
    (0 : ℤ) < (BitVec.ofNat 64 ((stStep (0xffffffff : Word32) (0x7fffffff : Word32)).rd64 R.TIM_STEP_LO)).toInt ∧
    (stStep (0xffffffff : Word32) (0x7fffffff : Word32)).trigs = [] ∧ (BitVec.ofNat 64 (State.reset.rd64 R.TIM_STEP_LO)).toInt ≤ (0 : ℤ) ∧
    (BitVec.ofNat 64 ((stStep (0xffffffff : Word32) (0xffffffff : Word32)).rd64 R.TIM_STEP_LO)).toInt ≤ (0 : ℤ) ∧
    ((stTrigOp Trig.none []).trigger ((stTrigOp Trig.none []).rdF R.TIM_TRIG_SEL 7 0)).valid = false ∧ bit (0xc2000004 : Word32) 31 = true ∧
    bit (0xc2000004 : Word32) 30 = true ∧ 2 ≤ fld (0xc2000004 : Word32) 27 24 ∧ fld (0xc2000004 : Word32) 27 24 ≤ 4 ∧
    bit (0xc4000000 : Word32) 31 = true ∧ bit (0xc4000000 : Word32) 30 = true ∧ 2 ≤ fld (0xc4000000 : Word32) 27 24 ∧
    fld (0xc4000000 : Word32) 27 24 ≤ 4 ∧ 4 < fld (0x5000000 : Word32) 27 24 ∧
    ((stTrigOp (Trig.mk (0 : Word64) true false 1 0) []).trigger ((stTrigOp (Trig.mk (0 : Word64) true false 1 0) []).rdF R.TIM_TRIG_SEL 7 0)).valid =
      true ∧
    ((stTrigOp (Trig.mk (0 : Word64) true false 1 0) []).trigger ((stTrigOp (Trig.mk (0 : Word64) true false 1 0) []).rdF R.TIM_TRIG_SEL 7 0)).sw =
      false ∧
    (stHeldFt Trig.none).held.get? R.TIM_TRIG_FT_LO = some (9 : Word32) ∧
    ((stHeldFt Trig.none).trigger ((stHeldFt Trig.none).rdF R.TIM_TRIG_SEL 7 0)).valid = false ∧
    ((stHeldFt (Trig.mk (0 : Word64) true false 1 0)).trigger ((stHeldFt (Trig.mk (0 : Word64) true false 1 0)).rdF R.TIM_TRIG_SEL 7 0)).valid =
      true ∧
    (stTrigOp (Trig.mk (0 : Word64) true true 2 3) []).trigDue 255 2 = true ∧
    (stTrigOp (Trig.mk (0 : Word64) true true 2 3) []).rungCode ((stTrigOp (Trig.mk (0 : Word64) true true 2 3) []).trigger 255).target = true ∧
    (stTrigOp (Trig.mk (0 : Word64) true true 2 3) []).rung < ((stTrigOp (Trig.mk (0 : Word64) true true 2 3) []).trigger 255).target ∧
    (stTrigOp (Trig.mk (0 : Word64) true true 3 15) [(R.SMB_GPIO_DIR, (0x8000 : Word32))]).trigDue 255 3 = true ∧
    (stTrigOp (Trig.mk (0 : Word64) true true 3 15) [(R.SMB_GPIO_DIR, (0x8000 : Word32))]).rdB R.SMB_GPIO_DIR (((stTrigOp (Trig.mk (0 : Word64) true
      true 3 15) [(R.SMB_GPIO_DIR, (0x8000 : Word32))]).trigger 255).target % 16) = true ∧
    (stTrigOp (Trig.mk (0 : Word64) true true 3 15) []).trigDue 255 3 = true ∧
    (stTrigOp (Trig.mk (0 : Word64) true true 3 15) []).rdB R.SMB_GPIO_DIR (((stTrigOp (Trig.mk (0 : Word64) true true 3 15) []).trigger 255).target %
      16) = false ∧
    (stTrigOp (Trig.mk (0 : Word64) true true 4 0) []).trigDue 255 4 = true := by decide +kernel
theorem witness_AdmissionCommands :
    (stAdm []).rdB (R.ADM_RING_CTL 0) 31 = true ∧
    BitVec.toNat ((2 : Word32) - (stAdm []).rd (R.ADM_RING_DONE 0)) ≤ 2 ^ (stAdm []).rdF (R.ADM_RING_CTL 0) 19 16 ∧
    BitVec.toNat ((stAdm []).rd (R.ADM_RING_PROD 0) - (stAdm []).rd (R.ADM_RING_DONE 0)) ≤ BitVec.toNat ((2 : Word32) - (stAdm []).rd
      (R.ADM_RING_DONE 0)) ∧
    2 ^ (stAdm []).rdF (R.ADM_RING_CTL 0) 19 16 < BitVec.toNat ((3 : Word32) - (stAdm []).rd (R.ADM_RING_DONE 0)) ∧
    BitVec.toNat ((0 : Word32) - (stAdm []).rd (R.ADM_RING_DONE 0)) < BitVec.toNat ((stAdm []).rd (R.ADM_RING_PROD 0) - (stAdm []).rd
      (R.ADM_RING_DONE 0)) ∧
    stAdmOff.rdB (R.ADM_RING_CTL 63) 31 = false ∧ (admBytes 0 0 2000).length = 128 ∧ (stAdm []).rdB (R.ADM_RING_CTL 0) 30 = true ∧
    (stAdm []).hostReach = true ∧ (stAdm []).rd (R.ADM_RING_DONE 0) ≠ (stAdm []).rd (R.ADM_RING_PROD 0) ∧ (admRecOf (admBytes 0 0 2000)).kind = 0 ∧
    admRangeOk (admRecOf (admBytes 0 0 2000)) = true ∧ bit ((stAdm []).mdl (admRecOf (admBytes 0 0 2000)).mdl).ctl 31 = true ∧
    (stAdm []).admTest 0 (admRecOf (admBytes 0 0 2000)) (State.cdiv (admRecOf (admBytes 0 0 2000)).maxLen 128 * gAdm.lay.nlayer * gAdm.lay.s)
      (State.prefillOf ((stAdm []).mdl (admRecOf (admBytes 0 0 2000)).mdl) (admRecOf (admBytes 0 0 2000)).prompt) true = (0, 0) ∧
    (stAdm []).freeReq = some 0 ∧ (stAdm [(0, reqEx 4)]).rdB (R.ADM_RING_CTL 0) 31 = true ∧
    (stAdm [(0, reqEx 4)]).rdB (R.ADM_RING_CTL 0) 30 = true ∧ (stAdm [(0, reqEx 4)]).hostReach = true ∧
    (stAdm [(0, reqEx 4)]).rd (R.ADM_RING_DONE 0) ≠ (stAdm [(0, reqEx 4)]).rd (R.ADM_RING_PROD 0) ∧
    bit ((stAdm [(0, reqEx 4)]).mdl (admRecOf (admBytes 0 0 2000)).mdl).ctl 31 = true ∧
    (stAdm [(0, reqEx 4)]).admTest 0 (admRecOf (admBytes 0 0 2000)) (State.cdiv (admRecOf (admBytes 0 0 2000)).maxLen 128 * gAdm.lay.nlayer *
      gAdm.lay.s) (State.prefillOf ((stAdm [(0, reqEx 4)]).mdl (admRecOf (admBytes 0 0 2000)).mdl) (admRecOf (admBytes 0 0 2000)).prompt) true = (0,
      0) ∧
    (stAdm [(0, reqEx 4)]).freeReq = some 1 ∧ (admBytes 0 0 0).length = 128 ∧ (admRecOf (admBytes 0 0 0)).kind = 0 ∧
    admRangeOk (admRecOf (admBytes 0 0 0)) = true ∧ bit ((stAdm []).mdl (admRecOf (admBytes 0 0 0)).mdl).ctl 31 = true ∧
    (stAdm []).admTest 0 (admRecOf (admBytes 0 0 0)) (State.cdiv (admRecOf (admBytes 0 0 0)).maxLen 128 * gAdm.lay.nlayer * gAdm.lay.s)
      (State.prefillOf ((stAdm []).mdl (admRecOf (admBytes 0 0 0)).mdl) (admRecOf (admBytes 0 0 0)).prompt) true = (1, 0x989680) ∧
    (admBytes 1 7 2000).length = 128 ∧ (stAdm [(7, reqEx 4)]).rdB (R.ADM_RING_CTL 0) 31 = true ∧
    (stAdm [(7, reqEx 4)]).rdB (R.ADM_RING_CTL 0) 30 = true ∧ (stAdm [(7, reqEx 4)]).hostReach = true ∧
    (stAdm [(7, reqEx 4)]).rd (R.ADM_RING_DONE 0) ≠ (stAdm [(7, reqEx 4)]).rd (R.ADM_RING_PROD 0) ∧ (admRecOf (admBytes 1 7 2000)).kind = 1 ∧
    admRangeOk (admRecOf (admBytes 1 7 2000)) = true ∧ bit ((stAdm [(7, reqEx 4)]).mdl (admRecOf (admBytes 1 7 2000)).mdl).ctl 31 = true ∧
    (stAdm [(7, reqEx 4)]).req? (admRecOf (admBytes 1 7 2000)).reqId = some (reqEx 4) ∧ (reqEx 4).tenant = 0 ∧ (reqEx 4).st = 4 ∧
    (stAdm [(7, reqEx 4)]).admTest 0 (admRecOf (admBytes 1 7 2000)) (State.cdiv (admRecOf (admBytes 1 7 2000)).maxLen 128 * gAdm.lay.nlayer *
      gAdm.lay.s) (State.cdiv ((stAdm [(7, reqEx 4)]).flashBytes (reqEx 4) gAdm * 2 ^ 23) 48) false = (0, 0) ∧
    (admBytes 2 7 0).length = 128 ∧ (stAdm [(7, reqEx 6)]).rdB (R.ADM_RING_CTL 0) 31 = true ∧
    (stAdm [(7, reqEx 6)]).rdB (R.ADM_RING_CTL 0) 30 = true ∧ (stAdm [(7, reqEx 6)]).hostReach = true ∧
    (stAdm [(7, reqEx 6)]).rd (R.ADM_RING_DONE 0) ≠ (stAdm [(7, reqEx 6)]).rd (R.ADM_RING_PROD 0) ∧ (admRecOf (admBytes 2 7 0)).kind = 2 ∧
    (admRecOf (admBytes 2 7 0)).ver = 1 ∧ (admRecOf (admBytes 2 7 0)).flags / 64 % 2 = 0 ∧
    (stAdm [(7, reqEx 6)]).req? (admRecOf (admBytes 2 7 0)).reqId = some (reqEx 6) ∧ (reqEx 6).tenant = 0 ∧ (reqEx 6).st = 6 ∧
    (stAdm [(7, reqEx 5)]).rdB (R.ADM_RING_CTL 0) 31 = true ∧ (stAdm [(7, reqEx 5)]).rdB (R.ADM_RING_CTL 0) 30 = true ∧
    (stAdm [(7, reqEx 5)]).hostReach = true ∧ (stAdm [(7, reqEx 5)]).rd (R.ADM_RING_DONE 0) ≠ (stAdm [(7, reqEx 5)]).rd (R.ADM_RING_PROD 0) ∧
    (stAdm [(7, reqEx 5)]).req? (admRecOf (admBytes 2 7 0)).reqId = some (reqEx 5) ∧ (reqEx 5).tenant = 0 ∧ (reqEx 5).st = 5 ∧
    (stAdm [(65535, reqEx 5)]).req? 65535 = some (reqEx 5) := by decide +kernel
theorem witness_RandomnessCommands :
    State.reset.adminOpen = false ∧ (stSeed [(R.RNG_CTL, (1 : Word32)), (R.RNG_SEED 3, (1 : Word32))]).adminOpen = true ∧
    (stSeed [(R.RNG_CTL, (1 : Word32)), (R.RNG_SEED 3, (1 : Word32))]).rdB R.RNG_CTL 0 = true ∧
    (stSeed [(R.RNG_CTL, (1 : Word32)), (R.RNG_SEED 3, (1 : Word32))]).rd (R.RNG_SEED 3) ≠ (0 : Word32) ∧
    (stSeed [(R.RNG_CTL, (1 : Word32)), (R.RNG_SEED 3, (1 : Word32))]).busyGens = [] ∧ (stSeed [(R.RNG_CTL, (1 : Word32))]).adminOpen = true ∧
    (stSeed [(R.RNG_CTL, (1 : Word32))]).rdB R.RNG_CTL 0 = true ∧ (stSeed [(R.RNG_CTL, (1 : Word32))]).rd (R.RNG_SEED 0) = (0 : Word32) ∧
    (stSeed [(R.RNG_CTL, (1 : Word32))]).rd (R.RNG_SEED 1) = (0 : Word32) ∧ (stSeed [(R.RNG_CTL, (1 : Word32))]).rd (R.RNG_SEED 2) = (0 : Word32) ∧
    (stSeed [(R.RNG_CTL, (1 : Word32))]).rd (R.RNG_SEED 3) = (0 : Word32) ∧ (stSeed [(R.RNG_STAT, (0x30000000 : Word32))]).adminOpen = true ∧
    (stSeed [(R.RNG_STAT, (0x30000000 : Word32))]).rdB R.RNG_CTL 0 = false ∧
    (stSeed [(R.RNG_STAT, (0x30000000 : Word32))]).rdB R.RNG_STAT 28 = true ∧ (stSeed [(R.RNG_STAT, (0x30000000 : Word32))]).busyGens = [] ∧
    (stSeed []).adminOpen = true ∧ (stSeed []).busyGens = [] ∧ (stSeed [(R.RNG_STAT, (0x20000000 : Word32))]).rdB R.RNG_STAT 29 = true ∧
    (stSeed [(R.RNG_STAT, (0x10000000 : Word32))]).rdB R.RNG_STAT 29 = false ∧
    (stSeed [(R.RNG_STAT, (0x10000000 : Word32))]).rdB R.RNG_STAT 28 = true := by decide +kernel
/-! ### Chapter 15 -/

/-- The key pair of the tests: the private key is 1, so the public point is the base point. -/
def key0 : List Byte := 4 :: (beBytes 48 ecG.1 ++ beBytes 48 ecG.2)
/-- A mailbox block: service, role, ID, payload; the challenge is zeros; the signature is by the key of the tests. -/
def reqB (svc role id : Nat) (pay : List Byte) : List Byte :=
  let m := leBytes 2 1 ++ leBytes 1 svc ++ leBytes 1 role ++ leBytes 1 id ++ leBytes 3 0 ++ leBytes 4 pay.length ++ leBytes 4 0 ++ List.replicate 48 0 ++ pay
  m ++ List.replicate ((pay.length + 7) / 8 * 8 - pay.length) 0 ++ (if role = 0 then List.replicate 96 0 else ecdsaSign 1 1 m)
/-- One authenticated as administrator 0. -/
def reqA (svc : Nat) (pay : List Byte) : List Byte := reqB svc 1 0 (key0 ++ pay)
/-- One whose signature is of another message. -/
def reqBad (svc : Nat) : List Byte := (reqA svc []).take 161 ++ List.replicate 7 0 ++ List.replicate 96 7
/-- The SEM in a STATE, with administrator 0; its challenge is zeros. -/
def stSem (st : Nat) (l : Map Word32) : State :=
  { stReg (l ++ (R.SEM_STAT, BitVec.ofNat 32 (st * 2 ^ 28)) :: (List.range 12).map (fun j => (R.SEM_CHAL j, (0 : Word32)))) with
    host := { State.reset.host with up := true, bme := true }
    sem := { State.reset.sem with admins := [(0, sha384 key0)], drbg := some ⟨List.replicate 32 0, List.replicate 16 0⟩ } }
/-- The mailbox is busy. -/
def stBusyMbx : State := stSem 1 [(R.SEM_MBX_STAT, 0x80000000)]
/-- The package the services run on: no tenant, tile or turnover; a KAK. -/
def stSvc : State := { stSem 1 [(R.SEM_KF_STAT, 0x200)] with sem := { (stSem 1 []).sem with kak := some 9 } }
/-- The same with two administrators, and seven failures in a row so far. -/
def stSvc2 : State := { stSvc with sem := { stSvc.sem with admins := [(0, sha384 key0), (7, [])], fails := 7 } }
/-- The same with tenant 63 in a state. -/
def stSvcT (st : Nat) : State := { stSvc with tenants := [(63, ⟨st, 0, [], []⟩)] }
/-- A fabric key for slot 1 with ID 5, sealed to the KAK of that package by the key of the tests. -/
def blob9 : List Byte :=
  1 :: leBytes 3 0 ++ leBytes 4 5 ++ key0 ++ List.replicate 12 0 ++
    [196, 28, 239, 194, 173, 22, 111, 60, 8, 68, 98, 123, 223, 239, 231, 128, 83, 221, 68, 182, 96, 46, 90, 151,
     87, 219, 185, 157, 184, 119, 33, 135, 149, 131, 227, 250, 101, 129, 188, 82, 115, 9, 200, 8, 63, 206, 37, 114]
/-- An image header of stage 3 with a body of two bytes. -/
def hdr3 : List Byte := leBytes 2 1 ++ [3, 1, 0, 0] ++ leBytes 2 1 ++ leBytes 4 2 ++ List.replicate 148 0
/-- FW_UPDATE from host memory of it, to activate. -/
def reqFw : List Byte := reqA 0x0D (hdr3 ++ [0, 3] ++ leBytes 14 0)
/-- A session that ends at 5, and the time. -/
def stSession (ft : Word64) : State := { stSvc with sem := { stSvc.sem with endAt := some 5 }, ft := ft }
/-- Locked since 0. -/
def stLocked (ft : Word64) : State := { stSvc with sem := { stSvc.sem with lockAt := some 0 }, ft := ft }
/-- A zeroisation under way that JTAG_UNLOCK began, with a tenant and a fabric key. -/
def stZero : State := { stSvcT 1 with sem := { stSvc.sem with zero := some ⟨1, true⟩ }, kf := [(0, [1])] }

/-- BOOT with an image of stage 1 of the wrong version stored in slot A. -/
def stBadBoot : State := { stSem 0 [] with sem := { (stSem 0 []).sem with images := [(2, List.replicate 160 0)] } }

theorem witness_ServiceRefusals :
    (mbxOf (reqB 1 1 0 [])).service = 1 ∧ (stSem 1 []).hostReach = true ∧ (stSem 1 []).rdB R.SEM_MBX_STAT 31 = false ∧
    ((stSem 1 []).countWrite 4 false).mbxRefuse 1 (mbxOf (reqB 1 1 0 [])) = some 2 ∧
    (mbxOf (reqB 0x10 1 7 [])).service = 0x10 ∧ ((stSem 2 []).countWrite 4 false).mbxRefuse 0x10 (mbxOf (reqB 0x10 1 7 [])) = some 8 ∧
    (mbxOf (reqB 0x13 1 0 [])).service = 0x13 ∧ ((stSem 0 []).countWrite 4 false).mbxRefuse 0x13 (mbxOf (reqB 0x13 1 0 [])) = some 3 ∧
    (mbxOf (reqB 0x0D 1 8 [])).service = 0x0D ∧ ((stSem 1 []).countWrite 4 false).mbxRefuse 0x0D (mbxOf (reqB 0x0D 1 8 [])) = some 4 ∧
    stBusyMbx.rdB R.SEM_MBX_STAT 31 = true ∧ stBusyMbx.hostReach = true ∧ (mbxOf (reqB 1 0 0 [])).service = 1 := by
  and_intros <;> decide +kernel
theorem witness_ServiceRefusals_authentication :
    (mbxOf (reqBad 0x0F)).service = 0x0F ∧ stSvc2.hostReach = true ∧ stSvc2.rdB R.SEM_MBX_STAT 31 = false ∧
    (stSvc2.countWrite 4 false).mbxRefuse 0x0F (mbxOf (reqBad 0x0F)) = some 1 := by and_intros <;> decide +kernel
/-- An image of a stage with an empty body, signed by the key of the tests as root 0. -/
def img (n : Nat) : List Byte :=
  let h : List Byte := leBytes 2 1 ++ [BitVec.ofNat 8 n, 63, 0, 0] ++ leBytes 2 1 ++ leBytes 4 0 ++ leBytes 4 0 ++ sha384 []
  h ++ ecdsaSign 1 1 h
/-- BOOT with such an image stored for every stage, in slot A. -/
def stGoodBoot : State :=
  { stSem 0 [] with
    sem := { (stSem 0 []).sem with
      images := [(2, img 1), (4, img 2), (6, img 3), (8, img 4), (10, img 5)]
      svn := [(1, 0), (2, 1), (3, 2), (4, 3), (5, 63)] } }
/-- The factory's root keys and what it revoked are free constants: where root 0 is the key of the tests and not revoked, every image of that
boot is accepted. -/
theorem witness_SecurityEvents_release (hk : Config.rootKey 0 = key0) (hr : Config.rootRevoked 0 = false) :
    stGoodBoot.bootOk = true := by
  have h : ∀ n, 1 ≤ n → n ≤ 5 → stGoodBoot.bootImageOk n = true := by
    intro n h1 h5
    have e : stGoodBoot.fwRunning n = img n := by interval_cases n <;> rfl
    have a : ((img n).length, (img n).getD 3 0, (img n).getD 4 0) = (160, 63, 0) := by interval_cases n <;> decide +kernel
    have b : leNat ((img n).take 2) = 1 ∧ ((img n).getD 2 0).toNat = n ∧ ((img n).getD 5 0).toNat = 0 ∧ leNat (slice (img n) 8 4) = 0 ∧
        slice (img n) 0x10 48 = sha384 [] ∧ ecdsaOk key0 ((img n).take 0x40) (slice (img n) 0x40 96) = true := by
      interval_cases n <;> decide +kernel
    have c : stGoodBoot.svnMin n ≤ 63 := by interval_cases n <;> decide +kernel
    obtain ⟨b1, b2, b3, b4, b5, b6⟩ := b
    simp only [Prod.mk.injEq] at a
    obtain ⟨a1, a2, a3⟩ := a
    have t : (img n).take 160 = img n := List.take_of_length_le (by omega)
    have d : (img n).drop 160 = [] := List.drop_of_length_le (by omega)
    simp only [State.bootImageOk, e, t, d, State.imageOk, rootOk, a2, a3, b1, b2, b3, b4, b5]
    have r0 : (0 : Byte).toNat = 0 := rfl
    have r63 : (63 : Byte).toNat = 63 := rfl
    simp only [r0, r63, hk, hr, b6, c]
    simp
  simp [State.bootOk, h]
theorem witness_SecurityServices_1 :
    (mbxOf (reqB 1 0 0 [])).service = 1 ∧ (stSem 1 []).rdB R.SEM_MBX_STAT 31 = false ∧ (stSem 1 []).hostReach = true ∧
    ((stSem 1 []).countWrite 4 false).mbxRefuse 1 (mbxOf (reqB 1 0 0 [])) = none := by decide +kernel
theorem witness_SecurityServices_2 :
    (mbxOf (reqB 2 0 0 [])).service = 2 ∧ (stSem 1 []).rdB R.SEM_MBX_STAT 31 = false ∧ (stSem 1 []).hostReach = true ∧
    ((stSem 1 []).countWrite 4 false).mbxRefuse 2 (mbxOf (reqB 2 0 0 [])) = none := by decide +kernel
theorem witness_SecurityServices_3 :
    (mbxOf (reqB 3 0 0 [])).service = 3 ∧ (stSem 1 []).rdB R.SEM_MBX_STAT 31 = false ∧ (stSem 1 []).hostReach = true ∧
    ((stSem 1 []).countWrite 4 false).mbxRefuse 3 (mbxOf (reqB 3 0 0 [])) = none := by decide +kernel
theorem witness_SecurityServices_4 :
    (mbxOf (reqB 4 0 0 (List.replicate 48 (1 : Byte)))).service = 4 ∧ (stSem 1 []).rdB R.SEM_MBX_STAT 31 = false ∧ (stSem 1 []).hostReach = true ∧
    ((stSem 1 []).countWrite 4 false).mbxRefuse 4 (mbxOf (reqB 4 0 0 (List.replicate 48 (1 : Byte)))) = none ∧
    (svcPay (reqB 4 0 0 (List.replicate 48 (1 : Byte)))).length = 48 := by decide +kernel
theorem witness_SecurityServices_5 :
    (mbxOf (reqB 5 0 0 (List.replicate 48 (1 : Byte)))).service = 5 ∧ (stSem 1 []).rdB R.SEM_MBX_STAT 31 = false ∧ (stSem 1 []).hostReach = true ∧
    ((stSem 1 []).countWrite 4 false).mbxRefuse 5 (mbxOf (reqB 5 0 0 (List.replicate 48 (1 : Byte)))) = none ∧
    (svcPay (reqB 5 0 0 (List.replicate 48 (1 : Byte)))).length = 48 ∧ (stSem 1 []).rdB R.SEM_STAT 26 = false := by decide +kernel
theorem witness_SecurityServices_6 :
    (mbxOf (reqA 6 ((7 : Byte) :: (0 : Byte) :: List.replicate 48 (1 : Byte)))).service = 6 ∧ stSvc.rdB R.SEM_MBX_STAT 31 = false ∧
    stSvc.hostReach = true ∧
    (stSvc.countWrite 4 false).mbxRefuse 6 (mbxOf (reqA 6 ((7 : Byte) :: (0 : Byte) :: List.replicate 48 (1 : Byte)))) = none ∧
    (svcPay (reqA 6 ((7 : Byte) :: (0 : Byte) :: List.replicate 48 (1 : Byte)))).length = 50 ∧
    BitVec.toNat ((svcPay (reqA 6 ((7 : Byte) :: (0 : Byte) :: List.replicate 48 (1 : Byte)))).getD 0 (0 : Byte)) < 8 ∧
    (svcPay (reqA 6 ((7 : Byte) :: (0 : Byte) :: List.replicate 48 (1 : Byte)))).getD 1 (0 : Byte) = (0 : Byte) := by decide +kernel
theorem witness_SecurityServices_7 :
    (mbxOf (reqA 6 ((7 : Byte) :: (1 : Byte) :: List.replicate 48 (0 : Byte)))).service = 6 ∧ stSvc2.rdB R.SEM_MBX_STAT 31 = false ∧
    stSvc2.hostReach = true ∧
    (stSvc2.countWrite 4 false).mbxRefuse 6 (mbxOf (reqA 6 ((7 : Byte) :: (1 : Byte) :: List.replicate 48 (0 : Byte)))) = none ∧
    (svcPay (reqA 6 ((7 : Byte) :: (1 : Byte) :: List.replicate 48 (0 : Byte)))).length = 50 ∧
    BitVec.toNat ((svcPay (reqA 6 ((7 : Byte) :: (1 : Byte) :: List.replicate 48 (0 : Byte)))).getD 0 (0 : Byte)) < 8 ∧
    (svcPay (reqA 6 ((7 : Byte) :: (1 : Byte) :: List.replicate 48 (0 : Byte)))).getD 1 (0 : Byte) = (1 : Byte) ∧
    (List.map (fun x => x.1) stSvc2.sem.admins ≠ [BitVec.toNat ((svcPay (reqA 6 ((7 : Byte) :: (1 : Byte) :: List.replicate 48 (0 : Byte)))).getD
      0 (0 : Byte))]) := by decide +kernel
theorem witness_SecurityServices_8 :
    (mbxOf (reqA 6 ((0 : Byte) :: (1 : Byte) :: List.replicate 48 (0 : Byte)))).service = 6 ∧ stSvc.rdB R.SEM_MBX_STAT 31 = false ∧
    stSvc.hostReach = true ∧
    (stSvc.countWrite 4 false).mbxRefuse 6 (mbxOf (reqA 6 ((0 : Byte) :: (1 : Byte) :: List.replicate 48 (0 : Byte)))) = none ∧
    (svcPay (reqA 6 ((0 : Byte) :: (1 : Byte) :: List.replicate 48 (0 : Byte)))).length = 50 ∧
    BitVec.toNat ((svcPay (reqA 6 ((0 : Byte) :: (1 : Byte) :: List.replicate 48 (0 : Byte)))).getD 0 (0 : Byte)) < 8 ∧
    (svcPay (reqA 6 ((0 : Byte) :: (1 : Byte) :: List.replicate 48 (0 : Byte)))).getD 1 (0 : Byte) = (1 : Byte) ∧
    (List.map (fun x => x.1) stSvc.sem.admins = [BitVec.toNat ((svcPay (reqA 6 ((0 : Byte) :: (1 : Byte) :: List.replicate 48 (0 : Byte)))).getD 0
      (0 : Byte))]) := by decide +kernel
theorem witness_SecurityServices_9 :
    (mbxOf (reqA 7 ((63 : Byte) :: List.replicate 48 (1 : Byte)))).service = 7 ∧ stSvc.rdB R.SEM_MBX_STAT 31 = false ∧ stSvc.hostReach = true ∧
    (stSvc.countWrite 4 false).mbxRefuse 7 (mbxOf (reqA 7 ((63 : Byte) :: List.replicate 48 (1 : Byte)))) = none ∧
    (svcPay (reqA 7 ((63 : Byte) :: List.replicate 48 (1 : Byte)))).length = 49 ∧
    BitVec.toNat ((svcPay (reqA 7 ((63 : Byte) :: List.replicate 48 (1 : Byte)))).getD 0 (0 : Byte)) < 64 ∧
    (stSvc.tenants.get Tenant.none (BitVec.toNat ((svcPay (reqA 7 ((63 : Byte) :: List.replicate 48 (1 : Byte)))).getD 0 (0 : Byte)))).st = 0 := by decide +kernel
theorem witness_SecurityServices_10 :
    (mbxOf (reqA 8 [(63 : Byte)])).service = 8 ∧ (stSvcT 1).rdB R.SEM_MBX_STAT 31 = false ∧ (stSvcT 1).hostReach = true ∧
    ((stSvcT 1).countWrite 4 false).mbxRefuse 8 (mbxOf (reqA 8 [(63 : Byte)])) = none ∧ (svcPay (reqA 8 [(63 : Byte)])).length = 1 ∧
    BitVec.toNat ((svcPay (reqA 8 [(63 : Byte)])).getD 0 (0 : Byte)) < 64 ∧
    ((mbxOf (reqA 8 [(63 : Byte)])).role = 2 → (mbxOf (reqA 8 [(63 : Byte)])).id = BitVec.toNat ((svcPay (reqA 8 [(63 : Byte)])).getD 0 (0 :
      Byte))) ∧
    (stSvcT 1).tenantActive (BitVec.toNat ((svcPay (reqA 8 [(63 : Byte)])).getD 0 (0 : Byte))) = true ∧
    (stSvcT 1).tenantBusy (BitVec.toNat ((svcPay (reqA 8 [(63 : Byte)])).getD 0 (0 : Byte))) = false ∧ (stSvcT 1).slots = [] ∧
    (stSvcT 1).ms.tiles = [] ∧ ((stSvcT 2).tenants.get Tenant.none 63).st = 2 := by decide +kernel
theorem witness_SecurityServices_11 :
    (mbxOf (reqA 9 (List.replicate 16 (255 : Byte)))).service = 9 ∧ stSvc.rdB R.SEM_MBX_STAT 31 = false ∧ stSvc.hostReach = true ∧
    (stSvc.countWrite 4 false).mbxRefuse 9 (mbxOf (reqA 9 (List.replicate 16 (255 : Byte)))) = none ∧
    (svcPay (reqA 9 (List.replicate 16 (255 : Byte)))).length = 16 := by decide +kernel
theorem witness_SecurityServices_12 :
    (mbxOf (reqA 10 [])).service = 10 ∧ stSvc.rdB R.SEM_MBX_STAT 31 = false ∧ stSvc.hostReach = true ∧
    (stSvc.countWrite 4 false).mbxRefuse 10 (mbxOf (reqA 10 [])) = none ∧ (svcPay (reqA 10 [])).length = 0 ∧
    ((List.any stSvc.ms.tiles fun t => stSvc.modelTile t.1) = false) ∧ stSvc.turn = none := by decide +kernel
theorem witness_SecurityServices_13 :
    (mbxOf (reqA 11 blob9)).service = 11 ∧ stSvc.rdB R.SEM_MBX_STAT 31 = false ∧ stSvc.hostReach = true ∧
    (stSvc.countWrite 4 false).mbxRefuse 11 (mbxOf (reqA 11 blob9)) = none ∧ (svcPay (reqA 11 blob9)).length = 165 ∧
    BitVec.toNat ((svcPay (reqA 11 blob9)).getD 0 (0 : Byte)) < 2 ∧ leNat (slice (svcPay (reqA 11 blob9)) 1 3) = 0 ∧
    leNat (slice (svcPay (reqA 11 blob9)) 4 4) ≠ 0 ∧ stSvc.sem.kak = some 9 ∧
    openBlob 9 (svcPay (reqA 11 blob9)) = some (List.replicate 32 (165 : Byte)) := by decide +kernel
theorem witness_SecurityServices_14 :
    (mbxOf (reqA 12 [(1 : Byte)])).service = 12 ∧ stSvc.rdB R.SEM_MBX_STAT 31 = false ∧ stSvc.hostReach = true ∧
    (stSvc.countWrite 4 false).mbxRefuse 12 (mbxOf (reqA 12 [(1 : Byte)])) = none ∧ (svcPay (reqA 12 [(1 : Byte)])).length = 1 ∧
    BitVec.toNat ((svcPay (reqA 12 [(1 : Byte)])).getD 0 (0 : Byte)) < 2 ∧
    stSvc.rdB R.SEM_KF_STAT (8 + BitVec.toNat ((svcPay (reqA 12 [(1 : Byte)])).getD 0 (0 : Byte))) = true := by decide +kernel
theorem witness_SecurityServices_15 :
    (mbxOf (reqA 14 (leBytes 2 3600 ++ [(1 : BitVec 8)]))).service = 14 ∧ stSvc.rdB R.SEM_MBX_STAT 31 = false ∧ stSvc.hostReach = true ∧
    (stSvc.countWrite 4 false).mbxRefuse 14 (mbxOf (reqA 14 (leBytes 2 3600 ++ [(1 : BitVec 8)]))) = none ∧
    (svcPay (reqA 14 (leBytes 2 3600 ++ [(1 : BitVec 8)]))).length = 3 ∧
    1 ≤ leNat (List.take 2 (svcPay (reqA 14 (leBytes 2 3600 ++ [(1 : BitVec 8)])))) ∧
    leNat (List.take 2 (svcPay (reqA 14 (leBytes 2 3600 ++ [(1 : BitVec 8)])))) ≤ 3600 := by decide +kernel
theorem witness_SecurityServices_16 :
    (mbxOf (reqA 15 [])).service = 15 ∧ stSvc.rdB R.SEM_MBX_STAT 31 = false ∧ stSvc.hostReach = true ∧
    (stSvc.countWrite 4 false).mbxRefuse 15 (mbxOf (reqA 15 [])) = none ∧ (svcPay (reqA 15 [])).length = 0 := by decide +kernel
theorem witness_SecurityServices_17 :
    (mbxOf (reqA 16 ((7 : Byte) :: List.replicate 48 (1 : Byte)))).service = 16 ∧ stSvc.rdB R.SEM_MBX_STAT 31 = false ∧ stSvc.hostReach = true ∧
    (stSvc.countWrite 4 false).mbxRefuse 16 (mbxOf (reqA 16 ((7 : Byte) :: List.replicate 48 (1 : Byte)))) = none ∧
    (svcPay (reqA 16 ((7 : Byte) :: List.replicate 48 (1 : Byte)))).length = 49 ∧
    5 ≤ BitVec.toNat ((svcPay (reqA 16 ((7 : Byte) :: List.replicate 48 (1 : Byte)))).getD 0 (0 : Byte)) ∧
    BitVec.toNat ((svcPay (reqA 16 ((7 : Byte) :: List.replicate 48 (1 : Byte)))).getD 0 (0 : Byte)) ≤ 7 := by decide +kernel
theorem witness_SecurityServices_18 :
    (mbxOf (reqA 17 [])).service = 17 ∧ stSvc.rdB R.SEM_MBX_STAT 31 = false ∧ stSvc.hostReach = true ∧
    (stSvc.countWrite 4 false).mbxRefuse 17 (mbxOf (reqA 17 [])) = none ∧ (svcPay (reqA 17 [])).length = 0 := by decide +kernel
theorem witness_SecurityServices_19 :
    (mbxOf (reqB 18 0 0 [])).service = 18 ∧ (stSem 2 []).rdB R.SEM_MBX_STAT 31 = false ∧ (stSem 2 []).hostReach = true ∧
    ((stSem 2 []).countWrite 4 false).mbxRefuse 18 (mbxOf (reqB 18 0 0 [])) = none := by decide +kernel
theorem witness_SecurityServices_20 :
    (mbxOf (reqA 18 [])).service = 18 ∧ stSvc.rdB R.SEM_MBX_STAT 31 = false ∧ stSvc.hostReach = true ∧
    (stSvc.countWrite 4 false).mbxRefuse 18 (mbxOf (reqA 18 [])) = none := by decide +kernel
theorem witness_SecurityServices_21 :
    (mbxOf (reqA 19 [])).service = 19 ∧ stSvc.rdB R.SEM_MBX_STAT 31 = false ∧ stSvc.hostReach = true ∧
    (stSvc.countWrite 4 false).mbxRefuse 19 (mbxOf (reqA 19 [])) = none := by decide +kernel
theorem witness_SecurityEvents_1 :
    (mbxOf reqFw).service = 13 ∧ stSvc.rdB R.SEM_MBX_STAT 31 = false ∧ stSvc.hostReach = true ∧
    (stSvc.countWrite 4 false).mbxRefuse 13 (mbxOf reqFw) = none ∧ stSvc.errorFree 13 = false ∧ (svcPay reqFw).length = 176 ∧
    BitVec.toNat ((svcPay reqFw).getD 160 (0 : Byte)) = 0 ∧ BitVec.toNat ((svcPay reqFw).getD 161 (0 : Byte)) ≤ 3 ∧
    leNat (slice (svcPay reqFw) 164 4) = 0 ∧ 0 < leNat (slice (List.take 160 (svcPay reqFw)) 8 4) ∧
    leNat (slice (List.take 160 (svcPay reqFw)) 8 4) ≤ 0x4000000 ∧ stSvc.sem.fetch = none ∧
    stSvc.imageOk (BitVec.toNat ((List.take 160 (svcPay reqFw)).getD 2 (0 : Byte))) (List.take 160 (svcPay reqFw)) (padTo (leNat (slice (List.take
      160 (svcPay reqFw)) 8 4)) [(1 : Byte)]) = false ∧
    (stSession (5 : Word64)).sem.endAt = some (5 : Word64) ∧ (5 : Word64) ≤ (stSession (5 : Word64)).ft ∧
    (stLocked (0xee6b2800 : Word64)).sem.lockAt = some (0 : Word64) ∧
    BitVec.toNat (0 : Word64) + 0xee6b2800 ≤ BitVec.toNat (stLocked (0xee6b2800 : Word64)).ft ∧ stZero.rung ≠ 4 ∧
    stZero.sem.zero = some (Machine.Zero.mk 1 true) ∧ stSvc.rung ≠ 4 ∧ stSvc.sem.zero = none ∧ stSvc.semState ≤ 1 ∧
    (∀ p < 36, stSvc.portLive p = false) ∧ (stSem 0 []).semState ≤ 1 ∧ (∀ p < 36, (stSem 0 []).portLive p = false) ∧ stBadBoot.semState = 0 ∧
    stBadBoot.rdB R.SEM_STAT 22 = false ∧ stBadBoot.rdB R.SEM_STAT 25 = false ∧ stBadBoot.sem.zero = none ∧ stBadBoot.rung ≠ 4 ∧
    stBadBoot.inFatal = false ∧ stBadBoot.bootOk = false := by decide +kernel
/-! ### Chapter 16 -/

/-- The package with PWR_STAT and more. -/
def stPwr (v : Word32) (l : Map Word32) : State := stReg ((R.PWR_STAT, v) :: l)
/-- The power state with a rung wanted. -/
def wants (s : State) (r : Nat) : State := { s with pwr := { s.pwr with want := some r } }
/-- The main input is absent, or an overvoltage has locked it. -/
def stMain (main locked : Bool) : State := { stPwr 0x60400000 [] with pwr := { Pwr.reset with main := main, locked := locked } }
/-- BOOT, running a TRY image of stage 5. -/
def stTry : State := { stSem 0 [] with sem := { (stSem 0 []).sem with running := [(5, [1])] } }
/-- Sensors 0 and 24, both of compute dies, are over their threshold. -/
def stHot : State := { State.reset with pwr := { Pwr.reset with hot := [0, 24] } }

/-- A package whose cores have their service states, with every cluster's spare; die 15 selects core or cluster `sel`. -/
def stCore (sel : Word32) (l : Map CoreRun) : State :=
  { stPwr 0x28000000 [(R.CDIE_CORE_SEL 15, sel), (R.CLU_CORE_MAP 63, 0x003AC688)] with coreRun := l }
/-- The same after the fence timeout began. -/
def stFenceSem (ft : Word64) (l : Map CoreRun) : State := { stCore 383 l with ft := ft }
/-- CLU_CORE_MAP after a substitution (the worked example of chapter 16): logical core 57 moves to the spare slot 6. -/
theorem test_core_map_example :
    okAnd (match execCoreSubstDone 57 { stReg [(R.CLU_CORE_MAP 9, 0x003AC688)] with coreRun := [(57, ⟨1, false, 0, 0⟩)] } with
      | .next t => .ok (t.rd (R.CLU_CORE_MAP 9))
      | _ => (.error () : Except Unit Word32)) (fun v => v == 0x001ECC88) = true := by decide +kernel

/-- An image being fetched from package 2: two bytes of three are there. -/
def fetch0 (got : List Byte) : FwFetch := ⟨3, 2, 9, leBytes 8 0 ++ leBytes 4 3 ++ leBytes 148 0, got, true, false, 0⟩
/-- Telemetry on; a switch of core 383 waiting; an image of two bytes in slot A of stage 5. -/
def stTel : State := stPwr 0x28000000 [(R.PWR_TELEM_CTL, 0x80000001)]
/-- A switch of these cores waits, at a time. -/
def stSwitch (l : List Nat) (ft : Word64) : State := { State.reset with pwr := { Pwr.reset with fwSwitch := l }, ft := ft }
/-- An image of two bytes in slot A of stage 5. -/
def stImg : State := { State.reset with sem := { State.reset.sem with images := [(10, [1, 2])] } }
/-- A fetch is under way, at a time. -/
def stSemFetch (f : FwFetch) (ft : Word64) : State := { State.reset with sem := { State.reset.sem with fetch := some f }, ft := ft }
/-- A fetch of more than one part. -/
def fetchLong : FwFetch := { fetch0 [] with hdr := leBytes 8 0 ++ leBytes 4 0x10001 ++ leBytes 148 0 }

theorem witness_FencingAndSubstitution_timeout :
    ((stFenceSem 0x100000000 [(383, ⟨0, true, 0, 0⟩)]).core 383).at_.toNat +
      (stFenceSem 0x100000000 [(383, ⟨0, true, 0, 0⟩)]).rdF (R.CDIE_FENCE_TMO (383 / 24)) 19 0 * 4000 ≤
      (stFenceSem 0x100000000 [(383, ⟨0, true, 0, 0⟩)]).ft.toNat := by decide +kernel
/-- One whole part, and more remain. -/
theorem witness_ServiceCommands_part (data : List Byte) (h : data.length = 65536) :
    data.length = min 65536 (leNat (slice fetchLong.hdr 8 4) - fetchLong.got.length) ∧
    fetchLong.got.length + data.length < leNat (slice fetchLong.hdr 8 4) := by
  have h1 : leNat (slice fetchLong.hdr 8 4) = 0x10001 := by decide +kernel
  have h2 : fetchLong.got.length = 0 := rfl
  rw [h1, h2, h]; decide
theorem witness_PowerInputsAndResets :
    (stMain true true).pwr.main = true ∧ (stMain false true).pwr.main = false ∧ State.reset.pwr.main = true ∧ State.reset.pwr.locked = false ∧
    (stMain true false).pwr.main = true ∧ (stMain true false).rdB R.PWR_STAT 22 = true ∧ (stMain true false).rung < 4 ∧ stTry.semState = 0 ∧
    stTry.rdB R.SEM_STAT 25 = false ∧ stTry.rung ≠ 4 ∧ stTry.sem.running.get? 5 = some [(1 : Byte)] ∧ (stSem 0 []).semState = 0 ∧
    (stSem 0 []).rdB R.SEM_STAT 25 = false ∧ (stSem 0 []).rung ≠ 4 ∧ (stSem 0 []).sem.running.get? 2 = none ∧
    (stSem 0 []).sem.running.get? 5 = none ∧ State.reset.inFatal = false ∧ State.reset.ops = [] ∧ (∀ p < 36, State.reset.portState p = 0) ∧
    (stPwr (0x4000000 : Word32) []).inFatal = true ∧ (stPwr (0x60400000 : Word32) []).rdB R.PWR_STAT 22 = true ∧
    (stPwr (0x60400000 : Word32) []).rung < 4 ∧ State.reset.rdB R.PWR_STAT 22 = false ∧
    (ClkRef.sys, Clk.mk true State.reset.clk.serdesLost State.reset.clk.ocxoLost) ∈ [(ClkRef.sys, Clk.mk true State.reset.clk.serdesLost
      State.reset.clk.ocxoLost), (ClkRef.serdes, Clk.mk State.reset.clk.sysLost true State.reset.clk.ocxoLost)] ∧
    (ClkRef.serdes, Clk.mk State.reset.clk.sysLost true State.reset.clk.ocxoLost) ∈ [(ClkRef.sys, Clk.mk true State.reset.clk.serdesLost
      State.reset.clk.ocxoLost), (ClkRef.serdes, Clk.mk State.reset.clk.sysLost true State.reset.clk.ocxoLost)] := by decide +kernel
theorem witness_RungCommands :
    State.reset.inFatal = false ∧ State.reset.rungCode (fld (3 : Word32) 2 0) = true ∧ State.reset.rung < fld (3 : Word32) 2 0 ∧
    (stPwr (0x20400000 : Word32) []).inFatal = false ∧ (stPwr (0x20400000 : Word32) []).rungCode (fld (4 : Word32) 2 0) = true ∧
    (stPwr (0x20400000 : Word32) []).rung < fld (4 : Word32) 2 0 ∧ State.reset.rungCode (fld (1 : Word32) 2 0) = true ∧
    State.reset.rung = fld (1 : Word32) 2 0 ∧ (stPwr (0x40000000 : Word32) []).inFatal = false ∧
    fld (1 : Word32) 2 0 < (stPwr (0x40000000 : Word32) []).rung ∧ (stPwr (0x40000000 : Word32) []).rung < 3 ∧
    fld (0 : Word32) 2 0 < State.reset.rung ∧ State.reset.rung < 3 ∧ State.reset.rungCode (fld (4 : Word32) 2 0) = false ∧
    State.reset.rungCode (fld (7 : Word32) 2 0) = false ∧ (wants State.reset 2).pwr.want = some 2 ∧ (wants State.reset 2).rung < 2 ∧
    (wants State.reset 2).rungMay 2 = true ∧ (wants State.reset 2).inFatal = false ∧ (wants (stOp (rec0 0)) 1).pwr.want = some 1 ∧
    (wants (stOp (rec0 0)) 1).rungMay 1 = false ∧ 1 ≤ (stPwr (0x28000000 : Word32) [(R.PWR_RUNG_CTL, (1 : Word32))]).rung ∧
    (stPwr (0x28000000 : Word32) [(R.PWR_RUNG_CTL, (1 : Word32))]).rung ≤ 2 ∧
    (stPwr (0x28000000 : Word32) [(R.PWR_RUNG_CTL, (1 : Word32))]).rdB R.PWR_RUNG_CTL 0 = true ∧
    (stPwr (0x28000000 : Word32) [(R.PWR_RUNG_CTL, (1 : Word32))]).inFatal = false ∧
    (stPwr (0x28000000 : Word32) [(R.PWR_RUNG_CTL, (1 : Word32))]).rdB R.PWR_STAT 27 = true ∧
    1 ≤ (stPwr (0x48000000 : Word32) [(R.PWR_RUNG_CTL, (1 : Word32))]).rung ∧
    (stPwr (0x48000000 : Word32) [(R.PWR_RUNG_CTL, (1 : Word32))]).rung ≤ 2 ∧
    (stPwr (0x48000000 : Word32) [(R.PWR_RUNG_CTL, (1 : Word32))]).rdB R.PWR_RUNG_CTL 0 = true ∧
    (stPwr (0x48000000 : Word32) [(R.PWR_RUNG_CTL, (1 : Word32))]).inFatal = false ∧
    (stPwr (0x48000000 : Word32) [(R.PWR_RUNG_CTL, (1 : Word32))]).rdB R.PWR_STAT 27 = true := by decide +kernel
theorem witness_LadderAndHeat :
    State.reset.rung ≠ 4 ∧ State.reset.pwr.hot = [] ∧ State.reset.rdF R.PWR_LIMIT 11 0 < 4095 ∧
    (∃ d < 16, State.reset.rdF R.PWR_OX_FLOOR 4 0 < State.reset.oxOf d) ∧
    (stPwr (0x20000000 : Word32) [(R.CDIE_CLK 15, (0x7cf : Word32))]).rung ≠ 4 ∧
    (stPwr (0x20000000 : Word32) [(R.CDIE_CLK 15, (0x7cf : Word32))]).pwr.hot = [] ∧
    0 * 100 < 95 * (stPwr (0x20000000 : Word32) [(R.CDIE_CLK 15, (0x7cf : Word32))]).rdF R.PWR_LIMIT 11 0 ∧
    (∃ d < 16, (stPwr (0x20000000 : Word32) [(R.CDIE_CLK 15, (0x7cf : Word32))]).clkOf d < 2000) ∧
    State.reset.throttleAt (State.sensorKind 40) < BitVec.toInt (96 : Byte) ∧
    State.reset.throttleAt (State.sensorKind 0) < BitVec.toInt (127 : Byte) ∧ State.reset.alertAt (State.sensorKind 28) ≤ BitVec.toInt (80 : Byte) ∧
    State.reset.alertAt (State.sensorKind 40) ≤ BitVec.toInt (105 : Byte) ∧ (∀ i ∈ stHot.pwr.hot, State.sensorKind i = 0) ∧
    (∀ i ∈ State.reset.pwr.hot, State.sensorKind i = 3) ∧ (115 : ℤ) ≤ BitVec.toInt (115 : Byte) ∧ State.reset.rdB R.PWR_STAT 22 = false ∧
    (105 : ℤ) ≤ BitVec.toInt (105 : Byte) ∧ (stPwr (0x60400000 : Word32) []).rdB R.PWR_STAT 22 = true ∧ (stPwr (0x60400000 : Word32) []).rung < 4 ∧
    BitVec.toInt (104 : Byte) < (105 : ℤ) ∧ BitVec.toInt (128 : Byte) < (105 : ℤ) := by decide +kernel
theorem witness_FencingAndSubstitution :
    ((stCore (383 : Word32) []).core 383).st = 0 ∧ (stCore (383 : Word32) []).spareLeft 383 = true ∧ (stCore (383 : Word32) []).ops = [] ∧
    ((stCore (383 : Word32) [(383, CoreRun.mk 1 false (0 : Word64) 0)]).core 383).st = 1 ∧
    (stCore (383 : Word32) [(383, CoreRun.mk 1 false (0 : Word64) 0)]).spareLeft 383 = true ∧
    (stCore (383 : Word32) []).rdF (R.CDIE_CORE_SEL 15) 8 0 / 24 = 15 ∧
    ((stCore (383 : Word32) []).core ((stCore (383 : Word32) []).rdF (R.CDIE_CORE_SEL 15) 8 0)).st = 0 ∧
    (stCore (383 : Word32) []).coreBusy ((stCore (383 : Word32) []).rdF (R.CDIE_CORE_SEL 15) 8 0) = false ∧
    (∀ p ∈ (stCore (383 : Word32) []).coreRun, p.2.stop = false) ∧
    ((stCore (383 : Word32) []).core ((stCore (383 : Word32) []).rdF (R.CDIE_CORE_SEL 15) 8 0)).unit = 0 ∧
    (stCore (0 : Word32) []).rdF (R.CDIE_CORE_SEL 15) 8 0 / 24 ≠ 15 ∧
    ((stCore (383 : Word32) [(383, CoreRun.mk 2 false (0 : Word64) 0)]).core ((stCore (383 : Word32) [(383, CoreRun.mk 2 false (0 : Word64)
      0)]).rdF (R.CDIE_CORE_SEL 15) 8 0)).st ≠ 0 ∧
    (stCore (63 : Word32) []).rdF (R.CDIE_CORE_SEL 15) 5 0 / 4 = 15 ∧ (stCore (63 : Word32) []).coreRun = [] ∧ (stCore (63 : Word32) []).ops = [] ∧
    (stCore (383 : Word32) [(383, CoreRun.mk 3 false (0 : Word64) 0)]).rdF (R.CDIE_CORE_SEL 15) 8 0 / 24 = 15 ∧
    ((stCore (383 : Word32) [(383, CoreRun.mk 3 false (0 : Word64) 0)]).core ((stCore (383 : Word32) [(383, CoreRun.mk 3 false (0 : Word64)
      0)]).rdF (R.CDIE_CORE_SEL 15) 8 0)).st = 3 ∧
    ((stCore (383 : Word32) [(383, CoreRun.mk 3 false (0 : Word64) 0)]).core ((stCore (383 : Word32) [(383, CoreRun.mk 3 false (0 : Word64)
      0)]).rdF (R.CDIE_CORE_SEL 15) 8 0)).unit = 0 ∧
    (stCore (383 : Word32) []).spareLeft ((stCore (383 : Word32) []).rdF (R.CDIE_CORE_SEL 15) 8 0) = true ∧
    ((stFenceSem (0x100000000 : Word64) [(383, CoreRun.mk 0 true (0 : Word64) 0)]).core 383).stop = true ∧
    (∀ p ∈ (stFenceSem (0x100000000 : Word64) [(383, CoreRun.mk 0 true (0 : Word64) 0)]).ops, (stFenceSem (0x100000000 : Word64) [(383, CoreRun.mk 0
      true (0 : Word64) 0)]).opHeld p.1 = false) := by decide +kernel
theorem witness_ServiceCommands :
    stTel.telOn = true ∧ stTel.rung ≠ 4 ∧ stTel.rdB R.PWR_TELEM_CTL 30 = false ∧ (stSwitch [383] (0 : Word64)).pwr.fwSwitch.contains 383 = true ∧
    (stSwitch [383] (0 : Word64)).coreBusy 383 = false ∧ (stSwitch [0, 383] (0 : Word64)).pwr.fwSwitch.contains 383 = true ∧
    (stSwitch [0, 383] (0 : Word64)).coreBusy 383 = false ∧ (stSwitch [0, 383] (0x10000000000 : Word64)).pwr.fwSwitch.contains 383 = true ∧
    BitVec.toNat (stSwitch [0, 383] (0x10000000000 : Word64)).pwr.fwSince + (stSwitch [0, 383] (0x10000000000 : Word64)).rdF R.PWR_FW_SWITCH_TMO
      15 0 * 0x3d0900 ≤ BitVec.toNat (stSwitch [0, 383] (0x10000000000 : Word64)).ft ∧
    1 + 1 ≤ (stImg.fwImage 5 (stImg.fwActive 5)).length ∧ (stImg.fwImage 5 (stImg.fwActive 5)).length < 2 + 1 ∧
    (stSemFetch fetchLong (0 : Word64)).sem.fetch = some fetchLong ∧
    (stSemFetch (fetch0 [(7 : Byte)]) (0 : Word64)).sem.fetch = some (fetch0 [(7 : Byte)]) ∧
    (stSemFetch (fetch0 [(7 : Byte)]) (0 : Word64)).errorFree 13 = false ∧
    [(1 : Byte), (2 : Byte)].length = min 65536 (leNat (slice (fetch0 [(7 : Byte)]).hdr 8 4) - (fetch0 [(7 : Byte)]).got.length) ∧
    (fetch0 [(7 : Byte)]).got.length + [(1 : Byte), (2 : Byte)].length = leNat (slice (fetch0 [(7 : Byte)]).hdr 8 4) ∧
    (stSemFetch (fetch0 []) (0 : Word64)).sem.fetch = some (fetch0 []) ∧ (stSemFetch (fetch0 []) (0x10000000000 : Word64)).sem.fetch = some (fetch0 []) ∧
    BitVec.toNat (fetch0 []).since + (stSemFetch (fetch0 []) (0x10000000000 : Word64)).rdF R.FBD_E2E_TMO 15 0 * 4000 ≤ BitVec.toNat (stSemFetch (fetch0
      []) (0x10000000000 : Word64)).ft := by decide +kernel
/-! ### Chapter 17 -/

/-- The host link up and the package READY; window 15 opens tenant 0's memory. -/
def stHost (l : Map Word32) : State :=
  { stMem with
    regs := l ++ [(R.SEM_STAT, 0x18000000), (R.PWR_STAT, 0x28000000), (R.HST_WIN_CTL 15, 0x80000000)]
    host := ⟨true, true⟩
    ms := { stMem.ms with tiles := [(0, ⟨.dram, false, 4096, false⟩), (5, ⟨.flash, false, 17, false⟩)] } }
/-- Under DIAG, with window 15 the administrator's at a base. -/
def stDiag (hi lo : Word32) : State :=
  stHost [(R.HST_WIN_CTL 15, 0x8000007F), (R.SEM_ADMIN_OPEN, 0xC0000000), (R.HST_WIN_BASE_LO 15, lo), (R.HST_WIN_BASE_HI 15, hi)]
/-- Another tenant's window. -/
def stOther : State := stHost [(R.HST_WIN_CTL 15, 0x80000001)]
/-- A window read waits, at a time. -/
def stWinRead (ft : Word64) : State := { stHost [] with winReads := [(5, ⟨0, 4, 0⟩)], ft := ft }
/-- Ring 1023 is in host memory and enabled. -/
def stHostRing : State := stHost [(R.CRG_RING_CTL 63 15, 0xC0000000)]
/-- Vector 2047 masked and pending. -/
def stMsix : State := { stHost [] with msix := [(2047, ⟨0, 0, true, true⟩)] }

/-- The frame of the raw window's unit holds tile 0. -/
theorem witness_HostPort_raw :
    Map.get? (stDiag 0x80000 0x10000000).ms.frames
      (((stDiag 0x80000 0x10000000).winAddr 0xF0000040 - rawDram) / stackBytes * 2 ^ 24 +
        ((stDiag 0x80000 0x10000000).winAddr 0xF0000040 - rawDram) % stackBytes / tileBytes) = some ⟨.tile 0, 0, false, false⟩ := by decide +kernel
/-- A disabled window, one too long an access, and one into the raw flash window: each meets the hypothesis of a refusal. -/
theorem witness_HostPort_refused :
    (∀ o, (stHost []).winOwner 0xEFFFFFFF = some o → (2 ^ 32 ≤ 0xEFFFFFFF ∨ 1 = 0 ∨ 512 < 1 ∨ 2 ^ 28 < 0xEFFFFFFF % 2 ^ 28 + 1 ∨
      (stHost []).winReach o ((stHost []).winAddr 0xEFFFFFFF) 1 = none)) ∧
    (∀ o, (stHost []).winOwner 0xF0000000 = some o → (2 ^ 32 ≤ 0xF0000000 ∨ 513 = 0 ∨ 512 < 513 ∨ 2 ^ 28 < 0xF0000000 % 2 ^ 28 + 513 ∨
      (stHost []).winReach o ((stHost []).winAddr 0xF0000000) 513 = none)) ∧
    (∀ o, (stDiag 0xC0000 0).winOwner 0xF0000000 = some o → (2 ^ 32 ≤ 0xF0000000 ∨ [(1 : Byte)] = [] ∨ 512 < [(1 : Byte)].length ∨
      2 ^ 28 < 0xF0000000 % 2 ^ 28 + [(1 : Byte)].length ∨ (stDiag 0xC0000 0).winReach o ((stDiag 0xC0000 0).winAddr 0xF0000000) [(1 : Byte)].length = none ∨
      (stDiag 0xC0000 0).winReach o ((stDiag 0xC0000 0).winAddr 0xF0000000) [(1 : Byte)].length = some 3)) := by
  have a : (stHost []).winOwner 0xEFFFFFFF = none := by decide +kernel
  have b : (stDiag 0xC0000 0).winOwner 0xF0000000 = some 0x7F := by decide +kernel
  have c : (stDiag 0xC0000 0).winReach 0x7F ((stDiag 0xC0000 0).winAddr 0xF0000000) 1 = some 3 := by decide +kernel
  refine ⟨fun o h => ?_, fun o _ => .inr (.inr (.inl (by decide))), fun o h => ?_⟩
  · simp [a] at h
  · rw [b] at h
    cases h
    exact .inr (.inr (.inr (.inr (.inr c))))

/-! ### Ill-formed commands (log entry 7), one for each check -/

theorem test_recordFetch_short : (match exec (.recordFetch 0 0 (List.replicate 127 0) true) State.reset with
    | .refused (.illFormed n) => n == "RECORD_FETCH"
    | _ => false) = true := by decide +kernel
theorem test_new_short : (Instr.new 0 (List.replicate 127 0) true).wf = false := by decide +kernel
theorem test_resume_long : (Instr.resume 0 (List.replicate 129 0) true).wf = false := by decide +kernel
theorem test_release_empty : (Instr.release 0 [] true).wf = false := by decide +kernel
theorem test_mvData_short (m : RemMsg) (h : m.data.length = 65535) : (Instr.mvData m true).wf = false := by
  simp only [Instr.wf, h]; decide
theorem test_extest_pins : (Instr.extest (List.replicate 66 true) (List.replicate 67 true)).wf = false := by decide +kernel
theorem test_extest_cells : (Instr.extest (List.replicate 67 true) (List.replicate 68 true)).wf = false := by decide +kernel
theorem test_samplePreload_pins : (Instr.samplePreload [] (List.replicate 67 true)).wf = false := by decide +kernel
theorem test_samplePreload_cells : (Instr.samplePreload (List.replicate 67 true) []).wf = false := by decide +kernel

/-! ### The interface of a block with no instruction words -/

theorem test_no_words (n w : Nat) : decodeTableWord n w = none ∧ State.reset.withFetchWord n w = State.reset := ⟨rfl, rfl⟩
theorem witness_RegisterCommands :
    33 ≤ fld (33 : Word32) 15 0 ∧ 33 ≤ fld (0x1ffff : Word32) 15 0 ∧ fld (32 : Word32) 15 0 < 33 ∧ 0xffffff < 2 ^ 24 ∧ (stHost []).hostOn = true ∧
    0xffffff % 4 ≠ 0 ∧ 0 < 2 ^ 24 ∧ pageOf 2559 = some (Blk.clt, 2, 1535) ∧ Blk.clt ≠ Blk.rng ∧ bit (0x80000000 : Word32) 31 = true ∧
    pageOf 4 = some (Blk.sem, 18, 0) ∧ Blk.sem ≠ Blk.rng ∧ latchingAt (R.MFU_MAC_LO 63) = true ∧ latchingAt (R.MFU_MAC_LO 63 - 4) = false ∧
    R.MFU_MAC_LO 63 ≠ R.UAR_RXD := by decide +kernel
theorem witness_HostPort :
    (stHost []).hostOn = true ∧ (stHost []).winReads.get? 5 = none ∧ (stHost []).winOwner 0xf0000000 = some 0 ∧ 0xf0000000 < 2 ^ 32 ∧
    0xf0000000 % 2 ^ 28 + 512 ≤ 2 ^ 28 ∧ (stHost []).winReach 0 ((stHost []).winAddr 0xf0000000) 512 = some 0 ∧
    (stHost []).winAddr 0xf0000000 % tileBytes + 512 ≤ tileBytes ∧ (stHost []).deny 0 ((stHost []).winAddr 0xf0000000) false = none ∧
    ((stHost []).tile ((stHost []).winAddr 0xf0000000 / tileBytes)).st = Home.dram ∧ (stHost []).winOwner 0xf000ffff = some 0 ∧
    0xf000ffff < 2 ^ 32 ∧ 0xf000ffff % 2 ^ 28 + 1 ≤ 2 ^ 28 ∧ (stHost []).winReach 0 ((stHost []).winAddr 0xf000ffff) 1 = some 0 ∧
    (stHost []).winAddr 0xf000ffff % tileBytes + 1 ≤ tileBytes ∧ (stHost []).deny 0 ((stHost []).winAddr 0xf000ffff) false = none ∧
    ((stHost []).tile ((stHost []).winAddr 0xf000ffff / tileBytes)).st = Home.dram ∧ (stHost []).winOwner 0xf0050000 = some 0 ∧
    0xf0050000 < 2 ^ 32 ∧ 0xf0050000 % 2 ^ 28 + 4 ≤ 2 ^ 28 ∧ (stHost []).winReach 0 ((stHost []).winAddr 0xf0050000) 4 = some 0 ∧
    (stHost []).winAddr 0xf0050000 % tileBytes + 4 ≤ tileBytes ∧ (stHost []).deny 0 ((stHost []).winAddr 0xf0050000) false = none ∧
    ((stHost []).tile ((stHost []).winAddr 0xf0050000 / tileBytes)).st = Home.flash ∧ stOther.hostOn = true ∧ stOther.winReads.get? 5 = none ∧
    stOther.winOwner 0xf0000000 = some 1 ∧ stOther.winReach 1 (stOther.winAddr 0xf0000000) 512 = some 0 ∧
    stOther.winAddr 0xf0000000 % tileBytes + 512 ≤ tileBytes ∧ (stOther.deny 1 (stOther.winAddr 0xf0000000) false).isSome = true ∧
    (stDiag (0x40000 : Word32) (0 : Word32)).hostOn = true ∧ (stDiag (0x40000 : Word32) (0 : Word32)).winReads.get? 5 = none ∧
    (stDiag (0x40000 : Word32) (0 : Word32)).winOwner 0xf0000000 = some 127 ∧
    (stDiag (0x40000 : Word32) (0 : Word32)).winReach 127 ((stDiag (0x40000 : Word32) (0 : Word32)).winAddr 0xf0000000) 512 = some 1 ∧
    (stDiag (0x80000 : Word32) (0x10000000 : Word32)).hostOn = true ∧ (stDiag (0x80000 : Word32) (0x10000000 : Word32)).winReads.get? 5 = none ∧
    (stDiag (0x80000 : Word32) (0x10000000 : Word32)).winOwner 0xf0000040 = some 127 ∧ 0xf0000040 < 2 ^ 32 ∧ 0xf0000040 % 2 ^ 28 + 64 ≤ 2 ^ 28 ∧
    (stDiag (0x80000 : Word32) (0x10000000 : Word32)).winAddr 0xf0000040 % 64 = 0 ∧
    (stDiag (0x80000 : Word32) (0x10000000 : Word32)).winReach 127 ((stDiag (0x80000 : Word32) (0x10000000 : Word32)).winAddr 0xf0000040) 64 =
      some 2 ∧
    (stDiag (0x80000 : Word32) (0x10000000 : Word32)).ms.fenced.contains (((stDiag (0x80000 : Word32) (0x10000000 : Word32)).winAddr 0xf0000040 -
      rawDram) / stackBytes) = false ∧
    4096 ≤ ((stDiag (0x80000 : Word32) (0x10000000 : Word32)).winAddr 0xf0000040 - rawDram) % stackBytes / tileBytes ∧
    (Frame.mk (FrameUse.tile 0) 0 false false).use = FrameUse.tile 0 ∧
    (stDiag (0x80000 : Word32) (0x10000000 : Word32)).poisoned (0 * tileBytes + ((stDiag (0x80000 : Word32) (0x10000000 : Word32)).winAddr
      0xf0000040 - rawDram) % stackBytes % tileBytes) = false ∧
    (stHost []).winOwner 0xf000fffe = some 0 ∧ 0xf000fffe < 2 ^ 32 ∧ [(1 : Byte), (2 : Byte)] ≠ [] ∧ [(1 : Byte), (2 : Byte)].length ≤ 512 ∧
    0xf000fffe % 2 ^ 28 + [(1 : Byte), (2 : Byte)].length ≤ 2 ^ 28 ∧
    (stHost []).winReach 0 ((stHost []).winAddr 0xf000fffe) [(1 : Byte), (2 : Byte)].length = some 0 ∧
    (stHost []).winAddr 0xf000fffe % tileBytes + [(1 : Byte), (2 : Byte)].length ≤ tileBytes ∧
    (stHost []).deny 0 ((stHost []).winAddr 0xf000fffe) true = none ∧
    ((stHost []).tile ((stHost []).winAddr 0xf000fffe / tileBytes)).st = Home.dram ∧ [(1 : Byte)] ≠ [] ∧ [(1 : Byte)].length ≤ 512 ∧
    0xf0000000 % 2 ^ 28 + [(1 : Byte)].length ≤ 2 ^ 28 ∧ (stHost []).winReach 0 ((stHost []).winAddr 0xf0000000) [(1 : Byte)].length = some 0 ∧
    (stHost []).winAddr 0xf0000000 % tileBytes + [(1 : Byte)].length ≤ tileBytes ∧ (stHost []).deny 0 ((stHost []).winAddr 0xf0000000) true = none ∧
    (stDiag (0xc0000 : Word32) (0 : Word32)).hostOn = true ∧
    (stWinRead (0x10000000000 : Word64)).winReads.get? 5 = some (WinRead.mk 0 4 (0 : Word64)) ∧
    BitVec.toNat (WinRead.mk 0 4 (0 : Word64)).at_ + (stWinRead (0x10000000000 : Word64)).rdF R.HST_WIN_TMO 15 0 * 4000 ≤ BitVec.toNat (stWinRead
      (0x10000000000 : Word64)).ft ∧
    stHostRing.ringEn (1023 / 16 : ℕ) (1023 % 16) = true ∧ stHostRing.rdB (R.CRG_RING_CTL (1023 / 16 : ℕ) (1023 % 16)) 30 = true ∧
    (stHost []).host.up = true ∧ 1 ≤ State.reset.rdF R.HST_LINK_CTL 3 0 ∧ State.reset.rung ≠ 4 ∧ State.reset.host.up = false ∧
    6 ≤ State.reset.rdF R.HST_LINK_CTL 3 0 ∧ (stHost []).rung ≠ 4 ∧ (∀ k < 1024, (stHost []).ringEn (k / 16) (k % 16) = false) ∧
    stMsix.msix.get? 2047 = some (Msix.mk (0 : Word64) (0 : Word32) true true) ∧ (Msix.mk (0 : Word64) (0 : Word32) true true).mask = true ∧
    (Msix.mk (0 : Word64) (0 : Word32) true true).pend = true := by decide +kernel
/-! ### Chapter 17: management -/

/-- A package READY, with registers. -/
def stRdy (l : Map Word32) : State := stPwr 0x28000000 l
/-- In Sleep with the auxiliary input alone. -/
def stSleep : State := { stPwr 0x80400000 [] with pwr := { Pwr.reset with main := false } }
/-- The package READY with characters in its FIFOs. -/
def stUart (rx : List RxChar) (tx : List Byte) (ctl : Word32) : State :=
  { stRdy [(R.UAR_CTL, ctl)] with uart := { State.reset.uart with rx := rx, tx := tx } }
/-- As many received characters as asked for. -/
def chars (n : Nat) : List RxChar := List.replicate n ⟨0, false, false⟩
/-- The debug path is open. -/
def stDebug : State := stReg [(R.SEM_STAT, 0x01000000)]
/-- The falling edge of pin 15 is enabled. -/
def stEdge : State := stReg [(R.SMB_GPIO_EDGE_EN, 0x80000000)]

/-! ### Worked examples of the manual -/

/-- The MXFP4 dot product of chapter 2: 2^24 and a group of 3.0 give 0x4B80_0002. -/
theorem test_mxfp4_example :
    f32Code (groupStep (f32 0x4B800000) ((([1, 1, 1, 1, 1, 1, 7, 15, 5, 3] ++ List.replicate 22 0 : List Nat).map (engElem (.mx .e2m1) 0x7D)).zip
      (([1, 1, 1, 1, 1, 1, 6, 6, 10, 4] ++ List.replicate 22 0 : List Nat).map (engElem (.mx .e2m1) 0x82)))).1 = 0x4B800002 := by decide +kernel
/-- The descriptor of chapter 3: a BF16 B panel of 512 × 64 elements from E4M3, for one slot, signalling counter 0x911. -/
theorem test_descriptor_example :
    let d : StreamDesc := ⟨0x0000010000000080, 0x003F000000000001, 0x01FF000000002000, 0, 0, 0, 0x3846, 0, 0x10031301, 0x89110000⟩
    SD.layout d = 3 ∧ SD.dst d = 1 ∧ SD.src d = 3 ∧ SD.elems d = 32768 ∧ slotsOf d = [0x3846] := by decide +kernel
/-- The addressing of chapter 17: ERR_INFO of engine 229, its directory word. -/
theorem test_addressing_example : R.ERR_INFO 0x4E5 = 0x004E5028 ∧ State.reset.readReg 0x1394 = 0x000100E5 := by decide +kernel
/-- A PEC byte one more than the right one, which the address straps have a part in, does not match. -/
theorem witness_SmbusRegisters_pec :
    some (pecOf (regWriteBytes 5 0 7) + 1) ≠ none ∧ some (pecOf (regWriteBytes 5 0 7) + 1) ≠ some (pecOf (regWriteBytes 5 0 7)) := by
  refine ⟨by simp, fun h => ?_⟩
  generalize pecOf (regWriteBytes 5 0 7) = x at h
  simp at h
/-- Each report's command stands in the statement's list with its number. -/
theorem witness_ConsoleUart_reports :
    (Instr.conLog, 5) ∈ [(Instr.conHelp, 0), (.conVer, 1), (.conStat, 2), (.conTemp, 3), (.conErr, 4), (.conLog, 5)] ∧
    (stRdy []).pkgReady = true ∧ (stRdy []).rdB R.UAR_CTL 31 = false := ⟨by simp, by decide +kernel, by decide +kernel⟩
theorem witness_SmbusAnswers :
    State.reset.powered = true ∧ stSleep.powered = true ∧ (stRdy []).powered = true ∧ (stRdy []).pkgReady = true := by decide +kernel
theorem witness_SmbusRegisters :
    (stRdy []).powered = true ∧ (stRdy []).pkgReady = true ∧ State.smbNoReg 5 4092 = false ∧ latchingAt (4096 * 5 + 4092) = false ∧
    latchingAt (4096 * 5 + 4092 - 4) = false ∧ 4096 * 5 + 4092 ≠ R.UAR_RXD ∧ State.smbNoReg 3840 0 = true ∧ State.smbNoReg 5 4096 = true ∧
    State.smbNoReg 5 2 = true ∧ State.smbNoReg (R.PWR_LIMIT / 4096) (R.PWR_LIMIT % 4096) = false ∧
    State.smbMay (4096 * (R.PWR_LIMIT / 4096) + R.PWR_LIMIT % 4096) = true ∧ State.smbMay (4096 * 5 + 4092) = false ∧
    (stRdy [(R.SMB_CTL, (1 : Word32))]).powered = true ∧ (stRdy [(R.SMB_CTL, (1 : Word32))]).pkgReady = true ∧
    (stRdy [(R.SMB_CTL, (1 : Word32))]).rdB R.SMB_CTL 0 = true ∧ State.reset.powered = true := by decide +kernel
theorem witness_ConsoleUart :
    (stUart [] [] (0x80000000 : Word32)).pkgReady = true ∧ (stUart [] [] (0x80000000 : Word32)).rdB R.UAR_CTL 0 = false ∧
    (stUart [] [] (0x80000000 : Word32)).rdB R.UAR_CTL 31 = true ∧ (stUart [] [] (0x80000000 : Word32)).uart.rx.length ≠ 64 ∧
    (stUart (chars 63) [] (0x80000000 : Word32)).pkgReady = true ∧ (stUart (chars 63) [] (0x80000000 : Word32)).rdB R.UAR_CTL 0 = false ∧
    (stUart (chars 63) [] (0x80000000 : Word32)).rdB R.UAR_CTL 31 = true ∧ (stUart (chars 63) [] (0x80000000 : Word32)).uart.rx.length ≠ 64 ∧
    (stUart (chars 64) [] (0x80000000 : Word32)).pkgReady = true ∧ (stUart (chars 64) [] (0x80000000 : Word32)).rdB R.UAR_CTL 0 = false ∧
    (stUart (chars 64) [] (0x80000000 : Word32)).uart.rx.length = 64 ∧
    (stUart [] (List.replicate 63 (0 : Byte)) (0x80000000 : Word32)).rdB R.UAR_CTL 31 = true ∧
    (stUart [] (List.replicate 63 (0 : Byte)) (0x80000000 : Word32)).uart.tx.length < 64 ∧
    64 ≤ (stUart [] (List.replicate 64 (0 : Byte)) (0x80000000 : Word32)).uart.tx.length ∧ (stUart [] [] (0 : Word32)).rdB R.UAR_CTL 31 = false ∧
    (stUart [] [(1 : Byte), (2 : Byte)] (0 : Word32)).uart.tx = [(1 : Byte), (2 : Byte)] ∧
    (stUart [] [(1 : Byte), (2 : Byte)] (0 : Word32)).rdB R.UAR_CTL 0 = false ∧
    (stUart [RxChar.mk (1 : Byte) true true] [] (0 : Word32)).uart.rx = [RxChar.mk (1 : Byte) true true] := by decide +kernel
theorem witness_JtagAndGpio :
    (List.replicate 67 true).length = 67 ∧ (List.replicate 67 false).length = 67 ∧ State.reset.rdB R.SEM_STAT 24 = false ∧
    stDebug.rdB R.SEM_STAT 24 = true := by decide +kernel
/-! ### The whole machine -/

theorem witness_StepRunsFront : ({ State.reset with pending := [.step, .clamp] } : State).pending = .step :: [.clamp] := rfl
theorem witness_IdleTick :
    State.reset.pending = [] ∧ State.reset.rung ≠ 4 ∧ State.reset.tim.slew = 0 ∧ (stPwr 0x80400000 []).rung = 4 ∧
    (match step { State.reset with tim := { Tim.reset with slew := -1, tick := 99999 } } with
     | .next t => t.tim.slew == 0 && t.ft == 0
     | _ => false) = true := by and_intros <;> decide +kernel
theorem witness_EveryCommandCompletes :
    (Instr.recordFetch 63 15 (List.replicate 128 0) true).wf = true ∧ (Instr.recordFetch 63 15 (List.replicate 127 0) true).wf = false ∧
    QueueWf { State.reset with pending := [.new 0 (List.replicate 128 0) true, .step] } := by
  unfold QueueWf; and_intros <;> decide +kernel
theorem witness_ResetState : (pageOf 4).isSome = true ∧ (pageOf 0x9FF).isSome = true := by decide +kernel
theorem witness_FieldWrites :
    FieldsFit [⟨.rw, 31, 31, 0, 1⟩, ⟨.ro, 30, 16, 0, 32767⟩, ⟨.w1c, 8, 1, 0, 255⟩, ⟨.w1s, 0, 0, 0, 1⟩] ∧
    fld (0x80000000 : Word32) 31 31 = 1 ∧ (fieldsAt R.TIM_PPS_WIN) = [⟨.rw, 15, 0, 100, 65535⟩] ∧ 100 ≤ fld (100 : Word32) 15 0 ∧ fld (99 : Word32) 15 0 < 100 := by
  unfold FieldsFit; and_intros <;> decide +kernel
/-- An administrator session, with model entry 3 of the example and requests. -/
def stEntry (q : Map Req) : State := { stAdm q with regs := (R.SEM_ADMIN_OPEN, 0x80000000) :: (R.ADM_MDL_SEL, 3) :: (stAdm q).regs }
theorem witness_ModelEntryLock :
    0x90 ≤ 0xCF ∧ (stEntry []).adminOpen = true ∧ 3 = (stEntry []).rdF R.ADM_MDL_SEL 3 0 ∧ bit ((stEntry []).mdl 3).ctl 31 = true ∧
    0x198 ∈ [0x184, 0x188, 0x18C, 0x190, 0x194, 0x198] ∧ bit (0x7FFFFFFF : Word32) 31 = false ∧ (∃ r ∈ (stEntry [(0, reqEx 1)]).reqs, r.2.mdl = 3) ∧
    (∀ r ∈ (stEntry []).reqs, r.2.mdl ≠ 3) := by and_intros <;> decide +kernel
theorem witness_ZeroSums :
    ([(XNum.fin false 3 (-1), XNum.fin true 2 0), (.fin true 0 0, .fin false 1 0)] : List (XNum × XNum)) ≠ [] ∧
    (XNum.fin false 3 (-1)).mulX (.fin true 2 0) = (.fin true 6 (-1), false) ∧ (XNum.fin true 0 0).mulX (.fin false 1 0) = (.fin true 0 0, false) ∧
    (-1 : Int) ≤ -1 ∧ (-1 : Int) ≤ 0 ∧ (XNum.fin false 6 (-1)).toIntAt (-1) + (XNum.fin true 3 0).toIntAt (-1) = 0 := by and_intros <;> decide +kernel
theorem witness_NanInputs :
    0xFF800001 < 2 ^ FpFmt.fp32.bits ∧ FpFmt.decode .fp32 0xFF800001 = .nan ∧ FpFmt.decode .fp32 0xFF800000 ≠ .nan ∧ FpFmt.decode .e4m3 0xFF = .nan ∧
    FpFmt.decode .e4m3 0xFE = .fin true 14 5 ∧ 0x78 ≤ 0xFE % 128 ∧ 0xFE % 128 ≤ 0x7E := by and_intros <;> decide +kernel

/-- A lane map of eight distinct lanes, the spare among them. -/
def map8 : Word32 := 0x76543218
theorem witness_LinkCodingRoundTrips :
    (List.replicate 240 (0 : Byte)).length = 240 ∧ (∀ i, i < 8 → ∀ j, j < 8 → mapLane map8 i = mapLane map8 j → i = j) ∧
    2 ^ 257 - 1 < 2 ^ 257 ∧ 2 ^ 58 - 1 < 2 ^ 58 ∧ (2 ^ 257 - 1) % 512 ≠ 0x14B ∧ (List.replicate 20 (2 ^ 257 - 1)).length = 20 ∧
    (∀ b ∈ List.replicate 20 (2 ^ 257 - 1), b < 2 ^ 257) := by and_intros <;> decide +kernel

/-! ### Published test vectors of the standards R9 lists -/

/-- The bytes of a number, highest first. -/
def hexB (n v : Nat) : List Byte := beBytes n v
/-- FIPS 197, appendix C.3. -/
theorem test_aes256_fips197 :
    aes256 (hexB 32 0x000102030405060708090a0b0c0d0e0f101112131415161718191a1b1c1d1e1f) (hexB 16 0x00112233445566778899aabbccddeeff) =
      hexB 16 0x8ea2b7ca516745bfeafc49904b496089 := by decide +kernel
theorem test_aes256_fips197_inverse :
    aesUnblock (roundKeys (hexB 32 0x000102030405060708090a0b0c0d0e0f101112131415161718191a1b1c1d1e1f)) (hexB 16 0x8ea2b7ca516745bfeafc49904b496089) =
      hexB 16 0x00112233445566778899aabbccddeeff := by decide +kernel
/-- Test case 14 of the GCM specification. -/
theorem test_gcm_case14 :
    gcmSeal (List.replicate 32 0) (List.replicate 12 0) [] (List.replicate 16 0) =
      (hexB 16 0xcea7403d4d606b6e074ec5d3baf39d18, hexB 16 0xd0d1c8a799996bf0265b98b5d48ab919) := by decide +kernel
/-- IEEE 1619, vector 10: the first two blocks. -/
theorem test_xts_vector10 :
    xtsEnc (hexB 64 0x27182818284590452353602874713526624977572470936999595749669676273141592653589793238462643383279502884197169399375105820974944592)
      0xff (hexB 32 0x000102030405060708090a0b0c0d0e0f101112131415161718191a1b1c1d1e1f) =
      hexB 32 0x1c3b3a102f770386e4836c99e370cf9bea00803f5e482357a4ae12d414a3e63b := by decide +kernel
/-- FIPS 180-4: "abc". -/
theorem test_sha384_abc :
    sha384 [0x61, 0x62, 0x63] =
      hexB 48 0xcb00753f45a35e8bb5a03d699ac65007272c32ab0eded1631a8b605a43ff5bed8086072ba1e7cc2358baeca134c825a7 := by decide +kernel
/-- RFC 6979, appendix A.2.6: P-384 with SHA-384, "sample". -/
theorem test_ecdsa_rfc6979 :
    ecdsaOk (4 :: (hexB 48 0xEC3A4E415B4E19A4568618029F427FA5DA9A8BC4AE92E02E06AAE5286B300C64DEF8F0EA9055866064A254515480BC13 ++
        hexB 48 0x8015D9B72D7D57244EA8EF9AC0C621896708A59367F9DFB9F54CA84B3F1C9DB1288B231C3AE0D4FE7344FD2533264720))
      [0x73, 0x61, 0x6D, 0x70, 0x6C, 0x65]
      (hexB 48 0x94EDBB92A5ECB8AAD4736E56C691916B3F88140666CE9FA73D64C4EA95AD133C81A648152E44ACF96E36DD1E80FABE46 ++
        hexB 48 0x99EF4AEB15F178CEA1FE40DB2603138F130E740A19624526203B6351D0A3A94FA329C145786E679E7B82C71A38628AC8) = true := by decide +kernel
/-- The check values of CRC-32C and of CRC-8: "123456789". -/
theorem test_crc_checks :
    crc32c [0x31, 0x32, 0x33, 0x34, 0x35, 0x36, 0x37, 0x38, 0x39] = 0xE3069283 ∧
    pecOf [0x31, 0x32, 0x33, 0x34, 0x35, 0x36, 0x37, 0x38, 0x39] = 0xF4 := by decide +kernel

end Sys2Proof.Tests
end

section
/-! PROOFS. What a step runs, and that every command completes (O52, O54). -/
namespace Sys2Proof.Machine
open Sys2Proof

/-! ### Outcomes -/

/-- A leaf of a meaning. -/
theorem safe_next (t : State) : Safe (.next t) := ⟨t, rfl⟩

/-- A meaning that branches is safe where both branches are. -/
theorem safe_ite {p : Prop} [Decidable p] {a b : Out} (ha : Safe a) (hb : Safe b) : Safe (if p then a else b) := by
  split <;> assumption

/-- Keeping the queue keeps a meaning safe. -/
theorem safe_keepQueue {s : State} {o : Out} (h : Safe o) : Safe (keepQueue s o) := by
  obtain ⟨t, rfl⟩ := h
  exact safe_next _

/-- A guard that does not hold is passed. -/
theorem safe_guard {p : Prop} [Decidable p] {s : State} {r : Refusal} {o : Out} (hp : ¬p) (h : Safe o) :
    Safe (keepQueue s (if p then .refused r else o)) := by
  rw [if_neg hp]
  exact safe_keepQueue h

/-- A guard that holds refuses. -/
theorem keepQueue_guard {p : Prop} [Decidable p] {s : State} {r : Refusal} {o : Out} (hp : p) :
    keepQueue s (if p then .refused r else o) = .refused r := by
  rw [if_pos hp]
  rfl

/-! ### Commands -/

/-- Every meaning keeps the queue. -/
theorem exec_eq_keepQueue (c : Instr) (s : State) : ∃ o, exec c s = keepQueue s o := by
  cases c <;> exact ⟨_, by unfold exec; rfl⟩

/-- The queue after a command is the queue before it. -/
theorem exec_pending {c : Instr} {s t : State} (h : exec c s = .next t) : t.pending = s.pending := by
  obtain ⟨o, ho⟩ := exec_eq_keepQueue c s
  exact keepQueue_next (ho ▸ h)

/-- A well-formed command ends in a next state. The seven meanings that check a length pass their check (log entry 7); every other is a
tree of local definitions, conditions and matches, and each of its leaves is a next state. -/
theorem exec_safe_of_wf {c : Instr} (s : State) (h : c.wf = true) : Safe (exec c s) := by
  cases c with
  | recordFetch t r bytes ok =>
    refine safe_guard (by simpa [Instr.wf] using h) (safe_ite ?_ (safe_next _))
    split
    · exact safe_next _
    · exact safe_ite (safe_next _) (safe_ite (safe_next _) (safe_next _))
  | mvData m good =>
    refine safe_guard (by simpa [Instr.wf] using h) (safe_ite (safe_next _) (safe_ite ?_ ?_))
    · split
      · exact safe_ite (safe_next _) (safe_next _)
      · exact safe_next _
    · split
      · exact safe_ite (safe_next _) (safe_next _)
      · exact safe_next _
  | new t bytes ok => exact safe_guard (by simpa [Instr.wf] using h) (safe_next _)
  | resume t bytes ok => exact safe_guard (by simpa [Instr.wf] using h) (safe_next _)
  | release t bytes ok => exact safe_guard (by simpa [Instr.wf] using h) (safe_next _)
  | extest pins cells => exact safe_guard (by simpa [Instr.wf] using h) (safe_next _)
  | samplePreload pins cells => exact safe_guard (by simpa [Instr.wf] using h) (safe_next _)
  | _ =>
    unfold exec
    refine safe_keepQueue ?_
    repeat' first
      | with_reducible exact safe_next _
      | with_reducible refine safe_ite ?_ ?_
      | extract_lets; clear_value *
      | split

/-- An ill-formed command is refused by name: only the seven that check a length can be ill formed. -/
theorem exec_refused_of_not_wf {c : Instr} (s : State) (h : c.wf = false) : ∃ n, exec c s = .refused (.illFormed n) := by
  cases c with
  | recordFetch t r bytes ok => exact ⟨_, keepQueue_guard (by simpa [Instr.wf] using h)⟩
  | mvData m good => exact ⟨_, keepQueue_guard (by simpa [Instr.wf] using h)⟩
  | new t bytes ok => exact ⟨_, keepQueue_guard (by simpa [Instr.wf] using h)⟩
  | resume t bytes ok => exact ⟨_, keepQueue_guard (by simpa [Instr.wf] using h)⟩
  | release t bytes ok => exact ⟨_, keepQueue_guard (by simpa [Instr.wf] using h)⟩
  | extest pins cells => exact ⟨_, keepQueue_guard (by simpa [Instr.wf, imp_iff_not_or] using h)⟩
  | samplePreload pins cells => exact ⟨_, keepQueue_guard (by simpa [Instr.wf, imp_iff_not_or] using h)⟩
  | _ => nomatch h

/-- A well-formed command completes: it ends in a next state with the queue it began with. -/
theorem exec_completes {c : Instr} (s : State) (h : c.wf = true) : ∃ t, exec c s = .next t ∧ t.pending = s.pending := by
  obtain ⟨t, ht⟩ := exec_safe_of_wf s h
  exact ⟨t, ht, exec_pending ht⟩

/-! ### Steps -/

/-- A step on an empty queue is a tick. -/
theorem step_of_nil {s : State} (h : s.pending = []) : step s = keepQueue s (.next s.tick) := by
  simp only [step, h]

/-- A step with a command in front is that command on the rest of the queue. -/
theorem step_of_cons {s : State} {c : Instr} {rest : List Instr} (h : s.pending = c :: rest) :
    step s = exec c { s with pending := rest } := by
  simp only [step, h]

/-- A step takes one command off the queue. -/
theorem step_pops {s : State} (h : QueueWf s) : ∃ t, step s = .next t ∧ t.pending = s.pending.tail := by
  cases hq : s.pending with
  | nil => exact ⟨_, step_of_nil hq, hq⟩
  | cons c rest =>
    rw [step_of_cons hq]
    exact exec_completes _ (h c (by simp [hq]))

/-- What is left of a well-formed queue is well formed. -/
theorem queueWf_of_tail {s t : State} (h : QueueWf s) (ht : t.pending = s.pending.tail) : QueueWf t :=
  fun c hc => h c (List.mem_of_mem_tail (ht ▸ hc))

/-- A well-formed queue drains, one command a step. -/
theorem queue_drains (n : Nat) (s : State) (h : QueueWf s) (hn : s.pending.length = n) : ∃ t, stepsTo n s t ∧ t.pending = [] := by
  induction n generalizing s with
  | zero => exact ⟨s, rfl, List.length_eq_zero_iff.1 hn⟩
  | succ n ih =>
    obtain ⟨u, hu, hp⟩ := step_pops h
    obtain ⟨t, ht, hnil⟩ := ih u (queueWf_of_tail h hp) (by rw [hp, List.length_tail, hn]; rfl)
    exact ⟨t, ⟨u, hu, ht⟩, hnil⟩

end Sys2Proof.Machine

namespace Sys2Proof.Proofs
open Sys2Proof Sys2Proof.Machine

/-- Settles O52, by the definition of a step on a queue that is not empty. -/
theorem stepRunsFront : Obligations.StepRunsFront :=
  fun _ _ _ h => step_of_cons h

/-- Settles O54, from the commands' meanings one by one and induction on the length of the queue. -/
theorem everyCommandCompletes : Obligations.EveryCommandCompletes := by
  refine ⟨fun c s h => exec_completes s h, fun c s h => exec_refused_of_not_wf s h, fun s h => ?_, fun s h => queue_drains _ s h rfl⟩
  obtain ⟨t, ht, hp⟩ := step_pops h
  exact ⟨t, ht, hp, queueWf_of_tail h hp⟩

end Sys2Proof.Proofs
end

section
/-! PROOFS. What a write does to the fields of a register (O56). -/
namespace Sys2Proof.Machine
open Sys2Proof

/-! ### Fields of the register map -/

theorem fieldsFit_nil : FieldsFit [] := ⟨by simp, List.Pairwise.nil⟩

theorem fieldsFit_cons {f : Fld} {fs : List Fld} :
    FieldsFit (f :: fs) ↔ (f.lo ≤ f.hi ∧ f.hi < 32) ∧ (∀ g ∈ fs, f.hi < g.lo ∨ g.hi < f.lo) ∧ FieldsFit fs := by
  simp only [FieldsFit, List.forall_mem_cons, List.pairwise_cons]
  tauto

/-- The common layout's fields fit. -/
theorem rowsCommon_fit : ∀ r ∈ rowsCommon, FieldsFit r.fields := by unfold FieldsFit; decide +kernel

/-- The fields of every block's own registers fit. -/
theorem blkRows_fit (b : Blk) : ∀ r ∈ blkRows b, FieldsFit r.fields := by
  unfold FieldsFit; cases b <;> decide +kernel

/-- The fields of every register of the map fit. -/
theorem fieldsAt_fit (a : Nat) : FieldsFit (fieldsAt a) := by
  unfold fieldsAt
  split
  · rename_i r hr
    unfold rowAt at hr
    split at hr
    · cases hr
    · rename_i b _ _ _
      have hm := List.mem_of_find?_eq_some hr
      split at hm
      · exact rowsCommon_fit r hm
      · exact blkRows_fit b r hm
  · exact fieldsFit_nil

/-! ### Bits and fields -/

/-- Two words with the same bits in a field have the same field. -/
theorem fld_congr_bits {x y : Word32} {hi lo : Nat} (h : ∀ i, lo ≤ i → i ≤ hi → bit x i = bit y i) : fld x hi lo = fld y hi lo := by
  apply Nat.eq_of_testBit_eq
  intro k
  rw [testBit_fld, testBit_fld]
  by_cases hk : k < hi + 1 - lo
  · rw [show x.getLsbD (lo + k) = y.getLsbD (lo + k) from h (lo + k) (by omega) (by omega)]
  · simp [hk]

/-- A bit of a field, by its place in the field. -/
theorem testBit_fld_sub (v : Word32) {hi lo i : Nat} (h : lo ≤ i ∧ i ≤ hi) : (fld v hi lo).testBit (i - lo) = bit v i := by
  rw [testBit_fld, show lo + (i - lo) = i by omega]
  simp [show i - lo < hi + 1 - lo by omega, bit]

/-- A field put back in its place has its own bits there, and none elsewhere. -/
theorem bit_ofNat_fld (v : Word32) (hi lo i : Nat) (hi32 : i < 32) :
    bit (BitVec.ofNat 32 (fld v hi lo * 2 ^ lo)) i = (decide (lo ≤ i ∧ i ≤ hi) && bit v i) := by
  rw [bit, BitVec.getLsbD_ofNat, Nat.testBit_mul_two_pow, testBit_fld]
  by_cases h : lo ≤ i
  · have hh : i - lo < hi + 1 - lo ↔ i ≤ hi := by omega
    simp [hi32, h, hh, show lo + (i - lo) = i by omega, bit]
  · simp [h]

/-- The mask of a field covers its bits. -/
theorem bit_fieldMask (hi lo i : Nat) (hi32 : i < 32) :
    bit (BitVec.ofNat 32 ((2 ^ (hi + 1 - lo) - 1) * 2 ^ lo)) i = decide (lo ≤ i ∧ i ≤ hi) := by
  rw [bit, BitVec.getLsbD_ofNat, Nat.testBit_mul_two_pow, Nat.testBit_two_pow_sub_one]
  by_cases h : lo ≤ i
  · have hh : i - lo < hi + 1 - lo ↔ i ≤ hi := by omega
    simp [hi32, h, hh]
  · simp [h]

@[simp] theorem bit_and (x y : Word32) (i : Nat) : bit (x &&& y) i = (bit x i && bit y i) := BitVec.getLsbD_and
@[simp] theorem bit_or (x y : Word32) (i : Nat) : bit (x ||| y) i = (bit x i || bit y i) := BitVec.getLsbD_or
theorem bit_not (x : Word32) {i : Nat} (h : i < 32) : bit (~~~x) i = !bit x i := by simp [bit, h]

/-- A word is not 0 where one of its bits is 1. -/
theorem ne_zero_iff_bit (x : Word32) : x ≠ 0 ↔ ∃ i, i < 32 ∧ bit x i = true := by
  constructor
  · intro hx
    by_contra hno
    refine hx (BitVec.eq_of_getLsbD_eq fun i hi => ?_)
    have : bit x i = false := Bool.eq_false_iff.2 fun hb => hno ⟨i, hi, hb⟩
    simpa [bit] using this
  · rintro ⟨i, -, hb⟩ rfl
    simp [bit] at hb

/-! ### One field's part of a write -/

/-- What a field makes of a bit of its own that reads `b`, when `v` is written (R6). -/
def fieldBit (f : Fld) (v : Word32) (i : Nat) (b : Bool) : Bool :=
  match f.acc with
  | .rw => if f.min ≤ fld v f.hi f.lo ∧ fld v f.hi f.lo ≤ f.max then bit v i else b
  | .w1c => b && !bit v i
  | .w1s => b
  | .ro => b

/-- A field makes a write count as ignored (R499). -/
def fieldIgnores (f : Fld) (old v : Word32) : Bool :=
  match f.acc with
  | .rw => decide (fld v f.hi f.lo < f.min ∨ f.max < fld v f.hi f.lo)
  | .w1c => false
  | .w1s => false
  | .ro => fld v f.hi f.lo != fld old f.hi f.lo

/-- A field's part of a write changes its own bits as its access type says, and no other. -/
theorem bit_fieldWrite (f : Fld) (old v : Word32) (acc : Word32 × Bool) {i : Nat} (h : i < 32) :
    bit (fieldWrite f old v acc).1 i = if f.lo ≤ i ∧ i ≤ f.hi then fieldBit f v i (bit acc.1 i) else bit acc.1 i := by
  unfold fieldWrite fieldBit
  cases f.acc with
  | rw =>
    simp only
    split
    · rw [bit_setFld _ _ _ _ _ h]
      split
      · exact testBit_fld_sub v ‹_›
      · rfl
    · simp
  | w1c =>
    simp only
    rw [bit_and, bit_not _ h, bit_ofNat_fld _ _ _ _ h]
    split <;> simp [*]
  | w1s => simp
  | ro => simp

/-- A field's part of a write counts as ignored where the field says so. -/
theorem fieldWrite_snd (f : Fld) (old v : Word32) (acc : Word32 × Bool) :
    (fieldWrite f old v acc).2 = (acc.2 || fieldIgnores f old v) := by
  unfold fieldWrite fieldIgnores
  cases f.acc with
  | rw =>
    by_cases h : f.min ≤ fld v f.hi f.lo ∧ fld v f.hi f.lo ≤ f.max
    · have h' : ¬(fld v f.hi f.lo < f.min ∨ f.max < fld v f.hi f.lo) := by omega
      simp [h, h']
    · have h' : fld v f.hi f.lo < f.min ∨ f.max < fld v f.hi f.lo := by omega
      simp [h, h']
  | w1c => simp
  | w1s => simp
  | ro => rfl

/-! ### The fields in turn -/

/-- The fields of a list, one after another. -/
def writeAll (fs : List Fld) (old v : Word32) (acc : Word32 × Bool) : Word32 × Bool :=
  fs.foldl (fun acc f => fieldWrite f old v acc) acc

theorem writeFields_eq (fs : List Fld) (old v : Word32) :
    writeFields fs old v = writeAll fs old v (old, v &&& reservedMask fs != 0) := rfl

theorem writeAll_cons (f : Fld) (fs : List Fld) (old v : Word32) (acc : Word32 × Bool) :
    writeAll (f :: fs) old v acc = writeAll fs old v (fieldWrite f old v acc) := rfl

/-- A bit that no field covers is left. -/
theorem bit_writeAll_out {fs : List Fld} (old v : Word32) (acc : Word32 × Bool) {i : Nat} (h : i < 32)
    (ho : ∀ f ∈ fs, i < f.lo ∨ f.hi < i) : bit (writeAll fs old v acc).1 i = bit acc.1 i := by
  induction fs generalizing acc with
  | nil => rfl
  | cons f fs ih =>
    rw [List.forall_mem_cons] at ho
    have hf : ¬(f.lo ≤ i ∧ i ≤ f.hi) := by omega
    rw [writeAll_cons, ih _ ho.2, bit_fieldWrite _ _ _ _ h, if_neg hf]

/-- A bit that one field of a fitting list covers is what that field makes of it. -/
theorem bit_writeAll_in {fs : List Fld} (old v : Word32) (acc : Word32 × Bool) (hfit : FieldsFit fs) {f : Fld} (hf : f ∈ fs) {i : Nat}
    (hi : f.lo ≤ i ∧ i ≤ f.hi) : bit (writeAll fs old v acc).1 i = fieldBit f v i (bit acc.1 i) := by
  have h32 : i < 32 := by have := (hfit.1 f hf).2; omega
  induction fs generalizing acc with
  | nil => cases hf
  | cons g fs ih =>
    obtain ⟨-, hapart, hfit'⟩ := fieldsFit_cons.1 hfit
    rcases List.mem_cons.1 hf with rfl | hm
    · have ho : ∀ x ∈ fs, i < x.lo ∨ x.hi < i := fun x hx => by have := hapart x hx; omega
      rw [writeAll_cons, bit_writeAll_out old v _ h32 ho, bit_fieldWrite _ _ _ _ h32, if_pos hi]
    · have hg : ¬(g.lo ≤ i ∧ i ≤ g.hi) := by have := hapart f hm; omega
      rw [writeAll_cons, ih _ hfit' hm, bit_fieldWrite _ _ _ _ h32, if_neg hg]

/-- A write counts as ignored where it did before its fields or one of them says so. -/
theorem writeAll_snd (fs : List Fld) (old v : Word32) (acc : Word32 × Bool) :
    (writeAll fs old v acc).2 = (acc.2 || fs.any (fun f => fieldIgnores f old v)) := by
  induction fs generalizing acc with
  | nil => simp [writeAll]
  | cons f fs ih =>
    rw [writeAll_cons, ih, fieldWrite_snd, List.any_cons, Bool.or_assoc]

/-- The bits that a list of fields covers, gathered on top of a word. -/
theorem bit_foldl_mask (fs : List Fld) (m : Word32) {i : Nat} (h : i < 32) :
    bit (fs.foldl (fun m f => m ||| BitVec.ofNat 32 ((2 ^ (f.hi + 1 - f.lo) - 1) * 2 ^ f.lo)) m) i =
      (bit m i || fs.any (fun f => decide (f.lo ≤ i ∧ i ≤ f.hi))) := by
  induction fs generalizing m with
  | nil => simp
  | cons f fs ih => rw [List.foldl_cons, ih, bit_or, bit_fieldMask _ _ _ h, List.any_cons, Bool.or_assoc]

/-- The reserved bits are those no field covers. -/
theorem bit_reservedMask (fs : List Fld) {i : Nat} (h : i < 32) :
    bit (reservedMask fs) i = true ↔ ∀ f ∈ fs, i < f.lo ∨ f.hi < i := by
  have h0 : bit (0#32) i = false := by simp [bit]
  rw [reservedMask, bit_not _ h, bit_foldl_mask _ _ h, h0]
  simp only [Bool.false_or, Bool.not_eq_true', List.any_eq_false, decide_eq_true_eq]
  exact forall₂_congr fun f _ => by omega

/-- A write puts a 1 into a reserved bit. -/
theorem reserved_written (fs : List Fld) (v : Word32) :
    (v &&& reservedMask fs != 0) = true ↔ ∃ i, i < 32 ∧ bit v i = true ∧ ∀ f ∈ fs, i < f.lo ∨ f.hi < i := by
  rw [bne_iff_ne, ne_zero_iff_bit]
  refine exists_congr fun i => and_congr_right fun h => ?_
  rw [bit_and, Bool.and_eq_true, bit_reservedMask fs h]

/-- A field that makes a write count: an RW field that refuses its value, or an RO field written another value. -/
theorem fieldIgnores_iff (f : Fld) (old v : Word32) :
    fieldIgnores f old v = true ↔ (f.acc = .rw ∧ (fld v f.hi f.lo < f.min ∨ f.max < fld v f.hi f.lo)) ∨
      (f.acc = .ro ∧ fld v f.hi f.lo ≠ fld old f.hi f.lo) := by
  unfold fieldIgnores
  cases f.acc <;> simp

/-! ### A whole write -/

/-- A field reads after a write what its access type makes of its bits. -/
theorem bit_writeFields_in {fs : List Fld} (old v : Word32) (hfit : FieldsFit fs) {f : Fld} (hf : f ∈ fs) {i : Nat} (hlo : f.lo ≤ i)
    (hhi : i ≤ f.hi) : bit (writeFields fs old v).1 i = fieldBit f v i (bit old i) :=
  bit_writeAll_in old v _ hfit hf ⟨hlo, hhi⟩

theorem fld_writeFields_rw {fs : List Fld} (old v : Word32) (hfit : FieldsFit fs) {f : Fld} (hf : f ∈ fs) (hacc : f.acc = .rw) :
    fld (writeFields fs old v).1 f.hi f.lo =
      if f.min ≤ fld v f.hi f.lo ∧ fld v f.hi f.lo ≤ f.max then fld v f.hi f.lo else fld old f.hi f.lo := by
  split
  all_goals
    refine fld_congr_bits fun i hlo hhi => ?_
    rw [bit_writeFields_in old v hfit hf hlo hhi, fieldBit, hacc]
    simp [*]

theorem fld_writeFields_kept {fs : List Fld} (old v : Word32) (hfit : FieldsFit fs) {f : Fld} (hf : f ∈ fs)
    (hacc : f.acc = .ro ∨ f.acc = .w1s) : fld (writeFields fs old v).1 f.hi f.lo = fld old f.hi f.lo := by
  refine fld_congr_bits fun i hlo hhi => ?_
  rw [bit_writeFields_in old v hfit hf hlo hhi, fieldBit]
  rcases hacc with hacc | hacc <;> rw [hacc]

theorem bit_writeFields_w1c {fs : List Fld} (old v : Word32) (hfit : FieldsFit fs) {f : Fld} (hf : f ∈ fs) (hacc : f.acc = .w1c) {i : Nat}
    (hlo : f.lo ≤ i) (hhi : i ≤ f.hi) : bit (writeFields fs old v).1 i = (bit old i && !bit v i) := by
  rw [bit_writeFields_in old v hfit hf hlo hhi, fieldBit, hacc]

theorem bit_writeFields_reserved {fs : List Fld} (old v : Word32) {i : Nat} (h : i < 32) (ho : ∀ f ∈ fs, i < f.lo ∨ f.hi < i) :
    bit (writeFields fs old v).1 i = bit old i := bit_writeAll_out old v _ h ho

theorem writeFields_ignored_iff (fs : List Fld) (old v : Word32) :
    (writeFields fs old v).2 = true ↔
      (∃ i, i < 32 ∧ bit v i = true ∧ ∀ f ∈ fs, i < f.lo ∨ f.hi < i) ∨
      (∃ f ∈ fs, f.acc = .rw ∧ (fld v f.hi f.lo < f.min ∨ f.max < fld v f.hi f.lo)) ∨
      (∃ f ∈ fs, f.acc = .ro ∧ fld v f.hi f.lo ≠ fld old f.hi f.lo) := by
  rw [writeFields_eq, writeAll_snd, Bool.or_eq_true, reserved_written, List.any_eq_true]
  refine or_congr_right ?_
  simp only [fieldIgnores_iff, and_or_left, exists_or]

end Sys2Proof.Machine

namespace Sys2Proof.Proofs
open Sys2Proof Sys2Proof.Machine

/-- Settles O56, bit by bit: each field's part of a write changes only the field's own bits. -/
theorem fieldWrites : Obligations.FieldWrites :=
  ⟨fieldsAt_fit, fun _ old v hfit =>
    ⟨fun _ hf hacc => fld_writeFields_rw old v hfit hf hacc,
     fun _ hf hacc => fld_writeFields_kept old v hfit hf hacc,
     fun _ hf hacc _ hlo hhi => bit_writeFields_w1c old v hfit hf hacc hlo hhi,
     fun _ h ho => bit_writeFields_reserved old v h ho,
     writeFields_ignored_iff _ old v⟩⟩

end Sys2Proof.Proofs
end

section
/-! PROOFS. Register writes and reads: the common layout, CLR, the error latch, refusals and MSI-X entries (O46). -/
namespace Sys2Proof.Machine
open Sys2Proof

/-! ### Words -/

/-- A field is not 0 where one of its bits is 1. -/
theorem fld_ne_zero_iff (v : Word32) (hi lo : Nat) : fld v hi lo ≠ 0 ↔ ∃ i, lo ≤ i ∧ i ≤ hi ∧ bit v i = true := by
  constructor
  · intro h
    obtain ⟨k, hk⟩ := Nat.exists_testBit_of_ne_zero h
    rw [testBit_fld, Bool.and_eq_true, decide_eq_true_eq] at hk
    exact ⟨lo + k, by omega, by omega, hk.2⟩
  · rintro ⟨i, hlo, hhi, hb⟩ h0
    have := testBit_fld_sub v ⟨hlo, hhi⟩
    rw [h0, hb] at this
    simp at this

/-- A counter that one event at most has advanced advances as it shows. -/
theorem satAdd32_of_changed (x : Word32) (b : Bool) :
    satAdd32 x (if satAdd32 x (if b then 1 else 0) != x then 1 else 0) = satAdd32 x (if b then 1 else 0) := by
  cases b with
  | false => simp [State.satAdd32_zero]
  | true =>
    by_cases h : satAdd32 x 1 = x
    · simp [h, State.satAdd32_zero]
    · simp [h]

/-! ### Pages and addresses -/

/-- A register of the common layout has its page's common row. -/
theorem rowAt_common {p off : Nat} {x : Blk × Nat × Nat} (hp : pageOf p = some x) (h : off < 256) :
    rowAt (4096 * p + off) = findRow rowsCommon off := by
  have h1 : (4096 * p + off) / 4096 = p := by omega
  have h2 : (4096 * p + off) % 4096 = off := by omega
  simp only [rowAt, h1, h2, hp, if_pos h]

/-- Of the common layout only the RNG's is the administrator's (R412). -/
theorem adminOnly_common {b : Blk} {off : Nat} (hb : b ≠ .rng) (h : off < 256) : adminOnly b off = false := by
  cases b <;> simp [adminOnly] at * <;> omega

namespace State

/-! ### Outcomes -/

/-- A meaning whose next state has the queue it began with answers that state. -/
theorem keepQueue_of_pending {s u : State} (h : u.pending = s.pending) : keepQueue s (.next u) = .next u := by
  rw [keepQueue_of_next, ← h]

/-! ### Registers kept -/

theorem rd_canon {s : State} {a b : Nat} (h : canon a = canon b) : s.rd a = s.rd b := by simp only [rd, h]

theorem kept_refl (s : State) (l : List Nat) : RegsKept s s l := fun _ _ => rfl

/-- Keeping all but some registers keeps all but more of them. -/
theorem kept_mono {s t : State} {l n : List Nat} (h : RegsKept s t l) (hl : ∀ x ∈ l, x ∈ n) : RegsKept s t n :=
  kept_trans h (kept_refl t []) hl (by simp)

/-- A register kept that is among those named is not changed, so it need not be named. -/
theorem kept_drop {s t : State} {a : Nat} {l : List Nat} (h : RegsKept s t (a :: l)) (ha : t.rd a = s.rd a) : RegsKept s t l := by
  intro b hb
  by_cases he : canon b = canon a
  · rw [rd_canon he, ha, rd_canon he]
  · exact h b (by simpa [he] using hb)

/-! ### A register write without further effect -/

/-- A write by fields, of a register that is stored and reads as it is stored, is an ordinary register write. -/
theorem fieldsWrite_spec {s : State} {b : Blk} {i a : Nat} (v : Word32) (hst : ∀ x, s.storeAt b i a x = s.wr a x)
    (hrd : s.readReg a = s.rd a) (hc : canon a / 4096 = a / 4096) (h : 256 ≤ a % 4096) : RegWritten s (s.fieldsWrite b i a v) a v := by
  have hp := plainWrite_spec s a v h
  simp only [fieldsWrite, hrd, hst, hc]
  by_cases hw : (writeFields (fieldsAt a) (s.rd a) v).1 = s.rd a
  · rw [if_pos hw]
    have e1 : canon a ≠ canon (R.GEN_WR_CNT (a / 4096)) := canon_ne_of_off (by simp only [R.GEN_WR_CNT]; omega)
    have e2 : canon a ≠ canon (R.GEN_IGN_CNT (a / 4096)) := canon_ne_of_off (by simp only [R.GEN_IGN_CNT]; omega)
    have hk := countWrite_kept s (a / 4096) (writeFields (fieldsAt a) (s.rd a) v).2
    obtain ⟨r, hr⟩ := countWrite_frame s (a / 4096) (writeFields (fieldsAt a) (s.rd a) v).2
    exact ⟨⟨by rw [hr], kept_mono hk (by simp)⟩, (hk a (by simp [e1, e2])).trans hw.symm, countWrite_wr _ _ _, countWrite_ign _ _ _⟩
  · rw [if_neg hw]
    exact hp

/-- Putting the two counts of a page back. -/
def cntBack (s u : State) (p : Nat) : State := (u.wr (R.GEN_WR_CNT p) (s.rd (R.GEN_WR_CNT p))).wr (R.GEN_IGN_CNT p) (s.rd (R.GEN_IGN_CNT p))

theorem cntBack_wr (s u : State) (p : Nat) : (cntBack s u p).rd (R.GEN_WR_CNT p) = s.rd (R.GEN_WR_CNT p) := by
  rw [cntBack, rd_wr_ne _ _ (wr_cnt_ne p), rd_wr_self]
theorem cntBack_ign (s u : State) (p : Nat) : (cntBack s u p).rd (R.GEN_IGN_CNT p) = s.rd (R.GEN_IGN_CNT p) := rd_wr_self _ _ _
theorem cntBack_kept (s u : State) (p : Nat) : RegsKept u (cntBack s u p) [R.GEN_WR_CNT p, R.GEN_IGN_CNT p] :=
  kept_trans (kept_wr _ _ _) (kept_wr _ _ _) (by simp) (by simp)

/-- A write made to a page of its own counts once, as its fields count (R498, R499). -/
theorem countOnce_spec {s u : State} {a : Nat} {v : Word32} (hu : RegWritten s u a v) (hc : canon a / 4096 = a / 4096)
    (h : 256 ≤ a % 4096) : RegWritten s (countOnce s u a false) a v := by
  obtain ⟨⟨hf, hk⟩, hv, -, hi⟩ := hu
  have e1 : canon a ≠ canon (R.GEN_WR_CNT (a / 4096)) := canon_ne_of_off (by simp only [R.GEN_WR_CNT]; omega)
  have e2 : canon a ≠ canon (R.GEN_IGN_CNT (a / 4096)) := canon_ne_of_off (by simp only [R.GEN_IGN_CNT]; omega)
  have heq : countOnce s u a false =
      (cntBack s (cntBack s u (a / 4096)) (a / 4096)).countWrite (a / 4096)
        (u.rd (R.GEN_IGN_CNT (a / 4096)) != s.rd (R.GEN_IGN_CNT (a / 4096))) := by
    simp only [countOnce, hc, Bool.false_or, Bool.or_self]
    rfl
  rw [heq]
  generalize hw : cntBack s (cntBack s u (a / 4096)) (a / 4096) = w
  have hkw : RegsKept u w [R.GEN_WR_CNT (a / 4096), R.GEN_IGN_CNT (a / 4096)] :=
    hw ▸ kept_trans (cntBack_kept _ _ _) (cntBack_kept _ _ _) (by simp) (by simp)
  have hwr : w.rd (R.GEN_WR_CNT (a / 4096)) = s.rd (R.GEN_WR_CNT (a / 4096)) := hw ▸ cntBack_wr _ _ _
  have hig : w.rd (R.GEN_IGN_CNT (a / 4096)) = s.rd (R.GEN_IGN_CNT (a / 4096)) := hw ▸ cntBack_ign _ _ _
  have hkt := kept_trans (n := [R.GEN_WR_CNT (a / 4096), R.GEN_IGN_CNT (a / 4096)]) hkw
    (countWrite_kept w (a / 4096) (u.rd (R.GEN_IGN_CNT (a / 4096)) != s.rd (R.GEN_IGN_CNT (a / 4096)))) (by simp) (by simp)
  obtain ⟨r, hr⟩ := countWrite_frame w (a / 4096) (u.rd (R.GEN_IGN_CNT (a / 4096)) != s.rd (R.GEN_IGN_CNT (a / 4096)))
  refine ⟨⟨?_, kept_trans hk hkt (by simp) (by simp)⟩, (hkt a (by simp [e1, e2])).trans hv, ?_, ?_⟩
  · rw [hr, ← hw, cntBack, cntBack, hf]
    rfl
  · rw [countWrite_wr, hwr]
  · rw [countWrite_ign, hig, hi, satAdd32_of_changed]

end State

/-- Of the common layout's registers and of every block's own, those that CLR clears stand past INT_STAT and inside the page. -/
theorem rowsCommon_restart : ∀ r ∈ rowsCommon, r.restart = true → 0x40 ≤ r.off ∧ r.off + r.stride * (r.count - 1) < 4096 := by
  decide +kernel
theorem blkRows_restart (b : Blk) : ∀ r ∈ blkRows b, r.restart = true → 0x40 ≤ r.off ∧ r.off + r.stride * (r.count - 1) < 4096 := by
  cases b <;> decide +kernel

/-- A register that CLR clears is one of its page, past INT_STAT. -/
theorem restartAddrs_off {p : Nat} {b : Blk} {a : Nat} (h : a ∈ State.restartAddrs p b) : 0x40 ≤ a % 4096 := by
  simp only [State.restartAddrs, List.mem_flatMap, List.mem_filter, List.mem_append, List.mem_map, List.mem_range] at h
  obtain ⟨r, ⟨hr, hrs⟩, j, hj, rfl⟩ := h
  have hoff : 0x40 ≤ r.off ∧ r.off + r.stride * (r.count - 1) < 4096 :=
    hr.elim (fun h => rowsCommon_restart r h hrs) (fun h => blkRows_restart b r h hrs)
  have : r.stride * j ≤ r.stride * (r.count - 1) := Nat.mul_le_mul_left _ (by omega)
  omega

/-- The three counts of a page are among the registers CLR clears. -/
theorem counts_mem_restartAddrs (p : Nat) (b : Blk) :
    R.GEN_RD_CNT p ∈ State.restartAddrs p b ∧ R.GEN_WR_CNT p ∈ State.restartAddrs p b ∧ R.GEN_IGN_CNT p ∈ State.restartAddrs p b := by
  simp [State.restartAddrs, rowsCommon, R.GEN_RD_CNT, R.GEN_WR_CNT, R.GEN_IGN_CNT, List.range_succ]

namespace State

/-! ### The common layout -/

/-- A write of a register of the common layout, on a page that is not the RNG's. -/
theorem regWrite_common (s : State) {b : Blk} {n : Nat × Nat} {p off : Nat} (v : Word32) (hp : pageOf p = some (b, n)) (hb : b ≠ .rng)
    (h : off < 256) (hrow : (findRow rowsCommon off).isSome = true) :
    s.regWrite (4096 * p + off) v = s.commonWrite b n.2 (4096 * p + off) v := by
  have h1 : (4096 * p + off) / 4096 = p := by omega
  have h2 : (4096 * p + off) % 4096 = off := by omega
  obtain ⟨x, i⟩ := n
  rw [regWrite, h1, hp]
  simp only [rowAt_common hp h, h2, adminOnly_common hb h, Option.isNone_eq_false_iff.2 hrow, Bool.false_and, Bool.false_eq_true, if_false,
    if_pos h]

/-- A write of INT_SET sets the bits and counts (R498). -/
theorem regWrite_intSet (s : State) {b : Blk} {n : Nat × Nat} {p : Nat} (v : Word32) (hp : pageOf p = some (b, n)) (hb : b ≠ .rng) :
    s.regWrite (R.INT_SET p) v = (s.intSet p v).countWrite p false := by
  rw [R.INT_SET, regWrite_common s v hp hb (by omega) (by decide)]
  simp only [commonWrite, show (4096 * p + 0x24) % 4096 = 0x24 by omega, show (4096 * p + 0x24) / 4096 = p by omega]
  rfl

/-- A write of CLR clears the page and is not counted on it (R498). -/
theorem regWrite_clr (s : State) {b : Blk} {n : Nat × Nat} {p : Nat} (hp : pageOf p = some (b, n)) (hb : b ≠ .rng) :
    s.regWrite (R.BLK_CTL p) 1 = s.clearPage p := by
  rw [R.BLK_CTL, regWrite_common s 1 hp hb (by omega) (by decide)]
  simp only [commonWrite, show (4096 * p + 0x10) % 4096 = 0x10 by omega, show (4096 * p + 0x10) / 4096 = p by omega]
  rfl

/-- A write of 1 to VALID of ERR_INFO counts and clears the record (R470). -/
theorem regWrite_errInfo (s : State) {b : Blk} {n : Nat × Nat} {p : Nat} {v : Word32} (hp : pageOf p = some (b, n)) (hb : b ≠ .rng)
    (hv : bit v 31 = true) :
    s.regWrite (R.ERR_INFO p) v = (s.countWrite p (writeFields (fieldsAt (R.ERR_INFO p)) (s.rd (R.ERR_INFO p)) v).2).errClear p := by
  have h1 : R.ERR_INFO p % 4096 = 0x28 := by simp only [R.ERR_INFO]; omega
  have h2 : R.ERR_INFO p / 4096 = p := by simp only [R.ERR_INFO]; omega
  have hc : canon (R.ERR_INFO p) = R.ERR_INFO p := canon_common (by omega)
  have hw : s.regWrite (R.ERR_INFO p) v = s.commonWrite b n.2 (R.ERR_INFO p) v := regWrite_common s v hp hb (by omega) (by decide)
  rw [hw]
  simp only [commonWrite, latchWrite, h1, hc, h2, hv, if_true]
  rfl

/-! ### Clearing -/

/-- Clearing the error latch leaves its registers 0 and the others as they were. -/
theorem errClear_kept (s : State) (p : Nat) : RegsKept s (s.errClear p) [R.ERR_INFO p, R.ERR_ADDR_LO p, R.ERR_ADDR_HI p] :=
  kept_trans (kept_trans (n := [R.ERR_INFO p, R.ERR_ADDR_LO p]) (kept_wr s _ 0) (kept_wr _ _ 0) (by simp) (by simp)) (kept_wr _ _ 0)
    (by simp) (by simp)

theorem rd_errClear (s : State) (p : Nat) :
    (s.errClear p).rd (R.ERR_INFO p) = 0 ∧ (s.errClear p).rd (R.ERR_ADDR_LO p) = 0 ∧ (s.errClear p).rd (R.ERR_ADDR_HI p) = 0 := by
  have e1 : canon (R.ERR_INFO p) ≠ canon (R.ERR_ADDR_LO p) := canon_ne_of_off (by simp only [R.ERR_INFO, R.ERR_ADDR_LO]; omega)
  have e2 : canon (R.ERR_INFO p) ≠ canon (R.ERR_ADDR_HI p) := canon_ne_of_off (by simp only [R.ERR_INFO, R.ERR_ADDR_HI]; omega)
  have e3 : canon (R.ERR_ADDR_LO p) ≠ canon (R.ERR_ADDR_HI p) := canon_ne_of_off (by simp only [R.ERR_ADDR_LO, R.ERR_ADDR_HI]; omega)
  simp [errClear, rd_wr_ne, e1, e2, e3]

/-- What one register's clearing leaves as it was. -/
def SameStore (s t : State) : Prop := t.mem = s.mem ∧ t.ops = s.ops ∧ t.depCtr = s.depCtr ∧ t.pending = s.pending

theorem laneSet_spec (s : State) (p l : Nat) (v : Lane) :
    SameStore s (s.laneSet p l v) ∧ RegsKept s (s.laneSet p l v) [preg p 0x114, preg p 0x104] := by
  refine ⟨⟨rfl, rfl, rfl, rfl⟩, ?_⟩
  unfold laneSet laneStat
  simp only [wrF_eq]
  exact kept_trans (kept_trans (n := [preg p 0x114, preg p 0x104]) (kept_wr _ _ _) (kept_wr _ _ _) (by simp) (by simp)) (kept_wr _ _ _)
    (by simp) (by simp)

theorem rungSettle_spec (s : State) : SameStore s s.rungSettle ∧ RegsKept s s.rungSettle [R.PWR_RUNG_TIME s.rung] :=
  ⟨⟨rfl, rfl, rfl, rfl⟩, kept_wr s _ _⟩

/-- A register is stored: memory, operators and counters are as they were, and of the common layout only that register changes. -/
def Stores (s t : State) (a : Nat) (v : Word32) : Prop :=
  SameStore s t ∧ ∀ c, c % 4096 < 256 → t.rd c = if canon c = canon a then v else s.rd c

/-- A register written on a state whose common registers are those of `s`. -/
theorem stores_wr {s u : State} (a : Nat) (v : Word32) (h : SameStore s u) (hu : ∀ c, c % 4096 < 256 → u.rd c = s.rd c) :
    Stores s (u.wr a v) a v := ⟨h, fun c hc => by rw [rd_wr, hu c hc]⟩

/-- A register beyond the common layout, held beside the registers. -/
theorem stores_beside {s t : State} {a : Nat} (v : Word32) (ha : 256 ≤ a % 4096) (h : SameStore s t)
    (ht : ∀ c, c % 4096 < 256 → t.rd c = s.rd c) : Stores s t a v :=
  ⟨h, fun c hc => by rw [ht c hc, if_neg (canon_ne_of_off (by omega))]⟩

theorem stores_wr_self (s : State) (a : Nat) (v : Word32) : Stores s (s.wr a v) a v :=
  stores_wr a v ⟨rfl, rfl, rfl, rfl⟩ (fun _ _ => rfl)

/-- Registers kept but for some beyond the common layout. -/
theorem common_of_kept {s t : State} {l : List Nat} (h : RegsKept s t l) (hl : ∀ x ∈ l, 256 ≤ x % 4096) (c : Nat) (hc : c % 4096 < 256) :
    t.rd c = s.rd c := h c fun x hx => canon_ne_of_off (by have := hl x hx; omega)

theorem preg_off (p off : Nat) (h : off < 4096) : preg p off % 4096 = off := by unfold preg; omega

/-- A lane's counter stands beside the registers. -/
theorem stores_lane (s : State) (p l : Nat) (x : Lane) {a : Nat} (v : Word32) (ha : 256 ≤ a % 4096) : Stores s (s.laneSet p l x) a v := by
  obtain ⟨h, hk⟩ := laneSet_spec s p l x
  exact stores_beside v ha h (common_of_kept hk (by simp [preg_off]))

theorem rung_lt (s : State) : s.rung < 8 := Nat.mod_lt _ (by decide)

/-- Every register is stored under its address, the common layout's in the registers themselves. -/
theorem storeAt_stores (s : State) (b : Blk) (i a : Nat) (v : Word32) : Stores s (s.storeAt b i a v) a v := by
  cases b with
  | drp =>
    simp only [storeAt]
    split
    · exact stores_beside v (by omega) ⟨rfl, rfl, rfl, rfl⟩ (fun _ _ => rfl)
    · exact stores_wr_self s a v
  | mpd =>
    simp only [storeAt]
    split
    · exact stores_beside v (by omega) ⟨rfl, rfl, rfl, rfl⟩ (fun _ _ => rfl)
    · exact stores_wr_self s a v
  | hpt =>
    simp only [storeAt]
    split
    · exact stores_lane s _ _ _ v (by omega)
    · split
      · exact stores_lane s _ _ _ v (by omega)
      · exact stores_wr_self s a v
  | xpt =>
    simp only [storeAt]
    split
    · exact stores_lane s _ _ _ v (by omega)
    · split
      · exact stores_lane s _ _ _ v (by omega)
      · exact stores_wr_self s a v
  | pwr =>
    simp only [storeAt]
    split
    · obtain ⟨h, hk⟩ := rungSettle_spec s
      have hr := rung_lt s
      exact stores_wr a v h (common_of_kept hk (by simp only [List.mem_singleton, forall_eq, R.PWR_RUNG_TIME]; omega))
    · exact stores_wr_self s a v
  | _ => exact stores_wr_self s a v

theorem sameStore_trans {s t u : State} (h : SameStore s t) (h' : SameStore t u) : SameStore s u := by
  obtain ⟨hm, ho, hd, hp⟩ := h
  obtain ⟨hm', ho', hd', hp'⟩ := h'
  exact ⟨hm'.trans hm, ho'.trans ho, hd'.trans hd, hp'.trans hp⟩

/-- Clearing registers one after another. -/
def clearAll (s : State) (b : Blk) (i : Nat) (l : List Nat) : State := l.foldl (fun u a => u.storeAt b i a 0) s

theorem clearAll_same (s : State) (b : Blk) (i : Nat) (l : List Nat) : SameStore s (s.clearAll b i l) := by
  induction l generalizing s with
  | nil => exact ⟨rfl, rfl, rfl, rfl⟩
  | cons a l ih => exact sameStore_trans (storeAt_stores s b i a 0).1 (ih _)

/-- A register of the common layout that is not among those cleared is as it was. -/
theorem rd_clearAll_out (s : State) (b : Blk) (i : Nat) {l : List Nat} {c : Nat} (hc : c % 4096 < 256)
    (h : ∀ a ∈ l, canon c ≠ canon a) : (s.clearAll b i l).rd c = s.rd c := by
  induction l generalizing s with
  | nil => rfl
  | cons a l ih =>
    rw [List.forall_mem_cons] at h
    exact (ih (s.storeAt b i a 0) h.2).trans (by rw [(storeAt_stores s b i a 0).2 c hc, if_neg h.1])

/-- A register of the common layout that reads 0, or is among those cleared, reads 0. -/
theorem rd_clearAll_in (s : State) (b : Blk) (i : Nat) {l : List Nat} {c : Nat} (hc : c % 4096 < 256) (h : c ∈ l ∨ s.rd c = 0) :
    (s.clearAll b i l).rd c = 0 := by
  induction l generalizing s with
  | nil => exact h.resolve_left (by simp)
  | cons a l ih =>
    refine ih (s.storeAt b i a 0) ?_
    rw [(storeAt_stores s b i a 0).2 c hc]
    by_cases he : canon c = canon a
    · exact .inr (if_pos he)
    · rw [if_neg he]
      exact h.imp_left fun hm => (List.mem_cons.1 hm).resolve_left fun e => he (by rw [e])

/-- CLR of a page (R498): its three counts and its error latch read 0, INT_STAT is as it was, and memory, operators and dependency
counters are too. -/
theorem clearPage_spec (s : State) {b : Blk} {n : Nat × Nat} {p : Nat} (hp : pageOf p = some (b, n)) :
    SameStore s (s.clearPage p) ∧
    (∀ c ∈ [R.GEN_RD_CNT p, R.GEN_WR_CNT p, R.GEN_IGN_CNT p, R.ERR_INFO p, R.ERR_ADDR_LO p, R.ERR_ADDR_HI p], (s.clearPage p).rd c = 0) ∧
    (s.clearPage p).rd (R.INT_STAT p) = s.rd (R.INT_STAT p) := by
  have heq : s.clearPage p = (s.clearAll b n.2 (restartAddrs p b)).errClear p := by simp only [clearPage, hp, clearAll]
  have hsame := clearAll_same s b n.2 (restartAddrs p b)
  have hin (c : Nat) (hm : c ∈ restartAddrs p b) (hc : c % 4096 < 256) := rd_clearAll_in s b n.2 hc (.inl hm)
  have hout := rd_clearAll_out s b n.2 (l := restartAddrs p b) (c := R.INT_STAT p) (by simp only [R.INT_STAT]; omega)
    fun a ha => canon_ne_of_off (by have := restartAddrs_off ha; simp only [R.INT_STAT]; omega)
  rw [heq]
  generalize s.clearAll b n.2 (restartAddrs p b) = u at *
  obtain ⟨hr, hw, hi⟩ := counts_mem_restartAddrs p b
  obtain ⟨h1, h2, h3⟩ := rd_errClear u p
  have hk (c : Nat) (hc : c % 4096 = 0x20 ∨ 0x40 ≤ c % 4096) : (u.errClear p).rd c = u.rd c :=
    errClear_kept u p c (by
      simp only [List.mem_cons, List.not_mem_nil, or_false, forall_eq_or_imp, forall_eq]
      refine ⟨canon_ne_of_off ?_, canon_ne_of_off ?_, canon_ne_of_off ?_⟩ <;> simp only [R.ERR_INFO, R.ERR_ADDR_LO, R.ERR_ADDR_HI] <;> omega)
  refine ⟨hsame, ?_, (hk _ (by simp only [R.INT_STAT]; omega)).trans hout⟩
  simp only [List.mem_cons, List.not_mem_nil, or_false, forall_eq_or_imp, forall_eq]
  refine ⟨?_, ?_, ?_, h1, h2, h3⟩
  · rw [hk _ (by simp only [R.GEN_RD_CNT]; omega), hin _ hr (by simp only [R.GEN_RD_CNT]; omega)]
  · rw [hk _ (by simp only [R.GEN_WR_CNT]; omega), hin _ hw (by simp only [R.GEN_WR_CNT]; omega)]
  · rw [hk _ (by simp only [R.GEN_IGN_CNT]; omega), hin _ hi (by simp only [R.GEN_IGN_CNT]; omega)]

/-! ### Refusals -/

/-- Latching an error changes the error registers of its page, and beside them a free value and the log. -/
theorem errLatch_spec (s : State) (p cls addr : Nat) :
    (∃ r f w, s.errLatch p cls addr = { s with regs := r, freeCtr := f, pwr := w }) ∧
    RegsKept s (s.errLatch p cls addr) [R.ERR_INFO p, R.ERR_ADDR_LO p, R.ERR_ADDR_HI p] := by
  have hlog : ∃ w, (if 2 ≤ cls then s.logError p cls else s) = { s with pwr := w } := by split <;> exact ⟨_, rfl⟩
  obtain ⟨w, hw⟩ := hlog
  simp only [errLatch, hw]
  split
  · exact ⟨⟨_, _, _, rfl⟩, kept_mono (kept_wr _ (R.ERR_INFO p) _) (by simp)⟩
  · exact ⟨⟨_, _, _, rfl⟩, kept_trans (kept_trans (n := [R.ERR_INFO p, R.ERR_ADDR_LO p]) (kept_wr _ (R.ERR_INFO p) _)
      (kept_wr _ (R.ERR_ADDR_LO p) _) (by simp) (by simp)) (kept_wr _ (R.ERR_ADDR_HI p) _) (by simp) (by simp)⟩

/-- Raising an interrupt bit keeps every register but INT_STAT. -/
theorem raise_kept (s : State) (p b : Nat) : RegsKept s (s.raise p b) [R.INT_STAT p] :=
  fun c hc => by rw [rd_raise, if_neg (hc _ (by simp))]

/-- The host is refused an access (R492): HST_ERR, its count and its interrupt show it, and the error record of the page. -/
theorem hostRefuse_spec (s : State) (addr : Nat) :
    (∃ r o m f w, s.hostRefuse addr = { s with regs := r, outbox := o, msix := m, freeCtr := f, pwr := w }) ∧
    (s.hostRefuse addr).rd R.HST_ERR = s.rd R.HST_ERR ||| 1 ∧
    (s.hostRefuse addr).rd R.HST_REFUSED_CNT = satAdd32 (s.rd R.HST_REFUSED_CNT) 1 ∧
    (s.hostRefuse addr).rd (R.INT_STAT 8) = s.rd (R.INT_STAT 8) ||| 4 ∧
    RegsKept s (s.hostRefuse addr) [R.HST_ERR, R.HST_REFUSED_CNT, R.INT_STAT 8, R.ERR_INFO 8, R.ERR_ADDR_LO 8, R.ERR_ADDR_HI 8] := by
  unfold hostRefuse
  generalize hu : (s.used.setBits R.HST_ERR 1).bump R.HST_REFUSED_CNT = u
  obtain ⟨o, m, hraise⟩ := raise_frame u 8 2
  obtain ⟨⟨r, f, w, hlatch⟩, hkl⟩ := errLatch_spec (u.raise 8 2) 8 (s.free.toNat % 4) addr
  have hu_err : u.rd R.HST_ERR = s.rd R.HST_ERR ||| 1 := by
    rw [← hu, bump_eq, rd_wr_ne _ _ (by decide), setBits_eq, rd_wr_self, rd_used]
  have hu_cnt : u.rd R.HST_REFUSED_CNT = satAdd32 (s.rd R.HST_REFUSED_CNT) 1 := by
    rw [← hu, bump_eq, rd_wr_self, setBits_eq, rd_wr_ne _ _ (by decide), rd_used]
  have hu_int : u.rd (R.INT_STAT 8) = s.rd (R.INT_STAT 8) := by
    rw [← hu, bump_eq, rd_wr_ne _ _ (by decide), setBits_eq, rd_wr_ne _ _ (by decide), rd_used]
  have hku : RegsKept s u [R.HST_ERR, R.HST_REFUSED_CNT] := by
    rw [← hu, bump_eq, setBits_eq]
    exact kept_trans (kept_wr s.used _ _) (kept_wr _ _ _) (by simp) (by simp)
  refine ⟨⟨r, o, m, f, w, ?_⟩, ?_, ?_, ?_, ?_⟩
  · rw [hlatch, hraise, ← hu]
    rfl
  · rw [hkl _ (by decide), raise_kept u 8 2 _ (by decide), hu_err]
  · rw [hkl _ (by decide), raise_kept u 8 2 _ (by decide), hu_cnt]
  · rw [hkl _ (by decide), rd_raise, if_pos rfl, hu_int]
    rfl
  · exact kept_trans (kept_trans (n := [R.HST_ERR, R.HST_REFUSED_CNT, R.INT_STAT 8]) hku (raise_kept u 8 2) (by simp) (by simp)) hkl
      (by simp) (by simp)

/-! ### The commands -/

/-- UAR_BAUD is an ordinary register. -/
theorem regWrite_uarBaud (s : State) (v : Word32) : RegWritten s (s.regWrite R.UAR_BAUD v) R.UAR_BAUD v :=
  countOnce_spec (fieldsWrite_spec (b := .uar) (i := 0) v (fun _ => rfl) rfl rfl (by decide)) rfl (by decide)

/-- A register write of another requester than the host, of 4 aligned bytes, is the write. -/
theorem exec_registerWrite_other {s : State} {req a : Nat} (v : Word32) (hreq : 1 ≤ req) (ha : a < 2 ^ 24) (h4 : a % 4 = 0)
    (hp : (s.regWrite a v).pending = s.pending) : exec (.registerWrite req a 4 v) s = .next (s.regWrite a v) := by
  show execRegisterWrite req a 4 v s = _
  rw [execRegisterWrite, if_neg (by omega), if_neg (by omega), if_pos ⟨rfl, h4⟩, keepQueue_of_pending hp]

/-- The fields of UAR_BAUD. -/
theorem fieldsAt_uarBaud : fieldsAt R.UAR_BAUD = [⟨.rw, 15, 0, 33, 65535⟩] := by decide +kernel

/-- A divisor in range is taken, and the write counts as ignored where it puts a 1 above bit 15. -/
theorem writeFields_uarBaud (old v : Word32) (h : 0x21 ≤ fld v 15 0) :
    fld (writeFields (fieldsAt R.UAR_BAUD) old v).1 15 0 = fld v 15 0 ∧
    ((writeFields (fieldsAt R.UAR_BAUD) old v).2 = true ↔ fld v 31 16 ≠ 0) := by
  have hmax : fld v 15 0 ≤ 65535 := Nat.le_of_lt_succ (Nat.mod_lt _ (by decide))
  constructor
  · have := fld_writeFields_rw old v (fieldsAt_fit R.UAR_BAUD) (f := ⟨.rw, 15, 0, 33, 65535⟩) (by simp [fieldsAt_uarBaud]) rfl
    exact this.trans (if_pos ⟨h, hmax⟩)
  · rw [writeFields_ignored_iff, fld_ne_zero_iff, fieldsAt_uarBaud]
    have hno : ¬(fld v 15 0 < 33 ∨ 65535 < fld v 15 0) := by omega
    simp only [List.mem_singleton, forall_eq, exists_eq_left, hno, and_false, false_and, or_false, reduceCtorEq]
    exact exists_congr fun i => ⟨fun ⟨h32, hb, hi⟩ => ⟨by omega, by omega, hb⟩, fun ⟨h16, h31, hb⟩ => ⟨by omega, hb, by omega⟩⟩

/-- A divisor below the range is refused, and the write counts as ignored. -/
theorem writeFields_uarBaud_low (old v : Word32) (h : fld v 15 0 < 0x21) : writeFields (fieldsAt R.UAR_BAUD) old v = (old, true) := by
  have hno : ¬(33 ≤ fld v 15 0 ∧ fld v 15 0 ≤ 65535) := by omega
  simp [fieldsAt_uarBaud, writeFields, fieldWrite, hno]

/-- A data word of an MSI-X vector. -/
theorem msixWrite_data (s : State) (n : Nat) (v : Word32) :
    s.msixWrite (0xF00000 + 16 * n + 8) v = { s with msix := Map.set s.msix n { Map.get s.msix Msix.none n with data := v } } := by
  have h1 : (0xF00000 + 16 * n + 8 - 0xF00000) / 16 = n := by omega
  have h2 : (0xF00000 + 16 * n + 8) % 16 / 4 = 2 := by omega
  simp only [msixWrite, h1, h2]

end State

/-- The MSI-X pages hold no register block. -/
theorem pageOf_msix {p : Nat} (h : 0xF00 ≤ p) : pageOf p = none := by
  have hno : pageMap.find? (fun r => r.first ≤ p ∧ p < r.first + r.count) = none := by
    rw [List.find?_eq_none]
    intro r hr
    have hend : ∀ r ∈ pageMap, r.first + r.count ≤ 0xF00 := by decide
    have := hend r hr
    simp only [decide_eq_true_eq]
    omega
  rw [pageOf, if_neg (by omega), hno]
  rfl

namespace State

/-- A counter's low half is read by one who has nothing latched of it: its value goes out, and the high half is latched (R499). -/
theorem regRead_lo (s : State) (req : Nat) {a : Nat} (h : latchingAt a = true) (hlo : latchingAt (a - 4) = false) (ha : a ≠ R.UAR_RXD) :
    s.regRead req a = (s.readReg a,
      ({ s with latched := Map.set s.latched (req * 2 ^ 32 + a + 4) (s.readReg (a + 4)) } : State).bump (R.GEN_RD_CNT (a / 4096))) := by
  have hp : (pageOf (a / 4096)).isSome = true := by
    unfold latchingAt at h
    split at h
    · rename_i he; rw [he]; rfl
    · cases h
  simp only [regRead, h, hlo, if_neg ha, hp, Bool.and_false, Bool.false_eq_true, if_false, if_true]

end State
end Sys2Proof.Machine

namespace Sys2Proof.Proofs
open Sys2Proof Sys2Proof.Machine Sys2Proof.Machine.State

/-- A divisor in range is taken (R503). -/
theorem uarBaud_taken (s : State) (req : Nat) (v : Word32) (hreq : 1 ≤ req) (hv : 0x21 ≤ fld v 15 0) :
    ∃ t, exec (.registerWrite req R.UAR_BAUD 4 v) s = .next t ∧ t = { s with regs := t.regs } ∧ fld (t.rd R.UAR_BAUD) 15 0 = fld v 15 0 ∧
      RegsKept s t [R.UAR_BAUD, R.GEN_WR_CNT 0x0A, R.GEN_IGN_CNT 0x0A] ∧
      t.rd (R.GEN_IGN_CNT 0x0A) = satAdd32 (s.rd (R.GEN_IGN_CNT 0x0A)) (if fld v 31 16 = 0 then 0 else 1) := by
  obtain ⟨⟨hf, hk⟩, hrd, -, hign⟩ := regWrite_uarBaud s v
  obtain ⟨hfld, hbad⟩ := writeFields_uarBaud (s.rd R.UAR_BAUD) v hv
  refine ⟨_, exec_registerWrite_other v hreq (by decide) (by decide) (by rw [hf]), hf, by rw [hrd, hfld], hk, ?_⟩
  refine hign.trans (congrArg (satAdd32 (s.rd (R.GEN_IGN_CNT 0x0A))) ?_)
  by_cases h0 : fld v 31 16 = 0 <;> simp [hbad, h0]

/-- A divisor out of range leaves the register (R499, R503). -/
theorem uarBaud_refused (s : State) (req : Nat) (v : Word32) (hreq : 1 ≤ req) (hv : fld v 15 0 < 0x21) :
    ∃ t, exec (.registerWrite req R.UAR_BAUD 4 v) s = .next t ∧ t = { s with regs := t.regs } ∧
      RegsKept s t [R.GEN_WR_CNT 0x0A, R.GEN_IGN_CNT 0x0A] ∧
      t.rd (R.GEN_IGN_CNT 0x0A) = satAdd32 (s.rd (R.GEN_IGN_CNT 0x0A)) 1 := by
  obtain ⟨⟨hf, hk⟩, hrd, -, hign⟩ := regWrite_uarBaud s v
  rw [writeFields_uarBaud_low _ v hv] at hrd hign
  exact ⟨_, exec_registerWrite_other v hreq (by decide) (by decide) (by rw [hf]), hf, kept_drop hk hrd, hign⟩

/-- A register write of the host that is not 4 aligned bytes is refused (R492). -/
theorem hostWrite_refused (s : State) (a size : Nat) (v : Word32) (ha : a < 2 ^ 24) (hon : s.hostOn = true) (hbad : size ≠ 4 ∨ a % 4 ≠ 0) :
    ∃ t, exec (.registerWrite 0 a size v) s = .next t ∧
      t = { s with regs := t.regs, outbox := t.outbox, msix := t.msix, freeCtr := t.freeCtr, pwr := t.pwr } ∧
      t.rdB R.HST_ERR 0 = true ∧ t.rdB R.HST_ERR 1 = true ∧ t.rdB (R.INT_STAT 8) 2 = true ∧
      t.rd R.HST_REFUSED_CNT = satAdd32 (s.rd R.HST_REFUSED_CNT) 1 ∧
      RegsKept s t [R.HST_ERR, R.HST_REFUSED_CNT, R.INT_STAT 8, R.ERR_INFO 8, R.ERR_ADDR_LO 8, R.ERR_ADDR_HI 8] := by
  obtain ⟨⟨r, o, m, f, w, hfr⟩, herr, hcnt, hint, hk⟩ := hostRefuse_spec s (mmioAddr a)
  have hex : exec (.registerWrite 0 a size v) s = .next ((s.hostRefuse (mmioAddr a)).setBits R.HST_ERR 2) := by
    show execRegisterWrite 0 a size v s = _
    rw [execRegisterWrite, if_neg (by omega), if_pos rfl, if_neg (by simp [hon]), if_pos hbad, keepQueue_of_pending]
    rw [setBits_eq, wr_pending, hfr]
  refine ⟨_, hex, by rw [hfr]; rfl, ?_⟩
  rw [setBits_eq, rdB, rdB, rdB, rd_wr_self, herr, rd_wr_ne _ _ (by decide), hint, rd_wr_ne _ _ (by decide)]
  refine ⟨by simp [bit], by simp [bit], by simp [bit], hcnt, ?_⟩
  exact kept_trans hk (kept_wr _ R.HST_ERR _) (by simp) (by simp)

/-- The host writes a vector's data word (R490, R495). -/
theorem msixData_written (s : State) (n : Nat) (v : Word32) (hn : n < 2048) (hon : s.hostOn = true) :
    ∃ t, exec (.registerWrite 0 (0xF00000 + 16 * n + 8) 4 v) s = .next t ∧ t = { s with msix := t.msix } ∧
      Map.get? t.msix n = some { Map.get s.msix Msix.none n with data := v } ∧ ∀ k, k ≠ n → Map.get? t.msix k = Map.get? s.msix k := by
  have hp : 0xF00 ≤ (0xF00000 + 16 * n + 8) / 4096 ∧ (0xF00000 + 16 * n + 8) / 4096 < 0xF08 := by omega
  have hempty : pageEmpty ((0xF00000 + 16 * n + 8) / 4096) = false := by
    have h8 : (0xF00000 + 16 * n + 8) / 4096 ≤ 0xF08 := by omega
    simp [pageEmpty, hp.1, h8]
  have hex : exec (.registerWrite 0 (0xF00000 + 16 * n + 8) 4 v) s = .next (s.msixWrite (0xF00000 + 16 * n + 8) v) := by
    show execRegisterWrite 0 (0xF00000 + 16 * n + 8) 4 v s = _
    rw [execRegisterWrite, if_neg (by omega), if_pos rfl, if_neg (by simp [hon]), if_neg (by omega), if_neg (by simp [hempty]), if_pos hp,
      keepQueue_of_pending]
    rw [msixWrite_data]
  rw [msixWrite_data] at hex
  exact ⟨_, hex, rfl, Map.get?_set_self _ _ _, fun k hk => Map.get?_set_ne _ _ hk⟩

/-- INT_SET (R498). -/
theorem intSet_sets (s : State) (b : Blk) (n : Nat × Nat) (p : Nat) (v : Word32) (hp : pageOf p = some (b, n)) (hb : b ≠ .rng) :
    ∃ t, exec (.intSet p v) s = .next t ∧ t = { s with regs := t.regs, outbox := t.outbox, msix := t.msix } ∧
      t.rd (R.INT_STAT p) = s.rd (R.INT_STAT p) ||| v ∧ RegsKept s t [R.INT_STAT p, R.GEN_WR_CNT p] := by
  obtain ⟨o, m, hedge⟩ := pendEdge_frame s (s.setBits (R.INT_STAT p) v) p
  have heq : s.regWrite (R.INT_SET p) v =
      ({ s.setBits (R.INT_STAT p) v with outbox := o, msix := m } : State).bump (R.GEN_WR_CNT p) := by
    rw [regWrite_intSet s v hp hb, intSet, hedge]
    rfl
  have hne : canon (R.INT_STAT p) ≠ canon (R.GEN_WR_CNT p) := canon_ne_of_off (by simp only [R.INT_STAT, R.GEN_WR_CNT]; omega)
  refine ⟨_, keepQueue_of_pending (u := s.regWrite (R.INT_SET p) v) (by rw [heq]; rfl), ?_⟩
  rw [heq]
  refine ⟨rfl, ?_, ?_⟩
  · rw [bump_eq, rd_wr_ne _ _ hne]
    exact rd_wr_self s _ _
  · exact kept_trans (t := { s.setBits (R.INT_STAT p) v with outbox := o, msix := m }) (kept_wr s (R.INT_STAT p) _) (kept_wr _ _ _)
      (by simp) (by simp)

/-- CLR (R498). -/
theorem clr_clears (s : State) (b : Blk) (n : Nat × Nat) (p : Nat) (hp : pageOf p = some (b, n)) (hb : b ≠ .rng) :
    ∃ t, exec (.clr p) s = .next t ∧ t.rd (R.GEN_RD_CNT p) = 0 ∧ t.rd (R.GEN_WR_CNT p) = 0 ∧ t.rd (R.GEN_IGN_CNT p) = 0 ∧
      t.rd (R.ERR_INFO p) = 0 ∧ t.rd (R.ERR_ADDR_LO p) = 0 ∧ t.rd (R.ERR_ADDR_HI p) = 0 ∧ t.mem = s.mem ∧ t.ops = s.ops ∧
      t.depCtr = s.depCtr ∧ t.rd (R.INT_STAT p) = s.rd (R.INT_STAT p) := by
  obtain ⟨⟨hmem, hops, hdep, hpend⟩, hzero, hint⟩ := clearPage_spec s hp
  have hex : exec (.clr p) s = .next (s.clearPage p) :=
    (congrArg (fun u => keepQueue s (.next u)) (regWrite_clr s hp hb)).trans (keepQueue_of_pending hpend)
  exact ⟨_, hex, hzero _ (by simp), hzero _ (by simp), hzero _ (by simp), hzero _ (by simp), hzero _ (by simp), hzero _ (by simp),
    hmem, hops, hdep, hint⟩

/-- A write of 1 to VALID (R470). -/
theorem errLatch_cleared (s : State) (b : Blk) (n : Nat × Nat) (p : Nat) (v : Word32) (hp : pageOf p = some (b, n)) (hb : b ≠ .rng)
    (hv : bit v 31 = true) :
    ∃ t, exec (.errLatchClear (R.ERR_INFO p) v) s = .next t ∧ t = { s with regs := t.regs } ∧ t.rd (R.ERR_INFO p) = 0 ∧
      t.rd (R.ERR_ADDR_LO p) = 0 ∧ t.rd (R.ERR_ADDR_HI p) = 0 ∧
      RegsKept s t [R.ERR_INFO p, R.ERR_ADDR_LO p, R.ERR_ADDR_HI p, R.GEN_WR_CNT p, R.GEN_IGN_CNT p] := by
  have h1 : R.ERR_INFO p % 4096 = 0x28 := by simp only [R.ERR_INFO]; omega
  have h2 : R.ERR_INFO p / 4096 = p := by simp only [R.ERR_INFO]; omega
  obtain ⟨x, i⟩ := n
  generalize hg : (writeFields (fieldsAt (R.ERR_INFO p)) (s.rd (R.ERR_INFO p)) v).2 = g
  obtain ⟨r, hr⟩ := countWrite_frame s p g
  have heq : s.regWrite (R.ERR_INFO p) v = (s.countWrite p g).errClear p := hg ▸ regWrite_errInfo s hp hb hv
  have hex : exec (.errLatchClear (R.ERR_INFO p) v) s = .next ((s.countWrite p g).errClear p) := by
    show execErrLatchClear (R.ERR_INFO p) v s = _
    rw [execErrLatchClear, h2, hp]
    simp only [h1, true_or, if_true]
    rw [heq, keepQueue_of_pending]
    rw [hr]
    rfl
  obtain ⟨z1, z2, z3⟩ := rd_errClear (s.countWrite p g) p
  exact ⟨_, hex, by rw [hr]; rfl, z1, z2, z3, kept_trans (countWrite_kept s p g) (errClear_kept _ p) (by simp) (by simp)⟩

/-- A read of a _LO counter (R499). -/
theorem counterLo_latches (s : State) (req a : Nat) (h : latchingAt a = true) (hlo : latchingAt (a - 4) = false) (ha : a ≠ R.UAR_RXD) :
    ∃ t, exec (.counterLoRead req a) s = .next t ∧ t = { s with regs := t.regs, latched := t.latched, outbox := t.outbox } ∧
      t.outbox = s.outbox ++ [.regData req a (s.readReg a)] ∧
      Map.get? t.latched (req * 2 ^ 32 + a + 4) = some (s.readReg (a + 4)) ∧
      (∀ k, k ≠ req * 2 ^ 32 + a + 4 → Map.get? t.latched k = Map.get? s.latched k) ∧ RegsKept s t [R.GEN_RD_CNT (a / 4096)] := by
  have hex : exec (.counterLoRead req a) s = .next ((s.regRead req a).2.emit (.regData req a (s.regRead req a).1)) := by
    show execCounterLoRead req a s = _
    rw [execCounterLoRead, if_pos h, keepQueue_of_pending]
    rw [regRead_lo s req h hlo ha]
    rfl
  rw [regRead_lo s req h hlo ha] at hex
  exact ⟨_, hex, rfl, rfl, Map.get?_set_self _ _ _, fun k hk => Map.get?_set_ne _ _ hk, kept_wr s _ _⟩

/-- Settles O46, clause by clause. -/
theorem registerCommands : Obligations.RegisterCommands :=
  ⟨uarBaud_taken, uarBaud_refused, hostWrite_refused, msixData_written, intSet_sets, clr_clears, errLatch_cleared, counterLo_latches⟩

end Sys2Proof.Proofs
end

section
/-! PROOFS. SRAM splits, DRAM shares and mesh links (O1). -/
namespace Sys2Proof.Machine
open Sys2Proof

namespace State

/-! ### One field of a register -/

/-- Setting one field of a register writes that register alone. -/
theorem wrF_onlyRegs (s : State) (a hi lo x : Nat) : OnlyRegs s (s.wrF a hi lo x) [a] := ⟨rfl, kept_wr s a _⟩

/-- A field just set reads as what was put there, cut to its width. -/
theorem rdF_wrF_self (s : State) (a : Nat) {hi lo : Nat} (x : Nat) (h : hi < 32) :
    (s.wrF a hi lo x).rdF a hi lo = x % 2 ^ (hi + 1 - lo) := by
  rw [rdF, wrF_eq, rd_wr_self, fld_setFld_self _ _ _ _ h]

/-- A field apart from the one set is as it was. -/
theorem rdF_wrF_ne (s : State) (a : Nat) {hi lo hi' lo' : Nat} (x : Nat) (h' : hi' < 32) (hd : hi' < lo ∨ hi < lo') :
    (s.wrF a hi lo x).rdF a hi' lo' = s.rdF a hi' lo' := by
  rw [rdF, wrF_eq, rd_wr_self, fld_setFld_ne _ _ _ _ _ _ h' hd, rdF]

/-- A field is below two to the power of its width. -/
theorem rdF_lt (s : State) (a hi lo : Nat) : s.rdF a hi lo < 2 ^ (hi + 1 - lo) := Nat.mod_lt _ (Nat.two_pow_pos _)

/-! ### DRAM shares (R174) -/

/-- The shares of a port are one field of a whole word. -/
theorem fieldsAt_drpShare {k : Nat} (h : k < 12) : fieldsAt (R.DRP_SHARE k) = [rw 31 0] := by
  revert k
  decide +kernel

/-- A field that is the whole word takes the word. -/
theorem writeFields_whole (old v : Word32) : (writeFields [rw 31 0] old v).1 = v := by
  have hfit : FieldsFit [rw 31 0] := ⟨by simp [rw, Fld.any], List.pairwise_singleton _ _⟩
  refine BitVec.eq_of_getLsbD_eq fun i hi => ?_
  have hb := bit_writeFields_in old v hfit (List.mem_singleton_self _) (i := i) (Nat.zero_le _) (by simp only [rw, Fld.any]; omega)
  have hv : fld v 31 0 < 2 ^ 32 := Nat.mod_lt _ (by decide)
  exact hb.trans (if_pos ⟨Nat.zero_le _, show fld v 31 0 ≤ 2 ^ 32 - 1 by omega⟩)

/-! ### Mesh links (R29) -/

/-- A link just set is the link at its key; every other is as it was. -/
theorem link_set (s : State) (j k : Nat) (l : MeshLink) :
    ({ s with mesh := Map.set s.mesh k l } : State).link j = if j = k then l else s.link j := by
  simp only [link, Map.get, Map.get?_set]
  split <;> rfl

/-- Raising a bit on several pages keeps every register but their INT_STAT. -/
theorem raiseAll_kept (s : State) (ps : List Nat) (b : Nat) : RegsKept s (s.raiseAll ps b) (ps.map R.INT_STAT) := by
  induction ps generalizing s with
  | nil => exact kept_refl s _
  | cons p ps ih => exact kept_trans (raise_kept s p b) (ih (s.raise p b)) (by simp) (by simp +contextual)

/-- The bits of a power of two. -/
theorem bit_two_pow {b : Nat} (h : b < 32) (i : Nat) : bit (BitVec.ofNat 32 (2 ^ b)) i = decide (b = i) := by
  rw [bit, BitVec.getLsbD_ofNat, Nat.testBit_two_pow]
  by_cases hi : b = i
  · simp [← hi, h]
  · simp [hi]

/-- A bit of INT_STAT just raised is set. -/
theorem rdB_raise_self (s : State) (p b : Nat) (h : b < 32) : (s.raise p b).rdB (R.INT_STAT p) b = true := by
  rw [rdB, rd_raise, if_pos rfl, bit_or, bit_two_pow h]
  simp

/-- A bit of INT_STAT that is set stays set as others are raised. -/
theorem rdB_raise_of_set (s : State) (p b : Nat) {q c : Nat} (h : s.rdB (R.INT_STAT q) c = true) :
    (s.raise p b).rdB (R.INT_STAT q) c = true := by
  rw [rdB, rd_raise]
  split
  · rename_i he
    rw [← rd_canon he, bit_or]
    simp [show bit (s.rd (R.INT_STAT q)) c = true from h]
  · exact h

/-- A bit raised on several pages is set on each of them. -/
theorem rdB_raiseAll (s : State) {ps : List Nat} (b : Nat) (hb : b < 32) {q : Nat} (h : q ∈ ps ∨ s.rdB (R.INT_STAT q) b = true) :
    (s.raiseAll ps b).rdB (R.INT_STAT q) b = true := by
  induction ps generalizing s with
  | nil => exact h.resolve_left (by simp)
  | cons p ps ih =>
    refine ih (s.raise p b) ?_
    rcases h with h | h
    · rcases List.mem_cons.1 h with rfl | h
      · exact .inr (rdB_raise_self s q b hb)
      · exact .inl h
    · exact .inr (rdB_raise_of_set s p b h)

/-- Messages whose way is held are put back in the order they were sent. -/
theorem meshGo_of_held (s : State) (h : ∀ m ∈ s.meshQ, s.meshHeld m.src m.dst = true) : s.meshGo = s := by
  have hfold (l : List MeshMsg) (q : List MeshMsg) (hl : ∀ m ∈ l, s.meshHeld m.src m.dst = true) :
      l.foldl (fun u m => if u.meshWaits m.cls m.src m.dst then u.meshPut m else u.meshArrive m) { s with meshQ := q } =
        { s with meshQ := q ++ l } := by
    induction l generalizing q with
    | nil => simp
    | cons m l ih =>
      rw [List.forall_mem_cons] at hl
      have hw : ({ s with meshQ := q } : State).meshWaits m.cls m.src m.dst = true := by
        rw [meshWaits, show ({ s with meshQ := q } : State).meshHeld m.src m.dst = true from hl.1, Bool.true_or]
      rw [List.foldl_cons, if_pos hw, meshPut, ih _ hl.2, List.append_assoc, List.singleton_append]
  exact (hfold s.meshQ [] h).trans (by simp)

end State
end Sys2Proof.Machine

namespace Sys2Proof.Proofs
open Sys2Proof Sys2Proof.Machine Sys2Proof.Machine.State

/-- CORE_SRAM_SPLIT_WRITE (R22). -/
theorem coreSramSplit_written (s : State) (c : Nat) (v : Word32) (hc : c < 384) :
    ∃ t, exec (.coreSramSplitWrite c v) s = .next t ∧ RegWritten s t (R.CORE_SRAM_SPLIT c) v := by
  obtain ⟨r, hr⟩ := plainWrite_frame s (R.CORE_SRAM_SPLIT c) v
  refine ⟨_, ?_, plainWrite_spec s _ v (by simp only [R.CORE_SRAM_SPLIT]; omega)⟩
  show execCoreSramSplitWrite c v s = _
  rw [execCoreSramSplitWrite, if_pos hc, keepQueue_of_pending (by rw [hr])]

/-- CLU_SRAM_SPLIT_WRITE (R22). -/
theorem cluSramSplit_written (s : State) (u : Nat) (v : Word32) (hu : u < 64) :
    ∃ t, exec (.cluSramSplitWrite u v) s = .next t ∧ RegWritten s t (R.CLU_SRAM_SPLIT u) v := by
  obtain ⟨r, hr⟩ := plainWrite_frame s (R.CLU_SRAM_SPLIT u) v
  refine ⟨_, ?_, plainWrite_spec s _ v (by simp only [R.CLU_SRAM_SPLIT]; omega)⟩
  show execCluSramSplitWrite u v s = _
  rw [execCluSramSplitWrite, if_pos hu, keepQueue_of_pending (by rw [hr])]

/-- SRAM_SPLIT_APPLY of a core (R22). -/
theorem coreSplit_applied (s : State) (c : Nat) (hc : c < 384) (hb : s.coreBusy c = false) :
    ∃ t, exec (.sramSplitApply false c) s = .next t ∧ OnlyRegs s t [R.CORE_SRAM_SPLIT c] ∧
      t.rdF (R.CORE_SRAM_SPLIT c) 4 0 = s.rdF (R.CORE_SRAM_SPLIT c) 20 16 ∧
      t.rdF (R.CORE_SRAM_SPLIT c) 31 5 = s.rdF (R.CORE_SRAM_SPLIT c) 31 5 := by
  refine ⟨_, ?_, wrF_onlyRegs s (R.CORE_SRAM_SPLIT c) 4 0 (s.rdF (R.CORE_SRAM_SPLIT c) 20 16), ?_, ?_⟩
  · show execSramSplitApply false c s = _
    rw [execSramSplitApply, if_neg (by decide), if_pos ⟨hc, hb⟩, keepQueue_of_pending (by rfl)]
  · rw [rdF_wrF_self _ _ _ (by decide), Nat.mod_eq_of_lt (rdF_lt s _ 20 16)]
  · exact rdF_wrF_ne _ _ _ (by decide) (.inr (by decide))

/-- SRAM_SPLIT_APPLY of a cluster (R22). -/
theorem cluSplit_applied (s : State) (u : Nat) (hu : u < 64) (hb : s.clusterBusy u = false) :
    ∃ t, exec (.sramSplitApply true u) s = .next t ∧ OnlyRegs s t [R.CLU_SRAM_SPLIT u] ∧
      t.rdF (R.CLU_SRAM_SPLIT u) 7 0 = s.rdF (R.CLU_SRAM_SPLIT u) 23 16 ∧
      t.rdF (R.CLU_SRAM_SPLIT u) 31 8 = s.rdF (R.CLU_SRAM_SPLIT u) 31 8 := by
  refine ⟨_, ?_, wrF_onlyRegs s (R.CLU_SRAM_SPLIT u) 7 0 (s.rdF (R.CLU_SRAM_SPLIT u) 23 16), ?_, ?_⟩
  · show execSramSplitApply true u s = _
    rw [execSramSplitApply, if_pos rfl, if_pos ⟨hu, hb⟩, keepQueue_of_pending (by rfl)]
  · rw [rdF_wrF_self _ _ _ (by decide), Nat.mod_eq_of_lt (rdF_lt s _ 23 16)]
  · exact rdF_wrF_ne _ _ _ (by decide) (.inr (by decide))

/-- DRP_SHARE_WRITE (R174). -/
theorem drpShare_written (s : State) (k : Nat) (v : Word32) (hk : k < 12) :
    ∃ t, exec (.drpShareWrite k v) s = .next t ∧
      OnlyRegs s t [R.DRP_SHARE k, R.DRP_FENCE_STAT k, R.GEN_WR_CNT (R.DRP_SHARE k / 4096), R.GEN_IGN_CNT (R.DRP_SHARE k / 4096)] ∧
      t.rd (R.DRP_SHARE k) = (if fld v 7 0 + fld v 15 8 + fld v 23 16 + fld v 31 24 = 100 then v else s.rd (R.DRP_SHARE k)) ∧
      t.rdF (R.DRP_FENCE_STAT k) 29 29 = (if fld v 7 0 + fld v 15 8 + fld v 23 16 + fld v 31 24 = 100 then 0 else 1) := by
  have hne : canon (R.DRP_SHARE k) ≠ canon (R.DRP_FENCE_STAT k) :=
    canon_ne_of_off (by simp only [R.DRP_SHARE, R.DRP_FENCE_STAT]; omega)
  have hoff : 256 ≤ R.DRP_SHARE k % 4096 := by simp only [R.DRP_SHARE]; omega
  have hex : exec (.drpShareWrite k v) s = execDrpShareWrite k v s := rfl
  by_cases h : fld v 7 0 + fld v 15 8 + fld v 23 16 + fld v 31 24 = 100
  · obtain ⟨⟨hf, hkept⟩, hv, -, -⟩ := plainWrite_spec s (R.DRP_SHARE k) v hoff
    refine ⟨(s.plainWrite (R.DRP_SHARE k) v).wrF (R.DRP_FENCE_STAT k) 29 29 0, ?_, ⟨?_, ?_⟩, ?_, ?_⟩
    · rw [hex, execDrpShareWrite, if_pos hk, if_pos h, keepQueue_of_pending]
      rw [wrF_eq, wr_pending, hf]
    · rw [hf]; rfl
    · exact kept_trans hkept (wrF_onlyRegs _ _ 29 29 0).2 (by simp +contextual) (by simp)
    · rw [if_pos h, wrF_eq, rd_wr_ne _ _ hne, hv, fieldsAt_drpShare hk, writeFields_whole]
    · rw [if_pos h, rdF_wrF_self _ _ _ (by decide), Nat.zero_mod]
  · obtain ⟨⟨hf, hkept⟩, -, -⟩ := ignoredWrite_spec s (R.DRP_SHARE k)
    refine ⟨(s.ignoredWrite (R.DRP_SHARE k)).wrF (R.DRP_FENCE_STAT k) 29 29 1, ?_, ⟨?_, ?_⟩, ?_, ?_⟩
    · rw [hex, execDrpShareWrite, if_pos hk, if_neg h, keepQueue_of_pending]
      rw [wrF_eq, wr_pending, hf]
    · rw [hf]; rfl
    · exact kept_trans hkept (wrF_onlyRegs _ _ 29 29 1).2 (by simp +contextual) (by simp)
    · rw [if_neg h, wrF_eq, rd_wr_ne _ _ hne]
      refine hkept _ ?_
      simp only [List.mem_cons, List.not_mem_nil, or_false, forall_eq_or_imp, forall_eq]
      exact ⟨canon_ne_of_off (by simp only [R.GEN_WR_CNT]; omega), canon_ne_of_off (by simp only [R.GEN_IGN_CNT]; omega)⟩
    · rw [if_neg h, rdF_wrF_self _ _ _ (by decide)]
      rfl

/-- ARBITRATION_WINDOW (R24). -/
theorem shares_inForce (s : State) (k : Nat) (hk : k < 12) :
    ∃ t, exec (.arbitrationWindow k) s = .next t ∧ t = { s with ms := { s.ms with shareNow := t.ms.shareNow } } ∧
      t.shareNow k = s.rd (R.DRP_SHARE k) ∧ ∀ j, j ≠ k → t.shareNow j = s.shareNow j := by
  refine ⟨{ s with ms := { s.ms with shareNow := Map.put s.ms.shareNow 0x0A0A2828 k (s.rd (R.DRP_SHARE k)) } }, ?_, rfl,
    (Map.get_put ..).trans (if_pos rfl), fun j hj => (Map.get_put ..).trans (if_neg hj)⟩
  show execArbitrationWindow k s = _
  rw [execArbitrationWindow, if_pos hk, keepQueue_of_pending (by rfl)]

/-- MESH_BUNDLE_FAIL (R29). -/
theorem meshLink_drained (s : State) (die edge k : Nat) (hk : linkKey die edge = some k) :
    ∃ t, exec (.meshBundleFail die edge) s = .next t ∧
      t = { s with mesh := t.mesh, regs := t.regs, outbox := t.outbox, msix := t.msix } ∧
      t.link k = ⟨(s.link k).failed + 1, (s.link k).half || decide (4 ≤ (s.link k).failed), true⟩ ∧
      (∀ j, j ≠ k → t.link j = s.link j) ∧ RegsKept s t ((linkEnds k).map (fun d => R.INT_STAT (0x130 + d))) ∧
      (∀ d ∈ linkEnds k, t.rdB (R.INT_STAT (0x130 + d)) 4 = true) := by
  generalize hl : (⟨(s.link k).failed + 1, (s.link k).half || decide (4 ≤ (s.link k).failed), true⟩ : MeshLink) = l
  generalize hu : ({ s with mesh := Map.set s.mesh k l } : State) = u
  obtain ⟨r, o, m, hr⟩ := raiseAll_frame u ((linkEnds k).map (0x130 + ·)) 4
  have hlink (j : Nat) : (u.raiseAll ((linkEnds k).map (0x130 + ·)) 4).link j = if j = k then l else s.link j := by
    rw [hr, ← hu]
    exact link_set s j k l
  refine ⟨u.raiseAll ((linkEnds k).map (0x130 + ·)) 4, ?_, ?_, ?_, fun j hj => ?_, ?_, fun d hd => ?_⟩
  · show execMeshBundleFail die edge s = _
    simp only [execMeshBundleFail, hk, hl, hu]
    exact keepQueue_of_pending (by rw [hr, ← hu])
  · rw [hr, ← hu]
  · rw [hlink, if_pos rfl]
  · rw [hlink, if_neg hj]
  · have hkept := raiseAll_kept u ((linkEnds k).map (0x130 + ·)) 4
    rw [List.map_map] at hkept
    exact kept_trans (show RegsKept s u [] from fun a _ => rd_congr (by rw [← hu]) a) hkept (by simp) (fun x hx => hx)
  · exact rdB_raiseAll u 4 (by decide) (.inl (List.mem_map_of_mem hd))

/-- MESH_LINK_REMAP where every message held has its way held by another link (R28, R29). -/
theorem meshLink_remapped (s : State) (die edge k : Nat) (hk : linkKey die edge = some k)
    (hq : ∀ m ∈ s.meshQ, ({ s with mesh := Map.set s.mesh k { s.link k with draining := false } } : State).meshHeld m.src m.dst = true) :
    ∃ t, exec (.meshLinkRemap die edge) s = .next t ∧ t = { s with mesh := t.mesh } ∧
      t.link k = { s.link k with draining := false } ∧ ∀ j, j ≠ k → t.link j = s.link j := by
  refine ⟨{ s with mesh := Map.set s.mesh k { s.link k with draining := false } }, ?_, rfl, ?_, fun j hj => ?_⟩
  · show execMeshLinkRemap die edge s = _
    simp only [execMeshLinkRemap, hk]
    rw [meshGo_of_held _ hq, keepQueue_of_pending (by rfl)]
  · rw [link_set, if_pos rfl]
  · rw [link_set, if_neg hj]

/-- Settles O1, clause by clause; a re-mapped link with no message held is one all of whose messages stay held. -/
theorem splitShareMesh : Obligations.SplitShareMesh :=
  ⟨coreSramSplit_written, cluSramSplit_written, coreSplit_applied, cluSplit_applied, drpShare_written, shares_inForce, meshLink_drained,
    fun s die edge k hk hq => meshLink_remapped s die edge k hk (by simp [hq]), meshLink_remapped⟩

end Sys2Proof.Proofs
end

section
/-! PROOFS. What shared operations keep: registers on a set of addresses, and the states that differ in registers and what is sent alone. -/
namespace Sys2Proof.Machine
open Sys2Proof

/-! ### Relations between a state and a later one -/

/-- Every register at an address of `P` holds what it held. -/
def KeepsOn (P : Nat → Prop) (s t : State) : Prop := ∀ a, P a → t.rd a = s.rd a

/-- Registers and what is sent change, and nothing else. -/
def RegsSent (s t : State) : Prop := t = { s with regs := t.regs, outbox := t.outbox, msix := t.msix }

/-- A relation that holds of every step of a fold, is reflexive and composes holds of the fold. -/
theorem foldl_rel {α : Type} {R : State → State → Prop} (hrefl : ∀ s, R s s) (htrans : ∀ s t u, R s t → R t u → R s u)
    {f : State → α → State} {l : List α} (h : ∀ s, ∀ x ∈ l, R s (f s x)) (s : State) : R s (l.foldl f s) := by
  induction l generalizing s with
  | nil => exact hrefl s
  | cons x l ih =>
    exact htrans s (f s x) _ (h s x (by simp)) (ih (fun s y hy => h s y (List.mem_cons_of_mem _ hy)) _)

/-- A relation that holds of both branches of a condition. -/
theorem rel_ite {R : State → State → Prop} {c : Prop} [Decidable c] {s t u : State} (ht : R s t) (hu : R s u) :
    R s (if c then t else u) := by
  split <;> assumption

theorem keepsOn_refl (P : Nat → Prop) (s : State) : KeepsOn P s s := fun _ _ => rfl

theorem keepsOn_trans {P : Nat → Prop} {s t u : State} (h : KeepsOn P s t) (h' : KeepsOn P t u) : KeepsOn P s u :=
  fun a ha => (h' a ha).trans (h a ha)

/-- Registers outside a list are kept where none of `P` is in it. -/
theorem keepsOn_of_kept {P : Nat → Prop} {s t : State} {l : List Nat} (h : RegsKept s t l) (hP : ∀ a, P a → ∀ b ∈ l, canon a ≠ canon b) :
    KeepsOn P s t := fun a ha => h a (hP a ha)

theorem keepsOn_of_regs {s t : State} (P : Nat → Prop) (h : t.regs = s.regs) : KeepsOn P s t := fun a _ => State.rd_congr h a

theorem keepsOn_mono {P Q : Nat → Prop} {s t : State} (h : KeepsOn P s t) (hQ : ∀ a, Q a → P a) : KeepsOn Q s t :=
  fun a ha => h a (hQ a ha)

theorem regsSent_refl (s : State) : RegsSent s s := rfl

theorem regsSent_trans (s t u : State) (h : RegsSent s t) (h' : RegsSent t u) : RegsSent s u := by
  rw [RegsSent, h', h]

/-- Registers below the pages that are mirrored stand for themselves. -/
theorem canon_low {a : Nat} (h : a < 0x50000) : canon a = a := by
  unfold canon
  simp only
  split_ifs <;> omega

/-- No register of a low page is one of a high page. -/
theorem canon_ne_of_low {a b : Nat} (ha : a < 0x10000) (hb : 0x10000 ≤ b) : canon a ≠ canon b := by
  unfold canon
  simp only
  split_ifs <;> omega

namespace State

theorem regsSent_wr (s : State) (a : Nat) (v : Word32) : RegsSent s (s.wr a v) := rfl

theorem regsSent_raise (s : State) (p b : Nat) : RegsSent s (s.raise p b) := by
  obtain ⟨o, m, h⟩ := raise_frame s p b
  rw [RegsSent, h]
  rfl

theorem regsSent_raiseAll (s : State) (ps : List Nat) (b : Nat) : RegsSent s (s.raiseAll ps b) := by
  obtain ⟨r, o, m, h⟩ := raiseAll_frame s ps b
  rw [RegsSent, h]

theorem keepsOn_wr {P : Nat → Prop} (s : State) {a : Nat} (v : Word32) (h : ∀ b, P b → canon b ≠ canon a) : KeepsOn P s (s.wr a v) :=
  fun b hb => rd_wr_ne s v (h b hb)

theorem keepsOn_raise {P : Nat → Prop} (s : State) {p : Nat} (b : Nat) (h : ∀ a, P a → canon a ≠ canon (R.INT_STAT p)) :
    KeepsOn P s (s.raise p b) := keepsOn_of_kept (raise_kept s p b) (by simpa using h)

theorem keepsOn_raiseAll {P : Nat → Prop} (s : State) {ps : List Nat} (b : Nat) (h : ∀ a, P a → ∀ p ∈ ps, canon a ≠ canon (R.INT_STAT p)) :
    KeepsOn P s (s.raiseAll ps b) :=
  keepsOn_of_kept (raiseAll_kept s ps b) (by simpa using h)

/-! ### Ports and completions -/

/-- The STAT register of a port is not mirrored. -/
theorem canon_portStat (p : Nat) : canon (preg p 0x104) = preg p 0x104 := by
  unfold canon preg portPage
  simp only
  split_ifs <;> omega

/-- Two ports have different STAT registers. -/
theorem canon_portStat_ne {p q : Nat} (hp : p < 36) (hq : q < 36) (h : p ≠ q) : canon (preg p 0x104) ≠ canon (preg q 0x104) := by
  rw [canon_portStat, canon_portStat]
  unfold preg portPage
  split_ifs <;> omega

/-- Interrupts and messages follow: of registers only INT_STAT of some pages changes, and beside registers what is sent and the router. -/
def Notifies (s t : State) : Prop :=
  t = { s with regs := t.regs, outbox := t.outbox, msix := t.msix, router := t.router } ∧ KeepsOn (fun a => a % 4096 ≠ 0x20) s t

theorem notifies_refl (s : State) : Notifies s s := ⟨rfl, keepsOn_refl _ s⟩

theorem notifies_trans (s t u : State) (h : Notifies s t) (h' : Notifies t u) : Notifies s u :=
  ⟨by rw [h'.1, h.1], keepsOn_trans h.2 h'.2⟩

theorem intStat_off (p : Nat) : R.INT_STAT p % 4096 = 0x20 := by simp only [R.INT_STAT]; omega

theorem notifies_raise (s : State) (p b : Nat) : Notifies s (s.raise p b) :=
  ⟨by rw [regsSent_raise s p b], keepsOn_raise s b fun _ ha => canon_ne_of_off (by rw [intStat_off]; exact ha)⟩

theorem notifies_raiseAll (s : State) (ps : List Nat) (b : Nat) : Notifies s (s.raiseAll ps b) :=
  foldl_rel notifies_refl notifies_trans (fun s p _ => notifies_raise s p b) s

/-- Notices go to the router alone. -/
theorem notifies_sendNotices (s : State) (d : Nat) : Notifies s (s.sendNotices d) := by
  refine foldl_rel notifies_refl notifies_trans ?_ s
  exact fun u _ _ => ⟨rfl, keepsOn_of_regs _ rfl⟩

/-- A port's STATE is written; interrupts and notices follow. -/
theorem portTo_notifies (s : State) (p st : Nat) : Notifies (s.wrF (preg p 0x104) 31 28 st) (s.portTo p st) := by
  unfold portTo
  generalize s.wrF (preg p 0x104) 31 28 st = u
  have hint : Notifies u (if s.portState p = 5 ∧ st ≠ 5 then u.raise (portPage p) 0
      else if s.portState p ≠ 5 ∧ st = 5 then u.raise (portPage p) 1 else u) :=
    rel_ite (notifies_raise u _ 0) (rel_ite (notifies_raise u _ 1) (notifies_refl u))
  simp only
  split
  · refine notifies_trans _ _ _ hint (foldl_rel notifies_refl notifies_trans (fun v d _ => ?_) _)
    have hempty := rel_ite (c := ((List.range 32).filter (fun c => bit (v.nbrPorts d c) p)).any (fun c => (v.livePorts d c).isEmpty) = true)
      (notifies_raiseAll v fbdPages 1) (notifies_refl v)
    exact notifies_trans _ _ _ hempty (rel_ite (notifies_refl _) (notifies_sendNotices _ d))
  · exact hint

/-- A port just moved has the STATE it was given. -/
theorem portState_portTo_self (s : State) (p st : Nat) : (s.portTo p st).portState p = st % 16 := by
  rw [portState, rdF, (portTo_notifies s p st).2 _ (by unfold preg; omega), wrF_eq, rd_wr_self]
  exact fld_setFld_self _ _ _ _ (by decide)

/-- Every other port has the STATE it had. -/
theorem portState_portTo_ne (s : State) {p q : Nat} (st : Nat) (hp : p < 36) (hq : q < 36) (h : q ≠ p) :
    (s.portTo p st).portState q = s.portState q := by
  rw [portState, rdF, (portTo_notifies s p st).2 _ (by unfold preg; omega), wrF_eq, rd_wr_ne _ _ (canon_portStat_ne hq hp h)]
  rfl

/-- Signals of a completion (R113, R114): of registers, a FAULT word and INT_STAT of the tenant's page at most. -/
theorem signalDep_spec (s : State) (t : Nat) (c : CmdRec) (code : Byte) :
    (s.signalDep t c code = { s with regs := (s.signalDep t c code).regs, outbox := (s.signalDep t c code).outbox
                                     msix := (s.signalDep t c code).msix, depCtr := (s.signalDep t c code).depCtr }) ∧
    RegsKept s (s.signalDep t c code) [R.CRG_CTR_FAULT t (CmdRecF.sigCtr c / 32), R.INT_STAT (0x10 + t)] := by
  unfold signalDep
  split
  · simp only
    split
    · exact ⟨rfl, kept_refl _ _⟩
    · refine ⟨by rw [regsSent_raise]; rfl, ?_⟩
      exact kept_trans (kept_wr (s.depSet t (CmdRecF.sigCtr c) _) _ _) (raise_kept _ _ _) (by simp) (by simp)
  · exact ⟨rfl, kept_refl _ _⟩

/-- An item's arrival (R127, R130): of registers, a count of its queue and INT_STAT of the tenant's page at most. -/
theorem storeItem_spec (s : State) (t q prio : Nat) (bs : List Byte) :
    (s.storeItem t q prio bs = { s with regs := (s.storeItem t q prio bs).regs, outbox := (s.storeItem t q prio bs).outbox
                                        msix := (s.storeItem t q prio bs).msix, evq := (s.storeItem t q prio bs).evq
                                        freeCtr := (s.storeItem t q prio bs).freeCtr }) ∧
    RegsKept s (s.storeItem t q prio bs) [R.EVQ_GAP_CNT t q, R.EVQ_DISC_CNT t q, R.INT_STAT (0x50 + t)] := by
  unfold storeItem
  split
  · simp only
    split
    · split
      · exact ⟨rfl, kept_refl _ _⟩
      · exact ⟨rfl, kept_refl _ _⟩
    · refine ⟨by rw [regsSent_raise]; rfl, ?_⟩
      exact kept_trans (kept_wr (s.evqSet t q _) _ _) (raise_kept _ _ _) (by simp) (by simp)
  · exact ⟨rfl, kept_mono (kept_wr s _ _) (by simp)⟩

/-- A completion (R113, R114) changes records, counters, event queues, registers and what is sent; of registers DONE of the ring and those of
its signal and its item. -/
theorem complete_spec (s : State) (h : Nat) (o : RunOp) :
    (s.complete h o = { s with ops := Map.erase s.ops h, regs := (s.complete h o).regs, outbox := (s.complete h o).outbox
                               msix := (s.complete h o).msix, depCtr := (s.complete h o).depCtr, evq := (s.complete h o).evq
                               freeCtr := (s.complete h o).freeCtr }) ∧
    RegsKept s (s.complete h o) [R.CRG_RING_DONE o.tenant o.ring, R.CRG_CTR_FAULT o.tenant (CmdRecF.sigCtr o.cmd / 32),
      R.INT_STAT (0x10 + o.tenant), R.EVQ_GAP_CNT o.tenant (CmdRecF.evq o.cmd), R.EVQ_DISC_CNT o.tenant (CmdRecF.evq o.cmd),
      R.INT_STAT (0x50 + o.tenant)] := by
  unfold complete
  simp only
  generalize hu : ({ s.used with ops := Map.erase s.ops h } : State).wr (R.CRG_RING_DONE o.tenant o.ring)
    (({ s.used with ops := Map.erase s.ops h } : State).rd (R.CRG_RING_DONE o.tenant o.ring) + 1) = u
  have hku : RegsKept s u [R.CRG_RING_DONE o.tenant o.ring] := by
    rw [← hu]
    exact kept_wr ({ s.used with ops := Map.erase s.ops h } : State) _ _
  obtain ⟨hf, hk⟩ := signalDep_spec u o.tenant o.cmd o.code
  generalize u.signalDep o.tenant o.cmd o.code = v at hf hk
  have hkv := kept_trans (n := [R.CRG_RING_DONE o.tenant o.ring, R.CRG_CTR_FAULT o.tenant (CmdRecF.sigCtr o.cmd / 32),
      R.INT_STAT (0x10 + o.tenant), R.EVQ_GAP_CNT o.tenant (CmdRecF.evq o.cmd), R.EVQ_DISC_CNT o.tenant (CmdRecF.evq o.cmd),
      R.INT_STAT (0x50 + o.tenant)]) hku hk (by simp) (by simp)
  split
  · obtain ⟨hf', hk'⟩ := storeItem_spec v.used o.tenant (CmdRecF.evq o.cmd) (CmdRecF.evtPrio o.cmd) (completionItem o v.ft v.free)
    refine ⟨?_, kept_trans hkv (show RegsKept v _ _ from hk') (fun x hx => hx) (by simp)⟩
    rw [hf', hf, ← hu]
    rfl
  · refine ⟨?_, hkv⟩
    rw [hf, ← hu]
    rfl

end State
end Sys2Proof.Machine
end

section
/-! PROOFS. Inputs, resets and fatal errors (O41). -/
namespace Sys2Proof.Machine
open Sys2Proof

/-! ### Filtered maps and memory -/

/-- A key every entry of which a filter keeps reads as it did. -/
theorem Map.get?_filter_of {α : Type} (m : Map α) {k : Nat} {q : Nat × α → Bool} (h : ∀ p, p.1 = k → q p = true) :
    Map.get? (m.filter q) k = Map.get? m k := by
  rw [Map.get?, Map.get?, Map.find_filter_of m k q h]

/-- A byte whose address a filter keeps reads as it did. -/
theorem Mem.get_filter_of (m : Mem) {a : Nat} {q : Host.Cell → Bool} (h : ∀ p, p.1 = a → q p = true) : Mem.get (m.filter q) a = Mem.get m a := by
  rw [Mem.get, Mem.get, Mem.find_filter_of m a q h]

/-- A byte whose address a filter drops reads blank. -/
theorem Mem.get_filter_none (m : Mem) {a : Nat} {q : Host.Cell → Bool} (h : ∀ p, p.1 = a → q p = false) :
    Mem.get (m.filter q) a = Mem.blank := by
  rw [Mem.get, Mem.find_filter_none m a q h]
  rfl

/-- A value found passes a filter that keeps it. -/
theorem Map.get?_filter_of_some {α : Type} {m : Map α} {k : Nat} {v : α} {q : Nat × α → Bool} (h : Map.get? m k = some v)
    (hq : q (k, v) = true) : Map.get? (m.filter q) k = some v := by
  simp only [Map.get?, Option.map_eq_some_iff] at h ⊢
  obtain ⟨p, hp, rfl⟩ := h
  obtain ⟨hk, l, r, rfl, hl⟩ := List.find?_eq_some_iff_append.1 hp
  have hkey : p.1 = k := by simpa using hk
  refine ⟨p, ?_, rfl⟩
  rw [← hkey] at hq hl ⊢
  have hnone : (l.filter q).find? (fun x => x.1 == p.1) = none :=
    List.find?_eq_none.2 fun x hx => by simpa using hl x (List.mem_filter.1 hx).1
  rw [List.filter_append, List.filter_cons, if_pos hq, List.find?_append, hnone]
  simp

/-- A map whose values are changed reads as it did, changed. -/
theorem Map.get?_mapVals {α : Type} (m : Map α) (f : Nat → α → α) (k : Nat) : Map.get? (Map.mapVals m f) k = (Map.get? m k).map (f k) := by
  induction m with
  | nil => rfl
  | cons p m ih =>
    simp only [Map.get?, Map.mapVals, List.map_cons, List.find?_cons] at ih ⊢
    by_cases hp : p.1 = k
    · simp [hp]
    · have hb : (p.1 == k) = false := by simpa using hp
      simpa [hb] using ih

namespace State

/-! ### What a loss leaves (R155, R468) -/

/-- The registers of the PWR page (R484). -/
abbrev OnPwr (a : Nat) : Prop := a / 4096 = 5

theorem canon_ne_of_pwr {a b : Nat} (ha : OnPwr a) (hb : b / 4096 ≠ 5) : canon a ≠ canon b := by
  rw [canon_low (by unfold OnPwr at ha; omega)]
  intro h
  unfold OnPwr at ha
  rw [h] at ha
  unfold canon at ha
  simp only at ha
  split_ifs at ha <;> omega

/-- What the power-up sequence writes after the loss itself: registers off the PWR page, what is sent, the quotas, and the SEM's draws. -/
def Restores (s t : State) : Prop :=
  t = { s with regs := t.regs, outbox := t.outbox, msix := t.msix, freeCtr := t.freeCtr, sem := t.sem, ms := { s.ms with own := t.ms.own } } ∧
  KeepsOn OnPwr s t

theorem restores_refl (s : State) : Restores s s := ⟨rfl, keepsOn_refl _ s⟩

theorem restores_trans (s t u : State) (h : Restores s t) (h' : Restores t u) : Restores s u :=
  ⟨by rw [h'.1, h.1], keepsOn_trans h.2 h'.2⟩

theorem restores_wr (s : State) {a : Nat} (v : Word32) (h : a / 4096 ≠ 5) : Restores s (s.wr a v) :=
  ⟨rfl, keepsOn_wr s v fun _ hb => canon_ne_of_pwr hb h⟩

theorem restores_raise (s : State) {p : Nat} (b : Nat) (h : p ≠ 5) : Restores s (s.raise p b) :=
  ⟨by rw [regsSent_raise s p b], keepsOn_raise s b fun _ ha => canon_ne_of_pwr ha (by simp only [R.INT_STAT]; omega)⟩

theorem restores_raiseAll (s : State) {ps : List Nat} (b : Nat) (h : ∀ p ∈ ps, p ≠ 5) : Restores s (s.raiseAll ps b) :=
  foldl_rel restores_refl restores_trans (fun s p hp => restores_raise s b (h p hp)) s

theorem restores_drbgNow (s : State) : Restores s s.drbgNow.2 := by
  unfold drbgNow
  split
  · exact restores_refl s
  · exact ⟨rfl, keepsOn_of_regs _ rfl⟩

theorem restores_drbgTake (s : State) (n : Nat) : Restores s (s.drbgTake n).2 := by
  have hfresh : Restores s s.drbgFresh := by
    have hnow : Restores s { s.drbgNow.2.entropy.2 with sem := { s.drbgNow.2.entropy.2.sem with
        drbg := some (drbgReseed s.drbgNow.1 s.drbgNow.2.entropy.1), drbgReqs := 0 } } :=
      restores_trans _ _ _ (restores_drbgNow s) ⟨rfl, keepsOn_of_regs _ rfl⟩
    exact restores_trans _ _ _ hnow (restores_wr _ _ (by decide))
  have hfirst := rel_ite (c := (decide (2 ^ 20 ≤ s.sem.drbgReqs) && s.rdB R.RNG_STAT 29) = true) hfresh (restores_refl s)
  refine restores_trans _ _ _ (restores_trans _ _ _ hfirst (restores_drbgNow _)) ?_
  exact ⟨rfl, keepsOn_of_regs _ rfl⟩

theorem restores_chalDraw (s : State) : Restores s s.chalDraw :=
  restores_trans _ _ _ (restores_drbgTake s 48)
    (foldl_rel restores_refl restores_trans (fun s j hj => restores_wr s _ (by
      have := List.mem_range.1 hj
      simp only [R.SEM_CHAL]
      omega)) _)

theorem restores_spareStat (s : State) : Restores s s.spareStat := by
  unfold spareStat
  refine rel_ite (rel_ite (restores_refl s) ?_) (restores_wr s _ (by decide))
  exact restores_trans _ _ _ (restores_wr s _ (by decide)) (restores_raise _ 0 (by decide))

theorem restores_cutQuotas (s : State) (flash : Bool) (m n : Nat) : Restores s (s.cutQuotas flash m n) := by
  unfold cutQuotas
  refine restores_trans _ _ _ (restores_trans _ _ _ ?_ (restores_wr _ _ (by decide))) (restores_raiseAll _ 2 (by decide))
  exact ⟨rfl, keepsOn_of_regs _ rfl⟩

theorem restores_journalRegs (s r : State) : Restores r (journalRegs s r) := by
  have hfence (r : State) : Restores r (r.ms.fenced.foldl (fun u k =>
      let u := u.wrF (R.DRP_FENCE_STAT k) 31 30 2
      match portOfStack k with
      | some p => u.clrBits (preg p 0x204) (BitVec.ofNat 32 (2 ^ (k % 2)))
      | none => u) r) := by
    refine foldl_rel restores_refl restores_trans (fun u k _ => ?_) r
    have hw : Restores u (u.wrF (R.DRP_FENCE_STAT k) 31 30 2) := restores_wr u _ (by simp only [R.DRP_FENCE_STAT]; omega)
    simp only
    split
    · exact restores_trans _ _ _ hw (restores_wr _ _ (by unfold preg portPage; split <;> omega))
    · exact hw
  have hdies (r : State) : Restores r ((List.range 12).foldl (fun u k =>
      if s.rd (R.DRP_DIE_STAT k) = 0 then u else u.wr (R.DRP_DIE_STAT k) (s.rd (R.DRP_DIE_STAT k))) r) :=
    foldl_rel restores_refl restores_trans (fun u k _ => rel_ite (restores_refl u)
      (restores_wr u _ (by simp only [R.DRP_DIE_STAT]; omega))) r
  have htbl (r : State) : Restores r (if r.ms.tblA && r.ms.tblB then r else (r.setBits R.MPD_TBL_STAT 0x80000000#32).raiseAll mpdPages 4) :=
    rel_ite (restores_refl r) (restores_trans _ _ _ (restores_wr r _ (by decide)) (restores_raiseAll _ 4 (by decide)))
  unfold journalRegs
  refine rel_ite ?_ (restores_refl r)
  have h := restores_trans _ _ _ (restores_trans _ _ _ (hfence r) (hdies _)) (htbl _)
  exact rel_ite h (restores_trans _ _ _ h (restores_cutQuotas _ _ _ _))

/-- Reset, but for what survives a loss (R468): the state that the power-up sequence starts to fill. -/
def lossBase (s : State) : State :=
  { State.reset with
    pending := s.pending, outbox := s.outbox, freeCtr := s.freeCtr, clk := s.clk
    regs := s.regs.filter (fun p => keptReg p.1)
    ms := s.memAfter
    mem := s.mem.filter (fun c => decide (c.1 < uniEnd) && (Map.get s.memAfter.tiles Tile.none (c.1 / tileBytes)).st == .flash)
    tenants := s.tenants, kf := s.kf
    sem := { Sem.reset with admins := s.sem.admins, kak := s.sem.kak, kakSig := s.sem.kakSig, journal := s.sem.journal
                            modelGen := s.sem.modelGen, modelKey := s.sem.modelKey, journalKey := s.sem.journalKey, svn := s.sem.svn
                            images := s.sem.images, running := s.fwBoot, kfId := s.sem.kfId, raises := s.sem.raises }
    pwr := { Pwr.reset with acc := s.pwr.acc, main := s.pwr.main, locked := s.pwr.locked, alertHeld := s.pwr.alertHeld
                            temps := s.pwr.temps, errs := s.pwr.errs }
    uart := s.uart, jtag := s.jtag, smb := { s.smb with pulses := [], last := 0 } }

/-- The steps that fill it, one after another. -/
theorem lose_eq (s : State) : ∃ u r, u = s.rungSettle ∧ r = (journalRegs u ((u.lossBase.wr R.SEM_STAT (u.rd R.SEM_STAT &&& 0x05000000#32)).wr
      R.SEM_KF_STAT (u.rd R.SEM_KF_STAT &&& 0x300#32))).spareStat ∧
    s.lose = (if (u.memAfter.tiles.filter (fun p => p.2.st == .lost)).length = 0 then r
      else (r.bump R.MPD_LOST_CNT (u.memAfter.tiles.filter (fun p => p.2.st == .lost)).length).raiseAll mpdPages 3).chalDraw :=
  ⟨_, _, rfl, rfl, rfl⟩

theorem lose_restores (s : State) : Restores s.rungSettle.lossBase s.lose := by
  obtain ⟨u, r, rfl, hr, hlose⟩ := lose_eq s
  have hjournal : Restores s.rungSettle.lossBase r := by
    rw [hr]
    refine restores_trans _ _ _ (restores_trans _ _ _ ?_ (restores_journalRegs _ _)) (restores_spareStat _)
    exact restores_trans _ _ _ (restores_wr _ _ (by decide)) (restores_wr _ _ (by decide))
  rw [hlose]
  refine restores_trans _ _ _ (rel_ite hjournal (restores_trans _ _ _ hjournal ?_)) (restores_chalDraw _)
  exact restores_trans _ _ _ (restores_wr _ _ (by decide)) (restores_raiseAll _ 3 (by decide))

/-- The registers of the PWR page, but for the time spent on the rung in force, survive a loss (R453, R468). -/
theorem rd_lose (s : State) {a : Nat} (ha : OnPwr a) (hr : a ≠ R.PWR_RUNG_TIME s.rung) : s.lose.rd a = s.rd a := by
  have hca : canon a = a := canon_low (by unfold OnPwr at ha; omega)
  have hcr : canon (R.PWR_RUNG_TIME s.rung) = R.PWR_RUNG_TIME s.rung := canon_low (by have := rung_lt s; simp only [R.PWR_RUNG_TIME]; omega)
  have hsettle : s.rungSettle.rd a = s.rd a := (rungSettle_spec s).2 a (by simp [hca, hcr, hr])
  rw [(lose_restores s).2 a ha, ← hsettle, rd, rd, lossBase, Map.get?_filter_of]
  intro p hp
  unfold OnPwr at ha
  simp [keptReg, hp, hca, ha]

/-- The flash home of a tile stands in the journal (R155). -/
theorem memAfter_flash (s : State) {n : Nat} (hj : s.sem.journal = true) (h : (s.tile n).st = .flash) :
    (Map.get s.memAfter.tiles Tile.none n).st = .flash := by
  obtain ⟨v, hv, hst⟩ : ∃ v, Map.get? s.ms.tiles n = some v ∧ v.st = .flash := by
    cases hg : Map.get? s.ms.tiles n with
    | none => simp [tile, Map.get, hg, Tile.none] at h
    | some v => exact ⟨v, rfl, by simpa [tile, Map.get, hg] using h⟩
  have hmap : Map.get? (Map.mapVals s.ms.tiles (fun n t => homeAfter (Map.get? s.ms.moves n) t)) n = some ⟨.flash, false, v.loc, v.evac⟩ := by
    rw [Map.get?_mapVals, hv]
    simp [homeAfter, hst]
  have hkeep := Map.get?_filter_of_some (q := fun p => p.2 != Tile.none) hmap (by simp [Tile.none])
  simp only [memAfter, hj, if_true, Map.get, hkeep, Option.getD_some]

/-- Memory after a loss (R155; log entry 8): SRAM is blank, and with a journal every flash-homed tile keeps its bytes. -/
theorem lose_mem (s : State) : (∀ a, uniEnd ≤ a → Mem.get s.lose.mem a = Mem.blank) ∧
    (s.sem.journal = true → ∀ a, a < uniEnd → (s.tile (a / tileBytes)).st = .flash → Mem.get s.lose.mem a = Mem.get s.mem a) := by
  have hmem : s.lose.mem = s.mem.filter (fun c => decide (c.1 < uniEnd) &&
      (Map.get s.rungSettle.memAfter.tiles Tile.none (c.1 / tileBytes)).st == .flash) := by
    rw [(lose_restores s).1]
    rfl
  constructor
  · intro a ha
    rw [hmem, Mem.get_filter_none]
    intro p hp
    simp [hp, ha]
  · intro hj a ha hst
    rw [hmem, Mem.get_filter_of]
    intro p hp
    have hflash := memAfter_flash s.rungSettle (n := a / tileBytes) hj hst
    simp [hp, ha, hflash]

/-- What stands after a loss of operators, streams and tenants, and of the inputs' state. -/
theorem lose_fields (s : State) : s.lose.ops = [] ∧ s.lose.strm = [] ∧ s.lose.tenants = s.tenants ∧ s.lose.pwr.main = s.pwr.main ∧
    s.lose.pwr.locked = s.pwr.locked ∧ s.lose.pwr.alertHeld = s.pwr.alertHeld ∧ s.lose.clk = s.clk ∧ s.lose.pending = s.pending := by
  rw [(lose_restores s).1]
  exact ⟨rfl, rfl, rfl, rfl, rfl, rfl, rfl, rfl⟩

/-! ### The power-up sequence begins (R466, R468) -/

/-- A word masked by bits below 26, with the code of Idle put in. -/
theorem idle_word (v : Word32) {m : Word32} (hm : ∀ i < 32, 26 ≤ i → bit m i = false) :
    fld (v &&& m ||| 0x20000000#32) 31 29 = 1 ∧ bit (v &&& m ||| 0x20000000#32) 27 = false ∧ bit (v &&& m ||| 0x20000000#32) 26 = false := by
  have hbit (i : Nat) (h26 : 26 ≤ i) (h32 : i < 32) : bit (v &&& m ||| 0x20000000#32) i = bit 0x20000000#32 i := by
    rw [bit_or, bit_and, hm i h32 h26, Bool.and_false, Bool.false_or]
  refine ⟨?_, by rw [hbit 27 (by omega) (by omega)]; rfl, by rw [hbit 26 (by omega) (by omega)]; rfl⟩
  rw [fld_congr_bits (y := 0x20000000#32) fun i hlo hhi => hbit i (by omega) (by omega)]
  decide

/-- What a package reset makes of the state `r` that the loss leaves. -/
def upFrom (r : State) (c : Nat) : State :=
  let keep := r.rd R.PWR_STAT &&& (if r.pwr.alertHeld && c != 1 then 0x00C00000#32 else 0x00400000#32)
  let u := ((r.wr R.PWR_STAT (keep ||| 0x20000000#32)).wr R.PWR_RESET_CAUSE (BitVec.ofNat 32 (2 ^ c))).bump (R.PWR_RUNG_TIME 5)
  { u with pwr := { r.pwr with locked := r.pwr.locked && c != 1, alertHeld := r.pwr.alertHeld && c != 1 } }

theorem packageReset_eq (s : State) (c : Nat) : s.packageReset c = s.lose.upFrom c := rfl

/-- The start of the power-up sequence: PWR_STAT, the cause and the time at rung 5 are written, and the latches of the inputs are released
by cause 1. -/
theorem upFrom_spec (r : State) (c : Nat) :
    (r.upFrom c = { r with regs := (r.upFrom c).regs, pwr := { r.pwr with
      locked := r.pwr.locked && c != 1, alertHeld := r.pwr.alertHeld && c != 1 } }) ∧
    (r.upFrom c).rd R.PWR_STAT =
      r.rd R.PWR_STAT &&& (if r.pwr.alertHeld && c != 1 then 0x00C00000#32 else 0x00400000#32) ||| 0x20000000#32 ∧
    (r.upFrom c).rd R.PWR_RESET_CAUSE = BitVec.ofNat 32 (2 ^ c) ∧
    RegsKept r (r.upFrom c) [R.PWR_STAT, R.PWR_RESET_CAUSE, R.PWR_RUNG_TIME 5] := by
  unfold upFrom
  refine ⟨rfl, ?_, ?_, ?_⟩
  · exact (rd_wr_ne _ _ (by decide)).trans ((rd_wr_ne _ _ (by decide)).trans (rd_wr_self _ _ _))
  · exact (rd_wr_ne _ _ (by decide)).trans (rd_wr_self _ _ _)
  · exact kept_trans (kept_trans (n := [R.PWR_STAT, R.PWR_RESET_CAUSE]) (kept_wr r R.PWR_STAT _) (kept_wr _ R.PWR_RESET_CAUSE _)
      (by simp) (by simp)) (kept_wr _ (R.PWR_RUNG_TIME 5) _) (by simp) (by simp)

/-- What a loss leaves comes up with its cause. -/
theorem upFrom_cameUp {s r : State} (c : Nat) (hops : r.ops = []) (hstrm : r.strm = []) (hten : r.tenants = s.tenants)
    (hsram : ∀ a, uniEnd ≤ a → Mem.get r.mem a = Mem.blank)
    (hflash : s.sem.journal = true → ∀ a, a < uniEnd → (s.tile (a / tileBytes)).st = .flash → Mem.get r.mem a = Mem.get s.mem a) :
    CameUp s (r.upFrom c) c := by
  obtain ⟨hf, hstat, hcause, -⟩ := upFrom_spec r c
  have hmask : ∀ i < 32, 26 ≤ i → bit (if r.pwr.alertHeld && c != 1 then 0x00C00000#32 else 0x00400000#32) i = false := by
    split <;> decide
  obtain ⟨hrung, hready, hfatal⟩ := idle_word (r.rd R.PWR_STAT) hmask
  rw [← hstat] at hrung hready hfatal
  refine ⟨hcause, hrung, hready, hfatal, ?_⟩
  rw [hf]
  exact ⟨hops, hstrm, hten, hsram, hflash⟩

/-- A package reset brings the package up with its cause. -/
theorem packageReset_cameUp (s : State) (c : Nat) : CameUp s (s.packageReset c) c := by
  obtain ⟨hops, hstrm, hten, -⟩ := lose_fields s
  obtain ⟨hsram, hflash⟩ := lose_mem s
  exact packageReset_eq s c ▸ upFrom_cameUp c hops hstrm hten hsram hflash

/-- A register of the PWR page that a package reset does not write is as it was. -/
theorem rd_packageReset (s : State) (c : Nat) {a : Nat} (ha : OnPwr a) (hr : a < R.PWR_RUNG_TIME 0) (hs : a ≠ R.PWR_STAT)
    (hc : a ≠ R.PWR_RESET_CAUSE) : (s.packageReset c).rd a = s.rd a := by
  rw [packageReset_eq]
  obtain ⟨-, -, -, hk⟩ := upFrom_spec s.lose c
  have hlow : ∀ x, x < 0x50000 → a ≠ x → canon a ≠ canon x := fun x hx hne => by
    rwa [canon_low hx, canon_low (by unfold OnPwr at ha; omega)]
  rw [hk a, rd_lose s ha]
  · simp only [R.PWR_RUNG_TIME] at *
    omega
  · simp only [List.mem_cons, List.not_mem_nil, or_false, forall_eq_or_imp, forall_eq]
    exact ⟨hlow _ (by decide) hs, hlow _ (by decide) hc, hlow _ (by decide) (by simp only [R.PWR_RUNG_TIME] at *; omega)⟩

/-- Coming up is the same from a state with the same tenants, journal, homes and memory. -/
theorem cameUp_congr {s u t : State} {c : Nat} (h : CameUp u t c) (ht : u.tenants = s.tenants) (hj : u.sem.journal = s.sem.journal)
    (hms : u.ms = s.ms) (hmem : u.mem = s.mem) : CameUp s t c := by
  unfold CameUp at h ⊢
  simpa only [tile, ht, hj, hms, hmem] using h

/-! ### The rails go off (R454, R455, R460) -/

/-- A change of rung: of the PWR page only the rung, its counts and its interrupt, and beside registers what is sent and the time accounted. -/
theorem rungSet_spec (s : State) (r : Nat) :
    (s.rungSet r = { s with regs := (s.rungSet r).regs, outbox := (s.rungSet r).outbox, msix := (s.rungSet r).msix
                            pwr := { s.pwr with since := (s.rungSet r).pwr.since, acc := (s.rungSet r).pwr.acc } }) ∧
    (s.rungSet r).rd R.PWR_STAT = setFld (s.rd R.PWR_STAT) 31 29 r ∧
    ∀ a, OnPwr a → a ≠ R.PWR_STAT → a ≠ R.PWR_RUNG_TIME s.rung → a ≠ R.PWR_RUNG_CNT → a ≠ R.INT_STAT 5 →
      (s.rungSet r).rd a = s.rd a := by
  have hr := rung_lt s
  have hlow : ∀ a x, OnPwr a → x < 0x50000 → a ≠ x → canon a ≠ canon x := fun a x ha hx hne => by
    rwa [canon_low hx, canon_low (by unfold OnPwr at ha; omega)]
  have hstat : R.PWR_STAT ≠ R.PWR_RUNG_TIME s.rung := by simp only [R.PWR_STAT, R.PWR_RUNG_TIME]; omega
  have htime : R.PWR_RUNG_TIME s.rung < 0x50000 := by simp only [R.PWR_RUNG_TIME]; omega
  generalize hu : ((s.rungSettle.wrF R.PWR_STAT 31 29 r).bump R.PWR_RUNG_CNT).raise 5 0 = u
  have heq : s.rungSet r = (List.range 16).foldl (fun u d => u.wrF (R.CDIE_STAT d) 26 26 (if r = 0 then 0 else 1)) u := by rw [← hu]; rfl
  have hdies : (fun t => RegsSent u t ∧ KeepsOn OnPwr u t) (s.rungSet r) := by
    rw [heq]
    exact foldl_rel (R := fun s t => RegsSent s t ∧ KeepsOn OnPwr s t) (fun s => ⟨rfl, keepsOn_refl _ s⟩)
      (fun s t u h h' => ⟨regsSent_trans s t u h.1 h'.1, keepsOn_trans h.2 h'.2⟩)
      (fun s d _ => ⟨regsSent_wr s _ _, keepsOn_wr s _ fun _ hb => canon_ne_of_pwr hb (by simp only [R.CDIE_STAT]; omega)⟩) u
  obtain ⟨hsent, hkept⟩ := hdies
  generalize s.rungSet r = t at *
  have hsettle : s.rungSettle.rd R.PWR_STAT = s.rd R.PWR_STAT := (rungSettle_spec s).2 _ (by simpa using hlow _ _ (by decide) htime hstat)
  refine ⟨?_, ?_, fun a ha h1 h2 h3 h4 => ?_⟩
  · rw [hsent, ← hu, regsSent_raise]
    rfl
  · rw [hkept _ (by decide), ← hu, rd_raise, if_neg (by decide), bump_eq, rd_wr_ne _ _ (by decide), wrF_eq, rd_wr_self, hsettle]
  · rw [hkept a ha, ← hu, raise_kept _ _ _ a (by simpa using hlow _ _ ha (by decide) h4), bump_eq,
      rd_wr_ne _ _ (hlow _ _ ha (by decide) h3), wrF_eq, rd_wr_ne _ _ (hlow _ _ ha (by decide) h1)]
    exact (rungSettle_spec s).2 a (by simpa using hlow _ _ ha htime h2)

/-- Sleep: what the loss leaves of the operators and the inputs, with the rung 4 and the registers of the PWR page but those of the rung. -/
theorem sleepNow_spec (s : State) :
    s.sleepNow.rung = 4 ∧ s.sleepNow.ops = [] ∧ s.sleepNow.strm = [] ∧ s.sleepNow.tenants = s.tenants ∧
    s.sleepNow.pwr.main = s.pwr.main ∧ s.sleepNow.pwr.locked = s.pwr.locked ∧
    ∀ a, OnPwr a → a ≠ R.PWR_STAT → a ≠ R.PWR_RUNG_TIME s.rung → a ≠ R.PWR_RUNG_TIME 4 → a ≠ R.PWR_RUNG_CNT → a ≠ R.INT_STAT 5 →
      s.sleepNow.rd a = s.rd a := by
  obtain ⟨hf, hstat, hk⟩ := rungSet_spec s 4
  have hrung : (s.rungSet 4).rung = 4 := by
    rw [rung, rdF, hstat, fld_setFld_self _ _ _ _ (by decide)]
    rfl
  have hrd : ∀ a, OnPwr a → a ≠ R.PWR_RUNG_TIME 4 → (s.rungSet 4).lose.rd a = (s.rungSet 4).rd a := fun a ha hne =>
    rd_lose _ ha (by rwa [hrung])
  obtain ⟨hops, hstrm, hten, hmain, hlocked, -⟩ := lose_fields (s.rungSet 4)
  have heq : s.sleepNow = (s.rungSet 4).lose.clrBits R.PWR_STAT 0x18000000#32 := rfl
  rw [heq, clrBits_eq]
  generalize hl : (s.rungSet 4).lose = l at *
  generalize s.rungSet 4 = u at *
  refine ⟨?_, hops, hstrm, by rw [wr_tenants, hten, hf], by rw [wr_pwr, hmain, hf], by rw [wr_pwr, hlocked, hf],
    fun a ha h1 h2 h3 h4 h5 => ?_⟩
  · rw [rung, rdF, rd_wr_self, hrd _ (by decide) (by decide), ← hrung, rung, rdF]
    refine fld_congr_bits fun i hlo hhi => ?_
    rw [bit_and, bit_not _ (by omega)]
    have : bit 0x18000000#32 i = false := by
      have h : ∀ i < 32, 29 ≤ i → bit 0x18000000#32 i = false := by decide
      exact h i (by omega) hlo
    simp [this]
  · rw [rd_wr_ne _ _ (by rwa [canon_low (by unfold OnPwr at ha; omega), canon_low (by decide)]), hrd a ha h3, hk a ha h1 h2 h4 h5]

/-- What a power-on reset makes of the state `r` that the loss leaves, with the firmware marks `fw` (R468). -/
def darkFrom (r : State) (fw : Word32) : State :=
  ({ r with
    regs := r.regs.filter (fun p => p.1 / 4096 != 5 && p.1 / 4096 != 0xA)
    pwr := { Pwr.reset with main := false }
    uart := Uart.reset, jtag := Jtag.reset, smb := SmbIf.reset, clk := ⟨false, false, false⟩ }.wr R.PWR_FW_STAT fw).clrBits
    R.SEM_STAT 0x01000000#32

theorem powerLost_eq (s : State) : s.powerLost = s.lose.darkFrom (s.rd R.PWR_FW_STAT &&& 0x1F1F#32) := rfl

/-- The reset value of PWR_STAT: the rung Idle. -/
theorem regReset_pwrStat : regReset (canon R.PWR_STAT) = 0x20000000#32 := by decide +kernel

theorem darkFrom_spec (r : State) (fw : Word32) :
    (∃ g, r.darkFrom fw = { r with regs := g, pwr := { Pwr.reset with main := false }
                                   uart := Uart.reset, jtag := Jtag.reset, smb := SmbIf.reset, clk := ⟨false, false, false⟩ }) ∧
    (r.darkFrom fw).rd R.PWR_STAT = 0x20000000#32 := by
  refine ⟨⟨_, rfl⟩, ?_⟩
  rw [darkFrom, clrBits_eq, rd_wr_ne _ _ (by decide), rd_wr_ne _ _ (by decide), rd, Map.get?, Map.find_filter_none _ _ _ ?_]
  · exact regReset_pwrStat
  · intro p hp
    rw [hp]
    decide

/-- Off: nothing of the operators stands, and the rung reads 4. -/
theorem powerOff_spec (s : State) : s.powerOff.rung = 4 ∧ s.powerOff.ops = [] ∧ s.powerOff.strm = [] ∧ s.powerOff.pwr.main = false ∧
    s.powerOff.tenants = s.tenants := by
  obtain ⟨hops, hstrm, hten, -⟩ := lose_fields s
  have heq : s.powerOff = (s.lose.darkFrom (s.rd R.PWR_FW_STAT &&& 0x1F1F#32)).wrF R.PWR_STAT 31 29 4 := rfl
  rw [heq]
  generalize s.lose = r at *
  obtain ⟨⟨g, hg⟩, -⟩ := darkFrom_spec r (s.rd R.PWR_FW_STAT &&& 0x1F1F#32)
  refine ⟨rdF_wrF_self _ _ _ (by decide), ?_⟩
  rw [wrF_eq, hg]
  exact ⟨hops, hstrm, rfl, hten⟩

/-- With the auxiliary input the main rails go off to Sleep, without it the package goes off (R454). -/
theorem railsOff_sleep {s : State} (h : s.rdB R.PWR_STAT 22 = true) (hr : s.rung < 4) : s.railsOff = s.sleepNow := by
  rw [railsOff, if_neg (by simp [h]), if_neg (by omega)]

theorem railsOff_off {s : State} (h : s.rdB R.PWR_STAT 22 = false) : s.railsOff = s.powerOff := by
  rw [railsOff, if_pos h]

/-- ERR of the PWR page: registers and what is sent, of registers PWR_ERR and INT_STAT. -/
theorem pwrErr_spec (s : State) (m : Word32) : RegsSent s (s.pwrErr m) ∧ (s.pwrErr m).rd R.PWR_ERR = s.rd R.PWR_ERR ||| m ∧
    RegsKept s (s.pwrErr m) [R.PWR_ERR, R.INT_STAT 5] := by
  unfold pwrErr
  refine ⟨regsSent_trans _ _ _ (regsSent_wr s _ _) (regsSent_raise _ _ _), ?_, ?_⟩
  · rw [rd_raise, if_neg (by decide), setBits_eq, rd_wr_self]
  · exact kept_trans (kept_wr s R.PWR_ERR _) (raise_kept _ 5 7) (by simp) (by simp)

/-! ### Fatal errors (R473, R474) -/

/-- A fatal error is latched: cause and die, and FATAL. -/
def fatalMark (s : State) (cause die : Nat) : State :=
  (s.wr R.PWR_FATAL (BitVec.ofNat 32 (2 ^ 31 + die % 256 * 256 + cause))).setBits R.PWR_STAT 0x04000000#32
/-- A port goes OFF, unless it is. -/
def portOff (u : State) (p : Nat) : State := if u.portState p = 0 then u else u.portTo p 0
/-- Every port goes OFF. -/
def portsOff (s : State) : State := (List.range 36).foldl portOff s
/-- Records complete with HW_FAULT, one after another. -/
def failAll (s : State) (blk : Nat) (l : List (Nat × RunOp)) : State :=
  l.foldl (fun w p => w.complete p.1 { p.2 with code := 0x0D, detail := BitVec.ofNat 8 blk }) s
/-- Nothing runs any more. -/
def stopAll (u : State) : State :=
  { u with ops := [], strm := [], waiters := [], sigs := [], readyQ := [], gsteps := [], commits := [], folds := [], recvs := [], convs := []
           remTodo := [], eng := Map.mapVals u.eng (fun _ g => { g with run := none, susp := [] })
           slots := Map.mapVals u.slots (fun _ f => { f with run := none, queue := [] }) }
/-- Items for buffers in the unified range are discarded. -/
def hostItems (s : State) : State :=
  { s with evq := Map.mapVals s.evq (fun k q => if s.rdB (R.EVQ_CTL (k / 16) (k % 16)) 30 then q else { q with items := [] }) }

/-- The state in which what runs is ended by a fatal error. -/
def fatalRaised (s : State) (cause die : Nat) : State := ((s.fatalMark cause die).portsOff.raise 5 3).logError 5 3

/-- The first fatal error (R474), step by step. -/
theorem fatal_eq {s : State} (h : s.inFatal = false) (cause die blk : Nat) :
    s.fatal cause die blk = (s.fatalRaised cause die).stopAll ∨
    ∃ l l' : List (Nat × RunOp), ((s.fatalRaised cause die).ops = [] → l = [] ∧ l' = []) ∧
      s.fatal cause die blk = (((s.fatalRaised cause die).failAll blk l).failAll blk l').stopAll.hostItems := by
  have heq : s.fatal cause die blk =
      (if cause = 5 ∨ cause = 6 ∨ (s.fatalRaised cause die).host.up = false then (s.fatalRaised cause die).stopAll
      else (((s.fatalRaised cause die).failAll blk ((s.fatalRaised cause die).ops.filter (fun p => !((s.fatalRaised cause die).requestsOf p.2.cmd).isEmpty))).failAll blk
        ((s.fatalRaised cause die).failAll blk ((s.fatalRaised cause die).ops.filter (fun p => !((s.fatalRaised cause die).requestsOf p.2.cmd).isEmpty))).ops).stopAll.hostItems) := by
    rw [fatal, if_neg (by rw [show s.rdB R.PWR_STAT 26 = false from h]; decide)]
    rfl
  rw [heq]
  split
  · exact .inl rfl
  · refine .inr ⟨_, _, fun ho => ?_, rfl⟩
    simp [ho, failAll]

/-- A fatal error in the fatal state changes nothing (R474). -/
theorem fatal_of_inFatal {s : State} (h : s.inFatal = true) (cause die blk : Nat) : s.fatal cause die blk = s :=
  if_pos h

/-- What completions under a fatal error change: records, counters, event queues and what is sent, and registers of the tenants' pages. -/
def Fails (s t : State) : Prop :=
  t = { s with ops := t.ops, regs := t.regs, outbox := t.outbox, msix := t.msix, depCtr := t.depCtr, evq := t.evq, freeCtr := t.freeCtr } ∧
  KeepsOn (fun a => a < 0x10000 ∨ a % 4096 = 0x104) s t

theorem fails_refl (s : State) : Fails s s := ⟨rfl, keepsOn_refl _ s⟩

theorem fails_trans (s t u : State) (h : Fails s t) (h' : Fails t u) : Fails s u := ⟨by rw [h'.1, h.1], keepsOn_trans h.2 h'.2⟩

theorem fails_complete (s : State) (h : Nat) (o : RunOp) : Fails s (s.complete h o) := by
  obtain ⟨hf, hk⟩ := complete_spec s h o
  refine ⟨by rw [hf], keepsOn_of_kept hk fun a ha b hb => ?_⟩
  have hctr : CmdRecF.sigCtr o.cmd < 256 := Nat.mod_lt _ (by decide)
  have hb' : 0x10000 ≤ b ∧ b % 4096 ≠ 0x104 := by
    simp only [List.mem_cons, List.not_mem_nil, or_false] at hb
    rcases hb with rfl | rfl | rfl | rfl | rfl | rfl <;>
      simp only [R.CRG_RING_DONE, R.CRG_CTR_FAULT, R.INT_STAT, R.EVQ_GAP_CNT, R.EVQ_DISC_CNT] <;> omega
  rcases ha with ha | ha
  · exact canon_ne_of_low ha hb'.1
  · exact canon_ne_of_off (by omega)

theorem fails_failAll (s : State) (blk : Nat) (l : List (Nat × RunOp)) : Fails s (s.failAll blk l) :=
  foldl_rel fails_refl fails_trans (fun s p _ => fails_complete s p.1 _) s

theorem portOff_self (u : State) (p : Nat) : (u.portOff p).portState p = 0 := by
  unfold portOff
  split
  · assumption
  · exact portState_portTo_self u p 0

theorem portOff_ne (u : State) {p q : Nat} (hp : p < 36) (hq : q < 36) (h : q ≠ p) : (u.portOff p).portState q = u.portState q := by
  unfold portOff
  split
  · rfl
  · exact portState_portTo_ne u 0 hp hq h

/-- As ports go OFF, of registers only STAT of ports and INT_STAT change, and beside registers what is sent and the router. -/
def PortsQuiet (s t : State) : Prop :=
  t = { s with regs := t.regs, outbox := t.outbox, msix := t.msix, router := t.router } ∧
  KeepsOn (fun a => a < 0x10000 ∧ a % 4096 ≠ 0x20) s t

theorem portsQuiet_refl (s : State) : PortsQuiet s s := ⟨rfl, keepsOn_refl _ s⟩

theorem portsQuiet_trans (s t u : State) (h : PortsQuiet s t) (h' : PortsQuiet t u) : PortsQuiet s u :=
  ⟨by rw [h'.1, h.1], keepsOn_trans h.2 h'.2⟩

theorem portsQuiet_portOff (u : State) (p : Nat) : PortsQuiet u (u.portOff p) := by
  obtain ⟨hf, hk⟩ := portTo_notifies u p 0
  refine rel_ite (portsQuiet_refl u) ⟨by rw [hf]; rfl, ?_⟩
  refine keepsOn_trans (keepsOn_wr u (a := preg p 0x104) _ fun a ha => ?_) (keepsOn_mono hk fun a ha => ha.2)
  exact canon_ne_of_low ha.1 (by unfold preg portPage; split <;> omega)

theorem portsOff_quiet (s : State) : PortsQuiet s s.portsOff :=
  foldl_rel portsQuiet_refl portsQuiet_trans (fun u p _ => portsQuiet_portOff u p) s

theorem portState_portsOff (s : State) {p : Nat} (hp : p < 36) : s.portsOff.portState p = 0 := by
  have hoff (l : List Nat) (hl : ∀ q ∈ l, q < 36) (u : State) (hu : p ∈ l ∨ u.portState p = 0) : (l.foldl portOff u).portState p = 0 := by
    induction l generalizing u with
    | nil => exact hu.resolve_left (by simp)
    | cons q l ih =>
      rw [List.forall_mem_cons] at hl
      refine ih hl.2 _ ?_
      by_cases hq : p = q
      · exact .inr (hq ▸ portOff_self u p)
      · rw [portOff_ne u hl.1 hp hq]
        exact hu.imp_left fun hm => (List.mem_cons.1 hm).resolve_left hq
  exact hoff _ (by simp) s (.inl (by simpa using hp))

/-- With every port OFF already nothing is to be done. -/
theorem portsOff_of_off {s : State} (h : ∀ p, p < 36 → s.portState p = 0) : s.portsOff = s := by
  have hfold (l : List Nat) (hl : ∀ q ∈ l, q < 36) : l.foldl portOff s = s := by
    induction l with
    | nil => rfl
    | cons q l ih =>
      rw [List.forall_mem_cons] at hl
      rw [List.foldl_cons, portOff, if_pos (h q hl.1), ih hl.2]
  exact hfold _ (by simp)

theorem fatalMark_spec (s : State) (cause die : Nat) :
    (s.fatalMark cause die = { s with regs := (s.fatalMark cause die).regs }) ∧
    (s.fatalMark cause die).rd R.PWR_FATAL = BitVec.ofNat 32 (2 ^ 31 + die % 256 * 256 + cause) ∧
    (s.fatalMark cause die).rd R.PWR_STAT = s.rd R.PWR_STAT ||| 0x04000000#32 ∧
    RegsKept s (s.fatalMark cause die) [R.PWR_FATAL, R.PWR_STAT] := by
  unfold fatalMark
  rw [setBits_eq]
  refine ⟨rfl, ?_, ?_, kept_trans (kept_wr s R.PWR_FATAL _) (kept_wr _ R.PWR_STAT _) (by simp) (by simp)⟩
  · rw [rd_wr_ne _ _ (by decide), rd_wr_self]
  · rw [rd_wr_self, rd_wr_ne _ _ (by decide)]

/-- The state in which what runs is ended: cause, die and FATAL are latched, the interrupt is raised, and every port is OFF. -/
theorem fatalRaised_spec (s : State) (cause die : Nat) :
    (s.fatalRaised cause die = { s with regs := (s.fatalRaised cause die).regs, outbox := (s.fatalRaised cause die).outbox
                                        msix := (s.fatalRaised cause die).msix, router := (s.fatalRaised cause die).router
                                        pwr := { s.pwr with errs := (s.fatalRaised cause die).pwr.errs } }) ∧
    (s.fatalRaised cause die).rd R.PWR_FATAL = BitVec.ofNat 32 (2 ^ 31 + die % 256 * 256 + cause) ∧
    (s.fatalRaised cause die).rd R.PWR_STAT = s.rd R.PWR_STAT ||| 0x04000000#32 ∧
    (s.fatalRaised cause die).rdB (R.INT_STAT 5) 3 = true ∧
    (∀ p, p < 36 → (s.fatalRaised cause die).portState p = 0) ∧
    ((∀ p, p < 36 → s.portState p = 0) → RegsKept s (s.fatalRaised cause die) [R.PWR_FATAL, R.PWR_STAT, R.INT_STAT 5]) := by
  obtain ⟨hm, hcause, hstat, hmk⟩ := fatalMark_spec s cause die
  obtain ⟨hq, hqk⟩ := portsOff_quiet (s.fatalMark cause die)
  have hports := fun p hp => portState_portsOff (s.fatalMark cause die) (p := p) hp
  have hmoff : (∀ p, p < 36 → s.portState p = 0) → (s.fatalMark cause die).portsOff = s.fatalMark cause die := fun h =>
    portsOff_of_off fun p hp => by
      rw [portState, rdF, hmk, ← rdF, ← portState, h p hp]
      have hlow : 0x10000 ≤ preg p 0x104 := by unfold preg portPage; split <;> omega
      simp only [List.mem_cons, List.not_mem_nil, or_false, forall_eq_or_imp, forall_eq]
      exact ⟨(canon_ne_of_low (by decide) hlow).symm, (canon_ne_of_low (by decide) hlow).symm⟩
  have hlog : ∀ a, (s.fatalRaised cause die).rd a = ((s.fatalMark cause die).portsOff.raise 5 3).rd a := fun a => rfl
  generalize hu : (s.fatalMark cause die).portsOff = u at *
  generalize hv : s.fatalMark cause die = v at *
  obtain ⟨o, m, hr⟩ := raise_frame u 5 3
  refine ⟨?_, ?_, ?_, ?_, fun p hp => ?_, fun h => ?_⟩
  · have heq : s.fatalRaised cause die = (u.raise 5 3).logError 5 3 := by rw [fatalRaised, hv, hu]
    rw [heq, hr, hq, hm]
    rfl
  · rw [hlog, raise_kept u 5 3 _ (by decide), hqk _ (by decide), hcause]
  · rw [hlog, raise_kept u 5 3 _ (by decide), hqk _ (by decide), hstat]
  · rw [rdB, hlog]
    exact rdB_raise_self u 5 3 (by decide)
  · rw [portState, rdF, hlog, raise_kept u 5 3 _ (by
      simpa using (canon_ne_of_low (by decide) (by unfold preg portPage; split <;> omega)).symm)]
    exact hports p hp
  · rw [hmoff h] at hlog
    exact kept_trans hmk (show RegsKept v _ _ from fun a ha => (hlog a).trans (raise_kept v 5 3 a ha)) (by simp) (by simp)

/-- What runs has ended, and beside it only what completions change. -/
theorem fatal_ends {s : State} (h : s.inFatal = false) (cause die blk : Nat) :
    (s.fatal cause die blk).ops = [] ∧ (s.fatal cause die blk).strm = [] ∧ (s.fatal cause die blk).clk = s.clk ∧
    (s.fatal cause die blk).tenants = s.tenants ∧ (s.fatal cause die blk).mem = s.mem ∧
    KeepsOn (fun a => a < 0x10000 ∨ a % 4096 = 0x104) (s.fatalRaised cause die) (s.fatal cause die blk) ∧
    (s.ops = [] → (s.fatal cause die blk).regs = (s.fatalRaised cause die).regs) := by
  obtain ⟨hf, -⟩ := fatalRaised_spec s cause die
  have hops : (s.fatalRaised cause die).ops = s.ops := by rw [hf]
  rcases fatal_eq h cause die blk with heq | ⟨l, l', hnil, heq⟩
  · rw [heq]
    generalize s.fatalRaised cause die = u at *
    rw [hf]
    exact ⟨rfl, rfl, rfl, rfl, rfl, keepsOn_of_regs _ rfl, fun _ => rfl⟩
  · have hfails : Fails (s.fatalRaised cause die) (((s.fatalRaised cause die).failAll blk l).failAll blk l') :=
      fails_trans _ _ _ (fails_failAll _ blk l) (fails_failAll _ blk l')
    have hsame : s.ops = [] → (((s.fatalRaised cause die).failAll blk l).failAll blk l') = s.fatalRaised cause die := fun ho => by
      obtain ⟨rfl, rfl⟩ := hnil (hops.trans ho)
      rfl
    rw [heq]
    generalize ((s.fatalRaised cause die).failAll blk l).failAll blk l' = w at *
    obtain ⟨hw, hwk⟩ := hfails
    have hclk : w.clk = s.clk ∧ w.tenants = s.tenants ∧ w.mem = s.mem := by rw [hw, hf]; exact ⟨rfl, rfl, rfl⟩
    exact ⟨rfl, rfl, hclk.1, hclk.2.1, hclk.2.2, keepsOn_trans hwk (keepsOn_of_regs _ rfl), fun ho => by rw [← hsame ho]; rfl⟩

/-- The first fatal error (R473, R474): cause and die are latched, FATAL shows, every operator and stream has ended, and every port is OFF. -/
theorem fatal_spec {s : State} (h : s.inFatal = false) (cause die blk : Nat) :
    (s.fatal cause die blk).rd R.PWR_FATAL = BitVec.ofNat 32 (2 ^ 31 + die % 256 * 256 + cause) ∧
    (s.fatal cause die blk).rd R.PWR_STAT = s.rd R.PWR_STAT ||| 0x04000000#32 ∧
    (s.fatal cause die blk).rdB (R.INT_STAT 5) 3 = true ∧ (∀ p, p < 36 → (s.fatal cause die blk).portState p = 0) := by
  obtain ⟨-, -, -, -, -, hk, -⟩ := fatal_ends h cause die blk
  obtain ⟨-, hcause, hstat, hint, hports, -⟩ := fatalRaised_spec s cause die
  refine ⟨(hk _ (.inl (by decide))).trans hcause, (hk _ (.inl (by decide))).trans hstat, ?_, fun p hp => ?_⟩
  · rw [rdB, hk _ (.inl (by decide)), ← rdB, hint]
  · rw [portState, rdF, hk _ (.inr (by unfold preg; omega)), ← rdF, ← portState, hports p hp]

/-- Setting FATAL leaves the other bits of PWR_STAT. -/
theorem bit_fatal (v : Word32) {i : Nat} (h : i ≠ 26) : bit (v ||| 0x04000000#32) i = bit v i := by
  have hm : bit 0x04000000#32 i = false := by
    rw [show (0x04000000#32 : Word32) = BitVec.ofNat 32 (2 ^ 26) from rfl, bit_two_pow (by decide)]
    simpa using fun e => h e.symm
  rw [bit_or, hm, Bool.or_false]

theorem inFatal_of_stat {s : State} {v : Word32} (h : s.rd R.PWR_STAT = v ||| 0x04000000#32) : s.inFatal = true := by
  rw [inFatal, rdB, h, bit_or]
  simp [bit]

theorem rung_of_stat {s t : State} (h : t.rd R.PWR_STAT = s.rd R.PWR_STAT ||| 0x04000000#32) : t.rung = s.rung := by
  rw [rung, rdF, h]
  exact fld_congr_bits fun i hlo _ => bit_fatal _ (by omega)

theorem packageReset_pending (s : State) (c : Nat) : (s.packageReset c).pending = s.pending := by
  obtain ⟨-, -, -, -, -, -, -, hp⟩ := lose_fields s
  rw [packageReset_eq]
  generalize s.lose = r at *
  exact hp

theorem sleepNow_pending (s : State) : s.sleepNow.pending = s.pending := by
  obtain ⟨-, -, -, -, -, -, -, hp⟩ := lose_fields (s.rungSet 4)
  obtain ⟨hf, -⟩ := rungSet_spec s 4
  have heq : s.sleepNow = (s.rungSet 4).lose.clrBits R.PWR_STAT 0x18000000#32 := rfl
  rw [heq, clrBits_eq, wr_pending, hp, hf]

/-- The main input is applied to what a power-on reset leaves (R466, R468). -/
def lit (r : State) (aux : Bool) : State :=
  let r : State := { r with pwr := { r.pwr with main := true } }
  ((if aux then r.setBits R.PWR_STAT 0x00400000#32 else r).wr R.PWR_RESET_CAUSE 1).bump (R.PWR_RUNG_TIME 5)

theorem lit_spec {r : State} (h : r.rd R.PWR_STAT = 0x20000000#32) (aux : Bool) :
    (r.lit aux = { r with regs := (r.lit aux).regs, pwr := { r.pwr with main := true } }) ∧ (r.lit aux).rd R.PWR_RESET_CAUSE = 1 ∧
    (r.lit aux).rd R.PWR_STAT = if aux then 0x20400000#32 else 0x20000000#32 := by
  have hr : ({ r with pwr := { r.pwr with main := true } } : State).rd R.PWR_STAT = 0x20000000#32 := h
  unfold lit
  simp only [bump_eq]
  refine ⟨by cases aux <;> rfl, (rd_wr_ne _ _ (by decide)).trans (rd_wr_self _ _ _), ?_⟩
  refine (rd_wr_ne _ _ (by decide)).trans ((rd_wr_ne _ _ (by decide)).trans ?_)
  cases aux
  · exact hr
  · refine (rd_wr_self _ _ _).trans ?_
    rw [hr]
    decide

end State
end Sys2Proof.Machine

namespace Sys2Proof.Proofs
open Sys2Proof Sys2Proof.Machine Sys2Proof.Machine.State

/-- POWER_ON (R466, R468). -/
theorem powerOn_up (s : State) (aux : Bool) :
    ∃ t, exec (.powerOn aux) s = .next t ∧ CameUp s t 0 ∧ t.pwr.main = true ∧ t.rdB R.PWR_STAT 22 = aux := by
  obtain ⟨hops, hstrm, hten, -, -, -, -, hpend⟩ := lose_fields s
  obtain ⟨hsram, hflash⟩ := lose_mem s
  have hex : exec (.powerOn aux) s = keepQueue s (.next ((s.lose.darkFrom (s.rd R.PWR_FW_STAT &&& 0x1F1F#32)).lit aux)) := rfl
  rw [hex]
  generalize s.lose = r at *
  obtain ⟨⟨g, hd⟩, hstat⟩ := darkFrom_spec r (s.rd R.PWR_FW_STAT &&& 0x1F1F#32)
  generalize r.darkFrom (s.rd R.PWR_FW_STAT &&& 0x1F1F#32) = d at *
  obtain ⟨hf, hcause, hst⟩ := lit_spec hstat aux
  generalize d.lit aux = t at *
  have hbits : t.rung = 1 ∧ t.rdB R.PWR_STAT 27 = false ∧ t.rdB R.PWR_STAT 26 = false ∧ t.rdB R.PWR_STAT 22 = aux := by
    simp only [rung, rdF, rdB, hst]
    cases aux <;> decide
  obtain ⟨hrung, hready, hfatal, haux⟩ := hbits
  refine ⟨t, keepQueue_of_pending ?_, ⟨hcause, hrung, hready, hfatal, ?_⟩, ?_, haux⟩
  · rw [hf, hd, hpend]
  · rw [hf, hd]
    exact ⟨hops, hstrm, hten, hsram, hflash⟩
  · rw [hf]

/-- MOD_RST_N with main input (R454, R464, R468). -/
theorem modRst_up (s : State) (hm : s.pwr.main = true) : ∃ t, exec .modRstN s = .next t ∧ CameUp s t 1 ∧ t.pwr.locked = false ∧
    t.pwr.alertHeld = false ∧ t.rdB R.PWR_STAT 22 = s.rdB R.PWR_STAT 22 := by
  refine ⟨s.packageReset 1, ?_, packageReset_cameUp s 1, ?_⟩
  · show execModRstN s = _
    rw [execModRstN, if_pos hm, keepQueue_of_pending (packageReset_pending s 1)]
  · obtain ⟨hf, hstat, -⟩ := upFrom_spec s.lose 1
    have haux := rd_lose s (a := R.PWR_STAT) (by decide) (by have := rung_lt s; simp only [R.PWR_STAT, R.PWR_RUNG_TIME]; omega)
    rw [packageReset_eq]
    generalize s.lose = r at *
    refine ⟨by rw [hf]; simp, by rw [hf]; simp, ?_⟩
    rw [rdB, hstat, haux, bit_or, bit_and]
    simp [bit, rdB]

/-- MOD_RST_N without main input. -/
theorem modRst_dark (s : State) (hm : s.pwr.main = false) : ∃ t, exec .modRstN s = .next t ∧
    t = { s with regs := t.regs, pwr := { s.pwr with locked := false, alertHeld := false } } ∧
    t.rdB R.PWR_STAT 23 = false ∧ RegsKept s t [R.PWR_STAT] := by
  refine ⟨({ s with pwr := { s.pwr with locked := false, alertHeld := false } } : State).clrBits R.PWR_STAT 0x00800000#32, ?_, rfl, ?_, ?_⟩
  · show execModRstN s = _
    rw [execModRstN, if_neg (by simp [hm]), keepQueue_of_pending (by rfl)]
  · rw [rdB, clrBits_eq, rd_wr_self, bit_and, bit_not _ (by decide)]
    simp [bit]
  · exact fun a ha => rd_wr_ne _ _ (ha _ (by simp))

/-- PKG_RESET (R468). -/
theorem pkgReset_up (s : State) (hm : s.pwr.main = true) (hl : s.pwr.locked = false) : ∃ t, exec .pkgReset s = .next t ∧ CameUp s t 2 := by
  obtain ⟨r, hr⟩ := countWrite_frame s 5 false
  have hex : exec .pkgReset s = keepQueue s (if (s.countWrite 5 false).pwr.main && !(s.countWrite 5 false).pwr.locked
      then .next ((s.countWrite 5 false).packageReset 2) else .next (s.countWrite 5 false)) := rfl
  rw [hex, hr]
  refine ⟨({ s with regs := r } : State).packageReset 2, ?_, ?_⟩
  · rw [if_pos (by simp [hm, hl]), keepQueue_of_pending]
    exact packageReset_pending ({ s with regs := r } : State) 2
  · exact cameUp_congr (packageReset_cameUp _ 2) rfl rfl rfl rfl

/-- AUXILIARY_INPUT_CHANGE (R453). -/
theorem aux_applied (s : State) :
    ∃ t, exec (.auxiliaryInputChange true) s = .next t ∧ OnlyRegs s t [R.PWR_STAT] ∧ t.rdB R.PWR_STAT 22 = true := by
  refine ⟨s.setBits R.PWR_STAT 0x00400000#32, keepQueue_of_pending rfl, ⟨rfl, kept_wr s _ _⟩, ?_⟩
  rw [rdB, setBits_eq, rd_wr_self, bit_or]
  simp [bit]

theorem aux_removed (s : State) (hm : s.pwr.main = true) :
    ∃ t, exec (.auxiliaryInputChange false) s = .next t ∧ OnlyRegs s t [R.PWR_STAT] ∧ t.rdB R.PWR_STAT 22 = false := by
  refine ⟨s.clrBits R.PWR_STAT 0x00400000#32, ?_, ⟨rfl, kept_wr s _ _⟩, ?_⟩
  · show execAuxiliaryInputChange false s = _
    simp only [execAuxiliaryInputChange, Bool.false_eq_true, if_false]
    rw [if_pos (by exact hm)]
    exact keepQueue_of_pending rfl
  · rw [rdB, clrBits_eq, rd_wr_self, bit_and, bit_not _ (by decide)]
    simp [bit]

/-- A rail error sets its bit and takes the package to Sleep, keeping that bit. -/
theorem sleep_of_error (s : State) {u : State} {i : Nat} (hi : i < 32) (hs : s.rung < 4)
    (hu : u.regs = (s.pwrErr (BitVec.ofNat 32 (2 ^ i))).regs) : u.sleepNow.rdB R.PWR_ERR i = true := by
  obtain ⟨-, herr, hk⟩ := pwrErr_spec s (BitVec.ofNat 32 (2 ^ i))
  obtain ⟨-, -, -, -, -, -, hkeep⟩ := sleepNow_spec u
  have hrung : u.rung = s.rung := by
    rw [rung, rdF, rd_congr hu, hk _ (by decide)]
    rfl
  rw [rdB, hkeep _ (by decide) (by decide) (by simp only [hrung, R.PWR_ERR, R.PWR_RUNG_TIME]; omega) (by decide) (by decide) (by decide),
    rd_congr hu, herr, bit_or, bit_two_pow hi]
  simp

/-- MAIN_UNDERVOLTAGE and MAIN_OVERVOLTAGE with the auxiliary input (R454). -/
theorem main_lost (s : State) (haux : s.rdB R.PWR_STAT 22 = true) (hs : s.rung < 4) :
    (∃ t, exec .mainUndervoltage s = .next t ∧ t.rung = 4 ∧ t.pwr.main = false ∧ t.ops = [] ∧ t.rdB R.PWR_ERR 2 = true) ∧
    (∃ t, exec .mainOvervoltage s = .next t ∧ t.rung = 4 ∧ t.pwr.locked = true ∧ t.ops = [] ∧ t.rdB R.PWR_ERR 3 = true) := by
  have hstat (m : Word32) : (s.pwrErr m).rd R.PWR_STAT = s.rd R.PWR_STAT := (pwrErr_spec s m).2.2 _ (by decide)
  have hpend (m : Word32) : (s.pwrErr m).pending = s.pending := by rw [(pwrErr_spec s m).1]
  constructor
  · generalize hu : ({ s.pwrErr 4 with pwr := { (s.pwrErr 4).pwr with main := false } } : State) = u
    have hst : u.rd R.PWR_STAT = s.rd R.PWR_STAT := by rw [← hu]; exact hstat 4
    have hex : exec .mainUndervoltage s = keepQueue s (.next u.railsOff) := by rw [← hu]; rfl
    obtain ⟨hr, hops, -, -, hmain, -⟩ := sleepNow_spec u
    refine ⟨u.sleepNow, ?_, hr, hmain.trans (by rw [← hu]), hops, sleep_of_error s (i := 2) (by decide) hs (by rw [← hu]; rfl)⟩
    rw [hex, railsOff_sleep (by rw [rdB, hst]; exact haux) (by rw [rung, rdF, hst]; exact hs), keepQueue_of_pending]
    rw [sleepNow_pending, ← hu]
    exact hpend 4
  · generalize hu : ({ s.pwrErr 8 with pwr := { (s.pwrErr 8).pwr with locked := true } } : State) = u
    have hst : u.rd R.PWR_STAT = s.rd R.PWR_STAT := by rw [← hu]; exact hstat 8
    have hex : exec .mainOvervoltage s = keepQueue s (.next (if u.rung = 4 then u else u.sleepNow)) := by rw [← hu]; rfl
    obtain ⟨hr, hops, -, -, -, hlocked, -⟩ := sleepNow_spec u
    refine ⟨u.sleepNow, ?_, hr, hlocked.trans (by rw [← hu]), hops, sleep_of_error s (i := 3) (by decide) hs (by rw [← hu]; rfl)⟩
    rw [hex, if_neg (by rw [rung, rdF, hst]; exact Nat.ne_of_lt hs), keepQueue_of_pending]
    rw [sleepNow_pending, ← hu]
    exact hpend 8

/-- BOOT_FALLBACK of a stage that runs its TRY image (R430, R482). -/
theorem bootFallback_up (s : State) (g : Nat) (img : List Byte) (hst : s.semState = 0) (hrel : s.rdB R.SEM_STAT 25 = false) (h1 : 1 ≤ g)
    (h5 : g ≤ 5) (hr : s.rung ≠ 4) (hrun : Map.get? s.sem.running g = some img) :
    ∃ t, exec (.bootFallback g) s = .next t ∧ CameUp s t 4 ∧ t.rdB R.PWR_FW_STAT (7 + g) = false ∧ t.rdB R.PWR_FW_STAT 16 = true := by
  generalize hu : ({ (s.clrBits R.PWR_FW_STAT (BitVec.ofNat 32 (2 ^ (7 + g)))).setBits R.PWR_FW_STAT 0x10000#32 with
    sem := { s.sem with raises := s.sem.raises.filter (· != g) } } : State) = u
  have hfw : u.rd R.PWR_FW_STAT = s.rd R.PWR_FW_STAT &&& ~~~BitVec.ofNat 32 (2 ^ (7 + g)) ||| 0x10000#32 := by
    rw [← hu]
    refine (rd_wr_self _ R.PWR_FW_STAT _).trans ?_
    rw [clrBits_eq, rd_wr_self]
  have hguard : ¬(s.semState ≠ 0 ∨ s.rdB R.SEM_STAT 25 = true ∨ g < 1 ∨ 5 < g ∨ s.rung = 4) := by
    simp only [hst, hrel, ne_eq, not_true_eq_false, Bool.false_eq_true, false_or]
    omega
  have hex : exec (.bootFallback g) s = keepQueue s (.next (u.packageReset 4)) := by
    show execBootFallback g s = _
    rw [execBootFallback, if_neg hguard, if_pos (by rw [hrun]; rfl), ← hu]
    rfl
  have hkeep : (u.packageReset 4).rd R.PWR_FW_STAT = u.rd R.PWR_FW_STAT := rd_packageReset u 4 (by decide) (by decide) (by decide) (by decide)
  refine ⟨u.packageReset 4, ?_, cameUp_congr (packageReset_cameUp u 4) ?_ ?_ ?_ ?_, ?_, ?_⟩
  · rw [hex, keepQueue_of_pending]
    rw [packageReset_pending, ← hu]
    rfl
  · rw [← hu]; rfl
  · rw [← hu]
  · rw [← hu]; rfl
  · rw [← hu]; rfl
  · rw [rdB, hkeep, hfw, bit_or, bit_and, bit_not _ (by omega), bit_two_pow (by omega)]
    rw [show (0x10000#32 : Word32) = BitVec.ofNat 32 (2 ^ 16) from rfl, bit_two_pow (by decide)]
    simp
    omega
  · rw [rdB, hkeep, hfw, bit_or]
    simp [bit]

/-- BOOT_FALLBACK of a stage with no image left to try (R430). -/
theorem bootFallback_waits (s : State) (g : Nat) (hst : s.semState = 0) (hrel : s.rdB R.SEM_STAT 25 = false) (h2 : 2 ≤ g) (h5 : g ≤ 5)
    (hr : s.rung ≠ 4) (hrun : Map.get? s.sem.running g = none) :
    ∃ t, exec (.bootFallback g) s = .next t ∧ OnlyRegs s t [R.SEM_STAT] ∧ t.rdB R.SEM_STAT 22 = true := by
  have hguard : ¬(s.semState ≠ 0 ∨ s.rdB R.SEM_STAT 25 = true ∨ g < 1 ∨ 5 < g ∨ s.rung = 4) := by
    simp only [hst, hrel, ne_eq, not_true_eq_false, Bool.false_eq_true, false_or]
    omega
  refine ⟨s.setBits R.SEM_STAT 0x00400000#32, ?_, ⟨rfl, kept_wr s _ _⟩, ?_⟩
  · show execBootFallback g s = _
    rw [execBootFallback, if_neg hguard, if_neg (by rw [hrun]; decide), if_neg (by omega)]
    exact keepQueue_of_pending rfl
  · rw [rdB, setBits_eq, rd_wr_self, bit_or]
    simp [bit]

/-- A fatal error by a cause that leaves the rails on is the fatal error itself, on the state that has drawn one free value. -/
theorem fatalEnd_eq (s : State) {cause : Nat} (die : Nat) (h : cause ≤ 5) : ∃ blk, s.fatalEnd cause die = s.used.fatal cause die blk := by
  refine ⟨if cause = 2 then 6 else if cause = 3 then 7 else if cause = 4 then 0xA
    else if cause = 7 then s.dieBlk die else (s.free.setWidth 8).toNat, ?_⟩
  rw [fatalEnd]
  exact if_neg (by omega)

/-- A fatal error of the rails also takes the rails away (R474). -/
theorem fatalEnd_rail (s : State) (die : Nat) : ∃ blk, s.fatalEnd 6 die = (s.used.fatal 6 die blk).railsOff := by
  refine ⟨(s.free.setWidth 8).toNat, ?_⟩
  rw [fatalEnd]
  exact if_pos (.inl rfl)

/-- FATAL_ERROR with no record and every port OFF (R473, R474). -/
theorem fatalError_first (s : State) (cause die : Nat) (h1 : 1 ≤ cause) (h5 : cause ≤ 5) (hf : s.inFatal = false) (hops : s.ops = [])
    (hports : ∀ p, p < 36 → s.portState p = 0) :
    ∃ t, exec (.fatalError cause die) s = .next t ∧ t.rd R.PWR_FATAL = BitVec.ofNat 32 (2 ^ 31 + die % 256 * 256 + cause) ∧
      t.inFatal = true ∧ t.rdB (R.INT_STAT 5) 3 = true ∧ t.ops = [] ∧ t.strm = [] ∧ t.mem = s.mem ∧
      RegsKept s t [R.PWR_FATAL, R.PWR_STAT, R.INT_STAT 5] := by
  obtain ⟨blk, hend⟩ := fatalEnd_eq s die h5
  have hex : exec (.fatalError cause die) s = keepQueue s (.next (s.used.fatal cause die blk)) := by
    show execFatalError cause die s = _
    rw [execFatalError, if_pos ⟨h1, by omega⟩, hend]
  have hu : s.used.inFatal = false := hf
  obtain ⟨ho, hst, -, -, hmem, -, hregs⟩ := fatal_ends hu cause die blk
  obtain ⟨hcause, hstat, hint, -⟩ := fatal_spec hu cause die blk
  obtain ⟨-, -, -, -, -, hkept⟩ := fatalRaised_spec s.used cause die
  refine ⟨_, hex, hcause, inFatal_of_stat (s := { s.used.fatal cause die blk with pending := s.pending }) hstat, hint, ho, hst, hmem, ?_⟩
  exact fun a ha => (rd_congr (hregs hops) a).trans (hkept hports a ha)

/-- FATAL_ERROR in the fatal state: the first cause stays (R474). -/
theorem fatalError_again (s : State) (cause die : Nat) (h1 : 1 ≤ cause) (h5 : cause ≤ 5) (hf : s.inFatal = true) :
    ∃ t, exec (.fatalError cause die) s = .next t ∧ t = { s with freeCtr := t.freeCtr } := by
  obtain ⟨blk, hend⟩ := fatalEnd_eq s die h5
  refine ⟨s.used, ?_, rfl⟩
  show execFatalError cause die s = _
  rw [execFatalError, if_pos ⟨h1, by omega⟩, hend, fatal_of_inFatal (show s.used.inFatal = true from hf)]
  exact keepQueue_of_pending rfl

/-- RAIL_FAULT (R454, R474). -/
theorem rails_lost (s : State) (die : Nat) :
    (s.rdB R.PWR_STAT 22 = true → s.rung < 4 → ∃ t, exec (.railFault die) s = .next t ∧ t.rung = 4 ∧ t.ops = [] ∧ t.strm = [] ∧
      t.tenants = s.tenants ∧ (s.inFatal = false → t.rd R.PWR_FATAL = BitVec.ofNat 32 (2 ^ 31 + die % 256 * 256 + 6))) ∧
    (s.rdB R.PWR_STAT 22 = false → ∃ t, exec (.railFault die) s = .next t ∧ t.rung = 4 ∧ t.ops = [] ∧ t.strm = [] ∧ t.pwr.main = false ∧
      t.tenants = s.tenants) := by
  obtain ⟨blk, hend⟩ := fatalEnd_rail s die
  have hex : exec (.railFault die) s = keepQueue s (.next (s.used.fatal 6 die blk).railsOff) := congrArg (fun u => keepQueue s (.next u)) hend
  have hfat : (s.used.fatal 6 die blk).rdB R.PWR_STAT 22 = s.rdB R.PWR_STAT 22 ∧ (s.used.fatal 6 die blk).rung = s.rung ∧
      (s.used.fatal 6 die blk).tenants = s.tenants ∧
      (s.inFatal = false → (s.used.fatal 6 die blk).rd R.PWR_FATAL = BitVec.ofNat 32 (2 ^ 31 + die % 256 * 256 + 6)) := by
    cases hf : s.inFatal with
    | true =>
      rw [fatal_of_inFatal (show s.used.inFatal = true from hf)]
      exact ⟨rfl, rfl, rfl, nofun⟩
    | false =>
      obtain ⟨hcause, hstat, -⟩ := fatal_spec (show s.used.inFatal = false from hf) 6 die blk
      obtain ⟨-, -, -, hten, -⟩ := fatal_ends (show s.used.inFatal = false from hf) 6 die blk
      exact ⟨by rw [rdB, hstat, bit_fatal _ (by decide)]; rfl, rung_of_stat hstat, hten, fun _ => hcause⟩
  generalize s.used.fatal 6 die blk = u at *
  obtain ⟨haux, hrung, hten, hcause⟩ := hfat
  constructor
  · intro h22 hlt
    obtain ⟨hr, ho, hst, ht, -, -, hk⟩ := sleepNow_spec u
    rw [railsOff_sleep (haux.trans h22) (by omega)] at hex
    generalize u.sleepNow = w at *
    refine ⟨_, hex, hr, ho, hst, ht.trans hten, fun hf => ?_⟩
    refine (hk _ (by decide) (by decide) ?_ (by decide) (by decide) (by decide)).trans (hcause hf)
    simp only [R.PWR_FATAL, R.PWR_RUNG_TIME]
    omega
  · intro h22
    obtain ⟨hr, ho, hst, hm, ht⟩ := powerOff_spec u
    rw [railsOff_off (haux.trans h22)] at hex
    generalize u.powerOff = w at *
    exact ⟨_, hex, hr, ho, hst, hm, ht.trans hten⟩

/-- CLOCK_REF_LOST of a reference whose loss is fatal (R18, R474). -/
theorem clock_fatal (s : State) (c : ClkRef) (k : Clk)
    (hc : (c, k) ∈ [(ClkRef.sys, { s.clk with sysLost := true }), (.serdes, { s.clk with serdesLost := true })]) :
    (s.inFatal = false → ∃ t, exec (.clockRefLost c) s = .next t ∧ t.clk = k ∧ t.rd R.PWR_FATAL = 0x80001801 ∧ t.inFatal = true ∧
      t.ops = [] ∧ t.strm = [] ∧ (∀ p, p < 36 → t.portState p = 0) ∧ t.rdB (R.INT_STAT 5) 3 = true) ∧
    (s.inFatal = true → ∃ t, exec (.clockRefLost c) s = .next t ∧ t = { s with clk := k, freeCtr := t.freeCtr }) := by
  have hex : exec (.clockRefLost c) s = keepQueue s (.next (({ s with clk := k } : State).fatalEnd 1 24)) := by
    simp only [List.mem_cons, Prod.mk.injEq, List.not_mem_nil, or_false] at hc
    rcases hc with ⟨rfl, rfl⟩ | ⟨rfl, rfl⟩ <;> rfl
  obtain ⟨blk, hend⟩ := fatalEnd_eq { s with clk := k } 24 (cause := 1) (by decide)
  rw [hend] at hex
  constructor
  · intro hf
    have hu : (({ s with clk := k } : State).used).inFatal = false := hf
    obtain ⟨ho, hst, hclk, -⟩ := fatal_ends hu 1 24 blk
    obtain ⟨hcause, hstat, hint, hports⟩ := fatal_spec hu 1 24 blk
    generalize ({ s with clk := k } : State).used.fatal 1 24 blk = u at *
    exact ⟨_, hex, hclk, hcause, inFatal_of_stat (s := { u with pending := s.pending }) hstat, ho, hst, hports, hint⟩
  · intro hf
    rw [fatal_of_inFatal (show (({ s with clk := k } : State).used).inFatal = true from hf)] at hex
    exact ⟨_, hex, rfl⟩

/-- CLOCK_REF_LOST of the OCXO reference (R18, R383). -/
theorem ocxo_lost (s : State) : ∃ t, exec (.clockRefLost .ocxo) s = .next t ∧
    t = { s with regs := t.regs, clk := { s.clk with ocxoLost := true } } ∧ t.rdB R.TIM_STAT 25 = true ∧ t.rdB R.TIM_ERR 2 = true ∧
    RegsKept s t [R.TIM_STAT, R.TIM_ERR] := by
  refine ⟨(({ s with clk := { s.clk with ocxoLost := true } } : State).setBits R.TIM_STAT 0x02000000#32).setBits R.TIM_ERR 4,
    keepQueue_of_pending rfl, rfl, ?_, ?_, ?_⟩
  · rw [rdB, setBits_eq, rd_wr_ne _ _ (by decide), setBits_eq, rd_wr_self, bit_or]
    simp [bit]
  · rw [rdB, setBits_eq, rd_wr_self, bit_or]
    simp [bit]
  · exact kept_trans (s := s) (t := ({ s with clk := { s.clk with ocxoLost := true } } : State).setBits R.TIM_STAT 0x02000000#32)
      (l := [R.TIM_STAT]) (fun a ha => rd_wr_ne _ _ (ha R.TIM_STAT (by simp))) (kept_wr _ R.TIM_ERR _) (by simp) (by simp)

/-- Settles O41, clause by clause. -/
theorem powerInputsAndResets : Obligations.PowerInputsAndResets :=
  ⟨powerOn_up, modRst_up, modRst_dark, pkgReset_up, aux_applied, aux_removed, main_lost, bootFallback_up, bootFallback_waits,
    fatalError_first, fatalError_again, rails_lost, clock_fatal, ocxo_lost⟩

end Sys2Proof.Proofs
end

section
/-! PROOFS. Accesses to the unified range (O14). -/
namespace Sys2Proof.Machine
open Sys2Proof

namespace State

/-! ### Ranges within one tile -/

/-- A range within one tile ends in the tile it begins in. -/
theorem tile_of_end {a n : Nat} (h0 : 0 < n) (h : a % tileBytes + n ≤ tileBytes) : (a + n - 1) / tileBytes = a / tileBytes := by
  simp only [tileBytes] at *
  omega

/-- A range within one tile covers that tile. -/
theorem tilesOf_one {a n : Nat} (h0 : 0 < n) (h : a % tileBytes + n ≤ tileBytes) : tilesOf a n = [a / tileBytes] := by
  rw [tilesOf, if_neg (by omega), tile_of_end h0 h]
  simp

/-- The start of a tile a range begins in lies at or below the range's. -/
theorem tile_start_le (a : Nat) : max a (a / tileBytes * tileBytes) = a := Nat.max_eq_left (Nat.div_mul_le_self a tileBytes)

/-! ### What reads and writes count and mark (R156, R157, R165, R173, R174) -/

/-- The byte counts of the stacks' DRAM ports (R174). -/
def DramCount (b : Nat) : Prop :=
  ∃ k, b = R.DRP_RD_BYTES_LO k ∨ b = R.DRP_RD_BYTES_LO k + 4 ∨ b = R.DRP_WR_BYTES_LO k ∨ b = R.DRP_WR_BYTES_LO k + 4

/-- A 64-bit total is two registers. -/
theorem add64_kept (s : State) (lo n : Nat) : RegsKept s (s.add64 lo n) [lo, lo + 4] :=
  kept_trans (kept_wr s lo _) (kept_wr _ (lo + 4) _) (by simp) (by simp)

/-- Registers change, and of them the byte counts of one direction. -/
def Counts (wr : Bool) (s t : State) : Prop :=
  t = { s with regs := t.regs } ∧
  KeepsOn (fun a => ∀ k, canon a ≠ canon (if wr then R.DRP_WR_BYTES_LO k else R.DRP_RD_BYTES_LO k) ∧
    canon a ≠ canon ((if wr then R.DRP_WR_BYTES_LO k else R.DRP_RD_BYTES_LO k) + 4)) s t

theorem counts_refl (wr : Bool) (s : State) : Counts wr s s := ⟨rfl, keepsOn_refl _ s⟩

theorem counts_trans (wr : Bool) (s t u : State) (h : Counts wr s t) (h' : Counts wr t u) : Counts wr s u :=
  ⟨by rw [h'.1, h.1], keepsOn_trans h.2 h'.2⟩

/-- Bytes counted on their stacks. -/
theorem countDram_counts (s : State) (wr : Bool) (a n : Nat) : Counts wr s (s.countDram wr a n) := by
  refine foldl_rel (counts_refl wr) (counts_trans wr) (fun u t _ => rel_ite ⟨rfl, ?_⟩ (counts_refl wr u)) s
  refine keepsOn_of_kept (add64_kept u _ _) fun b hb c hc => ?_
  simp only [List.mem_cons, List.not_mem_nil, or_false] at hc
  obtain ⟨h1, h2⟩ := hb (stackOf (u.tile t).loc)
  rcases hc with rfl | rfl <;> assumption

theorem dramRegs_of_counts {wr : Bool} {s t : State} (h : Counts wr s t) : DramRegs s t [] := by
  intro a _ hk
  refine h.2 a fun k => ?_
  obtain ⟨h1, h2, h3, h4⟩ := hk k
  cases wr
  · exact ⟨h1, h2⟩
  · exact ⟨h3, h4⟩

/-- An access bit is set (R156). -/
theorem touch_frame (s : State) (n : Nat) : s.touch n = { s with ms := { s.ms with frames := (s.touch n).ms.frames } } := by
  unfold touch
  simp only
  split <;> rfl

theorem touchRange_frame (s : State) (a n : Nat) :
    s.touchRange a n = { s with ms := { s.ms with frames := (s.touchRange a n).ms.frames } } := by
  refine foldl_rel (R := fun s t => t = { s with ms := { s.ms with frames := t.ms.frames } }) (fun _ => rfl)
    (fun s t u h h' => by rw [h', h]) (fun u n _ => ?_) s
  exact touch_frame u n

/-- A read of a range changes access bits and byte counts. -/
theorem readAt_frame (s : State) (a n : Nat) : (∃ f r, s.readAt a n = { s with ms := { s.ms with frames := f }, regs := r }) ∧
    DramRegs s (s.readAt a n) [] := by
  have hc := countDram_counts (s.touchRange a n) false a n
  have hregs : (s.touchRange a n).regs = s.regs := by rw [touchRange_frame]
  refine ⟨⟨(s.touchRange a n).ms.frames, (s.readAt a n).regs, ?_⟩, fun b hb hk => ?_⟩
  · rw [readAt, hc.1, touchRange_frame]
  · exact (dramRegs_of_counts hc b hb hk).trans (rd_congr hregs b)

/-- A move is asked for at most. -/
theorem askMove_frame (s : State) (a : MoveAsk) : s.askMove a = { s with ms := { s.ms with asks := (s.askMove a).ms.asks } } := by
  unfold askMove
  split <;> rfl

/-- The start of a read of a flash home counts on its owner and asks for a promotion at most (R157, R173). -/
theorem fillTouch_flash {s : State} {n : Nat} (h : (s.tile n).st = .flash) :
    s.fillTouch n = { s with ms := { s.ms with own := (s.fillTouch n).ms.own, asks := (s.fillTouch n).ms.asks } } := by
  unfold fillTouch
  rw [if_pos h]
  simp only
  split
  · rw [askMove_frame]
    rfl
  · rfl

/-! ### Answers -/

/-- An access that comes from outside the mesh's remote requests. -/
def plainAcc (x : Access) : Access := { x with rem := none, poison := [] }

/-- A reply has gone out. -/
def replied (s : State) (x : Access) (code detail : Nat) (data : List Byte) : State :=
  { s with outbox := s.outbox ++ [.reply x.fresh code detail data] }

/-- Another's access than an operator's, a remote request's or a window's is answered with a reply (R153). -/
theorem answer_plain (s : State) {x : Access} (code detail : Nat) (data : List Byte) (hop : x.op = none) (hf : x.fresh < 2 ^ 64) :
    s.answer (plainAcc x) code detail data = s.replied x code detail data := by
  have hlt : ¬2 ^ 64 ≤ x.fresh := by omega
  simp only [answer, answerWith, plainAcc, hop, if_neg hlt]
  rfl

/-! ### The access served -/

/-- Bytes an access spans. -/
def accLen (x : Access) : Nat := match x.kind with
  | .read => x.len
  | .write => x.data.length
  | .atomic => atomicSize x

/-- An access within one tile, with no link on its way drained, is served. -/
theorem mpdAccess_served {s : State} {x : Access} (e : EccResult) (hw : s.meshWaits .request (s.accDie x) (s.addrDie x.addr) = false)
    (h0 : 0 < accLen x) (h : x.addr % tileBytes + accLen x ≤ tileBytes) :
    exec (.mpdAccess x e) s = keepQueue s (.next (s.mpdServe (plainAcc x) e)) := by
  have hguard : ¬(accLen x = 0 ∨ x.addr / tileBytes ≠ (x.addr + accLen x - 1) / tileBytes) := by
    rw [tile_of_end h0 h]
    omega
  show keepQueue s (if accLen x = 0 ∨ x.addr / tileBytes ≠ (x.addr + accLen x - 1) / tileBytes then _ else _) = _
  rw [if_neg hguard]
  exact congrArg (keepQueue s) (if_neg fun ht => Bool.false_ne_true (hw.symm.trans ht))

/-- One whose way is held stands in the mesh. -/
theorem mpdAccess_held {s : State} {x : Access} (e : EccResult) (hw : s.meshWaits .request (s.accDie x) (s.addrDie x.addr) = true)
    (h0 : 0 < accLen x) (h : x.addr % tileBytes + accLen x ≤ tileBytes) :
    exec (.mpdAccess x e) s =
      .next { s with meshQ := s.meshQ ++ [⟨.request, s.accDie x, s.addrDie x.addr, .access (plainAcc x) e⟩] } := by
  have hguard : ¬(accLen x = 0 ∨ x.addr / tileBytes ≠ (x.addr + accLen x - 1) / tileBytes) := by
    rw [tile_of_end h0 h]
    omega
  show keepQueue s (if accLen x = 0 ∨ x.addr / tileBytes ≠ (x.addr + accLen x - 1) / tileBytes then _ else _) = _
  rw [if_neg hguard]
  exact congrArg (keepQueue s) (if_pos (show s.meshWaits .request (s.accDie (plainAcc x)) (s.addrDie (plainAcc x).addr) = true from hw))

/-- A clean unit of a stack with at most four symbols erased is clean (R161, R162). -/
theorem eccApply_clean {s : State} {k : Nat} (a : Option Nat) (h : s.erasedSyms k ≤ 4) : s.eccApply k a .clean = s := by
  simp only [eccApply, eccDecode]
  rw [if_neg (by omega)]

/-- A read of a home that is not DRAM, and a write, read no unit of DRAM first. -/
theorem mpdServe_plain {s : State} {x : Access} (e : EccResult)
    (h : x.kind = .write ∨ ((s.tile (x.addr / tileBytes)).st ≠ .dram ∧ (s.tile (x.addr / tileBytes)).st ≠ .movingD)) :
    s.mpdServe x e = s.serve x := by
  unfold mpdServe
  simp only
  rw [if_neg]
  rcases h with h | ⟨h1, h2⟩
  · simp [h]
  · simp [h1, h2]

/-- A unit found clean changes nothing of what is served. -/
theorem mpdServe_clean {s : State} {x : Access} (h : s.erasedSyms (stackOf (s.tile (x.addr / tileBytes)).loc) ≤ 4) :
    s.mpdServe x .clean = s.serve x := by
  unfold mpdServe
  simp only
  rw [eccApply_clean _ h, ite_self]

/-- A read within one tile is refused as its requester is, or for a LOST tile. -/
theorem readDeny_one {s : State} {who a n : Nat} (h0 : 0 < n) (h : a % tileBytes + n ≤ tileBytes) (hd : s.deny who a false = none)
    (hl : (s.tile (a / tileBytes)).st ≠ .lost) : s.readDeny who a n = none := by
  simp [readDeny, tilesOf_one h0 h, tile_start_le, hd, hl]

/-- A read of a DRAM home (R153). -/
theorem serve_read_dram {s : State} {x : Access} (hk : x.kind = .read) (h0 : 0 < x.len) (h : x.addr % tileBytes + x.len ≤ tileBytes)
    (hd : s.deny x.who x.addr false = none) (ht : (s.tile (x.addr / tileBytes)).st = .dram) :
    s.serve x = (s.readAt x.addr x.len).answer x (if (s.readAt x.addr x.len).anyPoison x.addr x.len then 9 else 0) 0
      ((s.readAt x.addr x.len).bytesAt x.addr x.len) := by
  simp only [serve, hk, readDeny_one h0 h hd (by rw [ht]; decide), ht]

/-- A read of a flash home (R153, R157). -/
theorem serve_read_flash {s : State} {x : Access} (hk : x.kind = .read) (h0 : 0 < x.len) (h : x.addr % tileBytes + x.len ≤ tileBytes)
    (hd : s.deny x.who x.addr false = none) (ht : (s.tile (x.addr / tileBytes)).st = .flash) :
    s.serve x = (s.fillTouch (x.addr / tileBytes)).flashRead (x.addr / tileBytes) (.acc x) := by
  simp only [serve, hk, readDeny_one h0 h hd (by rw [ht]; decide), ht]

/-- A write by a requester without the right (R143, R153). -/
theorem serve_write_denied {s : State} {x : Access} {c d : Nat} (hk : x.kind = .write) (hd : s.deny x.who x.addr true = some (c, d)) :
    s.serve x = s.answer x c d [] := by
  simp only [serve, hk, hd]

/-- A write by a requester with the right is made, answered where it is done, and waits where it is not (R148, R153). -/
theorem serve_write {s u : State} {x : Access} (hk : x.kind = .write) (hd : s.deny x.who x.addr true = none)
    (hw : s.writeTile x = (u, 0, 0)) (ht : (s.tile (x.addr / tileBytes)).st ≠ .away) :
    s.serve x = if u.ms.waits.length = s.ms.waits.length then u.answer x 0 0 [] else u := by
  simp only [serve, hk, hd, hw]
  simp [ht, show (AccKindM.write == AccKindM.atomic) = false from rfl]

/-- What an atomic computes is defined for every operand where it is for one (R230). -/
theorem atomicNew_isSome {op size old a b : Nat} (h : (atomicNew op size old a b).isSome = true) (old' a' b' : Nat) :
    ∃ v, atomicNew op size old' a' b' = some v := by
  unfold atomicNew at h ⊢
  simp only at h ⊢
  split at h
  case h_2 =>
    split at h
    · exact ⟨_, if_pos ‹_›⟩
    · cases h
  case h_12 => cases h
  all_goals exact ⟨_, rfl⟩

/-- An atomic is 4 or 8 bytes. -/
theorem atomicSize_cases (x : Access) : atomicSize x = 4 ∨ atomicSize x = 8 := by
  unfold atomicSize
  split <;> simp

/-- An aligned atomic lies within one tile. -/
theorem atomic_in_tile {x : Access} (h : x.addr % atomicSize x = 0) : x.addr % tileBytes + atomicSize x ≤ tileBytes := by
  simp only [tileBytes]
  rcases atomicSize_cases x with hs | hs <;> rw [hs] at h ⊢ <;> omega

theorem atomicSize_pos (x : Access) : 0 < atomicSize x := by rcases atomicSize_cases x with h | h <;> omega

/-- An aligned atomic of a listed operation, with no unit of it poisoned, by a requester with the right (R146, R230). -/
theorem serve_atomic {s u : State} {x : Access} (hk : x.kind = .atomic) (hd : s.deny x.who x.addr true = none)
    (hal : x.addr % atomicSize x = 0) (hop : (atomicNew (x.len % 16) (atomicSize x) 0 0 0).isSome = true)
    (hp : s.anyPoison x.addr (atomicSize x) = false) (hw : s.writeTile x = (u, 0, 0)) (ht : (s.tile (x.addr / tileBytes)).st ≠ .away)
    (hu : u.ms.waits = s.ms.waits) : s.serve x = u.answer x 0 0 (s.bytesAt x.addr (atomicSize x)) := by
  have hnone : (atomicNew (x.len % 16) (atomicSize x) 0 0 0).isNone = false := by rw [← Option.not_isSome, hop]; rfl
  simp only [serve, hk, hd, hw]
  simp [ht, hal, hnone, hp, hu]

/-- The bytes a write, or an atomic, leaves. -/
def accStored (s : State) (x : Access) : List Byte := accBytes x (s.bytesAt x.addr (atomicSize x))

theorem writeTile_dram {s : State} {x : Access} (ht : (s.tile (x.addr / tileBytes)).st = .dram) :
    s.writeTile x = (((s.storeAcc x (s.accStored x)).touch (x.addr / tileBytes)).countDram true x.addr (s.accStored x).length, 0, 0) := by
  simp only [writeTile, ht]
  rfl

theorem writeTile_moving {s : State} {x : Access}
    (ht : (s.tile (x.addr / tileBytes)).st = .movingD ∨ (s.tile (x.addr / tileBytes)).st = .movingF) :
    s.writeTile x = ({ s with ms := { s.ms with waits := s.ms.waits ++ [⟨x, true⟩] } }, 0, 0) := by
  rcases ht with ht | ht <;> simp only [writeTile, ht]

/-- The first write of a tile takes the frame that placement gives (R146, R160). -/
theorem writeTile_first {s : State} {x : Access} {loc : Nat} (ht : s.tile (x.addr / tileBytes) = Tile.none)
    (hf : s.tableFull (x.addr / tileBytes / 65536) = false) (h2 : rgnTier (s.rgnAt x.addr) ≠ 2)
    (hq : 0 < s.dFree (rgnOwner (s.rgnAt x.addr))) (hl : s.placeFrame (x.addr / tileBytes) = some loc) :
    s.writeTile x = ((((s.takeFrame loc (.tile (x.addr / tileBytes)) (rgnOwner (s.rgnAt x.addr))).tileSet (x.addr / tileBytes)
      ⟨.dram, false, loc, false⟩).storeAcc x (s.accStored x)).countDram true x.addr (s.accStored x).length, 0, 0) := by
  have hq' : ¬s.dFree (rgnOwner (s.rgnAt x.addr)) = 0 := by omega
  simp only [writeTile, ht, hf, hl, Tile.none]
  rw [if_neg (by decide), if_neg h2, if_neg hq']
  rfl

/-- An access that marks nothing stores its bytes, and clears poison of the units it covers (R171). -/
theorem storeAcc_plain (s : State) {x : Access} (bs : List Byte) (h : x.poison = []) :
    s.storeAcc x bs = { s with mem := Mem.write s.mem x.addr bs, ms := { s.ms with poison := (s.storeAcc x bs).ms.poison } } := by
  rw [storeAcc, h]
  rfl

/-- What a store leaves in memory: its bytes, and every other byte as it was. -/
theorem written_mem (m : Mem) (a : Nat) (bs : List Byte) : Mem.read (Mem.write m a bs) a bs.length = bs ∧
    ∀ b, b < a ∨ a + bs.length ≤ b → Mem.get (Mem.write m a bs) b = Mem.get m b :=
  ⟨Mem.read_write m a bs, fun b hb => Mem.get_write_out m a bs b hb⟩

/-- A value has as many bytes as are asked for. -/
theorem length_leBytes (n v : Nat) : (leBytes n v).length = n := by
  induction n generalizing v with
  | zero => rfl
  | succ n ih => rw [leBytes, List.length_cons, ih]

/-- What a write of a DRAM home changes: the bytes, poison, the access bit and the byte counts. -/
theorem dramWritten_frame (s : State) {x : Access} (bs : List Byte) (h : x.poison = []) :
    ∃ f p r, ((s.storeAcc x bs).touch (x.addr / tileBytes)).countDram true x.addr bs.length =
      { s with mem := Mem.write s.mem x.addr bs, ms := { s.ms with frames := f, poison := p }, regs := r } ∧
    DramRegs s (((s.storeAcc x bs).touch (x.addr / tileBytes)).countDram true x.addr bs.length) [] := by
  have hc := countDram_counts ((s.storeAcc x bs).touch (x.addr / tileBytes)) true x.addr bs.length
  have htouch : ∃ f p, (s.storeAcc x bs).touch (x.addr / tileBytes) =
      { s with mem := Mem.write s.mem x.addr bs, ms := { s.ms with frames := f, poison := p } } := by
    rw [touch_frame, storeAcc_plain s bs h]
    exact ⟨_, _, rfl⟩
  obtain ⟨f, p, ht⟩ := htouch
  refine ⟨f, p, (((s.storeAcc x bs).touch (x.addr / tileBytes)).countDram true x.addr bs.length).regs, ?_, fun a ha hk => ?_⟩
  · rw [hc.1, ht]
  · exact (dramRegs_of_counts hc a ha hk).trans (rd_congr (by rw [ht]) a)

/-- The state in which the first write of a tile stores: the frame is taken and is the tile's home. -/
def placed (s : State) (n loc o : Nat) : State := (s.takeFrame loc (.tile n) o).tileSet n ⟨.dram, false, loc, false⟩

/-- What placing a tile changes: its entry and its frame. -/
theorem placed_spec (s : State) (n loc o : Nat) :
    (∀ k, (s.placed n loc o).tile k = if k = n then ⟨.dram, false, loc, false⟩ else s.tile k) ∧
    Map.get? (s.placed n loc o).ms.frames loc = some ⟨.tile n, o, true, false⟩ ∧
    s.placed n loc o = { s with ms := { s.ms with frames := (s.placed n loc o).ms.frames, tiles := (s.placed n loc o).ms.tiles } } :=
  ⟨fun _ => tile_tileSet .., Map.get?_set_self .., rfl⟩

/-- What the first write of a tile changes: its entry, its frame, its bytes and their poison. -/
theorem placed_storeAcc (s : State) (n loc o : Nat) {x : Access} (bs : List Byte) (h : x.poison = []) {v : State}
    (hv : v = (s.placed n loc o).storeAcc x bs) :
    (∀ k, v.tile k = if k = n then ⟨.dram, false, loc, false⟩ else s.tile k) ∧
    Map.get? v.ms.frames loc = some ⟨.tile n, o, true, false⟩ ∧
    v = { s with mem := Mem.write s.mem x.addr bs
                 ms := { s.ms with frames := v.ms.frames, tiles := v.ms.tiles, poison := v.ms.poison } } := by
  obtain ⟨htile, hframe, hrest⟩ := placed_spec s n loc o
  generalize s.placed n loc o = w at *
  have hst := storeAcc_plain w bs h
  rw [← hv] at hst
  have htiles : v.ms.tiles = w.ms.tiles := by rw [hst]
  have hframes : v.ms.frames = w.ms.frames := by rw [hst]
  refine ⟨fun k => ?_, by rw [hframes, hframe], ?_⟩
  · rw [← htile k, tile, tile, htiles]
  · rw [hst, hrest]

end State
end Sys2Proof.Machine

namespace Sys2Proof.Proofs
open Sys2Proof Sys2Proof.Machine Sys2Proof.Machine.State

/-- A read of a DRAM home (R153, R156, R174). -/
theorem read_dram (s : State) (x : Access) (hw : s.meshWaits .request (s.accDie x) (s.addrDie x.addr) = false) (hop : x.op = none)
    (hk : x.kind = .read) (hf : x.fresh < 2 ^ 64) (h0 : 0 < x.len) (h : x.addr % tileBytes + x.len ≤ tileBytes)
    (hd : s.deny x.who x.addr false = none) (ht : (s.tile (x.addr / tileBytes)).st = .dram)
    (he : s.erasedSyms (stackOf (s.tile (x.addr / tileBytes)).loc) ≤ 4) (hp : s.anyPoison x.addr x.len = false) :
    ∃ t, exec (.mpdAccess x .clean) s = .next t ∧
      t = { s with ms := { s.ms with frames := t.ms.frames }, regs := t.regs
                   outbox := s.outbox ++ [.reply x.fresh 0 0 (s.bytesAt x.addr x.len)] } ∧ DramRegs s t [] := by
  obtain ⟨⟨f, r, hr⟩, hregs⟩ := readAt_frame s x.addr x.len
  have hserve : s.serve (plainAcc x) = (s.readAt x.addr x.len).replied x 0 0 (s.bytesAt x.addr x.len) := by
    have hp' : (s.readAt x.addr x.len).anyPoison x.addr x.len = false := by rw [hr]; exact hp
    have hb : (s.readAt x.addr x.len).bytesAt x.addr x.len = s.bytesAt x.addr x.len := by rw [hr]; rfl
    refine (serve_read_dram (x := plainAcc x) hk h0 h hd ht).trans ((answer_plain _ _ 0 _ hop hf).trans ?_)
    rw [show (plainAcc x).addr = x.addr from rfl, show (plainAcc x).len = x.len from rfl, hp', hb]
    rfl
  have hex := mpdAccess_served .clean hw (by simp only [accLen, hk]; exact h0) (by simp only [accLen, hk]; exact h)
  rw [mpdServe_clean (x := plainAcc x) he, hserve] at hex
  rw [hr] at hex hregs
  exact ⟨_, hex, rfl, hregs⟩

/-- A read of a flash home (R153, R157, R165). -/
theorem read_flash (s : State) (x : Access) (e : EccResult) (hw : s.meshWaits .request (s.accDie x) (s.addrDie x.addr) = false)
    (hk : x.kind = .read) (h0 : 0 < x.len) (h : x.addr % tileBytes + x.len ≤ tileBytes)
    (hd : s.deny x.who x.addr false = none) (ht : (s.tile (x.addr / tileBytes)).st = .flash) :
    ∃ t, exec (.mpdAccess x e) s = .next t ∧ t = { s with ms := { s.ms with reads := t.ms.reads, own := t.ms.own, asks := t.ms.asks } } ∧
      Map.get? t.ms.reads (Map.nextKey s.ms.reads) = some ⟨x.addr / tileBytes, s.ft, .acc { x with rem := none, poison := [] }, false, none⟩ := by
  have hex := mpdAccess_served e hw (by simp only [accLen, hk]; exact h0) (by simp only [accLen, hk]; exact h)
  rw [mpdServe_plain (x := plainAcc x) e (.inr (by rw [show (plainAcc x).addr = x.addr from rfl, ht]; decide)),
    serve_read_flash (x := plainAcc x) hk h0 h hd ht] at hex
  have htouch := fillTouch_flash ht
  have ht' : ((s.fillTouch (x.addr / tileBytes)).tile (x.addr / tileBytes)).st = .flash := by rw [htouch]; exact ht
  rw [show (plainAcc x).addr = x.addr from rfl, flashRead, if_pos (by simp [ht']), htouch] at hex
  exact ⟨_, hex, rfl, Map.get?_set_self _ _ _⟩

/-- A write of a DRAM home (R153, R174). -/
theorem write_dram (s : State) (x : Access) (e : EccResult) (hw : s.meshWaits .request (s.accDie x) (s.addrDie x.addr) = false)
    (hop : x.op = none) (hk : x.kind = .write) (hf : x.fresh < 2 ^ 64) (hne : x.data ≠ [])
    (h : x.addr % tileBytes + x.data.length ≤ tileBytes) (hd : s.deny x.who x.addr true = none)
    (ht : (s.tile (x.addr / tileBytes)).st = .dram) :
    ∃ t, exec (.mpdAccess x e) s = .next t ∧
      t = { s with ms := { s.ms with frames := t.ms.frames, poison := t.ms.poison }, mem := t.mem, regs := t.regs
                   outbox := s.outbox ++ [.reply x.fresh 0 0 []] } ∧ DramRegs s t [] ∧
      Mem.read t.mem x.addr x.data.length = x.data ∧
      ∀ a, a < x.addr ∨ x.addr + x.data.length ≤ a → Mem.get t.mem a = Mem.get s.mem a := by
  have hex := mpdAccess_served e hw (by simp only [accLen, hk]; exact List.length_pos_iff.2 hne) (by simp only [accLen, hk]; exact h)
  have hst : s.accStored (plainAcc x) = x.data := by simp only [accStored, accBytes, plainAcc, hk]
  obtain ⟨f, p, r, hwr, hregs⟩ := dramWritten_frame s (x := plainAcc x) x.data rfl
  have htile := writeTile_dram (x := plainAcc x) ht
  rw [hst] at htile
  have hserve := serve_write (x := plainAcc x) hk hd htile (by rw [show (plainAcc x).addr = x.addr from rfl, ht]; decide)
  rw [hwr] at hserve hregs
  rw [if_pos rfl, answer_plain _ _ _ _ hop hf] at hserve
  rw [mpdServe_plain (x := plainAcc x) e (.inl hk), hserve] at hex
  exact ⟨_, hex, rfl, hregs, written_mem s.mem x.addr x.data⟩

/-- An atomic on a DRAM home (R146, R230). -/
theorem atomic_dram (s : State) (x : Access) (hw : s.meshWaits .request (s.accDie x) (s.addrDie x.addr) = false) (hop : x.op = none)
    (hk : x.kind = .atomic) (hf : x.fresh < 2 ^ 64) (hal : x.addr % atomicSize x = 0)
    (hnew : (atomicNew (x.len % 16) (atomicSize x) 0 0 0).isSome = true) (hd : s.deny x.who x.addr true = none)
    (ht : (s.tile (x.addr / tileBytes)).st = .dram) (he : s.erasedSyms (stackOf (s.tile (x.addr / tileBytes)).loc) ≤ 4)
    (hp : s.anyPoison x.addr (atomicSize x) = false) :
    ∃ t v, exec (.mpdAccess x .clean) s = .next t ∧
      t = { s with ms := { s.ms with frames := t.ms.frames, poison := t.ms.poison }, mem := t.mem, regs := t.regs
                   outbox := s.outbox ++ [.reply x.fresh 0 0 (s.bytesAt x.addr (atomicSize x))] } ∧
      atomicNew (x.len % 16) (atomicSize x) (leNat (s.bytesAt x.addr (atomicSize x))) (leNat (x.data.take 8)) (leNat (x.data.drop 8)) = some v ∧
      Mem.read t.mem x.addr (atomicSize x) = leBytes (atomicSize x) v ∧
      ∀ a, a < x.addr ∨ x.addr + atomicSize x ≤ a → Mem.get t.mem a = Mem.get s.mem a := by
  obtain ⟨v, hv⟩ := atomicNew_isSome hnew (leNat (s.bytesAt x.addr (atomicSize x))) (leNat (x.data.take 8)) (leNat (x.data.drop 8))
  have hex := mpdAccess_served .clean hw (by simp only [accLen, hk]; exact atomicSize_pos x) (by simp only [accLen, hk]; exact atomic_in_tile hal)
  have hst : s.accStored (plainAcc x) = leBytes (atomicSize x) v := by
    simp only [accStored, accBytes, plainAcc, hk]
    exact (congrArg (fun o => match o with | some v => leBytes (atomicSize x) v | none => s.bytesAt x.addr (atomicSize x)) hv)
  obtain ⟨f, p, r, hwr, -⟩ := dramWritten_frame s (x := plainAcc x) (leBytes (atomicSize x) v) rfl
  have htile := writeTile_dram (x := plainAcc x) ht
  rw [hst, hwr] at htile
  have hserve := serve_atomic (x := plainAcc x) hk hd hal hnew hp htile (by rw [show (plainAcc x).addr = x.addr from rfl, ht]; decide) rfl
  rw [answer_plain _ _ _ _ hop hf] at hserve
  rw [mpdServe_clean (x := plainAcc x) he, hserve] at hex
  have hmem := written_mem s.mem x.addr (leBytes (atomicSize x) v)
  rw [length_leBytes] at hmem
  exact ⟨_, v, hex, rfl, hv, hmem⟩

/-- A requester without the right (R143, R153). -/
theorem write_denied (s : State) (x : Access) (e : EccResult) (c d : Nat) (hw : s.meshWaits .request (s.accDie x) (s.addrDie x.addr) = false)
    (hop : x.op = none) (hk : x.kind = .write) (hf : x.fresh < 2 ^ 64) (hne : x.data ≠ [])
    (h : x.addr % tileBytes + x.data.length ≤ tileBytes) (hd : s.deny x.who x.addr true = some (c, d)) :
    exec (.mpdAccess x e) s = .next { s with outbox := s.outbox ++ [.reply x.fresh c d []] } := by
  rw [mpdAccess_served e hw (by simp only [accLen, hk]; exact List.length_pos_iff.2 hne) (by simp only [accLen, hk]; exact h),
    mpdServe_plain (x := plainAcc x) e (.inl hk), serve_write_denied (x := plainAcc x) hk hd, answer_plain _ _ _ _ hop hf]
  rfl

/-- The first write of a tile (R146, R160). -/
theorem write_first (s : State) (x : Access) (e : EccResult) (loc : Nat) (hw : s.meshWaits .request (s.accDie x) (s.addrDie x.addr) = false)
    (hop : x.op = none) (hk : x.kind = .write) (hf : x.fresh < 2 ^ 64) (hne : x.data ≠ [])
    (h : x.addr % tileBytes + x.data.length ≤ tileBytes) (hd : s.deny x.who x.addr true = none)
    (ht : s.tile (x.addr / tileBytes) = Tile.none) (hfull : s.tableFull (x.addr / tileBytes / 65536) = false)
    (h2 : rgnTier (s.rgnAt x.addr) ≠ 2) (hq : 0 < s.dFree (rgnOwner (s.rgnAt x.addr))) (hl : s.placeFrame (x.addr / tileBytes) = some loc) :
    ∃ t, exec (.mpdAccess x e) s = .next t ∧ t.tile (x.addr / tileBytes) = ⟨.dram, false, loc, false⟩ ∧
      (∃ f, Map.get? t.ms.frames loc = some f ∧ f.use = .tile (x.addr / tileBytes) ∧ f.owner = rgnOwner (s.rgnAt x.addr)) ∧
      Mem.read t.mem x.addr x.data.length = x.data ∧
      (∀ a, a < x.addr ∨ x.addr + x.data.length ≤ a → Mem.get t.mem a = Mem.get s.mem a) ∧
      (∀ n, n ≠ x.addr / tileBytes → t.tile n = s.tile n) ∧ DramRegs s t [] ∧
      t.outbox = s.outbox ++ [.reply x.fresh 0 0 []] := by
  have hex := mpdAccess_served e hw (by simp only [accLen, hk]; exact List.length_pos_iff.2 hne) (by simp only [accLen, hk]; exact h)
  have hst : s.accStored (plainAcc x) = x.data := by simp only [accStored, accBytes, plainAcc, hk]
  have htile := writeTile_first (x := plainAcc x) ht hfull h2 hq hl
  rw [hst] at htile
  obtain ⟨v, hv⟩ : ∃ v, v = (s.placed (x.addr / tileBytes) loc (rgnOwner (s.rgnAt x.addr))).storeAcc (plainAcc x) x.data := ⟨_, rfl⟩
  rw [show (plainAcc x).addr = x.addr from rfl, ← placed, ← hv] at htile
  obtain ⟨htiles, hframes, hfr⟩ := placed_storeAcc s _ loc _ x.data rfl hv
  clear hv
  have hc := countDram_counts v true x.addr x.data.length
  have hregs := dramRegs_of_counts hc
  have hu := hc.1
  generalize v.countDram true x.addr x.data.length = u at *
  have hums : u.ms = v.ms := by rw [hu]
  have hserve := serve_write (x := plainAcc x) hk hd htile (by rw [show (plainAcc x).addr = x.addr from rfl, ht]; decide)
  rw [if_pos (by rw [hums, hfr]), answer_plain _ _ _ _ hop hf] at hserve
  rw [mpdServe_plain (x := plainAcc x) e (.inl hk), hserve] at hex
  obtain ⟨hin, hout⟩ := written_mem s.mem x.addr x.data
  have humem : u.mem = Mem.write s.mem x.addr x.data := by rw [hu, hfr]; rfl
  have hutile (n : Nat) : u.tile n = v.tile n := by rw [tile, tile, hums]
  have hpend : (u.replied x 0 0 []).pending = s.pending := by rw [show (u.replied x 0 0 []).pending = u.pending from rfl, hu, hfr]
  rw [keepQueue_of_pending hpend] at hex
  refine ⟨u.replied x 0 0 [], hex, (hutile _).trans ((htiles _).trans (if_pos rfl)), ⟨⟨.tile (x.addr / tileBytes), rgnOwner (s.rgnAt x.addr), true, false⟩, ?_, rfl, rfl⟩,
    ?_, ?_, fun n hn => ?_, fun a ha hk => ?_, ?_⟩
  · rw [show (u.replied x 0 0 []).ms = u.ms from rfl, hums, hframes]
  · rw [show (u.replied x 0 0 []).mem = u.mem from rfl, humem, hin]
  · rw [show (u.replied x 0 0 []).mem = u.mem from rfl, humem]
    exact hout
  · exact (hutile n).trans ((htiles n).trans (if_neg hn))
  · exact (hregs a ha hk).trans (rd_congr (by rw [hfr]) a)
  · rw [replied, hu, hfr]

/-- A write to a tile that moves (R153). -/
theorem write_moving (s : State) (x : Access) (e : EccResult) (hw : s.meshWaits .request (s.accDie x) (s.addrDie x.addr) = false)
    (hk : x.kind = .write) (hne : x.data ≠ []) (h : x.addr % tileBytes + x.data.length ≤ tileBytes)
    (hd : s.deny x.who x.addr true = none)
    (ht : (s.tile (x.addr / tileBytes)).st = .movingD ∨ (s.tile (x.addr / tileBytes)).st = .movingF) :
    exec (.mpdAccess x e) s = .next { s with ms := { s.ms with waits := s.ms.waits ++ [⟨{ x with rem := none, poison := [] }, true⟩] } } := by
  have hserve := serve_write (x := plainAcc x) hk hd (writeTile_moving (x := plainAcc x) ht) (by
    rcases ht with ht | ht <;> rw [show (plainAcc x).addr = x.addr from rfl, ht] <;> decide)
  rw [mpdAccess_served e hw (by simp only [accLen, hk]; exact List.length_pos_iff.2 hne) (by simp only [accLen, hk]; exact h),
    mpdServe_plain (x := plainAcc x) e (.inl hk), hserve, if_neg (by simp)]
  rfl

/-- An access with a drained link on its way (R28, R174). -/
theorem access_held (s : State) (x : Access) (e : EccResult) (hw : s.meshWaits .request (s.accDie x) (s.addrDie x.addr) = true)
    (hr : x.kind = .read → 0 < x.len ∧ x.addr % tileBytes + x.len ≤ tileBytes)
    (hwr : x.kind = .write → 0 < x.data.length ∧ x.addr % tileBytes + x.data.length ≤ tileBytes)
    (ha : x.kind = .atomic → x.addr % tileBytes + atomicSize x ≤ tileBytes) :
    exec (.mpdAccess x e) s =
      .next { s with meshQ := s.meshQ ++ [⟨.request, s.accDie x, s.addrDie x.addr, .access { x with rem := none, poison := [] } e⟩] } := by
  have hlen : 0 < accLen x ∧ x.addr % tileBytes + accLen x ≤ tileBytes := by
    unfold accLen
    cases hk : x.kind with
    | read => exact hr hk
    | write => exact hwr hk
    | atomic => exact ⟨atomicSize_pos x, ha hk⟩
  exact mpdAccess_held e hw hlen.1 hlen.2

/-- Settles O14, clause by clause. -/
theorem memoryAccess : Obligations.MemoryAccess :=
  ⟨read_dram, fun s x e hw _ hk h0 h hd ht => read_flash s x e hw hk h0 h hd ht, write_dram, atomic_dram, write_denied, write_first,
    fun s x e hw _ hk hne h hd ht => write_moving s x e hw hk hne h hd ht, access_held⟩

end Sys2Proof.Proofs
end

section
/-! PROOFS. A record's life (O7): completions first, then the commands of chapter 04. -/
namespace Sys2Proof.Machine
open Sys2Proof

namespace State

/-! ### Completions (R113, R114, R516) -/

/-- A signal's counter is one of 256. -/
theorem sigCtr_lt (c : CmdRec) : CmdRecF.sigCtr c < 256 := Nat.mod_lt _ (by decide)

theorem signalDep_off (s : State) (t : Nat) {c : CmdRec} (code : Byte) (h : CmdRecF.sigEn c = false) : s.signalDep t c code = s := by
  rw [signalDep, h]; rfl

/-- A signal adds its amount to its own counter (R113). -/
theorem signalDep_dep (s : State) (t : Nat) {c : CmdRec} (code : Byte) (h : CmdRecF.sigEn c = true) (t' : Nat) {n : Nat} (hn : n < 256) :
    (s.signalDep t c code).dep t' n =
      if t' = t ∧ n = CmdRecF.sigCtr c then satAdd64 (s.dep t (CmdRecF.sigCtr c)) c.sigAmt.toNat else s.dep t' n := by
  rw [← dep_depSet s t _ t' n _ (sigCtr_lt c) hn, signalDep, if_pos h]
  simp only
  split
  · rfl
  · rw [regsSent_raise]; rfl

/-- A signal with a CODE other than OK sets its counter's FAULT bit (R114). -/
theorem signalDep_fault (s : State) (t : Nat) {c : CmdRec} {code : Byte} (h : CmdRecF.sigEn c = true) (hc : code ≠ 0) :
    (s.signalDep t c code).depFault t (CmdRecF.sigCtr c) = true := by
  rw [signalDep, if_pos h]
  simp only
  rw [if_neg hc, depFault, rdB, rd_raise, if_neg (canon_ne_of_off (by have := sigCtr_lt c; simp only [R.CRG_CTR_FAULT, R.INT_STAT]; omega)),
    setBits_eq, rd_wr_self, bit_or, bit_two_pow (Nat.mod_lt _ (by decide))]
  simp

/-- The completion before its item: the record is gone, DONE and the signal are done. -/
def signalled (s : State) (h : Nat) (o : RunOp) : State :=
  (({ s.used with ops := Map.erase s.ops h } : State).wr (R.CRG_RING_DONE o.tenant o.ring)
    (s.rd (R.CRG_RING_DONE o.tenant o.ring) + 1)).signalDep o.tenant o.cmd o.code

/-- A completion is its signal and then, where one is due, its item. -/
theorem complete_after_signal (s : State) (h : Nat) (o : RunOp) : ∃ r x m e f, s.complete h o =
    { s.signalled h o with regs := r, outbox := x, msix := m, evq := e, freeCtr := f } ∧
    RegsKept (s.signalled h o) (s.complete h o) [R.EVQ_GAP_CNT o.tenant (CmdRecF.evq o.cmd),
      R.EVQ_DISC_CNT o.tenant (CmdRecF.evq o.cmd), R.INT_STAT (0x50 + o.tenant)] := by
  have hc : s.complete h o = if (evtDue o || (CmdRecF.evt o.cmd == 3 && bit s.free 63)) = true then
      (s.signalled h o).used.storeItem o.tenant (CmdRecF.evq o.cmd) (CmdRecF.evtPrio o.cmd)
        (completionItem o (s.signalled h o).ft (s.signalled h o).free) else s.signalled h o := rfl
  rw [hc]
  generalize s.signalled h o = v
  split
  · obtain ⟨hf, hk⟩ := storeItem_spec v.used o.tenant (CmdRecF.evq o.cmd) (CmdRecF.evtPrio o.cmd) (completionItem o v.ft v.free)
    exact ⟨_, _, _, _, _, hf, hk⟩
  · exact ⟨_, _, _, _, _, rfl, kept_refl v _⟩

/-- The signal of a completion leaves DONE, which has advanced (R113). -/
theorem signalled_done (s : State) (h : Nat) (o : RunOp) (hr : o.ring < 16) :
    (s.signalled h o).rd (R.CRG_RING_DONE o.tenant o.ring) = s.rd (R.CRG_RING_DONE o.tenant o.ring) + 1 := by
  have := sigCtr_lt o.cmd
  rw [signalled, (signalDep_spec _ o.tenant o.cmd o.code).2 _ ?_, rd_wr_self]
  simp only [List.mem_cons, List.not_mem_nil, or_false, forall_eq_or_imp, forall_eq]
  refine ⟨canon_ne_of_off ?_, canon_ne_of_off ?_⟩ <;> simp only [R.CRG_RING_DONE, R.CRG_CTR_FAULT, R.INT_STAT] <;> omega

/-- The completion of a record is recorded (R113, R114). -/
theorem complete_recorded (s : State) (h : Nat) (o : RunOp) (hr : o.ring < 16) : Recorded s (s.complete h o) h o o.code := by
  obtain ⟨r, x, m, e, f, hf, hk⟩ := complete_after_signal s h o
  have hops : (s.complete h o).ops = Map.erase s.ops h := by rw [(complete_spec s h o).1]
  have hop (k : Nat) : (s.complete h o).op? k = if k = h then none else s.op? k := by rw [op?, hops, Map.get?_erase]; rfl
  have hdep (t n : Nat) : (s.complete h o).dep t n = (s.signalled h o).dep t n := by rw [dep, dep, hf]
  have hctr := sigCtr_lt o.cmd
  have hevq : CmdRecF.evq o.cmd < 16 := Nat.mod_lt _ (by decide)
  refine ⟨by rw [(complete_spec s h o).1], by rw [hop, if_pos rfl], fun k hne => by rw [hop, if_neg hne], ?_, fun hs => ?_, fun hs => ⟨?_, ?_, fun hc => ?_⟩⟩
  · rw [hk _ ?_, signalled_done s h o hr]
    simp only [List.mem_cons, List.not_mem_nil, or_false, forall_eq_or_imp, forall_eq]
    refine ⟨canon_ne_of_off ?_, canon_ne_of_off ?_, canon_ne_of_off ?_⟩ <;>
      simp only [R.CRG_RING_DONE, R.EVQ_GAP_CNT, R.EVQ_DISC_CNT, R.INT_STAT] <;> omega
  · rw [hf, signalled, signalDep_off _ _ _ hs]
    rfl
  · rw [hdep, signalled, signalDep_dep _ _ _ hs _ hctr, if_pos ⟨rfl, rfl⟩]
    rfl
  · intro t n hn hne
    rw [hdep, signalled, signalDep_dep _ _ _ hs _ hn, if_neg hne]
    rfl
  · rw [depFault, rdB, hk _ ?_]
    · exact signalDep_fault _ o.tenant hs hc
    · simp only [List.mem_cons, List.not_mem_nil, or_false, forall_eq_or_imp, forall_eq]
      refine ⟨canon_ne_of_off ?_, canon_ne_of_off ?_, canon_ne_of_off ?_⟩ <;>
        simp only [R.CRG_CTR_FAULT, R.EVQ_GAP_CNT, R.EVQ_DISC_CNT, R.INT_STAT] <;> omega

/-- The fields of its item aside, a record is what it was (R341). -/
theorem recFields_same (s : State) (o : RunOp) : (s.recFields o).tenant = o.tenant ∧ (s.recFields o).ring = o.ring ∧
    (s.recFields o).cmd = o.cmd ∧ (s.recFields o).code = o.code := by
  unfold recFields
  simp only
  split_ifs <;> exact ⟨rfl, rfl, rfl, rfl⟩

/-- A completion is recorded of any state with the same records, memory, counters and DONE. -/
theorem recorded_congr {s s' u : State} {h : Nat} {o o' : RunOp} {c : Byte} (hr : Recorded s u h o c) (hmem : s'.mem = s.mem)
    (hops : s'.ops = s.ops) (hdep : s'.depCtr = s.depCtr)
    (hdone : s'.rd (R.CRG_RING_DONE o.tenant o.ring) = s.rd (R.CRG_RING_DONE o.tenant o.ring))
    (ht : o'.tenant = o.tenant) (hring : o'.ring = o.ring) (hc : o'.cmd = o.cmd) : Recorded s' u h o' c := by
  simp only [Recorded, op?, dep, ht, hring, hc, hmem, hops, hdep, hdone] at hr ⊢
  exact hr

/-- A record that never ran completes with the CODE given (R113). -/
theorem completeUnrun_recorded (s : State) (h : Nat) (o : RunOp) (code detail : Byte) (hr : o.ring < 16) :
    Recorded s (s.completeUnrun h o code detail) h o code := by
  obtain ⟨ht, hring, hc, hcode⟩ := recFields_same s { o with ftStart := 0, code := code, detail := detail }
  have hrec := complete_recorded s.used h (s.recFields { o with ftStart := 0, code := code, detail := detail }) (by rw [hring]; exact hr)
  rw [hcode] at hrec
  exact recorded_congr hrec rfl rfl rfl rfl ht.symm hring.symm hc.symm

/-- A record that never ran leaves, as it completes, the memory system and what is queued as they were. -/
theorem completeUnrun_frame (s : State) (h : Nat) (o : RunOp) (code detail : Byte) : ∃ r x m d e f, s.completeUnrun h o code detail =
    { s with ops := Map.erase s.ops h, regs := r, outbox := x, msix := m, depCtr := d, evq := e, freeCtr := f } :=
  ⟨_, _, _, _, _, _, (complete_spec s.used h _).1⟩

/-! ### Records of a ring and their triggers (R105, R115) -/

/-- The head record of a ring is one of that ring, not dispatched. -/
theorem ringHead_spec {s : State} {t r h : Nat} {o : RunOp} (hh : s.ringHead t r = some (h, o)) :
    o.tenant = t ∧ o.ring = r ∧ o.dispatched = false := by
  have hm := List.mem_of_head? hh
  simp only [ringWaiting, ringOps, List.mem_filter, Bool.and_eq_true, beq_iff_eq, Bool.not_eq_true'] at hm
  exact ⟨hm.1.2.1, hm.1.2.2, hm.2⟩

/-- The state in which FETCH and SEQ of a ring have advanced (R105). -/
def fetchedOne (s : State) (t r : Nat) : State :=
  (s.wr (R.CRG_RING_FETCH t r) (s.rd (R.CRG_RING_FETCH t r) + 1)).wr (R.CRG_RING_SEQ t r) (s.rd (R.CRG_RING_SEQ t r) + 1)

/-- FETCH and SEQ of a ring are different registers. -/
theorem canon_fetch_ne_seq (t r : Nat) : canon (R.CRG_RING_FETCH t r) ≠ canon (R.CRG_RING_SEQ t r) :=
  canon_ne_of_off (by simp only [R.CRG_RING_FETCH, R.CRG_RING_SEQ]; omega)

theorem fetchedOne_spec (s : State) (t r : Nat) : RegsKept s (s.fetchedOne t r) [R.CRG_RING_FETCH t r, R.CRG_RING_SEQ t r] ∧
    (s.fetchedOne t r).rd (R.CRG_RING_FETCH t r) = s.rd (R.CRG_RING_FETCH t r) + 1 ∧
    (s.fetchedOne t r).rd (R.CRG_RING_SEQ t r) = s.rd (R.CRG_RING_SEQ t r) + 1 := by
  unfold fetchedOne
  refine ⟨kept_trans (kept_wr s _ _) (kept_wr _ _ _) (by simp) (by simp), ?_, rd_wr_self ..⟩
  rw [rd_wr_ne _ _ (canon_fetch_ne_seq t r), rd_wr_self]

/-- A claim changes a trigger at most: none where one is shared, else the lowest free one (R115). -/
theorem claimTrigger_spec (s : State) (home : Nat) (ft : Word64) :
    (s.claimTrigger home ft).2 = { s with trigs := (s.claimTrigger home ft).2.trigs } ∧
    (∀ n, s.sharedTrigger 0 home ft = some n → (s.claimTrigger home ft).1 = some n ∧ (s.claimTrigger home ft).2.trigs = s.trigs) ∧
    (s.sharedTrigger 0 home ft = none → (s.claimTrigger home ft).1 = s.freeTrigger ∧
      (∀ n, s.freeTrigger = some n → (s.claimTrigger home ft).2.trigger n = ⟨ft, true, false, 0, home⟩) ∧
      ∀ n, s.freeTrigger ≠ some n → (s.claimTrigger home ft).2.trigger n = s.trigger n) := by
  unfold claimTrigger
  cases hs : s.sharedTrigger 0 home ft with
  | some n => exact ⟨rfl, fun m hm => ⟨hm, rfl⟩, nofun⟩
  | none =>
    cases hf : s.freeTrigger with
    | some n =>
      refine ⟨rfl, nofun, fun _ => ⟨rfl, fun m hm => ?_, fun m hm => ?_⟩⟩
      · cases hm
        exact (Map.get_put ..).trans (if_pos rfl)
      · exact (Map.get_put ..).trans (if_neg fun e => hm (by rw [e]))
    | none => exact ⟨rfl, nofun, fun _ => ⟨rfl, nofun, fun _ _ => rfl⟩⟩

/-- The state after a record's fetch in order, and the trigger the record has (R105, R115). -/
def fetchOutcome (s : State) (t r : Nat) (c : CmdRec) : Option Nat × Bool × State :=
  if CmdRecF.hold c && decide (s.ft < c.startFt) then
    let k := (s.fetchedOne t r).claimTrigger (s.ringHome t r) c.startFt
    (k.1, k.1.isNone, k.2)
  else (none, false, s.fetchedOne t r)

/-- A record in order is held as it was fetched, with its trigger (R105, R115). -/
theorem exec_recordFetch_ordered {s : State} {t r : Nat} {bytes b : List Byte} {ok : Bool} (hlen : bytes.length = 128) (ht : t < 64) (hr : r < 16)
    (hfatal : s.inFatal = false) (hen : s.ringEn t r = true) (hne : s.rd (R.CRG_RING_FETCH t r) ≠ s.rd (R.CRG_RING_PROD t r))
    (hroom : (s.ringWaiting t r).length < 8) (hcore : s.corePaused (s.ringHome t r) = false) (hb : s.ringBytes t r bytes ok = some b)
    (hseq : (recOf b).seq = s.rd (R.CRG_RING_SEQ t r)) :
    exec (.recordFetch t r bytes ok) s = keepQueue s (.next ((s.fetchOutcome t r (recOf b)).2.2.opSet (Map.nextKey s.ops)
      { fetched t r (recOf b) s.ft with trig := (s.fetchOutcome t r (recOf b)).1, local_ := (s.fetchOutcome t r (recOf b)).2.1 })) := by
  show execRecordFetch t r bytes ok s = _
  have hseq' : (s.wr (R.CRG_RING_FETCH t r) (s.rd (R.CRG_RING_FETCH t r) + 1)).rd (R.CRG_RING_SEQ t r) = s.rd (R.CRG_RING_SEQ t r) :=
    rd_wr_ne _ _ (canon_fetch_ne_seq t r).symm
  have hhome : (s.fetchedOne t r).ringHome t r = s.ringHome t r := by
    rw [ringHome, rdF, (fetchedOne_spec s t r).1 _ ?_]
    · rfl
    · simp only [List.mem_cons, List.not_mem_nil, or_false, forall_eq_or_imp, forall_eq]
      refine ⟨canon_ne_of_off ?_, canon_ne_of_off ?_⟩ <;> simp only [R.CRG_RING_CTL, R.CRG_RING_FETCH, R.CRG_RING_SEQ] <;> omega
  rw [execRecordFetch, if_neg (by simp [hlen]), if_pos ⟨ht, hr, hfatal, hen, hne, hroom, hcore⟩, hb]
  simp only
  rw [if_neg (by rw [hseq', hseq]; simp), fetchOutcome, hseq']
  rw [← fetchedOne, hhome, show (s.fetchedOne t r).ft = s.ft from rfl]
  cases CmdRecF.hold (recOf b) && decide (s.ft < (recOf b).startFt) <;> rfl

/-- The trigger a fetched record has: none without HOLD or once its time has come, else by the claim (R115). -/
theorem fetchOutcome_spec (s : State) (t r : Nat) (c : CmdRec) :
    (s.fetchOutcome t r c).2.2 = { s.fetchedOne t r with trigs := (s.fetchOutcome t r c).2.2.trigs } ∧
    ((CmdRecF.hold c = false ∨ c.startFt ≤ s.ft) →
      (s.fetchOutcome t r c).1 = none ∧ (s.fetchOutcome t r c).2.1 = false ∧ (s.fetchOutcome t r c).2.2.trigs = s.trigs) ∧
    (CmdRecF.hold c = true → s.ft < c.startFt →
      (∀ n, s.sharedTrigger 0 (s.ringHome t r) c.startFt = some n →
        (s.fetchOutcome t r c).1 = some n ∧ (s.fetchOutcome t r c).2.1 = false ∧ (s.fetchOutcome t r c).2.2.trigs = s.trigs) ∧
      (s.sharedTrigger 0 (s.ringHome t r) c.startFt = none →
        (s.fetchOutcome t r c).1 = s.freeTrigger ∧ (s.fetchOutcome t r c).2.1 = s.freeTrigger.isNone ∧
        (∀ n, (s.fetchOutcome t r c).1 = some n → (s.fetchOutcome t r c).2.2.trigger n = ⟨c.startFt, true, false, 0, s.ringHome t r⟩) ∧
        ∀ n, (s.fetchOutcome t r c).1 ≠ some n → (s.fetchOutcome t r c).2.2.trigger n = s.trigger n)) := by
  unfold fetchOutcome
  split
  next hc =>
    obtain ⟨hhold, hft⟩ : CmdRecF.hold c = true ∧ s.ft < c.startFt := by simpa using hc
    obtain ⟨hf, hshared, hfree⟩ := claimTrigger_spec (s.fetchedOne t r) (s.ringHome t r) c.startFt
    refine ⟨hf, fun h => ?_, fun _ _ => ⟨fun n hn => ?_, fun hn => ?_⟩⟩
    · rcases h with h | h
      · rw [hhold] at h; cases h
      · exact absurd hft (BitVec.not_lt.2 h)
    · obtain ⟨hk, htrigs⟩ := hshared n hn
      exact ⟨hk, congrArg Option.isNone hk, htrigs⟩
    · obtain ⟨hk, hself, hne⟩ := hfree hn
      exact ⟨hk, congrArg Option.isNone hk, fun n hn => hself n (hk ▸ hn), fun n hn => hne n fun e => hn (hk.trans e)⟩
  next hc =>
    refine ⟨rfl, fun _ => ⟨rfl, rfl, rfl⟩, fun hhold hft => absurd (by simp [hhold, hft]) hc⟩

end State
end Sys2Proof.Machine

namespace Sys2Proof.Proofs
open Sys2Proof Sys2Proof.Machine Sys2Proof.Machine.State

/-- RECORD_FETCH of a record in order (R105, R115). -/
theorem fetch_ordered (s : State) (t r : Nat) (bytes b : List Byte) (ok : Bool) (hlen : bytes.length = 128) (ht : t < 64) (hr : r < 16)
    (hfatal : s.inFatal = false) (hen : s.ringEn t r = true) (hne : s.rd (R.CRG_RING_FETCH t r) ≠ s.rd (R.CRG_RING_PROD t r))
    (hroom : (s.ringWaiting t r).length < 8) (hcore : s.corePaused (s.ringHome t r) = false) (hb : s.ringBytes t r bytes ok = some b)
    (hseq : (recOf b).seq = s.rd (R.CRG_RING_SEQ t r)) :
    ∃ u, exec (.recordFetch t r bytes ok) s = .next u ∧ u = { s with regs := u.regs, ops := u.ops, trigs := u.trigs } ∧
      (∃ trig loc, u.op? (Map.nextKey s.ops) = some { State.fetched t r (recOf b) s.ft with trig := trig, local_ := loc } ∧
        ((CmdRecF.hold (recOf b) = false ∨ (recOf b).startFt ≤ s.ft) → trig = none ∧ loc = false ∧ u.trigs = s.trigs) ∧
        (CmdRecF.hold (recOf b) = true → s.ft < (recOf b).startFt →
          (∀ n, s.sharedTrigger 0 (s.ringHome t r) (recOf b).startFt = some n → trig = some n ∧ loc = false ∧ u.trigs = s.trigs) ∧
          (s.sharedTrigger 0 (s.ringHome t r) (recOf b).startFt = none → trig = s.freeTrigger ∧ loc = s.freeTrigger.isNone ∧
            (∀ n, trig = some n → u.trigger n = ⟨(recOf b).startFt, true, false, 0, s.ringHome t r⟩) ∧
            ∀ n, trig ≠ some n → u.trigger n = s.trigger n))) ∧
      (∀ k, k ≠ Map.nextKey s.ops → u.op? k = s.op? k) ∧ RegsKept s u [R.CRG_RING_FETCH t r, R.CRG_RING_SEQ t r] ∧
      u.rd (R.CRG_RING_FETCH t r) = s.rd (R.CRG_RING_FETCH t r) + 1 ∧ u.rd (R.CRG_RING_SEQ t r) = s.rd (R.CRG_RING_SEQ t r) + 1 := by
  have hex := exec_recordFetch_ordered hlen ht hr hfatal hen hne hroom hcore hb hseq
  obtain ⟨hf, hnow, hlater⟩ := fetchOutcome_spec s t r (recOf b)
  obtain ⟨hkept, hfetch, hseq⟩ := fetchedOne_spec s t r
  generalize s.fetchOutcome t r (recOf b) = x at *
  obtain ⟨trig, loc, v⟩ := x
  simp only at hex hf hnow hlater
  have hregs (a : Nat) : v.rd a = (s.fetchedOne t r).rd a := rd_congr (by rw [hf]) a
  have hops (k : Nat) : v.op? k = s.op? k := by rw [hf]; rfl
  rw [keepQueue_of_pending (by rw [hf]; rfl)] at hex
  refine ⟨_, hex, ?_, ⟨trig, loc, op?_opSet_self .., hnow, hlater⟩, fun k hk => ?_, fun a ha => ?_, ?_, ?_⟩
  · rw [hf]; rfl
  · rw [op?_opSet_ne _ _ hk, hops]
  · exact (hregs a).trans (hkept a ha)
  · exact (hregs _).trans hfetch
  · exact (hregs _).trans hseq

end Sys2Proof.Proofs

namespace Sys2Proof.Machine
open Sys2Proof

/-- No register below the pages that are mirrored is one of those above. -/
theorem canon_ne_of_under {a b : Nat} (ha : a < 0x50000) (hb : 0x50000 ≤ b) : canon a ≠ canon b := by
  rw [canon_low ha]
  unfold canon
  simp only
  split_ifs <;> omega

namespace State

/-! ### A ring stops (R106, R119, R140) -/

/-- The registers of a ring that tell of its stop. -/
def RingReg (t r a : Nat) : Prop :=
  a = R.CRG_RING_CTL t r ∨ a = R.CRG_RING_SEQ t r ∨ a = R.CRG_RING_STAT t r ∨ a = R.CRG_STOPPED t

/-- They are none of those that items and interrupts of the tenant change. -/
theorem ringReg_ne_item {t r a : Nat} (h : RingReg t r a) (ht : t < 64) (hr : r < 16) (q : Nat) :
    ∀ b ∈ [R.EVQ_GAP_CNT t q, R.EVQ_DISC_CNT t q, R.INT_STAT (0x50 + t)], canon a ≠ canon b := by
  simp only [List.mem_cons, List.not_mem_nil, or_false, forall_eq_or_imp, forall_eq]
  refine ⟨canon_ne_of_under ?_ ?_, canon_ne_of_under ?_ ?_, canon_ne_of_under ?_ ?_⟩ <;>
    simp only [RingReg, R.CRG_RING_CTL, R.CRG_RING_SEQ, R.CRG_RING_STAT, R.CRG_STOPPED, R.EVQ_GAP_CNT, R.EVQ_DISC_CNT, R.INT_STAT] at * <;> omega

/-- They are none of those a completion of one of the ring's records changes. -/
theorem ringReg_ne_done {t r a : Nat} (h : RingReg t r a) (hr : r < 16) {n : Nat} (hn : n < 256) :
    ∀ b ∈ [R.CRG_RING_DONE t r, R.CRG_CTR_FAULT t (n / 32), R.INT_STAT (0x10 + t)], canon a ≠ canon b := by
  have hlt : n / 32 < 8 := Nat.div_lt_of_lt_mul hn
  generalize n / 32 = k at hlt ⊢
  simp only [List.mem_cons, List.not_mem_nil, or_false, forall_eq_or_imp, forall_eq]
  refine ⟨canon_ne_of_off ?_, canon_ne_of_off ?_, canon_ne_of_off ?_⟩ <;> rcases h with rfl | rfl | rfl | rfl <;>
    simp only [R.CRG_RING_CTL, R.CRG_RING_SEQ, R.CRG_RING_STAT, R.CRG_STOPPED, R.CRG_RING_DONE, R.CRG_CTR_FAULT, R.INT_STAT] <;> omega

/-- What a ring's records and items leave as they complete: its own registers, memory and the queue of messages. -/
def RingKeeps (t r : Nat) (s u : State) : Prop := KeepsOn (RingReg t r) s u ∧ u.mem = s.mem ∧ u.pending = s.pending

theorem ringKeeps_refl (t r : Nat) (s : State) : RingKeeps t r s s := ⟨keepsOn_refl _ s, rfl, rfl⟩

theorem ringKeeps_trans (t r : Nat) (s u v : State) (h : RingKeeps t r s u) (h' : RingKeeps t r u v) : RingKeeps t r s v :=
  ⟨keepsOn_trans h.1 h'.1, h'.2.1.trans h.2.1, h'.2.2.trans h.2.2⟩

theorem ringKeeps_storeItem (s : State) {t r : Nat} (ht : t < 64) (hr : r < 16) (q prio : Nat) (bs : List Byte) :
    RingKeeps t r s (s.storeItem t q prio bs) := by
  obtain ⟨hf, hk⟩ := storeItem_spec s t q prio bs
  exact ⟨keepsOn_of_kept hk fun a ha => ringReg_ne_item ha ht hr q, by rw [hf], by rw [hf]⟩

theorem ringKeeps_completeUnrun (s : State) {t r : Nat} (ht : t < 64) (hr : r < 16) (h : Nat) {o : RunOp} (hot : o.tenant = t) (hor : o.ring = r)
    (code detail : Byte) : RingKeeps t r s (s.completeUnrun h o code detail) := by
  obtain ⟨q, hrec⟩ : ∃ q, q = s.recFields { o with ftStart := 0, code := code, detail := detail } := ⟨_, rfl⟩
  have hk := (complete_spec s.used h q).2
  obtain ⟨ht', hr', -, -⟩ := recFields_same s { o with ftStart := 0, code := code, detail := detail }
  rw [← hrec] at ht' hr'
  rw [ht', hr', hot, hor, hrec, ← completeUnrun, ← hrec] at hk
  obtain ⟨_, _, _, _, _, _, hf⟩ := completeUnrun_frame s h o code detail
  refine ⟨fun a ha => hk a fun b hb => ?_, by rw [hf], by rw [hf]⟩
  have hdone := ringReg_ne_done ha hr (sigCtr_lt q.cmd)
  have hitem := ringReg_ne_item ha ht hr (CmdRecF.evq q.cmd)
  simp only [List.mem_cons, List.not_mem_nil, or_false, forall_eq_or_imp, forall_eq] at hb hdone hitem
  rcases hb with rfl | rfl | rfl | rfl | rfl | rfl
  exacts [hdone.1, hdone.2.1, hdone.2.2, hitem.1, hitem.2.1, hitem.2.2]

theorem ringKeeps_raise (s : State) {t r : Nat} (hr : r < 16) (b : Nat) : RingKeeps t r s (s.raise (0x10 + t) b) := by
  refine ⟨keepsOn_raise s b fun a ha => ringReg_ne_done ha hr (n := 0) (by decide) _ (by simp), ?_, ?_⟩ <;> rw [regsSent_raise]

/-- The records waiting on a ring are of that ring. -/
theorem mem_ringWaiting {s : State} {t r : Nat} {p : Nat × RunOp} :
    p ∈ s.ringWaiting t r ↔ p ∈ s.ops ∧ p.2.tenant = t ∧ p.2.ring = r ∧ p.2.dispatched = false := by
  simp only [ringWaiting, ringOps, List.mem_filter, Bool.and_eq_true, beq_iff_eq, Bool.not_eq_true', and_assoc]

theorem ringKeeps_abortWaiting (s : State) {t r : Nat} (ht : t < 64) (hr : r < 16) (detail : Byte) : RingKeeps t r s (s.abortWaiting t r detail) :=
  foldl_rel (ringKeeps_refl t r) (ringKeeps_trans t r) (fun u p hp => by
    obtain ⟨-, hpt, hpr, -⟩ := mem_ringWaiting.1 hp
    exact ringKeeps_completeUnrun u ht hr p.1 hpt hpr 0x0C detail) s

/-- Records completed unrun are gone, and none is new. -/
theorem completeUnruns_ops (l : List (Nat × RunOp)) (code detail : Byte) (s : State) {p : Nat × RunOp}
    (hp : p ∈ (l.foldl (fun u q => u.completeUnrun q.1 q.2 code detail) s).ops) : p ∈ s.ops ∧ ∀ q ∈ l, p.1 ≠ q.1 := by
  induction l generalizing s with
  | nil => exact ⟨hp, nofun⟩
  | cons q l ih =>
    obtain ⟨hmem, hne⟩ := ih _ hp
    obtain ⟨_, _, _, _, _, _, hf⟩ := completeUnrun_frame s q.1 q.2 code detail
    rw [show (fun u q => completeUnrun u q.1 q.2 code detail) s q = s.completeUnrun q.1 q.2 code detail from rfl, hf] at hmem
    obtain ⟨hs, hq⟩ : p ∈ s.ops ∧ p.1 ≠ q.1 := by simpa [Map.erase] using hmem
    exact ⟨hs, List.forall_mem_cons.2 ⟨hq, hne⟩⟩

/-- No record waits on a ring whose waiting records were aborted (R135, R140). -/
theorem ringWaiting_abortWaiting (s : State) (t r : Nat) (detail : Byte) : (s.abortWaiting t r detail).ringWaiting t r = [] := by
  refine List.eq_nil_iff_forall_not_mem.2 fun p hp => ?_
  obtain ⟨hmem, hw⟩ := mem_ringWaiting.1 hp
  obtain ⟨hs, hne⟩ := completeUnruns_ops _ _ _ s hmem
  exact hne p (mem_ringWaiting.2 ⟨hs, hw⟩) rfl

/-- The registers a stop writes: EN cleared, the cause, and the ring's STOPPED bit (R106, R119, R140). -/
def stopMarked (s : State) (t r cause : Nat) : State :=
  ((s.clrBits (R.CRG_RING_CTL t r) 0x80000000#32).wrF (R.CRG_RING_STAT t r) 30 27 (8 + cause)).setBits (R.CRG_STOPPED t) (BitVec.ofNat 32 (2 ^ r))

/-- A stop marks the ring, makes an item, and aborts the waiting records. -/
theorem ringStop_eq (s : State) (t r cause : Nat) (o : Option RunOp) : ∃ q prio bs, s.ringStop t r cause o =
    (((s.stopMarked t r cause).used.used.storeItem t q prio bs).abortWaiting t r 2).raise (0x10 + t) 1 := ⟨_, _, _, rfl⟩

theorem ringStop_keeps (s : State) {t r : Nat} (ht : t < 64) (hr : r < 16) (cause : Nat) (o : Option RunOp) :
    RingKeeps t r (s.stopMarked t r cause) (s.ringStop t r cause o) := by
  obtain ⟨q, prio, bs, h⟩ := ringStop_eq s t r cause o
  rw [h]
  generalize s.stopMarked t r cause = v
  have hitem : RingKeeps t r v (v.used.used.storeItem t q prio bs) := ringKeeps_storeItem v.used.used ht hr q prio bs
  generalize v.used.used.storeItem t q prio bs = w at *
  exact ringKeeps_trans _ _ _ _ _ (ringKeeps_trans _ _ _ _ _ hitem (ringKeeps_abortWaiting w ht hr 2)) (ringKeeps_raise _ hr 1)

/-- What the registers a stop writes read. -/
theorem stopMarked_spec (s : State) (t : Nat) {r : Nat} (hr : r < 16) {cause : Nat} (hc : cause < 8) :
    (s.stopMarked t r cause).rdB (R.CRG_RING_CTL t r) 31 = false ∧ (s.stopMarked t r cause).rdF (R.CRG_RING_STAT t r) 30 27 = 8 + cause ∧
    (s.stopMarked t r cause).rdB (R.CRG_STOPPED t) r = true ∧ (s.stopMarked t r cause).rd (R.CRG_RING_SEQ t r) = s.rd (R.CRG_RING_SEQ t r) := by
  have hcs : canon (R.CRG_RING_CTL t r) ≠ canon (R.CRG_RING_STAT t r) := canon_ne_of_off (by simp only [R.CRG_RING_CTL, R.CRG_RING_STAT]; omega)
  have hcp : canon (R.CRG_RING_CTL t r) ≠ canon (R.CRG_STOPPED t) := canon_ne_of_off (by simp only [R.CRG_RING_CTL, R.CRG_STOPPED]; omega)
  have hsp : canon (R.CRG_RING_STAT t r) ≠ canon (R.CRG_STOPPED t) := canon_ne_of_off (by simp only [R.CRG_RING_STAT, R.CRG_STOPPED]; omega)
  have hqc : canon (R.CRG_RING_SEQ t r) ≠ canon (R.CRG_RING_CTL t r) := canon_ne_of_off (by simp only [R.CRG_RING_SEQ, R.CRG_RING_CTL]; omega)
  have hqs : canon (R.CRG_RING_SEQ t r) ≠ canon (R.CRG_RING_STAT t r) := canon_ne_of_off (by simp only [R.CRG_RING_SEQ, R.CRG_RING_STAT]; omega)
  have hqp : canon (R.CRG_RING_SEQ t r) ≠ canon (R.CRG_STOPPED t) := canon_ne_of_off (by simp only [R.CRG_RING_SEQ, R.CRG_STOPPED]; omega)
  unfold stopMarked
  refine ⟨?_, ?_, ?_, ?_⟩
  · rw [rdB, setBits_eq, rd_wr_ne _ _ hcp, wrF_eq, rd_wr_ne _ _ hcs, clrBits_eq, rd_wr_self, bit_and, bit_not _ (by decide)]
    simp [show bit 0x80000000#32 31 = true from rfl]
  · rw [rdF, setBits_eq, rd_wr_ne _ _ hsp]
    exact (rdF_wrF_self _ _ _ (by decide)).trans (Nat.mod_eq_of_lt (by omega))
  · rw [rdB, setBits_eq, rd_wr_self, bit_or, bit_two_pow (by omega)]
    simp
  · rw [setBits_eq, rd_wr_ne _ _ hqp, wrF_eq, rd_wr_ne _ _ hqs, clrBits_eq, rd_wr_ne _ _ hqc]

/-- A stopped ring has EN cleared, STOPPED and the cause set, no record waiting, and SEQ as it was (R106, R119, R140). -/
theorem ringStop_spec (s : State) {t r : Nat} (ht : t < 64) (hr : r < 16) {cause : Nat} (hc : cause < 8) (o : Option RunOp) :
    (s.ringStop t r cause o).ringEn t r = false ∧ (s.ringStop t r cause o).ringStopped t r = true ∧
    (s.ringStop t r cause o).ringWaiting t r = [] ∧ (s.ringStop t r cause o).rdF (R.CRG_RING_STAT t r) 30 27 = 8 + cause ∧
    (s.ringStop t r cause o).rd (R.CRG_RING_SEQ t r) = s.rd (R.CRG_RING_SEQ t r) ∧ (s.ringStop t r cause o).mem = s.mem ∧
    (s.ringStop t r cause o).pending = s.pending := by
  obtain ⟨hregs, hmem, hpend⟩ := ringStop_keeps s ht hr cause o
  obtain ⟨hctl, hstat, hstop, hseq⟩ := stopMarked_spec s t hr hc
  have hw : (s.ringStop t r cause o).ringWaiting t r = [] := by
    obtain ⟨q, prio, bs, h⟩ := ringStop_eq s t r cause o
    rw [h, ringWaiting, ringOps, regsSent_raise]
    exact ringWaiting_abortWaiting _ t r 2
  refine ⟨?_, ?_, hw, ?_, ?_, hmem, hpend⟩
  · rw [ringEn, rdB, hregs _ (.inl rfl)]; exact hctl
  · rw [ringStopped, rdB, hregs _ (.inr (.inr (.inr rfl)))]; exact hstop
  · rw [rdF, hregs _ (.inr (.inr (.inl rfl)))]; exact hstat
  · rw [hregs _ (.inr (.inl rfl))]; exact hseq

end State
end Sys2Proof.Machine

namespace Sys2Proof.Proofs
open Sys2Proof Sys2Proof.Machine Sys2Proof.Machine.State

/-- RECORD_FETCH of a record out of order, or one that fails (R106, R140). -/
theorem fetch_stops (s : State) (t r : Nat) (bytes : List Byte) (ok : Bool) (hlen : bytes.length = 128) (ht : t < 64) (hr : r < 16)
    (hfatal : s.inFatal = false) (hen : s.ringEn t r = true) (hne : s.rd (R.CRG_RING_FETCH t r) ≠ s.rd (R.CRG_RING_PROD t r))
    (hroom : (s.ringWaiting t r).length < 8) (hcore : s.corePaused (s.ringHome t r) = false)
    (hseq : ∀ b, s.ringBytes t r bytes ok = some b → (recOf b).seq ≠ s.rd (R.CRG_RING_SEQ t r)) :
    ∃ u, exec (.recordFetch t r bytes ok) s = .next u ∧ u.ringEn t r = false ∧ u.ringStopped t r = true ∧ u.ringWaiting t r = [] ∧
      u.rdF (R.CRG_RING_STAT t r) 30 27 = (if s.ringBytes t r bytes ok = none then 11 else 9) ∧
      u.rd (R.CRG_RING_SEQ t r) = s.rd (R.CRG_RING_SEQ t r) ∧ u.mem = s.mem := by
  have hex : exec (.recordFetch t r bytes ok) s = execRecordFetch t r bytes ok s := rfl
  rw [execRecordFetch, if_neg (by simp [hlen]), if_pos ⟨ht, hr, hfatal, hen, hne, hroom, hcore⟩] at hex
  cases hb : s.ringBytes t r bytes ok with
  | none =>
    rw [hb] at hex
    simp only at hex
    obtain ⟨v, hv⟩ : ∃ v, v = if s.rdB (R.CRG_RING_CTL t r) 30 = true then s.dmaErr else s := ⟨_, rfl⟩
    have hk : RegsSent s v ∧ RegsKept s v [R.HST_ERR, R.INT_STAT 8] := by
      rw [hv]
      split
      · exact ⟨regsSent_trans _ _ _ (regsSent_wr s _ _) (regsSent_raise _ _ _),
          kept_trans (kept_wr s _ _) (raise_kept _ _ _) (by simp) (by simp)⟩
      · exact ⟨rfl, kept_refl s _⟩
    have hs : v.rd (R.CRG_RING_SEQ t r) = s.rd (R.CRG_RING_SEQ t r) := by
      refine hk.2 _ ?_
      simp only [List.mem_cons, List.not_mem_nil, or_false, forall_eq_or_imp, forall_eq]
      refine ⟨canon_ne_of_off ?_, canon_ne_of_off ?_⟩ <;> simp only [R.CRG_RING_SEQ, R.HST_ERR, R.INT_STAT] <;> omega
    rw [← hv] at hex
    obtain ⟨h1, h2, h3, h4, h5, h6, h7⟩ := ringStop_spec v ht hr (cause := 3) (by decide) none
    rw [keepQueue_of_pending (h7.trans (by rw [hk.1]))] at hex
    exact ⟨_, hex, h1, h2, h3, h4, h5.trans hs, h6.trans (by rw [hk.1])⟩
  | some b =>
    have hs : (s.wr (R.CRG_RING_FETCH t r) (s.rd (R.CRG_RING_FETCH t r) + 1)).rd (R.CRG_RING_SEQ t r) = s.rd (R.CRG_RING_SEQ t r) :=
      rd_wr_ne _ _ (canon_fetch_ne_seq t r).symm
    rw [hb] at hex
    simp only at hex
    rw [if_pos (by rw [hs]; exact hseq b hb)] at hex
    obtain ⟨v, hv⟩ : ∃ v, v = (s.wr (R.CRG_RING_FETCH t r) (s.rd (R.CRG_RING_FETCH t r) + 1)).opSet (Map.nextKey s.ops)
      (fetched t r (recOf b) s.ft) := ⟨_, rfl⟩
    have hvs : v.rd (R.CRG_RING_SEQ t r) = s.rd (R.CRG_RING_SEQ t r) := by rw [hv]; exact hs
    have hmem : v.mem = s.mem ∧ v.pending = s.pending := by rw [hv]; exact ⟨rfl, rfl⟩
    rw [← hv] at hex
    obtain ⟨h1, h2, h3, h4, h5, h6, h7⟩ := ringStop_spec v ht hr (cause := 1) (by decide) (some (fetched t r (recOf b) s.ft))
    rw [keepQueue_of_pending (h7.trans hmem.2)] at hex
    exact ⟨_, hex, h1, h2, h3, h4, h5.trans hvs, h6.trans hmem.1⟩

end Sys2Proof.Proofs

namespace Sys2Proof.Machine
open Sys2Proof

/-- An entry of a list-valued map, each of some distinct keys of which takes one more element. -/
theorem Map.get_foldl_append {α : Type} {ks : List Nat} (hks : ks.Nodup) (x : α) (m : Map (List α)) (k : Nat) :
    Map.get (ks.foldl (fun m k => Map.set m k (Map.get m [] k ++ [x])) m) [] k =
      if k ∈ ks then Map.get m [] k ++ [x] else Map.get m [] k := by
  induction ks generalizing m with
  | nil => rfl
  | cons j ks ih =>
    obtain ⟨hj, hks⟩ := List.nodup_cons.1 hks
    rw [List.foldl_cons, ih hks]
    by_cases hk : k = j
    · subst hk
      rw [if_neg hj, if_pos (by simp), Map.get, Map.get?_set_self]
      rfl
    · rw [Map.get, Map.get?_set_ne _ _ hk, ← Map.get]
      simp [hk]

namespace State

/-! ### Dispatch (R112, R117, R118) -/

/-- Back to Run, registers, what is sent and the rung's accounting change alone. -/
theorem rungUp_frame (s : State) : s.rungUp = { s with regs := s.rungUp.regs, outbox := s.rungUp.outbox, msix := s.rungUp.msix, pwr := s.rungUp.pwr } := by
  unfold rungUp
  split
  · rfl
  · have h := (rungSet_spec s 0).1
    generalize s.rungSet 0 = v at h ⊢
    rw [h]
    rfl

/-- The chosen head record of a ring is dispatched (R112, R117, R458). -/
theorem exec_recordDispatch_ready {s b : State} {t r h : Nat} {o : RunOp} (hd : DispatchReady s b t r h o) :
    exec (.recordDispatch t r) s =
      keepQueue s (.next { b.dispatchHead h o with rrHome := Map.set s.rrHome (s.ringHome t r) (16 * t + r) }) := by
  obtain ⟨hhead, hrefuse, hcore, hnext, hruns, rfl⟩ := hd
  show execRecordDispatch t r s = _
  rw [execRecordDispatch, hhead]
  simp only
  rw [if_neg (by simpa using hrefuse), if_pos ⟨hcore, hnext, hruns⟩]

/-- Its SW_CTL is taken by every engine of a record's (R97). -/
theorem swCtl_foldl (us : List Nat) (s : State) : ∃ g,
    us.foldl (fun u e => u.engineSet e { u.engine e with swCtl := u.rd (R.OXE_SW_CTL e) }) s = { s with eng := g } ∧
    ∀ e, e ∈ us ∨ (s.engine e).swCtl = s.rd (R.OXE_SW_CTL e) →
      ((us.foldl (fun u e => u.engineSet e { u.engine e with swCtl := u.rd (R.OXE_SW_CTL e) }) s).engine e).swCtl = s.rd (R.OXE_SW_CTL e) := by
  induction us generalizing s with
  | nil => exact ⟨_, rfl, fun e he => he.resolve_left (by simp)⟩
  | cons i us ih =>
    obtain ⟨g, hf, he⟩ := ih (s.engineSet i { s.engine i with swCtl := s.rd (R.OXE_SW_CTL i) })
    refine ⟨g, hf, fun e h => he e ?_⟩
    by_cases hi : e = i
    · subst hi
      exact .inr (by rw [engine, engineSet, Map.get, Map.get?_set_self]; rfl)
    · refine h.imp (fun hm => (List.mem_cons.1 hm).resolve_left hi) fun hs => ?_
      rw [engine, engineSet, Map.get, Map.get?_set_ne _ _ hi]
      exact hs

/-- Draws reserved change generators alone (R407). -/
theorem reserveDraws_frame (s : State) (h : Nat) (o : RunOp) : ∃ g, s.reserveDraws h o = { s with rng := g } := by
  unfold reserveDraws
  split
  · split
    · exact ⟨_, rfl⟩
    · refine foldl_rel (R := fun s t => ∃ g, t = { s with rng := g }) (fun s => ⟨_, rfl⟩) ?_ ?_ s
      · rintro s t u ⟨g, rfl⟩ ⟨g', rfl⟩
        exact ⟨g', rfl⟩
      · intro s p _
        split
        · exact ⟨_, rfl⟩
        · exact ⟨_, rfl⟩
  · exact ⟨_, rfl⟩


/-- A record as it stands once sent to its units (R118). -/
def sentRec (s : State) (o : RunOp) : RunOp :=
  { o with dispatched := true, ftStart := s.ft, parts := CmdRecF.units o.cmd
           version := if s.readsGen o.cmd then s.genVersion else 0xFFFFFFFF
           extra := if o.cmd.opcode = 0x0F01 then s.bytesAt o.cmd.w1.toNat (64 * fld o.cmd.w2 1 0) else []
           numCtl := if CmdRecF.unit o.cmd ≤ 1 then (CmdRecF.units o.cmd).map (fun e => (e, s.rd (R.OXE_NUM_CTL e)))
             else if CmdRecF.unit o.cmd = 3 then (CmdRecF.units o.cmd).map (fun u => (u, s.rd (R.MFU_CTL u))) else [] }

/-- The ready queues with a record in those of its engines (R21, R118). -/
def queued (s : State) (h : Nat) (c : CmdRec) : Map (List Nat) :=
  (if CmdRecF.unit c ≤ 1 then ((CmdRecF.units c).map queueKey).dedup else []).foldl (fun m k => Map.set m k (Map.get m [] k ++ [h])) s.readyQ

/-- The state in which a record is in its units' queues. -/
def sentTo (s : State) (h : Nat) (o : RunOp) : State := { s.opSet h (s.sentRec o) with readyQ := s.queued h o.cmd }

/-- A record is sent to its queues, its engines take their SW_CTL, and its draws are reserved. -/
theorem sendParts_eq (s : State) (h : Nat) (o : RunOp) : s.sendParts h o = (if CmdRecF.unit o.cmd ≤ 1 then
    (CmdRecF.units o.cmd).foldl (fun u e => u.engineSet e { u.engine e with swCtl := u.rd (R.OXE_SW_CTL e) }) (s.sentTo h o)
    else s.sentTo h o).reserveDraws h o := rfl

/-- Sending a record changes it, the ready queues of its units, their engines' SW_CTL, and the draws reserved (R97, R118, R407). -/
theorem sendParts_spec (s : State) (h : Nat) (o : RunOp) :
    (∃ e g, s.sendParts h o = { s with ops := Map.set s.ops h (s.sentRec o), readyQ := s.queued h o.cmd, eng := e, rng := g }) ∧
    (CmdRecF.unit o.cmd ≤ 1 → ∀ x ∈ CmdRecF.units o.cmd, ((s.sendParts h o).engine x).swCtl = s.rd (R.OXE_SW_CTL x)) ∧
    (2 ≤ CmdRecF.unit o.cmd → (s.sendParts h o).eng = s.eng) := by
  rw [sendParts_eq]
  by_cases hu : CmdRecF.unit o.cmd ≤ 1
  · rw [if_pos hu]
    obtain ⟨e, hf, he⟩ := swCtl_foldl (CmdRecF.units o.cmd) (s.sentTo h o)
    generalize (CmdRecF.units o.cmd).foldl _ (s.sentTo h o) = v at hf he ⊢
    obtain ⟨g, hg⟩ := reserveDraws_frame v h o
    rw [hg]
    exact ⟨⟨e, g, by rw [hf]; rfl⟩, fun _ x hx => he x (.inl hx), fun h2 => by omega⟩
  · rw [if_neg hu]
    obtain ⟨g, hg⟩ := reserveDraws_frame (s.sentTo h o) h o
    rw [hg]
    exact ⟨⟨s.eng, g, rfl⟩, fun h1 => absurd h1 hu, fun _ => rfl⟩

/-- A record on engines is in the queue of each (R118). -/
theorem queued_engines (s : State) (h : Nat) {c : CmdRec} (hu : CmdRecF.unit c ≤ 1) {x : Nat} (hx : x ∈ CmdRecF.units c) :
    Map.get (s.queued h c) [] (queueKey x) = Map.get s.readyQ [] (queueKey x) ++ [h] := by
  rw [queued, if_pos hu, Map.get_foldl_append (List.nodup_dedup _), if_pos (List.mem_dedup.2 (List.mem_map_of_mem hx))]

/-- A record on other units is in no queue. -/
theorem queued_other (s : State) (h : Nat) {c : CmdRec} (hu : 2 ≤ CmdRecF.unit c) : s.queued h c = s.readyQ := by
  rw [queued, if_neg (by omega)]
  rfl

end State
end Sys2Proof.Machine

namespace Sys2Proof.Proofs
open Sys2Proof Sys2Proof.Machine Sys2Proof.Machine.State

/-- RECORD_DISPATCH of a refused head record (R110). -/
theorem dispatch_refused (s : State) (t r h : Nat) (o : RunOp) (hh : s.ringHead t r = some (h, o)) (_ : t < 64) (hr : r < 16)
    (hrefuse : refusal o.cmd ≠ 0) :
    ∃ u, exec (.recordDispatch t r) s = .next u ∧ u.ms = s.ms ∧ Recorded s u h o 1 ∧
      exec (.recordDispatch t r) s = keepQueue s (.next (s.completeUnrun h o 1 (BitVec.ofNat 8 (refusal o.cmd)))) := by
  have hex : exec (.recordDispatch t r) s = keepQueue s (.next (s.completeUnrun h o 1 (BitVec.ofNat 8 (refusal o.cmd)))) := by
    show execRecordDispatch t r s = _
    rw [execRecordDispatch, hh]
    simp only
    rw [if_pos hrefuse]
  obtain ⟨_, _, _, _, _, _, hf⟩ := completeUnrun_frame s h o 1 (BitVec.ofNat 8 (refusal o.cmd))
  refine ⟨s.completeUnrun h o 1 (BitVec.ofNat 8 (refusal o.cmd)), hex.trans (keepQueue_of_pending (by rw [hf])), by rw [hf], ?_, hex⟩
  exact completeUnrun_recorded s h o 1 _ ((ringHead_spec hh).2.1 ▸ hr)

/-- RECORD_DISPATCH of a chosen record that completes unrun. -/
theorem dispatch_ends {s b : State} {t r h : Nat} {o : RunOp} {code detail : Byte} (hd : DispatchReady s b t r h o) (hr : r < 16)
    (hend : b.dispatchHead h o = b.completeUnrun h o code detail) :
    ∃ u, exec (.recordDispatch t r) s = .next u ∧ u.ms = b.ms ∧ Recorded b u h o code ∧ Map.get? u.rrHome (s.ringHome t r) = some (16 * t + r) ∧
      exec (.recordDispatch t r) s =
        keepQueue s (.next { b.completeUnrun h o code detail with rrHome := Map.set s.rrHome (s.ringHome t r) (16 * t + r) }) := by
  have hex := exec_recordDispatch_ready hd
  rw [hend] at hex
  have hrec := completeUnrun_recorded b h o code detail ((ringHead_spec hd.1).2.1 ▸ hr)
  obtain ⟨_, _, _, _, _, _, hf⟩ := completeUnrun_frame b h o code detail
  have hb : b.pending = s.pending := by rw [hd.2.2.2.2.2, rungUp_frame]
  generalize b.completeUnrun h o code detail = v at *
  have hp : v.pending = b.pending := by rw [hf]
  have hms : v.ms = b.ms := by rw [hf]
  exact ⟨{ v with rrHome := Map.set s.rrHome (s.ringHome t r) (16 * t + r) }, hex.trans (keepQueue_of_pending (hp.trans hb)),
    hms, hrec, Map.get?_set_self .., hex⟩

/-- RECORD_DISPATCH of a record past its deadline, or that waits for a faulted counter (R114, R116). -/
theorem dispatch_expired_or_faulted (s b : State) (t r h : Nat) (o : RunOp) (code detail : Byte) (hd : DispatchReady s b t r h o) (_ : t < 64)
    (hr : r < 16)
    (hc : (b.expired o.cmd = true ∧ code = 7 ∧ detail = 1) ∨
      (b.expired o.cmd = false ∧ code = 8 ∧
        let f0 := CmdRecF.w0En o.cmd && b.depFault o.tenant (CmdRecF.w0Ctr o.cmd)
        let f1 := CmdRecF.w1En o.cmd && b.depFault o.tenant (CmdRecF.w1Ctr o.cmd)
        (f0 || f1) = true ∧ detail = BitVec.ofNat 8 ((if f0 then 1 else 0) + (if f1 then 2 else 0)))) :
    ∃ u, exec (.recordDispatch t r) s = .next u ∧ u.ms = b.ms ∧ Recorded b u h o code ∧ Map.get? u.rrHome (s.ringHome t r) = some (16 * t + r) ∧
      exec (.recordDispatch t r) s =
        keepQueue s (.next { b.completeUnrun h o code detail with rrHome := Map.set s.rrHome (s.ringHome t r) (16 * t + r) }) := by
  refine dispatch_ends hd hr ?_
  rcases hc with ⟨hx, rfl, rfl⟩ | ⟨hx, rfl, hf, rfl⟩
  · simp only [dispatchHead, hx, if_true]
  · simp only [dispatchHead, hx, hf, if_true]
    rfl

/-- No dependency a record waits for has faulted. -/
theorem not_faulted {b : State} {o : RunOp} (h0 : CmdRecF.w0En o.cmd = false ∨ b.depFault o.tenant (CmdRecF.w0Ctr o.cmd) = false)
    (h1 : CmdRecF.w1En o.cmd = false ∨ b.depFault o.tenant (CmdRecF.w1Ctr o.cmd) = false) :
    (CmdRecF.w0En o.cmd && b.depFault o.tenant (CmdRecF.w0Ctr o.cmd) ||
      CmdRecF.w1En o.cmd && b.depFault o.tenant (CmdRecF.w1Ctr o.cmd)) = false := by
  rcases h0 with h | h <;> rcases h1 with h' | h' <;> simp [h, h']

/-- Whether a record names a request that is not its tenant's (R112). -/
def foreignReq (b : State) (o : RunOp) : Bool :=
  CmdRecF.reqV o.cmd && (match Map.get? b.reqs (CmdRecF.reqId o.cmd) with | some q => q.tenant != o.tenant | none => true)

/-- What becomes of a record in time whose dependencies have not faulted. -/
theorem dispatchHead_clean {b : State} (h : Nat) {o : RunOp} (hx : b.expired o.cmd = false)
    (h0 : CmdRecF.w0En o.cmd = false ∨ b.depFault o.tenant (CmdRecF.w0Ctr o.cmd) = false)
    (h1 : CmdRecF.w1En o.cmd = false ∨ b.depFault o.tenant (CmdRecF.w1Ctr o.cmd) = false) :
    b.dispatchHead h o = if foreignReq b o then b.completeUnrun h o 4 2
      else if (CmdRecF.cores o.cmd).any b.coreFenced then b.completeUnrun h o 0x0B 0
      else if b.readsGen o.cmd && !b.genValidBit then b.completeUnrun h o 0x17 5
      else b.sendParts h o := by
  have hf := not_faulted h0 h1
  simp only [dispatchHead, hx, hf]
  rfl

theorem foreignReq_true {b : State} {o : RunOp} (hv : CmdRecF.reqV o.cmd = true)
    (hq : ∀ q, Map.get? b.reqs (CmdRecF.reqId o.cmd) = some q → q.tenant ≠ o.tenant) : foreignReq b o = true := by
  rw [foreignReq, hv]
  cases hg : Map.get? b.reqs (CmdRecF.reqId o.cmd) with
  | none => rfl
  | some q => simpa using hq q hg

theorem foreignReq_false {b : State} {o : RunOp}
    (hq : CmdRecF.reqV o.cmd = true → ∃ q, Map.get? b.reqs (CmdRecF.reqId o.cmd) = some q ∧ q.tenant = o.tenant) : foreignReq b o = false := by
  rw [foreignReq]
  cases hv : CmdRecF.reqV o.cmd with
  | false => rfl
  | true =>
    obtain ⟨q, hg, ht⟩ := hq hv
    simp [hg, ht]

/-- RECORD_DISPATCH of a record for another tenant's request, to a fenced core, or of an invalid generation copy (R112, R119, R366). -/
theorem dispatch_turned_away (s b : State) (t r h : Nat) (o : RunOp) (code detail : Byte) (hd : DispatchReady s b t r h o) (_ : t < 64)
    (hr : r < 16) (hx : b.expired o.cmd = false)
    (h0 : CmdRecF.w0En o.cmd = false ∨ b.depFault o.tenant (CmdRecF.w0Ctr o.cmd) = false)
    (h1 : CmdRecF.w1En o.cmd = false ∨ b.depFault o.tenant (CmdRecF.w1Ctr o.cmd) = false)
    (hc : (CmdRecF.reqV o.cmd = true ∧ (∀ q, Map.get? b.reqs (CmdRecF.reqId o.cmd) = some q → q.tenant ≠ o.tenant) ∧ code = 4 ∧ detail = 2) ∨
      ((CmdRecF.reqV o.cmd = true → ∃ q, Map.get? b.reqs (CmdRecF.reqId o.cmd) = some q ∧ q.tenant = o.tenant) ∧
        (((CmdRecF.cores o.cmd).any b.coreFenced = true ∧ code = 0x0B ∧ detail = 0) ∨
         ((CmdRecF.cores o.cmd).any b.coreFenced = false ∧ b.readsGen o.cmd = true ∧ b.genValidBit = false ∧ code = 0x17 ∧ detail = 5)))) :
    ∃ u, exec (.recordDispatch t r) s = .next u ∧ u.ms = b.ms ∧ Recorded b u h o code ∧ Map.get? u.rrHome (s.ringHome t r) = some (16 * t + r) ∧
      exec (.recordDispatch t r) s =
        keepQueue s (.next { b.completeUnrun h o code detail with rrHome := Map.set s.rrHome (s.ringHome t r) (16 * t + r) }) := by
  refine dispatch_ends hd hr ((dispatchHead_clean h hx h0 h1).trans ?_)
  rcases hc with ⟨hv, hq, rfl, rfl⟩ | ⟨hq, hc⟩
  · rw [if_pos (foreignReq_true hv hq)]
  · rw [if_neg (by simp [foreignReq_false hq])]
    rcases hc with ⟨hfence, rfl, rfl⟩ | ⟨hfence, hreads, hvalid, rfl, rfl⟩
    · rw [if_pos hfence]
    · rw [if_neg (by simp [hfence]), if_pos (by simp [hreads, hvalid])]

/-- RECORD_DISPATCH of a chosen record that nothing turns away (R69, R97, R118). -/
theorem dispatch_sent (s b : State) (t r h : Nat) (o : RunOp) (hd : DispatchReady s b t r h o) (hx : b.expired o.cmd = false)
    (h0 : CmdRecF.w0En o.cmd = false ∨ b.depFault o.tenant (CmdRecF.w0Ctr o.cmd) = false)
    (h1 : CmdRecF.w1En o.cmd = false ∨ b.depFault o.tenant (CmdRecF.w1Ctr o.cmd) = false)
    (hq : CmdRecF.reqV o.cmd = true → ∃ q, Map.get? b.reqs (CmdRecF.reqId o.cmd) = some q ∧ q.tenant = o.tenant)
    (hfence : (CmdRecF.cores o.cmd).any b.coreFenced = false) (hgen : b.readsGen o.cmd = true → b.genValidBit = true) :
    ∃ u, exec (.recordDispatch t r) s = .next u ∧
      u = { b with ops := u.ops, readyQ := u.readyQ, rrHome := u.rrHome, eng := u.eng, rng := u.rng, pending := s.pending } ∧
      (∃ p, u.op? h = some p ∧ p.dispatched = true ∧ p.ftStart = s.ft ∧ p.parts = CmdRecF.units o.cmd ∧ p.cmd = o.cmd ∧
        p.code = o.code ∧ p.ran = o.ran ∧ p.version = (if b.readsGen o.cmd then b.genVersion else 0xFFFFFFFF) ∧
        (CmdRecF.unit o.cmd ≤ 1 → p.numCtl = (CmdRecF.units o.cmd).map (fun e => (e, b.rd (R.OXE_NUM_CTL e))))) ∧
      (CmdRecF.unit o.cmd ≤ 1 → ∀ e ∈ CmdRecF.units o.cmd, (u.engine e).swCtl = b.rd (R.OXE_SW_CTL e) ∧
        Map.get u.readyQ [] (State.queueKey e) = Map.get s.readyQ [] (State.queueKey e) ++ [h]) ∧
      (2 ≤ CmdRecF.unit o.cmd → u.readyQ = s.readyQ ∧ u.eng = s.eng) ∧
      Map.get? u.rrHome (s.ringHome t r) = some (16 * t + r) ∧ ∀ k, k ≠ h → u.op? k = s.op? k := by
  have hex := exec_recordDispatch_ready hd
  rw [dispatchHead_clean h hx h0 h1, if_neg (by simp [foreignReq_false hq]), if_neg (by simp [hfence]),
    if_neg (by cases hg : b.readsGen o.cmd <;> simp [hgen, hg])] at hex
  have hb : b = { s with regs := b.regs, outbox := b.outbox, msix := b.msix, pwr := b.pwr } := by
    rw [hd.2.2.2.2.2]
    exact rungUp_frame s
  obtain ⟨⟨e, g, hf⟩, hsw, heng⟩ := sendParts_spec b h o
  generalize b.sendParts h o = v at *
  have hvb : v.readyQ = b.queued h o.cmd ∧ v.pending = b.pending ∧ v.ops = Map.set b.ops h (b.sentRec o) := by rw [hf]; exact ⟨rfl, rfl, rfl⟩
  have hbs : b.readyQ = s.readyQ ∧ b.pending = s.pending ∧ b.ops = s.ops ∧ b.eng = s.eng ∧ b.ft = s.ft := by
    rw [hb]; exact ⟨rfl, rfl, rfl, rfl, rfl⟩
  obtain ⟨hvq, hvp, hvo⟩ := hvb
  obtain ⟨hbq, hbp, hbo, hbe, hbft⟩ := hbs
  refine ⟨{ v with rrHome := Map.set s.rrHome (s.ringHome t r) (16 * t + r) }, hex.trans (keepQueue_of_pending (hvp.trans hbp)), ?_,
    ⟨b.sentRec o, ?_, rfl, hbft, rfl, rfl, rfl, rfl, rfl, fun hu => if_pos hu⟩, fun hu x hxu => ⟨hsw hu x hxu, ?_⟩, fun hu => ⟨?_, (heng hu).trans hbe⟩,
    Map.get?_set_self .., fun k hk => ?_⟩
  · rw [hf, ← hbp]
  · show Map.get? v.ops h = _
    rw [hvo, Map.get?_set_self]
  · show Map.get v.readyQ _ _ = _
    rw [hvq, queued_engines b h hu hxu, hbq]
  · show v.readyQ = _
    rw [hvq, queued_other b h hu, hbq]
  · show Map.get? v.ops k = Map.get? s.ops k
    rw [hvo, Map.get?_set_ne _ _ hk, hbo]

end Sys2Proof.Proofs

namespace Sys2Proof.Machine
open Sys2Proof

namespace State

/-! ### Parts (R28, R113, R118) -/

/-- Engine `x` holds operator `h` no more. -/
def engineFreed (s : State) (h x : Nat) : Eng :=
  { s.engine x with run := (match (s.engine x).run with | some t => if t.op = h then none else some t | none => none)
                    susp := (s.engine x).susp.filter (fun k => k.task.op != h) }

theorem engineFreed_run (s : State) (h x : Nat) {k : Task} (hk : (s.engineFreed h x).run = some k) : k.op ≠ h := by
  simp only [engineFreed] at hk
  split at hk
  · split at hk
    · cases hk
    · cases hk; assumption
  · cases hk

theorem engineFreed_susp (s : State) (h x : Nat) {k : Susp} (hk : k ∈ (s.engineFreed h x).susp) : k.task.op ≠ h := by
  have := (List.mem_filter.1 hk).2
  simpa using this

/-- The state in which a part's unit is free of its operator. -/
def unitFreed (s : State) (c : CmdRec) (h x : Nat) : State := if CmdRecF.unit c ≤ 1 then s.engineSet x (s.engineFreed h x) else s

theorem unitFreed_frame (s : State) (c : CmdRec) (h x : Nat) : s.unitFreed c h x = { s with eng := (s.unitFreed c h x).eng } := by
  unfold unitFreed
  split <;> rfl

/-- The engine of a part just freed runs and saves nothing of its operator, and no other engine changes. -/
theorem unitFreed_engines (s : State) {c : CmdRec} (h x : Nat) (hu : CmdRecF.unit c ≤ 1) :
    (∀ k, ((s.unitFreed c h x).engine x).run = some k → k.op ≠ h) ∧ (∀ k ∈ ((s.unitFreed c h x).engine x).susp, k.task.op ≠ h) ∧
    ∀ e, e ≠ x → (s.unitFreed c h x).engine e = s.engine e := by
  rw [unitFreed, if_pos hu]
  have hself : (s.engineSet x (s.engineFreed h x)).engine x = s.engineFreed h x := by
    rw [engine, engineSet, Map.get, Map.get?_set_self]; rfl
  rw [hself]
  refine ⟨fun k hk => engineFreed_run s h x hk, fun k hk => engineFreed_susp s h x hk, fun e he => ?_⟩
  rw [engine, engineSet, Map.get, Map.get?_set_ne _ _ he]
  rfl

/-- PART_COMPLETE of a part whose work is done: its report is sent, and its unit freed. -/
theorem exec_partComplete {s : State} {h x : Nat} (busy : Nat) {o : RunOp} (ho : s.op? h = some o) (hd : o.dispatched = true)
    (hp : o.parts.contains x = true) (hr : o.ran = true ∨ o.code ≠ 0) (hw : s.opWaits h = false) (hrep : s.reportHeld h x = false)
    (hs : o.code ≠ 0 ∨ s.strm.any (fun p => p.2.op == h) = false) :
    exec (.partComplete h x busy) s = keepQueue s (.next ((s.partReport o h x busy).unitFreed o.cmd h x)) := by
  show execPartComplete h x busy s = _
  rw [execPartComplete, ho]
  simp only
  rw [if_pos ⟨hd, hp, hr, hw, hrep, hs⟩, unitFreed]
  split <;> rfl

end State
end Sys2Proof.Machine

namespace Sys2Proof.Proofs
open Sys2Proof Sys2Proof.Machine Sys2Proof.Machine.State

/-- PART_COMPLETE with its way on the mesh free (R113, R118). -/
theorem part_reported (s : State) (h x busy : Nat) (o : RunOp) (ho : s.op? h = some o) (hd : o.dispatched = true)
    (hp : o.parts.contains x = true) (hr : o.ran = true ∨ o.code ≠ 0) (hw : s.opWaits h = false) (hrep : s.reportHeld h x = false)
    (hs : o.code ≠ 0 ∨ s.strm.any (fun p => p.2.op == h) = false)
    (hm : s.meshWaits .response (unitDie o.cmd x) (State.coreDie (s.ringHome o.tenant o.ring)) = false) :
    ∃ u, exec (.partComplete h x busy) s = .next u ∧ u = { s with ops := u.ops, eng := u.eng } ∧
      u.op? h = some { o with parts := o.parts.erase x, busy := satAdd64 o.busy busy } ∧ (∀ k, k ≠ h → u.op? k = s.op? k) ∧
      (2 ≤ CmdRecF.unit o.cmd → u.eng = s.eng) ∧
      (CmdRecF.unit o.cmd ≤ 1 → (∀ k, (u.engine x).run = some k → k.op ≠ h) ∧ (∀ k ∈ (u.engine x).susp, k.task.op ≠ h) ∧
        ∀ e, e ≠ x → u.engine e = s.engine e) := by
  have hex := exec_partComplete busy ho hd hp hr hw hrep hs
  have hv : s.partReport o h x busy = s.opSet h { o with parts := o.parts.erase x, busy := satAdd64 o.busy busy } := by
    simp [partReport, hm, partReported, ho]
  rw [hv] at hex
  obtain ⟨v, hv⟩ : ∃ v, v = s.opSet h { o with parts := o.parts.erase x, busy := satAdd64 o.busy busy } := ⟨_, rfl⟩
  rw [← hv] at hex
  have hf := unitFreed_frame v o.cmd h x
  have hops : (v.unitFreed o.cmd h x).ops = v.ops := by rw [hf]
  rw [keepQueue_of_pending (by rw [hf, hv]; rfl)] at hex
  refine ⟨_, hex, ?_, ?_, fun k hk => ?_, fun hu => ?_, fun hu => ?_⟩
  · rw [hf, hv]; rfl
  · rw [op?, hops, hv]; exact op?_opSet_self ..
  · rw [op?, hops, hv]; exact op?_opSet_ne s _ hk
  · rw [unitFreed, if_neg (by omega), hv]; rfl
  · obtain ⟨h1, h2, h3⟩ := unitFreed_engines v h x hu
    exact ⟨h1, h2, fun e he => (h3 e he).trans (by rw [hv]; rfl)⟩

/-- PART_COMPLETE whose report waits on the mesh (R28). -/
theorem part_held (s : State) (h x busy : Nat) (o : RunOp) (ho : s.op? h = some o) (hd : o.dispatched = true)
    (hp : o.parts.contains x = true) (hr : o.ran = true ∨ o.code ≠ 0) (hw : s.opWaits h = false) (hrep : s.reportHeld h x = false)
    (hs : o.code ≠ 0 ∨ s.strm.any (fun p => p.2.op == h) = false)
    (hm : s.meshWaits .response (unitDie o.cmd x) (State.coreDie (s.ringHome o.tenant o.ring)) = true) :
    ∃ u, exec (.partComplete h x busy) s = .next u ∧ u = { s with meshQ := u.meshQ, eng := u.eng } ∧
      u.meshQ = s.meshQ ++ [⟨.response, unitDie o.cmd x, State.coreDie (s.ringHome o.tenant o.ring), .report h x busy⟩] := by
  have hex := exec_partComplete busy ho hd hp hr hw hrep hs
  have hv : s.partReport o h x busy = s.meshPut ⟨.response, unitDie o.cmd x, State.coreDie (s.ringHome o.tenant o.ring), .report h x busy⟩ := by
    simp [partReport, hm]
  rw [hv] at hex
  have hf := unitFreed_frame (s.meshPut ⟨.response, unitDie o.cmd x, State.coreDie (s.ringHome o.tenant o.ring), .report h x busy⟩) o.cmd h x
  rw [keepQueue_of_pending (by rw [hf]; rfl)] at hex
  exact ⟨_, hex, by rw [hf]; rfl, by rw [hf]; rfl⟩

/-- DEADLINE_EXPIRY of a record not dispatched (R116). -/
theorem expiry_undispatched (s : State) (h : Nat) (o : RunOp) (ho : s.op? h = some o) (_ : o.tenant < 64) (hr : o.ring < 16)
    (hx : s.expired o.cmd = true) (hd : o.dispatched = false) :
    ∃ u, exec (.deadlineExpiry h) s = .next u ∧ u.ms = s.ms ∧ Recorded s u h o 7 ∧
      exec (.deadlineExpiry h) s = keepQueue s (.next (s.completeUnrun h o 7 1)) := by
  have hex : exec (.deadlineExpiry h) s = keepQueue s (.next (s.completeUnrun h o 7 1)) := by
    show execDeadlineExpiry h s = _
    rw [execDeadlineExpiry, ho]
    simp only
    rw [if_neg (by simp [hx]), if_pos hd]
  obtain ⟨_, _, _, _, _, _, hf⟩ := completeUnrun_frame s h o 7 1
  exact ⟨_, hex.trans (keepQueue_of_pending (by rw [hf])), by rw [hf], completeUnrun_recorded s h o 7 1 hr, hex⟩

/-- TRIGGER_RELEASE of a trigger whose time has come (R384). -/
theorem trigger_fires (s : State) (n : Nat) (hv : (s.trigger n).valid = true) (ha : (s.trigger n).action = 0) (hs : (s.trigger n).sw = false)
    (hft : (s.trigger n).ft ≤ s.ft) :
    ∃ u, exec (.triggerRelease n) s = .next u ∧ u = { s with trigs := u.trigs, regs := u.regs } ∧
      u.trigger n = { s.trigger n with valid := false } ∧ (∀ m, m ≠ n → u.trigger m = s.trigger m) ∧
      u.rd R.TIM_TRIG_FIRED_CNT = satAdd32 (s.rd R.TIM_TRIG_FIRED_CNT) 1 ∧ RegsKept s u [R.TIM_TRIG_FIRED_CNT] := by
  refine ⟨s.fireTrigger n, ?_, rfl, (Map.get_put ..).trans (if_pos rfl), fun m hm => (Map.get_put ..).trans (if_neg hm), rd_wr_self .., kept_wr s _ _⟩
  show execTriggerRelease n s = _
  rw [execTriggerRelease, if_pos ⟨hv, ha, hs, hft⟩]
  exact keepQueue_of_pending rfl

/-- FALLBACK_RELEASE of a head record held by the local clock (R115). -/
theorem fallback_released (s : State) (t r h : Nat) (o : RunOp) (hh : s.ringHead t r = some (h, o)) (hl : o.local_ = true)
    (hft : o.cmd.startFt ≤ s.ft) :
    ∃ u, exec (.fallbackRelease t r) s = .next u ∧ u = { s with ops := u.ops, regs := u.regs } ∧
      u.op? h = some { o with local_ := false } ∧ (∀ k, k ≠ h → u.op? k = s.op? k) ∧
      u.rd (R.CRG_TRIG_FALLBACK t) = satAdd32 (s.rd (R.CRG_TRIG_FALLBACK t)) 1 ∧ RegsKept s u [R.CRG_TRIG_FALLBACK t] := by
  refine ⟨(s.opSet h { o with local_ := false }).bump (R.CRG_TRIG_FALLBACK t), ?_, rfl, op?_opSet_self .., fun k hk => op?_opSet_ne s _ hk,
    rd_wr_self .., kept_wr s _ _⟩
  show execFallbackRelease t r s = _
  rw [execFallbackRelease, hh]
  simp only
  rw [if_pos ⟨hl, hft⟩]
  exact keepQueue_of_pending rfl

end Sys2Proof.Proofs

namespace Sys2Proof.Machine
open Sys2Proof

namespace State

/-! ### A running operator stops (R116) -/

/-- Bytes, their poison and free values change, and nothing else. -/
def BytesOnly (s t : State) : Prop := t = { s with mem := t.mem, freeCtr := t.freeCtr, ms := { s.ms with poison := t.ms.poison } }

theorem bytesOnly_refl (s : State) : BytesOnly s s := rfl

theorem bytesOnly_trans (s t u : State) (h : BytesOnly s t) (h' : BytesOnly t u) : BytesOnly s u := by
  rw [BytesOnly, h', h]

theorem bytesOnly_openRange (s : State) (a n : Nat) : BytesOnly s (s.openRange a n) := by
  refine foldl_rel bytesOnly_refl bytesOnly_trans (fun u i _ => ?_) s
  split
  iterate 3 exact bytesOnly_refl u
  obtain ⟨p, hp⟩ := store_frame u (a + i) [u.free.setWidth 8]
  rw [hp]
  rfl

theorem bytesOnly_openTensor (s : State) (d : StreamDesc) : BytesOnly s (s.openTensor d) :=
  foldl_rel bytesOnly_refl bytesOnly_trans (fun u _ _ => bytesOnly_openRange u _ _) s

/-- A word that names a tensor to write leaves its bytes open. -/
theorem bytesOnly_openWord (s : State) (who : Nat) (w : Word64) :
    BytesOnly s (match s.tensor who w true with | .ok t => s.openTensor t.d | .error _ => s) := by
  split
  · exact bytesOnly_openTensor s _
  · exact bytesOnly_refl s

/-- A stopped operator's outputs: bytes change alone (R116). -/
theorem bytesOnly_stopOutputs (s : State) (h : Nat) (o : RunOp) : BytesOnly s (s.stopOutputs h o) := by
  unfold stopOutputs
  extract_lets c s1 outs s2 s3 s4 s5
  have h1 : BytesOnly s s1 := foldl_rel bytesOnly_refl bytesOnly_trans (fun u w _ => bytesOnly_openWord u o.tenant w) s
  have h2 : BytesOnly s1 s2 := foldl_rel bytesOnly_refl bytesOnly_trans
    (fun u i _ => rel_ite (bytesOnly_refl u) (bytesOnly_openWord u o.tenant (wordOf c i))) s1
  have h3 : BytesOnly s2 s3 := by
    refine rel_ite ?_ (bytesOnly_refl s2)
    split
    · exact foldl_rel bytesOnly_refl bytesOnly_trans
        (fun u sh _ => foldl_rel bytesOnly_refl bytesOnly_trans (fun u r _ => bytesOnly_openRange u r.1 r.2) u) s2
    · exact bytesOnly_refl s2
  have h4 : BytesOnly s3 s4 := rel_ite (bytesOnly_openRange ..) (rel_ite (bytesOnly_openRange ..) (rel_ite (bytesOnly_openRange ..) (bytesOnly_refl s3)))
  have h5 : BytesOnly s4 s5 := rel_ite (bytesOnly_openRange ..) (bytesOnly_refl s4)
  have h6 : BytesOnly s s5 := bytesOnly_trans _ _ _ (bytesOnly_trans _ _ _ (bytesOnly_trans _ _ _ (bytesOnly_trans _ _ _ h1 h2) h3) h4) h5
  clear_value s5
  refine bytesOnly_trans _ _ _ h6 ?_
  split
  · exact rel_ite (bytesOnly_openRange ..) (bytesOnly_refl s5)
  · exact bytesOnly_refl s5


/-- Engines change, and nothing else. -/
def EngOnly (s t : State) : Prop := t = { s with eng := t.eng }

theorem engOnly_refl (s : State) : EngOnly s s := rfl

theorem engOnly_trans (s t u : State) (h : EngOnly s t) (h' : EngOnly t u) : EngOnly s u := by
  rw [EngOnly, h', h]

/-- A stream cancelled leaves with its slots, its places in queues and its reads (R82, R116). -/
theorem cancelStream_eq (s : State) (n : Nat) : ∃ e w r,
    s.cancelStream n = { s with eng := e, strm := Map.erase s.strm n, waiters := w, ms := { s.ms with reads := r } } := by
  cases hx : Map.get? s.strm n with
  | none =>
    refine ⟨s.eng, s.waiters, s.ms.reads, ?_⟩
    have hstrm : Map.erase s.strm n = s.strm := by
      rw [Map.get?, Option.map_eq_none_iff, List.find?_eq_none] at hx
      exact List.filter_eq_self.2 fun p hp => by simpa using hx p hp
    rw [cancelStream, hx, hstrm]
  | some x =>
    obtain ⟨v, hv, hc⟩ : ∃ v, EngOnly s v ∧ s.cancelStream n = { v with
        strm := Map.erase v.strm n, waiters := (Map.mapVals v.waiters (fun _ l => l.erase n)).filter (fun p => p.2 != [])
        ms := { v.ms with reads := v.ms.reads.filter (fun p => p.2.by_ != .strm n) } } := by
      unfold cancelStream
      rw [hx]
      refine ⟨_, rel_ite (engOnly_refl s) (foldl_rel engOnly_refl engOnly_trans (fun u sl _ => ?_) s), rfl⟩
      exact rel_ite (engOnly_refl u) (rel_ite rfl (rel_ite rfl (engOnly_refl u)))
    rw [hc, hv]
    exact ⟨_, _, _, rfl⟩

/-- Streams cancelled are gone, and none is new. -/
theorem cancelStreams_spec (l : List Nat) (s : State) : ∃ e m w r,
    l.foldl (fun t n => t.cancelStream n) s = { s with eng := e, strm := m, waiters := w, ms := { s.ms with reads := r } } ∧
    ∀ p ∈ m, p ∈ s.strm ∧ p.1 ∉ l := by
  induction l generalizing s with
  | nil => exact ⟨s.eng, s.strm, s.waiters, s.ms.reads, rfl, fun p hp => ⟨hp, by simp⟩⟩
  | cons n l ih =>
    obtain ⟨_, _, _, hc⟩ := cancelStream_eq s n
    obtain ⟨e, m, w, r, hf, hm⟩ := ih (s.cancelStream n)
    refine ⟨e, m, w, r, by rw [List.foldl_cons, hf, hc], fun p hp => ?_⟩
    obtain ⟨hs, hl⟩ := hm p hp
    rw [hc] at hs
    obtain ⟨hs, hn⟩ : p ∈ s.strm ∧ p.1 ≠ n := by simpa [Map.erase] using hs
    exact ⟨hs, List.not_mem_cons_of_ne_of_not_mem hn hl⟩

/-- No stream is left of an operator whose streams are cancelled (R116). -/
theorem cancelOpStreams_spec (s : State) (h : Nat) : ∃ e m w r,
    s.cancelOpStreams h = { s with eng := e, strm := m, waiters := w, ms := { s.ms with reads := r } } ∧
    m.any (fun p => p.2.op == h) = false := by
  obtain ⟨e, m, w, r, hf, hm⟩ := cancelStreams_spec ((s.strm.filter (fun p => p.2.op == h)).map (·.1)) s
  refine ⟨e, m, w, r, hf, List.any_eq_false.2 fun p hp hop => ?_⟩
  obtain ⟨hs, hl⟩ := hm p hp
  exact hl (List.mem_map.2 ⟨p, List.mem_filter.2 ⟨hs, hop⟩, rfl⟩)

theorem engOnly_dropDrain (s : State) (e bank : Nat) (d : DrainPlan) : EngOnly s (s.dropDrain e bank d) := by
  refine engOnly_trans _ _ _ (foldl_rel engOnly_refl engOnly_trans (fun u k _ => ?_) s) rfl
  exact rel_ite rfl (rel_ite rfl (engOnly_refl u))

/-- No engine runs an operator they were freed of, and no queue holds it (R116). -/
theorem freeEngines_spec (s : State) (h : Nat) : ∃ e q, s.freeEngines h = { s with eng := e, readyQ := q } ∧
    (∀ x k, ((s.freeEngines h).engine x).run = some k → k.op ≠ h) ∧ ∀ x l, Map.get? q x = some l → h ∉ l := by
  unfold freeEngines
  extract_lets v bank
  have hv : EngOnly s v := foldl_rel engOnly_refl engOnly_trans (fun u q _ => engOnly_dropDrain u _ _ _) s
  clear_value v
  refine ⟨_, _, by rw [hv], fun x k hk => ?_, fun x l hl hmem => ?_⟩
  · simp only [engine, Map.get, Map.get?_mapVals] at hk
    cases hg : Map.get? v.eng x with
    | none => rw [hg] at hk; cases hk
    | some g =>
      rw [hg] at hk
      simp only [Option.map_some, Option.getD_some] at hk
      split at hk
      · split at hk
        · cases hk
        · cases hk; assumption
      · cases hk
  · rw [Map.get?, Option.map_eq_some_iff] at hl
    obtain ⟨p, hp, rfl⟩ := hl
    obtain ⟨hp, -⟩ := List.mem_filter.1 (List.mem_of_find?_eq_some hp)
    obtain ⟨p', -, rfl⟩ := List.mem_map.1 hp
    simpa using (List.mem_filter.1 hmem).2

/-- With no move made for an operator, freeing its accesses drops what waits for it and nothing else (R116). -/
theorem freeAccesses_frame (s : State) (h : Nat) (hm : ∀ m ∈ s.ms.moves, m.2.why ≠ .op h) : ∃ a w r t y f,
    s.freeAccesses h = { s with ms := { s.ms with asks := a, waits := w, reads := r }, remTodo := t, away := y, flowOut := f } := by
  have hnil : s.ms.moves.filter (fun p => p.2.why == .op h) = [] := List.filter_eq_nil_iff.2 fun m hmem => by simpa using hm m hmem
  unfold freeAccesses
  rw [hnil]
  exact ⟨_, _, _, _, _, _, rfl⟩

/-- An operator's streams, engines and accesses are let go (R116): what changes, and what is left of it. -/
theorem letGo_spec (s : State) (h : Nat) (hm : ∀ m ∈ s.ms.moves, m.2.why ≠ .op h) {u : State}
    (hu : u = ((s.cancelOpStreams h).freeEngines h).freeAccesses h) :
    u = { s with eng := u.eng, strm := u.strm, waiters := u.waiters, readyQ := u.readyQ
                 ms := { s.ms with asks := u.ms.asks, waits := u.ms.waits, reads := u.ms.reads }
                 remTodo := u.remTodo, away := u.away, flowOut := u.flowOut } ∧
    u.strm.any (fun p => p.2.op == h) = false ∧ (∀ x k, (u.engine x).run = some k → k.op ≠ h) ∧
    ∀ x l, Map.get? u.readyQ x = some l → h ∉ l := by
  obtain ⟨_, m, _, _, hc, hstrm⟩ := cancelOpStreams_spec s h
  generalize s.cancelOpStreams h = v at *
  obtain ⟨e, q, he, hrun, hq⟩ := freeEngines_spec v h
  generalize v.freeEngines h = w at *
  have hmw : w.ms.moves = s.ms.moves := by rw [he, hc]
  obtain ⟨_, _, _, _, _, _, ha⟩ := freeAccesses_frame w h (by rw [hmw]; exact hm)
  rw [ha] at hu
  have heng (x : Nat) : u.engine x = w.engine x := by rw [hu]; rfl
  have hustrm : u.strm = m := by rw [hu, he, hc]
  have hready : u.readyQ = q := by rw [hu, he]
  refine ⟨by rw [hu, he, hc], by rw [hustrm]; exact hstrm, fun x k hk => hrun x k (heng x ▸ hk), fun x l hl => hq x l (hready ▸ hl)⟩

/-- Collectives of an operator end with a CODE (R116). -/
def collsEnd (s : State) (h code detail : Nat) : State :=
  s.slots.foldl (fun u e =>
    let u := if (match e.2.run with | some c => c.op == h | none => false) then u.collEnd e.1 code detail 0xFFFF none true else u
    (e.2.queue.filter (fun c => c.op == h)).foldl (fun u c => u.queueEnd e.1 c code detail 0xFFFF) u) s

/-- An operator of no collective ends none. -/
theorem collsEnd_none {s : State} {h : Nat} (code detail : Nat)
    (hs : ∀ f ∈ s.slots, (∀ c, f.2.run = some c → c.op ≠ h) ∧ ∀ c ∈ f.2.queue, c.op ≠ h) : s.collsEnd h code detail = s := by
  refine (foldl_rel (R := fun s t => t = s) (fun _ => rfl) (fun _ _ _ h h' => h'.trans h) (fun u f hf => ?_) s)
  obtain ⟨hrun, hqueue⟩ := hs f hf
  have hnil : f.2.queue.filter (fun c => c.op == h) = [] := List.filter_eq_nil_iff.2 fun c hc => by simpa using hqueue c hc
  simp only [hnil, List.foldl_nil]
  split
  · exact if_neg (by simpa using hrun _ ‹_›)
  · rfl

/-- An operator has run and has no parts left. -/
def opStopped (s : State) (h : Nat) : State :=
  match s.op? h with
  | some o => s.opSet h { o with ran := true, parts := [] }
  | none => s

/-- The stop of an operator outside an exchange (R116). -/
theorem stopOp_eq {s : State} {h : Nat} {o : RunOp} (ho : s.op? h = some o) (hex : s.inExchange h = false) (code detail : Nat) :
    s.stopOp h code detail = ((((((s.collsEnd h code detail).opFail h (BitVec.ofNat 8 code) (BitVec.ofNat 8 detail)).stopOutputs h o).cancelOpStreams
      h).freeEngines h).freeAccesses h).opStopped h := by
  unfold stopOp
  rw [ho]
  simp only
  rw [hex, if_neg (by simp)]
  rfl

/-- An operator outside an exchange and no collective's stops: its outputs are open, and nothing of it is left running (R116). -/
theorem stopOp_spec {s : State} {h : Nat} {o : RunOp} (ho : s.op? h = some o) (hc : o.code = 0) (hl : LoneOp s h) (code detail : Nat) :
    (s.stopOp h code detail).op? h = some { o with
      code := BitVec.ofNat 8 code, detail := BitVec.ofNat 8 detail, failUnit := 0, ran := true, parts := [] } ∧
    (s.stopOp h code detail).pending = s.pending ∧ (s.stopOp h code detail).strm.any (fun p => p.2.op == h) = false ∧
    ∀ x k, ((s.stopOp h code detail).engine x).run = some k → k.op ≠ h := by
  obtain ⟨hg, -, hm, hslots⟩ := hl
  rw [stopOp_eq ho (by rw [inExchange, hg]), collsEnd_none _ _ hslots, opFail, ho]
  simp only
  rw [if_pos hc]
  have hb := bytesOnly_stopOutputs (s.opSet h { o with code := BitVec.ofNat 8 code, detail := BitVec.ofNat 8 detail, failUnit := 0 }) h o
  generalize (s.opSet h { o with code := BitVec.ofNat 8 code, detail := BitVec.ofNat 8 detail, failUnit := 0 }).stopOutputs h o = v at *
  have hvm : v.ms.moves = s.ms.moves := by rw [hb]; rfl
  have hvp : v.pending = s.pending := by rw [hb]; rfl
  have hvo : v.op? h = some { o with code := BitVec.ofNat 8 code, detail := BitVec.ofNat 8 detail, failUnit := 0 } := by
    rw [hb]; exact op?_opSet_self ..
  obtain ⟨u, hu⟩ : ∃ u, u = ((v.cancelOpStreams h).freeEngines h).freeAccesses h := ⟨_, rfl⟩
  obtain ⟨hf, hstrm, hrun, -⟩ := letGo_spec v h (by rw [hvm]; exact hm) hu
  rw [← hu, opStopped, show u.op? h = v.op? h by rw [op?, op?, hf], hvo]
  exact ⟨op?_opSet_self .., (show u.pending = v.pending by rw [hf]).trans hvp, hstrm, hrun⟩

end State
end Sys2Proof.Machine

namespace Sys2Proof.Proofs
open Sys2Proof Sys2Proof.Machine Sys2Proof.Machine.State

/-- No turnover is the one an operator runs. -/
theorem turn_not_of {s : State} {h : Nat} (ht : ∀ t, s.turn = some t → t.op ≠ h) : s.turn.filter (fun t => t.op == h) = none := by
  cases hs : s.turn with
  | none => rfl
  | some t => exact Option.filter_eq_none_iff.2 fun a ha => by cases ha; simpa using ht t hs

/-- DEADLINE_EXPIRY of an operator that runs and no turnover's (R116). -/
theorem exec_deadlineExpiry_running {s : State} {h : Nat} {o : RunOp} (ho : s.op? h = some o) (hx : s.expired o.cmd = true)
    (hd : o.dispatched = true) (hc : o.code = 0) (hr : o.ran = false ∨ o.cmd.opcode ≠ 0x0800) (ht : ∀ t, s.turn = some t → t.op ≠ h) :
    exec (.deadlineExpiry h) s = keepQueue s (.next (s.stopOp h 7 2)) := by
  show execDeadlineExpiry h s = _
  rw [execDeadlineExpiry, ho]
  simp only
  rw [if_neg (by simp [hx]), if_neg (by simp [hd]), turn_not_of ht]
  simp only
  rw [if_pos ⟨hc, hr⟩]

/-- DEADLINE_EXPIRY of a running operator (R116). -/
theorem expiry_running (s : State) (h : Nat) (o : RunOp) (ho : s.op? h = some o) (hx : s.expired o.cmd = true) (hd : o.dispatched = true)
    (hc : o.code = 0) (hr : o.ran = false ∨ o.cmd.opcode ≠ 0x0800) (hl : LoneOp s h) :
    ∃ u q, exec (.deadlineExpiry h) s = .next u ∧ u.op? h = some q ∧ q.code = 7 ∧ q.detail = 2 ∧ q.parts = [] ∧ q.ran = true ∧
      u.strm.any (fun p => p.2.op == h) = false ∧ ∀ e, (∀ k, (u.engine e).run = some k → k.op ≠ h) := by
  have hex := exec_deadlineExpiry_running ho hx hd hc hr hl.2.1
  obtain ⟨hq, hp, hs, he⟩ := stopOp_spec ho hc hl 7 2
  exact ⟨_, _, hex.trans (keepQueue_of_pending hp), hq, rfl, rfl, rfl, rfl, hs, he⟩

/-- OPERATOR_COMPLETE of an operator past its deadline (R116). -/
theorem complete_late (s : State) (h colt d : Nat) (o : RunOp) (ho : s.op? h = some o) (he : s.opEnded h o = true)
    (hd : s.deadlineOf o.cmd = some d) (hlt : d < s.ft.toNat) (hc : o.code = 0) (hop : o.cmd.opcode ≠ 0x0800) :
    exec (.operatorComplete h colt) s = exec (.deadlineExpiry h) s ∧ ∃ u, exec (.operatorComplete h colt) s = .next u := by
  have hex : exec (.operatorComplete h colt) s = keepQueue s (.next (s.stopOp h 7 2)) := by
    show execOperatorComplete h colt s = _
    rw [execOperatorComplete, ho]
    simp only
    rw [if_pos ⟨hc, by simp [hd, hlt], hop, he⟩]
  have hx : s.expired o.cmd = true := by rw [expired, hd]; simpa using hlt.le
  have hended : o.dispatched = true ∧ ∀ t, s.turn = some t → t.op ≠ h := by
    simp only [opEnded, Bool.and_eq_true, Bool.not_eq_true'] at he
    obtain ⟨⟨⟨⟨⟨⟨hdisp, -⟩, -⟩, -⟩, -⟩, -⟩, hturn⟩ := he
    exact ⟨hdisp, fun t ht e => by simp [ht, e] at hturn⟩
  exact ⟨hex.trans (exec_deadlineExpiry_running ho hx hended.1 hc (.inr hop) hended.2).symm, _, hex⟩

end Sys2Proof.Proofs

namespace Sys2Proof.Machine
open Sys2Proof

namespace State

/-! ### A running operator completes (R67, R113) -/

/-- The flags of an operator go into its engines' and MFUs' own registers, so DONE of a ring stays (R67, R348). -/
theorem endFlags_spec (s : State) (o : RunOp) (t : Nat) {r : Nat} (hr : r < 16) :
    RegsSent s (s.endFlags o) ∧ KeepsOn (fun a => a = R.CRG_RING_DONE t r) s (s.endFlags o) := by
  let K (s t' : State) : Prop := RegsSent s t' ∧ KeepsOn (fun a => a = R.CRG_RING_DONE t r) s t'
  have hrefl (s : State) : K s s := ⟨rfl, keepsOn_refl _ s⟩
  have htrans (s t' u : State) (h : K s t') (h' : K t' u) : K s u := ⟨regsSent_trans _ _ _ h.1 h'.1, keepsOn_trans h.2 h'.2⟩
  have hwr (s : State) (a : Nat) (v : Word32) (ha : a % 4096 < 0x200) : K s (s.wr a v) :=
    ⟨rfl, keepsOn_wr s v fun b hb => canon_ne_of_off (by subst hb; simp only [R.CRG_RING_DONE]; omega)⟩
  have hflags (s : State) (e : Nat) : K s (s.engFlags e o.flags) := by
    refine htrans _ _ _ (htrans _ _ _ (hwr s _ _ ?_) (rel_ite (hwr _ _ _ ?_) (hrefl _))) (rel_ite (hwr _ _ _ ?_) (hrefl _)) <;>
      simp only [R.OXE_NUM_FLAG, R.OXE_NV_CNT, R.OXE_SAT_CNT] <;> omega
  unfold endFlags
  extract_lets v
  have hv : K s v := rel_ite (foldl_rel hrefl htrans (fun u p _ => hflags u p.1) s) (hrefl s)
  clear_value v
  refine htrans _ _ _ hv (rel_ite (foldl_rel hrefl htrans (fun u m _ => htrans _ _ _ (hwr u _ _ ?_) (hwr _ _ _ ?_)) v) (hrefl v)) <;>
    simp only [R.MFU_NUM_FLAG, R.MFU_OP_CNT] <;> omega

/-- The state in which an operator's completion is recorded: its flags are in, and nothing of it is left (R67, R113). -/
def endedState (s : State) (h : Nat) (o : RunOp) (colt : Nat) : State :=
  ((((s.endFlags o).stepEnd h o colt).convEnd h o).epochEnd h o).opGone h

/-- A record that holds no commit block ends what it has of an epoch. -/
theorem epochEnd_free {s : State} {h : Nat} {o : RunOp} (hb : Map.get? s.busyCb h = none) (hop : o.cmd.opcode ≠ 0x0500) :
    s.epochEnd h o = { s with commits := Map.erase s.commits h, folds := Map.erase s.folds h, recvs := Map.erase s.recvs h } := by
  rw [epochEnd, if_neg (fun h => hop h.1)]
  simp only [hb]

/-- An operator of no step, conversion or commit block leaves its flags behind and nothing else of it. -/
theorem endedState_eq {s : State} {h : Nat} {o : RunOp} (colt : Nat) (hg : Map.get? s.gsteps h = none) (hc : Map.get? s.convs h = none)
    (hb : Map.get? s.busyCb h = none) (hop : o.cmd.opcode ≠ 0x0500) : s.endedState h o colt =
    ({ s.endFlags o with commits := Map.erase (s.endFlags o).commits h, folds := Map.erase (s.endFlags o).folds h
                         recvs := Map.erase (s.endFlags o).recvs h } : State).opGone h := by
  have hf := (endFlags_spec s o 0 (r := 0) (by decide)).1
  unfold endedState
  generalize s.endFlags o = v at *
  have hg' : Map.get? v.gsteps h = none := by rw [hf]; exact hg
  have hc' : Map.get? v.convs h = none := by rw [hf]; exact hc
  have hb' : Map.get? v.busyCb h = none := by rw [hf]; exact hb
  simp only [stepEnd, hg', convEnd, hc']
  rw [epochEnd_free hb' hop]

/-- What an operator's end changes (R113, R116), its completion aside, and what is left of it. -/
theorem opGone_spec (s : State) (h : Nat) (hm : ∀ m ∈ s.ms.moves, m.2.why ≠ .op h) :
    (∃ c, s.opGone h = { s with
      eng := (s.opGone h).eng, strm := (s.opGone h).strm, waiters := (s.opGone h).waiters, readyQ := (s.opGone h).readyQ
      ms := (s.opGone h).ms, remTodo := (s.opGone h).remTodo, away := (s.opGone h).away
      flowOut := (s.opGone h).flowOut, rng := { s.rng with copies := c }, turn := (s.opGone h).turn }) ∧
    (s.opGone h).strm.any (fun p => p.2.op == h) = false ∧ (∀ x k, ((s.opGone h).engine x).run = some k → k.op ≠ h) ∧
    ∀ x l, Map.get? (s.opGone h).readyQ x = some l → h ∉ l := by
  obtain ⟨u, hu⟩ : ∃ u, u = ((s.cancelOpStreams h).freeEngines h).freeAccesses h := ⟨_, rfl⟩
  obtain ⟨hf, hs, he, hq⟩ := letGo_spec s h hm hu
  have hg : s.opGone h = { u.dropCopies h with turn := (u.dropCopies h).turn.map (fun t => { t with readers := t.readers.filter (· != h) }) } := by
    rw [hu]; rfl
  rw [hg]
  exact ⟨⟨_, by rw [hf]; rfl⟩, hs, he, hq⟩


/-- With no generator to switch, nothing changes (R406). -/
theorem genSwitch_idle {s : State} (hp : s.rng.pend = []) (hr : s.rng.rewinds = []) : s.genSwitch = s := by
  rw [genSwitch, if_pos ⟨hp, hr⟩]

/-- With no fence waiting, nothing changes (R478). -/
theorem fenceSettle_idle {s : State} (h : ∀ p ∈ s.coreRun, p.2.stop = false) : s.fenceSettle = s := by
  rw [fenceSettle, List.filter_eq_nil_iff.2 fun p hp => by simp [h p hp]]
  rfl

end State
end Sys2Proof.Machine

namespace Sys2Proof.Proofs
open Sys2Proof Sys2Proof.Machine Sys2Proof.Machine.State

/-- OPERATOR_COMPLETE of an ended operator in time (R67, R113). -/
theorem exec_operatorComplete {s : State} {h : Nat} (colt : Nat) {o : RunOp} (ho : s.op? h = some o) (he : s.opEnded h o = true)
    (hd : o.code ≠ 0 ∨ ∀ d, s.deadlineOf o.cmd = some d → s.ft.toNat ≤ d) :
    exec (.operatorComplete h colt) s = keepQueue s (.next ((((s.endedState h o colt).used.complete h
      ((s.endedState h o colt).recFields o)).genSwitch).fenceSettle)) := by
  have hlate : ¬(o.code = 0 ∧ (s.deadlineOf o.cmd).any (fun d => decide (d < s.ft.toNat)) = true ∧ o.cmd.opcode ≠ 0x0800 ∧ s.opEnded h o = true) := by
    rintro ⟨hc, hany, -⟩
    cases hdl : s.deadlineOf o.cmd with
    | none => rw [hdl] at hany; cases hany
    | some d =>
      rw [hdl] at hany
      exact absurd (hd.resolve_left (not_not_intro hc) d hdl) (not_le.2 (by simpa using hany))
  show execOperatorComplete h colt s = _
  rw [execOperatorComplete, ho]
  simp only
  rw [if_neg hlate, if_pos he]
  rfl

/-- OPERATOR_COMPLETE of an ended operator (R67, R113, R114). -/
theorem complete_ended (s : State) (h colt : Nat) (o : RunOp) (ho : s.op? h = some o) (_ : o.tenant < 64) (hr : o.ring < 16)
    (he : s.opEnded h o = true) (hd : o.code ≠ 0 ∨ ∀ d, s.deadlineOf o.cmd = some d → s.ft.toNat ≤ d) (hl : LoneOp s h)
    (hconv : Map.get? s.convs h = none) (hb : Map.get? s.busyCb h = none) (hop : o.cmd.opcode ≠ 0x0500) (hpend : s.rng.pend = [])
    (hrew : s.rng.rewinds = []) (hstop : ∀ p ∈ s.coreRun, p.2.stop = false) :
    ∃ u, exec (.operatorComplete h colt) s = .next u ∧ Recorded s u h o o.code ∧ u.strm.any (fun p => p.2.op == h) = false ∧
      (∀ e k, (u.engine e).run = some k → k.op ≠ h) ∧ (∀ k l, Map.get? u.readyQ k = some l → h ∉ l) := by
  obtain ⟨hg, -, hm, -⟩ := hl
  have hex := exec_operatorComplete colt ho he hd
  have hend := endedState_eq colt hg hconv hb hop
  obtain ⟨hf, hdone⟩ := endFlags_spec s o o.tenant hr
  generalize s.endFlags o = v at *
  obtain ⟨w, hw⟩ : ∃ w : State, w = { v with commits := Map.erase v.commits h, folds := Map.erase v.folds h, recvs := Map.erase v.recvs h } := ⟨_, rfl⟩
  rw [← hw] at hend
  have hwm : w.ms = s.ms := by rw [hw, hf]
  obtain ⟨⟨c, hgone⟩, hs, hrun, hq⟩ := opGone_spec w h (by rw [hwm]; exact hm)
  rw [← hend] at hgone hs hrun hq
  generalize s.endedState h o colt = x at *
  have hx : x.mem = s.mem ∧ x.ops = s.ops ∧ x.depCtr = s.depCtr ∧ x.pending = s.pending ∧ x.coreRun = s.coreRun ∧
      x.rng.pend = s.rng.pend ∧ x.rng.rewinds = s.rng.rewinds ∧ x.regs = v.regs := by
    rw [hgone, hw, hf]
    exact ⟨rfl, rfl, rfl, rfl, rfl, rfl, rfl, rfl⟩
  clear hgone hend hw hwm
  obtain ⟨hmem, hops, hdep, hp, hcore, hxp, hxr, hregs⟩ := hx
  obtain ⟨hrt, hrr, hrc, hrcode⟩ := recFields_same x o
  have hrec := complete_recorded x.used h (x.recFields o) (by rw [hrr]; exact hr)
  have hcf := (complete_spec x.used h (x.recFields o)).1
  generalize x.used.complete h (x.recFields o) = y at *
  have hy : y.pending = x.pending ∧ y.coreRun = x.coreRun ∧ y.rng = x.rng ∧ y.strm = x.strm ∧ y.eng = x.eng ∧ y.readyQ = x.readyQ := by
    rw [hcf]
    exact ⟨rfl, rfl, rfl, rfl, rfl, rfl⟩
  obtain ⟨hyp, hyc, hyr, hys, hye, hyq⟩ := hy
  rw [genSwitch_idle (by rw [hyr, hxp, hpend]) (by rw [hyr, hxr, hrew]), fenceSettle_idle (by rw [hyc, hcore]; exact hstop),
    keepQueue_of_pending (hyp.trans hp)] at hex
  have heng (e : Nat) : y.engine e = x.engine e := by rw [engine, engine, hye]
  refine ⟨y, hex, ?_, by rw [hys]; exact hs, fun e k hk => hrun e k (heng e ▸ hk), fun k l hkl => hq k l (hyq ▸ hkl)⟩
  rw [hrcode] at hrec
  refine recorded_congr hrec hmem.symm hops.symm hdep.symm ?_ hrt.symm hrr.symm hrc.symm
  rw [hrt, hrr, show x.used.rd (R.CRG_RING_DONE o.tenant o.ring) = v.rd (R.CRG_RING_DONE o.tenant o.ring) from rd_congr hregs _]
  exact (hdone _ rfl).symm

/-- Settles O7, clause by clause. -/
theorem recordLife : Obligations.RecordLife :=
  ⟨fetch_ordered, fetch_stops, dispatch_refused, dispatch_expired_or_faulted, dispatch_turned_away, dispatch_sent, part_reported, part_held,
    expiry_undispatched, expiry_running, complete_late, complete_ended, trigger_fires, fallback_released⟩

end Sys2Proof.Proofs

end

section
/-! PROOFS. Lanes: markers, marker lock, failed lanes, lane switches and recalibration (O18). -/
namespace Sys2Proof.Machine
open Sys2Proof

namespace State

/-! ### Ports and lanes as they are set -/

theorem port_portMod_self (s : State) (p : Nat) (f : Port → Port) : (s.portMod p f).port p = f (s.port p) := by
  rw [portMod, portSet, port, Map.get, Map.get?_set_self]; rfl

theorem port_portMod_ne (s : State) {p q : Nat} (f : Port → Port) (h : q ≠ p) : (s.portMod p f).port q = s.port q := by
  rw [portMod, portSet, port, Map.get, Map.get?_set_ne _ _ h]; rfl

theorem lane_lanePut (s : State) (p l k : Nat) (v : Lane) : (s.lanePut p l v).lane p k = if k = l then v else s.lane p k := by
  rw [lane, lanePut, port_portMod_self, Map.get_put]; rfl

/-- Setting a lane changes its port's lanes alone. -/
theorem port_lanePut (s : State) (p l : Nat) (v : Lane) :
    (s.lanePut p l v).port p = { s.port p with lanes := ((s.lanePut p l v).port p).lanes } := by
  rw [lanePut, port_portMod_self]

/-- Registers of a port's page stand for themselves. -/
theorem canon_preg (p off : Nat) : canon (preg p off) = preg p off := by
  unfold canon preg portPage
  simp only
  split_ifs <;> omega

theorem canon_preg_ne (p : Nat) {a b : Nat} (h : a ≠ b) : canon (preg p a) ≠ canon (preg p b) := by
  rw [canon_preg, canon_preg]
  unfold preg
  omega

theorem canon_preg_intStat (p a : Nat) (h : a ≠ 0x20) : canon (preg p a) ≠ canon (R.INT_STAT (portPage p)) :=
  canon_preg_ne p h

/-- Of a port, the lanes and their status change at most (R213, R214). -/
def LanesOnly (p : Nat) (s t : State) : Prop :=
  t = { s with regs := t.regs, ports := t.ports } ∧ (∀ q, q ≠ p → t.port q = s.port q) ∧
  t.port p = { s.port p with lanes := (t.port p).lanes } ∧ RegsKept s t [preg p 0x104, preg p 0x114] ∧ t.portState p = s.portState p

theorem lanesOnly_refl (p : Nat) (s : State) : LanesOnly p s s := ⟨rfl, fun _ _ => rfl, rfl, kept_refl s _, rfl⟩

theorem lanesOnly_trans (p : Nat) (s t u : State) (h : LanesOnly p s t) (h' : LanesOnly p t u) : LanesOnly p s u := by
  obtain ⟨hf, hq, hp, hk, hst⟩ := h
  obtain ⟨hf', hq', hp', hk', hst'⟩ := h'
  exact ⟨by rw [hf', hf], fun _ hne => (hq' _ hne).trans (hq _ hne), by rw [hp', hp], kept_trans hk hk' (fun _ h => h) (fun _ h => h), hst'.trans hst⟩

/-- A lane set, its status unread. -/
theorem lanesOnly_lanePut (s : State) (p l : Nat) (v : Lane) : LanesOnly p s (s.lanePut p l v) :=
  ⟨rfl, fun _ hq => port_portMod_ne s _ hq, port_lanePut s p l v, kept_refl s _, rfl⟩

/-- The status of lanes is written to registers alone, and STATE is not part of it (R213, R214). -/
theorem laneStat_spec (s : State) (p : Nat) : s.laneStat p = { s with regs := (s.laneStat p).regs } ∧
    RegsKept s (s.laneStat p) [preg p 0x104, preg p 0x114] ∧ (s.laneStat p).portState p = s.portState p ∧
    (s.laneStat p).rdB (preg p 0x104) 25 = (isHall p && ((s.port p).txHalf || (s.port p).rxHalf)) := by
  refine ⟨rfl, ?_, ?_, ?_⟩
  · unfold laneStat
    simp only [wrF_eq]
    exact kept_trans (kept_trans (n := [preg p 0x104, preg p 0x114]) (kept_wr _ _ _) (kept_wr _ _ _) (by simp) (by simp)) (kept_wr _ _ _)
      (by simp) (by simp)
  · unfold laneStat portState
    simp only
    rw [rdF_wrF_ne _ _ _ (by decide) (by decide), rdF_wrF_ne _ _ _ (by decide) (by decide), rdF, rd_wr_ne _ _ (canon_preg_ne p (by decide))]
    rfl
  · unfold laneStat
    simp only
    rw [rdB, wrF_eq, rd_wr_self, bit_setFld _ _ _ _ _ (by decide), if_pos (by decide)]
    cases isHall p && ((s.port p).txHalf || (s.port p).rxHalf) <;> rfl

/-- A lane set with its status: of the port, lanes and status change (R213, R214). -/
theorem lanesOnly_laneSet (s : State) (p l : Nat) (v : Lane) : LanesOnly p s (s.laneSet p l v) := by
  obtain ⟨hf, hk, hst, -⟩ := laneStat_spec (s.lanePut p l v) p
  refine lanesOnly_trans p _ _ _ (lanesOnly_lanePut s p l v) ?_
  rw [laneSet]
  exact ⟨by rw [hf], fun _ _ => rfl, rfl, hk, hst⟩

theorem lane_laneSet (s : State) (p l k : Nat) (v : Lane) : (s.laneSet p l v).lane p k = if k = l then v else s.lane p k :=
  lane_lanePut s p l k v

/-! ### Slots pass (R178 to R182, R203) -/

/-- Slots pass on a port: of its lanes the scramblers and the codewords being filled change, and what goes out is appended. -/
def SlotsPass (p : Nat) (s t : State) : Prop :=
  t = { s with ports := t.ports, outbox := t.outbox } ∧ (∀ q, q ≠ p → t.port q = s.port q) ∧
  t.port p = { s.port p with lanes := (t.port p).lanes, slot := (t.port p).slot, mcount := (t.port p).mcount } ∧
  (∀ l, t.lane p l = { s.lane p l with scr := (t.lane p l).scr, cw := (t.lane p l).cw }) ∧ ∃ q, t.outbox = s.outbox ++ q

theorem slotsPass_refl (p : Nat) (s : State) : SlotsPass p s s := ⟨rfl, fun _ _ => rfl, rfl, fun _ => rfl, [], by simp⟩

theorem slotsPass_trans (p : Nat) (s t u : State) (h : SlotsPass p s t) (h' : SlotsPass p t u) : SlotsPass p s u := by
  obtain ⟨hf, hq, hp, hl, a, ha⟩ := h
  obtain ⟨hf', hq', hp', hl', b, hb⟩ := h'
  exact ⟨by rw [hf', hf], fun _ hne => (hq' _ hne).trans (hq _ hne), by rw [hp', hp], fun l => by rw [hl', hl], a ++ b,
    by rw [hb, ha, List.append_assoc]⟩

/-- A message for a lane appends to what goes out. -/
theorem slotsPass_block (p : Nat) (s : State) (q l : Nat) (b : List Byte) : SlotsPass p s (s.emit (.block q l b)) :=
  ⟨rfl, fun _ _ => rfl, rfl, fun _ => rfl, _, rfl⟩

/-- A lane set as to its scrambler and codeword. -/
theorem slotsPass_lanePut (p : Nat) (s : State) (l scr : Nat) (cw : List Nat) : SlotsPass p s (s.lanePut p l { s.lane p l with scr := scr, cw := cw }) := by
  refine ⟨rfl, fun _ hq => port_portMod_ne s _ hq, by rw [lanePut, port_portMod_self], fun k => ?_, [], by simp [lanePut, portMod, portSet]⟩
  rw [lane_lanePut]
  split
  next h => rw [h]
  · rfl

/-- A block on a lane (R179, R181). -/
theorem slotsPass_putBlock (p : Nat) (s : State) (l : Nat) (c : Bool) (b : List Byte) : SlotsPass p s (s.putBlock p l c b) := by
  unfold putBlock
  simp only
  split
  · exact slotsPass_lanePut p s l _ _
  · refine slotsPass_trans p _ _ _ (slotsPass_lanePut p s l (scramble (blockBits c b) (s.lane p l).scr).2 []) ?_
    exact ⟨rfl, fun _ _ => rfl, rfl, fun _ => rfl, _, rfl⟩

/-- Blocks put count no slot and no marker. -/
theorem counts_putBlock (s : State) (p l : Nat) (c : Bool) (b : List Byte) :
    ((s.putBlock p l c b).port p).slot = (s.port p).slot ∧ ((s.putBlock p l c b).port p).mcount = (s.port p).mcount := by
  have hl (v : Lane) : ((s.lanePut p l v).port p).slot = (s.port p).slot ∧ ((s.lanePut p l v).port p).mcount = (s.port p).mcount := by
    rw [port_lanePut]
    exact ⟨rfl, rfl⟩
  unfold putBlock
  simp only
  split
  · exact hl _
  · exact hl _

/-- A block on another lane leaves a lane as it was. -/
theorem lane_putBlock_ne (s : State) (p : Nat) {l k : Nat} (c : Bool) (b : List Byte) (h : k ≠ l) : (s.putBlock p l c b).lane p k = s.lane p k := by
  unfold putBlock
  simp only
  split
  · rw [lane_lanePut, if_neg h]
  · exact (lane_lanePut ..).trans (if_neg h)

/-- The slot counter and the marker counter of a port (R178, R182). -/
theorem slotsPass_count (p : Nat) (s : State) (f : Port → Port)
    (h : ∀ o, f o = { o with slot := (f o).slot, mcount := (f o).mcount }) : SlotsPass p s (s.portMod p f) := by
  have hl : ((s.portMod p f).port p).lanes = (s.port p).lanes := by rw [port_portMod_self, h]
  refine ⟨rfl, fun _ hq => port_portMod_ne s f hq, ?_, fun l => ?_, [], by simp [portMod, portSet]⟩
  · have hp := h (s.port p)
    rw [port_portMod_self]
    generalize f (s.port p) = v at *
    rw [hp]
  · rw [lane, hl]; rfl

theorem slotsPass_putSlot (p : Nat) (s : State) (blk : Nat → Bool × List Byte) : SlotsPass p s (s.putSlot p blk) :=
  slotsPass_trans p _ _ _
    (foldl_rel (slotsPass_refl p) (slotsPass_trans p) (fun u l _ => slotsPass_putBlock p u l (blk l).1 (blk l).2) s)
    (slotsPass_count p _ _ fun _ => rfl)

/-- What a marker of a lane carries (R182). -/
def markerOf (s : State) (p l : Nat) : List Byte := amBlock ((laneStripe (s.rd (preg p 0x10C)) (s.txLanes p) l).getD 15) l (s.port p).mcount

/-- The markers of a port go out as blocks. -/
def markersSent (s : State) (p : Nat) : State := (List.range (laneCount p)).foldl (fun u l => u.emit (.block p l (s.markerOf p l))) s

theorem markers_eq (s : State) (p : Nat) : s.markers p = ((s.markersSent p).putSlot p (fun l => (true, s.markerOf p l))).portMod p
    (fun o => { o with mcount := ((s.port p).mcount + 1) % 65536 }) := rfl

theorem slotsPass_markersSent (p : Nat) (s : State) : SlotsPass p s (s.markersSent p) :=
  foldl_rel (slotsPass_refl p) (slotsPass_trans p) (fun u l _ => slotsPass_block p u p l _) s

theorem slotsPass_markers (p : Nat) (s : State) : SlotsPass p s (s.markers p) := by
  rw [markers_eq]
  exact slotsPass_trans p _ _ _ (slotsPass_trans p _ _ _ (slotsPass_markersSent p s) (slotsPass_putSlot p _ _)) (slotsPass_count p _ _ fun _ => rfl)

theorem slotsPass_ctlSlot (p : Nat) (s : State) (all : Bool) (b : List Byte) : SlotsPass p s (s.ctlSlot p all b) :=
  slotsPass_trans p _ _ _ (slotsPass_block p s p 99 _) (slotsPass_putSlot p _ _)

theorem slotsPass_nextCtl (p : Nat) (s : State) (all : Bool) (b : List Byte) : SlotsPass p s (s.nextCtl p all b) :=
  slotsPass_trans p _ _ _ (rel_ite (slotsPass_markers p s) (slotsPass_refl p s)) (slotsPass_ctlSlot p _ all b)

/-- An AM block passes the scrambler as it is (R181). -/
theorem scramble_amBlock (stripe lane mcount st : Nat) : scramble (blockBits true (amBlock stripe lane mcount)) st =
    (blockBits true (amBlock stripe lane mcount), st) := by
  have hcode : ∃ r, padTo 32 (amBlock stripe lane mcount) = 0xA5 :: r := ⟨_, rfl⟩
  obtain ⟨r, hr⟩ := hcode
  have hbits : blockBits true (amBlock stripe lane mcount) % 512 = 1 + 2 * 0xA5 := by
    rw [blockBits, hr, leNat]
    have hcode : (0xA5 : Byte).toNat = 0xA5 := rfl
    simp only [Bool.toNat_true, hcode]
    omega
  rw [scramble, if_pos hbits]

/-- A marker joins the codeword being filled, where it does not complete it (R181, R182). -/
theorem lane_putBlock_marker (s : State) (p l stripe lane mcount : Nat) (h : (s.lane p l).cw.length < 19) :
    (s.putBlock p l true (amBlock stripe lane mcount)).lane p l =
      { s.lane p l with cw := (s.lane p l).cw ++ [blockBits true (amBlock stripe lane mcount)] } := by
  unfold putBlock
  simp only [scramble_amBlock]
  rw [if_pos (by simp; omega), lane_lanePut, if_pos rfl]

/-- What a block makes of a lane is told by that lane alone. -/
theorem lane_putBlock_congr {s t : State} {p l : Nat} (c : Bool) (b : List Byte) (h : t.lane p l = s.lane p l) :
    (t.putBlock p l c b).lane p l = (s.putBlock p l c b).lane p l := by
  unfold putBlock
  simp only [h]
  split
  · rw [lane_lanePut, lane_lanePut, if_pos rfl, if_pos rfl]
  · exact (lane_lanePut ..).trans ((if_pos rfl).trans ((lane_lanePut ..).trans (if_pos rfl)).symm)

/-- A slot puts one block on each lane. -/
theorem lane_putBlocks (p : Nat) (blk : Nat → Bool × List Byte) {ls : List Nat} (hn : ls.Nodup) (s : State) (l : Nat) :
    ((ls.foldl (fun u l => u.putBlock p l (blk l).1 (blk l).2) s).lane p l =
      if l ∈ ls then (s.putBlock p l (blk l).1 (blk l).2).lane p l else s.lane p l) := by
  induction ls generalizing s with
  | nil => rfl
  | cons k ls ih =>
    obtain ⟨hk, hn⟩ := List.nodup_cons.1 hn
    rw [List.foldl_cons, ih hn]
    by_cases he : l = k
    · subst he
      rw [if_neg hk, if_pos (by simp)]
    · have hlane := lane_putBlock_ne s p (blk k).1 (blk k).2 he
      simp only [List.mem_cons, he, false_or, hlane]
      split
      · exact lane_putBlock_congr (blk l).1 (blk l).2 hlane
      · rfl

/-- The markers go out as they are (R182). -/
theorem markersSent_frame (s : State) (p : Nat) :
    s.markersSent p = { s with outbox := s.outbox ++ (List.range (laneCount p)).map (fun l => .block p l (s.markerOf p l)) } := by
  have hfold (ls : List Nat) (u : State) : ls.foldl (fun u l => u.emit (.block p l (s.markerOf p l))) u =
      { u with outbox := u.outbox ++ ls.map (fun l => .block p l (s.markerOf p l)) } := by
    induction ls generalizing u with
    | nil => simp
    | cons l ls ih =>
      rw [List.foldl_cons, ih, List.map_cons]
      show ({ u with outbox := (u.outbox ++ [_]) ++ _ } : State) = _
      rw [List.append_assoc]
      rfl
  exact hfold _ s

/-- What a slot of markers changes of its port (R182). -/
theorem markers_spec (s : State) (p : Nat) :
    (s.markers p).port p = { s.port p with
      lanes := ((s.markers p).port p).lanes, slot := (s.port p).slot + 1, mcount := ((s.port p).mcount + 1) % 65536 } ∧
    (∃ l, (s.markers p).outbox = s.outbox ++ (List.range (laneCount p)).map (fun l => .block p l (s.markerOf p l)) ++ l) ∧
    ∀ l, l < laneCount p → (s.lane p l).cw.length < 19 →
      (s.markers p).lane p l = { s.lane p l with cw := (s.lane p l).cw ++ [blockBits true (s.markerOf p l)] } := by
  rw [markers_eq]
  have hsent := markersSent_frame s p
  generalize s.markersSent p = v at *
  have hvp : v.port p = s.port p := by rw [hsent]; rfl
  have hvl (l : Nat) : v.lane p l = s.lane p l := by rw [lane, lane, hvp]
  obtain ⟨w, hw⟩ : ∃ w, w = (List.range (laneCount p)).foldl (fun u l => u.putBlock p l true (s.markerOf p l)) v := ⟨_, rfl⟩
  have hputs : v.putSlot p (fun l => (true, s.markerOf p l)) = w.portMod p (fun o => { o with slot := o.slot + 1 }) := by rw [hw]; rfl
  have hpass : SlotsPass p v w ∧ (w.port p).slot = (v.port p).slot ∧ (w.port p).mcount = (v.port p).mcount := by
    rw [hw]
    refine foldl_rel (R := fun a b => SlotsPass p a b ∧ (b.port p).slot = (a.port p).slot ∧ (b.port p).mcount = (a.port p).mcount)
      (fun a => ⟨slotsPass_refl p a, rfl, rfl⟩)
      (fun a b c h h' => ⟨slotsPass_trans p a b c h.1 h'.1, h'.2.1.trans h.2.1, h'.2.2.trans h.2.2⟩)
      (fun u l _ => ⟨slotsPass_putBlock p u l true _, counts_putBlock u p l true _⟩) v
  have hlanes (l : Nat) (hl : l < laneCount p) : w.lane p l = (v.putBlock p l true (s.markerOf p l)).lane p l := by
    have := lane_putBlocks p (fun l => (true, s.markerOf p l)) (List.nodup_range (n := laneCount p)) v l
    rw [if_pos (List.mem_range.2 hl)] at this
    rw [hw]
    exact this
  clear hw
  obtain ⟨⟨-, -, hport, -, q, hout⟩, hslot, -⟩ := hpass
  rw [hputs]
  refine ⟨?_, ⟨q, ?_⟩, fun l hl hlen => ?_⟩
  · rw [port_portMod_self, port_portMod_self, hport, hslot, hvp]
  · rw [show ((w.portMod p _).portMod p _).outbox = w.outbox from rfl, hout, hsent]
  · rw [lane, port_portMod_self, port_portMod_self]
    exact (hlanes l hl).trans ((lane_putBlock_marker v p l _ _ _ (by rw [hvl]; exact hlen)).trans (by rw [hvl]; rfl))

end State
end Sys2Proof.Machine

namespace Sys2Proof.Proofs
open Sys2Proof Sys2Proof.Machine Sys2Proof.Machine.State

/-- A codeword that is no marker, or not the one expected, is missed. -/
theorem marker_missed {raw m : Nat} (h : ∀ r, rsDecode raw = some r → amMatch r.1 = false ∨ amCount r.1 ≠ m) :
    (rsDecode raw).filter (fun r => amMatch r.1 && amCount r.1 == m) = none := by
  refine Option.filter_eq_none_iff.2 fun r hr => ?_
  rcases h r hr with h | h <;> simp [h]

/-- Of a port alone, as its slots pass. -/
theorem portOnly_slotsPass {s t : State} {p : Nat} (h : SlotsPass p s t) : PortOnly s t p :=
  ⟨by rw [h.1], h.2.1⟩

/-- AM_TRANSMIT at a marker's slot (R182). -/
theorem markers_sent (s : State) (p : Nat) (hp : p < 36) (hs : s.portSends p = true) (hm : s.markerSlot p = true) :
    let am (l : Nat) : List Byte := amBlock ((laneStripe (s.rd (preg p 0x10C)) (s.txLanes p) l).getD 15) l (s.port p).mcount
    ∃ t, exec (.amTransmit p) s = .next t ∧ PortOnly s t p ∧ t.regs = s.regs ∧
      t.port p = { s.port p with lanes := (t.port p).lanes, slot := (s.port p).slot + 1, mcount := ((s.port p).mcount + 1) % 65536 } ∧
      (∃ l, t.outbox = s.outbox ++ (List.range (laneCount p)).map (fun l => .block p l (am l)) ++ l) ∧
      ∀ l, l < laneCount p → (s.lane p l).cw.length < 19 →
        t.lane p l = { s.lane p l with cw := (s.lane p l).cw ++ [blockBits true (am l)] } := by
  have hpass := slotsPass_markers p s
  obtain ⟨hport, hout, hlane⟩ := markers_spec s p
  have hex : exec (.amTransmit p) s = keepQueue s (.next (s.markers p)) := by
    show execAmTransmit p s = _
    rw [execAmTransmit, if_pos ⟨hp, hs, hm⟩]
  generalize s.markers p = t at *
  rw [keepQueue_of_pending (by rw [hpass.1])] at hex
  exact ⟨t, hex, portOnly_slotsPass hpass, by rw [hpass.1], hport, hout, hlane⟩

/-- AM_TRANSMIT elsewhere does nothing. -/
theorem markers_not_due (s : State) (p : Nat) (h : s.portSends p = false ∨ s.markerSlot p = false) : exec (.amTransmit p) s = .next s := by
  show execAmTransmit p s = _
  rw [execAmTransmit, if_neg (by rintro ⟨-, h1, h2⟩; rcases h with h | h <;> simp [h] at h1 h2)]
  exact keepQueue_of_pending rfl

/-- AM_RECEIVED of a lane that hunts, where it may not or the codeword is no clean marker (R183, R184). -/
theorem marker_ignored (s : State) (p l skew raw : Nat) (hp : p < 36) (hl : l < laneCount p) (hlock : (s.lane p l).lock = .hunt)
    (h : s.mayHunt p l = false ∨ amMatch raw = false ∨ rsLeft raw ≠ 0) : exec (.amReceived p l skew raw) s = .next s := by
  have hno : (s.mayHunt p l && (amMatch raw && rsLeft raw == 0)) = false := by
    rcases h with h | h | h <;> simp [h]
  show execAmReceived p l skew raw s = _
  rw [execAmReceived, if_pos ⟨hp, hl⟩]
  simp only [hlock, hno]
  exact keepQueue_of_pending rfl

/-- A marker, good or missed, moves a lane's lock as the table of HUNT, CONFIRM and LOCKED says (R183). -/
theorem exec_amReceived_moves (s : State) {p l raw : Nat} (skew : Nat) {a b : LaneLock} (hp : p < 36) (hl : l < laneCount p)
    (hlock : (s.lane p l).lock = a)
    (h : (a = .hunt ∧ s.mayHunt p l = true ∧ amMatch raw = true ∧ rsLeft raw = 0 ∧ b = .confirm 1 ((amCount raw + 1) % 65536)) ∨
     (∃ n m, n < 3 ∧ a = .confirm n m ∧ amMatch raw = true ∧ rsLeft raw = 0 ∧ amCount raw = m ∧ b = .confirm (n + 1) ((m + 1) % 65536)) ∨
     (∃ n m, a = .confirm n m ∧ (amMatch raw = false ∨ rsLeft raw ≠ 0 ∨ amCount raw ≠ m) ∧ b = .hunt) ∨
     (∃ n m, n < 2 ∧ a = .locked n m ∧ (∀ r, rsDecode raw = some r → amMatch r.1 = false ∨ amCount r.1 ≠ m) ∧
       b = .locked (n + 1) ((m + 1) % 65536))) :
    exec (.amReceived p l skew raw) s = keepQueue s (.next (s.laneSet p l { s.lane p l with lock := b })) := by
  show execAmReceived p l skew raw s = _
  rw [execAmReceived, if_pos ⟨hp, hl⟩]
  rcases h with ⟨rfl, hm, ha, hr, rfl⟩ | ⟨n, m, hn, rfl, ha, hr, hc, rfl⟩ | ⟨n, m, rfl, hbad, rfl⟩ | ⟨n, m, hn, rfl, hbad, rfl⟩
  · simp [hlock, hm, ha, hr]
  · simp [hlock, ha, hr, hc, show ¬3 ≤ n by omega]
  · have hno : (amMatch raw && rsLeft raw == 0 && amCount raw == m) = false := by
      rcases hbad with h | h | h <;> simp [h]
    simp [hlock, hno]
  · simp only [hlock, marker_missed hbad]
    rw [if_neg (by omega)]

/-- AM_RECEIVED as the table of HUNT, CONFIRM and LOCKED moves a lane (R183). -/
theorem marker_moves (s : State) (p l skew raw : Nat) (a b : LaneLock) (hp : p < 36) (hl : l < laneCount p)
    (hlock : (s.lane p l).lock = a)
    (h : (a = .hunt ∧ s.mayHunt p l = true ∧ amMatch raw = true ∧ rsLeft raw = 0 ∧ b = .confirm 1 ((amCount raw + 1) % 65536)) ∨
     (∃ n m, n < 3 ∧ a = .confirm n m ∧ amMatch raw = true ∧ rsLeft raw = 0 ∧ amCount raw = m ∧ b = .confirm (n + 1) ((m + 1) % 65536)) ∨
     (∃ n m, a = .confirm n m ∧ (amMatch raw = false ∨ rsLeft raw ≠ 0 ∨ amCount raw ≠ m) ∧ b = .hunt) ∨
     (∃ n m, n < 2 ∧ a = .locked n m ∧ (∀ r, rsDecode raw = some r → amMatch r.1 = false ∨ amCount r.1 ≠ m) ∧
       b = .locked (n + 1) ((m + 1) % 65536))) :
    ∃ t, exec (.amReceived p l skew raw) s = .next t ∧ PortOnly s t p ∧
      t.port p = { s.port p with lanes := (t.port p).lanes } ∧ t.lane p l = { s.lane p l with lock := b } ∧
      (∀ k, k ≠ l → t.lane p k = s.lane p k) ∧ RegsKept s t [preg p 0x104, preg p 0x114] := by
  have hex := exec_amReceived_moves s skew hp hl hlock h
  obtain ⟨hf, hq, hport, hk, -⟩ := lanesOnly_laneSet s p l { s.lane p l with lock := b }
  have hlane := lane_laneSet s p l
  rw [keepQueue_of_pending (by rw [hf])] at hex
  exact ⟨_, hex, ⟨by rw [hf], hq⟩, hport, (hlane l _).trans (if_pos rfl), fun k hne => (hlane k _).trans (if_neg hne), hk⟩

end Sys2Proof.Proofs

namespace Sys2Proof.Machine
open Sys2Proof

namespace State

/-! ### A retrain (R194, R209) -/

/-- The counts of a port's uncorrectable and corrected codewords. -/
def ErrCount (p a : Nat) : Prop := a = preg p 0x13C ∨ a = preg p 0x140

/-- Lanes, the error counts of port `p` and the queue of messages stay. -/
def LanesStay (p : Nat) (s t : State) : Prop :=
  (∀ q, (t.port q).lanes = (s.port q).lanes) ∧ KeepsOn (ErrCount p) s t ∧ t.pending = s.pending

theorem lanesStay_refl (p : Nat) (s : State) : LanesStay p s s := ⟨fun _ => rfl, keepsOn_refl _ s, rfl⟩

theorem lanesStay_trans (p : Nat) (s t u : State) (h : LanesStay p s t) (h' : LanesStay p t u) : LanesStay p s u :=
  ⟨fun q => (h'.1 q).trans (h.1 q), keepsOn_trans h.2.1 h'.2.1, h'.2.2.trans h.2.2⟩

/-- Where ports and registers are the same, lanes stay. -/
theorem lanesStay_of_same (p : Nat) {s t : State} (hp : t.ports = s.ports) (hr : t.regs = s.regs) (hq : t.pending = s.pending) : LanesStay p s t :=
  ⟨fun q => by rw [port, port, hp], keepsOn_of_regs _ hr, hq⟩

theorem lanesStay_wr (p : Nat) (s : State) {a : Nat} (v : Word32) (h : ∀ b, ErrCount p b → canon b ≠ canon a) : LanesStay p s (s.wr a v) :=
  ⟨fun _ => rfl, keepsOn_wr s v h, rfl⟩

theorem lanesStay_wr_preg (p : Nat) (s : State) {off : Nat} (v : Word32) (h : off ≠ 0x13C) (h' : off ≠ 0x140) :
    LanesStay p s (s.wr (preg p off) v) :=
  lanesStay_wr p s v (by rintro b (rfl | rfl) <;> exact canon_preg_ne p (by omega))

/-- A register of a port is none of those below. -/
theorem canon_preg_ne_low (p off : Nat) {a : Nat} (ha : a < 0x100000) (hc : canon a = a) : canon (preg p off) ≠ canon a := by
  rw [canon_preg, hc]
  unfold preg portPage
  split_ifs <;> omega

theorem lanesStay_portMod (p : Nat) (s : State) (q : Nat) (f : Port → Port) (h : ∀ o, (f o).lanes = o.lanes) : LanesStay p s (s.portMod q f) := by
  refine ⟨fun k => ?_, keepsOn_of_regs _ rfl, rfl⟩
  by_cases hk : k = q
  · subst hk; rw [port_portMod_self, h]
  · rw [port_portMod_ne s f hk]

/-- A message cut short leaves lanes as they were (R194). -/
theorem lanesStay_cutMsg (p : Nat) (s : State) (q v : Nat) : LanesStay p s (s.cutMsg q v) := by
  unfold cutMsg
  simp only
  refine lanesStay_trans p _ _ _ ?_ (lanesStay_portMod p _ q _ fun _ => rfl)
  refine ⟨fun k => ?_, keepsOn_of_regs _ rfl, rfl⟩
  simp only [port, Map.get, Map.get?_mapVals]
  cases Map.get? s.ports k <;> rfl

/-- A flow that goes back sends its requests again (R226, R236). -/
theorem lanesStay_goBack (p : Nat) (s : State) (d : Nat) : LanesStay p s (s.goBack d) := by
  unfold goBack
  extract_lets f again rs v
  refine lanesStay_trans p s v _ (lanesStay_of_same p rfl rfl rfl) ?_
  refine foldl_rel (lanesStay_refl p) (lanesStay_trans p) (fun u r _ => ?_) v
  refine lanesStay_trans p _ (u.sendMarked d r.cls 3 r.own (remBody r.m) r.m.poison) _ (lanesStay_of_same p rfl rfl rfl) ?_
  exact lanesStay_wr p _ _ (by rintro b (rfl | rfl) <;> exact canon_preg_ne_low p _ (by decide) (by decide))

/-- What is reported to the transport leaves lanes as they were (R194). -/
theorem lanesStay_linkReport (p : Nat) (s : State) (x : HeldFlit) : LanesStay p s (s.linkReport x) := by
  have hback (f : Nat) : LanesStay p s (s.flkBack f) := by
    unfold flkBack
    simp only
    split
    · exact lanesStay_of_same p rfl rfl rfl
    · exact lanesStay_refl p s
  have hred : LanesStay p s (s.redReport x) :=
    rel_ite (rel_ite (hback _) (lanesStay_refl p s)) (rel_ite (lanesStay_of_same p rfl rfl rfl) (lanesStay_refl p s))
  have hresponse (eseq : Nat) : LanesStay p s (match (s.inFlow (x.dest % 4096)).cache.reverse.find? (fun r => r.eseq == eseq) with
      | some r => s.send r.m
      | none => s) := by
    split
    · exact lanesStay_of_same p rfl rfl rfl
    · exact lanesStay_refl p s
  have hmove (ga eseq : Nat) : LanesStay p s (match Map.get? s.away (ga % 2 ^ 52 / tileBytes), Map.get? s.guests (guestKey ga) with
      | some a, _ => if ga / 2 ^ 52 = s.pkg ∧ a.step = 2 ∧ a.from_ = none then s.awayData (ga % 2 ^ 52 / tileBytes) a eseq else s
      | none, some g => if g.sentTo = some (x.dest % 4096) then s.guestData ga (x.dest % 4096) eseq else s
      | none, none => s) := by
    split
    · exact rel_ite (lanesStay_of_same p rfl rfl rfl) (lanesStay_refl p s)
    · exact rel_ite (lanesStay_of_same p rfl rfl rfl) (lanesStay_refl p s)
    · exact lanesStay_refl p s
  exact rel_ite (lanesStay_refl p s) (rel_ite (lanesStay_goBack p s _) (rel_ite (hresponse _)
    (rel_ite (lanesStay_of_same p rfl rfl rfl) (rel_ite (hmove _ _) hred))))

theorem lanesStay_reports (p : Nat) (s : State) (l : List HeldFlit) : LanesStay p s (s.reports l) := by
  unfold reports
  extract_lets key
  have hfold (ks : List (List Byte × Nat)) (u : State) : LanesStay p u (l.foldl (fun (u : List (List Byte × Nat) × State) x =>
      if u.1.contains (key x) then u else (key x :: u.1, u.2.linkReport x)) (ks, u)).2 := by
    induction l generalizing ks u with
    | nil => exact lanesStay_refl p u
    | cons x l ih =>
      rw [List.foldl_cons]
      split
      · exact ih ks u
      · exact lanesStay_trans p _ _ _ (lanesStay_linkReport p u x) (ih _ _)
  exact hfold [] s

/-- A retrain's reset of the link layer leaves lanes as they were (R194). -/
theorem lanesStay_linkReset (p : Nat) (s : State) (q : Nat) (hq : p = q) : LanesStay p s (s.linkReset q) := by
  subst hq
  unfold linkReset
  extract_lets o s1 cut s2 s3 s4
  have h1 : LanesStay p s s1 := lanesStay_wr_preg p s _ (by decide) (by decide)
  have h2 : LanesStay p s1 s2 := foldl_rel (lanesStay_refl p) (lanesStay_trans p) (fun u e _ => lanesStay_cutMsg p u p e.1) s1
  have h3 : LanesStay p s2 s3 := lanesStay_of_same p rfl rfl rfl
  have h4 : LanesStay p s3 s4 := lanesStay_portMod p s3 p _ fun _ => rfl
  have h5 : LanesStay p s4 (s4.wrF (preg p 0x104) 26 26 0) := lanesStay_wr_preg p s4 _ (by decide) (by decide)
  exact lanesStay_trans p _ _ _ (lanesStay_trans p _ _ _ (lanesStay_trans p _ _ _ (lanesStay_trans p _ _ _ (lanesStay_trans p _ _ _ h1 h2) h3) h4) h5)
    (lanesStay_reports p _ _)

/-- Lanes trained again: none is locked, and a failure stays (R183, R184). -/
theorem lanesTrain_spec (s : State) (p : Nat) :
    (∀ l, (s.lanesTrain p false).lane p l = { s.lane p l with lock := .hunt, lost := false, recal := 0 }) ∧
    KeepsOn (ErrCount p) s (s.lanesTrain p false) ∧ (s.lanesTrain p false).pending = s.pending := by
  unfold lanesTrain
  obtain ⟨v, hv⟩ : ∃ v, v = s.portMod p (fun o => { o with lanes := Map.mapVals o.lanes (fun _ v =>
    { v with lock := .hunt, failed := v.failed && !false, lost := false, recal := 0 }) }) := ⟨_, rfl⟩
  rw [← hv]
  obtain ⟨hf, hk, -, -⟩ := laneStat_spec v p
  have hlanes : (v.port p).lanes = Map.mapVals (s.port p).lanes (fun _ v => { v with lock := .hunt, failed := v.failed && !false, lost := false, recal := 0 }) := by
    rw [hv, port_portMod_self]
  refine ⟨fun l => ?_, fun a ha => ?_, by rw [hf, hv]; rfl⟩
  · rw [lane, show (v.laneStat p).port p = v.port p by rw [hf]; rfl, hlanes, lane, Map.get, Map.get, Map.get?_mapVals]
    cases Map.get? (s.port p).lanes l with
    | none => rfl
    | some x => simp
  · rw [hk a ?_, hv]
    · rfl
    · simp only [List.mem_cons, List.not_mem_nil, or_false, forall_eq_or_imp, forall_eq]
      rcases ha with rfl | rfl <;> exact ⟨canon_preg_ne p (by decide), canon_preg_ne p (by decide)⟩

/-- A move of its state leaves a port's lanes and error counts (R209, R216). -/
theorem portTo_stays (s : State) (p st : Nat) : LanesStay p s (s.portTo p st) := by
  obtain ⟨hf, hk⟩ := portTo_notifies s p st
  have hports : (s.portTo p st).ports = s.ports := by rw [hf]; rfl
  have hpend : (s.portTo p st).pending = s.pending := by rw [hf]; rfl
  refine ⟨fun q => by rw [port, port, hports], fun a ha => ?_, hpend⟩
  have hoff : a % 4096 ≠ 0x20 := by rcases ha with rfl | rfl <;> (simp only [preg]; omega)
  have hst : canon a ≠ canon (preg p 0x104) := by rcases ha with rfl | rfl <;> exact canon_preg_ne p (by decide)
  rw [hk a hoff, wrF_eq, rd_wr_ne _ _ hst]

/-- A retrain relocks a port's lanes, their failures remembered; the port is in RETRAIN, its error counts as they were (R194, R209). -/
theorem retrain_spec (s : State) (p : Nat) :
    (∀ l, (s.retrain p).lane p l = { s.lane p l with lock := .hunt, lost := false, recal := 0 }) ∧ (s.retrain p).portState p = 6 ∧
    KeepsOn (ErrCount p) s (s.retrain p) ∧ (s.retrain p).pending = s.pending := by
  have hbump : LanesStay p s (s.bump (preg p 0x134)) := lanesStay_wr_preg p s _ (by decide) (by decide)
  rw [retrain]
  generalize s.bump (preg p 0x134) = u at *
  have hreset := lanesStay_trans p _ _ _ hbump (lanesStay_linkReset p u p rfl)
  generalize u.linkReset p = v at *
  obtain ⟨htrain, hregs, hpend⟩ := lanesTrain_spec v p
  generalize v.lanesTrain p false = w at *
  have hto := portTo_stays w p 6
  have hstate := portState_portTo_self w p 6
  generalize w.portTo p 6 = x at *
  refine ⟨fun l => ?_, hstate, keepsOn_trans hreset.2.1 (keepsOn_trans hregs hto.2.1), hto.2.2.trans (hpend.trans hreset.2.2)⟩
  rw [lane, hto.1, ← lane, htrain, lane, lane, hreset.1]

/-! ### A lane fails (R185, R203, R205) -/

/-- Lanes are named to the far end, and recalibrations under way end: no lane gains or loses its lock, fails, or becomes well, the state and
the map of the receive side stay, and what waits for the far end is only added to. -/
structure Naming (p : Nat) (s t : State) : Prop where
  frame : t = { s with regs := t.regs, ports := t.ports, outbox := t.outbox, msix := t.msix }
  lanes : ∀ k, (t.lane p k).lock = (s.lane p k).lock ∧ (t.lane p k).failed = (s.lane p k).failed ∧
    ((t.lane p k).recal = 0 ↔ (s.lane p k).recal = 0)
  regs : KeepsOn (fun a => ErrCount p a ∨ a = preg p 0x110) s t
  state : t.portState p = s.portState p
  link : ∃ q, (t.port p).linkQ = (s.port p).linkQ ++ q
  half : (t.port p).rxHalf = (s.port p).rxHalf

theorem naming_refl (p : Nat) (s : State) : Naming p s s := ⟨rfl, fun _ => ⟨rfl, rfl, Iff.rfl⟩, keepsOn_refl _ s, rfl, ⟨[], by simp⟩, rfl⟩

theorem naming_trans (p : Nat) (s t u : State) (h : Naming p s t) (h' : Naming p t u) : Naming p s u := by
  obtain ⟨a, ha⟩ := h.link
  obtain ⟨b, hb⟩ := h'.link
  refine ⟨by rw [h'.frame, h.frame], fun k => ?_, keepsOn_trans h.regs h'.regs, h'.state.trans h.state,
    ⟨a ++ b, by rw [hb, ha, List.append_assoc]⟩, h'.half.trans h.half⟩
  obtain ⟨h1, h2, h3⟩ := h.lanes k
  obtain ⟨h1', h2', h3'⟩ := h'.lanes k
  exact ⟨h1'.trans h1, h2'.trans h2, h3'.trans h3⟩

theorem naming_raise (p : Nat) (s : State) (b : Nat) : Naming p s (s.raise (portPage p) b) := by
  have hf := regsSent_raise s (portPage p) b
  have hk := raise_kept s (portPage p) b
  have hports : (s.raise (portPage p) b).ports = s.ports := by rw [hf]
  have hlane (k : Nat) : (s.raise (portPage p) b).lane p k = s.lane p k := by rw [lane, lane, port, port, hports]
  have hreg (off : Nat) (h : off ≠ 0x20) : (s.raise (portPage p) b).rd (preg p off) = s.rd (preg p off) :=
    hk _ (by simpa using canon_preg_intStat p off h)
  refine ⟨by rw [hf], fun k => by rw [hlane]; exact ⟨rfl, rfl, Iff.rfl⟩, ?_, ?_, ⟨[], by rw [port, port, hports]; simp⟩, by rw [port, port, hports]⟩
  · rintro a ((rfl | rfl) | rfl) <;> exact hreg _ (by decide)
  · rw [portState, rdF, hreg _ (by decide)]; rfl

/-- A lane whose lock and failure stay, and that is well as to recalibration as it was. -/
theorem naming_laneSet (p : Nat) (s : State) (l : Nat) {v : Lane} (hlock : v.lock = (s.lane p l).lock) (hfail : v.failed = (s.lane p l).failed)
    (hrecal : v.recal = 0 ↔ (s.lane p l).recal = 0) : Naming p s (s.laneSet p l v) := by
  obtain ⟨hf, -, hport, hk, hst⟩ := lanesOnly_laneSet s p l v
  refine ⟨by rw [hf], fun k => ?_, ?_, hst, ⟨[], by rw [hport]; simp⟩, by rw [hport]⟩
  · rw [lane_laneSet]
    split
    next h => subst h; exact ⟨hlock, hfail, hrecal⟩
    · exact ⟨rfl, rfl, Iff.rfl⟩
  · refine keepsOn_of_kept hk ?_
    simp only [List.mem_cons, List.not_mem_nil, or_false, forall_eq_or_imp, forall_eq]
    rintro a ((rfl | rfl) | rfl) <;> exact ⟨canon_preg_ne p (by decide), canon_preg_ne p (by decide)⟩

theorem linkQ_nameLane (s : State) (p l : Nat) :
    ((s.nameLane p l).port p).linkQ = (s.port p).linkQ ++ [padTo 240 [3, BitVec.ofNat 8 l]] := by
  rw [nameLane, link_, port_portMod_self]

theorem port_nameLane (s : State) (p l : Nat) :
    (s.nameLane p l).port p = { s.port p with linkQ := (s.port p).linkQ ++ [padTo 240 [3, BitVec.ofNat 8 l]] } := by
  rw [nameLane, link_, port_portMod_self]

theorem naming_nameLane (p : Nat) (s : State) (l : Nat) : Naming p s (s.nameLane p l) := by
  have hp := port_nameLane s p l
  refine ⟨rfl, fun k => ?_, keepsOn_of_regs _ rfl, rfl, ⟨_, linkQ_nameLane s p l⟩, by rw [hp]⟩
  rw [lane, hp]
  exact ⟨rfl, rfl, Iff.rfl⟩

/-- The stripe of the receive side is told by its map and width. -/
theorem inStripe_of_naming {p : Nat} {s t : State} (h : Naming p s t) (l : Nat) : t.inStripe p l = s.inStripe p l := by
  rw [inStripe, inStripe, rxLanes, rxLanes, h.half, h.regs _ (.inr rfl)]

/-- A lane is well by its lock, its failure and its recalibration. -/
theorem laneWell_of_same {p k : Nat} {s t : State} (h : (t.lane p k).lock = (s.lane p k).lock ∧ (t.lane p k).failed = (s.lane p k).failed ∧
    ((t.lane p k).recal = 0 ↔ (s.lane p k).recal = 0)) : t.laneWell p k = s.laneWell p k := by
  obtain ⟨h1, h2, h3⟩ := h
  rw [laneWell, laneWell, laneLocked, laneLocked, h1, h2]
  congr 1
  rw [Bool.eq_iff_iff]
  simpa using h3

theorem healthy_of_naming {p : Nat} {s t : State} (h : Naming p s t) : t.healthy p = s.healthy p :=
  List.filter_congr fun k _ => laneWell_of_same (h.lanes k)

/-- Recalibrations under way are abandoned, and their lanes named (R205). -/
theorem naming_abandon (p : Nat) {busy : List Nat} {s : State} (h : ∀ x ∈ busy, (s.lane p x).recal ≠ 0) :
    Naming p s (busy.foldl (fun u x => (u.laneSet p x { u.lane p x with recal := 3 }).nameLane p x) s) := by
  refine foldl_rel (R := fun u t => (∀ x ∈ busy, (u.lane p x).recal ≠ 0) → Naming p u t) (fun u _ => naming_refl p u) ?_ ?_ s h
  · intro s t u hst htu hs
    exact naming_trans p s t u (hst hs) (htu fun x hx => fun e => hs x hx (((hst hs).lanes x).2.2.1 e))
  · intro u x hx hu
    exact naming_trans p _ _ _ (naming_laneSet p u x (v := { u.lane p x with recal := 3 }) rfl rfl ⟨nofun, fun e => absurd e (hu x hx)⟩)
      (naming_nameLane p _ x)

/-- Lanes are named to the far end, and the last of those given last of all (R203, R205). -/
theorem naming_nameSick (p : Nat) (s : State) (l : Nat) (h : isHall p = true) : Naming p s (s.nameSick p [l]) ∧
    ∃ q, ((s.nameSick p [l]).port p).linkQ = (s.port p).linkQ ++ q ++ [padTo 240 [3, BitVec.ofNat 8 l]] := by
  unfold nameSick
  rw [if_pos h]
  extract_lets outs
  rw [List.foldl_append]
  have hout : Naming p s (outs.foldl (fun u l => u.nameLane p l) s) :=
    foldl_rel (naming_refl p) (naming_trans p) (fun u k _ => naming_nameLane p u k) s
  generalize outs.foldl (fun u l => u.nameLane p l) s = v at *
  obtain ⟨q, hq⟩ := hout.link
  exact ⟨naming_trans p _ _ _ hout (naming_nameLane p v l), q, by rw [← hq]; exact linkQ_nameLane v p l⟩

/-- The state in which a lane has failed, before anything follows. -/
def lanePart (s : State) (p l : Nat) : State := s.laneSet p l { s.lane p l with failed := true, recal := 0 }

theorem lanePart_spec (s : State) (p l : Nat) : LanesOnly p s (s.lanePart p l) ∧
    (s.lanePart p l).lane p l = { s.lane p l with failed := true, recal := 0 } ∧ (∀ k, k ≠ l → (s.lanePart p l).lane p k = s.lane p k) ∧
    (s.lanePart p l).healthy p = (s.healthy p).filter (· != l) ∧ ∀ k, (s.lanePart p l).inStripe p k = s.inStripe p k := by
  have ho := lanesOnly_laneSet s p l { s.lane p l with failed := true, recal := 0 }
  have hlane (k : Nat) := lane_laneSet s p l k { s.lane p l with failed := true, recal := 0 }
  unfold lanePart
  generalize s.laneSet p l { s.lane p l with failed := true, recal := 0 } = t at *
  have hne (k : Nat) (h : k ≠ l) : t.lane p k = s.lane p k := (hlane k).trans (if_neg h)
  refine ⟨ho, (hlane l).trans (if_pos rfl), hne, ?_, fun k => ?_⟩
  · rw [healthy, healthy, List.filter_filter]
    refine List.filter_congr fun k _ => ?_
    by_cases h : k = l
    · subst h
      simp [laneWell, hlane]
    · simp [laneWell, laneLocked, hne k h, h]
  · obtain ⟨-, -, hport, hk, -⟩ := ho
    have hmap : t.rd (preg p 0x110) = s.rd (preg p 0x110) :=
      hk _ (by simpa using ⟨canon_preg_ne p (by decide), canon_preg_ne p (by decide)⟩)
    rw [inStripe, inStripe, rxLanes, rxLanes, hmap, hport]

/-- A failed lane, and the spare's loss told (R205). -/
def laneMarked (s : State) (p l : Nat) : State :=
  if s.spareNow p < 15 ∧ (s.lanePart p l).spareNow p = 15 then (s.lanePart p l).raise (portPage p) 4 else s.lanePart p l

/-- Recalibrations under way are abandoned where a lane of the stripe failed (R205). -/
def lanesLeft (s : State) (p l : Nat) : State :=
  if (s.laneMarked p l).inStripe p l then
    ((List.range (laneCount p)).filter (fun x => x != l && 1 ≤ (s.lane p x).recal && (s.lane p x).recal ≤ 2)).foldl
      (fun u x => (u.laneSet p x { u.lane p x with recal := 3 }).nameLane p x) (s.laneMarked p l)
  else s.laneMarked p l

/-- What a lane's failure does, in its order (R185, R203, R205). -/
theorem laneFail_eq (s : State) (p l : Nat) : s.laneFail p l = if !(s.laneMarked p l).portLive p then s.laneMarked p l
    else if (s.lanesLeft p l).portState p = 5 ∧ ((s.lanesLeft p l).healthy p).length < 4 then (s.lanesLeft p l).retrain p
    else if (s.lanesLeft p l).inStripe p l then (s.lanesLeft p l).nameSick p [l]
    else if isHall p then (s.lanesLeft p l).nameLane p l else s.lanesLeft p l := rfl

theorem naming_laneMarked (s : State) (p l : Nat) : Naming p (s.lanePart p l) (s.laneMarked p l) :=
  rel_ite (naming_raise p _ 4) (naming_refl p _)

theorem naming_lanesLeft (s : State) (p l : Nat) : Naming p (s.lanePart p l) (s.lanesLeft p l) := by
  obtain ⟨-, -, hne, -, -⟩ := lanePart_spec s p l
  have hm := naming_laneMarked s p l
  refine naming_trans p _ _ _ hm (rel_ite (naming_abandon p fun x hx => ?_) (naming_refl p _))
  obtain ⟨hxl, hx1, -⟩ : x ≠ l ∧ 1 ≤ (s.lane p x).recal ∧ (s.lane p x).recal ≤ 2 := by
    simpa [and_assoc] using (List.mem_filter.1 hx).2
  rw [Ne, (hm.lanes x).2.2, hne x hxl]
  omega

/-- A failed lane has failed, whatever follows; its lock stays or is hunted for again, and error counts stay (R185, R209). -/
theorem laneFail_lane (s : State) (p l : Nat) : ((s.laneFail p l).lane p l).failed = true ∧ ((s.laneFail p l).lane p l).recal = 0 ∧
    (((s.laneFail p l).lane p l).lock = (s.lane p l).lock ∨ ((s.laneFail p l).lane p l).lock = .hunt) ∧
    KeepsOn (ErrCount p) s (s.laneFail p l) ∧ (s.laneFail p l).pending = s.pending := by
  obtain ⟨ho, hself, -, -, -⟩ := lanePart_spec s p l
  have hcount : KeepsOn (ErrCount p) s (s.lanePart p l) := keepsOn_of_kept ho.2.2.2.1 (by
    simp only [List.mem_cons, List.not_mem_nil, or_false, forall_eq_or_imp, forall_eq]
    rintro a (rfl | rfl) <;> exact ⟨canon_preg_ne p (by decide), canon_preg_ne p (by decide)⟩)
  have hnamed {t : State} (h : Naming p (s.lanePart p l) t) : (t.lane p l).failed = true ∧ (t.lane p l).recal = 0 ∧
      ((t.lane p l).lock = (s.lane p l).lock ∨ (t.lane p l).lock = .hunt) ∧ KeepsOn (ErrCount p) s t ∧ t.pending = s.pending := by
    obtain ⟨h1, h2, h3⟩ := h.lanes l
    refine ⟨by rw [h2, hself], by rw [h3, hself], .inl (by rw [h1, hself]),
      keepsOn_trans hcount (keepsOn_mono h.regs fun _ => .inl), ?_⟩
    rw [h.frame, ho.1]
  have hleft := naming_lanesLeft s p l
  rw [laneFail_eq]
  split
  · exact hnamed (naming_laneMarked s p l)
  · split
    · obtain ⟨hlane, -, hregs, hpend⟩ := retrain_spec (s.lanesLeft p l) p
      obtain ⟨h1, h2, -, h4, h5⟩ := hnamed hleft
      rw [hlane]
      exact ⟨h1, rfl, .inr rfl, keepsOn_trans h4 hregs, hpend.trans h5⟩
    · split
      · unfold nameSick
        split
        · exact hnamed (naming_trans p _ _ _ hleft
            (foldl_rel (naming_refl p) (naming_trans p) (fun u k _ => naming_nameLane p u k) _))
        · exact hnamed hleft
      · split
        · exact hnamed (naming_trans p _ _ _ hleft (naming_nameLane p _ l))
        · exact hnamed hleft

/-- On an ACTIVE port fewer than four healthy lanes retrain, and a failed lane of a hall stripe is named to the far end (R185, R203). -/
theorem laneFail_active (s : State) (p l : Nat) (h5 : s.portState p = 5) :
    (((s.healthy p).filter (· != l)).length < 4 → (s.laneFail p l).portState p = 6) ∧
    (4 ≤ ((s.healthy p).filter (· != l)).length → isHall p = true → s.inStripe p l = true →
      (∃ q, ((s.laneFail p l).port p).linkQ = (s.port p).linkQ ++ q ++ [padTo 240 [3, BitVec.ofNat 8 l]]) ∧ (s.laneFail p l).portState p = 5) := by
  obtain ⟨ho, -, -, hwell, hstripe⟩ := lanePart_spec s p l
  have hmarked := naming_laneMarked s p l
  have hleft := naming_lanesLeft s p l
  have hpart5 : (s.lanePart p l).portState p = 5 := ho.2.2.2.2.trans h5
  have hlive : (s.laneMarked p l).portLive p = true := by rw [portLive, hmarked.state, hpart5]; rfl
  have hleft5 : (s.lanesLeft p l).portState p = 5 := hleft.state.trans hpart5
  have hhealthy : (s.lanesLeft p l).healthy p = (s.healthy p).filter (· != l) := (healthy_of_naming hleft).trans hwell
  rw [laneFail_eq, if_neg (by simp [hlive]), hhealthy, hleft5, inStripe_of_naming hleft, hstripe]
  refine ⟨fun hlt => ?_, fun hge hall hin => ?_⟩
  · rw [if_pos ⟨rfl, hlt⟩]
    exact (retrain_spec _ p).2.1
  · rw [if_neg (by omega), if_pos hin]
    obtain ⟨hsick, q, hq⟩ := naming_nameSick p (s.lanesLeft p l) l hall
    obtain ⟨q', hq'⟩ := hleft.link
    refine ⟨⟨q' ++ q, ?_⟩, hsick.state.trans hleft5⟩
    rw [hq, hq', ho.2.2.1, List.append_assoc (s.port p).linkQ]

/-! ### Lane switches sent (R203) -/

theorem port_wr (s : State) (a : Nat) (v : Word32) (q : Nat) : (s.wr a v).port q = s.port q := rfl

/-- The slot of a lane switch (R203). -/
def lswSlot (s : State) (p : Nat) (m : Word32) (w : Nat) : List Byte := [0x5A] ++ leBytes 4 m.toNat ++ leBytes 1 w ++ leBytes 1 (s.port p).lsw

/-- A lane switch goes out, and the transmit side takes its map and width (R203). -/
theorem sendLsw_eq (s : State) (p : Nat) (m : Word32) (w : Nat) : s.sendLsw p m w =
    ((((s.nextCtl p true (s.lswSlot p m w)).portMod p (fun o => { o with lsw := ((s.port p).lsw + 1) % 256, txHalf := isHall p && w == 4 })).wr
      (preg p 0x10C) m).laneStat p) := rfl

/-- Of a port, what a lane switch it sends changes (R203). -/
theorem sendLsw_port (s : State) (p : Nat) (m : Word32) (w : Nat) :
    (s.sendLsw p m w = { s with regs := (s.sendLsw p m w).regs, ports := (s.sendLsw p m w).ports, outbox := (s.sendLsw p m w).outbox }) ∧
    (∀ q, q ≠ p → (s.sendLsw p m w).port q = s.port q) ∧
    ((s.sendLsw p m w).port p = { s.port p with lanes := ((s.sendLsw p m w).port p).lanes, slot := ((s.sendLsw p m w).port p).slot
                                                mcount := ((s.sendLsw p m w).port p).mcount
                                                lsw := ((s.port p).lsw + 1) % 256, txHalf := isHall p && w == 4 }) ∧
    ∀ k, (s.sendLsw p m w).lane p k = { s.lane p k with scr := ((s.sendLsw p m w).lane p k).scr, cw := ((s.sendLsw p m w).lane p k).cw } := by
  obtain ⟨hf, hq, hp, hl, -⟩ := slotsPass_nextCtl p s true (s.lswSlot p m w)
  rw [sendLsw_eq]
  generalize s.nextCtl p true (s.lswSlot p m w) = v at *
  obtain ⟨u, hu⟩ : ∃ u, u = (v.portMod p (fun o => { o with lsw := ((s.port p).lsw + 1) % 256, txHalf := isHall p && w == 4 })).wr (preg p 0x10C) m := ⟨_, rfl⟩
  rw [← hu]
  have hport : u.port p = { v.port p with lsw := ((s.port p).lsw + 1) % 256, txHalf := isHall p && w == 4 } := by
    rw [hu, port_wr, port_portMod_self]
  have hne (q : Nat) (h : q ≠ p) : u.port q = v.port q := by
    rw [hu, port_wr, port_portMod_ne v _ h]
  have huf : u = { v with regs := u.regs, ports := u.ports } := by rw [hu]; rfl
  have hs := (laneStat_spec u p).1
  have hsp (q : Nat) : (u.laneStat p).port q = u.port q := by rw [hs]; rfl
  have hsl (k : Nat) : (u.laneStat p).lane p k = v.lane p k := by rw [lane, hsp, hport]; rfl
  refine ⟨by rw [hs, huf, hf], fun q h => (hsp q).trans ((hne q h).trans (hq q h)), ?_, fun k => ?_⟩
  · rw [hsp, hport, hp]
  · rw [hsl]
    exact hl k

/-- Of registers, what a lane switch sent changes (R203, R213). -/
theorem sendLsw_regs (s : State) (p : Nat) (m : Word32) (w : Nat) :
    (s.sendLsw p m w).rd (preg p 0x10C) = m ∧ RegsKept s (s.sendLsw p m w) [preg p 0x104, preg p 0x10C, preg p 0x114] ∧
    (s.sendLsw p m w).portState p = s.portState p := by
  have hf := (slotsPass_nextCtl p s true (s.lswSlot p m w)).1
  rw [sendLsw_eq]
  generalize s.nextCtl p true (s.lswSlot p m w) = v at *
  obtain ⟨u, hu⟩ : ∃ u, u = (v.portMod p (fun o => { o with lsw := ((s.port p).lsw + 1) % 256, txHalf := isHall p && w == 4 })).wr (preg p 0x10C) m := ⟨_, rfl⟩
  rw [← hu]
  have huk : RegsKept s u [preg p 0x10C] := by
    rw [hu]
    exact fun a ha => (kept_wr (v.portMod p _) (preg p 0x10C) m a ha).trans (rd_congr (by rw [hf]; rfl) a)
  have hum : u.rd (preg p 0x10C) = m := by rw [hu]; exact rd_wr_self ..
  obtain ⟨-, hk, hst, -⟩ := laneStat_spec u p
  refine ⟨?_, kept_trans huk hk (by simp) (by simp), hst.trans ?_⟩
  · rw [hk _ (by simpa using ⟨canon_preg_ne p (by decide), canon_preg_ne p (by decide)⟩), hum]
  · rw [portState, rdF, huk _ (by simpa using canon_preg_ne p (by decide))]; rfl

/-- A control slot goes out as a block (R180). -/
theorem outbox_ctlSlot (s : State) (p : Nat) (all : Bool) (b : List Byte) :
    ∃ q, (s.ctlSlot p all b).outbox = s.outbox ++ .block p 99 (padTo 32 b) :: q := by
  unfold ctlSlot
  extract_lets m n
  obtain ⟨-, -, -, -, q, hq⟩ := slotsPass_putSlot p (s.emit (.block p 99 (padTo 32 b)))
    (fun l => if all || (laneStripe m n l).isSome then (true, padTo 32 b) else fill)
  refine ⟨q, hq.trans ?_⟩
  show (s.outbox ++ [_]) ++ q = _
  rw [List.append_assoc]
  rfl

/-- What a port takes as it switches lanes sends nothing more. -/
theorem outbox_taken (v : State) (p : Nat) (f : Port → Port) (m : Word32) :
    (((v.portMod p f).wr (preg p 0x10C) m).laneStat p).outbox = v.outbox := rfl

/-- A lane switch goes out as a control slot, first of all where no marker is due (R203). -/
theorem sendLsw_outbox (s : State) (p : Nat) (m : Word32) (w : Nat) (h : s.markerSlot p = false) :
    ∃ q, (s.sendLsw p m w).outbox = s.outbox ++ .block p 99 (padTo 32 (s.lswSlot p m w)) :: q := by
  rw [sendLsw_eq, outbox_taken, nextCtl, if_neg (by simp [h])]
  exact outbox_ctlSlot s p true _

/-- A port goes back to full width or stays as it is: beside scramblers and codewords no lane changes (R205, R214). -/
theorem fullAgain_spec (s : State) (p : Nat) : PortOnly s (s.fullAgain p) p ∧
    (∀ k, (s.fullAgain p).lane p k = { s.lane p k with scr := ((s.fullAgain p).lane p k).scr, cw := ((s.fullAgain p).lane p k).cw }) ∧
    RegsKept s (s.fullAgain p) [preg p 0x104, preg p 0x10C, preg p 0x114] ∧ (s.fullAgain p).pending = s.pending := by
  unfold fullAgain
  split
  · obtain ⟨v, hv⟩ : ∃ v, v = s.portMod p (fun o => { o with named := [] }) := ⟨_, rfl⟩
    rw [← hv]
    have hport : v.port p = { s.port p with named := [] } := by rw [hv]; exact port_portMod_self ..
    have hlane (k : Nat) : v.lane p k = s.lane p k := by rw [lane, hport]; rfl
    have hq (q : Nat) (h : q ≠ p) : v.port q = s.port q := by rw [hv]; exact port_portMod_ne s _ h
    have hvf : v = { s with ports := v.ports } := by rw [hv]; rfl
    obtain ⟨hf, hne, -, hl⟩ := sendLsw_port v p (lanesMap ((s.healthy p).take 8)) 8
    obtain ⟨-, hk, -⟩ := sendLsw_regs v p (lanesMap ((s.healthy p).take 8)) 8
    generalize v.sendLsw p (lanesMap ((s.healthy p).take 8)) 8 = t at *
    refine ⟨⟨by rw [hf, hvf], fun q h => (hne q h).trans (hq q h)⟩, fun k => by rw [← hlane]; exact hl k, fun a ha => ?_, by rw [hf, hvf]⟩
    exact (hk a ha).trans (rd_congr (by rw [hvf]) a)
  · exact ⟨⟨rfl, fun _ _ => rfl⟩, fun _ => rfl, kept_refl s _, rfl⟩

/-! ### Good markers (R183, R187) -/

/-- The stripe lane a marker names is learnt (R187). -/
def learnt (s : State) (p l k : Nat) : State :=
  if k < (if isHall p then 8 else 4) then s.wr (preg p 0x110) (setFld (s.rd (preg p 0x110)) (4 * k + 3) (4 * k) l) else s

theorem markerGood_eq (s : State) (p l skew c : Nat) : s.markerGood p l skew c =
    if 100 < skew then ((s.learnt p l (cwByte c 25 % 16)).laneSet p l { (s.learnt p l (cwByte c 25 % 16)).lane p l with
      lock := .locked 0 ((amCount c + 1) % 65536), lost := false, stripe := cwByte c 25 % 16, far := cwByte c 26 }).laneFail p l
    else (s.learnt p l (cwByte c 25 % 16)).laneSet p l { (s.learnt p l (cwByte c 25 % 16)).lane p l with
      lock := .locked 0 ((amCount c + 1) % 65536), lost := false, stripe := cwByte c 25 % 16, far := cwByte c 26 } := rfl

theorem learnt_frame (s : State) (p l k : Nat) : s.learnt p l k = { s with regs := (s.learnt p l k).regs } ∧
    RegsKept s (s.learnt p l k) [preg p 0x110] := by
  unfold learnt
  generalize (if isHall p then 8 else 4) = n
  split
  · exact ⟨rfl, kept_wr s _ _⟩
  · exact ⟨rfl, kept_refl s _⟩

/-- The stripe lane a marker names is found on the lane it came by (R187). -/
theorem learnt_map (s : State) {p l k : Nat} (hl : l < laneCount p) (hk : k < (if isHall p then 8 else 4)) :
    mapLane ((s.learnt p l k).rd (preg p 0x110)) k = l := by
  have h8 : k < 8 := by split at hk <;> omega
  have h16 : l < 16 := by unfold laneCount at hl; split at hl <;> omega
  rw [learnt, if_pos hk, rd_wr_self, mapLane, fld_setFld_self _ _ _ _ (by omega), show 4 * k + 3 + 1 - 4 * k = 4 by omega]
  omega

end State
end Sys2Proof.Machine

namespace Sys2Proof.Proofs
open Sys2Proof Sys2Proof.Machine Sys2Proof.Machine.State

/-- A good marker that locks a lane, or keeps its lock (R183). -/
theorem exec_amReceived_good (s : State) {p l raw c m : Nat} (skew : Nat) (hp : p < 36) (hl : l < laneCount p)
    (h : (∃ n, 3 ≤ n ∧ (s.lane p l).lock = .confirm n m ∧ amMatch raw = true ∧ rsLeft raw = 0 ∧ c = raw) ∨
     (∃ n e, (s.lane p l).lock = .locked n m ∧ rsDecode raw = some (c, e) ∧ amMatch c = true)) (hc : amCount c = m) :
    exec (.amReceived p l skew raw) s = keepQueue s (.next (s.markerGood p l skew c)) := by
  show execAmReceived p l skew raw s = _
  rw [execAmReceived, if_pos ⟨hp, hl⟩]
  rcases h with ⟨n, hn, hlock, ha, hr, rfl⟩ | ⟨n, e, hlock, hd, ha⟩
  · simp [hlock, ha, hr, hc, hn]
  · have hgood : (rsDecode raw).filter (fun r => amMatch r.1 && amCount r.1 == m) = some (c, e) := by
      rw [hd, Option.filter_some_pos]
      simp [ha, hc]
    simp only [hlock, hgood]

/-- AM_RECEIVED of a good marker that locks or keeps a lane (R183, R185, R187). -/
theorem marker_good (s : State) (p l skew raw c m : Nat) (hp : p < 36) (hl : l < laneCount p)
    (h : (∃ n, 3 ≤ n ∧ (s.lane p l).lock = .confirm n m ∧ amMatch raw = true ∧ rsLeft raw = 0 ∧ c = raw) ∨
     (∃ n e, (s.lane p l).lock = .locked n m ∧ rsDecode raw = some (c, e) ∧ amMatch c = true)) (hc : amCount c = m) :
    ∃ t, exec (.amReceived p l skew raw) s = .next t ∧ (100 < skew → (t.lane p l).failed = true) ∧
      (skew ≤ 100 → PortOnly s t p ∧ t.port p = { s.port p with lanes := (t.port p).lanes } ∧
        t.lane p l = { s.lane p l with lock := .locked 0 ((m + 1) % 65536), lost := false, stripe := cwByte c 25 % 16, far := cwByte c 26 } ∧
        (∀ k, k ≠ l → t.lane p k = s.lane p k) ∧ RegsKept s t [preg p 0x104, preg p 0x110, preg p 0x114] ∧
        (cwByte c 25 % 16 < (if isHall p then 8 else 4) → mapLane (t.rd (preg p 0x110)) (cwByte c 25 % 16) = l)) := by
  have hex := exec_amReceived_good s skew hp hl h hc
  rw [markerGood_eq] at hex
  generalize hk : cwByte c 25 % 16 = k at *
  obtain ⟨hf, hregs⟩ := learnt_frame s p l k
  have hmap := fun hk' => learnt_map s (k := k) hl hk'
  generalize s.learnt p l k = v at *
  have hvl (x : Nat) : v.lane p x = s.lane p x := by rw [hf]; rfl
  rw [hvl, hc] at hex
  obtain ⟨hw, hq, hport, hkept, -⟩ := lanesOnly_laneSet v p l { s.lane p l with
    lock := .locked 0 ((m + 1) % 65536), lost := false, stripe := k, far := cwByte c 26 }
  have hlane (x : Nat) := lane_laneSet v p l x { s.lane p l with
    lock := .locked 0 ((m + 1) % 65536), lost := false, stripe := k, far := cwByte c 26 }
  generalize v.laneSet p l { s.lane p l with lock := .locked 0 ((m + 1) % 65536), lost := false, stripe := k, far := cwByte c 26 } = w at *
  have hwp : w.pending = s.pending := by rw [hw, hf]
  by_cases hs : 100 < skew
  · obtain ⟨hfail, -, -, -, hpend⟩ := laneFail_lane w p l
    rw [if_pos hs, keepQueue_of_pending (hpend.trans hwp)] at hex
    exact ⟨_, hex, fun _ => hfail, fun h => absurd hs (by omega)⟩
  · rw [if_neg hs, keepQueue_of_pending hwp] at hex
    have hvp (q : Nat) : v.port q = s.port q := by rw [hf]; rfl
    refine ⟨_, hex, fun h => absurd h hs, fun _ => ⟨⟨by rw [hw, hf], fun q h => (hq q h).trans (hvp q)⟩, by rw [hport, hvp],
      (hlane l).trans (if_pos rfl), fun x hx => (hlane x).trans ((if_neg hx).trans (hvl x)), kept_trans hregs hkept (by simp) (by simp), fun hlt => ?_⟩⟩
    rw [hkept _ (by simpa using ⟨canon_preg_ne p (by decide), canon_preg_ne p (by decide)⟩)]
    exact hmap hlt

/-- AM_RECEIVED of the third marker missed in a row (R183, R185). -/
theorem marker_lost (s : State) (p l skew raw n m : Nat) (hp : p < 36) (hl : l < laneCount p) (hlock : (s.lane p l).lock = .locked n m) (hn : 2 ≤ n)
    (h : ∀ r, rsDecode raw = some r → amMatch r.1 = false ∨ amCount r.1 ≠ m) :
    ∃ t, exec (.amReceived p l skew raw) s = .next t ∧ (t.lane p l).lock = .hunt ∧ (t.lane p l).failed = true ∧ (t.lane p l).recal = 0 := by
  have hex : exec (.amReceived p l skew raw) s =
      keepQueue s (.next ((s.laneSet p l { s.lane p l with lock := .hunt, lost := true }).laneFail p l)) := by
    show execAmReceived p l skew raw s = _
    rw [execAmReceived, if_pos ⟨hp, hl⟩]
    simp only [hlock, marker_missed h]
    rw [if_pos hn]
  have hw := (lanesOnly_laneSet s p l { s.lane p l with lock := .hunt, lost := true }).1
  have hlane := (lane_laneSet s p l l { s.lane p l with lock := .hunt, lost := true }).trans (if_pos rfl)
  generalize s.laneSet p l { s.lane p l with lock := .hunt, lost := true } = w at *
  obtain ⟨hfail, hrecal, hk, -, hpend⟩ := laneFail_lane w p l
  rw [keepQueue_of_pending (hpend.trans (by rw [hw]))] at hex
  exact ⟨_, hex, hk.elim (fun hk => by rw [hk, hlane]) id, hfail, hrecal⟩

end Sys2Proof.Proofs

namespace Sys2Proof.Machine
open Sys2Proof

namespace State

/-! ### The end of an error window (R16, R185, R204) -/

/-- A lane with the window's counts added. -/
def countedLane (v : Lane) (errs corr : Nat) : Lane := { v with corr := satAdd32 v.corr corr, uncorr := satAdd32 v.uncorr errs }

/-- The state in which a window's counts are in. -/
def windowCounted (s : State) (p l errs corr : Nat) : State :=
  ((s.bump (preg p 0x13C) errs).bump (preg p 0x140) corr).laneSet p l (countedLane (s.lane p l) errs corr)

theorem windowCounted_spec (s : State) (p l errs corr : Nat) :
    PortOnly s (s.windowCounted p l errs corr) p ∧
    ((s.windowCounted p l errs corr).port p = { s.port p with lanes := ((s.windowCounted p l errs corr).port p).lanes }) ∧
    (s.windowCounted p l errs corr).lane p l = countedLane (s.lane p l) errs corr ∧
    (∀ k, k ≠ l → (s.windowCounted p l errs corr).lane p k = s.lane p k) ∧
    RegsKept s (s.windowCounted p l errs corr) [preg p 0x13C, preg p 0x140, preg p 0x104, preg p 0x114] ∧
    (s.windowCounted p l errs corr).portState p = s.portState p ∧
    (s.windowCounted p l errs corr).rd (preg p 0x13C) = satAdd32 (s.rd (preg p 0x13C)) errs ∧
    (s.windowCounted p l errs corr).rd (preg p 0x140) = satAdd32 (s.rd (preg p 0x140)) corr ∧
    (s.windowCounted p l errs corr).pending = s.pending := by
  unfold windowCounted
  obtain ⟨u, hu⟩ : ∃ u, u = (s.bump (preg p 0x13C) errs).bump (preg p 0x140) corr := ⟨_, rfl⟩
  have huf : u = { s with regs := u.regs } := by rw [hu]; rfl
  have huk : RegsKept s u [preg p 0x13C, preg p 0x140] := by
    rw [hu]
    exact kept_trans (kept_wr s _ _) (kept_wr _ _ _) (by simp) (by simp)
  have h1 : u.rd (preg p 0x13C) = satAdd32 (s.rd (preg p 0x13C)) errs := by
    rw [hu, bump_eq, rd_wr_ne _ _ (canon_preg_ne p (by decide)), bump_eq, rd_wr_self]
  have h2 : u.rd (preg p 0x140) = satAdd32 (s.rd (preg p 0x140)) corr := by
    rw [hu, bump_eq, rd_wr_self, bump_eq, rd_wr_ne _ _ (canon_preg_ne p (by decide))]
  rw [← hu]
  obtain ⟨hf, hq, hport, hk, hst⟩ := lanesOnly_laneSet u p l (countedLane (s.lane p l) errs corr)
  have hlane (k : Nat) := lane_laneSet u p l k (countedLane (s.lane p l) errs corr)
  generalize u.laneSet p l (countedLane (s.lane p l) errs corr) = w at *
  have hup (q : Nat) : u.port q = s.port q := by rw [huf]; rfl
  have hul (k : Nat) : u.lane p k = s.lane p k := by rw [huf]; rfl
  have hreg (off : Nat) (h : off ≠ 0x104) (h' : off ≠ 0x114) : w.rd (preg p off) = u.rd (preg p off) :=
    hk _ (by simpa using ⟨canon_preg_ne p h, canon_preg_ne p h'⟩)
  refine ⟨⟨by rw [hf, huf], fun q h => (hq q h).trans (hup q)⟩, by rw [hport, hup], (hlane l).trans (if_pos rfl),
    fun k h => (hlane k).trans ((if_neg h).trans (hul k)), kept_trans huk hk (by simp) (by simp), hst.trans ?_,
    (hreg _ (by decide) (by decide)).trans h1, (hreg _ (by decide) (by decide)).trans h2, by rw [hf, huf]⟩
  rw [portState, rdF, huk _ (by simpa using ⟨canon_preg_ne p (by decide), canon_preg_ne p (by decide)⟩)]; rfl

/-- The uncorrectable codewords of a window, and the symbol errors corrected in it (R16). -/
def windowErrs (bad : List Nat) : Nat := ((bad.map rsDecode).filter (·.isNone)).length
def windowCorr (bad : List Nat) : Nat := ((bad.map rsDecode).map (fun d => match d with | some r => r.2 | none => 0)).sum

/-- What follows the counts at a window's end, of lane `v` in state `w` (R185, R204). -/
def windowOutcome (w : State) (p l errs : Nat) (v : Lane) : Out :=
  if !w.laneLocked p l || v.recal == 1 || v.recal == 2 then .next w
  else if 4 ≤ errs then (if v.failed then .next w else .next (w.laneFail p l))
  else if v.failed || v.recal == 3 then .next ((w.laneSet p l { v with failed := false, recal := 0 }).fullAgain p)
  else .next w

theorem exec_laneErrorWindow (s : State) {p l : Nat} (bad : List Nat) (hp : p < 36) (hl : l < laneCount p) :
    exec (.laneErrorWindow p l bad) s = keepQueue s (windowOutcome (s.windowCounted p l (windowErrs bad) (windowCorr bad)) p l (windowErrs bad)
      (countedLane (s.lane p l) (windowErrs bad) (windowCorr bad))) := by
  show execLaneErrorWindow p l bad s = _
  rw [execLaneErrorWindow, if_pos ⟨hp, hl⟩]
  rfl

end State
end Sys2Proof.Machine

namespace Sys2Proof.Proofs
open Sys2Proof Sys2Proof.Machine Sys2Proof.Machine.State

/-- LANE_ERROR_WINDOW (R16, R185, R203 to R205). -/
theorem error_window (s : State) (p l errs : Nat) (corr : Nat) (bad : List Nat) (v : Lane) (hp : p < 36) (hl : l < laneCount p)
    (herrs : errs = ((bad.map rsDecode).filter (·.isNone)).length)
    (hcorr : corr = ((bad.map rsDecode).map (fun d => match d with | some r => r.2 | none => 0)).sum)
    (hv : v = { s.lane p l with corr := satAdd32 (s.lane p l).corr corr, uncorr := satAdd32 (s.lane p l).uncorr errs }) :
    ∃ t, exec (.laneErrorWindow p l bad) s = .next t ∧ t.rd (preg p 0x13C) = satAdd32 (s.rd (preg p 0x13C)) errs ∧
      t.rd (preg p 0x140) = satAdd32 (s.rd (preg p 0x140)) corr ∧
      ((s.laneLocked p l = false ∨ v.recal = 1 ∨ v.recal = 2 ∨ (v.failed = true ∧ 4 ≤ errs) ∨ (v.failed = false ∧ v.recal ≠ 3 ∧ errs < 4)) →
        PortOnly s t p ∧ t.port p = { s.port p with lanes := (t.port p).lanes } ∧ t.lane p l = v ∧ (∀ k, k ≠ l → t.lane p k = s.lane p k) ∧
        RegsKept s t [preg p 0x13C, preg p 0x140, preg p 0x104, preg p 0x114]) ∧
      (s.laneLocked p l = true → v.recal ≠ 1 → v.recal ≠ 2 → errs < 4 → (v.failed = true ∨ v.recal = 3) → PortOnly s t p ∧
        (t.lane p l).failed = false ∧ (t.lane p l).recal = 0 ∧ (t.lane p l).lock = v.lock ∧ (t.lane p l).corr = v.corr ∧
        (t.lane p l).uncorr = v.uncorr) ∧
      (s.laneLocked p l = true → v.recal ≠ 1 → v.recal ≠ 2 → 4 ≤ errs → v.failed = false →
        (t.lane p l).failed = true ∧ (t.lane p l).recal = 0 ∧
        (s.portState p = 5 → ((s.healthy p).filter (· != l)).length < 4 → t.portState p = 6) ∧
        (s.portState p = 5 → 4 ≤ ((s.healthy p).filter (· != l)).length → isHall p = true → s.inStripe p l = true →
          (∃ q, (t.port p).linkQ = (s.port p).linkQ ++ q ++ [padTo 240 [3, BitVec.ofNat 8 l]]) ∧ t.portState p = 5)) := by
  have hex := exec_laneErrorWindow s bad hp hl
  rw [show windowErrs bad = errs from herrs.symm, show windowCorr bad = corr from hcorr.symm, countedLane, ← hv] at hex
  obtain ⟨honly, hport, hself, hne, hk, hst, h13C, h140, hpend⟩ := windowCounted_spec s p l errs corr
  rw [countedLane, ← hv] at hself
  generalize s.windowCounted p l errs corr = w at *
  clear herrs hcorr
  have hlock : w.laneLocked p l = s.laneLocked p l := by rw [laneLocked, laneLocked, hself, hv]
  have hwell (k : Nat) : w.laneWell p k = s.laneWell p k := by
    by_cases hkl : k = l
    · subst hkl
      rw [laneWell, laneWell, hlock, hself, hv]
    · rw [laneWell, laneWell, laneLocked, laneLocked, hne k hkl]
  have hhealthy : w.healthy p = s.healthy p := List.filter_congr fun k _ => hwell k
  have hstripe : w.inStripe p l = s.inStripe p l := by
    have hmap : w.rd (preg p 0x110) = s.rd (preg p 0x110) := hk _ (by
      simpa using ⟨canon_preg_ne p (by decide), canon_preg_ne p (by decide), canon_preg_ne p (by decide), canon_preg_ne p (by decide)⟩)
    rw [inStripe, inStripe, rxLanes, rxLanes, hmap, hport]
  rw [windowOutcome, hlock] at hex
  by_cases hquiet : s.laneLocked p l = false ∨ v.recal = 1 ∨ v.recal = 2
  · have hc : (!s.laneLocked p l || v.recal == 1 || v.recal == 2) = true := by
      rcases hquiet with h | h | h <;> simp [h]
    rw [if_pos hc, keepQueue_of_pending hpend] at hex
    refine ⟨w, hex, h13C, h140, fun _ => ⟨honly, hport, hself, hne, hk⟩, fun h1 h2 h3 => ?_, fun h1 h2 h3 => ?_⟩ <;> simp [h1, h2, h3] at hquiet
  obtain ⟨hl1, hr1, hr2⟩ : s.laneLocked p l = true ∧ v.recal ≠ 1 ∧ v.recal ≠ 2 := by simpa using hquiet
  rw [if_neg (by simp [hl1, hr1, hr2])] at hex
  by_cases h4 : 4 ≤ errs
  · rw [if_pos h4] at hex
    by_cases hvf : v.failed = true
    · rw [if_pos hvf, keepQueue_of_pending hpend] at hex
      exact ⟨w, hex, h13C, h140, fun _ => ⟨honly, hport, hself, hne, hk⟩, fun _ _ _ h => by omega, fun _ _ _ _ h => by simp [hvf] at h⟩
    · obtain ⟨hfail, hrecal, -, hcount, hp'⟩ := laneFail_lane w p l
      rw [if_neg hvf, keepQueue_of_pending (hp'.trans hpend)] at hex
      refine ⟨_, hex, (hcount _ (.inl rfl)).trans h13C, (hcount _ (.inr rfl)).trans h140, fun h => ?_, fun _ _ _ h => by omega,
        fun _ _ _ _ _ => ⟨hfail, hrecal, fun h5 hlt => ?_, fun h5 hge hall hin => ?_⟩⟩
      · rcases h with h | h | h | ⟨h, -⟩ | ⟨-, -, h⟩
        exacts [absurd h (by simp [hl1]), absurd h hr1, absurd h hr2, absurd h hvf, absurd h (by omega)]
      · exact (laneFail_active w p l (hst.trans h5)).1 (by rw [hhealthy]; exact hlt)
      · have := (laneFail_active w p l (hst.trans h5)).2 (by rw [hhealthy]; exact hge) hall (hstripe.trans hin)
        rwa [hport] at this
  · rw [if_neg h4] at hex
    by_cases hr : v.failed = true ∨ v.recal = 3
    · obtain ⟨hwf, hwq, -, hwk, -⟩ := lanesOnly_laneSet w p l { v with failed := false, recal := 0 }
      have hwl := (lane_laneSet w p l l { v with failed := false, recal := 0 }).trans (if_pos rfl)
      generalize w.laneSet p l { v with failed := false, recal := 0 } = x at *
      obtain ⟨⟨hf, hq⟩, hlane, hfk, hp'⟩ := fullAgain_spec x p
      rw [if_pos (by simpa using hr), keepQueue_of_pending (hp'.trans (by rw [hwf, hpend]))] at hex
      generalize x.fullAgain p = y at *
      have hreg (off : Nat) (h : off = 0x13C ∨ off = 0x140) : y.rd (preg p off) = w.rd (preg p off) := by
        have h' : off ≠ 0x104 ∧ off ≠ 0x10C ∧ off ≠ 0x114 := by omega
        rw [hfk _ (by simpa using ⟨canon_preg_ne p h'.1, canon_preg_ne p h'.2.1, canon_preg_ne p h'.2.2⟩),
          hwk _ (by simpa using ⟨canon_preg_ne p h'.1, canon_preg_ne p h'.2.2⟩)]
      refine ⟨y, hex, (hreg _ (.inl rfl)).trans h13C, (hreg _ (.inr rfl)).trans h140, fun h => ?_, fun _ _ _ _ _ => ⟨⟨?_, fun q h => ?_⟩, ?_⟩,
        fun _ _ _ h => by omega⟩
      · rcases h with h | h | h | ⟨-, h⟩ | ⟨h, h', -⟩
        exacts [absurd h (by simp [hl1]), absurd h hr1, absurd h hr2, absurd h h4, absurd hr (by simp [h, h'])]
      · rw [hf, hwf, honly.1]
      · exact (hq q h).trans ((hwq q h).trans (honly.2 q h))
      · rw [hlane l, hwl]
        exact ⟨rfl, rfl, rfl, rfl, rfl⟩
    · rw [if_neg (by simpa using hr), keepQueue_of_pending hpend] at hex
      exact ⟨w, hex, h13C, h140, fun _ => ⟨honly, hport, hself, hne, hk⟩, fun _ _ _ _ h => absurd h hr, fun _ _ _ h => absurd h h4⟩

end Sys2Proof.Proofs

namespace Sys2Proof.Machine
open Sys2Proof

namespace State

/-! ### Lane switches received (R203 to R205) -/

/-- The receive side has a new map and width (R203). -/
def lswTaken (s : State) (p : Nat) (m : Word32) (half : Bool) : State := (s.wr (preg p 0x110) m).portMod p (fun o => { o with rxHalf := half })

/-- A lane whose recalibration was asked for begins to adapt once it is out of the stripe (R204). -/
def adaptLane (p : Nat) (u : State) (l : Nat) : State :=
  if (u.lane p l).recal = 1 ∧ u.inStripe p l = false then u.lanePut p l { u.lane p l with recal := 2 } else u

theorem lswTaken_spec (s : State) (p : Nat) (m : Word32) (half : Bool) :
    (s.lswTaken p m half = { s with regs := (s.lswTaken p m half).regs, ports := (s.lswTaken p m half).ports }) ∧
    (∀ q, q ≠ p → (s.lswTaken p m half).port q = s.port q) ∧ (s.lswTaken p m half).port p = { s.port p with rxHalf := half } ∧
    (s.lswTaken p m half).rd (preg p 0x110) = m ∧ RegsKept s (s.lswTaken p m half) [preg p 0x110] :=
  ⟨rfl, fun _ h => port_portMod_ne _ _ h, port_portMod_self _ p _, rd_wr_self .., kept_wr s _ _⟩

/-- A lane that begins to adapt changes nothing else. -/
theorem adaptLane_spec (p : Nat) (u : State) (l : Nat) : adaptLane p u l = { u with ports := (adaptLane p u l).ports } ∧
    (∀ q, q ≠ p → (adaptLane p u l).port q = u.port q) ∧
    (adaptLane p u l).port p = { u.port p with lanes := ((adaptLane p u l).port p).lanes } := by
  refine rel_ite (R := fun a b => b = { a with ports := b.ports } ∧ (∀ q, q ≠ p → b.port q = a.port q) ∧
    b.port p = { a.port p with lanes := (b.port p).lanes }) ⟨rfl, fun q h => port_portMod_ne u _ h, port_lanePut u p l _⟩ ⟨rfl, fun _ _ => rfl, rfl⟩

theorem inStripe_adaptLane (p : Nat) (u : State) (l k : Nat) : (adaptLane p u l).inStripe p k = u.inStripe p k := by
  obtain ⟨hf, -, hp⟩ := adaptLane_spec p u l
  have hmap : (adaptLane p u l).rd (preg p 0x110) = u.rd (preg p 0x110) := rd_congr (by rw [hf]) _
  rw [inStripe, inStripe, rxLanes, rxLanes, hmap, hp]

theorem lane_adaptLane (p : Nat) (u : State) (l k : Nat) : (adaptLane p u l).lane p k =
    if k = l ∧ (u.lane p k).recal = 1 ∧ u.inStripe p k = false then { u.lane p k with recal := 2 } else u.lane p k := by
  unfold adaptLane
  by_cases h : (u.lane p l).recal = 1 ∧ u.inStripe p l = false
  · rw [if_pos h, lane_lanePut]
    by_cases hk : k = l
    · subst hk
      rw [if_pos rfl, if_pos ⟨rfl, h⟩]
    · rw [if_neg hk, if_neg fun h => hk h.1]
  · rw [if_neg h, if_neg]
    rintro ⟨rfl, h'⟩
    exact h h'

/-- Every lane out of the stripe whose recalibration was asked for begins to adapt, and no other lane changes (R204). -/
theorem adaptLanes_spec (p : Nat) {ls : List Nat} (hn : ls.Nodup) (u : State) :
    (ls.foldl (adaptLane p) u = { u with ports := (ls.foldl (adaptLane p) u).ports }) ∧
    (∀ q, q ≠ p → (ls.foldl (adaptLane p) u).port q = u.port q) ∧
    ((ls.foldl (adaptLane p) u).port p = { u.port p with lanes := ((ls.foldl (adaptLane p) u).port p).lanes }) ∧
    ∀ k, (ls.foldl (adaptLane p) u).lane p k =
      if k ∈ ls ∧ (u.lane p k).recal = 1 ∧ u.inStripe p k = false then { u.lane p k with recal := 2 } else u.lane p k := by
  induction ls generalizing u with
  | nil => exact ⟨rfl, fun _ _ => rfl, rfl, fun k => by simp⟩
  | cons l ls ih =>
    obtain ⟨hl, hn⟩ := List.nodup_cons.1 hn
    obtain ⟨hf, hq, hp, hlane⟩ := ih hn (adaptLane p u l)
    obtain ⟨hf', hq', hp'⟩ := adaptLane_spec p u l
    rw [List.foldl_cons]
    refine ⟨by rw [hf, hf'], fun q h => (hq q h).trans (hq' q h), by rw [hp, hp'], fun k => ?_⟩
    rw [hlane k, inStripe_adaptLane, lane_adaptLane]
    by_cases hk : k = l
    · subst hk
      rw [if_neg fun h => hl h.1]
      simp
    · simp [hk]

/-- The state in which a lane switch is in force, and its lanes' status told (R203, R213). -/
def lswInForce (s : State) (p : Nat) (m : Word32) (half : Bool) : State :=
  ((List.range (laneCount p)).foldl (adaptLane p) (s.lswTaken p m half)).laneStat p

theorem lswInForce_spec (s : State) (p : Nat) (m : Word32) (half : Bool) :
    PortOnly s (s.lswInForce p m half) p ∧ ((s.lswInForce p m half).port p).rxHalf = half ∧
    ((s.lswInForce p m half).port p).txHalf = (s.port p).txHalf ∧ (s.lswInForce p m half).rd (preg p 0x110) = m ∧
    (s.lswInForce p m half).portState p = s.portState p ∧
    (s.lswInForce p m half).rdB (preg p 0x104) 25 = (isHall p && ((s.port p).txHalf || half)) ∧
    (∀ l, l < laneCount p → (s.lswInForce p m half).lane p l =
      if (s.lane p l).recal = 1 ∧ (s.lswInForce p m half).inStripe p l = false then { s.lane p l with recal := 2 } else s.lane p l) ∧
    (s.lswInForce p m half).pending = s.pending := by
  obtain ⟨htf, htq, htp, htm, htk⟩ := lswTaken_spec s p m half
  unfold lswInForce
  generalize s.lswTaken p m half = t at *
  obtain ⟨huf, huq, hup, hul⟩ := adaptLanes_spec p (List.nodup_range (n := laneCount p)) t
  generalize (List.range (laneCount p)).foldl (adaptLane p) t = u at *
  obtain ⟨hf, hk, hst, h25⟩ := laneStat_spec u p
  generalize u.laneStat p = v at *
  have hvp (q : Nat) : v.port q = u.port q := by rw [hf]; rfl
  have htl (k : Nat) : t.lane p k = s.lane p k := by rw [lane, htp]; rfl
  have hus : u.regs = t.regs := by rw [huf]
  have hvm : v.rd (preg p 0x110) = m :=
    (hk _ (by simpa using ⟨canon_preg_ne p (by decide), canon_preg_ne p (by decide)⟩)).trans ((rd_congr hus _).trans htm)
  have hvs (k : Nat) : v.inStripe p k = t.inStripe p k := by
    rw [inStripe, inStripe, rxLanes, rxLanes, hvm, htm, hvp, hup]
  refine ⟨⟨by rw [hf, huf, htf], fun q h => (hvp q).trans ((huq q h).trans (htq q h))⟩, by rw [hvp, hup, htp], by rw [hvp, hup, htp], hvm,
    hst.trans ?_, h25.trans (by rw [hup, htp]), fun l hl => ?_, by rw [hf, huf, htf]⟩
  · rw [portState, rdF, rd_congr hus, htk _ (by simpa using canon_preg_ne p (by decide))]; rfl
  · have hlane : v.lane p l = u.lane p l := by rw [lane, hvp]; rfl
    rw [hlane, hul, htl, hvs]
    simp [hl]

/-- Interrupts of a port were raised: of its registers INT_STAT alone changes, and beside registers what is sent. -/
def Raised (p : Nat) (s t : State) : Prop := RegsSent s t ∧ ∀ off, off ≠ 0x20 → t.rd (preg p off) = s.rd (preg p off)

theorem raised_refl (p : Nat) (s : State) : Raised p s s := ⟨rfl, fun _ _ => rfl⟩

theorem raised_trans (p : Nat) (s t u : State) (h : Raised p s t) (h' : Raised p t u) : Raised p s u :=
  ⟨regsSent_trans _ _ _ h.1 h'.1, fun off hne => (h'.2 off hne).trans (h.2 off hne)⟩

theorem raised_raise (p : Nat) (s : State) (b : Nat) : Raised p s (s.raise (portPage p) b) :=
  ⟨regsSent_raise s (portPage p) b, fun off h => raise_kept s (portPage p) b _ (by simpa using canon_preg_intStat p off h)⟩

theorem port_of_raised {p : Nat} {s t : State} (h : Raised p s t) (q : Nat) : t.port q = s.port q := by
  have hports : t.ports = s.ports := by rw [h.1]
  rw [port, port, hports]

theorem lane_of_raised {p : Nat} {s t : State} (h : Raised p s t) (q k : Nat) : t.lane q k = s.lane q k := by
  rw [lane, lane, port_of_raised h]

theorem inStripe_of_raised {p : Nat} {s t : State} (h : Raised p s t) (k : Nat) : t.inStripe p k = s.inStripe p k := by
  rw [inStripe, inStripe, rxLanes, rxLanes, port_of_raised h, h.2 _ (by decide)]

end State
end Sys2Proof.Machine

namespace Sys2Proof.Proofs
open Sys2Proof Sys2Proof.Machine Sys2Proof.Machine.State

/-- The lane of this end a map's stripe lane comes by (R187). -/
def nearLane (s : State) (p f : Nat) : Nat := ((List.range (laneCount p)).find? (fun l => (s.lane p l).far == f)).getD f

/-- What LSW raises: the loss of the spare, then the change of width or of lane (R203, R205, R215). -/
def lswRaised (s t : State) (p w : Nat) : State :=
  let u := if s.spareNow p < 15 ∧ t.spareNow p = 15 ∧ (List.range (laneCount p)).any (fun l => (t.lane p l).failed) then t.raise (portPage p) 4 else t
  if w = 4 ∧ isHall p then u.raise (portPage p) 3 else if s.rxLanes p = w then u.raise (portPage p) 2 else u

theorem exec_lsw (s : State) {p : Nat} {x : List LaneBlock} {b : List Byte} {w : Nat} {m : Word32} (hp : p < 36) (hlive : s.portLive p = true)
    (hb : slotKind (s.rd (preg p 0x110)) (s.rxLanes p) x = .control b) (hc : b.getD 0 0 = 0x5A) (hw : w = (if b.getD 5 0 = 8 then 8 else 4))
    (hm : m = BitVec.ofNat 32 (leNat ((b.drop 1).take 4))) :
    exec (.lsw p x) s = keepQueue s (.next (lswRaised s (s.lswInForce p (lanesMap ((List.range w).map (fun k => nearLane s p (mapLane m k))))
      (isHall p && w == 4)) p w)) := by
  subst hw hm
  show execLsw p x s = _
  rw [execLsw, if_pos ⟨hp, hlive⟩]
  simp only [hb]
  rw [if_neg (by simpa using hc)]
  rfl

/-- What a lane switch received raises (R205, R215). -/
theorem lswRaised_spec (s t : State) (p w : Nat) : Raised p t (lswRaised s t p w) ∧
    (w = 4 ∧ isHall p = true → (lswRaised s t p w).rdB (R.INT_STAT (portPage p)) 3 = true) ∧
    (¬(w = 4 ∧ isHall p = true) → s.rxLanes p = w → (lswRaised s t p w).rdB (R.INT_STAT (portPage p)) 2 = true) := by
  unfold lswRaised
  extract_lets u
  have hu : Raised p t u := rel_ite (raised_raise p t 4) (raised_refl p t)
  refine ⟨raised_trans p _ _ _ hu (rel_ite (raised_raise p u 3) (rel_ite (raised_raise p u 2) (raised_refl p u))), fun h => ?_, fun h h' => ?_⟩
  · rw [if_pos h]
    exact rdB_raise_self u _ 3 (by decide)
  · rw [if_neg h, if_pos h']
    exact rdB_raise_self u _ 2 (by decide)

/-- LSW: a lane switch received (R187, R203 to R205). -/
theorem lane_switch (s : State) (p : Nat) (x : List LaneBlock) (b : List Byte) (w : Nat) (m : Word32) (hp : p < 36) (hlive : s.portLive p = true)
    (hb : slotKind (s.rd (preg p 0x110)) (s.rxLanes p) x = .control b) (hc : b.getD 0 0 = 0x5A) (hw : w = (if b.getD 5 0 = 8 then 8 else 4))
    (hm : m = BitVec.ofNat 32 (leNat ((b.drop 1).take 4))) :
    ∃ t, exec (.lsw p x) s = .next t ∧ PortOnly s t p ∧ t.portState p = s.portState p ∧
      t.rd (preg p 0x110) = State.lanesMap ((List.range w).map (fun k =>
        ((List.range (laneCount p)).find? (fun l => (s.lane p l).far == mapLane m k)).getD (mapLane m k))) ∧
      (t.port p).rxHalf = (isHall p && w == 4) ∧ t.rdB (preg p 0x104) 25 = (isHall p && ((s.port p).txHalf || w == 4)) ∧
      (w = 4 ∧ isHall p = true → t.rdB (R.INT_STAT (portPage p)) 3 = true) ∧
      (¬(w = 4 ∧ isHall p = true) → s.rxLanes p = w → t.rdB (R.INT_STAT (portPage p)) 2 = true) ∧
      ∀ l, l < laneCount p → t.lane p l = if (s.lane p l).recal = 1 ∧ t.inStripe p l = false then { s.lane p l with recal := 2 } else s.lane p l := by
  have hex := exec_lsw s hp hlive hb hc hw hm
  obtain ⟨honly, hrx, -, hmap, hst, h25, hlane, hpend⟩ :=
    lswInForce_spec s p (lanesMap ((List.range w).map (fun k => nearLane s p (mapLane m k)))) (isHall p && w == 4)
  generalize s.lswInForce p (lanesMap ((List.range w).map (fun k => nearLane s p (mapLane m k)))) (isHall p && w == 4) = t at *
  obtain ⟨hr, h3, h2⟩ := lswRaised_spec s t p w
  generalize lswRaised s t p w = u at *
  rw [keepQueue_of_pending ((show u.pending = t.pending by rw [hr.1]).trans hpend)] at hex
  refine ⟨u, hex, ⟨by rw [hr.1, honly.1], fun q h => (port_of_raised hr q).trans (honly.2 q h)⟩, ?_, (hr.2 _ (by decide)).trans hmap,
    by rw [port_of_raised hr, hrx], ?_, h3, h2, fun l hl => ?_⟩
  · rw [portState, rdF, hr.2 _ (by decide)]; exact hst
  · rw [rdB, hr.2 _ (by decide)]
    refine h25.trans ?_
    cases isHall p <;> simp
  · rw [lane_of_raised hr, inStripe_of_raised hr]
    exact hlane l hl

/-- LSW on a port that is not live does nothing. -/
theorem lane_switch_dead (s : State) (p : Nat) (x : List LaneBlock) (h : s.portLive p = false) : exec (.lsw p x) s = .next s := by
  show execLsw p x s = _
  rw [execLsw, if_neg (by simp [h])]
  exact keepQueue_of_pending rfl

/-- RECAL_ADAPT_DONE of a lane that adapts (R204). -/
theorem adapt_done (s : State) (p l : Nat) (hp : p < 32) (h : (s.lane p l).recal = 2) :
    ∃ t, exec (.recalAdaptDone p l) s = .next t ∧ PortOnly s t p ∧ t.port p = { s.port p with lanes := (t.port p).lanes } ∧
      t.lane p l = { s.lane p l with recal := 3 } ∧ ∀ k, k ≠ l → t.lane p k = s.lane p k := by
  have hex : exec (.recalAdaptDone p l) s = keepQueue s (.next (s.laneSet p l { s.lane p l with recal := 3 })) := by
    show execRecalAdaptDone p l s = _
    rw [execRecalAdaptDone, if_pos ⟨hp, h⟩]
  obtain ⟨hf, hq, hport, -, -⟩ := lanesOnly_laneSet s p l { s.lane p l with recal := 3 }
  have hlane := lane_laneSet s p l
  rw [keepQueue_of_pending (by rw [hf])] at hex
  exact ⟨_, hex, ⟨by rw [hf], hq⟩, hport, (hlane l _).trans (if_pos rfl), fun k hne => (hlane k _).trans (if_neg hne)⟩

end Sys2Proof.Proofs

namespace Sys2Proof.Machine
open Sys2Proof

namespace State

/-! ### Recalibration (R204) -/

/-- A lane's recalibration asked for: the lane is under it, and is named to the far end (R204). -/
theorem recal_spec (s : State) (p l : Nat) :
    (s.recal p l = { s with regs := (s.recal p l).regs, ports := (s.recal p l).ports }) ∧ (∀ q, q ≠ p → (s.recal p l).port q = s.port q) ∧
    ((s.recal p l).port p = { s.port p with lanes := ((s.recal p l).port p).lanes
                                            linkQ := (s.port p).linkQ ++ [padTo 240 [3, BitVec.ofNat 8 l]] }) ∧
    (s.recal p l).lane p l = { s.lane p l with recal := 1 } ∧ (∀ k, k ≠ l → (s.recal p l).lane p k = s.lane p k) ∧
    RegsKept s (s.recal p l) [preg p 0x104, preg p 0x114] := by
  obtain ⟨v, hv⟩ : ∃ v, v = s.laneSet p l { s.lane p l with recal := 1 } := ⟨_, rfl⟩
  obtain ⟨hf, hq, hport, hk, -⟩ := lanesOnly_laneSet s p l { s.lane p l with recal := 1 }
  have hlane (k : Nat) := lane_laneSet s p l k { s.lane p l with recal := 1 }
  rw [← hv] at hf hq hport hk
  simp only [← hv] at hlane
  rw [recal, ← hv]
  clear hv
  have hn := port_nameLane v p l
  have hl (k : Nat) : (v.nameLane p l).lane p k = v.lane p k := by rw [lane, hn]; rfl
  refine ⟨by rw [show v.nameLane p l = { v with ports := (v.nameLane p l).ports } from rfl, hf],
    fun q h => (port_portMod_ne v _ h).trans (hq q h), by rw [hn, hport], (hl l).trans ((hlane l).trans (if_pos rfl)),
    fun k h => (hl k).trans ((hlane k).trans (if_neg h)), fun a ha => (rd_congr rfl a).trans (hk a ha)⟩

/-- Whether a lane may be recalibrated is told by its port's lanes, state, map and width (R204). -/
theorem recalOk_congr {s t : State} {p : Nat} (hl : (t.port p).lanes = (s.port p).lanes) (hh : (t.port p).rxHalf = (s.port p).rxHalf)
    (hs : t.rd (preg p 0x104) = s.rd (preg p 0x104)) (hm : t.rd (preg p 0x110) = s.rd (preg p 0x110)) (l : Nat) : t.recalOk p l = s.recalOk p l := by
  have hlane (k : Nat) : t.lane p k = s.lane p k := by rw [lane, lane, hl]
  have hwell (k : Nat) : t.laneWell p k = s.laneWell p k := by rw [laneWell, laneWell, laneLocked, laneLocked, hlane]
  have hin (k : Nat) : t.inStripe p k = s.inStripe p k := by rw [inStripe, inStripe, rxLanes, rxLanes, hm, hh]
  have hspare : t.spareNow p = s.spareNow p := by simp only [spareNow, hwell, hin]
  rw [recalOk, recalOk, portState, portState, rdF, rdF, hs, hspare, hwell]

end State
end Sys2Proof.Machine

namespace Sys2Proof.Proofs
open Sys2Proof Sys2Proof.Machine Sys2Proof.Machine.State

/-- RECAL (R204, R215). -/
theorem recal_command (s : State) (p : Nat) (hp : p < 36) :
    let l := s.rdF (preg p 0x118) 3 0
    (s.recalOk p l = true → ∃ t, exec (.recal p) s = .next t ∧ PortOnly s t p ∧
      t.lane p l = { s.lane p l with recal := 1 } ∧ (∀ k, k ≠ l → t.lane p k = s.lane p k) ∧
      t.port p = { s.port p with lanes := (t.port p).lanes, linkQ := (s.port p).linkQ ++ [padTo 240 [3, BitVec.ofNat 8 l]] } ∧
      RegsKept s t [preg p 0x104, preg p 0x114, R.GEN_WR_CNT (portPage p)]) ∧
    (s.recalOk p l = false → ∃ t, exec (.recal p) s = .next t ∧ t = { s with regs := t.regs, outbox := t.outbox, msix := t.msix } ∧
      t.rdB (preg p 0x16C) 0 = true ∧ t.rdB (R.INT_STAT (portPage p)) 6 = true) := by
  intro l
  obtain ⟨v, hv⟩ : ∃ v, v = s.countWrite (portPage p) false := ⟨_, rfl⟩
  have hvf : v = { s with regs := v.regs } := by rw [hv]; rfl
  have hvk : RegsKept s v [R.GEN_WR_CNT (portPage p)] := by rw [hv]; exact kept_wr s _ _
  have hreg (off : Nat) (h : off ≠ 0x44) : v.rd (preg p off) = s.rd (preg p off) :=
    hvk _ (by simpa using show canon (preg p off) ≠ canon (R.GEN_WR_CNT (portPage p)) from canon_preg_ne p h)
  have hvp (q : Nat) : v.port q = s.port q := by rw [hvf]; rfl
  have hl : v.rdF (preg p 0x118) 3 0 = l := by rw [rdF, hreg _ (by decide)]; rfl
  have hok : v.recalOk p l = s.recalOk p l := recalOk_congr (by rw [hvp]) (by rw [hvp]) (hreg _ (by decide)) (hreg _ (by decide)) l
  have hex : exec (.recal p) s = keepQueue s (.next (if v.recalOk p (v.rdF (preg p 0x118) 3 0) then v.recal p (v.rdF (preg p 0x118) 3 0)
      else (v.setBits (preg p 0x16C) 1).raise (portPage p) 6)) := by
    rw [hv]
    show execRecal p s = _
    rw [execRecal, if_pos hp]
  rw [hl, hok] at hex
  refine ⟨fun h => ?_, fun h => ?_⟩
  · obtain ⟨hf, hq, hport, hself, hne, hk⟩ := recal_spec v p l
    rw [if_pos h, keepQueue_of_pending (by rw [hf, hvf])] at hex
    have hvl (k : Nat) : v.lane p k = s.lane p k := by rw [lane, lane, hvp]
    exact ⟨_, hex, ⟨by rw [hf, hvf], fun q h => (hq q h).trans (hvp q)⟩, by rw [hself, hvl], fun k h => (hne k h).trans (hvl k), by rw [hport, hvp],
      kept_trans hvk hk (by simp) (by simp)⟩
  · have hr := raised_raise p (v.setBits (preg p 0x16C) 1) 6
    have h6 := rdB_raise_self (v.setBits (preg p 0x16C) 1) (portPage p) 6 (by decide)
    have hbit : (v.setBits (preg p 0x16C) 1).rdB (preg p 0x16C) 0 = true := by
      rw [rdB, setBits_eq, rd_wr_self, bit_or, show bit (1 : Word32) 0 = true from rfl, Bool.or_true]
    rw [if_neg (by simp [h])] at hex
    generalize (v.setBits (preg p 0x16C) 1).raise (portPage p) 6 = u at *
    have huf : u = { s with regs := u.regs, outbox := u.outbox, msix := u.msix } := by rw [hr.1, hvf]; rfl
    rw [keepQueue_of_pending (by rw [huf])] at hex
    refine ⟨u, hex, huf, ?_, h6⟩
    rw [rdB, hr.2 _ (by decide)]
    exact hbit

/-- RECAL_AUTO once PERIOD has passed (R204, R213). -/
theorem recal_auto (s : State) (p l : Nat) (hp : p < 32) (hen : s.rdB (preg p 0x118) 31 = true) (hl : l = (s.port p).autoLane)
    (ht : (s.port p).autoAt.toNat + s.rdF (preg p 0x118) 30 16 * 4000000000 ≤ s.ft.toNat) :
    ∃ t, exec (.recalAuto p) s = .next t ∧ t = { s with regs := t.regs, ports := t.ports } ∧ (∀ q, q ≠ p → t.port q = s.port q) ∧
      (t.port p).autoLane = (l + 1) % 9 ∧ (t.port p).autoAt = s.ft ∧
      (s.recalOk p l = true → t.lane p l = { s.lane p l with recal := 1 } ∧
        (t.port p).linkQ = (s.port p).linkQ ++ [padTo 240 [3, BitVec.ofNat 8 l]]) ∧
      (s.recalOk p l = false → t.regs = s.regs ∧ t.port p = { s.port p with autoLane := (l + 1) % 9, autoAt := s.ft }) := by
  subst hl
  obtain ⟨v, hv⟩ : ∃ v, v = s.portMod p (fun o => { o with autoLane := ((s.port p).autoLane + 1) % 9, autoAt := s.ft }) := ⟨_, rfl⟩
  have hex : exec (.recalAuto p) s = keepQueue s (.next (if v.recalOk p (s.port p).autoLane then v.recal p (s.port p).autoLane else v)) := by
    rw [hv]
    show execRecalAuto p s = _
    rw [execRecalAuto, if_pos ⟨hp, hen, ht⟩]
  have hvf : v = { s with ports := v.ports } := by rw [hv]; rfl
  have hvp : v.port p = { s.port p with autoLane := ((s.port p).autoLane + 1) % 9, autoAt := s.ft } := by rw [hv]; exact port_portMod_self ..
  have hvq (q : Nat) (h : q ≠ p) : v.port q = s.port q := by rw [hv]; exact port_portMod_ne s _ h
  have hvr : v.regs = s.regs := by rw [hvf]
  have hok : v.recalOk p (s.port p).autoLane = s.recalOk p (s.port p).autoLane :=
    recalOk_congr (by rw [hvp]) (by rw [hvp]) (rd_congr hvr _) (rd_congr hvr _) _
  clear hv
  generalize (s.port p).autoLane = l at *
  rw [hok] at hex
  by_cases h : s.recalOk p l = true
  · obtain ⟨hf, hq, hport, hself, -, -⟩ := recal_spec v p l
    have hvl : v.lane p l = s.lane p l := by rw [lane, hvp]; rfl
    rw [if_pos h, keepQueue_of_pending (by rw [hf, hvf])] at hex
    exact ⟨_, hex, by rw [hf, hvf], fun q h => (hq q h).trans (hvq q h), by rw [hport, hvp], by rw [hport, hvp],
      fun _ => ⟨by rw [hself, hvl], by rw [hport, hvp]⟩, fun h' => by simp [h] at h'⟩
  · rw [if_neg h, keepQueue_of_pending (by rw [hvf])] at hex
    exact ⟨v, hex, by rw [hvf], hvq, by rw [hvp], by rw [hvp], fun h' => absurd h' h, fun _ => ⟨hvr, hvp⟩⟩

/-- RECAL_AUTO switched off, or before PERIOD has passed. -/
theorem recal_auto_not_due (s : State) (p : Nat) (h : s.rdB (preg p 0x118) 31 = false ∨
    s.ft.toNat < (s.port p).autoAt.toNat + s.rdF (preg p 0x118) 30 16 * 4000000000) : exec (.recalAuto p) s = .next s := by
  show execRecalAuto p s = _
  rw [execRecalAuto, if_neg (by rintro ⟨-, h1, h2⟩; rcases h with h | h; simp [h] at h1; omega)]
  exact keepQueue_of_pending rfl

end Sys2Proof.Proofs

namespace Sys2Proof.Machine
open Sys2Proof

namespace State

/-! ### Lanes the far end names (R203, R205) -/

/-- An interrupt sends at most a message, after what has gone out. -/
theorem outbox_raise (s : State) (p b : Nat) : ∃ q, (s.raise p b).outbox = s.outbox ++ q := by
  have hsend (u : State) (v : Nat) : ∃ q, (u.msixSend v).outbox = u.outbox ++ q := by
    unfold msixSend
    simp only
    split
    · exact ⟨[], (List.append_nil _).symm⟩
    · exact ⟨[.msix v], rfl⟩
  unfold raise pendEdge
  generalize hu : s.setBits (R.INT_STAT p) (BitVec.ofNat 32 (2 ^ b)) = u
  have hout : u.outbox = s.outbox := by rw [← hu]; rfl
  rw [← hout]
  split
  · split
    · simp only
      split
      · exact hsend u _
      · exact ⟨[], (List.append_nil _).symm⟩
    · exact ⟨[], (List.append_nil _).symm⟩
  · exact ⟨[], (List.append_nil _).symm⟩

/-- A lane the far end names is not used (R203). -/
def notUsed (s : State) (p l : Nat) : State :=
  s.portMod p (fun o => { o with named := if o.named.contains l then o.named else l :: o.named })

/-- A lane named leaves the stripe: for one not named, or by half width (R203, R205). -/
theorem leaveStripe_eq (s : State) (p l : Nat) : s.leaveStripe p l =
    match laneStripe (s.rd (preg p 0x10C)) (s.txLanes p) l with
    | none => s.notUsed p l
    | some k =>
      match (List.range 9).find? (fun x => (laneStripe (s.rd (preg p 0x10C)) (s.txLanes p) x).isNone && !(s.port p).named.contains x) with
      | some x => (s.sendLsw p (setFld (s.rd (preg p 0x10C)) (4 * k + 3) (4 * k) x) (s.txLanes p)).raise (portPage p) 2
      | none =>
        if ((((List.range (s.txLanes p)).map (mapLane (s.rd (preg p 0x10C)))).filter (fun x => x != l && !(s.port p).named.contains x)).take 4).length < 4
        then s.notUsed p l
        else ((s.notUsed p l).sendLsw p (lanesMap ((((List.range (s.txLanes p)).map (mapLane (s.rd (preg p 0x10C)))).filter
          (fun x => x != l && !(s.port p).named.contains x)).take 4)) 4).raise (portPage p) 3 := rfl

theorem port_notUsed (s : State) (p l : Nat) :
    (s.notUsed p l).port p = { s.port p with named := ((s.notUsed p l).port p).named } ∧ l ∈ ((s.notUsed p l).port p).named := by
  rw [notUsed, port_portMod_self]
  refine ⟨rfl, ?_⟩
  simp only
  split
  next h => simpa using h
  · simp

end State
end Sys2Proof.Machine

namespace Sys2Proof.Proofs
open Sys2Proof Sys2Proof.Machine Sys2Proof.Machine.State

/-- RECAL_REQ that has come (R203, R205). -/
theorem exec_recalReq {s u : State} {p : Nat} {b : List Byte} {x : List LaneBlock} (h : s.linkIn p 3 false x = (some b, u)) :
    exec (.recalReq p x) s = keepQueue s (.next (if isHall p then u.leaveStripe p (b.getD 1 0).toNat else u)) := by
  show execRecalReq p x s = _
  rw [execRecalReq, h]

/-- RECAL_REQ: the lane named leaves a hall port's stripe (R203, R205). -/
theorem recal_request (s u : State) (p l : Nat) (b : List Byte) (x : List LaneBlock) (h : s.linkIn p 3 false x = (some b, u))
    (hl : l = (b.getD 1 0).toNat) :
    let m := u.rd (preg p 0x10C)
    let n := u.txLanes p
    (isHall p = false → exec (.recalReq p x) s = .next { u with pending := s.pending }) ∧
    (isHall p = true → laneStripe m n l = none → ∃ t, exec (.recalReq p x) s = .next t ∧ t = { u with ports := t.ports, pending := s.pending } ∧
      t.port p = { u.port p with named := (t.port p).named } ∧ l ∈ (t.port p).named) ∧
    (∀ k y, isHall p = true → laneStripe m n l = some k →
      (List.range 9).find? (fun y => (laneStripe m n y).isNone && !(u.port p).named.contains y) = some y → u.markerSlot p = false →
      ∃ t q, exec (.recalReq p x) s = .next t ∧ t.rd (preg p 0x10C) = setFld m (4 * k + 3) (4 * k) y ∧
        t.rdB (R.INT_STAT (portPage p)) 2 = true ∧ (t.port p).lsw = ((u.port p).lsw + 1) % 256 ∧ (t.port p).named = (u.port p).named ∧
        t.outbox = u.outbox ++ .block p 99 (padTo 32 ([0x5A] ++ leBytes 4 (setFld m (4 * k + 3) (4 * k) y).toNat ++ leBytes 1 n ++
          leBytes 1 (u.port p).lsw)) :: q) ∧
    (∀ k ls, isHall p = true → laneStripe m n l = some k →
      (List.range 9).find? (fun y => (laneStripe m n y).isNone && !(u.port p).named.contains y) = none →
      ls = (((List.range n).map (mapLane m)).filter (fun y => y != l && !(u.port p).named.contains y)).take 4 → ls.length = 4 →
      ∃ t, exec (.recalReq p x) s = .next t ∧ t.rd (preg p 0x10C) = State.lanesMap ls ∧ (t.port p).txHalf = true ∧ l ∈ (t.port p).named ∧
        t.rdB (R.INT_STAT (portPage p)) 3 = true) := by
  intro m n
  have hex := exec_recalReq h
  rw [← hl, leaveStripe_eq, keepQueue_of_next] at hex
  refine ⟨fun hh => ?_, fun hh hn => ?_, fun k y hh hk hy hm => ?_, fun k ls hh hk hy hls hlen => ?_⟩
  · rw [hex, if_neg (by simp [hh])]
  · rw [if_pos hh, show laneStripe (u.rd (preg p 0x10C)) (u.txLanes p) l = none from hn] at hex
    obtain ⟨hport, hmem⟩ := port_notUsed u p l
    exact ⟨_, hex, rfl, hport, hmem⟩
  · rw [if_pos hh, show laneStripe (u.rd (preg p 0x10C)) (u.txLanes p) l = some k from hk] at hex
    simp only [show (List.range 9).find? (fun y => (laneStripe (u.rd (preg p 0x10C)) (u.txLanes p) y).isNone && !(u.port p).named.contains y) = some y
      from hy] at hex
    obtain ⟨-, -, hport, -⟩ := sendLsw_port u p (setFld m (4 * k + 3) (4 * k) y) n
    obtain ⟨hmap, -, -⟩ := sendLsw_regs u p (setFld m (4 * k + 3) (4 * k) y) n
    obtain ⟨q, hq⟩ := sendLsw_outbox u p (setFld m (4 * k + 3) (4 * k) y) n hm
    obtain ⟨v, hv⟩ : ∃ v, v = u.sendLsw p (setFld m (4 * k + 3) (4 * k) y) n := ⟨_, rfl⟩
    rw [← hv] at hport hmap hq
    rw [show u.sendLsw p (setFld (u.rd (preg p 0x10C)) (4 * k + 3) (4 * k) y) (u.txLanes p) = v from hv.symm] at hex
    clear hv
    have hr := raised_raise p v 2
    obtain ⟨q', hq'⟩ := outbox_raise v (portPage p) 2
    have h2 := rdB_raise_self v (portPage p) 2 (by decide)
    generalize v.raise (portPage p) 2 = w at *
    have hw := port_of_raised hr p
    refine ⟨{ w with pending := s.pending }, q ++ q', hex, (hr.2 _ (by decide)).trans hmap, h2,
      (congrArg Port.lsw hw).trans (by rw [hport]), (congrArg Port.named hw).trans (by rw [hport]), ?_⟩
    show w.outbox = _
    rw [hq', hq, List.append_assoc]
    rfl
  · rw [if_pos hh, show laneStripe (u.rd (preg p 0x10C)) (u.txLanes p) l = some k from hk] at hex
    simp only [show (List.range 9).find? (fun y => (laneStripe (u.rd (preg p 0x10C)) (u.txLanes p) y).isNone && !(u.port p).named.contains y) = none
      from hy] at hex
    rw [show (((List.range (u.txLanes p)).map (mapLane (u.rd (preg p 0x10C)))).filter (fun y => y != l && !(u.port p).named.contains y)).take 4 = ls
      from hls.symm, if_neg (by omega)] at hex
    obtain ⟨-, hmem⟩ := port_notUsed u p l
    obtain ⟨-, -, hport, -⟩ := sendLsw_port (u.notUsed p l) p (lanesMap ls) 4
    obtain ⟨hmap, -, -⟩ := sendLsw_regs (u.notUsed p l) p (lanesMap ls) 4
    generalize (u.notUsed p l).sendLsw p (lanesMap ls) 4 = v at *
    have hr := raised_raise p v 3
    have h3 := rdB_raise_self v (portPage p) 3 (by decide)
    generalize v.raise (portPage p) 3 = w at *
    have hw := port_of_raised hr p
    refine ⟨{ w with pending := s.pending }, hex, (hr.2 _ (by decide)).trans hmap, (congrArg Port.txHalf hw).trans ?_, ?_, h3⟩
    · rw [hport, hh]; rfl
    · show l ∈ (w.port p).named
      rw [hw, hport]
      exact hmem

/-- Settles O18, clause by clause. -/
theorem laneCommands : Obligations.LaneCommands :=
  ⟨markers_sent, markers_not_due, marker_ignored, marker_moves, marker_good, marker_lost, error_window, lane_switch, lane_switch_dead, recal_command,
    recal_auto, recal_auto_not_due, adapt_done, recal_request⟩

end Sys2Proof.Proofs

end

section
/-! PROOFS. Streams: issue, contexts, slots, completion and prefetch (O3). -/
namespace Sys2Proof.Machine
open Sys2Proof

theorem nodup_eraseDups : ∀ (l : List Nat), l.eraseDups.Nodup
  | [] => List.nodup_nil
  | a :: as => by
    rw [List.eraseDups_cons]
    refine List.nodup_cons.2 ⟨fun h => ?_, nodup_eraseDups _⟩
    simpa using (List.mem_filter.1 (List.mem_eraseDups.1 h)).2
termination_by l => l.length
decreasing_by exact Nat.lt_succ_of_le (List.length_filter_le _ _)

theorem nodup_slotsOf (d : StreamDesc) : (slotsOf d).Nodup :=
  List.nodup_range.map fun _ _ h => Nat.add_left_cancel h

theorem nodup_slotsAll (d : StreamDesc) : (slotsAll d).Nodup := nodup_eraseDups _

/-- A stream that feeds the direct port takes part in no slot of an engine. -/
theorem not_covers_direct {d : StreamDesc} (h : SD.direct d = true) (e k : Nat) : ¬Covers d e k :=
  fun hc => by simp [hc.1] at h

namespace State

/-! ### Slots -/

theorem engine_engineSet (s : State) (e i : Nat) (g : Eng) : (s.engineSet e g).engine i = if i = e then g else s.engine i := by
  rw [engine, engineSet, Map.get, Map.get?_set]
  split <;> rfl

theorem slot_slotSet (s : State) (e k e' k' : Nat) (v : Slot) :
    (s.slotSet e k v).slot e' k' = if e' = e ∧ k' = k then v else s.slot e' k' := by
  rw [slot, slotSet, engine_engineSet]
  by_cases he : e' = e
  · subst he
    rw [if_pos rfl, Map.get_put]
    simp only [true_and]
    rfl
  · rw [if_neg he, if_neg fun h => he h.1]
    rfl

/-- Slots of engines change, and nothing else (R87). -/
def SlotsOnly (s t : State) : Prop :=
  t = { s with eng := t.eng } ∧ ∀ e, t.engine e = { s.engine e with slots := (t.engine e).slots }

theorem slotsOnly_refl (s : State) : SlotsOnly s s := ⟨rfl, fun _ => rfl⟩

theorem slotsOnly_trans (s t u : State) (h : SlotsOnly s t) (h' : SlotsOnly t u) : SlotsOnly s u :=
  ⟨by rw [h'.1, h.1], fun e => by rw [h'.2, h.2]⟩

theorem slotsOnly_slotSet (s : State) (e k : Nat) (v : Slot) : SlotsOnly s (s.slotSet e k v) := by
  refine ⟨rfl, fun i => ?_⟩
  rw [slotSet, engine_engineSet]
  split
  · subst_vars; rfl
  · rfl

theorem slotsOnly_slotState (s : State) (e k : Nat) (st : SlotSt) : SlotsOnly s (s.slotState e k st) := slotsOnly_slotSet ..

theorem SlotsOnly.bank {s t : State} (h : SlotsOnly s t) (e b : Nat) : t.bank e b = s.bank e b := by
  rw [State.bank, State.bank, h.2 e]

/-- An action on one slot address: it makes of an engine's slot what `g` says, and does nothing to another slot (R72, R87). -/
def SlotAct (f : State → Nat → State) (g : Slot → Slot) : Prop :=
  ∀ s sl, SlotsOnly s (f s sl) ∧
    ∀ e k, (f s sl).slot e k = if k < 64 ∧ e * 64 + k < 0x20000 ∧ e * 64 + k = sl then g (s.slot e k) else s.slot e k

/-- The engine and the slot of a slot address. -/
theorem slotAddr_iff (e k sl : Nat) : (k < 64 ∧ e * 64 + k = sl) ↔ (e = sl / 64 ∧ k = sl % 64) := by
  constructor
  · rintro ⟨hk, rfl⟩; omega
  · rintro ⟨rfl, rfl⟩; omega

/-- An action that sets an engine's slot. -/
theorem slotAct_set {f : State → Nat → State} {g : Slot → Slot} (hout : ∀ s sl, 0x20000 ≤ sl → f s sl = s)
    (hin : ∀ s sl, sl < 0x20000 → f s sl = s.slotSet (sl / 64) (sl % 64) (g (s.slot (sl / 64) (sl % 64))) ∨
      f s sl = s ∧ g (s.slot (sl / 64) (sl % 64)) = s.slot (sl / 64) (sl % 64)) : SlotAct f g := by
  intro s sl
  by_cases hs : 0x20000 ≤ sl
  · rw [hout s sl hs]
    exact ⟨slotsOnly_refl s, fun e k => by rw [if_neg (by omega)]⟩
  · have hat : ∀ e k, (k < 64 ∧ e * 64 + k < 0x20000 ∧ e * 64 + k = sl) ↔ (e = sl / 64 ∧ k = sl % 64) := fun e k => by
      rw [← slotAddr_iff]; omega
    rcases hin s sl (by omega) with hf | ⟨hf, hg⟩ <;> rw [hf]
    · refine ⟨slotsOnly_slotSet .., fun e k => ?_⟩
      rw [slot_slotSet]
      simp only [hat]
      split
      · rename_i h; rw [h.1, h.2]
      · rfl
    · refine ⟨slotsOnly_refl s, fun e k => ?_⟩
      split
      · rename_i h; rw [((hat e k).1 h).1, ((hat e k).1 h).2, hg]
      · rfl

/-- An action on each of several slot addresses. -/
theorem slotAct_foldl {f : State → Nat → State} {g : Slot → Slot} (h : SlotAct f g) :
    ∀ {l : List Nat} (_ : l.Nodup) (s : State), SlotsOnly s (l.foldl f s) ∧
      ∀ e k, (l.foldl f s).slot e k = if k < 64 ∧ e * 64 + k < 0x20000 ∧ e * 64 + k ∈ l then g (s.slot e k) else s.slot e k
  | [], _, s => ⟨slotsOnly_refl s, fun e k => by simp⟩
  | sl :: l, hl, s => by
    obtain ⟨hnot, hl⟩ := List.nodup_cons.1 hl
    obtain ⟨h1, h2⟩ := slotAct_foldl h hl (f s sl)
    refine ⟨slotsOnly_trans _ _ _ (h s sl).1 h1, fun e k => ?_⟩
    rw [List.foldl_cons, h2, (h s sl).2]
    by_cases he : e * 64 + k = sl
    · have : e * 64 + k ∉ l := he ▸ hnot
      simp [he, hnot]
    · simp [he]

/-- A stream's issue to a slot (R87). -/
theorem slotAct_issue (n : Nat) (spill : Bool) : SlotAct (issueSlot n spill) (slotTaken n spill) := by
  refine slotAct_set (fun s sl h => by rw [issueSlot, if_pos h]) fun s sl h => ?_
  rw [issueSlot, if_neg (by omega), slotTaken]
  simp only
  split <;> split
  · exact .inl rfl
  · exact .inr ⟨rfl, rfl⟩
  · exact .inl rfl
  · exact .inl rfl

/-- A slot as it stands when what was held on it starts (R87). -/
def slotStarted (q : HeldReq) (spill : Bool) (v : Slot) : Slot :=
  if v.held.contains q then ⟨if spill then v.st else .fill, v.held.erase q⟩ else v

theorem slotAct_unhold (q : HeldReq) (spill : Bool) : SlotAct (unhold q spill) (slotStarted q spill) := by
  refine slotAct_set (fun s sl h => by rw [unhold, if_pos h]) fun s sl h => ?_
  rw [unhold, if_neg (by omega), slotStarted]
  simp only
  split
  · exact .inl rfl
  · exact .inr ⟨rfl, rfl⟩

/-- A slot filled (R85, R87). -/
def slotFilled (v : Slot) : Slot := { v with st := .full }

theorem slotAct_full : SlotAct (fun t sl => if 0x20000 ≤ sl then t else t.slotState (sl / 64) (sl % 64) .full) slotFilled := by
  refine slotAct_set (fun s sl h => if_pos h) fun s sl h => .inl ?_
  have hn : ¬0x20000 ≤ sl := by omega
  exact if_neg hn

theorem slotsFull_spec {l : List Nat} (hl : l.Nodup) (s : State) : SlotsOnly s (s.slotsFull l) ∧
    ∀ e k, (s.slotsFull l).slot e k =
      if k < 64 ∧ e * 64 + k < 0x20000 ∧ e * 64 + k ∈ l then slotFilled (s.slot e k) else s.slot e k :=
  slotAct_foldl slotAct_full hl s

/-! ### Reads that begin -/

/-- A read of the unified range begins, and nothing else happens (R156, R157, R165, R173, R174). -/
def Reads (s t : State) : Prop := t = { s with ms := t.ms, regs := t.regs } ∧ ReadFrame s t []

theorem reads_refl (s : State) : Reads s s := ⟨rfl, rfl, fun _ _ _ => rfl⟩

theorem reads_trans (s t u : State) (h : Reads s t) (h' : Reads t u) : Reads s u := by
  obtain ⟨hf, hm, hr⟩ := h
  obtain ⟨hf', hm', hr'⟩ := h'
  exact ⟨by rw [hf', hf], by rw [hm', hm], fun a ha hk => (hr' a ha hk).trans (hr a ha hk)⟩

/-- What changes the memory system's part of a read alone is one. -/
theorem reads_of_ms {s t : State} (h : t = { s with ms := t.ms })
    (hm : t.ms = { s.ms with reads := t.ms.reads, frames := t.ms.frames, own := t.ms.own, asks := t.ms.asks }) : Reads s t :=
  ⟨by rw [h], hm, fun a _ _ => rd_congr (by rw [h]) a⟩

theorem reads_flashRead (s : State) (n : Nat) (b : RdFor) : Reads s (s.flashRead n b) := by
  unfold flashRead
  split
  · exact reads_of_ms rfl rfl
  · exact reads_refl s

theorem reads_touch (s : State) (n : Nat) : Reads s (s.touch n) :=
  reads_of_ms (by rw [touch_frame]) (by rw [touch_frame])

theorem reads_fillTouch (s : State) (n : Nat) : Reads s (s.fillTouch n) := by
  by_cases h : (s.tile n).st = .flash
  · exact reads_of_ms (by rw [fillTouch_flash h]) (by rw [fillTouch_flash h])
  · rw [fillTouch, if_neg h]
    exact reads_touch s n

theorem reads_countDram (s : State) (a n : Nat) : Reads s (s.countDram false a n) := by
  obtain ⟨hf, hr⟩ := countDram_counts s false a n
  exact ⟨by rw [hf], by rw [hf], fun b _ hk => hr b hk⟩

theorem reads_readTiles (s : State) (rs : List (Nat × Nat)) (b : RdFor) : Reads s (s.readTiles rs b) := by
  refine reads_trans _ _ _ (foldl_rel reads_refl reads_trans (fun u n _ => ?_) s)
    (foldl_rel reads_refl reads_trans (fun u r _ => reads_countDram u r.1 r.2) _)
  exact reads_trans _ _ _ (reads_flashRead u n b) (reads_fillTouch _ n)

/-! ### Streams that move on -/

/-- Whether a stream is held depends on its descriptor and on slots. -/
theorem strmHeld_eq {s : State} {n : Nat} {x : Strm} (h : Map.get? s.strm n = some x) :
    s.strmHeld n = (!SD.direct x.desc &&
      (slotsAll x.desc).any (fun sl => decide (sl < 0x20000) && (s.slot (sl / 64) (sl % 64)).held.contains (.strm n))) := by
  rw [strmHeld, h]

theorem strmHeld_congr {s t : State} {n : Nat} {x y : Strm} (hs : Map.get? s.strm n = some x) (ht : Map.get? t.strm n = some y)
    (hd : y.desc = x.desc) (he : t.eng = s.eng) : t.strmHeld n = s.strmHeld n := by
  rw [strmHeld_eq hs, strmHeld_eq ht, hd]
  simp only [slot, engine, he]

theorem get?_strmSet_self (s : State) (n : Nat) (x : Strm) : Map.get? (s.strmSet n x).strm n = some x := Map.get?_set_self ..

theorem get?_strmSet_ne (s : State) {n m : Nat} (x : Strm) (h : m ≠ n) : Map.get? (s.strmSet n x).strm m = Map.get? s.strm m :=
  Map.get?_set_ne _ _ h

/-- A stream past its waits (R87, R156): it is held on a slot, or runs, a fill that runs beginning to read. -/
theorem strmGo_spec {s : State} {n : Nat} {x y : Strm} (hy : Map.get? s.strm n = some y) (hd : y.desc = x.desc) :
    s.strmGo n x = { s with strm := (s.strmGo n x).strm, ms := (s.strmGo n x).ms, regs := (s.strmGo n x).regs } ∧
    (s.strmGo n x).strmHeld n = s.strmHeld n ∧
    Map.get? (s.strmGo n x).strm n = some { x with st := if s.strmHeld n then .waitSlot else .run } ∧
    (∀ m, m ≠ n → Map.get? (s.strmGo n x).strm m = Map.get? s.strm m) ∧ ReadFrame s (s.strmGo n x) [] ∧
    ((s.strmHeld n = true ∨ SD.spill x.desc = true) → (s.strmGo n x).ms = s.ms ∧ (s.strmGo n x).regs = s.regs) := by
  have hset : ∀ z : Strm, z.desc = x.desc → (s.strmSet n z).strmHeld n = s.strmHeld n := fun z hz =>
    strmHeld_congr hy (get?_strmSet_self s n z) (hz.trans hd.symm) rfl
  unfold strmGo
  by_cases hh : s.strmHeld n = true
  · simp only [hh, if_true]
    exact ⟨rfl, (hset { x with st := .waitSlot } rfl).trans hh, get?_strmSet_self .., fun m hm => get?_strmSet_ne s _ hm, (reads_refl s).2, fun _ => ⟨rfl, rfl⟩⟩
  · simp only [hh, if_false, Bool.false_eq_true]
    by_cases hsp : SD.spill x.desc = true
    · rw [if_pos hsp]
      exact ⟨rfl, by rw [hset { x with st := .run } rfl, Bool.eq_false_iff.2 hh], get?_strmSet_self .., fun m hm => get?_strmSet_ne s _ hm, (reads_refl s).2, fun _ => ⟨rfl, rfl⟩⟩
    · rw [if_neg hsp]
      obtain ⟨v, hv⟩ : ∃ v, v = s.strmSet n { x with st := .run } := ⟨_, rfl⟩
      rw [← hv]
      obtain ⟨hf, hm, hr⟩ := reads_readTiles v (v.fillReads x.desc) (.strm n)
      obtain ⟨t, ht⟩ : ∃ t, t = v.readTiles (v.fillReads x.desc) (.strm n) := ⟨_, rfl⟩
      rw [← ht] at hf hm hr ⊢
      have hstrm : t.strm = (s.strmSet n { x with st := .run }).strm := by rw [hf, hv]
      have hself : Map.get? t.strm n = some { x with st := .run } := by rw [hstrm]; exact get?_strmSet_self ..
      have heng : t.eng = s.eng := by rw [hf, hv]; rfl
      refine ⟨by rw [hf, hv]; rfl, ?_, hself, fun m hm => by rw [hstrm]; exact get?_strmSet_ne s _ hm,
        ⟨by rw [hm, hv]; rfl, fun a ha hk => (hr a ha hk).trans (by rw [hv]; rfl)⟩, fun h => absurd h (by simp [hsp])⟩
      rw [strmHeld_congr hy hself hd.symm heng, Bool.eq_false_iff.2 hh]

/-! ### A stream takes a context -/

/-- A stream's slots, reserved or holding it (R87). -/
def slotsTaken (s : State) (n : Nat) (d : StreamDesc) : State :=
  if SD.direct d then s else (slotsAll d).foldl (issueSlot n (SD.spill d)) s

theorem slotsTaken_spec (s : State) (n : Nat) (d : StreamDesc) : SlotsOnly s (s.slotsTaken n d) ∧
    (∀ e k, Covers d e k → (s.slotsTaken n d).slot e k = slotTaken n (SD.spill d) (s.slot e k)) ∧
    ∀ e k, ¬Covers d e k → (s.slotsTaken n d).slot e k = s.slot e k := by
  unfold slotsTaken
  split
  · rename_i h
    exact ⟨slotsOnly_refl s, fun e k hc => absurd hc (not_covers_direct h e k), fun _ _ _ => rfl⟩
  · rename_i h
    obtain ⟨ho, hs⟩ := slotAct_foldl (slotAct_issue n (SD.spill d)) (nodup_slotsAll d) s
    refine ⟨ho, fun e k hc => ?_, fun e k hc => ?_⟩
    · rw [hs, if_pos hc.2]
    · rw [hs, if_neg fun hm => hc ⟨Bool.eq_false_iff.2 h, hm⟩]

theorem takeContext_eq (s : State) (n : Nat) (x : Strm) : s.takeContext n x =
    (let v := (s.strmSet n { x with st := .run }).slotsTaken n x.desc
     if SD.waitEn x.desc then
      { v.strmSet n { x with st := .waitCtr } with
        waiters := Map.set v.waiters (SD.waitCtr x.desc) (Map.get v.waiters [] (SD.waitCtr x.desc) ++ [n]) }
     else v.strmGo n x) := rfl

theorem takeContext_took (s : State) (n : Nat) (x : Strm) : TookContext s (s.takeContext n x) n x := by
  rw [takeContext_eq]
  obtain ⟨v, hv⟩ : ∃ v, v = (s.strmSet n { x with st := .run }).slotsTaken n x.desc := ⟨_, rfl⟩
  obtain ⟨⟨hf, -⟩, htaken, hother⟩ := slotsTaken_spec (s.strmSet n { x with st := .run }) n x.desc
  rw [← hv] at hf htaken hother ⊢
  clear hv
  have hv : v = { s with strm := v.strm, eng := v.eng } := by rw [hf]; rfl
  have hstrm : v.strm = (s.strmSet n { x with st := .run }).strm := by rw [hf]
  have hself : Map.get? v.strm n = some { x with st := .run } := by rw [hstrm]; exact get?_strmSet_self ..
  have hne : ∀ m, m ≠ n → Map.get? v.strm m = Map.get? s.strm m := fun m hm => by rw [hstrm]; exact get?_strmSet_ne s _ hm
  have hw : v.waiters = s.waiters := by rw [hf]; rfl
  have hms : v.ms = s.ms := by rw [hf]; rfl
  have hregs : v.regs = s.regs := by rw [hf]; rfl
  clear hf hstrm
  simp only
  by_cases hen : SD.waitEn x.desc = true
  · rw [if_pos hen]
    refine ⟨by rw [hv]; rfl, ?_, fun m hm => (get?_strmSet_ne v _ hm).trans (hne m hm), fun c => ?_, htaken, hother,
      ⟨by rw [← hms]; rfl, fun a _ _ => rd_congr hregs a⟩, fun _ => ⟨hms, hregs⟩⟩
    · rw [if_pos hen]; exact get?_strmSet_self ..
    · rw [hw, Map.get, Map.get?_set]
      by_cases hc : c = SD.waitCtr x.desc
      · subst hc; simp [hen]
      · simp [hc, Map.get]
  · rw [if_neg hen]
    obtain ⟨hf, hheld, hgs, hgn, hr, hk⟩ := strmGo_spec (x := x) hself rfl
    obtain ⟨t, ht⟩ : ∃ t, t = v.strmGo n x := ⟨_, rfl⟩
    rw [← ht] at hf hheld hgs hgn hr hk ⊢
    have heng : t.eng = v.eng := by rw [hf]
    have hslot : ∀ e k, t.slot e k = v.slot e k := fun e k => by rw [slot, slot, engine, engine, heng]
    refine ⟨by rw [hf, hv], by rw [hgs, hheld, if_neg hen], fun m hm => (hgn m hm).trans (hne m hm), fun c => ?_,
      fun e k hc => (hslot e k).trans (htaken e k hc), fun e k hc => (hslot e k).trans (hother e k hc),
      ⟨by rw [hr.1, hms], fun a ha hb => (hr.2 a ha hb).trans (rd_congr hregs a)⟩, fun h => ?_⟩
    · rw [show t.waiters = v.waiters by rw [hf], hw, if_neg (by simp [hen])]
    · obtain ⟨hm, hg⟩ := hk (by rw [← hheld]; simpa [hen] using h)
      exact ⟨hm.trans hms, hg.trans hregs⟩

theorem tookContext_pending {s t : State} {n : Nat} {x : Strm} (h : TookContext s t n x) : t.pending = s.pending := by
  rw [h.1]

/-! ### What an issue comes to (R82, R83) -/

/-- The stream a descriptor makes. -/
def newStrm (e h : Nat) (d : StreamDesc) : Strm := ⟨e / 4, e, h, d, .noContext, 0, false⟩

theorem issueStream_passed {s : State} {e h : Nat} {d : StreamDesc} {o : RunOp} (ho : s.op? h = some o)
    (hc : s.streamCheck o e d = 0) (hd : s.spillDeny o d = none) : s.issueStream e h d =
    if s.ctxUsed (e / 4) < 16 && (s.heldDesc (e / 4)).isNone then s.takeContext (Map.nextKey s.strm) (newStrm e h d)
    else s.strmSet (Map.nextKey s.strm) (newStrm e h d) := by
  simp only [issueStream, ho, hc, hd, ne_eq, not_true_eq_false, if_false]
  rfl

theorem issueStream_takes {s : State} {e h : Nat} {d : StreamDesc} {o : RunOp} (ho : s.op? h = some o)
    (hc : s.streamCheck o e d = 0) (hd : s.spillDeny o d = none) (hfree : s.ctxUsed (e / 4) < 16)
    (hnone : s.heldDesc (e / 4) = none) : s.issueStream e h d = s.takeContext (Map.nextKey s.strm) (newStrm e h d) := by
  rw [issueStream_passed ho hc hd, if_pos (by simp [hfree, hnone])]

theorem issueStream_refused {s : State} {e h : Nat} {d : StreamDesc} {o : RunOp} (ho : s.op? h = some o)
    (hc : s.streamCheck o e d ≠ 0) : s.issueStream e h d =
    (s.opFailOn h e 2 (BitVec.ofNat 8 (s.streamCheck o e d))).strmRefused (e / 4) o (s.streamCheck o e d) := by
  simp only [issueStream, ho, if_pos hc]

theorem issueStream_denied {s : State} {e h a c dt : Nat} {d : StreamDesc} {o : RunOp} (ho : s.op? h = some o)
    (hc : s.streamCheck o e d = 0) (hd : s.spillDeny o d = some (a, c, dt)) : s.issueStream e h d =
    s.opFaultIn h e (BitVec.ofNat 8 c) (BitVec.ofNat 8 dt) a e (SD.slot d) := by
  simp only [issueStream, ho, hc, hd, ne_eq, not_true_eq_false, if_false]

/-- A refusal is latched in CORE_STRM_ERR (R82, R101, R470). -/
theorem strmRefused_spec (s : State) (c : Nat) (o : RunOp) (code : Nat) :
    s.strmRefused c o code = { s with regs := (s.strmRefused c o code).regs } ∧
    RegsKept s (s.strmRefused c o code) [R.CORE_STRM_ERR c] ∧
    (s.strmRefused c o code).rd (R.CORE_STRM_ERR c) = if s.rdB (R.CORE_STRM_ERR c) 31 then s.rd (R.CORE_STRM_ERR c) ||| 0x40000000
      else BitVec.ofNat 32 (0x80000000 + fld o.cmd.seq 13 0 * 256 + code) := by
  unfold strmRefused
  simp only
  split
  · exact ⟨rfl, kept_wr s _ _, rd_wr_self ..⟩
  · exact ⟨rfl, kept_wr s _ _, rd_wr_self ..⟩

/-- The first CODE of an operator stands (R120). -/
theorem opFailOn_first {s : State} {h : Nat} {o : RunOp} (u : Nat) (code detail : Byte) (ho : s.op? h = some o) (hc : o.code = 0) :
    s.opFailOn h u code detail = s.opSet h { o with code := code, detail := detail, failUnit := u } := by
  simp only [opFailOn, ho, if_pos (Or.inl hc : o.code = 0 ∨ u < o.failUnit)]

end State

end Sys2Proof.Machine

namespace Sys2Proof.Proofs
open Sys2Proof Sys2Proof.Machine Sys2Proof.Machine.State

theorem exec_streamIssue {s t : State} {e h : Nat} {d : StreamDesc} (he : e < 1536) (ht : s.issueStream e h d = t)
    (hp : t.pending = s.pending) : exec (.streamIssue e h d) s = .next t := by
  show execStreamIssue e h d s = _
  rw [execStreamIssue, if_pos he, ht, keepQueue_of_pending hp]

theorem issue_takes (s : State) (e h : Nat) (d : StreamDesc) (o : RunOp) (he : e < 1536) (ho : s.op? h = some o)
    (hc : s.streamCheck o e d = 0) (hd : s.spillDeny o d = none) (hfree : s.ctxUsed (e / 4) < 16) (hnone : s.heldDesc (e / 4) = none) :
    ∃ t, exec (.streamIssue e h d) s = .next t ∧ TookContext s t (Map.nextKey s.strm) ⟨e / 4, e, h, d, .noContext, 0, false⟩ := by
  have ht := takeContext_took s (Map.nextKey s.strm) (newStrm e h d)
  exact ⟨_, exec_streamIssue he (issueStream_takes ho hc hd hfree hnone) (tookContext_pending ht), ht⟩

theorem issue_waits (s : State) (e h : Nat) (d : StreamDesc) (o : RunOp) (he : e < 1536) (ho : s.op? h = some o)
    (hc : s.streamCheck o e d = 0) (hd : s.spillDeny o d = none) (hw : 16 ≤ s.ctxUsed (e / 4) ∨ s.heldDesc (e / 4) ≠ none) :
    ∃ t, exec (.streamIssue e h d) s = .next t ∧ t = { s with strm := t.strm } ∧
      Map.get? t.strm (Map.nextKey s.strm) = some ⟨e / 4, e, h, d, .noContext, 0, false⟩ ∧
      ∀ m, m ≠ Map.nextKey s.strm → Map.get? t.strm m = Map.get? s.strm m := by
  have hno : ¬(s.ctxUsed (e / 4) < 16 && (s.heldDesc (e / 4)).isNone) = true := by
    simp only [Bool.and_eq_true, decide_eq_true_eq, Option.isNone_iff_eq_none, not_and]
    exact fun hlt => hw.resolve_left (by omega)
  exact ⟨_, exec_streamIssue he ((issueStream_passed ho hc hd).trans (if_neg hno)) rfl, rfl, get?_strmSet_self ..,
    fun m hm => get?_strmSet_ne s _ hm⟩

theorem issue_refused (s : State) (e h : Nat) (d : StreamDesc) (o : RunOp) (he : e < 1536) (ho : s.op? h = some o)
    (hc : s.streamCheck o e d ≠ 0) (h0 : o.code = 0) :
    ∃ t, exec (.streamIssue e h d) s = .next t ∧ t = { s with ops := t.ops, regs := t.regs } ∧
      RegsKept s t [R.CORE_STRM_ERR (e / 4)] ∧
      t.rd (R.CORE_STRM_ERR (e / 4)) = (if s.rdB (R.CORE_STRM_ERR (e / 4)) 31 then s.rd (R.CORE_STRM_ERR (e / 4)) ||| 0x40000000
        else BitVec.ofNat 32 (0x80000000 + fld o.cmd.seq 13 0 * 256 + s.streamCheck o e d)) ∧
      t.op? h = some { o with code := 2, detail := BitVec.ofNat 8 (s.streamCheck o e d), failUnit := e } ∧
      ∀ k, k ≠ h → t.op? k = s.op? k := by
  have hi := issueStream_refused ho hc
  rw [opFailOn_first e 2 _ ho h0] at hi
  obtain ⟨hf, hk, hr⟩ := strmRefused_spec (s.opSet h { o with code := 2, detail := BitVec.ofNat 8 (s.streamCheck o e d), failUnit := e })
    (e / 4) o (s.streamCheck o e d)
  refine ⟨_, exec_streamIssue he hi (by rw [hf]; rfl), by rw [hf]; rfl, hk, hr, ?_, fun k hk => ?_⟩
  · rw [hf]; exact op?_opSet_self ..
  · rw [hf]; exact op?_opSet_ne _ _ hk

theorem issue_denied (s : State) (e h a c dt : Nat) (d : StreamDesc) (o : RunOp) (he : e < 1536) (ho : s.op? h = some o)
    (hc : s.streamCheck o e d = 0) (hd : s.spillDeny o d = some (a, c, dt)) (h0 : o.code = 0) :
    ∃ t q, exec (.streamIssue e h d) s = .next t ∧ t = { s with ops := t.ops } ∧ t.op? h = some q ∧ q.code = BitVec.ofNat 8 c ∧
      q.detail = BitVec.ofNat 8 dt ∧ q.faultAddr = BitVec.ofNat 64 (s.globalAddr a) ∧ q.faultCnt = satAdd32 o.faultCnt 1 ∧
      ∀ k, k ≠ h → t.op? k = s.op? k := by
  have hi := issueStream_denied ho hc hd
  simp only [opFaultIn, ho, if_pos (Or.inl h0 : o.code = 0 ∨ e < o.failUnit)] at hi
  exact ⟨_, _, exec_streamIssue he hi rfl, rfl, op?_opSet_self .., rfl, rfl, rfl, rfl, fun k hk => op?_opSet_ne _ _ hk⟩

theorem context_freed (s : State) (c n : Nat) (x : Strm) (hfree : s.ctxUsed c < 16) (hh : s.heldDesc c = some (n, x)) :
    ∃ t, exec (.streamContextFree c) s = .next t ∧ TookContext s t n x := by
  have ht := takeContext_took s n x
  refine ⟨_, ?_, ht⟩
  show execStreamContextFree c s = _
  rw [execStreamContextFree, if_pos hfree, hh]
  exact keepQueue_of_pending (tookContext_pending ht)

theorem fill_starts (s : State) (n : Nat) (x : Strm) (hx : Map.get? s.strm n = some x) (hst : x.st = .waitSlot)
    (hr : (slotsAll x.desc).all (s.headReady (.strm n) (SD.spill x.desc)) = true) :
    ∃ t, exec (.fillStart (.strm n)) s = .next t ∧ t = { s with strm := t.strm, eng := t.eng, ms := t.ms, regs := t.regs } ∧
      Map.get? t.strm n = some { x with st := if t.strmHeld n then .waitSlot else .run } ∧
      (∀ m, m ≠ n → Map.get? t.strm m = Map.get? s.strm m) ∧ ReadFrame s t [] ∧
      ∀ e k, t.slot e k = (if k < 64 ∧ e * 64 + k < 0x20000 ∧ e * 64 + k ∈ slotsAll x.desc ∧ HeldReq.strm n ∈ (s.slot e k).held
        then ⟨if SD.spill x.desc then (s.slot e k).st else .fill, (s.slot e k).held.erase (.strm n)⟩ else s.slot e k) := by
  obtain ⟨v, hv⟩ : ∃ v, v = (slotsAll x.desc).foldl (State.unhold (.strm n) (SD.spill x.desc)) s := ⟨_, rfl⟩
  obtain ⟨⟨hvf, -⟩, hslot⟩ := slotAct_foldl (slotAct_unhold (.strm n) (SD.spill x.desc)) (nodup_slotsAll x.desc) s
  rw [← hv] at hvf hslot
  obtain ⟨hf, hheld, hgs, hgn, hread, -⟩ := strmGo_spec (s := v) (n := n) (x := x) (y := x) (by rw [hvf]; exact hx) rfl
  have hex : exec (.fillStart (.strm n)) s = keepQueue s (.next (v.strmGo n x)) := by
    show execFillStart (.strm n) s = _
    simp only [execFillStart, hx, hst, hr, and_self, if_true, hv]
  obtain ⟨t, ht⟩ : ∃ t, t = v.strmGo n x := ⟨_, rfl⟩
  rw [← ht] at hf hheld hgs hgn hread hex
  rw [keepQueue_of_pending (by rw [hf, hvf])] at hex
  refine ⟨t, hex, by rw [hf, hvf], by rw [hgs, hheld], fun m hm => by rw [hgn m hm, hvf],
    ⟨by rw [hread.1, hvf], fun a ha hk => (hread.2 a ha hk).trans (rd_congr (by rw [hvf]) a)⟩, fun e k => ?_⟩
  rw [slot, engine, show t.eng = v.eng by rw [hf]]
  refine (hslot e k).trans ?_
  simp only [slotStarted, List.contains_iff_mem, ← and_assoc]
  by_cases hin : (k < 64 ∧ e * 64 + k < 0x20000) ∧ e * 64 + k ∈ slotsAll x.desc
  · simp only [hin, true_and, if_true]
  · simp only [hin, false_and, if_false]

theorem exec_nextOpPrefetch {s : State} {e h : Nat} {k : Task} {ds : List StreamDesc} (hrun : (s.engine e).run = some k) (he : e < 1536)
    (hpf : s.rdF (R.CORE_STRM_CTL (e / 4)) 3 0 ≠ 0) (hpos : k.pos ≠ 0) (hleft : k.left ≤ s.rdF (R.CORE_STRM_CTL (e / 4)) 3 0)
    (hq : State.firstPrio s.opPrio ((s.queuedOn e).filter (· != k.op)) = some h) :
    exec (.nextOpPrefetch e h ds) s = keepQueue s (.next ((ds.filter (fun d => !SD.spill d && !SD.direct d &&
      (slotsAll d).all (fun sl => decide (0x20000 ≤ sl) || (s.slot (sl / 64) (sl % 64)).st == .free ||
        (s.slot (sl / 64) (sl % 64)).st == .full))).foldl (fun t d => t.issueStream e h d) s)) := by
  show execNextOpPrefetch e h ds s = _
  simp only [execNextOpPrefetch, hrun]
  rw [if_pos ⟨he, hpf, hpos, hleft, hq⟩]

theorem prefetch_issues (s : State) (e h : Nat) (d : StreamDesc) (k : Task) (o : RunOp) (hrun : (s.engine e).run = some k) (he : e < 1536)
    (hpf : s.rdF (R.CORE_STRM_CTL (e / 4)) 3 0 ≠ 0) (hpos : k.pos ≠ 0) (hleft : k.left ≤ s.rdF (R.CORE_STRM_CTL (e / 4)) 3 0)
    (hq : State.firstPrio s.opPrio ((s.queuedOn e).filter (· != k.op)) = some h) (ho : s.op? h = some o)
    (hsp : SD.spill d = false) (hdir : SD.direct d = false)
    (hsl : ∀ sl ∈ slotsAll d, 0x20000 ≤ sl ∨ (s.slot (sl / 64) (sl % 64)).st = .free ∨ (s.slot (sl / 64) (sl % 64)).st = .full)
    (hc : s.streamCheck o e d = 0) (hfree : s.ctxUsed (e / 4) < 16) (hnone : s.heldDesc (e / 4) = none) :
    ∃ t, exec (.nextOpPrefetch e h [d]) s = .next t ∧
      TookContext s t (Map.nextKey s.strm) ⟨e / 4, e, h, d, .noContext, 0, false⟩ := by
  have ht := takeContext_took s (Map.nextKey s.strm) (newStrm e h d)
  have hd : s.spillDeny o d = none := by simp [spillDeny, hsp]
  refine ⟨_, ?_, ht⟩
  rw [exec_nextOpPrefetch hrun he hpf hpos hleft hq, List.filter_cons_of_pos, List.filter_nil, List.foldl_cons, List.foldl_nil,
    issueStream_takes ho hc hd hfree hnone, keepQueue_of_pending (tookContext_pending ht)]
  simpa [hsp, hdir, List.all_eq_true, or_assoc] using hsl

theorem prefetch_none (s : State) (e h : Nat) (ds : List StreamDesc)
    (hds : ∀ d ∈ ds, SD.spill d = true ∨ SD.direct d = true ∨ ∃ sl ∈ slotsAll d, sl < 0x20000 ∧
      (s.slot (sl / 64) (sl % 64)).st ≠ .free ∧ (s.slot (sl / 64) (sl % 64)).st ≠ .full) :
    exec (.nextOpPrefetch e h ds) s = .next s := by
  show execNextOpPrefetch e h ds s = _
  rw [execNextOpPrefetch]
  cases (s.engine e).run with
  | none => rfl
  | some k =>
    simp only
    split
    · rw [List.filter_eq_nil_iff.2]
      · rfl
      · intro d hd hall
        simp only [Bool.and_eq_true, Bool.not_eq_true', List.all_eq_true, Bool.or_eq_true, decide_eq_true_eq, beq_iff_eq] at hall
        obtain ⟨⟨hsp, hdir⟩, hall⟩ := hall
        rcases hds d hd with h | h | ⟨sl, hm, hlt, hfr, hfu⟩
        · simp [hsp] at h
        · simp [hdir] at h
        · rcases hall sl hm with (h | h) | h
          · omega
          · exact hfr h
          · exact hfu h
    · rfl

end Sys2Proof.Proofs

namespace Sys2Proof.Machine
open Sys2Proof

namespace State

/-! ### Bytes stored in SRAM -/

/-- Bytes and the marks of poison change, and no byte of those that `P` names (R54, R79). -/
def BytesKept (P : Nat → Prop) (s t : State) : Prop :=
  t = { s with mem := t.mem, ms := { s.ms with poison := t.ms.poison } } ∧ ∀ a, P a → Mem.get t.mem a = Mem.get s.mem a

theorem bytesKept_refl (P : Nat → Prop) (s : State) : BytesKept P s s := ⟨rfl, fun _ _ => rfl⟩

theorem bytesKept_trans {P : Nat → Prop} (s t u : State) (h : BytesKept P s t) (h' : BytesKept P t u) : BytesKept P s u :=
  ⟨by rw [h'.1, h.1], fun a ha => (h'.2 a ha).trans (h.2 a ha)⟩

theorem bytesKept_sramWrite {P : Nat → Prop} (s : State) {a : Nat} {bs : List Byte} (h : ∀ b, P b → b < a ∨ a + bs.length ≤ b) :
    BytesKept P s (s.sramWrite a bs) :=
  ⟨rfl, fun b hb => Mem.get_write_out _ _ _ _ (h b hb)⟩

theorem bytesKept_poisonAt (P : Nat → Prop) (s : State) (u : Nat) : BytesKept P s (s.poisonAt u) := ⟨rfl, fun _ _ => rfl⟩

theorem bytesKept_markUnits (P : Nat → Prop) (s : State) (a : Nat) (l : List Nat) : BytesKept P s (s.markUnits a l) :=
  foldl_rel (bytesKept_refl P) bytesKept_trans (fun u _ _ => bytesKept_poisonAt P u _) s

theorem bytesKept_congr {P : Nat → Prop} {s t : State} (h : BytesKept P s t) : t.pending = s.pending := by rw [h.1]

/-- A byte of the unified range. -/
def Unified (a : Nat) : Prop := a < uniEnd

/-- The SRAM window lies above the unified range (R72, R141). -/
theorem bytesKept_above (s : State) {a : Nat} (bs : List Byte) (h : sramBase ≤ a) : BytesKept Unified s (s.sramWrite a bs) := by
  refine bytesKept_sramWrite s fun b hb => .inl ?_
  simp only [Unified, uniEnd, sramBase] at hb h
  omega

theorem sramBase_le_slotAddr (sl : Nat) : sramBase ≤ slotAddr sl := Nat.le_add_right ..

theorem sramBase_le_valAddr (d : StreamDesc) (v : Nat) : sramBase ≤ valAddr d v := by
  unfold valAddr panelAddr
  simp only
  split <;> exact (sramBase_le_slotAddr _).trans (Nat.le_add_right ..)

theorem sramBase_le_scaleAddr (d : StreamDesc) (v : Nat) : sramBase ≤ scaleAddr d v := by
  unfold scaleAddr
  simp only
  split
  · simp only [Nat.add_assoc]
    exact (sramBase_le_slotAddr _).trans (Nat.le_add_right ..)
  · exact (sramBase_le_slotAddr _).trans (Nat.le_add_right ..)

/-! ### What a fill writes (R73, R79) -/

theorem bytesKept_valPut (d : StreamDesc) (s : State) (v c : Nat) : BytesKept Unified s (valPut d s v c) := by
  unfold valPut
  simp only
  split <;> exact bytesKept_above s _ (sramBase_le_valAddr d v)

theorem bytesKept_valsPut (d : StreamDesc) (s : State) (v : Nat) (cs : List Nat) (bad : Bool) : BytesKept Unified s (valsPut d s v cs bad) := by
  refine foldl_rel (bytesKept_refl _) bytesKept_trans (fun u p _ => ?_) s
  have h := bytesKept_valPut d u (v + p.1) p.2
  exact rel_ite (bytesKept_trans _ _ _ h (bytesKept_poisonAt ..)) h

theorem bytesKept_fillElem (d : StreamDesc) (acc : State × NumFlags) (n : Nat) : BytesKept Unified acc.1 (fillElem d acc n).1 := by
  unfold fillElem
  extract_lets s a mb raw bad x t v
  split
  · have h : BytesKept Unified acc.1 t := bytesKept_above s raw ((sramBase_le_slotAddr _).trans (Nat.le_add_right ..))
    exact rel_ite (bytesKept_trans _ _ _ h (bytesKept_markUnits ..)) h
  · split
    · rename_i f g _ _
      extract_lets ps u rs
      have hu : BytesKept Unified acc.1 u := bytesKept_valsPut ..
      split
      · refine rel_ite (bytesKept_trans _ _ _ hu ?_) hu
        exact foldl_rel (bytesKept_refl _) bytesKept_trans (fun u b _ => bytesKept_above u _ (sramBase_le_scaleAddr ..)) _
      · exact bytesKept_valsPut ..
    · exact bytesKept_refl _ _

theorem bytesKept_fillBlock (d : StreamDesc) (hi : Nat) (acc : State × NumFlags) (j : Nat) :
    BytesKept Unified acc.1 (fillBlock d hi acc j).1 := by
  unfold fillBlock
  simp only
  split
  · exact bytesKept_trans _ _ _ (bytesKept_valsPut ..) (bytesKept_above _ _ (sramBase_le_scaleAddr ..))
  · exact bytesKept_refl _ _

/-- A fold over a state and what goes with it relates its states. -/
theorem foldl_rel_fst {α β : Type} {R : State → State → Prop} (hrefl : ∀ s, R s s) (htrans : ∀ s t u, R s t → R t u → R s u)
    {f : State × β → α → State × β} (hf : ∀ acc x, R acc.1 (f acc x).1) : ∀ (l : List α) (acc : State × β), R acc.1 (l.foldl f acc).1
  | [], acc => hrefl acc.1
  | x :: l, acc => htrans _ _ _ (hf acc x) (foldl_rel_fst hrefl htrans hf l (f acc x))

theorem bytesKept_fillRun (s : State) (d : StreamDesc) (lo hi : Nat) : BytesKept Unified s (s.fillRun d lo hi).1 := by
  unfold fillRun
  split
  · exact foldl_rel_fst (bytesKept_refl _) bytesKept_trans (fun acc i => bytesKept_fillBlock d hi acc _) _ (s, fNone)
  · exact foldl_rel_fst (bytesKept_refl _) bytesKept_trans (fun acc i => bytesKept_fillElem d acc _) _ (s, fNone)

/-! ### A fill that moves its elements (R79) -/

/-- Flags join an operator's, and nothing else changes. -/
theorem opFlags_spec (s : State) (h : Nat) (f : NumFlags) : s.opFlags h f = { s with ops := (s.opFlags h f).ops } ∧
    (∀ o, s.op? h = some o → (s.opFlags h f).op? h = some { o with flags := o.flags ||| f }) ∧
    ∀ k, k ≠ h → (s.opFlags h f).op? k = s.op? k := by
  unfold opFlags
  cases ho : s.op? h with
  | none => exact ⟨rfl, fun o h => by simp at h, fun _ _ => rfl⟩
  | some o =>
    refine ⟨rfl, fun o' h' => ?_, fun k hk => op?_opSet_ne _ _ hk⟩
    cases h'
    exact op?_opSet_self ..

/-- Elements of a fill are moved (R79, R101): bytes of SRAM, the operator's flags and the core's count of bytes change. -/
structure Filled (s t : State) (x : Strm) : Prop where
  frame : t = { s with mem := t.mem, ms := { s.ms with poison := t.ms.poison }, ops := t.ops, regs := t.regs }
  bytes : ∀ a, a < uniEnd → Mem.get t.mem a = Mem.get s.mem a
  flags : ∀ o, s.op? x.op = some o → ∃ fl, t.op? x.op = some { o with flags := o.flags ||| fl }
  others : ∀ k, k ≠ x.op → t.op? k = s.op? k
  regs : RegsKept s t [R.CORE_FILL_BYTES_LO x.core, R.CORE_FILL_BYTES_LO x.core + 4]

theorem strmMove_fill (s : State) (n : Nat) (x : Strm) (lo hi : Nat) (hsp : SD.spill x.desc = false)
    (hdir : SD.direct x.desc = false) : Filled s (s.strmMove n x lo hi) x := by
  unfold strmMove
  simp only [hsp, hdir, Bool.false_eq_true, if_false]
  obtain ⟨p, hp⟩ : ∃ p, p = if SD.pad x.desc && x.done == 0 then
    s.sramWrite (slotAddr (SD.slot x.desc + slotCount x.desc - 1)) (List.replicate 65536 0) else s := ⟨_, rfl⟩
  have hpad : BytesKept Unified s p := hp ▸ rel_ite (bytesKept_above s _ (sramBase_le_slotAddr _)) (bytesKept_refl _ s)
  rw [← hp]
  clear hp
  obtain ⟨v, hv⟩ : ∃ v, v = p.fillRun x.desc lo hi := ⟨_, rfl⟩
  obtain ⟨hrun, hmem⟩ := bytesKept_trans _ _ _ hpad (bytesKept_fillRun p x.desc lo hi)
  rw [← hv] at hrun hmem ⊢
  clear hv
  obtain ⟨hof, hos, hoo⟩ := opFlags_spec v.1 x.op v.2
  obtain ⟨u, hu⟩ : ∃ u, u = v.1.opFlags x.op v.2 := ⟨_, rfl⟩
  rw [← hu] at hof hos hoo ⊢
  clear hu
  have hops : v.1.ops = s.ops := by rw [hrun]
  have hregs : u.regs = s.regs := by rw [hof, hrun]
  refine ⟨?_, fun a ha => ?_, fun o ho => ⟨v.2, hos o (by rw [op?, hops]; exact ho)⟩, fun k hk => (hoo k hk).trans ?_, fun a ha => ?_⟩
  · show ({ u with regs := _ } : State) = { s with mem := u.mem, ms := { s.ms with poison := u.ms.poison }, ops := u.ops, regs := _ }
    rw [hof, hrun]
    rfl
  · rw [show (u.add64 _ _).mem = u.mem from rfl, hof]
    exact hmem a ha
  · rw [op?, hops]; rfl
  · exact (add64_kept u _ _ a ha).trans (rd_congr hregs a)

/-! ### A stream ends (R91) -/

/-- A stream ends or waits for its writes, and nothing else changes but a signal set out. -/
theorem strmEnd_flush {s : State} {n : Nat} (x : Strm) (h : s.strmWrites n x = true) :
    s.strmEnd n x = s.strmSet n { x with st := .flush } := by rw [strmEnd, if_pos h]

theorem strmEnd_ends {s : State} {n : Nat} {x : Strm} (h : s.strmWrites n x = false) :
    s.strmEnd n x = { s with strm := Map.erase s.strm n, sigs := (s.strmEnd n x).sigs } ∧
    ∀ c, Map.get (s.strmEnd n x).sigs 0 c =
      Map.get s.sigs 0 c + (if SD.sigEn x.desc = true ∧ x.bad = false ∧ c = SD.sigCtr x.desc then 1 else 0) := by
  rw [strmEnd, if_neg (by simp [h])]
  simp only [Bool.and_eq_true, Bool.not_eq_true']
  by_cases hs : SD.sigEn x.desc = true ∧ x.bad = false
  · rw [if_pos hs]
    refine ⟨rfl, fun c => ?_⟩
    rw [Map.get, Map.get?_set]
    by_cases hc : c = SD.sigCtr x.desc
    · subst hc; simp [hs]
    · simp [hc, Map.get]
  · rw [if_neg hs]
    exact ⟨rfl, fun c => by rw [if_neg fun h => hs ⟨h.1, h.2.1⟩]; rfl⟩

/-- A stream's writes on their way are those of the memory system and of the remote requests (R91, R239). -/
theorem strmWrites_congr {s t : State} (n : Nat) (x : Strm) (hw : t.ms.waits = s.ms.waits) (hr : t.reqWait = s.reqWait)
    (hf : t.flowOut = s.flowOut) : t.strmWrites n x = s.strmWrites n x := by
  simp only [strmWrites, remWrites, hw, hr, hf]

/-- A running stream that is not stopped, with its data on this side of the mesh and read (R82, R28, R165). -/
structure Moving (s : State) (n : Nat) (x : Strm) : Prop where
  strm : Map.get? s.strm n = some x
  running : x.st = .run
  goes : s.strmStop x = none
  read : s.reading (.strm n) = false
  mesh : s.strmMeshHeld x = false

/-- The slots of a fill that are still to become FULL. -/
def slotsLeft (x : Strm) : List Nat := (slotsAll x.desc).filter (fun sl => !((slotsOf x.desc).take x.done).contains sl)

/-- A stream complete (R79, R85, R91). -/
def strmDone (s : State) (n : Nat) (x : Strm) : State :=
  let t := s.strmMove n x (elemsFor x.desc x.done) (SD.elems x.desc)
  let t := if SD.spill x.desc || SD.direct x.desc then t else t.slotsFull (slotsLeft x)
  t.strmEnd n ((Map.get? t.strm n).getD x)

theorem exec_streamComplete_none {s : State} {n : Nat} {x : Strm} (h : Moving s n x) :
    exec (.streamComplete n none) s = keepQueue s (.next (s.strmDone n x)) := by
  show execStreamComplete n none s = _
  rw [execStreamComplete, h.strm]
  simp only [h.running, reduceCtorEq, if_false, ne_eq, not_true_eq_false, decide_false, h.read, h.mesh, h.goes, Bool.or_self,
    Bool.false_eq_true, Option.isSome_none, Bool.false_and]
  rfl

theorem exec_streamComplete_part {s : State} {n k : Nat} {x : Strm} (h : Moving s n x) (hsp : SD.spill x.desc = false)
    (hdir : SD.direct x.desc = false) (hlo : x.done < k) (hhi : k < slotCount x.desc) :
    exec (.streamComplete n (some k)) s = keepQueue s (.next
      (((s.strmMove n x (elemsFor x.desc x.done) (elemsFor x.desc k)).strmSet n { x with done := k }).slotsFull
        (((slotsOf x.desc).take k).drop x.done))) := by
  show execStreamComplete n (some k) s = _
  have hle : ¬k ≤ x.done := by omega
  rw [execStreamComplete, h.strm]
  simp only [h.running, reduceCtorEq, if_false, ne_eq, not_true_eq_false, decide_false, h.read, h.mesh, h.goes, Bool.or_self,
    Bool.false_eq_true, Option.isSome_some, Bool.true_and, Option.getD_some, hsp, hdir, hle, hhi, decide_true, if_true, Bool.and_false]

theorem exec_streamComplete_flush {s : State} {n : Nat} {x : Strm} (hx : Map.get? s.strm n = some x) (hst : x.st = .flush)
    (slots : Option Nat) : exec (.streamComplete n slots) s = keepQueue s (.next (s.strmEnd n x)) := by
  show execStreamComplete n slots s = _
  rw [execStreamComplete, hx]
  simp only [hst, if_true]

/-! ### What a spill's writes leave (R91, R157) -/

/-- Engines, waiter queues and signals are as they were. -/
structure UnitKept (s t : State) : Prop where
  eng : t.eng = s.eng
  waiters : t.waiters = s.waiters
  sigs : t.sigs = s.sigs

theorem unitKept_refl (s : State) : UnitKept s s := ⟨rfl, rfl, rfl⟩

theorem unitKept_trans (s t u : State) (h : UnitKept s t) (h' : UnitKept t u) : UnitKept s u :=
  ⟨h'.eng.trans h.eng, h'.waiters.trans h.waiters, h'.sigs.trans h.sigs⟩

theorem unitKept_storeAcc (s : State) (x : Access) (bs : List Byte) : UnitKept s (s.storeAcc x bs) := by
  obtain ⟨p, h⟩ := storeAcc_frame s x bs
  rw [h]
  exact ⟨rfl, rfl, rfl⟩

theorem unitKept_countDram (s : State) (wr : Bool) (a n : Nat) : UnitKept s (s.countDram wr a n) := by
  rw [(countDram_counts s wr a n).1]
  exact ⟨rfl, rfl, rfl⟩

theorem unitKept_touch (s : State) (n : Nat) : UnitKept s (s.touch n) := by
  rw [touch_frame]
  exact ⟨rfl, rfl, rfl⟩

theorem unitKept_askMove (s : State) (a : MoveAsk) : UnitKept s (s.askMove a) := by
  rw [askMove_frame]
  exact ⟨rfl, rfl, rfl⟩

theorem unitKept_markUnits (s : State) (a : Nat) (l : List Nat) : UnitKept s (s.markUnits a l) := by
  obtain ⟨p, h⟩ := markUnits_frame s a l
  rw [h]
  exact ⟨rfl, rfl, rfl⟩

theorem unitKept_add64 (s : State) (lo n : Nat) : UnitKept s (s.add64 lo n) := ⟨rfl, rfl, rfl⟩

/-- A flash program that starts (R165, R175). -/
theorem unitKept_program (s : State) (lt n : Nat) (m : Bool) : UnitKept s (s.program lt n m) := by
  unfold program
  extract_lets u
  have hpage : ∀ v : State, UnitKept v (v.placePage lt) := fun _ => ⟨rfl, rfl, rfl⟩
  have hu : UnitKept s u := unitKept_trans _ _ _ (unitKept_trans _ _ _ (unitKept_add64 ..) (unitKept_add64 ..)) (hpage _)
  exact ⟨hu.eng, hu.waiters, hu.sigs⟩

theorem unitKept_forward (s : State) (x : Access) (holder : Nat) : UnitKept s (s.forward x holder) := by
  unfold forward reqSend
  exact rel_ite ⟨rfl, rfl, rfl⟩ ⟨rfl, rfl, rfl⟩

theorem unitKept_ite {β : Type} {c : Prop} [Decidable c] {s : State} {p q : State × β} (hp : UnitKept s p.1) (hq : UnitKept s q.1) :
    UnitKept s (if c then p else q).1 := by
  split
  · exact hp
  · exact hq

/-- A write of a tile (R146, R153, R157) touches the memory system, its registers and the remote requests. -/
theorem unitKept_writeTile (s : State) (x : Access) : UnitKept s (s.writeTile x).1 := by
  unfold writeTile
  extract_lets n old bs whole v o t ro dramOnly wait alloc
  have hs := unitKept_refl s
  have hwait : ∀ held u, UnitKept s u → UnitKept s (wait held u) := fun _ _ h => ⟨h.eng, h.waiters, h.sigs⟩
  clear_value bs whole dramOnly ro t o wait
  have hstore : ∀ u : State, UnitKept s u → UnitKept s (u.storeAcc x bs) := fun u h => unitKept_trans _ _ _ h (unitKept_storeAcc ..)
  have hcount : ∀ u : State, UnitKept s u → UnitKept s (u.countDram true x.addr bs.length) := fun u h =>
    unitKept_trans _ _ _ h (unitKept_countDram ..)
  have hprogram : ∀ (u : State) lt k m, UnitKept s u → UnitKept s (u.program lt k m) := fun u lt k m h =>
    unitKept_trans _ _ _ h (unitKept_program ..)
  have halloc : UnitKept s alloc.1 := by
    simp only [alloc]
    refine unitKept_ite hs (unitKept_ite (unitKept_ite hs (unitKept_ite hs (unitKept_ite hs ?_)))
      (unitKept_ite (unitKept_ite hs (hwait false s hs)) ?_))
    · split
      · exact hs
      · dsimp only
        exact hstore _ (hprogram _ _ _ _ ⟨rfl, rfl, rfl⟩)
    · split
      · exact unitKept_ite hs (hwait _ _ hs)
      · dsimp only
        exact hcount _ (hstore _ ⟨rfl, rfl, rfl⟩)
  clear_value alloc
  split
  · exact hcount _ (unitKept_trans _ _ _ (hstore _ hs) (unitKept_touch ..))
  · exact halloc
  · exact unitKept_ite halloc hs
  · exact hwait _ _ hs
  · exact hwait _ _ hs
  · refine unitKept_ite (unitKept_ite hs (unitKept_ite hs (hstore _ (hprogram s _ _ _ hs)))) (unitKept_ite hs (hwait _ _ ?_))
    exact unitKept_askMove ..
  · exact unitKept_ite (hwait _ _ hs) (unitKept_forward ..)

theorem unitKept_opFaultIn (s : State) (h u : Nat) (code detail : Byte) (addr eng slot : Nat) :
    UnitKept s (s.opFaultIn h u code detail addr eng slot) := by
  unfold opFaultIn
  split
  · exact ⟨rfl, rfl, rfl⟩
  · exact unitKept_refl s

theorem unitKept_spillWrite (n h who : Nat) (s : State) (p : Nat × List Byte) : UnitKept s (spillWrite n h who s p) := by
  unfold spillWrite
  refine rel_ite ?_ ⟨rfl, rfl, rfl⟩
  extract_lets w
  have hk : UnitKept s w.1 := by
    refine foldl_rel_fst unitKept_refl unitKept_trans (fun acc q => ?_) _ (s, 0, 0)
    refine unitKept_ite (unitKept_refl _) ?_
    split
    · exact unitKept_refl _
    · exact unitKept_writeTile ..
  clear_value w
  refine rel_ite hk (unitKept_trans _ _ _ hk ?_)
  obtain ⟨he, hq, hg⟩ := unitKept_opFaultIn w.1 h 0 (BitVec.ofNat 8 w.2.1) (BitVec.ofNat 8 w.2.2) p.1 0x7FF 0
  exact ⟨he, hq, hg⟩

theorem unitKept_spillRun (s : State) (d : StreamDesc) (n h who hi : Nat) : UnitKept s (s.spillRun d n h who hi).1 := by
  unfold spillRun
  extract_lets es t u
  have ht : UnitKept s t := foldl_rel unitKept_refl unitKept_trans (fun v p _ => unitKept_spillWrite n h who v p) s
  exact unitKept_trans _ _ _ ht (foldl_rel unitKept_refl unitKept_trans (fun v e _ => unitKept_markUnits ..) t)

theorem strmMove_spill {s : State} (n : Nat) {x : Strm} (lo hi : Nat) (hsp : SD.spill x.desc = true)
    (hdir : SD.direct x.desc = false) : UnitKept s (s.strmMove n x lo hi) := by
  unfold strmMove
  simp only [hsp, hdir, Bool.false_eq_true, if_false, if_true]
  have hflags : ∀ (u : State) f, UnitKept u (u.opFlags x.op f) := fun u f => by
    rw [(opFlags_spec u x.op f).1]; exact ⟨rfl, rfl, rfl⟩
  exact unitKept_trans _ _ _ (unitKept_trans _ _ _ (unitKept_spillRun s x.desc n x.op _ hi) (hflags _ _)) (unitKept_add64 ..)

/-! ### A fill complete -/

/-- A fill that is complete has its elements moved, its slots FULL, and ends (R79, R85). -/
theorem strmDone_fill (s : State) (n : Nat) (x : Strm) (hsp : SD.spill x.desc = false) (hdir : SD.direct x.desc = false) :
    s.strmDone n x = (let t := (s.strmMove n x (elemsFor x.desc x.done) (SD.elems x.desc)).slotsFull (slotsLeft x)
      t.strmEnd n ((Map.get? t.strm n).getD x)) := by
  simp only [strmDone, hsp, hdir, Bool.or_self, Bool.false_eq_true, if_false]

theorem nodup_slotsLeft (x : Strm) : (slotsLeft x).Nodup := (nodup_slotsAll x.desc).filter _

theorem mem_slotsLeft {x : Strm} {sl : Nat} : sl ∈ slotsLeft x ↔ sl ∈ slotsAll x.desc ∧ sl ∉ (slotsOf x.desc).take x.done := by
  simp [slotsLeft, List.mem_filter]

end State

end Sys2Proof.Machine

namespace Sys2Proof.Proofs
open Sys2Proof Sys2Proof.Machine Sys2Proof.Machine.State

theorem slot_released (s : State) (e k : Nat) (rel : Bool) (h : (s.slot e k).st = .use) :
    ∃ t, exec (.slotRelease e k rel) s = .next t ∧ t = { s with eng := t.eng } ∧
      t.slot e k = { s.slot e k with st := if rel then .free else .full } ∧
      (∀ e' k', ¬(e' = e ∧ k' = k) → t.slot e' k' = s.slot e' k') ∧ ∀ b, t.bank e b = s.bank e b := by
  have ho := slotsOnly_slotState s e k (if rel then .free else .full)
  refine ⟨_, ?_, ho.1, ?_, fun e' k' hne => ?_, fun b => ho.bank e b⟩
  · show execSlotRelease e k rel s = _
    rw [execSlotRelease, if_pos h]
    exact keepQueue_of_pending rfl
  · rw [slotState, slot_slotSet, if_pos ⟨rfl, rfl⟩]
  · rw [slotState, slot_slotSet, if_neg hne]

theorem fill_completes (s : State) (n : Nat) (x : Strm) (hx : Map.get? s.strm n = some x) (hst : x.st = .run)
    (hstop : s.strmStop x = none) (hrd : s.reading (.strm n) = false) (hmesh : s.strmMeshHeld x = false)
    (hsp : SD.spill x.desc = false) (hdir : SD.direct x.desc = false) (hw : s.strmWrites n x = false) :
    ∃ t, exec (.streamComplete n none) s = .next t ∧
      t = { s with mem := t.mem, ms := { s.ms with poison := t.ms.poison }, eng := t.eng, ops := t.ops, strm := t.strm
                   sigs := t.sigs, regs := t.regs } ∧
      Map.get? t.strm n = none ∧ (∀ m, m ≠ n → Map.get? t.strm m = Map.get? s.strm m) ∧
      (∀ c, Map.get t.sigs 0 c = Map.get s.sigs 0 c + (if SD.sigEn x.desc = true ∧ x.bad = false ∧ c = SD.sigCtr x.desc then 1 else 0)) ∧
      (∀ e k, Covers x.desc e k → e * 64 + k ∉ (slotsOf x.desc).take x.done → t.slot e k = { s.slot e k with st := .full }) ∧
      (∀ e k, ¬Covers x.desc e k → t.slot e k = s.slot e k) ∧
      RegsKept s t [R.CORE_FILL_BYTES_LO x.core, R.CORE_FILL_BYTES_LO x.core + 4] ∧
      (∀ o, s.op? x.op = some o → ∃ fl, t.op? x.op = some { o with flags := o.flags ||| fl }) ∧
      (∀ k, k ≠ x.op → t.op? k = s.op? k) ∧ ∀ a, a < uniEnd → Mem.get t.mem a = Mem.get s.mem a := by
  have hex := exec_streamComplete_none ⟨hx, hst, hstop, hrd, hmesh⟩
  rw [strmDone_fill s n x hsp hdir] at hex
  obtain ⟨u, hu⟩ : ∃ u, u = s.strmMove n x (elemsFor x.desc x.done) (SD.elems x.desc) := ⟨_, rfl⟩
  have hfill := strmMove_fill s n x (elemsFor x.desc x.done) (SD.elems x.desc) hsp hdir
  rw [← hu] at hex hfill
  clear hu
  obtain ⟨hfr, hbytes, hflags, hothers, hregs⟩ := hfill
  obtain ⟨v, hv⟩ : ∃ v, v = u.slotsFull (slotsLeft x) := ⟨_, rfl⟩
  obtain ⟨⟨hvf, -⟩, hslot⟩ := slotsFull_spec (nodup_slotsLeft x) u
  simp only [← hv] at hex hvf hslot
  clear hv
  have hstrm : v.strm = s.strm := by rw [hvf, hfr]
  rw [hstrm, hx, Option.getD_some] at hex
  have hwv : v.strmWrites n x = false := by
    rw [strmWrites_congr (s := s) n x (by rw [hvf, hfr]) (by rw [hvf, hfr]) (by rw [hvf, hfr])]
    exact hw
  obtain ⟨hend, hsig⟩ := strmEnd_ends hwv
  obtain ⟨t, ht⟩ : ∃ t, t = v.strmEnd n x := ⟨_, rfl⟩
  rw [← ht] at hex hend hsig
  clear ht
  rw [keepQueue_of_pending (by rw [hend, hvf, hfr])] at hex
  have hslotu : ∀ e k, u.slot e k = s.slot e k := fun e k => by rw [slot, slot, engine, engine, show u.eng = s.eng by rw [hfr]]
  have hslott : ∀ e k, t.slot e k = v.slot e k := fun e k => by rw [slot, slot, engine, engine, show t.eng = v.eng by rw [hend]]
  have hops : t.ops = u.ops := by rw [hend, hvf]
  have hregst : t.regs = u.regs := by rw [hend, hvf]
  refine ⟨t, hex, by rw [hend, hvf, hfr], ?_, fun m hm => ?_, fun c => ?_, fun e k hc hn => ?_, fun e k hc => ?_, fun a ha => ?_,
    fun o ho => ?_, fun k hk => ?_, fun a ha => ?_⟩
  · rw [hend, Map.get?_erase, if_pos rfl]
  · rw [hend, Map.get?_erase, if_neg hm, hstrm]
  · rw [hsig, show v.sigs = s.sigs by rw [hvf, hfr]]
  · obtain ⟨-, hk, hlt, hmem⟩ := hc
    rw [hslott, hslot, if_pos ⟨hk, hlt, mem_slotsLeft.2 ⟨hmem, hn⟩⟩, hslotu, slotFilled]
  · rw [hslott, hslot, if_neg fun h => hc ⟨hdir, h.1, h.2.1, (mem_slotsLeft.1 h.2.2).1⟩, hslotu]
  · exact (rd_congr hregst a).trans (hregs a ha)
  · rw [op?, hops]; exact hflags o ho
  · rw [op?, hops]; exact hothers k hk
  · rw [show t.mem = u.mem by rw [hend, hvf]]; exact hbytes a ha

theorem fill_advances (s : State) (n k : Nat) (x : Strm) (hx : Map.get? s.strm n = some x) (hst : x.st = .run)
    (hstop : s.strmStop x = none) (hrd : s.reading (.strm n) = false) (hmesh : s.strmMeshHeld x = false)
    (hsp : SD.spill x.desc = false) (hdir : SD.direct x.desc = false) (hlo : x.done < k) (hhi : k < slotCount x.desc) :
    ∃ t, exec (.streamComplete n (some k)) s = .next t ∧ Map.get? t.strm n = some { x with done := k } ∧ t.sigs = s.sigs ∧
      (∀ e j, j < 64 → e * 64 + j < 0x20000 → e * 64 + j ∈ ((slotsOf x.desc).take k).drop x.done →
        t.slot e j = { s.slot e j with st := .full }) ∧
      (∀ e j, e * 64 + j ∉ ((slotsOf x.desc).take k).drop x.done → t.slot e j = s.slot e j) ∧
      ∀ a, a < uniEnd → Mem.get t.mem a = Mem.get s.mem a := by
  have hex := exec_streamComplete_part ⟨hx, hst, hstop, hrd, hmesh⟩ hsp hdir hlo hhi
  obtain ⟨u, hu⟩ : ∃ u, u = s.strmMove n x (elemsFor x.desc x.done) (elemsFor x.desc k) := ⟨_, rfl⟩
  have hfill := strmMove_fill s n x (elemsFor x.desc x.done) (elemsFor x.desc k) hsp hdir
  rw [← hu] at hex hfill
  clear hu
  obtain ⟨hfr, hbytes, -, -, -⟩ := hfill
  have hnd : (((slotsOf x.desc).take k).drop x.done).Nodup :=
    ((nodup_slotsOf x.desc).sublist (List.take_sublist ..)).sublist (List.drop_sublist ..)
  obtain ⟨t, ht⟩ : ∃ t, t = (u.strmSet n { x with done := k }).slotsFull (((slotsOf x.desc).take k).drop x.done) := ⟨_, rfl⟩
  obtain ⟨⟨hf, -⟩, hslot⟩ := slotsFull_spec hnd (u.strmSet n { x with done := k })
  rw [← ht] at hex hf hslot
  clear ht
  rw [keepQueue_of_pending (by rw [hf]; exact (by rw [hfr] : u.pending = s.pending))] at hex
  have hslotu : ∀ e j, (u.strmSet n { x with done := k }).slot e j = s.slot e j := fun e j => by
    rw [slot, slot, engine, engine, show (u.strmSet n { x with done := k }).eng = u.eng from rfl, show u.eng = s.eng by rw [hfr]]
  refine ⟨t, hex, ?_, ?_, fun e j hj hlt hm => ?_, fun e j hm => ?_, fun a ha => ?_⟩
  · rw [hf]; exact get?_strmSet_self ..
  · rw [hf]; exact (by rw [hfr] : u.sigs = s.sigs)
  · rw [hslot, if_pos ⟨hj, hlt, hm⟩, hslotu, slotFilled]
  · rw [hslot, if_neg fun h => hm h.2.2, hslotu]
  · rw [show t.mem = u.mem by rw [hf]; rfl]; exact hbytes a ha

theorem stream_ends {s : State} {n : Nat} {x : Strm} (hw : s.strmWrites n x = false)
    (hex : exec (.streamComplete n none) s = keepQueue s (.next (s.strmEnd n x))) :
    ∃ t, exec (.streamComplete n none) s = .next t ∧ t = { s with strm := t.strm, sigs := t.sigs } ∧ Map.get? t.strm n = none ∧
      ∀ c, Map.get t.sigs 0 c = Map.get s.sigs 0 c + (if SD.sigEn x.desc = true ∧ x.bad = false ∧ c = SD.sigCtr x.desc then 1 else 0) := by
  obtain ⟨hf, hsig⟩ := strmEnd_ends hw
  rw [keepQueue_of_pending (by rw [hf])] at hex
  exact ⟨_, hex, by rw [hf], by rw [hf, Map.get?_erase, if_pos rfl], hsig⟩

theorem direct_completes (s : State) (n : Nat) (x : Strm) (hx : Map.get? s.strm n = some x) (hst : x.st = .run)
    (hstop : s.strmStop x = none) (hrd : s.reading (.strm n) = false) (hmesh : s.strmMeshHeld x = false)
    (hdir : SD.direct x.desc = true) (hw : s.strmWrites n x = false) :
    ∃ t, exec (.streamComplete n none) s = .next t ∧ t = { s with strm := t.strm, sigs := t.sigs } ∧ Map.get? t.strm n = none ∧
      ∀ c, Map.get t.sigs 0 c = Map.get s.sigs 0 c + (if SD.sigEn x.desc = true ∧ x.bad = false ∧ c = SD.sigCtr x.desc then 1 else 0) := by
  refine stream_ends hw ?_
  rw [exec_streamComplete_none ⟨hx, hst, hstop, hrd, hmesh⟩]
  simp only [strmDone, strmMove, hdir, Bool.or_true, if_true, hx, Option.getD_some]

theorem flush_ends (s : State) (n : Nat) (x : Strm) (hx : Map.get? s.strm n = some x) (hst : x.st = .flush)
    (hw : s.strmWrites n x = false) :
    ∃ t, exec (.streamComplete n none) s = .next t ∧ t = { s with strm := t.strm, sigs := t.sigs } ∧ Map.get? t.strm n = none ∧
      ∀ c, Map.get t.sigs 0 c = Map.get s.sigs 0 c + (if SD.sigEn x.desc = true ∧ x.bad = false ∧ c = SD.sigCtr x.desc then 1 else 0) :=
  stream_ends hw (exec_streamComplete_flush hx hst none)

theorem flush_waits (s : State) (n : Nat) (x : Strm) (hx : Map.get? s.strm n = some x) (hst : x.st = .flush)
    (hw : s.strmWrites n x = true) :
    ∃ t, exec (.streamComplete n none) s = .next t ∧ t = { s with strm := t.strm } ∧ Map.get? t.strm n = some x := by
  have hex := exec_streamComplete_flush hx hst none
  rw [strmEnd_flush x hw] at hex
  refine ⟨_, hex.trans (keepQueue_of_pending rfl), rfl, ?_⟩
  rw [get?_strmSet_self, ← hst]

theorem spill_completes (s : State) (n : Nat) (x : Strm) (hx : Map.get? s.strm n = some x) (hst : x.st = .run)
    (hstop : s.strmStop x = none) (hrd : s.reading (.strm n) = false) (hmesh : s.strmMeshHeld x = false)
    (hsp : SD.spill x.desc = true) (hdir : SD.direct x.desc = false) :
    ∃ t, exec (.streamComplete n none) s = .next t ∧ t.eng = s.eng ∧ t.waiters = s.waiters ∧
      (Map.get? t.strm n = none ∨ t.sigs = s.sigs ∧ ∃ y, Map.get? t.strm n = some y ∧ y.st = .flush) := by
  have hex := exec_streamComplete_none ⟨hx, hst, hstop, hrd, hmesh⟩
  obtain ⟨u, hu⟩ : ∃ u, u = s.strmMove n x (elemsFor x.desc x.done) (SD.elems x.desc) := ⟨_, rfl⟩
  obtain ⟨heng, hwait, hsigs⟩ := strmMove_spill (s := s) n (elemsFor x.desc x.done) (SD.elems x.desc) hsp hdir
  simp only [strmDone, hsp, Bool.true_or, if_true] at hex
  rw [← hu] at heng hwait hsigs hex
  clear hu
  obtain ⟨y, hy⟩ : ∃ y, y = (Map.get? u.strm n).getD x := ⟨_, rfl⟩
  rw [← hy, keepQueue_of_next] at hex
  refine ⟨_, hex, ?_⟩
  by_cases hw : u.strmWrites n y = true
  · rw [strmEnd_flush y hw]
    exact ⟨heng, hwait, .inr ⟨hsigs, _, get?_strmSet_self u n _, rfl⟩⟩
  · rw [(strmEnd_ends (Bool.eq_false_iff.2 hw)).1]
    exact ⟨heng, hwait, .inl (by rw [Map.get?_erase, if_pos rfl])⟩

end Sys2Proof.Proofs

namespace Sys2Proof.Machine
open Sys2Proof

/-! ### How much a drain casts (R39, R54) -/

theorem length_castBlock_le (f : Fmt) (rs : List Rnd) (xs : List XNum) : (castBlock f rs xs).2.1.length ≤ xs.length := by
  unfold castBlock
  simp only
  split
  · simp
  · split
    · simp
    · simp only [List.length_map, List.length_zipWith]
      exact Nat.min_le_left _ _

theorem sum_groups32 {α : Type} (l : List α) : ((groups32 l).map List.length).sum = l.length := by
  have h : ∀ m, ((List.range m).map fun g => ((l.drop (32 * g)).take 32).length).sum = min l.length (32 * m) := by
    intro m
    induction m with
    | zero => simp
    | succ m ih =>
      rw [List.range_succ, List.map_append, List.sum_append, ih]
      simp only [List.map_cons, List.map_nil, List.sum_cons, List.sum_nil, List.length_take, List.length_drop]
      omega
  rw [groups32, List.map_map]
  exact (h _).trans (by omega)

theorem length_castGroups_le (f : Fmt) : ∀ (gs : List (List XNum)) (rs : List (List Rnd)),
    (((gs.zip rs).map (fun p => castBlock f p.2 p.1)).flatMap (fun b => b.2.1)).length ≤ (gs.map List.length).sum
  | [], _ => by simp
  | g :: gs, [] => by simp
  | g :: gs, r :: rs => by
    simp only [List.zip_cons_cons, List.map_cons, List.flatMap_cons, List.length_append, List.sum_cons]
    exact Nat.add_le_add (length_castBlock_le f r g) (length_castGroups_le f gs rs)

namespace State

/-- Codes of a list cast in blocks are no more than its values, and scales no more than its blocks. -/
theorem length_castBlocks (f : Fmt) (rs : List Rnd) (xs : List XNum) :
    (castBlocks f rs xs).1.length ≤ xs.length ∧ (castBlocks f rs xs).2.1.length ≤ (xs.length + 31) / 32 := by
  refine ⟨(length_castGroups_le f _ _).trans_eq (sum_groups32 xs), ?_⟩
  simp only [castBlocks, List.length_map, List.length_zip]
  exact (Nat.min_le_left _ _).trans (by simp [groups32])

/-! ### What a drain writes (R54, R73) -/

/-- The bytes a drain does not write. -/
def DrainSpares (e : Nat) (d : DrainPlan) (f : Fmt) (a : Nat) : Prop :=
  (∀ i, i < d.rows * d.cols → a < drainAddr e d i ∨ drainAddr e d i + max 1 (f.ebits / 8) ≤ a) ∧
  (f.isBlock = true → ∀ j, j * 32 < d.rows * d.cols → a ≠ drainScale e d j)

theorem bytesKept_drainPut (s : State) (e : Nat) (d : DrainPlan) (f : Fmt) {p : Nat × Nat} (hp : p.1 < d.rows * d.cols) :
    BytesKept (DrainSpares e d f) s (drainPut e d f s p) := by
  have hout : ∀ bs : List Byte, bs.length ≤ max 1 (f.ebits / 8) →
      BytesKept (DrainSpares e d f) s (s.sramWrite (drainAddr e d p.1) bs) := fun bs hl =>
    bytesKept_sramWrite s fun b hb => by
      have := hb.1 p.1 hp
      omega
  unfold drainPut
  exact rel_ite (hout _ (by simp)) (hout _ (by simp [length_leBytes]))

/-- Values in their places and scales in theirs. -/
theorem bytesKept_drain (s : State) (e : Nat) (d : DrainPlan) (f : Fmt) {cs ss : List Nat} (hc : cs.length ≤ d.rows * d.cols)
    (hs : ss.length ≤ (d.rows * d.cols + 31) / 32) (hb : f.isBlock = false → ss = []) :
    BytesKept (DrainSpares e d f) s
      (((List.range ss.length).zip ss).foldl (fun u p => u.sramWrite (drainScale e d p.1) [BitVec.ofNat 8 p.2])
        (((List.range cs.length).zip cs).foldl (drainPut e d f) s)) := by
  refine bytesKept_trans _ _ _ (foldl_rel (bytesKept_refl _) bytesKept_trans (fun u p hp => ?_) s)
    (foldl_rel (bytesKept_refl _) bytesKept_trans (fun u p hp => ?_) _)
  · exact bytesKept_drainPut u e d f ((List.mem_range.1 (List.of_mem_zip hp).1).trans_le hc)
  · have hlt := List.mem_range.1 (List.of_mem_zip hp).1
    have hblock : f.isBlock = true := by
      by_contra hn
      simp [hb (Bool.eq_false_iff.2 hn)] at hlt
    refine bytesKept_sramWrite u fun b hsp => ?_
    have := hsp.2 hblock p.1 (by omega)
    simp only [List.length_singleton]
    omega

/-- Draws come from the operator's copy of the engine's generator (R44, R407). -/
theorem engDraws_spec (s : State) (h e n : Nat) (sr : Bool) :
    (s.engDraws h e n sr).2 = { s with rng := { s.rng with copies := (s.engDraws h e n sr).2.rng.copies } } ∧
    ∀ k, k ≠ h * 2048 + e → Map.get? (s.engDraws h e n sr).2.rng.copies k = Map.get? s.rng.copies k := by
  unfold engDraws
  cases sr
  · exact ⟨rfl, fun _ _ => rfl⟩
  · exact ⟨rfl, fun k hk => Map.get?_set_ne _ _ hk⟩

/-! ### The bank and the slots of a drain (R56, R87) -/

theorem nodup_drainSlots (d : DrainPlan) (f : Fmt) : (drainSlots d f).Nodup := nodup_eraseDups _

theorem nodup_engineSlots (e : Nat) {l : List Nat} (h : l.Nodup) : (l.map fun k => e * 64 + k).Nodup :=
  h.map fun _ _ h => Nat.add_left_cancel h

/-- Slots of an engine set FULL. -/
theorem slotStates_eq (e : Nat) (he : e < 1536) : ∀ (l : List Nat) (_ : ∀ k ∈ l, k < 64) (s : State),
    l.foldl (fun u k => u.slotState e k .full) s = s.slotsFull (l.map fun k => e * 64 + k)
  | [], _, _ => rfl
  | k :: l, h, s => by
    have hk := h k (by simp)
    have hs : s.slotsFull ((k :: l).map fun k => e * 64 + k) = (s.slotState e k .full).slotsFull (l.map fun k => e * 64 + k) := by
      rw [slotsFull, List.map_cons, List.foldl_cons, if_neg (by omega), show (e * 64 + k) / 64 = e by omega,
        show (e * 64 + k) % 64 = k by omega]
      rfl
    rw [hs, ← slotStates_eq e he l (fun i hi => h i (by simp [hi]))]
    rfl

theorem engine_unhold_ne (q : HeldReq) (spill : Bool) (s : State) {sl i : Nat} (h : i ≠ sl / 64) :
    (unhold q spill s sl).engine i = s.engine i := by
  unfold unhold
  simp only
  split
  · rfl
  · split
    · rw [slotSet, engine_engineSet, if_neg h]
    · rfl

theorem engine_slotState_ne (s : State) {e i : Nat} (k : Nat) (st : SlotSt) (h : i ≠ e) : (s.slotState e k st).engine i = s.engine i := by
  rw [slotState, slotSet, engine_engineSet, if_neg h]

/-- A bank emptied, with no drain held for it. -/
def bankDrained (s : State) (e b : Nat) : State :=
  let t := s.bankSet e b Bank.none
  t.engineSet e { t.engine e with drains := Map.erase (t.engine e).drains b }

theorem bankDrained_spec (s : State) (e b : Nat) : s.bankDrained e b = { s with eng := (s.bankDrained e b).eng } ∧
    (s.bankDrained e b).bank e b = Bank.none ∧ (∀ c, (c = 0 ↔ b ≠ 0) → (s.bankDrained e b).bank e c = s.bank e c) ∧
    Map.get? ((s.bankDrained e b).engine e).drains b = none ∧ (∀ k, (s.bankDrained e b).slot e k = s.slot e k) ∧
    ∀ i, i ≠ e → (s.bankDrained e b).engine i = s.engine i := by
  have hself : (s.bankDrained e b).engine e =
      (let g := if b = 0 then { s.engine e with bank0 := Bank.none } else { s.engine e with bank1 := Bank.none }
       { g with drains := Map.erase g.drains b }) := by
    rw [bankDrained, bankSet, engine_engineSet, if_pos rfl, engine_engineSet, if_pos rfl]
  refine ⟨rfl, ?_, fun c hc => ?_, ?_, fun k => ?_, fun i hi => ?_⟩
  · rw [bank, hself]; split <;> rfl
  · rw [bank, bank, hself]
    by_cases hb : b = 0
    · rw [if_pos hb, if_neg fun h => hc.1 h hb, if_neg fun h => hc.1 h hb]
    · rw [if_neg hb, if_pos (hc.2 hb), if_pos (hc.2 hb)]
  · rw [hself]
    simp only
    rw [Map.get?_erase, if_pos rfl]
  · rw [slot, slot, hself]; split <;> rfl
  · rw [bankDrained, engine_engineSet, if_neg hi, bankSet, engine_engineSet, if_neg hi]

/-- The codes and scales of a drain's values, in the order it writes them, with their flags (R39, R40, R54). -/
def drainCast (d : DrainPlan) (f : Fmt) (sat : Bool) (rs : List Rnd) (xs : List XNum) : List Nat × List Nat × NumFlags :=
  if f.isBlock then
    (if d.alongRows then
       let q := castBlocks f (colMajor .rne d.rows d.cols rs) (colMajor .nan d.rows d.cols xs)
       (rowMajor 0 d.rows d.cols q.1, q.2.1, q.2.2)
     else castBlocks f rs xs)
  else
    let cs := List.zipWith (fun x r => castElem f r sat x) xs rs
    (cs.map (·.1), [], orFlags (cs.map (·.2)))

theorem length_drainCast (d : DrainPlan) (f : Fmt) (sat : Bool) (rs : List Rnd) {xs : List XNum} (h : xs.length = d.rows * d.cols) :
    (drainCast d f sat rs xs).1.length ≤ d.rows * d.cols ∧ (drainCast d f sat rs xs).2.1.length ≤ (d.rows * d.cols + 31) / 32 ∧
    (f.isBlock = false → (drainCast d f sat rs xs).2.1 = []) := by
  unfold drainCast
  extract_lets q cs
  cases f.isBlock with
  | false => exact ⟨by simp [cs, h], by simp, fun _ => rfl⟩
  | true =>
    simp only [if_true, reduceCtorEq, false_implies, and_true]
    split
    · obtain ⟨-, h2⟩ := length_castBlocks f (colMajor .rne d.rows d.cols rs) (colMajor .nan d.rows d.cols xs)
      exact ⟨by simp [rowMajor], h2.trans_eq (by simp [colMajor])⟩
    · have hl := length_castBlocks f rs xs
      rwa [h] at hl

/-- A drain written (R54, R56, R87): its bytes, its slots, its bank and the operator's flags. -/
theorem drainNow_drained (s : State) (e b : Nat) (d : DrainPlan) (o : RunOp) (f : Fmt) (he : e < 1536)
    (hk : ∀ k ∈ drainSlots d f, k < 64) : Drained s (s.drainNow e b d o f) e b d f := by
  unfold drainNow
  extract_lets bk k nc sr sat m vs ys dr xs q cs r t0 t1 t2 t3 t4 t5 g t6
  have hvs : vs.length = d.rows * d.cols := by simp [vs, bankVals]
  have hxs : xs.length = d.rows * d.cols := by simp [xs, ys, hvs]
  obtain ⟨hr1, hr2, hr3⟩ : r.1.length ≤ d.rows * d.cols ∧ r.2.1.length ≤ (d.rows * d.cols + 31) / 32 ∧
    (f.isBlock = false → r.2.1 = []) := length_drainCast d f sat dr.1 hxs
  obtain ⟨h0, hcopies⟩ : t0 = { s with rng := { s.rng with copies := t0.rng.copies } } ∧
      ∀ i, i ≠ d.op * 2048 + e → Map.get? t0.rng.copies i = Map.get? s.rng.copies i := engDraws_spec s d.op e vs.length sr
  obtain ⟨h3, hmem⟩ : BytesKept (DrainSpares e d f) t0 t3 := by
    have h : BytesKept (DrainSpares e d f) t0 t2 := bytesKept_drain t0 e d f hr1 hr2 hr3
    exact rel_ite (bytesKept_trans _ _ _ h (foldl_rel (bytesKept_refl _) bytesKept_trans (fun u a _ => bytesKept_poisonAt ..) t2)) h
  have heng3 : t3.eng = s.eng := by rw [h3, h0]
  obtain ⟨⟨h4, hbank⟩, hslot⟩ : SlotsOnly t3 t4 ∧ ∀ i j, t4.slot i j =
      if j < 64 ∧ i * 64 + j < 0x20000 ∧ i * 64 + j ∈ (drainSlots d f).map (fun k => e * 64 + k) then slotFilled (t3.slot i j)
      else t3.slot i j := by
    simp only [t4, slotStates_eq e he _ hk]
    exact slotsFull_spec (nodup_engineSlots e (nodup_drainSlots d f)) t3
  have hengine : ∀ i, i ≠ e → t4.engine i = t3.engine i := fun i hi =>
    foldl_rel (R := fun u v => v.engine i = u.engine i) (fun _ => rfl) (fun _ _ _ h h' => h'.trans h)
      (fun u k _ => engine_slotState_ne u k .full hi) t3
  obtain ⟨h6, hempty, hother, hdrain, hslots, hengines⟩ : t6 = { t4 with eng := t6.eng } ∧ t6.bank e b = Bank.none ∧
      (∀ c, (c = 0 ↔ b ≠ 0) → t6.bank e c = t4.bank e c) ∧ Map.get? (t6.engine e).drains b = none ∧
      (∀ k, t6.slot e k = t4.slot e k) ∧ ∀ i, i ≠ e → t6.engine i = t4.engine i := bankDrained_spec t4 e b
  clear_value t6 t4 t3 t0 r
  obtain ⟨fl, hfl⟩ : ∃ fl, fl = r.2.2 ||| orFlags (ys.map (·.2)) ||| (if m.isNan then fNI else fNone) := ⟨_, rfl⟩
  rw [← hfl]
  clear hfl
  obtain ⟨h7, hflags, hops⟩ := opFlags_spec t6 d.op fl
  obtain ⟨t, ht⟩ : ∃ t, t = t6.opFlags d.op fl := ⟨_, rfl⟩
  rw [← ht] at h7 hflags hops ⊢
  clear ht
  have heng : t.eng = t6.eng := by rw [h7]
  have hops6 : t6.ops = s.ops := by rw [h6, h4, h3, h0]
  have hmemt : t.mem = t3.mem := by rw [h7, h6, h4]
  have heng' : ∀ i, t.engine i = t6.engine i := fun i => by rw [engine, engine, heng]
  have hslot' : ∀ k, t.slot e k = t4.slot e k := fun k => by rw [slot, heng']; exact hslots k
  have hin : ∀ k, k < 64 ∧ e * 64 + k < 0x20000 ∧ e * 64 + k ∈ (drainSlots d f).map (fun k => e * 64 + k) ↔ k ∈ drainSlots d f := fun k => by
    simp only [List.mem_map, Nat.add_left_cancel_iff, exists_eq_right]
    exact ⟨fun h => h.2.2, fun h => ⟨hk k h, by have := hk k h; omega, h⟩⟩
  have hslot3 : ∀ k, t3.slot e k = s.slot e k := fun k => by rw [slot, slot, engine, engine, heng3]
  refine ⟨?_, ?_, fun c hc => ?_, ?_, fun j hj => ?_, fun j hj => ?_, fun i hi => ?_, fun q hq => ⟨fl, ?_⟩, fun h hh => ?_,
    fun i hi => ?_, fun a ha hs => ?_⟩
  · rw [h7, h6, h4, h3, h0]
  · rw [bank, heng']; exact hempty
  · rw [bank, heng']
    refine (hother c hc).trans (SlotsOnly.bank ⟨h4, hbank⟩ e c |>.trans ?_)
    rw [bank, bank, engine, engine, heng3]
  · rw [heng']; exact hdrain
  · rw [hslot', hslot, if_pos ((hin j).2 hj)]; rfl
  · rw [hslot', hslot, if_neg fun h => hj ((hin j).1 h), hslot3]
  · rw [heng', hengines i hi, hengine i hi, engine, engine, heng3]
  · exact hflags q (by rw [op?, hops6]; exact hq)
  · rw [hops h hh, op?, hops6]; rfl
  · rw [show t.rng.copies = t0.rng.copies by rw [h7, h6, h4, h3]]; exact hcopies i hi
  · rw [hmemt, hmem a ⟨ha, hs⟩, h0]

/-- A drain after what was held for it left its slots. -/
theorem drained_of_slots {s v t : State} {e b : Nat} {d : DrainPlan} {f : Fmt} (h : SlotsOnly s v)
    (hslot : ∀ k, k ∉ drainSlots d f → v.slot e k = s.slot e k) (heng : ∀ i, i ≠ e → v.engine i = s.engine i)
    (hd : Drained v t e b d f) : Drained s t e b d f := by
  obtain ⟨hf, hempty, hother, hdrain, hfull, hslots, hengs, hflags, hops, hcopies, hmem⟩ := hd
  have hvf := h.1
  have hmv : v.mem = s.mem := by rw [hvf]
  have hov : v.ops = s.ops := by rw [hvf]
  have hrv : v.rng = s.rng := by rw [hvf]
  refine ⟨by rw [hf, hvf], hempty, fun c hc => (hother c hc).trans (h.bank e c), hdrain, hfull,
    fun k hk => (hslots k hk).trans (hslot k hk), fun i hi => (hengs i hi).trans (heng i hi), fun o ho => hflags o ?_,
    fun i hi => (hops i hi).trans ?_, fun k hk => (hcopies k hk).trans (by rw [hrv]), fun a ha hs => (hmem a ha hs).trans (by rw [hmv])⟩
  · rw [op?, hov]; exact ho
  · rw [op?, hov]; rfl

end State

end Sys2Proof.Machine

namespace Sys2Proof.Proofs
open Sys2Proof Sys2Proof.Machine Sys2Proof.Machine.State

theorem drain_starts (s : State) (e b : Nat) (d : DrainPlan) (o : RunOp) (f : Fmt) (hd : Map.get? (s.engine e).drains b = some d)
    (ho : s.op? d.op = some o) (hf : fmtOf d.fmt = some f) (_ : State.drainCheck d f = 0) (he : e < 1536)
    (hk : ∀ k ∈ State.drainSlots d f, k < 64)
    (hheld : ∀ k ∈ State.drainSlots d f, HeldReq.drain e b ∈ (s.slot e k).held → (s.slot e k).held = [.drain e b] ∧
      ((s.slot e k).st = .free ∨ (s.slot e k).st = .full)) :
    ∃ t, exec (.fillStart (.drain e b)) s = .next t ∧ Drained s t e b d f := by
  have hready : ((drainSlots d f).map fun k => e * 64 + k).all (s.headReady (.drain e b) false) = true := by
    simp only [List.all_map, List.all_eq_true, Function.comp_apply]
    intro k hm
    have hlt := hk k hm
    rw [headReady, show (e * 64 + k) / 64 = e by omega, show (e * 64 + k) % 64 = k by omega]
    by_cases hin : HeldReq.drain e b ∈ (s.slot e k).held
    · obtain ⟨hl, hst⟩ := hheld k hm hin
      simp [hl, hst]
    · simp [hin]
  obtain ⟨v, hv⟩ : ∃ v, v = ((drainSlots d f).map fun k => e * 64 + k).foldl (State.unhold (.drain e b) false) s := ⟨_, rfl⟩
  obtain ⟨hvo, hslot⟩ := slotAct_foldl (slotAct_unhold (.drain e b) false) (nodup_engineSlots e (nodup_drainSlots d f)) s
  have hengs : ∀ i, i ≠ e → v.engine i = s.engine i := fun i hi => by
    rw [hv]
    refine foldl_rel (R := fun u w => w.engine i = u.engine i) (fun _ => rfl) (fun _ _ _ h h' => h'.trans h) (fun u sl hm => ?_) s
    obtain ⟨k, hin, rfl⟩ := List.mem_map.1 hm
    have hlt := hk k hin
    exact engine_unhold_ne _ _ u (by omega)
  rw [← hv] at hvo hslot
  have hdr := drained_of_slots hvo (fun k hn => ?_) hengs (drainNow_drained v e b d o f he hk)
  · refine ⟨_, ?_, hdr⟩
    show execFillStart (.drain e b) s = _
    simp only [execFillStart, hd, ho, hf]
    rw [if_pos hready, ← hv]
    exact keepQueue_of_pending (by rw [hdr.1])
  · rw [hslot, if_neg]
    rintro ⟨-, -, hm⟩
    simp only [List.mem_map, Nat.add_left_cancel_iff, exists_eq_right] at hm
    exact hn hm

/-- Settles O3, clause by clause. -/
theorem streamUnit : Obligations.StreamUnit :=
  ⟨issue_takes, issue_waits, issue_refused, issue_denied, context_freed, fill_starts, drain_starts, slot_released, fill_completes,
    fill_advances, direct_completes, flush_ends, flush_waits, spill_completes, prefetch_issues, prefetch_none⟩

end Sys2Proof.Proofs

end

section
/-! PROOFS. Engines: groups, drains, and tasks switched and resumed (O5). -/
namespace Sys2Proof.Machine
open Sys2Proof

/-- The task of a group that has run: one group on, in its bank (R88). -/
def Task.advanced (t : Task) (g : GroupPlan) : Task := { t with bank := g.bank, pos := t.pos + 1, stalled := false, left := g.blocks }

namespace State

/-! ### Banks and slots of an engine as they are set -/

theorem engine_engineSet_self (s : State) (e : Nat) (g : Eng) : (s.engineSet e g).engine e = g := by rw [engine_engineSet, if_pos rfl]

theorem engine_engineSet_ne (s : State) {e i : Nat} (g : Eng) (h : i ≠ e) : (s.engineSet e g).engine i = s.engine i := by
  rw [engine_engineSet, if_neg h]

/-- A bank set, and nothing else of the engines. -/
theorem engine_bankSet (s : State) (e b : Nat) (v : Bank) : (s.bankSet e b v).engine e =
    { s.engine e with bank0 := if b = 0 then v else (s.engine e).bank0, bank1 := if b = 0 then (s.engine e).bank1 else v } := by
  rw [bankSet, engine_engineSet_self]
  split <;> rfl

theorem engine_bankSet_ne (s : State) {e i : Nat} (b : Nat) (v : Bank) (h : i ≠ e) : (s.bankSet e b v).engine i = s.engine i :=
  engine_engineSet_ne s _ h

theorem bank_bankSet_self (s : State) (e b : Nat) (v : Bank) : (s.bankSet e b v).bank e b = v := by
  rw [bank, engine_bankSet]
  split <;> rfl

/-- The other bank keeps what it holds. -/
theorem bank_bankSet_other (s : State) (e : Nat) {b c : Nat} (v : Bank) (h : c = 0 ↔ b ≠ 0) : (s.bankSet e b v).bank e c = s.bank e c := by
  rw [bank, bank, engine_bankSet]
  by_cases hb : b = 0
  · have hc : c ≠ 0 := fun hc => h.1 hc hb
    simp only [hb, hc, if_true, if_false]
  · simp only [hb, h.2 hb, if_true, if_false]

theorem slot_bankSet (s : State) (e b : Nat) (v : Bank) (k : Nat) : (s.bankSet e b v).slot e k = s.slot e k := by
  rw [slot, slot, engine_bankSet]

/-- What engines with the same content show. -/
theorem engine_congr {s t : State} (h : t.eng = s.eng) (e : Nat) : t.engine e = s.engine e := by rw [engine, engine, h]
theorem bank_congr {s t : State} (h : t.eng = s.eng) (e b : Nat) : t.bank e b = s.bank e b := by rw [bank, bank, engine_congr h]
theorem slot_congr {s t : State} (h : t.eng = s.eng) (e k : Nat) : t.slot e k = s.slot e k := by rw [slot, slot, engine_congr h]

/-- The tasks of an engine as they are set: the one it runs and those suspended (R95 to R98). -/
def tasksSet (s : State) (e : Nat) (run : Option Task) (susp : List Susp) : State :=
  s.engineSet e { s.engine e with run := run, susp := susp }

theorem engine_tasksSet (s : State) (e : Nat) (run : Option Task) (susp : List Susp) :
    (s.tasksSet e run susp).engine e = { s.engine e with run := run, susp := susp } := engine_engineSet_self ..

theorem bank_tasksSet (s : State) (e : Nat) (run : Option Task) (susp : List Susp) (b : Nat) :
    (s.tasksSet e run susp).bank e b = s.bank e b := by
  rw [bank, bank, engine_tasksSet]

theorem slot_tasksSet (s : State) (e : Nat) (run : Option Task) (susp : List Susp) (k : Nat) :
    (s.tasksSet e run susp).slot e k = s.slot e k := by
  rw [slot, slot, engine_tasksSet]

/-- A state that differs in engines alone still does when its engines change. -/
theorem with_eng_of {s u : State} (h : u = { s with eng := u.eng }) (x : Map Eng) : ({ u with eng := x } : State) = { s with eng := x } := by
  rw [h]

/-- Slots of one engine are changed as `g` says, those that `l` names, and nothing else. -/
structure SlotsMade (e : Nat) (l : List Nat) (g : Slot → Slot) (s t : State) : Prop where
  only : SlotsOnly s t
  slots : ∀ k, t.slot e k = if k ∈ l then g (s.slot e k) else s.slot e k
  others : ∀ i, i ≠ e → t.engine i = s.engine i

/-- An action on each of several slots of an engine. -/
theorem slotsMade_foldl {e : Nat} {f : State → Nat → State} {g : Slot → Slot} (hf : ∀ u k, f u k = u.slotSet e k (g (u.slot e k))) :
    ∀ {l : List Nat} (_ : l.Nodup) (s : State), SlotsMade e l g s (l.foldl f s)
  | [], _, s => ⟨slotsOnly_refl s, fun _ => by simp, fun _ _ => rfl⟩
  | k :: l, hl, s => by
    obtain ⟨hnot, hl⟩ := List.nodup_cons.1 hl
    obtain ⟨ho, hs, he⟩ := slotsMade_foldl hf hl (f s k)
    refine ⟨slotsOnly_trans _ _ _ (hf s k ▸ slotsOnly_slotSet ..) ho, fun j => ?_, fun i hi => (he i hi).trans ?_⟩
    · rw [List.foldl_cons, hs, hf, slot_slotSet]
      by_cases hj : j = k
      · subst hj; simp [hnot]
      · simp [hj]
    · rw [hf, slotSet, engine_engineSet_ne _ _ hi]

/-! ### What a group start comes to (R48, R86 to R88) -/

/-- A group that the library can plan for the operator that runs on the engine, or is next there (R48, R61, R88). -/
structure GroupPlanned (s : State) (e : Nat) (g : GroupPlan) (o : RunOp) (fa fb : Fmt) : Prop where
  op : s.op? g.op = some o
  aFmt : fmtOf g.aFmt = some fa
  bFmt : fmtOf g.bFmt = some fb
  fits : e < 1536 ∧ o.dispatched = true ∧ o.parts.contains e = true ∧ s.mayRun e g.op = true ∧ 1 ≤ g.kn ∧ g.kn ≤ 32 ∧
    (usesPort g = false ∨ e % 4 = 3)

theorem groupPlanned_of {s : State} {e : Nat} {g : GroupPlan} {o : RunOp} {fa fb : Fmt} (ho : s.op? g.op = some o)
    (ha : fmtOf g.aFmt = some fa) (hb : fmtOf g.bFmt = some fb) (he : e < 1536) (hd : o.dispatched = true) (hp : o.parts.contains e = true)
    (hm : s.mayRun e g.op = true) (h1 : 1 ≤ g.kn) (h32 : g.kn ≤ 32) (hport : usesPort g = true → e % 4 = 3) : GroupPlanned s e g o fa fb :=
  ⟨ho, ha, hb, he, hd, hp, hm, h1, h32, (Bool.eq_false_or_eq_true (usesPort g)).symm.imp_right hport⟩

/-- The formats of the operands combine, and an MX group has its 32 steps (R48, R63). -/
structure GroupFormats (g : GroupPlan) (fa fb : Fmt) (k : AccKind) : Prop where
  kind : accKind fa fb = some k
  steps : (fa.isMx = true ∨ fb.isMx = true) → g.kn = 32

theorem GroupFormats.whole {g : GroupPlan} {fa fb : Fmt} {k : AccKind} (h : GroupFormats g fa fb k) :
    ¬(((fa.isMx || fb.isMx) && decide (g.kn ≠ 32)) = true) := by
  rw [Bool.and_eq_true, Bool.or_eq_true, decide_eq_true_eq]
  exact fun hn => hn.2 (h.steps hn.1)

/-- The task a group belongs to: the running one, or the operator's, which begins. -/
def groupTask (s : State) (e : Nat) (g : GroupPlan) : Task :=
  match (s.engine e).run with
  | some t => t
  | none => ⟨g.op, g.bank, 0, g.blocks, false⟩

/-- The running task is the operator's own. -/
theorem groupTask_op {s : State} {e : Nat} {g : GroupPlan} (h : s.mayRun e g.op = true) : (s.groupTask e g).op = g.op := by
  unfold mayRun at h
  unfold groupTask
  cases hr : (s.engine e).run with
  | none => rfl
  | some t =>
    simp only [hr] at h
    exact beq_iff_eq.1 h

/-- A group computed (R48, R86, R88): its corrected words are counted, its slots are in USE, and its bank holds its sums. -/
def groupDone (s : State) (e ce : Nat) (g : GroupPlan) (fa fb : Fmt) (k : AccKind) : State :=
  let u := (groupSlots g fa fb).foldl (fun t sl => t.slotState e sl .use) (s.bump (R.CDIE_SRAM_CE_CNT (e / 96)) ce)
  let u := u.bankSet e g.bank ⟨if g.last then .finished else .computing, g.op, decide (k = .int), (s.groupCompute e g fa fb k).1,
    (g.start.isNone || g.start == some 3) && (s.bank e g.bank).bad || (s.groupPoison e g fa fb).isSome⟩
  let u := u.tasksSet e (some ((s.groupTask e g).advanced g)) (u.engine e).susp
  u.opFlags g.op (s.groupCompute e g fa fb k).2

section GroupStart
variable {s : State} {e : Nat} {g : GroupPlan} {o : RunOp} {fa fb : Fmt} {k : AccKind}

theorem exec_group_unlisted (hp : GroupPlanned s e g o fa fb) (ce : Nat) (ue : Option Nat) (hk : accKind fa fb = none) :
    exec (.engineGroupStart e g ce ue) s = keepQueue s (.next (s.opFailOn g.op e 3 1)) := by
  show execEngineGroupStart e g ce ue s = _
  simp only [execEngineGroupStart, hp.op, hp.aFmt, hp.bFmt]
  rw [if_pos hp.fits]
  simp only [hk]

theorem exec_group_partial (hp : GroupPlanned s e g o fa fb) (ce : Nat) (ue : Option Nat) (hk : accKind fa fb = some k)
    (hmx : (fa.isMx = true ∨ fb.isMx = true) ∧ g.kn ≠ 32) :
    exec (.engineGroupStart e g ce ue) s = keepQueue s (.next (s.opFailOn g.op e 3 2)) := by
  show execEngineGroupStart e g ce ue s = _
  simp only [execEngineGroupStart, hp.op, hp.aFmt, hp.bFmt]
  rw [if_pos hp.fits]
  simp only [hk]
  rw [if_pos (by rw [Bool.and_eq_true, Bool.or_eq_true, decide_eq_true_eq]; exact hmx)]

theorem exec_group_free (hp : GroupPlanned s e g o fa fb) (hf : GroupFormats g fa fb k) (ce : Nat) (ue : Option Nat) {sl : Nat}
    (hfree : (groupSlots g fa fb).find? (fun sl => decide ((s.slot e sl).st = .free)) = some sl) :
    exec (.engineGroupStart e g ce ue) s = keepQueue s (.next (s.opFailOn g.op e 6 (BitVec.ofNat 8 sl))) := by
  show execEngineGroupStart e g ce ue s = _
  simp only [execEngineGroupStart, hp.op, hp.aFmt, hp.bFmt]
  rw [if_pos hp.fits]
  simp only [hf.kind]
  rw [if_neg hf.whole]
  simp only [hfree]

theorem exec_group_late (hp : GroupPlanned s e g o fa fb) (hf : GroupFormats g fa fb k) (ce : Nat) (ue : Option Nat)
    (hfree : (groupSlots g fa fb).find? (fun sl => decide ((s.slot e sl).st = .free)) = none)
    (hready : s.groupReady e g fa fb = false) :
    exec (.engineGroupStart e g ce ue) s =
      keepQueue s (.next (s.tasksSet e (some { s.groupTask e g with stalled := true }) (s.engine e).susp)) := by
  show execEngineGroupStart e g ce ue s = _
  simp only [execEngineGroupStart, hp.op, hp.aFmt, hp.bFmt]
  rw [if_pos hp.fits]
  simp only [hf.kind]
  rw [if_neg hf.whole]
  simp only [hfree]
  exact congrArg (keepQueue s) (if_pos (by simp [hready]))

/-- Slots that are FULL or in USE are not FREE. -/
theorem no_free_of_ready (hready : s.groupReady e g fa fb = true) :
    (groupSlots g fa fb).find? (fun sl => decide ((s.slot e sl).st = .free)) = none := by
  unfold groupReady at hready
  obtain ⟨hall, -⟩ := Bool.and_eq_true_iff.1 hready
  refine List.find?_eq_none.2 fun sl hsl hfree => ?_
  have hst := List.all_eq_true.1 hall sl hsl
  rw [of_decide_eq_true hfree] at hst
  exact absurd hst (by decide)

/-- A group whose operands and bank stand ready runs; one that reads poison ends its operator besides. -/
theorem exec_group_runs (hp : GroupPlanned s e g o fa fb) (hf : GroupFormats g fa fb k) (ce : Nat) (hready : s.groupReady e g fa fb = true)
    (hbank : s.bankReady e g = true) :
    (s.groupPoison e g fa fb = none → exec (.engineGroupStart e g ce none) s = keepQueue s (.next (s.groupDone e ce g fa fb k))) ∧
    (∀ sl a, s.groupPoison e g fa fb = some (sl, a) →
      exec (.engineGroupStart e g ce none) s = keepQueue s (.next ((s.groupDone e ce g fa fb k).opFaultIn g.op e 9 0 a e sl))) := by
  have hpoison : (s.bump (R.CDIE_SRAM_CE_CNT (e / 96)) ce).groupPoison e g fa fb = s.groupPoison e g fa fb := rfl
  refine ⟨fun hn => ?_, fun sl a hn => ?_⟩
  all_goals
    show execEngineGroupStart e g ce none s = _
    simp only [execEngineGroupStart, hp.op, hp.aFmt, hp.bFmt]
    rw [if_pos hp.fits]
    simp only [hf.kind]
    rw [if_neg hf.whole]
    simp only [no_free_of_ready hready, hready, hbank, Bool.not_true, Bool.false_eq_true, if_false, hpoison, hn, groupDone]
    rfl

end GroupStart

/-- A group has run (R48, R56, R86 to R88): its bank, its slots, its task, its operator's flags and the count of corrected words. -/
structure GroupRan (s t : State) (e ce : Nat) (g : GroupPlan) (o : RunOp) (fa fb : Fmt) (k : AccKind) : Prop where
  frame : t = { s with eng := t.eng, ops := t.ops, regs := t.regs }
  bank : t.bank e g.bank = ⟨if g.last then .finished else .computing, g.op, decide (k = .int), (s.groupCompute e g fa fb k).1,
    (g.start.isNone || g.start == some 3) && (s.bank e g.bank).bad || (s.groupPoison e g fa fb).isSome⟩
  other : ∀ b, (b = 0 ↔ g.bank ≠ 0) → t.bank e b = s.bank e b
  slots : ∀ sl, t.slot e sl = if sl ∈ groupSlots g fa fb then { s.slot e sl with st := .use } else s.slot e sl
  run : (t.engine e).run = some ((s.groupTask e g).advanced g)
  susp : (t.engine e).susp = (s.engine e).susp
  engines : ∀ i, i ≠ e → t.engine i = s.engine i
  op : t.op? g.op = some { o with flags := o.flags ||| (s.groupCompute e g fa fb k).2 }
  ops : ∀ h, h ≠ g.op → t.op? h = s.op? h
  kept : RegsKept s t [R.CDIE_SRAM_CE_CNT (e / 96)]
  count : t.rd (R.CDIE_SRAM_CE_CNT (e / 96)) = satAdd32 (s.rd (R.CDIE_SRAM_CE_CNT (e / 96))) ce

theorem groupDone_ran (s : State) (e ce : Nat) (g : GroupPlan) {o : RunOp} (fa fb : Fmt) (k : AccKind) (ho : s.op? g.op = some o) :
    GroupRan s (s.groupDone e ce g fa fb k) e ce g o fa fb k := by
  unfold groupDone
  extract_lets u v w
  obtain ⟨⟨hu, hue⟩, hslots, hothers⟩ : SlotsMade e (groupSlots g fa fb) (fun v => { v with st := .use })
      (s.bump (R.CDIE_SRAM_CE_CNT (e / 96)) ce) u := slotsMade_foldl (fun _ _ => rfl) (nodup_eraseDups _) _
  have hw : w = { s.bump (R.CDIE_SRAM_CE_CNT (e / 96)) ce with eng := w.eng } := with_eng_of hu w.eng
  have hbank : w.bank e g.bank = _ := (bank_tasksSet v e _ _ _).trans (bank_bankSet_self u e g.bank _)
  have hother : ∀ b, (b = 0 ↔ g.bank ≠ 0) → w.bank e b = s.bank e b := fun b hb =>
    (bank_tasksSet v e _ _ b).trans ((bank_bankSet_other u e _ hb).trans (SlotsOnly.bank ⟨hu, hue⟩ e b))
  have hslot : ∀ sl, w.slot e sl = u.slot e sl := fun sl => (slot_tasksSet v e _ _ sl).trans (slot_bankSet u e _ _ sl)
  have hself : w.engine e = { v.engine e with run := some ((s.groupTask e g).advanced g) } := engine_tasksSet v e _ _
  have hsusp : (v.engine e).susp = (s.engine e).susp := by
    rw [engine_bankSet, hue]
    rfl
  have hengines : ∀ i, i ≠ e → w.engine i = s.engine i := fun i hi =>
    (engine_engineSet_ne v _ hi).trans ((engine_bankSet_ne u _ _ hi).trans (hothers i hi))
  clear_value w
  obtain ⟨ht, hop, hops⟩ := opFlags_spec w g.op (s.groupCompute e g fa fb k).2
  generalize w.opFlags g.op (s.groupCompute e g fa fb k).2 = t at ht hop hops
  have heng : t.eng = w.eng := by rw [ht]
  have hopw : ∀ h, w.op? h = s.op? h := fun h => by rw [hw]; rfl
  have hregs : t.regs = (s.bump (R.CDIE_SRAM_CE_CNT (e / 96)) ce).regs := by rw [ht, hw]
  refine ⟨by rw [ht, hw]; rfl, (bank_congr heng ..).trans hbank, fun b hb => (bank_congr heng ..).trans (hother b hb), fun sl => ?_,
    by rw [engine_congr heng, hself], by rw [engine_congr heng, hself, hsusp], fun i hi => (engine_congr heng i).trans (hengines i hi),
    hop o ((hopw _).trans ho), fun h hh => (hops h hh).trans (hopw h), fun a ha => ?_, ?_⟩
  · rw [slot_congr heng, hslot, hslots]
    rfl
  · exact (rd_congr hregs a).trans (kept_wr s _ _ a ha)
  · exact (rd_congr hregs _).trans (rd_wr_self ..)

/-! ### Drains (R54, R56, R87) -/

/-- A bank finished by the operator of a drain, with no other drain held for it (R56, R87). -/
structure DrainPlanned (s : State) (e b : Nat) (d : DrainPlan) (o : RunOp) (f : Fmt) : Prop where
  op : s.op? d.op = some o
  fmt : fmtOf d.fmt = some f
  fits : e < 1536 ∧ (s.bank e b).st = .finished ∧ (s.bank e b).op = d.op ∧ (Map.get? (s.engine e).drains b).isNone = true

theorem drainPlanned_of {s : State} {e b : Nat} {d : DrainPlan} {o : RunOp} {f : Fmt} (ho : s.op? d.op = some o)
    (hf : fmtOf d.fmt = some f) (he : e < 1536) (hst : (s.bank e b).st = .finished) (hop : (s.bank e b).op = d.op)
    (hn : Map.get? (s.engine e).drains b = none) : DrainPlanned s e b d o f :=
  ⟨ho, hf, he, hst, hop, by rw [hn]; rfl⟩

/-- A slot that a drain may write at once (R87). -/
def DrainFree (v : Slot) : Prop := (v.st = .free ∨ v.st = .full) ∧ v.held = []

theorem drainFree_iff (v : Slot) : ((v.st == .free || v.st == .full) && v.held.isEmpty) = true ↔ DrainFree v := by
  rw [Bool.and_eq_true, Bool.or_eq_true, beq_iff_eq, beq_iff_eq, List.isEmpty_iff]
  rfl

/-- What a drain that must wait makes of a slot (R87): one it may write is reserved, and on another it is held. -/
def drainHeld (e b : Nat) (v : Slot) : Slot :=
  if (v.st == .free || v.st == .full) && v.held.isEmpty then { v with st := .fill } else { v with held := v.held ++ [.drain e b] }

/-- A drain set to wait for its slots (R87). -/
def drainSet (s : State) (e b : Nat) (d : DrainPlan) : State :=
  s.engineSet e { s.engine e with drains := Map.set (s.engine e).drains b d }

theorem engine_drainSet (s : State) (e b : Nat) (d : DrainPlan) :
    (s.drainSet e b d).engine e = { s.engine e with drains := Map.set (s.engine e).drains b d } := engine_engineSet_self ..

/-- A drain held on its slots (R87). -/
def drainWaits (s : State) (e b : Nat) (d : DrainPlan) (f : Fmt) : State :=
  ((drainSlots d f).foldl (fun u k => u.slotSet e k (drainHeld e b (u.slot e k))) s).drainSet e b d

section Drain
variable {s : State} {e b : Nat} {d : DrainPlan} {o : RunOp} {f : Fmt}

theorem exec_drain_kept (hp : DrainPlanned s e b d o f) (hk : d.keep = true) :
    exec (.bankDrain e b d) s = keepQueue s (.next (s.bankSet e b { s.bank e b with st := .kept })) := by
  show execBankDrain e b d s = _
  simp only [execBankDrain, hp.op, hp.fmt]
  rw [if_pos hp.fits, if_pos hk]

theorem exec_drain_refused (hp : DrainPlanned s e b d o f) (hk : d.keep = false) (hc : drainCheck d f ≠ 0) :
    exec (.bankDrain e b d) s = keepQueue s (.next (s.opFailOn d.op e 3 (BitVec.ofNat 8 (drainCheck d f)))) := by
  show execBankDrain e b d s = _
  simp only [execBankDrain, hp.op, hp.fmt]
  rw [if_pos hp.fits, if_neg (by simp [hk]), if_pos hc]

theorem exec_drain_now (hp : DrainPlanned s e b d o f) (hk : d.keep = false) (hc : drainCheck d f = 0)
    (hs : ∀ k ∈ drainSlots d f, DrainFree (s.slot e k)) :
    exec (.bankDrain e b d) s = keepQueue s (.next (s.drainNow e b d o f)) := by
  show execBankDrain e b d s = _
  simp only [execBankDrain, hp.op, hp.fmt]
  rw [if_pos hp.fits, if_neg (by simp [hk]), if_neg (not_not_intro hc),
    if_pos (List.all_eq_true.2 fun k hm => (drainFree_iff _).2 (hs k hm))]

theorem exec_drain_waits (hp : DrainPlanned s e b d o f) (hk : d.keep = false) (hc : drainCheck d f = 0)
    (hs : ∃ k ∈ drainSlots d f, ¬DrainFree (s.slot e k)) :
    exec (.bankDrain e b d) s = keepQueue s (.next (s.drainWaits e b d f)) := by
  have hall : ¬((drainSlots d f).all (fun k => ((s.slot e k).st == .free || (s.slot e k).st == .full) && (s.slot e k).held.isEmpty)) = true := by
    rw [List.all_eq_true]
    obtain ⟨k, hm, hn⟩ := hs
    exact fun h => hn ((drainFree_iff _).1 (h k hm))
  have hstep : (fun (u : State) k => if ((u.slot e k).st == .free || (u.slot e k).st == .full) && (u.slot e k).held.isEmpty then
      u.slotState e k .fill else u.slotSet e k { u.slot e k with held := (u.slot e k).held ++ [.drain e b] }) =
      fun u k => u.slotSet e k (drainHeld e b (u.slot e k)) := by
    funext u k
    rw [drainHeld]
    split <;> rfl
  show execBankDrain e b d s = _
  simp only [execBankDrain, hp.op, hp.fmt]
  rw [if_pos hp.fits, if_neg (by simp [hk]), if_neg (not_not_intro hc), if_neg hall, hstep]
  rfl

end Drain

/-- A drain held on its slots leaves its bank and every other slot (R87). -/
theorem drainWaits_spec (s : State) (e b : Nat) (d : DrainPlan) (f : Fmt) : s.drainWaits e b d f = { s with eng := (s.drainWaits e b d f).eng } ∧
    (∀ c, (s.drainWaits e b d f).bank e c = s.bank e c) ∧ Map.get? ((s.drainWaits e b d f).engine e).drains b = some d ∧
    ∀ k ∈ drainSlots d f, (s.drainWaits e b d f).slot e k = drainHeld e b (s.slot e k) := by
  obtain ⟨hu, hslots, -⟩ : SlotsMade e (drainSlots d f) (drainHeld e b) s
      ((drainSlots d f).foldl (fun u k => u.slotSet e k (drainHeld e b (u.slot e k))) s) :=
    slotsMade_foldl (fun _ _ => rfl) (nodup_drainSlots d f) s
  unfold drainWaits
  generalize (drainSlots d f).foldl (fun u k => u.slotSet e k (drainHeld e b (u.slot e k))) s = u at hu hslots
  refine ⟨with_eng_of hu.1 _, fun c => ?_, ?_, fun k hk => ?_⟩
  · rw [bank, engine_drainSet]
    exact hu.bank e c
  · rw [engine_drainSet]
    exact Map.get?_set_self ..
  · rw [slot, engine_drainSet]
    exact (hslots k).trans (if_pos hk)

/-- Draws come from one copy of a generator, and nothing else happens (R44, R407). -/
def DrewFrom (s t : State) (key : Nat) : Prop :=
  t = { s with rng := { s.rng with copies := t.rng.copies } } ∧ ∀ k, k ≠ key → Map.get? t.rng.copies k = Map.get? s.rng.copies k

/-- A drain is its bytes, its slots FULL, its bank emptied, and flags (R54, R56, R60, R87). -/
theorem drainNow_eq (s : State) (e b : Nat) (d : DrainPlan) (o : RunOp) (f : Fmt) : ∃ w v fl,
    DrewFrom s w (d.op * 2048 + e) ∧ BytesKept (DrainSpares e d f) w v ∧
    s.drainNow e b d o f = (((drainSlots d f).foldl (fun u k => u.slotState e k .full) v).bankDrained e b).opFlags d.op fl := by
  unfold drainNow
  extract_lets bk k nc sr sat m vs ys dr xs q cs r w t1 t2 t3 t4 t5 g t6
  have hxs : xs.length = d.rows * d.cols := by simp [xs, ys, vs, bankVals]
  obtain ⟨hr1, hr2, hr3⟩ : r.1.length ≤ d.rows * d.cols ∧ r.2.1.length ≤ (d.rows * d.cols + 31) / 32 ∧
    (f.isBlock = false → r.2.1 = []) := length_drainCast d f sat dr.1 hxs
  have hbytes : BytesKept (DrainSpares e d f) w t2 := bytesKept_drain w e d f hr1 hr2 hr3
  exact ⟨w, t3, _, engDraws_spec s d.op e vs.length sr, rel_ite (bytesKept_trans _ _ _ hbytes
    (foldl_rel (bytesKept_refl _) bytesKept_trans (fun u a _ => bytesKept_poisonAt ..) t2)) hbytes, rfl⟩

/-- A drain written, wherever its slots lie (R54, R56, R87). -/
theorem drainNow_spec (s : State) (e b : Nat) (d : DrainPlan) (o : RunOp) (f : Fmt) : Drained s (s.drainNow e b d o f) e b d f := by
  obtain ⟨w, v, fl, ⟨hw, hcopies⟩, ⟨hv, hmem⟩, hnow⟩ := drainNow_eq s e b d o f
  obtain ⟨⟨hu, hue⟩, hslots, hothers⟩ : SlotsMade e (drainSlots d f) slotFilled v
      ((drainSlots d f).foldl (fun u k => u.slotState e k .full) v) := slotsMade_foldl (fun _ _ => rfl) (nodup_drainSlots d f) v
  generalize (drainSlots d f).foldl (fun u k => u.slotState e k .full) v = u at hu hue hslots hothers hnow
  obtain ⟨hx, hempty, hother, hdrain, hkept, hengines⟩ := bankDrained_spec u e b
  generalize u.bankDrained e b = x at hx hempty hother hdrain hkept hengines hnow
  obtain ⟨ht, hflags, hops⟩ := opFlags_spec x d.op fl
  rw [← hnow] at ht hflags hops
  generalize s.drainNow e b d o f = t at ht hflags hops
  have hxs : x = { s with mem := v.mem, ms := { s.ms with poison := v.ms.poison }, eng := x.eng, rng := { s.rng with copies := w.rng.copies } } := by
    rw [hx, hu, hv, hw]
  have heng : t.eng = x.eng := by rw [ht]
  have hvs : v.eng = s.eng := by rw [hv, hw]
  have hop : ∀ h, x.op? h = s.op? h := fun h => by rw [op?, hxs, op?]
  refine ⟨by rw [ht, hxs], (bank_congr heng ..).trans hempty, fun c hc => (bank_congr heng ..).trans ((hother c hc).trans ?_),
    by rw [engine_congr heng, hdrain], fun k hk => ?_, fun k hk => ?_,
    fun i hi => (engine_congr heng i).trans ((hengines i hi).trans ((hothers i hi).trans (engine_congr hvs i))),
    fun q hq => ⟨fl, hflags q ((hop _).trans hq)⟩, fun h hh => (hops h hh).trans (hop h), fun i hi => ?_, fun a ha hs => ?_⟩
  · exact (SlotsOnly.bank ⟨hu, hue⟩ e c).trans (bank_congr hvs e c)
  · rw [slot_congr heng, hkept, hslots, if_pos hk]
    rfl
  · rw [slot_congr heng, hkept, hslots, if_neg hk, slot_congr hvs]
  · rw [show t.rng.copies = w.rng.copies by rw [ht, hxs]]
    exact hcopies i hi
  · rw [show t.mem = v.mem by rw [ht, hxs], hmem a ⟨ha, hs⟩, hw]

/-! ### Tasks suspended and restored (R95 to R98) -/

/-- The running task computes in its bank (R96). -/
abbrev Computes (s : State) (e : Nat) (k : Task) : Prop := (s.bank e k.bank).st = .computing ∧ (s.bank e k.bank).op = k.op

theorem computes_iff (s : State) (e : Nat) (k : Task) :
    ((s.bank e k.bank).st == .computing && (s.bank e k.bank).op == k.op) = true ↔ s.Computes e k := by
  rw [Bool.and_eq_true, beq_iff_eq, beq_iff_eq]

/-- The running task put aside, its bank's words where they are. -/
def setAside (s : State) (e : Nat) (x : Susp) : State :=
  s.tasksSet e none ((s.engine e).susp ++ [x])

theorem suspendRun_computing {s : State} {e : Nat} {k : Task} (h : s.Computes e k) : s.suspendRun e k =
    (((s.saveBank e (freePlace (s.engine e).susp) (s.bank e k.bank).vals).setAside e (suspEntry s e k)).bankSet e k.bank Bank.none).bump
      (R.OXE_SW_CNT e) := by
  rw [suspEntry, if_pos h]
  simp only [suspendRun, (computes_iff s e k).2 h, if_true]
  rfl

theorem suspendRun_other {s : State} {e : Nat} {k : Task} (h : ¬s.Computes e k) : s.suspendRun e k =
    (s.setAside e (suspEntry s e k)).bump (R.OXE_SW_CNT e) := by
  rw [suspEntry, if_neg h]
  simp only [suspendRun, mt (computes_iff s e k).1 h]
  rfl

theorem setAside_spec (s : State) (e : Nat) (x : Susp) : s.setAside e x = { s with eng := (s.setAside e x).eng } ∧
    ((s.setAside e x).engine e).susp = (s.engine e).susp ++ [x] ∧ (∀ c, (s.setAside e x).bank e c = s.bank e c) ∧
    (∀ j, (s.setAside e x).slot e j = s.slot e j) ∧ ∀ i, i ≠ e → (s.setAside e x).engine i = s.engine i :=
  ⟨rfl, by rw [setAside, engine_tasksSet], fun c => bank_tasksSet s e _ _ c, fun j => slot_tasksSet s e _ _ j,
    fun i hi => engine_engineSet_ne s _ hi⟩

theorem length_words (l : List Word32) : (l.flatMap (fun w => leBytes 4 w.toNat)).length = 4 * l.length := by
  simp [List.length_flatMap, length_leBytes, Nat.mul_comm]

/-- A task suspended (R96, R97): its entry is last, and its bank is free where it computes in it. -/
theorem suspendRun_spec (s : State) (e : Nat) (k : Task) : Suspended s (s.suspendRun e k) e k ∧
    ((s.suspendRun e k).engine e).susp = (s.engine e).susp ++ [suspEntry s e k] ∧
    (s.suspendRun e k).bank e k.bank =
      if (s.bank e k.bank).st = .computing ∧ (s.bank e k.bank).op = k.op then Bank.none else s.bank e k.bank := by
  by_cases h : s.Computes e k
  · rw [suspendRun_computing h, if_pos h]
    obtain ⟨hf, hsusp, hbank, hslot, heng⟩ := setAside_spec (s.saveBank e (freePlace (s.engine e).susp) (s.bank e k.bank).vals) e (suspEntry s e k)
    generalize (s.saveBank e (freePlace (s.engine e).susp) (s.bank e k.bank).vals).setAside e (suspEntry s e k) = u at hf hsusp hbank hslot heng
    have hmem : u.mem = (s.saveBank e (freePlace (s.engine e).susp) (s.bank e k.bank).vals).mem := by rw [hf]
    have hregs : u.regs = s.regs := by rw [hf]; rfl
    refine ⟨⟨?_, ?_, ?_, fun i hi => ?_, fun j => ?_, fun c hc => ?_, fun _ => ?_, fun a ha => ?_⟩, ?_, ?_⟩
    · show ({ u with eng := _, regs := _ } : State) = _
      rw [hf]
      rfl
    · exact (rd_wr_self ..).trans (by rw [rd_congr (by exact hregs)])
    · exact fun a ha => (kept_wr _ _ _ a ha).trans (rd_congr (by exact hregs) a)
    · exact (engine_bankSet_ne u _ _ hi).trans (heng i hi)
    · exact (slot_bankSet u e _ _ j).trans (hslot j)
    · exact (bank_bankSet_other u e _ hc).trans (hbank c)
    · show Mem.read u.mem _ _ = _
      rw [hmem, ← length_words]
      exact Mem.read_write ..
    · show Mem.get u.mem a = _
      rw [hmem]
      exact Mem.get_write_out _ _ _ _ (by rw [length_words]; exact ha.resolve_left (not_not_intro h))
    · show ((u.bankSet e k.bank Bank.none).engine e).susp = _
      rw [engine_bankSet]
      exact hsusp
    · exact bank_bankSet_self u e k.bank _
  · rw [suspendRun_other h, if_neg h]
    obtain ⟨hf, hsusp, hbank, hslot, heng⟩ := setAside_spec s e (suspEntry s e k)
    generalize s.setAside e (suspEntry s e k) = u at hf hsusp hbank hslot heng
    have hregs : u.regs = s.regs := by rw [hf]
    refine ⟨⟨?_, ?_, ?_, heng, hslot, fun c _ => hbank c, fun hm => absurd hm h, fun a _ => ?_⟩, hsusp, hbank k.bank⟩
    · show ({ u with regs := _ } : State) = _
      rw [hf]
      rfl
    · exact (rd_wr_self ..).trans (by rw [rd_congr hregs])
    · exact fun a ha => (kept_wr _ _ _ a ha).trans (rd_congr hregs a)
    · show Mem.get u.mem a = _
      rw [hf]

/-- What is done then to the engine's tasks and to the bank leaves the rest of a suspension. -/
theorem suspended_of_engine {s u t : State} {e : Nat} {k : Task} (h : Suspended s u e k) (ht : t = { u with eng := t.eng })
    (heng : ∀ i, i ≠ e → t.engine i = u.engine i) (hslot : ∀ j, t.slot e j = u.slot e j)
    (hbank : ∀ c, (c = 0 ↔ k.bank ≠ 0) → t.bank e c = u.bank e c) : Suspended s t e k := by
  obtain ⟨hf, hcount, hkept, hengines, hslots, hbanks, hsaved, hmem⟩ := h
  have hregs : t.regs = u.regs := by rw [ht]
  have hm : t.mem = u.mem := by rw [ht]
  exact ⟨by rw [ht, hf], (rd_congr hregs _).trans hcount, fun a ha => (rd_congr hregs a).trans (hkept a ha),
    fun i hi => (heng i hi).trans (hengines i hi), fun j => (hslot j).trans (hslots j), fun c hc => (hbank c hc).trans (hbanks c hc),
    fun hmine => by rw [hm]; exact hsaved hmine, fun a ha => by rw [hm]; exact hmem a ha⟩

/-- A task suspended within a block takes up its saved bank (R96, R98). -/
theorem restore_spec (s : State) (e : Nat) {x : Susp} (b : Nat) (hx : x.saved.st = .computing) :
    s.restore e x b = { s with eng := (s.restore e x b).eng } ∧
    ((s.restore e x b).engine e).run = some { x.task with bank := b, stalled := false } ∧
    ((s.restore e x b).engine e).susp = (s.engine e).susp.erase x ∧ (s.restore e x b).bank e b = x.saved ∧
    (∀ c, (c = 0 ↔ b ≠ 0) → (s.restore e x b).bank e c = s.bank e c) ∧ (∀ j, (s.restore e x b).slot e j = s.slot e j) ∧
    ∀ i, i ≠ e → (s.restore e x b).engine i = s.engine i := by
  have hr : s.restore e x b = (s.tasksSet e (some { x.task with bank := b, stalled := false })
      ((s.engine e).susp.erase x)).bankSet e b x.saved := by
    simp only [restore, hx, beq_self_eq_true, if_true]
    rfl
  rw [hr]
  exact ⟨rfl, by rw [engine_bankSet, engine_tasksSet], by rw [engine_bankSet, engine_tasksSet], bank_bankSet_self ..,
    fun c hc => (bank_bankSet_other _ e _ hc).trans (bank_tasksSet s e _ _ c),
    fun j => (slot_bankSet _ e _ _ j).trans (slot_tasksSet s e _ _ j),
    fun i hi => (engine_bankSet_ne _ _ _ hi).trans (engine_engineSet_ne s _ hi)⟩

/-- An engine may switch at a stall of `c` cycles (R95, R97). -/
def MaySwitch (s : State) (e c : Nat) : Prop :=
  bit (s.engine e).swCtl 31 = true ∧ fld (s.engine e).swCtl 15 0 ≤ c ∧ (s.engine e).susp.length < 4

theorem maySwitch_iff (s : State) (e c : Nat) : (bit (s.engine e).swCtl 31 && decide (fld (s.engine e).swCtl 15 0 ≤ c) &&
    decide ((s.engine e).susp.length < 4)) = true ↔ s.MaySwitch e c := by
  rw [Bool.and_eq_true, Bool.and_eq_true, decide_eq_true_eq, decide_eq_true_eq, and_assoc]
  rfl

section Stall
variable {s : State} {e c : Nat} {plans : List GroupPlan}

theorem stallSwitch_counts (k : Task) (h : ¬(s.MaySwitch e c ∧ s.nextTask e plans ≠ none)) :
    s.stallSwitch e c plans k = s.bump (R.OXE_STALL_CYC e) c := by
  unfold stallSwitch
  by_cases hm : s.MaySwitch e c
  · have hn : s.nextTask e plans = none := Decidable.byContradiction fun hne => h ⟨hm, hne⟩
    simp only [(maySwitch_iff s e c).2 hm, hn, if_true]
  · simp only [mt (maySwitch_iff s e c).1 hm, Bool.false_eq_true, if_false]

theorem stallSwitch_new (k : Task) {h : Nat} (hm : s.MaySwitch e c) (hn : s.nextTask e plans = some (.inr h)) : ∃ n,
    s.stallSwitch e c plans k =
      (s.suspendRun e k).tasksSet e (some ⟨h, k.bank, 0, n, false⟩) ((s.suspendRun e k).engine e).susp := by
  unfold stallSwitch
  simp only [(maySwitch_iff s e c).2 hm, hn, if_true]
  exact ⟨_, rfl⟩

theorem stallSwitch_back (k : Task) {x : Susp} (hm : s.MaySwitch e c) (hn : s.nextTask e plans = some (.inl x)) :
    s.stallSwitch e c plans k = (s.suspendRun e k).restore e x k.bank := by
  unfold stallSwitch
  simp only [(maySwitch_iff s e c).2 hm, hn, if_true]

/-- TASK_SWITCH and TASK_RESUME at a stall (R95, R96). -/
theorem exec_taskSwitch {k : Task} (hr : (s.engine e).run = some k) (he : e < 1536) (hst : k.stalled = true) :
    exec (.taskSwitch e c plans) s = keepQueue s (.next (s.stallSwitch e c plans k)) := by
  show execTaskSwitch e c plans s = _
  simp only [execTaskSwitch, hr]
  rw [if_pos ⟨he, hst⟩]

theorem exec_taskResume_stalled {k : Task} (hr : (s.engine e).run = some k) (he : e < 1536) (hst : k.stalled = true) :
    exec (.taskResume e c plans) s = keepQueue s (.next (s.stallSwitch e c plans k)) := by
  show execTaskResume e c plans s = _
  simp only [execTaskResume, hr]
  rw [if_pos he, if_pos hst]

/-- TASK_RESUME at a block boundary (R96, R98). -/
theorem exec_taskResume_boundary {b : Nat} {x : Susp} (he : e < 1536) (hx : firstPrio s.suspPrio (s.suspReady e plans) = some x)
    (hk : ∀ k, (s.engine e).run = some k → k.stalled = false ∧ (s.bank e k.bank).st ≠ .computing ∧ s.opPrio k.op ≤ s.suspPrio x)
    (hb : s.idleBank e (match (s.engine e).run with | some k => k.bank | none => x.task.bank) = some b) :
    exec (.taskResume e c plans) s = keepQueue s (.next (s.restore e x b)) := by
  show execTaskResume e c plans s = _
  unfold execTaskResume
  rw [if_pos he]
  cases hr : (s.engine e).run with
  | none =>
    simp only [hr] at hb
    simp only [hx, hb]
  | some k =>
    obtain ⟨hst, hbank, hprio⟩ := hk k hr
    simp only [hr] at hb
    simp only [hx, hb, hst, Bool.false_eq_true, if_false, if_neg hbank, if_pos hprio]

end Stall

end State
end Sys2Proof.Machine

namespace Sys2Proof.Proofs
open Sys2Proof Sys2Proof.Machine Sys2Proof.Machine.State

/-! ### The clauses of O5: groups -/

section Group
variable {s : State} {e : Nat} {g : GroupPlan} {o : RunOp} {fa fb : Fmt} {k : AccKind}

theorem group_runs (hplan : GroupPlanned s e g o fa fb) (hfmt : GroupFormats g fa fb k) (ce : Nat) (hready : s.groupReady e g fa fb = true)
    (hbank : s.bankReady e g = true) (hpoison : s.groupPoison e g fa fb = none) :
    ∃ t, exec (.engineGroupStart e g ce none) s = .next t ∧ t = { s with eng := t.eng, ops := t.ops, regs := t.regs } ∧
      t.bank e g.bank = ⟨if g.last then .finished else .computing, g.op, decide (k = .int), (s.groupCompute e g fa fb k).1,
        (g.start.isNone || g.start == some 3) && (s.bank e g.bank).bad⟩ ∧
      (∀ b, (b = 0 ↔ g.bank ≠ 0) → t.bank e b = s.bank e b) ∧
      (∀ sl ∈ groupSlots g fa fb, t.slot e sl = { s.slot e sl with st := .use }) ∧
      (∀ sl, sl ∉ groupSlots g fa fb → t.slot e sl = s.slot e sl) ∧
      (t.engine e).run = some ⟨g.op, g.bank, (match (s.engine e).run with | some r => r.pos | none => 0) + 1, g.blocks, false⟩ ∧
      (t.engine e).susp = (s.engine e).susp ∧ (∀ e', e' ≠ e → t.engine e' = s.engine e') ∧
      t.op? g.op = some { o with flags := o.flags ||| (s.groupCompute e g fa fb k).2 } ∧ (∀ h, h ≠ g.op → t.op? h = s.op? h) ∧
      RegsKept s t [R.CDIE_SRAM_CE_CNT (e / 96)] ∧
      t.rd (R.CDIE_SRAM_CE_CNT (e / 96)) = satAdd32 (s.rd (R.CDIE_SRAM_CE_CNT (e / 96))) ce := by
  have hex := (exec_group_runs hplan hfmt ce hready hbank).1 hpoison
  obtain ⟨hf, hbk, hother, hslots, hrun, hsusp, hengines, hop, hops, hkept, hcount⟩ := groupDone_ran s e ce g fa fb k hplan.op
  obtain ⟨-, -, -, hm, -⟩ := hplan.fits
  rw [hpoison, Option.isSome_none, Bool.or_false] at hbk
  refine ⟨_, hex.trans (keepQueue_of_pending (by rw [hf])), hf, hbk, hother, fun sl hsl => by rw [hslots, if_pos hsl],
    fun sl hsl => by rw [hslots, if_neg hsl], hrun.trans ?_, hsusp, hengines, hop, hops, hkept, hcount⟩
  rw [Task.advanced, groupTask_op hm, groupTask]
  cases (s.engine e).run <;> rfl

theorem group_poisoned (hplan : GroupPlanned s e g o fa fb) (hfmt : GroupFormats g fa fb k) (ce : Nat) {sl a : Nat} (h0 : o.code = 0)
    (hready : s.groupReady e g fa fb = true) (hbank : s.bankReady e g = true) (hpoison : s.groupPoison e g fa fb = some (sl, a)) :
    ∃ t q, exec (.engineGroupStart e g ce none) s = .next t ∧ (t.bank e g.bank).bad = true ∧
      (t.bank e g.bank).vals = (s.groupCompute e g fa fb k).1 ∧ t.op? g.op = some q ∧ q.code = 9 ∧ q.detail = 0 ∧
      q.faultAddr = BitVec.ofNat 64 (s.globalAddr a) ∧ q.faultEng = e ∧ q.faultSlot = sl := by
  have hex := (exec_group_runs hplan hfmt ce hready hbank).2 sl a hpoison
  obtain ⟨hf, hbk, -, -, -, -, -, hop, -, hkept, -⟩ := groupDone_ran s e ce g fa fb k hplan.op
  generalize s.groupDone e ce g fa fb k = u at hex hf hbk hop hkept
  have haddr : u.globalAddr a = s.globalAddr a := by
    rw [globalAddr, globalAddr, rdF, rdF, hkept R.FBD_PKG_ID]
    simp only [List.mem_singleton, forall_eq]
    exact canon_ne_of_off (by simp only [R.FBD_PKG_ID, R.CDIE_SRAM_CE_CNT]; omega)
  simp only [opFaultIn, hop, if_pos (Or.inl h0 : o.code = 0 ∨ e < o.failUnit)] at hex
  refine ⟨_, _, hex.trans (keepQueue_of_pending (by exact (by rw [hf] : u.pending = s.pending))), ?_, ?_, op?_opSet_self .., rfl, rfl,
    congrArg (BitVec.ofNat 64) haddr, rfl, rfl⟩
  · show (u.bank e g.bank).bad = true
    rw [hbk, hpoison, Option.isSome_some, Bool.or_true]
  · show (u.bank e g.bank).vals = _
    rw [hbk]

theorem group_free (hplan : GroupPlanned s e g o fa fb) (hfmt : GroupFormats g fa fb k) (ce : Nat) (ue : Option Nat) {sl : Nat}
    (h0 : o.code = 0) (hfree : (groupSlots g fa fb).find? (fun sl => decide ((s.slot e sl).st = .free)) = some sl) :
    ∃ t, exec (.engineGroupStart e g ce ue) s = .next t ∧ t = { s with ops := t.ops } ∧
      t.op? g.op = some { o with code := 6, detail := BitVec.ofNat 8 sl, failUnit := e } := by
  have hex := exec_group_free hplan hfmt ce ue hfree
  rw [opFailOn_first e 6 _ hplan.op h0] at hex
  exact ⟨_, hex.trans (keepQueue_of_pending rfl), rfl, op?_opSet_self ..⟩

theorem group_misfit (hplan : GroupPlanned s e g o fa fb) (ce : Nat) (ue : Option Nat) (h0 : o.code = 0)
    (hn : accKind fa fb = none ∨ ((fa.isMx = true ∨ fb.isMx = true) ∧ g.kn ≠ 32)) :
    ∃ t, exec (.engineGroupStart e g ce ue) s = .next t ∧ t = { s with ops := t.ops } ∧
      t.op? g.op = some { o with code := 3, detail := if accKind fa fb = none then 1 else 2, failUnit := e } := by
  have hex : exec (.engineGroupStart e g ce ue) s =
      keepQueue s (.next (s.opFailOn g.op e 3 (if accKind fa fb = none then 1 else 2))) := by
    cases hk : accKind fa fb with
    | none => exact exec_group_unlisted hplan ce ue hk
    | some k => exact exec_group_partial hplan ce ue hk (hn.resolve_left (by simp [hk]))
  rw [opFailOn_first e 3 _ hplan.op h0] at hex
  exact ⟨_, hex.trans (keepQueue_of_pending rfl), rfl, op?_opSet_self ..⟩

theorem group_late (hplan : GroupPlanned s e g o fa fb) (hfmt : GroupFormats g fa fb k) (ce : Nat) (ue : Option Nat)
    (hfull : ∀ sl ∈ groupSlots g fa fb, (s.slot e sl).st ≠ .free) (hready : s.groupReady e g fa fb = false) :
    ∃ t, exec (.engineGroupStart e g ce ue) s = .next t ∧ t = { s with eng := t.eng } ∧
      (∃ r, (t.engine e).run = some r ∧ r.stalled = true) ∧ (∀ b, t.bank e b = s.bank e b) ∧ ∀ j, t.slot e j = s.slot e j := by
  have hnone : (groupSlots g fa fb).find? (fun sl => decide ((s.slot e sl).st = .free)) = none :=
    List.find?_eq_none.2 fun sl hsl => by simpa using hfull sl hsl
  have hex := exec_group_late hplan hfmt ce ue hnone hready
  exact ⟨_, hex.trans (keepQueue_of_pending rfl), rfl, ⟨_, by rw [engine_tasksSet], rfl⟩, fun b => bank_tasksSet s e _ _ b,
    fun j => slot_tasksSet s e _ _ j⟩

end Group

/-! ### Drains -/

section Drain
variable {s : State} {e b : Nat} {d : DrainPlan} {o : RunOp} {f : Fmt}

theorem drain_kept (hplan : DrainPlanned s e b d o f) (hk : d.keep = true) :
    ∃ t, exec (.bankDrain e b d) s = .next t ∧ t = { s with eng := t.eng } ∧ t.bank e b = { s.bank e b with st := .kept } ∧
      ∀ k, t.slot e k = s.slot e k :=
  ⟨_, (exec_drain_kept hplan hk).trans (keepQueue_of_pending rfl), rfl, bank_bankSet_self .., fun k => slot_bankSet s e b _ k⟩

theorem drain_refused (hplan : DrainPlanned s e b d o f) (hk : d.keep = false) (hc : drainCheck d f ≠ 0) (h0 : o.code = 0) :
    ∃ t, exec (.bankDrain e b d) s = .next t ∧ t = { s with ops := t.ops } ∧
      t.op? d.op = some { o with code := 3, detail := BitVec.ofNat 8 (drainCheck d f), failUnit := e } := by
  have hex := exec_drain_refused hplan hk hc
  rw [opFailOn_first e 3 _ hplan.op h0] at hex
  exact ⟨_, hex.trans (keepQueue_of_pending rfl), rfl, op?_opSet_self ..⟩

theorem drain_now (hplan : DrainPlanned s e b d o f) (hk : d.keep = false) (hc : drainCheck d f = 0)
    (hs : ∀ k ∈ drainSlots d f, DrainFree (s.slot e k)) : ∃ t, exec (.bankDrain e b d) s = .next t ∧ Drained s t e b d f := by
  have hd := drainNow_spec s e b d o f
  exact ⟨_, (exec_drain_now hplan hk hc hs).trans (keepQueue_of_pending (by rw [hd.1])), hd⟩

theorem drain_waits (hplan : DrainPlanned s e b d o f) (hk : d.keep = false) (hc : drainCheck d f = 0)
    (hs : ∃ k ∈ drainSlots d f, ((s.slot e k).st ≠ .free ∧ (s.slot e k).st ≠ .full) ∨ (s.slot e k).held ≠ []) :
    ∃ t, exec (.bankDrain e b d) s = .next t ∧ t = { s with eng := t.eng } ∧ t.bank e b = s.bank e b ∧
      Map.get? (t.engine e).drains b = some d ∧
      ∀ k ∈ drainSlots d f, t.slot e k = (if ((s.slot e k).st = .free ∨ (s.slot e k).st = .full) ∧ (s.slot e k).held = []
        then { s.slot e k with st := .fill } else { s.slot e k with held := (s.slot e k).held ++ [.drain e b] }) := by
  obtain ⟨k, hm, hk'⟩ := hs
  have hex := exec_drain_waits hplan hk hc ⟨k, hm, fun h => hk'.elim (fun hn => h.1.elim hn.1 hn.2) (fun hn => hn h.2)⟩
  obtain ⟨hfr, hbank, hdrain, hslots⟩ := drainWaits_spec s e b d f
  refine ⟨_, hex.trans (keepQueue_of_pending (by rw [hfr])), hfr, hbank b, hdrain, fun j hj => (hslots j hj).trans ?_⟩
  rw [drainHeld]
  exact if_congr (drainFree_iff _) rfl rfl

end Drain

/-! ### Tasks -/

section Tasks
variable {s : State} {e : Nat} {k : Task}

theorem switch_counts (c : Nat) (plans : List GroupPlan) (hr : (s.engine e).run = some k) (he : e < 1536) (hst : k.stalled = true)
    (hn : bit (s.engine e).swCtl 31 = false ∨ c < fld (s.engine e).swCtl 15 0 ∨ 4 ≤ (s.engine e).susp.length ∨ s.nextTask e plans = none) :
    ∃ t, exec (.taskSwitch e c plans) s = .next t ∧ OnlyRegs s t [R.OXE_STALL_CYC e] ∧
      t.rd (R.OXE_STALL_CYC e) = satAdd32 (s.rd (R.OXE_STALL_CYC e)) c := by
  have hex := exec_taskSwitch (c := c) (plans := plans) hr he hst
  rw [stallSwitch_counts k] at hex
  · exact ⟨_, hex.trans (keepQueue_of_pending rfl), ⟨rfl, kept_wr s _ _⟩, rd_wr_self ..⟩
  · rintro ⟨⟨hbit, hc, hlen⟩, hnext⟩
    rcases hn with hn | hn | hn | hn
    · simp [hbit] at hn
    · omega
    · omega
    · exact hnext hn

theorem switch_new {h c : Nat} {plans : List GroupPlan} (hr : (s.engine e).run = some k) (he : e < 1536) (hst : k.stalled = true)
    (hm : s.MaySwitch e c) (hn : s.nextTask e plans = some (.inr h)) :
    ∃ t n, exec (.taskSwitch e c plans) s = .next t ∧ Suspended s t e k ∧ (t.engine e).run = some ⟨h, k.bank, 0, n, false⟩ ∧
      (t.engine e).susp = (s.engine e).susp ++ [suspEntry s e k] ∧
      t.bank e k.bank = (if (s.bank e k.bank).st = .computing ∧ (s.bank e k.bank).op = k.op then Bank.none else s.bank e k.bank) := by
  have hex := exec_taskSwitch (c := c) (plans := plans) hr he hst
  obtain ⟨n, hs⟩ := stallSwitch_new k hm hn
  rw [hs] at hex
  obtain ⟨hsusp, hlist, hbank⟩ := suspendRun_spec s e k
  generalize s.suspendRun e k = u at hex hsusp hlist hbank
  have hd := suspended_of_engine (t := u.tasksSet e (some ⟨h, k.bank, 0, n, false⟩) (u.engine e).susp) hsusp rfl
    (fun i hi => engine_engineSet_ne u _ hi) (fun j => slot_tasksSet u e _ _ j) (fun j _ => bank_tasksSet u e _ _ j)
  exact ⟨_, n, hex.trans (keepQueue_of_pending (by rw [hd.1])), hd, by rw [engine_tasksSet], by rw [engine_tasksSet]; exact hlist,
    (bank_tasksSet u e _ _ _).trans hbank⟩

theorem switch_back {c : Nat} {plans : List GroupPlan} {x : Susp} (hr : (s.engine e).run = some k) (he : e < 1536) (hst : k.stalled = true)
    (hm : s.MaySwitch e c) (hn : s.nextTask e plans = some (.inl x)) (hx : x.saved.st = .computing) :
    ∃ t, exec (.taskSwitch e c plans) s = .next t ∧ Suspended s t e k ∧
      (t.engine e).run = some { x.task with bank := k.bank, stalled := false } ∧
      (t.engine e).susp = ((s.engine e).susp ++ [suspEntry s e k]).erase x ∧ t.bank e k.bank = x.saved := by
  have hex := exec_taskSwitch (c := c) (plans := plans) hr he hst
  rw [stallSwitch_back k hm hn] at hex
  obtain ⟨hsusp, hlist, -⟩ := suspendRun_spec s e k
  obtain ⟨hf, hrun, herase, hbank, hother, hslot, heng⟩ := restore_spec (s.suspendRun e k) e k.bank hx
  have hd := suspended_of_engine hsusp hf heng hslot hother
  exact ⟨_, hex.trans (keepQueue_of_pending (by rw [hd.1])), hd, hrun, by rw [herase, hlist], hbank⟩

theorem resume_stalled (c : Nat) (plans : List GroupPlan) (hr : (s.engine e).run = some k) (he : e < 1536) (hst : k.stalled = true) :
    exec (.taskResume e c plans) s = exec (.taskSwitch e c plans) s ∧ ∃ t, exec (.taskResume e c plans) s = .next t := by
  have hex := exec_taskResume_stalled (c := c) (plans := plans) hr he hst
  exact ⟨hex.trans (exec_taskSwitch hr he hst).symm, _, hex⟩

theorem resume_boundary (c : Nat) {b : Nat} {plans : List GroupPlan} {x : Susp} (he : e < 1536)
    (hx : firstPrio s.suspPrio (s.suspReady e plans) = some x) (hst : x.saved.st = .computing)
    (hk : ∀ k, (s.engine e).run = some k → k.stalled = false ∧ (s.bank e k.bank).st ≠ .computing ∧ s.opPrio k.op ≤ s.suspPrio x)
    (hb : s.idleBank e (match (s.engine e).run with | some k => k.bank | none => x.task.bank) = some b) :
    ∃ t, exec (.taskResume e c plans) s = .next t ∧ t = { s with eng := t.eng } ∧
      (t.engine e).run = some { x.task with bank := b, stalled := false } ∧ (t.engine e).susp = (s.engine e).susp.erase x ∧
      t.bank e b = x.saved ∧ (∀ b', (b' = 0 ↔ b ≠ 0) → t.bank e b' = s.bank e b') ∧ ∀ j, t.slot e j = s.slot e j := by
  obtain ⟨hf, hrun, herase, hbank, hother, hslot, -⟩ := restore_spec s e b hst
  exact ⟨_, (exec_taskResume_boundary he hx hk hb).trans (keepQueue_of_pending (by rw [hf])), hf, hrun, herase, hbank, hother, hslot⟩

end Tasks

/-- Settles O5, clause by clause. -/
theorem engineTasks : Obligations.EngineTasks :=
  ⟨fun _ _ ce _ _ _ _ _ ho ha hb he hd hp hm h1 h32 hport hk hmx =>
      group_runs (groupPlanned_of ho ha hb he hd hp hm h1 h32 hport) ⟨hk, hmx⟩ ce,
    fun _ _ ce _ _ _ _ _ _ _ ho h0 ha hb he hd hp hm h1 h32 hport hk hmx =>
      group_poisoned (groupPlanned_of ho ha hb he hd hp hm h1 h32 hport) ⟨hk, hmx⟩ ce h0,
    fun _ _ ce _ ue _ _ _ _ _ ho ha hb he hd hp hm h1 h32 hport hk hmx =>
      group_free (groupPlanned_of ho ha hb he hd hp hm h1 h32 hport) ⟨hk, hmx⟩ ce ue,
    fun _ _ ce ue _ _ _ _ ho ha hb he hd hp hm h1 h32 hport => group_misfit (groupPlanned_of ho ha hb he hd hp hm h1 h32 hport) ce ue,
    fun _ _ ce ue _ _ _ _ _ ho ha hb he hd hp hm h1 h32 hport hk hmx =>
      group_late (groupPlanned_of ho ha hb he hd hp hm h1 h32 hport) ⟨hk, hmx⟩ ce ue,
    fun _ _ _ _ _ _ ho hf he hst hop hn => drain_kept (drainPlanned_of ho hf he hst hop hn),
    fun _ _ _ _ _ _ ho hf he hst hop hn => drain_refused (drainPlanned_of ho hf he hst hop hn),
    fun _ _ _ _ _ _ ho hf he hst hop hn => drain_now (drainPlanned_of ho hf he hst hop hn),
    fun _ _ _ _ _ _ ho hf he hst hop hn => drain_waits (drainPlanned_of ho hf he hst hop hn),
    fun _ _ c plans _ => switch_counts c plans,
    fun _ _ _ _ _ _ hr he hst hbit hc hlen => switch_new hr he hst ⟨hbit, hc, hlen⟩,
    fun _ _ _ _ _ _ hr he hst hbit hc hlen => switch_back hr he hst ⟨hbit, hc, hlen⟩,
    fun _ _ c plans _ => resume_stalled c plans,
    fun _ _ c _ _ _ => resume_boundary c⟩

end Sys2Proof.Proofs

end

section
/-! PROOFS. Operators that run their effect once (O10). -/
namespace Sys2Proof.Machine
open Sys2Proof

namespace State

/-! ### Reads that begin leave operators alone (R156, R165) -/

/-- Operators are as they were. -/
def OpsKept (s t : State) : Prop := t.ops = s.ops

theorem opsKept_refl (s : State) : OpsKept s s := rfl

theorem opsKept_trans (s t u : State) (h : OpsKept s t) (h' : OpsKept t u) : OpsKept s u := Eq.trans h' h

theorem opsKept_readWord (s : State) (w : Word64) : OpsKept s (s.readWord w) := by
  refine rel_ite (opsKept_refl s) ?_
  obtain ⟨⟨f, r, hf⟩, -⟩ := readAt_frame s w.toNat 64
  rw [OpsKept, hf]

theorem opsKept_readTiles (s : State) (rs : List (Nat × Nat)) (b : RdFor) : OpsKept s (s.readTiles rs b) := by
  rw [OpsKept, (reads_readTiles s rs b).1]

theorem opsKept_touchInputs (s : State) (h : Nat) (o : RunOp) (more : List (Nat × Nat)) : OpsKept s (s.touchInputs h o more) := by
  unfold touchInputs
  extract_lets u
  have hu : OpsKept s u := by
    simp only [u]
    split
    · exact opsKept_refl s
    · refine opsKept_trans _ _ _ (opsKept_trans _ _ _ (opsKept_readWord s o.cmd.w7)
        (foldl_rel opsKept_refl opsKept_trans (fun v w _ => opsKept_readWord v w) _))
        (foldl_rel opsKept_refl opsKept_trans (fun v k _ => rel_ite (opsKept_refl v) ?_) _)
      split
      · exact opsKept_readTiles ..
      · exact opsKept_refl v
  exact rel_ite hu (opsKept_trans _ _ _ hu (opsKept_readTiles ..))

/-- An operator that has begun to read is marked so, and has begun nothing else. -/
theorem op?_begun {s : State} {h : Nat} {o : RunOp} (ho : s.op? h = some o) (rs : List (Nat × Nat)) :
    (s.begun h o rs).op? h = some { o with touched := true } := by
  unfold begun
  split
  · rename_i ht
    rw [ho, ← ht]
  · rw [op?, show (touchInputs _ h o rs).ops = _ from opsKept_touchInputs _ h o rs]
    exact op?_opSet_self ..

/-! ### What running an operator comes to (R120, R165) -/

theorem runOpR_waits {s b : State} {h opc : Nat} {o : RunOp} {rs : State → RunOp → List (Nat × Nat)} {f : RunOp → State → Except Err State}
    (hr : OpReady s h opc o) (hb : b = s.begun h o (rs s o)) (hw : b.reading (.op h) = true) : s.runOpR h opc rs f = b := by
  obtain ⟨⟨ho, hd, hran, hcode, hopc⟩, hstart⟩ := hr
  subst hb
  simp only [runOpR, ho]
  rw [if_pos ⟨hd, hran, hcode, hopc, hstart⟩]
  exact if_pos hw

theorem runOpR_error {s b : State} {h opc : Nat} {o : RunOp} {rs : State → RunOp → List (Nat × Nat)} {f : RunOp → State → Except Err State}
    {e : Err} (hr : OpReady s h opc o) (hb : b = s.begun h o (rs s o)) (hw : b.reading (.op h) = false)
    (hf : f { o with touched := true } b = .error e) : s.runOpR h opc rs f = b.opErr h e := by
  obtain ⟨⟨ho, hd, hran, hcode, hopc⟩, hstart⟩ := hr
  subst hb
  have hgo : ¬(s.begun h o (rs s o)).reading (.op h) = true := by simp [hw]
  simp only [runOpR, ho]
  rw [if_pos ⟨hd, hran, hcode, hopc, hstart⟩]
  exact (if_neg hgo).trans (by rw [begun] at hf; rw [hf]; rfl)

theorem runOpR_ok {s b u : State} {h opc : Nat} {o q : RunOp} {rs : State → RunOp → List (Nat × Nat)} {f : RunOp → State → Except Err State}
    (hr : OpReady s h opc o) (hb : b = s.begun h o (rs s o)) (hw : b.reading (.op h) = false)
    (hf : f { o with touched := true } b = .ok u) (hq : u.op? h = some q) : s.runOpR h opc rs f = u.opSet h { q with ran := true } := by
  obtain ⟨⟨ho, hd, hran, hcode, hopc⟩, hstart⟩ := hr
  subst hb
  have hgo : ¬(s.begun h o (rs s o)).reading (.op h) = true := by simp [hw]
  simp only [runOpR, ho]
  rw [if_pos ⟨hd, hran, hcode, hopc, hstart⟩]
  exact (if_neg hgo).trans (by rw [begun] at hf; rw [hf]; simp only [hq])

/-- An operator that has run is not run again. -/
theorem runOpR_ran {s : State} {h : Nat} {o : RunOp} (opc : Nat) (rs : State → RunOp → List (Nat × Nat)) (f : RunOp → State → Except Err State)
    (ho : s.op? h = some o) (hran : o.ran = true) : s.runOpR h opc rs f = s := by
  simp only [runOpR, ho]
  rw [if_neg (by simp [hran])]

/-- An operator just set, with a refused descriptor latched besides (R82), changes in registers alone. -/
theorem latched_eq (s : State) (h c code detail : Nat) (o q : RunOp) :
    ∃ r, (if code = 2 then (s.opSet h q).strmRefused c o detail else s.opSet h q) = { s.opSet h q with regs := r } := by
  split
  · exact ⟨_, (strmRefused_spec ..).1⟩
  · exact ⟨_, rfl⟩

/-- An operator's first error, with no write made, becomes its CODE and DETAIL (R120, R126). -/
theorem opErrOn_first {s : State} {h : Nat} {o : RunOp} {e : Err} (hl : e.left = none) (ho : s.op? h = some o) (hc : o.code = 0) :
    ∃ q r, s.opErrOn h e = { s.opSet h q with regs := r } ∧ q.code = BitVec.ofNat 8 e.code ∧ q.detail = BitVec.ofNat 8 e.detail := by
  obtain ⟨code, detail, place, left⟩ := e
  subst hl
  cases place with
  | none =>
    obtain ⟨r, hr⟩ := latched_eq s h (CmdRecF.firstCore o.cmd) code detail o
      { o with code := BitVec.ofNat 8 code, detail := BitVec.ofNat 8 detail, failUnit := 0 }
    simp only [opErrOn, Option.getD_none, ho, opFail, if_pos hc]
    exact ⟨_, r, hr, rfl, rfl⟩
  | some a =>
    simp only [opErrOn, Option.getD_none, ho, opFaultAt, opFaultIn, if_pos (Or.inl hc : o.code = 0 ∨ 0 < o.failUnit)]
    obtain ⟨r, hr⟩ := latched_eq s h (CmdRecF.firstCore o.cmd) code detail o _
    exact ⟨_, r, hr, rfl, rfl⟩

/-- So it ends (R120): beside operators and registers nothing changes. -/
theorem opErr_first {s : State} {h : Nat} {o : RunOp} {e : Err} (hl : e.left = none) (ho : s.op? h = some o) (hc : o.code = 0) :
    s.opErr h e = { s with ops := (s.opErr h e).ops, regs := (s.opErr h e).regs } ∧
    (∃ q, (s.opErr h e).op? h = some q ∧ q.ran = true ∧ q.code = BitVec.ofNat 8 e.code ∧ q.detail = BitVec.ofNat 8 e.detail) ∧
    ∀ k, k ≠ h → (s.opErr h e).op? k = s.op? k := by
  obtain ⟨q, r, heq, h1, h2⟩ := opErrOn_first hl ho hc
  have hself : ({ s.opSet h q with regs := r } : State).op? h = some q := op?_opSet_self ..
  have hend : s.opErr h e = ({ s.opSet h q with regs := r } : State).opSet h { q with ran := true } := by
    simp only [opErr, heq, hself]
  rw [hend]
  exact ⟨rfl, ⟨_, op?_opSet_self .., rfl, h1, h2⟩, fun k hk => (op?_opSet_ne _ _ hk).trans (op?_opSet_ne s q hk)⟩

end State

open State

/-! ### Commands that run an operator -/

/-- A command that runs an operator by its effect wherever a condition holds. -/
theorem runsWhen_of_exec {c : Instr} {h opc : Nat} {rs : State → RunOp → List (Nat × Nat)} {p : State → RunOp → Prop}
    {f : RunOp → State → Except Err State}
    (hex : ∀ s o, s.op? h = some o → p s o → exec c s = keepQueue s (.next (s.runOpR h opc rs f))) : RunsWhen c h opc rs p f := by
  intro s b o o' hr hp hb ho'
  subst ho'
  obtain ⟨ho, -, -, hcode, -⟩ := hr.1
  rw [hex s o ho hp, keepQueue_of_next]
  refine ⟨fun hw => by rw [runOpR_waits hr hb hw], fun hw => ⟨_, rfl, rfl, fun u q hf hq => ?_, fun e hf hl => ?_⟩⟩
  · rw [runOpR_ok hr hb hw hf hq]
    exact ⟨rfl, op?_opSet_self .., fun k hk => op?_opSet_ne u _ hk⟩
  · rw [runOpR_error hr hb hw hf]
    have hop : b.op? h = some { o with touched := true } := hb ▸ op?_begun ho _
    obtain ⟨hframe, hend, hothers⟩ := opErr_first hl hop hcode
    exact ⟨by rw [hframe], hend, hothers⟩

/-- A command that runs an operator by its effect, whatever the state. -/
theorem runsBy_of_exec {c : Instr} {h opc : Nat} {rs : State → RunOp → List (Nat × Nat)} {f : RunOp → State → Except Err State}
    (hex : ∀ s, exec c s = keepQueue s (.next (s.runOpR h opc rs f))) : RunsBy c h opc rs f :=
  ⟨runsWhen_of_exec fun s _ _ _ => hex s, fun s o ho hran => by
    rw [hex, runOpR_ran opc rs f ho hran]
    exact keepQueue_of_pending rfl⟩

end Sys2Proof.Machine

namespace Sys2Proof.Proofs
open Sys2Proof Sys2Proof.Machine Sys2Proof.Machine.State

/-- ELEMENTWISE of the function its record selects runs its operator (R64, R65). -/
theorem exec_elementwise_selected {s : State} {h : Nat} {f : VFun} {o : RunOp} (ho : s.op? h = some o)
    (hf : fld o.cmd.w3 7 0 = (Config.elementCode f).toNat) :
    exec (.elementwise h f) s = keepQueue s (.next (s.runOpR h 0x0300 noReads (elementwiseFx f h))) := by
  show execElementwise h f s = _
  rw [execElementwise, if_pos (by simp [ho, hf])]
  rfl

/-- ELEMENTWISE of another function, or of an operator that has run, does nothing. -/
theorem elementwise_idle (s : State) (h : Nat) (f : VFun) (o : RunOp) (ho : s.op? h = some o)
    (hn : o.ran = true ∨ fld o.cmd.w3 7 0 ≠ (Config.elementCode f).toNat) : exec (.elementwise h f) s = .next s := by
  by_cases hf : fld o.cmd.w3 7 0 = (Config.elementCode f).toNat
  · rw [exec_elementwise_selected ho hf, runOpR_ran _ _ _ ho (hn.resolve_right (not_not_intro hf))]
    exact keepQueue_of_pending rfl
  · show execElementwise h f s = _
    rw [execElementwise, if_neg (by simp [ho, hf])]
    exact keepQueue_of_pending rfl

/-- Settles O10: each command runs its operator by its effect. -/
theorem tensorOperators : Obligations.TensorOperators :=
  ⟨fun _ => runsBy_of_exec fun _ => rfl, fun _ => runsBy_of_exec fun _ => rfl, fun _ => runsBy_of_exec fun _ => rfl,
    fun _ _ => runsBy_of_exec fun _ => rfl, fun _ _ => runsBy_of_exec fun _ => rfl, fun _ _ => runsBy_of_exec fun _ => rfl,
    fun _ => runsBy_of_exec fun _ => rfl, fun _ => runsBy_of_exec fun _ => rfl, fun _ => runsBy_of_exec fun _ => rfl,
    fun _ => runsBy_of_exec fun _ => rfl, fun _ _ => runsWhen_of_exec fun _ _ => exec_elementwise_selected, elementwise_idle,
    fun _ _ => runsBy_of_exec fun _ => rfl, fun _ _ => runsBy_of_exec fun _ => rfl, fun _ => runsBy_of_exec fun _ => rfl,
    fun _ _ => runsBy_of_exec fun _ => rfl, fun _ _ _ => runsBy_of_exec fun _ => rfl, fun _ => runsBy_of_exec fun _ => rfl,
    fun _ => runsBy_of_exec fun _ => rfl, fun _ => runsBy_of_exec fun _ => rfl, fun _ => runsBy_of_exec fun _ => rfl,
    fun _ => runsBy_of_exec fun _ => rfl, fun _ => runsBy_of_exec fun _ => rfl, fun _ => runsBy_of_exec fun _ => rfl⟩

end Sys2Proof.Proofs

end

section
/-! PROOFS. Exact sums of products, and which codes are NaN (O58, O59). -/
namespace Sys2Proof.Machine
open Sys2Proof

namespace XNum

/-! ### Finite numbers at a common exponent -/

/-- A finite number whose exponent is not below `e`. -/
def FinFrom (e : Int) (a : XNum) : Prop := ∃ n m x, a = .fin n m x ∧ e ≤ x

/-- The zero that a sum of zeros keeps its sign for (R52). -/
def isNegZero (a : XNum) : Bool := a.isZero && a.sign

theorem toIntAt_fin_zero (n : Bool) (k e : Int) : (XNum.fin n 0 k).toIntAt e = 0 := by cases n <;> simp [toIntAt]

/-- A signed mantissa back at its own exponent, and at any below it. -/
theorem toIntAt_of_signed (v k e : Int) : (XNum.fin (decide (v < 0)) v.natAbs k).toIntAt e = v * 2 ^ (k - e).toNat := by
  by_cases h : v < 0
  · simp only [toIntAt, h, decide_true, if_true, ← Int.neg_mul]
    rw [show -(v.natAbs : Int) = v by omega]
  · simp only [toIntAt, h, decide_false, Bool.false_eq_true, if_false]
    rw [show (v.natAbs : Int) = v by omega]

/-- A finite number brought to a lower exponent: its signed mantissa shifted. -/
theorem toIntAt_lower (n : Bool) (m : Nat) {x k e : Int} (hk : k ≤ x) (he : e ≤ k) :
    (XNum.fin n m x).toIntAt e = (XNum.fin n m x).toIntAt k * 2 ^ (k - e).toNat := by
  have hpow : (2 : Int) ^ (x - e).toNat = 2 ^ (x - k).toNat * 2 ^ (k - e).toNat := by
    rw [← pow_add]
    congr 1
    omega
  cases n <;> simp [toIntAt, hpow, Int.mul_assoc]

/-- The zero that an exact sum of zero is (R52), else the sum as a number at the lower exponent. -/
theorem addFin_eq (n n' : Bool) (m m' : Nat) (x x' : Int) :
    addFin (.fin n m x) (.fin n' m' x') =
      (let v := (XNum.fin n m x).toIntAt (min x x') + (XNum.fin n' m' x').toIntAt (min x x')
       if v = 0 then .fin (m == 0 && n && m' == 0 && n') 0 (min x x') else .fin (decide (v < 0)) v.natAbs (min x x')) := rfl

/-- The sum of finite numbers at an exponent not above theirs. -/
theorem toIntAt_min (n n' : Bool) (m m' : Nat) {x x' e : Int} (hx : e ≤ x) (hx' : e ≤ x') :
    (XNum.fin n m x).toIntAt e + (XNum.fin n' m' x').toIntAt e =
      ((XNum.fin n m x).toIntAt (min x x') + (XNum.fin n' m' x').toIntAt (min x x')) * 2 ^ (min x x' - e).toNat := by
  rw [toIntAt_lower n m (min_le_left x x') (le_min hx hx'), toIntAt_lower n' m' (min_le_right x x') (le_min hx hx'), add_mul]

/-- The sum is exact. -/
theorem toIntAt_addFin {a b : XNum} {e : Int} (ha : FinFrom e a) (hb : FinFrom e b) :
    FinFrom e (addFin a b) ∧ (addFin a b).toIntAt e = a.toIntAt e + b.toIntAt e := by
  obtain ⟨n, m, x, rfl, hx⟩ := ha
  obtain ⟨n', m', x', rfl, hx'⟩ := hb
  rw [addFin_eq, toIntAt_min n n' m m' hx hx']
  extract_lets v
  split
  · rename_i hv
    refine ⟨⟨_, _, _, rfl, le_min hx hx'⟩, ?_⟩
    show _ = v * _
    rw [toIntAt_fin_zero, hv, zero_mul]
  · exact ⟨⟨_, _, _, rfl, le_min hx hx'⟩, toIntAt_of_signed v _ e⟩

/-- A sum is −0 where both addends are, and nowhere else (R52). -/
theorem isNegZero_addFin {a b : XNum} {e : Int} (ha : FinFrom e a) (hb : FinFrom e b) :
    (addFin a b).isNegZero = (a.isNegZero && b.isNegZero) := by
  obtain ⟨n, m, x, rfl, -⟩ := ha
  obtain ⟨n', m', x', rfl, -⟩ := hb
  rw [addFin_eq]
  extract_lets v
  split
  · simp [isNegZero, isZero, sign, Bool.and_assoc]
  · rename_i hv
    have hne : ¬(m = 0 ∧ m' = 0) := fun h => hv (by simp [v, h.1, h.2, toIntAt_fin_zero])
    have hpos : (v.natAbs == 0) = false := beq_eq_false_iff_ne.2 (mt Int.natAbs_eq_zero.1 hv)
    simp only [isNegZero, isZero, hpos, Bool.false_and]
    by_cases hm : m = 0
    · simp [show m' ≠ 0 from fun h => hne ⟨hm, h⟩]
    · simp [hm]

theorem addX_fin {a b : XNum} {e : Int} (ha : FinFrom e a) (hb : FinFrom e b) : a.addX b = (addFin a b, false) := by
  obtain ⟨n, m, x, rfl, -⟩ := ha
  obtain ⟨n', m', x', rfl, -⟩ := hb
  rfl

/-! ### Group sums (R48, R52) -/

/-- Finite numbers added one after another: the sum is finite and exact, and −0 where every addend is. -/
theorem foldl_addX (e : Int) : ∀ (l : List (XNum × Bool)) (a : XNum), FinFrom e a → (∀ y ∈ l, FinFrom e y.1) →
    FinFrom e (l.foldl (fun a y => (a.addX y.1).1) a) ∧
    (l.foldl (fun a y => (a.addX y.1).1) a).toIntAt e = a.toIntAt e + (l.map (fun y => y.1.toIntAt e)).sum ∧
    (l.foldl (fun a y => (a.addX y.1).1) a).isNegZero = (a.isNegZero && l.all (fun y => y.1.isNegZero))
  | [], a, ha, _ => ⟨ha, by simp, by simp⟩
  | y :: l, a, ha, hl => by
    have hy := hl y (by simp)
    obtain ⟨hfin, hint⟩ := toIntAt_addFin ha hy
    obtain ⟨h1, h2, h3⟩ := foldl_addX e l (addFin a y.1) hfin fun z hz => hl z (by simp [hz])
    rw [List.foldl_cons, addX_fin ha hy]
    refine ⟨h1, h2.trans ?_, h3.trans ?_⟩
    · rw [hint, List.map_cons, List.sum_cons, add_assoc]
    · rw [isNegZero_addFin ha hy, List.all_cons, Bool.and_assoc]

end XNum

open XNum

/-- The sum of a group of finite products is their fold, and makes no NaN. -/
theorem groupSum_fin {l : List (XNum × XNum)} {e : Int} (h : ∀ p ∈ l, ∃ n m x, p.1.mulX p.2 = (.fin n m x, false) ∧ e ≤ x)
    (p : XNum × XNum) (hp : ∃ n m x, p.1.mulX p.2 = (.fin n m x, false) ∧ e ≤ x) :
    groupSum (p :: l) = ((l.map (fun q => q.1.mulX q.2)).foldl (fun a y => (a.addX y.1).1) (p.1.mulX p.2).1, false) := by
  have hall : ∀ y ∈ (p :: l).map (fun q => q.1.mulX q.2), ∃ n m x, y = (XNum.fin n m x, false) := by
    intro y hy
    obtain ⟨q, hq, rfl⟩ := List.mem_map.1 hy
    obtain ⟨n, m, x, he, -⟩ := (List.mem_cons.1 hq).elim (fun e => e ▸ hp) (h q)
    exact ⟨n, m, x, he⟩
  have hmade : ((p :: l).map (fun q => q.1.mulX q.2)).any (·.2) = false := List.any_eq_false.2 fun y hy => by
    obtain ⟨n, m, x, rfl⟩ := hall y hy
    simp
  have hinf : ((p :: l).map (fun q => q.1.mulX q.2)).any (fun y => y.1 == .inf true) = false := List.any_eq_false.2 fun y hy => by
    obtain ⟨n, m, x, rfl⟩ := hall y hy
    simp
  rw [List.map_cons] at hmade hinf
  simp only [groupSum, List.map_cons, hmade, hinf, Bool.and_false, Bool.false_and, Bool.or_self]

/-- A group of finite products sums exactly, and its zero keeps the sign of R52. -/
theorem groupSum_exact (l : List (XNum × XNum)) (e : Int) (hl : l ≠ [])
    (h : ∀ p ∈ l, ∃ n m x, p.1.mulX p.2 = (.fin n m x, false) ∧ e ≤ x) :
    (groupSum l).2 = false ∧ ∃ n m x, (groupSum l).1 = .fin n m x ∧ e ≤ x ∧
      (groupSum l).1.toIntAt e = (l.map (fun p => (p.1.mulX p.2).1.toIntAt e)).sum ∧
      (m = 0 → n = l.all (fun p => (p.1.mulX p.2).1.isZero && (p.1.mulX p.2).1.sign)) := by
  obtain ⟨p, l, rfl⟩ := List.exists_cons_of_ne_nil hl
  have hfin : ∀ q ∈ p :: l, FinFrom e (q.1.mulX q.2).1 := fun q hq => by
    obtain ⟨n, m, x, he, hx⟩ := h q hq
    exact ⟨n, m, x, by rw [he], hx⟩
  obtain ⟨⟨n, m, x, hr, hx⟩, hsum, hneg⟩ := foldl_addX e (l.map (fun q => q.1.mulX q.2)) (p.1.mulX p.2).1 (hfin p (by simp))
    fun y hy => by
      obtain ⟨q, hq, rfl⟩ := List.mem_map.1 hy
      exact hfin q (by simp [hq])
  rw [groupSum_fin (fun q hq => h q (by simp [hq])) p (h p (by simp))]
  refine ⟨rfl, n, m, x, hr, hx, ?_, fun hm => ?_⟩
  · rw [hsum, List.map_cons, List.sum_cons, List.map_map]
    rfl
  · rw [hr] at hneg
    subst hm
    simpa [isNegZero, isZero, sign, Function.comp_def] using hneg

/-! ### The accumulator (R48, R52) -/

/-- A zero rounds to the zero of its sign, with no flag. -/
theorem rneFp32_zero (n : Bool) (k : Int) : rneFp32 (.fin n 0 k) = (.fin n 0 (FpFmt.qmin .fp32), fNone) := by
  have hcast : castFp .fp32 .rne false (.fin n 0 k) = (withSign .fp32 n 0, fNone) := by simp [castFp, roundCode]
  have hdecode : FpFmt.decode .fp32 (withSign .fp32 n 0) = .fin n 0 (FpFmt.qmin .fp32) := by cases n <;> decide
  rw [rneFp32, hcast, hdecode]

/-- Finite numbers that add to exactly zero leave the accumulator zero, with no flag. -/
theorem accAdd_zero (n n' : Bool) (m m' : Nat) (x x' e : Int) (hx : e ≤ x) (hx' : e ≤ x')
    (h : (XNum.fin n m x).toIntAt e + (XNum.fin n' m' x').toIntAt e = 0) :
    accAdd (.fin n m x) (.fin n' m' x') = (.fin (m == 0 && n && m' == 0 && n') 0 (FpFmt.qmin .fp32), fNone) := by
  rw [toIntAt_min n n' m m' hx hx'] at h
  have hv := (mul_eq_zero.1 h).resolve_right (pow_ne_zero _ two_ne_zero)
  have hadd : (XNum.fin n m x).addX (.fin n' m' x') = (.fin (m == 0 && n && m' == 0 && n') 0 (min x x'), false) := by
    rw [addX_fin ⟨n, m, x, rfl, hx⟩ ⟨n', m', x', rfl, hx'⟩, addFin_eq]
    exact congrArg (·, false) (if_pos hv)
  rw [accAdd, hadd]
  simp only [rneFp32_zero, Bool.false_eq_true, if_false, BitVec.or_self]

/-! ### Codes of the float formats (R34, R35, R37) -/

namespace FpFmt

/-- The magnitude bits of a code. -/
def mag (f : FpFmt) (c : Nat) : Nat := c % 2 ^ (f.ebits + f.mbits)

/-- What a code above the largest finite value decodes to. -/
theorem decode_above {f : FpFmt} {c : Nat} (h : f.maxCode < f.mag c) :
    f.decode c = if f.hasInf && f.mag c == f.infCode then .inf (c.testBit (f.ebits + f.mbits)) else .nan := by
  unfold mag at *
  rw [decode]
  exact if_pos h

/-- Every other code decodes to a finite number: below the exponent code 1 as it stands, above with its hidden bit. -/
theorem decode_finite {f : FpFmt} {c : Nat} (h : f.mag c ≤ f.maxCode) :
    f.decode c = if f.mag c / 2 ^ f.mbits = 0 then .fin (c.testBit (f.ebits + f.mbits)) (f.mag c % 2 ^ f.mbits) f.qmin
      else .fin (c.testBit (f.ebits + f.mbits)) (f.mag c % 2 ^ f.mbits + 2 ^ f.mbits) (f.qmin + (f.mag c / 2 ^ f.mbits - 1 : Nat)) := by
  unfold mag at *
  rw [decode]
  exact if_neg (Nat.not_lt.2 h)

/-- The NaN encodings of a format lie above its largest finite value, its infinity apart. -/
theorem decode_eq_nan_iff (f : FpFmt) (c : Nat) :
    f.decode c = .nan ↔ f.maxCode < f.mag c ∧ ¬(f.hasInf = true ∧ f.mag c = f.infCode) := by
  by_cases h : f.maxCode < f.mag c
  · rw [decode_above h]
    by_cases hi : f.hasInf = true ∧ f.mag c = f.infCode
    · simp [hi]
    · rw [if_neg (by simpa using hi)]
      simp only [h, hi, not_false_eq_true, and_self]
  · rw [decode_finite (Nat.not_lt.1 h)]
    split <;> simp [h]

/-- No code of a format without an infinity is one. -/
theorem isInf_decode {f : FpFmt} (hf : f.hasInf = false) (c : Nat) : (f.decode c).isInf = false := by
  by_cases h : f.maxCode < f.mag c
  · rw [decode_above h, hf]
    rfl
  · rw [decode_finite (Nat.not_lt.1 h)]
    split <;> rfl

/-- In the formats laid out as IEEE 754 does, a NaN has all exponent bits set and a mantissa other than 0. -/
theorem decode_nan_ieee {f : FpFmt} (hf : f = .fp32 ∨ f = .bf16 ∨ f = .fp16 ∨ f = .e5m2) (c : Nat) :
    f.decode c = .nan ↔ bitsN c (f.ebits + f.mbits - 1) f.mbits = 2 ^ f.ebits - 1 ∧ bitsN c (f.mbits - 1) 0 ≠ 0 := by
  rw [decode_eq_nan_iff]
  rcases hf with rfl | rfl | rfl | rfl
  all_goals
    simp only [mag, bitsN, ebits, mbits, maxCode, infCode, hasInf, true_and, Nat.reduceAdd, Nat.reduceSub, Nat.reducePow]
    omega

/-- E4M3's NaN is the magnitude 0x7F alone. -/
theorem decode_nan_e4m3 (c : Nat) : FpFmt.decode .e4m3 c = .nan ↔ c % 128 = 0x7F := by
  rw [decode_eq_nan_iff]
  simp only [mag, ebits, mbits, maxCode, hasInf, Bool.false_eq_true, false_and, not_false_eq_true, and_true, Nat.reduceAdd,
    Nat.reducePow]
  omega

/-- E4M3's highest exponent holds finite values up to the magnitude 0x7E. -/
theorem decode_e4m3_top {c : Nat} (hc : c < 256) (h : 0x78 ≤ c % 128) (h' : c % 128 ≤ 0x7E) :
    FpFmt.decode .e4m3 c = .fin (decide (128 ≤ c)) (8 + c % 8) 5 := by
  have hmag : mag .e4m3 c = c % 128 := rfl
  have hsign : c.testBit 7 = decide (128 ≤ c) := by
    rw [Nat.testBit_eq_decide_div_mod_eq]
    congr 1
    simp only [eq_iff_iff]
    omega
  have hexp : c % 128 / 8 = 15 := by omega
  have hman : c % 128 % 8 + 8 = 8 + c % 8 := by omega
  rw [decode_finite (f := .e4m3) (by rw [hmag]; exact h'), hmag]
  simp only [mbits, ebits, Nat.reducePow, Nat.reduceAdd, hexp, hman, hsign]
  rfl

end FpFmt

end Sys2Proof.Machine

namespace Sys2Proof.Proofs
open Sys2Proof Sys2Proof.Machine

/-- Settles O58, by the sum at a common exponent. -/
theorem zeroSums : Obligations.ZeroSums := ⟨groupSum_exact, accAdd_zero⟩

/-- Settles O59, by the magnitude a code holds. -/
theorem nanInputs : Obligations.NanInputs :=
  ⟨fun _ c hf _ => FpFmt.decode_nan_ieee hf c, fun c _ => FpFmt.decode_nan_e4m3 c, fun c _ => FpFmt.isInf_decode rfl c,
    fun _ hc h h' => FpFmt.decode_e4m3_top hc h h'⟩

end Sys2Proof.Proofs

end

section
/-! PROOFS. The registers right after reset (O55). -/
namespace Sys2Proof.Machine
open Sys2Proof

/-! ### Pages and their rows -/

/-- The ranges of the page map stand in order, apart from each other and below the engines' pages. -/
theorem pageMap_apart : pageMap.Pairwise (fun r r' => r.first + r.count ≤ r'.first) := by decide

theorem pageMap_below : ∀ r ∈ pageMap, r.first + r.count ≤ 0x400 := by decide

/-- The pages of a range of the page map. -/
theorem pageOf_mem {r : PageRange} (hr : r ∈ pageMap) {i : Nat} (hi : i < r.count) : pageOf (r.first + i) = some (r.blk, r.code, i) := by
  have hlow := pageMap_below r hr
  have hfind : pageMap.find? (fun q => q.first ≤ r.first + i ∧ r.first + i < q.first + q.count) = some r := by
    obtain ⟨as, bs, hm⟩ := List.append_of_mem hr
    have hbefore : ∀ q ∈ as, q.first + q.count ≤ r.first := fun q hq =>
      (List.pairwise_append.1 (hm ▸ pageMap_apart)).2.2 q hq r (by simp)
    refine List.find?_eq_some_iff_append.2 ⟨by simpa using hi, as, bs, hm, fun q hq => ?_⟩
    have := hbefore q hq
    simp only [Bool.not_eq_true', decide_eq_false_iff_not]
    omega
  rw [pageOf, if_neg (by omega), hfind]
  simp

/-- The page of an engine: of an Ox engine, or of a Colt engine, whose page has the same layout (R68, R100). -/
theorem pageOf_engine {i : Nat} (hi : i < 1536) : ∃ b code, pageOf (0x400 + i) = some (b, code, i) ∧ (b = .clt ∨ b = .oxe) := by
  rw [pageOf, if_pos (by omega), Nat.add_sub_cancel_left]
  split
  · exact ⟨_, _, rfl, .inl rfl⟩
  · exact ⟨_, _, rfl, .inr rfl⟩

/-- The row of a register past the common layout. -/
theorem rowAt_block {p off : Nat} {b : Blk} {x : Nat × Nat} (hp : pageOf p = some (b, x)) (h : 0x100 ≤ off) (h' : off < 4096) :
    rowAt (4096 * p + off) = findRow (blkRows b) off := by
  have h1 : (4096 * p + off) / 4096 = p := by omega
  have h2 : (4096 * p + off) % 4096 = off := by omega
  simp only [rowAt, h1, h2, hp, if_neg (Nat.not_lt.2 h)]

/-- A register whose reset value is not its page's own: BLK_ID, RING_ID and QUEUE_ID, the core map, the challenge (R102, R134, R420, R497). -/
def TableReset (b : Blk) (off : Nat) : Prop :=
  off ≠ 0 ∧ ¬(off = 0x100 ∧ (b = .crg ∨ b = .evq)) ∧ ¬(off = 0x100 ∧ b = .clu) ∧ ¬(0x118 ≤ off ∧ off < 0x148 ∧ b = .sem)

/-- Such a register resets to the value of its row. -/
theorem regReset_of_row {p off : Nat} {b : Blk} {x : Nat × Nat} {v : Word32} (hp : pageOf p = some (b, x)) (ho : off < 4096)
    (ht : TableReset b off) (hr : (rowAt (4096 * p + off)).map (·.reset) = some v) : regReset (4096 * p + off) = v := by
  obtain ⟨h0, h1, h2, h3⟩ := ht
  obtain ⟨r, hrow, rfl⟩ := Option.map_eq_some_iff.1 hr
  have e1 : (4096 * p + off) / 4096 = p := by omega
  have e2 : (4096 * p + off) % 4096 = off := by omega
  simp only [regReset, e1, e2, hp, if_neg h0, if_neg h1, if_neg h2, if_neg h3, hrow]

/-- Registers past the mirrored ones of a page, and those of a page past the mirrored pages, stand for themselves. -/
theorem canon_unmirrored {p off : Nat} (ho : off < 4096) (h : 0x1B4 ≤ off ∨ 0xF4 ≤ p) : canon (4096 * p + off) = 4096 * p + off := by
  unfold canon
  simp only
  split_ifs <;> omega

namespace State

/-! ### Reset values -/

/-- After reset every register holds its reset value. -/
theorem rd_reset (a : Nat) : State.reset.rd a = regReset (canon a) := rfl

/-- A register of the common layout resets to its row's value on every page. -/
theorem rd_reset_common {p off : Nat} {v : Word32} (hp : (pageOf p).isSome = true) (h0 : off ≠ 0) (ho : off < 256)
    (hr : (findRow rowsCommon off).map (·.reset) = some v) : State.reset.rd (4096 * p + off) = v := by
  obtain ⟨⟨b, x⟩, hx⟩ := Option.isSome_iff_exists.1 hp
  rw [rd_reset, canon_common (by omega)]
  exact regReset_of_row hx (by omega) ⟨h0, by omega, by omega, by omega⟩ (by rw [rowAt_common hx ho, hr])

/-- A register of a block's own table resets to its row's value on every page of the block. -/
theorem rd_reset_block {p off : Nat} {b : Blk} {x : Nat × Nat} {v : Word32} (hp : pageOf p = some (b, x)) (h : 0x100 ≤ off) (ho : off < 4096)
    (hc : canon (4096 * p + off) = 4096 * p + off) (ht : TableReset b off) (hr : (findRow (blkRows b) off).map (·.reset) = some v) :
    State.reset.rd (4096 * p + off) = v := by
  rw [rd_reset, hc]
  exact regReset_of_row hp ho ht (by rw [rowAt_block hp h ho, hr])

/-- Ring and queue controls (R134, R137). -/
theorem rd_reset_rings {i j : Nat} (hi : i < 64) (hj : j < 16) :
    State.reset.rd (R.CRG_RING_CTL i j) = 0x00060000#32 ∧ State.reset.rd (R.EVQ_CTL i j) = 0x06200000#32 := by
  have hrows : ∀ k, k < 16 → (findRow rowsCrg (0x208 + 32 * k)).map (·.reset) = some 0x00060000#32 ∧
      (findRow rowsEvq (0x208 + 64 * k)).map (·.reset) = some 0x06200000#32 := by decide
  obtain ⟨hcrg, hevq⟩ := hrows j hj
  exact ⟨rd_reset_block (pageOf_mem (r := ⟨0x10, 64, .crg, 0xF⟩) (by decide) hi) (by omega) (by omega)
      (canon_unmirrored (by omega) (by omega)) ⟨by omega, by omega, by simp, by simp⟩ hcrg,
    rd_reset_block (pageOf_mem (r := ⟨0x50, 64, .evq, 0xE⟩) (by decide) hi) (by omega) (by omega)
      (canon_unmirrored (by omega) (by omega)) ⟨by omega, by omega, by simp, by simp⟩ hevq⟩

/-- The admission cap of a tenant and the SRAM split of a cluster (R102, R398). -/
theorem rd_reset_capSplit {i : Nat} (hi : i < 64) :
    State.reset.rd (R.ADM_CAP i) = 0x64#32 ∧ State.reset.rd (R.CLU_SRAM_SPLIT i) = 0x00680068#32 := by
  have hcap : canon (R.ADM_CAP i) = R.ADM_CAP i := by
    unfold canon R.ADM_CAP
    simp only
    split_ifs <;> omega
  exact ⟨rd_reset_block (pageOf_mem (r := ⟨0x90, 64, .adm, 0x10⟩) (by decide) hi) (by decide) (by decide) hcap
      ⟨by decide, by decide, by decide, by decide⟩ (by decide),
    rd_reset_block (pageOf_mem (r := ⟨0x140, 64, .clu, 0x4⟩) (by decide) hi) (by decide) (by decide)
      (canon_unmirrored (by decide) (by omega)) ⟨by decide, by decide, by decide, by decide⟩ (by decide)⟩

/-- The numeric control of an engine, an Ox or a Colt engine (R68). -/
theorem rd_reset_numCtl {i : Nat} (hi : i < 1536) : State.reset.rd (R.OXE_NUM_CTL i) = 0x10#32 := by
  obtain ⟨b, code, hp, rfl | rfl⟩ := pageOf_engine hi
  all_goals
    exact rd_reset_block hp (by decide) (by decide) (canon_unmirrored (by decide) (by omega))
      ⟨by decide, by decide, by decide, by decide⟩ (by decide)

end State
end Sys2Proof.Machine

namespace Sys2Proof.Proofs
open Sys2Proof Sys2Proof.Machine Sys2Proof.Machine.State

/-- Settles O55, by the rows of the register tables. -/
theorem resetState : Obligations.ResetState :=
  ⟨rfl, fun _ h => by simp [State.reset] at h, rfl, reset_mem_wf, rfl, rfl, rfl, fun _ _ => rd_reset_rings,
    fun _ => rd_reset_capSplit, fun _ => rd_reset_numCtl, by decide, by decide, by decide, by decide,
    fun _ hp => ⟨rd_reset_common hp (by decide) (by decide) (by decide), rd_reset_common hp (by decide) (by decide) (by decide),
      rd_reset_common hp (by decide) (by decide) (by decide), rd_reset_common hp (by decide) (by decide) (by decide),
      rd_reset_common hp (by decide) (by decide) (by decide)⟩⟩

end Sys2Proof.Proofs

end

section
/-! PROOFS. Stage counters: signals, writes, and the waiters they release (O2). -/
namespace Sys2Proof.Machine
open Sys2Proof

namespace State

/-! ### A counter and the registers beside it -/

/-- The register of a stage counter (R90). -/
def ctrReg (ctr : Nat) : Nat := R.CLU_STAGE_CTR (ctr / 256) (ctr % 256)

/-- Counters stand past the other registers of their page, so no register at a lower offset names one. -/
theorem canon_ctrReg_ne (ctr : Nat) {a : Nat} (h : a % 4096 < 0x400) : canon (ctrReg ctr) ≠ canon a := by
  refine canon_ne_of_off ?_
  simp only [ctrReg, R.CLU_STAGE_CTR]
  omega

/-- Registers of a cluster's page and the byte counts of the DRAM ports stand at different offsets. -/
theorem canon_ne_dramRead {a : Nat} (h : a % 4096 < 0x138 ∨ 0x140 ≤ a % 4096) (k : Nat) :
    canon a ≠ canon (R.DRP_RD_BYTES_LO k) ∧ canon a ≠ canon (R.DRP_RD_BYTES_LO k + 4) :=
  ⟨canon_ne_of_off (by simp only [R.DRP_RD_BYTES_LO]; omega), canon_ne_of_off (by simp only [R.DRP_RD_BYTES_LO]; omega)⟩

theorem ctrReg_off (ctr : Nat) : 0x400 ≤ ctrReg ctr % 4096 := by
  simp only [ctrReg, R.CLU_STAGE_CTR]
  omega

/-! ### Serving the waiter queue (R92) -/

/-- Whether a queue waits depends on its streams alone. -/
theorem headWaits_congr {s u : State} (h : u.strm = s.strm) {l : List Nat} {v : Word32} (hw : HeadWaits s l v) : HeadWaits u l v := by
  unfold HeadWaits
  rwa [h]

/-- A queue whose head waits is left as it stands. -/
theorem passWaiters_waits {s : State} {ctr : Nat} (h : HeadWaits s (Map.get s.waiters [] ctr) (s.rd (ctrReg ctr))) (fuel : Nat) :
    passWaiters ctr fuel s = s := by
  cases fuel with
  | zero => rfl
  | succ fuel =>
    cases hq : Map.get s.waiters [] ctr with
    | nil => simp only [passWaiters, hq]
    | cons n rest =>
      obtain ⟨x, hx, hlt⟩ := h n rest hq
      simp only [passWaiters, hq, hx]
      exact if_neg (Nat.not_le.2 hlt)

theorem passAll_waits {s : State} {ctr : Nat} (h : HeadWaits s (Map.get s.waiters [] ctr) (s.rd (ctrReg ctr))) : s.passAll ctr = s :=
  passWaiters_waits h _

/-- The head of a queue proceeds: it leaves the queue and its amount leaves the counter. -/
def headPass (s : State) (ctr n : Nat) (rest : List Nat) (x : Strm) : State :=
  (({ s with waiters := Map.put s.waiters [] ctr rest } : State).wr (ctrReg ctr)
    (s.rd (ctrReg ctr) - BitVec.ofNat 32 (SD.waitAmt x.desc))).strmGo n x

/-- What the head's passage does (R87, R92). -/
theorem headPass_spec {s : State} {n : Nat} {x : Strm} (ctr : Nat) (rest : List Nat) (hx : Map.get? s.strm n = some x) :
    s.headPass ctr n rest x = { s with
      regs := (s.headPass ctr n rest x).regs, waiters := (s.headPass ctr n rest x).waiters
      strm := (s.headPass ctr n rest x).strm, ms := (s.headPass ctr n rest x).ms } ∧
    (s.headPass ctr n rest x).rd (ctrReg ctr) = s.rd (ctrReg ctr) - BitVec.ofNat 32 (SD.waitAmt x.desc) ∧
    Proceeds s (s.headPass ctr n rest x) ctr n rest x [ctrReg ctr] := by
  unfold headPass
  obtain ⟨u, hu⟩ : ∃ u, u = ({ s with waiters := Map.put s.waiters [] ctr rest } : State).wr (ctrReg ctr)
    (s.rd (ctrReg ctr) - BitVec.ofNat 32 (SD.waitAmt x.desc)) := ⟨_, rfl⟩
  have hux : Map.get? u.strm n = some x := by rw [hu]; exact hx
  have hkept : RegsKept s u [ctrReg ctr] := by rw [hu]; exact kept_wr _ _ _
  have hctr : u.rd (ctrReg ctr) = s.rd (ctrReg ctr) - BitVec.ofNat 32 (SD.waitAmt x.desc) := by rw [hu]; exact rd_wr_self ..
  have hheld : u.strmHeld n = s.strmHeld n := strmHeld_congr hx hux rfl (by rw [hu]; rfl)
  obtain ⟨hf, -, hself, hne, ⟨hms, hregs⟩, hstill⟩ := strmGo_spec (s := u) (x := x) hux rfl
  rw [← hu]
  have hw : (u.strmGo n x).waiters = Map.put s.waiters [] ctr rest := by rw [hf, hu]; rfl
  refine ⟨by rw [hf, hu]; rfl, ?_, by rw [hself, hheld], fun m hm => by rw [hne m hm, hu]; rfl, ?_, fun c hc => ?_,
    ⟨by rw [hms, hu]; rfl, fun a ha hk => (hregs a (by simp) hk).trans (hkept a ha)⟩, fun h => ?_⟩
  · rw [hregs _ (by simp) (canon_ne_dramRead (.inr (by have := ctrReg_off ctr; omega))), hctr]
  · rw [hw, Map.get_put, if_pos rfl]
  · rw [hw, Map.get_put, if_neg hc]
  · obtain ⟨h1, h2⟩ := hstill (by rwa [hheld])
    exact ⟨by rw [h1, hu]; rfl, fun a ha => (rd_congr h2 a).trans (hkept a ha)⟩

/-- A head whose amount the counter reaches proceeds, and the next is tested on what is left. -/
theorem passWaiters_passes {s : State} {ctr n : Nat} {rest : List Nat} {x : Strm} (hq : Map.get s.waiters [] ctr = n :: rest)
    (hx : Map.get? s.strm n = some x) (hle : SD.waitAmt x.desc ≤ (s.rd (ctrReg ctr)).toNat) (fuel : Nat) :
    passWaiters ctr (fuel + 1) s = passWaiters ctr fuel (s.headPass ctr n rest x) := by
  simp only [passWaiters, hq, hx]
  exact if_pos hle

/-- A queue that waits for more than `v` still does when one of its streams proceeds. -/
theorem headWaits_proceeds {s t : State} {ctr n : Nat} {rest l m : List Nat} {x : Strm} {v : Word32} (hx : Map.get? s.strm n = some x)
    (hp : Proceeds s t ctr n rest x l) (hw : HeadWaits s m v) : HeadWaits t m v := by
  obtain ⟨hself, hne, -⟩ := hp
  intro k r hm
  obtain ⟨y, hy, hlt⟩ := hw k r hm
  by_cases hk : k = n
  · subst hk
    rw [hx, Option.some.injEq] at hy
    exact ⟨_, hself, by rwa [hy]⟩
  · exact ⟨y, by rw [hne k hk, hy], hlt⟩

/-- Where the next waiter's amount is not reached by what is left, the head alone proceeds. -/
theorem passAll_passes {s : State} {ctr n : Nat} {rest : List Nat} {x : Strm} (hq : Map.get s.waiters [] ctr = n :: rest)
    (hx : Map.get? s.strm n = some x) (hle : SD.waitAmt x.desc ≤ (s.rd (ctrReg ctr)).toNat)
    (hw : HeadWaits s rest (s.rd (ctrReg ctr) - BitVec.ofNat 32 (SD.waitAmt x.desc))) :
    s.passAll ctr = s.headPass ctr n rest x := by
  obtain ⟨-, hctr, hp⟩ := headPass_spec ctr rest hx
  obtain ⟨-, -, hrest, -⟩ := id hp
  rw [passAll, hq, List.length_cons, passWaiters_passes hq hx hle]
  refine passWaiters_waits ?_ _
  rw [hctr, hrest]
  exact headWaits_proceeds hx hp hw

/-- A head that proceeds after registers alone have changed, the counter's among them. -/
theorem proceeds_of_regs {s u t : State} {ctr n : Nat} {rest l : List Nat} {x : Strm} (hx : Map.get? s.strm n = some x)
    (hu : u = { s with sigs := u.sigs, regs := u.regs }) (hk : RegsKept s u l) (hl : ctrReg ctr ∈ l)
    (hp : Proceeds u t ctr n rest x [ctrReg ctr]) : Proceeds s t ctr n rest x l := by
  obtain ⟨hself, hne, hq, hqs, ⟨hms, hregs⟩, hstill⟩ := hp
  have hstrm : u.strm = s.strm := by rw [hu]
  have hheld : u.strmHeld n = s.strmHeld n := strmHeld_congr hx (by rw [hstrm, hx]) rfl (by rw [hu])
  have hmsu : u.ms = s.ms := by rw [hu]
  have hone : ∀ {a : Nat}, (∀ b ∈ l, canon a ≠ canon b) → ∀ b ∈ [ctrReg ctr], canon a ≠ canon b := fun h b hb =>
    h b (List.mem_singleton.1 hb ▸ hl)
  refine ⟨by rw [hself, hheld], fun m hm => by rw [hne m hm, hstrm], hq, fun c hc => by rw [hqs c hc, hu],
    ⟨by rw [hms, hmsu], fun a ha hd => (hregs a (hone ha) hd).trans (hk a ha)⟩, fun h => ?_⟩
  obtain ⟨h1, h2⟩ := hstill (by rwa [hheld])
  exact ⟨h1.trans hmsu, fun a ha => (h2 a (hone ha)).trans (hk a ha)⟩

/-! ### A signal counted (R90, R91) -/

/-- A counter after one more signal: it saturates. -/
def signalSum (v : Word32) : Word32 := if v = 0xFFFFFFFF then 0xFFFFFFFF else v + 1

/-- Latch a counter's overflow, the first with its number, a later one as one more. -/
def ctrOverflow (s : State) (ctr : Nat) : State :=
  if s.rdB (R.CLU_CTR_ERR (ctr / 256)) 31 then s.setBits (R.CLU_CTR_ERR (ctr / 256)) 0x40000000#32
  else s.wr (R.CLU_CTR_ERR (ctr / 256)) (BitVec.ofNat 32 (0x80000000 + ctr % 256))

theorem ctrOverflow_spec (s : State) (ctr : Nat) : OnlyRegs s (s.ctrOverflow ctr) [R.CLU_CTR_ERR (ctr / 256)] ∧
    (s.ctrOverflow ctr).rdB (R.CLU_CTR_ERR (ctr / 256)) 31 = true := by
  unfold ctrOverflow
  split
  · rename_i h
    refine ⟨⟨rfl, kept_wr _ _ _⟩, ?_⟩
    rw [rdB, setBits_eq, rd_wr_self, bit, BitVec.getLsbD_or]
    exact Bool.or_eq_true_iff.2 (.inl h)
  · refine ⟨⟨rfl, kept_wr _ _ _⟩, ?_⟩
    rw [rdB, rd_wr_self, bit, BitVec.getLsbD_ofNat]
    have hlow : (ctr % 256).testBit 31 = false := Nat.testBit_lt_two_pow (by omega)
    simpa [hlow] using Nat.testBit_two_pow_add_eq (ctr % 256) 31

/-- One more on a counter, which saturates. -/
def ctrAdd (s : State) (ctr : Nat) : State :=
  if s.rd (ctrReg ctr) = 0xFFFFFFFF then s.ctrOverflow ctr else s.wr (ctrReg ctr) (s.rd (ctrReg ctr) + 1)

/-- The branches of a signal's addition, each followed by the test of the waiters. -/
theorem passAll_ctrAdd (s : State) (ctr : Nat) :
    (if s.rd (ctrReg ctr) = 0xFFFFFFFF then
      (if s.rdB (R.CLU_CTR_ERR (ctr / 256)) 31 then .next ((s.setBits (R.CLU_CTR_ERR (ctr / 256)) 0x40000000#32).passAll ctr)
       else .next ((s.wr (R.CLU_CTR_ERR (ctr / 256)) (BitVec.ofNat 32 (0x80000000 + ctr % 256))).passAll ctr))
    else .next ((s.wr (ctrReg ctr) (s.rd (ctrReg ctr) + 1)).passAll ctr)) = (.next ((s.ctrAdd ctr).passAll ctr) : Out) := by
  simp only [ctrAdd, ctrOverflow]
  split_ifs <;> rfl

/-- A signal off its way and on its counter, before any waiter is tested. -/
def sigCounted (s : State) (ctr : Nat) : State :=
  (({ s with sigs := Map.put s.sigs 0 ctr (Map.get s.sigs 0 ctr - 1) } : State).bump (R.CLU_SIG_CNT (ctr / 256))).ctrAdd ctr

/-- What a signal changes: its way, its counter, its cluster's count of signals and, at saturation, the overflow's latch. -/
structure SigCounted (s u : State) (ctr : Nat) : Prop where
  frame : u = { s with sigs := u.sigs, regs := u.regs }
  taken : Map.get u.sigs 0 ctr = Map.get s.sigs 0 ctr - 1
  others : ∀ c, c ≠ ctr → Map.get u.sigs 0 c = Map.get s.sigs 0 c
  counter : u.rd (ctrReg ctr) = signalSum (s.rd (ctrReg ctr))
  kept : RegsKept s u [ctrReg ctr, R.CLU_SIG_CNT (ctr / 256), R.CLU_CTR_ERR (ctr / 256)]
  counted : u.rd (R.CLU_SIG_CNT (ctr / 256)) = satAdd32 (s.rd (R.CLU_SIG_CNT (ctr / 256))) 1
  latched : s.rd (ctrReg ctr) = 0xFFFFFFFF → u.rdB (R.CLU_CTR_ERR (ctr / 256)) 31 = true
  unlatched : s.rd (ctrReg ctr) ≠ 0xFFFFFFFF → u.rd (R.CLU_CTR_ERR (ctr / 256)) = s.rd (R.CLU_CTR_ERR (ctr / 256))

theorem sigCounted_spec (s : State) (ctr : Nat) : SigCounted s (s.sigCounted ctr) ctr := by
  have hsig : canon (ctrReg ctr) ≠ canon (R.CLU_SIG_CNT (ctr / 256)) := canon_ctrReg_ne ctr (by simp only [R.CLU_SIG_CNT]; omega)
  have herr : canon (ctrReg ctr) ≠ canon (R.CLU_CTR_ERR (ctr / 256)) := canon_ctrReg_ne ctr (by simp only [R.CLU_CTR_ERR]; omega)
  have hse : canon (R.CLU_SIG_CNT (ctr / 256)) ≠ canon (R.CLU_CTR_ERR (ctr / 256)) :=
    canon_ne_of_off (by simp only [R.CLU_SIG_CNT, R.CLU_CTR_ERR]; omega)
  unfold sigCounted
  obtain ⟨u, hu⟩ : ∃ u, u = ({ s with sigs := Map.put s.sigs 0 ctr (Map.get s.sigs 0 ctr - 1) } : State).bump (R.CLU_SIG_CNT (ctr / 256)) :=
    ⟨_, rfl⟩
  have huf : u = { s with sigs := u.sigs, regs := u.regs } := by rw [hu]; rfl
  have husigs : u.sigs = Map.put s.sigs 0 ctr (Map.get s.sigs 0 ctr - 1) := by rw [hu]; rfl
  have huk : RegsKept s u [R.CLU_SIG_CNT (ctr / 256)] := by
    rw [hu]; exact kept_wr ({ s with sigs := Map.put s.sigs 0 ctr (Map.get s.sigs 0 ctr - 1) } : State) _ _
  have hucnt : u.rd (R.CLU_SIG_CNT (ctr / 256)) = satAdd32 (s.rd (R.CLU_SIG_CNT (ctr / 256))) 1 := by
    rw [hu]; exact rd_wr_self ..
  have huctr : u.rd (ctrReg ctr) = s.rd (ctrReg ctr) := huk _ (by simpa using hsig)
  have huerr : u.rd (R.CLU_CTR_ERR (ctr / 256)) = s.rd (R.CLU_CTR_ERR (ctr / 256)) := huk _ (by simpa using hse.symm)
  rw [← hu]
  clear hu
  have htaken : ∀ {v : State}, v.sigs = u.sigs → Map.get v.sigs 0 ctr = Map.get s.sigs 0 ctr - 1 := fun h => by
    rw [h, husigs, Map.get_put, if_pos rfl]
  have hothers : ∀ {v : State}, v.sigs = u.sigs → ∀ c, c ≠ ctr → Map.get v.sigs 0 c = Map.get s.sigs 0 c := fun h c hc => by
    rw [h, husigs, Map.get_put, if_neg hc]
  rw [ctrAdd, huctr]
  by_cases hmax : s.rd (ctrReg ctr) = 0xFFFFFFFF
  · rw [if_pos hmax]
    obtain ⟨⟨hf, hk⟩, hbit⟩ := ctrOverflow_spec u ctr
    have hs : (u.ctrOverflow ctr).sigs = u.sigs := by rw [hf]
    exact ⟨by rw [hf, huf], htaken hs, hothers hs, by rw [hk _ (by simpa using herr), huctr, signalSum, if_pos hmax, hmax],
      kept_trans huk hk (by simp) (by simp), (hk _ (by simpa using hse)).trans hucnt, fun _ => hbit, fun h => absurd hmax h⟩
  · rw [if_neg hmax]
    have hk := kept_wr u (ctrReg ctr) (s.rd (ctrReg ctr) + 1)
    exact ⟨by rw [huf]; rfl, htaken rfl, hothers rfl, by rw [rd_wr_self, signalSum, if_neg hmax], kept_trans huk hk (by simp) (by simp),
      (hk _ (by simpa using hsig.symm)).trans hucnt, fun h => absurd h hmax, fun _ => (hk _ (by simpa using herr.symm)).trans huerr⟩

end State
end Sys2Proof.Machine

namespace Sys2Proof.Proofs
open Sys2Proof Sys2Proof.Machine Sys2Proof.Machine.State

theorem exec_stageSignal {s t : State} {ctr : Nat} (hc : ctr < 16384) (hs : 0 < Map.get s.sigs 0 ctr)
    (ht : (s.sigCounted ctr).passAll ctr = t) (hp : t.pending = s.pending) : exec (.stageSignal ctr) s = .next t := by
  rw [← keepQueue_of_pending hp, ← ht]
  show execStageSignal ctr s = _
  exact congrArg (keepQueue s) ((if_pos ⟨hc, hs⟩).trans (passAll_ctrAdd _ ctr))

theorem exec_stageCtrWrite {s t : State} {ctr : Nat} {v : Word32} (hc : ctr < 16384) (ht : (s.plainWrite (ctrReg ctr) v).passAll ctr = t)
    (hp : t.pending = s.pending) : exec (.stageCtrWrite ctr v) s = .next t := by
  rw [← keepQueue_of_pending hp, ← ht]
  show execStageCtrWrite ctr v s = _
  exact congrArg (keepQueue s) (if_pos hc)

theorem exec_stageWaitPass {s t : State} {ctr : Nat} (ht : s.passAll ctr = t) (hp : t.pending = s.pending) :
    exec (.stageWaitPass ctr) s = .next t := by
  rw [← keepQueue_of_pending hp, ← ht]
  rfl

/-- A signal whose sum the head waiter waits past (R90, R91). -/
theorem signal_waits (s : State) (ctr : Nat) (hc : ctr < 16384) (hs : 0 < Map.get s.sigs 0 ctr)
    (hw : HeadWaits s (Map.get s.waiters [] ctr) (signalSum (s.rd (ctrReg ctr)))) :
    ∃ t, exec (.stageSignal ctr) s = .next t ∧ SigCounted s t ctr := by
  have h := sigCounted_spec s ctr
  refine ⟨_, exec_stageSignal hc hs (passAll_waits ?_) (by rw [h.frame]), h⟩
  rw [h.counter, show (s.sigCounted ctr).waiters = s.waiters by rw [h.frame]]
  exact headWaits_congr (by rw [h.frame]) hw

/-- A signal whose sum reaches the head waiter's amount (R92). -/
theorem signal_passes (s : State) (ctr n : Nat) (rest : List Nat) (x : Strm) (hc : ctr < 16384) (hs : 0 < Map.get s.sigs 0 ctr)
    (hq : Map.get s.waiters [] ctr = n :: rest) (hx : Map.get? s.strm n = some x)
    (hle : SD.waitAmt x.desc ≤ (signalSum (s.rd (ctrReg ctr))).toNat)
    (hw : HeadWaits s rest (signalSum (s.rd (ctrReg ctr)) - BitVec.ofNat 32 (SD.waitAmt x.desc))) :
    ∃ t, exec (.stageSignal ctr) s = .next t ∧
      t = { s with sigs := t.sigs, regs := t.regs, waiters := t.waiters, strm := t.strm, ms := t.ms } ∧
      Map.get t.sigs 0 ctr = Map.get s.sigs 0 ctr - 1 ∧ (∀ c, c ≠ ctr → Map.get t.sigs 0 c = Map.get s.sigs 0 c) ∧
      t.rd (ctrReg ctr) = signalSum (s.rd (ctrReg ctr)) - BitVec.ofNat 32 (SD.waitAmt x.desc) ∧
      t.rd (R.CLU_SIG_CNT (ctr / 256)) = satAdd32 (s.rd (R.CLU_SIG_CNT (ctr / 256))) 1 ∧
      Proceeds s t ctr n rest x [ctrReg ctr, R.CLU_SIG_CNT (ctr / 256), R.CLU_CTR_ERR (ctr / 256)] := by
  obtain ⟨hf, htaken, hothers, hctr, hk, hcnt, -, -⟩ := sigCounted_spec s ctr
  obtain ⟨u, hu⟩ : ∃ u, u = s.sigCounted ctr := ⟨_, rfl⟩
  rw [← hu] at hf htaken hothers hctr hk hcnt
  have hstrm : u.strm = s.strm := by rw [hf]
  have hxu : Map.get? u.strm n = some x := by rw [hstrm, hx]
  have hpass := passAll_passes (s := u) (ctr := ctr) (rest := rest) (by rw [hf]; exact hq) hxu (by rwa [hctr])
    (by rw [hctr]; exact headWaits_congr hstrm hw)
  obtain ⟨htf, htc, htp⟩ := headPass_spec ctr rest hxu
  obtain ⟨t, ht⟩ : ∃ t, t = u.headPass ctr n rest x := ⟨_, rfl⟩
  rw [← ht] at hpass htf htc htp
  have hsigs : t.sigs = u.sigs := by rw [htf]
  obtain ⟨-, -, -, -, ⟨-, hregs⟩, -⟩ := id htp
  refine ⟨t, exec_stageSignal hc hs (by rw [← hu]; exact hpass) (by rw [htf, hf]), by rw [htf, hf], by rw [hsigs, htaken],
    fun c hc => by rw [hsigs, hothers c hc], by rw [htc, hctr], ?_, proceeds_of_regs hx hf hk (by simp) htp⟩
  rw [hregs _ ?_ (canon_ne_dramRead (.inl (by simp only [R.CLU_SIG_CNT]; omega))), hcnt]
  simpa using (canon_ctrReg_ne ctr (by simp only [R.CLU_SIG_CNT]; omega)).symm

theorem ctrReg_written (s : State) (ctr : Nat) (v : Word32) : RegWritten s (s.plainWrite (ctrReg ctr) v) (ctrReg ctr) v :=
  plainWrite_spec s _ v (by have := ctrReg_off ctr; omega)

/-- A write that the head waiter waits past (R93). -/
theorem ctrWrite_waits (s : State) (ctr : Nat) (v : Word32) (hc : ctr < 16384)
    (hw : HeadWaits s (Map.get s.waiters [] ctr) (writeFields (fieldsAt (ctrReg ctr)) (s.rd (ctrReg ctr)) v).1) :
    ∃ t, exec (.stageCtrWrite ctr v) s = .next t ∧ RegWritten s t (ctrReg ctr) v := by
  obtain ⟨⟨hf, -⟩, hv, -⟩ := ctrReg_written s ctr v
  refine ⟨_, exec_stageCtrWrite hc (passAll_waits ?_) (by rw [hf]), ctrReg_written s ctr v⟩
  rw [hv, show (s.plainWrite (ctrReg ctr) v).waiters = s.waiters by rw [hf]]
  exact headWaits_congr (by rw [hf]) hw

/-- A write that reaches the head waiter's amount (R92, R93). -/
theorem ctrWrite_passes (s : State) (ctr n : Nat) (v : Word32) (rest : List Nat) (x : Strm) (hc : ctr < 16384)
    (hq : Map.get s.waiters [] ctr = n :: rest) (hx : Map.get? s.strm n = some x)
    (hle : SD.waitAmt x.desc ≤ (writeFields (fieldsAt (ctrReg ctr)) (s.rd (ctrReg ctr)) v).1.toNat)
    (hw : HeadWaits s rest ((writeFields (fieldsAt (ctrReg ctr)) (s.rd (ctrReg ctr)) v).1 - BitVec.ofNat 32 (SD.waitAmt x.desc))) :
    ∃ t, exec (.stageCtrWrite ctr v) s = .next t ∧ t = { s with regs := t.regs, waiters := t.waiters, strm := t.strm, ms := t.ms } ∧
      t.rd (ctrReg ctr) = (writeFields (fieldsAt (ctrReg ctr)) (s.rd (ctrReg ctr)) v).1 - BitVec.ofNat 32 (SD.waitAmt x.desc) ∧
      Proceeds s t ctr n rest x [ctrReg ctr, R.GEN_WR_CNT (ctrReg ctr / 4096), R.GEN_IGN_CNT (ctrReg ctr / 4096)] := by
  obtain ⟨⟨hf, hk⟩, hv, -, -⟩ := ctrReg_written s ctr v
  obtain ⟨u, hu⟩ : ∃ u, u = s.plainWrite (ctrReg ctr) v := ⟨_, rfl⟩
  rw [← hu] at hf hk hv
  have hstrm : u.strm = s.strm := by rw [hf]
  have hxu : Map.get? u.strm n = some x := by rw [hstrm, hx]
  have hpass := passAll_passes (s := u) (ctr := ctr) (rest := rest) (by rw [hf]; exact hq) hxu (by rwa [hv])
    (by rw [hv]; exact headWaits_congr hstrm hw)
  obtain ⟨htf, htc, htp⟩ := headPass_spec ctr rest hxu
  exact ⟨_, exec_stageCtrWrite hc (by rw [← hu]; exact hpass) (by rw [htf, hf]), by rw [htf, hf], by rw [htc, hv],
    proceeds_of_regs hx (by rw [hf]) hk (by simp) htp⟩

/-- The head waiter proceeds on the counter as it stands (R92). -/
theorem waitPass_passes (s : State) (ctr n : Nat) (rest : List Nat) (x : Strm) (hq : Map.get s.waiters [] ctr = n :: rest)
    (hx : Map.get? s.strm n = some x) (hle : SD.waitAmt x.desc ≤ (s.rd (ctrReg ctr)).toNat)
    (hw : HeadWaits s rest (s.rd (ctrReg ctr) - BitVec.ofNat 32 (SD.waitAmt x.desc))) :
    ∃ t, exec (.stageWaitPass ctr) s = .next t ∧ t = { s with regs := t.regs, waiters := t.waiters, strm := t.strm, ms := t.ms } ∧
      (t.rd (ctrReg ctr)).toNat + SD.waitAmt x.desc = (s.rd (ctrReg ctr)).toNat ∧ Proceeds s t ctr n rest x [ctrReg ctr] := by
  obtain ⟨hf, hc, hp⟩ := headPass_spec ctr rest hx
  refine ⟨_, exec_stageWaitPass (passAll_passes hq hx hle hw) (by rw [hf]), hf, ?_, hp⟩
  have := (s.rd (ctrReg ctr)).isLt
  rw [hc, BitVec.toNat_sub_of_le (by rw [BitVec.le_def, BitVec.toNat_ofNat, Nat.mod_eq_of_lt (by omega)]; exact hle), BitVec.toNat_ofNat,
    Nat.mod_eq_of_lt (by omega)]
  omega

/-- Settles O2: a waiter queue is served by its head's test, and what a signal or a write leaves in the counter feeds that test. -/
theorem stageCounters : Obligations.StageCounters := by
  refine ⟨fun s ctr hc hs hw => ?_, signal_passes, ctrWrite_waits, ctrWrite_passes,
    fun s ctr hw => exec_stageWaitPass (passAll_waits hw) rfl, waitPass_passes⟩
  obtain ⟨t, hex, hf, htaken, hothers, hctr, hk, hcnt, hlatch, hstill⟩ := signal_waits s ctr hc hs hw
  exact ⟨t, hex, hf, htaken, hothers, hctr, hk, hcnt, hlatch, hstill⟩

end Sys2Proof.Proofs

end

section
/-! PROOFS. A LIN fill that keeps its format copies its elements (O4). -/
namespace Sys2Proof.Machine
open Sys2Proof

/-- Bytes that a write does not touch read as before. -/
theorem Mem.read_write_out (m : Mem) {a b n : Nat} {bs : List Byte} (h : b + n ≤ a ∨ a + bs.length ≤ b) :
    Mem.read (Mem.write m a bs) b n = Mem.read m b n := by
  refine List.map_congr_left fun i hi => Mem.get_write_out m a bs (b + i) ?_
  have := List.mem_range.1 hi
  omega

namespace State

/-! ### Reads of the unified range while SRAM changes -/

theorem length_bytesAt (s : State) (a n : Nat) : (s.bytesAt a n).length = n := by
  unfold bytesAt
  split <;> simp [Mem.read]

/-- A range of the unified range reads the same where SRAM alone has changed. -/
theorem bytesAt_of_unified {s u : State} (h : BytesKept Unified s u) {a n : Nat} (ha : a + n ≤ uniEnd) :
    u.bytesAt a n = s.bytesAt a n := by
  obtain ⟨hf, hmem⟩ := h
  have htile : u.tile = s.tile := by rw [hf]; rfl
  have hft : u.ft = s.ft := by rw [hf]
  have hget : ∀ i ∈ List.range n, Mem.get u.mem (a + i) = Mem.get s.mem (a + i) := fun i hi => by
    have := List.mem_range.1 hi
    exact hmem _ (show a + i < uniEnd by omega)
  have hread : Mem.read u.mem a n = Mem.read s.mem a n := List.map_congr_left hget
  have haway : ∀ g : Nat → Byte, (List.range n).map (fun i => if (s.tile ((a + i) / tileBytes)).st = .away then g i else Mem.get u.mem (a + i)) =
      (List.range n).map (fun i => if (s.tile ((a + i) / tileBytes)).st = .away then g i else Mem.get s.mem (a + i)) := fun g =>
    List.map_congr_left fun i hi => by rw [hget i hi]
  simp only [bytesAt, htile, hft, hread, haway]

/-- The outermost index of an element is below its count (R77). -/
theorem outer_lt {d : StreamDesc} {i : Nat} (h : i < SD.elems d) :
    i / (SD.count d.dim0 * SD.count d.dim1 * SD.count d.dim2 * SD.count d.dim3) < SD.count d.dim4 :=
  Nat.div_lt_of_lt_mul h

/-- The address of an element is the same where SRAM alone has changed, its index entry standing in the unified range. -/
theorem elemAddr_of_unified {s u : State} (h : BytesKept Unified s u) {d : StreamDesc}
    (hidx : SD.idx d = true → fld d.dim4 47 0 + 8 * SD.count d.dim4 ≤ uniEnd) {i : Nat} (hi : i < SD.elems d) :
    u.elemAddr d i = s.elemAddr d i := by
  have hoff : ∀ j, j < SD.count d.dim4 → u.off4 d j = s.off4 d j := fun j hj => by
    unfold off4
    split
    · rename_i hd
      have := hidx hd
      rw [memInt64, memInt64, bytesAt_of_unified h (by omega)]
    · rfl
  simp only [elemAddr, hoff _ (outer_lt hi)]

/-! ### Elements copied one after another (R77, R79) -/

/-- The first `k` elements of a stream stand in the slot as memory holds them, and SRAM alone has changed. -/
def Copied (s u : State) (d : StreamDesc) (k : Nat) : Prop :=
  BytesKept Unified s u ∧ ∀ i, i < k →
    Mem.read u.mem (slotAddr (SD.slot d) + i * strmElemBytes (SD.src d)) (strmElemBytes (SD.src d)) =
      s.bytesAt (s.elemAddr d i).toNat (strmElemBytes (SD.src d))

/-- A fill that keeps its format in LIN writes an element's bytes at its place, and at most marks it poisoned. -/
theorem fillElem_mem {d : StreamDesc} (hlin : SD.layout d = 0) (hsame : SD.src d = SD.dst d) (acc : State × NumFlags) (n : Nat) :
    (fillElem d acc n).1.mem = Mem.write acc.1.mem (slotAddr (SD.slot d) + n * strmElemBytes (SD.src d))
      (acc.1.bytesAt (acc.1.elemAddr d n).toNat (strmElemBytes (SD.src d))) := by
  have hcond : (decide (SD.src d = SD.dst d) && !layPanel (SD.layout d)) = true := by simp [hsame, hlin, layPanel]
  unfold fillElem
  extract_lets s a mb raw bad x t v
  rw [if_pos hcond]
  simp only
  split
  · obtain ⟨p, hp⟩ := markUnits_frame t x (rangeUnits x mb)
    rw [hp]
    rfl
  · rfl

section Copy
variable {s : State} {d : StreamDesc} (hlin : SD.layout d = 0) (hsame : SD.src d = SD.dst d)
  (huni : ∀ i, i < SD.elems d → (s.elemAddr d i).toNat + strmElemBytes (SD.src d) ≤ uniEnd)
  (hidx : SD.idx d = true → fld d.dim4 47 0 + 8 * SD.count d.dim4 ≤ uniEnd)
include hlin hsame huni hidx

/-- The next element joins those copied: places of elements do not overlap, and what it reads is as it was. -/
theorem copied_succ {acc : State × NumFlags} {k : Nat} (hk : k < SD.elems d) (h : Copied s acc.1 d k) :
    Copied s (fillElem d acc k).1 d (k + 1) := by
  obtain ⟨hkept, hdone⟩ := h
  refine ⟨bytesKept_trans _ _ _ hkept (bytesKept_fillElem d acc k), fun i hi => ?_⟩
  rw [fillElem_mem hlin hsame, elemAddr_of_unified hkept hidx hk, bytesAt_of_unified hkept (huni k hk)]
  have hlen := length_bytesAt s (s.elemAddr d k).toNat (strmElemBytes (SD.src d))
  rcases Nat.lt_succ_iff_lt_or_eq.1 hi with hlt | rfl
  · rw [Mem.read_write_out, hdone i hlt]
    have := Nat.mul_le_mul_right (strmElemBytes (SD.src d)) (show i + 1 ≤ k from hlt)
    rw [Nat.add_mul, Nat.one_mul] at this
    omega
  · have := Mem.read_write acc.1.mem (slotAddr (SD.slot d) + i * strmElemBytes (SD.src d))
      (s.bytesAt (s.elemAddr d i).toNat (strmElemBytes (SD.src d)))
    rwa [hlen] at this

theorem copied_fold (k : Nat) (hk : k ≤ SD.elems d) :
    Copied s ((List.range k).foldl (fun a i => fillElem d a (0 + i)) (s, fNone)).1 d k := by
  induction k with
  | zero => exact ⟨bytesKept_refl _ s, fun i hi => absurd hi (Nat.not_lt_zero i)⟩
  | succ k ih =>
    rw [List.range_succ, List.foldl_append, List.foldl_cons, List.foldl_nil, Nat.zero_add]
    exact copied_succ hlin hsame huni hidx hk (ih (Nat.le_of_succ_le hk))

/-- A run over every element copies them all. -/
theorem copied_fillRun : Copied s (s.fillRun d 0 (SD.elems d)).1 d (SD.elems d) := by
  have hc : ¬collects d = true := by rw [collects, hsame, Bool.not_and_self]; exact Bool.false_ne_true
  rw [fillRun, if_neg hc]
  exact copied_fold hlin hsame huni hidx _ (Nat.le_refl _)

end Copy

/-! ### A fill complete -/

/-- No element lies before the first slot. -/
theorem elemsFor_zero {d : StreamDesc} (hlin : SD.layout d = 0) (hsame : SD.src d = SD.dst d) : elemsFor d 0 = 0 := by
  simp [elemsFor, hlin, hsame, layPanel, collects]

/-- A fill without PAD leaves in memory what its run leaves. -/
theorem strmMove_mem {s : State} (n : Nat) {x : Strm} (lo hi : Nat) (hsp : SD.spill x.desc = false) (hdir : SD.direct x.desc = false)
    (hpad : SD.pad x.desc = false) : (s.strmMove n x lo hi).mem = (s.fillRun x.desc lo hi).1.mem := by
  have hflags := (opFlags_spec (s.fillRun x.desc lo hi).1 x.op (s.fillRun x.desc lo hi).2).1
  simp only [strmMove, hsp, hdir, hpad, Bool.false_eq_true, if_false, Bool.false_and]
  rw [show ∀ (u : State) a m, (u.add64 a m).mem = u.mem from fun _ _ _ => rfl, hflags]

/-- The end of a stream leaves memory. -/
theorem strmEnd_mem (s : State) (n : Nat) (x : Strm) : (s.strmEnd n x).mem = s.mem := by
  unfold strmEnd
  split
  · rfl
  · simp only
    split <;> rfl

end State
end Sys2Proof.Machine

namespace Sys2Proof.Proofs
open Sys2Proof Sys2Proof.Machine Sys2Proof.Machine.State

/-- Settles O4, by induction on the elements visited: each is read from memory that no earlier one wrote. -/
theorem linFillCopies : Obligations.LinFillCopies := by
  intro s n x hx hst hdone hstop hrd hmesh hsp hdir hpad hlin hsame huni hidx
  have hex := exec_streamComplete_none ⟨hx, hst, hstop, hrd, hmesh⟩
  rw [strmDone_fill s n x hsp hdir, hdone, elemsFor_zero hlin hsame, keepQueue_of_next] at hex
  refine ⟨_, hex, fun i hi => ?_⟩
  obtain ⟨-, hcopied⟩ := copied_fillRun (s := s) hlin hsame (fun i hi => (huni i hi).2) hidx
  obtain ⟨⟨hslots, -⟩, -⟩ := slotsFull_spec (nodup_slotsLeft x) (s.strmMove n x 0 (SD.elems x.desc))
  simp only [strmEnd_mem]
  rw [hslots, strmMove_mem n 0 _ hsp hdir hpad]
  exact hcopied i hi

end Sys2Proof.Proofs

end

section
/-! PROOFS. Cores out of service: faults, substitution, fences (O44). -/
namespace Sys2Proof.Machine
open Sys2Proof

/-! ### Registers of units -/

/-- Registers past the mirrored pages are none of those before. -/
theorem canon_ne_of_high {a b : Nat} (ha : 0xF4000 ≤ a) (hb : b < 0xF4000) : canon a ≠ canon b := by
  unfold canon
  simp only
  split_ifs <;> omega

/-- Registers past the mirrored pages stand for themselves. -/
theorem canon_high {a : Nat} (ha : 0xF4000 ≤ a) : canon a = a := by
  unfold canon
  simp only
  split_ifs <;> omega

/-- A register of a compute die, cluster, core or engine, below the stage counters. -/
def UnitReg (a : Nat) : Prop := 0x130000 ≤ a ∧ a % 4096 < 0x400

theorem unitReg_map (u : Nat) : UnitReg (R.CLU_CORE_MAP u) := by
  simp only [UnitReg, R.CLU_CORE_MAP]
  omega

theorem unitReg_dieInt (d : Nat) : UnitReg (R.INT_STAT (0x130 + d)) := by
  simp only [UnitReg, R.INT_STAT]
  omega

/-- An entry of a map after a set is the one set, or was there. -/
theorem Map.mem_set {α : Type} {m : Map α} {k : Nat} {v : α} {p : Nat × α} (h : p ∈ Map.set m k v) : p = (k, v) ∨ p ∈ m := by
  simp only [Map.set, List.mem_append, List.mem_cons, List.mem_filter] at h
  rcases h with ⟨h, -⟩ | h | ⟨h, -⟩
  · exact .inr h
  · exact .inl h
  · exact .inr h

/-- An entry of a map after a removal was there. -/
theorem Map.mem_erase {α : Type} {m : Map α} {k : Nat} {p : Nat × α} (h : p ∈ Map.erase m k) : p ∈ m := (List.mem_filter.1 h).1

/-- A value found is an entry. -/
theorem Map.mem_of_get? {α : Type} {m : Map α} {k : Nat} {v : α} (h : Map.get? m k = some v) : (k, v) ∈ m := by
  obtain ⟨p, hp, rfl⟩ := Option.map_eq_some_iff.1 h
  have hk : p.1 = k := by simpa using List.find?_some hp
  exact hk ▸ List.mem_of_find?_eq_some hp

namespace State

/-! ### What leaves the cores in service as they are -/

/-- No core's service changes, and none becomes busy (R477, R478). -/
structure ServiceKept (s t : State) : Prop where
  cores : t.coreRun = s.coreRun
  time : t.ft = s.ft
  idle : ∀ c, s.coreBusy c = false → t.coreBusy c = false

theorem serviceKept_refl (s : State) : ServiceKept s s := ⟨rfl, rfl, fun _ => id⟩

theorem serviceKept_trans (s t u : State) (h : ServiceKept s t) (h' : ServiceKept t u) : ServiceKept s u :=
  ⟨h'.cores.trans h.cores, h'.time.trans h.time, fun c hc => h'.idle c (h.idle c hc)⟩

theorem serviceKept_of_ops {s t : State} (hc : t.coreRun = s.coreRun) (hf : t.ft = s.ft) (ho : t.ops = s.ops) : ServiceKept s t :=
  ⟨hc, hf, fun c h => by rw [coreBusy, ho]; exact h⟩

/-- Where every operator stands for one that had its record and its parts, no core becomes busy. -/
theorem serviceKept_of_sub {s t : State} (hc : t.coreRun = s.coreRun) (hf : t.ft = s.ft)
    (ho : ∀ p ∈ t.ops, ∃ q ∈ s.ops, p.2.dispatched = q.2.dispatched ∧ p.2.cmd = q.2.cmd ∧ p.2.parts = q.2.parts) : ServiceKept s t := by
  refine ⟨hc, hf, fun c h => List.any_eq_false.2 fun p hp => ?_⟩
  obtain ⟨q, hq, hd, hcmd, hparts⟩ := ho p hp
  rw [hd, hcmd, hparts]
  exact List.any_eq_false.1 h q hq

theorem core_eq {s t : State} (h : t.coreRun = s.coreRun) (c : Nat) : t.core c = s.core c := by rw [core, core, h]

/-- The core's service is set and no other's. -/
theorem core_coreSet (s : State) (c k : Nat) (r : CoreRun) : (s.coreSet c r).core k = if k = c then r else s.core k := Map.get_put ..

/-- A CODE given to an operator changes that operator alone. -/
theorem opFail_frame (s : State) (h : Nat) (code detail : Byte) : s.opFail h code detail = { s with ops := (s.opFail h code detail).ops } := by
  unfold opFail
  split
  · exact rel_ite (R := fun s t => t = { s with ops := t.ops }) rfl rfl
  · rfl

theorem serviceKept_opFail (s : State) (h : Nat) (code detail : Byte) : ServiceKept s (s.opFail h code detail) := by
  refine serviceKept_of_sub (by rw [opFail_frame]) (by rw [opFail_frame]) fun p hp => ?_
  unfold opFail at hp
  split at hp
  · rename_i o ho
    split at hp
    · rcases Map.mem_set hp with rfl | hp
      · exact ⟨_, Map.mem_of_get? ho, rfl, rfl, rfl⟩
      · exact ⟨p, hp, rfl, rfl, rfl⟩
    · exact ⟨p, hp, rfl, rfl, rfl⟩
  · exact ⟨p, hp, rfl, rfl, rfl⟩

theorem serviceKept_cancelStream (s : State) (n : Nat) : ServiceKept s (s.cancelStream n) := by
  obtain ⟨_, _, _, h⟩ := cancelStream_eq s n
  rw [h]
  exact serviceKept_of_ops rfl rfl rfl

/-- No core's service changes, none becomes busy, and the registers of units stand. -/
def UnitsKept (s t : State) : Prop := ServiceKept s t ∧ KeepsOn UnitReg s t

theorem unitsKept_refl (s : State) : UnitsKept s s := ⟨serviceKept_refl s, keepsOn_refl _ s⟩

theorem unitsKept_trans (s t u : State) (h : UnitsKept s t) (h' : UnitsKept t u) : UnitsKept s u :=
  ⟨serviceKept_trans s t u h.1 h'.1, keepsOn_trans h.2 h'.2⟩

theorem unitsKept_of_regs {s t : State} (h : ServiceKept s t) (hr : t.regs = s.regs) : UnitsKept s t := ⟨h, keepsOn_of_regs _ hr⟩

/-- Registers of the pages before the units' are none of theirs. -/
theorem keepsOn_units {s t : State} {l : List Nat} (h : RegsKept s t l) (hl : ∀ b ∈ l, b < 0xF4000) : KeepsOn UnitReg s t :=
  keepsOn_of_kept h fun a ha b hb => canon_ne_of_high (by have := ha.1; omega) (hl b hb)

/-! ### A ring stops (R119) -/

theorem unitsKept_storeItem (s : State) {t q : Nat} (ht : t < 64) (hq : q < 16) (prio : Nat) (bs : List Byte) :
    UnitsKept s (s.storeItem t q prio bs) := by
  obtain ⟨hf, hk⟩ := storeItem_spec s t q prio bs
  refine ⟨serviceKept_of_ops (by rw [hf]) (by rw [hf]) (by rw [hf]), keepsOn_units hk ?_⟩
  simp only [List.mem_cons, List.not_mem_nil, or_false, forall_eq_or_imp, forall_eq, R.EVQ_GAP_CNT, R.EVQ_DISC_CNT, R.INT_STAT]
  omega

theorem evq_lt (c : CmdRec) : CmdRecF.evq c < 16 := Nat.mod_lt _ (by decide)

theorem unitsKept_completeUnrun (s : State) (h : Nat) {o : RunOp} (ht : o.tenant < 64) (hr : o.ring < 16) (code detail : Byte) :
    UnitsKept s (s.completeUnrun h o code detail) := by
  obtain ⟨q, hrec⟩ : ∃ q, q = s.recFields { o with ftStart := 0, code := code, detail := detail } := ⟨_, rfl⟩
  have hk := (complete_spec s.used h q).2
  obtain ⟨ht', hr', -, -⟩ := recFields_same s { o with ftStart := 0, code := code, detail := detail }
  rw [← hrec] at ht' hr'
  rw [ht', hr', hrec, ← completeUnrun, ← hrec] at hk
  obtain ⟨_, _, _, _, _, _, hf⟩ := completeUnrun_frame s h o code detail
  refine ⟨serviceKept_of_sub (by rw [hf]) (by rw [hf]) fun p hp => ⟨p, ?_, rfl, rfl, rfl⟩, keepsOn_units (s := s) hk ?_⟩
  · rw [hf] at hp
    exact Map.mem_erase hp
  · have hn := sigCtr_lt q.cmd
    have hq := evq_lt q.cmd
    generalize CmdRecF.sigCtr q.cmd = n at hn
    generalize CmdRecF.evq q.cmd = e at hq
    simp only [List.mem_cons, List.not_mem_nil, or_false, forall_eq_or_imp, forall_eq, R.CRG_RING_DONE, R.CRG_CTR_FAULT, R.EVQ_GAP_CNT,
      R.EVQ_DISC_CNT, R.INT_STAT]
    omega

theorem unitsKept_raise (s : State) {p : Nat} (hp : p < 0xF4) (b : Nat) : UnitsKept s (s.raise p b) := by
  refine ⟨serviceKept_of_ops ?_ ?_ ?_, keepsOn_units (raise_kept s p b) ?_⟩
  iterate 3 rw [regsSent_raise]
  simp only [List.mem_singleton, forall_eq, R.INT_STAT]
  omega

/-- A stop's item goes to one of the tenant's sixteen queues. -/
theorem ringStop_item (s : State) (t r cause : Nat) (o : Option RunOp) : ∃ q prio bs, q < 16 ∧ s.ringStop t r cause o =
    (((s.stopMarked t r cause).used.used.storeItem t q prio bs).abortWaiting t r 2).raise (0x10 + t) 1 := by
  refine ⟨_, _, _, ?_, rfl⟩
  split
  · exact evq_lt _
  · exact Nat.mod_lt _ (by decide)

theorem unitsKept_ringStop (s : State) {t r : Nat} (ht : t < 64) (hr : r < 16) (cause : Nat) (o : Option RunOp) :
    UnitsKept s (s.ringStop t r cause o) := by
  obtain ⟨q, prio, bs, hq, h⟩ := ringStop_item s t r cause o
  rw [h]
  have hmark : UnitsKept s (s.stopMarked t r cause).used.used := by
    refine ⟨serviceKept_of_ops rfl rfl rfl, keepsOn_units (l := [R.CRG_RING_CTL t r, R.CRG_RING_STAT t r, R.CRG_STOPPED t]) (kept_trans
      (kept_trans (n := [R.CRG_RING_CTL t r, R.CRG_RING_STAT t r]) (kept_wr s _ _) (kept_wr _ _ _) (by simp) (by simp)) (kept_wr _ _ _)
      (by simp) (by simp)) ?_⟩
    simp only [List.mem_cons, List.not_mem_nil, or_false, forall_eq_or_imp, forall_eq, R.CRG_RING_CTL, R.CRG_RING_STAT, R.CRG_STOPPED]
    omega
  generalize (s.stopMarked t r cause).used.used = v at *
  refine unitsKept_trans _ _ _ (unitsKept_trans _ _ _ (unitsKept_trans _ _ _ hmark (unitsKept_storeItem v ht hq prio bs)) ?_)
    (unitsKept_raise _ (by omega) 1)
  refine foldl_rel unitsKept_refl unitsKept_trans (fun u p hp => ?_) _
  obtain ⟨-, hpt, hpr, -⟩ := mem_ringWaiting.1 hp
  exact unitsKept_completeUnrun u p.1 (hpt ▸ ht) (hpr ▸ hr) 0x0C 2

theorem unitsKept_stopHomed (s : State) (c : Nat) : UnitsKept s (s.stopHomed c) := by
  refine foldl_rel unitsKept_refl unitsKept_trans (fun u k hk => rel_ite (unitsKept_ringStop u ?_ ?_ 2 none) (unitsKept_refl u)) s
  · exact Nat.div_lt_of_lt_mul (List.mem_range.1 hk)
  · exact Nat.mod_lt _ (by decide)

/-! ### A cluster lost (R476) -/

theorem unitsKept_clusterLost (s : State) (u : Nat) : UnitsKept s (s.clusterLost u) := by
  unfold clusterLost
  extract_lets ns v
  have hv : UnitsKept s v := by
    refine foldl_rel unitsKept_refl unitsKept_trans (fun w n _ => ?_) s
    split
    · rename_i x _
      refine unitsKept_of_regs (serviceKept_trans _ _ _ (serviceKept_opFail w x.op 0x0D 4) (serviceKept_cancelStream _ n)) ?_
      obtain ⟨_, _, _, hc⟩ := cancelStream_eq (w.opFail x.op 0x0D 4) n
      rw [hc, opFail_frame]
    · exact unitsKept_refl w
  refine unitsKept_trans _ _ _ hv ⟨serviceKept_of_ops rfl rfl rfl, fun a ha => ?_⟩
  obtain ⟨hhigh, hoff⟩ := ha
  simp only [rd]
  rw [Map.get?_filter_of]
  rintro p hp
  rw [hp, canon_high (by omega)]
  simp only [Bool.not_eq_true', Bool.and_eq_false_iff, decide_eq_false_iff_not]
  exact .inr (by omega)

/-! ### A core fenced (R477, R478, R487) -/

/-- A core stops: streams, engines and their queues change alone. -/
theorem coreStop_frame (s : State) (c : Nat) : ∃ e m w r q,
    s.coreStop c = { s with eng := e, strm := m, waiters := w, readyQ := q, ms := { s.ms with reads := r } } := by
  obtain ⟨e, m, w, r, h, -⟩ := cancelStreams_spec ((s.strm.filter (fun p => p.2.core == c)).map (·.1)) s
  unfold coreStop
  rw [h]
  exact ⟨_, m, w, r, _, rfl⟩

/-- A stop ends what runs on a core and leaves its service. -/
theorem serviceKept_coreStop (s : State) (c : Nat) : ServiceKept s (s.coreStop c) := by
  obtain ⟨_, _, _, _, _, h⟩ := coreStop_frame s c
  rw [h]
  exact serviceKept_of_ops rfl rfl rfl

theorem fenceBits_onlyRegs (s : State) (d : Nat) : OnlyRegs s (s.fenceBits d) [R.CDIE_STAT d] := by
  have hrefl (u : State) : OnlyRegs u u [R.CDIE_STAT d] := ⟨rfl, kept_refl u _⟩
  have htrans (u v w : State) (h : OnlyRegs u v [R.CDIE_STAT d]) (h' : OnlyRegs v w [R.CDIE_STAT d]) : OnlyRegs u w [R.CDIE_STAT d] :=
    ⟨by rw [h'.1, h.1], kept_trans h.2 h'.2 (by simp) (by simp)⟩
  exact htrans _ _ _ (foldl_rel hrefl htrans (fun u j _ => wrF_onlyRegs u _ _ _ _) s) (wrF_onlyRegs _ _ _ _ _)

/-- The state of a die shows in a register that is no cluster's core map. -/
theorem canon_map_ne_stat (u : Nat) {d : Nat} (hd : d < 16) : canon (R.CLU_CORE_MAP u) ≠ canon (R.CDIE_STAT d) := by
  rw [canon_high (by simp only [R.CLU_CORE_MAP]; omega), canon_high (by simp only [R.CDIE_STAT]; omega)]
  simp only [R.CLU_CORE_MAP, R.CDIE_STAT]
  omega

theorem serviceKept_onlyRegs {s t : State} {l : List Nat} (h : OnlyRegs s t l) : ServiceKept s t :=
  serviceKept_of_ops (by rw [h.1]) (by rw [h.1]) (by rw [h.1])

/-- A core marked as fenced, before the interrupt and the rings homed on it. -/
def fenceMarked (s : State) (c st unit : Nat) : State :=
  (((s.coreStop c).coreSet c ⟨st, false, s.ft, unit⟩).wrF (R.CLU_CORE_MAP (c / 6)) (22 + c % 6) (22 + c % 6) 1).fenceBits (c / 24)

theorem fenceMarked_spec (s : State) (c st unit : Nat) :
    (∀ k, (s.fenceMarked c st unit).core k = if k = c then ⟨st, false, s.ft, unit⟩ else s.core k) ∧
    (s.fenceMarked c st unit).ft = s.ft ∧ (∀ k, s.coreBusy k = false → (s.fenceMarked c st unit).coreBusy k = false) ∧
    (c < 384 → (s.fenceMarked c st unit).rdB (R.CLU_CORE_MAP (c / 6)) (22 + c % 6) = true) := by
  obtain ⟨hcores, htime, hidle⟩ := serviceKept_coreStop s c
  obtain ⟨u, hu⟩ : ∃ u, u = ((s.coreStop c).coreSet c ⟨st, false, s.ft, unit⟩).wrF (R.CLU_CORE_MAP (c / 6)) (22 + c % 6) (22 + c % 6) 1 :=
    ⟨_, rfl⟩
  have hbits := fenceBits_onlyRegs u (c / 24)
  obtain ⟨hcores', htime', hidle'⟩ := serviceKept_onlyRegs hbits
  rw [fenceMarked, ← hu]
  refine ⟨fun k => ?_, ?_, fun k hk => hidle' k ?_, fun hc => ?_⟩
  · rw [core_eq hcores', hu, show ∀ (v : State) a hi lo x, (v.wrF a hi lo x).core k = v.core k from fun _ _ _ _ _ => rfl, core_coreSet,
      core_eq hcores]
  · rw [htime', hu]; exact htime
  · rw [hu]; exact hidle k hk
  · rw [rdB, hbits.2 _ (by simpa using canon_map_ne_stat (c / 6) (d := c / 24) (by omega)), hu, wrF_eq, rd_wr_self,
      bit_setFld _ _ _ _ _ (by omega), if_pos ⟨Nat.le_refl _, Nat.le_refl _⟩]
    simp

theorem coreFence_eq (s : State) (c st unit : Nat) : s.coreFence c st unit =
    ((if !s.cluFenced (c / 6) && (s.fenceMarked c st unit).cluFenced (c / 6) then (s.fenceMarked c st unit).clusterLost (c / 6)
      else s.fenceMarked c st unit).raise (0x130 + c / 24) 1).stopHomed c := rfl

/-- A core fenced: its own service, its bit in the core map and the die's interrupt; no other core's service. -/
structure Fenced (s t : State) (c st unit : Nat) : Prop where
  core : ∀ k, t.core k = if k = c then ⟨st, false, s.ft, unit⟩ else s.core k
  time : t.ft = s.ft
  idle : ∀ k, s.coreBusy k = false → t.coreBusy k = false
  mapped : c < 384 → t.rdB (R.CLU_CORE_MAP (c / 6)) (22 + c % 6) = true
  raised : t.rdB (R.INT_STAT (0x130 + c / 24)) 1 = true

theorem coreFence_fenced (s : State) (c st unit : Nat) : Fenced s (s.coreFence c st unit) c st unit := by
  obtain ⟨hcore, htime, hidle, hmap⟩ := fenceMarked_spec s c st unit
  rw [coreFence_eq]
  generalize s.fenceMarked c st unit = u at *
  obtain ⟨v, hv, hlost⟩ : ∃ v, v = (if !s.cluFenced (c / 6) && u.cluFenced (c / 6) then u.clusterLost (c / 6) else u) ∧ UnitsKept u v :=
    ⟨_, rfl, rel_ite (unitsKept_clusterLost u _) (unitsKept_refl u)⟩
  rw [← hv]
  have hraise : ServiceKept v (v.raise (0x130 + c / 24) 1) := by
    refine serviceKept_of_ops ?_ ?_ ?_ <;> rw [regsSent_raise]
  have hint := rdB_raise_self v (0x130 + c / 24) 1 (by decide)
  have hrmap : (v.raise (0x130 + c / 24) 1).rd (R.CLU_CORE_MAP (c / 6)) = v.rd (R.CLU_CORE_MAP (c / 6)) := by
    refine raise_kept v _ 1 _ ?_
    simp only [List.mem_singleton, forall_eq]
    exact canon_ne_of_off (by simp only [R.CLU_CORE_MAP, R.INT_STAT]; omega)
  have hhomed := unitsKept_stopHomed (v.raise (0x130 + c / 24) 1) c
  generalize v.raise (0x130 + c / 24) 1 = w at *
  obtain ⟨hc, hf, hi⟩ := serviceKept_trans _ _ _ (serviceKept_trans _ _ _ hlost.1 hraise) hhomed.1
  refine ⟨fun k => by rw [core_eq hc, hcore], hf.trans htime, fun k hk => hi k (hidle k hk), fun h => ?_, ?_⟩
  · rw [rdB, hhomed.2 _ (unitReg_map _), hrmap, hlost.2 _ (unitReg_map _)]
    exact hmap h
  · rw [rdB, hhomed.2 _ (unitReg_dieInt _)]
    exact hint

/-! ### Several cores (R476, R478) -/

/-- Each core of a list is given a service that depends on the time and its own, the same when given twice: so is every core of the list,
and no other. -/
theorem foldl_cores {g : State → Nat → State} {r : Word64 → CoreRun → CoreRun} {P : State → Prop} {l : List Nat}
    (hr : ∀ ft v, r ft (r ft v) = r ft v)
    (hg : ∀ u, ∀ c ∈ l, P u → P (g u c) ∧ (g u c).ft = u.ft ∧ ∀ k, (g u c).core k = if k = c then r u.ft (u.core c) else u.core k) :
    ∀ s, P s → P (l.foldl g s) ∧ (l.foldl g s).ft = s.ft ∧
      ∀ k, (l.foldl g s).core k = if k ∈ l then r s.ft (s.core k) else s.core k := by
  induction l with
  | nil => exact fun s hs => ⟨hs, rfl, fun k => by simp⟩
  | cons c l ih =>
    intro s hs
    obtain ⟨hp, hft, hcore⟩ := hg s c (by simp) hs
    obtain ⟨hp', hft', hcore'⟩ := ih (fun u k hk => hg u k (List.mem_cons_of_mem _ hk)) (g s c) hp
    refine ⟨hp', hft'.trans hft, fun k => ?_⟩
    rw [List.foldl_cons, hcore', hcore, hft]
    by_cases hk : k = c
    · subst hk
      simp [hr]
    · simp [hk]

/-- One core fenced as part of a unit. -/
def fenceOne (st unit : Nat) (u : State) (c : Nat) : State := u.coreFence c st unit

/-- Cores fenced one after another as a unit. -/
theorem core_fenceOnes (l : List Nat) (st unit : Nat) (s : State) (k : Nat) :
    (l.foldl (fenceOne st unit) s).core k = if k ∈ l then ⟨st, false, s.ft, unit⟩ else s.core k := by
  refine (foldl_cores (r := fun ft _ => ⟨st, false, ft, unit⟩) (P := fun _ => True) (fun _ _ => rfl) (fun u c _ _ => ?_) s trivial).2.2 k
  obtain ⟨hcore, htime, -, -, -⟩ := coreFence_fenced u c st unit
  rw [fenceOne]
  exact ⟨trivial, htime, hcore⟩

/-- Cores whose fence waits. -/
def stopping (s : State) : List Nat := (s.coreRun.filter (fun p => p.2.stop)).map (·.1)

/-- One core whose fence waits is fenced once it is idle. -/
def settleOne (u : State) (c : Nat) : State := if u.coreBusy c then u else u.coreFence c 3 (u.core c).unit

theorem fenceSettle_eq (s : State) : s.fenceSettle = s.stopping.foldl settleOne s := rfl

/-- Idle cores whose fence waits are fenced, and no other (R478). -/
theorem core_fenceSettle {s : State} (h : ∀ c ∈ s.stopping, s.coreBusy c = false) (k : Nat) :
    s.fenceSettle.core k = if k ∈ s.stopping then ⟨3, false, s.ft, (s.core k).unit⟩ else s.core k := by
  rw [fenceSettle_eq]
  refine (foldl_cores (r := fun ft v => ⟨3, false, ft, v.unit⟩) (P := fun u => ∀ c ∈ s.stopping, u.coreBusy c = false) (fun _ _ => rfl)
    (fun u c hc hu => ?_) s h).2.2 k
  obtain ⟨hcore, htime, hidle, -, -⟩ := coreFence_fenced u c 3 (u.core c).unit
  rw [settleOne, if_neg (by simp [hu c hc])]
  exact ⟨fun j hj => hidle j (hu j hj), htime, hcore⟩

/-- The mark a fence command makes on a core. -/
def askOne (unit : Nat) (u : State) (c : Nat) : State :=
  if (u.core c).st = 0 then u.coreSet c ⟨0, true, u.ft, unit⟩
  else if 1 ≤ unit ∧ (u.core c).st = 3 then u.coreSet c { u.core c with unit := max unit (u.core c).unit } else u

theorem fenceCmd_eq (s : State) (cs : List Nat) (unit : Nat) : s.fenceCmd cs unit = (cs.foldl (askOne unit) s).fenceSettle := rfl

/-- While live cores `cs` are marked, nothing but their entries changes, and they stay live. -/
structure Asking (s : State) (cs : List Nat) (u : State) : Prop where
  frame : u = { s with coreRun := u.coreRun }
  live : ∀ k ∈ cs, (u.core k).st = 0
  entries : ∀ p ∈ u.coreRun, p ∈ s.coreRun ∨ p.1 ∈ cs

theorem asking_coreSet {s u : State} {cs : List Nat} {c : Nat} (hc : c ∈ cs) (h : Asking s cs u) (unit : Nat) :
    Asking s cs (u.coreSet c ⟨0, true, u.ft, unit⟩) := by
  obtain ⟨hf, hst, hmem⟩ := h
  refine ⟨by rw [hf]; rfl, fun k hk => ?_, fun p hp => ?_⟩
  · rw [core_coreSet]
    split
    · rfl
    · exact hst k hk
  · rw [coreSet, Map.put, if_neg (by simp [CoreRun.live])] at hp
    rcases Map.mem_set hp with rfl | hp
    · exact .inr hc
    · exact hmem p hp

/-- Live cores are marked, and no other. -/
theorem askOnes_spec {cs : List Nat} (unit : Nat) {s : State} (h : ∀ c ∈ cs, (s.core c).st = 0) :
    Asking s cs (cs.foldl (askOne unit) s) ∧
    ∀ k, (cs.foldl (askOne unit) s).core k = if k ∈ cs then ⟨0, true, s.ft, unit⟩ else s.core k := by
  obtain ⟨hasking, -, hcore⟩ := foldl_cores (g := askOne unit) (r := fun ft _ => ⟨0, true, ft, unit⟩) (P := Asking s cs) (l := cs)
    (fun _ _ => rfl) (fun u c hc hu => by
      rw [askOne, if_pos (hu.live c hc)]
      exact ⟨asking_coreSet hc hu unit, rfl, fun k => core_coreSet u c k _⟩) s ⟨rfl, h, fun p hp => .inl hp⟩
  exact ⟨hasking, hcore⟩

/-- A fence command on live, idle cores, where no other fence waits: each is fenced, and no other core changes (R478). -/
theorem core_fenceCmd {s : State} {cs : List Nat} (unit : Nat) (hst : ∀ c ∈ cs, (s.core c).st = 0) (hidle : ∀ c ∈ cs, s.coreBusy c = false)
    (hnone : ∀ p ∈ s.coreRun, p.2.stop = false) (k : Nat) :
    (s.fenceCmd cs unit).core k = if k ∈ cs then ⟨3, false, s.ft, unit⟩ else s.core k := by
  obtain ⟨⟨hf, -, hmem⟩, hcore⟩ := askOnes_spec unit hst
  rw [fenceCmd_eq]
  generalize cs.foldl (askOne unit) s = u at *
  have hstop : ∀ c, c ∈ u.stopping ↔ c ∈ cs := by
    intro c
    simp only [stopping, List.mem_map, List.mem_filter]
    constructor
    · rintro ⟨p, ⟨hp, hs⟩, rfl⟩
      exact (hmem p hp).resolve_left fun h => by simp [hnone p h] at hs
    · intro hc
      have hget : Map.get u.coreRun CoreRun.live c = ⟨0, true, s.ft, unit⟩ := (hcore c).trans (if_pos hc)
      cases hv : Map.get? u.coreRun c with
      | none => rw [Map.get, hv] at hget; cases hget
      | some v =>
        rw [Map.get, hv] at hget
        exact ⟨(c, v), ⟨Map.mem_of_get? hv, by rw [show v = _ from hget]⟩, rfl⟩
  have hbusy : ∀ c, u.coreBusy c = s.coreBusy c := fun c => by rw [coreBusy, coreBusy, hf]
  have hft : u.ft = s.ft := by rw [hf]
  rw [core_fenceSettle fun c hc => (hbusy c).trans (hidle c ((hstop c).1 hc)), hcore, hft]
  simp only [hstop]
  split <;> rfl

/-- With every core live, each is. -/
theorem core_live {s : State} (h : s.coreRun = []) (c : Nat) : s.core c = CoreRun.live := by
  rw [core, h]
  rfl

/-- A core without operators is idle. -/
theorem coreBusy_of_ops {s : State} (h : s.ops = []) (c : Nat) : s.coreBusy c = false := by
  rw [coreBusy, h]
  rfl

/-! ### The sequence of R477 -/

/-- With no operator, no part ends. -/
theorem endParts_none {s : State} (h : s.ops = []) (cores clusters : List Nat) (detail : Nat) : s.endParts cores clusters detail = s := by
  rw [endParts, h]
  rfl

/-- A core with a spare, and no operator, is paused until the spare is in its place; nothing of another core and no byte changes. -/
theorem coreOut_pauses {s u : State} {c : Nat} (hcores : u.coreRun = s.coreRun) (hft : u.ft = s.ft) (hmem : u.mem = s.mem)
    (hops : u.ops = []) (hspare : u.spareLeft c = true) :
    (u.coreOut c).core c = ⟨1, false, s.ft, 0⟩ ∧ (∀ k, k ≠ c → (u.coreOut c).core k = s.core k) ∧ (u.coreOut c).mem = s.mem := by
  obtain ⟨_, _, _, _, _, hstop⟩ := coreStop_frame u c
  have hstill : (u.coreStop c).spareLeft c = true := by rw [hstop]; exact hspare
  have hout : u.coreOut c = (u.coreStop c).coreSet c ⟨1, false, s.ft, 0⟩ := by
    rw [coreOut, endParts_none hops]
    simp only [hstill, if_true]
    rw [show (u.coreStop c).ft = s.ft by rw [hstop, hft]]
  refine ⟨by rw [hout, core_coreSet, if_pos rfl], fun k hk => ?_, ?_⟩
  · rw [hout, core_coreSet, if_neg hk, core_eq (serviceKept_coreStop u c).cores, core_eq hcores]
  · rw [hout]
    exact (by rw [hstop] : (u.coreStop c).mem = u.mem).trans hmem

/-- Registers of the common layout changed at most, a cluster's spare is what it was. -/
theorem spareLeft_of_kept {s t : State} {l : List Nat} (h : RegsKept s t l) (hl : ∀ b ∈ l, b % 4096 < 0x100) (c : Nat) :
    t.spareLeft c = s.spareLeft c := by
  rw [spareLeft, spareLeft, rdB, rdB, h]
  intro b hb
  have := hl b hb
  exact canon_ne_of_off (by simp only [R.CLU_CORE_MAP]; omega)

theorem sramClear_cores (s : State) (a n : Nat) : (s.sramClear a n).coreRun = s.coreRun := rfl

theorem coreClear_cores (s : State) (c : Nat) : (s.coreClear c).coreRun = s.coreRun := by rw [coreClear, sramClear_cores, sramClear_cores]

/-- A core's SRAM is blank once cleared. -/
theorem coreClear_blank (s : State) (c : Nat) {a : Nat} (h : sramBase + 4 * c * 0x400000 ≤ a) (h' : a < sramBase + 4 * (c + 1) * 0x400000) :
    Mem.get (s.coreClear c).mem a = Mem.blank := by
  show Mem.get (Mem.clear (Mem.clear s.mem (sramBase + 4 * c * 0x400000) (4 * 0x400000)) (sramBase + 0x200000000 + c * 0x100000) 0x100000) a = _
  by_cases hb : sramBase + 0x200000000 + c * 0x100000 ≤ a ∧ a < sramBase + 0x200000000 + c * 0x100000 + 0x100000
  · exact Mem.get_clear_in _ _ _ _ hb
  · rw [Mem.get_clear_out _ _ _ _ (by omega)]
    exact Mem.get_clear_in _ _ _ _ (by omega)

/-- The core map of a core's cluster names the spare's slot for the core, and no spare is left (R102, R477). -/
def spareTaken (s : State) (c : Nat) : State :=
  (((s.coreClear c).wrF (R.CLU_CORE_MAP (c / 6)) (3 * (c % 6) + 2) (3 * (c % 6)) (s.rdF (R.CLU_CORE_MAP (c / 6)) 20 18)).wrF
    (R.CLU_CORE_MAP (c / 6)) 20 18 7).wrF (R.CLU_CORE_MAP (c / 6)) 21 21 0

theorem spareTaken_spec (s : State) (c : Nat) :
    (s.spareTaken c).rdF (R.CLU_CORE_MAP (c / 6)) (3 * (c % 6) + 2) (3 * (c % 6)) = s.rdF (R.CLU_CORE_MAP (c / 6)) 20 18 ∧
    (s.spareTaken c).spareLeft c = false ∧ RegsKept s (s.spareTaken c) [R.CLU_CORE_MAP (c / 6)] ∧
    (s.spareTaken c).coreRun = s.coreRun ∧ (s.spareTaken c).mem = (s.coreClear c).mem := by
  have hi : c % 6 < 6 := Nat.mod_lt _ (by decide)
  have hwr : ∀ (u : State) a hi lo x, (u.wrF a hi lo x).coreRun = u.coreRun ∧ (u.wrF a hi lo x).mem = u.mem := fun _ _ _ _ _ => ⟨rfl, rfl⟩
  refine ⟨?_, ?_, ?_, ?_, ?_⟩
  · rw [spareTaken, rdF_wrF_ne _ _ _ (by omega) (.inl (by omega)), rdF_wrF_ne _ _ _ (by omega) (.inl (by omega)),
      rdF_wrF_self _ _ _ (by omega), show 3 * (c % 6) + 2 + 1 - 3 * (c % 6) = 20 + 1 - 18 by omega, Nat.mod_eq_of_lt (rdF_lt ..)]
  · rw [spareLeft, rdB, spareTaken, wrF_eq, rd_wr_self, bit_setFld _ _ _ _ _ (by decide), if_pos (by decide)]
    rfl
  · exact kept_trans (kept_trans (n := [R.CLU_CORE_MAP (c / 6)]) (kept_wr (s.coreClear c) _ _) (kept_wr _ _ _) (by simp) (by simp))
      (kept_wr _ _ _) (by simp) (by simp)
  · rw [spareTaken, (hwr _ _ _ _ _).1, (hwr _ _ _ _ _).1, (hwr _ _ _ _ _).1, coreClear_cores]
  · rw [spareTaken, (hwr _ _ _ _ _).2, (hwr _ _ _ _ _).2, (hwr _ _ _ _ _).2]

/-- The end of seeding shows in registers of the RNG (R406). -/
theorem seedEnd_spec (s : State) : RegsSent s s.seedEnd ∧ RegsKept s s.seedEnd [R.RNG_STAT, R.RNG_SEED_GEN, R.INT_STAT 7] := by
  unfold seedEnd
  split
  · refine ⟨regsSent_trans _ (((s.wrF R.RNG_STAT 31 30 2).wrF R.RNG_STAT 17 0 0).wr R.RNG_SEED_GEN (s.rd R.RNG_SEED_GEN + 1)) _ rfl
      (regsSent_raise _ _ _), ?_⟩
    exact kept_trans (kept_trans (n := [R.RNG_STAT, R.RNG_SEED_GEN]) (kept_trans (n := [R.RNG_STAT]) (kept_wr s _ _) (kept_wr _ _ _)
      (by simp) (by simp)) (kept_wr _ _ _) (by simp) (by simp)) (raise_kept _ _ _) (by simp) (by simp)
  · exact ⟨rfl, kept_mono (kept_wr s _ _) (by simp)⟩

theorem unitsKept_seedEnd (s : State) : UnitsKept s s.seedEnd := by
  obtain ⟨hf, hk⟩ := seedEnd_spec s
  exact ⟨serviceKept_of_ops (by rw [hf]) (by rw [hf]) (by rw [hf]), keepsOn_units hk (by decide)⟩

/-- A core live again, its substitution counted and told of. -/
def substCounted (s : State) (c : Nat) : State :=
  ((s.coreSet c CoreRun.live).seedEnd.bump (R.CDIE_SUBST_CNT (c / 24))).raise (0x130 + c / 24) 0

theorem substCounted_spec (s : State) (c : Nat) :
    (∀ k, (s.substCounted c).core k = if k = c then CoreRun.live else s.core k) ∧ (s.substCounted c).mem = s.mem ∧
    (s.substCounted c).rd (R.CDIE_SUBST_CNT (c / 24)) = satAdd32 (s.rd (R.CDIE_SUBST_CNT (c / 24))) 1 ∧
    (s.substCounted c).rdB (R.INT_STAT (0x130 + c / 24)) 0 = true ∧
    ∀ u, (s.substCounted c).rd (R.CLU_CORE_MAP u) = s.rd (R.CLU_CORE_MAP u) := by
  unfold substCounted
  obtain ⟨u, hu⟩ : ∃ u, u = s.coreSet c CoreRun.live := ⟨_, rfl⟩
  have hcore : ∀ k, u.core k = if k = c then CoreRun.live else s.core k := fun k => by rw [hu, core_coreSet]
  have hregs : ∀ a, u.rd a = s.rd a := fun a => by rw [hu]; rfl
  have hmem : u.mem = s.mem := by rw [hu]; rfl
  rw [← hu]
  have hsent := (seedEnd_spec u).1
  have hseed := (unitsKept_seedEnd u).2
  generalize u.seedEnd = v at *
  obtain ⟨w, hw⟩ : ∃ w, w = v.bump (R.CDIE_SUBST_CNT (c / 24)) := ⟨_, rfl⟩
  have hwc : w.coreRun = u.coreRun := by rw [hw, hsent]; rfl
  have hwm : w.mem = u.mem := by rw [hw, hsent]; rfl
  have hraise : ∀ a, a % 4096 ≠ 0x20 → (w.raise (0x130 + c / 24) 0).rd a = w.rd a := fun a ha => raise_kept _ _ _ _ (by
    simp only [List.mem_singleton, forall_eq]
    exact canon_ne_of_off (by rw [intStat_off]; exact ha))
  have hint := rdB_raise_self w (0x130 + c / 24) 0 (by decide)
  have hrf := regsSent_raise w (0x130 + c / 24) 0
  rw [← hw]
  generalize w.raise (0x130 + c / 24) 0 = z at *
  have hzc : z.coreRun = w.coreRun := by rw [hrf]
  refine ⟨fun k => ?_, ?_, ?_, hint, fun j => ?_⟩
  · rw [core_eq (hzc.trans hwc), hcore]
  · rw [show z.mem = w.mem by rw [hrf], hwm, hmem]
  · rw [hraise _ (by simp only [R.CDIE_SUBST_CNT]; omega), hw, bump_eq, rd_wr_self,
      hseed _ (by simp only [UnitReg, R.CDIE_SUBST_CNT]; omega), hregs]
  · rw [hraise _ (by simp only [R.CLU_CORE_MAP]; omega), hw, bump_eq, rd_wr_ne, hseed _ (unitReg_map _), hregs]
    exact canon_ne_of_off (by simp only [R.CLU_CORE_MAP, R.CDIE_SUBST_CNT]; omega)

/-! ### Operators end on a core whose fence ran out (R478) -/

/-- Operators and the bytes of their outputs change, and nothing else. -/
def PartsEnd (s t : State) : Prop :=
  t = { s with ops := t.ops, mem := t.mem, freeCtr := t.freeCtr, ms := { s.ms with poison := t.ms.poison } }

theorem partsEnd_refl (s : State) : PartsEnd s s := rfl

theorem partsEnd_trans (s t u : State) (h : PartsEnd s t) (h' : PartsEnd t u) : PartsEnd s u := by
  rw [PartsEnd, h', h]

theorem partsEnd_opHeld {s t : State} (h : PartsEnd s t) (k : Nat) : t.opHeld k = s.opHeld k := by
  rw [h]
  rfl

theorem partsEnd_opFail (s : State) (h : Nat) (code detail : Byte) : PartsEnd s (s.opFail h code detail) := by
  rw [PartsEnd, opFail_frame]

theorem partsEnd_bytes {s t : State} (h : BytesOnly s t) : PartsEnd s t := by
  rw [PartsEnd, h]

/-- Parts of operators that nothing else holds end with their CODE, and their outputs are open. -/
theorem endParts_frame {s : State} (h : ∀ p ∈ s.ops, s.opHeld p.1 = false) (cores clusters : List Nat) (detail : Nat) :
    PartsEnd s (s.endParts cores clusters detail) := by
  unfold endParts
  obtain ⟨l, hl⟩ : ∃ l, l = (s.ops.filter (fun p => p.2.dispatched && p.2.parts.any (partOn cores clusters p.2))).map (·.1) := ⟨_, rfl⟩
  rw [← hl]
  have hfree : ∀ k ∈ l, s.opHeld k = false := fun k hk => by
    rw [hl] at hk
    obtain ⟨p, hp, rfl⟩ := List.mem_map.1 hk
    exact h p (List.mem_filter.1 hp).1
  clear hl
  refine foldl_rel (R := fun u v => (∀ k ∈ l, u.opHeld k = false) → PartsEnd u v) (fun u _ => partsEnd_refl u)
    (fun u v w huv hvw hu => partsEnd_trans _ _ _ (huv hu) (hvw fun k hk => (partsEnd_opHeld (huv hu) k).trans (hu k hk)))
    (fun u k hk hu => ?_) s hfree
  split
  · exact partsEnd_refl u
  · rename_i o _
    rw [if_neg (by simp [hu k hk])]
    have hstop := partsEnd_trans _ _ _ (partsEnd_opFail u k 0x0D (BitVec.ofNat 8 detail)) (partsEnd_bytes (bytesOnly_stopOutputs _ k o))
    simp only
    split
    · exact partsEnd_trans _ _ _ hstop rfl
    · exact hstop

end State
end Sys2Proof.Machine

namespace Sys2Proof.Proofs
open Sys2Proof Sys2Proof.Machine Sys2Proof.Machine.State

/-- A command's next state has the cores, the registers and the bytes its meaning gives it. -/
theorem exec_next {i : Instr} {s t : State} (hex : exec i s = keepQueue s (.next t)) : ∃ u, exec i s = .next u ∧
    (∀ c, u.core c = t.core c) ∧ (∀ a, u.rd a = t.rd a) ∧ u.mem = t.mem :=
  ⟨_, hex.trans (keepQueue_of_next ..), fun _ => rfl, fun _ => rfl, rfl⟩

/-- A count of a write on a die's page leaves its cores and their operators. -/
theorem countWrite_cores (s : State) (p : Nat) (i : Bool) : (s.countWrite p i).coreRun = s.coreRun ∧ (s.countWrite p i).ft = s.ft ∧
    (s.countWrite p i).mem = s.mem ∧ (s.countWrite p i).ops = s.ops ∧ ∀ c, (s.countWrite p i).spareLeft c = s.spareLeft c := by
  obtain ⟨r, h⟩ := countWrite_frame s p i
  refine ⟨by rw [h], by rw [h], by rw [h], by rw [h], spareLeft_of_kept (countWrite_kept s p i) ?_⟩
  simp only [List.mem_cons, List.not_mem_nil, or_false, forall_eq_or_imp, forall_eq, R.GEN_WR_CNT, R.GEN_IGN_CNT]
  omega

/-- CORE_FAULT with a spare left (R477). -/
theorem fault_pauses (s : State) (c : Nat) (hc : c < 384) (hst : (s.core c).st = 0) (hspare : s.spareLeft c = true) (hops : s.ops = []) :
    ∃ t, exec (.coreFault c) s = .next t ∧ t.core c = ⟨1, false, s.ft, 0⟩ ∧ (∀ k, k ≠ c → t.core k = s.core k) ∧
      t.corePaused c = true ∧ t.mem = s.mem := by
  obtain ⟨⟨_, _, _, hf⟩, hk⟩ := errLatch_spec s (0x200 + c) 2 0
  have hspare' : (s.errLatch (0x200 + c) 2 0).spareLeft c = true := by
    rw [spareLeft_of_kept hk ?_, hspare]
    simp only [List.mem_cons, List.not_mem_nil, or_false, forall_eq_or_imp, forall_eq, R.ERR_INFO, R.ERR_ADDR_LO, R.ERR_ADDR_HI]
    omega
  have hex : exec (.coreFault c) s = keepQueue s (.next ((s.errLatch (0x200 + c) 2 0).coreOut c)) :=
    congrArg (keepQueue s) (if_pos ⟨hc, hst⟩)
  obtain ⟨hself, hne, hm⟩ := coreOut_pauses (s := s) (by rw [hf]) (by rw [hf]) (by rw [hf]) (by rw [hf]; exact hops) hspare'
  obtain ⟨t, ht, hcore, -, hmem⟩ := exec_next hex
  exact ⟨t, ht, (hcore c).trans hself, fun k hk => (hcore k).trans (hne k hk), by rw [corePaused, hcore, hself]; rfl, hmem.trans hm⟩

/-- SPARE_SWAP of a live core with a spare left (R478). -/
theorem swap_pauses (s : State) (d : Nat) : let c := s.rdF (R.CDIE_CORE_SEL d) 8 0
    d < 16 → c / 24 = d → (s.core c).st = 0 → s.spareLeft c = true →
    s.ops = [] → ∃ t, exec (.spareSwap d) s = .next t ∧ t.core c = ⟨1, false, s.ft, 0⟩ ∧ (∀ k, k ≠ c → t.core k = s.core k) ∧
      t.corePaused c = true ∧ t.mem = s.mem := by
  intro c hd hc hst hspare hops
  obtain ⟨hcores, hft, hmem, hops', hsp⟩ := countWrite_cores s (0x130 + d) false
  have hex : exec (.spareSwap d) s = keepQueue s (.next ((s.countWrite (0x130 + d) false).coreOut c)) :=
    congrArg (keepQueue s) ((if_neg (Nat.not_le.2 hd)).trans (if_pos ⟨hc, hst, hspare⟩))
  obtain ⟨hself, hne, hm⟩ := coreOut_pauses (c := c) hcores hft hmem (hops'.trans hops) ((hsp c).trans hspare)
  obtain ⟨t, ht, hcore, -, hmem⟩ := exec_next hex
  exact ⟨t, ht, (hcore c).trans hself, fun k hk => (hcore k).trans (hne k hk), by rw [corePaused, hcore, hself]; rfl, hmem.trans hm⟩

/-- The generators and the firmware of a substituted core start anew (R403, R477). -/
def substFresh (s : State) (c : Nat) : State :=
  let gs := (List.range 4).map (fun i => 4 * c + i) ++ State.coreLanes c
  { s with
    rng := { s.rng with
      gens := s.rng.gens.filter (fun p => !gs.contains p.1)
      pend := s.rng.pend.filter (fun i => !gs.contains i)
      rewinds := s.rng.rewinds.filter (fun i => !gs.contains i) }
    pwr := { s.pwr with fwOld := s.pwr.fwOld.filter (· != c), fwSwitch := s.pwr.fwSwitch.filter (· != c) } }

theorem substFresh_same (s : State) (c : Nat) : (substFresh s c).coreRun = s.coreRun ∧ (substFresh s c).mem = s.mem ∧
    ∀ a, (substFresh s c).rd a = s.rd a := ⟨rfl, rfl, fun _ => rfl⟩

/-- CORE_SUBST_DONE (R102, R477). -/
theorem subst_done (s : State) (c : Nat) (hc : c < 384) (hst : (s.core c).st = 1) (hspare : s.spareLeft c = true) :
    ∃ t, exec (.coreSubstDone c) s = .next t ∧ t.core c = CoreRun.live ∧ (∀ k, k ≠ c → t.core k = s.core k) ∧
      t.rdF (R.CLU_CORE_MAP (c / 6)) (3 * (c % 6) + 2) (3 * (c % 6)) = s.rdF (R.CLU_CORE_MAP (c / 6)) 20 18 ∧
      t.spareLeft c = false ∧ t.rd (R.CDIE_SUBST_CNT (c / 24)) = satAdd32 (s.rd (R.CDIE_SUBST_CNT (c / 24))) 1 ∧
      t.rdB (R.INT_STAT (0x130 + c / 24)) 0 = true ∧
      ∀ a, sramBase + 4 * c * 0x400000 ≤ a → a < sramBase + 4 * (c + 1) * 0x400000 → Mem.get t.mem a = Mem.blank := by
  obtain ⟨hslot, hleft, hkept, hcores, hblank⟩ := spareTaken_spec s c
  have hex : exec (.coreSubstDone c) s = keepQueue s (.next ((substFresh (s.spareTaken c) c).substCounted c)) := by
    show execCoreSubstDone c s = _
    simp only [execCoreSubstDone, substCounted, substFresh, spareTaken]
    rw [if_pos ⟨hc, hst, hspare⟩]
  obtain ⟨hcores', hblank', hregs⟩ := substFresh_same (s.spareTaken c) c
  generalize s.spareTaken c = v at *
  generalize substFresh v c = w at *
  obtain ⟨hcore, hmem, hcnt, hint, hrest⟩ := substCounted_spec w c
  obtain ⟨t, ht, htc, htr, htm⟩ := exec_next hex
  have hmap : t.rd (R.CLU_CORE_MAP (c / 6)) = v.rd (R.CLU_CORE_MAP (c / 6)) := by rw [htr, hrest, hregs]
  refine ⟨t, ht, ?_, fun k hk => ?_, ?_, ?_, ?_, ?_, fun a h h' => ?_⟩
  · rw [htc, hcore, if_pos rfl]
  · rw [htc, hcore, if_neg hk, core_eq (hcores'.trans hcores)]
  · rw [rdF, hmap]
    exact hslot
  · rw [spareLeft, rdB, hmap]
    exact hleft
  · rw [htr, hcnt, hregs, hkept]
    simp only [List.mem_singleton, forall_eq]
    exact canon_ne_of_off (by simp only [R.CDIE_SUBST_CNT, R.CLU_CORE_MAP]; omega)
  · rw [rdB, htr]
    exact hint
  · rw [htm, hmem, hblank', hblank]
    exact coreClear_blank s c h h'

/-- FENCE_CORE of an idle live core of the die (R478). -/
theorem fenceCore_fences (s : State) (d : Nat) : let c := s.rdF (R.CDIE_CORE_SEL d) 8 0
    d < 16 → c / 24 = d → (s.core c).st = 0 → s.coreBusy c = false → (∀ p ∈ s.coreRun, p.2.stop = false) → (s.core c).unit = 0 →
    ∃ t, exec (.fenceCore d) s = .next t ∧ (t.core c).st = 3 ∧ (t.core c).stop = false ∧ (∀ k, k ≠ c → t.core k = s.core k) := by
  intro c hd hc hst hidle hnone _
  obtain ⟨hcores, -, -, hops, -⟩ := countWrite_cores s (0x130 + d) false
  have hex : exec (.fenceCore d) s = keepQueue s (.next ((s.countWrite (0x130 + d) false).fenceCmd [c] 0)) :=
    congrArg (keepQueue s) ((if_neg (Nat.not_le.2 hd)).trans (if_pos ⟨hc, hst⟩))
  have hcore := core_fenceCmd (s := s.countWrite (0x130 + d) false) (cs := [c]) 0 (by simpa [core_eq hcores] using hst)
    (by simpa [coreBusy, hops] using hidle) (by rw [hcores]; exact hnone)
  obtain ⟨t, ht, htc, -, -⟩ := exec_next hex
  have hself : t.core c = ⟨3, false, (s.countWrite (0x130 + d) false).ft, 0⟩ := by rw [htc, hcore, if_pos (by simp)]
  refine ⟨t, ht, by rw [hself], by rw [hself], fun k hk => ?_⟩
  rw [htc, hcore, if_neg (by simpa using hk), core_eq hcores]

/-- A command that a die cannot carry out (R486, R499). -/
theorem cdieErr_spec (s : State) (d : Nat) :
    OnlyRegs s (s.cdieErr d) [R.CDIE_ERR d, R.GEN_WR_CNT (0x130 + d), R.GEN_IGN_CNT (0x130 + d)] ∧
    (s.cdieErr d).rdB (R.CDIE_ERR d) 0 = true := by
  obtain ⟨⟨hf, hk⟩, -, -⟩ := ignoredWrite_spec s (R.CDIE_FENCE_CMD d)
  rw [show R.CDIE_FENCE_CMD d / 4096 = 0x130 + d by simp only [R.CDIE_FENCE_CMD]; omega] at hk
  refine ⟨⟨by rw [cdieErr, hf]; rfl, kept_trans hk (kept_wr _ _ _) (by simp) (by simp)⟩, ?_⟩
  rw [rdB, cdieErr, setBits_eq, rd_wr_self, bit_or]
  exact Bool.or_eq_true_iff.2 (.inr rfl)

/-- FENCE_CORE of a core that is not on the die or not live (R486). -/
theorem fenceCore_errs (s : State) (d : Nat) : let c := s.rdF (R.CDIE_CORE_SEL d) 8 0
    d < 16 → (c / 24 ≠ d ∨ (s.core c).st ≠ 0) →
    ∃ t, exec (.fenceCore d) s = .next t ∧ OnlyRegs s t [R.CDIE_ERR d, R.GEN_WR_CNT (0x130 + d), R.GEN_IGN_CNT (0x130 + d)] ∧
      t.rdB (R.CDIE_ERR d) 0 = true := by
  intro c hd hbad
  obtain ⟨honly, hbit⟩ := cdieErr_spec s d
  have hno : ¬(c / 24 = d ∧ (s.core c).st = 0) := fun h => hbad.elim (· h.1) (· h.2)
  have hex : exec (.fenceCore d) s = keepQueue s (.next (s.cdieErr d)) :=
    congrArg (keepQueue s) ((if_neg (Nat.not_le.2 hd)).trans (if_neg hno))
  exact ⟨_, hex.trans (keepQueue_of_pending (by rw [honly.1])), honly, hbit⟩

/-- Cores of a unit of `n`. -/
theorem mem_unitCores {n u c : Nat} (hn : 0 < n) : c ∈ (List.range n).map (fun i => n * u + i) ↔ c / n = u := by
  simp only [List.mem_map, List.mem_range]
  constructor
  · rintro ⟨i, hi, rfl⟩
    rw [Nat.mul_add_div hn, Nat.div_eq_of_lt hi, Nat.add_zero]
  · rintro rfl
    exact ⟨c % n, Nat.mod_lt _ hn, Nat.div_add_mod c n⟩

/-- A fence command on a unit of `n` cores, all cores live and no operator held (R478). -/
theorem unit_fenced {s : State} {n u : Nat} (hn : 0 < n) (unit d : Nat) (hlive : s.coreRun = []) (hops : s.ops = []) :
    (∀ c, c / n = u → (((s.countWrite (0x130 + d) false).fenceCmd ((List.range n).map (fun i => n * u + i)) unit).core c).st = 3) ∧
    ∀ c, c / n ≠ u → ((s.countWrite (0x130 + d) false).fenceCmd ((List.range n).map (fun i => n * u + i)) unit).core c = s.core c := by
  obtain ⟨hcores, -, -, hops', -⟩ := countWrite_cores s (0x130 + d) false
  have hcore := core_fenceCmd (s := s.countWrite (0x130 + d) false) (cs := (List.range n).map (fun i => n * u + i)) unit
    (fun c _ => by rw [core_live (hcores.trans hlive)]; rfl) (fun c _ => coreBusy_of_ops (hops'.trans hops) c)
    (by rw [hcores, hlive]; simp)
  refine ⟨fun c hc => ?_, fun c hc => ?_⟩
  · rw [hcore, if_pos ((mem_unitCores hn).2 hc)]
  · rw [hcore, if_neg fun h => hc ((mem_unitCores hn).1 h), core_eq hcores]

/-- FENCE_CLUSTER (R478). -/
theorem fenceCluster_fences (s : State) (d : Nat) : let u := s.rdF (R.CDIE_CORE_SEL d) 5 0
    d < 16 → u / 4 = d → s.coreRun = [] → s.ops = [] →
    ∃ t, exec (.fenceCluster d) s = .next t ∧ (∀ c, c / 6 = u → (t.core c).st = 3) ∧ (∀ c, c / 6 ≠ u → t.core c = s.core c) := by
  intro u hd hu hlive hops
  have hfree : s.cluFenced u = false := List.all_eq_false.2 ⟨0, by simp, by simp [core_live hlive, CoreRun.live]⟩
  have hex : exec (.fenceCluster d) s =
      keepQueue s (.next ((s.countWrite (0x130 + d) false).fenceCmd ((List.range 6).map (fun i => 6 * u + i)) 1)) :=
    congrArg (keepQueue s) ((if_neg (Nat.not_le.2 hd)).trans (if_pos ⟨hu, hfree⟩))
  obtain ⟨hin, hout⟩ := unit_fenced (n := 6) (u := u) (by decide) 1 d hlive hops
  obtain ⟨t, ht, htc, -, -⟩ := exec_next hex
  exact ⟨t, ht, fun c hc => by rw [htc]; exact hin c hc, fun c hc => by rw [htc]; exact hout c hc⟩

/-- FENCE_DIE (R478). -/
theorem fenceDie_fences (s : State) (d : Nat) (hd : d < 16) (hlive : s.coreRun = []) (hops : s.ops = []) :
    ∃ t, exec (.fenceDie d) s = .next t ∧ (∀ c, c / 24 = d → (t.core c).st = 3) ∧ (∀ c, c / 24 ≠ d → t.core c = s.core c) := by
  have hex : exec (.fenceDie d) s =
      keepQueue s (.next ((s.countWrite (0x130 + d) false).fenceCmd ((List.range 24).map (fun i => 24 * d + i)) 2)) :=
    congrArg (keepQueue s) (if_neg (Nat.not_le.2 hd))
  obtain ⟨hin, hout⟩ := unit_fenced (n := 24) (u := d) (by decide) 2 d hlive hops
  obtain ⟨t, ht, htc, -, -⟩ := exec_next hex
  exact ⟨t, ht, fun c hc => by rw [htc]; exact hin c hc, fun c hc => by rw [htc]; exact hout c hc⟩

/-- UNIT_FAULT of a compute die (R476). -/
theorem unitFault_fences (s : State) (d : Nat) (hd : d < 16) (_ : s.coreRun = []) (hops : s.ops = []) :
    ∃ t, exec (.unitFault true d) s = .next t ∧ (∀ c, c / 24 = d → (t.core c).st = 2) ∧ (∀ c, c / 24 ≠ d → t.core c = s.core c) := by
  obtain ⟨⟨_, _, _, hf⟩, -⟩ := errLatch_spec s (0x130 + d) 2 0
  have hex : exec (.unitFault true d) s = keepQueue s (.next (((List.range 24).map (fun i => 24 * d + i)).foldl (fenceOne 2 2)
      ((s.errLatch (0x130 + d) 2 0).endParts ((List.range 24).map (fun i => 24 * d + i)) ((List.range 4).map (fun j => 4 * d + j)) 6))) :=
    congrArg (keepQueue s) ((if_pos rfl).trans (if_pos hd))
  rw [endParts_none (by rw [hf]; exact hops)] at hex
  have hcores : (s.errLatch (0x130 + d) 2 0).coreRun = s.coreRun := by rw [hf]
  have hcore := core_fenceOnes ((List.range 24).map (fun i => 24 * d + i)) 2 2 (s.errLatch (0x130 + d) 2 0)
  obtain ⟨t, ht, htc, -, -⟩ := exec_next hex
  refine ⟨t, ht, fun c hc => ?_, fun c hc => ?_⟩
  · rw [htc, hcore, if_pos ((mem_unitCores (by decide)).2 hc)]
  · rw [htc, hcore, if_neg fun h => hc ((mem_unitCores (by decide)).1 h), core_eq hcores]

/-- UNFENCE of a core fenced by itself (R478). -/
theorem unfence_live (s : State) (d : Nat) : let c := s.rdF (R.CDIE_CORE_SEL d) 8 0
    d < 16 → c / 24 = d → (s.core c).st = 3 → (s.core c).unit = 0 →
    ∃ t, exec (.unfence d) s = .next t ∧ t.core c = CoreRun.live ∧ (∀ k, k ≠ c → t.core k = s.core k) ∧
      t.rdB (R.CLU_CORE_MAP (c / 6)) (22 + c % 6) = false ∧
      ∀ a, sramBase + 4 * c * 0x400000 ≤ a → a < sramBase + 4 * (c + 1) * 0x400000 → Mem.get t.mem a = Mem.blank := by
  intro c hd hc hst hunit
  obtain ⟨hcores, -, -, -, -⟩ := countWrite_cores s (0x130 + d) false
  obtain ⟨u, hu⟩ : ∃ u, u = s.countWrite (0x130 + d) false := ⟨_, rfl⟩
  have hsel : ((List.range 1).map (fun i => c + i)).filter (fun k => (s.core k).st == 3 && (s.core k).unit == 0) ≠ [] := by
    simp [List.range_succ, hst, hunit]
  have hex : exec (.unfence d) s = keepQueue s (.next (u.unfence d [c])) := by
    show execUnfence d s = _
    simp only [execUnfence]
    rw [if_neg (Nat.not_le.2 hd), if_pos (And.intro hc hsel), if_neg (List.cons_ne_nil c []), ← hu]
  rw [← hu] at hcores
  obtain ⟨v, hv⟩ : ∃ v, v = ((u.coreSet c CoreRun.live).coreClear c).wrF (R.CLU_CORE_MAP (c / 6)) (22 + c % 6) (22 + c % 6) 0 := ⟨_, rfl⟩
  have hcore : ∀ k, v.core k = if k = c then CoreRun.live else s.core k := fun k => by
    rw [hv, show ∀ w : State, ((w.coreClear c).wrF (R.CLU_CORE_MAP (c / 6)) (22 + c % 6) (22 + c % 6) 0).core k = w.core k from fun _ => rfl,
      core_coreSet, core_eq hcores]
  have hmap : v.rdB (R.CLU_CORE_MAP (c / 6)) (22 + c % 6) = false := by
    rw [hv, rdB, wrF_eq, rd_wr_self, bit_setFld _ _ _ _ _ (by omega), if_pos ⟨Nat.le_refl _, Nat.le_refl _⟩, Nat.zero_testBit]
  have hmem : v.mem = ((u.coreSet c CoreRun.live).coreClear c).mem := by rw [hv]; rfl
  obtain ⟨hbf, hbk⟩ := fenceBits_onlyRegs v d
  have hun : u.unfence d [c] = v.fenceBits d := by rw [hv]; rfl
  rw [← hun] at hbf hbk
  have hc' : (u.unfence d [c]).coreRun = v.coreRun := by rw [hbf]
  have hm' : (u.unfence d [c]).mem = v.mem := by rw [hbf]
  obtain ⟨t, ht, htc, htr, htm⟩ := exec_next hex
  refine ⟨t, ht, by rw [htc, core_eq hc', hcore, if_pos rfl], fun k hk => by rw [htc, core_eq hc', hcore, if_neg hk], ?_, fun a h h' => ?_⟩
  · rw [rdB, htr, hbk _ (by simpa using canon_map_ne_stat (c / 6) hd)]
    exact hmap
  · rw [htm, hm', hmem]
    exact coreClear_blank _ c h h'

/-- FENCE_TIMEOUT of a core whose fence still waits (R478). -/
theorem timeout_fences (s : State) (c : Nat) (hc : c < 384) (hstop : (s.core c).stop = true)
    (htime : (s.core c).at_.toNat + s.rdF (R.CDIE_FENCE_TMO (c / 24)) 19 0 * 4000 ≤ s.ft.toNat)
    (hfree : ∀ p ∈ s.ops, s.opHeld p.1 = false) :
    ∃ t, exec (.fenceTimeout c) s = .next t ∧ t.core c = ⟨3, false, s.ft, (s.core c).unit⟩ ∧ (∀ k, k ≠ c → t.core k = s.core k) ∧
      t.rdB (R.CLU_CORE_MAP (c / 6)) (22 + c % 6) = true ∧ t.rdB (R.INT_STAT (0x130 + c / 24)) 1 = true := by
  have hf := endParts_frame hfree [c] (if (s.core c).unit = 0 then [] else [c / 6]) 3
  have hex : exec (.fenceTimeout c) s = keepQueue s (.next ((s.endParts [c] (if (s.core c).unit = 0 then [] else [c / 6]) 3).coreFence c 3
      (s.core c).unit)) := by
    show execFenceTimeout c s = _
    simp only [execFenceTimeout]
    rw [if_pos ⟨hc, hstop, htime⟩]
  generalize s.endParts [c] (if (s.core c).unit = 0 then [] else [c / 6]) 3 = u at *
  have hcores : u.coreRun = s.coreRun := by rw [hf]
  obtain ⟨hcore, -, -, hmap, hint⟩ := coreFence_fenced u c 3 (s.core c).unit
  obtain ⟨t, ht, htc, htr, -⟩ := exec_next hex
  refine ⟨t, ht, ?_, fun k hk => ?_, ?_, ?_⟩
  · rw [htc, hcore, if_pos rfl, show u.ft = s.ft by rw [hf]]
  · rw [htc, hcore, if_neg hk, core_eq hcores]
  · rw [rdB, htr]
    exact hmap hc
  · rw [rdB, htr]
    exact hint

/-- Settles O44, clause by clause. -/
theorem fencingAndSubstitution : Obligations.FencingAndSubstitution :=
  ⟨fault_pauses, subst_done, fenceCore_fences, fenceCore_errs, fenceCluster_fences, fenceDie_fences, unitFault_fences, unfence_live,
    swap_pauses, timeout_fences⟩

end Sys2Proof.Proofs

end

section
/-! PROOFS. The remote operators (O11), and records completed without an item (O8). -/
namespace Sys2Proof.Machine
open Sys2Proof

namespace State

/-- With EVT 0 no item is due (R108). -/
theorem evtDue_of_none {o : RunOp} (h : CmdRecF.evt o.cmd = 0) : evtDue o = false := by
  rw [evtDue, h]
  rfl

/-- The completion of a record that makes no item is its signal (R113). -/
theorem complete_eq_signalled (s : State) (h : Nat) {o : RunOp} (hevt : CmdRecF.evt o.cmd = 0) : s.complete h o = s.signalled h o := by
  have hno : (evtDue o || (CmdRecF.evt o.cmd == 3 && bit s.free 63)) = false := by
    rw [evtDue_of_none hevt, hevt]
    rfl
  simp only [complete, hno, Bool.false_eq_true, if_false]
  rfl

/-- A signal with CODE OK leaves the registers (R114). -/
theorem signalDep_regs (s : State) (t : Nat) {c : CmdRec} {code : Byte} (h : CmdRecF.sigEn c = false ∨ code = 0) :
    (s.signalDep t c code).regs = s.regs := by
  rcases h with h | rfl
  · rw [signalDep_off s t code h]
  · unfold signalDep
    split <;> rfl

end State
end Sys2Proof.Machine

namespace Sys2Proof.Proofs
open Sys2Proof Sys2Proof.Machine Sys2Proof.Machine.State

/-- Settles O11: each command runs its operator by its effect. -/
theorem remoteOperators : Obligations.RemoteOperators :=
  ⟨fun _ => runsBy_of_exec fun _ => rfl, fun _ => runsBy_of_exec fun _ => rfl, fun _ => runsBy_of_exec fun _ => rfl,
    fun _ => runsBy_of_exec fun _ => rfl⟩

/-- Settles O8: without an item a completion is DONE and the record's signal. -/
theorem completionRecorded : Obligations.CompletionRecorded := by
  intro s h o hevt _ hr u
  have hu : u = s.signalled h o := complete_eq_signalled s h hevt
  have hsig := (signalDep_spec (({ s.used with ops := Map.erase s.ops h } : State).wr (R.CRG_RING_DONE o.tenant o.ring)
    (s.rd (R.CRG_RING_DONE o.tenant o.ring) + 1)) o.tenant o.cmd o.code).1
  refine ⟨?_, ?_, complete_recorded s h o hr, fun hsilent => ?_⟩
  · rw [hu, signalled, hsig]
    rfl
  · rw [hu, signalled, hsig]
    rfl
  · rw [hu]
    intro a ha
    rw [signalled, rd_congr (signalDep_regs _ _ hsilent)]
    exact kept_wr _ _ _ a ha

end Sys2Proof.Proofs
end

section
/-! PROOFS. NOP, EVENT and TIMESTAMP (O12). -/
namespace Sys2Proof.Machine
open Sys2Proof

namespace State

/-! ### A parameter block is read, and nothing more (R121, R156, R174) -/

theorem reads_readAt (s : State) (a n : Nat) : Reads s (s.readAt a n) :=
  reads_trans _ _ _ (reads_of_ms (by rw [touchRange_frame]) (by rw [touchRange_frame])) (reads_countDram _ a n)

/-- A 64-byte range read leaves the flash reads outstanding as they were. -/
theorem readWord_spec (s : State) (w : Word64) :
    Reads s (s.readWord w) ∧ (s.readWord w).ms.reads = s.ms.reads ∧ (w = 0 → s.readWord w = s) := by
  unfold readWord
  split
  · exact ⟨reads_refl s, rfl, fun _ => rfl⟩
  · obtain ⟨⟨f, r, hf⟩, -⟩ := readAt_frame s w.toNat 64
    exact ⟨reads_readAt s _ _, by rw [hf], fun h0 => absurd (Or.inl h0) ‹_›⟩

/-- An operator of an opcode without tensors, that reads nothing besides, reads its parameter block. -/
theorem touchInputs_param (s : State) (h : Nat) {o : RunOp} {us : List Nat} {n : Nat}
    (hinfo : opInfo o.cmd.opcode.toNat = some ⟨us, [], [], n⟩) : s.touchInputs h o [] = s.readWord o.cmd.w7 := by
  simp only [touchInputs, hinfo]
  rfl

/-- The operator is marked as begun, its parameter block at most is read, and no read of flash begins. -/
structure ParamBegun (s b : State) (h : Nat) (o : RunOp) : Prop where
  frame : b = { s with ops := b.ops, ms := b.ms, regs := b.regs }
  reads : ReadFrame s b []
  flash : b.ms.reads = s.ms.reads
  plain : o.cmd.w7 = 0 → b = { s with ops := b.ops }
  self : b.op? h = some { o with touched := true }
  others : ∀ k, k ≠ h → b.op? k = s.op? k

/-- An operator of an opcode without tensors begins so. -/
theorem begun_param {s : State} {h : Nat} {o : RunOp} {us : List Nat} {n : Nat} (ho : s.op? h = some o)
    (hinfo : opInfo o.cmd.opcode.toNat = some ⟨us, [], [], n⟩) : ParamBegun s (s.begun h o []) h o := by
  have hself := op?_begun ho ([] : List (Nat × Nat))
  unfold begun at hself ⊢
  split at hself
  · rw [if_pos ‹_›]
    exact ⟨rfl, (reads_refl s).2, rfl, fun _ => rfl, hself, fun _ _ => rfl⟩
  · rw [if_neg ‹_›]
    rw [touchInputs_param _ h hinfo] at hself ⊢
    obtain ⟨⟨hf, hr⟩, hflash, hz⟩ := readWord_spec (s.opSet h { o with touched := true }) o.cmd.w7
    refine ⟨by rw [hf]; rfl, hr, hflash, fun h0 => by rw [hz h0]; rfl, hself, fun k hk => ?_⟩
    rw [op?, hf]
    exact op?_opSet_ne s _ hk

/-- A state with an operator set has the queue it had. -/
theorem keepQueue_opSet {s u : State} (h : Nat) (q : RunOp) (hu : u.pending = s.pending) :
    keepQueue s (.next (u.opSet h q)) = .next (u.opSet h q) := keepQueue_of_pending hu

/-- It waits for no flash read of its own where none was outstanding. -/
theorem ParamBegun.reading {s b : State} {h : Nat} {o : RunOp} (hb : ParamBegun s b h o) (hr : s.reading (.op h) = false) :
    b.reading (.op h) = false := by
  rw [State.reading, hb.flash]
  exact hr

/-- A ready operator of an opcode without tensors runs its effect where that succeeds. -/
theorem runOpR_param {s u : State} {h opc : Nat} {o q : RunOp} {us : List Nat} {n : Nat} {rs : State → RunOp → List (Nat × Nat)}
    {f : RunOp → State → Except Err State} (hready : OpReady s h opc o) (hrs : rs s o = []) (hinfo : opInfo opc = some ⟨us, [], [], n⟩)
    (hr : s.reading (.op h) = false) (hf : f { o with touched := true } (s.begun h o []) = .ok u) (hq : u.op? h = some q) :
    s.runOpR h opc rs f = u.opSet h { q with ran := true } := by
  obtain ⟨⟨ho, -, -, -, hopc⟩, -⟩ := id hready
  have hb := begun_param ho (hopc ▸ hinfo)
  exact runOpR_ok hready (by rw [hrs]) (hb.reading hr) hf hq

/-! ### Rights and bytes (R143, R148) -/

/-- A read that begins changes no register of the low pages. -/
theorem reads_rd_low {s t : State} (hr : ReadFrame s t []) {a : Nat} (ha : a < 0x10000) : t.rd a = s.rd a := by
  refine hr.2 a (by simp) fun k => ⟨canon_ne_of_low ha ?_, canon_ne_of_low ha ?_⟩ <;> simp only [R.DRP_RD_BYTES_LO] <;> omega

/-- Rights do not depend on what a read changes. -/
theorem deny_reads {s t : State} (ht : t = { s with ops := t.ops, ms := t.ms, regs := t.regs }) (hr : ReadFrame s t []) (who a : Nat)
    (wr : Bool) : t.deny who a wr = s.deny who a wr := by
  have hsem : t.semStops = s.semStops := by
    rw [semStops, semStops, rdF, rdF, reads_rd_low hr (by decide), ht]
  have hrgn : t.rgnAt a = s.rgnAt a := by rw [rgnAt, rgnAt, rgn, rgn, hr.1]
  have hact : t.tenantActive who = s.tenantActive who := by rw [tenantActive, tenantActive, ht]
  have hgrant : t.readGrant who = s.readGrant who := by
    rw [readGrant, readGrant, rdB, rdB, reads_rd_low hr (by split <;> decide)]
  have hturn : t.turnRight who = s.turnRight who := by
    rw [turnRight, turnRight, rdB, rdB, reads_rd_low hr (by split <;> decide)]
  simp only [deny, hsem, hrgn, hact, hgrant, hturn]

/-- Bytes within one tile are one piece. -/
theorem cutTiles_one {a : Nat} {bs : List Byte} (h0 : 0 < bs.length) (h : a % tileBytes + bs.length ≤ tileBytes) :
    cutTiles a bs = [(a, bs)] := by
  have hend : min (a + bs.length) ((a / tileBytes + 1) * tileBytes) = a + bs.length := by simp only [tileBytes] at *; omega
  simp only [cutTiles, tilesOf_one h0 h, List.map_cons, List.map_nil, tile_start_le, hend, Nat.sub_self, List.drop_zero,
    Nat.add_sub_cancel_left, List.take_length]

/-- An operator's write within one tile of DRAM, by one with the right. -/
theorem putElem_dram {s : State} {h who a : Nat} {bs : List Byte} (h0 : 0 < bs.length) (h1 : a % tileBytes + bs.length ≤ tileBytes)
    (hd : s.deny who a true = none) (ht : (s.tile (a / tileBytes)).st = .dram) :
    ∃ f p r u, putElem h who false (.ok s) ((a : Int), bs) = .ok u ∧
      u = { s with mem := Mem.write s.mem a bs, ms := { s.ms with frames := f, poison := p }, regs := r } ∧ DramRegs s u [] := by
  obtain ⟨f, p, r, hfr, hregs⟩ := dramWritten_frame s (x := ⟨who, some h, .write, a, bs, bs.length, 0, none, []⟩) bs rfl
  refine ⟨f, p, r, _, ?_, hfr, hregs⟩
  have hwt := writeTile_dram (x := ⟨who, some h, .write, a, bs, bs.length, 0, none, []⟩) ht
  simp only [putElem, Int.toNat_natCast, cutTiles_one h0 h1, List.foldl_cons, List.foldl_nil, hd, Bool.false_eq_true, if_false, hwt]
  rfl

/-! ### The effects -/

/-- EVENT without further units (R123). -/
theorem eventFx_plain (s : State) (h : Nat) {o : RunOp} (h1 : o.cmd.w1 = 0) (h2 : o.cmd.w2 = 0) (h3 : o.cmd.w3 = 0) (h4 : o.cmd.w4 = 0)
    (h5 : o.cmd.w5 = 0) (h6 : o.cmd.w6 = 0) (h7 : o.cmd.w7 = 0) :
    eventFx h o s = .ok (s.opSet h { o with kind := 4, tdata := o.cmd.w0 }) := by
  simp only [eventFx, h1, h2, h3, h4, h5, h6, h7]
  rfl

end State
end Sys2Proof.Machine

namespace Sys2Proof.Proofs
open Sys2Proof Sys2Proof.Machine Sys2Proof.Machine.State

/-- NOP (R121). -/
theorem nop_marks (s : State) (h : Nat) (o : RunOp) (hready : OpReady s h 0x0F00 o) (hr : s.reading (.op h) = false) :
    ∃ t, exec (.nop h) s = .next t ∧ t = { s with ops := t.ops, ms := t.ms, regs := t.regs } ∧ ReadFrame s t [] ∧
      (o.cmd.w7 = 0 → t = { s with ops := t.ops }) ∧
      t.op? h = some { o with touched := true, ran := true } ∧ ∀ k, k ≠ h → t.op? k = s.op? k := by
  obtain ⟨⟨ho, -, -, -, hopc⟩, -⟩ := id hready
  have hb := begun_param ho (us := [0, 1, 2, 3, 4, 5]) (n := 0) (by rw [hopc]; rfl)
  have hrun : s.runOp h 0x0F00 (fun _ t => .ok t) = (s.begun h o []).opSet h { o with touched := true, ran := true } :=
    runOpR_param hready rfl (by rfl) hr rfl hb.self
  have hex : exec (.nop h) s = keepQueue s (.next (s.runOp h 0x0F00 (fun _ t => .ok t))) := rfl
  have hpend : (s.begun h o []).pending = s.pending := by rw [hb.frame]
  rw [hrun, keepQueue_opSet _ _ hpend] at hex
  exact ⟨_, hex, by rw [hb.frame]; rfl, hb.reads, fun h0 => by rw [hb.plain h0]; rfl, op?_opSet_self ..,
    fun k hk => (op?_opSet_ne _ _ hk).trans (hb.others k hk)⟩

/-- EVENT without further units (R123). -/
theorem event_user (s : State) (h : Nat) (o : RunOp) (hready : OpReady s h 0x0F01 o) (hr : s.reading (.op h) = false)
    (h1 : o.cmd.w1 = 0) (h2 : o.cmd.w2 = 0) (h3 : o.cmd.w3 = 0) (h4 : o.cmd.w4 = 0) (h5 : o.cmd.w5 = 0) (h6 : o.cmd.w6 = 0)
    (h7 : o.cmd.w7 = 0) :
    ∃ t, exec (.event h) s = .next t ∧ t = { s with ops := t.ops } ∧
      t.op? h = some { o with touched := true, kind := 4, tdata := o.cmd.w0, ran := true } ∧ ∀ k, k ≠ h → t.op? k = s.op? k := by
  obtain ⟨⟨ho, -, -, -, hopc⟩, -⟩ := id hready
  have hb := begun_param ho (us := [5]) (n := 0) (by rw [hopc]; rfl)
  have hfx := eventFx_plain (s.begun h o []) h (o := { o with touched := true }) h1 h2 h3 h4 h5 h6 h7
  have hex : exec (.event h) s = keepQueue s (.next (s.runOpR h 0x0F01
    (fun _ o => if fld o.cmd.w2 1 0 = 0 then [] else [(o.cmd.w1.toNat, 64 * fld o.cmd.w2 1 0)]) (eventFx h))) := rfl
  have hpend : (s.begun h o []).pending = s.pending := by rw [hb.frame]
  rw [runOpR_param hready (if_pos (by rw [h2]; rfl)) rfl hr hfx (op?_opSet_self ..),
    keepQueue_opSet (u := (s.begun h o []).opSet h _) _ _ hpend] at hex
  exact ⟨_, hex, by rw [hb.plain h7]; rfl, op?_opSet_self .., fun k hk =>
    (op?_opSet_ne _ _ hk).trans ((op?_opSet_ne _ _ hk).trans (hb.others k hk))⟩

/-- TIMESTAMP (R121). -/
theorem timestamp_writes (s : State) (h : Nat) (o : RunOp) (hready : OpReady s h 0x0F02 o) (hr : s.reading (.op h) = false)
    (hend : o.cmd.w0.toNat + 8 ≤ uniEnd) (htile : o.cmd.w0.toNat % tileBytes + 8 ≤ tileBytes)
    (hd : s.deny o.tenant o.cmd.w0.toNat true = none) (ht : (s.tile (o.cmd.w0.toNat / tileBytes)).st = .dram) :
    ∃ t, exec (.timestamp h) s = .next t ∧ t = { s with ops := t.ops, mem := t.mem, ms := t.ms, regs := t.regs } ∧
      Mem.read t.mem o.cmd.w0.toNat 8 = leBytes 8 o.ftStart.toNat ∧
      (∀ a, a < o.cmd.w0.toNat ∨ o.cmd.w0.toNat + 8 ≤ a → Mem.get t.mem a = Mem.get s.mem a) ∧ t.ms.tiles = s.ms.tiles ∧
      DramRegs s t [] ∧
      t.op? h = some { o with touched := true, ran := true } ∧ ∀ k, k ≠ h → t.op? k = s.op? k := by
  obtain ⟨⟨ho, -, -, -, hopc⟩, -⟩ := id hready
  have hb := begun_param ho (us := [5]) (n := 0) (by rw [hopc]; rfl)
  have htiles : (s.begun h o []).ms.tiles = s.ms.tiles := by rw [hb.reads.1]
  have hlen := length_leBytes 8 o.ftStart.toNat
  obtain ⟨f, p, r, u, hput, hu, hregs⟩ := putElem_dram (h := h) (who := o.tenant) (bs := leBytes 8 o.ftStart.toNat) (by rw [hlen]; decide)
    (by rw [hlen]; exact htile) ((deny_reads hb.frame hb.reads _ _ _).trans hd) (by rw [tile, htiles]; exact ht)
  have hfx : timestampFx h { o with touched := true } (s.begun h o []) = .ok u := (if_neg (Nat.not_lt.2 hend)).trans hput
  have huop (k : Nat) : u.op? k = (s.begun h o []).op? k := by rw [op?, op?, hu]
  have humem : u.mem = Mem.write s.mem o.cmd.w0.toNat (leBytes 8 o.ftStart.toNat) := by rw [hu, hb.frame]
  obtain ⟨hin, hout⟩ := written_mem s.mem o.cmd.w0.toNat (leBytes 8 o.ftStart.toNat)
  rw [hlen] at hin hout
  have hex : exec (.timestamp h) s = keepQueue s (.next (s.runOp h 0x0F02 (timestampFx h))) := rfl
  have hpend : u.pending = s.pending := by rw [hu, hb.frame]
  rw [runOp, runOpR_param hready rfl rfl hr hfx ((huop h).trans hb.self), keepQueue_opSet _ _ hpend] at hex
  refine ⟨_, hex, by rw [hu, hb.frame]; rfl, ?_, ?_, ?_, fun a ha hk => ?_, op?_opSet_self .., fun k hk =>
    (op?_opSet_ne _ _ hk).trans ((huop k).trans (hb.others k hk))⟩
  · rw [← hin, ← humem]; rfl
  · rw [← humem] at hout; exact hout
  · rw [← htiles, show (u.opSet h _).ms = u.ms from rfl, hu]
  · exact (hregs a ha hk).trans (hb.reads.2 a ha fun k => ⟨(hk k).1, (hk k).2.1⟩)

/-- Settles O12: what each effect leaves of a state in which a parameter block at most has been read. -/
theorem controlOperators : Obligations.ControlOperators :=
  ⟨nop_marks, event_user, timestamp_writes, fun _ => runsBy_of_exec fun _ => rfl, fun _ => runsBy_of_exec fun _ => rfl⟩

end Sys2Proof.Proofs
end

section
/-! PROOFS. Doorbells, ring control and dependency counters (O6). -/
namespace Sys2Proof.Machine
open Sys2Proof

namespace State

/-! ### Doorbells (R104) -/

/-- A refused doorbell: its write is ignored, a bit of the page's error register is set, and its interrupt is raised. -/
def doorbellRefused (s : State) (p a e : Nat) (m : Word32) (b : Nat) : State := ((s.ignoredWrite a).setBits e m).raise p b

theorem doorbellRefused_spec (s : State) {p a e : Nat} (m : Word32) {b : Nat} (ha : a / 4096 = p) (he : 256 ≤ e % 4096) (hb : b < 32) :
    RegsSent s (s.doorbellRefused p a e m b) ∧ RegsKept s (s.doorbellRefused p a e m b) [R.GEN_WR_CNT p, R.GEN_IGN_CNT p, e, R.INT_STAT p] ∧
    (s.doorbellRefused p a e m b).rd e = s.rd e ||| m ∧ (s.doorbellRefused p a e m b).rdB (R.INT_STAT p) b = true := by
  obtain ⟨⟨hf, hk⟩, -⟩ := ignoredWrite_spec s a
  rw [ha] at hk
  unfold doorbellRefused
  refine ⟨?_, ?_, ?_, rdB_raise_self _ _ _ hb⟩
  · exact regsSent_trans _ _ _ (by rw [hf]; rfl) (regsSent_raise _ _ _)
  · exact kept_trans (kept_trans (n := [R.GEN_WR_CNT p, R.GEN_IGN_CNT p, e]) hk (kept_wr _ _ _) (by simp) (by simp)) (raise_kept _ _ _)
      (by simp) (by simp)
  · rw [raise_kept _ _ _ e, setBits_eq, rd_wr_self, hk e]
    all_goals simp only [List.mem_cons, List.not_mem_nil, or_false, forall_eq_or_imp, forall_eq]
    · exact ⟨canon_ne_of_off (by simp only [R.GEN_WR_CNT]; omega), canon_ne_of_off (by simp only [R.GEN_IGN_CNT]; omega)⟩
    · exact canon_ne_of_off (by simp only [R.INT_STAT]; omega)

/-! ### EN and the rest of CRG_RING_CTL (R135) -/

/-- A bit of a read-write field that takes every value is what is written. -/
theorem fieldBit_rw {hi lo : Nat} (h : lo ≤ hi) (v : Word32) (i : Nat) (b : Bool) : fieldBit (rw hi lo) v i b = bit v i := by
  have hlt : fld v hi lo < 2 ^ (hi + 1 - lo) := Nat.mod_lt _ (Nat.two_pow_pos _)
  rw [show hi + 1 - lo = hi - lo + 1 by omega] at hlt
  exact if_pos ⟨Nat.zero_le _, Nat.le_sub_one_of_lt hlt⟩

/-- A bit of such a field of a register, after a write. -/
theorem rdB_plainWrite_rw (s : State) {a hi lo i : Nat} (v : Word32) (ha : 256 ≤ a % 4096) (hf : rw hi lo ∈ fieldsAt a) (hlo : lo ≤ i)
    (hhi : i ≤ hi) : (s.plainWrite a v).rdB a i = bit v i := by
  rw [rdB, (plainWrite_spec s a v ha).2.1, bit_writeFields_in (s.rd a) v (fieldsAt_fit a) hf hlo hhi, fieldBit_rw (hlo.trans hhi)]

/-- The fields of a register of a block's own table are those of its row. -/
theorem fieldsAt_block {r : PageRange} (hr : r ∈ pageMap) {i off : Nat} (hi : i < r.count) (h : 0x100 ≤ off) (h' : off < 4096)
    {fs : List Fld} (hrow : (findRow (blkRows r.blk) off).map (·.fields) = some fs) : fieldsAt (4096 * (r.first + i) + off) = fs := by
  obtain ⟨x, hx, rfl⟩ := Option.map_eq_some_iff.1 hrow
  rw [fieldsAt, rowAt_block (pageOf_mem hr hi) h h', hx]

theorem fieldsAt_ringCtl {t r : Nat} (ht : t < 64) (hr : r < 16) :
    fieldsAt (R.CRG_RING_CTL t r) = [rw 31 31, rw 30 30, .mk .rw 19 16 6 16, .mk .rw 8 0 0 383] := by
  have hrow : ∀ r, r < 16 → (findRow (blkRows .crg) (0x208 + 32 * r)).map (·.fields) =
      some [rw 31 31, rw 30 30, .mk .rw 19 16 6 16, .mk .rw 8 0 0 383] := by decide +kernel
  exact fieldsAt_block (r := ⟨0x10, 64, .crg, 0xf⟩) (by decide) ht (by omega) (by omega) (hrow r hr)

/-- The control register of a ring is one of its page, past the common layout. -/
theorem ringCtl_page (t : Nat) {r : Nat} (hr : r < 16) : R.CRG_RING_CTL t r / 4096 = 0x10 + t ∧ 256 ≤ R.CRG_RING_CTL t r % 4096 := by
  simp only [R.CRG_RING_CTL]
  omega

/-- A write of CRG_RING_CTL sets EN, and no other field of an enabled ring. -/
theorem ringCtlWrite_spec (s : State) {t r : Nat} (v : Word32) (ht : t < 64) (hr : r < 16) :
    OnlyRegs s (s.ringCtlWrite t r v) [R.CRG_RING_CTL t r, R.GEN_WR_CNT (0x10 + t), R.GEN_IGN_CNT (0x10 + t)] ∧
    (s.ringCtlWrite t r v).ringEn t r = bit v 31 ∧
    (s.ringEn t r = true → (s.ringCtlWrite t r v).rdF (R.CRG_RING_CTL t r) 30 0 = s.rdF (R.CRG_RING_CTL t r) 30 0) := by
  obtain ⟨hpage, hoff⟩ := ringCtl_page t hr
  unfold ringCtlWrite
  by_cases hen : s.ringEn t r = true
  · simp only [if_pos hen]
    generalize (v &&& 0x7FFFFFFF#32 != s.rd (R.CRG_RING_CTL t r) &&& 0x7FFFFFFF#32) = ign
    generalize hw : s.wrF (R.CRG_RING_CTL t r) 31 31 (fld v 31 31) = w
    have hkw : RegsKept s w [R.CRG_RING_CTL t r] := hw ▸ kept_wr s _ _
    have hk := countWrite_kept w (0x10 + t) ign
    obtain ⟨x, hx⟩ := countWrite_frame w (0x10 + t) ign
    have hctl : (w.countWrite (0x10 + t) ign).rd (R.CRG_RING_CTL t r) = setFld (s.rd (R.CRG_RING_CTL t r)) 31 31 (fld v 31 31) := by
      rw [hk, ← hw, wrF_eq, rd_wr_self]
      simp only [List.mem_cons, List.not_mem_nil, or_false, forall_eq_or_imp, forall_eq]
      exact ⟨canon_ne_of_off (by simp only [R.GEN_WR_CNT]; omega), canon_ne_of_off (by simp only [R.GEN_IGN_CNT]; omega)⟩
    refine ⟨⟨by rw [hx, ← hw]; rfl, kept_trans hkw hk (by simp) (by simp)⟩, ?_, fun _ => ?_⟩
    · rw [ringEn, rdB, hctl, bit_setFld _ _ _ _ _ (by decide), if_pos ⟨le_refl _, le_refl _⟩]
      exact testBit_fld_sub v ⟨le_refl _, le_refl _⟩
    · rw [rdF, hctl, fld_setFld_ne _ _ _ _ _ _ (by decide) (.inl (by decide))]
      rfl
  · simp only [if_neg hen]
    obtain ⟨hregs, -⟩ := plainWrite_spec s (R.CRG_RING_CTL t r) v hoff
    rw [hpage] at hregs
    exact ⟨hregs, rdB_plainWrite_rw s v hoff (hi := 31) (lo := 31) (by simp [fieldsAt_ringCtl ht hr]) (by decide) (by decide),
      fun h => absurd h hen⟩

/-! ### A ring enabled again (R119) -/

/-- STOPPED and the cause of a ring are cleared. -/
def stopCleared (s : State) (t r : Nat) : State := (s.wrF (R.CRG_RING_STAT t r) 30 27 0).clrBits (R.CRG_STOPPED t) (BitVec.ofNat 32 (2 ^ r))

theorem stopCleared_spec (s : State) (t : Nat) {r : Nat} (hr : r < 16) :
    OnlyRegs s (s.stopCleared t r) [R.CRG_RING_STAT t r, R.CRG_STOPPED t] ∧
    (s.stopCleared t r).rd (R.CRG_RING_CTL t r) = s.rd (R.CRG_RING_CTL t r) ∧ (s.stopCleared t r).rdF (R.CRG_RING_STAT t r) 30 27 = 0 ∧
    ∀ q, q < 16 → (s.stopCleared t r).ringStopped t q = (s.ringStopped t q && decide (q ≠ r)) := by
  have hcs : canon (R.CRG_RING_CTL t r) ≠ canon (R.CRG_RING_STAT t r) := canon_ne_of_off (by simp only [R.CRG_RING_CTL, R.CRG_RING_STAT]; omega)
  have hcp : canon (R.CRG_RING_CTL t r) ≠ canon (R.CRG_STOPPED t) := canon_ne_of_off (by simp only [R.CRG_RING_CTL, R.CRG_STOPPED]; omega)
  have hsp : canon (R.CRG_RING_STAT t r) ≠ canon (R.CRG_STOPPED t) := canon_ne_of_off (by simp only [R.CRG_RING_STAT, R.CRG_STOPPED]; omega)
  unfold stopCleared
  refine ⟨⟨rfl, kept_trans (kept_wr s _ _) (kept_wr _ _ _) (by simp) (by simp)⟩, ?_, ?_, fun q hq => ?_⟩
  · rw [clrBits_eq, rd_wr_ne _ _ hcp, wrF_eq, rd_wr_ne _ _ hcs]
  · rw [rdF, clrBits_eq, rd_wr_ne _ _ hsp]
    exact rdF_wrF_self s _ 0 (by decide)
  · rw [ringStopped, rdB, clrBits_eq, rd_wr_self, bit_and, bit_not _ (by omega), bit_two_pow (by omega), wrF_eq, rd_wr_ne _ _ hsp.symm]
    simp [ringStopped, rdB, eq_comm]

/-! ### The waiting records of a ring end (R135) -/

/-- DONE of a ring advances by as many of its records as end unrun. -/
theorem completeUnruns_done {t r : Nat} (hr : r < 16) (code detail : Byte) {l : List (Nat × RunOp)}
    (hl : ∀ p ∈ l, p.2.tenant = t ∧ p.2.ring = r) (s : State) :
    (l.foldl (fun u p => u.completeUnrun p.1 p.2 code detail) s).rd (R.CRG_RING_DONE t r) =
      s.rd (R.CRG_RING_DONE t r) + BitVec.ofNat 32 l.length := by
  induction l generalizing s with
  | nil => simp
  | cons p l ih =>
    obtain ⟨⟨hpt, hpr⟩, hl⟩ := List.forall_mem_cons.1 hl
    obtain ⟨-, -, -, hdone, -⟩ := completeUnrun_recorded s p.1 p.2 code detail (by omega)
    rw [hpt, hpr] at hdone
    rw [List.foldl_cons, ih hl, hdone, List.length_cons, Nat.add_comm, BitVec.ofNat_add, BitVec.add_assoc]
    rfl

/-- Records that end unrun leave the memory system. -/
theorem abortWaiting_ms (s : State) (t r : Nat) (detail : Byte) : (s.abortWaiting t r detail).ms = s.ms :=
  foldl_rel (R := fun s u => u.ms = s.ms) (fun _ => rfl) (fun _ _ _ h h' => h'.trans h) (fun u p _ => by
    obtain ⟨_, _, _, _, _, _, hf⟩ := completeUnrun_frame u p.1 p.2 0x0C detail
    rw [hf]) s

theorem abortWaiting_done (s : State) {t r : Nat} (hr : r < 16) (detail : Byte) : (s.abortWaiting t r detail).rd (R.CRG_RING_DONE t r) =
    s.rd (R.CRG_RING_DONE t r) + BitVec.ofNat 32 (s.ringWaiting t r).length :=
  completeUnruns_done hr 0x0C detail (fun p hp => by
    obtain ⟨-, hpt, hpr, -⟩ := mem_ringWaiting.1 hp
    exact ⟨hpt, hpr⟩) s

end State
end Sys2Proof.Machine

namespace Sys2Proof.Proofs
open Sys2Proof Sys2Proof.Machine Sys2Proof.Machine.State

/-! ### The clauses of O6: doorbells (R104) -/

theorem doorbell_taken (s : State) (t r : Nat) (v : Word32) (ht : t < 64) (hr : r < 16) (hon : (s.ringEn t r || s.ringStopped t r) = true)
    (hsize : (v - s.rd (R.CRG_RING_FETCH t r)).toNat ≤ 2 ^ s.rdF (R.CRG_RING_CTL t r) 19 16)
    (hback : (s.rd (R.CRG_RING_PROD t r) - s.rd (R.CRG_RING_FETCH t r)).toNat ≤ (v - s.rd (R.CRG_RING_FETCH t r)).toNat) :
    ∃ u, exec (.ringDoorbell t r v) s = .next u ∧ RegWritten s u (R.CRG_RING_PROD t r) v := by
  have hw := plainWrite_spec s (R.CRG_RING_PROD t r) v (by simp only [R.CRG_RING_PROD]; omega)
  have hex : exec (.ringDoorbell t r v) s = execRingDoorbell t r v s := rfl
  rw [execRingDoorbell, if_pos ⟨ht, hr⟩] at hex
  simp only [if_pos hon, if_pos (And.intro hsize hback)] at hex
  rw [keepQueue_of_pending (by rw [hw.1.1])] at hex
  exact ⟨_, hex, hw⟩

theorem doorbell_refused (s : State) (t r : Nat) (v : Word32) (ht : t < 64) (hr : r < 16) (hon : (s.ringEn t r || s.ringStopped t r) = true)
    (hbad : 2 ^ s.rdF (R.CRG_RING_CTL t r) 19 16 < (v - s.rd (R.CRG_RING_FETCH t r)).toNat ∨
      (v - s.rd (R.CRG_RING_FETCH t r)).toNat < (s.rd (R.CRG_RING_PROD t r) - s.rd (R.CRG_RING_FETCH t r)).toNat) :
    ∃ u, exec (.ringDoorbell t r v) s = .next u ∧ u = { s with regs := u.regs, outbox := u.outbox, msix := u.msix } ∧
      RegsKept s u [R.GEN_WR_CNT (0x10 + t), R.GEN_IGN_CNT (0x10 + t), R.CRG_DB_ERR t, R.INT_STAT (0x10 + t)] ∧
      u.rd (R.CRG_DB_ERR t) = s.rd (R.CRG_DB_ERR t) ||| BitVec.ofNat 32 (2 ^ r) ∧ u.rdB (R.INT_STAT (0x10 + t)) 0 = true := by
  have hspec := doorbellRefused_spec s (p := 0x10 + t) (a := R.CRG_RING_PROD t r) (e := R.CRG_DB_ERR t) (BitVec.ofNat 32 (2 ^ r)) (b := 0)
    (by simp only [R.CRG_RING_PROD]; omega) (by simp only [R.CRG_DB_ERR]; omega) (by decide)
  have hno : ¬((v - s.rd (R.CRG_RING_FETCH t r)).toNat ≤ 2 ^ s.rdF (R.CRG_RING_CTL t r) 19 16 ∧
      (s.rd (R.CRG_RING_PROD t r) - s.rd (R.CRG_RING_FETCH t r)).toNat ≤ (v - s.rd (R.CRG_RING_FETCH t r)).toNat) := by omega
  have hex : exec (.ringDoorbell t r v) s = execRingDoorbell t r v s := rfl
  rw [execRingDoorbell, if_pos ⟨ht, hr⟩] at hex
  simp only [if_pos hon, if_neg hno] at hex
  rw [← doorbellRefused, keepQueue_of_pending (by rw [hspec.1])] at hex
  exact ⟨_, hex, hspec⟩

theorem doorbell_first (s : State) (t r : Nat) (v : Word32) (ht : t < 64) (hr : r < 16) (hen : s.ringEn t r = false)
    (hst : s.ringStopped t r = false) :
    ∃ u, exec (.ringDoorbell t r v) s = .next u ∧ u = { s with regs := u.regs } ∧
      u.rd (R.CRG_RING_FETCH t r) = v ∧ u.rd (R.CRG_RING_PROD t r) = (writeFields (fieldsAt (R.CRG_RING_PROD t r)) (s.rd (R.CRG_RING_PROD t r)) v).1 ∧
      RegsKept s u [R.CRG_RING_FETCH t r, R.CRG_RING_PROD t r, R.GEN_WR_CNT (0x10 + t), R.GEN_IGN_CNT (0x10 + t)] := by
  obtain ⟨⟨hf, hk⟩, hv, -⟩ := plainWrite_spec s (R.CRG_RING_PROD t r) v (by simp only [R.CRG_RING_PROD]; omega)
  rw [show R.CRG_RING_PROD t r / 4096 = 0x10 + t by simp only [R.CRG_RING_PROD]; omega] at hk
  have hne : canon (R.CRG_RING_PROD t r) ≠ canon (R.CRG_RING_FETCH t r) :=
    canon_ne_of_off (by simp only [R.CRG_RING_PROD, R.CRG_RING_FETCH]; omega)
  have hex : exec (.ringDoorbell t r v) s = execRingDoorbell t r v s := rfl
  rw [execRingDoorbell, if_pos ⟨ht, hr⟩] at hex
  simp only [hen, hst, Bool.or_self, Bool.false_eq_true, if_false] at hex
  rw [keepQueue_of_pending (by rw [hf]; rfl)] at hex
  exact ⟨_, hex, by rw [hf]; rfl, rd_wr_self _ _ _, (rd_wr_ne _ _ hne).trans hv, kept_trans hk (kept_wr _ _ _) (by simp) (by simp)⟩

/-! ### Ring control (R119, R135) -/

/-- RING_ENABLE clears STOPPED and the cause, and then tests the home core. -/
theorem exec_ringEnable {s : State} {t r : Nat} {v : Word32} (ht : t < 64) (hr : r < 16) (hv : bit v 31 = true) :
    exec (.ringEnable t r v) s = keepQueue s (.next (if (s.ringCtlWrite t r v).coreFenced ((s.ringCtlWrite t r v).ringHome t r) = true
      then ((s.ringCtlWrite t r v).stopCleared t r).ringStop t r 2 none else (s.ringCtlWrite t r v).stopCleared t r)) := by
  obtain ⟨-, hctl, -⟩ := stopCleared_spec (s.ringCtlWrite t r v) t hr
  have hhome : ((s.ringCtlWrite t r v).stopCleared t r).ringHome t r = (s.ringCtlWrite t r v).ringHome t r := by rw [ringHome, rdF, hctl]; rfl
  have hfence (c : Nat) : ((s.ringCtlWrite t r v).stopCleared t r).coreFenced c = (s.ringCtlWrite t r v).coreFenced c := rfl
  rw [← hfence, ← hhome]
  exact congrArg (keepQueue s) (if_pos ⟨ht, hr, hv⟩)

theorem enable_starts (s : State) (t r : Nat) (v : Word32) (ht : t < 64) (hr : r < 16) (hv : bit v 31 = true)
    (hlive : (s.ringCtlWrite t r v).coreFenced ((s.ringCtlWrite t r v).ringHome t r) = false) :
    ∃ u, exec (.ringEnable t r v) s = .next u ∧ u = { s with regs := u.regs } ∧ u.ringEn t r = true ∧ u.ringStopped t r = false ∧
      u.rdF (R.CRG_RING_STAT t r) 30 27 = 0 ∧ ∀ q, q < 16 → q ≠ r → u.ringStopped t q = s.ringStopped t q := by
  obtain ⟨⟨hf, hk⟩, hen, -⟩ := ringCtlWrite_spec s v ht hr
  have hex := exec_ringEnable (s := s) ht hr hv
  rw [if_neg (by simp [hlive])] at hex
  have hstop : (s.ringCtlWrite t r v).rd (R.CRG_STOPPED t) = s.rd (R.CRG_STOPPED t) := by
    refine hk _ ?_
    simp only [List.mem_cons, List.not_mem_nil, or_false, forall_eq_or_imp, forall_eq]
    refine ⟨canon_ne_of_off ?_, canon_ne_of_off ?_, canon_ne_of_off ?_⟩ <;>
      simp only [R.CRG_STOPPED, R.CRG_RING_CTL, R.GEN_WR_CNT, R.GEN_IGN_CNT] <;> omega
  generalize s.ringCtlWrite t r v = w at *
  obtain ⟨⟨hf', -⟩, hctl, hcause, hstopped⟩ := stopCleared_spec w t hr
  rw [keepQueue_of_pending (by rw [hf', hf])] at hex
  refine ⟨_, hex, by rw [hf', hf], ?_, ?_, hcause, fun q hq hne => ?_⟩
  · rw [ringEn, rdB, hctl]
    exact hen.trans hv
  · rw [hstopped r hr]
    simp
  · rw [hstopped q hq, ringStopped, rdB, hstop]
    simp [hne, ringStopped, rdB]

theorem enable_fenced (s : State) (t r : Nat) (v : Word32) (ht : t < 64) (hr : r < 16) (hv : bit v 31 = true)
    (hfenced : (s.ringCtlWrite t r v).coreFenced ((s.ringCtlWrite t r v).ringHome t r) = true) :
    ∃ u, exec (.ringEnable t r v) s = .next u ∧ u.ringEn t r = false ∧ u.ringStopped t r = true ∧
      u.rdF (R.CRG_RING_STAT t r) 30 27 = 10 ∧ u.ringWaiting t r = [] ∧ u.mem = s.mem := by
  obtain ⟨⟨hf, -⟩, -⟩ := ringCtlWrite_spec s v ht hr
  have hex := exec_ringEnable (s := s) ht hr hv
  rw [if_pos hfenced] at hex
  generalize s.ringCtlWrite t r v = w at *
  obtain ⟨⟨hf', -⟩, -⟩ := stopCleared_spec w t hr
  obtain ⟨hen, hstop, hwait, hcause, -, hmem, hpend⟩ := ringStop_spec (w.stopCleared t r) ht hr (cause := 2) (by decide) none
  rw [keepQueue_of_pending (hpend.trans (by rw [hf', hf]))] at hex
  exact ⟨_, hex, hen, hstop, hcause, hwait, hmem.trans (by rw [hf', hf])⟩

theorem exec_ringDisable {s : State} {t r : Nat} {v : Word32} (ht : t < 64) (hr : r < 16) (hv : bit v 31 = false) :
    exec (.ringDisable t r v) s = keepQueue s (.next (if s.ringEn t r = true then (s.ringCtlWrite t r v).abortWaiting t r 1
      else s.ringCtlWrite t r v)) := congrArg (keepQueue s) (if_pos ⟨ht, hr, hv⟩)

theorem disable_disabled (s : State) (t r : Nat) (v : Word32) (ht : t < 64) (hr : r < 16) (hv : bit v 31 = false)
    (hen : s.ringEn t r = false) : ∃ u, exec (.ringDisable t r v) s = .next u ∧ RegWritten s u (R.CRG_RING_CTL t r) v := by
  have hw := plainWrite_spec s (R.CRG_RING_CTL t r) v (ringCtl_page t hr).2
  have hoff : ¬s.ringEn t r = true := by simp [hen]
  have hex := exec_ringDisable (s := s) ht hr hv
  rw [if_neg hoff, ringCtlWrite, if_neg hoff, keepQueue_of_pending (by rw [hw.1.1])] at hex
  exact ⟨_, hex, hw⟩

theorem disable_enabled (s : State) (t r : Nat) (v : Word32) (ht : t < 64) (hr : r < 16) (hv : bit v 31 = false)
    (hen : s.ringEn t r = true) :
    ∃ u, exec (.ringDisable t r v) s = .next u ∧ u.ringEn t r = false ∧
      u.rdF (R.CRG_RING_CTL t r) 30 0 = s.rdF (R.CRG_RING_CTL t r) 30 0 ∧ u.ringWaiting t r = [] ∧ u.mem = s.mem ∧ u.ms = s.ms ∧
      u.rd (R.CRG_RING_DONE t r) = s.rd (R.CRG_RING_DONE t r) + BitVec.ofNat 32 (s.ringWaiting t r).length := by
  obtain ⟨⟨hf, hk⟩, hoff, hrest⟩ := ringCtlWrite_spec s v ht hr
  have hex := exec_ringDisable (s := s) ht hr hv
  rw [if_pos hen] at hex
  have hdone : (s.ringCtlWrite t r v).rd (R.CRG_RING_DONE t r) = s.rd (R.CRG_RING_DONE t r) := by
    refine hk _ ?_
    simp only [List.mem_cons, List.not_mem_nil, or_false, forall_eq_or_imp, forall_eq]
    refine ⟨canon_ne_of_off ?_, canon_ne_of_off ?_, canon_ne_of_off ?_⟩ <;>
      simp only [R.CRG_RING_DONE, R.CRG_RING_CTL, R.GEN_WR_CNT, R.GEN_IGN_CNT] <;> omega
  generalize s.ringCtlWrite t r v = w at *
  have hwait : w.ringWaiting t r = s.ringWaiting t r := by rw [ringWaiting, ringOps, hf]; rfl
  obtain ⟨hregs, hmem, hpend⟩ := ringKeeps_abortWaiting w ht hr 1
  rw [keepQueue_of_pending (hpend.trans (by rw [hf]))] at hex
  refine ⟨_, hex, ?_, ?_, ringWaiting_abortWaiting w t r 1, hmem.trans (by rw [hf]), (abortWaiting_ms w t r 1).trans (by rw [hf]), ?_⟩
  · rw [ringEn, rdB, hregs _ (.inl rfl)]
    exact hoff.trans hv
  · rw [rdF, hregs _ (.inl rfl)]
    exact hrest hen
  · rw [abortWaiting_done w hr 1, hdone, hwait]

/-! ### Dependency counters (R111, R134) -/

theorem depCtrLo_held (s : State) (t n : Nat) (v : Word32) (ht : t < 64) (hn : n < 256) :
    ∃ u, exec (.depCtrLoWrite t n v) s = .next u ∧ u = { s with regs := u.regs, held := u.held } ∧
      Map.get? u.held (R.CRG_DEP_CTR_LO t n) = some v ∧ u.depCtr = s.depCtr ∧
      RegsKept s u [R.GEN_WR_CNT (0x10 + t)] ∧ u.rd (R.GEN_WR_CNT (0x10 + t)) = satAdd32 (s.rd (R.GEN_WR_CNT (0x10 + t))) 1 := by
  have hex : exec (.depCtrLoWrite t n v) s = execDepCtrLoWrite t n v s := rfl
  rw [execDepCtrLoWrite, if_pos ⟨ht, hn⟩] at hex
  exact ⟨_, hex, rfl, Map.get?_set_self _ _ _, rfl, kept_wr s _ _, countWrite_wr s _ false⟩

theorem depCtrHi_commits (s : State) (t n : Nat) (v : Word32) (ht : t < 64) (hn : n < 256) :
    ∃ u, exec (.depCtrHiWrite t n v) s = .next u ∧ u = { s with regs := u.regs, held := u.held, depCtr := u.depCtr } ∧
      (u.dep t n).toNat = (Map.get s.held ((s.dep t n).setWidth 32) (R.CRG_DEP_CTR_LO t n)).toNat + 2 ^ 32 * v.toNat ∧
      Map.get? u.held (R.CRG_DEP_CTR_LO t n) = none ∧
      (∀ t' n', n' < 256 → ¬(t' = t ∧ n' = n) → u.dep t' n' = s.dep t' n') ∧ RegsKept s u [R.GEN_WR_CNT (0x10 + t)] := by
  have hex : exec (.depCtrHiWrite t n v) s = execDepCtrHiWrite t n v s := rfl
  rw [execDepCtrHiWrite, if_pos ⟨ht, hn⟩] at hex
  obtain ⟨w, hw⟩ : ∃ w : State, w = { s.countWrite (0x10 + t) false with held := Map.erase s.held (R.CRG_DEP_CTR_LO t n) } := ⟨_, rfl⟩
  have hlo := (Map.get s.held ((s.dep t n).setWidth 32) (R.CRG_DEP_CTR_LO t n)).isLt
  obtain ⟨x, hx, hval⟩ : ∃ x : Word64, x = BitVec.ofNat 64 ((Map.get s.held ((s.dep t n).setWidth 32) (R.CRG_DEP_CTR_LO t n)).toNat + v.toNat * 2 ^ 32) ∧
      x.toNat = (Map.get s.held ((s.dep t n).setWidth 32) (R.CRG_DEP_CTR_LO t n)).toNat + 2 ^ 32 * v.toNat := by
    refine ⟨_, rfl, ?_⟩
    rw [BitVec.toNat_ofNat]
    omega
  have hstep : exec (.depCtrHiWrite t n v) s = keepQueue s (.next (w.depSet t n x)) := by
    rw [hex, hx, hw]
    rfl
  clear hex hx
  have hframe : w = { s with regs := w.regs, held := Map.erase s.held (R.CRG_DEP_CTR_LO t n) } := by rw [hw]; rfl
  have hkept : RegsKept s w [R.GEN_WR_CNT (0x10 + t)] := by rw [hw]; exact kept_wr s _ _
  clear hw
  have hpend : (w.depSet t n x).pending = s.pending := by rw [depSet, hframe]
  rw [keepQueue_of_pending hpend] at hstep
  refine ⟨_, hstep, by rw [depSet, hframe], ?_, ?_, fun t' n' hn' hne => ?_, hkept⟩
  · rw [dep_depSet _ _ _ _ _ _ hn hn, if_pos ⟨rfl, rfl⟩, hval]
  · rw [depSet, hframe]
    exact (Map.get?_erase ..).trans (if_pos rfl)
  · rw [dep_depSet _ _ _ _ _ _ hn hn', if_neg hne, dep, hframe]
    rfl

/-- Settles O6, clause by clause. -/
theorem ringRegisters : Obligations.RingRegisters :=
  ⟨doorbell_taken, doorbell_refused, doorbell_first, enable_starts, enable_fenced, disable_disabled, disable_enabled, depCtrLo_held,
    depCtrHi_commits⟩

end Sys2Proof.Proofs
end

section
/-! PROOFS. Event queues: delivery, CONS, flushes, enable, disable and the hold-off interval (O9). -/
namespace Sys2Proof.Machine
open Sys2Proof

namespace State

/-! ### What a write of the unified range may change (R146, R153, R157) -/

/-- Memory, the memory system, registers and free values change at most. -/
def MemStep (s t : State) : Prop := t = { s with mem := t.mem, ms := t.ms, regs := t.regs, freeCtr := t.freeCtr }

theorem memStep_refl (s : State) : MemStep s s := rfl

theorem memStep_trans {s t u : State} (h : MemStep s t) (h' : MemStep t u) : MemStep s u := by rw [MemStep, h', h]

theorem memStep_storeAcc (s : State) (x : Access) (bs : List Byte) : MemStep s (s.storeAcc x bs) := by
  obtain ⟨p, h⟩ := storeAcc_frame s x bs
  rw [MemStep, h]

theorem memStep_countDram (s : State) (wr : Bool) (a n : Nat) : MemStep s (s.countDram wr a n) := by
  rw [MemStep, (countDram_counts s wr a n).1]

theorem memStep_touch (s : State) (n : Nat) : MemStep s (s.touch n) := by rw [MemStep, touch_frame]

theorem memStep_askMove (s : State) (a : MoveAsk) : MemStep s (s.askMove a) := by rw [MemStep, askMove_frame]

theorem memStep_ms (s : State) (m : MemSys) : MemStep s { s with ms := m } := rfl

theorem memStep_wr (s : State) (a : Nat) (v : Word32) : MemStep s (s.wr a v) := rfl

theorem memStep_add64 (s : State) (lo n : Nat) : MemStep s (s.add64 lo n) := memStep_trans (memStep_wr s lo _) (memStep_wr _ (lo + 4) _)

theorem memStep_used (s : State) : MemStep s s.used := rfl

/-- A flash program that starts (R165, R175). -/
theorem memStep_program (s : State) (lt n : Nat) (m : Bool) : MemStep s (s.program lt n m) := by
  have hpage (v : State) : MemStep v (v.placePage lt) := memStep_trans (memStep_used v) (memStep_ms v.used _)
  exact memStep_trans (memStep_trans (memStep_trans (memStep_add64 s _ _) (memStep_add64 _ _ _)) (hpage _)) (memStep_ms _ _)

theorem memStep_takeFlash (s : State) (lt n : Nat) : MemStep s (s.takeFlash lt n) := memStep_ms s _

theorem memStep_takeFrame (s : State) (loc : Nat) (u : FrameUse) (o : Nat) : MemStep s (s.takeFrame loc u o) := memStep_ms s _

theorem memStep_tileSet (s : State) (n : Nat) (t : Tile) : MemStep s (s.tileSet n t) := memStep_ms s _

theorem memStep_ite {β : Type} {c : Prop} [Decidable c] {s : State} {p q : State × β} (hp : MemStep s p.1) (hq : MemStep s q.1) :
    MemStep s (if c then p else q).1 := by
  split
  · exact hp
  · exact hq

/-- A write of a tile is a step of the memory, or goes to the holder of an AWAY tile (R239). -/
theorem writeTile_step (s : State) (x : Access) : MemStep s (s.writeTile x).1 ∨ ∃ k, (s.writeTile x).1 = s.forward x k := by
  unfold writeTile
  extract_lets n old bs whole v o t ro dramOnly wait alloc
  have hs := memStep_refl s
  have hwait : ∀ held u, MemStep s u → MemStep s (wait held u) := fun _ u h => memStep_trans h (memStep_ms u _)
  clear_value bs whole dramOnly ro t o wait
  have hstore : ∀ u : State, MemStep s u → MemStep s (u.storeAcc x bs) := fun u h => memStep_trans h (memStep_storeAcc ..)
  have hcount : ∀ u : State, MemStep s u → MemStep s (u.countDram true x.addr bs.length) := fun u h =>
    memStep_trans h (memStep_countDram ..)
  have halloc : MemStep s alloc.1 := by
    simp only [alloc]
    refine memStep_ite hs (memStep_ite (memStep_ite hs (memStep_ite hs (memStep_ite hs ?_)))
      (memStep_ite (memStep_ite hs (hwait false s hs)) ?_))
    · split
      · exact hs
      · exact hstore _ (memStep_trans (memStep_trans (memStep_takeFlash s _ n) (memStep_tileSet ..)) (memStep_program ..))
    · split
      · exact memStep_ite hs (hwait _ _ hs)
      · exact hcount _ (hstore _ (memStep_trans (memStep_takeFrame s _ _ o) (memStep_tileSet ..)))
  clear_value alloc
  split
  · exact .inl (hcount _ (memStep_trans (hstore _ hs) (memStep_touch ..)))
  · exact .inl halloc
  · exact .inl (memStep_ite halloc hs)
  · exact .inl (hwait _ _ hs)
  · exact .inl (hwait _ _ hs)
  · exact .inl (memStep_ite (memStep_ite hs (memStep_ite hs (hstore _ (memStep_program ..))))
      (memStep_ite hs (hwait _ _ (memStep_askMove ..))))
  · split
    · exact .inl (hwait _ _ hs)
    · exact .inr ⟨_, rfl⟩

/-- The event queues are as they were. -/
def EvqKept (s t : State) : Prop := t.evq = s.evq

theorem evqKept_refl (s : State) : EvqKept s s := rfl

theorem evqKept_trans (s t u : State) (h : EvqKept s t) (h' : EvqKept t u) : EvqKept s u := Eq.trans h' h

theorem evqKept_writeTile (s : State) (x : Access) : EvqKept s (s.writeTile x).1 := by
  rcases writeTile_step s x with h | ⟨k, h⟩
  · rw [EvqKept, h]
  · rw [h]
    unfold forward reqSend
    exact rel_ite rfl rfl

theorem evqKept_writeRange (s : State) (who : Nat) (op : Option Nat) (a : Nat) (bs : List Byte) :
    EvqKept s (s.writeRange who op a bs).1 := by
  refine foldl_rel_fst evqKept_refl evqKept_trans (fun acc p => ?_) _ (s, 0, 0)
  split
  · exact evqKept_refl _
  · split
    · exact evqKept_refl _
    · exact evqKept_writeTile ..

/-! ### A unit delivered (R129) -/

theorem evqKept_emit (s : State) (e : Emit) : EvqKept s (s.emit e) := by
  obtain ⟨r, h⟩ := emit_frame s e
  rw [EvqKept, h]

theorem evqKept_writeUnit (t q pos : Nat) (s : State) (b : List Byte) : EvqKept s (writeUnit t q pos s b) :=
  rel_ite (evqKept_emit s _) (evqKept_writeRange s ..)

/-- A host write counts its bytes (R512) and changes no other register. -/
theorem kept_hostWrite (s : State) (a : Nat) (d : List Byte) (p : Bool) :
    RegsKept s (s.emit (.hostWrite a d p)) [R.HST_TX_BYTES_LO, R.HST_TX_BYTES_LO + 4] := add64_kept (s.emit1 _) _ _

/-- A queue's registers are none of those a host write counts in. -/
theorem kept_hostWrite_rd (s : State) (x : Nat) (d : List Byte) (p : Bool) {a : Nat} (ha : 0x10000 ≤ a) :
    (s.emit (.hostWrite x d p)).rd a = s.rd a := by
  refine kept_hostWrite s x d p a ?_
  simp only [List.mem_cons, List.not_mem_nil, or_false, forall_eq_or_imp, forall_eq]
  exact ⟨(canon_ne_of_low (by decide) ha).symm, (canon_ne_of_low (by decide) ha).symm⟩

/-- A unit for host memory is sent: a queue whose buffer stands there stays one. -/
def HostSent (t q : Nat) (s u : State) : Prop :=
  s.rdB (R.EVQ_CTL t q) 30 = true → RegsSent s u ∧ u.rd (R.EVQ_CTL t q) = s.rd (R.EVQ_CTL t q)

theorem hostSent_refl (t q : Nat) (s : State) : HostSent t q s s := fun _ => ⟨rfl, rfl⟩

theorem hostSent_trans (t q : Nat) (s u v : State) (h : HostSent t q s u) (h' : HostSent t q u v) : HostSent t q s v := by
  intro hl
  obtain ⟨hf, hc⟩ := h hl
  obtain ⟨hf', hc'⟩ := h' (by rw [rdB, hc]; exact hl)
  exact ⟨regsSent_trans _ _ _ hf hf', hc'.trans hc⟩

theorem evqCtl_ge (t q : Nat) : 0x10000 ≤ R.EVQ_CTL t q := by
  simp only [R.EVQ_CTL]
  omega

theorem writeUnit_host {s : State} {t q : Nat} (pos : Nat) (b : List Byte) (hl : s.rdB (R.EVQ_CTL t q) 30 = true) :
    writeUnit t q pos s b =
      s.emit (.hostWrite (s.rd64 (R.EVQ_BASE_LO t q) / 64 * 64 + pos % s.dlvUnits t q * 64) b false) := if_pos hl

theorem hostSent_writeUnit (t q pos : Nat) (s : State) (b : List Byte) : HostSent t q s (writeUnit t q pos s b) := by
  intro hl
  rw [writeUnit_host pos b hl]
  obtain ⟨r, h⟩ := emit_frame s (.hostWrite (s.rd64 (R.EVQ_BASE_LO t q) / 64 * 64 + pos % s.dlvUnits t q * 64) b false)
  exact ⟨by rw [h]; rfl, kept_hostWrite_rd s _ b false (evqCtl_ge t q)⟩

/-! ### Units of an item (R124, R129) -/

/-- The header put in leaves the number of units. -/
theorem stampHdr_units (b : List Byte) (gap : Nat) (phase : Bool) : (stampHdr b gap phase).length / 64 = b.length / 64 := by
  rw [stampHdr, List.length_append, length_leBytes, List.length_drop]
  omega

theorem length_unitsOf (b : List Byte) : (unitsOf b).length = b.length / 64 := by simp [unitsOf]

/-- An item of one unit is that unit. -/
theorem unitsOf_one {b : List Byte} (h : b.length = 64) : unitsOf b = [b] := by
  rw [unitsOf, h, Nat.div_self (by decide), List.range_one, List.map_singleton, Nat.mul_zero, List.drop_zero, List.take_of_length_le h.le]

theorem length_stampHdr {b : List Byte} (gap : Nat) (phase : Bool) (h : 4 ≤ b.length) : (stampHdr b gap phase).length = b.length := by
  rw [stampHdr, List.length_append, length_leBytes, List.length_drop]
  omega

/-! ### The interrupt of a delivery (R138) -/

theorem evqGet_set (s : State) (t q : Nat) (e : EvQueue) : (s.evqSet t q e).evqGet t q = e := by
  rw [evqGet, evqSet, Map.get, Map.get?_set_self]
  rfl

theorem evqSet_others (s : State) (t q : Nat) (e : EvQueue) {k : Nat} (hk : k ≠ 16 * t + q) :
    Map.get? (s.evqSet t q e).evq k = Map.get? s.evq k := Map.get?_set_ne _ _ hk

/-- What a delivery's interrupt leaves of the queue: all but whether an interval runs and whether an interrupt waits for its end. -/
structure IrqOnly (s u : State) (t q : Nat) : Prop where
  frame : u = { s with evq := u.evq, outbox := u.outbox, msix := u.msix }
  queue : ∃ h w, u.evqGet t q = { s.evqGet t q with holdoff := h, irqWait := w }
  others : ∀ k, k ≠ 16 * t + q → Map.get? u.evq k = Map.get? s.evq k

/-- An interrupt of the queue sent now begins its interval. -/
theorem evqIrq_sent {s : State} {t q : Nat} (hie : s.rdB (R.EVQ_CTL t q) 19 = true) (hno : (s.evqGet t q).holdoff = false) :
    s.evqIrq t q = (s.evqSet t q { s.evqGet t q with holdoff := s.rdF (R.EVQ_CTL t q) 18 11 != 0, irqWait := false }).msixSend
      (fld (s.rd (R.EVQ_CTL t q)) 10 0) := by
  rw [rdB] at hie
  simp only [evqIrq, hie, hno, rdF, Bool.not_true, Bool.false_eq_true, if_false]

theorem msixSend_evq (s : State) (v : Nat) : (s.msixSend v).evq = s.evq ∧
    s.msixSend v = { s with outbox := (s.msixSend v).outbox, msix := (s.msixSend v).msix } := by
  obtain ⟨o, m, h⟩ := msixSend_frame s v
  rw [h]
  exact ⟨rfl, rfl⟩

theorem irqOnly_sent (s : State) (t q v : Nat) (h w : Bool) :
    IrqOnly s ((s.evqSet t q { s.evqGet t q with holdoff := h, irqWait := w }).msixSend v) t q := by
  obtain ⟨he, hf⟩ := msixSend_evq (s.evqSet t q { s.evqGet t q with holdoff := h, irqWait := w }) v
  refine ⟨by rw [hf]; rfl, ⟨h, w, ?_⟩, fun k hk => ?_⟩
  · rw [evqGet, he, ← evqGet, evqGet_set]
  · rw [he, evqSet_others _ _ _ _ hk]

theorem evqIrq_only (s : State) (t q : Nat) : IrqOnly s (s.evqIrq t q) t q := by
  unfold evqIrq
  simp only
  split_ifs
  · exact ⟨rfl, ⟨_, _, rfl⟩, fun _ _ => rfl⟩
  · exact ⟨rfl, ⟨_, _, evqGet_set ..⟩, fun k hk => evqSet_others _ _ _ _ hk⟩
  · exact irqOnly_sent ..

/-! ### A delivery (R129, R130) -/

/-- The units of an item are written: units 1 and up, then unit 0. -/
def unitsSent (s : State) (t q prod : Nat) (us : List (List Byte)) : State :=
  writeUnit t q prod (((List.range us.length).drop 1).foldl (fun u k => writeUnit t q (prod + k) u (us.getD k [])) s) (us.getD 0 [])

theorem unitsSent_evq (s : State) (t q prod : Nat) (us : List (List Byte)) : EvqKept s (s.unitsSent t q prod us) :=
  evqKept_trans _ _ _ (foldl_rel evqKept_refl evqKept_trans (fun u k _ => evqKept_writeUnit t q (prod + k) u _) s) (evqKept_writeUnit ..)

theorem unitsSent_host (s : State) (t q prod : Nat) (us : List (List Byte)) : HostSent t q s (s.unitsSent t q prod us) :=
  hostSent_trans _ _ _ _ _ (foldl_rel (hostSent_refl t q) (hostSent_trans t q) (fun u k _ => hostSent_writeUnit t q (prod + k) u _) s)
    (hostSent_writeUnit t q prod _ _)

/-- The queue as its item leaves it, the units of the item, and the state in which they have been written. -/
def itemGone (e : EvQueue) (i : EvItem) : EvQueue := { e with items := e.items.erase i, gap := 0, gapSince := 0 }

def itemUnitsAt (s : State) (t q : Nat) (i : EvItem) : List (List Byte) :=
  unitsOf (stampHdr i.bytes (s.evqGet t q).gap ((s.rd (R.EVQ_PROD t q)).toNat / s.dlvUnits t q % 2 == 0))

def itemSent (s : State) (t q : Nat) (i : EvItem) : State :=
  (s.evqSet t q (itemGone (s.evqGet t q) i)).unitsSent t q (s.rd (R.EVQ_PROD t q)).toNat (s.itemUnitsAt t q i)

/-- A delivery writes the units, advances PROD, and then signals. -/
theorem deliver_eq (s : State) (t q : Nat) (i : EvItem) : s.deliver t q i =
    ((s.itemSent t q i).wr (R.EVQ_PROD t q) (s.rd (R.EVQ_PROD t q) + BitVec.ofNat 32 (i.bytes.length / 64))).evqIrq t q := by
  have hlen : (s.itemUnitsAt t q i).length = i.bytes.length / 64 := (length_unitsOf _).trans (stampHdr_units ..)
  have hprod : BitVec.ofNat 32 ((s.rd (R.EVQ_PROD t q)).toNat + (s.itemUnitsAt t q i).length) =
      s.rd (R.EVQ_PROD t q) + BitVec.ofNat 32 (i.bytes.length / 64) := by
    rw [hlen, BitVec.ofNat_add, BitVec.ofNat_toNat, BitVec.setWidth_eq]
  rw [← hprod]
  rfl

theorem itemSent_queue (s : State) (t q : Nat) (i : EvItem) : (s.itemSent t q i).evqGet t q = itemGone (s.evqGet t q) i ∧
    ∀ k, k ≠ 16 * t + q → Map.get? (s.itemSent t q i).evq k = Map.get? s.evq k := by
  have he : (s.itemSent t q i).evq = (s.evqSet t q (itemGone (s.evqGet t q) i)).evq := unitsSent_evq ..
  refine ⟨?_, fun k hk => ?_⟩
  · rw [evqGet, he, ← evqGet, evqGet_set]
  · rw [he, evqSet_others _ _ _ _ hk]

/-- An item for host memory changes registers, its queue and what is sent, and not the queue's control. -/
theorem itemSent_host {s : State} {t q : Nat} (i : EvItem) (hl : s.rdB (R.EVQ_CTL t q) 30 = true) :
    s.itemSent t q i = { s with evq := (s.itemSent t q i).evq, regs := (s.itemSent t q i).regs, outbox := (s.itemSent t q i).outbox
                                msix := (s.itemSent t q i).msix } ∧
    (s.itemSent t q i).rd (R.EVQ_CTL t q) = s.rd (R.EVQ_CTL t q) := by
  obtain ⟨hf, hc⟩ := unitsSent_host (s.evqSet t q (itemGone (s.evqGet t q) i)) t q (s.rd (R.EVQ_PROD t q)).toNat (s.itemUnitsAt t q i) hl
  rw [← itemSent] at hf hc
  refine ⟨?_, hc⟩
  rw [hf]
  rfl

/-- An item of one unit for host memory is one write. -/
theorem itemSent_one {s : State} {t q : Nat} {i : EvItem} (hl : s.rdB (R.EVQ_CTL t q) 30 = true) (h1 : i.bytes.length = 64) :
    (s.itemSent t q i).outbox = s.outbox ++
      [.hostWrite (s.rd64 (R.EVQ_BASE_LO t q) / 64 * 64 + (s.rd (R.EVQ_PROD t q)).toNat % s.dlvUnits t q * 64)
        (stampHdr i.bytes (s.evqGet t q).gap ((s.rd (R.EVQ_PROD t q)).toNat / s.dlvUnits t q % 2 == 0)) false] := by
  have hus : s.itemUnitsAt t q i = [_] := unitsOf_one ((length_stampHdr _ _ (by omega)).trans h1)
  rw [itemSent, hus]
  exact congrArg State.outbox (writeUnit_host (s := s.evqSet t q (itemGone (s.evqGet t q) i)) _ _ hl)

/-! ### EVQ_CTL (R138) -/

/-- A bit written with the value it has keeps it, in a register whose fields are not cleared by writing 1. -/
theorem bit_writeFields_same {fs : List Fld} {old v : Word32} {i : Nat} (hfit : FieldsFit fs) (hno : ∀ f ∈ fs, f.acc ≠ .w1c) (hi : i < 32)
    (h : bit v i = bit old i) : bit (writeFields fs old v).1 i = bit old i := by
  by_cases hin : ∃ f ∈ fs, f.lo ≤ i ∧ i ≤ f.hi
  · obtain ⟨f, hf, hlo, hhi⟩ := hin
    have hacc := hno f hf
    rw [bit_writeFields_in old v hfit hf hlo hhi]
    unfold fieldBit
    cases hk : f.acc with
    | rw => simp only [h, ite_self]
    | w1c => exact absurd hk hacc
    | w1s => rfl
    | ro => rfl
  · exact bit_writeFields_reserved old v hi fun f hf => by
      by_contra hout
      exact hin ⟨f, hf, by omega, by omega⟩

theorem fieldsAt_evqCtl {t q : Nat} (ht : t < 64) (hq : q < 16) : fieldsAt (R.EVQ_CTL t q) =
    [rw 31 31, rw 30 30, .mk .rw 27 24 6 16, .mk .rw 23 20 2 12, rw 19 19, rw 18 11, rw 10 0] := by
  have hrow : ∀ q, q < 16 → (findRow (blkRows .evq) (0x208 + 64 * q)).map (·.fields) =
      some [rw 31 31, rw 30 30, .mk .rw 27 24 6 16, .mk .rw 23 20 2 12, rw 19 19, rw 18 11, rw 10 0] := by decide +kernel
  exact fieldsAt_block (r := ⟨0x50, 64, .evq, 0xe⟩) (by decide) ht (by omega) (by omega) (hrow q hq)

theorem evqCtl_page (t : Nat) {q : Nat} (hq : q < 16) : R.EVQ_CTL t q / 4096 = 0x50 + t ∧ 256 ≤ R.EVQ_CTL t q % 4096 := by
  simp only [R.EVQ_CTL]
  omega

/-- LOC, CAP and DLV of EVQ_CTL. -/
def evqFixed : Word32 := 0x4FF00000#32

/-- A plain write of EVQ_CTL: EN is what is written, and a bit written as it stands is as it was. -/
theorem evqCtl_plain (s : State) {t q : Nat} (v : Word32) (ht : t < 64) (hq : q < 16) :
    OnlyRegs s (s.plainWrite (R.EVQ_CTL t q) v) [R.EVQ_CTL t q, R.GEN_WR_CNT (0x50 + t), R.GEN_IGN_CNT (0x50 + t)] ∧
    (s.plainWrite (R.EVQ_CTL t q) v).evqEn t q = bit v 31 ∧
    ∀ i, i < 32 → bit v i = bit (s.rd (R.EVQ_CTL t q)) i →
      bit ((s.plainWrite (R.EVQ_CTL t q) v).rd (R.EVQ_CTL t q)) i = bit (s.rd (R.EVQ_CTL t q)) i := by
  obtain ⟨hpage, hoff⟩ := evqCtl_page t hq
  obtain ⟨hregs, hval, -⟩ := plainWrite_spec s (R.EVQ_CTL t q) v hoff
  rw [hpage] at hregs
  refine ⟨hregs, rdB_plainWrite_rw s v hoff (hi := 31) (lo := 31) (by simp [fieldsAt_evqCtl ht hq]) (by decide) (by decide), fun i hi h => ?_⟩
  rw [hval]
  refine bit_writeFields_same (fieldsAt_fit _) ?_ hi h
  rw [fieldsAt_evqCtl ht hq]
  decide

/-- What is written of EVQ_CTL while EN is 1: LOC, CAP and DLV as they stand. -/
def evqCtlTaken (s : State) (t q : Nat) (v : Word32) : Word32 := (v &&& ~~~evqFixed) ||| (s.rd (R.EVQ_CTL t q) &&& evqFixed)

theorem bit_evqCtlTaken (s : State) (t q : Nat) (v : Word32) {i : Nat} (hi : i < 32) :
    bit (s.evqCtlTaken t q v) i = if bit evqFixed i then bit (s.rd (R.EVQ_CTL t q)) i else bit v i := by
  rw [evqCtlTaken, bit_or, bit_and, bit_and, bit_not _ hi]
  cases bit evqFixed i <;> simp

/-- A write of EVQ_CTL sets EN; of an enabled queue it leaves LOC, CAP and DLV. -/
theorem evqCtlWrite_spec (s : State) {t q : Nat} (v : Word32) (ht : t < 64) (hq : q < 16) :
    OnlyRegs s (s.evqCtlWrite t q v) [R.EVQ_CTL t q, R.GEN_WR_CNT (0x50 + t), R.GEN_IGN_CNT (0x50 + t)] ∧
    (s.evqCtlWrite t q v).evqEn t q = bit v 31 ∧
    (s.evqEn t q = true → (s.evqCtlWrite t q v).rd (R.EVQ_CTL t q) &&& evqFixed = s.rd (R.EVQ_CTL t q) &&& evqFixed) := by
  by_cases hen : s.evqEn t q = true
  · obtain ⟨⟨hf, hk⟩, hon, hsame⟩ := evqCtl_plain s (s.evqCtlTaken t q v) ht hq
    have hw : s.evqCtlWrite t q v = if v &&& evqFixed != s.rd (R.EVQ_CTL t q) &&& evqFixed
        then (s.plainWrite (R.EVQ_CTL t q) (s.evqCtlTaken t q v)).bump (R.GEN_IGN_CNT (0x50 + t))
        else s.plainWrite (R.EVQ_CTL t q) (s.evqCtlTaken t q v) := if_pos hen
    generalize s.plainWrite (R.EVQ_CTL t q) (s.evqCtlTaken t q v) = u at *
    have hbump : OnlyRegs u (s.evqCtlWrite t q v) [R.GEN_IGN_CNT (0x50 + t)] := by
      rw [hw]
      split
      · exact ⟨rfl, kept_wr u _ _⟩
      · exact ⟨rfl, kept_refl u _⟩
    obtain ⟨hf', hk'⟩ := hbump
    have hctl : (s.evqCtlWrite t q v).rd (R.EVQ_CTL t q) = u.rd (R.EVQ_CTL t q) := by
      refine hk' _ fun b hb => ?_
      rw [List.mem_singleton.1 hb]
      exact canon_ne_of_off (by simp only [R.EVQ_CTL, R.GEN_IGN_CNT]; omega)
    refine ⟨⟨by rw [hf', hf], kept_trans hk hk' (by simp) (by simp)⟩, ?_, fun _ => BitVec.eq_of_getLsbD_eq fun i hi => ?_⟩
    · rw [evqEn, rdB, hctl]
      exact hon.trans ((bit_evqCtlTaken s t q v (by decide)).trans (if_neg (by decide)))
    · show bit _ i = bit _ i
      rw [bit_and, bit_and, hctl]
      cases hb : bit evqFixed i with
      | false => simp
      | true => rw [hsame i hi (by rw [bit_evqCtlTaken s t q v hi, if_pos hb])]
  · have hw : s.evqCtlWrite t q v = s.plainWrite (R.EVQ_CTL t q) v := if_neg hen
    rw [hw]
    obtain ⟨hregs, hon, -⟩ := evqCtl_plain s v ht hq
    exact ⟨hregs, hon, fun h => absurd h hen⟩

end State
end Sys2Proof.Machine

namespace Sys2Proof.Proofs
open Sys2Proof Sys2Proof.Machine Sys2Proof.Machine.State

/-! ### The clauses of O9: delivery and CONS (R129, R130, R137) -/

theorem event_delivered (s : State) (t q : Nat) (i : EvItem) (hnext : State.nextItem s.ft (s.evqGet t q) = some i) (hen : s.evqEn t q = true)
    (hroom : i.bytes.length / 64 ≤ s.dlvFree t q) (hreach : s.rdB (R.EVQ_CTL t q) 30 = true → s.hostReach = true) :
    ∃ u, exec (.eventDeliver t q) s = .next u ∧
      (u.evqGet t q).items = (s.evqGet t q).items.erase i ∧ (u.evqGet t q).gap = 0 ∧ (u.evqGet t q).nextNo = (s.evqGet t q).nextNo ∧
      u.rd (R.EVQ_PROD t q) = s.rd (R.EVQ_PROD t q) + BitVec.ofNat 32 (i.bytes.length / 64) ∧
      (∀ k, k ≠ 16 * t + q → Map.get? u.evq k = Map.get? s.evq k) ∧
      (s.rdB (R.EVQ_CTL t q) 30 = true → u = { s with evq := u.evq, outbox := u.outbox, regs := u.regs, msix := u.msix }) ∧
      (s.rdB (R.EVQ_CTL t q) 30 = true → s.rdB (R.EVQ_CTL t q) 19 = false → i.bytes.length = 64 →
        u.outbox = s.outbox ++ [.hostWrite (s.rd64 (R.EVQ_BASE_LO t q) / 64 * 64 + (s.rd (R.EVQ_PROD t q)).toNat % s.dlvUnits t q * 64)
          (State.stampHdr i.bytes (s.evqGet t q).gap ((s.rd (R.EVQ_PROD t q)).toNat / s.dlvUnits t q % 2 == 0)) false]) := by
  have hloc : s.rdB (R.EVQ_CTL t q) 30 = false ∨ s.hostReach = true := (Bool.eq_false_or_eq_true _).symm.imp_right hreach
  have hex : exec (.eventDeliver t q) s = keepQueue s (.next (s.deliver t q i)) := by
    show execEventDeliver t q s = _
    rw [execEventDeliver, hnext]
    exact congrArg (keepQueue s) (if_pos ⟨hen, hroom, hloc⟩)
  obtain ⟨hq, hothers⟩ := itemSent_queue s t q i
  have hhost (hl : s.rdB (R.EVQ_CTL t q) 30 = true) := itemSent_host (s := s) i hl
  have hone (hl : s.rdB (R.EVQ_CTL t q) 30 = true) (h1 : i.bytes.length = 64) := itemSent_one (s := s) hl h1
  rw [deliver_eq, keepQueue_of_next] at hex
  generalize s.itemSent t q i = w at *
  generalize hprod : s.rd (R.EVQ_PROD t q) + BitVec.ofNat 32 (i.bytes.length / 64) = prod at *
  obtain ⟨hf, ⟨h, b, hqueue⟩, hrest⟩ := evqIrq_only (w.wr (R.EVQ_PROD t q) prod) t q
  have hquiet (hl : s.rdB (R.EVQ_CTL t q) 30 = true) (hie : s.rdB (R.EVQ_CTL t q) 19 = false) :
      ((w.wr (R.EVQ_PROD t q) prod).evqIrq t q).outbox = w.outbox := by
    have hctl : bit ((w.wr (R.EVQ_PROD t q) prod).rd (R.EVQ_CTL t q)) 19 = false := by
      rw [rd_wr_ne _ _ (canon_ne_of_off (by simp only [R.EVQ_CTL, R.EVQ_PROD]; omega)), (hhost hl).2]
      exact hie
    rw [evqIrq]
    simp only [hctl, Bool.not_false, if_true]
    rfl
  generalize (w.wr (R.EVQ_PROD t q) prod).evqIrq t q = u at *
  have hgone : u.evqGet t q = { itemGone (s.evqGet t q) i with holdoff := h, irqWait := b } := hqueue.trans (by rw [← hq]; rfl)
  have hno : (u.evqGet t q).nextNo = (s.evqGet t q).nextNo := by rw [hgone]; rfl
  refine ⟨_, hex, ?_, ?_, ?_, ?_, fun k hk => (hrest k hk).trans (hothers k hk), fun hl => ?_, fun hl hie h1 => ?_⟩
  · exact congrArg EvQueue.items hgone
  · exact congrArg EvQueue.gap hgone
  · exact hno
  · exact (rd_congr (by rw [hf]) _).trans (rd_wr_self w _ _)
  · rw [hf, (hhost hl).1]
    rfl
  · exact (hquiet hl hie).trans (hone hl h1)

theorem cons_taken (s : State) (t q : Nat) (v : Word32) (ht : t < 64) (hq : q < 16)
    (h : (s.rd (R.EVQ_PROD t q) - v).toNat ≤ (s.rd (R.EVQ_PROD t q) - s.rd (R.EVQ_CONS t q)).toNat) :
    ∃ u, exec (.evqConsWrite t q v) s = .next u ∧ RegWritten s u (R.EVQ_CONS t q) v := by
  have hw := plainWrite_spec s (R.EVQ_CONS t q) v (by simp only [R.EVQ_CONS]; omega)
  have hex : exec (.evqConsWrite t q v) s = keepQueue s (.next (s.plainWrite (R.EVQ_CONS t q) v)) :=
    congrArg (keepQueue s) ((if_pos ⟨ht, hq⟩).trans (if_pos h))
  rw [keepQueue_of_pending (by rw [hw.1.1])] at hex
  exact ⟨_, hex, hw⟩

theorem cons_ignored (s : State) (t q : Nat) (v : Word32) (ht : t < 64) (hq : q < 16)
    (h : (s.rd (R.EVQ_PROD t q) - s.rd (R.EVQ_CONS t q)).toNat < (s.rd (R.EVQ_PROD t q) - v).toNat) :
    ∃ u, exec (.evqConsWrite t q v) s = .next u ∧ RegIgnored s u (R.EVQ_CONS t q) := by
  have hw := ignoredWrite_spec s (R.EVQ_CONS t q)
  have hex : exec (.evqConsWrite t q v) s = keepQueue s (.next (s.ignoredWrite (R.EVQ_CONS t q))) :=
    congrArg (keepQueue s) ((if_pos ⟨ht, hq⟩).trans (if_neg (Nat.not_le.2 h)))
  rw [keepQueue_of_pending (by rw [hw.1.1])] at hex
  exact ⟨_, hex, hw⟩

/-! ### Flushes (R131) -/

theorem flush_marks (s : State) (t q : Nat) (v : Word32) (ht : t < 64) (hq : q < 16) (hv : bit v 0 = true) :
    ∃ u, exec (.flush t q v) s = .next u ∧ u = { s with evq := u.evq, regs := u.regs } ∧
      u.evqGet t q = { s.evqGet t q with flushAt := some (s.evqGet t q).nextNo, gapSince := 0 } ∧
      (∀ k, k ≠ 16 * t + q → Map.get? u.evq k = Map.get? s.evq k) ∧ RegsKept s u [R.GEN_WR_CNT (0x50 + t), R.GEN_IGN_CNT (0x50 + t)] := by
  have hk := countWrite_kept s (0x50 + t) (v &&& 0xFFFFFFFE#32 != 0)
  obtain ⟨r, hr⟩ := countWrite_frame s (0x50 + t) (v &&& 0xFFFFFFFE#32 != 0)
  generalize hw : s.countWrite (0x50 + t) (v &&& 0xFFFFFFFE#32 != 0) = w at *
  have hget : w.evqGet t q = s.evqGet t q := by rw [evqGet, hr]; rfl
  have hex : exec (.flush t q v) s = keepQueue s (.next (w.evqSet t q { s.evqGet t q with flushAt := some (s.evqGet t q).nextNo, gapSince := 0 })) := by
    rw [← hget, ← hw]
    exact congrArg (keepQueue s) ((if_pos ⟨ht, hq⟩).trans (congrArg Host.Outcome.next (if_pos hv)))
  rw [keepQueue_of_pending (by rw [evqSet, hr])] at hex
  exact ⟨_, hex, by rw [evqSet, hr], evqGet_set .., fun k hk => (evqSet_others _ _ _ _ hk).trans (by rw [hr]), hk⟩

theorem flush_idle (s : State) (t q : Nat) (v : Word32) (ht : t < 64) (hq : q < 16) (hv : bit v 0 = false) :
    ∃ u, exec (.flush t q v) s = .next u ∧ OnlyRegs s u [R.GEN_WR_CNT (0x50 + t), R.GEN_IGN_CNT (0x50 + t)] := by
  have hk := countWrite_kept s (0x50 + t) (v &&& 0xFFFFFFFE#32 != 0)
  obtain ⟨r, hr⟩ := countWrite_frame s (0x50 + t) (v &&& 0xFFFFFFFE#32 != 0)
  have hex : exec (.flush t q v) s = keepQueue s (.next (s.countWrite (0x50 + t) (v &&& 0xFFFFFFFE#32 != 0))) :=
    congrArg (keepQueue s) ((if_pos ⟨ht, hq⟩).trans (congrArg Host.Outcome.next (if_neg (by simp [hv]))))
  rw [keepQueue_of_pending (by rw [hr])] at hex
  exact ⟨_, hex, by rw [hr], hk⟩

theorem flush_applied (s : State) (t q k : Nat) (_ : t < 64) (hq : q < 16) (hflush : (s.evqGet t q).flushAt = some k)
    (hdone : ∀ i ∈ (s.evqGet t q).items, i.no < k → i.due ≤ s.ft) :
    ∃ u, exec (.flushApply t q) s = .next u ∧ u = { s with evq := u.evq, regs := u.regs, outbox := u.outbox, msix := u.msix } ∧
      u.evqGet t q = { s.evqGet t q with items := (s.evqGet t q).items.filter (fun i => k ≤ i.no), gap := (s.evqGet t q).gapSince, flushAt := none } ∧
      u.rd (R.EVQ_FLUSH_CNT t q) =
        satAdd32 (s.rd (R.EVQ_FLUSH_CNT t q)) ((s.evqGet t q).items.filter (fun i => i.no < k)).length ∧
      u.rdB (R.INT_STAT (0x50 + t)) 2 = true ∧ RegsKept s u [R.EVQ_FLUSH_CNT t q, R.INT_STAT (0x50 + t)] := by
  have hall : ¬(s.evqGet t q).items.any (fun i => decide (i.no < k) && decide (s.ft < i.due)) = true := by
    simp only [List.any_eq_true, Bool.and_eq_true, decide_eq_true_eq, not_exists, not_and]
    exact fun i hi hno => BitVec.not_lt.2 (hdone i hi hno)
  have hex : exec (.flushApply t q) s = execFlushApply t q s := rfl
  simp only [execFlushApply, hflush, if_neg hall] at hex
  generalize ({ s.evqGet t q with items := (s.evqGet t q).items.filter (fun i => k ≤ i.no), gap := (s.evqGet t q).gapSince, flushAt := none } : EvQueue) = e
    at *
  generalize ((s.evqGet t q).items.filter (fun i => i.no < k)).length = n at *
  have hsent := regsSent_raise ((s.evqSet t q e).bump (R.EVQ_FLUSH_CNT t q) n) (0x50 + t) 2
  have hk := kept_trans (n := [R.EVQ_FLUSH_CNT t q, R.INT_STAT (0x50 + t)]) (kept_wr (s.evqSet t q e) (R.EVQ_FLUSH_CNT t q) _)
    (raise_kept ((s.evqSet t q e).bump (R.EVQ_FLUSH_CNT t q) n) (0x50 + t) 2) (by simp) (by simp)
  have hcnt := raise_kept ((s.evqSet t q e).bump (R.EVQ_FLUSH_CNT t q) n) (0x50 + t) 2 (R.EVQ_FLUSH_CNT t q) (fun b hb => by
    rw [List.mem_singleton.1 hb]
    exact canon_ne_of_off (by simp only [R.EVQ_FLUSH_CNT, R.INT_STAT]; omega))
  rw [bump_eq, rd_wr_self, ← bump_eq] at hcnt
  have hint := rdB_raise_self ((s.evqSet t q e).bump (R.EVQ_FLUSH_CNT t q) n) (0x50 + t) 2 (by decide)
  rw [keepQueue_of_pending (by rw [hsent]; rfl)] at hex
  exact ⟨_, hex, by rw [hsent]; rfl, by rw [evqGet, hsent]; exact evqGet_set s t q e, hcnt, hint, hk⟩

theorem flush_pending (s : State) (t q k : Nat) (i : EvItem) (hflush : (s.evqGet t q).flushAt = some k) (hi : i ∈ (s.evqGet t q).items)
    (hno : i.no < k) (hdue : s.ft < i.due) : exec (.flushApply t q) s = .next s := by
  have hany : (s.evqGet t q).items.any (fun i => decide (i.no < k) && decide (s.ft < i.due)) = true :=
    List.any_eq_true.2 ⟨i, hi, by simp [hno, hdue]⟩
  have hex : exec (.flushApply t q) s = execFlushApply t q s := rfl
  simp only [execFlushApply, hflush, if_pos hany] at hex
  exact hex

/-! ### Enable, disable (R127, R138) -/

theorem evq_enabled (s : State) (t q : Nat) (v : Word32) (ht : t < 64) (hq : q < 16) (hv : bit v 31 = true) (hen : s.evqEn t q = false) :
    let w := s.evqCtlWrite t q (v &&& 0x7FFFFFFF#32)
    w.evqCap t q ≤ w.poolFree →
    ∃ u, exec (.evqEnable t q v) s = .next u ∧ u = { s with evq := u.evq, regs := u.regs } ∧ u.evqEn t q = true ∧
      u.evqGet t q = EvQueue.none ∧ u.rd (R.EVQ_PROD t q) = 0 ∧ u.rd (R.EVQ_CONS t q) = 0 := by
  intro w hroom
  obtain ⟨⟨hf, -⟩, -⟩ := evqCtlWrite_spec s (v &&& 0x7FFFFFFF#32) ht hq
  have hex : exec (.evqEnable t q v) s =
      keepQueue s (.next ((((w.wrF (R.EVQ_CTL t q) 31 31 1).wr (R.EVQ_PROD t q) 0).wr (R.EVQ_CONS t q) 0).evqSet t q EvQueue.none)) :=
    congrArg (keepQueue s) ((if_pos ⟨ht, hq, hv⟩).trans ((if_neg (by simp [hen])).trans (if_pos hroom)))
  have hfw : w = { s with regs := w.regs } := hf
  clear_value w
  rw [keepQueue_of_pending (by show w.pending = s.pending; rw [hfw])] at hex
  have hcp : canon (R.EVQ_CTL t q) ≠ canon (R.EVQ_PROD t q) := canon_ne_of_off (by simp only [R.EVQ_CTL, R.EVQ_PROD]; omega)
  have hcc : canon (R.EVQ_CTL t q) ≠ canon (R.EVQ_CONS t q) := canon_ne_of_off (by simp only [R.EVQ_CTL, R.EVQ_CONS]; omega)
  have hpc : canon (R.EVQ_PROD t q) ≠ canon (R.EVQ_CONS t q) := canon_ne_of_off (by simp only [R.EVQ_PROD, R.EVQ_CONS]; omega)
  refine ⟨_, hex, ?_, ?_, evqGet_set .., ?_, rd_wr_self _ _ _⟩
  · rw [hfw]
    rfl
  · rw [evqEn, rdB, rd_evqSet, rd_wr_ne _ _ hcc, rd_wr_ne _ _ hcp, wrF_eq, rd_wr_self, bit_setFld _ _ _ _ _ (by decide)]
    rfl
  · rw [rd_evqSet, rd_wr_ne _ _ hpc, rd_wr_self]

theorem evq_allocErr (s : State) (t q : Nat) (v : Word32) (ht : t < 64) (hq : q < 16) (hv : bit v 31 = true) (hen : s.evqEn t q = false) :
    let w := s.evqCtlWrite t q (v &&& 0x7FFFFFFF#32)
    w.poolFree < w.evqCap t q →
    ∃ u, exec (.evqEnable t q v) s = .next u ∧ u = { s with regs := u.regs, outbox := u.outbox, msix := u.msix } ∧
      u.evqEn t q = false ∧ u.rd (R.EVQ_ALLOC_ERR t) = s.rd (R.EVQ_ALLOC_ERR t) ||| BitVec.ofNat 32 (2 ^ q) ∧
      u.rdB (R.INT_STAT (0x50 + t)) 1 = true := by
  intro w hroom
  obtain ⟨⟨hf, hk⟩, hoff, -⟩ := evqCtlWrite_spec s (v &&& 0x7FFFFFFF#32) ht hq
  have hex : exec (.evqEnable t q v) s =
      keepQueue s (.next ((w.setBits (R.EVQ_ALLOC_ERR t) (BitVec.ofNat 32 (2 ^ q))).raise (0x50 + t) 1)) :=
    congrArg (keepQueue s) ((if_pos ⟨ht, hq, hv⟩).trans ((if_neg (by simp [hen])).trans (if_neg (Nat.not_le.2 hroom))))
  have herr : w.rd (R.EVQ_ALLOC_ERR t) = s.rd (R.EVQ_ALLOC_ERR t) := by
    refine hk _ ?_
    simp only [List.mem_cons, List.not_mem_nil, or_false, forall_eq_or_imp, forall_eq]
    refine ⟨canon_ne_of_off ?_, canon_ne_of_off ?_, canon_ne_of_off ?_⟩ <;>
      simp only [R.EVQ_ALLOC_ERR, R.EVQ_CTL, R.GEN_WR_CNT, R.GEN_IGN_CNT] <;> omega
  have hfw : w = { s with regs := w.regs } := hf
  have hoff' : w.evqEn t q = false := hoff.trans (by rw [bit_and]; simp [show bit 0x7FFFFFFF#32 31 = false from rfl])
  clear_value w
  have hsent := regsSent_trans _ _ _ (regsSent_wr w (R.EVQ_ALLOC_ERR t) (w.rd (R.EVQ_ALLOC_ERR t) ||| BitVec.ofNat 32 (2 ^ q)))
    (regsSent_raise (w.setBits (R.EVQ_ALLOC_ERR t) (BitVec.ofNat 32 (2 ^ q))) (0x50 + t) 1)
  have hint := raise_kept (w.setBits (R.EVQ_ALLOC_ERR t) (BitVec.ofNat 32 (2 ^ q))) (0x50 + t) 1
  have hsame {a : Nat} (ha : a % 4096 ≠ 0x20) : ∀ b ∈ [R.INT_STAT (0x50 + t)], canon a ≠ canon b := fun b hb => by
    rw [List.mem_singleton.1 hb]
    exact canon_ne_of_off (by rw [intStat_off]; exact ha)
  rw [keepQueue_of_pending (by rw [hsent, hfw])] at hex
  refine ⟨_, hex, by rw [hsent, hfw], ?_, ?_, rdB_raise_self _ _ _ (by decide)⟩
  · rw [evqEn, rdB, hint _ (hsame (by simp only [R.EVQ_CTL]; omega)), setBits_eq,
      rd_wr_ne _ _ (canon_ne_of_off (by simp only [R.EVQ_CTL, R.EVQ_ALLOC_ERR]; omega))]
    exact hoff'
  · rw [hint _ (hsame (by simp only [R.EVQ_ALLOC_ERR]; omega)), setBits_eq, rd_wr_self, herr]

theorem evq_reenabled (s : State) (t q : Nat) (v : Word32) (ht : t < 64) (hq : q < 16) (hv : bit v 31 = true) (hen : s.evqEn t q = true) :
    ∃ u, exec (.evqEnable t q v) s = .next u ∧ u = { s with regs := u.regs } ∧
      u.rd (R.EVQ_CTL t q) &&& 0x4FF00000#32 = s.rd (R.EVQ_CTL t q) &&& 0x4FF00000#32 := by
  obtain ⟨⟨hf, -⟩, -, hfixed⟩ := evqCtlWrite_spec s v ht hq
  have hex : exec (.evqEnable t q v) s = keepQueue s (.next (s.evqCtlWrite t q v)) :=
    congrArg (keepQueue s) ((if_pos ⟨ht, hq, hv⟩).trans (if_pos hen))
  rw [keepQueue_of_pending (by rw [hf])] at hex
  exact ⟨_, hex, hf, hfixed hen⟩

theorem evq_disabled (s : State) (t q : Nat) (v : Word32) (ht : t < 64) (hq : q < 16) (hv : bit v 31 = false) :
    ∃ u, exec (.evqDisable t q v) s = .next u ∧ u = { s with evq := u.evq, regs := u.regs } ∧ u.evqEn t q = false ∧ u.evqGet t q = EvQueue.none ∧
      (∀ k, k ≠ 16 * t + q → Map.get? u.evq k = Map.get? s.evq k) := by
  obtain ⟨⟨hf, -⟩, hoff, -⟩ := evqCtlWrite_spec s v ht hq
  have hex : exec (.evqDisable t q v) s =
      keepQueue s (.next { s.evqCtlWrite t q v with evq := Map.erase (s.evqCtlWrite t q v).evq (16 * t + q) }) :=
    congrArg (keepQueue s) (if_pos ⟨ht, hq, hv⟩)
  generalize s.evqCtlWrite t q v = w at *
  rw [keepQueue_of_pending (by show w.pending = s.pending; rw [hf])] at hex
  refine ⟨_, hex, by rw [hf], hoff.trans hv, ?_, fun k hk => ?_⟩
  · rw [evqGet, Map.get, Map.get?_erase, if_pos rfl]
    rfl
  · rw [Map.get?_erase, if_neg hk, hf]

/-! ### Hold-off (R138) -/

theorem holdoff_ends (s : State) (t q : Nat) (hold : (s.evqGet t q).holdoff = true) (hwait : (s.evqGet t q).irqWait = false) :
    ∃ u, exec (.evqHoldoffExpiry t q) s = .next u ∧ u = { s with evq := u.evq } ∧
      u.evqGet t q = { s.evqGet t q with holdoff := false } ∧ (∀ k, k ≠ 16 * t + q → Map.get? u.evq k = Map.get? s.evq k) := by
  have hex : exec (.evqHoldoffExpiry t q) s = execEvqHoldoffExpiry t q s := rfl
  simp only [execEvqHoldoffExpiry, hold, hwait, Bool.false_eq_true, if_true, if_false] at hex
  refine ⟨_, hex, rfl, (evqGet_set ..).trans ?_, fun k hk => evqSet_others s t q _ hk⟩
  rw [← hwait]

theorem holdoff_sends (s : State) (t q : Nat) (hold : (s.evqGet t q).holdoff = true) (hwait : (s.evqGet t q).irqWait = true)
    (hie : s.rdB (R.EVQ_CTL t q) 19 = true) :
    ∃ u, exec (.evqHoldoffExpiry t q) s = .next u ∧ u = { s with evq := u.evq, outbox := u.outbox, msix := u.msix } ∧
      u.evqGet t q = { s.evqGet t q with holdoff := s.rdF (R.EVQ_CTL t q) 18 11 != 0, irqWait := false } ∧
      (∀ k, k ≠ 16 * t + q → Map.get? u.evq k = Map.get? s.evq k) := by
  have hex : exec (.evqHoldoffExpiry t q) s = execEvqHoldoffExpiry t q s := rfl
  simp only [execEvqHoldoffExpiry, hold, hwait, if_true] at hex
  obtain ⟨w, hw⟩ : ∃ w, w = s.evqSet t q { s.evqGet t q with holdoff := false, irqWait := false } := ⟨_, rfl⟩
  have hget : w.evqGet t q = { s.evqGet t q with holdoff := false, irqWait := false } := hw ▸ evqGet_set ..
  have hctl : w.rd (R.EVQ_CTL t q) = s.rd (R.EVQ_CTL t q) := by rw [hw, rd_evqSet]
  have hother (k : Nat) (hk : k ≠ 16 * t + q) : Map.get? w.evq k = Map.get? s.evq k := by rw [hw, evqSet_others _ _ _ _ hk]
  have hframe : w = { s with evq := w.evq } := by rw [hw]; rfl
  have hsent := evqIrq_sent (s := w) (t := t) (q := q) (by rw [rdB, hctl]; exact hie) (by rw [hget])
  obtain ⟨hf, -, hrest⟩ := evqIrq_only w t q
  rw [← hw, keepQueue_of_pending (by rw [hf, hframe])] at hex
  refine ⟨_, hex, by rw [hf, hframe], ?_, fun k hk => (hrest k hk).trans (hother k hk)⟩
  rw [hsent, evqGet, (msixSend_evq _ _).1, ← evqGet, evqGet_set, hget, rdF, hctl]
  rfl

/-- Settles O9, clause by clause. -/
theorem eventQueueCommands : Obligations.EventQueueCommands :=
  ⟨fun s t q i _ _ => event_delivered s t q i, cons_taken, cons_ignored, flush_marks, flush_idle, flush_applied,
    flush_pending, evq_enabled, evq_allocErr, evq_reenabled, evq_disabled, holdoff_ends, holdoff_sends⟩

end Sys2Proof.Proofs
end

section
/-! PROOFS. Admission: doorbells, decisions and the latched entry (O36). -/
namespace Sys2Proof.Machine
open Sys2Proof

namespace State

/-! ### Registers of the admission page (R398) -/

theorem fieldsAt_adm {t off : Nat} (ht : t < 64) (h : 0x100 ≤ off) (h' : off < 4096) {fs : List Fld}
    (hrow : (findRow (blkRows .adm) off).map (·.fields) = some fs) : fieldsAt (4096 * (0x90 + t) + off) = fs :=
  fieldsAt_block (r := ⟨0x90, 64, .adm, 0x10⟩) (by decide) ht h h' hrow

theorem fieldsAt_admProd {t : Nat} (ht : t < 64) : fieldsAt (R.ADM_RING_PROD t) = [rw 31 0] :=
  fieldsAt_adm ht (by decide) (by decide) (by decide +kernel)

theorem fieldsAt_admReqSel {t : Nat} (ht : t < 64) : fieldsAt (R.ADM_REQ_SEL t) = [rw 15 0] :=
  fieldsAt_adm ht (by decide) (by decide) (by decide +kernel)

/-- A register of the admission page beside which no queue's counts stand. -/
def AdmReg (t a : Nat) : Prop := a = R.ADM_RING_DONE t ∨ a = R.ADM_ACCEPT_CNT t ∨ a = R.ADM_REFUSE_CNT t

theorem admReg_off {t a : Nat} (h : AdmReg t a) : 0x110 ≤ a % 4096 ∧ a % 4096 < 0x130 ∧ 0x10000 ≤ a := by
  rcases h with rfl | rfl | rfl <;> simp only [R.ADM_RING_DONE, R.ADM_ACCEPT_CNT, R.ADM_REFUSE_CNT] <;> omega

/-! ### What a decision puts into effect (R387, R392) -/

/-- An item's arrival sends at most an interrupt, after what has gone out. -/
theorem outbox_storeItem (s : State) (t q prio : Nat) (bs : List Byte) : ∃ l, (s.storeItem t q prio bs).outbox = s.outbox ++ l := by
  unfold storeItem
  split
  · simp only
    split
    · refine ⟨[], ?_⟩
      split <;> exact (List.append_nil _).symm
    · exact outbox_raise ((s.evqSet t q _).bump (R.EVQ_GAP_CNT t q)) (0x50 + t) 0
  · exact ⟨[], (List.append_nil _).symm⟩

/-- The result fields of a record (R387). -/
def resultBytes (s : State) (d : Decision) : List Byte :=
  leBytes 1 d.result ++ leBytes 1 d.reason ++ leBytes 2 d.id ++ leBytes 4 d.retry ++ leBytes 8 (if d.result = 1 then s.ft.toNat else 0) ++
    leBytes 4 (s.workUs d.mdl)

/-- A decision is counted as its result says. -/
def admCounted (s : State) (t result : Nat) : State :=
  if result = 1 then s.bump (R.ADM_ACCEPT_CNT t)
  else if result = 2 then (s.bump (R.ADM_REFUSE_CNT t)).raise (0x90 + t) 0
  else s

/-- The result is written and the ADMIT item made. -/
def admAnswered (s : State) (t : Nat) (r : AdmRec) (at_ : Nat) (d : Decision) (bs : List Byte) : State :=
  (s.emit (.hostWrite (at_ + 0x40) (s.resultBytes d) false)).storeItem t (r.flags % 16) (r.flags / 16 % 4) bs

theorem admFinish_host {s : State} {t : Nat} (r : AdmRec) (at_ : Nat) (d : Decision) (hl : s.rdB (R.ADM_RING_CTL t) 30 = true) : ∃ bs,
    s.admFinish t r at_ d = ((s.admAnswered t r at_ d bs).wr (R.ADM_RING_DONE t)
      ((s.admAnswered t r at_ d bs).rd (R.ADM_RING_DONE t) + 1)).admCounted t d.result := by
  unfold admFinish
  simp only [hl, if_true]
  exact ⟨_, rfl⟩

theorem admAnswered_spec (s : State) (t : Nat) (r : AdmRec) (at_ : Nat) (d : Decision) (bs : List Byte) :
    s.admAnswered t r at_ d bs =
      { s with regs := (s.admAnswered t r at_ d bs).regs, outbox := (s.admAnswered t r at_ d bs).outbox
               msix := (s.admAnswered t r at_ d bs).msix, evq := (s.admAnswered t r at_ d bs).evq
               freeCtr := (s.admAnswered t r at_ d bs).freeCtr } ∧
    (∃ l, (s.admAnswered t r at_ d bs).outbox = s.outbox ++ .hostWrite (at_ + 0x40) (s.resultBytes d) false :: l) ∧
    ∀ a, AdmReg t a → (s.admAnswered t r at_ d bs).rd a = s.rd a := by
  obtain ⟨x, hx⟩ := emit_frame s (.hostWrite (at_ + 0x40) (s.resultBytes d) false)
  have hrd (a : Nat) (ha : 0x10000 ≤ a) := kept_hostWrite_rd s (at_ + 0x40) (s.resultBytes d) false ha
  unfold admAnswered
  generalize s.emit (.hostWrite (at_ + 0x40) (s.resultBytes d) false) = v at *
  obtain ⟨hf, hk⟩ := storeItem_spec v t (r.flags % 16) (r.flags / 16 % 4) bs
  obtain ⟨l, hl⟩ := outbox_storeItem v t (r.flags % 16) (r.flags / 16 % 4) bs
  have hq : r.flags % 16 < 16 := Nat.mod_lt _ (by decide)
  generalize r.flags % 16 = q at *
  refine ⟨by rw [hf, hx], ⟨l, ?_⟩, fun a ha => ?_⟩
  · rw [hl, hx, List.append_assoc]
    rfl
  · obtain ⟨h1, h2, h3⟩ := admReg_off ha
    rw [hk a ?_, hrd a h3]
    simp only [List.mem_cons, List.not_mem_nil, or_false, forall_eq_or_imp, forall_eq]
    refine ⟨canon_ne_of_off ?_, canon_ne_of_off ?_, canon_ne_of_off ?_⟩ <;>
      simp only [R.EVQ_GAP_CNT, R.EVQ_DISC_CNT, R.INT_STAT] <;> omega

/-- What counting a decision leaves. -/
theorem admCounted_spec (s : State) (t result : Nat) :
    RegsSent s (s.admCounted t result) ∧ (∃ l, (s.admCounted t result).outbox = s.outbox ++ l) ∧
    (s.admCounted t result).rd (R.ADM_RING_DONE t) = s.rd (R.ADM_RING_DONE t) ∧
    (result = 1 → (s.admCounted t result).rd (R.ADM_ACCEPT_CNT t) = satAdd32 (s.rd (R.ADM_ACCEPT_CNT t)) 1) ∧
    (result = 2 → (s.admCounted t result).rd (R.ADM_REFUSE_CNT t) = satAdd32 (s.rd (R.ADM_REFUSE_CNT t)) 1 ∧
      (s.admCounted t result).rdB (R.INT_STAT (0x90 + t)) 0 = true) := by
  have hda : canon (R.ADM_RING_DONE t) ≠ canon (R.ADM_ACCEPT_CNT t) :=
    canon_ne_of_off (by simp only [R.ADM_RING_DONE, R.ADM_ACCEPT_CNT]; omega)
  have hdr : canon (R.ADM_RING_DONE t) ≠ canon (R.ADM_REFUSE_CNT t) :=
    canon_ne_of_off (by simp only [R.ADM_RING_DONE, R.ADM_REFUSE_CNT]; omega)
  have hint {a : Nat} (ha : AdmReg t a) : ∀ b ∈ [R.INT_STAT (0x90 + t)], canon a ≠ canon b := fun b hb => by
    obtain ⟨h1, -⟩ := admReg_off ha
    rw [List.mem_singleton.1 hb]
    exact canon_ne_of_off (by rw [intStat_off]; omega)
  unfold admCounted
  by_cases h1 : result = 1
  · subst h1
    exact ⟨regsSent_wr .., ⟨[], (List.append_nil _).symm⟩, rd_wr_ne _ _ hda, fun _ => rd_wr_self _ _ _, nofun⟩
  · rw [if_neg h1]
    by_cases h2 : result = 2
    · rw [if_pos h2]
      have hk := raise_kept (s.bump (R.ADM_REFUSE_CNT t)) (0x90 + t) 0
      refine ⟨regsSent_trans _ _ _ (regsSent_wr ..) (regsSent_raise ..), outbox_raise (s.bump (R.ADM_REFUSE_CNT t)) _ _, ?_,
        fun h => absurd h h1, fun _ => ⟨?_, rdB_raise_self _ _ _ (by decide)⟩⟩
      · exact (hk _ (hint (.inl rfl))).trans (rd_wr_ne _ _ hdr)
      · exact (hk _ (hint (.inr (.inr rfl)))).trans (rd_wr_self _ _ _)
    · rw [if_neg h2]
      exact ⟨regsSent_refl s, ⟨[], (List.append_nil _).symm⟩, rfl, fun h => absurd h h1, fun h => absurd h h2⟩

/-- A decision put into effect for a ring in host memory: the result goes to the record, the record is done, and it is counted. -/
structure AdmDone (s u : State) (t at_ : Nat) (d : Decision) : Prop where
  frame : u = { s with regs := u.regs, outbox := u.outbox, msix := u.msix, evq := u.evq, freeCtr := u.freeCtr }
  written : ∃ l, u.outbox = s.outbox ++ .hostWrite (at_ + 0x40) (s.resultBytes d) false :: l
  done : u.rd (R.ADM_RING_DONE t) = s.rd (R.ADM_RING_DONE t) + 1
  accepted : d.result = 1 → u.rd (R.ADM_ACCEPT_CNT t) = satAdd32 (s.rd (R.ADM_ACCEPT_CNT t)) 1
  refused : d.result = 2 → u.rd (R.ADM_REFUSE_CNT t) = satAdd32 (s.rd (R.ADM_REFUSE_CNT t)) 1 ∧ u.rdB (R.INT_STAT (0x90 + t)) 0 = true

theorem admFinish_done {s : State} {t : Nat} (r : AdmRec) (at_ : Nat) (d : Decision) (hl : s.rdB (R.ADM_RING_CTL t) 30 = true) :
    AdmDone s (s.admFinish t r at_ d) t at_ d := by
  obtain ⟨bs, h⟩ := admFinish_host r at_ d hl
  obtain ⟨hf, ⟨l, hout⟩, hrd⟩ := admAnswered_spec s t r at_ d bs
  rw [h]
  generalize s.admAnswered t r at_ d bs = v at *
  have hda : canon (R.ADM_ACCEPT_CNT t) ≠ canon (R.ADM_RING_DONE t) :=
    canon_ne_of_off (by simp only [R.ADM_RING_DONE, R.ADM_ACCEPT_CNT]; omega)
  have hdr : canon (R.ADM_REFUSE_CNT t) ≠ canon (R.ADM_RING_DONE t) :=
    canon_ne_of_off (by simp only [R.ADM_RING_DONE, R.ADM_REFUSE_CNT]; omega)
  obtain ⟨hsent, ⟨l', hout'⟩, hdone, hacc, href⟩ :=
    admCounted_spec (v.wr (R.ADM_RING_DONE t) (v.rd (R.ADM_RING_DONE t) + 1)) t d.result
  have hincr := hdone.trans ((rd_wr_self v _ _).trans (congrArg (· + 1) (hrd _ (.inl rfl))))
  rw [rd_wr_ne _ _ hda, hrd _ (.inr (.inl rfl))] at hacc
  rw [rd_wr_ne _ _ hdr, hrd _ (.inr (.inr rfl))] at href
  refine ⟨by rw [hsent, hf]; rfl, ⟨l ++ l', ?_⟩, hincr, hacc, href⟩
  rw [hout', wr_outbox, hout, List.append_assoc]
  rfl

/-! ### Decisions (R389, R392) -/

/-- A record stands at the head of a tenant's enabled ring in host memory, which can be reached (R387). -/
structure HostRing (s : State) (t : Nat) : Prop where
  tenant : t < 64
  enabled : s.rdB (R.ADM_RING_CTL t) 31 = true
  host : s.rdB (R.ADM_RING_CTL t) 30 = true
  reach : s.hostReach = true
  waits : s.rd (R.ADM_RING_DONE t) ≠ s.rd (R.ADM_RING_PROD t)

/-- Such a record of the kind a command takes is decided. -/
theorem admRun_host {s : State} {t : Nat} (hr : HostRing s t) {b : List Byte} {kinds : Nat → Bool} (hk : kinds (admRecOf b).kind = true) :
    s.admRun t b true kinds =
      (s.admDecide t (admRecOf b)).2.admFinish t (admRecOf b) (s.admAt t) (s.admDecide t (admRecOf b)).1 := by
  obtain ⟨ht, hen, hl, hreach, hne⟩ := hr
  have hrec : s.admRecord t b true = some b := (if_pos ⟨ht, hen, hne⟩).trans ((if_pos hl).trans (if_pos hreach))
  simp only [admRun, hrec, hk, if_true]

/-- The state a decision is put into effect on has the registers and has sent what the state decided in has. -/
structure AdmState (s v : State) : Prop where
  regs : v.regs = s.regs
  outbox : v.outbox = s.outbox
  mem : v.mem = s.mem
  pending : v.pending = s.pending

/-- What a decision leaves, on the state it is decided in. -/
structure AdmLeft (s v u : State) (t : Nat) (d : Decision) : Prop where
  reqs : u.reqs = v.reqs
  ms : u.ms = v.ms
  mem : u.mem = s.mem
  pending : u.pending = s.pending
  written : ∃ l, u.outbox = s.outbox ++ .hostWrite (s.admAt t + 0x40) (v.resultBytes d) false :: l
  done : u.rd (R.ADM_RING_DONE t) = s.rd (R.ADM_RING_DONE t) + 1
  accepted : d.result = 1 → u.rd (R.ADM_ACCEPT_CNT t) = satAdd32 (s.rd (R.ADM_ACCEPT_CNT t)) 1
  refused : d.result = 2 → u.rd (R.ADM_REFUSE_CNT t) = satAdd32 (s.rd (R.ADM_REFUSE_CNT t)) 1 ∧ u.rdB (R.INT_STAT (0x90 + t)) 0 = true

theorem admRun_left {s v : State} {t : Nat} (hr : HostRing s t) {b : List Byte} {kinds : Nat → Bool} (hk : kinds (admRecOf b).kind = true)
    {d : Decision} (hd : s.admDecide t (admRecOf b) = (d, v)) (hv : AdmState s v) : AdmLeft s v (s.admRun t b true kinds) t d := by
  have hl : v.rdB (R.ADM_RING_CTL t) 30 = true := by rw [rdB, rd_congr hv.regs]; exact hr.host
  have hdone := admFinish_done (s := v) (admRecOf b) (s.admAt t) d hl
  rw [admRun_host hr hk, hd]
  generalize v.admFinish t (admRecOf b) (s.admAt t) d = u at *
  obtain ⟨hf, hw, hn, ha, href⟩ := hdone
  simp only [rd_congr hv.regs, hv.outbox] at hw hn ha href
  exact ⟨by rw [hf], by rw [hf], by rw [hf]; exact hv.mem, by rw [hf]; exact hv.pending, hw, hn, ha, href⟩

/-- The model a record names (R389). -/
structure AdmModel (s : State) (r : AdmRec) (g : GenModel) : Prop where
  range : admRangeOk r = true
  valid : bit (s.mdl r.mdl).ctl 31 = true
  model : s.genModel modelOwner (s.mdl r.mdl).addr.toNat = .ok g

/-- The frames such a record reserves (R389). -/
def admFrames (r : AdmRec) (g : GenModel) : Nat := cdiv r.maxLen 128 * g.lay.nlayer * g.lay.s

/-- A NEW record that passes every test takes the lowest free entry (R297, R389). -/
theorem admDecide_new {s : State} {t n x : Nat} {r : AdmRec} {g : GenModel} (hm : AdmModel s r g) (hk : r.kind = 0)
    (htest : s.admTest t r (admFrames r g) (prefillOf (s.mdl r.mdl) r.prompt) true = (0, x)) (hfree : s.freeReq = some n) :
    s.admDecide t r = (⟨1, 0, n, 0, r.mdl⟩, s.reqSet n (s.admEntry t (admFrames r g) r (s.mdl r.mdl).addr)) := by
  obtain ⟨hrange, hvalid, hg⟩ := hm
  refine (if_neg (by omega)).trans ((if_neg (by simp [hrange])).trans ?_)
  extract_lets m
  rw [if_pos (show bit m.ctl 31 = true from hvalid), show s.genModel modelOwner m.addr.toNat = .ok g from hg]
  refine (if_pos hk).trans ?_
  rw [← admFrames, show s.admTest t r (admFrames r g) (prefillOf m r.prompt) true = _ from htest, hfree]
  rfl

/-- One that fails a test is refused for its reason (R389, R393). -/
theorem admDecide_refused {s : State} {t e x : Nat} {r : AdmRec} {g : GenModel} (hm : AdmModel s r g) (hk : r.kind = 0)
    (htest : s.admTest t r (admFrames r g) (prefillOf (s.mdl r.mdl) r.prompt) true = (e, x)) (he : e ≠ 0) :
    s.admDecide t r = (⟨2, e, 0, x, r.mdl⟩, s) := by
  obtain ⟨hrange, hvalid, hg⟩ := hm
  obtain ⟨k, rfl⟩ := Nat.exists_eq_succ_of_ne_zero he
  refine (if_neg (by omega)).trans ((if_neg (by simp [hrange])).trans ?_)
  extract_lets m
  rw [if_pos (show bit m.ctl 31 = true from hvalid), show s.genModel modelOwner m.addr.toNat = .ok g from hg]
  refine (if_pos hk).trans ?_
  rw [← admFrames, show s.admTest t r (admFrames r g) (prefillOf m r.prompt) true = _ from htest]
  cases s.freeReq <;> rfl

/-- The entry of a request resumed (R283, R389). -/
def resumedEntry (s : State) (t : Nat) (r : AdmRec) (g : GenModel) (q : Req) : Req :=
  { s.admEntry t (admFrames r g) r (s.mdl r.mdl).addr with
    len := q.len, step := q.step, lastFt := q.lastFt, ttftAct := q.ttftAct, tbtMax := q.tbtMax,
    hostLate := q.hostLate, version := q.version, tokens := q.tokens, faults := q.faults, prompt := 0, resumed := true }

/-- A parked request whose record passes every test is taken up again. -/
theorem admDecide_resume {s : State} {t x : Nat} {r : AdmRec} {g : GenModel} {q : Req} (hm : AdmModel s r g) (hk : r.kind = 1)
    (hq : s.req? r.reqId = some q) (hown : q.tenant = t) (hparked : q.st = 4)
    (htest : s.admTest t r (admFrames r g) (cdiv (s.flashBytes q g * 2 ^ 23) 48) false = (0, x)) :
    s.admDecide t r = (⟨1, 0, r.reqId, 0, r.mdl⟩, (s.reqSet r.reqId (s.resumedEntry t r g q)).pinBlocks r.pt.toNat g.lay (blocksOf 0 q.len)) := by
  obtain ⟨hrange, hvalid, hg⟩ := hm
  refine (if_neg (by omega)).trans ((if_neg (by simp [hrange])).trans ?_)
  extract_lets m
  rw [if_pos (show bit m.ctl 31 = true from hvalid), show s.genModel modelOwner m.addr.toNat = .ok g from hg]
  refine (if_neg (by omega)).trans ?_
  rw [hq]
  refine (if_pos ⟨hown, hparked⟩).trans ?_
  rw [← admFrames, htest]
  rfl

/-- A finished request is released (R389). -/
theorem admDecide_release {s : State} {t : Nat} {r : AdmRec} {q : Req} (hk : r.kind = 2) (hver : r.ver = 1) (hflag : r.flags / 64 % 2 = 0)
    (hq : s.req? r.reqId = some q) (hown : q.tenant = t) (hend : q.st = 5 ∨ q.st = 6) :
    s.admDecide t r = (⟨3, 0, r.reqId, 0, q.mdl⟩, { s.noteFreed q false true true with reqs := Map.erase s.reqs r.reqId }) := by
  refine (if_pos hk).trans ((if_neg (by omega)).trans ?_)
  rw [hq]
  exact if_pos ⟨hown, hend⟩

/-- Pinning blocks changes the memory system alone. -/
theorem pinBlocks_frame (s : State) (pt : Nat) (l : KvLay) (is_ : List Nat) :
    s.pinBlocks pt l is_ = { s with ms := (s.pinBlocks pt l is_).ms } := by
  refine foldl_rel (R := fun s u => u = { s with ms := u.ms }) (fun _ => rfl) (fun _ _ _ h h' => by rw [h', h]) (fun u n _ => ?_) s
  unfold pinTile
  simp only
  split
  · rfl
  · rw [askMove_frame]
  · rfl

/-! ### The requests a decision leaves -/

theorem req?_set (s : State) (n : Nat) (q : Req) (k : Nat) : (s.reqSet n q).req? k = if k = n then some q else s.req? k :=
  Map.get?_set ..

end State
end Sys2Proof.Machine

namespace Sys2Proof.Proofs
open Sys2Proof Sys2Proof.Machine Sys2Proof.Machine.State

/-! ### The clauses of O36: doorbells (R104, R387) -/

theorem admDoorbell_enabled (s : State) (t : Nat) (v : Word32) (ht : t < 64) (hen : s.rdB (R.ADM_RING_CTL t) 31 = true) :
    ((v - s.rd (R.ADM_RING_DONE t)).toNat ≤ 2 ^ s.rdF (R.ADM_RING_CTL t) 19 16 →
      (s.rd (R.ADM_RING_PROD t) - s.rd (R.ADM_RING_DONE t)).toNat ≤ (v - s.rd (R.ADM_RING_DONE t)).toNat →
      ∃ u, exec (.admDoorbell t v) s = .next u ∧ RegWritten s u (R.ADM_RING_PROD t) v) ∧
    ((2 ^ s.rdF (R.ADM_RING_CTL t) 19 16 < (v - s.rd (R.ADM_RING_DONE t)).toNat ∨
        (v - s.rd (R.ADM_RING_DONE t)).toNat < (s.rd (R.ADM_RING_PROD t) - s.rd (R.ADM_RING_DONE t)).toNat) →
      ∃ u, exec (.admDoorbell t v) s = .next u ∧ u = { s with regs := u.regs, outbox := u.outbox, msix := u.msix } ∧
        u.rdB (R.ADM_DB_ERR t) 0 = true ∧ u.rdB (R.INT_STAT (0x90 + t)) 2 = true ∧
        RegsKept s u [R.GEN_WR_CNT (0x90 + t), R.GEN_IGN_CNT (0x90 + t), R.ADM_DB_ERR t, R.INT_STAT (0x90 + t)]) := by
  constructor
  · intro hsize hback
    have hw := plainWrite_spec s (R.ADM_RING_PROD t) v (by simp only [R.ADM_RING_PROD]; omega)
    have hex : exec (.admDoorbell t v) s = keepQueue s (.next (s.plainWrite (R.ADM_RING_PROD t) v)) :=
      congrArg (keepQueue s) ((if_pos ht).trans ((if_pos hen).trans (if_pos ⟨hsize, hback⟩)))
    rw [keepQueue_of_pending (by rw [hw.1.1])] at hex
    exact ⟨_, hex, hw⟩
  · intro hbad
    obtain ⟨hf, hk, herr, hint⟩ := doorbellRefused_spec s (p := 0x90 + t) (a := R.ADM_RING_PROD t) (e := R.ADM_DB_ERR t) 1 (b := 2)
      (by simp only [R.ADM_RING_PROD]; omega) (by simp only [R.ADM_DB_ERR]; omega) (by decide)
    have hex : exec (.admDoorbell t v) s =
        keepQueue s (.next (s.doorbellRefused (0x90 + t) (R.ADM_RING_PROD t) (R.ADM_DB_ERR t) 1 2)) :=
      congrArg (keepQueue s) ((if_pos ht).trans ((if_pos hen).trans (if_neg (by omega))))
    rw [keepQueue_of_pending (by rw [hf])] at hex
    refine ⟨_, hex, hf, ?_, hint, hk⟩
    rw [rdB, herr, bit_or, show bit (1 : Word32) 0 = true from rfl, Bool.or_true]

theorem admDoorbell_disabled (s : State) (t : Nat) (v : Word32) (ht : t < 64) (hen : s.rdB (R.ADM_RING_CTL t) 31 = false) :
    ∃ u, exec (.admDoorbell t v) s = .next u ∧ u = { s with regs := u.regs } ∧ u.rd (R.ADM_RING_DONE t) = v ∧ u.rd (R.ADM_RING_PROD t) = v := by
  obtain ⟨⟨hf, -⟩, hv, -⟩ := plainWrite_spec s (R.ADM_RING_PROD t) v (by simp only [R.ADM_RING_PROD]; omega)
  rw [fieldsAt_admProd ht, writeFields_whole] at hv
  have hne : canon (R.ADM_RING_PROD t) ≠ canon (R.ADM_RING_DONE t) :=
    canon_ne_of_off (by simp only [R.ADM_RING_PROD, R.ADM_RING_DONE]; omega)
  have hex : exec (.admDoorbell t v) s = keepQueue s (.next ((s.plainWrite (R.ADM_RING_PROD t) v).wr (R.ADM_RING_DONE t) v)) :=
    congrArg (keepQueue s) ((if_pos ht).trans (if_neg (by simp [hen])))
  rw [keepQueue_of_pending (by rw [wr_pending, hf])] at hex
  exact ⟨_, hex, by rw [hf]; rfl, rd_wr_self _ _ _, (rd_wr_ne _ _ hne).trans hv⟩

/-! ### Records (R387, R389, R392) -/

theorem new_accepted (s : State) (t n x : Nat) (b : List Byte) (g : GenModel) : let r := admRecOf b
    let frames := State.cdiv r.maxLen 128 * g.lay.nlayer * g.lay.s
    b.length = 128 → t < 64 → s.rdB (R.ADM_RING_CTL t) 31 = true → s.rdB (R.ADM_RING_CTL t) 30 = true → s.hostReach = true →
    s.rd (R.ADM_RING_DONE t) ≠ s.rd (R.ADM_RING_PROD t) → r.kind = 0 → admRangeOk r = true → bit (s.mdl r.mdl).ctl 31 = true →
    s.genModel modelOwner (s.mdl r.mdl).addr.toNat = .ok g → s.admTest t r frames (State.prefillOf (s.mdl r.mdl) r.prompt) true = (0, x) →
    s.freeReq = some n →
    ∃ u, exec (.new t b true) s = .next u ∧ u.req? n = some (s.admEntry t frames r (s.mdl r.mdl).addr) ∧
      (∀ k, k ≠ n → u.req? k = s.req? k) ∧ u.rd (R.ADM_RING_DONE t) = s.rd (R.ADM_RING_DONE t) + 1 ∧
      u.rd (R.ADM_ACCEPT_CNT t) = satAdd32 (s.rd (R.ADM_ACCEPT_CNT t)) 1 ∧ u.mem = s.mem ∧ u.ms = s.ms ∧
      ∃ out l, u.outbox = s.outbox ++ .hostWrite (s.admAt t + 0x40) (1 :: 0 :: (leBytes 2 n ++ leBytes 4 0 ++ leBytes 8 s.ft.toNat ++ out)) false :: l := by
  intro r frames hlen ht hen hl hreach hne hk hrange hvalid hg htest hfree
  have hd := admDecide_new ⟨hrange, hvalid, hg⟩ hk htest hfree
  obtain ⟨hreqs, hms, hmem, hpend, ⟨l, hout⟩, hdone, hacc, -⟩ :=
    admRun_left (kinds := fun k => k == 0 || 3 ≤ k) ⟨ht, hen, hl, hreach, hne⟩ (by simp [show (admRecOf b).kind = 0 from hk]) hd ⟨rfl, rfl, rfl, rfl⟩
  have hex : exec (.new t b true) s = keepQueue s (.next (s.admRun t b true (fun k => k == 0 || 3 ≤ k))) :=
    congrArg (keepQueue s) (if_neg (by simp [hlen]))
  rw [keepQueue_of_pending hpend] at hex
  generalize s.admRun t b true (fun k => k == 0 || 3 ≤ k) = u at *
  have hreq (k : Nat) : u.req? k = if k = n then some (s.admEntry t frames r (s.mdl r.mdl).addr) else s.req? k := by
    rw [← req?_set, req?, req?, hreqs]
    rfl
  refine ⟨u, hex, by rw [hreq, if_pos rfl], fun k hk => by rw [hreq, if_neg hk], hdone, hacc rfl, hmem, hms,
    leBytes 4 ((s.reqSet n (s.admEntry t frames r (s.mdl r.mdl).addr)).workUs r.mdl), l, ?_⟩
  rw [hout]
  simp only [resultBytes, if_true, List.append_assoc]
  rfl

theorem new_refused (s : State) (t e x : Nat) (b : List Byte) (g : GenModel) : let r := admRecOf b
    let frames := State.cdiv r.maxLen 128 * g.lay.nlayer * g.lay.s
    b.length = 128 → t < 64 → s.rdB (R.ADM_RING_CTL t) 31 = true → s.rdB (R.ADM_RING_CTL t) 30 = true → s.hostReach = true →
    s.rd (R.ADM_RING_DONE t) ≠ s.rd (R.ADM_RING_PROD t) → r.kind = 0 → admRangeOk r = true → bit (s.mdl r.mdl).ctl 31 = true →
    s.genModel modelOwner (s.mdl r.mdl).addr.toNat = .ok g → s.admTest t r frames (State.prefillOf (s.mdl r.mdl) r.prompt) true = (e, x) → e ≠ 0 →
    e < 256 →
    ∃ u, exec (.new t b true) s = .next u ∧ u.reqs = s.reqs ∧ u.rd (R.ADM_RING_DONE t) = s.rd (R.ADM_RING_DONE t) + 1 ∧
      u.rd (R.ADM_REFUSE_CNT t) = satAdd32 (s.rd (R.ADM_REFUSE_CNT t)) 1 ∧ u.rdB (R.INT_STAT (0x90 + t)) 0 = true ∧ u.mem = s.mem ∧
      ∃ out l, u.outbox = s.outbox ++ .hostWrite (s.admAt t + 0x40) (2 :: BitVec.ofNat 8 e :: (leBytes 2 0 ++ leBytes 4 x ++ out)) false :: l := by
  intro r frames hlen ht hen hl hreach hne hk hrange hvalid hg htest he _
  have hd := admDecide_refused ⟨hrange, hvalid, hg⟩ hk htest he
  obtain ⟨hreqs, -, hmem, hpend, ⟨l, hout⟩, hdone, -, href⟩ :=
    admRun_left (kinds := fun k => k == 0 || 3 ≤ k) ⟨ht, hen, hl, hreach, hne⟩ (by simp [show (admRecOf b).kind = 0 from hk]) hd ⟨rfl, rfl, rfl, rfl⟩
  have hex : exec (.new t b true) s = keepQueue s (.next (s.admRun t b true (fun k => k == 0 || 3 ≤ k))) :=
    congrArg (keepQueue s) (if_neg (by simp [hlen]))
  rw [keepQueue_of_pending hpend] at hex
  obtain ⟨hcnt, hint⟩ := href rfl
  refine ⟨_, hex, hreqs, hdone, hcnt, hint, hmem, leBytes 8 0 ++ leBytes 4 (s.workUs r.mdl), l, ?_⟩
  rw [hout]
  simp only [resultBytes, show ¬2 = 1 by decide, if_false, List.append_assoc]
  rfl

theorem resume_accepted (s : State) (t x : Nat) (b : List Byte) (g : GenModel) (q : Req) : let r := admRecOf b
    let frames := State.cdiv r.maxLen 128 * g.lay.nlayer * g.lay.s
    b.length = 128 → t < 64 → s.rdB (R.ADM_RING_CTL t) 31 = true → s.rdB (R.ADM_RING_CTL t) 30 = true → s.hostReach = true →
    s.rd (R.ADM_RING_DONE t) ≠ s.rd (R.ADM_RING_PROD t) → r.kind = 1 → admRangeOk r = true → bit (s.mdl r.mdl).ctl 31 = true →
    s.genModel modelOwner (s.mdl r.mdl).addr.toNat = .ok g → s.req? r.reqId = some q → q.tenant = t → q.st = 4 →
    s.admTest t r frames (State.cdiv (s.flashBytes q g * 2 ^ 23) 48) false = (0, x) →
    ∃ u p, exec (.resume t b true) s = .next u ∧ u.req? r.reqId = some p ∧ p.st = 1 ∧ p.tenant = t ∧ p.len = q.len ∧ p.step = q.step ∧
      p.resumed = true ∧ p.kvFrames = frames ∧ (∀ k, k ≠ r.reqId → u.req? k = s.req? k) ∧ u.mem = s.mem ∧
      u.rd (R.ADM_RING_DONE t) = s.rd (R.ADM_RING_DONE t) + 1 ∧ u.rd (R.ADM_ACCEPT_CNT t) = satAdd32 (s.rd (R.ADM_ACCEPT_CNT t)) 1 := by
  intro r frames hlen ht hen hl hreach hne hk hrange hvalid hg hq hown hparked htest
  have hd := admDecide_resume ⟨hrange, hvalid, hg⟩ hk hq hown hparked htest
  have hpin := pinBlocks_frame (s.reqSet r.reqId (s.resumedEntry t r g q)) r.pt.toNat g.lay (blocksOf 0 q.len)
  generalize (s.reqSet r.reqId (s.resumedEntry t r g q)).pinBlocks r.pt.toNat g.lay (blocksOf 0 q.len) = v at *
  obtain ⟨hreqs, -, hmem, hpend, -, hdone, hacc, -⟩ :=
    admRun_left (kinds := fun k => k == 1) ⟨ht, hen, hl, hreach, hne⟩ (by simp [show (admRecOf b).kind = 1 from hk]) hd
      ⟨by rw [hpin]; rfl, by rw [hpin]; rfl, by rw [hpin]; rfl, by rw [hpin]; rfl⟩
  have hex : exec (.resume t b true) s = keepQueue s (.next (s.admRun t b true (fun k => k == 1))) :=
    congrArg (keepQueue s) (if_neg (by simp [hlen]))
  rw [keepQueue_of_pending hpend] at hex
  generalize s.admRun t b true (fun k => k == 1) = u at *
  have hreq (k : Nat) : u.req? k = if k = r.reqId then some (s.resumedEntry t r g q) else s.req? k := by
    rw [← req?_set, req?, req?, hreqs, hpin]
  exact ⟨u, s.resumedEntry t r g q, hex, by rw [hreq, if_pos rfl], rfl, rfl, rfl, rfl, rfl, rfl, fun k hk => by rw [hreq, if_neg hk], hmem, hdone,
    hacc rfl⟩

theorem release_frees (s : State) (t : Nat) (b : List Byte) (q : Req) : let r := admRecOf b
    b.length = 128 → t < 64 → s.rdB (R.ADM_RING_CTL t) 31 = true → s.rdB (R.ADM_RING_CTL t) 30 = true → s.hostReach = true →
    s.rd (R.ADM_RING_DONE t) ≠ s.rd (R.ADM_RING_PROD t) → r.kind = 2 → r.ver = 1 → r.flags / 64 % 2 = 0 → s.req? r.reqId = some q →
    q.tenant = t → (q.st = 5 ∨ q.st = 6) →
    ∃ u, exec (.release t b true) s = .next u ∧ u.req? r.reqId = none ∧ (∀ k, k ≠ r.reqId → u.req? k = s.req? k) ∧
      u.rd (R.ADM_RING_DONE t) = s.rd (R.ADM_RING_DONE t) + 1 ∧ u.mem = s.mem ∧ u.ms = s.ms := by
  intro r hlen ht hen hl hreach hne hk hver hflag hq hown hend
  have hd := admDecide_release hk hver hflag hq hown hend
  obtain ⟨hreqs, hms, hmem, hpend, -, hdone, -⟩ :=
    admRun_left (kinds := fun k => k == 2) ⟨ht, hen, hl, hreach, hne⟩ (by simp [show (admRecOf b).kind = 2 from hk]) hd ⟨rfl, rfl, rfl, rfl⟩
  have hex : exec (.release t b true) s = keepQueue s (.next (s.admRun t b true (fun k => k == 2))) :=
    congrArg (keepQueue s) (if_neg (by simp [hlen]))
  rw [keepQueue_of_pending hpend] at hex
  generalize s.admRun t b true (fun k => k == 2) = u at *
  have hreq (k : Nat) : u.req? k = if k = r.reqId then none else s.req? k := by
    rw [req?, hreqs]
    exact Map.get?_erase ..
  exact ⟨u, hex, by rw [hreq, if_pos rfl], fun k hk => by rw [hreq, if_neg hk], hdone, hmem, hms⟩

/-! ### The latched entry (R398) -/

theorem reqSel_latches (s : State) (t n : Nat) (q : Req) (ht : t < 64) (hn : n < 65536) (hq : s.req? n = some q) :
    ∃ u, exec (.admReqSelWrite t (BitVec.ofNat 32 n)) s = .next u ∧ u = { s with regs := u.regs, reqLatch := u.reqLatch } ∧
      Map.get u.reqLatch [] t = (if q.tenant = t then State.reqBytes q else []) ∧
      ∀ k, k ≠ t → Map.get u.reqLatch [] k = Map.get s.reqLatch [] k := by
  have hoff : 256 ≤ R.ADM_REQ_SEL t % 4096 := by simp only [R.ADM_REQ_SEL]; omega
  obtain ⟨⟨hf, -⟩, hv, -⟩ := plainWrite_spec s (R.ADM_REQ_SEL t) (BitVec.ofNat 32 n) hoff
  have hsel : (s.plainWrite (R.ADM_REQ_SEL t) (BitVec.ofNat 32 n)).rdF (R.ADM_REQ_SEL t) 15 0 = n := by
    have hfld : fld (BitVec.ofNat 32 n) 15 0 = n := by
      simp only [fld, bitsN, BitVec.toNat_ofNat]
      omega
    have hrw := fld_writeFields_rw (s.rd (R.ADM_REQ_SEL t)) (BitVec.ofNat 32 n) (fieldsAt_fit (R.ADM_REQ_SEL t)) (f := rw 15 0)
      (by simp [fieldsAt_admReqSel ht]) rfl
    rw [rdF, hv]
    refine hrw.trans ((if_pos ?_).trans hfld)
    show 0 ≤ fld (BitVec.ofNat 32 n) 15 0 ∧ fld (BitVec.ofNat 32 n) 15 0 ≤ 65535
    omega
  have hex : exec (.admReqSelWrite t (BitVec.ofNat 32 n)) s = execAdmReqSelWrite t (BitVec.ofNat 32 n) s := rfl
  rw [execAdmReqSelWrite, if_pos ht] at hex
  generalize s.plainWrite (R.ADM_REQ_SEL t) (BitVec.ofNat 32 n) = w at *
  have hreq : w.req? n = some q := by rw [req?, hf]; exact hq
  simp only [hsel, hreq] at hex
  rw [keepQueue_of_pending (by show w.pending = s.pending; rw [hf])] at hex
  refine ⟨_, hex, by rw [hf], ?_, fun k hk => ?_⟩
  · rw [Map.get_put, if_pos rfl]
  · rw [Map.get_put, if_neg hk, hf]

/-- Settles O36, clause by clause. -/
theorem admissionCommands : Obligations.AdmissionCommands :=
  ⟨admDoorbell_enabled, admDoorbell_disabled, new_accepted, new_refused, resume_accepted, release_frees, reqSel_latches⟩

end Sys2Proof.Proofs
end

section
/-! PROOFS. Region entries and quotas (O13). -/
namespace Sys2Proof.Machine
open Sys2Proof

namespace State

/-! ### Writes that are refused (R143, R147, R421) -/

/-- A write outside an administrator session is ignored, and ADMIN_DENY set (R421). -/
theorem adminDeny_spec (s : State) {a : Nat} (ha : a / 4096 = 0xD0) :
    (s.adminDeny a = { s with regs := (s.adminDeny a).regs }) ∧ (s.adminDeny a).rdB R.SEM_ERR 1 = true ∧
    RegsKept s (s.adminDeny a) [R.SEM_ERR, R.GEN_WR_CNT 0xD0, R.GEN_IGN_CNT 0xD0] := by
  obtain ⟨⟨hf, hk⟩, -, -⟩ := ignoredWrite_spec s a
  rw [ha] at hk
  rw [adminDeny, setBits_eq]
  refine ⟨by rw [hf]; rfl, ?_, kept_trans hk (kept_wr _ R.SEM_ERR _) (by simp +contextual) (by simp)⟩
  rw [rdB, rd_wr_self, bit_or, show bit (2 : Word32) 1 = true from rfl, Bool.or_true]

/-- A write the MPDs ignore sets its bit of MPD_ERR and the same bit of every MPD's INT_STAT, and of the rest only counts (R176). -/
theorem mpdErr_spec (s : State) (a : Nat) {b : Nat} (hb : b < 32) : RegsSent s (s.mpdErr a b) ∧ (s.mpdErr a b).rdB R.MPD_ERR b = true ∧
    ∀ m, m < 6 → (s.mpdErr a b).rdB (R.INT_STAT (0xD0 + m)) b = true := by
  obtain ⟨⟨hf, -⟩, -, -⟩ := ignoredWrite_spec s a
  have hset : RegsSent s ((s.ignoredWrite a).setBits R.MPD_ERR (BitVec.ofNat 32 (2 ^ b))) := by rw [RegsSent, setBits_eq, hf]; rfl
  unfold mpdErr
  refine ⟨regsSent_trans _ _ _ hset (regsSent_raiseAll _ _ _), ?_, fun m hm => rdB_raiseAll _ b hb (.inl ?_)⟩
  · rw [rdB, raiseAll_kept _ mpdPages b _ (by decide), setBits_eq, rd_wr_self, bit_or, bit_two_pow hb]
    simp
  · rw [mpdPages]
    revert m
    decide

/-! ### Writes that are taken (R144, R147) -/

/-- An owner's quotas just set read as they were set; every other owner's are as they were. -/
theorem owner_ownerSet (s : State) (o p : Nat) (v : Owner) : (s.ownerSet o v).owner p = if p = o then v else s.owner p := Map.get_put ..

/-- A write of MPD 16 is counted, and `m` put in place of what the write concerns. -/
theorem counted_spec (s : State) (i : Bool) (m : MemSys) : ∃ r, { s.countWrite 0xD0 i with ms := m } = { s with regs := r, ms := m } ∧
    RegsKept s { s with regs := r, ms := m } [R.GEN_WR_CNT 0xD0, R.GEN_IGN_CNT 0xD0] := by
  obtain ⟨r, hr⟩ := countWrite_frame s 0xD0 i
  have hk := countWrite_kept s 0xD0 i
  rw [hr] at hk ⊢
  exact ⟨r, rfl, hk⟩

/-- What a write of a region entry stores: its fields, bit 23 only for the model key domain (R143). -/
def rgnWord (v : Word32) : Word32 := if fld v 6 0 = 64 then v &&& 0xFF80007F#32 else v &&& 0xFF00007F#32

/-- Is an entry refused: a field out of range, or one that would move an allocated tile's owner, tier or VALID (R144)? -/
def RgnRefused (s : State) (v : Word32) : Prop :=
  fld v 30 29 = 3 ∨ 7 ≤ fld v 27 24 ∨ 64 < fld v 6 0 ∨
    (s.regionUsed (s.rdF R.MPD_RGN_SEL 12 0) = true ∧ (rgnWord v ^^^ s.rgn (s.rdF R.MPD_RGN_SEL 12 0)) &&& 0xE080007F#32 ≠ 0)

theorem exec_rgnDataWrite_closed {s : State} (v : Word32) (h : s.adminOpen = false) :
    exec (.rgnDataWrite v) s = keepQueue s (.next (s.adminDeny R.MPD_RGN_DATA)) := congrArg (keepQueue s) (if_pos h)

theorem exec_rgnDataWrite_refused {s : State} {v : Word32} (h : s.adminOpen = true) (hr : s.RgnRefused v) :
    exec (.rgnDataWrite v) s = keepQueue s (.next (s.mpdErr R.MPD_RGN_DATA 1)) :=
  congrArg (keepQueue s) ((if_neg (by simp [h])).trans (if_pos hr))

theorem exec_rgnDataWrite_taken {s : State} {v : Word32} (h : s.adminOpen = true) (hr : ¬s.RgnRefused v) :
    exec (.rgnDataWrite v) s = keepQueue s (.next { s.countWrite 0xD0 (rgnWord v != v) with
      ms := { (s.countWrite 0xD0 (rgnWord v != v)).ms with
        rgn := Map.put (s.countWrite 0xD0 (rgnWord v != v)).ms.rgn 0 (s.rdF R.MPD_RGN_SEL 12 0) (rgnWord v) } }) :=
  congrArg (keepQueue s) ((if_neg (by simp [h])).trans (if_neg hr))

/-- Is a quota refused: more than the live frames or tiles allow, or less than the owner holds (R147)? -/
def FlashRefused (s : State) (v : Word32) : Prop :=
  s.liveFlash < (s.ms.own.map (fun p => p.2.fQuota)).sum - (s.owner (s.rdF R.MPD_OWN_SEL 6 0)).fQuota + fld v 28 0 ∨
    fld v 28 0 < s.fUsed (s.rdF R.MPD_OWN_SEL 6 0)
def DramRefused (s : State) (v : Word32) : Prop :=
  s.liveFrames < (s.ms.own.map (fun p => p.2.dQuota)).sum - (s.owner (s.rdF R.MPD_OWN_SEL 6 0)).dQuota + fld v 24 0 +
      (s.ms.frames.filter (fun p => match p.2.use with | .replay _ => true | _ => false)).length +
      (if s.pwr.napArea then 66224 else 0) ∨
    fld v 24 0 < s.dUsed (s.rdF R.MPD_OWN_SEL 6 0)

theorem exec_quotaWrite_closed {s : State} (flash : Bool) (v : Word32) (h : s.adminOpen = false) :
    exec (.quotaWrite flash v) s = keepQueue s (.next (s.adminDeny (if flash then R.MPD_OWN_FLASH_QUOTA else R.MPD_OWN_DRAM_QUOTA))) :=
  congrArg (keepQueue s) (if_pos h)

theorem exec_flashQuota_refused {s : State} {v : Word32} (h : s.adminOpen = true) (hr : s.FlashRefused v) :
    exec (.quotaWrite true v) s = keepQueue s (.next (s.mpdErr R.MPD_OWN_FLASH_QUOTA 0)) :=
  congrArg (keepQueue s) ((if_neg (by simp [h])).trans ((if_pos rfl).trans (if_pos hr)))

theorem exec_flashQuota_taken {s : State} {v : Word32} (h : s.adminOpen = true) (hr : ¬s.FlashRefused v) :
    exec (.quotaWrite true v) s = keepQueue s (.next ((s.countWrite 0xD0 (decide (fld v 28 0 ≠ v.toNat))).ownerSet
      (s.rdF R.MPD_OWN_SEL 6 0) { s.owner (s.rdF R.MPD_OWN_SEL 6 0) with fQuota := fld v 28 0 })) :=
  congrArg (keepQueue s) ((if_neg (by simp [h])).trans ((if_pos rfl).trans (if_neg hr)))

theorem exec_dramQuota_refused {s : State} {v : Word32} (h : s.adminOpen = true) (hr : s.DramRefused v) :
    exec (.quotaWrite false v) s = keepQueue s (.next (s.mpdErr R.MPD_OWN_DRAM_QUOTA 0)) :=
  congrArg (keepQueue s) ((if_neg (by simp [h])).trans ((if_neg (by decide)).trans (if_pos hr)))

theorem exec_dramQuota_taken {s : State} {v : Word32} (h : s.adminOpen = true) (hr : ¬s.DramRefused v) :
    exec (.quotaWrite false v) s = keepQueue s (.next ((s.countWrite 0xD0 (decide (fld v 24 0 ≠ v.toNat))).ownerSet
      (s.rdF R.MPD_OWN_SEL 6 0) { s.owner (s.rdF R.MPD_OWN_SEL 6 0) with dQuota := fld v 24 0 })) :=
  congrArg (keepQueue s) ((if_neg (by simp [h])).trans ((if_neg (by decide)).trans (if_neg hr)))

end State
end Sys2Proof.Machine

namespace Sys2Proof.Proofs
open Sys2Proof Sys2Proof.Machine Sys2Proof.Machine.State

/-- A refused write ends in the state it leaves. -/
theorem deny_ends {s : State} {a : Nat} {c : Instr} (ha : a / 4096 = 0xD0) (hex : exec c s = keepQueue s (.next (s.adminDeny a))) :
    ∃ t, exec c s = .next t ∧ t = { s with regs := t.regs } ∧ t.rdB R.SEM_ERR 1 = true ∧
      RegsKept s t [R.SEM_ERR, R.GEN_WR_CNT 0xD0, R.GEN_IGN_CNT 0xD0] := by
  obtain ⟨hf, hb, hk⟩ := adminDeny_spec s ha
  exact ⟨_, hex.trans (keepQueue_of_pending (by rw [hf])), hf, hb, hk⟩

theorem mpdErr_ends {s : State} {a b : Nat} {c : Instr} (hb : b < 32) (hex : exec c s = keepQueue s (.next (s.mpdErr a b))) :
    ∃ t, exec c s = .next t ∧ t = { s with regs := t.regs, outbox := t.outbox, msix := t.msix } ∧ t.rdB R.MPD_ERR b = true ∧
      ∀ m, m < 6 → t.rdB (R.INT_STAT (0xD0 + m)) b = true := by
  obtain ⟨hf, herr, hint⟩ := mpdErr_spec s a hb
  exact ⟨_, hex.trans (keepQueue_of_pending (by rw [hf])), hf, herr, hint⟩

/-- RGN_DATA_WRITE of an entry the rules allow (R143, R144). -/
theorem region_taken (s : State) (v : Word32) (h : s.adminOpen = true) (hr : ¬s.RgnRefused v) :
    ∃ t, exec (.rgnDataWrite v) s = .next t ∧ t = { s with regs := t.regs, ms := { s.ms with rgn := t.ms.rgn } } ∧
      t.rgn (s.rdF R.MPD_RGN_SEL 12 0) = rgnWord v ∧
      (∀ r, r ≠ s.rdF R.MPD_RGN_SEL 12 0 → t.rgn r = s.rgn r) ∧ RegsKept s t [R.GEN_WR_CNT 0xD0, R.GEN_IGN_CNT 0xD0] := by
  have hms : (s.countWrite 0xD0 (rgnWord v != v)).ms = s.ms := by
    obtain ⟨r, hr⟩ := countWrite_frame s 0xD0 (rgnWord v != v)
    rw [hr]
  have hex := exec_rgnDataWrite_taken h hr
  rw [hms] at hex
  obtain ⟨r, hf, hk⟩ := counted_spec s (rgnWord v != v) _
  rw [hf] at hex
  exact ⟨_, hex, rfl, (Map.get_put ..).trans (if_pos rfl),
    fun r hne => (Map.get_put ..).trans (if_neg hne), hk⟩

/-- QUOTA_WRITE of a quota the rules allow sets the selected owner's alone (R147). -/
theorem quota_taken {s : State} {c : Instr} {i : Bool} {o : Nat} {q : Owner}
    (hex : exec c s = keepQueue s (.next ((s.countWrite 0xD0 i).ownerSet o q))) :
    ∃ t, exec c s = .next t ∧ t = { s with regs := t.regs, ms := { s.ms with own := t.ms.own } } ∧ t.owner o = q ∧
      (∀ p, p ≠ o → t.owner p = s.owner p) ∧ RegsKept s t [R.GEN_WR_CNT 0xD0, R.GEN_IGN_CNT 0xD0] := by
  have hms : (s.countWrite 0xD0 i).ms = s.ms := by
    obtain ⟨r, hr⟩ := countWrite_frame s 0xD0 i
    rw [hr]
  rw [ownerSet, hms] at hex
  obtain ⟨r, hf, hk⟩ := counted_spec s i _
  rw [hf] at hex
  exact ⟨_, hex, rfl, (Map.get_put ..).trans (if_pos rfl),
    fun r hne => (Map.get_put ..).trans (if_neg hne), hk⟩

/-- Settles O13, clause by clause. -/
theorem regionsAndQuotas : Obligations.RegionsAndQuotas := by
  refine ⟨fun s v h => deny_ends (by decide) (exec_rgnDataWrite_closed v h),
    fun s v flash h => deny_ends (by cases flash <;> decide) (exec_quotaWrite_closed flash v h), ?_, ?_, ?_, ?_, ?_, ?_⟩
  · rintro s v w h h3 h7 h64 rfl hused
    refine region_taken s v h ?_
    rintro (hbad | hbad | hbad | ⟨hu, hne⟩)
    · omega
    · omega
    · omega
    · exact hused.elim (fun hno => by simp [hno] at hu) hne
  · rintro s v w h rfl hbad
    exact mpdErr_ends (by decide) (exec_rgnDataWrite_refused h hbad)
  · intro s v h o hsum hheld
    exact quota_taken (exec_flashQuota_taken h (fun hbad => hbad.elim (Nat.not_lt.2 hsum) (Nat.not_lt.2 hheld)))
  · intro s v h o hbad
    obtain ⟨t, hex, hf, herr, -⟩ := mpdErr_ends (by decide) (exec_flashQuota_refused h hbad)
    exact ⟨t, hex, hf, herr⟩
  · rintro s v nap h rfl o replay hsum hheld
    exact quota_taken (exec_dramQuota_taken h (fun hbad => hbad.elim (Nat.not_lt.2 hsum) (Nat.not_lt.2 hheld)))
  · rintro s v nap h rfl o replay hbad
    obtain ⟨t, hex, hf, herr, -⟩ := mpdErr_ends (by decide) (exec_dramQuota_refused h hbad)
    exact ⟨t, hex, hf, herr⟩

end Sys2Proof.Proofs
end

section
/-! PROOFS. The host port (O47). -/
namespace Sys2Proof.Machine
open Sys2Proof

/-- No register below an address of the pages that are not mirrored is one of those from it on. -/
theorem canon_ne_of_split {a b c : Nat} (ha : a < c) (hb : c ≤ b) (hc : c ≤ 0x50000) : canon a ≠ canon b := by
  rw [canon_low (by omega)]
  unfold canon
  simp only
  split_ifs <;> omega

namespace State

/-! ### Registers that stay -/

/-- Registers outside the host port's own, below those of its windows, are kept. -/
def OnlyHost (s t : State) : Prop := t = { s with regs := t.regs } ∧ KeepsOn (fun a => a < 0x8000 ∨ 0x8200 ≤ a) s t

theorem onlyHost_of_kept {s t : State} {l : List Nat} (hf : t = { s with regs := t.regs }) (hk : RegsKept s t l)
    (hl : ∀ b ∈ l, 0x8000 ≤ b ∧ b < 0x8200) : OnlyHost s t := by
  refine ⟨hf, keepsOn_of_kept hk fun a ha b hb => ?_⟩
  obtain ⟨hlo, hhi⟩ := hl b hb
  rcases ha with ha | ha
  · exact canon_ne_of_split ha hlo (by decide)
  · exact (canon_ne_of_split hhi ha (by decide)).symm

/-- Registers of the pages below those of the rings are kept where those written are above. -/
theorem keepsLow_of_kept {s t : State} {l : List Nat} (h : RegsKept s t l) (hl : ∀ b ∈ l, 0x10000 ≤ b) : KeepsOn (· < 0x10000) s t :=
  keepsOn_of_kept h fun _ ha b hb => canon_ne_of_low ha (hl b hb)

/-- A 64-bit total, added to. -/
theorem rd64_add64 (s : State) {lo : Nat} (n : Nat) (h : canon lo ≠ canon (lo + 4)) :
    (s.add64 lo n).rd64 lo = (s.rd64 lo + n) % 2 ^ 64 := by
  rw [rd64, add64, wr64, rd_wr_self, rd_wr_ne _ _ h, rd_wr_self, BitVec.toNat_ofNat, BitVec.toNat_ofNat]
  omega

/-- A 64-bit total is kept with its two registers. -/
theorem rd64_congr {s t : State} {lo : Nat} (h1 : t.rd lo = s.rd lo) (h2 : t.rd (lo + 4) = s.rd (lo + 4)) : t.rd64 lo = s.rd64 lo := by
  rw [rd64, rd64, h1, h2]

/-! ### What goes to the host (R492, R512) -/

/-- A completion goes out with its bytes, which count. -/
theorem emit_winData (s : State) (fresh : Nat) (d : List Byte) (bad : Bool) :
    (s.emit (.winData fresh d bad) = { s with regs := (s.emit (.winData fresh d bad)).regs, outbox := s.outbox ++ [.winData fresh d bad] }) ∧
    RegsKept s (s.emit (.winData fresh d bad)) [R.HST_TX_BYTES_LO, R.HST_TX_BYTES_LO + 4] ∧
    (s.emit (.winData fresh d bad)).rd64 R.HST_TX_BYTES_LO = (s.rd64 R.HST_TX_BYTES_LO + d.length) % 2 ^ 64 :=
  ⟨rfl, add64_kept (s.emit1 _) _ _, rd64_add64 (s.emit1 _) _ (by decide)⟩

/-- A read of the host that is refused: 0xFF bytes (R492). -/
def winRefused (s : State) (a len fresh : Nat) : State := (s.hostRefuse a).emit (.winData fresh (List.replicate len 0xFF) false)

/-- A refused access sets HST_ERR and counts. -/
theorem hostRefuse_shows (s : State) (a : Nat) : (s.hostRefuse a).rdB R.HST_ERR 0 = true ∧
    (s.hostRefuse a).rd R.HST_REFUSED_CNT = satAdd32 (s.rd R.HST_REFUSED_CNT) 1 := by
  obtain ⟨-, herr, hcnt, -, -⟩ := hostRefuse_spec s a
  refine ⟨?_, hcnt⟩
  rw [rdB, herr, bit_or, show bit (1 : Word32) 0 = true from rfl, Bool.or_true]

theorem winRefused_spec (s : State) (a len fresh : Nat) :
    (s.winRefused a len fresh = { s with regs := (s.winRefused a len fresh).regs, outbox := (s.winRefused a len fresh).outbox
                                         msix := (s.winRefused a len fresh).msix, freeCtr := (s.winRefused a len fresh).freeCtr
                                         pwr := (s.winRefused a len fresh).pwr }) ∧
    (s.winRefused a len fresh).outbox.getLast? = some (.winData fresh (List.replicate len 0xFF) false) ∧
    (s.winRefused a len fresh).rdB R.HST_ERR 0 = true ∧
    (s.winRefused a len fresh).rd R.HST_REFUSED_CNT = satAdd32 (s.rd R.HST_REFUSED_CNT) 1 := by
  obtain ⟨⟨r, o, m, f, w, hfr⟩, -, -, -, -⟩ := hostRefuse_spec s a
  obtain ⟨herr, hcnt⟩ := hostRefuse_shows s a
  obtain ⟨hf, hk, -⟩ := emit_winData (s.hostRefuse a) fresh (List.replicate len 0xFF) false
  rw [winRefused]
  refine ⟨by rw [hf, hfr], by rw [hf]; exact List.getLast?_concat, ?_, (hk _ (by decide)).trans hcnt⟩
  rw [rdB, hk _ (by decide)]
  exact herr

/-! ### Rights (R143, R145, R491) -/

/-- Rights do not depend on the host port's registers. -/
theorem deny_onlyHost {s t : State} (h : OnlyHost s t) (who a : Nat) (wr : Bool) : t.deny who a wr = s.deny who a wr := by
  obtain ⟨ht, hk⟩ := h
  have hlow (b : Nat) (hb : b < 0x8000) : t.rd b = s.rd b := hk b (.inl hb)
  have hsem : t.semStops = s.semStops := by rw [semStops, semStops, rdF, rdF, hlow _ (by decide), ht]
  have hrgn : t.rgnAt a = s.rgnAt a := by rw [rgnAt, rgnAt, rgn, rgn, ht]
  have hact : t.tenantActive who = s.tenantActive who := by rw [tenantActive, tenantActive, ht]
  have hgrant : t.readGrant who = s.readGrant who := by rw [readGrant, readGrant, rdB, rdB, hlow _ (by split <;> decide)]
  have hturn : t.turnRight who = s.turnRight who := by rw [turnRight, turnRight, rdB, rdB, hlow _ (by split <;> decide)]
  simp only [deny, hsem, hrgn, hact, hgrant, hturn]

theorem winOwner_onlyHost {s t : State} (h : OnlyHost s t) (off : Nat) : t.winOwner off = s.winOwner off := by
  rw [winOwner, winOwner, h.2 (R.HST_WIN_CTL (off / 2 ^ 28)) (.inr (by simp only [R.HST_WIN_CTL]; omega))]

theorem winAddr_onlyHost {s t : State} (h : OnlyHost s t) (off : Nat) : t.winAddr off = s.winAddr off := by
  rw [winAddr, winAddr, rd64_congr (h.2 (R.HST_WIN_BASE_LO (off / 2 ^ 28)) (.inr (by simp only [R.HST_WIN_BASE_LO]; omega)))
    (h.2 (R.HST_WIN_BASE_LO (off / 2 ^ 28) + 4) (.inr (by simp only [R.HST_WIN_BASE_LO]; omega)))]

theorem winReach_onlyHost {s t : State} (h : OnlyHost s t) (o a n : Nat) : t.winReach o a n = s.winReach o a n := by
  have hdiag : t.diagOpen = s.diagOpen := by
    rw [diagOpen, diagOpen, adminOpen, adminOpen, rdB, rdB, rdB, rdB, h.2 R.SEM_ADMIN_OPEN (.inl (by decide))]
  simp only [winReach, hdiag]

theorem mem_ite {α : Type} {p : Prop} [Decidable p] {x y : α} {l : List α} (hx : x ∈ l) (hy : y ∈ l) : (if p then x else y) ∈ l := by
  split <;> assumption

/-- The CODEs of a refusal by rights (R25, R143, R145, R437). -/
theorem deny_code {s : State} {who a c d : Nat} {wr : Bool} (h : s.deny who a wr = some (c, d)) : c ≠ 0 ∧ c ≠ 9 := by
  have hcodes : s.deny who a wr ∈ [none, some (4, 1), some (0x0D, 0x12), some (5, 0)] := by
    unfold deny
    simp only
    repeat' apply mem_ite
    all_goals simp only [List.mem_cons, true_or, or_true]
  rw [h] at hcodes
  simp only [List.mem_cons, Option.some.injEq, Prod.mk.injEq, reduceCtorEq, List.not_mem_nil, or_false, false_or] at hcodes
  omega

/-- A read refused by rights. -/
theorem serve_read_denied {s : State} {x : Access} {c d : Nat} (hk : x.kind = .read) (h0 : 0 < x.len)
    (h : x.addr % tileBytes + x.len ≤ tileBytes) (hd : s.deny x.who x.addr false = some (c, d)) : s.serve x = s.answer x c d [] := by
  have hr : s.readDeny x.who x.addr x.len = some (c, d) := by simp [readDeny, tilesOf_one h0 h, tile_start_le, hd]
  simp only [serve, hk, hr]

/-- A read of a flash home is outstanding (R165). -/
theorem flashRead_of_flash {s : State} {n : Nat} {b : RdFor} (h : (s.tile n).st = .flash) :
    s.flashRead n b = { s with ms := { s.ms with reads := Map.set s.ms.reads (Map.nextKey s.ms.reads) ⟨n, s.ft, b, false, none⟩ } } :=
  if_pos (by rw [h]; rfl)

/-! ### A window read (R491, R492) -/

/-- The access of a window read, and the state in which its request stands. -/
def winAccess (o a len fresh : Nat) : Access := ⟨o, none, .read, a, [], len, 2 ^ 64 + fresh, none, []⟩
def winAsked (s : State) (a len fresh : Nat) : State := { s with winReads := Map.set s.winReads fresh ⟨a, len, s.ft⟩ }

/-- A window's access is answered at the host port. -/
theorem answer_window (s : State) {x : Access} (hop : x.op = none) (hrem : x.rem = none) (hf : 2 ^ 64 ≤ x.fresh) (code detail : Nat)
    (data : List Byte) : s.answer x code detail data = s.winAnswer x code data := by
  simp only [answer, answerWith, hop, hrem, if_pos hf]

theorem answer_winAccess (s : State) (o a len fresh code detail : Nat) (data : List Byte) :
    s.answer (winAccess o a len fresh) code detail data = s.winAnswer (winAccess o a len fresh) code data :=
  answer_window s rfl rfl (Nat.le_add_right _ _) code detail data

/-- The request is answered and stands no more. -/
def winDone (s : State) (fresh : Nat) : State := { s with winReads := Map.erase s.winReads fresh }

theorem winAnswer_read {s : State} {o a len fresh : Nat} {r : WinRead} (hr : Map.get? s.winReads fresh = some r) (code : Nat) (data : List Byte) :
    s.winAnswer (winAccess o a len fresh) code data =
      if code = 0 ∨ code = 9 then (s.winDone fresh).emit (.winData fresh data (code == 9)) else (s.winDone fresh).winRefused a r.len fresh := by
  have hkey : (winAccess o a len fresh).fresh - 2 ^ 64 = fresh := Nat.add_sub_cancel_left ..
  rw [winAnswer, if_pos (show (winAccess o a len fresh).kind = .read from rfl)]
  simp only [hkey, hr]
  rfl

theorem exec_windowRead {s : State} {off len fresh o : Nat} (hon : s.hostOn = true) (hnew : Map.get? s.winReads fresh = none)
    (ho : s.winOwner off = some o) (h32 : off < 2 ^ 32) (h0 : 0 < len) (h512 : len ≤ 512) (hw : off % 2 ^ 28 + len ≤ 2 ^ 28) :
    exec (.windowRead off len fresh) s = keepQueue s (match s.winReach o (s.winAddr off) len with
      | none => .next (s.winRefused (s.winAddr off) len fresh)
      | some 0 => .next ((s.winAsked (s.winAddr off) len fresh).serve (winAccess o (s.winAddr off) len fresh))
      | some 1 => .next (s.emit (.winData fresh (s.bytesAt (s.winAddr off) len) (s.anyPoison (s.winAddr off) len)))
      | some _ => .next (s.rawRead fresh (s.winAddr off) len)) := by
  show execWindowRead off len fresh s = _
  rw [execWindowRead, if_neg (by simp [hon, hnew])]
  simp only [ho]
  rw [if_neg (by omega)]
  rfl

/-! ### The raw DRAM window (R142, R440) -/

/-- Pieces of `n` bytes at most, made of the blocks of a list. -/
theorem length_flatten_zipWith_le {α β : Type} {f : α → β → List Byte} {n : Nat} (hf : ∀ a b, (f a b).length ≤ n) (l : List α) (m : List β) :
    (List.zipWith f l m).flatten.length ≤ n * l.length := by
  induction l generalizing m with
  | nil => simp
  | cons a l ih =>
    cases m with
    | nil => simp
    | cons b m =>
      have := hf a b
      have := ih m
      simp only [List.zipWith_cons_cons, List.flatten_cons, List.length_append, List.length_cons, Nat.mul_succ]
      omega

/-- A unit of 64 bytes is four blocks. -/
theorem length_blocks16 {l : List Byte} (h : l.length = 64) : (blocks16 l).length ≤ 4 := by
  have hlen (fuel : Nat) (k : List Byte) : (cutInto 16 fuel k).length * 16 ≤ k.length + 15 := by
    induction fuel generalizing k with
    | zero => simp [cutInto]
    | succ fuel ih =>
      rw [cutInto]
      split
      · simp
      · have := ih (k.drop 16)
        have hne : k.length ≠ 0 := by simpa using ‹¬k.isEmpty = true›
        simp only [List.length_cons, List.length_drop] at this ⊢
        omega
  have := hlen (l.length / 16 + 1) l
  rw [blocks16]
  omega

/-- The stored form of a unit is a unit at most. -/
theorem length_cipherUnit (s : State) (o ga a : Nat) : (s.cipherUnit o ga a).length ≤ 64 := by
  have hunit : (Mem.read s.mem a 64).length = 64 := by simp [Mem.read]
  have hblock (x : List Byte) (t : Nat) : (xorBytes x (leBytes 16 t)).length ≤ 16 := by
    rw [xorBytes, List.length_zipWith, length_leBytes]
    exact Nat.min_le_right ..
  have := length_blocks16 hunit
  refine (length_flatten_zipWith_le (n := 16) (fun b t => hblock _ t) (blocks16 (Mem.read s.mem a 64)) _).trans ?_
  omega

/-- One unit of a raw window, at its start. -/
theorem rawBytes_unit {unit : Nat → List Byte × Bool} {w : Nat} (h : w % 64 = 0) :
    rawBytes unit w 64 = ((unit w).1.take 64, (unit w).2) := by
  have hone : (w + 64 - 1) / 64 - w / 64 + 1 = 1 := by omega
  have hstart : (w / 64 + 0) * 64 = w := by omega
  simp only [rawBytes, hone, List.range_one, List.map_cons, List.map_nil, hstart, h, List.flatten_cons, List.flatten_nil, List.append_nil,
    List.drop_zero, List.any_cons, List.any_nil, Bool.or_false]

/-- What the raw DRAM window shows of a frame in a tile's use (R142, R440). -/
theorem rawUnit_tile {s : State} {w n : Nat} {f : Frame} (hlive : s.ms.fenced.contains (w / stackBytes) = false)
    (hcarve : 4096 ≤ w % stackBytes / tileBytes)
    (hf : Map.get? s.ms.frames (w / stackBytes * 2 ^ 24 + w % stackBytes / tileBytes) = some f) (hu : f.use = .tile n)
    (hp : s.poisoned (n * tileBytes + w % stackBytes % tileBytes) = false) :
    s.rawUnit w = (s.cipherUnit (s.tileOwner n) (s.globalAddr (n * tileBytes + w % stackBytes % tileBytes))
      (n * tileBytes + w % stackBytes % tileBytes), false) := by
  simp only [rawUnit, hlive, Bool.false_eq_true, if_false, if_neg (Nat.not_lt.2 hcarve), hf, Option.map_some, hu]
  rw [tileUnit]
  simp only [hp, Bool.false_eq_true, if_false]

/-- What a window reaches as raw DRAM lies in that window (R141). -/
theorem winReach_rawDram {s : State} {o a n : Nat} (h : s.winReach o a n = some 2) : rawDram ≤ a ∧ a + n ≤ rawDram + 12 * stackBytes := by
  unfold winReach at h
  split_ifs at h with _ _ _ _ _ hraw <;> simp only [reduceCtorEq, Option.some.injEq, Nat.reduceEqDiff] at h
  exact ⟨hraw.1, hraw.2.1⟩

/-! ### Poison (R171, R472) -/

theorem mem_poisonAt {s : State} {u v : Nat} : v ∈ (s.poisonAt u).ms.poison ↔ v = u ∨ v ∈ s.ms.poison := by
  simp only [poisonAt, List.mem_append, List.mem_filter, List.mem_cons, decide_eq_true_eq]
  constructor
  · tauto
  · rintro (rfl | h)
    · exact .inr (.inl rfl)
    · rcases Nat.lt_trichotomy v u with hlt | rfl | hlt <;> tauto

theorem mem_markUnits {a : Nat} {l : List Nat} {s : State} {v : Nat} :
    v ∈ (s.markUnits a l).ms.poison ↔ v ∈ s.ms.poison ∨ ∃ i ∈ l, v = a / 64 + i := by
  unfold markUnits
  induction l generalizing s with
  | nil => simp
  | cons i l ih =>
    rw [List.foldl_cons, ih, mem_poisonAt]
    simp only [List.exists_mem_cons_iff]
    tauto

/-- Marks of every unit of a range poison each of its bytes. -/
theorem poisoned_markUnits {s : State} {a n i : Nat} (h : i < n) : (s.markUnits a (rangeUnits a n)).poisoned (a + i) = true := by
  refine List.contains_iff_mem.2 (mem_markUnits.2 (.inr ⟨(a + i) / 64 - a / 64, ?_, by omega⟩))
  rw [rangeUnits, if_neg (by omega), List.mem_range]
  omega

/-! ### A window write (R142, R491, R492) -/

/-- What a write leaves before it is looked at: its bytes counted, and HST_ERR where its data is poisoned. -/
def received (s : State) (n : Nat) (poisoned : Bool) : State :=
  if poisoned then (s.add64 R.HST_RX_BYTES_LO n).setBits R.HST_ERR 16 else s.add64 R.HST_RX_BYTES_LO n

theorem received_spec (s : State) (n : Nat) (poisoned : Bool) :
    OnlyRegs s (s.received n poisoned) [R.HST_RX_BYTES_LO, R.HST_RX_BYTES_LO + 4, R.HST_ERR] ∧
    (s.received n poisoned).rd64 R.HST_RX_BYTES_LO = (s.rd64 R.HST_RX_BYTES_LO + n) % 2 ^ 64 ∧
    (poisoned = true → (s.received n poisoned).rdB R.HST_ERR 4 = true) ∧
    (poisoned = false → (s.received n poisoned).rd R.HST_ERR = s.rd R.HST_ERR) := by
  have hk := add64_kept s R.HST_RX_BYTES_LO n
  have hsum := rd64_add64 s (lo := R.HST_RX_BYTES_LO) n (by decide)
  cases poisoned with
  | false => exact ⟨⟨rfl, kept_mono hk (by simp)⟩, hsum, nofun, fun _ => hk _ (by decide)⟩
  | true =>
    refine ⟨⟨rfl, kept_trans hk (kept_wr _ R.HST_ERR _) (by simp) (by simp)⟩, ?_, fun _ => ?_, nofun⟩
    · exact (rd64_congr (rd_wr_ne _ _ (by decide)) (rd_wr_ne _ _ (by decide))).trans hsum
    · rw [received, if_pos rfl, setBits_eq, rdB, rd_wr_self, bit_or, show bit (16 : Word32) 4 = true from rfl, Bool.or_true]

theorem received_onlyHost (s : State) (n : Nat) (poisoned : Bool) : OnlyHost s (s.received n poisoned) :=
  onlyHost_of_kept (received_spec s n poisoned).1.1 (received_spec s n poisoned).1.2 (by simp [R.HST_RX_BYTES_LO, R.HST_ERR])

/-- The access of a window write within one tile. -/
def winStore (o a : Nat) (data : List Byte) (poisoned : Bool) : Access :=
  ⟨o, none, .write, a, data, data.length, 2 ^ 64, none, if poisoned then rangeUnits a data.length else []⟩

/-- A window write that reaches the unified range within one tile is served. -/
theorem exec_windowWrite {s v : State} {off o a : Nat} {data : List Byte} {poisoned : Bool} (hon : s.hostOn = true)
    (hv : v = s.received data.length poisoned) (ho : v.winOwner off = some o) (ha : v.winAddr off = a) (h32 : off < 2 ^ 32)
    (h0 : 0 < data.length) (h512 : data.length ≤ 512) (hw : off % 2 ^ 28 + data.length ≤ 2 ^ 28)
    (hr : v.winReach o a data.length = some 0) (hin : a % tileBytes + data.length ≤ tileBytes) :
    exec (.windowWrite off data poisoned) s = keepQueue s (.next (v.serve (winStore o a data poisoned))) := by
  show execWindowWrite off data poisoned s = _
  rw [execWindowWrite, if_neg (by simp [hon])]
  simp only
  rw [← received, ← hv, ha]
  simp only [ho]
  rw [if_neg (by omega)]
  simp only [hr, cutTiles_one h0 hin, List.foldl_cons, List.foldl_nil, winStore]

/-- One that is disabled, too long or reaches nothing is refused. -/
theorem exec_windowWrite_refused {s v : State} {off : Nat} {data : List Byte} {poisoned : Bool} (hon : s.hostOn = true)
    (hv : v = s.received data.length poisoned)
    (hbad : ∀ o, v.winOwner off = some o → 2 ^ 32 ≤ off ∨ data = [] ∨ 512 < data.length ∨ 2 ^ 28 < off % 2 ^ 28 + data.length ∨
      v.winReach o (v.winAddr off) data.length = none ∨ v.winReach o (v.winAddr off) data.length = some 3) :
    exec (.windowWrite off data poisoned) s = keepQueue s (.next (v.hostRefuse (v.winAddr off))) := by
  show execWindowWrite off data poisoned s = _
  rw [execWindowWrite, if_neg (by simp [hon])]
  simp only
  rw [← received, ← hv]
  cases ho : v.winOwner off with
  | none => rfl
  | some o =>
    simp only
    by_cases hshape : 2 ^ 32 ≤ off ∨ data.length = 0 ∨ 512 < data.length ∨ 2 ^ 28 < off % 2 ^ 28 + data.length
    · rw [if_pos hshape]
    · rw [if_neg hshape]
      have hreach : v.winReach o (v.winAddr off) data.length = none ∨ v.winReach o (v.winAddr off) data.length = some 3 := by
        have := hbad o ho
        rw [← List.length_eq_zero_iff] at this
        tauto
      rcases hreach with hreach | hreach <;> simp only [hreach]

/-- What a write of a DRAM home changes: the bytes, poison, the access bit and the byte counts (R153, R171, R174). -/
theorem dramStored_frame (s : State) (x : Access) (bs : List Byte) :
    ∃ f r, ((s.storeAcc x bs).touch (x.addr / tileBytes)).countDram true x.addr bs.length =
      { s with mem := Mem.write s.mem x.addr bs, ms := { s.ms with frames := f, poison := (s.storeAcc x bs).ms.poison }, regs := r } ∧
    DramRegs s (((s.storeAcc x bs).touch (x.addr / tileBytes)).countDram true x.addr bs.length) [] := by
  have hc := countDram_counts ((s.storeAcc x bs).touch (x.addr / tileBytes)) true x.addr bs.length
  obtain ⟨p, hst⟩ := storeAcc_frame s x bs
  have htouch : (s.storeAcc x bs).touch (x.addr / tileBytes) = { s with
      mem := Mem.write s.mem x.addr bs
      ms := { s.ms with frames := ((s.storeAcc x bs).touch (x.addr / tileBytes)).ms.frames, poison := (s.storeAcc x bs).ms.poison } } := by
    rw [touch_frame, hst]
  refine ⟨((s.storeAcc x bs).touch (x.addr / tileBytes)).ms.frames,
    (((s.storeAcc x bs).touch (x.addr / tileBytes)).countDram true x.addr bs.length).regs, ?_, fun a ha hk => ?_⟩
  · rw [hc.1, htouch]
  · exact (dramRegs_of_counts hc a ha hk).trans (rd_congr (by rw [htouch]) a)

/-- A window write that is made has no answer. -/
theorem answer_winStore (s : State) (o a : Nat) (data : List Byte) (poisoned : Bool) :
    s.answer (winStore o a data poisoned) 0 0 [] = s := by
  rw [answer_window s rfl rfl (Nat.le_refl _), winAnswer, if_neg (by simp [winStore]), if_neg (by simp)]

/-- A window write of a DRAM home is made, and nothing goes back. -/
theorem serve_winStore {s : State} {o a : Nat} {data : List Byte} {poisoned : Bool} (hd : s.deny o a true = none)
    (ht : (s.tile (a / tileBytes)).st = .dram) :
    s.serve (winStore o a data poisoned) =
      ((s.storeAcc (winStore o a data poisoned) data).touch (a / tileBytes)).countDram true a data.length := by
  obtain ⟨f, r, hfr, -⟩ := dramStored_frame s (winStore o a data poisoned) data
  have hw := writeTile_dram (s := s) (x := winStore o a data poisoned) ht
  rw [show s.accStored (winStore o a data poisoned) = data from rfl, show (winStore o a data poisoned).addr = a from rfl] at hw
  rw [show (winStore o a data poisoned).addr = a from rfl] at hfr
  rw [serve_write (x := winStore o a data poisoned) rfl hd hw (by rw [show (winStore o a data poisoned).addr = a from rfl, ht]; decide),
    if_pos (by rw [hfr]), answer_winStore]

/-! ### Time-outs (R140, R492, R493) -/

/-- A request that is late stands no more, nor does what was to answer it. -/
def winLate (s : State) (fresh : Nat) : State := { s with
  winReads := Map.erase s.winReads fresh
  ms := { s.ms with reads := s.ms.reads.filter (fun p => match p.2.by_ with | .acc x => x.fresh != 2 ^ 64 + fresh | _ => true)
                    waits := s.ms.waits.filter (fun w => w.acc.fresh != 2 ^ 64 + fresh || w.acc.kind != .read) } }

theorem exec_windowReadTimeout {s : State} {fresh : Nat} {r : WinRead} (hr : Map.get? s.winReads fresh = some r)
    (hlate : r.at_.toNat + s.rdF R.HST_WIN_TMO 15 0 * 4000 ≤ s.ft.toNat) :
    exec (.windowReadTimeout fresh) s = keepQueue s (.next (((((s.winLate fresh).hostRefuse r.addr).setBits R.HST_ERR 4).raise 8 4).emit
      (.winData fresh (List.replicate r.len 0xFF) false))) := by
  show execWindowReadTimeout fresh s = _
  rw [execWindowReadTimeout]
  simp only [hr, if_pos hlate]
  rfl

/-- A completion lost sets DMA_ERR and its interrupt (R493). -/
theorem dmaErr_spec (s : State) : RegsSent s s.dmaErr ∧ RegsKept s s.dmaErr [R.HST_ERR, R.INT_STAT 8] ∧
    s.dmaErr.rdB R.HST_ERR 3 = true ∧ s.dmaErr.rdB (R.INT_STAT 8) 3 = true := by
  unfold dmaErr
  refine ⟨regsSent_trans _ _ _ (regsSent_wr _ _ _) (regsSent_raise _ 8 3), kept_trans (kept_wr _ R.HST_ERR _) (raise_kept _ 8 3) (by simp) (by simp),
    ?_, rdB_raise_self _ 8 3 (by decide)⟩
  rw [rdB, raise_kept _ 8 3 _ (by decide), setBits_eq, rd_wr_self, bit_or, show bit (8 : Word32) 3 = true from rfl, Bool.or_true]

/-- A ring's stop changes no register of the low pages. -/
theorem ringStop_low (s : State) (t r cause : Nat) (o : Option RunOp) : KeepsOn (· < 0x10000) s (s.ringStop t r cause o) := by
  obtain ⟨q, prio, bs, h⟩ := ringStop_eq s t r cause o
  rw [h]
  have hmark : KeepsOn (· < 0x10000) s (s.stopMarked t r cause).used.used := by
    refine keepsLow_of_kept (l := [R.CRG_RING_CTL t r, R.CRG_RING_STAT t r, R.CRG_STOPPED t]) ?_ ?_
    · exact kept_trans (kept_trans (n := [R.CRG_RING_CTL t r, R.CRG_RING_STAT t r]) (kept_wr s _ _) (kept_wr _ _ _) (by simp) (by simp))
        (kept_wr _ _ _) (by simp) (by simp)
    · simp only [List.forall_mem_cons, R.CRG_RING_CTL, R.CRG_RING_STAT, R.CRG_STOPPED]
      refine ⟨?_, ?_, ?_, nofun⟩ <;> omega
  have hitem (u : State) : KeepsOn (· < 0x10000) u (u.storeItem t q prio bs) := by
    refine keepsLow_of_kept (storeItem_spec u t q prio bs).2 ?_
    simp only [List.forall_mem_cons, R.EVQ_GAP_CNT, R.EVQ_DISC_CNT, R.INT_STAT]
    refine ⟨?_, ?_, ?_, nofun⟩ <;> omega
  have habort (u : State) : KeepsOn (· < 0x10000) u (u.abortWaiting t r 2) := by
    refine foldl_rel (keepsOn_refl _) (fun _ _ _ => keepsOn_trans) (fun v p _ => ?_) u
    refine keepsLow_of_kept (complete_spec v.used p.1 _).2 ?_
    simp only [List.forall_mem_cons, R.CRG_RING_DONE, R.CRG_CTR_FAULT, R.EVQ_GAP_CNT, R.EVQ_DISC_CNT, R.INT_STAT]
    refine ⟨?_, ?_, ?_, ?_, ?_, ?_, nofun⟩ <;> omega
  have hraise (u : State) : KeepsOn (· < 0x10000) u (u.raise (0x10 + t) 1) := by
    refine keepsLow_of_kept (raise_kept u (0x10 + t) 1) ?_
    simp only [List.forall_mem_cons, R.INT_STAT]
    exact ⟨by omega, nofun⟩
  exact keepsOn_trans (keepsOn_trans (keepsOn_trans hmark (hitem _)) (habort _)) (hraise _)

/-! ### The link and resets (R468, R489, R493, R494, R515) -/

/-- The top bit of each of a list of registers is cleared. -/
theorem clrTops_spec (r : Nat → Nat) (l : List Nat) (s : State) :
    OnlyRegs s (l.foldl (fun u w => u.clrBits (r w) 0x80000000#32) s) (l.map r) ∧
    ∀ w, (w ∈ l ∨ s.rdB (r w) 31 = false) → (l.foldl (fun u w => u.clrBits (r w) 0x80000000#32) s).rdB (r w) 31 = false := by
  induction l generalizing s with
  | nil => exact ⟨⟨rfl, kept_refl _ _⟩, fun w h => h.resolve_left (by simp)⟩
  | cons v l ih =>
    obtain ⟨⟨hf, hk⟩, hz⟩ := ih (s.clrBits (r v) 0x80000000#32)
    rw [List.foldl_cons]
    refine ⟨⟨by rw [hf]; rfl, kept_trans (kept_wr s (r v) _) hk (by simp) (by simp +contextual)⟩, fun w h => hz w ?_⟩
    refine or_iff_not_imp_left.2 fun hw => ?_
    have hclear (x : Word32) : bit (x &&& ~~~0x80000000#32) 31 = false := by
      rw [bit_and, show bit (~~~0x80000000#32) 31 = false from rfl, Bool.and_false]
    rw [clrBits_eq, rdB, rd_wr]
    split
    · exact hclear _
    · rcases h with h | h
      · rcases List.mem_cons.1 h with rfl | h
        · exact absurd rfl ‹_›
        · exact absurd h hw
      · exact h

/-- No ring in host memory runs, so none stops. -/
theorem stopRings_of_none {s : State} (h : ∀ k, k < 1024 → s.ringEn (k / 16) (k % 16) = false) :
    (List.range 1024).foldl (fun u k => if u.ringEn (k / 16) (k % 16) && u.rdB (R.CRG_RING_CTL (k / 16) (k % 16)) 30
      then u.ringStop (k / 16) (k % 16) 3 none else u) s = s := by
  have hfold (l : List Nat) (hl : ∀ k ∈ l, k < 1024) : l.foldl (fun u k => if u.ringEn (k / 16) (k % 16) &&
      u.rdB (R.CRG_RING_CTL (k / 16) (k % 16)) 30 then u.ringStop (k / 16) (k % 16) 3 none else u) s = s := by
    induction l with
    | nil => rfl
    | cons k l ih =>
      rw [List.forall_mem_cons] at hl
      rw [List.foldl_cons, h k hl.1, Bool.false_and, if_neg (by decide), ih hl.2]
  exact hfold _ fun k hk => List.mem_range.1 hk

/-- A ring's EN is kept while registers of the low pages change. -/
theorem ringEn_kept {s t : State} {l : List Nat} (h : RegsKept s t l) (hl : ∀ b ∈ l, b < 0x10000) (i j : Nat) :
    t.ringEn i j = s.ringEn i j := by
  rw [ringEn, ringEn, rdB, rdB, h _ fun b hb => (canon_ne_of_low (hl b hb) (by simp only [R.CRG_RING_CTL]; omega)).symm]

/-- The registers a reset of the host port clears bits of. -/
def resetRegs : List Nat := R.HST_LINK_STAT :: (List.range 16).map R.HST_WIN_CTL

/-- The host port is reset while no ring runs (R468, R493, R494). -/
theorem hostReset_spec {s : State} (h : ∀ k, k < 1024 → s.ringEn (k / 16) (k % 16) = false) :
    s.hostReset = { s with regs := s.hostReset.regs, msix := [], winReads := [], host := ⟨s.host.up, false⟩ } ∧
    RegsKept s s.hostReset resetRegs ∧ ∀ w, w < 16 → s.hostReset.rdB (R.HST_WIN_CTL w) 31 = false := by
  obtain ⟨⟨hf, hk⟩, hz⟩ := clrTops_spec R.HST_WIN_CTL (List.range 16) s
  unfold hostReset
  simp only
  generalize (List.range 16).foldl (fun u w => u.clrBits (R.HST_WIN_CTL w) 0x80000000#32) s = v at *
  obtain ⟨u, hu⟩ : ∃ u, u = ({ v with msix := [], winReads := [], host := { v.host with bme := false } } : State).clrBits R.HST_LINK_STAT
    0x4000#32 := ⟨_, rfl⟩
  have hvu : RegsKept v u [R.HST_LINK_STAT] := by
    rw [hu]
    exact kept_wr ({ v with msix := [], winReads := [], host := { v.host with bme := false } } : State) R.HST_LINK_STAT _
  have hku : RegsKept s u resetRegs := kept_trans hk hvu (by simp +contextual [resetRegs]) (by simp [resetRegs])
  have hlow : ∀ b ∈ resetRegs, b < 0x10000 := by
    intro b hb
    rcases List.mem_cons.1 hb with rfl | hb
    · decide
    · obtain ⟨w, hw, rfl⟩ := List.mem_map.1 hb
      have := List.mem_range.1 hw
      simp only [R.HST_WIN_CTL]
      omega
  rw [← hu, stopRings_of_none fun k hlt => (ringEn_kept hku hlow _ _).trans (h k hlt)]
  refine ⟨by rw [hu, hf]; rfl, hku, fun w hw => ?_⟩
  rw [rdB, hvu]
  · exact hz w (.inl (List.mem_range.2 hw))
  · simp only [List.mem_singleton, forall_eq]
    exact (canon_ne_of_split (c := 0x8200) (by decide) (by simp only [R.HST_WIN_CTL]; omega) (by decide)).symm

/-- The link goes down (R493, R515). -/
theorem linkDown_spec {s : State} (hup : s.host.up = true) :
    s.linkDown = { s with regs := s.linkDown.regs, outbox := s.linkDown.outbox, msix := s.linkDown.msix
                          host := { s.host with up := false }, winReads := [] } ∧
    s.linkDown.rdB R.HST_LINK_STAT 31 = false ∧ s.linkDown.rd R.HST_LINKDOWN_CNT = satAdd32 (s.rd R.HST_LINKDOWN_CNT) 1 ∧
    s.linkDown.rdB (R.INT_STAT 8) 0 = true ∧ RegsKept s s.linkDown [R.HST_LINK_STAT, R.HST_LINKDOWN_CNT, R.INT_STAT 8] := by
  rw [linkDown, if_pos hup]
  simp only
  generalize hv : ({ s with host := { s.host with up := false }, winReads := [] } : State) = v
  have hvk (a : Nat) : v.rd a = s.rd a := by rw [← hv]; rfl
  have hsent := regsSent_raise ((v.wr R.HST_LINK_STAT (v.rd R.HST_LINK_STAT &&& 0x4000#32)).bump R.HST_LINKDOWN_CNT) 8 0
  have hkr := raise_kept ((v.wr R.HST_LINK_STAT (v.rd R.HST_LINK_STAT &&& 0x4000#32)).bump R.HST_LINKDOWN_CNT) 8 0
  refine ⟨by rw [hsent, ← hv]; rfl, ?_, ?_, rdB_raise_self _ 8 0 (by decide), fun a ha => ?_⟩
  · rw [rdB, hkr _ (by decide), bump_eq, rd_wr_ne _ _ (by decide), rd_wr_self, bit_and, show bit 0x4000#32 31 = false from rfl,
      Bool.and_false]
  · rw [hkr _ (by decide), bump_eq, rd_wr_self, rd_wr_ne _ _ (by decide), hvk]
  · simp only [List.forall_mem_cons] at ha
    obtain ⟨hstat, hcnt, hint, -⟩ := ha
    rw [hkr _ (by simpa using hint), bump_eq, rd_wr_ne _ _ hcnt, rd_wr_ne _ _ hstat, hvk]

/-- What HST_LINK_STAT shows of a link that is up (R489, R512). -/
def linkWord (speed width : Nat) (flit : Bool) (v : Word32) : Word32 :=
  v &&& 0x4000#32 ||| BitVec.ofNat 32 (2 ^ 31 + speed * 2 ^ 24 + width * 2 ^ 16 + (if flit && speed == 6 then 2 ^ 15 else 0))

theorem linkWord_spec {speed width : Nat} (flit : Bool) (v : Word32) (hs : speed < 16) (hw : width = 8 ∨ width = 16) :
    bit (linkWord speed width flit v) 31 = true ∧ fld (linkWord speed width flit v) 27 24 = speed ∧
    fld (linkWord speed width flit v) 20 16 = width ∧ bit (linkWord speed width flit v) 15 = (flit && speed == 6) ∧
    bit (linkWord speed width flit v) 14 = bit v 14 := by
  obtain ⟨n, hn⟩ : ∃ n, n = 2 ^ 31 + speed * 2 ^ 24 + width * 2 ^ 16 + (if flit && speed == 6 then 2 ^ 15 else 0) := ⟨_, rfl⟩
  have hflit : (flit && speed == 6) = decide (n / 2 ^ 15 % 2 = 1) := by
    rw [hn]
    cases flit && speed == 6 <;> simp <;> omega
  have hlt : (if flit && speed == 6 then 2 ^ 15 else 0) ≤ 2 ^ 15 := by split <;> omega
  have hbit (i : Nat) (hi : i < 32) : bit (linkWord speed width flit v) i = ((bit v i && decide (14 = i)) || decide (n / 2 ^ i % 2 = 1)) := by
    rw [linkWord, ← hn, bit_or, bit_and, show (0x4000#32) = BitVec.ofNat 32 (2 ^ 14) from rfl, bit_two_pow (by decide)]
    refine congrArg ((bit v i && decide (14 = i)) || ·) ?_
    rw [bit, BitVec.getLsbD_ofNat, Nat.testBit_eq_decide_div_mod_eq, decide_eq_true hi, Bool.true_and]
  have hfld (hi lo : Nat) (hlo : 14 < lo) (h32 : hi < 32) : fld (linkWord speed width flit v) hi lo = n / 2 ^ lo % 2 ^ (hi + 1 - lo) := by
    have hn32 : n < 2 ^ 32 := by rcases hw with rfl | rfl <;> omega
    have hsame : fld (linkWord speed width flit v) hi lo = fld (BitVec.ofNat 32 n) hi lo := by
      refine fld_congr_bits fun i hi1 hi2 => ?_
      have h14 : ¬14 = i := by omega
      rw [hbit i (by omega), decide_eq_false h14, Bool.and_false, Bool.false_or, bit, BitVec.getLsbD_ofNat, Nat.testBit_eq_decide_div_mod_eq,
        decide_eq_true (by omega : i < 32), Bool.true_and]
    rw [hsame, fld, bitsN, BitVec.toNat_ofNat, Nat.mod_eq_of_lt hn32]
  refine ⟨?_, ?_, ?_, ?_, ?_⟩
  · rw [hbit 31 (by decide)]
    simp
    omega
  · rw [hfld 27 24 (by decide) (by decide)]
    omega
  · rw [hfld 20 16 (by decide) (by decide)]
    omega
  · rw [hbit 15 (by decide), hflit]
    simp
  · rw [hbit 14 (by decide)]
    have : n / 2 ^ 14 % 2 = 0 := by
      rw [hn]
      split <;> omega
    rw [this, decide_eq_true rfl, Bool.and_true, decide_eq_false (by decide), Bool.or_false]
end State
end Sys2Proof.Machine

namespace Sys2Proof.Proofs
open Sys2Proof Sys2Proof.Machine Sys2Proof.Machine.State

/-- A window read of a tile in DRAM (R491, R492). -/
theorem windowRead_dram {s : State} {off len fresh o : Nat} (hon : s.hostOn = true) (hnew : Map.get? s.winReads fresh = none)
    (ho : s.winOwner off = some o) (h32 : off < 2 ^ 32) (h0 : 0 < len) (h512 : len ≤ 512) (hw : off % 2 ^ 28 + len ≤ 2 ^ 28)
    (hr : s.winReach o (s.winAddr off) len = some 0) (hin : s.winAddr off % tileBytes + len ≤ tileBytes)
    (hd : s.deny o (s.winAddr off) false = none) (ht : (s.tile (s.winAddr off / tileBytes)).st = .dram) :
    ∃ t, exec (.windowRead off len fresh) s = .next t ∧
      t = { s with ms := { s.ms with frames := t.ms.frames }, regs := t.regs, winReads := t.winReads
                   outbox := s.outbox ++ [.winData fresh (s.bytesAt (s.winAddr off) len) (s.anyPoison (s.winAddr off) len)] } ∧
      Map.get? t.winReads fresh = none ∧ (∀ k, k ≠ fresh → Map.get? t.winReads k = Map.get? s.winReads k) ∧
      DramRegs s t [R.HST_TX_BYTES_LO, R.HST_TX_BYTES_LO + 4] ∧ t.rd64 R.HST_TX_BYTES_LO = (s.rd64 R.HST_TX_BYTES_LO + len) % 2 ^ 64 := by
  have hex := exec_windowRead hon hnew ho h32 h0 h512 hw
  simp only [hr] at hex
  generalize s.winAddr off = a at *
  obtain ⟨v, hv⟩ : ∃ v, v = s.winAsked a len fresh := ⟨_, rfl⟩
  obtain ⟨⟨f, r, hread⟩, hregs⟩ := readAt_frame v a len
  have hstands : Map.get? (v.readAt a len).winReads fresh = some ⟨a, len, s.ft⟩ := by rw [hread, hv]; exact Map.get?_set_self ..
  have hbytes : (v.readAt a len).bytesAt a len = s.bytesAt a len := by rw [hread, hv]; rfl
  have hbad : (v.readAt a len).anyPoison a len = s.anyPoison a len := by rw [hread, hv]; rfl
  have hserve : v.serve (winAccess o a len fresh) =
      ((v.readAt a len).winDone fresh).emit (.winData fresh (s.bytesAt a len) (s.anyPoison a len)) := by
    have hcode : (if s.anyPoison a len = true then 9 else 0) = 0 ∨ (if s.anyPoison a len = true then 9 else 0) = 9 := by split <;> simp
    have hmark : ((if s.anyPoison a len = true then 9 else 0) == 9) = s.anyPoison a len := by split <;> simp [*]
    rw [serve_read_dram (x := winAccess o a len fresh) rfl h0 hin (by rw [hv]; exact hd) (by rw [hv]; exact ht)]
    rw [show (winAccess o a len fresh).addr = a from rfl, show (winAccess o a len fresh).len = len from rfl, answer_winAccess,
      winAnswer_read hstands, hbytes, hbad, if_pos hcode, hmark]
  rw [← hv, hserve] at hex
  obtain ⟨hf, hk, htx⟩ := emit_winData ((v.readAt a len).winDone fresh) fresh (s.bytesAt a len) (s.anyPoison a len)
  generalize ((v.readAt a len).winDone fresh).emit (.winData fresh (s.bytesAt a len) (s.anyPoison a len)) = t at *
  have hrd (b : Nat) : v.rd b = s.rd b := by rw [hv]; rfl
  have htxReg (b : Nat) (hb : b < 0x10000) : (v.readAt a len).rd b = s.rd b := by
    refine (hregs b (by simp) fun k => ?_).trans (hrd b)
    refine ⟨?_, ?_, ?_, ?_⟩ <;> refine canon_ne_of_low hb ?_ <;> simp only [R.DRP_RD_BYTES_LO, R.DRP_WR_BYTES_LO] <;> omega
  refine ⟨t, hex.trans (keepQueue_of_pending ?_), ?_, ?_, fun k hne => ?_, fun b hb hdram => ?_, ?_⟩
  · rw [hf, winDone, hread, hv]; rfl
  · rw [hf, winDone, hread, hv]; rfl
  · rw [hf]; exact (Map.get?_erase ..).trans (if_pos rfl)
  · rw [hf, winDone, hread, hv]
    exact ((Map.get?_erase ..).trans (if_neg hne)).trans (Map.get?_set_ne _ _ hne)
  · exact (hk b hb).trans ((hregs b (by simp) hdram).trans (hrd b))
  · rw [htx, length_bytesAt]
    exact congrArg (fun x => (x + len) % 2 ^ 64) (rd64_congr (htxReg _ (by decide)) (htxReg _ (by decide)))

/-- A window read of a tile in flash (R153, R165, R491). -/
theorem windowRead_flash {s : State} {off len fresh o : Nat} (hon : s.hostOn = true) (hnew : Map.get? s.winReads fresh = none)
    (ho : s.winOwner off = some o) (h32 : off < 2 ^ 32) (h0 : 0 < len) (h512 : len ≤ 512) (hw : off % 2 ^ 28 + len ≤ 2 ^ 28)
    (hr : s.winReach o (s.winAddr off) len = some 0) (hin : s.winAddr off % tileBytes + len ≤ tileBytes)
    (hd : s.deny o (s.winAddr off) false = none) (ht : (s.tile (s.winAddr off / tileBytes)).st = .flash) :
    ∃ t, exec (.windowRead off len fresh) s = .next t ∧
      t = { s with ms := { s.ms with reads := t.ms.reads, own := t.ms.own, asks := t.ms.asks }, winReads := t.winReads } ∧
      Map.get? t.winReads fresh = some ⟨s.winAddr off, len, s.ft⟩ ∧
      Map.get? t.ms.reads (Map.nextKey s.ms.reads) = some ⟨s.winAddr off / tileBytes, s.ft,
        .acc (winAccess o (s.winAddr off) len fresh), false, none⟩ := by
  have hex := exec_windowRead hon hnew ho h32 h0 h512 hw
  simp only [hr] at hex
  generalize s.winAddr off = a at *
  obtain ⟨v, hv⟩ : ∃ v, v = s.winAsked a len fresh := ⟨_, rfl⟩
  have htv : (v.tile (a / tileBytes)).st = .flash := by rw [hv]; exact ht
  have hfill := fillTouch_flash htv
  have ht' : ((v.fillTouch (a / tileBytes)).tile (a / tileBytes)).st = .flash := by rw [hfill]; exact htv
  rw [← hv, serve_read_flash (x := winAccess o a len fresh) rfl h0 hin (by rw [hv]; exact hd) htv] at hex
  rw [show (winAccess o a len fresh).addr = a from rfl, flashRead_of_flash ht', hfill, hv] at hex
  refine ⟨_, hex, rfl, ?_, ?_⟩
  · exact Map.get?_set_self ..
  · exact Map.get?_set_self ..

/-- A window read its owner may not make (R491, R492). -/
theorem windowRead_denied {s : State} {off len fresh o : Nat} (hon : s.hostOn = true) (hnew : Map.get? s.winReads fresh = none)
    (ho : s.winOwner off = some o) (h32 : off < 2 ^ 32) (h0 : 0 < len) (h512 : len ≤ 512) (hw : off % 2 ^ 28 + len ≤ 2 ^ 28)
    (hr : s.winReach o (s.winAddr off) len = some 0) (hin : s.winAddr off % tileBytes + len ≤ tileBytes)
    (hd : (s.deny o (s.winAddr off) false).isSome = true) :
    ∃ t, exec (.windowRead off len fresh) s = .next t ∧
      t = { s with regs := t.regs, outbox := t.outbox, msix := t.msix, freeCtr := t.freeCtr, pwr := t.pwr, winReads := t.winReads } ∧
      t.outbox.getLast? = some (.winData fresh (List.replicate len 0xFF) false) ∧ Map.get? t.winReads fresh = none ∧
      t.rdB R.HST_ERR 0 = true ∧ t.rd R.HST_REFUSED_CNT = satAdd32 (s.rd R.HST_REFUSED_CNT) 1 := by
  have hex := exec_windowRead hon hnew ho h32 h0 h512 hw
  simp only [hr] at hex
  generalize s.winAddr off = a at *
  obtain ⟨⟨c, d⟩, hcd⟩ := Option.isSome_iff_exists.1 hd
  obtain ⟨hc0, hc9⟩ := deny_code hcd
  obtain ⟨v, hv⟩ : ∃ v, v = s.winAsked a len fresh := ⟨_, rfl⟩
  have hstands : Map.get? v.winReads fresh = some ⟨a, len, s.ft⟩ := by rw [hv]; exact Map.get?_set_self ..
  rw [← hv, serve_read_denied (x := winAccess o a len fresh) rfl h0 hin (by rw [hv]; exact hcd), answer_winAccess, winAnswer_read hstands,
    if_neg (by simp [hc0, hc9])] at hex
  obtain ⟨hf, hlast, herr, hcnt⟩ := winRefused_spec (v.winDone fresh) a len fresh
  have hgone : Map.get? (v.winDone fresh).winReads fresh = none := (Map.get?_erase ..).trans (if_pos rfl)
  refine ⟨_, hex.trans (keepQueue_of_pending (by rw [hf, hv]; rfl)), by rw [hf, hv]; rfl, hlast, by rw [hf]; exact hgone, herr, ?_⟩
  rw [hcnt, hv]
  rfl

/-- A window read of SRAM under DIAG (R491). -/
theorem windowRead_sram {s : State} {off len fresh o : Nat} (hon : s.hostOn = true) (hnew : Map.get? s.winReads fresh = none)
    (ho : s.winOwner off = some o) (h32 : off < 2 ^ 32) (h0 : 0 < len) (h512 : len ≤ 512) (hw : off % 2 ^ 28 + len ≤ 2 ^ 28)
    (hr : s.winReach o (s.winAddr off) len = some 1) :
    ∃ t, exec (.windowRead off len fresh) s = .next t ∧
      t = { s with regs := t.regs
                   outbox := s.outbox ++ [.winData fresh (s.bytesAt (s.winAddr off) len) (s.anyPoison (s.winAddr off) len)] } ∧
      RegsKept s t [R.HST_TX_BYTES_LO, R.HST_TX_BYTES_LO + 4] := by
  have hex := exec_windowRead hon hnew ho h32 h0 h512 hw
  simp only [hr] at hex
  obtain ⟨hf, hk, -⟩ := emit_winData s fresh (s.bytesAt (s.winAddr off) len) (s.anyPoison (s.winAddr off) len)
  exact ⟨_, hex.trans (keepQueue_of_pending (by rw [hf])), hf, hk⟩

/-- A window read of a unit of a tile's frame under DIAG (R142, R440, R491). -/
theorem windowRead_raw {s : State} {off fresh o n : Nat} {f : Frame} (hon : s.hostOn = true) (hnew : Map.get? s.winReads fresh = none)
    (ho : s.winOwner off = some o) (h32 : off < 2 ^ 32) (hw : off % 2 ^ 28 + 64 ≤ 2 ^ 28) (hal : s.winAddr off % 64 = 0)
    (hr : s.winReach o (s.winAddr off) 64 = some 2) {w a : Nat} (hw' : w = s.winAddr off - rawDram)
    (ha : a = n * tileBytes + w % stackBytes % tileBytes) (hlive : s.ms.fenced.contains (w / stackBytes) = false)
    (hcarve : 4096 ≤ w % stackBytes / tileBytes)
    (hf : Map.get? s.ms.frames (w / stackBytes * 2 ^ 24 + w % stackBytes / tileBytes) = some f) (hu : f.use = .tile n)
    (hp : s.poisoned a = false) :
    ∃ t, exec (.windowRead off 64 fresh) s = .next t ∧
      t = { s with regs := t.regs, outbox := s.outbox ++ [.winData fresh (s.cipherUnit (s.tileOwner n) (s.globalAddr a) a) false] } ∧
      RegsKept s t [R.HST_TX_BYTES_LO, R.HST_TX_BYTES_LO + 4] := by
  have hex := exec_windowRead hon hnew ho h32 (by decide : 0 < 64) (by decide) hw
  simp only [hr] at hex
  obtain ⟨hlo, hhi⟩ := winReach_rawDram hr
  have hbelow : s.winAddr off < rawFlash := by simp only [rawDram, rawFlash, stackBytes] at *; omega
  have hunit : w % 64 = 0 := by simp only [rawDram] at *; omega
  have hread : s.rawRead fresh (s.winAddr off) 64 = s.emit (.winData fresh (s.cipherUnit (s.tileOwner n) (s.globalAddr a) a) false) := by
    subst ha
    rw [rawRead, if_pos hbelow, ← hw', rawBytes_unit hunit, rawUnit_tile hlive hcarve hf hu hp, List.take_of_length_le (length_cipherUnit ..)]
  rw [hread] at hex
  obtain ⟨hfr, hk, -⟩ := emit_winData s fresh (s.cipherUnit (s.tileOwner n) (s.globalAddr a) a) false
  exact ⟨_, hex.trans (keepQueue_of_pending (by rw [hfr])), hfr, hk⟩

/-- A window read that is disabled, too long, or reaches nothing (R491, R492). -/
theorem windowRead_refused {s : State} {off len fresh : Nat} (hon : s.hostOn = true) (hnew : Map.get? s.winReads fresh = none)
    (hbad : ∀ o, s.winOwner off = some o →
      2 ^ 32 ≤ off ∨ len = 0 ∨ 512 < len ∨ 2 ^ 28 < off % 2 ^ 28 + len ∨ s.winReach o (s.winAddr off) len = none) :
    ∃ t, exec (.windowRead off len fresh) s = .next t ∧
      t = { s with regs := t.regs, outbox := t.outbox, msix := t.msix, freeCtr := t.freeCtr, pwr := t.pwr } ∧
      t.outbox.getLast? = some (.winData fresh (List.replicate len 0xFF) false) ∧ t.rdB R.HST_ERR 0 = true ∧
      t.rd R.HST_REFUSED_CNT = satAdd32 (s.rd R.HST_REFUSED_CNT) 1 := by
  have hex : exec (.windowRead off len fresh) s = keepQueue s (.next (s.winRefused (s.winAddr off) len fresh)) := by
    show execWindowRead off len fresh s = _
    rw [execWindowRead, if_neg (by simp [hon, hnew])]
    cases ho : s.winOwner off with
    | none => rfl
    | some o =>
      by_cases hshape : 2 ^ 32 ≤ off ∨ len = 0 ∨ 512 < len ∨ 2 ^ 28 < off % 2 ^ 28 + len
      · exact congrArg (keepQueue s) (if_pos hshape)
      · have hnone : s.winReach o (s.winAddr off) len = none := by
          have := hbad o ho
          tauto
        simp only [hnone]
        exact congrArg (keepQueue s) (if_neg hshape)
  obtain ⟨hf, hlast, herr, hcnt⟩ := winRefused_spec s (s.winAddr off) len fresh
  exact ⟨_, hex.trans (keepQueue_of_pending (by rw [hf])), hf, hlast, herr, hcnt⟩

/-- Bytes of a write's data read as poisoned where the host's data was. -/
theorem storeAcc_poisoned (s : State) {o a i : Nat} {data : List Byte} (hi : i < data.length) :
    (s.storeAcc (winStore o a data true) data).poisoned (a + i) = true := poisoned_markUnits hi

/-- A window write of a tile in DRAM (R142, R171, R492). -/
theorem windowWrite_dram {s : State} {off o : Nat} {data : List Byte} {poisoned : Bool} (hon : s.hostOn = true)
    (ho : s.winOwner off = some o) (h32 : off < 2 ^ 32) (hne : data ≠ []) (h512 : data.length ≤ 512)
    (hw : off % 2 ^ 28 + data.length ≤ 2 ^ 28) (hr : s.winReach o (s.winAddr off) data.length = some 0)
    (hin : s.winAddr off % tileBytes + data.length ≤ tileBytes) (hd : s.deny o (s.winAddr off) true = none)
    (ht : (s.tile (s.winAddr off / tileBytes)).st = .dram) :
    ∃ t, exec (.windowWrite off data poisoned) s = .next t ∧
      t = { s with ms := { s.ms with frames := t.ms.frames, poison := t.ms.poison }, mem := t.mem, regs := t.regs } ∧
      Mem.read t.mem (s.winAddr off) data.length = data ∧
      (∀ a, a < s.winAddr off ∨ s.winAddr off + data.length ≤ a → Mem.get t.mem a = Mem.get s.mem a) ∧
      DramRegs s t [R.HST_RX_BYTES_LO, R.HST_RX_BYTES_LO + 4, R.HST_ERR] ∧
      t.rd64 R.HST_RX_BYTES_LO = (s.rd64 R.HST_RX_BYTES_LO + data.length) % 2 ^ 64 ∧
      (poisoned = true → t.rdB R.HST_ERR 4 = true ∧ ∀ i, i < data.length → t.poisoned (s.winAddr off + i) = true) ∧
      (poisoned = false → t.rd R.HST_ERR = s.rd R.HST_ERR) := by
  obtain ⟨v, hv⟩ : ∃ v, v = s.received data.length poisoned := ⟨_, rfl⟩
  have hhost : OnlyHost s v := hv ▸ received_onlyHost s data.length poisoned
  obtain ⟨⟨hvf, hvk⟩, hsum, herr, hclean⟩ := received_spec s data.length poisoned
  rw [← hv] at hvf hvk hsum herr hclean
  have haddr := winAddr_onlyHost hhost off
  have hex := exec_windowWrite hon hv ((winOwner_onlyHost hhost off).trans ho) haddr h32 (List.length_pos_iff.2 hne) h512 hw
    (by rw [winReach_onlyHost hhost, hr]) hin
  rw [serve_winStore (by rw [deny_onlyHost hhost, hd]) (by rw [hvf]; exact ht)] at hex
  obtain ⟨f, r, hfr, hregs⟩ := dramStored_frame v (winStore o (s.winAddr off) data poisoned) data
  have hpoison := fun i (hi : i < data.length) => storeAcc_poisoned v (o := o) (a := s.winAddr off) hi
  rw [show (winStore o (s.winAddr off) data poisoned).addr = s.winAddr off from rfl] at hfr hregs
  generalize ((v.storeAcc (winStore o (s.winAddr off) data poisoned) data).touch (s.winAddr off / tileBytes)).countDram true (s.winAddr off)
    data.length = t at *
  have hhst (b : Nat) (hb : b < 0x10000) : t.rd b = v.rd b := by
    refine hregs b (by simp) fun k => ?_
    refine ⟨?_, ?_, ?_, ?_⟩ <;> refine canon_ne_of_low hb ?_ <;> simp only [R.DRP_RD_BYTES_LO, R.DRP_WR_BYTES_LO] <;> omega
  obtain ⟨hread, hout⟩ := written_mem s.mem (s.winAddr off) data
  have hmem : t.mem = Mem.write s.mem (s.winAddr off) data := by rw [hfr, hvf]
  refine ⟨t, hex.trans (keepQueue_of_pending (by rw [hfr, hvf])), by rw [hfr, hvf], by rw [hmem, hread], fun b hb => by rw [hmem, hout b hb],
    fun b hb hdram => (hregs b (by simp) hdram).trans (hvk b hb), ?_, ?_, fun h => (hhst _ (by decide)).trans (hclean h)⟩
  · exact (rd64_congr (hhst _ (by decide)) (hhst _ (by decide))).trans hsum
  · rintro rfl
    refine ⟨by rw [rdB, hhst _ (by decide)]; exact herr rfl, fun i hi => ?_⟩
    rw [poisoned, hfr]
    exact hpoison i hi

/-- A window write that is disabled, too long or reaches nothing (R491, R492). -/
theorem windowWrite_refused {s : State} {off : Nat} {data : List Byte} (hon : s.hostOn = true)
    (hbad : ∀ o, s.winOwner off = some o → 2 ^ 32 ≤ off ∨ data = [] ∨ 512 < data.length ∨ 2 ^ 28 < off % 2 ^ 28 + data.length ∨
      s.winReach o (s.winAddr off) data.length = none ∨ s.winReach o (s.winAddr off) data.length = some 3) :
    ∃ t, exec (.windowWrite off data false) s = .next t ∧
      t = { s with regs := t.regs, outbox := t.outbox, msix := t.msix, freeCtr := t.freeCtr, pwr := t.pwr } ∧
      t.rdB R.HST_ERR 0 = true ∧ t.rd R.HST_REFUSED_CNT = satAdd32 (s.rd R.HST_REFUSED_CNT) 1 := by
  obtain ⟨v, hv⟩ : ∃ v, v = s.received data.length false := ⟨_, rfl⟩
  have hhost : OnlyHost s v := hv ▸ received_onlyHost s data.length false
  have hvk := (received_spec s data.length false).1.2
  rw [← hv] at hvk
  have hex := exec_windowWrite_refused hon hv (by
    rw [winOwner_onlyHost hhost, winAddr_onlyHost hhost]
    simp only [winReach_onlyHost hhost]
    exact hbad)
  obtain ⟨⟨r, x, m, f, w, hfr⟩, -, -, -, -⟩ := hostRefuse_spec v (v.winAddr off)
  obtain ⟨herr, hcnt⟩ := hostRefuse_shows v (v.winAddr off)
  refine ⟨_, hex.trans (keepQueue_of_pending (by rw [hfr, hhost.1])), by rw [hfr, hhost.1], herr, ?_⟩
  rw [hcnt, hvk _ (by decide)]

/-- A window read that is late (R492). -/
theorem windowRead_late {s : State} {fresh : Nat} {r : WinRead} (hr : Map.get? s.winReads fresh = some r)
    (hlate : r.at_.toNat + s.rdF R.HST_WIN_TMO 15 0 * 4000 ≤ s.ft.toNat) :
    ∃ t, exec (.windowReadTimeout fresh) s = .next t ∧ Map.get? t.winReads fresh = none ∧ t.mem = s.mem ∧
      t.outbox.getLast? = some (.winData fresh (List.replicate r.len 0xFF) false) ∧ t.rdB R.HST_ERR 2 = true ∧ t.rdB (R.INT_STAT 8) 4 = true := by
  have hex := exec_windowReadTimeout hr hlate
  have hgone : Map.get? (s.winLate fresh).winReads fresh = none := (Map.get?_erase ..).trans (if_pos rfl)
  obtain ⟨⟨g, x, m, f, w, href⟩, -, -, -, -⟩ := hostRefuse_spec (s.winLate fresh) r.addr
  obtain ⟨u, hu⟩ : ∃ u, u = ((s.winLate fresh).hostRefuse r.addr).setBits R.HST_ERR 4 := ⟨_, rfl⟩
  rw [← hu] at hex
  have herr : u.rdB R.HST_ERR 2 = true := by
    rw [hu, setBits_eq, rdB, rd_wr_self, bit_or, show bit (4 : Word32) 2 = true from rfl, Bool.or_true]
  have hsent := regsSent_raise u 8 4
  obtain ⟨hf, hk, -⟩ := emit_winData (u.raise 8 4) fresh (List.replicate r.len 0xFF) false
  refine ⟨_, hex.trans (keepQueue_of_pending ?_), ?_, ?_, ?_, ?_, ?_⟩
  · rw [hf, hsent, hu, href]; rfl
  · rw [hf, hsent, hu, href]; exact hgone
  · rw [hf, hsent, hu, href]; rfl
  · rw [hf]; exact List.getLast?_concat
  · rw [rdB, hk _ (by decide), raise_kept u 8 4 _ (by decide)]; exact herr
  · rw [rdB, hk _ (by decide)]; exact rdB_raise_self u 8 4 (by decide)

/-- A lost completion (R493). -/
theorem hostCpl_lost (s : State) :
    ∃ t, exec (.hostCplTimeout none) s = .next t ∧ t = { s with regs := t.regs, outbox := t.outbox, msix := t.msix } ∧
      t.rdB R.HST_ERR 3 = true ∧ t.rdB (R.INT_STAT 8) 3 = true ∧ RegsKept s t [R.HST_ERR, R.INT_STAT 8] := by
  obtain ⟨hsent, hk, herr, hint⟩ := dmaErr_spec s
  exact ⟨s.dmaErr, keepQueue_of_pending (by rw [hsent]), hsent, herr, hint, hk⟩

/-- A lost completion of a ring in host memory stops it (R140, R493). -/
theorem hostCpl_ring {s : State} {k : Nat} (hlt : k < 1024) (hen : s.ringEn (k / 16) (k % 16) = true)
    (hhost : s.rdB (R.CRG_RING_CTL (k / 16) (k % 16)) 30 = true) :
    ∃ t, exec (.hostCplTimeout (some k)) s = .next t ∧ t.ringEn (k / 16) (k % 16) = false ∧ t.ringStopped (k / 16) (k % 16) = true ∧
      t.rdF (R.CRG_RING_STAT (k / 16) (k % 16)) 30 27 = 11 ∧ t.ringWaiting (k / 16) (k % 16) = [] ∧ t.rdB R.HST_ERR 3 = true ∧ t.mem = s.mem := by
  obtain ⟨hsent, hk, herr, -⟩ := dmaErr_spec s
  have hctl : s.dmaErr.rd (R.CRG_RING_CTL (k / 16) (k % 16)) = s.rd (R.CRG_RING_CTL (k / 16) (k % 16)) :=
    hk _ (by simpa using ⟨(canon_ne_of_low (by decide) (by simp only [R.CRG_RING_CTL]; omega)).symm,
      (canon_ne_of_low (by decide) (by simp only [R.CRG_RING_CTL]; omega)).symm⟩)
  obtain ⟨hoff, hstop, hwait, hcause, -, hmem, hpend⟩ := ringStop_spec s.dmaErr (t := k / 16) (r := k % 16) (by omega) (by omega)
    (cause := 3) (by decide) none
  have hex : exec (.hostCplTimeout (some k)) s = keepQueue s (.next (s.dmaErr.ringStop (k / 16) (k % 16) 3 none)) := by
    refine congrArg (keepQueue s) (if_pos ⟨hlt, ?_, ?_⟩)
    · rw [ringEn, rdB, hctl]; exact hen
    · rw [rdB, hctl]; exact hhost
  refine ⟨_, hex.trans (keepQueue_of_pending (by rw [hpend, hsent])), hoff, hstop, hcause, hwait, ?_, by rw [hmem, hsent]⟩
  rw [rdB, ringStop_low _ _ _ _ _ _ (by decide)]
  exact herr

/-- The link comes up (R489, R493, R512). -/
theorem hostLink_up {s : State} {speed width : Nat} (flit : Bool) (hw : width = 8 ∨ width = 16) (h1 : 1 ≤ speed)
    (hmax : speed ≤ s.rdF R.HST_LINK_CTL 3 0) (hrung : s.rung ≠ 4) (hup : s.host.up = false) :
    ∃ t, exec (.hostLinkUp speed width flit) s = .next t ∧
      t = { s with regs := t.regs, outbox := t.outbox, msix := t.msix, host := { s.host with up := true } } ∧
      t.rdB R.HST_LINK_STAT 31 = true ∧ t.rdF R.HST_LINK_STAT 27 24 = speed ∧ t.rdF R.HST_LINK_STAT 20 16 = width ∧
      t.rdB R.HST_LINK_STAT 15 = (flit && speed == 6) ∧ t.rdB R.HST_LINK_STAT 14 = s.rdB R.HST_LINK_STAT 14 ∧
      t.rdB (R.INT_STAT 8) 1 = true := by
  have hspeed : speed < 16 := Nat.lt_of_le_of_lt hmax (rdF_lt s R.HST_LINK_CTL 3 0)
  obtain ⟨v, hv⟩ : ∃ v : State, v = { s.wr R.HST_LINK_STAT (linkWord speed width flit (s.rd R.HST_LINK_STAT)) with
    host := { s.host with up := true } } := ⟨_, rfl⟩
  have hex : exec (.hostLinkUp speed width flit) s = keepQueue s (.next (v.raise 8 1)) := by
    rw [hv]
    refine congrArg (keepQueue s) ((if_pos ⟨hw, h1, hmax, hrung⟩).trans ?_)
    exact congrArg Host.Outcome.next (if_neg (by simp [hup]))
  have hsent := regsSent_raise v 8 1
  have hstat : (v.raise 8 1).rd R.HST_LINK_STAT = linkWord speed width flit (s.rd R.HST_LINK_STAT) := by
    rw [raise_kept v 8 1 _ (by decide), hv]
    exact rd_wr_self s _ _
  obtain ⟨h31, h27, h20, h15, h14⟩ := linkWord_spec flit (s.rd R.HST_LINK_STAT) hspeed hw
  refine ⟨_, hex.trans (keepQueue_of_pending (by rw [hsent, hv]; rfl)), by rw [hsent, hv]; rfl, ?_⟩
  simp only [rdB, rdF, hstat]
  exact ⟨h31, h27, h20, h15, h14, rdB_raise_self v 8 1 (by decide)⟩

/-- Bus Master Enable is held (R493). -/
theorem busMaster_held {s : State} (on : Bool) (hon : s.hostOn = true) :
    ∃ t, exec (.busMasterEnable on) s = .next t ∧ t = { s with regs := t.regs, host := { s.host with bme := on } } ∧
      t.rdB R.HST_LINK_STAT 14 = on ∧ RegsKept s t [R.HST_LINK_STAT] := by
  refine ⟨{ s.wrF R.HST_LINK_STAT 14 14 (if on then 1 else 0) with host := { s.host with bme := on } },
    (congrArg (keepQueue s) (if_pos hon)).trans (keepQueue_of_pending rfl), rfl, ?_, kept_wr s R.HST_LINK_STAT _⟩
  have hbit : (s.wrF R.HST_LINK_STAT 14 14 (if on then 1 else 0)).rdB R.HST_LINK_STAT 14 = on := by
    rw [wrF_eq, rdB, rd_wr_self, bit_setFld _ _ _ _ _ (by decide), if_pos (by decide)]
    cases on <;> rfl
  exact hbit

/-- What a reset after the link went down, and one that raises its interrupt, leave of a state. -/
theorem resetDown {s t u : State} (hu : u = { s with regs := u.regs, outbox := u.outbox, msix := u.msix, host := { s.host with up := false }
                                                     winReads := [] })
    (ht : t = { u with regs := t.regs, msix := [], winReads := [], host := ⟨u.host.up, false⟩ }) :
    t.pending = s.pending ∧ t = { s with regs := t.regs, outbox := t.outbox, msix := [], winReads := [], host := ⟨false, false⟩ } := by
  constructor <;> rw [ht, hu]

theorem resetRaised {s t u : State} (hup : s.host.up = true)
    (hu : u = { s with regs := u.regs, msix := [], winReads := [], host := ⟨s.host.up, false⟩ }) (ht : RegsSent u t) :
    t.pending = s.pending ∧ t = { s with regs := t.regs, outbox := t.outbox, msix := t.msix, winReads := [], host := ⟨true, false⟩ } := by
  rw [hup] at hu
  constructor <;> rw [ht, hu]

/-- PERST_N (R468, R494). -/
theorem perstN_resets {s : State} (hrung : s.rung ≠ 4) (hup : s.host.up = true)
    (hoff : ∀ k, k < 1024 → s.ringEn (k / 16) (k % 16) = false) :
    ∃ t, exec .perstN s = .next t ∧
      t = { s with regs := t.regs, outbox := t.outbox, msix := [], winReads := [], host := ⟨false, false⟩ } ∧
      ∀ w, w < 16 → t.rdB (R.HST_WIN_CTL w) 31 = false := by
  obtain ⟨hf, -, -, -, hk⟩ := linkDown_spec hup
  have hoff' : ∀ k, k < 1024 → s.linkDown.ringEn (k / 16) (k % 16) = false := fun k hlt =>
    (ringEn_kept hk (by simp [R.HST_LINK_STAT, R.HST_LINKDOWN_CNT, R.INT_STAT]) _ _).trans (hoff k hlt)
  obtain ⟨hfr, -, hwin⟩ := hostReset_spec hoff'
  have hex : exec .perstN s = keepQueue s (.next s.linkDown.hostReset) := by
    show execPerstN s = _
    rw [execPerstN, if_neg hrung]
  obtain ⟨hpend, hend⟩ := resetDown hf hfr
  exact ⟨_, hex.trans (keepQueue_of_pending hpend), hend, hwin⟩

/-- A function level reset (R494, R515). -/
theorem functionLevel_resets {s : State} (hon : s.hostOn = true) (hoff : ∀ k, k < 1024 → s.ringEn (k / 16) (k % 16) = false) :
    ∃ t, exec .functionLevelReset s = .next t ∧
      t = { s with regs := t.regs, outbox := t.outbox, msix := t.msix, winReads := [], host := ⟨true, false⟩ } ∧
      (∀ w, w < 16 → t.rdB (R.HST_WIN_CTL w) 31 = false) ∧ t.rdB (R.INT_STAT 8) 5 = true := by
  obtain ⟨hfr, -, hwin⟩ := hostReset_spec hoff
  have hup : s.host.up = true := by simp only [hostOn, Bool.and_eq_true] at hon; exact hon.1
  have hex : exec .functionLevelReset s = keepQueue s (.next (s.hostReset.raise 8 5)) := by
    show execFunctionLevelReset s = _
    rw [execFunctionLevelReset, if_pos hon]
  obtain ⟨hpend, hend⟩ := resetRaised hup hfr (regsSent_raise s.hostReset 8 5)
  refine ⟨_, hex.trans (keepQueue_of_pending hpend), hend, fun w hw => ?_, rdB_raise_self _ 8 5 (by decide)⟩
  rw [rdB, raise_kept s.hostReset 8 5]
  · exact hwin w hw
  · simp only [List.mem_singleton, forall_eq]
    exact (canon_ne_of_split (c := 0x8200) (by decide) (by simp only [R.HST_WIN_CTL]; omega) (by decide)).symm

/-- A vector with its PBA bit is unmasked (R495). -/
theorem msixUnmask_sends {s : State} {v : Nat} {e : Msix} (hv : v < 2048) (he : Map.get? s.msix v = some e) (hm : e.mask = true)
    (hp : e.pend = true) :
    ∃ t, exec (.msixUnmask v) s = .next t ∧ t = { s with outbox := s.outbox ++ [.msix v], msix := t.msix } ∧
      Map.get? t.msix v = some { e with mask := false, pend := false } ∧ ∀ k, k ≠ v → Map.get? t.msix k = Map.get? s.msix k := by
  have hget : Map.get s.msix Msix.none v = e := by rw [Map.get, he]; rfl
  have hex : exec (.msixUnmask v) s = keepQueue s (.next
      (({ s with msix := Map.set s.msix v { e with mask := false, pend := false } } : State).emit (.msix v))) := by
    refine congrArg (keepQueue s) ((if_pos hv).trans (congrArg Host.Outcome.next ?_))
    rw [msixUnmask, hget]
    simp [hm, hp]
  exact ⟨_, hex.trans (keepQueue_of_pending rfl), rfl, Map.get?_set_self .., fun k hk => Map.get?_set_ne _ _ hk⟩

/-- Settles O47, clause by clause. -/
theorem hostPort : Obligations.HostPort := by
  refine ⟨?_, ?_, ?_, ?_, ?_, ?_, ?_, hostCpl_lost, ?_, ?_, ?_, ?_, ?_, ?_, ?_, ?_⟩
  · intro s off len fresh o hon hnew ho h32 h0 h512 hw hr hin
    exact ⟨windowRead_dram hon hnew ho h32 h0 h512 hw hr hin, windowRead_flash hon hnew ho h32 h0 h512 hw hr hin,
      windowRead_denied hon hnew ho h32 h0 h512 hw hr hin⟩
  · intro s off len fresh o hon hnew ho h32 h0 h512 hw hr
    exact windowRead_sram hon hnew ho h32 h0 h512 hw hr
  · intro s off fresh o n f hon hnew ho h32 hw hal hr w b a hlive hcarve hf hu hp
    exact windowRead_raw hon hnew ho h32 hw hal hr rfl rfl hlive hcarve hf hu hp
  · intro s off len fresh hon hnew hbad
    exact windowRead_refused hon hnew hbad
  · intro s off o data poisoned hon ho h32 hne h512 hw hr hin hd ht
    exact windowWrite_dram hon ho h32 hne h512 hw hr hin hd ht
  · intro s off data hon hbad
    exact windowWrite_refused hon hbad
  · intro s fresh r hr hlate
    exact windowRead_late hr hlate
  · intro s k hlt hen hhost
    exact hostCpl_ring hlt hen hhost
  · intro s
    obtain ⟨r, hr⟩ := countWrite_frame s 8 false
    refine ⟨s.countWrite 8 false, keepQueue_of_pending (by rw [hr]), ⟨by rw [hr], ?_⟩, countWrite_wr s 8 false⟩
    exact kept_wr s (R.GEN_WR_CNT 8) _
  · intro s hup
    obtain ⟨hf, hstat, hcnt, hint, -⟩ := linkDown_spec hup
    exact ⟨s.linkDown, keepQueue_of_pending (by rw [hf]), hf, hstat, hcnt, hint⟩
  · intro s speed width flit hw h1 hmax hrung hup
    exact hostLink_up flit hw h1 hmax hrung hup
  · intro s on hon
    exact busMaster_held on hon
  · intro s hrung hup hoff
    exact perstN_resets hrung hup hoff
  · intro s hon hoff
    exact functionLevel_resets hon hoff
  · intro s v e hv he hm hp
    exact msixUnmask_sends hv he hm hp

end Sys2Proof.Proofs
end

section
/-! PROOFS. The six collective operators (O25). -/
namespace Sys2Proof.Machine
open Sys2Proof

/-! ### Programs that may refuse -/

/-- A demand that is met. -/
theorem demand_ok {c : Bool} {e : Err} {a : Unit} : State.demand c e = .ok a ↔ c = true := by
  cases c <;> simp [State.demand]

/-- A step of a program that succeeds succeeded. -/
theorem bind_ok {α β : Type} {x : Except Err α} {f : α → Except Err β} {y : β} :
    (x >>= f) = .ok y ↔ ∃ a, x = .ok a ∧ f a = .ok y := by
  cases x <;> simp [bind, Except.bind]

/-- What follows a program that succeeds. -/
theorem match_ok {β : Type} (g : Err → β) (k : State → β) (r : Except Err State) (w : State) :
    r = .ok w → (match r with | .error e => g e | .ok u => k u) = k w := by
  rintro rfl
  rfl

/-- A relation that holds of every step of a fold that succeeds holds of the fold. -/
theorem foldl_rel_ok {α : Type} {R : State → State → Prop} (hrefl : ∀ s, R s s) (htrans : ∀ s t u, R s t → R t u → R s u)
    {f : Except Err State → α → Except Err State} (hf : ∀ acc x u, f acc x = .ok u → ∃ v, acc = .ok v ∧ R v u) (l : List α)
    {acc : Except Err State} {u : State} (h : l.foldl f acc = .ok u) : ∃ v, acc = .ok v ∧ R v u := by
  induction l generalizing acc with
  | nil => exact ⟨u, h, hrefl u⟩
  | cons x l ih =>
    obtain ⟨v, hv, hvu⟩ := ih h
    obtain ⟨w, hw, hwv⟩ := hf acc x v hv
    exact ⟨w, hw, htrans _ _ _ hwv hvu⟩

namespace State

/-! ### The slots while an output is written (R257) -/

/-- The flock slots are as they were. -/
def FlocksKept (s t : State) : Prop := t.slots = s.slots

theorem flocksKept_refl (s : State) : FlocksKept s s := rfl

theorem flocksKept_trans (s t u : State) (h : FlocksKept s t) (h' : FlocksKept t u) : FlocksKept s u := Eq.trans h' h

theorem flocksKept_writeTile (s : State) (x : Access) : FlocksKept s (s.writeTile x).1 := by
  rcases writeTile_step s x with h | ⟨k, h⟩
  · rw [FlocksKept, h]
  · rw [h]
    unfold forward reqSend
    exact rel_ite rfl rfl

theorem flocksKept_opFlags (s : State) (h : Nat) (f : NumFlags) : FlocksKept s (s.opFlags h f) := by
  unfold opFlags
  split <;> rfl

theorem flocksKept_putElem {h who : Nat} {bad : Bool} {acc : Except Err State} {p : Int × List Byte} {u : State}
    (hu : putElem h who bad acc p = .ok u) : ∃ v, acc = .ok v ∧ FlocksKept v u := by
  refine foldl_rel_ok flocksKept_refl flocksKept_trans (fun a q w hw => ?_) _ hu
  cases a with
  | error e => cases hw
  | ok v =>
    generalize hx : (⟨who, some h, .write, q.1, q.2, q.2.length, 0, none, if bad then rangeUnits q.1 q.2.length else []⟩ : Access) = x at hw
    simp only at hw
    split at hw
    · cases hw
    · split_ifs at hw
      cases hw
      exact ⟨v, rfl, flocksKept_writeTile ..⟩

theorem flocksKept_putAt {s u : State} {h who : Nat} {bad : Bool} {d : StreamDesc} {lo n : Nat} {codes scales : List Nat}
    (hu : s.putAt h who bad d lo n codes scales = .ok u) : FlocksKept s u := by
  obtain ⟨v, hv, hvu⟩ := foldl_rel_ok flocksKept_refl flocksKept_trans (fun _ _ _ hw => flocksKept_putElem hw) _ hu
  cases hv
  exact hvu

theorem flocksKept_outPut {s u : State} {c : Coll} {bad : Bool} {code e0 : Nat} {l : List (Nat × Nat)}
    (hu : s.outPut c bad code e0 l = .ok u) : FlocksKept s u := by
  unfold outPut at hu
  split at hu
  · cases hu
    exact flocksKept_refl s
  · simp only at hu
    split at hu
    · exact flocksKept_putAt hu
    · obtain ⟨v, hv, hvu⟩ := bind_ok.1 hu
      cases hvu
      exact flocksKept_trans _ _ _ (flocksKept_putAt hv) (flocksKept_opFlags ..)

/-! ### Slots -/

theorem flock_flockSet (s : State) (f g : Nat) (v : Flock) : (s.flockSet f v).flock g = if g = f then v else s.flock g := Map.get_put ..

/-- With nothing held, nothing is tested again. -/
theorem heldAgain_none {s : State} {f : Nat} (h : (s.flock f).held = []) : s.heldAgain f = s.flockSet f { s.flock f with held := [] } := by
  rw [heldAgain, h]
  rfl

/-- A collective that begins to read leaves the slots and the time. -/
theorem collTouch_frame (s : State) (c : Coll) : (s.collTouch c).slots = s.slots ∧ (s.collTouch c).ft = s.ft := by
  unfold collTouch
  split
  · exact ⟨rfl, rfl⟩
  · split
    · exact ⟨rfl, rfl⟩
    · rename_i o _ _
      obtain ⟨v, hv⟩ : ∃ v, v = s.opSet c.op { o with touched := true } := ⟨_, rfl⟩
      rw [← hv]
      have hword := (readWord_spec v o.cmd.w0).1.1
      have htiles := (reads_readTiles (v.readWord o.cmd.w0) ((match c.input with | some d => (v.readWord o.cmd.w0).fillReads d | none => []) ++
        (if c.carryIn = 0 then [] else [(c.carryIn, 4 * c.nelem)])) (.op c.op)).1
      have hkept : v.slots = s.slots ∧ v.ft = s.ft := by rw [hv]; exact ⟨rfl, rfl⟩
      refine ⟨(congrArg State.slots htiles).trans ((congrArg State.slots hword).trans hkept.1),
        (congrArg State.ft htiles).trans ((congrArg State.ft hword).trans hkept.2)⟩

/-! ### The record checked (R254 to R256) -/

/-- What a collective that checks is. -/
theorem collOf_ok {s : State} {h : Nat} {o : RunOp} {f : Nat} {k : Coll} (hk : s.collOf h o = .ok (f, k)) :
    f < 64 ∧ (s.flock f).on = true ∧ (s.flock f).owner = o.tenant ∧ k.op = h ∧ k.opcode = o.cmd.opcode.toNat ∧
      k.cseq = (s.flock f).cseq ∧ k.n = (s.flock f).live.length ∧ k.pos = s.flkPos (s.flock f) ∧ k.sent = 0 ∧ k.exp = 0 := by
  unfold collOf at hk
  simp only [bind_ok, demand_ok, exists_const] at hk
  obtain ⟨-, b, -, hhead, hslot, input, -, output, -, -, -, -, -, hend⟩ := hk
  split at hend
  · cases hend
  · simp only [bind_ok, demand_ok, exists_const] at hend
    obtain ⟨-, hfk⟩ := hend
    cases hfk
    simp only [Bool.and_eq_true, decide_eq_true_eq, beq_iff_eq] at hhead hslot
    refine ⟨?_, hslot.1, hslot.2, rfl, rfl, rfl, rfl, rfl, rfl, rfl⟩
    tauto

/-- A record that names another unit does not check. -/
theorem collOf_unit {s : State} {h : Nat} {o : RunOp} (hu : CmdRecF.unit o.cmd ≠ 5) : s.collOf h o = .error (.of 3 3) := by
  have hbad : (CmdRecF.unit o.cmd == 5 && CmdRecF.ncoreM1 o.cmd == 0) = false := by simp [hu]
  rw [collOf]
  simp only [hbad]
  rfl

/-! ### Dispatch (R265) -/

/-- The slot that takes a collective. -/
def collTaken (v : Flock) (k : Coll) : Flock :=
  { v with cseq := (v.cseq + 1) % 2 ^ 32, queue := v.queue ++ [k], aborts := v.aborts.filter (fun a => a.1 != k.cseq) }

theorem collDispatch_queued {s : State} {h : Nat} (opc : Nat) (hq : s.collQueued h = true) : s.collDispatch h opc = s := by
  unfold collDispatch
  split
  · rfl
  · exact if_neg (by simp [hq])

theorem collDispatch_error {s : State} {h opc : Nat} {o : RunOp} {e : Err} (hi : OpIssued s h opc o) (hq : s.collQueued h = false)
    (he : s.collOf h o = .error e) : s.collDispatch h opc = s.opErr h e := by
  obtain ⟨ho, hd, hr, hc, hop⟩ := hi
  simp only [collDispatch, ho]
  rw [if_pos ⟨hd, hr, hc, hop, hq⟩, he]

theorem collDispatch_ok {s : State} {h opc f : Nat} {o : RunOp} {k : Coll} (hi : OpIssued s h opc o) (hq : s.collQueued h = false)
    (hk : s.collOf h o = .ok (f, k))
    (hred : k.reduces = true → s.pendExtents.length + (s.redExtents k).length ≤ 256 ∧ spansMeet (s.redExtents k) s.convDests = false)
    (hab : (s.flock f).aborts.find? (fun a => a.1 == k.cseq) = none) : s.collDispatch h opc = s.flockSet f (collTaken (s.flock f) k) := by
  obtain ⟨ho, hd, hr, hc, hop⟩ := hi
  have hgo : ¬(k.reduces && (decide (256 < s.pendExtents.length + (s.redExtents k).length) || spansMeet (s.redExtents k) s.convDests)) = true := by
    rw [Bool.and_eq_true]
    rintro ⟨hk, hmeet⟩
    obtain ⟨hlen, hno⟩ := hred hk
    simp [hno, Nat.not_lt.2 hlen] at hmeet
  simp only [collDispatch, ho]
  rw [if_pos ⟨hd, hr, hc, hop, hq⟩, hk]
  simp only
  rw [if_neg hgo, hab]
  rfl

/-- An operator's first error of a CODE and DETAIL alone, none of a refused descriptor. -/
theorem opErr_of {s : State} {h code detail : Nat} {o : RunOp} (ho : s.op? h = some o) (hc : o.code = 0) (h2 : code ≠ 2) :
    s.opErr h (.of code detail) = (s.opSet h { o with code := BitVec.ofNat 8 code, detail := BitVec.ofNat 8 detail, failUnit := 0 }).opSet h
      { o with ran := true, code := BitVec.ofNat 8 code, detail := BitVec.ofNat 8 detail, failUnit := 0 } := by
  have hon : s.opErrOn h (.of code detail) = s.opSet h { o with code := BitVec.ofNat 8 code, detail := BitVec.ofNat 8 detail, failUnit := 0 } := by
    simp only [opErrOn, Err.of, Option.getD_none, ho, opFail, if_pos hc, if_neg h2]
  simp only [opErr, hon, op?_opSet_self]

/-! ### The start (R265) -/

/-- The chunks of its own part that a collective writes as it starts. -/
def ownChunks (c : Coll) : List Nat :=
  if c.opcode = 0x0601 then c.seg c.pos else if c.opcode = 0x0603 ∧ c.pos = c.root then List.range c.nchunk else []

/-- A collective writes its own part. -/
def ownWritten (c : Coll) (s : State) : Except Err State :=
  match c.input with
  | none => .ok s
  | some d => (ownChunks c).foldl (fun (acc : Except Err State) j => match acc with
      | .error e => .error e
      | .ok u => (u.opFlags c.op (u.inputNi c (c.inElem (c.lo j)) (c.len j))).outPut c (u.elemsBad c.input (c.inElem (c.lo j)) (c.len j)) c.wire (c.lo j)
          (u.codesAt d (c.inElem (c.lo j)) (c.len j))) (.ok s)

theorem flocksKept_ownWritten {c : Coll} {s u : State} (hu : ownWritten c s = .ok u) : FlocksKept s u := by
  unfold ownWritten at hu
  split at hu
  · cases hu
    exact flocksKept_refl s
  · obtain ⟨v, hv, hvu⟩ := foldl_rel_ok flocksKept_refl flocksKept_trans (fun acc j w hw => by
      cases acc with
      | error e => cases hw
      | ok v => exact ⟨v, rfl, flocksKept_trans _ _ _ (flocksKept_opFlags ..) (flocksKept_outPut hw)⟩) _ hu
    cases hv
    exact hvu

theorem exec_collectiveStart_idle {s : State} {f : Nat} (h : (s.flock f).run ≠ none ∨ (s.flock f).queue = []) :
    exec (.collectiveStart f) s = keepQueue s (.next s) := by
  show execCollectiveStart f s = _
  rw [execCollectiveStart]
  simp only
  split
  · rename_i hrun hq
    rw [hrun, hq] at h
    simp at h
  · rfl

theorem exec_collectiveStart_waits {s : State} {f : Nat} {c : Coll} {l : List Coll} (hrun : (s.flock f).run = none)
    (hq : (s.flock f).queue = c :: l) (hr : (s.collTouch c).reading (.op c.op) = true) :
    exec (.collectiveStart f) s = keepQueue s (.next (s.collTouch c)) := by
  show execCollectiveStart f s = _
  rw [execCollectiveStart]
  simp only [hrun, hq, hr, if_true]

/-- The head of the queue starts: it is written as running, puts its own part into its output, and chunks held are tested again. -/
theorem exec_collectiveStart {s w : State} {f : Nat} {c k : Coll} {l : List Coll} (hrun : (s.flock f).run = none)
    (hq : (s.flock f).queue = c :: l) (hr : (s.collTouch c).reading (.op c.op) = false) (hbad : c.bad = false)
    (hk : k = { c with lastRx := s.ft })
    (hw : ownWritten k ((s.collTouch c).flockSet f { s.flock f with run := some k, queue := l }) = .ok w) :
    exec (.collectiveStart f) s = keepQueue s (.next (w.heldAgain f)) := by
  have hft := (collTouch_frame s c).2
  show execCollectiveStart f s = _
  rw [execCollectiveStart]
  subst hk
  have hclean (u : State) (a : Nat) : u.markPoison c.op c.bad a = u := by rw [hbad]; rfl
  simp only [hrun, hq, hr, Bool.false_eq_true, if_false, hft, hclean]
  exact congrArg (keepQueue s) (match_ok (β := Out) _ (fun u => .next (u.heldAgain f)) _ _ hw)

end State
end Sys2Proof.Machine

namespace Sys2Proof.Proofs
open Sys2Proof Sys2Proof.Machine Sys2Proof.Machine.State

/-- Every one of the six runs by dispatch to its slot. -/
theorem exec_collective {h opc : Nat} {c : Instr}
    (hc : (c, opc) ∈ [(Instr.reduceScatter h, 0x0600), (.allGather h, 0x0601), (.allReduce h, 0x0602), (.broadcast h, 0x0603), (.send h, 0x0604),
      (.recv h, 0x0605)]) (s : State) : exec c s = keepQueue s (.next (s.collDispatch h opc)) := by
  simp only [List.mem_cons, Prod.mk.injEq, List.not_mem_nil, or_false] at hc
  rcases hc with ⟨rfl, rfl⟩ | ⟨rfl, rfl⟩ | ⟨rfl, rfl⟩ | ⟨rfl, rfl⟩ | ⟨rfl, rfl⟩ | ⟨rfl, rfl⟩ <;> rfl

/-- A collective that starts runs, the rest of the queue waits, and no other slot changes. -/
theorem collective_runs {s w : State} {f : Nat} {c k : Coll} {l : List Coll} (hrun : (s.flock f).run = none)
    (hq : (s.flock f).queue = c :: l) (hheld : (s.flock f).held = []) (hr : (s.collTouch c).reading (.op c.op) = false) (hbad : c.bad = false)
    (hk : k = { c with lastRx := s.ft })
    (hw : ownWritten k ((s.collTouch c).flockSet f { s.flock f with run := some k, queue := l }) = .ok w)
    (hslots : w.slots = ((s.collTouch c).flockSet f { s.flock f with run := some k, queue := l }).slots) :
    ∃ t, exec (.collectiveStart f) s = .next t ∧ t = { w with slots := t.slots, pending := s.pending } ∧
      t.flock f = { s.flock f with run := some k, queue := l } ∧ ∀ g, g ≠ f → t.flock g = s.flock g := by
  have hex := exec_collectiveStart hrun hq hr hbad hk hw
  have hflock (g : Nat) : w.flock g = if g = f then { s.flock f with run := some k, queue := l } else s.flock g := by
    have htouch : (s.collTouch c).flock g = s.flock g := by rw [flock, flock, (collTouch_frame s c).1]
    rw [flock, hslots, ← flock, flock_flockSet, htouch]
  have hself := (hflock f).trans (if_pos rfl)
  rw [heldAgain_none (by rw [hself]; exact hheld)] at hex
  refine ⟨_, hex, rfl, ?_, fun g hne => ?_⟩
  · refine ((flock_flockSet w f f _).trans (if_pos rfl)).trans ?_
    rw [hself, ← hheld]
  · exact ((flock_flockSet w f g _).trans (if_neg hne)).trans ((hflock g).trans (if_neg hne))

/-- Settles O25, clause by clause. -/
theorem collectiveOperators : Obligations.CollectiveOperators := by
  refine ⟨?_, ?_, ?_, ?_⟩
  · intro s h opc o c hi hc
    have hex := exec_collective hc s
    obtain ⟨ho, -, -, hcode, hopc⟩ := id hi
    refine ⟨fun hq => ?_, fun e hq he hl => ?_, fun hq hu => ?_, fun f k hq hk => ?_, fun f k hq hk hred hab => ?_⟩
    · rw [hex, collDispatch_queued opc hq]
      rfl
    · rw [collDispatch_error hi hq he] at hex
      obtain ⟨hf, ⟨q, hq', hran, hcd, hdt⟩, hothers⟩ := opErr_first hl ho hcode
      exact ⟨_, q, hex.trans (keepQueue_of_pending (by rw [hf])), hf, hq', hran, hcd, hdt, hothers⟩
    · rw [collDispatch_error hi hq (collOf_unit hu), opErr_of ho hcode (by decide)] at hex
      exact ⟨_, hex.trans (keepQueue_of_pending rfl), rfl, op?_opSet_self .., fun k hk => (op?_opSet_ne _ _ hk).trans (op?_opSet_ne _ _ hk)⟩
    · have := collOf_ok hk
      rwa [hopc] at this
    · rw [collDispatch_ok hi hq hk hred hab] at hex
      obtain ⟨-, -, -, -, -, hcseq, -⟩ := collOf_ok hk
      exact ⟨_, hex.trans (keepQueue_of_pending rfl), rfl, (flock_flockSet ..).trans (if_pos rfl),
        fun g hg => (flock_flockSet ..).trans (if_neg hg)⟩
  · intro s f h
    rw [exec_collectiveStart_idle h]
    rfl
  · rintro s _ f c l hrun hq rfl
    refine ⟨fun hr => exec_collectiveStart_waits hrun hq hr, fun hr hheld hbad hop => ?_⟩
    obtain ⟨k, hk⟩ : ∃ k, k = { c with lastRx := s.ft } := ⟨_, rfl⟩
    have hnone : ownChunks k = [] := by
      rw [hk, ownChunks]
      rw [if_neg, if_neg]
      · rintro ⟨h3, hroot⟩
        simp only at h3 hroot
        omega
      · simp only
        omega
    have hown (u : State) : ownWritten k u = .ok u := by
      unfold ownWritten
      rw [hnone]
      split <;> rfl
    have hend := collective_runs hrun hq hheld hr hbad hk (hown _) rfl
    rw [hk] at hend
    exact hend
  · rintro s u w f c k l d hrun hq hheld hbad hin hr hop hk rfl hfold
    have hchunks : ownChunks k = if c.opcode = 0x0601 then c.seg c.pos else List.range c.nchunk := by
      rw [hk, ownChunks]
      rcases hop with hop | ⟨hop, hroot⟩ <;> simp only [hop, if_true]
      · rfl
      · simp only [hroot, and_true, if_true]
        rfl
    have hown : ownWritten k ((s.collTouch c).flockSet f { s.flock f with run := some k, queue := l }) = .ok w := by
      have hop' : k.op = c.op := by rw [hk]
      have hin' : k.input = some d := by rw [hk]; exact hin
      rw [ownWritten, hin', hchunks, hop']
      exact hfold
    have hslots : FlocksKept ((s.collTouch c).flockSet f { s.flock f with run := some k, queue := l }) w :=
      flocksKept_ownWritten hown
    exact collective_runs hrun hq hheld hr hbad hk hown hslots

end Sys2Proof.Proofs
end

section
/-! PROOFS. Moves of tiles (O15). -/
namespace Sys2Proof.Machine
open Sys2Proof

/-- A value changed in place reads changed; every other is as it was. -/
theorem Map.get?_modify {α : Type} (m : Map α) (k j : Nat) (f : α → α) :
    Map.get? (Map.modify m k f) j = if j = k then (Map.get? m j).map f else Map.get? m j := by
  induction m with
  | nil => simp [Map.modify, Map.get?]
  | cons p m ih =>
    have hkey : (if p.1 = k then (p.1, f p.2) else p).1 = p.1 := by split <;> rfl
    simp only [Map.modify, Map.get?, List.map_cons, List.find?_cons, hkey] at ih ⊢
    by_cases hp : p.1 = j
    · subst hp
      simp only [beq_self_eq_true, Option.map_some]
      split <;> rfl
    · simp only [beq_eq_false_iff_ne.2 hp]
      exact ih

namespace State

/-! ### What does not follow where nothing waits (R153, R164) -/

/-- With no access waiting, none is applied. -/
theorem applyHeld_none {s : State} (n : Nat) (h : s.ms.waits = []) : s.applyHeld n = s := by
  have hms : { s.ms with waits := [] } = s.ms := by rw [← h]
  simp only [applyHeld, h, List.filter_nil, List.foldl_nil, hms]

/-- With no evacuation begun, none ends. -/
theorem evacEnd_none {s : State} (k : Nat) (h : s.ms.evacuating = []) : s.evacEnd k = s := if_neg (by simp [h])

/-! ### TILE_MOVE and PREFETCH over one tile (R159) -/

/-- Is the record of a TILE_MOVE (`mv`) or a PREFETCH refused: a bad span, or a field of a value it may not have? -/
def SpanBad (o : RunOp) (mv : Bool) : Prop :=
  o.cmd.w0.toNat % tileBytes ≠ 0 ∨ o.cmd.w1.toNat = 0 ∨ 65536 < o.cmd.w1.toNat ∨ uniEnd < o.cmd.w0.toNat + o.cmd.w1.toNat * tileBytes ∨
    o.cmd.w2.toNat &&& (if mv then 0x3F3 else 0x100) ≠ o.cmd.w2.toNat ∨
    (mv && o.cmd.w2.toNat / 16 % 16 != 0 && o.cmd.w2.toNat % 4 != 1) ∨ 11 < o.cmd.w2.toNat / 16 % 16 ∨
    o.cmd.w3 ≠ 0 ∨ o.cmd.w4 ≠ 0 ∨ o.cmd.w5 ≠ 0 ∨ o.cmd.w6 ≠ 0 ∨ o.cmd.w7 ≠ 0

/-- Where a record sends its tiles. -/
def spanDest (o : RunOp) (mv : Bool) : MoveDest :=
  if mv then (if o.cmd.w2.toNat % 4 = 0 then .place else if o.cmd.w2.toNat % 4 = 1 then .stack (o.cmd.w2.toNat / 16 % 16)
    else if o.cmd.w2.toNat % 4 = 2 then .flash else .discard) else .place

/-- The state in which an operator has run. -/
def ranSet (s : State) (h : Nat) (o : RunOp) : State := s.opSet h { o with ran := true }

theorem spanMove_bad {s : State} {h opc : Nat} {o : RunOp} (hi : OpIssued s h opc o) (hbad : SpanBad o (opc == 0x0010)) :
    s.spanMove h opc = (s.ranSet h o).opFail h 3 3 := by
  obtain ⟨ho, hd, hr, hc, hop⟩ := hi
  simp only [spanMove, ho]
  rw [if_pos ⟨hd, hr, hc, hop⟩]
  exact if_pos hbad

/-- A record of one tile that neither pins nor unpins. -/
theorem spanMove_one {s : State} {h opc n : Nat} {o : RunOp} {mv : Bool} (hi : OpIssued s h opc o) (hmv : (opc == 0x0010) = mv)
    (hok : ¬SpanBad o mv) (hw0 : o.cmd.w0.toNat = n * tileBytes) (hw1 : o.cmd.w1 = 1) (h8 : o.cmd.w2.toNat.testBit 8 = false)
    (h9 : o.cmd.w2.toNat.testBit 9 = false) :
    s.spanMove h opc = moveTile h o.tenant (spanDest o mv) false false (!mv) (s.ranSet h o) n := by
  obtain ⟨ho, hd, hr, hc, hop⟩ := hi
  subst hmv
  have hspan : (List.range o.cmd.w1.toNat).map (fun i => o.cmd.w0.toNat / tileBytes + i) = [n] := by
    rw [hw1, hw0, Nat.mul_div_cancel n (by decide : 0 < tileBytes)]
    rfl
  simp only [spanMove, ho]
  rw [if_pos ⟨hd, hr, hc, hop⟩]
  refine (if_neg hok).trans ?_
  rw [hspan, h8, h9, Bool.and_false]
  rfl

/-- A record of one tile with a destination alone is not refused. -/
theorem not_spanBad {o : RunOp} {n : Nat} {mv : Bool} (hw0 : o.cmd.w0.toNat = n * tileBytes) (hend : (n + 1) * tileBytes ≤ uniEnd)
    (hw1 : o.cmd.w1 = 1) (hw2 : o.cmd.w2 = 0 ∨ (mv = true ∧ (o.cmd.w2 = 2 ∨ o.cmd.w2 = 3))) (hw3 : o.cmd.w3 = 0) (hw4 : o.cmd.w4 = 0)
    (hw5 : o.cmd.w5 = 0) (hw6 : o.cmd.w6 = 0) (hw7 : o.cmd.w7 = 0) : ¬SpanBad o mv := by
  have hspan : n * tileBytes + tileBytes ≤ uniEnd := by rwa [Nat.add_one_mul] at hend
  have hone : (1 : Word64).toNat = 1 := rfl
  rw [SpanBad, hw0, hw1, hone, hw3, hw4, hw5, hw6, hw7, Nat.mul_mod_left]
  rcases hw2 with hw2 | ⟨rfl, hw2 | hw2⟩
  · rw [hw2]
    cases mv <;> simp [hspan]
  · rw [hw2]
    simp [hspan]
  · rw [hw2]
    simp [hspan]

/-- An ask is the only one. -/
theorem askMove_new {s : State} {a : MoveAsk} (hasks : s.ms.asks = []) (hmove : Map.get? s.ms.moves a.tile = none) :
    s.askMove a = { s with ms := { s.ms with asks := [a] } } := by
  rw [askMove, hasks, hmove]
  rfl

/-- A tile to leave DRAM for flash is asked for. -/
theorem moveTile_flash {s : State} {h who n : Nat} (hd : s.moveDeny who n false = none) (hst : (s.tile n).st = .dram)
    (hpin : (s.tile n).pin = false) (htier : rgnTier (s.rgn (n / 65536)) ≠ 1) :
    moveTile h who .flash false false false s n = s.askMove ⟨n, .op h, .flash, false⟩ := by
  have hno : (MoveDest.flash == MoveDest.discard) = false := rfl
  simp [moveTile, hno, hd, hst, atDest, moveBad, hpin, htier]

/-- A flash tile to come to DRAM is asked for. -/
theorem moveTile_place {s : State} {h who n : Nat} (hd : s.moveDeny who n false = none) (hst : (s.tile n).st = .flash)
    (htier : rgnTier (s.rgn (n / 65536)) ≠ 2) :
    moveTile h who .place false false true s n = s.askMove ⟨n, .op h, .place, false⟩ := by
  have hno : (MoveDest.place == MoveDest.discard) = false := rfl
  simp [moveTile, hno, hd, hst, atDest, moveBad, htier]

/-- A tile to be discarded is, unless something holds it. -/
theorem moveTile_discard {s : State} {h who n : Nat} (hd : s.moveDeny who n true = none) (hst : (s.tile n).st = .dram) :
    moveTile h who .discard false false false s n = if s.tileBusy n then s.askMove ⟨n, .op h, .discard, false⟩ else s.discardAny n := by
  simp [moveTile, hd, hst]

/-- A DRAM tile discarded: UNALLOC, its frame free, its bytes blank. -/
theorem discardTile_dram {s : State} {n : Nat} (hst : (s.tile n).st = .dram) :
    s.discardTile n = { s with mem := Mem.clear s.mem (n * tileBytes) tileBytes, ms := (s.discardTile n).ms } ∧
    Map.get? (s.discardTile n).ms.frames (s.tile n).loc = none ∧
    ∀ k, (s.discardTile n).tile k = if k = n then Tile.none else s.tile k := by
  have hms : (s.discardTile n).ms = (((s.freeFrameAt (s.tile n).loc).tileSet n Tile.none).clearPoison (n * tileBytes) tileBytes).ms := by
    simp only [discardTile, hst]
    rfl
  refine ⟨?_, ?_, fun k => ?_⟩
  · simp only [discardTile, hst]
    rfl
  · rw [hms]
    exact (Map.get?_erase s.ms.frames _ _).trans (if_pos rfl)
  · rw [tile, hms]
    exact tile_tileSet (s.freeFrameAt (s.tile n).loc) n k Tile.none

/-- A tile discarded from DRAM, with no evacuation begun. -/
theorem discardAny_dram {s : State} {n : Nat} (hst : (s.tile n).st = .dram) (hmodel : s.modelTile n = false) (hevac : s.ms.evacuating = []) :
    s.discardAny n = s.discardTile n := by
  have hkept : (s.discardTile n).ms.evacuating = s.ms.evacuating := by
    unfold discardTile
    simp only
    split
    · rfl
    · split <;> rfl
  simp only [discardAny, hmodel, hst, Bool.false_and, Bool.false_eq_true, if_false, if_true, reduceCtorEq]
  exact evacEnd_none _ (hkept.trans hevac)

/-! ### Moves that start (R152) -/

theorem exec_moveStart {s : State} {a : MoveAsk} (h : s.ms.asks = [a]) : exec (.moveStart a.tile) s = keepQueue s (.next (s.startAsk a)) := by
  show execMoveStart a.tile s = _
  rw [execMoveStart, h]
  simp

/-- Is a tile already where the ask would have it: in DRAM, and asked for by a PREFETCH (R159)? -/
def stays (s : State) (home : Home) (a : MoveAsk) : Bool :=
  home == .dram && (match a.why with | .op h => (s.op? h).any (fun p => p.cmd.opcode == 0x0011) | _ => false)

theorem stays_false {s : State} {home : Home} {a : MoveAsk}
    (h : home = .dram → ∀ k o, a.why = .op k → s.op? k = some o → o.cmd.opcode ≠ 0x0011) : s.stays home a = false := by
  unfold stays
  by_cases hdram : home = .dram
  · cases hw : a.why with
    | op k =>
      cases ho : s.op? k with
      | none => simp [ho]
      | some o => simpa [ho] using fun _ => h hdram k o hw ho
    | _ => simp
  · simp [hdram]

/-- A move asked for to flash or to DRAM by placement starts where nothing stands against it and its mover has a place. -/
theorem startAsk_here {s : State} {a : MoveAsk} (hdest : a.dest = .flash ∨ a.dest = .place) (hwhy : a.why ≠ .evacuate)
    (hmove : Map.get? s.ms.moves a.tile = none) (haway : Map.get? s.away a.tile = none)
    (hst : (s.tile a.tile).st = .dram ∨ (s.tile a.tile).st = .flash) (hat : s.atDest a.tile a.dest = false)
    (hstay : (s.tile a.tile).st = .dram → ∀ h o, a.why = .op h → s.op? h = some o → o.cmd.opcode ≠ 0x0011)
    (hbad : s.moveBad a.tile a.dest = false)
    (hload : s.moverLoad (s.moverOf a.tile (s.tile a.tile) a.dest) < s.rdF (R.MPD_MOVER_CTL (s.moverOf a.tile (s.tile a.tile) a.dest)) 5 0) :
    s.startAsk a = s.startHere (s.moverOf a.tile (s.tile a.tile) a.dest) a := by
  have hw : (a.why == .evacuate) = false := by simpa using hwhy
  have hno : ¬((s.atDest a.tile a.dest || s.stays (s.tile a.tile).st a) && a.why != .evacuate) = true := by simp [hat, stays_false hstay]
  have hok : ¬(a.why != .evacuate && s.moveBad a.tile a.dest) = true := by simp [hbad]
  have hev : ¬(a.why == .evacuate && !((s.tile a.tile).st == .dram && s.ms.evacuating.contains (stackOf (s.tile a.tile).loc))) = true := by
    simp [hw]
  obtain ⟨n, w, d, pin⟩ := a
  unfold startAsk
  simp only [hmove, haway, Option.isSome_none, Bool.or_self, Bool.false_eq_true, if_false]
  rcases hdest with rfl | rfl <;> rcases hst with ht | ht <;> simp only [ht] at hno hev ⊢ <;>
    exact (if_neg hno).trans ((if_neg hok).trans ((if_neg hev).trans (if_pos hload)))

/-- New contents have a page (R166). -/
theorem placePage_frame (s : State) (lt : Nat) : ∃ nand, s.placePage lt = { s with freeCtr := s.freeCtr + 1, ms := { s.ms with nand := nand } } :=
  ⟨_, rfl⟩

/-- A flash program that starts is outstanding, and its bytes have a page (R165, R175). -/
theorem program_frame (s : State) (lt n : Nat) (b : Bool) : ∃ r nand, s.program lt n b = { s with
    regs := r, freeCtr := s.freeCtr + 1
    ms := { s.ms with nand := nand, progs := Map.set s.ms.progs (Map.nextKey s.ms.progs) ⟨lt, n, b⟩ } } := by
  obtain ⟨v, hv⟩ : ∃ v, v = (s.add64 R.FTL_HOST_WR_LO 1).add64 R.FTL_NAND_WR_LO 1 := ⟨_, rfl⟩
  obtain ⟨nand, hpage⟩ := placePage_frame v lt
  refine ⟨v.regs, nand, ?_⟩
  unfold program
  rw [← hv]
  simp only
  rw [hpage, hv]
  rfl

/-- The memory system alone changes. -/
def MsOnly (s t : State) : Prop := t = { s with ms := t.ms }

theorem msOnly_trans {s t u : State} (h : MsOnly s t) (h' : MsOnly t u) : MsOnly s u := by rw [MsOnly, h', h]

theorem msOnly_ms (s : State) (m : MemSys) : MsOnly s { s with ms := m } := rfl

/-- A move is under way. -/
def moveSet (s : State) (n : Nat) (m : Move) : State := { s with ms := { s.ms with moves := Map.set s.ms.moves n m } }

/-- A move to flash under way: its ask is gone, its flash tile is taken, and its home is marked. -/
def movingToFlash (s : State) (n m : Nat) (a : MoveAsk) (lt : Nat) : State :=
  (((s.unask a).takeFlash lt n).moveSet n ⟨m, a.why, false, (s.tile n).loc, true, lt, a.pin, true, false⟩).tileSet n
    { s.tile n with st := .movingD }

theorem movingToFlash_spec (s : State) (n m : Nat) (a : MoveAsk) (lt : Nat) :
    s.movingToFlash n m a lt = { s with ms := (s.movingToFlash n m a lt).ms } ∧
    (s.movingToFlash n m a lt).ms.asks = s.ms.asks.erase a ∧
    (∀ k, (s.movingToFlash n m a lt).tile k = if k = n then { s.tile n with st := .movingD } else s.tile k) ∧
    Map.get? (s.movingToFlash n m a lt).ms.ftiles lt = some n ∧
    Map.get? (s.movingToFlash n m a lt).ms.moves n = some ⟨m, a.why, false, (s.tile n).loc, true, lt, a.pin, true, false⟩ ∧
    (s.movingToFlash n m a lt).ms.progs = s.ms.progs := by
  refine ⟨?_, rfl, fun k => ?_, ?_, ?_, rfl⟩
  · exact msOnly_trans (msOnly_trans (msOnly_trans (msOnly_ms s _) (msOnly_ms _ _)) (msOnly_ms _ _)) (msOnly_ms _ _)
  · rw [movingToFlash, tile_tileSet]
    rfl
  · exact Map.get?_set_self s.ms.ftiles lt n
  · exact Map.get?_set_self s.ms.moves n _

theorem beginFlash_eq (s : State) (n m : Nat) (a : MoveAsk) (lt : Nat) :
    s.beginFlash n m a lt = ((s.movingToFlash n m a lt).countDram false (n * tileBytes) tileBytes).program lt n true := rfl

/-- The start of a move to flash (R152, R165). -/
theorem beginFlash_spec (s : State) (n m : Nat) (a : MoveAsk) (lt : Nat) :
    ∃ t, s.beginFlash n m a lt = t ∧ t = { s with regs := t.regs, ms := t.ms, freeCtr := t.freeCtr } ∧ t.ms.asks = s.ms.asks.erase a ∧
    (∀ k, t.tile k = if k = n then { s.tile n with st := .movingD } else s.tile k) ∧ Map.get? t.ms.ftiles lt = some n ∧
    Map.get? t.ms.moves n = some ⟨m, a.why, false, (s.tile n).loc, true, lt, a.pin, true, false⟩ ∧
    Map.get? t.ms.progs (Map.nextKey s.ms.progs) = some ⟨lt, n, true⟩ := by
  obtain ⟨hf, hasks, htile, hft, hmove, hprogs⟩ := movingToFlash_spec s n m a lt
  rw [beginFlash_eq]
  generalize s.movingToFlash n m a lt = v at *
  have hcount := (countDram_counts v false (n * tileBytes) tileBytes).1
  generalize v.countDram false (n * tileBytes) tileBytes = c at *
  obtain ⟨r, nand, hprog⟩ := program_frame c lt n true
  have hms : c.ms = v.ms := by rw [hcount]
  rw [hms, hprogs] at hprog
  refine ⟨_, hprog, ?_, hasks, htile, hft, hmove, Map.get?_set_self ..⟩
  rw [hcount, hf]

/-- A move to DRAM under way: its ask is gone, its frame is taken, and its home is marked. -/
def movingToDram (s : State) (n m : Nat) (a : MoveAsk) (loc : Nat) : State :=
  (((s.unask a).takeFrame loc (.dest n) (s.tileOwner n)).moveSet n
    ⟨m, a.why, true, (s.tile n).loc, false, loc, a.pin, false, false⟩).tileSet n { s.tile n with st := .movingF }

theorem movingToDram_spec (s : State) (n m : Nat) (a : MoveAsk) (loc : Nat) :
    s.movingToDram n m a loc = { s with ms := (s.movingToDram n m a loc).ms } ∧
    (s.movingToDram n m a loc).ms.asks = s.ms.asks.erase a ∧
    (∀ k, (s.movingToDram n m a loc).tile k = if k = n then { s.tile n with st := .movingF } else s.tile k) ∧
    Map.get? (s.movingToDram n m a loc).ms.frames loc = some ⟨.dest n, s.tileOwner n, true, false⟩ ∧
    Map.get? (s.movingToDram n m a loc).ms.moves n = some ⟨m, a.why, true, (s.tile n).loc, false, loc, a.pin, false, false⟩ ∧
    (s.movingToDram n m a loc).ms.reads = s.ms.reads := by
  refine ⟨?_, rfl, fun k => ?_, ?_, ?_, rfl⟩
  · exact msOnly_trans (msOnly_trans (msOnly_trans (msOnly_ms s _) (msOnly_ms _ _)) (msOnly_ms _ _)) (msOnly_ms _ _)
  · rw [movingToDram, tile_tileSet]
    rfl
  · exact Map.get?_set_self s.ms.frames loc _
  · exact Map.get?_set_self s.ms.moves n _

theorem beginDram_eq {s : State} {n : Nat} (m : Nat) (a : MoveAsk) (loc : Nat) (hst : (s.tile n).st = .flash) :
    s.beginDram n m a loc = (s.movingToDram n m a loc).flashRead n .move := by
  have hsrc : ((s.tile n).st == .flash) = true := by rw [hst]; rfl
  simp only [beginDram, hsrc, if_true, Bool.not_true]
  rfl

/-- The start of a move of a flash tile to DRAM (R152, R165). -/
theorem beginDram_spec {s : State} {n : Nat} (m : Nat) (a : MoveAsk) (loc : Nat) (hst : (s.tile n).st = .flash) :
    ∃ t, s.beginDram n m a loc = t ∧ t = { s with ms := t.ms } ∧ t.ms.asks = s.ms.asks.erase a ∧
    (∀ k, t.tile k = if k = n then { s.tile n with st := .movingF } else s.tile k) ∧
    (∃ f, Map.get? t.ms.frames loc = some f ∧ f.use = .dest n) ∧
    Map.get? t.ms.moves n = some ⟨m, a.why, true, (s.tile n).loc, false, loc, a.pin, false, false⟩ ∧
    Map.get? t.ms.reads (Map.nextKey s.ms.reads) = some ⟨n, s.ft, .move, false, none⟩ := by
  obtain ⟨hf, hasks, htile, hframe, hmove, hreads⟩ := movingToDram_spec s n m a loc
  rw [beginDram_eq m a loc hst]
  generalize s.movingToDram n m a loc = v at *
  have hmoving : (v.tile n).st = .movingF := by rw [htile n, if_pos rfl]
  have hft : v.ft = s.ft := by rw [hf]
  have hread : v.flashRead n .move = { v with ms := { v.ms with reads := Map.set s.ms.reads (Map.nextKey s.ms.reads) ⟨n, s.ft, .move, false, none⟩ } } := by
    rw [flashRead, if_pos (by rw [hmoving]; rfl), hreads, hft]
  refine ⟨_, hread, ?_, hasks, htile, ⟨_, hframe, rfl⟩, hmove, Map.get?_set_self ..⟩
  rw [hf]

/-! ### Moves that commit (R152 to R154) -/

/-- The source of a move is free. -/
def sourceFreed (s : State) (m : Move) : State := if m.srcFlash then s.freeFlashAt m.src else s.freeFrameAt m.src

/-- The destination of a move holds its tile. -/
def destTaken (s : State) (n : Nat) (m : Move) : State :=
  if m.dstFlash then s else s.framesSet (Map.modify s.ms.frames m.dst (fun f => { f with use := .tile n }))

/-- The source of a move is free, and its destination is the tile's home. -/
def homed (s : State) (n : Nat) (m : Move) : State :=
  let u := ((s.sourceFreed m).destTaken n m).tileSet n ⟨if m.dstFlash then .flash else .dram,
    if m.dstFlash then (s.tile n).pin else ((s.tile n).pin || m.pin), m.dst, m.dstFlash && m.why == .evacuate⟩
  { u with ms := { u.ms with moves := Map.erase u.ms.moves n } }

theorem sourceFreed_msOnly (s : State) (m : Move) : MsOnly s (s.sourceFreed m) := by
  unfold sourceFreed
  split <;> exact msOnly_ms s _

theorem destTaken_msOnly (s : State) (n : Nat) (m : Move) : MsOnly s (s.destTaken n m) := by
  unfold destTaken
  split
  · rfl
  · exact msOnly_ms s _

theorem homed_msOnly (s : State) (n : Nat) (m : Move) : MsOnly s (s.homed n m) :=
  msOnly_trans (msOnly_trans (msOnly_trans (sourceFreed_msOnly s m) (destTaken_msOnly _ n m)) (msOnly_ms _ _)) (msOnly_ms _ _)

/-- The source and the destination of a commit leave the tiles, what waits, what evacuates and the moves. -/
theorem destTaken_keeps (s : State) (n : Nat) (m : Move) : ((s.sourceFreed m).destTaken n m).ms.tiles = s.ms.tiles ∧
    ((s.sourceFreed m).destTaken n m).ms.waits = s.ms.waits ∧ ((s.sourceFreed m).destTaken n m).ms.evacuating = s.ms.evacuating ∧
    ((s.sourceFreed m).destTaken n m).ms.moves = s.ms.moves := by
  unfold destTaken sourceFreed
  split <;> split <;> exact ⟨rfl, rfl, rfl, rfl⟩

/-- A commit leaves the copies of the table. -/
theorem tbl_homed (s : State) (n : Nat) (m : Move) : (s.homed n m).ms.tblA = s.ms.tblA ∧ (s.homed n m).ms.tblB = s.ms.tblB := by
  unfold homed destTaken sourceFreed
  split <;> split <;> exact ⟨rfl, rfl⟩

theorem tile_homed (s : State) (n : Nat) (m : Move) (k : Nat) : (s.homed n m).tile k = if k = n then
    ⟨if m.dstFlash then .flash else .dram, if m.dstFlash then (s.tile n).pin else ((s.tile n).pin || m.pin), m.dst,
      m.dstFlash && m.why == .evacuate⟩ else s.tile k := by
  have hk : ((s.sourceFreed m).destTaken n m).tile k = s.tile k := by rw [tile, (destTaken_keeps s n m).1]; rfl
  rw [← hk]
  exact tile_tileSet _ n k _

theorem move_homed (s : State) (n : Nat) (m : Move) : Map.get? (s.homed n m).ms.moves n = none :=
  (Map.get?_erase _ n n).trans (if_pos rfl)

/-- A move out of DRAM leaves its frame free. -/
theorem frames_homed_flash (s : State) (n : Nat) {m : Move} (hsrc : m.srcFlash = false) (hdst : m.dstFlash = true) :
    Map.get? (s.homed n m).ms.frames m.src = none := by
  simp only [homed, destTaken, sourceFreed, hsrc, hdst, if_true, Bool.false_eq_true, if_false]
  exact (Map.get?_erase s.ms.frames m.src m.src).trans (if_pos rfl)

/-- A move out of flash into DRAM leaves its flash tile free, and its frame holds the tile. -/
theorem frames_homed_dram {s : State} {f : Frame} (n : Nat) {m : Move} (hsrc : m.srcFlash = true) (hdst : m.dstFlash = false)
    (hf : Map.get? s.ms.frames m.dst = some f) : Map.get? (s.homed n m).ms.ftiles m.src = none ∧
    Map.get? (s.homed n m).ms.frames m.dst = some { f with use := .tile n } := by
  simp only [homed, destTaken, sourceFreed, hsrc, hdst, if_true, Bool.false_eq_true, if_false]
  refine ⟨(Map.get?_erase s.ms.ftiles m.src m.src).trans (if_pos rfl), ?_⟩
  have hset : Map.get? (Map.modify s.ms.frames m.dst fun f => { f with use := .tile n }) m.dst = some { f with use := .tile n } := by
    rw [Map.get?_modify, if_pos rfl, hf]
    rfl
  exact hset

/-- The commit counts, and the bytes written. -/
def commitCounted (s : State) (n : Nat) (m : Move) : State :=
  ((s.homed n m).bump (R.MPD_MOVE_CNT m.mover)).countDram true (n * tileBytes) tileBytes

theorem commitCounted_frame (s : State) (n : Nat) (m : Move) :
    s.commitCounted n m = { s.homed n m with regs := (s.commitCounted n m).regs } := by
  have h := (countDram_counts ((s.homed n m).bump (R.MPD_MOVE_CNT m.mover)) true (n * tileBytes) tileBytes).1
  rw [commitCounted, h]
  rfl

/-- A commit counts in its mover's page and in those of the stacks, near their start. -/
theorem rd_commitCounted (s : State) (n : Nat) (m : Move) {a : Nat} (ha : 0x148 ≤ a % 4096) : (s.commitCounted n m).rd a = s.rd a := by
  have hc := (countDram_counts ((s.homed n m).bump (R.MPD_MOVE_CNT m.mover)) true (n * tileBytes) tileBytes).2
  have hwr : ∀ k, canon a ≠ canon (R.DRP_WR_BYTES_LO k) ∧ canon a ≠ canon (R.DRP_WR_BYTES_LO k + 4) := fun k =>
    ⟨canon_ne_of_off (by simp only [R.DRP_WR_BYTES_LO]; omega), canon_ne_of_off (by simp only [R.DRP_WR_BYTES_LO]; omega)⟩
  have hmove : canon a ≠ canon (R.MPD_MOVE_CNT m.mover) := canon_ne_of_off (by simp only [R.MPD_MOVE_CNT]; omega)
  rw [commitCounted, hc a hwr, bump_eq, rd_wr_ne _ _ hmove]
  exact rd_congr (by rw [homed_msOnly s n m]) a

/-- A commit keeps what waits and what evacuates. -/
theorem homed_ms (s : State) (n : Nat) (m : Move) : (s.homed n m).ms.waits = s.ms.waits ∧ (s.homed n m).ms.evacuating = s.ms.evacuating :=
  ⟨(destTaken_keeps s n m).2.1, (destTaken_keeps s n m).2.2.1⟩

/-- A commit while no access waits and no evacuation is begun. -/
theorem commitMove_demote {s : State} {n : Nat} {m : Move} (hsrc : m.srcFlash = false) (hdst : m.dstFlash = true) (hwhy : m.why = .demote)
    (hwaits : s.ms.waits = []) (hevac : s.ms.evacuating = []) :
    s.commitMove n m = (s.commitCounted n m).bump R.MPD_DEMOTE_CNT := by
  have hfr := commitCounted_frame s n m
  have hms : (s.commitCounted n m).ms = (s.homed n m).ms := by rw [hfr]
  obtain ⟨hw, he⟩ := homed_ms s n m
  have hend : s.commitMove n m = (((s.commitCounted n m).bump R.MPD_DEMOTE_CNT).applyHeld n).evacEnd (stackOf m.src) := by
    simp only [commitMove, hsrc, hdst, hwhy, endWhy]
    simp [commitCounted, homed, destTaken, sourceFreed, hsrc, hdst, hwhy]
  have hheld := applyHeld_none (s := (s.commitCounted n m).bump R.MPD_DEMOTE_CNT) n (by rw [bump_eq, wr_ms, hms, hw, hwaits])
  rw [hend, hheld, evacEnd_none _ (by rw [bump_eq, wr_ms, hms, he, hevac])]

theorem commitMove_promote {s : State} {n : Nat} {m : Move} (hsrc : m.srcFlash = true) (hdst : m.dstFlash = false) (hwhy : m.why = .promote)
    (hwaits : s.ms.waits = []) (hevac : s.ms.evacuating = []) :
    s.commitMove n m = ((s.snapReads n).commitCounted n m).bump R.MPD_PROMOTE_CNT := by
  obtain ⟨v, hv⟩ : ∃ v, v = s.snapReads n := ⟨_, rfl⟩
  have hfr := commitCounted_frame v n m
  have hms : (v.commitCounted n m).ms = (v.homed n m).ms := by rw [hfr]
  obtain ⟨hw, he⟩ := homed_ms v n m
  have hvw : v.ms.waits = [] := by rw [hv]; exact hwaits
  have hve : v.ms.evacuating = [] := by rw [hv]; exact hevac
  have hend : s.commitMove n m = ((v.commitCounted n m).bump R.MPD_PROMOTE_CNT).applyHeld n := by
    have htile : v.tile n = s.tile n := by rw [hv]; rfl
    have hcounted : (v.commitCounted n m).ms.evacuating.contains (stackOf m.dst) = false := by rw [hms, he, hve]; rfl
    simp only [commitCounted, homed, destTaken, sourceFreed, hsrc, hdst, Bool.false_and, Bool.false_eq_true, if_true, if_false, htile] at hcounted ⊢
    simp only [commitMove, hsrc, hdst, hwhy, endWhy, ← hv, Bool.false_and, Bool.false_eq_true, if_true, if_false, hcounted, Bool.and_false]
  rw [hend, ← hv, applyHeld_none n (by rw [bump_eq, wr_ms, hms, hw, hvw])]

theorem exec_moveCommit_done {s : State} {n : Nat} {m : Move} (hm : Map.get? s.ms.moves n = some m) (hread : m.isRead = true)
    (hver : m.dstFlash = true → m.verified = true) : exec (.moveCommit n [] .done) s = keepQueue s (.next (s.commitMove n m)) := by
  have hready : (m.isRead && (!m.dstFlash || m.verified)) = true := by
    cases hd : m.dstFlash <;> simp_all
  show execMoveCommit n [] .done s = _
  simp only [execMoveCommit, hm, hready, if_true, List.foldl_nil, ite_self]

theorem exec_moveCommit_noCopyA {s : State} {n : Nat} {m : Move} (hm : Map.get? s.ms.moves n = some m) (hread : m.isRead = true)
    (hver : m.dstFlash = true → m.verified = true) :
    exec (.moveCommit n [] .noCopyA) s = keepQueue s (.next (s.loseCopyA.commitMove n m)) := by
  have hready : (m.isRead && (!m.dstFlash || m.verified)) = true := by
    cases hd : m.dstFlash <;> simp_all
  show execMoveCommit n [] .noCopyA s = _
  simp only [execMoveCommit, hm, hready, if_true, List.foldl_nil, ite_self]

theorem exec_moveCommit_dstFail {s : State} {n : Nat} {m : Move} (hm : Map.get? s.ms.moves n = some m) (hread : m.isRead = true)
    (hdst : m.dstFlash = false) : exec (.moveCommit n [] .dstFail) s = keepQueue s (.next (s.abortMove n m 0x0A 2)) := by
  show execMoveCommit n [] .dstFail s = _
  simp only [execMoveCommit, hm, hread, hdst, Bool.not_false, Bool.true_or, Bool.and_true, if_true, List.foldl_nil, ite_self,
    Bool.false_eq_true, if_false]

/-- The table lost copy A and runs on copy B (R154, R164). -/
theorem loseCopyA_spec {s : State} (hB : s.ms.tblB = true) : 
    ∃ r o m, s.loseCopyA = { s with regs := r, outbox := o, msix := m, ms := { s.ms with tblA := false } } := by
  unfold loseCopyA
  split
  · obtain ⟨r, o, m, h⟩ := raiseAll_frame (({ s with ms := { s.ms with tblA := false } } : State).setBits R.MPD_TBL_STAT 0x80000000#32) mpdPages 4
    simp only [h]
    exact ⟨r, o, m, by simp only [setBits_eq, wr_ms, hB, if_true]; rfl⟩
  · have hA : s.ms.tblA = false := by simpa using ‹¬s.ms.tblA = true›
    exact ⟨s.regs, s.outbox, s.msix, by rw [← hA]⟩

/-- A move of a tile to DRAM ends without commit while no access waits: its destination is free, its source its home (R154). -/
def aborted (s : State) (n : Nat) (m : Move) : State :=
  let u := s.freeFrameAt m.dst
  let u : State := { u with ms := { u.ms with
    moves := Map.erase u.ms.moves n, progs := u.ms.progs.filter (fun p => !(p.2.isMove && p.2.tile == n))
    reads := u.ms.reads.filter (fun p => !(p.2.by_ == .move && p.2.tile == n)) } }
  u.tileSet n { u.tile n with st := .flash }

theorem aborted_spec (s : State) (n : Nat) (m : Move) : MsOnly s (s.aborted n m) ∧
    (∀ k, (s.aborted n m).tile k = if k = n then { s.tile n with st := .flash } else s.tile k) ∧
    Map.get? (s.aborted n m).ms.moves n = none ∧ Map.get? (s.aborted n m).ms.frames m.dst = none ∧
    (s.aborted n m).ms.waits = s.ms.waits := by
  refine ⟨msOnly_trans (msOnly_trans (msOnly_ms s _) (msOnly_ms _ _)) (msOnly_ms _ _), fun k => ?_, ?_, ?_, rfl⟩
  · rw [aborted, tile_tileSet]
    rfl
  · exact (Map.get?_erase s.ms.moves n n).trans (if_pos rfl)
  · exact (Map.get?_erase s.ms.frames m.dst m.dst).trans (if_pos rfl)

theorem abortMove_promote {s : State} {n : Nat} {m : Move} (code detail : Nat) (hsrc : m.srcFlash = true) (hdst : m.dstFlash = false)
    (hwhy : m.why = .promote) (hwaits : s.ms.waits = []) :
    s.abortMove n m code detail = (s.aborted n m).bump (R.MPD_MOVE_FAIL m.mover) := by
  have hend : s.abortMove n m code detail = ((s.aborted n m).bump (R.MPD_MOVE_FAIL m.mover)).applyHeld n := by
    simp only [abortMove, hsrc, hdst, hwhy, endWhy, Bool.false_eq_true, if_true, if_false]
    rfl
  rw [hend, applyHeld_none n (by rw [bump_eq, wr_ms, (aborted_spec s n m).2.2.2.2, hwaits])]

/-! ### Writes that waited, and demotion (R153, R156) -/

/-- A write by a local requester to a tile in DRAM stores its bytes and is answered. -/
theorem serve_write_dram {s : State} {x : Access} (hk : x.kind = .write) (hop : x.op = none) (hrem : x.rem = none) (hf : x.fresh < 2 ^ 64)
    (hd : s.deny x.who x.addr true = none) (ht : (s.tile (x.addr / tileBytes)).st = .dram) :
    ∃ f p r, s.serve x = { s with
      mem := Mem.write s.mem x.addr x.data, ms := { s.ms with frames := f, poison := p }, regs := r
      outbox := s.outbox ++ [.reply x.fresh 0 0 []] } := by
  have hdata : s.accStored x = x.data := by simp only [accStored, accBytes, hk]
  obtain ⟨f, r, hfr, -⟩ := dramStored_frame s x x.data
  have hw := writeTile_dram ht
  rw [hdata, hfr] at hw
  have hserve := serve_write hk hd hw (by rw [ht]; decide)
  rw [if_pos rfl] at hserve
  have hlt : ¬2 ^ 64 ≤ x.fresh := by omega
  refine ⟨f, (s.storeAcc x x.data).ms.poison, r, ?_⟩
  rw [hserve]
  simp only [answer, answerWith, hop, hrem, if_neg hlt]
  rfl

end State
end Sys2Proof.Machine

namespace Sys2Proof.Proofs
open Sys2Proof Sys2Proof.Machine Sys2Proof.Machine.State

/-- TILE_MOVE of one DRAM tile to flash (R159). -/
theorem tileMove_flash {s : State} {h n : Nat} {o : RunOp} (hi : OpIssued s h 0x0010 o) (hok : ¬SpanBad o true)
    (hw0 : o.cmd.w0.toNat = n * tileBytes) (hw1 : o.cmd.w1 = 1) (hw2 : o.cmd.w2 = 2) (hd : s.moveDeny o.tenant n false = none)
    (ht : s.tile n = ⟨.dram, false, (s.tile n).loc, (s.tile n).evac⟩) (htier : rgnTier (s.rgn (n / 65536)) ≠ 1)
    (hasks : s.ms.asks = []) (hmove : Map.get? s.ms.moves n = none) :
    ∃ t, exec (.tileMove h) s = .next t ∧
      t = { s with ops := t.ops, ms := { s.ms with asks := [⟨n, .op h, .flash, false⟩] } } ∧ t.op? h = some { o with ran := true } ∧
      ∀ k, k ≠ h → t.op? k = s.op? k := by
  have hdest : spanDest o true = .flash := by rw [spanDest, hw2]; rfl
  have hst : ((s.ranSet h o).tile n).st = .dram := congrArg Tile.st ht
  have hpin : ((s.ranSet h o).tile n).pin = false := congrArg Tile.pin ht
  have hone : s.spanMove h 0x0010 = { s.ranSet h o with ms := { s.ms with asks := [⟨n, .op h, .flash, false⟩] } } := by
    rw [spanMove_one (mv := true) hi rfl hok hw0 hw1 (by rw [hw2]; decide) (by rw [hw2]; decide), hdest, Bool.not_true]
    exact (moveTile_flash (s := s.ranSet h o) hd hst hpin htier).trans (askMove_new hasks hmove)
  refine ⟨_, (congrArg (fun u => keepQueue s (.next u)) hone).trans (keepQueue_of_pending rfl), rfl, op?_opSet_self s h _, fun k hk => ?_⟩
  exact op?_opSet_ne s _ hk

/-- TILE_MOVE that discards a DRAM tile (R159). -/
theorem spanMove_discard {s : State} {h n : Nat} {o : RunOp} (hi : OpIssued s h 0x0010 o) (hok : ¬SpanBad o true)
    (hw0 : o.cmd.w0.toNat = n * tileBytes) (hw1 : o.cmd.w1 = 1) (hw2 : o.cmd.w2 = 3) (hd : s.moveDeny o.tenant n true = none)
    (ht : (s.tile n).st = .dram) :
    s.spanMove h 0x0010 = if s.tileBusy n then (s.ranSet h o).askMove ⟨n, .op h, .discard, false⟩ else (s.ranSet h o).discardAny n := by
  have hdest : spanDest o true = .discard := by rw [spanDest, hw2]; rfl
  rw [spanMove_one (mv := true) hi rfl hok hw0 hw1 (by rw [hw2]; decide) (by rw [hw2]; decide), hdest, Bool.not_true]
  exact moveTile_discard (s := s.ranSet h o) hd ht

/-- TILE_MOVE that discards an idle DRAM tile (R159). -/
theorem tileMove_discard {s : State} {h n : Nat} {o : RunOp} (hi : OpIssued s h 0x0010 o) (hok : ¬SpanBad o true)
    (hw0 : o.cmd.w0.toNat = n * tileBytes) (hw1 : o.cmd.w1 = 1) (hw2 : o.cmd.w2 = 3) (hd : s.moveDeny o.tenant n true = none)
    (ht : (s.tile n).st = .dram) (hidle : s.tileBusy n = false) (hmodel : s.modelTile n = false) (hevac : s.ms.evacuating = []) :
    ∃ t, exec (.tileMove h) s = .next t ∧ t = { s with ops := t.ops, ms := t.ms, mem := t.mem } ∧ t.tile n = Tile.none ∧
      Map.get? t.ms.frames (s.tile n).loc = none ∧ (∀ k, k ≠ n → t.tile k = s.tile k) ∧
      (∀ a, n * tileBytes ≤ a → a < (n + 1) * tileBytes → Mem.get t.mem a = Mem.blank) ∧
      (∀ a, a < n * tileBytes ∨ (n + 1) * tileBytes ≤ a → Mem.get t.mem a = Mem.get s.mem a) ∧ t.op? h = some { o with ran := true } := by
  have hone := spanMove_discard hi hok hw0 hw1 hw2 hd ht
  rw [hidle, if_neg Bool.false_ne_true, discardAny_dram (s := s.ranSet h o) ht hmodel hevac] at hone
  obtain ⟨hframe, hfree, htile⟩ := discardTile_dram (s := s.ranSet h o) ht
  have hrun : exec (.tileMove h) s = .next ((s.ranSet h o).discardTile n) :=
    (congrArg (fun u => keepQueue s (.next u)) hone).trans (keepQueue_of_pending (by rw [hframe]; rfl))
  have hmem := discardTile_mem (s.ranSet h o) n
  refine ⟨_, hrun, by rw [hframe]; rfl, (htile n).trans (if_pos rfl), hfree, fun k hk => (htile k).trans (if_neg hk), fun a h1 h2 => ?_,
    fun a ha => ?_, ?_⟩
  · rw [hmem]
    exact Mem.get_clear_in _ _ _ _ ⟨h1, by rw [Nat.add_one_mul] at h2; exact h2⟩
  · rw [hmem]
    exact Mem.get_clear_out _ _ _ _ (by rwa [Nat.add_one_mul] at ha)
  · rw [hframe]
    exact op?_opSet_self s h _

/-- TILE_MOVE that would discard a busy DRAM tile asks (R159). -/
theorem tileMove_discardBusy {s : State} {h n : Nat} {o : RunOp} (hi : OpIssued s h 0x0010 o) (hok : ¬SpanBad o true)
    (hw0 : o.cmd.w0.toNat = n * tileBytes) (hw1 : o.cmd.w1 = 1) (hw2 : o.cmd.w2 = 3) (hd : s.moveDeny o.tenant n true = none)
    (ht : (s.tile n).st = .dram) (hbusy : s.tileBusy n = true) (hasks : s.ms.asks = []) (hmove : Map.get? s.ms.moves n = none) :
    ∃ t, exec (.tileMove h) s = .next t ∧
      t = { s with ops := t.ops, ms := { s.ms with asks := [⟨n, .op h, .discard, false⟩] } } ∧ t.op? h = some { o with ran := true } := by
  have hone := spanMove_discard hi hok hw0 hw1 hw2 hd ht
  rw [hbusy, if_pos rfl, askMove_new (s := s.ranSet h o) (a := ⟨n, .op h, .discard, false⟩) hasks hmove] at hone
  exact ⟨_, (congrArg (fun u => keepQueue s (.next u)) hone).trans (keepQueue_of_pending rfl), rfl, op?_opSet_self s h _⟩

/-- A TILE_MOVE over a bad span (R159). -/
theorem tileMove_bad {s : State} {h : Nat} {o : RunOp} (hi : OpIssued s h 0x0010 o)
    (hbad : o.cmd.w0.toNat % tileBytes ≠ 0 ∨ o.cmd.w1 = 0 ∨ o.cmd.w3 ≠ 0) :
    ∃ t, exec (.tileMove h) s = .next t ∧ t = { s with ops := t.ops } ∧
      t.op? h = some { o with ran := true, code := 3, detail := 3, failUnit := 0 } := by
  have hspan : SpanBad o (0x0010 == 0x0010) := by
    rcases hbad with h0 | h1 | h3
    · exact .inl h0
    · exact .inr (.inl (by rw [h1]; rfl))
    · simp only [SpanBad]
      tauto
  have hran : (s.ranSet h o).op? h = some { o with ran := true } := op?_opSet_self ..
  have hfail : (s.ranSet h o).opFail h 3 3 = (s.ranSet h o).opSet h { o with ran := true, code := 3, detail := 3, failUnit := 0 } := by
    simp only [opFail, hran]
    exact if_pos hi.2.2.2.1
  have hone := (spanMove_bad hi hspan).trans hfail
  exact ⟨_, (congrArg (fun u => keepQueue s (.next u)) hone).trans (keepQueue_of_pending rfl), rfl, op?_opSet_self _ h _⟩

/-- PREFETCH of one flash tile (R159). -/
theorem prefetch_place {s : State} {h n : Nat} {o : RunOp} (hi : OpIssued s h 0x0011 o) (hok : ¬SpanBad o false)
    (hw0 : o.cmd.w0.toNat = n * tileBytes) (hw1 : o.cmd.w1 = 1) (hw2 : o.cmd.w2 = 0) (hd : s.moveDeny o.tenant n false = none)
    (ht : (s.tile n).st = .flash) (htier : rgnTier (s.rgn (n / 65536)) ≠ 2) (hasks : s.ms.asks = []) (hmove : Map.get? s.ms.moves n = none) :
    ∃ t, exec (.prefetch h) s = .next t ∧
      t = { s with ops := t.ops, ms := { s.ms with asks := [⟨n, .op h, .place, false⟩] } } ∧ t.op? h = some { o with ran := true } := by
  have hone : s.spanMove h 0x0011 = { s.ranSet h o with ms := { s.ms with asks := [⟨n, .op h, .place, false⟩] } } := by
    rw [spanMove_one (mv := false) hi rfl hok hw0 hw1 (by rw [hw2]; decide) (by rw [hw2]; decide), Bool.not_false]
    exact (moveTile_place (s := s.ranSet h o) hd ht htier).trans (askMove_new hasks hmove)
  exact ⟨_, (congrArg (fun u => keepQueue s (.next u)) hone).trans (keepQueue_of_pending rfl), rfl, op?_opSet_self s h _⟩

/-- MOVE_START of a move to flash (R152, R165). -/
theorem moveStart_flash {s : State} {n lt : Nat} {w : MoveWhy} (hasks : s.ms.asks = [⟨n, w, .flash, false⟩]) (hwhy : w ≠ .evacuate)
    (hop : ∀ h o, w = .op h → s.op? h = some o → o.cmd.opcode ≠ 0x0011) (hmove : Map.get? s.ms.moves n = none)
    (haway : Map.get? s.away n = none) (ht : (s.tile n).st = .dram) (hbad : s.moveBad n .flash = false)
    (hload : s.moverLoad (stackOf (s.tile n).loc / 2) < s.rdF (R.MPD_MOVER_CTL (stackOf (s.tile n).loc / 2)) 5 0)
    (hdest : s.flashDest n = some lt) :
    ∃ t, exec (.moveStart n) s = .next t ∧ t = { s with regs := t.regs, ms := t.ms, freeCtr := t.freeCtr } ∧ t.ms.asks = [] ∧
      t.tile n = { s.tile n with st := .movingD } ∧ Map.get? t.ms.ftiles lt = some n ∧
      Map.get? t.ms.moves n = some ⟨stackOf (s.tile n).loc / 2, w, false, (s.tile n).loc, true, lt, false, true, false⟩ ∧
      Map.get? t.ms.progs (Map.nextKey s.ms.progs) = some ⟨lt, n, true⟩ ∧ ∀ k, k ≠ n → t.tile k = s.tile k := by
  have hmover : s.moverOf n (s.tile n) .flash = stackOf (s.tile n).loc / 2 := if_pos ht
  have hat : s.atDest n .flash = false := by simp only [atDest, ht]; rfl
  have hstart : s.startAsk ⟨n, w, .flash, false⟩ = s.beginFlash n (stackOf (s.tile n).loc / 2) ⟨n, w, .flash, false⟩ lt := by
    rw [startAsk_here (a := ⟨n, w, .flash, false⟩) (.inl rfl) hwhy hmove haway (.inl ht) hat (fun _ => hop) hbad (by rw [hmover]; exact hload)]
    simp only [startHere, hdest, hmover]
  obtain ⟨t, hbegin, hframe, hask, htile, hft, hmv, hprog⟩ := beginFlash_spec s n (stackOf (s.tile n).loc / 2) ⟨n, w, .flash, false⟩ lt
  have hrun : exec (.moveStart n) s = .next t := by
    rw [exec_moveStart (a := ⟨n, w, .flash, false⟩) hasks, hstart, hbegin]
    exact keepQueue_of_pending (by rw [hframe])
  refine ⟨t, hrun, hframe, ?_, (htile n).trans (if_pos rfl), hft, hmv, hprog, fun k hk => (htile k).trans (if_neg hk)⟩
  rw [hask, hasks]
  exact List.erase_cons_head ..

/-- MOVE_START of a move to DRAM (R152, R165). -/
theorem moveStart_dram {s : State} {n loc m : Nat} {w : MoveWhy} {pin : Bool} (hasks : s.ms.asks = [⟨n, w, .place, pin⟩])
    (hwhy : w ≠ .evacuate) (hmove : Map.get? s.ms.moves n = none) (haway : Map.get? s.away n = none) (ht : (s.tile n).st = .flash)
    (hbad : s.moveBad n .place = false) (hm : m = s.moverOf n (s.tile n) .place) (hload : s.moverLoad m < s.rdF (R.MPD_MOVER_CTL m) 5 0)
    (hdest : s.dramDest n .place = some loc) :
    ∃ t, exec (.moveStart n) s = .next t ∧ t = { s with ms := t.ms } ∧ t.ms.asks = [] ∧
      t.tile n = { s.tile n with st := .movingF } ∧ (∃ f, Map.get? t.ms.frames loc = some f ∧ f.use = .dest n) ∧
      Map.get? t.ms.moves n = some ⟨m, w, true, (s.tile n).loc, false, loc, pin, false, false⟩ ∧
      Map.get? t.ms.reads (Map.nextKey s.ms.reads) = some ⟨n, s.ft, .move, false, none⟩ ∧ ∀ k, k ≠ n → t.tile k = s.tile k := by
  subst hm
  have hat : s.atDest n .place = false := by simp only [atDest, ht]; rfl
  have hstart : s.startAsk ⟨n, w, .place, pin⟩ = s.beginDram n (s.moverOf n (s.tile n) .place) ⟨n, w, .place, pin⟩ loc := by
    have hstay : (s.tile n).st = .dram → ∀ h o, w = .op h → s.op? h = some o → o.cmd.opcode ≠ 0x0011 := by simp [ht]
    rw [startAsk_here (a := ⟨n, w, .place, pin⟩) (.inr rfl) hwhy hmove haway (.inr ht) hat hstay hbad hload]
    simp only [startHere, hdest]
  obtain ⟨t, hbegin, hframe, hask, htile, hfr, hmv, hread⟩ := beginDram_spec (s.moverOf n (s.tile n) .place) ⟨n, w, .place, pin⟩ loc ht
  have hrun : exec (.moveStart n) s = .next t := by
    rw [exec_moveStart (a := ⟨n, w, .place, pin⟩) hasks, hstart, hbegin]
    exact keepQueue_of_pending (by rw [hframe])
  refine ⟨t, hrun, hframe, ?_, (htile n).trans (if_pos rfl), hfr, hmv, hread, fun k hk => (htile k).trans (if_neg hk)⟩
  rw [hask, hasks]
  exact List.erase_cons_head ..

/-- A commit, and the count of its cause, beside the tiles and moves it leaves. -/
theorem commitCounted_bump (s : State) (n : Nat) (m : Move) {r : Nat} (hr : 0x148 ≤ r % 4096) :
    ∃ t, ((s.commitCounted n m).bump r) = t ∧ t = { s with regs := t.regs, ms := (s.homed n m).ms } ∧ t.rd r = satAdd32 (s.rd r) 1 := by
  refine ⟨_, rfl, ?_, ?_⟩
  · rw [bump_eq, commitCounted_frame, homed_msOnly s n m]
    rfl
  · rw [bump_eq, rd_wr_self, rd_commitCounted s n m hr]

/-- MOVE_COMMIT of a demotion (R152, R156). -/
theorem moveCommit_demote {s : State} {n : Nat} {m : Move} (hm : Map.get? s.ms.moves n = some m) (hread : m.isRead = true)
    (hdst : m.dstFlash = true) (hver : m.verified = true) (hsrc : m.srcFlash = false) (hwhy : m.why = .demote) (hwaits : s.ms.waits = [])
    (hevac : s.ms.evacuating = []) :
    ∃ t, exec (.moveCommit n [] .done) s = .next t ∧ t = { s with regs := t.regs, ms := t.ms } ∧
      t.tile n = ⟨.flash, (s.tile n).pin, m.dst, false⟩ ∧ Map.get? t.ms.moves n = none ∧ Map.get? t.ms.frames m.src = none ∧
      (∀ k, k ≠ n → t.tile k = s.tile k) ∧ t.rd R.MPD_DEMOTE_CNT = satAdd32 (s.rd R.MPD_DEMOTE_CNT) 1 := by
  obtain ⟨t, ht, hframe, hcnt⟩ := commitCounted_bump s n m (r := R.MPD_DEMOTE_CNT) (by decide)
  have hrun : exec (.moveCommit n [] .done) s = .next t := by
    rw [exec_moveCommit_done hm hread fun _ => hver, commitMove_demote hsrc hdst hwhy hwaits hevac, ht]
    exact keepQueue_of_pending (by rw [hframe])
  have htile : ∀ k, t.tile k = (s.homed n m).tile k := fun k => by rw [hframe]; rfl
  refine ⟨t, hrun, by rw [hframe], ?_, ?_, ?_, fun k hk => ?_, hcnt⟩
  · rw [htile, tile_homed, if_pos rfl, hdst, hwhy]
    rfl
  · rw [hframe]
    exact move_homed s n m
  · rw [hframe]
    exact frames_homed_flash s n hsrc hdst
  · rw [htile, tile_homed, if_neg hk]

/-- MOVE_COMMIT of a promotion (R152, R156). -/
theorem moveCommit_promote {s : State} {n : Nat} {m : Move} {f : Frame} (hm : Map.get? s.ms.moves n = some m) (hread : m.isRead = true)
    (hdst : m.dstFlash = false) (hsrc : m.srcFlash = true) (hwhy : m.why = .promote) (hwaits : s.ms.waits = []) (hevac : s.ms.evacuating = [])
    (hf : Map.get? s.ms.frames m.dst = some f) :
    ∃ t, exec (.moveCommit n [] .done) s = .next t ∧ t = { s with regs := t.regs, ms := t.ms } ∧
      t.tile n = ⟨.dram, (s.tile n).pin || m.pin, m.dst, false⟩ ∧ Map.get? t.ms.moves n = none ∧ Map.get? t.ms.ftiles m.src = none ∧
      Map.get? t.ms.frames m.dst = some { f with use := .tile n } ∧
      (∀ k, k ≠ n → t.tile k = s.tile k) ∧ t.rd R.MPD_PROMOTE_CNT = satAdd32 (s.rd R.MPD_PROMOTE_CNT) 1 := by
  obtain ⟨t, ht, hframe, hcnt⟩ := commitCounted_bump (s.snapReads n) n m (r := R.MPD_PROMOTE_CNT) (by decide)
  have hrun : exec (.moveCommit n [] .done) s = .next t := by
    rw [exec_moveCommit_done hm hread fun h => absurd (h.symm.trans hdst) Bool.noConfusion, commitMove_promote hsrc hdst hwhy hwaits hevac, ht]
    exact keepQueue_of_pending (by rw [hframe]; rfl)
  have htile : ∀ k, t.tile k = ((s.snapReads n).homed n m).tile k := fun k => by rw [hframe]; rfl
  obtain ⟨hft, hfr⟩ := frames_homed_dram (s := s.snapReads n) n hsrc hdst hf
  refine ⟨t, hrun, by rw [hframe]; rfl, ?_, ?_, ?_, ?_, fun k hk => ?_, hcnt⟩
  · rw [htile, tile_homed, if_pos rfl, hdst]
    rfl
  · rw [hframe]
    exact move_homed _ n m
  · rw [hframe]
    exact hft
  · rw [hframe]
    exact hfr
  · rw [htile, tile_homed, if_neg hk]
    rfl

/-- MOVE_COMMIT whose DRAM destination failed (R154). -/
theorem moveCommit_dstFail {s : State} {n : Nat} {m : Move} (hm : Map.get? s.ms.moves n = some m) (hread : m.isRead = true)
    (hdst : m.dstFlash = false) (hsrc : m.srcFlash = true) (hwhy : m.why = .promote) (hwaits : s.ms.waits = []) :
    ∃ t, exec (.moveCommit n [] .dstFail) s = .next t ∧ t = { s with regs := t.regs, ms := t.ms } ∧
      t.tile n = { s.tile n with st := .flash } ∧ Map.get? t.ms.moves n = none ∧ Map.get? t.ms.frames m.dst = none ∧
      ∀ k, k ≠ n → t.tile k = s.tile k := by
  obtain ⟨hms, htile, hmove, hfr, -⟩ := aborted_spec s n m
  have hrun : exec (.moveCommit n [] .dstFail) s = .next ((s.aborted n m).bump (R.MPD_MOVE_FAIL m.mover)) := by
    rw [exec_moveCommit_dstFail hm hread hdst, abortMove_promote 0x0A 2 hsrc hdst hwhy hwaits]
    exact keepQueue_of_pending (by rw [hms]; rfl)
  exact ⟨_, hrun, by rw [hms]; rfl, (htile n).trans (if_pos rfl), hmove, hfr, fun k hk => (htile k).trans (if_neg hk)⟩

/-- MOVE_COMMIT that cannot write the table's copy A (R154). -/
theorem moveCommit_noCopyA {s : State} {n : Nat} {m : Move} (hm : Map.get? s.ms.moves n = some m) (hread : m.isRead = true)
    (hdst : m.dstFlash = true) (hver : m.verified = true) (hsrc : m.srcFlash = false) (hwhy : m.why = .demote) (hwaits : s.ms.waits = [])
    (hevac : s.ms.evacuating = []) (hB : s.ms.tblB = true) :
    ∃ t, exec (.moveCommit n [] .noCopyA) s = .next t ∧ t.ms.tblA = false ∧ t.ms.tblB = true ∧
      t.tile n = ⟨.flash, (s.tile n).pin, m.dst, false⟩ ∧ Map.get? t.ms.moves n = none := by
  obtain ⟨r, o, x, hlose⟩ := loseCopyA_spec hB
  have hpend : s.loseCopyA.pending = s.pending := by rw [hlose]
  have hkeep : s.loseCopyA.ms = { s.ms with tblA := false } := by rw [hlose]
  have hrun := exec_moveCommit_noCopyA hm hread fun _ => hver
  have htileA : s.loseCopyA.tile n = s.tile n := by rw [tile, hkeep]; rfl
  generalize s.loseCopyA = u at hpend hkeep hrun htileA
  have hcommit := commitMove_demote (s := u) (n := n) hsrc hdst hwhy (by rw [hkeep]; exact hwaits) (by rw [hkeep]; exact hevac)
  obtain ⟨t, ht, hframe, -⟩ := commitCounted_bump u n m (r := R.MPD_DEMOTE_CNT) (by decide)
  rw [hcommit, ht, keepQueue_of_pending (by rw [hframe]; exact hpend)] at hrun
  obtain ⟨hA, hB'⟩ := tbl_homed u n m
  refine ⟨t, hrun, ?_, ?_, ?_, ?_⟩
  · rw [hframe]
    exact hA.trans (by rw [hkeep])
  · rw [hframe]
    exact hB'.trans (by rw [hkeep]; exact hB)
  · rw [hframe]
    refine (tile_homed u n m n).trans ?_
    rw [if_pos rfl, hdst, hwhy, htileA]
    rfl
  · rw [hframe]
    exact move_homed u n m

/-- WAITING_WRITE_PROCEED of a write to a tile in DRAM (R153). -/
theorem waitingWrite_dram {s : State} {k : Nat} {w : WaitWr} (hk : s.ms.waits[k]? = some w) (hheld : w.held = false) (hop : w.acc.op = none)
    (hrem : w.acc.rem = none) (hkind : w.acc.kind = .write) (hf : w.acc.fresh < 2 ^ 64) (hd : s.deny w.acc.who w.acc.addr true = none)
    (ht : (s.tile (w.acc.addr / tileBytes)).st = .dram) :
    ∃ t, exec (.waitingWriteProceed k) s = .next t ∧ t.ms.waits = s.ms.waits.eraseIdx k ∧ t.ms.tiles = s.ms.tiles ∧
      t = { s with ms := t.ms, mem := t.mem, regs := t.regs, outbox := s.outbox ++ [.reply w.acc.fresh 0 0 []] } ∧
      Mem.read t.mem w.acc.addr w.acc.data.length = w.acc.data ∧
      ∀ a, a < w.acc.addr ∨ w.acc.addr + w.acc.data.length ≤ a → Mem.get t.mem a = Mem.get s.mem a := by
  obtain ⟨f, p, r, hserve⟩ := serve_write_dram (s := { s with ms := { s.ms with waits := s.ms.waits.eraseIdx k } }) hkind hop hrem hf hd ht
  have hrun : exec (.waitingWriteProceed k) s =
      keepQueue s (.next (({ s with ms := { s.ms with waits := s.ms.waits.eraseIdx k } } : State).serve w.acc)) := by
    show execWaitingWriteProceed k s = _
    simp only [execWaitingWriteProceed, hk, hheld, Bool.false_eq_true, if_false]
    rw [hserve, if_pos rfl]
  rw [hserve] at hrun
  exact ⟨_, hrun.trans (keepQueue_of_pending rfl), rfl, rfl, rfl, Mem.read_write s.mem w.acc.addr w.acc.data, fun a ha => Mem.get_write_out s.mem _ _ a ha⟩

/-- WAITING_WRITE_PROCEED of a write that is held (R153). -/
theorem waitingWrite_held {s : State} {k : Nat} {w : WaitWr} (hk : s.ms.waits[k]? = some w) (hheld : w.held = true) :
    exec (.waitingWriteProceed k) s = .next s := by
  show execWaitingWriteProceed k s = _
  simp only [execWaitingWriteProceed, hk, hheld, if_true]
  exact keepQueue_of_pending rfl

/-- ACCESS_BIT_SAMPLE (R156). -/
theorem accessBitSample_refs (s : State) : ∃ t, exec .accessBitSample s = .next t ∧ t = { s with ms := { s.ms with frames := t.ms.frames } } ∧
    ∀ k f, Map.get? s.ms.frames k = some f → Map.get? t.ms.frames k = some { f with acc := false, ref := f.acc } := by
  refine ⟨_, keepQueue_of_pending rfl, rfl, fun k f hf => ?_⟩
  have hval : Map.get? (Map.mapVals s.ms.frames fun _ f => { f with acc := false, ref := f.acc }) k = some { f with acc := false, ref := f.acc } := by
    rw [Map.get?_mapVals, hf]
    rfl
  exact hval

/-- The clock's sweep changes frames alone. -/
theorem clockSweep_frame (s : State) (o : Nat) : ∃ f, (s.clockSweep o).2 = s.framesSet f := by
  unfold clockSweep
  simp only
  split <;> exact ⟨_, rfl⟩

/-- DEMOTION of the clock's victim (R156). -/
theorem demotion_victim {s u : State} {o loc n : Nat} {f : Frame} (ho : o < 64) (hfree : s.dFree o + s.demoting o < 256)
    (hfull : s.rdB R.FTL_STAT 1 = false) (hsweep : s.clockSweep o = (some loc, u)) (hf : Map.get? u.ms.frames loc = some f)
    (huse : f.use = .tile n) (hasks : u.ms.asks = []) (hmove : Map.get? u.ms.moves n = none) :
    ∃ t, exec (.demotion o) s = .next t ∧ t.pending = s.pending ∧ t.ms.asks = [⟨n, .demote, .flash, false⟩] ∧
      t.owner o = { u.owner o with clock := loc + 1 } ∧ t.mem = u.mem ∧ t.regs = u.regs ∧ t.ms.tiles = s.ms.tiles := by
  obtain ⟨fs, hfs⟩ := clockSweep_frame s o
  rw [hsweep] at hfs
  have hu : u = s.framesSet fs := hfs
  have hask := askMove_new (s := u.ownerSet o { u.owner o with clock := loc + 1 }) (a := ⟨n, .demote, .flash, false⟩) hasks hmove
  have hrun : exec (.demotion o) s = keepQueue s (.next ((u.ownerSet o { u.owner o with clock := loc + 1 }).askMove ⟨n, .demote, .flash, false⟩)) := by
    have hf' : Map.get? (u.ownerSet o { u.owner o with clock := loc + 1 }).ms.frames loc = some f := hf
    show execDemotion o s = _
    rw [execDemotion, if_pos ⟨ho, hfree, hfull⟩, hsweep]
    simp only [hf', Option.map_some, huse]
  rw [hask, keepQueue_of_pending (by rw [hu]; rfl)] at hrun
  refine ⟨_, hrun, by rw [hu]; rfl, rfl, ?_, rfl, rfl, by rw [hu]; rfl⟩
  exact (owner_ownerSet u o o { u.owner o with clock := loc + 1 }).trans (if_pos rfl)

/-- DEMOTION with nothing to do (R156). -/
theorem demotion_idle {s : State} {o : Nat} (h : 256 ≤ s.dFree o + s.demoting o ∨ s.rdB R.FTL_STAT 1 = true) :
    exec (.demotion o) s = .next s := by
  have hno : ¬(o < 64 ∧ s.dFree o + s.demoting o < 256 ∧ s.rdB R.FTL_STAT 1 = false) := by
    rintro ⟨-, hfree, hstat⟩
    rcases h with h | h
    · omega
    · simp [hstat] at h
  show execDemotion o s = _
  rw [execDemotion, if_neg hno]
  exact keepQueue_of_pending rfl

/-- Settles O15, a clause to a lemma. -/
theorem tileMoves : Obligations.TileMoves := by
  unfold Obligations.TileMoves
  refine ⟨?_, ?_, ?_, ?_, ?_, ?_, ?_, ?_, ?_, ?_, ?_, ?_, ?_, ?_, ?_, ?_⟩
  · intro s h n o hi hw0 hend hw1 hw2 hw3 hw4 hw5 hw6 hw7
    exact tileMove_flash hi (not_spanBad hw0 hend hw1 (.inr ⟨rfl, .inl hw2⟩) hw3 hw4 hw5 hw6 hw7) hw0 hw1 hw2
  · intro s h n o hi hw0 hend hw1 hw2 hw3 hw4 hw5 hw6 hw7
    exact tileMove_discard hi (not_spanBad hw0 hend hw1 (.inr ⟨rfl, .inr hw2⟩) hw3 hw4 hw5 hw6 hw7) hw0 hw1 hw2
  · intro s h n o hi hw0 hend hw1 hw2 hw3 hw4 hw5 hw6 hw7
    exact tileMove_discardBusy hi (not_spanBad hw0 hend hw1 (.inr ⟨rfl, .inr hw2⟩) hw3 hw4 hw5 hw6 hw7) hw0 hw1 hw2
  · exact fun s h o => tileMove_bad
  · intro s h n o hi hw0 hend hw1 hw2 hw3 hw4 hw5 hw6 hw7
    exact prefetch_place hi (not_spanBad hw0 hend hw1 (.inl hw2) hw3 hw4 hw5 hw6 hw7) hw0 hw1 hw2
  · exact fun s n lt w => moveStart_flash
  · exact fun s n loc m w pin => moveStart_dram
  · exact fun s n m => moveCommit_demote
  · exact fun s n m f => moveCommit_promote
  · exact fun s n m => moveCommit_dstFail
  · exact fun s n m => moveCommit_noCopyA
  · exact fun s k w => waitingWrite_dram
  · exact fun s k w => waitingWrite_held
  · exact accessBitSample_refs
  · exact fun s u o loc n f => demotion_victim
  · exact fun s o => demotion_idle

end Sys2Proof.Proofs
end

section
/-! PROOFS. Flash, fences and failures (O16). -/
namespace Sys2Proof.Proofs
open Sys2Proof Sys2Proof.Machine Sys2Proof.Machine.State

/-- Two DRAM tiles whose records name one frame, of stack 1: tile 1's, and tile 0's, which the frame of stack 0 held for tile 0 is not.
O16 asks no agreement of homes and frames. -/
def crossHomed : State :=
  { State.reset with ms := { State.reset.ms with
      tiles := [(0, ⟨.dram, false, 2 ^ 24, false⟩), (1, ⟨.dram, false, 2 ^ 24, false⟩)]
      frames := [(0, ⟨.tile 0, 0, false, false⟩), (2 ^ 24, ⟨.tile 1, 0, false, false⟩)] } }

/-- MPD 0 faults: its stacks are fenced one after the other. -/
def crossFaulted : State := ((crossHomed.fenceAtOnce 0).fenceAtOnce 1).errLatch 0xD0 2 0

/-- The frame of stack 1 holds tile 1 when MPD 0 faults. -/
theorem crossHomed_frame :
    crossHomed.ms.frames.any (fun p => stackOf p.1 / 2 == 0 && p.2.use == .tile 1) = true := by decide +kernel

/-- The fence of stack 0 loses tile 0, and with it frees the frame that tile 0's record names: the fence of stack 1 finds no frame there. -/
theorem crossHomed_freed : (crossHomed.fenceAtOnce 0).ms.frames = [] := by decide +kernel

/-- So tile 1 is not lost. -/
theorem crossFaulted_tile : (crossFaulted.tile 1).st = .dram := by decide +kernel

theorem crossHomed_fault : exec (.mpdFault 0) crossHomed = .next crossFaulted := keepQueue_of_pending (by decide +kernel)

/-- Refutes O16: its clause of MPD_FAULT speaks of every tile held by a frame of the MPD's stacks when the fault comes, but the stacks are
fenced in turn, and a tile lost with the first frees the frame its record names, which in a state whose homes and frames do not agree
(`crossHomed`) is another tile's on the second stack; that tile stays as it was. -/
theorem not_flashAndFences : ¬Obligations.FlashAndFences := by
  unfold Obligations.FlashAndFences
  rintro ⟨-, -, -, -, -, -, -, -, -, -, -, hfault, -⟩
  have hport : ∀ p, (portOfStack (2 * 0) = some p ∨ portOfStack (2 * 0 + 1) = some p) →
      crossHomed.portState p ≠ 4 ∧ crossHomed.portState p ≠ 5 ∧ crossHomed.portState p ≠ 7 := by
    rintro p (h | h) <;> exact absurd h (by simp [portOfStack])
  obtain ⟨t, hexec, -, -, htiles⟩ := hfault crossHomed 0 (by decide) rfl rfl rfl rfl hport
  have ht : crossFaulted = t := Host.Outcome.next.inj (crossHomed_fault.symm.trans hexec)
  have hlost := htiles 1
  rw [if_pos crossHomed_frame, ← ht] at hlost
  have hdram : Home.dram = Home.lost := crossFaulted_tile.symm.trans (congrArg Tile.st hlost)
  exact Home.noConfusion hdram

end Sys2Proof.Proofs
end
